-- ==== Sys2Proof/Word.lean ====
section
/-! DEFINITION. The word types of the block: the spec's bytes, its 32-bit and its 64-bit words, and the arithmetic on
numbers that every chapter uses to take a field out of a word or to put one in. -/

namespace Sys2Proof

/-- A byte of memory. -/
abbrev Byte := BitVec 8

/-- A 64-bit word: the width the register file keeps. -/
abbrev Word := BitVec 64

/-- Bits [hi:lo] of a number (the bit ranges of R5). -/
def bits (x hi lo : Nat) : Nat := x / 2 ^ lo % 2 ^ (hi + 1 - lo)

/-- Bit `i` of a number. -/
def bit (x i : Nat) : Nat := x / 2 ^ i % 2

/-- `x` with bits [hi:lo] replaced by the low bits of `v`. -/
def putBits (x hi lo v : Nat) : Nat :=
  x / 2 ^ (hi + 1) * 2 ^ (hi + 1) + v % 2 ^ (hi + 1 - lo) * 2 ^ lo + x % 2 ^ lo

/-- The value of a two's complement field of `w` bits. -/
def signed (x w : Nat) : Int := if x % 2 ^ w < 2 ^ (w - 1) then (x % 2 ^ w : Nat) else (x % 2 ^ w : Nat) - (2 ^ w : Nat)

/-- `x / y` rounded up. -/
def ceilDiv (x y : Nat) : Nat := x / y + if x % y == 0 then 0 else 1

end Sys2Proof
end

