-- ==== Sys2Proof/Syntax.lean ====
section
/-! DEFINITION. The commands of the block: one constructor for each row of the table of operations and events, with the
operands of the command. A requester is 0 for the steward and 1 + port × 1,024 + function for a PCI Express function.
What an operand means stands with the command's meaning in Machine/. -/

namespace Sys2Proof

/-- What a start of the device meets (20_bring_up_and_host_interface.md R477, R478): the board and cold-plate records as
read, whether the boot flash answers, the always-on clock (0 none, 1 the crystal, 2 the reference input), the halt channels
that read asserted, the regulator phases that fail their check (regulator × 8 + phase), a DRAM channel (stack × 32 + channel)
once for each DQ and each command/address lane found to fail, the engine and core sites that fail where the spare map was
rebuilt, and the time from VIN valid to step 9 in ms. -/
structure Env where
  board : List Byte
  plate : List Byte
  flashOk : Bool
  aonClock : Nat
  haltA : Bool
  haltB : Bool
  phases : List Nat
  dq : List Nat
  ca : List Nat
  engines : List Nat
  cores : List Nat
  ms : Nat
  deriving DecidableEq, Repr

/-- A motion-compensated reference of a coded block (R354, R370): how many pictures back its picture was coded, and its motion in
quarter samples. -/
structure MotionRef where
  back : Nat
  dx : Int
  dy : Int
  deriving DecidableEq, Repr

/-- A block that the encoder codes (R366, R370): its first luma column and its width, whether it is inter, its references, the column
after the last one its intra reference samples reach, whether it uses DC prediction, and whether it is coded in forced mode. -/
structure VideoBlock where
  x : Nat
  width : Nat
  inter : Bool
  refs : List MotionRef
  reach : Nat
  dc : Bool
  forced : Bool
  deriving DecidableEq, Repr

/-- A picture that the encoder codes: the bits of its headers, the QP of its first row, the bits of each row at the QP in use, at
qp_max and in forced mode (R366), its units without start code or size field (those whose bytes the spec gives are left out: the
recovery point, the refresh metadata, the temporal delimiter and filler), its blocks, whether it predicts motion from another
picture, and primary_ref_frame. -/
structure CodedPic where
  header : Nat
  qp : Nat
  normal : List Nat
  atMax : List Nat
  forced : List Nat
  units : List (List Byte)
  blocks : List VideoBlock
  tmvp : Bool
  primaryRef : Nat
  deriving DecidableEq, Repr

/-- A rectangle of luma samples. -/
structure Rect where
  x : Nat
  y : Nat
  w : Nat
  h : Nat
  deriving DecidableEq, Repr

/-- A picture that the decoder decodes, in decoding order (R363, R364): its place in output order, how many pictures are output once
it is decoded, whether its slice or tile data hold an error, the blocks that are concealed, its references (0 good, 1 a corrupt one, 2
a missing one), whether it is output at all, its size, whether it carries film grain parameters, and its samples by rows. -/
structure DecodedPic where
  order : Nat
  outs : Nat
  err : Bool
  lost : List Rect
  refs : Nat
  shown : Bool
  width : Nat
  height : Nat
  grain : Bool
  luma : List Nat
  chroma : List Nat
  deriving DecidableEq, Repr

/-- A command: an operation asked of the block, or an event that befalls it. -/
inductive Instr where
  /-- REGISTER_WRITE (R10): A write to a register field that has no row of its own stores or acts on the value
  according to its access code. -/
  | registerWrite (rq : Nat) (area : Bool) (addr : Nat) (value : Nat)
  /-- REGISTER_READ_CLEAR (R10): A read of an RC field returns its value and clears it, keeping any hardware set of
  the same cycle. -/
  | registerReadClear (rq : Nat) (area : Bool) (addr : Nat) (size : Nat)
  /-- HALF_READ_LOW (R506): A 4-byte read of the low half of a 64-bit register returns it and latches the high half
  for that requester. -/
  | halfReadLow (rq : Nat) (area : Bool) (addr : Nat)
  /-- HALF_READ_HIGH (R506): A 4-byte read of the high half returns the latched half, or the current half with its
  RC fields cleared. -/
  | halfReadHigh (rq : Nat) (area : Bool) (addr : Nat)
  /-- HALF_WRITE_LOW (R506): A 4-byte write of the low half of a 64-bit register is held until the requester's next
  access. -/
  | halfWriteLow (rq : Nat) (area : Bool) (addr : Nat) (value : Nat)
  /-- HALF_WRITE_HIGH (R506): A 4-byte write of the high half commits it with the held or current low half, and its
  action bits act then. -/
  | halfWriteHigh (rq : Nat) (area : Bool) (addr : Nat) (value : Nat)
  /-- BAD_SIZE_ACCESS (R506): A narrow write, or a misaligned or oversized access, is discarded or reads 0 and is
  counted. -/
  | badSizeAccess (rq : Nat) (write : Bool)
  /-- SITE_QUERY (R31): A write of STW_SITE_QUERY clears the writer's valid bit and starts a lookup of a logical
  element's binding. -/
  | siteQuery (rq : Nat) (value : Nat)
  /-- SITE_RESULT_VALID (R31): The lookup completes and the writer's STW_SITE_RESULT fields and valid bit are set.
  -/
  | siteResultValid (rq : Nat)
  /-- ENGINE_SUBSTITUTION (R29): A failed engine site during RUN is replaced by the spare engine and the core's beat
  is replayed from its checkpoint. -/
  | engineSubstitution (core : Nat) (engine : Nat) (second : Option Nat) (readable : Bool)
  /-- CORE_SUBSTITUTION (R29): A failed core site during RUN is replaced by core site 16 through mesh bypass and its
  beat is replayed. -/
  | coreSubstitution (site : Nat) (readable : Bool)
  /-- CLUSTER_SUBSTITUTION (R29): A failed cluster site tears down every context with a set on it and binds the
  spare cluster within 5 ms. -/
  | clusterSubstitution (site : Nat)
  /-- DIE_SUBSTITUTION (R29): A retired compute die tears down its contexts and wakes and binds die site 16 within
  20 ms. -/
  | dieSubstitution (site : Nat)
  /-- CODEC_ENGINE_RETIRE (R25): A failed codec engine is retired alone and reported as a service event. -/
  | codecEngineRetire (engine : Nat)
  /-- INGEST_UNIT_RETIRE (R25): A failed ingest unit is retired alone and reported as a service event. -/
  | ingestUnitRetire (site : Nat)
  /-- SHELL_RETIRE (R25): A failed shell retires its stack, sets stack_retired and makes its die site a no-transit
  site. -/
  | shellRetire (site : Nat) (routerDead : Bool)
  /-- ROUTE_INSTALL (R26): After old-route requests drain, the steward installs the changed fabric routes around a
  no-transit site. -/
  | routeInstall
  /-- FIG_LOAD_GO (R61): A write of FIG_LOAD.go queues a load of the image at FIG_SRC into a slot, or is refused
  while one is queued or running. -/
  | figLoadGo (rq : Nat) (part : Nat) (value : Nat)
  /-- LOAD_START (R61): A queued load leaves the queue when fewer than 4 loads run and begins copying and checking.
  -/
  | loadStart
  /-- LOAD_COMPLETE (R58): The loader finishes the checks and decode, staging the slot or recording the first
  failure code. -/
  | loadComplete (index : Nat)
  /-- FIG_SWITCH_GO (R63): A write of FIG_SWITCH.go with a valid slot asks every core of the partition to stop at
  its next beat boundary. -/
  | figSwitchGo (rq : Nat) (part : Nat) (value : Nat)
  /-- FIG_SWITCH_CANCEL (R68): A write of FIG_SWITCH.cancel withdraws a pending switch before every core has
  stopped. -/
  | figSwitchCancel (rq : Nat) (part : Nat) (value : Nat)
  /-- SWITCH_PROCEED (R63): Once every core has stopped, buffers are drained, semaphores released, the new figure
  bound and written and the cores started. -/
  | switchProceed (part : Nat) (time : Nat) (taken : List (Nat × Nat))
  /-- FIG_STAGE_DISCARD (R62): A write of FIG_STAGE.discard invalidates a staged slot, or fails with SLOT_ACTIVE for
  the active one. -/
  | figStageDiscard (rq : Nat) (part : Nat) (slot : Nat) (value : Nat)
  /-- FIG_MINVER_WRITE (R68): A higher FIG_MINVER is stored in non-volatile memory and invalidates staged slots
  below it. -/
  | figMinverWrite (rq : Nat) (part : Nat) (value : Nat)
  /-- PATCH_APPLY (R66): A partial-image record replaces a leaf's program at its next start or beat boundary. -/
  | patchApply (core : Nat)
  /-- LOAD (R81): The LOAD step moves data from a window into tile memory. -/
  | load (core : Nat) (fixed : List Nat) (lost : List Nat)
  /-- STORE (R81): The STORE step moves data from tile memory into a window. -/
  | store (core : Nat) (fixed : List Nat) (lost : List Nat)
  /-- PRODUCT (R82): The PRODUCT step accumulates an m by n product over k plus 1 blocks into a bank. -/
  | product (core : Nat) (fixed : List Nat) (lost : List Nat)
  /-- ROTATE (R125): The ROTATE step applies the block Walsh-Hadamard transform and random signs along each row. -/
  | rotate (core : Nat) (fixed : List Nat) (lost : List Nat)
  /-- QUANT (R85): The QUANT step converts rows to a narrower format with block and fine scales. -/
  | quant (core : Nat) (fixed : List Nat) (lost : List Nat)
  /-- ROW_EXP2 (R136): ROW op 0 writes exp2 of each element. -/
  | rowExp2 (core : Nat) (fixed : List Nat) (lost : List Nat)
  /-- ROW_LOG2 (R136): ROW op 1 writes log2 of each element. -/
  | rowLog2 (core : Nat) (fixed : List Nat) (lost : List Nat)
  /-- ROW_RECIPROCAL (R137): ROW op 2 writes the reciprocal of each element. -/
  | rowReciprocal (core : Nat) (fixed : List Nat) (lost : List Nat)
  /-- ROW_RSQRT (R137): ROW op 3 writes the reciprocal square root of each element. -/
  | rowRsqrt (core : Nat) (fixed : List Nat) (lost : List Nat)
  /-- ROW_DIVIDE_BY_AUX (R140): ROW op 4 divides each row by word 0 of its aux entry. -/
  | rowDivideByAux (core : Nat) (fixed : List Nat) (lost : List Nat)
  /-- ROW_EXP (R137): ROW op 5 writes exp of each element. -/
  | rowExp (core : Nat) (fixed : List Nat) (lost : List Nat)
  /-- ROW_TANH (R137): ROW op 6 writes tanh of each element. -/
  | rowTanh (core : Nat) (fixed : List Nat) (lost : List Nat)
  /-- ROW_SIGMOID (R137): ROW op 7 writes the sigmoid of each element. -/
  | rowSigmoid (core : Nat) (fixed : List Nat) (lost : List Nat)
  /-- ROW_SILU (R137): ROW op 8 writes SiLU of each element. -/
  | rowSilu (core : Nat) (fixed : List Nat) (lost : List Nat)
  /-- ROW_GELU (R137): ROW op 9 writes GELU of each element. -/
  | rowGelu (core : Nat) (fixed : List Nat) (lost : List Nat)
  /-- ROW_SOFTPLUS (R137): ROW op 10 writes softplus of each element. -/
  | rowSoftplus (core : Nat) (fixed : List Nat) (lost : List Nat)
  /-- ROW_MAXIMUM_TO_AUX (R144): ROW op 11 folds each row's maximum into the aux reference m. -/
  | rowMaximumToAux (core : Nat) (fixed : List Nat) (lost : List Nat)
  /-- ROW_EXP2_SCALED_DIFFERENCE (R144): ROW op 12 writes exp2 of each logit less m and adds the row sum to l, in
  bounded mode when set. -/
  | rowExp2ScaledDifference (core : Nat) (fixed : List Nat) (lost : List Nat)
  /-- ROW_SCALE_BY_RECIPROCAL (R144): ROW op 13 multiplies each row by the reciprocal of its row sum l. -/
  | rowScaleByReciprocal (core : Nat) (fixed : List Nat) (lost : List Nat)
  /-- ROW_MEAN_AND_SQUARES (R148): ROW op 14 adds each row's sum, sum of squares and count into its aux entry. -/
  | rowMeanAndSquares (core : Nat) (fixed : List Nat) (lost : List Nat)
  /-- ROW_NORMALISE (R149): ROW op 15 normalises each row by the mean and variance of its aux entry. -/
  | rowNormalise (core : Nat) (fixed : List Nat) (lost : List Nat)
  /-- EPI (R141): The EPI step scales, biases, activates and quantises a bank into tile memory and empties the bank.
  -/
  | epi (core : Nat) (fixed : List Nat) (lost : List Nat)
  /-- HALO (R88): The HALO step pushes rows into a mesh neighbour's tile memory and then adds 1 to its cue. -/
  | halo (core : Nat) (fixed : List Nat) (lost : List Nat) (bad : List Nat) (corrected : Nat) (epoch : Nat)
  /-- WAIT (R89): The WAIT step holds issue until a cue reaches a threshold, parking the core where it follows a
  beat boundary. -/
  | wait (core : Nat)
  /-- WAIT_SATISFIED (R89): A waited cue reaches its threshold, is consumed if asked, and the next step may issue.
  -/
  | waitSatisfied (core : Nat)
  /-- SIGNAL (R90): The SIGNAL step adds a count to a core, cluster or link-die cue once every earlier step has
  completed. -/
  | signal (core : Nat)
  /-- ATOM_ADD_INT32 (R231): ATOM op 0 adds INT32 operands into floor scratchpad elements modulo 2^32. -/
  | atomAddInt32 (core : Nat) (fixed : List Nat) (lost : List Nat)
  /-- ATOM_ADD_FP32 (R231): ATOM op 1 adds FP32 operands into scratchpad elements with one rounding. -/
  | atomAddFp32 (core : Nat) (fixed : List Nat) (lost : List Nat)
  /-- ATOM_ADD_BF16 (R231): ATOM op 2 adds BF16 operands into scratchpad elements with one rounding. -/
  | atomAddBf16 (core : Nat) (fixed : List Nat) (lost : List Nat)
  /-- ATOM_MIN_INT32 (R231): ATOM op 3 stores the signed minimum of INT32 elements. -/
  | atomMinInt32 (core : Nat) (fixed : List Nat) (lost : List Nat)
  /-- ATOM_MAX_INT32 (R231): ATOM op 4 stores the signed maximum of INT32 elements. -/
  | atomMaxInt32 (core : Nat) (fixed : List Nat) (lost : List Nat)
  /-- ATOM_MIN_FP32 (R231): ATOM op 5 stores the FP32 minimum, or the canonical NaN. -/
  | atomMinFp32 (core : Nat) (fixed : List Nat) (lost : List Nat)
  /-- ATOM_MAX_FP32 (R231): ATOM op 6 stores the FP32 maximum, or the canonical NaN. -/
  | atomMaxFp32 (core : Nat) (fixed : List Nat) (lost : List Nat)
  /-- ATOM_MIN_BF16 (R231): ATOM op 7 stores the BF16 minimum, or the canonical NaN. -/
  | atomMinBf16 (core : Nat) (fixed : List Nat) (lost : List Nat)
  /-- ATOM_MAX_BF16 (R231): ATOM op 8 stores the BF16 maximum, or the canonical NaN. -/
  | atomMaxBf16 (core : Nat) (fixed : List Nat) (lost : List Nat)
  /-- ATOM_VECTOR_REDUCE_ADD_FP32 (R232): ATOM op 9 adds a vector of FP32 elements as one atomic unit. -/
  | atomVectorReduceAddFp32 (core : Nat) (fixed : List Nat) (lost : List Nat)
  /-- ATOM_VECTOR_REDUCE_ADD_BF16 (R232): ATOM op 10 adds a vector of BF16 elements as one atomic unit. -/
  | atomVectorReduceAddBf16 (core : Nat) (fixed : List Nat) (lost : List Nat)
  /-- SEM_ACQUIRE (R234): SEM op 0 takes a free semaphore or queues the core as a waiter. -/
  | semAcquire (core : Nat)
  /-- SEM_TRY (R234): SEM op 1 takes a free semaphore or returns BUSY without waiting. -/
  | semTry (core : Nat)
  /-- SEM_RELEASE (R234): SEM op 2 frees a held semaphore or grants it to the next waiter, faulting if not held. -/
  | semRelease (core : Nat)
  /-- SEM_GRANT (R403): A waiting acquire is granted the semaphore by priority and arrival, with the status its mark
  gives. -/
  | semGrant (cell : Nat)
  /-- SEL (R93): The SEL step reads a value, chooses a bucket and may jump, set the dynamic trip and set the live
  row count. -/
  | sel (core : Nat) (fixed : List Nat) (lost : List Nat)
  /-- BEAT (R94): The BEAT step marks a beat boundary, empties unmarked banks and records its beat_id. -/
  | beat (core : Nat) (cycles : Nat)
  /-- WATCHDOG_EXPIRY (R98): The watchdog reaching 192,000 cycles without a beat boundary faults the context with
  WATCHDOG. -/
  | watchdogExpiry (core : Nat)
  /-- SEQ_DOORBELL (R170): A write of PRT_SEQ_DOORBELL makes the sequence unit read the named ring's tail at once.
  -/
  | seqDoorbell (rq : Nat) (part : Nat) (ring : Nat)
  /-- SEQ_TAIL_POLL (R170): The sequence unit reads an enabled ring's tail at least every 0.5 µs and takes its next
  record. -/
  | seqTailPoll (part : Nat) (ring : Nat)
  /-- LOOKUP (R164): The LOOKUP request walks token blocks from the root of the prefix tree and returns matched
  nodes. -/
  | lookup (die : Nat)
  /-- INSERT (R165): The INSERT request adds one block node under a held parent, or reports EXISTS or COLLISION. -/
  | insert (die : Nat)
  /-- RELEASE (R166): The RELEASE request gives up one reference on each named node. -/
  | release (die : Nat)
  /-- VERIFY (R177): The VERIFY request accepts candidate tokens, emits one token and rolls back the cache row. -/
  | verify (die : Nat)
  /-- NODE_READ (R163): The NODE_READ request writes a node's 64-byte form. -/
  | nodeRead (die : Nat)
  /-- FLUSH_SCOPE (R172): The FLUSH_SCOPE request removes every evictable node of the request's scope. -/
  | flushScope (die : Nat)
  /-- PFX_REKEY (R180): A write of PRT_PFX_CTRL.rekey draws a new key and invalidates and logs every node between
  requests. -/
  | pfxRekey (rq : Nat) (part : Nat)
  /-- PFX_FLUSH (R180): A write of PRT_PFX_CTRL.flush removes every evictable node of every scope. -/
  | pfxFlush (rq : Nat) (part : Nat)
  /-- PFX_ENABLE (R168): Setting PRT_PFX_BASE.enable empties the tree region and puts the tree in service. -/
  | pfxEnable (rq : Nat) (part : Nat) (value : Nat)
  /-- SEQ_RING_ENABLE (R170): A write of PRT_SEQ_RING_BASE.enable serves a ring, or abandons its unserved records
  when cleared. -/
  | seqRingEnable (rq : Nat) (part : Nat) (ring : Nat) (value : Nat)
  /-- WAYMAP_WRITE (R229): A change of a way's mode in FLR_WAYMAP starts clearing the way to 0 while holding
  accesses. -/
  | waymapWrite (rq : Nat) (site : Nat) (value : Nat)
  /-- WAYOWN_WRITE (R229): A change of a way's owner in FLR_WAYOWN starts clearing the way to 0. -/
  | wayownWrite (rq : Nat) (site : Nat) (index : Nat) (value : Nat)
  /-- WAY_CLEAR_DONE (R229): A way finishes clearing, busy drops and held accesses proceed. -/
  | wayClearDone (site : Nat) (way : Nat)
  /-- DRAM_TRAIN (R238): A write of DRM_TRAIN.go trains unowned channels of the mask and substitutes spare lanes. -/
  | dramTrain (rq : Nat) (stack : Nat) (value : Nat)
  /-- DRAM_TRAIN_DONE (R238): Training ends, busy drops and result records spares used, retirements or skipped
  channels. -/
  | dramTrainDone (stack : Nat) (dq : List Nat) (ca : List Nat)
  /-- DQ_LANE_FAIL (R239): A DQ lane failing in RUN is corrected by the code and marked pending for the next
  training. -/
  | dqLaneFail (chan : Nat)
  /-- CA_LANE_FAIL (R239): A command/address lane failing in RUN retires its channel at once. -/
  | caLaneFail (chan : Nat)
  /-- CHANNEL_RETIRE (R244): A retired channel shrinks or retires its group, tears down reaching contexts and
  poisons the group. -/
  | channelRetire (chan : Nat)
  /-- GROUP_POISON_DONE (R244): The shell finishes poisoning the group's surviving channels and the group serves
  requests again. -/
  | groupPoisonDone (group : Nat)
  /-- PATROL_SCRUB (R241): The patrol scrub reads lines of every stack once per 24 h of RUN and writes back
  corrected data. -/
  | patrolScrub (stack : Nat) (fixed : List Nat) (lost : List Nat)
  /-- BANK_REPAIR (R242): A bank with 8 repaired rows in 24 h starts a copy to a spare bank at half bandwidth. -/
  | bankRepair (chan : Nat) (bank : Nat)
  /-- BANK_COPY_DONE (R242): The bank copy completes and the channel returns to full bandwidth. -/
  | bankCopyDone (chan : Nat) (bank : Nat)
  /-- STACK_TEMP_SAMPLE (R245): Each 1 ms sample moves a stack between Normal, Warm, Hot and Critical with
  hysteresis. -/
  | stackTempSample (stack : Nat) (temp : Nat)
  /-- DRIVER_MAP_INVAL (R248): A write of DRM_CTX_MAP.inval invalidates a context's cached driver-map translations.
  -/
  | driverMapInval (rq : Nat) (ctx : Nat) (value : Nat)
  /-- PROMOTE (R249): DRM_PROMOTE op 1 starts copying a flash extent into a pinned frame of the pool. -/
  | promote (rq : Nat) (part : Nat) (value : Nat)
  /-- DEMOTE (R249): DRM_PROMOTE op 2 clears an extent's promotion and invalidates its translations. -/
  | demote (rq : Nat) (part : Nat) (value : Nat)
  /-- AUTO_PROMOTE (R249): Reads of an extent reaching the pool threshold within 10 ms start its promotion. -/
  | autoPromote (part : Nat) (extent : Nat)
  /-- PROMOTE_DONE (R249): The extent copy completes, promoted and frame are set and translations invalidated. -/
  | promoteDone (part : Nat)
  /-- FRAME_FREE (R249): A demoted frame is freed once every read that used it has completed. -/
  | frameFree (part : Nat) (frame : Nat)
  /-- FLS_OPEN (R260): FLS_CMD op 1 makes a free entry LOADING from a template and allocates a contiguous run. -/
  | flsOpen (rq : Nat) (entry : Nat)
  /-- FLS_WRITE (R260): FLS_CMD op 2 writes DRAM data into a LOADING object at an offset. -/
  | flsWrite (rq : Nat) (entry : Nat)
  /-- FLS_COMMIT (R260): FLS_CMD op 3 writes parity, reads the object back and makes it VALID when its digest
  matches. -/
  | flsCommit (rq : Nat) (entry : Nat)
  /-- FLS_ABORT (R260): FLS_CMD op 4 returns a LOADING entry to FREE. -/
  | flsAbort (rq : Nat) (entry : Nat)
  /-- FLS_RETIRE (R260): FLS_CMD op 5 frees an entry with no references or makes it RETIRING. -/
  | flsRetire (rq : Nat) (entry : Nat)
  /-- READ_ENTRY (R260): FLS_CMD op 6 copies a catalogue entry to DRAM. -/
  | readEntry (rq : Nat) (entry : Nat)
  /-- FLS_CMD_COMPLETE (R261): A library command ends, busy drops and FLS_STATUS.result records its outcome. -/
  | flsCmdComplete
  /-- RELOCATION (R264): A queued block is copied through correction into a spare block, remapped and erased. -/
  | relocation (block : Nat)
  /-- FLASH_SCRUB (R265): The background scrub reads every block once per 72 h and relocates blocks near margin. -/
  | flashScrub (stack : Nat) (temp : Nat) (near : Bool) (lostBlocks : Nat)
  /-- LAYER_COPY_DONE (R270): A layer copy into its slot completes and every consumer's fill cue is incremented. -/
  | layerCopyDone (part : Nat) (cycles : Nat)
  /-- RING_RELEASE_SEEN (R270): Every consumer's release cue reaches 1, is decremented, and the next copy into the
  slot starts. -/
  | ringReleaseSeen (part : Nat)
  /-- RING_DOORBELL (R277): A doorbell write makes a ring's engine read the descriptor at head within its fetch
  time. -/
  | ringDoorbell (rq : Nat) (ring : Nat) (fixed : List Nat) (lost : List Nat)
  /-- RING_POLL (R277): An idle enabled ring is re-read periodically and a descriptor with own set is taken. -/
  | ringPoll (ring : Nat) (fixed : List Nat) (lost : List Nat)
  /-- DMA_BURST (R286): A DMA burst becomes eligible under its rate cap, wins round robin and moves up to 4 KiB. -/
  | dmaBurst (engine : Nat) (host : Option (List Byte)) (fixed : List Nat) (lost : List Nat)
  /-- DMA_COMPLETE (R281): A descriptor's data is visible and it is written back, handed back and its cue signalled
  in ring order. -/
  | dmaComplete (ring : Nat)
  /-- RING_RESUME (R283): A write of the ring's CTRL.resume leaves the halted state and continues at head. -/
  | ringResume (rq : Nat) (ring : Nat) (value : Nat) (fixed : List Nat) (lost : List Nat)
  /-- RING_CANCEL (R284): A write of the ring's CTRL.cancel starts cancelling its descriptors. -/
  | ringCancel (rq : Nat) (ring : Nat) (value : Nat)
  /-- RING_ENABLE (R284): A write of the ring's BASE.enable sets head to 0, or cancels an enabled ring when 0. -/
  | ringEnable (rq : Nat) (ring : Nat) (value : Nat)
  /-- RING_CANCEL_DONE (R284): In-flight bursts finish, descriptors are written back CANCELLED and the ring is
  disabled. -/
  | ringCancelDone (ring : Nat)
  /-- CUE_EVENT (R288): Counts crossing into a cue in one cycle are added, saturating with sticky overflow. -/
  | cueEvent (part : Nat) (ctx : Option Nat) (sel : Nat) (counts : List Nat)
  /-- CUE_SELECT (R296): A write of EVT_CUE_SEL selects a cue and clears EVT_CUE.valid until its value is read. -/
  | cueSelect (rq : Nat) (part : Nat) (value : Nat)
  /-- CUE_OVERFLOW_CLEAR (R289): A write of 1 to EVT_CUE.overflow clears the selected cue's sticky overflow. -/
  | cueOverflowClear (rq : Nat) (part : Nat) (value : Nat)
  /-- CUE_ADD (R287): A write of EVT_CUE_ADD adds a count to the selected cue as an event. -/
  | cueAdd (rq : Nat) (part : Nat) (value : Nat)
  /-- LANE_SWITCH (R300): A lane with over 1,000 corrected symbols in 1 ms is replaced by the spare lane. -/
  | laneSwitch (link : Nat) (lane : Nat) (failed : Bool)
  /-- CONTROL_FLIT (R304): A received control flit updates cumulative acks and per-VC credits, or carries a NAK. -/
  | controlFlit (link : Nat) (ack : Nat) (credits : List Nat) (corrected : Nat)
  /-- RETRY_REPLAY (R305): On a NAK the sender replays sequenced flits from the count received in order. -/
  | retryReplay (link : Nat)
  /-- LINK_DOWN_TIMEOUT (R304): No valid control flit for 1 ms declares the link down. -/
  | linkDownTimeout (link : Nat)
  /-- GROUP_FAILOVER (R306): A downed link's unacknowledged packets are replayed whole on the group's surviving
  links. -/
  | groupFailover (link : Nat) (seq : Nat) (packet : List Byte)
  /-- FAILOVER_PACKET (R306): A neighbour receiving a failover request discards partial packets and returns the
  in-order count. -/
  | failoverPacket (link : Nat) (seq : Nat) (packet : List Byte)
  /-- LINK_SITE_FAIL (R307): A failed link site fails over, binds a spare site and retrains the port. -/
  | linkSiteFail (site : Nat)
  /-- SITE_RETRAIN_DONE (R307): The substituted site's port finishes training and rejoins its group. -/
  | siteRetrainDone (link : Nat)
  /-- PACKET_ADMIT (R303): A packet is admitted to a link once its VC holds credits for all its flits. -/
  | packetAdmit (link : Nat) (vc : Nat)
  /-- PACKET_FORWARD (R312): A received packet is routed by the routing table, or discarded when unrouted or at the
  hop limit. -/
  | packetForward (link : Nat) (seq : Nat) (packet : List Byte)
  /-- LINK_WRITE_RECEIVE (R310): A write packet is checked against the flow table, epoch and encryption, then
  written and acked or refused. -/
  | linkWriteReceive (link : Nat) (seq : Nat) (packet : List Byte)
  /-- LINK_CUE_RECEIVE (R310): A remote cue-event packet is checked against the flow table and epoch and added to
  its cue. -/
  | linkCueReceive (link : Nat) (seq : Nat) (packet : List Byte)
  /-- END_TO_END_ACK (R311): An end-to-end ack marks a descriptor's packet delivered. -/
  | endToEndAck (link : Nat) (seq : Nat) (packet : List Byte)
  /-- REFUSAL (R311): A refusal completes the source descriptor with the status of its reason. -/
  | refusal (link : Nat) (seq : Nat) (packet : List Byte)
  /-- E2E_TIMEOUT (R311): A packet not acked within tE2E completes its descriptor with LINK_ERROR. -/
  | e2eTimeout (tag : Nat)
  /-- FLOW_TABLE_SYNC (R308): A write of LNK_FLOW_CTRL.sync loads the flow table into every link die between
  packets. -/
  | flowTableSync (rq : Nat) (value : Nat)
  /-- PORT_TRAINING (R320): Each wired port sets its equaliser, trains its lanes and locks its FEC. -/
  | portTraining (link : Nat) (module : List Byte)
  /-- PORT_TRAIN_DONE (R320): A port finishes training, or is down when training has not ended in time. -/
  | portTrainDone (link : Nat) (failed : List Nat) (inTime : Bool)
  /-- IDENTITY_EXCHANGE (R321): Neighbours exchange identity on VC7, check roles and systems and form groups. -/
  | identityExchange (link : Nat) (serial : Nat) (system : Nat) (line : Nat) (round : Nat) (size : Nat) (port : Nat) (role : Nat) (coords : Bool) (root : Bool)
  /-- CANDIDATE_FLOOD (R322): A received root candidate is compared and the best one is flooded and adopted. -/
  | candidateFlood (link : Option Nat) (root : Bool) (serial : Nat)
  /-- ASSIGN (R323): A received ASSIGN gives coordinates and a parent, or is answered KNOWN, possibly setting
  conflict. -/
  | assign (link : Nat) (serial : Nat) (line : Nat) (round : Nat) (hops : Nat)
  /-- ASSIGN_ANSWER (R324): An ACCEPTED or KNOWN answer to an ASSIGN is recorded by the sender. -/
  | assignAnswer (link : Nat) (accepted : Bool) (conflict : Bool)
  /-- PROMENADE_DONE (R324): A DONE with subtree records is passed to the parent once all children have answered. -/
  | promenadeDone (link : Nat) (devs : List Byte) (groups : List Byte)
  /-- MAP_BROADCAST (R324): The topology map is broadcast down the walk tree and routing tables built from it. -/
  | mapBroadcast (link : Option Nat) (devs : List Byte) (groups : List Byte) (us : Nat) (walk : Nat)
  /-- REWALK (R326): A write of LNK_PROM_CTRL.rewalk at the root runs the promenade again. -/
  | rewalk (rq : Nat) (value : Nat)
  /-- ROOT_LOST_TIMEOUT (R326): No ASSIGN 600 ms after the exchange sets root lost and floods again ignoring root
  flags. -/
  | rootLostTimeout
  /-- PORT_ATTACH (R328): A cable attached during RUN trains its port and exchanges identity. -/
  | portAttach (link : Nat) (module : List Byte)
  /-- PORT_RETRAIN_RETRY (R328): A port downed by lane failure is retrained once every 10 s. -/
  | portRetrainRetry (link : Nat)
  /-- ALL_REDUCE (R334): A collective descriptor with op 0 reduces count elements over every member. -/
  | allReduce (ring : Nat)
  /-- REDUCE_SCATTER (R334): A collective descriptor with op 1 leaves chunk r of the reduction at rank r. -/
  | reduceScatter (ring : Nat)
  /-- ALL_GATHER (R334): A collective descriptor with op 2 gathers every rank's block. -/
  | allGather (ring : Nat)
  /-- BROADCAST (R334): A collective descriptor with op 3 copies the root's data to every member. -/
  | broadcast (ring : Nat)
  /-- ALL_TO_ALL (R334): A collective descriptor with op 4 exchanges blocks directly between ranks. -/
  | allToAll (ring : Nat)
  /-- FUSED (R343): A collective descriptor with op 5 runs up to 64 small entries as one operand. -/
  | fused (ring : Nat)
  /-- COL_READY (R339): A READY message permits sending a step's data to its rank, or completes with MISMATCH. -/
  | colReady (link : Nat) (seq : Nat) (packet : List Byte)
  /-- COL_DATA (R339): A DATA packet is combined with the staged partial as it arrives. -/
  | colData (link : Nat) (seq : Nat) (packet : List Byte)
  /-- STAGE_IN_DONE (R339): A segment's source data is read into staging and its steps begin. -/
  | stageInDone (ring : Nat) (fixed : List Nat) (lost : List Nat)
  /-- COL_WRITE_OUT (R339): The last step ends and the segment's results are written to dst. -/
  | colWriteOut (ring : Nat) (fixed : List Nat) (lost : List Nat)
  /-- COL_COMPLETE (R341): A collective descriptor completes with its status, epoch, rank and members written back.
  -/
  | colComplete (ring : Nat)
  /-- STEP_TIMEOUT (R340): A member's step timer expires and it sends SUSPECT against the lowest awaited rank. -/
  | stepTimeout (ring : Nat) (ms : Nat)
  /-- SUSPECT (R345): The leader receives a SUSPECT and gathers further ones for 0.5 ms. -/
  | suspect (link : Nat) (seq : Nat) (packet : List Byte)
  /-- SUSPECT_WINDOW_END (R345): The collection window closes and the leader sends REFORM, or ABORT, and EXCLUDE. -/
  | suspectWindowEnd (entry : Nat)
  /-- REFORM (R345): A survivor ends the group's descriptors RE_FORMED, ranks again and advances its flow epochs. -/
  | reform (link : Nat) (seq : Nat) (packet : List Byte)
  /-- REFORM_ACK (R345): The leader collects a survivor's acknowledgement of the re-formation. -/
  | reformAck (link : Nat) (seq : Nat) (packet : List Byte)
  /-- COL_COMMIT (R345): Survivors receive COMMIT and serve the group in the new epoch. -/
  | colCommit (link : Nat) (seq : Nat) (packet : List Byte)
  /-- COL_ABORT (R346): An ABORT ends the group's descriptors ABORTED and marks the entry broken. -/
  | colAbort (link : Nat) (seq : Nat) (packet : List Byte)
  /-- EXCLUDE (R346): A removed member ends the group's descriptors EXCLUDED and sets excluded. -/
  | exclude (link : Nat) (seq : Nat) (packet : List Byte)
  /-- LEADER_TIMEOUT (R350): No REFORM after a SUSPECT makes the member suspect the leader and try the next rank. -/
  | leaderTimeout (entry : Nat)
  /-- COL_REMOVE (R344): A write of COL_PRT_REMOVE.go sends SUSPECT with cause 4 against a rank. -/
  | colRemove (rq : Nat) (part : Nat) (value : Nat)
  /-- VCE_OPEN (R361): Codec job op 1 checks a session block and allocates a session. -/
  | vceOpen (engine : Nat) (us : Nat) (fixed : List Nat) (lost : List Nat)
  /-- ENCODE (R366): Codec job op 2 codes one picture under rate control and gradual refresh. -/
  | encode (engine : Nat) (pics : List CodedPic) (us : Nat) (fixed : List Nat) (lost : List Nat)
  /-- DECODE (R363): Codec job op 3 decodes whole units into pool buffers and writes records. -/
  | decode (engine : Nat) (bad : List Nat) (pics : List DecodedPic) (us : Nat) (fixed : List Nat) (lost : List Nat)
  /-- DECODE_RESUME (R363): A DECODE waiting for a free pool buffer resumes once one is returned. -/
  | decodeResume (engine : Nat) (session : Nat) (us : Nat)
  /-- VCE_FLUSH (R358): Codec job op 4 outputs held pictures on decode or codes an open mini-GOP on encode. -/
  | vceFlush (engine : Nat) (pics : List CodedPic) (us : Nat)
  /-- VCE_CLOSE (R358): Codec job op 5 ends a session. -/
  | vceClose (engine : Nat) (us : Nat)
  /-- VCE_JOB_COMPLETE (R359): A codec job completes with its status and results written back. -/
  | vceJobComplete (ring : Nat)
  /-- VCE_RETURN (R363): A write of VCE_RETURN returns a held pool buffer, or is counted as a bad return. -/
  | vceReturn (rq : Nat) (engine : Nat) (value : Nat)
  /-- ENGINE_RESET (R373): The control-processor watchdog expires, every session is lost and firmware reloads. -/
  | engineReset (engine : Nat)
  /-- VCE_ENABLE (R373): A steward write of VCE_CTRL enable or partition cancels jobs and closes sessions when
  changed. -/
  | vceEnable (rq : Nat) (engine : Nat) (value : Nat)
  /-- CONVERT (R383): An ingest job converts and normalises each sample of a batch into its slot. -/
  | convert (site : Nat) (us : Nat) (fixed : List Nat) (lost : List Nat)
  /-- INGEST_JOB_COMPLETE (R375): An ingest job completes with replaced and saturated counts written back. -/
  | ingestJobComplete (ring : Nat)
  /-- STREAM_SLOT_RESET (R389): A write of ING_STREAM_CTRL.reset clears a slot's hold and counters between samples.
  -/
  | streamSlotReset (rq : Nat) (site : Nat) (value : Nat)
  /-- INGEST_PUBLISH (R386): Every 1 ms each enabled unit publishes its load record into the status page. -/
  | ingestPublish (failed : List Nat)
  /-- PARTITION_CREATE (R391): A write of PRT_CTRL.create makes a free partition active or sets conflict. -/
  | partitionCreate (rq : Nat) (part : Nat) (value : Nat)
  /-- PARTITION_RESET (R412): A write of PRT_CTRL.reset tears down the partition's contexts and resets its PRT
  domain. -/
  | partitionReset (rq : Nat) (part : Nat) (value : Nat)
  /-- SVC_MODE_WRITE (R393): A write of PRT_SVC_MODE switches the regulators between passing everything and token
  buckets. -/
  | svcModeWrite (rq : Nat) (value : Nat)
  /-- REGULATOR_ADMIT (R393): In a shared service mode a request is admitted once the partition's bucket holds its
  bytes. -/
  | regulatorAdmit (part : Nat) (stack : Nat) (bytes : Nat) (filled : Nat)
  /-- CTX_SET_WRITE (R394): A write of CTX_BIND.set stores the set of an idle context and clears refused. -/
  | ctxSetWrite (rq : Nat) (ctx : Nat) (value : Nat)
  /-- CTX_GO (R394): A write of CTX_RUN.go checks the context's set and makes it ready or sets refused. -/
  | ctxGo (rq : Nat) (ctx : Nat)
  /-- CTX_STOP (R395): A write of CTX_RUN.stop stops the context at beat boundaries and discards its saved state and
  events. -/
  | ctxStop (rq : Nat) (ctx : Nat)
  /-- CTX_CLEAR (R395): A write of CTX_RUN.clear returns a faulted context to idle. -/
  | ctxClear (rq : Nat) (ctx : Nat)
  /-- CTX_KILL (R406): A write of CTX_RUN.kill tears down the context with code OWNER. -/
  | ctxKill (rq : Nat) (ctx : Nat)
  /-- CTX_PRIO_WRITE (R399): A write of CTX_PRIO applies at the next arbitration without revoking grants. -/
  | ctxPrioWrite (rq : Nat) (ctx : Nat) (value : Nat)
  /-- CONTEXT_START (R395): A ready context takes its idle set and starts at step 0 with its held events added. -/
  | contextStart (ctx : Nat)
  /-- YIELD (R400): A context parked on every core for yield_us yields its set to a waiting context. -/
  | yield (ctx : Nat)
  /-- PREEMPT_SAVE (R401): Once a core has stopped it saves its beat state and restores or starts the incoming
  context. -/
  | preemptSave (core : Nat) (fixed : List Nat) (lost : List Nat)
  /-- PREEMPT_GANG_START (R401): When every core has restored, the contexts swap states and the cores start
  together. -/
  | preemptGangStart (part : Nat) (leafSet : Nat)
  /-- HOLD_LIMIT_EXPIRY (R404): A lock-extended context still holding semaphores after hold_us has them revoked. -/
  | holdLimitExpiry (ctx : Nat)
  /-- TEARDOWN_FINISH (R406): After rings cancel, semaphores, links, sequence rings and events are cleared and
  CTX_FAULT written. -/
  | teardownFinish (ctx : Nat)
  /-- MIGRATION_START (R409): A planned migration fences a leaf's core at its next beat boundary and holds results
  for it. -/
  | migrationStart (core : Nat)
  /-- MIGRATION_RESUME (R409): After drain and copy the epoch advances, the binding switches and held results are
  released. -/
  | migrationResume (core : Nat) (toSpare : Bool)
  /-- VIN_SAMPLE (R413): Each backup-clock tick samples VIN and VBAT and declares VIN valid at the 64th good sample.
  -/
  | vinSample (vin : Nat) (vbat : Nat)
  /-- VIN_LOSS (R413): VIN below 36 V for 10 µs stops the device at once without orderly shut-down. -/
  | vinLoss (torn : Option Nat)
  /-- PHASE_FAIL (R415): A failed regulator phase is replaced by the spare, or the regulator is derated or its load
  retired. -/
  | phaseFail (regulator : Nat) (phase : Nat)
  /-- CLUSTER_CLOCK_STOP (R419): A cluster idle or parked for idle_us stops its clock. -/
  | clusterClockStop (site : Nat)
  /-- CLUSTER_GATE (R419): A cluster clock-stopped for gate_ms enters retention. -/
  | clusterGate (site : Nat)
  /-- CLUSTER_WAKE (R419): An event or core need starts a clock-stopped or gated cluster. -/
  | clusterWake (site : Nat)
  /-- GOVERNOR_TICK (R427): Every 100 µs the governor predicts power and sets the device clock ceiling. -/
  | governorTick (vin : Nat) (iin : Nat) (power : Nat) (tj : Nat) (loads : List Nat) (pct : List Nat)
  /-- JUNCTION_TRIP (R431): A junction at 112 °C stops every cluster clock within 10 µs. -/
  | junctionTrip
  /-- TRIP_RELEASE (R431): A tripped junction at 100 °C or below lets clusters resume at step 0. -/
  | tripRelease
  /-- REST_ENTRY (R422): A REST request drains rings, stops cores, stores link settings and turns off rails outside
  the always-on domain. -/
  | restEntry (slack : List Nat) (vmin : List Nat) (drift : List Nat) (eyes : List Nat)
  /-- REST_COLLECTIVE_TIMEOUT (R422): Collectives still in flight at the 200 ms bound of REST entry withdraw. -/
  | restCollectiveTimeout
  /-- WAKE (R425): A wake source brings regulators, dies, DRAM, ports and flash back and resumes contexts. -/
  | wake (source : Nat) (ports : List Nat) (dq : List Nat) (ca : List Nat)
  /-- WAKE_TIMER_EXPIRY (R424): PWR_WAKE_TIMER reaching 0 in REST is wake source 2. -/
  | wakeTimerExpiry
  /-- OFF_ENTRY (R426): An OFF request drains the device, runs the shut-down test, writes records and turns off
  rails. -/
  | offEntry (tested : Nat) (failed : List Nat) (cores : List Nat) (badCores : List Nat)
  /-- AON_REF_LOSS (R434): Loss of the AON reference input switches to the crystal and sets ref_lost. -/
  | aonRefLoss
  /-- REPLAN (R441): After 24 h of IDLE and RUN, or at REST entry, margins are re-planned and the margin table
  written. -/
  | replan (slack : List Nat) (vmin : List Nat) (drift : List Nat) (eyes : List Nat)
  /-- PEAK_CHARGE (R443): Each 1 ms interval at a peak step charges the peak-voltage budget. -/
  | peakCharge
  /-- SELF_TEST_CMD (R448): A write of TST_CMD.go starts tests of the named cores of one cluster. -/
  | selfTestCmd (rq : Nat) (value : Nat)
  /-- SELF_TEST_ABORT (R448): A write of TST_CMD.abort runs no further slice. -/
  | selfTestAbort (rq : Nat) (value : Nat)
  /-- CORE_TEST_SLICE (R448): A core is migrated or saved, cleared, tested and restored or retired. -/
  | coreTestSlice (passed : Bool) (expired : Bool)
  /-- FAULT_LOG_FLUSH (R451): Corrected fault-log entries are written to the record at most once per 10 s. -/
  | faultLogFlush
  /-- STEWARD_TAKEOVER (R453): A lockstep disagreement or stop hands steward duties to the standby controller. -/
  | stewardTakeover (mismatch : Bool) (rec : Option Nat)
  /-- KEY_LOAD (R464): SEC command op 1 unwraps a tenant key blob into a slot. -/
  | keyLoad (rq : Nat) (win : Nat) (index : Nat)
  /-- KEY_ERASE (R463): SEC command op 2 zeroises and frees a tenant slot. -/
  | keyErase (rq : Nat) (win : Nat) (index : Nat)
  /-- KEY_SEAL (R465): SEC command op 3 writes a sealed blob of a tenant key. -/
  | keySeal (rq : Nat) (win : Nat) (index : Nat)
  /-- KEY_UNSEAL (R465): SEC command op 4 loads a tenant key from a sealed blob. -/
  | keyUnseal (rq : Nat) (win : Nat) (index : Nat)
  /-- LINK_KEY_LOAD (R464): SEC command op 5 loads a new link-key generation into a link slot. -/
  | linkKeyLoad (rq : Nat) (win : Nat) (index : Nat)
  /-- ATTEST (R459): SEC command op 6 writes a report of one partition signed with the identity key. -/
  | attest (rq : Nat) (win : Nat) (index : Nat)
  /-- ID_READ (R459): SEC command op 7 copies the identity record. -/
  | idRead (rq : Nat) (win : Nat) (index : Nat)
  /-- ROOT_MSG (R461): SEC command op 8 revokes a root slot or raises an endorsement minimum. -/
  | rootMsg (rq : Nat) (win : Nat) (index : Nat)
  /-- CTX_KEY_WRITE (R476): A write of SEC_CTX_KEY naming a slot not held is ignored and ends NOT_HELD. -/
  | ctxKeyWrite (rq : Nat) (ctx : Nat) (value : Nat)
  /-- ALARM_POLICY_WRITE (R471): A write of SEC_ALARM_POLICY raises tamper responses and ignores lower values. -/
  | alarmPolicyWrite (rq : Nat) (value : Nat)
  /-- TAMPER_TRIP (R472): A qualified sensor trip logs, quarantines or erases keys under its class response. -/
  | tamperTrip (sensor : Nat)
  /-- DEBUG_NONCE_READ (R474): A read of the certificate instrument returns a fresh debug nonce. -/
  | debugNonceRead
  /-- DEBUG_CERTIFICATE (R474): A submitted certificate grants level 1 or 2 debug, clearing secrets first for level
  2, or is refused. -/
  | debugCertificate (cert : List Byte)
  /-- POWER_ON_SEQUENCE (R477): From VIN valid the steward boots, loads firmware, applies records, raises rails,
  trains DRAM and starts ports. -/
  | powerOnSequence (env : Env)
  /-- RECOVERY_CHUNK (R485): In recovery mode a chunk command writes the image into slot A and, after the last,
  checks it and resets. -/
  | recoveryChunk (offset : Nat) (data : List Byte) (last : Bool) (env : Env)
  /-- PERST_RELEASE (R479): Release of PERST# starts PCI Express link training within 20 ms. -/
  | perstRelease (port : Nat) (ref : Bool) (rate : Nat) (width : Nat) (flit : Bool)
  /-- PORT_RESET (R491): PERST#, hot reset or link down tears down the port's contexts and resets its partitions. -/
  | portReset (port : Nat) (kind : Nat)
  /-- PF_FLR (R491): A physical-function level reset acts as a port reset with the link kept up. -/
  | pfFlr (port : Nat)
  /-- VF_FLR (R491): A virtual-function level reset tears down its context and resets its owned partitions. -/
  | vfFlr (port : Nat) (vf : Nat)
  /-- DEV_RESET (R491): A write of STW_DEVRESET with key 0xA7 tears down everything and reruns steps 3 to 10 of
  power-on. -/
  | devReset (rq : Nat) (value : Nat) (env : Env)
  /-- CONFIG_REQUEST (R490): A configuration request is served, or completes with Request Retry Status before step
  9. -/
  | configRequest (port : Nat) (fn : Nat) (write : Bool)
  /-- VF_ENABLE (R490): VF Enable makes the virtual functions configuration-ready within tVFEN. -/
  | vfEnable (port : Nat) (n : Nat)
  /-- BAR4_ACCESS (R488): A BAR4 access reaches DRAM as device physical space 3 or completes as Unsupported Request.
  -/
  | bar4Access (port : Nat) (offset : Nat) (len : Nat) (data : Option (List Byte))
  /-- FW_WRITE_SLOT (R484): STW_FW_CTRL op 1 checks a DRAM image and programs it into a boot flash slot. -/
  | fwWriteSlot (rq : Nat) (slot : Nat) (flashOk : Bool)
  /-- FW_PREFER_SLOT (R484): STW_FW_CTRL op 2 writes boot control to prefer a verified slot. -/
  | fwPreferSlot (rq : Nat) (slot : Nat) (flashOk : Bool)
  /-- FW_COMMIT_MINVER (R483): STW_FW_CTRL op 3 raises STW_FW_MINVER to the running image's security_version. -/
  | fwCommitMinver (rq : Nat) (slot : Nat)
  /-- DOORBELL_PAGE_WRITE (R493): A write to a doorbell-page slot rings the bound ring or is discarded and counted.
  -/
  | doorbellPageWrite (port : Nat) (vf : Nat) (slot : Nat) (fixed : List Nat) (lost : List Nat)
  /-- DB_BIND (R494): STW_DB_BIND.go binds a context's doorbell slot to one of its rings. -/
  | dbBind (rq : Nat) (value : Nat)
  /-- DB_UNBIND (R494): STW_DB_BIND.unbind frees a context's doorbell slot. -/
  | dbUnbind (rq : Nat) (value : Nat)
  /-- MCTP_CONTROL (R495): An MCTP control message, such as Set Endpoint ID, is served by the steward. -/
  | mctpControl (transport : Nat) (kind : Nat) (command : Nat) (eid : Nat)
  /-- PLDM_SENSOR_READ (R496): A PLDM request for a sensor reading or PDR is answered. -/
  | pldmSensorRead (transport : Nat) (id : Nat)
  /-- PLDM_SET_EVENT_RECEIVER (R496): SetEventReceiver names the receiver of PlatformEventMessage. -/
  | pldmSetEventReceiver (transport : Nat) (eid : Nat)
  /-- PLDM_POWER_STATE (R496): State effecter 40 requests REST, RUN or OFF as PWR_STATE target and go. -/
  | pldmPowerState (transport : Nat) (target : Nat)
  /-- PLDM_CLEAR_HALT (R496): State effecter 41 clears the halt discrepancy as HALT_CTRL.clear does. -/
  | pldmClearHalt (transport : Nat)
  /-- HALT_ASSERT (R497): Either halt channel reading asserted halts the device and stops cluster clocks. -/
  | haltAssert (a : Bool) (b : Bool) (cycles : Nat)
  /-- HALT_RELEASE (R497): Both channels deasserted with no fault latched release the device. -/
  | haltRelease (cycles : Nat)
  /-- HALT_DISCREPANCY (R498): A disagreement reaching 250,001 cycles latches a discrepancy fault and halts the
  device. -/
  | haltDiscrepancy (aOnly : Bool)
  /-- HALT_CLEAR (R498): A write of HALT_CTRL.clear clears the fault when both channels are deasserted, or is
  refused. -/
  | haltClear (rq : Nat) (value : Nat)
  /-- STREAM_TILE_DELIVERY (R45): A tile arrives at a leaf in-port over a resolved stream and counts one event on
  the port's core cue. -/
  | streamTileDelivery (entry : Nat) (data : List Byte) (epoch : Nat) (taken : Nat)
  /-- UNCORRECTABLE_CODEWORD (R305): A flit in an uncorrectable codeword is received, so the receiver discards it
  and every later sequenced flit and sends a NAK. -/
  | uncorrectableCodeword (link : Nat) (partialFlits : Nat)
  /-- ROW_REPAIR_DONE (R242): A row repair copy finishes and the channel releases the requests it held for at most
  tROWREP. -/
  | rowRepairDone (chan : Nat) (row : Nat)
  /-- STEWARD_DIE_LOSS (R454): The steward is lost, through a controller failure after a takeover or a loss of the
  steward die, and the device falls silent. -/
  | stewardDieLoss
  /-- FLASH_STACK_LOSS (R266): A flash stack is lost with its link die or controller, so every catalogue entry
  becomes DAMAGED and every command reports STACK_LOST. -/
  | flashStackLoss (stack : Nat)
  /-- SEC_CMD_COMPLETE (R466): A key-store command ends, SEC_CMD.busy clears and SEC_STATUS records its code. -/
  | secCmdComplete (win : Nat)
  /-- FW_CTRL_COMPLETE (R484): A firmware slot write or preference operation ends, STW_FW_CTRL.busy clears and its
  result is recorded. -/
  | fwCtrlComplete
  /-- FLOW_TABLE_LOAD_DONE (R308): The flow-table load finishes in every link die, busy clears, and later packets
  use the new table. -/
  | flowTableLoadDone
  deriving DecidableEq, Repr

end Sys2Proof
end

