-- ==== Sys2Proof/Decode.lean ====
section
/-! DEFINITION. The words of the table of commands: no row of it gives bits, so no word spells a command. -/

namespace Sys2Proof

/-- The command a word spells by the bits of the table: the table gives no row bits. -/
def decodeTableWord (_nbits _w : Nat) : Option Instr := none

end Sys2Proof
end

