-- ==== Sys2Proof/Config.lean ====
section
/-! DEFINITION. What the spec leaves to an implementation or to chance: opaque constants with no body, so that no proof
can see a value. Each is named in a log entry of notes/assumptions. -/

namespace Sys2Proof.Config

/-- A fresh word: random draws (keys, nonces) and values the spec leaves undefined, applied to the counter
`Device.free` (log entry 2). -/
opaque freeWord : Nat → Word

/-- SHA-384 of a byte string, 48 bytes; the spec names the hash and does not define it (log entry 4). -/
opaque sha384 : List Byte → List Byte

/-- ECDSA P-384 verification: key, digest, signature (log entry 4). -/
opaque ecdsaVerify : List Byte → List Byte → List Byte → Bool

/-- The bytes a decoded figure takes in its staging slot, by the length of its image; the spec gives no size (log entry
10). -/
opaque decodedBytes : Nat → Nat

/-- The bytes of a decoded figure in its staging slot, by a draw and the place of the byte; the spec gives no form (log entry
10). -/
opaque decodedByte : Nat → Nat → Byte

/-- The implementation's exp2 and log2 of an FP32 word; the spec gives a bound of 2 ulp and no value (R136, log entry
18). -/
opaque exp2 : BitVec 32 → BitVec 32
opaque log2 : BitVec 32 → BitVec 32

/-- The value that the metadata last saved for a flash block's disturb count before the n-th power failure; the spec
does not say how often counts are saved (log entry 61). -/
opaque savedDisturb : Nat → Nat → Nat

/-- How many bits number the sets of a shell's presence filter, and the set a line's entry takes; the spec gives the filter's
entries only (R228, log entry 132). -/
opaque filterSetBits : Nat
opaque filterSet : Nat → Nat

/-- The DQ and the command/address lanes that a training finds to fail where no operand gives them, by a draw: each lists its
channel (R238, log entry 134). -/
opaque dqLanes : Nat → List Nat
opaque caLanes : Nat → List Nat

/-- How the hash index forms a bucket from a hash; the spec does not say (log entry 20). -/
opaque pfxBucket : Nat → Nat

/-- The row of a channel that holds a channel address, and the bank a row lies in; the spec gives no geometry (log entry
21). -/
opaque dramRow : Nat → Nat
opaque dramBank : Nat → Nat

/-- AES-256-GCM (log entry 4): the ciphertext and the 16-byte tag of a plaintext under a key, an IV and additional
authenticated data; and the plaintext of a ciphertext whose tag verifies. -/
opaque gcmSeal : List Byte → List Byte → List Byte → List Byte → List Byte × List Byte
opaque gcmOpen : List Byte → List Byte → List Byte → List Byte → List Byte → Option (List Byte)

/-- A bit rate and buffer size lie within the limits of a level (codec, level, bit rate, buffer bits); the tables are those
of HEVC and AV1, which the spec names and does not hold (log entry 26). -/
opaque levelAllows : Nat → Nat → Nat → Nat → Bool

/-- AES-256-XTS over one 64-byte unit (R467): a key K1 ‖ K2, the tweak, and the 64 bytes (log entry 4). -/
opaque xtsEnc : List Byte → Nat → List Byte → List Byte
opaque xtsDec : List Byte → Nat → List Byte → List Byte

/-- The corrected PUF response of 48 bytes and the fused salt of 32 bytes (R458); they are the device's own (log entry
4). -/
opaque pufResponse : List Byte
opaque idSalt : List Byte

/-- P-384 (log entry 4): the public key of a private scalar, 97 bytes in uncompressed SEC1 form; the 48-byte X coordinate of
a private scalar times a public point, none where that is not a valid point; and an ECDSA signature of a digest, 96 bytes,
by a private scalar, with the random draw given. -/
opaque ecPublic : Nat → List Byte
opaque ecdhX : Nat → List Byte → Option (List Byte)
opaque ecdsaSign : Nat → List Byte → Nat → List Byte

/-- The manufacturing key's signature in the identity record, 96 bytes (R459). -/
opaque mfgSignature : List Byte

/-- The SHA-384 fuse of each root slot (R460). -/
opaque rootFuse : Nat → List Byte

/-- The factory points held in steward fuses, of each cluster site and point: the step, the base voltage in mV, and the
relative power in 1/64 of the value at step 56 (R439, R442); the spec gives no values (log entry 28). -/
opaque vfStep : Nat → Nat → Nat
opaque vfBase : Nat → Nat → Nat
opaque vfPower : Nat → Nat → Nat

/-- A cluster's predicted power in mW at a step, by the two steps and its power now, where the table gives its present step
no relative power (R427, log entry 29). -/
opaque predicted : Nat → Nat → Nat → Nat

end Sys2Proof.Config
end

