-- ==== Sys2Proof/Machine/Sparse.lean ====
section
/-! DEFINITION. Sparse tables: a list of (key, value) pairs in one canonical form, keys strictly rising and no entry
equal to what an unlisted key reads as. Memory, the register file and every indexed collection of the state are kept so. -/

namespace Sys2Proof.Machine

variable {α : Type}

/-- The value at key `k`; `d k` where `k` is not listed. -/
def mapGet (d : Nat → α) : List (Nat × α) → Nat → α
  | [], k => d k
  | (j, v) :: t, k => if j = k then v else mapGet d t k

/-- Put `v` at key `k`, keeping the canonical form: writing the value an unlisted key reads as removes the entry. -/
def mapSet [DecidableEq α] (d : Nat → α) : List (Nat × α) → Nat → α → List (Nat × α)
  | [], k, v => if v = d k then [] else [(k, v)]
  | (j, w) :: t, k, v =>
    if k < j then (if v = d k then (j, w) :: t else (k, v) :: (j, w) :: t)
    else if k = j then (if v = d k then t else (k, v) :: t)
    else (j, w) :: mapSet d t k v

/-- Drop every entry whose key satisfies `p`: those keys read as unlisted again. -/
def mapDrop (p : Nat → Bool) (m : List (Nat × α)) : List (Nat × α) := m.filter fun e => !p e.1

/-- The canonical form: keys strictly rising, and no entry equal to what its key reads as when unlisted. -/
def mapOk [DecidableEq α] (d : Nat → α) (m : List (Nat × α)) : Bool :=
  m.Pairwise (fun a b => a.1 < b.1) && m.all fun e => decide (e.2 ≠ d e.1)

/-- The keys listed that satisfy `p`, in rising order. -/
def mapKeys (m : List (Nat × α)) (p : Nat → α → Bool) : List Nat := (m.filter fun e => p e.1 e.2).map (·.1)

end Sys2Proof.Machine
end

