-- ==== Sys2Proof/Machine/RegMap.lean ====
section
/-! DEFINITION. The register map: every software-visible register of the spec with its width, reset domain, and each
field with its bits, access code and reset value, in the order of the spec files (the tables headed "Bits, Field,
Access, Reset, Meaning" of the files 01 to 21). -/

namespace Sys2Proof.Machine

/-- The access codes of R10 (01 scope file); `ro` also for the reserved bits, which read 0 (R9). -/
inductive Access where | rw | ro | wo | w1c | w1s | rc | rwl
  deriving DecidableEq, Repr

/-- The reset domains of R11, widest first. -/
inductive Domain where | aon | dev | prt | ctx
  deriving DecidableEq, Repr

/-- Every register of the spec, in the order of its files. -/
inductive Reg where
  | STW_SITE_QUERY
  | STW_SITE_RESULT
  | STW_SPARE_GEN
  | FIG_SRC
  | FIG_LOAD
  | FIG_STATUS
  | FIG_DETAIL
  | FIG_AREA
  | FIG_SWITCH
  | FIG_SWITCH_TIME
  | FIG_DROPPED
  | FIG_MINVER
  | FIG_STAGE
  | COR_SEQ_STATUS
  | COR_FAULT
  | COR_FAULT_ADDR
  | COR_BEAT_STAT
  | COR_ITER
  | COR_LOOP_CNT
  | COR_SEL_STATE
  | COR_NUM_STAT
  | COR_ACC_STAT
  | COR_RNG_CTR
  | COR_ROW_STAT
  | COR_BOUND_OVF
  | COR_ROW_EXC
  | COR_BOUND_VAL
  | PRT_PFX_BASE
  | PRT_PFX_CTRL
  | PRT_PFX_EVLOG
  | PRT_PFX_EVLOG_PTR
  | PRT_PFX_USE
  | PRT_PFX_REFD
  | PRT_PFX_HITS
  | PRT_PFX_MISSES
  | PRT_PFX_EVENTS
  | PRT_SEQ_DOORBELL
  | PRT_SEQ_STAT
  | PRT_SEQ_RING_BASE
  | PRT_SEQ_RING_CFG
  | CLU_MESH_MAP
  | CLU_HALO_STAT
  | CLU_MESH_ERR
  | COR_TMEM_ECC
  | FLR_WAYMAP
  | FLR_WAYOWN
  | FLR_ECC
  | FLR_SEM_STAT
  | DRM_TRAIN
  | DRM_TRAIN_MASK
  | DRM_STACK_STATUS
  | DRM_STACK_ECC
  | DRM_CHAN_STATUS
  | DRM_PROMO_POOL
  | DRM_PROMOTE
  | DRM_PROMO_STAT
  | DRM_CTX_MAP
  | FLS_CATALOG
  | FLS_CMD
  | FLS_ARG_A
  | FLS_ARG_B
  | FLS_STATUS
  | FLS_STACK_STATUS
  | FLS_STACK_WEAR
  | FLS_SCRUB
  | FLS_RING_STAT
  | FLS_RING_TIME
  | DMA_RING_BASE
  | DMA_RING_OWN
  | DMA_RING_CFG
  | DMA_RING_RATE
  | DMA_RING_STAT
  | DMA_RING_DOORBELL
  | DMA_RING_CTRL
  | DMA_RING_BYTES
  | EVT_CUE_SEL
  | EVT_CUE
  | EVT_CUE_ADD
  | LNK_DEVICE
  | LNK_COORD
  | LNK_SERIAL
  | LNK_PROM_STATUS
  | LNK_PROM_TIME
  | LNK_PROM_CTRL
  | LNK_TOPO_BASE
  | LNK_FLOW_BASE
  | LNK_DROPS
  | LNK_FLOW_CTRL
  | LNK_PORT_STATUS
  | LNK_PORT_NBR
  | LNK_PORT_ERR
  | LNK_PORT_RETRY
  | COL_GROUP
  | COL_GROUP_KEY
  | COL_GROUP_STAT
  | COL_GROUP_LIST
  | COL_GROUP_SIZE
  | COL_PRT_LIST
  | COL_PRT_REMOVE
  | VCE_CTRL
  | VCE_LOAD
  | VCE_RC_STAT
  | VCE_ERR
  | VCE_RETURN
  | ING_CTRL
  | ING_STATUS
  | ING_STAT
  | ING_STREAM_BASE
  | ING_STREAM_CTRL
  | ING_PAGE
  | PRT_CTRL
  | PRT_SHAPE
  | PRT_SHAPE_CLU
  | PRT_SHAPE_GRP
  | PRT_SHAPE_VCE
  | PRT_SHAPE_LNK
  | PRT_SHAPE_STR
  | PRT_SHAPE_GRT
  | PRT_SHAPE_SEM
  | PRT_SCHED
  | PRT_SCHED_STAT
  | PRT_EVT_SPILL
  | PRT_EVT_STAT
  | PRT_EVT_SPILL_PTR
  | PRT_REG
  | PRT_SVC_MODE
  | CTX_BIND
  | CTX_PRIO
  | CTX_RUN
  | CTX_SAVE
  | CTX_SEED
  | CTX_FAULT
  | CTX_STAT
  | STR_ENTRY
  | STR_ENTRY_FMT
  | STR_STAT
  | PWR_STATE
  | PWR_LIMIT
  | PWR_GOV_STAT
  | PWR_GOV_CNT
  | PWR_MEAS
  | PWR_WAKE
  | PWR_WAKE_TIMER
  | PWR_TIMES
  | PWR_PHASE
  | CLK_AON
  | CLK_AON_CNT
  | CLK_CLU_CTRL
  | CLK_CLU_STAT
  | STW_RECORDS
  | STW_FLOG_BASE
  | STW_FLOG_PTR
  | STW_STEWARD
  | STW_AVAIL
  | TST_SHUTDOWN_BUDGET
  | TST_SHUTDOWN_STAT
  | TST_CMD
  | TST_STATUS
  | TST_RESULT
  | AGE_STATUS
  | AGE_PEAK
  | AGE_CLU
  | AGE_VF_TABLE
  | SEC_KEYSTATE
  | SEC_ALARM_POLICY
  | SEC_ALARM_FUSE
  | SEC_TAMPER
  | SEC_ROOT
  | SEC_ENDORSE_MIN
  | SEC_LINK_STAT
  | SEC_DEBUG
  | SEC_CTX_KEY
  | SEC_CMD
  | SEC_ARG
  | SEC_STATUS
  | STW_BOOT
  | STW_FW_STATUS
  | STW_FW_CTRL
  | STW_FW_SRC
  | STW_FW_MINVER
  | STW_PCIE
  | STW_PCIE_BAR4
  | STW_DB_BIND
  | STW_DB_RESULT
  | STW_HIF_DENY
  | STW_DEVRESET
  | STW_MGMT
  | HALT_STATUS
  | HALT_CTRL
  | STW_IDENT
  | STW_STATE
  | STW_CAPS
  deriving DecidableEq, Repr

/-- One field of a register: its bits [hi:lo], its access code and its reset value. -/
structure FieldInfo where
  hi : Nat
  lo : Nat
  acc : Access
  reset : Nat
  deriving DecidableEq, Repr

/-- One register: whether it is 64 bits wide, its reset domain, its fields. -/
structure RegInfo where
  wide : Bool
  dom : Domain
  fields : List FieldInfo
  deriving DecidableEq, Repr

/-- A named field of a register. -/
structure Fld where
  reg : Reg
  hi : Nat
  lo : Nat
  deriving DecidableEq, Repr

/-- The number by which a register is kept in the register file. -/
def Reg.code : Reg → Nat
  | .STW_SITE_QUERY => 0
  | .STW_SITE_RESULT => 1
  | .STW_SPARE_GEN => 2
  | .FIG_SRC => 3
  | .FIG_LOAD => 4
  | .FIG_STATUS => 5
  | .FIG_DETAIL => 6
  | .FIG_AREA => 7
  | .FIG_SWITCH => 8
  | .FIG_SWITCH_TIME => 9
  | .FIG_DROPPED => 10
  | .FIG_MINVER => 11
  | .FIG_STAGE => 12
  | .COR_SEQ_STATUS => 13
  | .COR_FAULT => 14
  | .COR_FAULT_ADDR => 15
  | .COR_BEAT_STAT => 16
  | .COR_ITER => 17
  | .COR_LOOP_CNT => 18
  | .COR_SEL_STATE => 19
  | .COR_NUM_STAT => 20
  | .COR_ACC_STAT => 21
  | .COR_RNG_CTR => 22
  | .COR_ROW_STAT => 23
  | .COR_BOUND_OVF => 24
  | .COR_ROW_EXC => 25
  | .COR_BOUND_VAL => 26
  | .PRT_PFX_BASE => 27
  | .PRT_PFX_CTRL => 28
  | .PRT_PFX_EVLOG => 29
  | .PRT_PFX_EVLOG_PTR => 30
  | .PRT_PFX_USE => 31
  | .PRT_PFX_REFD => 32
  | .PRT_PFX_HITS => 33
  | .PRT_PFX_MISSES => 34
  | .PRT_PFX_EVENTS => 35
  | .PRT_SEQ_DOORBELL => 36
  | .PRT_SEQ_STAT => 37
  | .PRT_SEQ_RING_BASE => 38
  | .PRT_SEQ_RING_CFG => 39
  | .CLU_MESH_MAP => 40
  | .CLU_HALO_STAT => 41
  | .CLU_MESH_ERR => 42
  | .COR_TMEM_ECC => 43
  | .FLR_WAYMAP => 44
  | .FLR_WAYOWN => 45
  | .FLR_ECC => 46
  | .FLR_SEM_STAT => 47
  | .DRM_TRAIN => 48
  | .DRM_TRAIN_MASK => 49
  | .DRM_STACK_STATUS => 50
  | .DRM_STACK_ECC => 51
  | .DRM_CHAN_STATUS => 52
  | .DRM_PROMO_POOL => 53
  | .DRM_PROMOTE => 54
  | .DRM_PROMO_STAT => 55
  | .DRM_CTX_MAP => 56
  | .FLS_CATALOG => 57
  | .FLS_CMD => 58
  | .FLS_ARG_A => 59
  | .FLS_ARG_B => 60
  | .FLS_STATUS => 61
  | .FLS_STACK_STATUS => 62
  | .FLS_STACK_WEAR => 63
  | .FLS_SCRUB => 64
  | .FLS_RING_STAT => 65
  | .FLS_RING_TIME => 66
  | .DMA_RING_BASE => 67
  | .DMA_RING_OWN => 68
  | .DMA_RING_CFG => 69
  | .DMA_RING_RATE => 70
  | .DMA_RING_STAT => 71
  | .DMA_RING_DOORBELL => 72
  | .DMA_RING_CTRL => 73
  | .DMA_RING_BYTES => 74
  | .EVT_CUE_SEL => 75
  | .EVT_CUE => 76
  | .EVT_CUE_ADD => 77
  | .LNK_DEVICE => 78
  | .LNK_COORD => 79
  | .LNK_SERIAL => 80
  | .LNK_PROM_STATUS => 81
  | .LNK_PROM_TIME => 82
  | .LNK_PROM_CTRL => 83
  | .LNK_TOPO_BASE => 84
  | .LNK_FLOW_BASE => 85
  | .LNK_DROPS => 86
  | .LNK_FLOW_CTRL => 87
  | .LNK_PORT_STATUS => 88
  | .LNK_PORT_NBR => 89
  | .LNK_PORT_ERR => 90
  | .LNK_PORT_RETRY => 91
  | .COL_GROUP => 92
  | .COL_GROUP_KEY => 93
  | .COL_GROUP_STAT => 94
  | .COL_GROUP_LIST => 95
  | .COL_GROUP_SIZE => 96
  | .COL_PRT_LIST => 97
  | .COL_PRT_REMOVE => 98
  | .VCE_CTRL => 99
  | .VCE_LOAD => 100
  | .VCE_RC_STAT => 101
  | .VCE_ERR => 102
  | .VCE_RETURN => 103
  | .ING_CTRL => 104
  | .ING_STATUS => 105
  | .ING_STAT => 106
  | .ING_STREAM_BASE => 107
  | .ING_STREAM_CTRL => 108
  | .ING_PAGE => 109
  | .PRT_CTRL => 110
  | .PRT_SHAPE => 111
  | .PRT_SHAPE_CLU => 112
  | .PRT_SHAPE_GRP => 113
  | .PRT_SHAPE_VCE => 114
  | .PRT_SHAPE_LNK => 115
  | .PRT_SHAPE_STR => 116
  | .PRT_SHAPE_GRT => 117
  | .PRT_SHAPE_SEM => 118
  | .PRT_SCHED => 119
  | .PRT_SCHED_STAT => 120
  | .PRT_EVT_SPILL => 121
  | .PRT_EVT_STAT => 122
  | .PRT_EVT_SPILL_PTR => 123
  | .PRT_REG => 124
  | .PRT_SVC_MODE => 125
  | .CTX_BIND => 126
  | .CTX_PRIO => 127
  | .CTX_RUN => 128
  | .CTX_SAVE => 129
  | .CTX_SEED => 130
  | .CTX_FAULT => 131
  | .CTX_STAT => 132
  | .STR_ENTRY => 133
  | .STR_ENTRY_FMT => 134
  | .STR_STAT => 135
  | .PWR_STATE => 136
  | .PWR_LIMIT => 137
  | .PWR_GOV_STAT => 138
  | .PWR_GOV_CNT => 139
  | .PWR_MEAS => 140
  | .PWR_WAKE => 141
  | .PWR_WAKE_TIMER => 142
  | .PWR_TIMES => 143
  | .PWR_PHASE => 144
  | .CLK_AON => 145
  | .CLK_AON_CNT => 146
  | .CLK_CLU_CTRL => 147
  | .CLK_CLU_STAT => 148
  | .STW_RECORDS => 149
  | .STW_FLOG_BASE => 150
  | .STW_FLOG_PTR => 151
  | .STW_STEWARD => 152
  | .STW_AVAIL => 153
  | .TST_SHUTDOWN_BUDGET => 154
  | .TST_SHUTDOWN_STAT => 155
  | .TST_CMD => 156
  | .TST_STATUS => 157
  | .TST_RESULT => 158
  | .AGE_STATUS => 159
  | .AGE_PEAK => 160
  | .AGE_CLU => 161
  | .AGE_VF_TABLE => 162
  | .SEC_KEYSTATE => 163
  | .SEC_ALARM_POLICY => 164
  | .SEC_ALARM_FUSE => 165
  | .SEC_TAMPER => 166
  | .SEC_ROOT => 167
  | .SEC_ENDORSE_MIN => 168
  | .SEC_LINK_STAT => 169
  | .SEC_DEBUG => 170
  | .SEC_CTX_KEY => 171
  | .SEC_CMD => 172
  | .SEC_ARG => 173
  | .SEC_STATUS => 174
  | .STW_BOOT => 175
  | .STW_FW_STATUS => 176
  | .STW_FW_CTRL => 177
  | .STW_FW_SRC => 178
  | .STW_FW_MINVER => 179
  | .STW_PCIE => 180
  | .STW_PCIE_BAR4 => 181
  | .STW_DB_BIND => 182
  | .STW_DB_RESULT => 183
  | .STW_HIF_DENY => 184
  | .STW_DEVRESET => 185
  | .STW_MGMT => 186
  | .HALT_STATUS => 187
  | .HALT_CTRL => 188
  | .STW_IDENT => 189
  | .STW_STATE => 190
  | .STW_CAPS => 191

/-- The register tables of the spec. Reset cells "NV", "Fuse" and "Fused" give no number: zero stands there, but for
TST_SHUTDOWN_BUDGET.budget_ms, 4,000 at manufacture (log entry 3). -/
def Reg.info : Reg → RegInfo
  | .STW_SITE_QUERY => ⟨false, .dev, [⟨17, 16, .rw, 0⟩, ⟨13, 12, .rw, 0⟩, ⟨11, 8, .rw, 0⟩, ⟨6, 4, .rw, 0⟩, ⟨3, 0, .rw, 0⟩]⟩
  | .STW_SITE_RESULT => ⟨false, .dev, [⟨31, 31, .ro, 0⟩, ⟨29, 28, .ro, 0⟩, ⟨26, 24, .ro, 0⟩, ⟨20, 16, .ro, 0⟩, ⟨11, 8, .ro, 0⟩, ⟨4, 0, .ro, 0⟩]⟩
  | .STW_SPARE_GEN => ⟨false, .dev, [⟨18, 18, .ro, 0⟩, ⟨17, 17, .ro, 0⟩, ⟨16, 16, .ro, 0⟩, ⟨15, 0, .ro, 0⟩]⟩
  | .FIG_SRC => ⟨true, .prt, [⟨47, 0, .rw, 0⟩]⟩
  | .FIG_LOAD => ⟨false, .prt, [⟨31, 31, .wo, 0⟩, ⟨8, 8, .rw, 0⟩, ⟨2, 0, .rw, 0⟩]⟩
  | .FIG_STATUS => ⟨false, .prt, [⟨21, 19, .ro, 0⟩, ⟨18, 18, .ro, 0⟩, ⟨17, 16, .ro, 0⟩, ⟨15, 8, .ro, 0⟩, ⟨7, 7, .ro, 0⟩, ⟨6, 4, .ro, 0⟩, ⟨3, 0, .ro, 0⟩]⟩
  | .FIG_DETAIL => ⟨false, .prt, [⟨31, 0, .ro, 0⟩]⟩
  | .FIG_AREA => ⟨true, .prt, [⟨63, 48, .rw, 0⟩, ⟨47, 16, .rw, 0⟩]⟩
  | .FIG_SWITCH => ⟨false, .prt, [⟨31, 31, .wo, 0⟩, ⟨30, 30, .wo, 0⟩, ⟨2, 0, .rw, 0⟩]⟩
  | .FIG_SWITCH_TIME => ⟨false, .prt, [⟨31, 16, .ro, 0⟩, ⟨15, 0, .ro, 0⟩]⟩
  | .FIG_DROPPED => ⟨false, .prt, [⟨31, 16, .rc, 0⟩, ⟨15, 0, .rc, 0⟩]⟩
  | .FIG_MINVER => ⟨false, .dev, [⟨31, 0, .rw, 0⟩]⟩
  | .FIG_STAGE => ⟨false, .prt, [⟨31, 31, .ro, 0⟩, ⟨30, 30, .ro, 0⟩, ⟨29, 29, .ro, 0⟩, ⟨28, 28, .wo, 0⟩, ⟨15, 0, .ro, 0⟩]⟩
  | .COR_SEQ_STATUS => ⟨false, .prt, [⟨31, 29, .ro, 0⟩, ⟨28, 26, .ro, 0⟩, ⟨25, 25, .ro, 0⟩, ⟨24, 22, .ro, 0⟩, ⟨13, 0, .ro, 0⟩]⟩
  | .COR_FAULT => ⟨false, .prt, [⟨31, 31, .w1c, 0⟩, ⟨27, 14, .ro, 0⟩, ⟨7, 0, .ro, 0⟩]⟩
  | .COR_FAULT_ADDR => ⟨true, .prt, [⟨55, 0, .ro, 0⟩]⟩
  | .COR_BEAT_STAT => ⟨false, .prt, [⟨31, 16, .rc, 0⟩, ⟨15, 0, .rc, 0⟩]⟩
  | .COR_ITER => ⟨false, .prt, [⟨31, 0, .ro, 0⟩]⟩
  | .COR_LOOP_CNT => ⟨false, .prt, [⟨31, 16, .ro, 0⟩, ⟨15, 0, .ro, 0⟩]⟩
  | .COR_SEL_STATE => ⟨false, .prt, [⟨31, 30, .ro, 0⟩, ⟨24, 16, .ro, 0⟩, ⟨15, 0, .ro, 0⟩]⟩
  | .COR_NUM_STAT => ⟨false, .prt, [⟨31, 16, .rc, 0⟩, ⟨15, 0, .rc, 0⟩]⟩
  | .COR_ACC_STAT => ⟨false, .prt, [⟨31, 16, .rc, 0⟩, ⟨15, 0, .rc, 0⟩]⟩
  | .COR_RNG_CTR => ⟨true, .prt, [⟨63, 0, .ro, 0⟩]⟩
  | .COR_ROW_STAT => ⟨false, .prt, [⟨31, 16, .rc, 0⟩, ⟨15, 0, .rc, 0⟩]⟩
  | .COR_BOUND_OVF => ⟨false, .prt, [⟨15, 0, .w1c, 0⟩]⟩
  | .COR_ROW_EXC => ⟨false, .prt, [⟨31, 16, .rc, 0⟩, ⟨15, 0, .rc, 0⟩]⟩
  | .COR_BOUND_VAL => ⟨false, .prt, [⟨31, 0, .ro, 0⟩]⟩
  | .PRT_PFX_BASE => ⟨true, .prt, [⟨47, 21, .rw, 0⟩, ⟨0, 0, .rw, 0⟩]⟩
  | .PRT_PFX_CTRL => ⟨false, .prt, [⟨31, 31, .wo, 0⟩, ⟨30, 30, .wo, 0⟩, ⟨1, 1, .ro, 0⟩, ⟨0, 0, .ro, 0⟩]⟩
  | .PRT_PFX_EVLOG => ⟨true, .prt, [⟨47, 16, .rw, 0⟩, ⟨0, 0, .rw, 0⟩]⟩
  | .PRT_PFX_EVLOG_PTR => ⟨false, .prt, [⟨31, 16, .ro, 0⟩, ⟨15, 0, .rw, 0⟩]⟩
  | .PRT_PFX_USE => ⟨false, .prt, [⟨16, 0, .ro, 0⟩]⟩
  | .PRT_PFX_REFD => ⟨false, .prt, [⟨16, 0, .ro, 0⟩]⟩
  | .PRT_PFX_HITS => ⟨false, .prt, [⟨31, 0, .rc, 0⟩]⟩
  | .PRT_PFX_MISSES => ⟨false, .prt, [⟨31, 0, .rc, 0⟩]⟩
  | .PRT_PFX_EVENTS => ⟨false, .prt, [⟨31, 16, .rc, 0⟩, ⟨15, 0, .rc, 0⟩]⟩
  | .PRT_SEQ_DOORBELL => ⟨false, .prt, [⟨5, 0, .wo, 0⟩]⟩
  | .PRT_SEQ_STAT => ⟨false, .prt, [⟨31, 31, .ro, 0⟩, ⟨29, 24, .ro, 0⟩, ⟨23, 16, .ro, 0⟩, ⟨15, 0, .ro, 0⟩]⟩
  | .PRT_SEQ_RING_BASE => ⟨true, .prt, [⟨55, 6, .rw, 0⟩, ⟨0, 0, .rw, 0⟩]⟩
  | .PRT_SEQ_RING_CFG => ⟨false, .prt, [⟨31, 31, .rw, 0⟩, ⟨29, 24, .rw, 0⟩, ⟨19, 16, .rw, 4⟩, ⟨9, 0, .rw, 0⟩]⟩
  | .CLU_MESH_MAP => ⟨false, .dev, [⟨31, 31, .ro, 0⟩, ⟨27, 24, .ro, 0⟩, ⟨16, 0, .ro, 0⟩]⟩
  | .CLU_HALO_STAT => ⟨false, .prt, [⟨31, 16, .rc, 0⟩, ⟨15, 0, .rc, 0⟩]⟩
  | .CLU_MESH_ERR => ⟨false, .prt, [⟨31, 31, .w1c, 0⟩, ⟨7, 6, .ro, 0⟩, ⟨3, 0, .ro, 0⟩]⟩
  | .COR_TMEM_ECC => ⟨false, .prt, [⟨31, 16, .rc, 0⟩, ⟨15, 0, .rc, 0⟩]⟩
  | .FLR_WAYMAP => ⟨false, .dev, [⟨31, 16, .ro, 0⟩, ⟨15, 0, .rw, 0⟩]⟩
  | .FLR_WAYOWN => ⟨false, .dev, [⟨31, 24, .rw, 0⟩, ⟨23, 16, .rw, 0⟩, ⟨15, 8, .rw, 0⟩, ⟨7, 0, .rw, 0⟩]⟩
  | .FLR_ECC => ⟨false, .dev, [⟨31, 20, .rc, 0⟩, ⟨19, 10, .rc, 0⟩, ⟨9, 0, .rc, 0⟩]⟩
  | .FLR_SEM_STAT => ⟨false, .dev, [⟨31, 16, .rc, 0⟩, ⟨15, 0, .rc, 0⟩]⟩
  | .DRM_TRAIN => ⟨false, .dev, [⟨31, 31, .wo, 0⟩, ⟨30, 30, .ro, 0⟩, ⟨29, 28, .ro, 0⟩]⟩
  | .DRM_TRAIN_MASK => ⟨false, .dev, [⟨31, 0, .rw, 0⟩]⟩
  | .DRM_STACK_STATUS => ⟨false, .dev, [⟨31, 30, .ro, 0⟩, ⟨29, 29, .ro, 0⟩, ⟨28, 28, .ro, 0⟩, ⟨27, 27, .ro, 0⟩, ⟨26, 21, .ro, 0⟩, ⟨20, 8, .ro, 4096⟩, ⟨7, 0, .ro, 0⟩]⟩
  | .DRM_STACK_ECC => ⟨false, .dev, [⟨31, 16, .rc, 0⟩, ⟨15, 8, .rc, 0⟩, ⟨7, 0, .rc, 0⟩]⟩
  | .DRM_CHAN_STATUS => ⟨false, .dev, [⟨31, 31, .ro, 0⟩, ⟨30, 30, .ro, 0⟩, ⟨29, 28, .ro, 0⟩, ⟨27, 27, .ro, 0⟩, ⟨15, 0, .ro, 0⟩]⟩
  | .DRM_PROMO_POOL => ⟨true, .prt, [⟨63, 48, .rw, 0⟩, ⟨47, 21, .rw, 0⟩, ⟨15, 0, .rw, 0⟩]⟩
  | .DRM_PROMOTE => ⟨false, .prt, [⟨31, 30, .wo, 0⟩, ⟨29, 29, .ro, 0⟩, ⟨28, 27, .ro, 0⟩, ⟨20, 0, .rw, 0⟩]⟩
  | .DRM_PROMO_STAT => ⟨false, .prt, [⟨31, 16, .ro, 0⟩, ⟨15, 0, .rc, 0⟩]⟩
  | .DRM_CTX_MAP => ⟨true, .ctx, [⟨63, 63, .wo, 0⟩, ⟨60, 48, .rw, 0⟩, ⟨47, 6, .rw, 0⟩]⟩
  | .FLS_CATALOG => ⟨true, .dev, [⟨63, 48, .ro, 0⟩, ⟨47, 32, .ro, 0⟩, ⟨31, 16, .ro, 0⟩, ⟨12, 0, .ro, 0⟩]⟩
  | .FLS_CMD => ⟨false, .dev, [⟨31, 31, .wo, 0⟩, ⟨30, 28, .rw, 0⟩, ⟨11, 0, .rw, 0⟩]⟩
  | .FLS_ARG_A => ⟨true, .dev, [⟨63, 0, .rw, 0⟩]⟩
  | .FLS_ARG_B => ⟨true, .dev, [⟨63, 0, .rw, 0⟩]⟩
  | .FLS_STATUS => ⟨false, .dev, [⟨31, 31, .ro, 0⟩, ⟨23, 16, .ro, 0⟩, ⟨14, 12, .ro, 0⟩, ⟨11, 0, .ro, 0⟩]⟩
  | .FLS_STACK_STATUS => ⟨false, .dev, [⟨31, 24, .ro, 0⟩, ⟨23, 23, .ro, 0⟩, ⟨22, 22, .ro, 0⟩, ⟨21, 21, .ro, 0⟩, ⟨16, 0, .ro, 0⟩]⟩
  | .FLS_STACK_WEAR => ⟨false, .dev, [⟨31, 16, .rc, 0⟩, ⟨15, 8, .rc, 0⟩, ⟨7, 0, .ro, 0⟩]⟩
  | .FLS_SCRUB => ⟨false, .aon, [⟨31, 24, .ro, 0⟩, ⟨18, 0, .ro, 0⟩]⟩
  | .FLS_RING_STAT => ⟨false, .prt, [⟨31, 29, .ro, 0⟩, ⟨15, 0, .ro, 0⟩]⟩
  | .FLS_RING_TIME => ⟨false, .prt, [⟨31, 16, .ro, 0⟩, ⟨15, 0, .rc, 0⟩]⟩
  | .DMA_RING_BASE => ⟨true, .ctx, [⟨55, 6, .rw, 0⟩, ⟨0, 0, .rw, 0⟩]⟩
  | .DMA_RING_OWN => ⟨false, .prt, [⟨31, 31, .rw, 0⟩, ⟨30, 30, .rw, 0⟩, ⟨4, 0, .rw, 0⟩]⟩
  | .DMA_RING_CFG => ⟨false, .prt, [⟨20, 16, .rw, 4⟩, ⟨9, 0, .rw, 0⟩]⟩
  | .DMA_RING_RATE => ⟨false, .prt, [⟨31, 24, .rw, 255⟩, ⟨23, 16, .rw, 255⟩, ⟨15, 8, .rw, 255⟩, ⟨7, 0, .rw, 255⟩]⟩
  | .DMA_RING_STAT => ⟨false, .ctx, [⟨31, 29, .ro, 0⟩, ⟨23, 16, .ro, 0⟩, ⟨15, 0, .ro, 0⟩]⟩
  | .DMA_RING_DOORBELL => ⟨false, .ctx, [⟨31, 0, .wo, 0⟩]⟩
  | .DMA_RING_CTRL => ⟨false, .ctx, [⟨31, 31, .wo, 0⟩, ⟨30, 30, .wo, 0⟩]⟩
  | .DMA_RING_BYTES => ⟨true, .ctx, [⟨63, 0, .rc, 0⟩]⟩
  | .EVT_CUE_SEL => ⟨false, .prt, [⟨30, 29, .rw, 0⟩, ⟨28, 21, .rw, 0⟩, ⟨20, 17, .rw, 0⟩, ⟨16, 15, .rw, 0⟩, ⟨14, 9, .rw, 0⟩]⟩
  | .EVT_CUE => ⟨false, .prt, [⟨31, 31, .ro, 0⟩, ⟨16, 16, .w1c, 0⟩, ⟨15, 0, .ro, 0⟩]⟩
  | .EVT_CUE_ADD => ⟨false, .prt, [⟨15, 0, .wo, 0⟩]⟩
  | .LNK_DEVICE => ⟨false, .dev, [⟨31, 31, .ro, 0⟩, ⟨30, 30, .ro, 0⟩, ⟨19, 0, .ro, 0⟩]⟩
  | .LNK_COORD => ⟨false, .dev, [⟨31, 20, .ro, 0⟩, ⟨19, 12, .ro, 0⟩, ⟨11, 4, .ro, 0⟩, ⟨3, 3, .ro, 0⟩, ⟨2, 2, .ro, 0⟩]⟩
  | .LNK_SERIAL => ⟨true, .dev, [⟨63, 0, .ro, 0⟩]⟩
  | .LNK_PROM_STATUS => ⟨false, .dev, [⟨31, 29, .ro, 0⟩, ⟨28, 16, .ro, 0⟩, ⟨12, 0, .ro, 0⟩]⟩
  | .LNK_PROM_TIME => ⟨false, .dev, [⟨31, 16, .ro, 0⟩, ⟨15, 0, .ro, 0⟩]⟩
  | .LNK_PROM_CTRL => ⟨false, .dev, [⟨31, 31, .wo, 0⟩]⟩
  | .LNK_TOPO_BASE => ⟨true, .dev, [⟨63, 48, .ro, 0⟩, ⟨47, 12, .ro, 0⟩]⟩
  | .LNK_FLOW_BASE => ⟨true, .dev, [⟨47, 17, .rw, 0⟩, ⟨0, 0, .rw, 0⟩]⟩
  | .LNK_DROPS => ⟨false, .dev, [⟨31, 24, .rc, 0⟩, ⟨23, 16, .rc, 0⟩, ⟨15, 8, .rc, 0⟩, ⟨7, 0, .rc, 0⟩]⟩
  | .LNK_FLOW_CTRL => ⟨false, .dev, [⟨31, 31, .wo, 0⟩, ⟨30, 30, .ro, 0⟩, ⟨12, 0, .ro, 0⟩]⟩
  | .LNK_PORT_STATUS => ⟨false, .dev, [⟨31, 29, .ro, 0⟩, ⟨28, 25, .ro, 0⟩, ⟨24, 24, .ro, 0⟩, ⟨23, 20, .ro, 0⟩, ⟨19, 19, .ro, 0⟩, ⟨18, 12, .ro, 0⟩, ⟨11, 10, .ro, 0⟩, ⟨9, 8, .ro, 0⟩, ⟨7, 4, .ro, 15⟩]⟩
  | .LNK_PORT_NBR => ⟨false, .dev, [⟨31, 24, .ro, 255⟩, ⟨19, 0, .ro, 0⟩]⟩
  | .LNK_PORT_ERR => ⟨false, .dev, [⟨31, 16, .rc, 0⟩, ⟨15, 0, .rc, 0⟩]⟩
  | .LNK_PORT_RETRY => ⟨false, .dev, [⟨31, 16, .rc, 0⟩, ⟨15, 8, .rc, 0⟩, ⟨7, 0, .rc, 0⟩]⟩
  | .COL_GROUP => ⟨true, .prt, [⟨63, 63, .ro, 0⟩, ⟨62, 62, .ro, 0⟩, ⟨61, 61, .ro, 0⟩, ⟨60, 56, .ro, 0⟩, ⟨55, 54, .ro, 0⟩, ⟨53, 53, .ro, 0⟩, ⟨52, 52, .ro, 0⟩, ⟨51, 36, .ro, 0⟩, ⟨35, 19, .ro, 0⟩, ⟨15, 0, .ro, 0⟩]⟩
  | .COL_GROUP_KEY => ⟨false, .prt, [⟨31, 0, .ro, 0⟩]⟩
  | .COL_GROUP_STAT => ⟨false, .prt, [⟨31, 24, .rc, 0⟩, ⟨23, 16, .rc, 0⟩, ⟨15, 0, .ro, 0⟩]⟩
  | .COL_GROUP_LIST => ⟨true, .prt, [⟨63, 48, .ro, 0⟩, ⟨47, 6, .ro, 0⟩]⟩
  | .COL_GROUP_SIZE => ⟨false, .prt, [⟨16, 0, .ro, 0⟩]⟩
  | .COL_PRT_LIST => ⟨true, .prt, [⟨63, 48, .rw, 0⟩, ⟨47, 16, .rw, 0⟩]⟩
  | .COL_PRT_REMOVE => ⟨false, .prt, [⟨31, 31, .wo, 0⟩, ⟨27, 16, .rw, 0⟩, ⟨15, 0, .rw, 0⟩]⟩
  | .VCE_CTRL => ⟨false, .dev, [⟨31, 31, .rw, 0⟩, ⟨30, 30, .ro, 0⟩, ⟨29, 29, .ro, 0⟩, ⟨28, 28, .ro, 0⟩, ⟨24, 20, .rw, 0⟩, ⟨15, 0, .ro, 0⟩]⟩
  | .VCE_LOAD => ⟨false, .dev, [⟨31, 24, .ro, 0⟩, ⟨23, 16, .ro, 0⟩, ⟨12, 8, .ro, 0⟩, ⟨7, 0, .ro, 0⟩]⟩
  | .VCE_RC_STAT => ⟨false, .prt, [⟨31, 24, .rc, 0⟩, ⟨23, 16, .rc, 0⟩, ⟨15, 8, .rc, 0⟩, ⟨7, 0, .rc, 0⟩]⟩
  | .VCE_ERR => ⟨false, .prt, [⟨31, 16, .rc, 0⟩, ⟨15, 8, .rc, 0⟩, ⟨7, 0, .rc, 0⟩]⟩
  | .VCE_RETURN => ⟨false, .prt, [⟨31, 31, .wo, 0⟩, ⟨19, 16, .wo, 0⟩, ⟨15, 0, .wo, 0⟩]⟩
  | .ING_CTRL => ⟨false, .dev, [⟨31, 31, .rw, 0⟩, ⟨30, 30, .ro, 0⟩, ⟨29, 29, .ro, 0⟩, ⟨4, 0, .rw, 0⟩]⟩
  | .ING_STATUS => ⟨false, .dev, [⟨31, 24, .ro, 0⟩, ⟨23, 16, .ro, 0⟩, ⟨15, 8, .rc, 0⟩]⟩
  | .ING_STAT => ⟨false, .prt, [⟨31, 16, .rc, 0⟩, ⟨15, 0, .rc, 0⟩]⟩
  | .ING_STREAM_BASE => ⟨true, .prt, [⟨47, 14, .rw, 0⟩, ⟨0, 0, .rw, 0⟩]⟩
  | .ING_STREAM_CTRL => ⟨false, .prt, [⟨31, 31, .wo, 0⟩, ⟨7, 0, .rw, 0⟩]⟩
  | .ING_PAGE => ⟨true, .dev, [⟨63, 63, .rw, 0⟩, ⟨62, 62, .rw, 0⟩, ⟨61, 61, .rw, 0⟩, ⟨60, 12, .rw, 0⟩]⟩
  | .PRT_CTRL => ⟨false, .dev, [⟨31, 31, .wo, 0⟩, ⟨30, 30, .wo, 0⟩, ⟨29, 28, .ro, 0⟩, ⟨27, 27, .ro, 0⟩, ⟨10, 0, .rw, 0⟩]⟩
  | .PRT_SHAPE => ⟨false, .dev, [⟨31, 24, .ro, 0⟩, ⟨23, 16, .ro, 0⟩, ⟨15, 10, .ro, 0⟩, ⟨9, 5, .ro, 0⟩, ⟨3, 0, .ro, 0⟩]⟩
  | .PRT_SHAPE_CLU => ⟨false, .dev, [⟨31, 0, .rw, 0⟩]⟩
  | .PRT_SHAPE_GRP => ⟨false, .dev, [⟨31, 0, .rw, 0⟩]⟩
  | .PRT_SHAPE_VCE => ⟨false, .dev, [⟨31, 0, .rw, 0⟩]⟩
  | .PRT_SHAPE_LNK => ⟨false, .dev, [⟨11, 8, .rw, 0⟩, ⟨5, 1, .rw, 0⟩]⟩
  | .PRT_SHAPE_STR => ⟨false, .dev, [⟨30, 16, .rw, 0⟩, ⟨13, 0, .rw, 0⟩]⟩
  | .PRT_SHAPE_GRT => ⟨false, .dev, [⟨28, 16, .rw, 0⟩, ⟨11, 0, .rw, 0⟩]⟩
  | .PRT_SHAPE_SEM => ⟨false, .dev, [⟨25, 16, .rw, 0⟩, ⟨8, 0, .rw, 0⟩]⟩
  | .PRT_SCHED => ⟨false, .prt, [⟨31, 28, .rw, 4⟩, ⟨27, 16, .rw, 200⟩, ⟨15, 0, .rw, 100⟩]⟩
  | .PRT_SCHED_STAT => ⟨false, .prt, [⟨31, 16, .rc, 0⟩, ⟨15, 8, .rc, 0⟩, ⟨7, 0, .rc, 0⟩]⟩
  | .PRT_EVT_SPILL => ⟨true, .prt, [⟨59, 56, .rw, 0⟩, ⟨47, 12, .rw, 0⟩, ⟨0, 0, .rw, 0⟩]⟩
  | .PRT_EVT_STAT => ⟨false, .prt, [⟨31, 16, .rc, 0⟩, ⟨15, 8, .rc, 0⟩, ⟨7, 0, .rc, 0⟩]⟩
  | .PRT_EVT_SPILL_PTR => ⟨true, .prt, [⟨63, 32, .ro, 0⟩, ⟨31, 0, .ro, 0⟩]⟩
  | .PRT_REG => ⟨false, .prt, [⟨22, 16, .rw, 4⟩, ⟨11, 0, .rw, 64⟩]⟩
  | .PRT_SVC_MODE => ⟨false, .dev, [⟨1, 0, .rw, 1⟩]⟩
  | .CTX_BIND => ⟨false, .dev, [⟨31, 31, .rw, 0⟩, ⟨30, 26, .rw, 0⟩, ⟨25, 25, .ro, 0⟩, ⟨15, 0, .rw, 0⟩]⟩
  | .CTX_PRIO => ⟨false, .prt, [⟨3, 0, .rw, 0⟩]⟩
  | .CTX_RUN => ⟨false, .ctx, [⟨31, 31, .wo, 0⟩, ⟨30, 30, .wo, 0⟩, ⟨29, 29, .wo, 0⟩, ⟨28, 28, .wo, 0⟩, ⟨2, 0, .ro, 0⟩]⟩
  | .CTX_SAVE => ⟨true, .prt, [⟨63, 62, .rw, 0⟩, ⟨59, 48, .rw, 0⟩, ⟨47, 16, .rw, 0⟩]⟩
  | .CTX_SEED => ⟨true, .prt, [⟨63, 0, .rw, 0⟩]⟩
  | .CTX_FAULT => ⟨true, .ctx, [⟨63, 63, .w1c, 0⟩, ⟨62, 62, .ro, 0⟩, ⟨55, 48, .ro, 0⟩, ⟨47, 32, .ro, 0⟩, ⟨31, 16, .ro, 0⟩, ⟨13, 0, .ro, 0⟩]⟩
  | .CTX_STAT => ⟨false, .ctx, [⟨31, 16, .rc, 0⟩, ⟨15, 0, .rc, 0⟩]⟩
  | .STR_ENTRY => ⟨true, .prt, [⟨63, 63, .ro, 0⟩, ⟨62, 58, .ro, 0⟩, ⟨57, 55, .ro, 0⟩, ⟨54, 53, .ro, 0⟩, ⟨52, 49, .ro, 0⟩, ⟨48, 41, .ro, 0⟩, ⟨40, 37, .ro, 0⟩, ⟨36, 32, .ro, 0⟩, ⟨31, 24, .ro, 0⟩, ⟨23, 20, .ro, 0⟩, ⟨15, 0, .ro, 0⟩]⟩
  | .STR_ENTRY_FMT => ⟨false, .prt, [⟨31, 28, .ro, 0⟩, ⟨27, 16, .ro, 0⟩, ⟨11, 0, .ro, 0⟩]⟩
  | .STR_STAT => ⟨false, .prt, [⟨31, 24, .ro, 0⟩, ⟨23, 16, .ro, 0⟩, ⟨15, 0, .rc, 0⟩]⟩
  | .PWR_STATE => ⟨false, .dev, [⟨31, 31, .wo, 0⟩, ⟨30, 28, .ro, 3⟩, ⟨27, 26, .rw, 0⟩, ⟨25, 24, .ro, 0⟩]⟩
  | .PWR_LIMIT => ⟨false, .dev, [⟨31, 31, .rw, 1⟩, ⟨30, 30, .ro, 0⟩, ⟨27, 16, .ro, 500⟩, ⟨11, 0, .rw, 500⟩]⟩
  | .PWR_GOV_STAT => ⟨false, .dev, [⟨31, 29, .ro, 0⟩, ⟨28, 28, .ro, 0⟩, ⟨27, 27, .ro, 0⟩, ⟨26, 20, .ro, 0⟩, ⟨13, 0, .ro, 0⟩]⟩
  | .PWR_GOV_CNT => ⟨false, .dev, [⟨31, 24, .rc, 0⟩, ⟨23, 16, .rc, 0⟩, ⟨15, 8, .rc, 0⟩, ⟨7, 0, .rc, 0⟩]⟩
  | .PWR_MEAS => ⟨true, .dev, [⟨63, 48, .ro, 0⟩, ⟨47, 32, .ro, 0⟩, ⟨31, 16, .ro, 0⟩, ⟨15, 8, .ro, 0⟩]⟩
  | .PWR_WAKE => ⟨false, .dev, [⟨31, 28, .rw, 3⟩, ⟨27, 27, .rw, 1⟩, ⟨3, 0, .ro, 0⟩]⟩
  | .PWR_WAKE_TIMER => ⟨false, .dev, [⟨31, 0, .rw, 0⟩]⟩
  | .PWR_TIMES => ⟨false, .dev, [⟨31, 16, .ro, 0⟩, ⟨15, 0, .ro, 0⟩]⟩
  | .PWR_PHASE => ⟨false, .dev, [⟨31, 31, .ro, 0⟩, ⟨30, 28, .ro, 0⟩, ⟨27, 27, .ro, 0⟩, ⟨26, 26, .ro, 0⟩, ⟨15, 8, .ro, 0⟩, ⟨7, 0, .ro, 0⟩]⟩
  | .CLK_AON => ⟨false, .aon, [⟨31, 31, .ro, 0⟩, ⟨30, 30, .w1c, 0⟩, ⟨29, 29, .ro, 0⟩]⟩
  | .CLK_AON_CNT => ⟨true, .dev, [⟨63, 0, .ro, 0⟩]⟩
  | .CLK_CLU_CTRL => ⟨false, .prt, [⟨31, 25, .rw, 72⟩, ⟨24, 16, .rw, 50⟩, ⟨15, 8, .rw, 2⟩]⟩
  | .CLK_CLU_STAT => ⟨false, .dev, [⟨31, 29, .ro, 0⟩, ⟨28, 22, .ro, 0⟩, ⟨21, 21, .ro, 0⟩, ⟨15, 0, .rc, 0⟩]⟩
  | .STW_RECORDS => ⟨false, .dev, [⟨11, 8, .ro, 0⟩, ⟨7, 4, .ro, 0⟩, ⟨3, 0, .ro, 0⟩]⟩
  | .STW_FLOG_BASE => ⟨true, .dev, [⟨47, 16, .ro, 0⟩]⟩
  | .STW_FLOG_PTR => ⟨false, .dev, [⟨31, 31, .ro, 0⟩, ⟨30, 0, .ro, 0⟩]⟩
  | .STW_STEWARD => ⟨false, .dev, [⟨31, 30, .ro, 0⟩, ⟨15, 8, .ro, 0⟩, ⟨7, 0, .rc, 0⟩]⟩
  | .STW_AVAIL => ⟨true, .dev, [⟨63, 32, .ro, 0⟩, ⟨31, 0, .ro, 0⟩]⟩
  | .TST_SHUTDOWN_BUDGET => ⟨false, .dev, [⟨15, 0, .rw, 4000⟩]⟩
  | .TST_SHUTDOWN_STAT => ⟨false, .dev, [⟨31, 24, .ro, 0⟩, ⟨23, 14, .ro, 0⟩, ⟨13, 0, .ro, 0⟩]⟩
  | .TST_CMD => ⟨false, .dev, [⟨31, 31, .wo, 0⟩, ⟨30, 30, .wo, 0⟩, ⟨29, 26, .rw, 0⟩, ⟨25, 23, .rw, 0⟩, ⟨22, 22, .rw, 0⟩, ⟨21, 16, .rw, 0⟩, ⟨15, 0, .rw, 0⟩]⟩
  | .TST_STATUS => ⟨false, .dev, [⟨31, 29, .ro, 0⟩, ⟨28, 28, .ro, 0⟩, ⟨27, 27, .ro, 0⟩, ⟨15, 0, .ro, 0⟩]⟩
  | .TST_RESULT => ⟨false, .dev, [⟨31, 16, .ro, 0⟩, ⟨15, 0, .ro, 0⟩]⟩
  | .AGE_STATUS => ⟨false, .dev, [⟨31, 31, .ro, 0⟩, ⟨30, 29, .ro, 0⟩, ⟨28, 16, .ro, 0⟩, ⟨15, 0, .ro, 0⟩]⟩
  | .AGE_PEAK => ⟨false, .dev, [⟨31, 0, .ro, 0⟩]⟩
  | .AGE_CLU => ⟨false, .dev, [⟨31, 25, .ro, 72⟩, ⟨24, 24, .ro, 0⟩, ⟨23, 16, .ro, 0⟩, ⟨15, 0, .ro, 0⟩]⟩
  | .AGE_VF_TABLE => ⟨false, .dev, [⟨31, 31, .ro, 0⟩, ⟨30, 24, .ro, 0⟩, ⟨23, 13, .ro, 0⟩, ⟨12, 7, .ro, 0⟩, ⟨6, 0, .ro, 0⟩]⟩
  | .SEC_KEYSTATE => ⟨false, .aon, [⟨31, 29, .ro, 1⟩, ⟨28, 28, .ro, 0⟩, ⟨27, 27, .ro, 0⟩, ⟨26, 26, .ro, 0⟩, ⟨25, 24, .ro, 0⟩, ⟨19, 9, .ro, 0⟩, ⟨8, 0, .ro, 0⟩]⟩
  | .SEC_ALARM_POLICY => ⟨false, .aon, [⟨9, 8, .rw, 0⟩, ⟨7, 6, .rw, 0⟩, ⟨5, 4, .rw, 0⟩, ⟨3, 2, .rw, 0⟩, ⟨1, 0, .rw, 0⟩]⟩
  | .SEC_ALARM_FUSE => ⟨false, .dev, [⟨31, 31, .ro, 0⟩, ⟨9, 0, .ro, 0⟩]⟩
  | .SEC_TAMPER => ⟨false, .aon, [⟨31, 31, .w1c, 0⟩, ⟨30, 30, .ro, 0⟩, ⟨4, 0, .w1c, 0⟩]⟩
  | .SEC_ROOT => ⟨false, .dev, [⟨11, 8, .ro, 0⟩, ⟨7, 4, .ro, 0⟩, ⟨3, 0, .ro, 0⟩]⟩
  | .SEC_ENDORSE_MIN => ⟨false, .dev, [⟨31, 0, .ro, 0⟩]⟩
  | .SEC_LINK_STAT => ⟨false, .dev, [⟨31, 16, .rc, 0⟩, ⟨15, 0, .rc, 0⟩]⟩
  | .SEC_DEBUG => ⟨false, .dev, [⟨31, 30, .ro, 0⟩, ⟨15, 0, .rc, 0⟩]⟩
  | .SEC_CTX_KEY => ⟨false, .prt, [⟨31, 31, .rw, 0⟩, ⟨9, 0, .rw, 0⟩]⟩
  | .SEC_CMD => ⟨false, .prt, [⟨31, 31, .wo, 0⟩, ⟨30, 30, .ro, 0⟩, ⟨29, 26, .rw, 0⟩, ⟨15, 0, .rw, 0⟩]⟩
  | .SEC_ARG => ⟨true, .prt, [⟨47, 6, .rw, 0⟩]⟩
  | .SEC_STATUS => ⟨false, .prt, [⟨31, 24, .ro, 0⟩, ⟨23, 20, .ro, 0⟩, ⟨15, 0, .ro, 0⟩]⟩
  | .STW_BOOT => ⟨false, .dev, [⟨31, 28, .ro, 0⟩, ⟨27, 27, .ro, 0⟩, ⟨26, 26, .ro, 0⟩, ⟨15, 0, .ro, 0⟩]⟩
  | .STW_FW_STATUS => ⟨false, .dev, [⟨31, 31, .ro, 0⟩, ⟨30, 30, .ro, 0⟩, ⟨29, 26, .ro, 0⟩, ⟨15, 0, .ro, 0⟩]⟩
  | .STW_FW_CTRL => ⟨false, .dev, [⟨31, 31, .wo, 0⟩, ⟨30, 29, .rw, 0⟩, ⟨28, 28, .ro, 0⟩, ⟨27, 27, .rw, 0⟩, ⟨23, 20, .ro, 0⟩]⟩
  | .STW_FW_SRC => ⟨true, .dev, [⟨47, 12, .rw, 0⟩]⟩
  | .STW_FW_MINVER => ⟨false, .dev, [⟨31, 0, .ro, 0⟩]⟩
  | .STW_PCIE => ⟨false, .dev, [⟨31, 29, .ro, 0⟩, ⟨28, 26, .ro, 0⟩, ⟨25, 21, .ro, 0⟩, ⟨20, 20, .ro, 0⟩, ⟨19, 10, .ro, 0⟩]⟩
  | .STW_PCIE_BAR4 => ⟨true, .dev, [⟨47, 30, .rw, 0⟩]⟩
  | .STW_DB_BIND => ⟨true, .prt, [⟨63, 63, .wo, 0⟩, ⟨62, 62, .wo, 0⟩, ⟨61, 59, .rw, 0⟩, ⟨58, 49, .rw, 0⟩, ⟨48, 41, .rw, 0⟩, ⟨40, 36, .rw, 0⟩, ⟨35, 26, .rw, 0⟩]⟩
  | .STW_DB_RESULT => ⟨false, .prt, [⟨31, 31, .ro, 0⟩, ⟨30, 28, .ro, 0⟩]⟩
  | .STW_HIF_DENY => ⟨false, .dev, [⟨31, 16, .rc, 0⟩, ⟨15, 0, .rc, 0⟩]⟩
  | .STW_DEVRESET => ⟨false, .dev, [⟨31, 31, .wo, 0⟩, ⟨7, 0, .wo, 0⟩]⟩
  | .STW_MGMT => ⟨false, .dev, [⟨31, 24, .ro, 0⟩, ⟨23, 16, .ro, 0⟩, ⟨15, 8, .ro, 0⟩, ⟨7, 7, .ro, 0⟩, ⟨6, 0, .ro, 106⟩]⟩
  | .HALT_STATUS => ⟨false, .aon, [⟨31, 31, .ro, 0⟩, ⟨30, 30, .ro, 0⟩, ⟨29, 29, .ro, 0⟩, ⟨28, 28, .ro, 0⟩, ⟨27, 27, .ro, 0⟩, ⟨26, 25, .ro, 0⟩, ⟨17, 0, .ro, 0⟩]⟩
  | .HALT_CTRL => ⟨false, .aon, [⟨31, 31, .wo, 0⟩, ⟨30, 30, .ro, 0⟩, ⟨15, 0, .rc, 0⟩]⟩
  | .STW_IDENT => ⟨false, .dev, [⟨31, 24, .ro, 167⟩, ⟨23, 16, .ro, 22⟩, ⟨15, 12, .ro, 0⟩, ⟨11, 8, .ro, 0⟩]⟩
  | .STW_STATE => ⟨false, .dev, [⟨31, 29, .ro, 3⟩, ⟨28, 28, .ro, 0⟩, ⟨27, 27, .ro, 0⟩, ⟨26, 26, .ro, 0⟩, ⟨25, 25, .ro, 0⟩, ⟨24, 24, .ro, 0⟩, ⟨23, 23, .ro, 0⟩, ⟨22, 22, .ro, 0⟩, ⟨21, 21, .ro, 0⟩, ⟨20, 20, .ro, 0⟩, ⟨19, 19, .ro, 0⟩, ⟨18, 18, .w1c, 0⟩, ⟨15, 12, .ro, 0⟩]⟩
  | .STW_CAPS => ⟨false, .dev, [⟨31, 27, .ro, 0⟩, ⟨26, 21, .ro, 0⟩, ⟨20, 16, .ro, 0⟩, ⟨15, 6, .ro, 0⟩, ⟨5, 3, .ro, 0⟩]⟩

/-- The reset value of the register whose number is `c`, put together from the table of its fields. -/
def regResetCode : Nat → BitVec 64
  | 39 => 0x40000#64
  | 50 => 0x100000#64
  | 69 => 0x40000#64
  | 70 => 0xffffffff#64
  | 88 => 0xf0#64
  | 89 => 0xff000000#64
  | 119 => 0x40c80064#64
  | 124 => 0x40040#64
  | 125 => 0x1#64
  | 136 => 0x30000000#64
  | 137 => 0x81f401f4#64
  | 141 => 0x38000000#64
  | 147 => 0x90320200#64
  | 154 => 0xfa0#64
  | 161 => 0x90000000#64
  | 163 => 0x20000000#64
  | 186 => 0x6a#64
  | 189 => 0xa7160000#64
  | 190 => 0x60000000#64
  | _ => 0#64

/-- The reset value of the register file at a key: the register number above the instance number. -/
def regReset (k : Nat) : BitVec 64 := regResetCode (k / 1048576)

/-- The reset domain of the register whose number is `c`. -/
def regDomainCode : Nat → Domain
  | 64 => .aon
  | 145 => .aon
  | 163 => .aon
  | 164 => .aon
  | 166 => .aon
  | 187 => .aon
  | 188 => .aon
  | 3 => .prt
  | 4 => .prt
  | 5 => .prt
  | 6 => .prt
  | 7 => .prt
  | 8 => .prt
  | 9 => .prt
  | 10 => .prt
  | 12 => .prt
  | 13 => .prt
  | 14 => .prt
  | 15 => .prt
  | 16 => .prt
  | 17 => .prt
  | 18 => .prt
  | 19 => .prt
  | 20 => .prt
  | 21 => .prt
  | 22 => .prt
  | 23 => .prt
  | 24 => .prt
  | 25 => .prt
  | 26 => .prt
  | 27 => .prt
  | 28 => .prt
  | 29 => .prt
  | 30 => .prt
  | 31 => .prt
  | 32 => .prt
  | 33 => .prt
  | 34 => .prt
  | 35 => .prt
  | 36 => .prt
  | 37 => .prt
  | 38 => .prt
  | 39 => .prt
  | 41 => .prt
  | 42 => .prt
  | 43 => .prt
  | 53 => .prt
  | 54 => .prt
  | 55 => .prt
  | 65 => .prt
  | 66 => .prt
  | 68 => .prt
  | 69 => .prt
  | 70 => .prt
  | 75 => .prt
  | 76 => .prt
  | 77 => .prt
  | 92 => .prt
  | 93 => .prt
  | 94 => .prt
  | 95 => .prt
  | 96 => .prt
  | 97 => .prt
  | 98 => .prt
  | 101 => .prt
  | 102 => .prt
  | 103 => .prt
  | 106 => .prt
  | 107 => .prt
  | 108 => .prt
  | 119 => .prt
  | 120 => .prt
  | 121 => .prt
  | 122 => .prt
  | 123 => .prt
  | 124 => .prt
  | 127 => .prt
  | 129 => .prt
  | 130 => .prt
  | 133 => .prt
  | 134 => .prt
  | 135 => .prt
  | 147 => .prt
  | 171 => .prt
  | 172 => .prt
  | 173 => .prt
  | 174 => .prt
  | 182 => .prt
  | 183 => .prt
  | 56 => .ctx
  | 67 => .ctx
  | 71 => .ctx
  | 72 => .ctx
  | 73 => .ctx
  | 74 => .ctx
  | 128 => .ctx
  | 131 => .ctx
  | 132 => .ctx
  | _ => .dev

namespace F
def STW_SITE_QUERY_level : Fld := ⟨.STW_SITE_QUERY, 17, 16⟩
def STW_SITE_QUERY_engine : Fld := ⟨.STW_SITE_QUERY, 13, 12⟩
def STW_SITE_QUERY_core : Fld := ⟨.STW_SITE_QUERY, 11, 8⟩
def STW_SITE_QUERY_cluster : Fld := ⟨.STW_SITE_QUERY, 6, 4⟩
def STW_SITE_QUERY_die : Fld := ⟨.STW_SITE_QUERY, 3, 0⟩
def STW_SITE_RESULT_valid : Fld := ⟨.STW_SITE_RESULT, 31, 31⟩
def STW_SITE_RESULT_binding : Fld := ⟨.STW_SITE_RESULT, 29, 28⟩
def STW_SITE_RESULT_engine_site : Fld := ⟨.STW_SITE_RESULT, 26, 24⟩
def STW_SITE_RESULT_core_site : Fld := ⟨.STW_SITE_RESULT, 20, 16⟩
def STW_SITE_RESULT_cluster_site : Fld := ⟨.STW_SITE_RESULT, 11, 8⟩
def STW_SITE_RESULT_die_site : Fld := ⟨.STW_SITE_RESULT, 4, 0⟩
def STW_SPARE_GEN_stack_retired : Fld := ⟨.STW_SPARE_GEN, 18, 18⟩
def STW_SPARE_GEN_degraded : Fld := ⟨.STW_SPARE_GEN, 17, 17⟩
def STW_SPARE_GEN_die_spare_used : Fld := ⟨.STW_SPARE_GEN, 16, 16⟩
def STW_SPARE_GEN_gen : Fld := ⟨.STW_SPARE_GEN, 15, 0⟩
def FIG_SRC_addr : Fld := ⟨.FIG_SRC, 47, 0⟩
def FIG_LOAD_go : Fld := ⟨.FIG_LOAD, 31, 31⟩
def FIG_LOAD_switch_when_done : Fld := ⟨.FIG_LOAD, 8, 8⟩
def FIG_LOAD_slot : Fld := ⟨.FIG_LOAD, 2, 0⟩
def FIG_STATUS_active_slot : Fld := ⟨.FIG_STATUS, 21, 19⟩
def FIG_STATUS_active_valid : Fld := ⟨.FIG_STATUS, 18, 18⟩
def FIG_STATUS_accuracy : Fld := ⟨.FIG_STATUS, 17, 16⟩
def FIG_STATUS_code : Fld := ⟨.FIG_STATUS, 15, 8⟩
def FIG_STATUS_refused : Fld := ⟨.FIG_STATUS, 7, 7⟩
def FIG_STATUS_slot : Fld := ⟨.FIG_STATUS, 6, 4⟩
def FIG_STATUS_state : Fld := ⟨.FIG_STATUS, 3, 0⟩
def FIG_DETAIL_index : Fld := ⟨.FIG_DETAIL, 31, 0⟩
def FIG_AREA_size_mib : Fld := ⟨.FIG_AREA, 63, 48⟩
def FIG_AREA_base : Fld := ⟨.FIG_AREA, 47, 16⟩
def FIG_SWITCH_go : Fld := ⟨.FIG_SWITCH, 31, 31⟩
def FIG_SWITCH_cancel : Fld := ⟨.FIG_SWITCH, 30, 30⟩
def FIG_SWITCH_slot : Fld := ⟨.FIG_SWITCH, 2, 0⟩
def FIG_SWITCH_TIME_max : Fld := ⟨.FIG_SWITCH_TIME, 31, 16⟩
def FIG_SWITCH_TIME_last : Fld := ⟨.FIG_SWITCH_TIME, 15, 0⟩
def FIG_DROPPED_semaphores : Fld := ⟨.FIG_DROPPED, 31, 16⟩
def FIG_DROPPED_tiles : Fld := ⟨.FIG_DROPPED, 15, 0⟩
def FIG_MINVER_minver : Fld := ⟨.FIG_MINVER, 31, 0⟩
def FIG_STAGE_valid : Fld := ⟨.FIG_STAGE, 31, 31⟩
def FIG_STAGE_active : Fld := ⟨.FIG_STAGE, 30, 30⟩
def FIG_STAGE_patch_pending : Fld := ⟨.FIG_STAGE, 29, 29⟩
def FIG_STAGE_discard : Fld := ⟨.FIG_STAGE, 28, 28⟩
def FIG_STAGE_figure_id : Fld := ⟨.FIG_STAGE, 15, 0⟩
def COR_SEQ_STATUS_state : Fld := ⟨.COR_SEQ_STATUS, 31, 29⟩
def COR_SEQ_STATUS_depth : Fld := ⟨.COR_SEQ_STATUS, 28, 26⟩
def COR_SEQ_STATUS_reentry : Fld := ⟨.COR_SEQ_STATUS, 25, 25⟩
def COR_SEQ_STATUS_live_banks : Fld := ⟨.COR_SEQ_STATUS, 24, 22⟩
def COR_SEQ_STATUS_pointer : Fld := ⟨.COR_SEQ_STATUS, 13, 0⟩
def COR_FAULT_valid : Fld := ⟨.COR_FAULT, 31, 31⟩
def COR_FAULT_step : Fld := ⟨.COR_FAULT, 27, 14⟩
def COR_FAULT_code : Fld := ⟨.COR_FAULT, 7, 0⟩
def COR_FAULT_ADDR_addr : Fld := ⟨.COR_FAULT_ADDR, 55, 0⟩
def COR_BEAT_STAT_overruns : Fld := ⟨.COR_BEAT_STAT, 31, 16⟩
def COR_BEAT_STAT_longest : Fld := ⟨.COR_BEAT_STAT, 15, 0⟩
def COR_ITER_iteration : Fld := ⟨.COR_ITER, 31, 0⟩
def COR_LOOP_CNT_upper : Fld := ⟨.COR_LOOP_CNT, 31, 16⟩
def COR_LOOP_CNT_lower : Fld := ⟨.COR_LOOP_CNT, 15, 0⟩
def COR_SEL_STATE_sem_status : Fld := ⟨.COR_SEL_STATE, 31, 30⟩
def COR_SEL_STATE_live_rows : Fld := ⟨.COR_SEL_STATE, 24, 16⟩
def COR_SEL_STATE_dyn_trip : Fld := ⟨.COR_SEL_STATE, 15, 0⟩
def COR_NUM_STAT_nonfinite : Fld := ⟨.COR_NUM_STAT, 31, 16⟩
def COR_NUM_STAT_saturated : Fld := ⟨.COR_NUM_STAT, 15, 0⟩
def COR_ACC_STAT_nan_out : Fld := ⟨.COR_ACC_STAT, 31, 16⟩
def COR_ACC_STAT_overflow : Fld := ⟨.COR_ACC_STAT, 15, 0⟩
def COR_RNG_CTR_counter : Fld := ⟨.COR_RNG_CTR, 63, 0⟩
def COR_ROW_STAT_rows : Fld := ⟨.COR_ROW_STAT, 31, 16⟩
def COR_ROW_STAT_steps : Fld := ⟨.COR_ROW_STAT, 15, 0⟩
def COR_BOUND_OVF_slot : Fld := ⟨.COR_BOUND_OVF, 15, 0⟩
def COR_ROW_EXC_empty_rows : Fld := ⟨.COR_ROW_EXC, 31, 16⟩
def COR_ROW_EXC_bad_ref : Fld := ⟨.COR_ROW_EXC, 15, 0⟩
def COR_BOUND_VAL_bound : Fld := ⟨.COR_BOUND_VAL, 31, 0⟩
def PRT_PFX_BASE_base : Fld := ⟨.PRT_PFX_BASE, 47, 21⟩
def PRT_PFX_BASE_enable : Fld := ⟨.PRT_PFX_BASE, 0, 0⟩
def PRT_PFX_CTRL_rekey : Fld := ⟨.PRT_PFX_CTRL, 31, 31⟩
def PRT_PFX_CTRL_flush : Fld := ⟨.PRT_PFX_CTRL, 30, 30⟩
def PRT_PFX_CTRL_busy : Fld := ⟨.PRT_PFX_CTRL, 1, 1⟩
def PRT_PFX_CTRL_ready : Fld := ⟨.PRT_PFX_CTRL, 0, 0⟩
def PRT_PFX_EVLOG_base : Fld := ⟨.PRT_PFX_EVLOG, 47, 16⟩
def PRT_PFX_EVLOG_enable : Fld := ⟨.PRT_PFX_EVLOG, 0, 0⟩
def PRT_PFX_EVLOG_PTR_head : Fld := ⟨.PRT_PFX_EVLOG_PTR, 31, 16⟩
def PRT_PFX_EVLOG_PTR_tail : Fld := ⟨.PRT_PFX_EVLOG_PTR, 15, 0⟩
def PRT_PFX_USE_valid : Fld := ⟨.PRT_PFX_USE, 16, 0⟩
def PRT_PFX_REFD_referenced : Fld := ⟨.PRT_PFX_REFD, 16, 0⟩
def PRT_PFX_HITS_hits : Fld := ⟨.PRT_PFX_HITS, 31, 0⟩
def PRT_PFX_MISSES_misses : Fld := ⟨.PRT_PFX_MISSES, 31, 0⟩
def PRT_PFX_EVENTS_collisions : Fld := ⟨.PRT_PFX_EVENTS, 31, 16⟩
def PRT_PFX_EVENTS_full : Fld := ⟨.PRT_PFX_EVENTS, 15, 0⟩
def PRT_SEQ_DOORBELL_ring : Fld := ⟨.PRT_SEQ_DOORBELL, 5, 0⟩
def PRT_SEQ_STAT_busy : Fld := ⟨.PRT_SEQ_STAT, 31, 31⟩
def PRT_SEQ_STAT_last_ring : Fld := ⟨.PRT_SEQ_STAT, 29, 24⟩
def PRT_SEQ_STAT_last_status : Fld := ⟨.PRT_SEQ_STAT, 23, 16⟩
def PRT_SEQ_STAT_completed : Fld := ⟨.PRT_SEQ_STAT, 15, 0⟩
def PRT_SEQ_RING_BASE_base : Fld := ⟨.PRT_SEQ_RING_BASE, 55, 6⟩
def PRT_SEQ_RING_BASE_enable : Fld := ⟨.PRT_SEQ_RING_BASE, 0, 0⟩
def PRT_SEQ_RING_CFG_share_en : Fld := ⟨.PRT_SEQ_RING_CFG, 31, 31⟩
def PRT_SEQ_RING_CFG_share_group : Fld := ⟨.PRT_SEQ_RING_CFG, 29, 24⟩
def PRT_SEQ_RING_CFG_size_log2 : Fld := ⟨.PRT_SEQ_RING_CFG, 19, 16⟩
def PRT_SEQ_RING_CFG_context : Fld := ⟨.PRT_SEQ_RING_CFG, 9, 0⟩
def CLU_MESH_MAP_spare_bound : Fld := ⟨.CLU_MESH_MAP, 31, 31⟩
def CLU_MESH_MAP_spare_position : Fld := ⟨.CLU_MESH_MAP, 27, 24⟩
def CLU_MESH_MAP_retired : Fld := ⟨.CLU_MESH_MAP, 16, 0⟩
def CLU_HALO_STAT_held : Fld := ⟨.CLU_HALO_STAT, 31, 16⟩
def CLU_HALO_STAT_corrected : Fld := ⟨.CLU_HALO_STAT, 15, 0⟩
def CLU_MESH_ERR_valid : Fld := ⟨.CLU_MESH_ERR, 31, 31⟩
def CLU_MESH_ERR_dir : Fld := ⟨.CLU_MESH_ERR, 7, 6⟩
def CLU_MESH_ERR_position : Fld := ⟨.CLU_MESH_ERR, 3, 0⟩
def COR_TMEM_ECC_corrected : Fld := ⟨.COR_TMEM_ECC, 31, 16⟩
def COR_TMEM_ECC_poisoned : Fld := ⟨.COR_TMEM_ECC, 15, 0⟩
def FLR_WAYMAP_busy : Fld := ⟨.FLR_WAYMAP, 31, 16⟩
def FLR_WAYMAP_mode : Fld := ⟨.FLR_WAYMAP, 15, 0⟩
def FLR_WAYOWN_way3 : Fld := ⟨.FLR_WAYOWN, 31, 24⟩
def FLR_WAYOWN_way2 : Fld := ⟨.FLR_WAYOWN, 23, 16⟩
def FLR_WAYOWN_way1 : Fld := ⟨.FLR_WAYOWN, 15, 8⟩
def FLR_WAYOWN_way0 : Fld := ⟨.FLR_WAYOWN, 7, 0⟩
def FLR_ECC_corrected : Fld := ⟨.FLR_ECC, 31, 20⟩
def FLR_ECC_refetched : Fld := ⟨.FLR_ECC, 19, 10⟩
def FLR_ECC_poisoned : Fld := ⟨.FLR_ECC, 9, 0⟩
def FLR_SEM_STAT_revoked : Fld := ⟨.FLR_SEM_STAT, 31, 16⟩
def FLR_SEM_STAT_abandoned : Fld := ⟨.FLR_SEM_STAT, 15, 0⟩
def DRM_TRAIN_go : Fld := ⟨.DRM_TRAIN, 31, 31⟩
def DRM_TRAIN_busy : Fld := ⟨.DRM_TRAIN, 30, 30⟩
def DRM_TRAIN_result : Fld := ⟨.DRM_TRAIN, 29, 28⟩
def DRM_TRAIN_MASK_mask : Fld := ⟨.DRM_TRAIN_MASK, 31, 0⟩
def DRM_STACK_STATUS_state : Fld := ⟨.DRM_STACK_STATUS, 31, 30⟩
def DRM_STACK_STATUS_retired : Fld := ⟨.DRM_STACK_STATUS, 29, 29⟩
def DRM_STACK_STATUS_rows_out : Fld := ⟨.DRM_STACK_STATUS, 28, 28⟩
def DRM_STACK_STATUS_banks_out : Fld := ⟨.DRM_STACK_STATUS, 27, 27⟩
def DRM_STACK_STATUS_channels_retired : Fld := ⟨.DRM_STACK_STATUS, 26, 21⟩
def DRM_STACK_STATUS_spare_rows : Fld := ⟨.DRM_STACK_STATUS, 20, 8⟩
def DRM_STACK_STATUS_temp : Fld := ⟨.DRM_STACK_STATUS, 7, 0⟩
def DRM_STACK_ECC_corrected : Fld := ⟨.DRM_STACK_ECC, 31, 16⟩
def DRM_STACK_ECC_uncorrected : Fld := ⟨.DRM_STACK_ECC, 15, 8⟩
def DRM_STACK_ECC_back_inval : Fld := ⟨.DRM_STACK_ECC, 7, 0⟩
def DRM_CHAN_STATUS_retired : Fld := ⟨.DRM_CHAN_STATUS, 31, 31⟩
def DRM_CHAN_STATUS_lane_pending : Fld := ⟨.DRM_CHAN_STATUS, 30, 30⟩
def DRM_CHAN_STATUS_dq_spares : Fld := ⟨.DRM_CHAN_STATUS, 29, 28⟩
def DRM_CHAN_STATUS_ca_spare : Fld := ⟨.DRM_CHAN_STATUS, 27, 27⟩
def DRM_CHAN_STATUS_rows_repaired : Fld := ⟨.DRM_CHAN_STATUS, 15, 0⟩
def DRM_PROMO_POOL_frames : Fld := ⟨.DRM_PROMO_POOL, 63, 48⟩
def DRM_PROMO_POOL_base : Fld := ⟨.DRM_PROMO_POOL, 47, 21⟩
def DRM_PROMO_POOL_threshold : Fld := ⟨.DRM_PROMO_POOL, 15, 0⟩
def DRM_PROMOTE_op : Fld := ⟨.DRM_PROMOTE, 31, 30⟩
def DRM_PROMOTE_busy : Fld := ⟨.DRM_PROMOTE, 29, 29⟩
def DRM_PROMOTE_result : Fld := ⟨.DRM_PROMOTE, 28, 27⟩
def DRM_PROMOTE_extent : Fld := ⟨.DRM_PROMOTE, 20, 0⟩
def DRM_PROMO_STAT_in_use : Fld := ⟨.DRM_PROMO_STAT, 31, 16⟩
def DRM_PROMO_STAT_demotions : Fld := ⟨.DRM_PROMO_STAT, 15, 0⟩
def DRM_CTX_MAP_inval : Fld := ⟨.DRM_CTX_MAP, 63, 63⟩
def DRM_CTX_MAP_count : Fld := ⟨.DRM_CTX_MAP, 60, 48⟩
def DRM_CTX_MAP_base : Fld := ⟨.DRM_CTX_MAP, 47, 6⟩
def FLS_CATALOG_gen : Fld := ⟨.FLS_CATALOG, 63, 48⟩
def FLS_CATALOG_free_runs : Fld := ⟨.FLS_CATALOG, 47, 32⟩
def FLS_CATALOG_largest_run : Fld := ⟨.FLS_CATALOG, 31, 16⟩
def FLS_CATALOG_valid : Fld := ⟨.FLS_CATALOG, 12, 0⟩
def FLS_CMD_go : Fld := ⟨.FLS_CMD, 31, 31⟩
def FLS_CMD_op : Fld := ⟨.FLS_CMD, 30, 28⟩
def FLS_CMD_entry : Fld := ⟨.FLS_CMD, 11, 0⟩
def FLS_ARG_A_arg : Fld := ⟨.FLS_ARG_A, 63, 0⟩
def FLS_ARG_B_arg : Fld := ⟨.FLS_ARG_B, 63, 0⟩
def FLS_STATUS_busy : Fld := ⟨.FLS_STATUS, 31, 31⟩
def FLS_STATUS_result : Fld := ⟨.FLS_STATUS, 23, 16⟩
def FLS_STATUS_op : Fld := ⟨.FLS_STATUS, 14, 12⟩
def FLS_STATUS_entry : Fld := ⟨.FLS_STATUS, 11, 0⟩
def FLS_STACK_STATUS_temp : Fld := ⟨.FLS_STACK_STATUS, 31, 24⟩
def FLS_STACK_STATUS_write_paused : Fld := ⟨.FLS_STACK_STATUS, 23, 23⟩
def FLS_STACK_STATUS_degraded : Fld := ⟨.FLS_STACK_STATUS, 22, 22⟩
def FLS_STACK_STATUS_lost : Fld := ⟨.FLS_STACK_STATUS, 21, 21⟩
def FLS_STACK_STATUS_spare_blocks : Fld := ⟨.FLS_STACK_STATUS, 16, 0⟩
def FLS_STACK_WEAR_relocations : Fld := ⟨.FLS_STACK_WEAR, 31, 16⟩
def FLS_STACK_WEAR_rebuilds : Fld := ⟨.FLS_STACK_WEAR, 15, 8⟩
def FLS_STACK_WEAR_wear : Fld := ⟨.FLS_STACK_WEAR, 7, 0⟩
def FLS_SCRUB_passes : Fld := ⟨.FLS_SCRUB, 31, 24⟩
def FLS_SCRUB_block : Fld := ⟨.FLS_SCRUB, 18, 0⟩
def FLS_RING_STAT_state : Fld := ⟨.FLS_RING_STAT, 31, 29⟩
def FLS_RING_STAT_seq : Fld := ⟨.FLS_RING_STAT, 15, 0⟩
def FLS_RING_TIME_first : Fld := ⟨.FLS_RING_TIME, 31, 16⟩
def FLS_RING_TIME_longest : Fld := ⟨.FLS_RING_TIME, 15, 0⟩
def DMA_RING_BASE_base : Fld := ⟨.DMA_RING_BASE, 55, 6⟩
def DMA_RING_BASE_enable : Fld := ⟨.DMA_RING_BASE, 0, 0⟩
def DMA_RING_OWN_owned : Fld := ⟨.DMA_RING_OWN, 31, 31⟩
def DMA_RING_OWN_phys : Fld := ⟨.DMA_RING_OWN, 30, 30⟩
def DMA_RING_OWN_partition : Fld := ⟨.DMA_RING_OWN, 4, 0⟩
def DMA_RING_CFG_size_log2 : Fld := ⟨.DMA_RING_CFG, 20, 16⟩
def DMA_RING_CFG_context : Fld := ⟨.DMA_RING_CFG, 9, 0⟩
def DMA_RING_RATE_share3 : Fld := ⟨.DMA_RING_RATE, 31, 24⟩
def DMA_RING_RATE_share2 : Fld := ⟨.DMA_RING_RATE, 23, 16⟩
def DMA_RING_RATE_share1 : Fld := ⟨.DMA_RING_RATE, 15, 8⟩
def DMA_RING_RATE_share0 : Fld := ⟨.DMA_RING_RATE, 7, 0⟩
def DMA_RING_STAT_state : Fld := ⟨.DMA_RING_STAT, 31, 29⟩
def DMA_RING_STAT_last_status : Fld := ⟨.DMA_RING_STAT, 23, 16⟩
def DMA_RING_STAT_head : Fld := ⟨.DMA_RING_STAT, 15, 0⟩
def DMA_RING_DOORBELL_ring : Fld := ⟨.DMA_RING_DOORBELL, 31, 0⟩
def DMA_RING_CTRL_resume : Fld := ⟨.DMA_RING_CTRL, 31, 31⟩
def DMA_RING_CTRL_cancel : Fld := ⟨.DMA_RING_CTRL, 30, 30⟩
def DMA_RING_BYTES_bytes : Fld := ⟨.DMA_RING_BYTES, 63, 0⟩
def EVT_CUE_SEL_level : Fld := ⟨.EVT_CUE_SEL, 30, 29⟩
def EVT_CUE_SEL_cluster : Fld := ⟨.EVT_CUE_SEL, 28, 21⟩
def EVT_CUE_SEL_core : Fld := ⟨.EVT_CUE_SEL, 20, 17⟩
def EVT_CUE_SEL_link_die : Fld := ⟨.EVT_CUE_SEL, 16, 15⟩
def EVT_CUE_SEL_index : Fld := ⟨.EVT_CUE_SEL, 14, 9⟩
def EVT_CUE_valid : Fld := ⟨.EVT_CUE, 31, 31⟩
def EVT_CUE_overflow : Fld := ⟨.EVT_CUE, 16, 16⟩
def EVT_CUE_value : Fld := ⟨.EVT_CUE, 15, 0⟩
def EVT_CUE_ADD_count : Fld := ⟨.EVT_CUE_ADD, 15, 0⟩
def LNK_DEVICE_valid : Fld := ⟨.LNK_DEVICE, 31, 31⟩
def LNK_DEVICE_root : Fld := ⟨.LNK_DEVICE, 30, 30⟩
def LNK_DEVICE_id : Fld := ⟨.LNK_DEVICE, 19, 0⟩
def LNK_COORD_line : Fld := ⟨.LNK_COORD, 31, 20⟩
def LNK_COORD_round : Fld := ⟨.LNK_COORD, 19, 12⟩
def LNK_COORD_round_size : Fld := ⟨.LNK_COORD, 11, 4⟩
def LNK_COORD_misplaced : Fld := ⟨.LNK_COORD, 3, 3⟩
def LNK_COORD_conflict : Fld := ⟨.LNK_COORD, 2, 2⟩
def LNK_SERIAL_serial : Fld := ⟨.LNK_SERIAL, 63, 0⟩
def LNK_PROM_STATUS_state : Fld := ⟨.LNK_PROM_STATUS, 31, 29⟩
def LNK_PROM_STATUS_devices : Fld := ⟨.LNK_PROM_STATUS, 28, 16⟩
def LNK_PROM_STATUS_hops : Fld := ⟨.LNK_PROM_STATUS, 12, 0⟩
def LNK_PROM_TIME_done_ms : Fld := ⟨.LNK_PROM_TIME, 31, 16⟩
def LNK_PROM_TIME_walk : Fld := ⟨.LNK_PROM_TIME, 15, 0⟩
def LNK_PROM_CTRL_rewalk : Fld := ⟨.LNK_PROM_CTRL, 31, 31⟩
def LNK_TOPO_BASE_size_kib : Fld := ⟨.LNK_TOPO_BASE, 63, 48⟩
def LNK_TOPO_BASE_base : Fld := ⟨.LNK_TOPO_BASE, 47, 12⟩
def LNK_FLOW_BASE_base : Fld := ⟨.LNK_FLOW_BASE, 47, 17⟩
def LNK_FLOW_BASE_enable : Fld := ⟨.LNK_FLOW_BASE, 0, 0⟩
def LNK_DROPS_hop_limit : Fld := ⟨.LNK_DROPS, 31, 24⟩
def LNK_DROPS_unrouted : Fld := ⟨.LNK_DROPS, 23, 16⟩
def LNK_DROPS_refused : Fld := ⟨.LNK_DROPS, 15, 8⟩
def LNK_DROPS_epoch : Fld := ⟨.LNK_DROPS, 7, 0⟩
def LNK_FLOW_CTRL_sync : Fld := ⟨.LNK_FLOW_CTRL, 31, 31⟩
def LNK_FLOW_CTRL_busy : Fld := ⟨.LNK_FLOW_CTRL, 30, 30⟩
def LNK_FLOW_CTRL_valid : Fld := ⟨.LNK_FLOW_CTRL, 12, 0⟩
def LNK_PORT_STATUS_state : Fld := ⟨.LNK_PORT_STATUS, 31, 29⟩
def LNK_PORT_STATUS_reason : Fld := ⟨.LNK_PORT_STATUS, 28, 25⟩
def LNK_PORT_STATUS_spare_used : Fld := ⟨.LNK_PORT_STATUS, 24, 24⟩
def LNK_PORT_STATUS_spare_for : Fld := ⟨.LNK_PORT_STATUS, 23, 20⟩
def LNK_PORT_STATUS_no_spare : Fld := ⟨.LNK_PORT_STATUS, 19, 19⟩
def LNK_PORT_STATUS_site : Fld := ⟨.LNK_PORT_STATUS, 18, 12⟩
def LNK_PORT_STATUS_module : Fld := ⟨.LNK_PORT_STATUS, 11, 10⟩
def LNK_PORT_STATUS_loss_class : Fld := ⟨.LNK_PORT_STATUS, 9, 8⟩
def LNK_PORT_STATUS_role : Fld := ⟨.LNK_PORT_STATUS, 7, 4⟩
def LNK_PORT_NBR_far_port : Fld := ⟨.LNK_PORT_NBR, 31, 24⟩
def LNK_PORT_NBR_nbr_id : Fld := ⟨.LNK_PORT_NBR, 19, 0⟩
def LNK_PORT_ERR_corrected : Fld := ⟨.LNK_PORT_ERR, 31, 16⟩
def LNK_PORT_ERR_uncorrected : Fld := ⟨.LNK_PORT_ERR, 15, 0⟩
def LNK_PORT_RETRY_replays : Fld := ⟨.LNK_PORT_RETRY, 31, 16⟩
def LNK_PORT_RETRY_failovers : Fld := ⟨.LNK_PORT_RETRY, 15, 8⟩
def LNK_PORT_RETRY_lane_switches : Fld := ⟨.LNK_PORT_RETRY, 7, 0⟩
def COL_GROUP_valid : Fld := ⟨.COL_GROUP, 63, 63⟩
def COL_GROUP_broken : Fld := ⟨.COL_GROUP, 62, 62⟩
def COL_GROUP_excluded : Fld := ⟨.COL_GROUP, 61, 61⟩
def COL_GROUP_partition : Fld := ⟨.COL_GROUP, 60, 56⟩
def COL_GROUP_algorithm : Fld := ⟨.COL_GROUP, 55, 54⟩
def COL_GROUP_kind : Fld := ⟨.COL_GROUP, 53, 53⟩
def COL_GROUP_on_fail : Fld := ⟨.COL_GROUP, 52, 52⟩
def COL_GROUP_epoch : Fld := ⟨.COL_GROUP, 51, 36⟩
def COL_GROUP_members : Fld := ⟨.COL_GROUP, 35, 19⟩
def COL_GROUP_rank : Fld := ⟨.COL_GROUP, 15, 0⟩
def COL_GROUP_KEY_key : Fld := ⟨.COL_GROUP_KEY, 31, 0⟩
def COL_GROUP_STAT_reformations : Fld := ⟨.COL_GROUP_STAT, 31, 24⟩
def COL_GROUP_STAT_stale : Fld := ⟨.COL_GROUP_STAT, 23, 16⟩
def COL_GROUP_STAT_completed : Fld := ⟨.COL_GROUP_STAT, 15, 0⟩
def COL_GROUP_LIST_timeout_ms : Fld := ⟨.COL_GROUP_LIST, 63, 48⟩
def COL_GROUP_LIST_addr : Fld := ⟨.COL_GROUP_LIST, 47, 6⟩
def COL_GROUP_SIZE_listed : Fld := ⟨.COL_GROUP_SIZE, 16, 0⟩
def COL_PRT_LIST_size_kib : Fld := ⟨.COL_PRT_LIST, 63, 48⟩
def COL_PRT_LIST_base : Fld := ⟨.COL_PRT_LIST, 47, 16⟩
def COL_PRT_REMOVE_go : Fld := ⟨.COL_PRT_REMOVE, 31, 31⟩
def COL_PRT_REMOVE_entry : Fld := ⟨.COL_PRT_REMOVE, 27, 16⟩
def COL_PRT_REMOVE_rank : Fld := ⟨.COL_PRT_REMOVE, 15, 0⟩
def VCE_CTRL_enable : Fld := ⟨.VCE_CTRL, 31, 31⟩
def VCE_CTRL_fw_ready : Fld := ⟨.VCE_CTRL, 30, 30⟩
def VCE_CTRL_retired : Fld := ⟨.VCE_CTRL, 29, 29⟩
def VCE_CTRL_busy : Fld := ⟨.VCE_CTRL, 28, 28⟩
def VCE_CTRL_partition : Fld := ⟨.VCE_CTRL, 24, 20⟩
def VCE_CTRL_fw_version : Fld := ⟨.VCE_CTRL, 15, 0⟩
def VCE_LOAD_busy_pct : Fld := ⟨.VCE_LOAD, 31, 24⟩
def VCE_LOAD_decode_pct : Fld := ⟨.VCE_LOAD, 23, 16⟩
def VCE_LOAD_sessions : Fld := ⟨.VCE_LOAD, 12, 8⟩
def VCE_LOAD_queued : Fld := ⟨.VCE_LOAD, 7, 0⟩
def VCE_RC_STAT_stage1 : Fld := ⟨.VCE_RC_STAT, 31, 24⟩
def VCE_RC_STAT_stage2 : Fld := ⟨.VCE_RC_STAT, 23, 16⟩
def VCE_RC_STAT_stage3 : Fld := ⟨.VCE_RC_STAT, 15, 8⟩
def VCE_RC_STAT_filler : Fld := ⟨.VCE_RC_STAT, 7, 0⟩
def VCE_ERR_concealed : Fld := ⟨.VCE_ERR, 31, 16⟩
def VCE_ERR_unsupported : Fld := ⟨.VCE_ERR, 15, 8⟩
def VCE_ERR_bad_return : Fld := ⟨.VCE_ERR, 7, 0⟩
def VCE_RETURN_go : Fld := ⟨.VCE_RETURN, 31, 31⟩
def VCE_RETURN_session : Fld := ⟨.VCE_RETURN, 19, 16⟩
def VCE_RETURN_buffer : Fld := ⟨.VCE_RETURN, 15, 0⟩
def ING_CTRL_enable : Fld := ⟨.ING_CTRL, 31, 31⟩
def ING_CTRL_retired : Fld := ⟨.ING_CTRL, 30, 30⟩
def ING_CTRL_busy : Fld := ⟨.ING_CTRL, 29, 29⟩
def ING_CTRL_partition : Fld := ⟨.ING_CTRL, 4, 0⟩
def ING_STATUS_busy_pct : Fld := ⟨.ING_STATUS, 31, 24⟩
def ING_STATUS_jobs_queued : Fld := ⟨.ING_STATUS, 23, 16⟩
def ING_STATUS_pub_lost : Fld := ⟨.ING_STATUS, 15, 8⟩
def ING_STAT_saturated : Fld := ⟨.ING_STAT, 31, 16⟩
def ING_STAT_replaced : Fld := ⟨.ING_STAT, 15, 0⟩
def ING_STREAM_BASE_base : Fld := ⟨.ING_STREAM_BASE, 47, 14⟩
def ING_STREAM_BASE_enable : Fld := ⟨.ING_STREAM_BASE, 0, 0⟩
def ING_STREAM_CTRL_reset : Fld := ⟨.ING_STREAM_CTRL, 31, 31⟩
def ING_STREAM_CTRL_slot : Fld := ⟨.ING_STREAM_CTRL, 7, 0⟩
def ING_PAGE_enable : Fld := ⟨.ING_PAGE, 63, 63⟩
def ING_PAGE_space : Fld := ⟨.ING_PAGE, 62, 62⟩
def ING_PAGE_port : Fld := ⟨.ING_PAGE, 61, 61⟩
def ING_PAGE_addr : Fld := ⟨.ING_PAGE, 60, 12⟩
def PRT_CTRL_create : Fld := ⟨.PRT_CTRL, 31, 31⟩
def PRT_CTRL_reset : Fld := ⟨.PRT_CTRL, 30, 30⟩
def PRT_CTRL_state : Fld := ⟨.PRT_CTRL, 29, 28⟩
def PRT_CTRL_conflict : Fld := ⟨.PRT_CTRL, 27, 27⟩
def PRT_CTRL_owner_fn : Fld := ⟨.PRT_CTRL, 10, 0⟩
def PRT_SHAPE_clusters : Fld := ⟨.PRT_SHAPE, 31, 24⟩
def PRT_SHAPE_groups : Fld := ⟨.PRT_SHAPE, 23, 16⟩
def PRT_SHAPE_codecs : Fld := ⟨.PRT_SHAPE, 15, 10⟩
def PRT_SHAPE_vcs : Fld := ⟨.PRT_SHAPE, 9, 5⟩
def PRT_SHAPE_link_dies : Fld := ⟨.PRT_SHAPE, 3, 0⟩
def PRT_SHAPE_CLU_clusters : Fld := ⟨.PRT_SHAPE_CLU, 31, 0⟩
def PRT_SHAPE_GRP_groups : Fld := ⟨.PRT_SHAPE_GRP, 31, 0⟩
def PRT_SHAPE_VCE_engines : Fld := ⟨.PRT_SHAPE_VCE, 31, 0⟩
def PRT_SHAPE_LNK_link_dies : Fld := ⟨.PRT_SHAPE_LNK, 11, 8⟩
def PRT_SHAPE_LNK_vcs : Fld := ⟨.PRT_SHAPE_LNK, 5, 1⟩
def PRT_SHAPE_STR_count : Fld := ⟨.PRT_SHAPE_STR, 30, 16⟩
def PRT_SHAPE_STR_base : Fld := ⟨.PRT_SHAPE_STR, 13, 0⟩
def PRT_SHAPE_GRT_count : Fld := ⟨.PRT_SHAPE_GRT, 28, 16⟩
def PRT_SHAPE_GRT_base : Fld := ⟨.PRT_SHAPE_GRT, 11, 0⟩
def PRT_SHAPE_SEM_count : Fld := ⟨.PRT_SHAPE_SEM, 25, 16⟩
def PRT_SHAPE_SEM_base : Fld := ⟨.PRT_SHAPE_SEM, 8, 0⟩
def PRT_SCHED_gap : Fld := ⟨.PRT_SCHED, 31, 28⟩
def PRT_SCHED_hold_us : Fld := ⟨.PRT_SCHED, 27, 16⟩
def PRT_SCHED_yield_us : Fld := ⟨.PRT_SCHED, 15, 0⟩
def PRT_SCHED_STAT_preemptions : Fld := ⟨.PRT_SCHED_STAT, 31, 16⟩
def PRT_SCHED_STAT_revocations : Fld := ⟨.PRT_SCHED_STAT, 15, 8⟩
def PRT_SCHED_STAT_teardowns : Fld := ⟨.PRT_SCHED_STAT, 7, 0⟩
def PRT_EVT_SPILL_size_log2 : Fld := ⟨.PRT_EVT_SPILL, 59, 56⟩
def PRT_EVT_SPILL_base : Fld := ⟨.PRT_EVT_SPILL, 47, 12⟩
def PRT_EVT_SPILL_enable : Fld := ⟨.PRT_EVT_SPILL, 0, 0⟩
def PRT_EVT_STAT_spilled : Fld := ⟨.PRT_EVT_STAT, 31, 16⟩
def PRT_EVT_STAT_discarded : Fld := ⟨.PRT_EVT_STAT, 15, 8⟩
def PRT_EVT_STAT_lost : Fld := ⟨.PRT_EVT_STAT, 7, 0⟩
def PRT_EVT_SPILL_PTR_head : Fld := ⟨.PRT_EVT_SPILL_PTR, 63, 32⟩
def PRT_EVT_SPILL_PTR_tail : Fld := ⟨.PRT_EVT_SPILL_PTR, 31, 0⟩
def PRT_REG_rate : Fld := ⟨.PRT_REG, 22, 16⟩
def PRT_REG_depth : Fld := ⟨.PRT_REG, 11, 0⟩
def PRT_SVC_MODE_mode : Fld := ⟨.PRT_SVC_MODE, 1, 0⟩
def CTX_BIND_bound : Fld := ⟨.CTX_BIND, 31, 31⟩
def CTX_BIND_partition : Fld := ⟨.CTX_BIND, 30, 26⟩
def CTX_BIND_refused : Fld := ⟨.CTX_BIND, 25, 25⟩
def CTX_BIND_set : Fld := ⟨.CTX_BIND, 15, 0⟩
def CTX_PRIO_priority : Fld := ⟨.CTX_PRIO, 3, 0⟩
def CTX_RUN_go : Fld := ⟨.CTX_RUN, 31, 31⟩
def CTX_RUN_stop : Fld := ⟨.CTX_RUN, 30, 30⟩
def CTX_RUN_kill : Fld := ⟨.CTX_RUN, 29, 29⟩
def CTX_RUN_clear : Fld := ⟨.CTX_RUN, 28, 28⟩
def CTX_RUN_state : Fld := ⟨.CTX_RUN, 2, 0⟩
def CTX_SAVE_tier : Fld := ⟨.CTX_SAVE, 63, 62⟩
def CTX_SAVE_slots : Fld := ⟨.CTX_SAVE, 59, 48⟩
def CTX_SAVE_base : Fld := ⟨.CTX_SAVE, 47, 16⟩
def CTX_SEED_seed : Fld := ⟨.CTX_SEED, 63, 0⟩
def CTX_FAULT_valid : Fld := ⟨.CTX_FAULT, 63, 63⟩
def CTX_FAULT_resume_pending : Fld := ⟨.CTX_FAULT, 62, 62⟩
def CTX_FAULT_code : Fld := ⟨.CTX_FAULT, 55, 48⟩
def CTX_FAULT_set : Fld := ⟨.CTX_FAULT, 47, 32⟩
def CTX_FAULT_info : Fld := ⟨.CTX_FAULT, 31, 16⟩
def CTX_FAULT_step : Fld := ⟨.CTX_FAULT, 13, 0⟩
def CTX_STAT_preempted : Fld := ⟨.CTX_STAT, 31, 16⟩
def CTX_STAT_late_drops : Fld := ⟨.CTX_STAT, 15, 0⟩
def STR_ENTRY_valid : Fld := ⟨.STR_ENTRY, 63, 63⟩
def STR_ENTRY_partition : Fld := ⟨.STR_ENTRY, 62, 58⟩
def STR_ENTRY_medium : Fld := ⟨.STR_ENTRY, 57, 55⟩
def STR_ENTRY_priority : Fld := ⟨.STR_ENTRY, 54, 53⟩
def STR_ENTRY_depth : Fld := ⟨.STR_ENTRY, 52, 49⟩
def STR_ENTRY_dst_cluster : Fld := ⟨.STR_ENTRY, 48, 41⟩
def STR_ENTRY_dst_core : Fld := ⟨.STR_ENTRY, 40, 37⟩
def STR_ENTRY_dst_cue : Fld := ⟨.STR_ENTRY, 36, 32⟩
def STR_ENTRY_src_cluster : Fld := ⟨.STR_ENTRY, 31, 24⟩
def STR_ENTRY_src_core : Fld := ⟨.STR_ENTRY, 23, 20⟩
def STR_ENTRY_ext : Fld := ⟨.STR_ENTRY, 15, 0⟩
def STR_ENTRY_FMT_format : Fld := ⟨.STR_ENTRY_FMT, 31, 28⟩
def STR_ENTRY_FMT_rows : Fld := ⟨.STR_ENTRY_FMT, 27, 16⟩
def STR_ENTRY_FMT_cols : Fld := ⟨.STR_ENTRY_FMT, 11, 0⟩
def STR_STAT_dst_epoch : Fld := ⟨.STR_STAT, 31, 24⟩
def STR_STAT_held : Fld := ⟨.STR_STAT, 23, 16⟩
def STR_STAT_dropped : Fld := ⟨.STR_STAT, 15, 0⟩
def PWR_STATE_go : Fld := ⟨.PWR_STATE, 31, 31⟩
def PWR_STATE_state : Fld := ⟨.PWR_STATE, 30, 28⟩
def PWR_STATE_target : Fld := ⟨.PWR_STATE, 27, 26⟩
def PWR_STATE_last_result : Fld := ⟨.PWR_STATE, 25, 24⟩
def PWR_LIMIT_boost_en : Fld := ⟨.PWR_LIMIT, 31, 31⟩
def PWR_LIMIT_boost_ok : Fld := ⟨.PWR_LIMIT, 30, 30⟩
def PWR_LIMIT_supply : Fld := ⟨.PWR_LIMIT, 27, 16⟩
def PWR_LIMIT_sustained : Fld := ⟨.PWR_LIMIT, 11, 0⟩
def PWR_GOV_STAT_limiter : Fld := ⟨.PWR_GOV_STAT, 31, 29⟩
def PWR_GOV_STAT_boost : Fld := ⟨.PWR_GOV_STAT, 28, 28⟩
def PWR_GOV_STAT_wear_spent : Fld := ⟨.PWR_GOV_STAT, 27, 27⟩
def PWR_GOV_STAT_ceiling : Fld := ⟨.PWR_GOV_STAT, 26, 20⟩
def PWR_GOV_STAT_window_ms : Fld := ⟨.PWR_GOV_STAT, 13, 0⟩
def PWR_GOV_CNT_thermal : Fld := ⟨.PWR_GOV_CNT, 31, 24⟩
def PWR_GOV_CNT_electrical : Fld := ⟨.PWR_GOV_CNT, 23, 16⟩
def PWR_GOV_CNT_current : Fld := ⟨.PWR_GOV_CNT, 15, 8⟩
def PWR_GOV_CNT_trips : Fld := ⟨.PWR_GOV_CNT, 7, 0⟩
def PWR_MEAS_power : Fld := ⟨.PWR_MEAS, 63, 48⟩
def PWR_MEAS_iin : Fld := ⟨.PWR_MEAS, 47, 32⟩
def PWR_MEAS_vin : Fld := ⟨.PWR_MEAS, 31, 16⟩
def PWR_MEAS_tj : Fld := ⟨.PWR_MEAS, 15, 8⟩
def PWR_WAKE_enable : Fld := ⟨.PWR_WAKE, 31, 28⟩
def PWR_WAKE_auto : Fld := ⟨.PWR_WAKE, 27, 27⟩
def PWR_WAKE_last : Fld := ⟨.PWR_WAKE, 3, 0⟩
def PWR_WAKE_TIMER_seconds : Fld := ⟨.PWR_WAKE_TIMER, 31, 0⟩
def PWR_TIMES_wake : Fld := ⟨.PWR_TIMES, 31, 16⟩
def PWR_TIMES_entry : Fld := ⟨.PWR_TIMES, 15, 0⟩
def PWR_PHASE_spare_used : Fld := ⟨.PWR_PHASE, 31, 31⟩
def PWR_PHASE_spare_for : Fld := ⟨.PWR_PHASE, 30, 28⟩
def PWR_PHASE_derated : Fld := ⟨.PWR_PHASE, 27, 27⟩
def PWR_PHASE_off : Fld := ⟨.PWR_PHASE, 26, 26⟩
def PWR_PHASE_failed : Fld := ⟨.PWR_PHASE, 15, 8⟩
def PWR_PHASE_load_pct : Fld := ⟨.PWR_PHASE, 7, 0⟩
def CLK_AON_ext_ref : Fld := ⟨.CLK_AON, 31, 31⟩
def CLK_AON_ref_lost : Fld := ⟨.CLK_AON, 30, 30⟩
def CLK_AON_backup_ok : Fld := ⟨.CLK_AON, 29, 29⟩
def CLK_AON_CNT_cycles : Fld := ⟨.CLK_AON_CNT, 63, 0⟩
def CLK_CLU_CTRL_cap_step : Fld := ⟨.CLK_CLU_CTRL, 31, 25⟩
def CLK_CLU_CTRL_idle_us : Fld := ⟨.CLK_CLU_CTRL, 24, 16⟩
def CLK_CLU_CTRL_gate_ms : Fld := ⟨.CLK_CLU_CTRL, 15, 8⟩
def CLK_CLU_STAT_state : Fld := ⟨.CLK_CLU_STAT, 31, 29⟩
def CLK_CLU_STAT_step : Fld := ⟨.CLK_CLU_STAT, 28, 22⟩
def CLK_CLU_STAT_capped : Fld := ⟨.CLK_CLU_STAT, 21, 21⟩
def CLK_CLU_STAT_wakes : Fld := ⟨.CLK_CLU_STAT, 15, 0⟩
def STW_RECORDS_fault_log : Fld := ⟨.STW_RECORDS, 11, 8⟩
def STW_RECORDS_spare_map : Fld := ⟨.STW_RECORDS, 7, 4⟩
def STW_RECORDS_margin : Fld := ⟨.STW_RECORDS, 3, 0⟩
def STW_FLOG_BASE_base : Fld := ⟨.STW_FLOG_BASE, 47, 16⟩
def STW_FLOG_PTR_wrapped : Fld := ⟨.STW_FLOG_PTR, 31, 31⟩
def STW_FLOG_PTR_head : Fld := ⟨.STW_FLOG_PTR, 30, 0⟩
def STW_STEWARD_active : Fld := ⟨.STW_STEWARD, 31, 30⟩
def STW_STEWARD_takeovers : Fld := ⟨.STW_STEWARD, 15, 8⟩
def STW_STEWARD_mismatches : Fld := ⟨.STW_STEWARD, 7, 0⟩
def STW_AVAIL_charge_us : Fld := ⟨.STW_AVAIL, 63, 32⟩
def STW_AVAIL_events : Fld := ⟨.STW_AVAIL, 31, 0⟩
def TST_SHUTDOWN_BUDGET_budget_ms : Fld := ⟨.TST_SHUTDOWN_BUDGET, 15, 0⟩
def TST_SHUTDOWN_STAT_oldest : Fld := ⟨.TST_SHUTDOWN_STAT, 31, 24⟩
def TST_SHUTDOWN_STAT_failed : Fld := ⟨.TST_SHUTDOWN_STAT, 23, 14⟩
def TST_SHUTDOWN_STAT_tested : Fld := ⟨.TST_SHUTDOWN_STAT, 13, 0⟩
def TST_CMD_go : Fld := ⟨.TST_CMD, 31, 31⟩
def TST_CMD_abort : Fld := ⟨.TST_CMD, 30, 30⟩
def TST_CMD_die : Fld := ⟨.TST_CMD, 29, 26⟩
def TST_CMD_cluster : Fld := ⟨.TST_CMD, 25, 23⟩
def TST_CMD_spare : Fld := ⟨.TST_CMD, 22, 22⟩
def TST_CMD_budget_ms : Fld := ⟨.TST_CMD, 21, 16⟩
def TST_CMD_cores : Fld := ⟨.TST_CMD, 15, 0⟩
def TST_STATUS_state : Fld := ⟨.TST_STATUS, 31, 29⟩
def TST_STATUS_spare_failed : Fld := ⟨.TST_STATUS, 28, 28⟩
def TST_STATUS_spare_passed : Fld := ⟨.TST_STATUS, 27, 27⟩
def TST_STATUS_not_run : Fld := ⟨.TST_STATUS, 15, 0⟩
def TST_RESULT_failed : Fld := ⟨.TST_RESULT, 31, 16⟩
def TST_RESULT_passed : Fld := ⟨.TST_RESULT, 15, 0⟩
def AGE_STATUS_busy : Fld := ⟨.AGE_STATUS, 31, 31⟩
def AGE_STATUS_last_trigger : Fld := ⟨.AGE_STATUS, 30, 29⟩
def AGE_STATUS_hours : Fld := ⟨.AGE_STATUS, 28, 16⟩
def AGE_STATUS_replans : Fld := ⟨.AGE_STATUS, 15, 0⟩
def AGE_PEAK_seconds : Fld := ⟨.AGE_PEAK, 31, 0⟩
def AGE_CLU_top_step : Fld := ⟨.AGE_CLU, 31, 25⟩
def AGE_CLU_marked : Fld := ⟨.AGE_CLU, 24, 24⟩
def AGE_CLU_slack_min : Fld := ⟨.AGE_CLU, 23, 16⟩
def AGE_CLU_vmin_mv : Fld := ⟨.AGE_CLU, 15, 0⟩
def AGE_VF_TABLE_valid : Fld := ⟨.AGE_VF_TABLE, 31, 31⟩
def AGE_VF_TABLE_step : Fld := ⟨.AGE_VF_TABLE, 30, 24⟩
def AGE_VF_TABLE_mv : Fld := ⟨.AGE_VF_TABLE, 23, 13⟩
def AGE_VF_TABLE_guard : Fld := ⟨.AGE_VF_TABLE, 12, 7⟩
def AGE_VF_TABLE_w : Fld := ⟨.AGE_VF_TABLE, 6, 0⟩
def SEC_KEYSTATE_state : Fld := ⟨.SEC_KEYSTATE, 31, 29⟩
def SEC_KEYSTATE_quarantine : Fld := ⟨.SEC_KEYSTATE, 28, 28⟩
def SEC_KEYSTATE_identity_ready : Fld := ⟨.SEC_KEYSTATE, 27, 27⟩
def SEC_KEYSTATE_vbat_low : Fld := ⟨.SEC_KEYSTATE, 26, 26⟩
def SEC_KEYSTATE_debug_level : Fld := ⟨.SEC_KEYSTATE, 25, 24⟩
def SEC_KEYSTATE_tenant_slots : Fld := ⟨.SEC_KEYSTATE, 19, 9⟩
def SEC_KEYSTATE_link_slots : Fld := ⟨.SEC_KEYSTATE, 8, 0⟩
def SEC_ALARM_POLICY_mesh : Fld := ⟨.SEC_ALARM_POLICY, 9, 8⟩
def SEC_ALARM_POLICY_light : Fld := ⟨.SEC_ALARM_POLICY, 7, 6⟩
def SEC_ALARM_POLICY_temp : Fld := ⟨.SEC_ALARM_POLICY, 5, 4⟩
def SEC_ALARM_POLICY_clock : Fld := ⟨.SEC_ALARM_POLICY, 3, 2⟩
def SEC_ALARM_POLICY_voltage : Fld := ⟨.SEC_ALARM_POLICY, 1, 0⟩
def SEC_ALARM_FUSE_debug_disable : Fld := ⟨.SEC_ALARM_FUSE, 31, 31⟩
def SEC_ALARM_FUSE_floor : Fld := ⟨.SEC_ALARM_FUSE, 9, 0⟩
def SEC_TAMPER_lost_watch : Fld := ⟨.SEC_TAMPER, 31, 31⟩
def SEC_TAMPER_vbat_only : Fld := ⟨.SEC_TAMPER, 30, 30⟩
def SEC_TAMPER_latched : Fld := ⟨.SEC_TAMPER, 4, 0⟩
def SEC_ROOT_key_ok : Fld := ⟨.SEC_ROOT, 11, 8⟩
def SEC_ROOT_revoked : Fld := ⟨.SEC_ROOT, 7, 4⟩
def SEC_ROOT_programmed : Fld := ⟨.SEC_ROOT, 3, 0⟩
def SEC_ENDORSE_MIN_min : Fld := ⟨.SEC_ENDORSE_MIN, 31, 0⟩
def SEC_LINK_STAT_auth_fail : Fld := ⟨.SEC_LINK_STAT, 31, 16⟩
def SEC_LINK_STAT_replay : Fld := ⟨.SEC_LINK_STAT, 15, 0⟩
def SEC_DEBUG_level : Fld := ⟨.SEC_DEBUG, 31, 30⟩
def SEC_DEBUG_refused : Fld := ⟨.SEC_DEBUG, 15, 0⟩
def SEC_CTX_KEY_enable : Fld := ⟨.SEC_CTX_KEY, 31, 31⟩
def SEC_CTX_KEY_slot : Fld := ⟨.SEC_CTX_KEY, 9, 0⟩
def SEC_CMD_go : Fld := ⟨.SEC_CMD, 31, 31⟩
def SEC_CMD_busy : Fld := ⟨.SEC_CMD, 30, 30⟩
def SEC_CMD_op : Fld := ⟨.SEC_CMD, 29, 26⟩
def SEC_CMD_index : Fld := ⟨.SEC_CMD, 15, 0⟩
def SEC_ARG_addr : Fld := ⟨.SEC_ARG, 47, 6⟩
def SEC_STATUS_code : Fld := ⟨.SEC_STATUS, 31, 24⟩
def SEC_STATUS_op : Fld := ⟨.SEC_STATUS, 23, 20⟩
def SEC_STATUS_index : Fld := ⟨.SEC_STATUS, 15, 0⟩
def STW_BOOT_step : Fld := ⟨.STW_BOOT, 31, 28⟩
def STW_BOOT_recovery : Fld := ⟨.STW_BOOT, 27, 27⟩
def STW_BOOT_rebuilt : Fld := ⟨.STW_BOOT, 26, 26⟩
def STW_BOOT_time_ms : Fld := ⟨.STW_BOOT, 15, 0⟩
def STW_FW_STATUS_running_slot : Fld := ⟨.STW_FW_STATUS, 31, 31⟩
def STW_FW_STATUS_fallback : Fld := ⟨.STW_FW_STATUS, 30, 30⟩
def STW_FW_STATUS_fail_code : Fld := ⟨.STW_FW_STATUS, 29, 26⟩
def STW_FW_STATUS_fw_version : Fld := ⟨.STW_FW_STATUS, 15, 0⟩
def STW_FW_CTRL_go : Fld := ⟨.STW_FW_CTRL, 31, 31⟩
def STW_FW_CTRL_op : Fld := ⟨.STW_FW_CTRL, 30, 29⟩
def STW_FW_CTRL_busy : Fld := ⟨.STW_FW_CTRL, 28, 28⟩
def STW_FW_CTRL_slot : Fld := ⟨.STW_FW_CTRL, 27, 27⟩
def STW_FW_CTRL_result : Fld := ⟨.STW_FW_CTRL, 23, 20⟩
def STW_FW_SRC_addr : Fld := ⟨.STW_FW_SRC, 47, 12⟩
def STW_FW_MINVER_minver : Fld := ⟨.STW_FW_MINVER, 31, 0⟩
def STW_PCIE_state : Fld := ⟨.STW_PCIE, 31, 29⟩
def STW_PCIE_rate : Fld := ⟨.STW_PCIE, 28, 26⟩
def STW_PCIE_width : Fld := ⟨.STW_PCIE, 25, 21⟩
def STW_PCIE_flit : Fld := ⟨.STW_PCIE, 20, 20⟩
def STW_PCIE_vfs : Fld := ⟨.STW_PCIE, 19, 10⟩
def STW_PCIE_BAR4_base : Fld := ⟨.STW_PCIE_BAR4, 47, 30⟩
def STW_DB_BIND_go : Fld := ⟨.STW_DB_BIND, 63, 63⟩
def STW_DB_BIND_unbind : Fld := ⟨.STW_DB_BIND, 62, 62⟩
def STW_DB_BIND_kind : Fld := ⟨.STW_DB_BIND, 61, 59⟩
def STW_DB_BIND_context : Fld := ⟨.STW_DB_BIND, 58, 49⟩
def STW_DB_BIND_slot : Fld := ⟨.STW_DB_BIND, 48, 41⟩
def STW_DB_BIND_unit : Fld := ⟨.STW_DB_BIND, 40, 36⟩
def STW_DB_BIND_ring : Fld := ⟨.STW_DB_BIND, 35, 26⟩
def STW_DB_RESULT_busy : Fld := ⟨.STW_DB_RESULT, 31, 31⟩
def STW_DB_RESULT_result : Fld := ⟨.STW_DB_RESULT, 30, 28⟩
def STW_HIF_DENY_registers : Fld := ⟨.STW_HIF_DENY, 31, 16⟩
def STW_HIF_DENY_doorbells : Fld := ⟨.STW_HIF_DENY, 15, 0⟩
def STW_DEVRESET_go : Fld := ⟨.STW_DEVRESET, 31, 31⟩
def STW_DEVRESET_key : Fld := ⟨.STW_DEVRESET, 7, 0⟩
def STW_MGMT_eid_smbus : Fld := ⟨.STW_MGMT, 31, 24⟩
def STW_MGMT_eid_vdm0 : Fld := ⟨.STW_MGMT, 23, 16⟩
def STW_MGMT_eid_vdm1 : Fld := ⟨.STW_MGMT, 15, 8⟩
def STW_MGMT_receiver : Fld := ⟨.STW_MGMT, 7, 7⟩
def STW_MGMT_address : Fld := ⟨.STW_MGMT, 6, 0⟩
def HALT_STATUS_halted : Fld := ⟨.HALT_STATUS, 31, 31⟩
def HALT_STATUS_fault : Fld := ⟨.HALT_STATUS, 30, 30⟩
def HALT_STATUS_a : Fld := ⟨.HALT_STATUS, 29, 29⟩
def HALT_STATUS_b : Fld := ⟨.HALT_STATUS, 28, 28⟩
def HALT_STATUS_in_rest : Fld := ⟨.HALT_STATUS, 27, 27⟩
def HALT_STATUS_first : Fld := ⟨.HALT_STATUS, 26, 25⟩
def HALT_STATUS_last_disagree : Fld := ⟨.HALT_STATUS, 17, 0⟩
def HALT_CTRL_clear : Fld := ⟨.HALT_CTRL, 31, 31⟩
def HALT_CTRL_clear_refused : Fld := ⟨.HALT_CTRL, 30, 30⟩
def HALT_CTRL_halts : Fld := ⟨.HALT_CTRL, 15, 0⟩
def STW_IDENT_family : Fld := ⟨.STW_IDENT, 31, 24⟩
def STW_IDENT_member : Fld := ⟨.STW_IDENT, 23, 16⟩
def STW_IDENT_major : Fld := ⟨.STW_IDENT, 15, 12⟩
def STW_IDENT_minor : Fld := ⟨.STW_IDENT, 11, 8⟩
def STW_STATE_power : Fld := ⟨.STW_STATE, 31, 29⟩
def STW_STATE_halted : Fld := ⟨.STW_STATE, 28, 28⟩
def STW_STATE_halt_fault : Fld := ⟨.STW_STATE, 27, 27⟩
def STW_STATE_quarantine : Fld := ⟨.STW_STATE, 26, 26⟩
def STW_STATE_keys_lost : Fld := ⟨.STW_STATE, 25, 25⟩
def STW_STATE_degraded : Fld := ⟨.STW_STATE, 24, 24⟩
def STW_STATE_stack_retired : Fld := ⟨.STW_STATE, 23, 23⟩
def STW_STATE_records : Fld := ⟨.STW_STATE, 22, 22⟩
def STW_STATE_fw_fallback : Fld := ⟨.STW_STATE, 21, 21⟩
def STW_STATE_recovery : Fld := ⟨.STW_STATE, 20, 20⟩
def STW_STATE_promenade_done : Fld := ⟨.STW_STATE, 19, 19⟩
def STW_STATE_service : Fld := ⟨.STW_STATE, 18, 18⟩
def STW_STATE_boot_step : Fld := ⟨.STW_STATE, 15, 12⟩
def STW_CAPS_dies : Fld := ⟨.STW_CAPS, 31, 27⟩
def STW_CAPS_codecs : Fld := ⟨.STW_CAPS, 26, 21⟩
def STW_CAPS_ingest : Fld := ⟨.STW_CAPS, 20, 16⟩
def STW_CAPS_dram : Fld := ⟨.STW_CAPS, 15, 6⟩
def STW_CAPS_flash : Fld := ⟨.STW_CAPS, 5, 3⟩
end F

end Sys2Proof.Machine
end

