-- ==== Sys2Proof/Machine/State.lean ====
section
/-! DEFINITION. The state of the block as plain data: the records of each unit, the block, the queue of waiting commands,
and what all of it is right after reset. -/

namespace Sys2Proof.Machine

/-- Why a step can stop. -/
inductive Fault where
  /-- Raised by `perform` for a command whose operands name no element of the block (Syntax/WellFormed). Safe: the
  machine stops where no hardware command exists. -/
  | illFormed
  deriving DecidableEq, Repr

/-- Why a command has no meaning. -/
inductive Refusal where
  /-- Raised by `exec` for a command that has no meaning yet, with its mnemonic. Safe: the machine stops. -/
  | notModelled (mnemonic : String)
  deriving DecidableEq, Repr

/-! ### Figures (02_figure_images.md R40 to R54) -/

/-- A SETS record (R44). -/
structure SetRec where
  parent : Nat := 0
  composite : Bool := false
  tolerant : Bool := false
  firstPort : Nat := 0
  portCount : Nat := 0
  cluster : Nat := 0
  core : Nat := 0
  program : Nat := 0
  firstChild : Nat := 0
  childCount : Nat := 0
  firstRoute : Nat := 0
  routeCount : Nat := 0
  deriving DecidableEq, Repr

/-- A PORTS record (R45). -/
structure PortRec where
  owner : Nat := 0
  out : Bool := false
  format : Nat := 0
  rows : Nat := 0
  cols : Nat := 0
  depth : Nat := 0
  cue : Nat := 0
  external : Nat := 0
  externalIndex : Nat := 0
  deriving DecidableEq, Repr

/-- A ROUTES record (R46). -/
structure RouteRec where
  src : Nat := 0
  dst : Nat := 0
  medium : Nat := 0
  priority : Nat := 0
  window : Nat := 0
  bundle : Nat := 0
  deriving DecidableEq, Repr

/-- A WINDOWS record (R48). -/
structure WindowRec where
  owner : Nat := 0
  tier : Nat := 0
  access : Nat := 0
  cluster : Nat := 0
  page : Nat := 0
  offset : Nat := 0
  length : Nat := 0
  va : Nat := 0
  deriving DecidableEq, Repr

/-- A CUES record (R49). -/
structure CueRec where
  owner : Nat := 0
  level : Nat := 0
  index : Nat := 0
  initial : Nat := 0
  linkDie : Nat := 0
  deriving DecidableEq, Repr

/-- A GROUPS record with its member list (R50). -/
structure GroupRec where
  group : Nat := 0
  kind : Nat := 0
  algorithm : Nat := 0
  count : Nat := 0
  members : List Nat := []
  axis : Nat := 0
  onFail : Nat := 0
  timeoutMs : Nat := 0
  start : Nat := 0
  stride : Nat := 0
  deriving DecidableEq, Repr

/-- A BUNDLES record (R51). -/
structure BundleRec where
  role : Nat := 0
  vc : Nat := 0
  links : Nat := 0
  deriving DecidableEq, Repr

/-- A CONSTANTS record (R52). -/
structure ConstRec where
  owner : Nat := 0
  kind : Nat := 0
  slot : Nat := 0
  value : Nat := 0
  blob : List Byte := []
  deriving DecidableEq, Repr

/-- A PATCH record of a partial image (R54), with the program it brings. -/
structure PatchRec where
  set : Nat := 0
  mode : Nat := 0
  program : Nat := 0
  resume : Nat := 0
  deriving DecidableEq, Repr

/-- A resolved path (R36): one stream, with the table entry it takes (R38). -/
structure StreamRec where
  src : Nat := 0
  dst : Nat := 0
  medium : Nat := 0
  priority : Nat := 0
  window : Nat := 0
  bundle : Nat := 0
  deriving DecidableEq, Repr

/-- A decoded figure in logical form (R39 to R53, R60). `digest` is the SHA-384 of its signed region, and `root` the root
slot its signer chain uses (R55). -/
structure Figure where
  figureId : Nat := 0
  security : Nat := 0
  root : Nat := 0
  digest : List Byte := []
  shapeClusters : Nat := 0
  shapeGroups : Nat := 0
  shapeWays : Nat := 0
  shapeVcs : Nat := 0
  shapeCodecs : Nat := 0
  sets : List SetRec := []
  ports : List PortRec := []
  routes : List RouteRec := []
  programs : List (List (BitVec 128)) := []
  windows : List WindowRec := []
  cues : List CueRec := []
  groups : List GroupRec := []
  bundles : List BundleRec := []
  consts : List ConstRec := []
  accuracy : Nat := 0
  rank : Nat := 0
  promotion : Nat := 1
  weightRing : List Byte := []
  streams : List StreamRec := []
  deriving DecidableEq, Repr

/-- A load request in the loader's queue or running (R61): a full or a partial image. -/
structure LoadReq where
  part : Nat := 0
  slot : Nat := 0
  src : Nat := 0
  switchWhenDone : Bool := false
  /-- The copy the loader made when the load left the queue (R57), and whether reading the source met an uncorrectable
  error. -/
  image : List Byte := []
  poisoned : Bool := false
  deriving DecidableEq, Repr

/-- A switch under way in a partition (R63, R68): its target slot, and whether every core has stopped. -/
structure SwitchReq where
  slot : Nat := 0
  stopped : Bool := false
  deriving DecidableEq, Repr

/-- A patch record of the active slot still to be applied (R66). -/
structure PendingPatch where
  set : Nat := 0
  mode : Nat := 0
  program : Nat := 0
  resume : Nat := 0
  consts : List ConstRec := []
  deriving DecidableEq, Repr

/-! ### Cores (03_tile_programs.md R73 to R99) -/

/-- An accumulator bank's status (R82): whether it is accumulating, and the encoded m and n of the accumulation. -/
structure Bank where
  acc : Bool := false
  m : Nat := 0
  n : Nat := 0
  deriving DecidableEq, Repr

/-- The sequencer part of beat state (R99), also what a checkpoint holds (R410). Lists run over levels 1 to 6. -/
structure Seq where
  ptr : Nat := 0
  depth : Nat := 0
  reentry : Bool := false
  counters : List Nat := [0, 0, 0, 0, 0, 0]
  trips : List Nat := [0, 0, 0, 0, 0, 0]
  starts : List Nat := [0, 0, 0, 0, 0, 0]
  dynTrip : Nat := 0
  liveRows : Nat := 256
  semStatus : Nat := 0
  iteration : Nat := 0
  gen : Nat := 0
  beatId : Nat := 0
  bank0 : Bank := {}
  bank1 : Bank := {}
  /-- The banks that the BEAT at this boundary marked live (R94). -/
  live : Nat := 0
  deriving DecidableEq, Repr

/-- A logical core: its run state (COR_SEQ_STATUS.state), what it runs, its sequencer, and its beat bookkeeping. -/
structure Core where
  /-- 0 idle, 1 running, 2 parked, 3 stopped at a beat, 4 faulted, 5 saving, 6 restoring (R96, COR_SEQ_STATUS). -/
  state : Nat := 0
  seq : Seq := {}
  /-- The partition, leaf set and program index the core is loaded with (R63 step 8); none while no figure names it. -/
  loaded : Option (Nat × Nat × Nat) := none
  /-- The context running on the core, and the last one to run there (R397). -/
  ctx : Option Nat := none
  lastCtx : Option Nat := none
  /-- The context whose beat state the tile memory last held (R224). -/
  heldFor : Option Nat := none
  /-- The core waits in an unsatisfied WAIT or an ungranted acquire. -/
  waiting : Bool := false
  acquiring : Bool := false
  /-- The last step to complete was BEAT, or the program start or end (R96). -/
  atBeat : Bool := true
  stopReq : Bool := false
  /-- The beat can still be replayed (R410), its checkpoint, and the granule ranges it has read. -/
  replayable : Bool := true
  checkpoint : Seq := {}
  beatReads : List (Nat × Nat) := []
  /-- The core is fenced for a planned migration (R409). -/
  fenced : Bool := false
  /-- The iteration has ended while a HALO of it is still held: its beat boundary, and step 0, wait for it (R96, R204). -/
  ending : Bool := false
  deriving DecidableEq, Repr

/-- A cue: its 16-bit count and its sticky overflow (R287, R288). -/
structure Cue where
  value : Nat := 0
  overflow : Bool := false
  deriving DecidableEq, Repr

/-! ### Contexts and scheduling (16_partitions_and_scheduling.md) -/

/-- What the scheduler keeps of a context beside its registers. -/
structure Ctx where
  /-- A teardown under way: its code, leaf set, semaphore number and step pointer (R406, CTX_FAULT). -/
  teardown : Option (Nat × Nat × Nat × Nat) := none
  /-- Cores that lost a semaphore by revocation, with its number (R405). -/
  revoked : List (Nat × Nat) := []
  /-- Cores (logical) with a valid saved record (R401). -/
  saved : List Nat := []
  /-- Stopping to become idle (R395). -/
  halting : Bool := false
  /-- The figure map and driver map hold (R406 step 2 invalidates them). -/
  mapped : Bool := true
  deriving DecidableEq, Repr

/-- A pre-emption under way on one set of a partition (R401, R404). -/
structure Preempt where
  part : Nat := 0
  set : Nat := 0
  outgoing : Nat := 0
  incoming : Nat := 0
  extended : Bool := false
  holdPassed : Bool := false
  done : List Nat := []
  deriving DecidableEq, Repr

/-- A held cue event in a cluster's pending table (R397): merged by context, core and cue. -/
structure Held where
  ctx : Nat := 0
  core : Nat := 0
  cue : Nat := 0
  count : Nat := 0
  /-- How many events were merged into the entry. -/
  events : Nat := 1
  deriving DecidableEq, Repr

/-- A HALO held at the switch of the position it is addressed to, or in flight to it (R206): the sending core and its context and
partition, the granules of its own tile memory it read, the granule it goes to, its bytes, the granules among them that a link
error spoiled (R207), and the cue it adds to. -/
structure HeldHalo where
  src : Nat := 0
  ctx : Nat := 0
  part : Nat := 0
  first : Nat := 0
  granule : Nat := 0
  bytes : List Byte := []
  bad : List Nat := []
  cue : Nat := 0
  deriving DecidableEq, Repr

/-- A waiting acquire of a semaphore cell: the context and the logical core, in order of arrival (R403). -/
structure Waiter where
  ctx : Nat := 0
  core : Nat := 0
  deriving DecidableEq, Repr

/-- A semaphore cell (R233, R234): its holder, the mark its last release left (0 none, 1 abandoned, 2 revoked), and the
waiting acquires in order of arrival. -/
structure Sem where
  holder : Option Waiter := none
  mark : Nat := 0
  waiters : List Waiter := []
  deriving DecidableEq, Repr

/-! ### Health (18_health_test_and_ageing.md) -/

/-- A fault-log entry (R451). -/
structure LogEntry where
  seq : Nat := 0
  severity : Nat := 0
  flags : Nat := 0
  source : Nat := 0
  time : Nat := 0
  code : Nat := 0
  context : Nat := 0xFFFF
  site : Nat := 0xFFFF
  subsite : Nat := 0xFFFF
  info : Nat := 0
  deriving DecidableEq, Repr

/-- One copy of a record in non-volatile memory (R436): whether it is intact, its sequence number and its body. -/
structure MapCopy where
  intact : Bool := true
  seq : Nat := 0
  body : List (Nat × Nat) := []
  deriving DecidableEq, Repr

/-- One copy of the fault-log record. -/
structure LogCopy where
  intact : Bool := true
  seq : Nat := 0
  body : List LogEntry := []
  deriving DecidableEq, Repr

/-- A self-test command in progress (R448): the logical cluster, the cores still to be tested, and whether core site 16
follows. -/
structure SelfTest where
  die : Nat := 0
  cluster : Nat := 0
  left : List Nat := []
  spare : Bool := false
  /-- The slice of the first core left has fenced it; and the command was aborted with that slice in progress (R448). -/
  started : Bool := false
  aborted : Bool := false
  deriving DecidableEq, Repr

/-! ### Memory (09_on_chip_and_stacked_memory.md) -/

/-- A driver-map entry (R246), as read at the last invalidation (log entry 8); `bad` where its reserved bytes are not 0. -/
structure MapEntry where
  va : Nat := 0
  length : Nat := 0
  offset : Nat := 0
  tier : Nat := 0
  access : Nat := 0
  page : Nat := 0
  cluster : Nat := 0
  bad : Bool := false
  /-- The partition offset of its record; none for an entry of the figure map, whose place the spec does not give. -/
  place : Option Nat := none
  deriving DecidableEq, Repr

/-- A line that a cache way holds (R227): the address it was filled from over 256, with the tenant slot of the access above it
(R467), and when it was last used. Its data are those of its home memory, since it is always clean. -/
structure FloorLine where
  tag : Nat := 0
  used : Nat := 0
  deriving DecidableEq, Repr

/-- A translation that a cluster caches (R248): the context, the first address of the page, and the map entry. -/
structure CachedPage where
  ctx : Nat := 0
  va : Nat := 0
  entry : MapEntry := {}
  deriving DecidableEq, Repr

/-- A write that waits for a way to be cleared, a row to be copied, a group to be poisoned or a stack to cool (R229, R243 to
R245). -/
structure HeldWrite where
  addrs : List Nat := []
  bytes : List Byte := []
  deriving DecidableEq, Repr

/-- A promoted extent (R249): its frame, as an offset within the partition's groups over 2 MiB, whether it is pinned, and when it
was last used (a count, for the least recent). -/
structure Promo where
  frame : Nat := 0
  pinned : Bool := false
  used : Nat := 0
  deriving DecidableEq, Repr

/-- A tier-manager copy in progress (R249). -/
structure PromoJob where
  extent : Nat := 0
  frame : Nat := 0
  pin : Bool := false
  deriving DecidableEq, Repr

/-! ### DMA rings (11_dma_and_cues.md) -/

/-- A descriptor taken by a ring's engine (R277, R278), of any kind of ring: its number, the 64 bytes as read, the bytes
its transfer has written (space 2: handed to the link, or packed at its end for the next packet, in so many bursts, R301), its
status once its data is complete, the results its engine writes back, and its packets not yet acknowledged, as tag and offset
(R311). -/
structure Desc where
  index : Nat := 0
  raw : List Byte := []
  moved : List Byte := []
  status : Option Nat := none
  results : List Nat := []
  unacked : List (Nat × Nat) := []
  packing : List Byte := []
  packs : Nat := 0
  deriving DecidableEq, Repr

/-! ### Links (12_links_and_lines.md) -/

/-- A packet (R301): the header's fields and the payload; and, of one that is forwarded, the link whose receive buffer holds it. -/
structure Packet where
  kind : Nat := 0
  vc : Nat := 0
  hops : Nat := 0
  dst : Nat := 0
  src : Nat := 0
  dstCtx : Nat := 0
  srcCtx : Nat := 0
  va : Nat := 0
  cue : Nat := 0
  epoch : Nat := 0
  tag : Nat := 0
  bytes : Nat := 0
  reason : Nat := 0
  crypt : List Byte := []
  body : List Byte := []
  data : List Byte := []
  via : Option Nat := none
  deriving DecidableEq, Repr

/-- A flow-table entry as loaded (R308). -/
structure Flow where
  peer : Nat := 0
  flags : Nat := 0
  vcs : Nat := 0
  epoch : Nat := 0
  localCtx : Nat := 0
  peerCtx : Nat := 0
  slot : Nat := 0
  deriving DecidableEq, Repr

/-- A port's link layer (R303 to R306): sequenced flits of packets admitted, those put on the link and those acknowledged, the
admitted packets not yet acknowledged with the number of their first flit, sequenced flits received in order, per VC the flits
admitted, the flits the other end has freed and the flits freed here. -/
structure Port where
  sent : Nat := 0
  out : Nat := 0
  acked : Nat := 0
  inFlight : List (Nat × Packet) := []
  received : Nat := 0
  used : List Nat := [0, 0, 0, 0, 0, 0, 0, 0]
  freed : List Nat := [0, 0, 0, 0, 0, 0, 0, 0]
  returned : List Nat := [0, 0, 0, 0, 0, 0, 0, 0]
  /-- Flits received in order of a packet not yet whole, and the count a NAK asks a replay from. -/
  partialFlits : Nat := 0
  nak : Option Nat := none
  /-- The spare lane itself has failed (R300). -/
  spareBad : Bool := false
  /-- Codewords with corrected symbols beyond the last 1,024 counted (LNK_PORT_ERR.corrected). -/
  corrected : Nat := 0
  /-- The port is back from REST, and its neighbour not yet known again (R326). -/
  woke : Bool := false
  deriving DecidableEq, Repr

/-- What a port learned of its neighbour in the exchange (R321). -/
structure Nbr where
  serial : Nat := 0
  system : Nat := 0
  line : Nat := 0
  round : Nat := 0
  roundSize : Nat := 0
  coords : Bool := false
  root : Bool := false
  port : Nat := 0
  role : Nat := 0
  deriving DecidableEq, Repr

/-- A device record of the topology map (R324). -/
structure TopoDev where
  id : Nat := 0
  serial : Nat := 0
  line : Nat := 0
  round : Nat := 0
  roundSize : Nat := 0
  flags : Nat := 0
  hops : Nat := 0
  parent : Nat := 0
  /-- Its group records: lowest port, links up, role, reason, neighbour ID and the neighbour's lowest port. -/
  groups : List (List Nat) := []
  deriving DecidableEq, Repr

/-- The promenade of this device (R320 to R326): the best candidate seen, as root flag and serial; the parent's lowest
link; the neighbour groups, by lowest link, whose answer to ASSIGN is awaited; the children, and those that have sent
DONE; and the records of the subtree. -/
structure Prom where
  best : Option (Bool × Nat) := none
  parent : Option Nat := none
  asked : List Nat := []
  children : List Nat := []
  done : List Nat := []
  subtree : List TopoDev := []
  /-- A candidate's root flag is ignored (R326). -/
  ignoreRoot : Bool := false
  /-- VIN valid of this device, on the always-on counter, for LNK_PROM_TIME. -/
  since : Nat := 0
  deriving DecidableEq, Repr

/-- What the block sent to the outside world (log entry 6). -/
inductive OutMsg where
  /-- A posted PCI Express write of function `fn`. -/
  | hostWrite (fn addr : Nat) (data : List Byte)
  /-- A read of host memory issued through function `fn`. -/
  | hostRead (fn addr len : Nat)
  /-- A packet handed to a link: link, virtual channel and its bytes. -/
  | packet (link vc : Nat) (data : List Byte)
  /-- A message of the promenade, of a collective or of another protocol: kind, target, numbers. -/
  | message (kind target : Nat) (args : List Nat)
  /-- A completion of a PCI Express request: function, status (0 successful, 1 unsupported, 2 retry), value. -/
  | completion (fn status value : Nat)
  /-- A management message: transport, command, numbers. -/
  | management (transport code : Nat) (args : List Nat)
  deriving DecidableEq, Repr

/-! ### The weight library (10_weight_library.md) -/

/-- A catalogue entry (R256). States: 0 FREE, 1 LOADING, 2 VALID, 3 RETIRING, 4 DAMAGED. -/
structure CatEntry where
  modelId : Nat := 0
  kind : Nat := 0
  state : Nat := 0
  layerCount : Nat := 0
  length : Nat := 0
  tierOffset : Nat := 0
  share : Nat := 0
  layerTable : Nat := 0
  digest : List Byte := []
  serial : Nat := 0
  refs : Nat := 0
  deriving DecidableEq, Repr

/-- One of the two copies of the catalogue in metadata blocks (R259): intact where its CRC-32C holds, its sequence number, the
generation, and the entries that are not FREE. -/
structure CatCopy where
  intact : Bool := true
  seq : Nat := 0
  gen : Nat := 0
  entries : List (Nat × CatEntry) := []
  deriving DecidableEq, Repr

/-- The library command in progress (R260, R261): its op, entry and arguments as FLS_CMD found them, and the code with which it
ends, once it has run. -/
structure FlsJob where
  op : Nat := 0
  entry : Nat := 0
  a : Nat := 0
  b : Nat := 0
  code : Option Nat := none
  deriving DecidableEq, Repr

/-- The streamer of a partition's weight ring (R270): q of the next fill, and whether its first fill is still to come.
Its state is FLS_RING_STAT.state. -/
structure Streamer where
  q : Nat := 0
  first : Bool := true
  deriving DecidableEq, Repr

/-! ### Collectives (13_collectives.md) -/

/-- A READY received and not yet used (R339, R350): serial, segment, step, the sender's rank, and its arguments. -/
structure Ready where
  serial : Nat := 0
  segment : Nat := 0
  step : Nat := 0
  rank : Nat := 0
  args : List Byte := []
  deriving DecidableEq, Repr

/-- An operand of a collective: elements, dtype, reduce, and where it is read and written. A fused descriptor has several
(R343). -/
structure ColPart where
  count : Nat := 0
  dtype : Nat := 0
  reduce : Nat := 0
  src : Nat := 0
  dst : Nat := 0
  deriving DecidableEq, Repr

/-- The collective descriptor a ring's engine runs (R336 to R339): its number, group entry, serial, effective op and
algorithm (0 ring, 1 tree, 2 direct), root, operands, granules per segment and in all, the segment and step it is in, its
phase (0 stage-in, 1 steps, 2 write-out), its input and working values, which ranks it has sent to, what it has received
in the step (rank, offset, bytes, last), and whether a rank it awaits set the pace flag. -/
structure ColOp where
  index : Nat := 0
  entry : Nat := 0
  serial : Nat := 0
  op : Nat := 0
  algo : Nat := 0
  root : Nat := 0
  parts : List ColPart := []
  seg : Nat := 0
  total : Nat := 0
  segment : Nat := 0
  step : Nat := 0
  phase : Nat := 0
  input : List Byte := []
  work : List (List Byte) := []
  sentTo : List Nat := []
  got : List (Nat × Nat × List Byte × Bool) := []
  paced : Bool := false
  deriving DecidableEq, Repr

/-- A group-table entry beside its registers (R329): the figure-local group index, the listed members and the list
positions removed, the serial of the next descriptor, and the re-formation under way: `gathered` holds the SUSPECTs the
leader has (sender's rank, rank named, cause), `acks` the ranks whose REFORM_ACK it awaits, `doubted` the ranks this
member holds suspect as leaders (R350). -/
structure ColEntry where
  index : Nat := 0
  ids : List Nat := []
  gone : List Nat := []
  serial : Nat := 0
  gathered : List (Nat × Nat × Nat) := []
  acks : List Nat := []
  doubted : List Nat := []
  /-- A re-formation is under way: from the first SUSPECT sent or received to COMMIT. -/
  forming : Bool := false
  readies : List Ready := []
  deriving DecidableEq, Repr

/-! ### The prefix tree (06_attention_and_kv.md) -/

/-- A node of a partition's prefix tree (R161 to R163); no parent for a block at the root. -/
structure PfxNode where
  hash : Nat := 0
  parent : Option Nat := none
  scope : Nat := 0
  tokens : List Nat := []
  refs : Nat := 0
  kvAddr : Nat := 0
  kvBytes : Nat := 0
  children : Nat := 0
  lastUse : Nat := 0
  deriving DecidableEq, Repr

/-! ### Codec engines (14_video_coding.md) -/

/-- What the headers of a decoded stream say (R353, R355): HEVC or AV1, whether the engines support the profile, the level, the size,
the bit depth, the chroma (0 monochrome, 1 4:2:0, 2 4:2:2), the picture buffers it needs, and whether film grain parameters may
stand in it. -/
structure Stream where
  av1 : Bool := false
  profileOk : Bool := false
  level : Nat := 0
  width : Nat := 0
  height : Nat := 0
  depth : Nat := 0
  chroma : Nat := 0
  buffers : Nat := 0
  grain : Bool := false
  deriving DecidableEq, Repr

/-- A decoded picture (R363, R364): its place in output order, its record's flags and cause, its form, the pts of the job that decoded
it, the blocks to conceal, and its samples by rows. -/
structure Picture where
  order : Nat := 0
  flags : Nat := 0
  cause : Nat := 0
  width : Nat := 0
  height : Nat := 0
  depth : Nat := 0
  chroma : Nat := 0
  pts : Nat := 0
  lost : List Rect := []
  luma : List Nat := []
  chromas : List Nat := []
  deriving DecidableEq, Repr

/-- A session of a codec engine (R356, R360): its ring, its session block, the receiver's buffer in units of
1 / (90,000 × fps_num) bits (R365), pictures since the last key picture, none before the first, the sweep position of the
next picture (R369), and pictures held in an open mini-GOP. For decoding (R363, R364): what the stream's headers say, whether decoding
has begun, whether pictures may refer to a corrupt one, precede their recovery or lie beyond the session, the pictures of a sweep up to
its recovery, the pictures that wait to be output and the last one output; records written, pool buffers held, and for a job that waits
for a buffer its descriptor, the pictures still to write, the records it has written, the pictures concealed and the status it ends
with. -/
structure Session where
  ring : Nat := 0
  block : List Byte := []
  fullness : Nat := 0
  sinceKey : Option Nat := none
  sweep : Nat := 0
  heldPics : Nat := 0
  stream : Option Stream := none
  begun : Bool := false
  dirty : Bool := false
  unclean : Bool := false
  beyond : Bool := false
  recover : Option Nat := none
  waiting : List Picture := []
  last : Option Picture := none
  records : Nat := 0
  heldBufs : List Nat := []
  job : Option Nat := none
  pics : List Picture := []
  written : Nat := 0
  concealed : Nat := 0
  outcome : Nat := 0
  deriving DecidableEq, Repr

/-! ### Keys (19_security.md) -/

/-- A link slot of the key store (R462): the keys of the current and the previous generation with their numbers (0: none),
and the send counter. -/
structure LinkKey where
  key : List Byte := []
  gen : Nat := 0
  prevKey : List Byte := []
  prevGen : Nat := 0
  counter : Nat := 0
  deriving DecidableEq, Repr

/-- What a flow has accepted under a generation of its key (R470): the generation, and the counters accepted that lie
within 1,024 of the highest. -/
structure LinkSeen where
  gen : Nat := 0
  counters : List Nat := []
  deriving DecidableEq, Repr

/-- A tenant slot of the key store (R462): the partition that holds it, and its key K1 ‖ K2. -/
structure TenantKey where
  part : Nat := 0
  key : List Byte := []
  deriving DecidableEq, Repr


/-! ### Power (17_power_clocks_and_sleep.md) -/

/-- The VIN monitor (R413): whether VIN is valid, and the consecutive samples at 38 V or more while it is not. -/
structure Vin where
  valid : Bool := true
  count : Nat := 0
  deriving DecidableEq, Repr

/-- The governor (R427 to R431): periods of 100 µs since the last 1 ms, the sum of their package powers in W, 1 ms
intervals above the sustained limit in a row, 1 ms intervals since the ceiling last rose, and the highest step predicted to
stay within the sustained limit. -/
structure Gov where
  tick : Nat := 0
  sum : Nat := 0
  above : Nat := 0
  rise : Nat := 0
  sust : Nat := 0
  deriving DecidableEq, Repr

set_option maxRecDepth 2000 in
/-- The block: everything the spec gives it, apart from the queue of commands. Tables list only what differs from
its reset value (Machine/Sparse.lean). -/
structure Device where
  /-- The register file: register number × 2^20 + instance (Machine/RegMap.lean) -/
  regs : List (Nat × Word)
  /-- What the last read of each requester returned -/
  replies : List (Nat × Word)
  /-- Floor scratchpad, stacked DRAM and flash user range by device physical address (R6) -/
  mem : List (Nat × Byte)
  /-- Poisoned words of the floor and poisoned 64-byte units of DRAM, by address (R230, R240) -/
  poison : List (Nat × Bool)
  /-- Tile memory: logical core × 1,572,864 + byte -/
  tmem : List (Nat × Byte)
  /-- Poisoned 64-bit words of tile memory: logical core × 196,608 + word (R223) -/
  tpoison : List (Nat × Bool)
  /-- Accumulator banks: (logical core × 2 + bank) × 65,536 + row × 256 + column (R82) -/
  acc : List (Nat × BitVec 32)
  /-- Bank shadows of the checkpoint, addressed as the banks (R410) -/
  shadow : List (Nat × BitVec 32)
  /-- The logical cores, die × 128 + cluster × 16 + core -/
  cores : List (Nat × Core)
  /-- Cues: level × 2^20 + element × 64 + index (R287) -/
  cues : List (Nat × Cue)
  /-- Staged figures: partition × 8 + slot (R62) -/
  slots : List (Nat × Option Figure)
  /-- Loads waiting, in order of request (R61) -/
  loadQueue : List LoadReq
  /-- Loads running, at most 4 (R61) -/
  loading : List LoadReq
  /-- The switch under way in each partition (R63) -/
  switches : List (Nat × Option SwitchReq)
  /-- Patch records of each partition still to be applied (R66) -/
  patches : List (Nat × List PendingPatch)
  /-- The contexts -/
  ctxs : List (Nat × Ctx)
  /-- Pre-emptions under way (R401) -/
  preempts : List Preempt
  /-- The pending table of each logical cluster, oldest first (R397) -/
  held : List (Nat × List Held)
  /-- Semaphore cells: logical die × 512 + cell (R233) -/
  sems : List (Nat × Sem)
  /-- Tiles in the buffer of each stream, oldest first (R63) -/
  strBuf : List (Nat × List (List Byte))
  /-- Placement epoch of the leaf set on each logical core (R408) -/
  epochs : List (Nat × Nat)
  /-- Results held at the source for a fenced core (R409) -/
  heldTiles : List (Nat × List (List Byte))
  /-- HALOs held at the switch of a logical core's position (R206) -/
  halos : List (Nat × List HeldHalo)
  /-- Bytes taken from the full bucket of each regulator: partition × 16 + stack (R393) -/
  buckets : List (Nat × Nat)
  /-- Spare-map record: retired elements, level × 2^20 + site (R21, R436) -/
  retired : List (Nat × Bool)
  /-- Retirements in force in the binding now in use (R22, R30) -/
  applied : List (Nat × Bool)
  /-- The logical die whose binding to die site 16 the spare map records (R21, R24) -/
  dieSpare : Option Nat
  /-- The last shut-down test's pass as the steward keeps it: engine sites tested, sites retired, largest verdict age (R447) -/
  lastPass : Nat × Nat × Nat
  /-- A no-transit site has appeared and its routes are not yet installed (R26) -/
  routesStale : Bool
  /-- No-transit sites in the routes in use (R26) -/
  noTransit : List (Nat × Bool)
  /-- The fault-log ring, newest 2,048 entries, oldest first (R451) -/
  flog : List LogEntry
  /-- Number of the next fault-log entry (R451) -/
  flogHead : Nat
  /-- MSI-X messages raised and not yet taken: port × 4 + vector (R492) -/
  msix : List (Nat × Nat)
  /-- PlatformEventMessages waiting, oldest first, at most 32 (R496) -/
  pldmEvents : List Nat
  /-- Entries with a lower number are in the record (R451) -/
  flogSaved : Nat
  /-- The three copies of the margin table (R436) -/
  nvMargin : List MapCopy
  /-- The three copies of the spare map (R436) -/
  nvSpare : List MapCopy
  /-- The three copies of the fault log (R436) -/
  nvLog : List LogCopy
  /-- The self-test command in progress (R448) -/
  selfTest : Option SelfTest
  /-- Verdict age of each engine site (R447) -/
  ages : List (Nat × Nat)
  /-- Core sites flagged for a core slice at shut-down (R446) -/
  flagged : List (Nat × Bool)
  /-- The model's own counter: the next free value to be drawn (log entry 2) -/
  free : Nat
  /-- The driver map of each context as of its last invalidation (R246, R248) -/
  drvMap : List (Nat × List MapEntry)
  /-- The line each cache way holds in a set: (die site × 16 + way) × 49,152 + set (R227) -/
  lines : List (Nat × Option FloorLine)
  /-- The translations cached in each cluster site, at most 1,024 (R248) -/
  xlats : List (Nat × List CachedPage)
  /-- Promoted extents: partition × 2^21 + extent (R249) -/
  promo : List (Nat × Option Promo)
  /-- The tier-manager copy in progress of each partition (R249) -/
  promoJob : List (Nat × Option PromoJob)
  /-- Line reads of an extent, and when their 10 ms began: partition × 2^21 + extent (R249) -/
  promoReads : List (Nat × Nat × Nat)
  /-- Frames of demoted extents whose reads are not yet over: partition × 2^28 + frame (R249) -/
  frameBusy : List (Nat × Bool)
  /-- Count of uses, which orders frames by recency (R249) -/
  promoTick : Nat
  /-- Writes that wait for a hold of their memory to end, oldest first (R229, R243 to R245) -/
  heldWrites : List HeldWrite
  /-- Count of uses of floor lines, which orders them by recency (R227) -/
  lineTick : Nat
  /-- DQ lanes failing and not yet substituted: stack × 32 + channel (R239) -/
  dqFailed : List (Nat × Nat)
  /-- Back-invalidations of each stack since its register last counted 65,536 of them (R228) -/
  backInval : List (Nat × Nat)
  /-- Groups written over with poison since a channel of them was retired: stack × 8 + group (R244) -/
  groupLost : List (Nat × Bool)
  /-- Channels of each stack being trained, and whether one was skipped (bit 32) (R238) -/
  training : List (Nat × Nat)
  /-- Groups being poisoned, which serve no request: stack × 8 + group (R244) -/
  groupPoison : List (Nat × Bool)
  /-- Times of corrected accesses of a row within 24 h: channel × 2^20 + row (R242) -/
  rowErrs : List (Nat × List Nat)
  /-- Rows being copied, whose requests wait: channel × 2^20 + row (R242) -/
  rowRepair : List (Nat × Bool)
  /-- Times of row repairs of a bank within 24 h: channel × 64 + bank (R242) -/
  bankRepairs : List (Nat × List Nat)
  /-- Banks being copied to a spare bank: channel × 64 + bank (R242) -/
  bankCopy : List (Nat × Bool)
  /-- Spare banks used of each stack (R242) -/
  spareBanks : List (Nat × Nat)
  /-- Descriptors taken and not completed, in ring order, of every ring: DMA, collective, codec and ingest (R277; numbering in Machine/Rings.lean) -/
  rings : List (Nat × List Desc)
  /-- The ring each engine served last (R286) -/
  rr : List (Nat × Nat)
  /-- The partition and the figure and driver maps by which a ring's descriptors were translated before the teardown that cancels it (R284) -/
  keptMaps : List (Nat × Option (Nat × List MapEntry × List MapEntry))
  /-- What the block has sent outside, oldest first (log entry 6) -/
  sent : List OutMsg
  /-- Requesters whose site lookup is in progress (R31) -/
  lookups : List (Nat × Bool)
  /-- The catalogue of the weight library (R256) -/
  catalog : List (Nat × CatEntry)
  /-- The catalogue entries that a valid slot names, partition × 8 + slot: one in refs of each (R258) -/
  slotRefs : List (Nat × List Nat)
  /-- The two copies of the catalogue in metadata blocks (R259) -/
  catCopies : List CatCopy
  /-- The library command in progress (R260, R261) -/
  flsPending : Option FlsJob
  /-- Stack extents whose data is lost: stack × 524,288 + extent (R266) -/
  lostExt : List (Nat × Bool)
  /-- Disturb count of a physical block, stack × 524,288 + block, and the power failures there had been when it was last set (R263, R267) -/
  disturb : List (Nat × Nat × Nat)
  /-- How often power has failed while the flash controllers held their tables (R267) -/
  powerFails : Nat
  /-- The generation that the catalogue in flash records (R256, FLS_CATALOG) -/
  catGen : Nat
  /-- Physical blocks queued for relocation, stack × 524,288 + block (R263, R265) -/
  relocQueue : List Nat
  /-- Flash stacks lost with their link die or controller (R266) -/
  flashDead : List (Nat × Bool)
  /-- The scrub position of each flash stack that its metadata keeps (R265) -/
  scrubPos : List (Nat × Nat)
  /-- Units whose block was retired and whose data waits for a spare block, stack × 524,288 + unit (R266) -/
  rebuildQueue : List Nat
  /-- The physical block that the translation layer maps each unit of a stack to, stack × 524,288 + unit: its 393,216 extents, then its 49,152 parity blocks, then its 4,096 metadata blocks (R254) -/
  blockMap : List (Nat × Nat)
  /-- Erase count of each physical block: stack × 524,288 + block (R264) -/
  erases : List (Nat × Nat)
  /-- Physical blocks retired or spent: stack × 524,288 + block (R266) -/
  badBlocks : List (Nat × Bool)
  /-- The streamer of each partition (R270) -/
  streamers : List (Nat × Option Streamer)
  /-- The public key of each root slot, as its fuses and boot image give it (R460) -/
  rootKeys : List (Nat × List Byte)
  /-- The group-table entries beside their registers (R329) -/
  colGroups : List (Nat × ColEntry)
  /-- Logical cores that a planned migration has on core site 16 (R409, R448) -/
  moved : List (Nat × Bool)
  /-- Nodes of the prefix trees: partition × 65,536 + index (R163) -/
  pfxNodes : List (Nat × Option PfxNode)
  /-- References a request ring holds: (partition × 64 + ring) × 65,536 + node (R166) -/
  pfxRefs : List (Nat × Nat)
  /-- The 128-bit hash key of each partition (R161) -/
  pfxKeys : List (Nat × Nat)
  /-- Partitions whose tree region has met an uncorrectable error (R180) -/
  pfxLost : List (Nat × Bool)
  /-- The tail of each request ring as last read: partition × 64 + ring (R170) -/
  seqTails : List (Nat × Option Nat)
  /-- The ring whose request a sequence unit has in service, by logical die (R169) -/
  seqService : List (Nat × Option Nat)
  /-- The link layer of each logical link (R303 to R305) -/
  ports : List (Nat × Port)
  /-- Packets waiting to be admitted, oldest first: link × 8 + virtual channel (R303) -/
  egress : List (Nat × List Packet)
  /-- The neighbour each trained port found in the identity exchange (R321) -/
  nbrs : List (Nat × Option Nbr)
  /-- The flow table as last loaded (R308) -/
  flows : List (Nat × Flow)
  /-- The routing tables: link die × 4,096 + entry (R312) -/
  routes : List (Nat × Word)
  /-- The topology map, in ID order (R324) -/
  topo : List TopoDev
  /-- The promenade of this device (R320 to R326) -/
  prom : Prom
  /-- The board identity record as the steward read it; empty when absent (R316) -/
  board : List Byte
  /-- What the identity memory behind an address of a sideband master answers, by sidebandKey; empty where nothing responds (R315) -/
  sideband : List (Nat × List Byte)
  /-- The link slots of the key store (R462) -/
  linkKeys : List (Nat × LinkKey)
  /-- What each flow entry has accepted under a generation of its key (R470) -/
  linkSeen : List (Nat × List LinkSeen)
  /-- The tenant slots of the key store (R462) -/
  tenantKeys : List (Nat × Option TenantKey)
  /-- The collective descriptor each collective ring runs, by ring (R339) -/
  colOps : List (Nat × Option ColOp)
  /-- Sessions of the codec engines: (2 × die site + engine) × 16 + session (R356) -/
  sessions : List (Nat × Option Session)
  /-- Publications made by each ingest unit, by die site (R386) -/
  ingPubs : List (Nat × Nat)
  /-- Samples each ingest unit has replaced since it was enabled (R386) -/
  ingReplaced : List (Nat × Nat)
  /-- The stream table of an ingest unit loses its holds when the unit is next enabled (R389) -/
  ingClear : List (Nat × Bool)
  /-- The power of the device as a whole: 0 on, 1 OFF with VIN absent or not yet valid, 2 OFF with VIN present, 3 silent
  after the loss of the steward (R420, R426, R454) -/
  off : Nat
  /-- The VIN monitor of the always-on domain (R413) -/
  vin : Vin
  /-- Every cluster clock is stopped by the junction comparator (R431) -/
  tripped : Bool
  /-- Events for cues of a logical cluster whose clock does not run, oldest first: cue and count (R290) -/
  clkHeld : List (Nat × List (Nat × Nat))
  /-- Cores stopped for a REST or OFF request (R422 step 4) -/
  restCores : List Nat
  /-- Ports that were up at entry to REST, with their equaliser settings stored (R328) -/
  restLinks : List Nat
  /-- CLK_AON_CNT at the last REST or OFF request or wake source -/
  restFrom : Nat
  /-- The last 10,000 intervals of 1 ms, newest first: mean package power above 5.5 kW (R429) -/
  electric : List Bool
  /-- The tenant key each 64-byte unit of DRAM was last written under, by the address of the unit; `mem` holds its plaintext, and none is plain memory (R467) -/
  memKey : List (Nat × List Byte)
  /-- The private scalar d of the identity key (R458) -/
  idKey : Option Nat
  /-- The sealed-state key; empty before the store is first armed (R462) -/
  sealKey : List Byte
  /-- The debug nonce (R474) -/
  debugNonce : List Byte
  /-- The command in service in each command window, 32 for the device window: its op, index and code (R463, R466) -/
  secPending : List (Nat × Option (Nat × Nat × Nat))
  /-- Volatile key material was lost since step 2 of the last start (R473) -/
  keysLost : Bool
  /-- A quarantine tripped on VBAT alone, for the next start (R472) -/
  quarLatch : Bool
  /-- SHA-384 of the running steward firmware image (R459) -/
  fwDigest : List Byte
  /-- The security_version of the running steward firmware image (R483) -/
  fwVersion : Nat
  /-- The firmware operation in progress: its op, its slot, and the result it will have (R484) -/
  fwPending : Option (Nat × Nat × Nat)
  /-- The board boot flash, by its own address (R480) -/
  bootFlash : List (Nat × Byte)
  /-- The chunk buffer of recovery mode (R485) -/
  recBuf : List Byte
  /-- The command of recovery mode: offset within slot A and length (R485) -/
  recCmd : Nat × Nat
  /-- Ports whose PERST# was released before the PCI Express island is up (R501) -/
  pciHeld : List (Nat × Bool)
  /-- Doorbell slots: context × 256 + slot, and the ring bound, as kind × 32,768 + unit × 1,024 + ring (R494) -/
  dbBind : List (Nat × Option Nat)
  /-- By requester: the address of the 64-bit register whose low half was its last access, and the latched high half (R506) -/
  halfRead : List (Nat × Option (Nat × Nat))
  /-- By requester: the address of the 64-bit register whose low half it wrote in its last access, and that half (R506) -/
  halfWrite : List (Nat × Option (Nat × Nat))
  /-- The PLDM event receiver (R496) -/
  receiver : Option Nat
  /-- The threshold state of each numeric sensor when it was last compared: 0 normal, 1 warning, 2 critical, 3 fatal (R496) -/
  sensors : List (Nat × Nat)
  /-- The cold-plate record as the steward read it; empty when absent (R317, R416) -/
  coldPlate : List Byte
  /-- The governor of the cluster clocks (R427 to R431) -/
  gov : Gov
  /-- The cap that writes of PWR_LIMIT.sustained are held to, in 10 W (R415, R416) -/
  sustCap : Nat
  /-- VIN was lost without an orderly shut-down (R443) -/
  unclean : Bool
  /-- The peak-voltage charge in ms, of which AGE_PEAK shows whole seconds (R443) -/
  peakMs : Nat
  /-- Lanes marked for substitution at the next training: link × 16 + lane (R442) -/
  laneMarks : List (Nat × Bool)
  /-- Cluster sites marked for retirement in the spare map (R442) -/
  marked : List (Nat × Bool)
  /-- A copy of the margin table as it stood before its last write (R436) -/
  oldMargin : MapCopy
  /-- A copy of the spare map as it stood before its last write (R436) -/
  oldSpare : MapCopy
  /-- A copy of the fault log as it stood before its last write (R436) -/
  oldLog : LogCopy
  deriving DecidableEq, Repr

/-- The machine: the block, and the commands waiting for it, first in first out. -/
structure State where
  pending : List Instr
  dev : Device
  deriving DecidableEq, Repr

/-- The block right after reset: every table empty, so every register and every byte reads its reset value. -/
def Device.reset : Device :=
  { regs := []
    replies := []
    mem := []
    poison := []
    tmem := []
    tpoison := []
    acc := []
    shadow := []
    cores := []
    cues := []
    slots := []
    loadQueue := []
    loading := []
    switches := []
    patches := []
    ctxs := []
    preempts := []
    held := []
    sems := []
    strBuf := []
    epochs := []
    heldTiles := []
    halos := []
    buckets := []
    retired := []
    applied := []
    dieSpare := none
    lastPass := (0, 0, 0)
    routesStale := false
    noTransit := []
    flog := []
    flogHead := 0
    msix := []
    pldmEvents := []
    flogSaved := 0
    nvMargin := [{}, {}, {}]
    nvSpare := [{}, {}, {}]
    nvLog := [{}, {}, {}]
    selfTest := none
    ages := []
    flagged := []
    free := 0
    drvMap := []
    lines := []
    xlats := []
    promo := []
    promoJob := []
    promoReads := []
    frameBusy := []
    promoTick := 0
    heldWrites := []
    lineTick := 0
    dqFailed := []
    backInval := []
    groupLost := []
    training := []
    groupPoison := []
    rowErrs := []
    rowRepair := []
    bankRepairs := []
    bankCopy := []
    spareBanks := []
    rings := []
    rr := []
    keptMaps := []
    sent := []
    lookups := []
    catalog := []
    slotRefs := []
    catCopies := [{}, {}]
    flsPending := none
    lostExt := []
    disturb := []
    powerFails := 0
    catGen := 0
    relocQueue := []
    flashDead := []
    scrubPos := []
    rebuildQueue := []
    blockMap := []
    erases := []
    badBlocks := []
    streamers := []
    rootKeys := []
    colGroups := []
    moved := []
    pfxNodes := []
    pfxRefs := []
    pfxKeys := []
    pfxLost := []
    seqTails := []
    seqService := []
    ports := []
    egress := []
    nbrs := []
    flows := []
    routes := []
    topo := []
    prom := {}
    board := []
    sideband := []
    linkKeys := []
    linkSeen := []
    tenantKeys := []
    colOps := []
    sessions := []
    ingPubs := []
    ingReplaced := []
    ingClear := []
    off := 0
    vin := {}
    tripped := false
    clkHeld := []
    restCores := []
    restLinks := []
    restFrom := 0
    electric := []
    memKey := []
    idKey := none
    sealKey := []
    debugNonce := []
    secPending := []
    keysLost := false
    quarLatch := false
    fwDigest := []
    fwVersion := 0
    fwPending := none
    bootFlash := []
    recBuf := []
    recCmd := (0, 0)
    pciHeld := []
    dbBind := []
    halfRead := []
    halfWrite := []
    receiver := none
    sensors := []
    coldPlate := []
    gov := {}
    sustCap := 500
    unclean := false
    peakMs := 0
    laneMarks := []
    marked := []
    oldMargin := {}
    oldSpare := {}
    oldLog := {} }

/-- The machine right after reset: no command waits. -/
def State.reset : State := ⟨[], Device.reset⟩

end Sys2Proof.Machine
end

