-- ==== Sys2Proof/Machine/Upd.lean ====
section
/-! DEFINITION. What a command can do to the block, said once: `Upd` lists the single changes, one kind per field of
`Device`, and `Eff` puts them together. Every meaning is an `Eff`; `Eff.run` is the only way the block changes, so an
invariant of `Upd.apply` is an invariant of every command. -/

namespace Sys2Proof.Machine

/-- What an unlisted key of `regs` reads as. -/
def dfltRegs : Nat → Word := regReset

/-- `regs` at a key. -/
def Device.regsAt (d : Device) (k : Nat) : Word := mapGet dfltRegs d.regs k

/-- What an unlisted key of `replies` reads as. -/
def dfltReplies : Nat → Word := fun _ => 0

/-- `replies` at a key. -/
def Device.repliesAt (d : Device) (k : Nat) : Word := mapGet dfltReplies d.replies k

/-- What an unlisted key of `mem` reads as. -/
def dfltMem : Nat → Byte := fun _ => 0

/-- `mem` at a key. -/
def Device.memAt (d : Device) (k : Nat) : Byte := mapGet dfltMem d.mem k

/-- What an unlisted key of `poison` reads as. -/
def dfltPoison : Nat → Bool := fun _ => false

/-- `poison` at a key. -/
def Device.poisonAt (d : Device) (k : Nat) : Bool := mapGet dfltPoison d.poison k

/-- What an unlisted key of `tmem` reads as. -/
def dfltTmem : Nat → Byte := fun _ => 0

/-- `tmem` at a key. -/
def Device.tmemAt (d : Device) (k : Nat) : Byte := mapGet dfltTmem d.tmem k

/-- What an unlisted key of `tpoison` reads as. -/
def dfltTpoison : Nat → Bool := fun _ => false

/-- `tpoison` at a key. -/
def Device.tpoisonAt (d : Device) (k : Nat) : Bool := mapGet dfltTpoison d.tpoison k

/-- What an unlisted key of `acc` reads as. -/
def dfltAcc : Nat → BitVec 32 := fun _ => 0

/-- `acc` at a key. -/
def Device.accAt (d : Device) (k : Nat) : BitVec 32 := mapGet dfltAcc d.acc k

/-- What an unlisted key of `shadow` reads as. -/
def dfltShadow : Nat → BitVec 32 := fun _ => 0

/-- `shadow` at a key. -/
def Device.shadowAt (d : Device) (k : Nat) : BitVec 32 := mapGet dfltShadow d.shadow k

/-- What an unlisted key of `cores` reads as. -/
def dfltCores : Nat → Core := fun _ => {}

/-- `cores` at a key. -/
def Device.coresAt (d : Device) (k : Nat) : Core := mapGet dfltCores d.cores k

/-- What an unlisted key of `cues` reads as. -/
def dfltCues : Nat → Cue := fun _ => {}

/-- `cues` at a key. -/
def Device.cuesAt (d : Device) (k : Nat) : Cue := mapGet dfltCues d.cues k

/-- What an unlisted key of `slots` reads as. -/
def dfltSlots : Nat → Option Figure := fun _ => none

/-- `slots` at a key. -/
def Device.slotsAt (d : Device) (k : Nat) : Option Figure := mapGet dfltSlots d.slots k

/-- What an unlisted key of `switches` reads as. -/
def dfltSwitches : Nat → Option SwitchReq := fun _ => none

/-- `switches` at a key. -/
def Device.switchesAt (d : Device) (k : Nat) : Option SwitchReq := mapGet dfltSwitches d.switches k

/-- What an unlisted key of `patches` reads as. -/
def dfltPatches : Nat → List PendingPatch := fun _ => []

/-- `patches` at a key. -/
def Device.patchesAt (d : Device) (k : Nat) : List PendingPatch := mapGet dfltPatches d.patches k

/-- What an unlisted key of `ctxs` reads as. -/
def dfltCtxs : Nat → Ctx := fun _ => {}

/-- `ctxs` at a key. -/
def Device.ctxsAt (d : Device) (k : Nat) : Ctx := mapGet dfltCtxs d.ctxs k

/-- What an unlisted key of `held` reads as. -/
def dfltHeld : Nat → List Held := fun _ => []

/-- `held` at a key. -/
def Device.heldAt (d : Device) (k : Nat) : List Held := mapGet dfltHeld d.held k

/-- What an unlisted key of `sems` reads as. -/
def dfltSems : Nat → Sem := fun _ => {}

/-- `sems` at a key. -/
def Device.semsAt (d : Device) (k : Nat) : Sem := mapGet dfltSems d.sems k

/-- What an unlisted key of `strBuf` reads as. -/
def dfltStrBuf : Nat → List (List Byte) := fun _ => []

/-- `strBuf` at a key. -/
def Device.strBufAt (d : Device) (k : Nat) : List (List Byte) := mapGet dfltStrBuf d.strBuf k

/-- What an unlisted key of `epochs` reads as. -/
def dfltEpochs : Nat → Nat := fun _ => 0

/-- `epochs` at a key. -/
def Device.epochsAt (d : Device) (k : Nat) : Nat := mapGet dfltEpochs d.epochs k

/-- What an unlisted key of `heldTiles` reads as. -/
def dfltHeldTiles : Nat → List (List Byte) := fun _ => []

/-- `heldTiles` at a key. -/
def Device.heldTilesAt (d : Device) (k : Nat) : List (List Byte) := mapGet dfltHeldTiles d.heldTiles k

/-- What an unlisted key of `buckets` reads as. -/
def dfltBuckets : Nat → Nat := fun _ => 0

/-- `buckets` at a key. -/
def Device.bucketsAt (d : Device) (k : Nat) : Nat := mapGet dfltBuckets d.buckets k

/-- What an unlisted key of `retired` reads as. -/
def dfltRetired : Nat → Bool := fun _ => false

/-- `retired` at a key. -/
def Device.retiredAt (d : Device) (k : Nat) : Bool := mapGet dfltRetired d.retired k

/-- What an unlisted key of `applied` reads as. -/
def dfltApplied : Nat → Bool := fun _ => false

/-- `applied` at a key. -/
def Device.appliedAt (d : Device) (k : Nat) : Bool := mapGet dfltApplied d.applied k

/-- What an unlisted key of `noTransit` reads as. -/
def dfltNoTransit : Nat → Bool := fun _ => false

/-- `noTransit` at a key. -/
def Device.noTransitAt (d : Device) (k : Nat) : Bool := mapGet dfltNoTransit d.noTransit k

/-- What an unlisted key of `msix` reads as. -/
def dfltMsix : Nat → Nat := fun _ => 0

/-- `msix` at a key. -/
def Device.msixAt (d : Device) (k : Nat) : Nat := mapGet dfltMsix d.msix k

/-- What an unlisted key of `ages` reads as. -/
def dfltAges : Nat → Nat := fun _ => 0

/-- `ages` at a key. -/
def Device.agesAt (d : Device) (k : Nat) : Nat := mapGet dfltAges d.ages k

/-- What an unlisted key of `flagged` reads as. -/
def dfltFlagged : Nat → Bool := fun _ => false

/-- `flagged` at a key. -/
def Device.flaggedAt (d : Device) (k : Nat) : Bool := mapGet dfltFlagged d.flagged k

/-- What an unlisted key of `drvMap` reads as. -/
def dfltDrvMap : Nat → List MapEntry := fun _ => []

/-- `drvMap` at a key. -/
def Device.drvMapAt (d : Device) (k : Nat) : List MapEntry := mapGet dfltDrvMap d.drvMap k

/-- What an unlisted key of `promo` reads as. -/
def dfltPromo : Nat → Option Promo := fun _ => none

/-- `promo` at a key. -/
def Device.promoAt (d : Device) (k : Nat) : Option Promo := mapGet dfltPromo d.promo k

/-- What an unlisted key of `promoJob` reads as. -/
def dfltPromoJob : Nat → Option PromoJob := fun _ => none

/-- `promoJob` at a key. -/
def Device.promoJobAt (d : Device) (k : Nat) : Option PromoJob := mapGet dfltPromoJob d.promoJob k

/-- What an unlisted key of `promoReads` reads as. -/
def dfltPromoReads : Nat → Nat × Nat := fun _ => (0, 0)

/-- `promoReads` at a key. -/
def Device.promoReadsAt (d : Device) (k : Nat) : Nat × Nat := mapGet dfltPromoReads d.promoReads k

/-- What an unlisted key of `frameBusy` reads as. -/
def dfltFrameBusy : Nat → Bool := fun _ => false

/-- `frameBusy` at a key. -/
def Device.frameBusyAt (d : Device) (k : Nat) : Bool := mapGet dfltFrameBusy d.frameBusy k

/-- What an unlisted key of `dqFailed` reads as. -/
def dfltDqFailed : Nat → Nat := fun _ => 0

/-- `dqFailed` at a key. -/
def Device.dqFailedAt (d : Device) (k : Nat) : Nat := mapGet dfltDqFailed d.dqFailed k

/-- What an unlisted key of `groupLost` reads as. -/
def dfltGroupLost : Nat → Bool := fun _ => false

/-- `groupLost` at a key. -/
def Device.groupLostAt (d : Device) (k : Nat) : Bool := mapGet dfltGroupLost d.groupLost k

/-- What an unlisted key of `training` reads as. -/
def dfltTraining : Nat → Nat := fun _ => 0

/-- `training` at a key. -/
def Device.trainingAt (d : Device) (k : Nat) : Nat := mapGet dfltTraining d.training k

/-- What an unlisted key of `groupPoison` reads as. -/
def dfltGroupPoison : Nat → Bool := fun _ => false

/-- `groupPoison` at a key. -/
def Device.groupPoisonAt (d : Device) (k : Nat) : Bool := mapGet dfltGroupPoison d.groupPoison k

/-- What an unlisted key of `rowErrs` reads as. -/
def dfltRowErrs : Nat → List Nat := fun _ => []

/-- `rowErrs` at a key. -/
def Device.rowErrsAt (d : Device) (k : Nat) : List Nat := mapGet dfltRowErrs d.rowErrs k

/-- What an unlisted key of `rowRepair` reads as. -/
def dfltRowRepair : Nat → Bool := fun _ => false

/-- `rowRepair` at a key. -/
def Device.rowRepairAt (d : Device) (k : Nat) : Bool := mapGet dfltRowRepair d.rowRepair k

/-- What an unlisted key of `bankRepairs` reads as. -/
def dfltBankRepairs : Nat → List Nat := fun _ => []

/-- `bankRepairs` at a key. -/
def Device.bankRepairsAt (d : Device) (k : Nat) : List Nat := mapGet dfltBankRepairs d.bankRepairs k

/-- What an unlisted key of `bankCopy` reads as. -/
def dfltBankCopy : Nat → Bool := fun _ => false

/-- `bankCopy` at a key. -/
def Device.bankCopyAt (d : Device) (k : Nat) : Bool := mapGet dfltBankCopy d.bankCopy k

/-- What an unlisted key of `spareBanks` reads as. -/
def dfltSpareBanks : Nat → Nat := fun _ => 0

/-- `spareBanks` at a key. -/
def Device.spareBanksAt (d : Device) (k : Nat) : Nat := mapGet dfltSpareBanks d.spareBanks k

/-- What an unlisted key of `rings` reads as. -/
def dfltRings : Nat → List Desc := fun _ => []

/-- `rings` at a key. -/
def Device.ringsAt (d : Device) (k : Nat) : List Desc := mapGet dfltRings d.rings k

/-- What an unlisted key of `rr` reads as. -/
def dfltRr : Nat → Nat := fun _ => 0

/-- `rr` at a key. -/
def Device.rrAt (d : Device) (k : Nat) : Nat := mapGet dfltRr d.rr k

/-- What an unlisted key of `lookups` reads as. -/
def dfltLookups : Nat → Bool := fun _ => false

/-- `lookups` at a key. -/
def Device.lookupsAt (d : Device) (k : Nat) : Bool := mapGet dfltLookups d.lookups k

/-- What an unlisted key of `catalog` reads as. -/
def dfltCatalog : Nat → CatEntry := fun _ => {}

/-- `catalog` at a key. -/
def Device.catalogAt (d : Device) (k : Nat) : CatEntry := mapGet dfltCatalog d.catalog k

/-- What an unlisted key of `lostExt` reads as. -/
def dfltLostExt : Nat → Bool := fun _ => false

/-- `lostExt` at a key. -/
def Device.lostExtAt (d : Device) (k : Nat) : Bool := mapGet dfltLostExt d.lostExt k

/-- What an unlisted key of `disturb` reads as. -/
def dfltDisturb : Nat → Nat × Nat := fun _ => (0, 0)

/-- `disturb` at a key. -/
def Device.disturbAt (d : Device) (k : Nat) : Nat × Nat := mapGet dfltDisturb d.disturb k

/-- The block that a unit of a flash stack is mapped to at manufacture (R254): the 8 extents of a parity group and its parity
block lie in 9 blocks in a row, and the metadata follows (log entry 135). -/
def homeBlock (u : Nat) : Nat :=
  if u < 393216 then u / 8 * 9 + u % 8 else if u < 442368 then (u - 393216) * 9 + 8 else u

/-- What an unlisted key of `blockMap` reads as. -/
def dfltBlockMap : Nat → Nat := fun k => homeBlock (k % 524288)

/-- `blockMap` at a key. -/
def Device.blockMapAt (d : Device) (k : Nat) : Nat := mapGet dfltBlockMap d.blockMap k

/-- What an unlisted key of `erases` reads as. -/
def dfltErases : Nat → Nat := fun _ => 0

/-- `erases` at a key. -/
def Device.erasesAt (d : Device) (k : Nat) : Nat := mapGet dfltErases d.erases k

/-- What an unlisted key of `badBlocks` reads as. -/
def dfltBadBlocks : Nat → Bool := fun _ => false

/-- `badBlocks` at a key. -/
def Device.badBlocksAt (d : Device) (k : Nat) : Bool := mapGet dfltBadBlocks d.badBlocks k

/-- What an unlisted key of `streamers` reads as. -/
def dfltStreamers : Nat → Option Streamer := fun _ => none

/-- `streamers` at a key. -/
def Device.streamersAt (d : Device) (k : Nat) : Option Streamer := mapGet dfltStreamers d.streamers k

/-- What an unlisted key of `rootKeys` reads as. -/
def dfltRootKeys : Nat → List Byte := fun _ => []

/-- `rootKeys` at a key. -/
def Device.rootKeysAt (d : Device) (k : Nat) : List Byte := mapGet dfltRootKeys d.rootKeys k

/-- What an unlisted key of `colGroups` reads as. -/
def dfltColGroups : Nat → ColEntry := fun _ => {}

/-- `colGroups` at a key. -/
def Device.colGroupsAt (d : Device) (k : Nat) : ColEntry := mapGet dfltColGroups d.colGroups k

/-- What an unlisted key of `moved` reads as. -/
def dfltMoved : Nat → Bool := fun _ => false

/-- `moved` at a key. -/
def Device.movedAt (d : Device) (k : Nat) : Bool := mapGet dfltMoved d.moved k

/-- What an unlisted key of `pfxNodes` reads as. -/
def dfltPfxNodes : Nat → Option PfxNode := fun _ => none

/-- `pfxNodes` at a key. -/
def Device.pfxNodesAt (d : Device) (k : Nat) : Option PfxNode := mapGet dfltPfxNodes d.pfxNodes k

/-- What an unlisted key of `pfxRefs` reads as. -/
def dfltPfxRefs : Nat → Nat := fun _ => 0

/-- `pfxRefs` at a key. -/
def Device.pfxRefsAt (d : Device) (k : Nat) : Nat := mapGet dfltPfxRefs d.pfxRefs k

/-- What an unlisted key of `pfxKeys` reads as. -/
def dfltPfxKeys : Nat → Nat := fun _ => 0

/-- `pfxKeys` at a key. -/
def Device.pfxKeysAt (d : Device) (k : Nat) : Nat := mapGet dfltPfxKeys d.pfxKeys k

/-- What an unlisted key of `pfxLost` reads as. -/
def dfltPfxLost : Nat → Bool := fun _ => false

/-- `pfxLost` at a key. -/
def Device.pfxLostAt (d : Device) (k : Nat) : Bool := mapGet dfltPfxLost d.pfxLost k

/-- What an unlisted key of `seqTails` reads as. -/
def dfltSeqTails : Nat → Option Nat := fun _ => none

/-- `seqTails` at a key. -/
def Device.seqTailsAt (d : Device) (k : Nat) : Option Nat := mapGet dfltSeqTails d.seqTails k

/-- What an unlisted key of `seqService` reads as. -/
def dfltSeqService : Nat → Option Nat := fun _ => none

/-- `seqService` at a key. -/
def Device.seqServiceAt (d : Device) (k : Nat) : Option Nat := mapGet dfltSeqService d.seqService k

/-- What an unlisted key of `ports` reads as. -/
def dfltPorts : Nat → Port := fun _ => {}

/-- `ports` at a key. -/
def Device.portsAt (d : Device) (k : Nat) : Port := mapGet dfltPorts d.ports k

/-- What an unlisted key of `egress` reads as. -/
def dfltEgress : Nat → List Packet := fun _ => []

/-- `egress` at a key. -/
def Device.egressAt (d : Device) (k : Nat) : List Packet := mapGet dfltEgress d.egress k

/-- What an unlisted key of `nbrs` reads as. -/
def dfltNbrs : Nat → Option Nbr := fun _ => none

/-- `nbrs` at a key. -/
def Device.nbrsAt (d : Device) (k : Nat) : Option Nbr := mapGet dfltNbrs d.nbrs k

/-- What an unlisted key of `flows` reads as. -/
def dfltFlows : Nat → Flow := fun _ => {}

/-- `flows` at a key. -/
def Device.flowsAt (d : Device) (k : Nat) : Flow := mapGet dfltFlows d.flows k

/-- What an unlisted key of `routes` reads as. -/
def dfltRoutes : Nat → Word := fun _ => 0

/-- `routes` at a key. -/
def Device.routesAt (d : Device) (k : Nat) : Word := mapGet dfltRoutes d.routes k

/-- What an unlisted key of `linkKeys` reads as. -/
def dfltLinkKeys : Nat → LinkKey := fun _ => {}

/-- `linkKeys` at a key. -/
def Device.linkKeysAt (d : Device) (k : Nat) : LinkKey := mapGet dfltLinkKeys d.linkKeys k

/-- What an unlisted key of `linkSeen` reads as. -/
def dfltLinkSeen : Nat → List LinkSeen := fun _ => []

/-- `linkSeen` at a key. -/
def Device.linkSeenAt (d : Device) (k : Nat) : List LinkSeen := mapGet dfltLinkSeen d.linkSeen k

/-- What an unlisted key of `tenantKeys` reads as. -/
def dfltTenantKeys : Nat → Option TenantKey := fun _ => none

/-- `tenantKeys` at a key. -/
def Device.tenantKeysAt (d : Device) (k : Nat) : Option TenantKey := mapGet dfltTenantKeys d.tenantKeys k

/-- What an unlisted key of `colOps` reads as. -/
def dfltColOps : Nat → Option ColOp := fun _ => none

/-- `colOps` at a key. -/
def Device.colOpsAt (d : Device) (k : Nat) : Option ColOp := mapGet dfltColOps d.colOps k

/-- What an unlisted key of `sessions` reads as. -/
def dfltSessions : Nat → Option Session := fun _ => none

/-- `sessions` at a key. -/
def Device.sessionsAt (d : Device) (k : Nat) : Option Session := mapGet dfltSessions d.sessions k

/-- What an unlisted key of `ingPubs` reads as. -/
def dfltIngPubs : Nat → Nat := fun _ => 0

/-- `ingPubs` at a key. -/
def Device.ingPubsAt (d : Device) (k : Nat) : Nat := mapGet dfltIngPubs d.ingPubs k

/-- What an unlisted key of `ingReplaced` reads as. -/
def dfltIngReplaced : Nat → Nat := fun _ => 0

/-- `ingReplaced` at a key. -/
def Device.ingReplacedAt (d : Device) (k : Nat) : Nat := mapGet dfltIngReplaced d.ingReplaced k

/-- What an unlisted key of `ingClear` reads as. -/
def dfltIngClear : Nat → Bool := fun _ => false

/-- `ingClear` at a key. -/
def Device.ingClearAt (d : Device) (k : Nat) : Bool := mapGet dfltIngClear d.ingClear k

/-- What an unlisted key of `clkHeld` reads as. -/
def dfltClkHeld : Nat → List (Nat × Nat) := fun _ => []

/-- `clkHeld` at a key. -/
def Device.clkHeldAt (d : Device) (k : Nat) : List (Nat × Nat) := mapGet dfltClkHeld d.clkHeld k

/-- What an unlisted key of `memKey` reads as. -/
def dfltMemKey : Nat → List Byte := fun _ => []

/-- `memKey` at a key. -/
def Device.memKeyAt (d : Device) (k : Nat) : List Byte := mapGet dfltMemKey d.memKey k

/-- What an unlisted key of `secPending` reads as. -/
def dfltSecPending : Nat → Option (Nat × Nat × Nat) := fun _ => none

/-- `secPending` at a key. -/
def Device.secPendingAt (d : Device) (k : Nat) : Option (Nat × Nat × Nat) := mapGet dfltSecPending d.secPending k

/-- What an unlisted key of `bootFlash` reads as. -/
def dfltBootFlash : Nat → Byte := fun _ => 0xFF

/-- `bootFlash` at a key. -/
def Device.bootFlashAt (d : Device) (k : Nat) : Byte := mapGet dfltBootFlash d.bootFlash k

/-- What an unlisted key of `pciHeld` reads as. -/
def dfltPciHeld : Nat → Bool := fun _ => false

/-- `pciHeld` at a key. -/
def Device.pciHeldAt (d : Device) (k : Nat) : Bool := mapGet dfltPciHeld d.pciHeld k

/-- What an unlisted key of `dbBind` reads as. -/
def dfltDbBind : Nat → Option Nat := fun _ => none

/-- `dbBind` at a key. -/
def Device.dbBindAt (d : Device) (k : Nat) : Option Nat := mapGet dfltDbBind d.dbBind k

/-- What an unlisted key of `halfRead` reads as. -/
def dfltHalfRead : Nat → Option (Nat × Nat) := fun _ => none

/-- `halfRead` at a key. -/
def Device.halfReadAt (d : Device) (k : Nat) : Option (Nat × Nat) := mapGet dfltHalfRead d.halfRead k

/-- What an unlisted key of `halfWrite` reads as. -/
def dfltHalfWrite : Nat → Option (Nat × Nat) := fun _ => none

/-- `halfWrite` at a key. -/
def Device.halfWriteAt (d : Device) (k : Nat) : Option (Nat × Nat) := mapGet dfltHalfWrite d.halfWrite k

/-- What an unlisted key of `sensors` reads as. -/
def dfltSensors : Nat → Nat := fun _ => 0

/-- `sensors` at a key. -/
def Device.sensorsAt (d : Device) (k : Nat) : Nat := mapGet dfltSensors d.sensors k

/-- What an unlisted key of `laneMarks` reads as. -/
def dfltLaneMarks : Nat → Bool := fun _ => false

/-- `laneMarks` at a key. -/
def Device.laneMarksAt (d : Device) (k : Nat) : Bool := mapGet dfltLaneMarks d.laneMarks k

/-- What an unlisted key of `marked` reads as. -/
def dfltMarked : Nat → Bool := fun _ => false

/-- `marked` at a key. -/
def Device.markedAt (d : Device) (k : Nat) : Bool := mapGet dfltMarked d.marked k

/-- What an unlisted key of `halos` reads as. -/
def dfltHalos : Nat → List HeldHalo := fun _ => []

/-- `halos` at a key. -/
def Device.halosAt (d : Device) (k : Nat) : List HeldHalo := mapGet dfltHalos d.halos k

/-- What an unlisted key of `xlats` reads as. -/
def dfltXlats : Nat → List CachedPage := fun _ => []

/-- `xlats` at a key. -/
def Device.xlatsAt (d : Device) (k : Nat) : List CachedPage := mapGet dfltXlats d.xlats k

/-- What an unlisted key of `lines` reads as. -/
def dfltLines : Nat → Option FloorLine := fun _ => none

/-- `lines` at a key. -/
def Device.linesAt (d : Device) (k : Nat) : Option FloorLine := mapGet dfltLines d.lines k

/-- What an unlisted key of `backInval` reads as. -/
def dfltBackInval : Nat → Nat := fun _ => 0

/-- `backInval` at a key. -/
def Device.backInvalAt (d : Device) (k : Nat) : Nat := mapGet dfltBackInval d.backInval k

/-- What an unlisted key of `scrubPos` reads as. -/
def dfltScrubPos : Nat → Nat := fun _ => 0

/-- `scrubPos` at a key. -/
def Device.scrubPosAt (d : Device) (k : Nat) : Nat := mapGet dfltScrubPos d.scrubPos k

/-- What an unlisted key of `flashDead` reads as. -/
def dfltFlashDead : Nat → Bool := fun _ => false

/-- `flashDead` at a key. -/
def Device.flashDeadAt (d : Device) (k : Nat) : Bool := mapGet dfltFlashDead d.flashDead k

/-- What an unlisted key of `slotRefs` reads as. -/
def dfltSlotRefs : Nat → List Nat := fun _ => []

/-- `slotRefs` at a key. -/
def Device.slotRefsAt (d : Device) (k : Nat) : List Nat := mapGet dfltSlotRefs d.slotRefs k

/-- What an unlisted key of `keptMaps` reads as. -/
def dfltKeptMaps : Nat → Option (Nat × List MapEntry × List MapEntry) := fun _ => none

/-- `keptMaps` at a key. -/
def Device.keptMapsAt (d : Device) (k : Nat) : Option (Nat × List MapEntry × List MapEntry) := mapGet dfltKeptMaps d.keptMaps k

/-- What an unlisted key of `sideband` reads as. -/
def dfltSideband : Nat → List Byte := fun _ => []

/-- `sideband` at a key. -/
def Device.sidebandAt (d : Device) (k : Nat) : List Byte := mapGet dfltSideband d.sideband k

/-- One change of the block. -/
inductive Upd where
  /-- `regs` at `k` becomes `v`. -/
  | regs (k : Nat) (v : Word)
  /-- The keys of `regs` that satisfy `p` read their reset value again. -/
  | regsDrop (p : Nat → Bool)
  /-- `replies` at `k` becomes `v`. -/
  | replies (k : Nat) (v : Word)
  /-- The keys of `replies` that satisfy `p` read their reset value again. -/
  | repliesDrop (p : Nat → Bool)
  /-- `mem` at `k` becomes `v`. -/
  | mem (k : Nat) (v : Byte)
  /-- The keys of `mem` that satisfy `p` read their reset value again. -/
  | memDrop (p : Nat → Bool)
  /-- `poison` at `k` becomes `v`. -/
  | poison (k : Nat) (v : Bool)
  /-- The keys of `poison` that satisfy `p` read their reset value again. -/
  | poisonDrop (p : Nat → Bool)
  /-- `tmem` at `k` becomes `v`. -/
  | tmem (k : Nat) (v : Byte)
  /-- The keys of `tmem` that satisfy `p` read their reset value again. -/
  | tmemDrop (p : Nat → Bool)
  /-- `tpoison` at `k` becomes `v`. -/
  | tpoison (k : Nat) (v : Bool)
  /-- The keys of `tpoison` that satisfy `p` read their reset value again. -/
  | tpoisonDrop (p : Nat → Bool)
  /-- `acc` at `k` becomes `v`. -/
  | acc (k : Nat) (v : BitVec 32)
  /-- The keys of `acc` that satisfy `p` read their reset value again. -/
  | accDrop (p : Nat → Bool)
  /-- `shadow` at `k` becomes `v`. -/
  | shadow (k : Nat) (v : BitVec 32)
  /-- The keys of `shadow` that satisfy `p` read their reset value again. -/
  | shadowDrop (p : Nat → Bool)
  /-- `cores` at `k` becomes `v`. -/
  | cores (k : Nat) (v : Core)
  /-- The keys of `cores` that satisfy `p` read their reset value again. -/
  | coresDrop (p : Nat → Bool)
  /-- `cues` at `k` becomes `v`. -/
  | cues (k : Nat) (v : Cue)
  /-- The keys of `cues` that satisfy `p` read their reset value again. -/
  | cuesDrop (p : Nat → Bool)
  /-- `slots` at `k` becomes `v`. -/
  | slots (k : Nat) (v : Option Figure)
  /-- The keys of `slots` that satisfy `p` read their reset value again. -/
  | slotsDrop (p : Nat → Bool)
  /-- `loadQueue` becomes `v`. -/
  | loadQueue (v : List LoadReq)
  /-- `loading` becomes `v`. -/
  | loading (v : List LoadReq)
  /-- `switches` at `k` becomes `v`. -/
  | switches (k : Nat) (v : Option SwitchReq)
  /-- The keys of `switches` that satisfy `p` read their reset value again. -/
  | switchesDrop (p : Nat → Bool)
  /-- `patches` at `k` becomes `v`. -/
  | patches (k : Nat) (v : List PendingPatch)
  /-- The keys of `patches` that satisfy `p` read their reset value again. -/
  | patchesDrop (p : Nat → Bool)
  /-- `ctxs` at `k` becomes `v`. -/
  | ctxs (k : Nat) (v : Ctx)
  /-- The keys of `ctxs` that satisfy `p` read their reset value again. -/
  | ctxsDrop (p : Nat → Bool)
  /-- `preempts` becomes `v`. -/
  | preempts (v : List Preempt)
  /-- `held` at `k` becomes `v`. -/
  | held (k : Nat) (v : List Held)
  /-- The keys of `held` that satisfy `p` read their reset value again. -/
  | heldDrop (p : Nat → Bool)
  /-- `sems` at `k` becomes `v`. -/
  | sems (k : Nat) (v : Sem)
  /-- The keys of `sems` that satisfy `p` read their reset value again. -/
  | semsDrop (p : Nat → Bool)
  /-- `strBuf` at `k` becomes `v`. -/
  | strBuf (k : Nat) (v : List (List Byte))
  /-- The keys of `strBuf` that satisfy `p` read their reset value again. -/
  | strBufDrop (p : Nat → Bool)
  /-- `epochs` at `k` becomes `v`. -/
  | epochs (k : Nat) (v : Nat)
  /-- The keys of `epochs` that satisfy `p` read their reset value again. -/
  | epochsDrop (p : Nat → Bool)
  /-- `heldTiles` at `k` becomes `v`. -/
  | heldTiles (k : Nat) (v : List (List Byte))
  /-- The keys of `heldTiles` that satisfy `p` read their reset value again. -/
  | heldTilesDrop (p : Nat → Bool)
  /-- `halos` at `k` becomes `v`. -/
  | halos (k : Nat) (v : List HeldHalo)
  /-- The keys of `halos` that satisfy `p` read their reset value again. -/
  | halosDrop (p : Nat → Bool)
  /-- `buckets` at `k` becomes `v`. -/
  | buckets (k : Nat) (v : Nat)
  /-- The keys of `buckets` that satisfy `p` read their reset value again. -/
  | bucketsDrop (p : Nat → Bool)
  /-- `retired` at `k` becomes `v`. -/
  | retired (k : Nat) (v : Bool)
  /-- The keys of `retired` that satisfy `p` read their reset value again. -/
  | retiredDrop (p : Nat → Bool)
  /-- `applied` at `k` becomes `v`. -/
  | applied (k : Nat) (v : Bool)
  /-- The keys of `applied` that satisfy `p` read their reset value again. -/
  | appliedDrop (p : Nat → Bool)
  /-- `dieSpare` becomes `v`. -/
  | dieSpare (v : Option Nat)
  /-- `lastPass` becomes `v`. -/
  | lastPass (v : Nat × Nat × Nat)
  /-- `routesStale` becomes `v`. -/
  | routesStale (v : Bool)
  /-- `noTransit` at `k` becomes `v`. -/
  | noTransit (k : Nat) (v : Bool)
  /-- The keys of `noTransit` that satisfy `p` read their reset value again. -/
  | noTransitDrop (p : Nat → Bool)
  /-- `flog` becomes `v`. -/
  | flog (v : List LogEntry)
  /-- `flogHead` becomes `v`. -/
  | flogHead (v : Nat)
  /-- `msix` at `k` becomes `v`. -/
  | msix (k : Nat) (v : Nat)
  /-- The keys of `msix` that satisfy `p` read their reset value again. -/
  | msixDrop (p : Nat → Bool)
  /-- `pldmEvents` becomes `v`. -/
  | pldmEvents (v : List Nat)
  /-- `flogSaved` becomes `v`. -/
  | flogSaved (v : Nat)
  /-- `nvMargin` becomes `v`. -/
  | nvMargin (v : List MapCopy)
  /-- `nvSpare` becomes `v`. -/
  | nvSpare (v : List MapCopy)
  /-- `nvLog` becomes `v`. -/
  | nvLog (v : List LogCopy)
  /-- `selfTest` becomes `v`. -/
  | selfTest (v : Option SelfTest)
  /-- `ages` at `k` becomes `v`. -/
  | ages (k : Nat) (v : Nat)
  /-- The keys of `ages` that satisfy `p` read their reset value again. -/
  | agesDrop (p : Nat → Bool)
  /-- `flagged` at `k` becomes `v`. -/
  | flagged (k : Nat) (v : Bool)
  /-- The keys of `flagged` that satisfy `p` read their reset value again. -/
  | flaggedDrop (p : Nat → Bool)
  /-- `free` becomes `v`. -/
  | free (v : Nat)
  /-- `drvMap` at `k` becomes `v`. -/
  | drvMap (k : Nat) (v : List MapEntry)
  /-- The keys of `drvMap` that satisfy `p` read their reset value again. -/
  | drvMapDrop (p : Nat → Bool)
  /-- `lines` at `k` becomes `v`. -/
  | lines (k : Nat) (v : Option FloorLine)
  /-- The keys of `lines` that satisfy `p` read their reset value again. -/
  | linesDrop (p : Nat → Bool)
  /-- `xlats` at `k` becomes `v`. -/
  | xlats (k : Nat) (v : List CachedPage)
  /-- The keys of `xlats` that satisfy `p` read their reset value again. -/
  | xlatsDrop (p : Nat → Bool)
  /-- `promo` at `k` becomes `v`. -/
  | promo (k : Nat) (v : Option Promo)
  /-- The keys of `promo` that satisfy `p` read their reset value again. -/
  | promoDrop (p : Nat → Bool)
  /-- `promoJob` at `k` becomes `v`. -/
  | promoJob (k : Nat) (v : Option PromoJob)
  /-- The keys of `promoJob` that satisfy `p` read their reset value again. -/
  | promoJobDrop (p : Nat → Bool)
  /-- `promoReads` at `k` becomes `v`. -/
  | promoReads (k : Nat) (v : Nat × Nat)
  /-- The keys of `promoReads` that satisfy `p` read their reset value again. -/
  | promoReadsDrop (p : Nat → Bool)
  /-- `frameBusy` at `k` becomes `v`. -/
  | frameBusy (k : Nat) (v : Bool)
  /-- The keys of `frameBusy` that satisfy `p` read their reset value again. -/
  | frameBusyDrop (p : Nat → Bool)
  /-- `promoTick` becomes `v`. -/
  | promoTick (v : Nat)
  /-- `heldWrites` becomes `v`. -/
  | heldWrites (v : List HeldWrite)
  /-- `lineTick` becomes `v`. -/
  | lineTick (v : Nat)
  /-- `dqFailed` at `k` becomes `v`. -/
  | dqFailed (k : Nat) (v : Nat)
  /-- The keys of `dqFailed` that satisfy `p` read their reset value again. -/
  | dqFailedDrop (p : Nat → Bool)
  /-- `backInval` at `k` becomes `v`. -/
  | backInval (k : Nat) (v : Nat)
  /-- The keys of `backInval` that satisfy `p` read their reset value again. -/
  | backInvalDrop (p : Nat → Bool)
  /-- `groupLost` at `k` becomes `v`. -/
  | groupLost (k : Nat) (v : Bool)
  /-- The keys of `groupLost` that satisfy `p` read their reset value again. -/
  | groupLostDrop (p : Nat → Bool)
  /-- `training` at `k` becomes `v`. -/
  | training (k : Nat) (v : Nat)
  /-- The keys of `training` that satisfy `p` read their reset value again. -/
  | trainingDrop (p : Nat → Bool)
  /-- `groupPoison` at `k` becomes `v`. -/
  | groupPoison (k : Nat) (v : Bool)
  /-- The keys of `groupPoison` that satisfy `p` read their reset value again. -/
  | groupPoisonDrop (p : Nat → Bool)
  /-- `rowErrs` at `k` becomes `v`. -/
  | rowErrs (k : Nat) (v : List Nat)
  /-- The keys of `rowErrs` that satisfy `p` read their reset value again. -/
  | rowErrsDrop (p : Nat → Bool)
  /-- `rowRepair` at `k` becomes `v`. -/
  | rowRepair (k : Nat) (v : Bool)
  /-- The keys of `rowRepair` that satisfy `p` read their reset value again. -/
  | rowRepairDrop (p : Nat → Bool)
  /-- `bankRepairs` at `k` becomes `v`. -/
  | bankRepairs (k : Nat) (v : List Nat)
  /-- The keys of `bankRepairs` that satisfy `p` read their reset value again. -/
  | bankRepairsDrop (p : Nat → Bool)
  /-- `bankCopy` at `k` becomes `v`. -/
  | bankCopy (k : Nat) (v : Bool)
  /-- The keys of `bankCopy` that satisfy `p` read their reset value again. -/
  | bankCopyDrop (p : Nat → Bool)
  /-- `spareBanks` at `k` becomes `v`. -/
  | spareBanks (k : Nat) (v : Nat)
  /-- The keys of `spareBanks` that satisfy `p` read their reset value again. -/
  | spareBanksDrop (p : Nat → Bool)
  /-- `rings` at `k` becomes `v`. -/
  | rings (k : Nat) (v : List Desc)
  /-- The keys of `rings` that satisfy `p` read their reset value again. -/
  | ringsDrop (p : Nat → Bool)
  /-- `rr` at `k` becomes `v`. -/
  | rr (k : Nat) (v : Nat)
  /-- The keys of `rr` that satisfy `p` read their reset value again. -/
  | rrDrop (p : Nat → Bool)
  /-- `keptMaps` at `k` becomes `v`. -/
  | keptMaps (k : Nat) (v : Option (Nat × List MapEntry × List MapEntry))
  /-- The keys of `keptMaps` that satisfy `p` read their reset value again. -/
  | keptMapsDrop (p : Nat → Bool)
  /-- `sent` becomes `v`. -/
  | sent (v : List OutMsg)
  /-- `lookups` at `k` becomes `v`. -/
  | lookups (k : Nat) (v : Bool)
  /-- The keys of `lookups` that satisfy `p` read their reset value again. -/
  | lookupsDrop (p : Nat → Bool)
  /-- `catalog` at `k` becomes `v`. -/
  | catalog (k : Nat) (v : CatEntry)
  /-- The keys of `catalog` that satisfy `p` read their reset value again. -/
  | catalogDrop (p : Nat → Bool)
  /-- `slotRefs` at `k` becomes `v`. -/
  | slotRefs (k : Nat) (v : List Nat)
  /-- The keys of `slotRefs` that satisfy `p` read their reset value again. -/
  | slotRefsDrop (p : Nat → Bool)
  /-- `catCopies` becomes `v`. -/
  | catCopies (v : List CatCopy)
  /-- `flsPending` becomes `v`. -/
  | flsPending (v : Option FlsJob)
  /-- `lostExt` at `k` becomes `v`. -/
  | lostExt (k : Nat) (v : Bool)
  /-- The keys of `lostExt` that satisfy `p` read their reset value again. -/
  | lostExtDrop (p : Nat → Bool)
  /-- `disturb` at `k` becomes `v`. -/
  | disturb (k : Nat) (v : Nat × Nat)
  /-- The keys of `disturb` that satisfy `p` read their reset value again. -/
  | disturbDrop (p : Nat → Bool)
  /-- `powerFails` becomes `v`. -/
  | powerFails (v : Nat)
  /-- `catGen` becomes `v`. -/
  | catGen (v : Nat)
  /-- `relocQueue` becomes `v`. -/
  | relocQueue (v : List Nat)
  /-- `flashDead` at `k` becomes `v`. -/
  | flashDead (k : Nat) (v : Bool)
  /-- The keys of `flashDead` that satisfy `p` read their reset value again. -/
  | flashDeadDrop (p : Nat → Bool)
  /-- `scrubPos` at `k` becomes `v`. -/
  | scrubPos (k : Nat) (v : Nat)
  /-- The keys of `scrubPos` that satisfy `p` read their reset value again. -/
  | scrubPosDrop (p : Nat → Bool)
  /-- `rebuildQueue` becomes `v`. -/
  | rebuildQueue (v : List Nat)
  /-- `blockMap` at `k` becomes `v`. -/
  | blockMap (k : Nat) (v : Nat)
  /-- The keys of `blockMap` that satisfy `p` read their reset value again. -/
  | blockMapDrop (p : Nat → Bool)
  /-- `erases` at `k` becomes `v`. -/
  | erases (k : Nat) (v : Nat)
  /-- The keys of `erases` that satisfy `p` read their reset value again. -/
  | erasesDrop (p : Nat → Bool)
  /-- `badBlocks` at `k` becomes `v`. -/
  | badBlocks (k : Nat) (v : Bool)
  /-- The keys of `badBlocks` that satisfy `p` read their reset value again. -/
  | badBlocksDrop (p : Nat → Bool)
  /-- `streamers` at `k` becomes `v`. -/
  | streamers (k : Nat) (v : Option Streamer)
  /-- The keys of `streamers` that satisfy `p` read their reset value again. -/
  | streamersDrop (p : Nat → Bool)
  /-- `rootKeys` at `k` becomes `v`. -/
  | rootKeys (k : Nat) (v : List Byte)
  /-- The keys of `rootKeys` that satisfy `p` read their reset value again. -/
  | rootKeysDrop (p : Nat → Bool)
  /-- `colGroups` at `k` becomes `v`. -/
  | colGroups (k : Nat) (v : ColEntry)
  /-- The keys of `colGroups` that satisfy `p` read their reset value again. -/
  | colGroupsDrop (p : Nat → Bool)
  /-- `moved` at `k` becomes `v`. -/
  | moved (k : Nat) (v : Bool)
  /-- The keys of `moved` that satisfy `p` read their reset value again. -/
  | movedDrop (p : Nat → Bool)
  /-- `pfxNodes` at `k` becomes `v`. -/
  | pfxNodes (k : Nat) (v : Option PfxNode)
  /-- The keys of `pfxNodes` that satisfy `p` read their reset value again. -/
  | pfxNodesDrop (p : Nat → Bool)
  /-- `pfxRefs` at `k` becomes `v`. -/
  | pfxRefs (k : Nat) (v : Nat)
  /-- The keys of `pfxRefs` that satisfy `p` read their reset value again. -/
  | pfxRefsDrop (p : Nat → Bool)
  /-- `pfxKeys` at `k` becomes `v`. -/
  | pfxKeys (k : Nat) (v : Nat)
  /-- The keys of `pfxKeys` that satisfy `p` read their reset value again. -/
  | pfxKeysDrop (p : Nat → Bool)
  /-- `pfxLost` at `k` becomes `v`. -/
  | pfxLost (k : Nat) (v : Bool)
  /-- The keys of `pfxLost` that satisfy `p` read their reset value again. -/
  | pfxLostDrop (p : Nat → Bool)
  /-- `seqTails` at `k` becomes `v`. -/
  | seqTails (k : Nat) (v : Option Nat)
  /-- The keys of `seqTails` that satisfy `p` read their reset value again. -/
  | seqTailsDrop (p : Nat → Bool)
  /-- `seqService` at `k` becomes `v`. -/
  | seqService (k : Nat) (v : Option Nat)
  /-- The keys of `seqService` that satisfy `p` read their reset value again. -/
  | seqServiceDrop (p : Nat → Bool)
  /-- `ports` at `k` becomes `v`. -/
  | ports (k : Nat) (v : Port)
  /-- The keys of `ports` that satisfy `p` read their reset value again. -/
  | portsDrop (p : Nat → Bool)
  /-- `egress` at `k` becomes `v`. -/
  | egress (k : Nat) (v : List Packet)
  /-- The keys of `egress` that satisfy `p` read their reset value again. -/
  | egressDrop (p : Nat → Bool)
  /-- `nbrs` at `k` becomes `v`. -/
  | nbrs (k : Nat) (v : Option Nbr)
  /-- The keys of `nbrs` that satisfy `p` read their reset value again. -/
  | nbrsDrop (p : Nat → Bool)
  /-- `flows` at `k` becomes `v`. -/
  | flows (k : Nat) (v : Flow)
  /-- The keys of `flows` that satisfy `p` read their reset value again. -/
  | flowsDrop (p : Nat → Bool)
  /-- `routes` at `k` becomes `v`. -/
  | routes (k : Nat) (v : Word)
  /-- The keys of `routes` that satisfy `p` read their reset value again. -/
  | routesDrop (p : Nat → Bool)
  /-- `topo` becomes `v`. -/
  | topo (v : List TopoDev)
  /-- `prom` becomes `v`. -/
  | prom (v : Prom)
  /-- `board` becomes `v`. -/
  | board (v : List Byte)
  /-- `sideband` at `k` becomes `v`. -/
  | sideband (k : Nat) (v : List Byte)
  /-- The keys of `sideband` that satisfy `p` read their reset value again. -/
  | sidebandDrop (p : Nat → Bool)
  /-- `linkKeys` at `k` becomes `v`. -/
  | linkKeys (k : Nat) (v : LinkKey)
  /-- The keys of `linkKeys` that satisfy `p` read their reset value again. -/
  | linkKeysDrop (p : Nat → Bool)
  /-- `linkSeen` at `k` becomes `v`. -/
  | linkSeen (k : Nat) (v : List LinkSeen)
  /-- The keys of `linkSeen` that satisfy `p` read their reset value again. -/
  | linkSeenDrop (p : Nat → Bool)
  /-- `tenantKeys` at `k` becomes `v`. -/
  | tenantKeys (k : Nat) (v : Option TenantKey)
  /-- The keys of `tenantKeys` that satisfy `p` read their reset value again. -/
  | tenantKeysDrop (p : Nat → Bool)
  /-- `colOps` at `k` becomes `v`. -/
  | colOps (k : Nat) (v : Option ColOp)
  /-- The keys of `colOps` that satisfy `p` read their reset value again. -/
  | colOpsDrop (p : Nat → Bool)
  /-- `sessions` at `k` becomes `v`. -/
  | sessions (k : Nat) (v : Option Session)
  /-- The keys of `sessions` that satisfy `p` read their reset value again. -/
  | sessionsDrop (p : Nat → Bool)
  /-- `ingPubs` at `k` becomes `v`. -/
  | ingPubs (k : Nat) (v : Nat)
  /-- The keys of `ingPubs` that satisfy `p` read their reset value again. -/
  | ingPubsDrop (p : Nat → Bool)
  /-- `ingReplaced` at `k` becomes `v`. -/
  | ingReplaced (k : Nat) (v : Nat)
  /-- The keys of `ingReplaced` that satisfy `p` read their reset value again. -/
  | ingReplacedDrop (p : Nat → Bool)
  /-- `ingClear` at `k` becomes `v`. -/
  | ingClear (k : Nat) (v : Bool)
  /-- The keys of `ingClear` that satisfy `p` read their reset value again. -/
  | ingClearDrop (p : Nat → Bool)
  /-- `off` becomes `v`. -/
  | off (v : Nat)
  /-- `vin` becomes `v`. -/
  | vin (v : Vin)
  /-- `tripped` becomes `v`. -/
  | tripped (v : Bool)
  /-- `clkHeld` at `k` becomes `v`. -/
  | clkHeld (k : Nat) (v : List (Nat × Nat))
  /-- The keys of `clkHeld` that satisfy `p` read their reset value again. -/
  | clkHeldDrop (p : Nat → Bool)
  /-- `restCores` becomes `v`. -/
  | restCores (v : List Nat)
  /-- `restLinks` becomes `v`. -/
  | restLinks (v : List Nat)
  /-- `restFrom` becomes `v`. -/
  | restFrom (v : Nat)
  /-- `electric` becomes `v`. -/
  | electric (v : List Bool)
  /-- `memKey` at `k` becomes `v`. -/
  | memKey (k : Nat) (v : List Byte)
  /-- The keys of `memKey` that satisfy `p` read their reset value again. -/
  | memKeyDrop (p : Nat → Bool)
  /-- `idKey` becomes `v`. -/
  | idKey (v : Option Nat)
  /-- `sealKey` becomes `v`. -/
  | sealKey (v : List Byte)
  /-- `debugNonce` becomes `v`. -/
  | debugNonce (v : List Byte)
  /-- `secPending` at `k` becomes `v`. -/
  | secPending (k : Nat) (v : Option (Nat × Nat × Nat))
  /-- The keys of `secPending` that satisfy `p` read their reset value again. -/
  | secPendingDrop (p : Nat → Bool)
  /-- `keysLost` becomes `v`. -/
  | keysLost (v : Bool)
  /-- `quarLatch` becomes `v`. -/
  | quarLatch (v : Bool)
  /-- `fwDigest` becomes `v`. -/
  | fwDigest (v : List Byte)
  /-- `fwVersion` becomes `v`. -/
  | fwVersion (v : Nat)
  /-- `fwPending` becomes `v`. -/
  | fwPending (v : Option (Nat × Nat × Nat))
  /-- `bootFlash` at `k` becomes `v`. -/
  | bootFlash (k : Nat) (v : Byte)
  /-- The keys of `bootFlash` that satisfy `p` read their reset value again. -/
  | bootFlashDrop (p : Nat → Bool)
  /-- `recBuf` becomes `v`. -/
  | recBuf (v : List Byte)
  /-- `recCmd` becomes `v`. -/
  | recCmd (v : Nat × Nat)
  /-- `pciHeld` at `k` becomes `v`. -/
  | pciHeld (k : Nat) (v : Bool)
  /-- The keys of `pciHeld` that satisfy `p` read their reset value again. -/
  | pciHeldDrop (p : Nat → Bool)
  /-- `dbBind` at `k` becomes `v`. -/
  | dbBind (k : Nat) (v : Option Nat)
  /-- The keys of `dbBind` that satisfy `p` read their reset value again. -/
  | dbBindDrop (p : Nat → Bool)
  /-- `halfRead` at `k` becomes `v`. -/
  | halfRead (k : Nat) (v : Option (Nat × Nat))
  /-- The keys of `halfRead` that satisfy `p` read their reset value again. -/
  | halfReadDrop (p : Nat → Bool)
  /-- `halfWrite` at `k` becomes `v`. -/
  | halfWrite (k : Nat) (v : Option (Nat × Nat))
  /-- The keys of `halfWrite` that satisfy `p` read their reset value again. -/
  | halfWriteDrop (p : Nat → Bool)
  /-- `receiver` becomes `v`. -/
  | receiver (v : Option Nat)
  /-- `sensors` at `k` becomes `v`. -/
  | sensors (k : Nat) (v : Nat)
  /-- The keys of `sensors` that satisfy `p` read their reset value again. -/
  | sensorsDrop (p : Nat → Bool)
  /-- `coldPlate` becomes `v`. -/
  | coldPlate (v : List Byte)
  /-- `gov` becomes `v`. -/
  | gov (v : Gov)
  /-- `sustCap` becomes `v`. -/
  | sustCap (v : Nat)
  /-- `unclean` becomes `v`. -/
  | unclean (v : Bool)
  /-- `peakMs` becomes `v`. -/
  | peakMs (v : Nat)
  /-- `laneMarks` at `k` becomes `v`. -/
  | laneMarks (k : Nat) (v : Bool)
  /-- The keys of `laneMarks` that satisfy `p` read their reset value again. -/
  | laneMarksDrop (p : Nat → Bool)
  /-- `marked` at `k` becomes `v`. -/
  | marked (k : Nat) (v : Bool)
  /-- The keys of `marked` that satisfy `p` read their reset value again. -/
  | markedDrop (p : Nat → Bool)
  /-- `oldMargin` becomes `v`. -/
  | oldMargin (v : MapCopy)
  /-- `oldSpare` becomes `v`. -/
  | oldSpare (v : MapCopy)
  /-- `oldLog` becomes `v`. -/
  | oldLog (v : LogCopy)

/-- The block after one change. -/
def Upd.apply : Upd → Device → Device
  | .regs k v, d => { d with regs := mapSet dfltRegs d.regs k v }
  | .regsDrop p, d => { d with regs := mapDrop p d.regs }
  | .replies k v, d => { d with replies := mapSet dfltReplies d.replies k v }
  | .repliesDrop p, d => { d with replies := mapDrop p d.replies }
  | .mem k v, d => { d with mem := mapSet dfltMem d.mem k v }
  | .memDrop p, d => { d with mem := mapDrop p d.mem }
  | .poison k v, d => { d with poison := mapSet dfltPoison d.poison k v }
  | .poisonDrop p, d => { d with poison := mapDrop p d.poison }
  | .tmem k v, d => { d with tmem := mapSet dfltTmem d.tmem k v }
  | .tmemDrop p, d => { d with tmem := mapDrop p d.tmem }
  | .tpoison k v, d => { d with tpoison := mapSet dfltTpoison d.tpoison k v }
  | .tpoisonDrop p, d => { d with tpoison := mapDrop p d.tpoison }
  | .acc k v, d => { d with acc := mapSet dfltAcc d.acc k v }
  | .accDrop p, d => { d with acc := mapDrop p d.acc }
  | .shadow k v, d => { d with shadow := mapSet dfltShadow d.shadow k v }
  | .shadowDrop p, d => { d with shadow := mapDrop p d.shadow }
  | .cores k v, d => { d with cores := mapSet dfltCores d.cores k v }
  | .coresDrop p, d => { d with cores := mapDrop p d.cores }
  | .cues k v, d => { d with cues := mapSet dfltCues d.cues k v }
  | .cuesDrop p, d => { d with cues := mapDrop p d.cues }
  | .slots k v, d => { d with slots := mapSet dfltSlots d.slots k v }
  | .slotsDrop p, d => { d with slots := mapDrop p d.slots }
  | .loadQueue v, d => { d with loadQueue := v }
  | .loading v, d => { d with loading := v }
  | .switches k v, d => { d with switches := mapSet dfltSwitches d.switches k v }
  | .switchesDrop p, d => { d with switches := mapDrop p d.switches }
  | .patches k v, d => { d with patches := mapSet dfltPatches d.patches k v }
  | .patchesDrop p, d => { d with patches := mapDrop p d.patches }
  | .ctxs k v, d => { d with ctxs := mapSet dfltCtxs d.ctxs k v }
  | .ctxsDrop p, d => { d with ctxs := mapDrop p d.ctxs }
  | .preempts v, d => { d with preempts := v }
  | .held k v, d => { d with held := mapSet dfltHeld d.held k v }
  | .heldDrop p, d => { d with held := mapDrop p d.held }
  | .sems k v, d => { d with sems := mapSet dfltSems d.sems k v }
  | .semsDrop p, d => { d with sems := mapDrop p d.sems }
  | .strBuf k v, d => { d with strBuf := mapSet dfltStrBuf d.strBuf k v }
  | .strBufDrop p, d => { d with strBuf := mapDrop p d.strBuf }
  | .epochs k v, d => { d with epochs := mapSet dfltEpochs d.epochs k v }
  | .epochsDrop p, d => { d with epochs := mapDrop p d.epochs }
  | .heldTiles k v, d => { d with heldTiles := mapSet dfltHeldTiles d.heldTiles k v }
  | .heldTilesDrop p, d => { d with heldTiles := mapDrop p d.heldTiles }
  | .halos k v, d => { d with halos := mapSet dfltHalos d.halos k v }
  | .halosDrop p, d => { d with halos := mapDrop p d.halos }
  | .buckets k v, d => { d with buckets := mapSet dfltBuckets d.buckets k v }
  | .bucketsDrop p, d => { d with buckets := mapDrop p d.buckets }
  | .retired k v, d => { d with retired := mapSet dfltRetired d.retired k v }
  | .retiredDrop p, d => { d with retired := mapDrop p d.retired }
  | .applied k v, d => { d with applied := mapSet dfltApplied d.applied k v }
  | .appliedDrop p, d => { d with applied := mapDrop p d.applied }
  | .dieSpare v, d => { d with dieSpare := v }
  | .lastPass v, d => { d with lastPass := v }
  | .routesStale v, d => { d with routesStale := v }
  | .noTransit k v, d => { d with noTransit := mapSet dfltNoTransit d.noTransit k v }
  | .noTransitDrop p, d => { d with noTransit := mapDrop p d.noTransit }
  | .flog v, d => { d with flog := v }
  | .flogHead v, d => { d with flogHead := v }
  | .msix k v, d => { d with msix := mapSet dfltMsix d.msix k v }
  | .msixDrop p, d => { d with msix := mapDrop p d.msix }
  | .pldmEvents v, d => { d with pldmEvents := v }
  | .flogSaved v, d => { d with flogSaved := v }
  | .nvMargin v, d => { d with nvMargin := v }
  | .nvSpare v, d => { d with nvSpare := v }
  | .nvLog v, d => { d with nvLog := v }
  | .selfTest v, d => { d with selfTest := v }
  | .ages k v, d => { d with ages := mapSet dfltAges d.ages k v }
  | .agesDrop p, d => { d with ages := mapDrop p d.ages }
  | .flagged k v, d => { d with flagged := mapSet dfltFlagged d.flagged k v }
  | .flaggedDrop p, d => { d with flagged := mapDrop p d.flagged }
  | .free v, d => { d with free := v }
  | .drvMap k v, d => { d with drvMap := mapSet dfltDrvMap d.drvMap k v }
  | .drvMapDrop p, d => { d with drvMap := mapDrop p d.drvMap }
  | .lines k v, d => { d with lines := mapSet dfltLines d.lines k v }
  | .linesDrop p, d => { d with lines := mapDrop p d.lines }
  | .xlats k v, d => { d with xlats := mapSet dfltXlats d.xlats k v }
  | .xlatsDrop p, d => { d with xlats := mapDrop p d.xlats }
  | .promo k v, d => { d with promo := mapSet dfltPromo d.promo k v }
  | .promoDrop p, d => { d with promo := mapDrop p d.promo }
  | .promoJob k v, d => { d with promoJob := mapSet dfltPromoJob d.promoJob k v }
  | .promoJobDrop p, d => { d with promoJob := mapDrop p d.promoJob }
  | .promoReads k v, d => { d with promoReads := mapSet dfltPromoReads d.promoReads k v }
  | .promoReadsDrop p, d => { d with promoReads := mapDrop p d.promoReads }
  | .frameBusy k v, d => { d with frameBusy := mapSet dfltFrameBusy d.frameBusy k v }
  | .frameBusyDrop p, d => { d with frameBusy := mapDrop p d.frameBusy }
  | .promoTick v, d => { d with promoTick := v }
  | .heldWrites v, d => { d with heldWrites := v }
  | .lineTick v, d => { d with lineTick := v }
  | .dqFailed k v, d => { d with dqFailed := mapSet dfltDqFailed d.dqFailed k v }
  | .dqFailedDrop p, d => { d with dqFailed := mapDrop p d.dqFailed }
  | .backInval k v, d => { d with backInval := mapSet dfltBackInval d.backInval k v }
  | .backInvalDrop p, d => { d with backInval := mapDrop p d.backInval }
  | .groupLost k v, d => { d with groupLost := mapSet dfltGroupLost d.groupLost k v }
  | .groupLostDrop p, d => { d with groupLost := mapDrop p d.groupLost }
  | .training k v, d => { d with training := mapSet dfltTraining d.training k v }
  | .trainingDrop p, d => { d with training := mapDrop p d.training }
  | .groupPoison k v, d => { d with groupPoison := mapSet dfltGroupPoison d.groupPoison k v }
  | .groupPoisonDrop p, d => { d with groupPoison := mapDrop p d.groupPoison }
  | .rowErrs k v, d => { d with rowErrs := mapSet dfltRowErrs d.rowErrs k v }
  | .rowErrsDrop p, d => { d with rowErrs := mapDrop p d.rowErrs }
  | .rowRepair k v, d => { d with rowRepair := mapSet dfltRowRepair d.rowRepair k v }
  | .rowRepairDrop p, d => { d with rowRepair := mapDrop p d.rowRepair }
  | .bankRepairs k v, d => { d with bankRepairs := mapSet dfltBankRepairs d.bankRepairs k v }
  | .bankRepairsDrop p, d => { d with bankRepairs := mapDrop p d.bankRepairs }
  | .bankCopy k v, d => { d with bankCopy := mapSet dfltBankCopy d.bankCopy k v }
  | .bankCopyDrop p, d => { d with bankCopy := mapDrop p d.bankCopy }
  | .spareBanks k v, d => { d with spareBanks := mapSet dfltSpareBanks d.spareBanks k v }
  | .spareBanksDrop p, d => { d with spareBanks := mapDrop p d.spareBanks }
  | .rings k v, d => { d with rings := mapSet dfltRings d.rings k v }
  | .ringsDrop p, d => { d with rings := mapDrop p d.rings }
  | .rr k v, d => { d with rr := mapSet dfltRr d.rr k v }
  | .rrDrop p, d => { d with rr := mapDrop p d.rr }
  | .keptMaps k v, d => { d with keptMaps := mapSet dfltKeptMaps d.keptMaps k v }
  | .keptMapsDrop p, d => { d with keptMaps := mapDrop p d.keptMaps }
  | .sent v, d => { d with sent := v }
  | .lookups k v, d => { d with lookups := mapSet dfltLookups d.lookups k v }
  | .lookupsDrop p, d => { d with lookups := mapDrop p d.lookups }
  | .catalog k v, d => { d with catalog := mapSet dfltCatalog d.catalog k v }
  | .catalogDrop p, d => { d with catalog := mapDrop p d.catalog }
  | .slotRefs k v, d => { d with slotRefs := mapSet dfltSlotRefs d.slotRefs k v }
  | .slotRefsDrop p, d => { d with slotRefs := mapDrop p d.slotRefs }
  | .catCopies v, d => { d with catCopies := v }
  | .flsPending v, d => { d with flsPending := v }
  | .lostExt k v, d => { d with lostExt := mapSet dfltLostExt d.lostExt k v }
  | .lostExtDrop p, d => { d with lostExt := mapDrop p d.lostExt }
  | .disturb k v, d => { d with disturb := mapSet dfltDisturb d.disturb k v }
  | .disturbDrop p, d => { d with disturb := mapDrop p d.disturb }
  | .powerFails v, d => { d with powerFails := v }
  | .catGen v, d => { d with catGen := v }
  | .relocQueue v, d => { d with relocQueue := v }
  | .flashDead k v, d => { d with flashDead := mapSet dfltFlashDead d.flashDead k v }
  | .flashDeadDrop p, d => { d with flashDead := mapDrop p d.flashDead }
  | .scrubPos k v, d => { d with scrubPos := mapSet dfltScrubPos d.scrubPos k v }
  | .scrubPosDrop p, d => { d with scrubPos := mapDrop p d.scrubPos }
  | .rebuildQueue v, d => { d with rebuildQueue := v }
  | .blockMap k v, d => { d with blockMap := mapSet dfltBlockMap d.blockMap k v }
  | .blockMapDrop p, d => { d with blockMap := mapDrop p d.blockMap }
  | .erases k v, d => { d with erases := mapSet dfltErases d.erases k v }
  | .erasesDrop p, d => { d with erases := mapDrop p d.erases }
  | .badBlocks k v, d => { d with badBlocks := mapSet dfltBadBlocks d.badBlocks k v }
  | .badBlocksDrop p, d => { d with badBlocks := mapDrop p d.badBlocks }
  | .streamers k v, d => { d with streamers := mapSet dfltStreamers d.streamers k v }
  | .streamersDrop p, d => { d with streamers := mapDrop p d.streamers }
  | .rootKeys k v, d => { d with rootKeys := mapSet dfltRootKeys d.rootKeys k v }
  | .rootKeysDrop p, d => { d with rootKeys := mapDrop p d.rootKeys }
  | .colGroups k v, d => { d with colGroups := mapSet dfltColGroups d.colGroups k v }
  | .colGroupsDrop p, d => { d with colGroups := mapDrop p d.colGroups }
  | .moved k v, d => { d with moved := mapSet dfltMoved d.moved k v }
  | .movedDrop p, d => { d with moved := mapDrop p d.moved }
  | .pfxNodes k v, d => { d with pfxNodes := mapSet dfltPfxNodes d.pfxNodes k v }
  | .pfxNodesDrop p, d => { d with pfxNodes := mapDrop p d.pfxNodes }
  | .pfxRefs k v, d => { d with pfxRefs := mapSet dfltPfxRefs d.pfxRefs k v }
  | .pfxRefsDrop p, d => { d with pfxRefs := mapDrop p d.pfxRefs }
  | .pfxKeys k v, d => { d with pfxKeys := mapSet dfltPfxKeys d.pfxKeys k v }
  | .pfxKeysDrop p, d => { d with pfxKeys := mapDrop p d.pfxKeys }
  | .pfxLost k v, d => { d with pfxLost := mapSet dfltPfxLost d.pfxLost k v }
  | .pfxLostDrop p, d => { d with pfxLost := mapDrop p d.pfxLost }
  | .seqTails k v, d => { d with seqTails := mapSet dfltSeqTails d.seqTails k v }
  | .seqTailsDrop p, d => { d with seqTails := mapDrop p d.seqTails }
  | .seqService k v, d => { d with seqService := mapSet dfltSeqService d.seqService k v }
  | .seqServiceDrop p, d => { d with seqService := mapDrop p d.seqService }
  | .ports k v, d => { d with ports := mapSet dfltPorts d.ports k v }
  | .portsDrop p, d => { d with ports := mapDrop p d.ports }
  | .egress k v, d => { d with egress := mapSet dfltEgress d.egress k v }
  | .egressDrop p, d => { d with egress := mapDrop p d.egress }
  | .nbrs k v, d => { d with nbrs := mapSet dfltNbrs d.nbrs k v }
  | .nbrsDrop p, d => { d with nbrs := mapDrop p d.nbrs }
  | .flows k v, d => { d with flows := mapSet dfltFlows d.flows k v }
  | .flowsDrop p, d => { d with flows := mapDrop p d.flows }
  | .routes k v, d => { d with routes := mapSet dfltRoutes d.routes k v }
  | .routesDrop p, d => { d with routes := mapDrop p d.routes }
  | .topo v, d => { d with topo := v }
  | .prom v, d => { d with prom := v }
  | .board v, d => { d with board := v }
  | .sideband k v, d => { d with sideband := mapSet dfltSideband d.sideband k v }
  | .sidebandDrop p, d => { d with sideband := mapDrop p d.sideband }
  | .linkKeys k v, d => { d with linkKeys := mapSet dfltLinkKeys d.linkKeys k v }
  | .linkKeysDrop p, d => { d with linkKeys := mapDrop p d.linkKeys }
  | .linkSeen k v, d => { d with linkSeen := mapSet dfltLinkSeen d.linkSeen k v }
  | .linkSeenDrop p, d => { d with linkSeen := mapDrop p d.linkSeen }
  | .tenantKeys k v, d => { d with tenantKeys := mapSet dfltTenantKeys d.tenantKeys k v }
  | .tenantKeysDrop p, d => { d with tenantKeys := mapDrop p d.tenantKeys }
  | .colOps k v, d => { d with colOps := mapSet dfltColOps d.colOps k v }
  | .colOpsDrop p, d => { d with colOps := mapDrop p d.colOps }
  | .sessions k v, d => { d with sessions := mapSet dfltSessions d.sessions k v }
  | .sessionsDrop p, d => { d with sessions := mapDrop p d.sessions }
  | .ingPubs k v, d => { d with ingPubs := mapSet dfltIngPubs d.ingPubs k v }
  | .ingPubsDrop p, d => { d with ingPubs := mapDrop p d.ingPubs }
  | .ingReplaced k v, d => { d with ingReplaced := mapSet dfltIngReplaced d.ingReplaced k v }
  | .ingReplacedDrop p, d => { d with ingReplaced := mapDrop p d.ingReplaced }
  | .ingClear k v, d => { d with ingClear := mapSet dfltIngClear d.ingClear k v }
  | .ingClearDrop p, d => { d with ingClear := mapDrop p d.ingClear }
  | .off v, d => { d with off := v }
  | .vin v, d => { d with vin := v }
  | .tripped v, d => { d with tripped := v }
  | .clkHeld k v, d => { d with clkHeld := mapSet dfltClkHeld d.clkHeld k v }
  | .clkHeldDrop p, d => { d with clkHeld := mapDrop p d.clkHeld }
  | .restCores v, d => { d with restCores := v }
  | .restLinks v, d => { d with restLinks := v }
  | .restFrom v, d => { d with restFrom := v }
  | .electric v, d => { d with electric := v }
  | .memKey k v, d => { d with memKey := mapSet dfltMemKey d.memKey k v }
  | .memKeyDrop p, d => { d with memKey := mapDrop p d.memKey }
  | .idKey v, d => { d with idKey := v }
  | .sealKey v, d => { d with sealKey := v }
  | .debugNonce v, d => { d with debugNonce := v }
  | .secPending k v, d => { d with secPending := mapSet dfltSecPending d.secPending k v }
  | .secPendingDrop p, d => { d with secPending := mapDrop p d.secPending }
  | .keysLost v, d => { d with keysLost := v }
  | .quarLatch v, d => { d with quarLatch := v }
  | .fwDigest v, d => { d with fwDigest := v }
  | .fwVersion v, d => { d with fwVersion := v }
  | .fwPending v, d => { d with fwPending := v }
  | .bootFlash k v, d => { d with bootFlash := mapSet dfltBootFlash d.bootFlash k v }
  | .bootFlashDrop p, d => { d with bootFlash := mapDrop p d.bootFlash }
  | .recBuf v, d => { d with recBuf := v }
  | .recCmd v, d => { d with recCmd := v }
  | .pciHeld k v, d => { d with pciHeld := mapSet dfltPciHeld d.pciHeld k v }
  | .pciHeldDrop p, d => { d with pciHeld := mapDrop p d.pciHeld }
  | .dbBind k v, d => { d with dbBind := mapSet dfltDbBind d.dbBind k v }
  | .dbBindDrop p, d => { d with dbBind := mapDrop p d.dbBind }
  | .halfRead k v, d => { d with halfRead := mapSet dfltHalfRead d.halfRead k v }
  | .halfReadDrop p, d => { d with halfRead := mapDrop p d.halfRead }
  | .halfWrite k v, d => { d with halfWrite := mapSet dfltHalfWrite d.halfWrite k v }
  | .halfWriteDrop p, d => { d with halfWrite := mapDrop p d.halfWrite }
  | .receiver v, d => { d with receiver := v }
  | .sensors k v, d => { d with sensors := mapSet dfltSensors d.sensors k v }
  | .sensorsDrop p, d => { d with sensors := mapDrop p d.sensors }
  | .coldPlate v, d => { d with coldPlate := v }
  | .gov v, d => { d with gov := v }
  | .sustCap v, d => { d with sustCap := v }
  | .unclean v, d => { d with unclean := v }
  | .peakMs v, d => { d with peakMs := v }
  | .laneMarks k v, d => { d with laneMarks := mapSet dfltLaneMarks d.laneMarks k v }
  | .laneMarksDrop p, d => { d with laneMarks := mapDrop p d.laneMarks }
  | .marked k v, d => { d with marked := mapSet dfltMarked d.marked k v }
  | .markedDrop p, d => { d with marked := mapDrop p d.marked }
  | .oldMargin v, d => { d with oldMargin := v }
  | .oldSpare v, d => { d with oldSpare := v }
  | .oldLog v, d => { d with oldLog := v }

/-- An effect: nothing, one change, one effect after another, or an effect that depends on the block as it then is. -/
inductive Eff where
  | skip
  | upd (u : Upd)
  | seq (a b : Eff)
  | obs (k : Device → Eff)

/-- The block after an effect. -/
def Eff.run : Eff → Device → Device
  | .skip, d => d
  | .upd u, d => u.apply d
  | .seq a b, d => b.run (a.run d)
  | .obs k, d => (k d).run d

/-- One effect after another, in the order listed. -/
def Eff.all : List Eff → Eff
  | [] => .skip
  | e :: es => .seq e (Eff.all es)

/-- The effect `f x` for every `x` of a list, in order. -/
def Eff.each {α : Type} (xs : List α) (f : α → Eff) : Eff := Eff.all (xs.map f)

/-- The effect `e` where `c` holds, else nothing. -/
def Eff.when (c : Bool) (e : Eff) : Eff := if c then e else .skip

/-- Change `regs` at `k` by `f`. -/
def modRegs (k : Nat) (f : Word → Word) : Eff := .obs fun d => .upd (.regs k (f (d.regsAt k)))

def putRegs (k : Nat) (v : Word) : Eff := .upd (.regs k v)

/-- Change `replies` at `k` by `f`. -/
def modReplies (k : Nat) (f : Word → Word) : Eff := .obs fun d => .upd (.replies k (f (d.repliesAt k)))

def putReplies (k : Nat) (v : Word) : Eff := .upd (.replies k v)

/-- Change `mem` at `k` by `f`. -/
def modMem (k : Nat) (f : Byte → Byte) : Eff := .obs fun d => .upd (.mem k (f (d.memAt k)))

def putMem (k : Nat) (v : Byte) : Eff := .upd (.mem k v)

/-- Change `poison` at `k` by `f`. -/
def modPoison (k : Nat) (f : Bool → Bool) : Eff := .obs fun d => .upd (.poison k (f (d.poisonAt k)))

def putPoison (k : Nat) (v : Bool) : Eff := .upd (.poison k v)

/-- Change `tmem` at `k` by `f`. -/
def modTmem (k : Nat) (f : Byte → Byte) : Eff := .obs fun d => .upd (.tmem k (f (d.tmemAt k)))

def putTmem (k : Nat) (v : Byte) : Eff := .upd (.tmem k v)

/-- Change `tpoison` at `k` by `f`. -/
def modTpoison (k : Nat) (f : Bool → Bool) : Eff := .obs fun d => .upd (.tpoison k (f (d.tpoisonAt k)))

def putTpoison (k : Nat) (v : Bool) : Eff := .upd (.tpoison k v)

/-- Change `acc` at `k` by `f`. -/
def modAcc (k : Nat) (f : BitVec 32 → BitVec 32) : Eff := .obs fun d => .upd (.acc k (f (d.accAt k)))

def putAcc (k : Nat) (v : BitVec 32) : Eff := .upd (.acc k v)

/-- Change `shadow` at `k` by `f`. -/
def modShadow (k : Nat) (f : BitVec 32 → BitVec 32) : Eff := .obs fun d => .upd (.shadow k (f (d.shadowAt k)))

def putShadow (k : Nat) (v : BitVec 32) : Eff := .upd (.shadow k v)

/-- Change `cores` at `k` by `f`. -/
def modCores (k : Nat) (f : Core → Core) : Eff := .obs fun d => .upd (.cores k (f (d.coresAt k)))

def putCores (k : Nat) (v : Core) : Eff := .upd (.cores k v)

/-- Change `cues` at `k` by `f`. -/
def modCues (k : Nat) (f : Cue → Cue) : Eff := .obs fun d => .upd (.cues k (f (d.cuesAt k)))

def putCues (k : Nat) (v : Cue) : Eff := .upd (.cues k v)

/-- Change `slots` at `k` by `f`. -/
def modSlots (k : Nat) (f : Option Figure → Option Figure) : Eff := .obs fun d => .upd (.slots k (f (d.slotsAt k)))

def putSlots (k : Nat) (v : Option Figure) : Eff := .upd (.slots k v)

/-- Change `loadQueue` by `f`. -/
def modLoadQueue (f : List LoadReq → List LoadReq) : Eff := .obs fun d => .upd (.loadQueue (f d.loadQueue))

def putLoadQueue (v : List LoadReq) : Eff := .upd (.loadQueue v)

/-- Change `loading` by `f`. -/
def modLoading (f : List LoadReq → List LoadReq) : Eff := .obs fun d => .upd (.loading (f d.loading))

def putLoading (v : List LoadReq) : Eff := .upd (.loading v)

/-- Change `switches` at `k` by `f`. -/
def modSwitches (k : Nat) (f : Option SwitchReq → Option SwitchReq) : Eff := .obs fun d => .upd (.switches k (f (d.switchesAt k)))

def putSwitches (k : Nat) (v : Option SwitchReq) : Eff := .upd (.switches k v)

/-- Change `patches` at `k` by `f`. -/
def modPatches (k : Nat) (f : List PendingPatch → List PendingPatch) : Eff := .obs fun d => .upd (.patches k (f (d.patchesAt k)))

def putPatches (k : Nat) (v : List PendingPatch) : Eff := .upd (.patches k v)

/-- Change `ctxs` at `k` by `f`. -/
def modCtxs (k : Nat) (f : Ctx → Ctx) : Eff := .obs fun d => .upd (.ctxs k (f (d.ctxsAt k)))

def putCtxs (k : Nat) (v : Ctx) : Eff := .upd (.ctxs k v)

/-- Change `preempts` by `f`. -/
def modPreempts (f : List Preempt → List Preempt) : Eff := .obs fun d => .upd (.preempts (f d.preempts))

def putPreempts (v : List Preempt) : Eff := .upd (.preempts v)

/-- Change `held` at `k` by `f`. -/
def modHeld (k : Nat) (f : List Held → List Held) : Eff := .obs fun d => .upd (.held k (f (d.heldAt k)))

def putHeld (k : Nat) (v : List Held) : Eff := .upd (.held k v)

/-- Change `sems` at `k` by `f`. -/
def modSems (k : Nat) (f : Sem → Sem) : Eff := .obs fun d => .upd (.sems k (f (d.semsAt k)))

def putSems (k : Nat) (v : Sem) : Eff := .upd (.sems k v)

/-- Change `strBuf` at `k` by `f`. -/
def modStrBuf (k : Nat) (f : List (List Byte) → List (List Byte)) : Eff := .obs fun d => .upd (.strBuf k (f (d.strBufAt k)))

def putStrBuf (k : Nat) (v : List (List Byte)) : Eff := .upd (.strBuf k v)

/-- Change `epochs` at `k` by `f`. -/
def modEpochs (k : Nat) (f : Nat → Nat) : Eff := .obs fun d => .upd (.epochs k (f (d.epochsAt k)))

def putEpochs (k : Nat) (v : Nat) : Eff := .upd (.epochs k v)

/-- Change `heldTiles` at `k` by `f`. -/
def modHeldTiles (k : Nat) (f : List (List Byte) → List (List Byte)) : Eff := .obs fun d => .upd (.heldTiles k (f (d.heldTilesAt k)))

def putHeldTiles (k : Nat) (v : List (List Byte)) : Eff := .upd (.heldTiles k v)

/-- Change `halos` at `k` by `f`. -/
def modHalos (k : Nat) (f : (List HeldHalo) → (List HeldHalo)) : Eff := .obs fun d => .upd (.halos k (f (d.halosAt k)))

def putHalos (k : Nat) (v : List HeldHalo) : Eff := .upd (.halos k v)

/-- Change `buckets` at `k` by `f`. -/
def modBuckets (k : Nat) (f : Nat → Nat) : Eff := .obs fun d => .upd (.buckets k (f (d.bucketsAt k)))

def putBuckets (k : Nat) (v : Nat) : Eff := .upd (.buckets k v)

/-- Change `retired` at `k` by `f`. -/
def modRetired (k : Nat) (f : Bool → Bool) : Eff := .obs fun d => .upd (.retired k (f (d.retiredAt k)))

def putRetired (k : Nat) (v : Bool) : Eff := .upd (.retired k v)

/-- Change `applied` at `k` by `f`. -/
def modApplied (k : Nat) (f : Bool → Bool) : Eff := .obs fun d => .upd (.applied k (f (d.appliedAt k)))

def putApplied (k : Nat) (v : Bool) : Eff := .upd (.applied k v)

/-- Change `dieSpare` by `f`. -/
def modDieSpare (f : (Option Nat) → (Option Nat)) : Eff := .obs fun d => .upd (.dieSpare (f d.dieSpare))

def putDieSpare (v : Option Nat) : Eff := .upd (.dieSpare v)

/-- Change `lastPass` by `f`. -/
def modLastPass (f : (Nat × Nat × Nat) → (Nat × Nat × Nat)) : Eff := .obs fun d => .upd (.lastPass (f d.lastPass))

def putLastPass (v : Nat × Nat × Nat) : Eff := .upd (.lastPass v)

/-- Change `routesStale` by `f`. -/
def modRoutesStale (f : Bool → Bool) : Eff := .obs fun d => .upd (.routesStale (f d.routesStale))

def putRoutesStale (v : Bool) : Eff := .upd (.routesStale v)

/-- Change `noTransit` at `k` by `f`. -/
def modNoTransit (k : Nat) (f : Bool → Bool) : Eff := .obs fun d => .upd (.noTransit k (f (d.noTransitAt k)))

def putNoTransit (k : Nat) (v : Bool) : Eff := .upd (.noTransit k v)

/-- Change `flog` by `f`. -/
def modFlog (f : List LogEntry → List LogEntry) : Eff := .obs fun d => .upd (.flog (f d.flog))

def putFlog (v : List LogEntry) : Eff := .upd (.flog v)

/-- Change `flogHead` by `f`. -/
def modFlogHead (f : Nat → Nat) : Eff := .obs fun d => .upd (.flogHead (f d.flogHead))

def putFlogHead (v : Nat) : Eff := .upd (.flogHead v)

/-- Change `msix` at `k` by `f`. -/
def modMsix (k : Nat) (f : Nat → Nat) : Eff := .obs fun d => .upd (.msix k (f (d.msixAt k)))

def putMsix (k : Nat) (v : Nat) : Eff := .upd (.msix k v)

/-- Change `pldmEvents` by `f`. -/
def modPldmEvents (f : List Nat → List Nat) : Eff := .obs fun d => .upd (.pldmEvents (f d.pldmEvents))

def putPldmEvents (v : List Nat) : Eff := .upd (.pldmEvents v)

/-- Change `flogSaved` by `f`. -/
def modFlogSaved (f : Nat → Nat) : Eff := .obs fun d => .upd (.flogSaved (f d.flogSaved))

def putFlogSaved (v : Nat) : Eff := .upd (.flogSaved v)

/-- Change `nvMargin` by `f`. -/
def modNvMargin (f : List MapCopy → List MapCopy) : Eff := .obs fun d => .upd (.nvMargin (f d.nvMargin))

def putNvMargin (v : List MapCopy) : Eff := .upd (.nvMargin v)

/-- Change `nvSpare` by `f`. -/
def modNvSpare (f : List MapCopy → List MapCopy) : Eff := .obs fun d => .upd (.nvSpare (f d.nvSpare))

def putNvSpare (v : List MapCopy) : Eff := .upd (.nvSpare v)

/-- Change `nvLog` by `f`. -/
def modNvLog (f : List LogCopy → List LogCopy) : Eff := .obs fun d => .upd (.nvLog (f d.nvLog))

def putNvLog (v : List LogCopy) : Eff := .upd (.nvLog v)

/-- Change `selfTest` by `f`. -/
def modSelfTest (f : Option SelfTest → Option SelfTest) : Eff := .obs fun d => .upd (.selfTest (f d.selfTest))

def putSelfTest (v : Option SelfTest) : Eff := .upd (.selfTest v)

/-- Change `ages` at `k` by `f`. -/
def modAges (k : Nat) (f : Nat → Nat) : Eff := .obs fun d => .upd (.ages k (f (d.agesAt k)))

def putAges (k : Nat) (v : Nat) : Eff := .upd (.ages k v)

/-- Change `flagged` at `k` by `f`. -/
def modFlagged (k : Nat) (f : Bool → Bool) : Eff := .obs fun d => .upd (.flagged k (f (d.flaggedAt k)))

def putFlagged (k : Nat) (v : Bool) : Eff := .upd (.flagged k v)

/-- Change `free` by `f`. -/
def modFree (f : Nat → Nat) : Eff := .obs fun d => .upd (.free (f d.free))

def putFree (v : Nat) : Eff := .upd (.free v)

/-- Change `drvMap` at `k` by `f`. -/
def modDrvMap (k : Nat) (f : List MapEntry → List MapEntry) : Eff := .obs fun d => .upd (.drvMap k (f (d.drvMapAt k)))

def putDrvMap (k : Nat) (v : List MapEntry) : Eff := .upd (.drvMap k v)

/-- Change `lines` at `k` by `f`. -/
def modLines (k : Nat) (f : (Option FloorLine) → (Option FloorLine)) : Eff := .obs fun d => .upd (.lines k (f (d.linesAt k)))

def putLines (k : Nat) (v : Option FloorLine) : Eff := .upd (.lines k v)

/-- Change `xlats` at `k` by `f`. -/
def modXlats (k : Nat) (f : (List CachedPage) → (List CachedPage)) : Eff := .obs fun d => .upd (.xlats k (f (d.xlatsAt k)))

def putXlats (k : Nat) (v : List CachedPage) : Eff := .upd (.xlats k v)

/-- Change `promo` at `k` by `f`. -/
def modPromo (k : Nat) (f : Option Promo → Option Promo) : Eff := .obs fun d => .upd (.promo k (f (d.promoAt k)))

def putPromo (k : Nat) (v : Option Promo) : Eff := .upd (.promo k v)

/-- Change `promoJob` at `k` by `f`. -/
def modPromoJob (k : Nat) (f : Option PromoJob → Option PromoJob) : Eff := .obs fun d => .upd (.promoJob k (f (d.promoJobAt k)))

def putPromoJob (k : Nat) (v : Option PromoJob) : Eff := .upd (.promoJob k v)

/-- Change `promoReads` at `k` by `f`. -/
def modPromoReads (k : Nat) (f : Nat × Nat → Nat × Nat) : Eff := .obs fun d => .upd (.promoReads k (f (d.promoReadsAt k)))

def putPromoReads (k : Nat) (v : Nat × Nat) : Eff := .upd (.promoReads k v)

/-- Change `frameBusy` at `k` by `f`. -/
def modFrameBusy (k : Nat) (f : Bool → Bool) : Eff := .obs fun d => .upd (.frameBusy k (f (d.frameBusyAt k)))

def putFrameBusy (k : Nat) (v : Bool) : Eff := .upd (.frameBusy k v)

/-- Change `promoTick` by `f`. -/
def modPromoTick (f : Nat → Nat) : Eff := .obs fun d => .upd (.promoTick (f d.promoTick))

def putPromoTick (v : Nat) : Eff := .upd (.promoTick v)

/-- Change `heldWrites` by `f`. -/
def modHeldWrites (f : (List HeldWrite) → (List HeldWrite)) : Eff := .obs fun d => .upd (.heldWrites (f d.heldWrites))

def putHeldWrites (v : List HeldWrite) : Eff := .upd (.heldWrites v)

/-- Change `lineTick` by `f`. -/
def modLineTick (f : Nat → Nat) : Eff := .obs fun d => .upd (.lineTick (f d.lineTick))

def putLineTick (v : Nat) : Eff := .upd (.lineTick v)

/-- Change `dqFailed` at `k` by `f`. -/
def modDqFailed (k : Nat) (f : Nat → Nat) : Eff := .obs fun d => .upd (.dqFailed k (f (d.dqFailedAt k)))

def putDqFailed (k : Nat) (v : Nat) : Eff := .upd (.dqFailed k v)

/-- Change `backInval` at `k` by `f`. -/
def modBackInval (k : Nat) (f : Nat → Nat) : Eff := .obs fun d => .upd (.backInval k (f (d.backInvalAt k)))

def putBackInval (k : Nat) (v : Nat) : Eff := .upd (.backInval k v)

/-- Change `groupLost` at `k` by `f`. -/
def modGroupLost (k : Nat) (f : Bool → Bool) : Eff := .obs fun d => .upd (.groupLost k (f (d.groupLostAt k)))

def putGroupLost (k : Nat) (v : Bool) : Eff := .upd (.groupLost k v)

/-- Change `training` at `k` by `f`. -/
def modTraining (k : Nat) (f : Nat → Nat) : Eff := .obs fun d => .upd (.training k (f (d.trainingAt k)))

def putTraining (k : Nat) (v : Nat) : Eff := .upd (.training k v)

/-- Change `groupPoison` at `k` by `f`. -/
def modGroupPoison (k : Nat) (f : Bool → Bool) : Eff := .obs fun d => .upd (.groupPoison k (f (d.groupPoisonAt k)))

def putGroupPoison (k : Nat) (v : Bool) : Eff := .upd (.groupPoison k v)

/-- Change `rowErrs` at `k` by `f`. -/
def modRowErrs (k : Nat) (f : List Nat → List Nat) : Eff := .obs fun d => .upd (.rowErrs k (f (d.rowErrsAt k)))

def putRowErrs (k : Nat) (v : List Nat) : Eff := .upd (.rowErrs k v)

/-- Change `rowRepair` at `k` by `f`. -/
def modRowRepair (k : Nat) (f : Bool → Bool) : Eff := .obs fun d => .upd (.rowRepair k (f (d.rowRepairAt k)))

def putRowRepair (k : Nat) (v : Bool) : Eff := .upd (.rowRepair k v)

/-- Change `bankRepairs` at `k` by `f`. -/
def modBankRepairs (k : Nat) (f : List Nat → List Nat) : Eff := .obs fun d => .upd (.bankRepairs k (f (d.bankRepairsAt k)))

def putBankRepairs (k : Nat) (v : List Nat) : Eff := .upd (.bankRepairs k v)

/-- Change `bankCopy` at `k` by `f`. -/
def modBankCopy (k : Nat) (f : Bool → Bool) : Eff := .obs fun d => .upd (.bankCopy k (f (d.bankCopyAt k)))

def putBankCopy (k : Nat) (v : Bool) : Eff := .upd (.bankCopy k v)

/-- Change `spareBanks` at `k` by `f`. -/
def modSpareBanks (k : Nat) (f : Nat → Nat) : Eff := .obs fun d => .upd (.spareBanks k (f (d.spareBanksAt k)))

def putSpareBanks (k : Nat) (v : Nat) : Eff := .upd (.spareBanks k v)

/-- Change `rings` at `k` by `f`. -/
def modRings (k : Nat) (f : List Desc → List Desc) : Eff := .obs fun d => .upd (.rings k (f (d.ringsAt k)))

def putRings (k : Nat) (v : List Desc) : Eff := .upd (.rings k v)

/-- Change `rr` at `k` by `f`. -/
def modRr (k : Nat) (f : Nat → Nat) : Eff := .obs fun d => .upd (.rr k (f (d.rrAt k)))

def putRr (k : Nat) (v : Nat) : Eff := .upd (.rr k v)

/-- Change `keptMaps` at `k` by `f`. -/
def modKeptMaps (k : Nat) (f : (Option (Nat × List MapEntry × List MapEntry)) → (Option (Nat × List MapEntry × List MapEntry))) : Eff := .obs fun d => .upd (.keptMaps k (f (d.keptMapsAt k)))

def putKeptMaps (k : Nat) (v : Option (Nat × List MapEntry × List MapEntry)) : Eff := .upd (.keptMaps k v)

/-- Change `sent` by `f`. -/
def modSent (f : List OutMsg → List OutMsg) : Eff := .obs fun d => .upd (.sent (f d.sent))

def putSent (v : List OutMsg) : Eff := .upd (.sent v)

/-- Change `lookups` at `k` by `f`. -/
def modLookups (k : Nat) (f : Bool → Bool) : Eff := .obs fun d => .upd (.lookups k (f (d.lookupsAt k)))

def putLookups (k : Nat) (v : Bool) : Eff := .upd (.lookups k v)

/-- Change `catalog` at `k` by `f`. -/
def modCatalog (k : Nat) (f : CatEntry → CatEntry) : Eff := .obs fun d => .upd (.catalog k (f (d.catalogAt k)))

def putCatalog (k : Nat) (v : CatEntry) : Eff := .upd (.catalog k v)

/-- Change `slotRefs` at `k` by `f`. -/
def modSlotRefs (k : Nat) (f : (List Nat) → (List Nat)) : Eff := .obs fun d => .upd (.slotRefs k (f (d.slotRefsAt k)))

def putSlotRefs (k : Nat) (v : List Nat) : Eff := .upd (.slotRefs k v)

/-- Change `catCopies` by `f`. -/
def modCatCopies (f : (List CatCopy) → (List CatCopy)) : Eff := .obs fun d => .upd (.catCopies (f d.catCopies))

def putCatCopies (v : List CatCopy) : Eff := .upd (.catCopies v)

/-- Change `flsPending` by `f`. -/
def modFlsPending (f : Option FlsJob → Option FlsJob) : Eff := .obs fun d => .upd (.flsPending (f d.flsPending))

def putFlsPending (v : Option FlsJob) : Eff := .upd (.flsPending v)

/-- Change `lostExt` at `k` by `f`. -/
def modLostExt (k : Nat) (f : Bool → Bool) : Eff := .obs fun d => .upd (.lostExt k (f (d.lostExtAt k)))

def putLostExt (k : Nat) (v : Bool) : Eff := .upd (.lostExt k v)

/-- Change `disturb` at `k` by `f`. -/
def modDisturb (k : Nat) (f : Nat × Nat → Nat × Nat) : Eff := .obs fun d => .upd (.disturb k (f (d.disturbAt k)))

def putDisturb (k : Nat) (v : Nat × Nat) : Eff := .upd (.disturb k v)

/-- Change `powerFails` by `f`. -/
def modPowerFails (f : Nat → Nat) : Eff := .obs fun d => .upd (.powerFails (f d.powerFails))

def putPowerFails (v : Nat) : Eff := .upd (.powerFails v)

/-- Change `catGen` by `f`. -/
def modCatGen (f : Nat → Nat) : Eff := .obs fun d => .upd (.catGen (f d.catGen))

def putCatGen (v : Nat) : Eff := .upd (.catGen v)

/-- Change `relocQueue` by `f`. -/
def modRelocQueue (f : List Nat → List Nat) : Eff := .obs fun d => .upd (.relocQueue (f d.relocQueue))

def putRelocQueue (v : List Nat) : Eff := .upd (.relocQueue v)

/-- Change `flashDead` at `k` by `f`. -/
def modFlashDead (k : Nat) (f : Bool → Bool) : Eff := .obs fun d => .upd (.flashDead k (f (d.flashDeadAt k)))

def putFlashDead (k : Nat) (v : Bool) : Eff := .upd (.flashDead k v)

/-- Change `scrubPos` at `k` by `f`. -/
def modScrubPos (k : Nat) (f : Nat → Nat) : Eff := .obs fun d => .upd (.scrubPos k (f (d.scrubPosAt k)))

def putScrubPos (k : Nat) (v : Nat) : Eff := .upd (.scrubPos k v)

/-- Change `rebuildQueue` by `f`. -/
def modRebuildQueue (f : (List Nat) → (List Nat)) : Eff := .obs fun d => .upd (.rebuildQueue (f d.rebuildQueue))

def putRebuildQueue (v : List Nat) : Eff := .upd (.rebuildQueue v)

/-- Change `blockMap` at `k` by `f`. -/
def modBlockMap (k : Nat) (f : Nat → Nat) : Eff := .obs fun d => .upd (.blockMap k (f (d.blockMapAt k)))

def putBlockMap (k : Nat) (v : Nat) : Eff := .upd (.blockMap k v)

/-- Change `erases` at `k` by `f`. -/
def modErases (k : Nat) (f : Nat → Nat) : Eff := .obs fun d => .upd (.erases k (f (d.erasesAt k)))

def putErases (k : Nat) (v : Nat) : Eff := .upd (.erases k v)

/-- Change `badBlocks` at `k` by `f`. -/
def modBadBlocks (k : Nat) (f : Bool → Bool) : Eff := .obs fun d => .upd (.badBlocks k (f (d.badBlocksAt k)))

def putBadBlocks (k : Nat) (v : Bool) : Eff := .upd (.badBlocks k v)

/-- Change `streamers` at `k` by `f`. -/
def modStreamers (k : Nat) (f : Option Streamer → Option Streamer) : Eff := .obs fun d => .upd (.streamers k (f (d.streamersAt k)))

def putStreamers (k : Nat) (v : Option Streamer) : Eff := .upd (.streamers k v)

/-- Change `rootKeys` at `k` by `f`. -/
def modRootKeys (k : Nat) (f : List Byte → List Byte) : Eff := .obs fun d => .upd (.rootKeys k (f (d.rootKeysAt k)))

def putRootKeys (k : Nat) (v : List Byte) : Eff := .upd (.rootKeys k v)

/-- Change `colGroups` at `k` by `f`. -/
def modColGroups (k : Nat) (f : ColEntry → ColEntry) : Eff := .obs fun d => .upd (.colGroups k (f (d.colGroupsAt k)))

def putColGroups (k : Nat) (v : ColEntry) : Eff := .upd (.colGroups k v)

/-- Change `moved` at `k` by `f`. -/
def modMoved (k : Nat) (f : Bool → Bool) : Eff := .obs fun d => .upd (.moved k (f (d.movedAt k)))

def putMoved (k : Nat) (v : Bool) : Eff := .upd (.moved k v)

/-- Change `pfxNodes` at `k` by `f`. -/
def modPfxNodes (k : Nat) (f : Option PfxNode → Option PfxNode) : Eff := .obs fun d => .upd (.pfxNodes k (f (d.pfxNodesAt k)))

def putPfxNodes (k : Nat) (v : Option PfxNode) : Eff := .upd (.pfxNodes k v)

/-- Change `pfxRefs` at `k` by `f`. -/
def modPfxRefs (k : Nat) (f : Nat → Nat) : Eff := .obs fun d => .upd (.pfxRefs k (f (d.pfxRefsAt k)))

def putPfxRefs (k : Nat) (v : Nat) : Eff := .upd (.pfxRefs k v)

/-- Change `pfxKeys` at `k` by `f`. -/
def modPfxKeys (k : Nat) (f : Nat → Nat) : Eff := .obs fun d => .upd (.pfxKeys k (f (d.pfxKeysAt k)))

def putPfxKeys (k : Nat) (v : Nat) : Eff := .upd (.pfxKeys k v)

/-- Change `pfxLost` at `k` by `f`. -/
def modPfxLost (k : Nat) (f : Bool → Bool) : Eff := .obs fun d => .upd (.pfxLost k (f (d.pfxLostAt k)))

def putPfxLost (k : Nat) (v : Bool) : Eff := .upd (.pfxLost k v)

/-- Change `seqTails` at `k` by `f`. -/
def modSeqTails (k : Nat) (f : Option Nat → Option Nat) : Eff := .obs fun d => .upd (.seqTails k (f (d.seqTailsAt k)))

def putSeqTails (k : Nat) (v : Option Nat) : Eff := .upd (.seqTails k v)

/-- Change `seqService` at `k` by `f`. -/
def modSeqService (k : Nat) (f : Option Nat → Option Nat) : Eff := .obs fun d => .upd (.seqService k (f (d.seqServiceAt k)))

def putSeqService (k : Nat) (v : Option Nat) : Eff := .upd (.seqService k v)

/-- Change `ports` at `k` by `f`. -/
def modPorts (k : Nat) (f : Port → Port) : Eff := .obs fun d => .upd (.ports k (f (d.portsAt k)))

def putPorts (k : Nat) (v : Port) : Eff := .upd (.ports k v)

/-- Change `egress` at `k` by `f`. -/
def modEgress (k : Nat) (f : List Packet → List Packet) : Eff := .obs fun d => .upd (.egress k (f (d.egressAt k)))

def putEgress (k : Nat) (v : List Packet) : Eff := .upd (.egress k v)

/-- Change `nbrs` at `k` by `f`. -/
def modNbrs (k : Nat) (f : Option Nbr → Option Nbr) : Eff := .obs fun d => .upd (.nbrs k (f (d.nbrsAt k)))

def putNbrs (k : Nat) (v : Option Nbr) : Eff := .upd (.nbrs k v)

/-- Change `flows` at `k` by `f`. -/
def modFlows (k : Nat) (f : Flow → Flow) : Eff := .obs fun d => .upd (.flows k (f (d.flowsAt k)))

def putFlows (k : Nat) (v : Flow) : Eff := .upd (.flows k v)

/-- Change `routes` at `k` by `f`. -/
def modRoutes (k : Nat) (f : Word → Word) : Eff := .obs fun d => .upd (.routes k (f (d.routesAt k)))

def putRoutes (k : Nat) (v : Word) : Eff := .upd (.routes k v)

/-- Change `topo` by `f`. -/
def modTopo (f : List TopoDev → List TopoDev) : Eff := .obs fun d => .upd (.topo (f d.topo))

def putTopo (v : List TopoDev) : Eff := .upd (.topo v)

/-- Change `prom` by `f`. -/
def modProm (f : Prom → Prom) : Eff := .obs fun d => .upd (.prom (f d.prom))

def putProm (v : Prom) : Eff := .upd (.prom v)

/-- Change `board` by `f`. -/
def modBoard (f : List Byte → List Byte) : Eff := .obs fun d => .upd (.board (f d.board))

def putBoard (v : List Byte) : Eff := .upd (.board v)

/-- Change `sideband` at `k` by `f`. -/
def modSideband (k : Nat) (f : (List Byte) → (List Byte)) : Eff := .obs fun d => .upd (.sideband k (f (d.sidebandAt k)))

def putSideband (k : Nat) (v : List Byte) : Eff := .upd (.sideband k v)

/-- Change `linkKeys` at `k` by `f`. -/
def modLinkKeys (k : Nat) (f : LinkKey → LinkKey) : Eff := .obs fun d => .upd (.linkKeys k (f (d.linkKeysAt k)))

def putLinkKeys (k : Nat) (v : LinkKey) : Eff := .upd (.linkKeys k v)

/-- Change `linkSeen` at `k` by `f`. -/
def modLinkSeen (k : Nat) (f : List LinkSeen → List LinkSeen) : Eff := .obs fun d => .upd (.linkSeen k (f (d.linkSeenAt k)))

def putLinkSeen (k : Nat) (v : List LinkSeen) : Eff := .upd (.linkSeen k v)

/-- Change `tenantKeys` at `k` by `f`. -/
def modTenantKeys (k : Nat) (f : Option TenantKey → Option TenantKey) : Eff := .obs fun d => .upd (.tenantKeys k (f (d.tenantKeysAt k)))

def putTenantKeys (k : Nat) (v : Option TenantKey) : Eff := .upd (.tenantKeys k v)

/-- Change `colOps` at `k` by `f`. -/
def modColOps (k : Nat) (f : Option ColOp → Option ColOp) : Eff := .obs fun d => .upd (.colOps k (f (d.colOpsAt k)))

def putColOps (k : Nat) (v : Option ColOp) : Eff := .upd (.colOps k v)

/-- Change `sessions` at `k` by `f`. -/
def modSessions (k : Nat) (f : Option Session → Option Session) : Eff := .obs fun d => .upd (.sessions k (f (d.sessionsAt k)))

def putSessions (k : Nat) (v : Option Session) : Eff := .upd (.sessions k v)

/-- Change `ingPubs` at `k` by `f`. -/
def modIngPubs (k : Nat) (f : Nat → Nat) : Eff := .obs fun d => .upd (.ingPubs k (f (d.ingPubsAt k)))

def putIngPubs (k : Nat) (v : Nat) : Eff := .upd (.ingPubs k v)

/-- Change `ingReplaced` at `k` by `f`. -/
def modIngReplaced (k : Nat) (f : Nat → Nat) : Eff := .obs fun d => .upd (.ingReplaced k (f (d.ingReplacedAt k)))

def putIngReplaced (k : Nat) (v : Nat) : Eff := .upd (.ingReplaced k v)

/-- Change `ingClear` at `k` by `f`. -/
def modIngClear (k : Nat) (f : Bool → Bool) : Eff := .obs fun d => .upd (.ingClear k (f (d.ingClearAt k)))

def putIngClear (k : Nat) (v : Bool) : Eff := .upd (.ingClear k v)

/-- Change `off` by `f`. -/
def modOff (f : Nat → Nat) : Eff := .obs fun d => .upd (.off (f d.off))

def putOff (v : Nat) : Eff := .upd (.off v)

/-- Change `vin` by `f`. -/
def modVin (f : Vin → Vin) : Eff := .obs fun d => .upd (.vin (f d.vin))

def putVin (v : Vin) : Eff := .upd (.vin v)

/-- Change `tripped` by `f`. -/
def modTripped (f : Bool → Bool) : Eff := .obs fun d => .upd (.tripped (f d.tripped))

def putTripped (v : Bool) : Eff := .upd (.tripped v)

/-- Change `clkHeld` at `k` by `f`. -/
def modClkHeld (k : Nat) (f : List (Nat × Nat) → List (Nat × Nat)) : Eff := .obs fun d => .upd (.clkHeld k (f (d.clkHeldAt k)))

def putClkHeld (k : Nat) (v : List (Nat × Nat)) : Eff := .upd (.clkHeld k v)

/-- Change `restCores` by `f`. -/
def modRestCores (f : List Nat → List Nat) : Eff := .obs fun d => .upd (.restCores (f d.restCores))

def putRestCores (v : List Nat) : Eff := .upd (.restCores v)

/-- Change `restLinks` by `f`. -/
def modRestLinks (f : List Nat → List Nat) : Eff := .obs fun d => .upd (.restLinks (f d.restLinks))

def putRestLinks (v : List Nat) : Eff := .upd (.restLinks v)

/-- Change `restFrom` by `f`. -/
def modRestFrom (f : Nat → Nat) : Eff := .obs fun d => .upd (.restFrom (f d.restFrom))

def putRestFrom (v : Nat) : Eff := .upd (.restFrom v)

/-- Change `electric` by `f`. -/
def modElectric (f : List Bool → List Bool) : Eff := .obs fun d => .upd (.electric (f d.electric))

def putElectric (v : List Bool) : Eff := .upd (.electric v)

/-- Change `memKey` at `k` by `f`. -/
def modMemKey (k : Nat) (f : List Byte → List Byte) : Eff := .obs fun d => .upd (.memKey k (f (d.memKeyAt k)))

def putMemKey (k : Nat) (v : List Byte) : Eff := .upd (.memKey k v)

/-- Change `idKey` by `f`. -/
def modIdKey (f : Option Nat → Option Nat) : Eff := .obs fun d => .upd (.idKey (f d.idKey))

def putIdKey (v : Option Nat) : Eff := .upd (.idKey v)

/-- Change `sealKey` by `f`. -/
def modSealKey (f : List Byte → List Byte) : Eff := .obs fun d => .upd (.sealKey (f d.sealKey))

def putSealKey (v : List Byte) : Eff := .upd (.sealKey v)

/-- Change `debugNonce` by `f`. -/
def modDebugNonce (f : List Byte → List Byte) : Eff := .obs fun d => .upd (.debugNonce (f d.debugNonce))

def putDebugNonce (v : List Byte) : Eff := .upd (.debugNonce v)

/-- Change `secPending` at `k` by `f`. -/
def modSecPending (k : Nat) (f : Option (Nat × Nat × Nat) → Option (Nat × Nat × Nat)) : Eff := .obs fun d => .upd (.secPending k (f (d.secPendingAt k)))

def putSecPending (k : Nat) (v : Option (Nat × Nat × Nat)) : Eff := .upd (.secPending k v)

/-- Change `keysLost` by `f`. -/
def modKeysLost (f : Bool → Bool) : Eff := .obs fun d => .upd (.keysLost (f d.keysLost))

def putKeysLost (v : Bool) : Eff := .upd (.keysLost v)

/-- Change `quarLatch` by `f`. -/
def modQuarLatch (f : Bool → Bool) : Eff := .obs fun d => .upd (.quarLatch (f d.quarLatch))

def putQuarLatch (v : Bool) : Eff := .upd (.quarLatch v)

/-- Change `fwDigest` by `f`. -/
def modFwDigest (f : List Byte → List Byte) : Eff := .obs fun d => .upd (.fwDigest (f d.fwDigest))

def putFwDigest (v : List Byte) : Eff := .upd (.fwDigest v)

/-- Change `fwVersion` by `f`. -/
def modFwVersion (f : Nat → Nat) : Eff := .obs fun d => .upd (.fwVersion (f d.fwVersion))

def putFwVersion (v : Nat) : Eff := .upd (.fwVersion v)

/-- Change `fwPending` by `f`. -/
def modFwPending (f : Option (Nat × Nat × Nat) → Option (Nat × Nat × Nat)) : Eff := .obs fun d => .upd (.fwPending (f d.fwPending))

def putFwPending (v : Option (Nat × Nat × Nat)) : Eff := .upd (.fwPending v)

/-- Change `bootFlash` at `k` by `f`. -/
def modBootFlash (k : Nat) (f : Byte → Byte) : Eff := .obs fun d => .upd (.bootFlash k (f (d.bootFlashAt k)))

def putBootFlash (k : Nat) (v : Byte) : Eff := .upd (.bootFlash k v)

/-- Change `recBuf` by `f`. -/
def modRecBuf (f : List Byte → List Byte) : Eff := .obs fun d => .upd (.recBuf (f d.recBuf))

def putRecBuf (v : List Byte) : Eff := .upd (.recBuf v)

/-- Change `recCmd` by `f`. -/
def modRecCmd (f : Nat × Nat → Nat × Nat) : Eff := .obs fun d => .upd (.recCmd (f d.recCmd))

def putRecCmd (v : Nat × Nat) : Eff := .upd (.recCmd v)

/-- Change `pciHeld` at `k` by `f`. -/
def modPciHeld (k : Nat) (f : Bool → Bool) : Eff := .obs fun d => .upd (.pciHeld k (f (d.pciHeldAt k)))

def putPciHeld (k : Nat) (v : Bool) : Eff := .upd (.pciHeld k v)

/-- Change `dbBind` at `k` by `f`. -/
def modDbBind (k : Nat) (f : Option Nat → Option Nat) : Eff := .obs fun d => .upd (.dbBind k (f (d.dbBindAt k)))

def putDbBind (k : Nat) (v : Option Nat) : Eff := .upd (.dbBind k v)

/-- Change `halfRead` at `k` by `f`. -/
def modHalfRead (k : Nat) (f : Option (Nat × Nat) → Option (Nat × Nat)) : Eff := .obs fun d => .upd (.halfRead k (f (d.halfReadAt k)))

def putHalfRead (k : Nat) (v : Option (Nat × Nat)) : Eff := .upd (.halfRead k v)

/-- Change `halfWrite` at `k` by `f`. -/
def modHalfWrite (k : Nat) (f : Option (Nat × Nat) → Option (Nat × Nat)) : Eff := .obs fun d => .upd (.halfWrite k (f (d.halfWriteAt k)))

def putHalfWrite (k : Nat) (v : Option (Nat × Nat)) : Eff := .upd (.halfWrite k v)

/-- Change `receiver` by `f`. -/
def modReceiver (f : Option Nat → Option Nat) : Eff := .obs fun d => .upd (.receiver (f d.receiver))

def putReceiver (v : Option Nat) : Eff := .upd (.receiver v)

/-- Change `sensors` at `k` by `f`. -/
def modSensors (k : Nat) (f : Nat → Nat) : Eff := .obs fun d => .upd (.sensors k (f (d.sensorsAt k)))

def putSensors (k : Nat) (v : Nat) : Eff := .upd (.sensors k v)

/-- Change `coldPlate` by `f`. -/
def modColdPlate (f : List Byte → List Byte) : Eff := .obs fun d => .upd (.coldPlate (f d.coldPlate))

def putColdPlate (v : List Byte) : Eff := .upd (.coldPlate v)

/-- Change `gov` by `f`. -/
def modGov (f : Gov → Gov) : Eff := .obs fun d => .upd (.gov (f d.gov))

def putGov (v : Gov) : Eff := .upd (.gov v)

/-- Change `sustCap` by `f`. -/
def modSustCap (f : Nat → Nat) : Eff := .obs fun d => .upd (.sustCap (f d.sustCap))

def putSustCap (v : Nat) : Eff := .upd (.sustCap v)

/-- Change `unclean` by `f`. -/
def modUnclean (f : Bool → Bool) : Eff := .obs fun d => .upd (.unclean (f d.unclean))

def putUnclean (v : Bool) : Eff := .upd (.unclean v)

/-- Change `peakMs` by `f`. -/
def modPeakMs (f : Nat → Nat) : Eff := .obs fun d => .upd (.peakMs (f d.peakMs))

def putPeakMs (v : Nat) : Eff := .upd (.peakMs v)

/-- Change `laneMarks` at `k` by `f`. -/
def modLaneMarks (k : Nat) (f : Bool → Bool) : Eff := .obs fun d => .upd (.laneMarks k (f (d.laneMarksAt k)))

def putLaneMarks (k : Nat) (v : Bool) : Eff := .upd (.laneMarks k v)

/-- Change `marked` at `k` by `f`. -/
def modMarked (k : Nat) (f : Bool → Bool) : Eff := .obs fun d => .upd (.marked k (f (d.markedAt k)))

def putMarked (k : Nat) (v : Bool) : Eff := .upd (.marked k v)

/-- Change `oldMargin` by `f`. -/
def modOldMargin (f : MapCopy → MapCopy) : Eff := .obs fun d => .upd (.oldMargin (f d.oldMargin))

def putOldMargin (v : MapCopy) : Eff := .upd (.oldMargin v)

/-- Change `oldSpare` by `f`. -/
def modOldSpare (f : MapCopy → MapCopy) : Eff := .obs fun d => .upd (.oldSpare (f d.oldSpare))

def putOldSpare (v : MapCopy) : Eff := .upd (.oldSpare v)

/-- Change `oldLog` by `f`. -/
def modOldLog (f : LogCopy → LogCopy) : Eff := .obs fun d => .upd (.oldLog (f d.oldLog))

def putOldLog (v : LogCopy) : Eff := .upd (.oldLog v)

end Sys2Proof.Machine
end

