-- ==== Sys2Proof/WellFormed.lean ====
section
/-! DEFINITION. Well-formed commands: every operand that numbers an element of the block numbers one it has. A command
that is not well-formed is no command of the block. -/

namespace Sys2Proof

/-- What a start meets names elements the device has. -/
def Env.ok (e : Env) : Bool :=
  e.aonClock < 3 && e.phases.all (· < 1456) && e.dq.all (· < 512) && e.ca.all (· < 512) && e.engines.all (· < 13005) &&
    e.cores.all (· < 2601)

/-- The operands name elements the block has. -/
def Instr.wellFormed : Instr → Bool
  | .registerWrite rq _ _ _ => decide (rq < 2049)
  | .registerReadClear rq _ _ size => decide (rq < 2049) && decide (size < 3)
  | .halfReadLow rq _ _ => decide (rq < 2049)
  | .halfReadHigh rq _ _ => decide (rq < 2049)
  | .halfWriteLow rq _ _ _ => decide (rq < 2049)
  | .halfWriteHigh rq _ _ _ => decide (rq < 2049)
  | .badSizeAccess rq _ => decide (rq < 2049)
  | .siteQuery rq _ => decide (rq < 2049)
  | .siteResultValid rq => decide (rq < 2049)
  | .engineSubstitution core engine second _ => decide (core < 2601) && decide (engine < 5) && second.all (· < 5)
  | .coreSubstitution site _ => decide (site < 2601)
  | .clusterSubstitution site => decide (site < 153)
  | .dieSubstitution site => decide (site < 17)
  | .codecEngineRetire engine => decide (engine < 34)
  | .ingestUnitRetire site => decide (site < 17)
  | .shellRetire site _ => decide (site < 16)
  | .routeInstall => true
  | .figLoadGo rq part _ => decide (rq < 2049) && decide (part < 32)
  | .loadStart => true
  | .loadComplete index => decide (index < 4)
  | .figSwitchGo rq part _ => decide (rq < 2049) && decide (part < 32)
  | .figSwitchCancel rq part _ => decide (rq < 2049) && decide (part < 32)
  | .switchProceed part _ _ => decide (part < 32)
  | .figStageDiscard rq part slot _ => decide (rq < 2049) && decide (part < 32) && decide (slot < 8)
  | .figMinverWrite rq part _ => decide (rq < 2049) && decide (part < 32)
  | .patchApply core => decide (core < 2048)
  | .load core _ _ => decide (core < 2048)
  | .store core _ _ => decide (core < 2048)
  | .product core _ _ => decide (core < 2048)
  | .rotate core _ _ => decide (core < 2048)
  | .quant core _ _ => decide (core < 2048)
  | .rowExp2 core _ _ => decide (core < 2048)
  | .rowLog2 core _ _ => decide (core < 2048)
  | .rowReciprocal core _ _ => decide (core < 2048)
  | .rowRsqrt core _ _ => decide (core < 2048)
  | .rowDivideByAux core _ _ => decide (core < 2048)
  | .rowExp core _ _ => decide (core < 2048)
  | .rowTanh core _ _ => decide (core < 2048)
  | .rowSigmoid core _ _ => decide (core < 2048)
  | .rowSilu core _ _ => decide (core < 2048)
  | .rowGelu core _ _ => decide (core < 2048)
  | .rowSoftplus core _ _ => decide (core < 2048)
  | .rowMaximumToAux core _ _ => decide (core < 2048)
  | .rowExp2ScaledDifference core _ _ => decide (core < 2048)
  | .rowScaleByReciprocal core _ _ => decide (core < 2048)
  | .rowMeanAndSquares core _ _ => decide (core < 2048)
  | .rowNormalise core _ _ => decide (core < 2048)
  | .epi core _ _ => decide (core < 2048)
  | .halo core _ _ bad _ _ => decide (core < 2048) && bad.all (· < 24576)
  | .wait core => decide (core < 2048)
  | .waitSatisfied core => decide (core < 2048)
  | .signal core => decide (core < 2048)
  | .atomAddInt32 core _ _ => decide (core < 2048)
  | .atomAddFp32 core _ _ => decide (core < 2048)
  | .atomAddBf16 core _ _ => decide (core < 2048)
  | .atomMinInt32 core _ _ => decide (core < 2048)
  | .atomMaxInt32 core _ _ => decide (core < 2048)
  | .atomMinFp32 core _ _ => decide (core < 2048)
  | .atomMaxFp32 core _ _ => decide (core < 2048)
  | .atomMinBf16 core _ _ => decide (core < 2048)
  | .atomMaxBf16 core _ _ => decide (core < 2048)
  | .atomVectorReduceAddFp32 core _ _ => decide (core < 2048)
  | .atomVectorReduceAddBf16 core _ _ => decide (core < 2048)
  | .semAcquire core => decide (core < 2048)
  | .semTry core => decide (core < 2048)
  | .semRelease core => decide (core < 2048)
  | .semGrant cell => decide (cell < 8192)
  | .sel core _ _ => decide (core < 2048)
  | .beat core _ => decide (core < 2048)
  | .watchdogExpiry core => decide (core < 2048)
  | .seqDoorbell rq part _ => decide (rq < 2049) && decide (part < 32)
  | .seqTailPoll part ring => decide (part < 32) && decide (ring < 64)
  | .lookup die => decide (die < 16)
  | .insert die => decide (die < 16)
  | .release die => decide (die < 16)
  | .verify die => decide (die < 16)
  | .nodeRead die => decide (die < 16)
  | .flushScope die => decide (die < 16)
  | .pfxRekey rq part => decide (rq < 2049) && decide (part < 32)
  | .pfxFlush rq part => decide (rq < 2049) && decide (part < 32)
  | .pfxEnable rq part _ => decide (rq < 2049) && decide (part < 32)
  | .seqRingEnable rq part ring _ => decide (rq < 2049) && decide (part < 32) && decide (ring < 64)
  | .waymapWrite rq site _ => decide (rq < 2049) && decide (site < 17)
  | .wayownWrite rq site index _ => decide (rq < 2049) && decide (site < 17) && decide (index < 4)
  | .wayClearDone site way => decide (site < 17) && decide (way < 16)
  | .dramTrain rq stack _ => decide (rq < 2049) && decide (stack < 16)
  | .dramTrainDone stack dq ca => decide (stack < 16) && dq.all (· < 32) && ca.all (· < 32)
  | .dqLaneFail chan => decide (chan < 512)
  | .caLaneFail chan => decide (chan < 512)
  | .channelRetire chan => decide (chan < 512)
  | .groupPoisonDone group => decide (group < 128)
  | .patrolScrub stack _ _ => decide (stack < 16)
  | .bankRepair chan bank => decide (chan < 512) && decide (bank < 64)
  | .bankCopyDone chan bank => decide (chan < 512) && decide (bank < 64)
  | .stackTempSample stack temp => decide (stack < 20) && decide (temp < 256)
  | .driverMapInval rq ctx _ => decide (rq < 2049) && decide (ctx < 1024)
  | .promote rq part _ => decide (rq < 2049) && decide (part < 32)
  | .demote rq part _ => decide (rq < 2049) && decide (part < 32)
  | .autoPromote part extent => decide (part < 32) && decide (extent < 1572864)
  | .promoteDone part => decide (part < 32)
  | .frameFree part frame => decide (part < 32) && decide (frame < 268435456)
  | .flsOpen rq entry => decide (rq < 2049) && decide (entry < 4096)
  | .flsWrite rq entry => decide (rq < 2049) && decide (entry < 4096)
  | .flsCommit rq entry => decide (rq < 2049) && decide (entry < 4096)
  | .flsAbort rq entry => decide (rq < 2049) && decide (entry < 4096)
  | .flsRetire rq entry => decide (rq < 2049) && decide (entry < 4096)
  | .readEntry rq entry => decide (rq < 2049) && decide (entry < 4096)
  | .flsCmdComplete => true
  | .relocation block => decide (block < 524288)
  | .flashScrub stack temp _ lostBlocks => decide (stack < 4) && decide (temp < 256) && decide (lostBlocks < 3)
  | .layerCopyDone part _ => decide (part < 32)
  | .ringReleaseSeen part => decide (part < 32)
  | .ringDoorbell rq ring _ _ => decide (rq < 2049) && decide (ring < 10392)
  | .ringPoll ring _ _ => decide (ring < 10392)
  | .dmaBurst engine _ _ _ => decide (engine < 21)
  | .dmaComplete ring => decide (ring < 9728)
  | .ringResume rq ring _ _ _ => decide (rq < 2049) && decide (ring < 10392)
  | .ringCancel rq ring _ => decide (rq < 2049) && decide (ring < 10392)
  | .ringEnable rq ring _ => decide (rq < 2049) && decide (ring < 10392)
  | .ringCancelDone ring => decide (ring < 10392)
  | .cueEvent part ctx _ counts => decide (part < 32) && ctx.all (· < 1024) && counts.all (· < 65536)
  | .cueSelect rq part _ => decide (rq < 2049) && decide (part < 32)
  | .cueOverflowClear rq part _ => decide (rq < 2049) && decide (part < 32)
  | .cueAdd rq part _ => decide (rq < 2049) && decide (part < 32)
  | .laneSwitch link lane _ => decide (link < 96) && decide (lane < 8)
  | .controlFlit link ack credits _ => decide (link < 96) && decide (ack < 65536) && credits.all (· < 65536)
  | .retryReplay link => decide (link < 96)
  | .linkDownTimeout link => decide (link < 96)
  | .groupFailover link seq packet => decide (link < 96) && decide (seq < 4096) && decide (packet.length < 66050)
  | .failoverPacket link seq packet => decide (link < 96) && decide (seq < 4096) && decide (packet.length < 66050)
  | .linkSiteFail site => decide (site < 104)
  | .siteRetrainDone link => decide (link < 96)
  | .packetAdmit link vc => decide (link < 96) && decide (vc < 8)
  | .packetForward link seq packet => decide (link < 96) && decide (seq < 4096) && decide (packet.length < 66050)
  | .linkWriteReceive link seq packet => decide (link < 96) && decide (seq < 4096) && decide (packet.length < 66050)
  | .linkCueReceive link seq packet => decide (link < 96) && decide (seq < 4096) && decide (packet.length < 66050)
  | .endToEndAck link seq packet => decide (link < 96) && decide (seq < 4096) && decide (packet.length < 66050)
  | .refusal link seq packet => decide (link < 96) && decide (seq < 4096) && decide (packet.length < 66050)
  | .e2eTimeout _ => true
  | .flowTableSync rq _ => decide (rq < 2049)
  | .portTraining link module => decide (link < 96) && decide (module.length < 257)
  | .portTrainDone link failed _ => decide (link < 96) && failed.all (· < 9)
  | .identityExchange link serial system line round size port role _ _ => decide (link < 96) && decide (serial <
      18446744073709551616) && decide (system < 4294967296) && decide (line < 4096) && decide (round < 256) &&
      decide (size < 256) && decide (port < 96) && decide (role < 4)
  | .candidateFlood link _ _ => link.all (· < 96)
  | .assign link _ line round _ => decide (link < 96) && decide (line < 4096) && decide (round < 256)
  | .assignAnswer link _ _ => decide (link < 96)
  | .promenadeDone link _ _ => decide (link < 96)
  | .mapBroadcast link _ _ _ _ => link.all (· < 96)
  | .rewalk rq _ => decide (rq < 2049)
  | .rootLostTimeout => true
  | .portAttach link module => decide (link < 96) && decide (module.length < 257)
  | .portRetrainRetry link => decide (link < 96)
  | .allReduce ring => decide (ring < 9984)
  | .reduceScatter ring => decide (ring < 9984)
  | .allGather ring => decide (ring < 9984)
  | .broadcast ring => decide (ring < 9984)
  | .allToAll ring => decide (ring < 9984)
  | .fused ring => decide (ring < 9984)
  | .colReady link seq packet => decide (link < 96) && decide (seq < 4096) && decide (packet.length < 66050)
  | .colData link seq packet => decide (link < 96) && decide (seq < 4096) && decide (packet.length < 66050)
  | .stageInDone ring _ _ => decide (ring < 9984)
  | .colWriteOut ring _ _ => decide (ring < 9984)
  | .colComplete ring => decide (ring < 9984)
  | .stepTimeout ring _ => decide (ring < 9984)
  | .suspect link seq packet => decide (link < 96) && decide (seq < 4096) && decide (packet.length < 66050)
  | .suspectWindowEnd entry => decide (entry < 4096)
  | .reform link seq packet => decide (link < 96) && decide (seq < 4096) && decide (packet.length < 66050)
  | .reformAck link seq packet => decide (link < 96) && decide (seq < 4096) && decide (packet.length < 66050)
  | .colCommit link seq packet => decide (link < 96) && decide (seq < 4096) && decide (packet.length < 66050)
  | .colAbort link seq packet => decide (link < 96) && decide (seq < 4096) && decide (packet.length < 66050)
  | .exclude link seq packet => decide (link < 96) && decide (seq < 4096) && decide (packet.length < 66050)
  | .leaderTimeout entry => decide (entry < 4096)
  | .colRemove rq part _ => decide (rq < 2049) && decide (part < 32)
  | .vceOpen engine us _ _ => decide (engine < 34) && decide (us < 4294967296)
  | .encode engine _ us _ _ => decide (engine < 34) && decide (us < 4294967296)
  | .decode engine _ _ us _ _ => decide (engine < 34) && decide (us < 4294967296)
  | .decodeResume engine session us => decide (engine < 34) && decide (session < 16) && decide (us < 4294967296)
  | .vceFlush engine _ us => decide (engine < 34) && decide (us < 4294967296)
  | .vceClose engine us => decide (engine < 34) && decide (us < 4294967296)
  | .vceJobComplete ring => decide (ring < 10256)
  | .vceReturn rq engine _ => decide (rq < 2049) && decide (engine < 34)
  | .engineReset engine => decide (engine < 34)
  | .vceEnable rq engine _ => decide (rq < 2049) && decide (engine < 34)
  | .convert site us _ _ => decide (site < 17) && decide (us < 4294967296)
  | .ingestJobComplete ring => decide (ring < 10392)
  | .streamSlotReset rq site _ => decide (rq < 2049) && decide (site < 17)
  | .ingestPublish failed => failed.all (· < 16)
  | .partitionCreate rq part _ => decide (rq < 2049) && decide (part < 32)
  | .partitionReset rq part _ => decide (rq < 2049) && decide (part < 32)
  | .svcModeWrite rq _ => decide (rq < 2049)
  | .regulatorAdmit part stack _ _ => decide (part < 32) && decide (stack < 16)
  | .ctxSetWrite rq ctx _ => decide (rq < 2049) && decide (ctx < 1024)
  | .ctxGo rq ctx => decide (rq < 2049) && decide (ctx < 1024)
  | .ctxStop rq ctx => decide (rq < 2049) && decide (ctx < 1024)
  | .ctxClear rq ctx => decide (rq < 2049) && decide (ctx < 1024)
  | .ctxKill rq ctx => decide (rq < 2049) && decide (ctx < 1024)
  | .ctxPrioWrite rq ctx _ => decide (rq < 2049) && decide (ctx < 1024)
  | .contextStart ctx => decide (ctx < 1024)
  | .yield ctx => decide (ctx < 1024)
  | .preemptSave core _ _ => decide (core < 2048)
  | .preemptGangStart part leafSet => decide (part < 32) && decide (leafSet < 65536)
  | .holdLimitExpiry ctx => decide (ctx < 1024)
  | .teardownFinish ctx => decide (ctx < 1024)
  | .migrationStart core => decide (core < 2048)
  | .migrationResume core _ => decide (core < 2048)
  | .vinSample _ _ => true
  | .vinLoss torn => torn.all (· < 9)
  | .phaseFail regulator phase => decide (regulator < 182) && decide (phase < 8)
  | .clusterClockStop site => decide (site < 153)
  | .clusterGate site => decide (site < 153)
  | .clusterWake site => decide (site < 153)
  | .governorTick _ _ _ _ _ _ => true
  | .junctionTrip => true
  | .tripRelease => true
  | .restEntry _ _ drift eyes => drift.all (· < 1456) && eyes.all (· < 1536)
  | .restCollectiveTimeout => true
  | .wake source ports dq ca => decide (source < 4) && ports.all (· < 96) && dq.all (· < 512) && ca.all (· < 512)
  | .wakeTimerExpiry => true
  | .offEntry _ failed cores badCores => failed.all (· < 13005) && cores.all (· < 2601) && badCores.all (· < 2601)
  | .aonRefLoss => true
  | .replan _ _ drift eyes => drift.all (· < 1456) && eyes.all (· < 1536)
  | .peakCharge => true
  | .selfTestCmd rq _ => decide (rq < 2049)
  | .selfTestAbort rq _ => decide (rq < 2049)
  | .coreTestSlice _ _ => true
  | .faultLogFlush => true
  | .stewardTakeover _ rec => rec.all (· < 3)
  | .keyLoad rq win _ => decide (rq < 2049) && decide (win < 33)
  | .keyErase rq win _ => decide (rq < 2049) && decide (win < 33)
  | .keySeal rq win _ => decide (rq < 2049) && decide (win < 33)
  | .keyUnseal rq win _ => decide (rq < 2049) && decide (win < 33)
  | .linkKeyLoad rq win _ => decide (rq < 2049) && decide (win < 33)
  | .attest rq win _ => decide (rq < 2049) && decide (win < 33)
  | .idRead rq win _ => decide (rq < 2049) && decide (win < 33)
  | .rootMsg rq win _ => decide (rq < 2049) && decide (win < 33)
  | .ctxKeyWrite rq ctx _ => decide (rq < 2049) && decide (ctx < 1024)
  | .alarmPolicyWrite rq _ => decide (rq < 2049)
  | .tamperTrip sensor => decide (sensor < 5)
  | .debugNonceRead => true
  | .debugCertificate _ => true
  | .powerOnSequence env => env.ok
  | .recoveryChunk _ data _ env => decide (data.length < 32769) && env.ok
  | .perstRelease port _ rate width _ => decide (port < 2) && decide (rate < 6) && decide (width < 5)
  | .portReset port kind => decide (port < 2) && decide (kind < 3)
  | .pfFlr port => decide (port < 2)
  | .vfFlr port vf => decide (port < 2) && decide (vf < 512)
  | .devReset rq _ env => decide (rq < 2049) && env.ok
  | .configRequest port fn _ => decide (port < 2) && decide (fn < 1024)
  | .vfEnable port n => decide (port < 2) && decide (n < 513)
  | .bar4Access port _ _ _ => decide (port < 2)
  | .fwWriteSlot rq slot _ => decide (rq < 2049) && decide (slot < 2)
  | .fwPreferSlot rq slot _ => decide (rq < 2049) && decide (slot < 2)
  | .fwCommitMinver rq slot => decide (rq < 2049) && decide (slot < 2)
  | .doorbellPageWrite port vf slot _ _ => decide (port < 2) && decide (vf < 512) && decide (slot < 256)
  | .dbBind rq _ => decide (rq < 2049)
  | .dbUnbind rq _ => decide (rq < 2049)
  | .mctpControl transport _ _ eid => decide (transport < 3) && decide (eid < 256)
  | .pldmSensorRead transport _ => decide (transport < 3)
  | .pldmSetEventReceiver transport eid => decide (transport < 3) && decide (eid < 256)
  | .pldmPowerState transport target => decide (transport < 3) && decide (target < 4)
  | .pldmClearHalt transport => decide (transport < 3)
  | .haltAssert _ _ cycles => decide (cycles < 250001)
  | .haltRelease cycles => decide (cycles < 250001)
  | .haltDiscrepancy _ => true
  | .haltClear rq _ => decide (rq < 2049)
  | .streamTileDelivery entry _ _ _ => decide (entry < 16384)
  | .uncorrectableCodeword link partialFlits => decide (link < 96) && decide (partialFlits < 257)
  | .rowRepairDone chan row => decide (chan < 512) && decide (row < 1048576)
  | .stewardDieLoss => true
  | .flashStackLoss stack => decide (stack < 4)
  | .secCmdComplete win => decide (win < 33)
  | .fwCtrlComplete => true
  | .flowTableLoadDone => true

end Sys2Proof
end

