-- ==== Sys2Proof/Machine/Ops.lean ====
section
/-! DEFINITION. The named operations every family shares: register fields, memory bytes, replies, free values, the
fault log, and `perform`, the form every meaning has. -/

namespace Sys2Proof.Machine

/-! ### Commands -/

/-- Carry out a command: its effect on the block where `ok`, that is where its operands name elements the block has
(`Instr.wellFormed`). -/
def perform (ok : Bool) (e : Eff) (s : State) : Host.Outcome State Fault Refusal :=
  if ok then .next { s with dev := e.run s.dev } else .fault .illFormed

/-! ### Registers (R8 to R10) -/

/-- The register file's key of instance `i` of a register. -/
def regKey (r : Reg) (i : Nat) : Nat := r.code * 1048576 + i

/-- A register as stored. -/
def Device.reg (d : Device) (r : Reg) (i : Nat) : Nat := (d.regsAt (regKey r i)).toNat

/-- A field of a register. -/
def Device.fld (d : Device) (f : Fld) (i : Nat) : Nat := bits (d.reg f.reg i) f.hi f.lo

/-- Store a whole register. -/
def setReg (r : Reg) (i v : Nat) : Eff := putRegs (regKey r i) (BitVec.ofNat 64 v)

/-- Store one field of a register and leave its other bits. -/
def setF (f : Fld) (i v : Nat) : Eff := .obs fun d => setReg f.reg i (putBits (d.reg f.reg i) f.hi f.lo v)

/-- The largest value a field holds. -/
def fldMax (f : Fld) : Nat := 2 ^ (f.hi + 1 - f.lo) - 1

/-- Count `n` in a counter field that saturates. -/
def addSat (f : Fld) (i n : Nat) : Eff := .obs fun d => setF f i (min (fldMax f) (d.fld f i + n))

/-- Count `n` in a counter field that wraps. -/
def addWrap (f : Fld) (i n : Nat) : Eff := .obs fun d => setF f i (d.fld f i + n)

/-- Every register entry whose number and instance satisfy `p` reads its reset value again. -/
def resetRegs (p : Nat → Nat → Bool) : Eff := .upd (.regsDrop fun k => p (k / 1048576) (k % 1048576))

/-- The instances of a register that are listed with a value satisfying `p`, in rising order. -/
def Device.listed (d : Device) (r : Reg) (p : Nat → Bool) : List Nat :=
  (mapKeys d.regs fun k v => k / 1048576 == r.code && p v.toNat).map (· % 1048576)

/-! ### Memory (R6, R7) -/

/-- The device physical address of an access: bits 47 to 0. An access made for a context whose DRAM is encrypted carries
its tenant slot, plus 1, above them (R467); see `keyOf`. -/
def place (a : Nat) : Nat := a % 281474976710656

/-- Stacked DRAM: 384 GiB from 0x010_0000_0000. -/
def inDram (a : Nat) : Bool := 0x1000000000 ≤ place a && place a < 0x7000000000

/-- The flash tier's user range: 3 TiB from 0x100_0000_0000, read-only. -/
def inFlash (a : Nat) : Bool := 0x10000000000 ≤ a && a < 0x40000000000

/-- The floor scratchpad windows in use under R226. -/
def inFloor (a : Nat) : Bool := 0x10000000 ≤ a && a < 0xDC000000

/-- The register space: 256 MiB from 0. -/
def inRegSpace (a : Nat) : Bool := a < 0x10000000

/-- A flash-tier offset lies within the length of an entry whose bytes are read: VALID, RETIRING or DAMAGED (R255). -/
def flashShown (d : Device) (o : Nat) : Bool :=
  d.catalog.any fun e => 2 ≤ e.2.state && e.2.tierOffset ≤ o && o < e.2.tierOffset + e.2.length

/-- The flash stack and stack extent of a flash-tier offset, as stack × 524,288 + extent (R253). -/
def flashExtent (o : Nat) : Nat := o / 65536 % 4 * 524288 + (o / 262144 * 65536 + o % 65536) / 2097152

/-- The key of a tenant slot of the key store; zeros where the slot holds none (R462). -/
def slotKey (d : Device) (s : Nat) : List Byte := ((d.tenantKeysAt s).map (·.key)).getD (List.replicate 64 0)

/-- The key an access is made under: none for one that is not encrypted (R467, R468). -/
def keyOf (d : Device) (a : Nat) : List Byte :=
  if a < 281474976710656 then [] else slotKey d (a / 281474976710656 - 1)

/-- The 64 bytes of the DRAM unit at `u` as they are read under a key (R467): as written, where they were written under it;
else the stored bytes, decrypted with it (log entry 4). -/
def unitView (d : Device) (u : Nat) (key : List Byte) : List Byte :=
  let written := (List.range 64).map fun i => d.memAt (u + i)
  if d.memKeyAt u == key then written else
  let stored := if (d.memKeyAt u).isEmpty then written else Config.xtsEnc (d.memKeyAt u) (u / 64) written
  if key.isEmpty then stored else Config.xtsDec key (u / 64) stored

/-- One byte of device memory as a read returns it; flash outside the objects shown reads zero (R255), and DRAM is
decrypted under the key of the access (R467). -/
def Device.byte (d : Device) (a : Nat) : Byte :=
  if inDram a then
    let u := place a / 64 * 64
    if d.memKeyAt u == keyOf d a then d.memAt (place a) else (unitView d u (keyOf d a)).getD (place a % 64) 0
  else if inFlash a && !flashShown d (a - 0x10000000000) then 0 else d.memAt a

/-- Write one byte of device memory. A DRAM unit written in part under another key than it holds is read, decrypted, merged
and encrypted again (R467). -/
def putByte (a : Nat) (b : Byte) : Eff := .obs fun d =>
  let u := place a / 64 * 64
  if inDram a && d.memKeyAt u != keyOf d a then .all [
    .each (List.range 64) (fun i => putMem (u + i) ((unitView d u (keyOf d a)).getD i 0)),
    putMemKey u (keyOf d a), putMem (place a) b]
  else putMem (place a) b

/-- The shell of a DRAM line's stack invalidates the line in every floor that holds it, before a write to it completes (R228). -/
def dropCopies (as : List Nat) : Eff := .obs fun d =>
  let ls := ((as.filter inDram).map (place · / 256)).dedup
  .each (mapKeys d.lines fun _ l => l.any fun l => ls.contains (l.tag % 1099511627776)) fun k => putLines k none

/-- `n` bytes of device memory from `a`. -/
def Device.bytes (d : Device) (a : Nat) : Nat → List Byte
  | 0 => []
  | n + 1 => d.byte a :: Device.bytes d (a + 1) n

/-- A byte string as a little-endian number (R39, R73). -/
def fromLE : List Byte → Nat
  | [] => 0
  | b :: bs => b.toNat + 256 * fromLE bs

/-- `n` bytes of a number, little-endian. -/
def toLE : Nat → Nat → List Byte
  | 0, _ => []
  | n + 1, v => BitVec.ofNat 8 v :: toLE n (v / 256)

/-- `k` bytes at offset `o` of a byte string, as a number. -/
def num (bs : List Byte) (o k : Nat) : Nat := fromLE ((bs.drop o).take k)

/-- The little-endian number of `n` bytes at `a`. -/
def Device.rd (d : Device) (a n : Nat) : Nat := fromLE (d.bytes a n)

/-- Where a byte's poison is kept: DRAM by 64-byte unit (R240), the floor by 64-bit word (R230). -/
def poisonUnit (a : Nat) : Nat := if inDram a then place a / 64 * 64 else a / 8 * 8

/-- The group of a DRAM address, as stack × 8 + group (R235). -/
def groupOf (a : Nat) : Nat :=
  (place a - 0x1000000000) / 0x600000000 * 8 + (place a - 0x1000000000) % 0x600000000 / 0xC0000000

/-- A unit lies in a group written over with poison (R244): `poison` then lists the units that are not. -/
def Device.lostGroup (d : Device) (u : Nat) : Bool := inDram u && d.groupLostAt (groupOf u)

/-- A unit holds poison. -/
def Device.isPoison (d : Device) (u : Nat) : Bool := d.poisonAt u != d.lostGroup u

/-- Set or clear the poison of a unit. -/
def setPoison (u : Nat) (b : Bool) : Eff := .obs fun d => putPoison u (b != d.lostGroup u)

/-- A byte reads as poison: a poisoned unit, or a flash extent whose data or stack is lost (R240, R255, R266). -/
def Device.badByte (d : Device) (a : Nat) : Bool :=
  if inFlash a then
    let x := flashExtent (a - 0x10000000000)
    flashShown d (a - 0x10000000000) && (d.lostExtAt x || d.fld F.FLS_STACK_STATUS_lost (x / 524288) == 1)
  else d.isPoison (poisonUnit a)

/-- Whether any of the `n` bytes at `a` is poisoned. -/
def Device.poisoned (d : Device) (a : Nat) : Nat → Bool
  | 0 => false
  | n + 1 => d.badByte a || Device.poisoned d (a + 1) n

/-- Write bytes from `a` up. -/
def wrBytes : Nat → List Byte → Eff
  | _, [] => .skip
  | a, b :: bs => .seq (putByte a b) (wrBytes (a + 1) bs)

/-- Write a number little-endian in `n` bytes at `a`. -/
def wr (a n v : Nat) : Eff := wrBytes a (toLE n v)

/-- Set or clear the poison of the units that the `n` bytes at `a` touch. -/
def setPoisonRange (a : Nat) (b : Bool) : Nat → Eff
  | 0 => .skip
  | n + 1 => .seq (setPoison (poisonUnit a) b) (setPoisonRange (a + 1) b n)

/-! ### Checks over bytes -/

/-- CRC-32C, one bit. -/
def crcBit (c : BitVec 32) : BitVec 32 := if c.getLsbD 0 then (c >>> 1) ^^^ 0x82F63B78#32 else c >>> 1

/-- CRC-32C, one byte. -/
def crcByte (c : BitVec 32) (b : Byte) : BitVec 32 :=
  crcBit <| crcBit <| crcBit <| crcBit <| crcBit <| crcBit <| crcBit <| crcBit (c ^^^ b.setWidth 32)

/-- CRC-32C of a byte string (the Castagnoli polynomial, reflected, initial and final all ones). -/
def crc32c (bs : List Byte) : Nat := (bs.foldl crcByte 0xFFFFFFFF#32 ^^^ 0xFFFFFFFF#32).toNat

/-- Whether all of a byte string is 0. -/
def allZero (bs : List Byte) : Bool := bs.all (· == 0)

/-! ### Replies and free values -/

/-- What a requester's read returned. -/
def reply (rq v : Nat) : Eff := putReplies rq (BitVec.ofNat 64 v)

/-- Draw a free value and go on with it: nothing constrains it (log entry 2). -/
def withFree (k : Nat → Eff) : Eff :=
  .obs fun d => .seq (putFree (d.free + 1)) (k (Config.freeWord d.free).toNat)

/-- One of several equal candidates: the spec does not say which (log entry 2). -/
def pickOne (cs : List Nat) (k : Nat → Eff) : Eff := withFree fun w => k (cs.getD (w % cs.length) 0)

/-! ### The fault log (R450 to R452) and the messages it raises (R492, R496) -/

/-- A fault-log entry as its 32 bytes. -/
def LogEntry.bytes (e : LogEntry) : List Byte :=
  toLE 4 e.seq ++ toLE 1 e.severity ++ toLE 1 e.flags ++ toLE 2 e.source ++ toLE 8 e.time ++ toLE 2 e.code ++
  toLE 2 e.context ++ toLE 2 e.site ++ toLE 2 e.subsite ++ toLE 8 e.info

/-- Raise an MSI-X vector on the physical function of both ports (R492). -/
def raiseMsix (v : Nat) : Eff := .seq (modMsix v (· + 1)) (modMsix (4 + v) (· + 1))

/-- Queue a PlatformEventMessage: 32 wait, and the oldest is dropped (R496). -/
def queueEvent (e : Nat) : Eff := modPldmEvents fun q => (q ++ [e]).drop (q.length + 1 - 32)

/-- A numeric sensor stands at a threshold level, 0 for none crossed: a change raises a PLDM event (R496). -/
def sensorAt (id level : Nat) : Eff := .obs fun d =>
  .when (d.sensorsAt id != level) (.seq (putSensors id level) (queueEvent id))

/-- The next intact copies of a record: all three with one new sequence number (R436). -/
def nextSeq (cs : List Nat) : Nat := cs.foldl max 0 + 1

/-- Write the fault log to its record (R436, R451). -/
def saveLog : Eff := .obs fun d =>
  let n := nextSeq (d.nvLog.map (·.seq))
  .all [putOldLog (d.nvLog.headD {}), putNvLog (List.replicate 3 ⟨true, n, d.flog⟩), putFlogSaved d.flogHead]

/-- Log an error (R450 to R452). A contained or device entry is written to the record and raises MSI-X vector 0; a
device entry also raises a PLDM event. -/
def logError (e : LogEntry) : Eff := .obs fun d =>
  let e := { e with seq := d.flogHead, time := d.reg .CLK_AON_CNT 0 }
  let base := d.fld F.STW_FLOG_BASE_base 0 * 65536
  .all [
    .when (base != 0) <| .seq (wrBytes (base + d.flogHead % 2048 * 32) e.bytes)
      (dropCopies ((List.range 32).map (base + d.flogHead % 2048 * 32 + ·))),
    putFlog ((d.flog ++ [e]).drop (d.flog.length + 1 - 2048)),
    putFlogHead (d.flogHead + 1),
    setF F.STW_FLOG_PTR_head 0 (d.flogHead + 1),
    .when (2048 ≤ d.flog.length) (setF F.STW_FLOG_PTR_wrapped 0 1),
    .when (bit e.flags 0 == 1) (setF F.STW_STATE_service 0 1),
    .when (1 ≤ e.severity) (.seq saveLog (raiseMsix 0)),
    .when (e.severity == 2) (queueEvent e.code)]

/-- A service event: a corrected entry with the service flag (R25, R450). -/
def logService (source site sub code : Nat) : Eff :=
  logError { severity := 0, flags := 1, source := source, code := code, site := site, subsite := sub }

/-! ### Partitions and who owns them (R390, R489) -/

/-- The requester number of a function: port × 1,024 + function, after the steward, which is 0. -/
def rqOf (fn : Nat) : Nat := fn + 1

/-- The requester is the steward. -/
def isSteward (rq : Nat) : Bool := rq == 0

/-- The requester is the driver of a physical function. -/
def isPf (rq : Nat) : Bool := rq == 1 || rq == 1025

/-- The partition owner: the function named in owner_fn while the partition is active or resetting (R489). -/
def isOwner (d : Device) (rq p : Nat) : Bool :=
  rq != 0 && rq == rqOf (d.fld F.PRT_CTRL_owner_fn p) &&
    (d.fld F.PRT_CTRL_state p == 1 || d.fld F.PRT_CTRL_state p == 2)

/-- The function owns at least one active partition (R489, registers of no partition). -/
def ownsAny (d : Device) (rq : Nat) : Bool :=
  (List.range 32).any fun p => isOwner d rq p && d.fld F.PRT_CTRL_state p == 1

/-- The context a virtual function exposes: port × 512 + v − 1 (R487). -/
def ctxOfRq (rq : Nat) : Option Nat :=
  let fn := (rq - 1) % 1024
  if rq == 0 || fn == 0 || 512 < fn then none else some ((rq - 1) / 1024 * 512 + fn - 1)

/-- The partition of a context, where it is bound (R394). -/
def ctxPart (d : Device) (c : Nat) : Option Nat :=
  if d.fld F.CTX_BIND_bound c == 1 then some (d.fld F.CTX_BIND_partition c) else none

/-- The requester is the driver of context `c`, which is bound (R489). -/
def isCtxDriver (d : Device) (rq c : Nat) : Bool := ctxOfRq rq == some c && (ctxPart d c).isSome

/-- The requester drives some context of partition `p`. -/
def drivesIn (d : Device) (rq p : Nat) : Bool :=
  match ctxOfRq rq with
  | some c => ctxPart d c == some p
  | none => false

/-! ### Elements of a partition's shape (R34, R236) -/

/-- Whether bit `b` of a partition's multi-word shape register is set. -/
def shapeBit (d : Device) (r : Reg) (p b : Nat) : Bool := bit (d.reg r (p * 4 + b / 32)) (b % 32) == 1

/-- The partition's clusters in ascending bit order: partition cluster n is the n-th, as logical die × 8 + cluster. -/
def partClusters (d : Device) (p : Nat) : List Nat := (List.range 128).filter (shapeBit d .PRT_SHAPE_CLU p)

/-- The partition's channel groups in ascending bit order, as stack × 8 + group. -/
def partGroups (d : Device) (p : Nat) : List Nat := (List.range 128).filter (shapeBit d .PRT_SHAPE_GRP p)

/-- The partition's link dies in ascending order. -/
def partLinkDies (d : Device) (p : Nat) : List Nat :=
  (List.range 4).filter fun l => bit (d.fld F.PRT_SHAPE_LNK_link_dies p) l == 1

/-- The codec engines of a partition, by logical number. -/
def partCodecs (d : Device) (p : Nat) : List Nat :=
  (List.range 32).filter fun j => bit (d.reg .PRT_SHAPE_VCE p) j == 1

/-- The partition that owns a logical cluster, while it is active or resetting. -/
def clusterPart (d : Device) (cl : Nat) : Option Nat :=
  (List.range 32).find? fun p => d.fld F.PRT_CTRL_state p != 0 && shapeBit d .PRT_SHAPE_CLU p cl

end Sys2Proof.Machine
end

