-- ==== Sys2Proof/Machine/Sets.lean ====
section
/-! DEFINITION. Reading a decoded figure: its sets and their leaves, the logical cores they name, constant registers, and
the steps of a program (02_figure_images.md, 03_tile_programs.md). -/

namespace Sys2Proof.Machine

/-- The active figure of a partition (R62). -/
def Device.active (d : Device) (p : Nat) : Option Figure :=
  if d.fld F.FIG_STATUS_active_valid p == 1 then d.slotsAt (p * 8 + d.fld F.FIG_STATUS_active_slot p) else none

/-- A set of a figure. -/
def Figure.set (f : Figure) (i : Nat) : SetRec := f.sets.getD i {}

/-- A set and its ancestors, nearest first; parents have lower indices (R44). -/
def ancestorsFuel (f : Figure) : Nat → Nat → List Nat
  | 0, i => [i]
  | n + 1, i => i :: (if i == 0 then [] else ancestorsFuel f n (f.set i).parent)

/-- A set and its ancestors, nearest first. -/
def ancestors (f : Figure) (i : Nat) : List Nat := ancestorsFuel f i i

/-- Set `i` is `s` or lies beneath it. -/
def beneath (f : Figure) (s i : Nat) : Bool := (ancestors f i).contains s

/-- The leaves at or beneath a set, in SETS order. -/
def leaves (f : Figure) (s : Nat) : List Nat :=
  (List.range f.sets.length).filter fun i => !(f.set i).composite && beneath f s i

/-- The logical core a leaf names: partition cluster through PRT_SHAPE (R33, R60). -/
def leafCore (d : Device) (p : Nat) (f : Figure) (leaf : Nat) : Option Nat :=
  ((partClusters d p)[(f.set leaf).cluster]?).map (· * 16 + (f.set leaf).core)

/-- The logical cores of the leaves beneath a set. -/
def setCores (d : Device) (p : Nat) (f : Figure) (s : Nat) : List Nat := (leaves f s).filterMap (leafCore d p f)

/-- The leaf of a figure that names a logical core. -/
def leafOfCore (d : Device) (p : Nat) (f : Figure) (core : Nat) : Option Nat :=
  (leaves f 0).find? fun l => leafCore d p f l == some core

/-- The partition cluster number of a logical cluster. -/
def partClusterOf (d : Device) (p cl : Nat) : Nat := (partClusters d p).idxOf cl

/-! ### Steps (R73) -/

/-- The steps of a program. -/
def Figure.steps (f : Figure) (prog : Nat) : List (BitVec 128) := f.programs.getD prog []

/-- Bits [hi:lo] of a step word. -/
def sb (w : BitVec 128) (hi lo : Nat) : Nat := bits w.toNat hi lo

/-- The kind of a step (R73). -/
def stepKind (w : BitVec 128) : Nat := sb w 127 124

/-- The figure and leaf a core is loaded with, when its partition's figure is still active. -/
def coreFigure (d : Device) (core : Nat) : Option (Nat × Figure × Nat × Nat) :=
  match (d.coresAt core).loaded with
  | some (p, leaf, prog) => (d.active p).map fun f => (p, f, leaf, prog)
  | none => none

/-- The step at a core's step pointer. -/
def curStep (d : Device) (core : Nat) : Option (BitVec 128) :=
  match coreFigure d core with
  | some (_, f, _, prog) => (f.steps prog)[(d.coresAt core).seq.ptr]?
  | none => none

/-! ### Constants (R52) -/

/-- The constant record of kind `ks` with slot `s` that reaches a leaf: its own, else its nearest ancestor's. -/
def constRec (f : Figure) (leaf s : Nat) (ks : List Nat) : Option ConstRec :=
  (ancestors f leaf).findSome? fun o => f.consts.find? fun c => c.owner == o && c.slot == s && ks.contains c.kind

/-- A constant register of a core; a slot no record names reads 0. -/
def constReg (d : Device) (core s : Nat) : Nat :=
  match coreFigure d core with
  | some (_, f, leaf, _) => ((constRec f leaf s [0, 2, 3]).map (·.value)).getD 0
  | none => 0

/-- A core's bounded-head slot: the logit bound of its leaf's record of kind 1. -/
def headSlot (d : Device) (core s : Nat) : Nat :=
  match coreFigure d core with
  | some (_, f, leaf, _) => ((f.consts.find? fun c => c.owner == leaf && c.slot == s && c.kind == 1).map (·.value)).getD 0
  | none => 0

/-! ### Exclusive sets (R394) -/

/-- The owning set of a figure's weight ring (R268). -/
def ringOwner (f : Figure) : Option Nat :=
  if f.weightRing.length < 64 then none else some (fromLE ((f.weightRing.drop 4).take 2))

/-- A step that names a cluster cue or a link-die cue: WAIT or SIGNAL at level 1 or 2. -/
def namesWideCue (w : BitVec 128) : Bool := (stepKind w == 9 || stepKind w == 10) && 1 ≤ sb w 95 94

/-- A leaf names a wide cue when a step of its program does, or a CUES record of its own (log entry 9). -/
def leafWide (f : Figure) (l : Nat) : Bool :=
  (f.steps (f.set l).program).any namesWideCue || f.cues.any fun c => c.owner == l && 1 ≤ c.level

/-- A set is exclusive when a leaf beneath it names a wide cue or lies beneath the owner of the weight ring (R394). -/
def exclusive (f : Figure) (s : Nat) : Bool :=
  (leaves f s).any fun l => leafWide f l ||
    (match ringOwner f with
     | some o => beneath f o l
     | none => false)

/-! ### Contexts on sets and cores -/

/-- The contexts of a partition whose state is not idle (R394). -/
def busyContexts (d : Device) (p : Nat) : List Nat :=
  (d.listed .CTX_RUN fun v => bits v 2 0 != 0).filter fun c => ctxPart d c == some p

/-- The logical cores of a context's set in the active figure. -/
def ctxCores (d : Device) (c : Nat) : List Nat :=
  match ctxPart d c with
  | some p =>
    match d.active p with
    | some f => setCores d p f (d.fld F.CTX_BIND_set c)
    | none => []
  | none => []

/-- The runnable or running contexts that name a set with a leaf on one of the logical cores given. -/
def ctxsOn (d : Device) (cores : List Nat) : List Nat :=
  (d.listed .CTX_RUN fun v => 1 ≤ bits v 2 0 && bits v 2 0 ≤ 4).filter fun c => (ctxCores d c).any cores.contains

end Sys2Proof.Machine
end

