-- ==== Sys2Proof/Machine/Mem.lean ====
section
/-! DEFINITION. Context addresses onto the tiers (09_on_chip_and_stacked_memory.md R225, R226, R235 to R237, R246 to
R250): who owns a floor way, where a partition offset lies, and translation. -/

namespace Sys2Proof.Machine

/-- The owner byte of way `w` of a die site's floor (FLR_WAYOWN). -/
def wayOwnByte (d : Device) (site w : Nat) : Nat := bits (d.reg .FLR_WAYOWN (site * 4 + w / 4)) (w % 4 * 8 + 7) (w % 4 * 8)

/-- The partition that owns a way (R225). -/
def wayOwner (d : Device) (site w : Nat) : Option Nat :=
  if bit (wayOwnByte d site w) 7 == 1 then some (wayOwnByte d site w % 32) else none

/-- A way is in scratchpad mode (R225). -/
def wayScratch (d : Device) (site w : Nat) : Bool := bit (d.fld F.FLR_WAYMAP_mode site) w == 1

/-- A way is being cleared, and holds its accesses (R229). -/
def wayBusy (d : Device) (site w : Nat) : Bool := bit (d.fld F.FLR_WAYMAP_busy site) w == 1

/-- The ways of a die's floor (R20, R225). -/
def floorWays : Nat := 16

/-- The bytes of a way: the floor holds 16 of them, 192 MiB (R20, R225). -/
def wayBytes : Nat := 0x00C00000

/-- The physical address of a way's first byte (R226). -/
def wayBase (site w : Nat) : Nat := 0x10000000 + site * 0x0C000000 + w * wayBytes

/-- The ways of a partition's scratchpad space on a die site, in ascending order (R226). -/
def scratchWays (d : Device) (p site : Nat) : List Nat :=
  (List.range floorWays).filter fun w => wayOwner d site w == some p && wayScratch d site w

/-- The die site and way of a floor address. -/
def floorPlace (a : Nat) : Nat × Nat := ((a - 0x10000000) / 0x0C000000, (a - 0x10000000) % 0x0C000000 / wayBytes)

/-- A physical scratchpad address is served for a partition's agent (R226). -/
def floorServed (d : Device) (p a : Nat) : Bool :=
  inFloor a && (let (s, w) := floorPlace a; wayOwner d s w == some p && wayScratch d s w)

/-- A floor address lies in a way being cleared. -/
def floorHeld (d : Device) (a : Nat) : Bool := inFloor a && (let (s, w) := floorPlace a; wayBusy d s w)

/-! ### Binding of dies (R17, R22) -/

/-- The site of a die is retired in the binding in use. -/
def dieRetired (d : Device) (s : Nat) : Bool := d.appliedAt (3 * 1048576 + s)

/-- Where child `i` of a parent is bound: its home site, else the parent's spare site (R22). At most one child is bound to
the spare: the one that `kept` records where that one's home site is retired, else the lowest of those whose home sites are. -/
def bindChild (bad : Nat → Bool) (kept : Option Nat) (n i : Nat) : Option Nat :=
  if !bad i then some i
  else if bad n then none
  else match kept.filter fun k => k < n && bad k with
    | some k => if k == i then some n else none
    | none => if (List.range i).all (fun j => !bad j) then some n else none

/-- The die site a logical die is bound to; none where it is absent. A die that the spare map has on die site 16 keeps it when
another die is retired later (R21, R22, R24). -/
def dieSite (d : Device) (die : Nat) : Option Nat := bindChild (dieRetired d) d.dieSpare 16 die

/-- The logical die bound to a site. -/
def dieOfSite (d : Device) (s : Nat) : Option Nat := (List.range 16).find? fun i => dieSite d i == some s

/-- The stack beside a site is retired with its shell (R25). -/
def stackRetired (d : Device) (k : Nat) : Bool := d.appliedAt (6 * 1048576 + k)

/-! ### DRAM (R235 to R237) -/

/-- A channel is retired (R244). -/
def chanRetired (d : Device) (stack ch : Nat) : Bool := d.fld F.DRM_CHAN_STATUS_retired (stack * 32 + ch) == 1

/-- The channels of a group in service, in ascending order. -/
def groupChans (d : Device) (g : Nat) : List Nat :=
  ((List.range 4).map (g % 8 * 4 + ·)).filter fun c => !chanRetired d (g / 8) c

/-- A group is retired whole: 2 or fewer channels in service, or its stack retired (R237). -/
def groupRetired (d : Device) (g : Nat) : Bool := (groupChans d g).length ≤ 2 || stackRetired d (g / 8)

/-- The groups in a partition's order (R236): those still in service. -/
def groupOrder (d : Device) (p : Nat) : List Nat := (partGroups d p).filter fun g => !groupRetired d g

/-- The physical address of offset `o` within a group (R235). -/
def groupAddr (g o : Nat) : Nat := 0x1000000000 + g / 8 * 0x600000000 + g % 8 * 0xC0000000 + o

/-- An offset within a group with 3 channels in service lies in its hole (R237). -/
def inHole (d : Device) (g o : Nat) : Bool := (groupChans d g).length == 3 && 0x90000000 ≤ o

/-- The channel and the address within it of an offset of a group (R237). -/
def chanPlace (d : Device) (g o : Nat) : Nat × Nat :=
  let cs := groupChans d g
  let l := o / 256
  (cs.getD (l % cs.length) 0, l / cs.length * 256 + o % 256)

/-- The physical address of a partition offset; none beyond its groups or in a hole (R236, R237). -/
def partAddr (d : Device) (p off : Nat) : Option Nat :=
  match (groupOrder d p)[off / 0xC0000000]? with
  | some g => if inHole d g (off % 0xC0000000) then none else some (groupAddr g (off % 0xC0000000))
  | none => none

/-- A DRAM address belongs to a partition's groups and lies in no hole. -/
def ownsDram (d : Device) (p a : Nat) : Bool :=
  inDram a && (groupOrder d p).contains (groupOf a) && !inHole d (groupOf a) ((place a - 0x1000000000) % 0xC0000000)

/-- How many bytes from a DRAM address on lie in the partition's groups without a break, over at most `fuel` groups. -/
def dramRun (d : Device) (p : Nat) : Nat → Nat → Nat
  | 0, _ => 0
  | fuel + 1, a =>
    if !ownsDram d p a then 0 else
    let o := (a - 0x1000000000) % 0xC0000000
    if (groupChans d (groupOf a)).length == 3 then 0x90000000 - o
    else 0xC0000000 - o + dramRun d p fuel (a + (0xC0000000 - o))

/-- A range of partition offsets overlaps the region of the partition's prefix tree while that is in service (R168). -/
def treeOverlap (d : Device) (p off len : Nat) : Bool :=
  let b := d.fld F.PRT_PFX_BASE_base p * 2097152
  d.fld F.PRT_PFX_BASE_enable p == 1 && off < b + 25165824 && b < off + len

/-- The channel of a DRAM address, as stack × 32 + channel, and the address within it. -/
def dramChan (d : Device) (a : Nat) : Nat × Nat :=
  let g := groupOf a
  let (c, o) := chanPlace d g ((place a - 0x1000000000) % 0x600000000 % 0xC0000000)
  (g / 8 * 32 + c, o)

/-- A DRAM address whose requests wait: its group is being poisoned, its stack is Critical, or a row of its channel is
being copied (R242, R244, R245). -/
def dramHeld (d : Device) (a : Nat) : Bool :=
  inDram a && (d.groupPoisonAt (groupOf a) || d.fld F.DRM_STACK_STATUS_state (groupOf a / 8) == 3 ||
    d.rowRepair.any fun e => e.2 && e.1 / 1048576 == (dramChan d a).1)

/-! ### Translation (R246, R247) -/

/-- The bytes of a map entry's page. -/
def pageBytes (page : Nat) : Nat := if page == 0 then 65536 else 2097152

/-- A window record as a map entry. -/
def windowEntry (w : WindowRec) : MapEntry :=
  { va := w.va, length := w.length, offset := w.offset, tier := w.tier, access := w.access, page := w.page,
    cluster := w.cluster }

/-- A context's figure map: the windows owned by the leaves its set holds, or by an ancestor of one (R246). -/
def figureMap (d : Device) (c : Nat) : List MapEntry :=
  match ctxPart d c with
  | none => []
  | some p =>
    match d.active p with
    | none => []
    | some f =>
      let owners := (leaves f (d.fld F.CTX_BIND_set c)).flatMap (ancestors f)
      (f.windows.filter fun w => owners.contains w.owner).map windowEntry

/-- The entry with the greatest va at or below `a`. -/
def lastBelow (a : Nat) (m : List MapEntry) : Option MapEntry :=
  m.foldl (fun best e =>
    if e.va ≤ a then
      (match best with
       | some b => if b.va ≤ e.va then some e else best
       | none => some e)
    else best) none

/-- The entry that covers `a` in a map. -/
def covering (a : Nat) (m : List MapEntry) : Option MapEntry :=
  match lastBelow a m with
  | some e => if a < e.va + e.length then some e else none
  | none => none

/-- An entry breaks R246. -/
def MapEntry.broken (d : Device) (p : Nat) (e : MapEntry) : Bool :=
  e.bad || 2 < e.tier || 1 < e.page || e.length == 0 || e.va % pageBytes e.page != 0 || 2 ^ 56 ≤ e.va ||
  e.offset % pageBytes e.page != 0 || e.length % pageBytes e.page != 0 ||
  (if e.tier == 0 then (partClusters d p).length ≤ e.cluster else e.cluster != 0)

/-- The scratchpad address of an offset in a partition's space on a cluster's die (R226). -/
def scratchAddr (d : Device) (p cluster off : Nat) : Option Nat :=
  match (partClusters d p)[cluster]? with
  | none => none
  | some cl =>
    match dieSite d (cl / 8) with
    | none => none
    | some s => ((scratchWays d p s)[off / wayBytes]?).map fun w => wayBase s w + off % wayBytes

/-- Access kinds of R247. -/
inductive Kind where | read | write | atomic
  deriving DecidableEq, Repr

/-- The bit of an access field that permits a kind (R48). -/
def Kind.permitted (k : Kind) (access : Nat) : Bool :=
  match k with
  | .read => bit access 0 == 1
  | .write => bit access 1 == 1
  | .atomic => bit access 2 == 1

/-- A tier 1 address of a context as an access on its behalf carries it: with its tenant slot where SEC_CTX_KEY enables
encryption (R467). -/
def forCtx (d : Device) (c a : Nat) : Nat :=
  if d.fld F.SEC_CTX_KEY_enable c == 1 then (d.fld F.SEC_CTX_KEY_slot c + 1) * 281474976710656 + a else a

/-- An address of the unlisted ranges that a translation can reach: 0x400_0000_0000 and above (R7). -/
def unlisted (a : Nat) : Bool := 0x40000000000 ≤ a && a < 281474976710656

/-- Where the bytes of a flash-tier offset are read for a partition: in the promotion frame of its tier extent, else in flash
(R247, R249). Past the tier's 3 TiB lies the unlisted range of R7, one address of which stands for them all. -/
def tierAddr (d : Device) (p off : Nat) : Option Nat :=
  match d.promoAt (p * 2097152 + off / 2097152) with
  | some pr => partAddr d p (pr.frame * 2097152 + off % 2097152)
  | none => some (min (0x10000000000 + off) 0xFFFFFFFFFFFF)

/-- The address an entry gives for `a` (R247 from "off" on). -/
def entryAddr (d : Device) (p c : Nat) (e : MapEntry) (a : Nat) : Option Nat :=
  let off := e.offset + (a - e.va)
  if e.tier == 0 then scratchAddr d p e.cluster off
  else if e.tier == 1 then (if treeOverlap d p off 1 then none else (partAddr d p off).map (forCtx d c))
  else tierAddr d p off

/-- The map entry that covers an address of a context: of its figure map, else of its driver map (R246, R247). -/
def coverEntry (d : Device) (c a : Nat) : Option MapEntry :=
  (covering a (figureMap d c)).orElse fun _ => covering a (d.drvMapAt c)

/-- Translation of a virtual address by the map entry that covers it (R247); none is a TRANSLATION fault. -/
def translateEntry (d : Device) (p c a : Nat) (k : Kind) (e : Option MapEntry) : Option Nat :=
  e.bind fun e => if e.broken d p || !k.permitted e.access || (e.tier == 2 && k != .read) then none else entryAddr d p c e a

/-- Translation of a context's virtual address by its maps as they stand (R247). -/
def translateMaps (d : Device) (c a : Nat) (k : Kind) : Option Nat :=
  (ctxPart d c).bind fun p => translateEntry d p c a k (coverEntry d c a)

/-- Translation of a context's virtual address (R247); a context being torn down has no maps (R406 step 2). -/
def translate (d : Device) (c a : Nat) (k : Kind) : Option Nat :=
  if (d.ctxsAt c).mapped then translateMaps d c a k else none

/-- Cached translations are invalidated in every cluster (R248). -/
def dropPages (q : CachedPage → Bool) : Eff := .obs fun d =>
  .each (mapKeys d.xlats fun _ ps => ps.any q) fun s => modXlats s (·.filter fun p => !q p)

/-- The physical addresses of `n` virtual bytes from `a`, one each; none where any of them faults. -/
def translateRange (d : Device) (c a : Nat) (k : Kind) (n : Nat) : Option (List Nat) :=
  (List.range n).mapM fun i => translate d c (a + i) k

/-- The first of `n` virtual bytes from `a` whose translation faults. -/
def firstFault (d : Device) (c a : Nat) (k : Kind) (n : Nat) : Option Nat :=
  ((List.range n).find? fun i => (translate d c (a + i) k).isNone).map (a + ·)

/-- The bytes at a list of physical addresses. -/
def Device.bytesAt (d : Device) (as : List Nat) : List Byte := as.map d.byte

/-- Write bytes at a list of physical addresses. A DRAM unit or floor word written whole is poison-free again, and one
written in part keeps its poison (R223, R230, R240). -/
def wrAt : List Nat → List Byte → Eff
  | a :: as, b :: bs => .seq (putByte a b) (wrAt as bs)
  | _, _ => .skip

/-- The poison units among a list of addresses, each once. -/
def unitsOf (as : List Nat) : List Nat := (as.map poisonUnit).dedup

/-- A poison unit's bytes are all among the addresses. -/
def unitCovered (as : List Nat) (u : Nat) : Bool :=
  (List.range (if inDram u then 64 else 8)).all fun i => (as.map place).contains (u + i)

/-- Clear the poison of every unit the addresses cover whole. -/
def clearPoison (as : List Nat) : Eff :=
  .each ((unitsOf as).filter (unitCovered as)) fun u => setPoison u false

/-- Write bytes at physical addresses; no floor keeps a copy of a DRAM line written (R228). -/
def write (as : List Nat) (bs : List Byte) : Eff := .seq (wrAt as bs) (dropCopies as)

/-- Write bytes at physical addresses and clear the poison of the units written whole. -/
def store (as : List Nat) (bs : List Byte) : Eff := .seq (write as bs) (clearPoison as)

/-- Whether any of the addresses lies in poisoned data. -/
def anyPoison (d : Device) (as : List Nat) : Bool := as.any d.badByte

/-- Whether an access must wait: for changed routes to be installed (R26), a way being cleared, a row being copied, a group
being poisoned, or a Critical stack. While routes change, every request is held at its source, also one that would stay on its
own die (log entry 118). -/
def anyHeld (d : Device) (as : List Nat) : Bool := d.routesStale || as.any fun a => floorHeld d a || dramHeld d a

/-- A stack takes no request of a partition while the regulators work: at rate 0, or with a bucket that holds nothing, none is
admitted (R393). At any other rate admission is a matter of time (log entry 89). -/
def regulated (d : Device) (p : Nat) (as : List Nat) : Bool :=
  d.fld F.PRT_SVC_MODE_mode 0 != 0 && as.any fun a => inDram a &&
    (d.fld F.PRT_REG_rate (p * 16 + groupOf a / 8) == 0 || d.fld F.PRT_REG_depth (p * 16 + groupOf a / 8) == 0)

/-- Whether an access of an agent of a partition must wait, also at its regulators. -/
def agentHeld (d : Device) (p : Option Nat) (as : List Nat) : Bool := anyHeld d as || p.any fun p => regulated d p as

/-- A write that waits where its memory is held, and is made once it is not (R229, R243 to R245). -/
def storeHeld (as : List Nat) (bs : List Byte) : Eff := .obs fun d =>
  if anyHeld d as then modHeldWrites (· ++ [⟨as, bs⟩]) else store as bs

/-- The writes whose memory is no longer held are made, in the order in which they came. -/
def releaseWrites : Eff := .obs fun d =>
  let (held, go) := d.heldWrites.partition fun w => anyHeld d w.addrs
  .seq (putHeldWrites held) (.each go fun w => store w.addrs w.bytes)

/-- A write reaches each floor way of scratchpad and the DRAM; a flash address takes none (R250). -/
def writable (as : List Nat) : Bool := as.all fun a => inDram a || inFloor a

/-! ### Floor lines (R227, R228) -/

/-- The set of the floor in which the line of an address lies (R227). -/
def lineSet (a : Nat) : Nat := place a / 256 % 49152

/-- The key of a way's line of a set on a die site. -/
def lineKey (site w set : Nat) : Nat := (site * 16 + w) * 49152 + set

/-- The cache ways of a partition on a die site; a way that is being cleared holds and takes no line (R227, R229, R252). -/
def cacheWays (d : Device) (p site : Nat) : List Nat :=
  (List.range floorWays).filter fun w => wayOwner d site w == some p && !wayScratch d site w && !wayBusy d site w

/-- The key of the line in which an access of a partition's core on a die site hits: one of its own ways, filled under the same
tenant slot (R227, R467). -/
def lineHit (d : Device) (p site a : Nat) : Option Nat :=
  (((cacheWays d p site).map fun w => lineKey site w (lineSet a)).find? fun k => (d.linesAt k).any fun l => l.tag == a / 256).filter
    fun _ => inDram a || inFlash a

/-- A line is used: it is now the most recently used. -/
def useLine (k tag : Nat) : Eff := .obs fun d => .seq (putLines k (some ⟨tag, d.lineTick⟩)) (putLineTick (d.lineTick + 1))

/-- The lines of a stack that its presence filter has an entry for: those that some floor holds (R228). -/
def filterLines (d : Device) (stack : Nat) : List Nat :=
  ((d.lines.filterMap fun e => e.2.map fun l => l.tag % 1099511627776).filter fun l =>
    inDram (l * 256) && groupOf (l * 256) / 8 == stack).dedup

/-- The sets of a presence filter of 2,097,152 entries (R228); the spec gives neither their number nor which of them a line's
entry takes (log entry 132). -/
def filterSets : Nat := 2 ^ (Config.filterSetBits % 22)

/-- A new copy of a DRAM line needs an entry of its shell's presence filter: where the entry's set is full, the shell frees one,
whose line it invalidates in every floor, and counts (R228). Which one is a free choice (log entry 132). -/
def filterEntry (a : Nat) : Eff := .obs fun d =>
  let stack := groupOf a / 8
  let held := filterLines d stack
  let same := held.filter fun l => Config.filterSet l % filterSets == Config.filterSet (place a / 256) % filterSets
  .when (!held.contains (place a / 256) && 2097152 / filterSets ≤ same.length) <| pickOne same fun l => .all [
    dropCopies [l * 256],
    .when (d.backInvalAt stack == 65535) (addSat F.DRM_STACK_ECC_back_inval stack 1),
    putBackInval stack ((d.backInvalAt stack + 1) % 65536)]

/-- A read miss of a partition's core on a die site: the line takes a free way of its set, else that of the least recently used
line among the partition's cache ways (R227). A line with poison in it is not allocated (R240). -/
def fillLine (p site a : Nat) : Eff := .obs fun d =>
  let ks := (cacheWays d p site).map fun w => lineKey site w (lineSet a)
  let age (k : Nat) : Nat := ((d.linesAt k).map (·.used + 1)).getD 0
  match ks.find? fun k => ks.all fun o => age k ≤ age o with
  | some k => .when ((inDram a || inFlash a) && (List.range 4).all fun i => !d.badByte (a / 256 * 256 + i * 64)) <|
      .seq (.when (inDram a) (filterEntry a)) (useLine k (a / 256))
  | none => .skip

/-- The lines of some ways of a die site are given up: their ways are being cleared, or their floor lost its data. -/
def dropLines (site : Nat) (ws : List Nat) : Eff :=
  .upd (.linesDrop fun k => ws.any fun w => k / 49152 == site * 16 + w)

end Sys2Proof.Machine
end

