-- ==== Sys2Proof/Machine/Blocks.lean ====
section
/-! DEFINITION. The catalogue of the weight library and the blocks of the flash stacks (10_weight_library.md R253 to R259,
R263 to R267): what a read of flash does to the blocks it reads, and how a block that fails is rebuilt. A unit of a stack is
what holds a block: an extent, a parity block or a metadata block; units and blocks are numbered from stack × 524,288. -/

namespace Sys2Proof.Machine

/-! ### The catalogue (R255 to R259) -/

/-- The first byte of the flash tier. -/
def flashBase : Nat := 0x10000000000

/-- 64 MiB: the unit of allocation (R260). -/
def runBytes : Nat := 0x4000000

/-- The entries that are not FREE. -/
def liveEntries (d : Device) : List CatEntry := (d.catalog.map (·.2)).filter fun e => e.state != 0

/-- The runs of 64 MiB an entry holds: from, to (not included). -/
def entryRuns (e : CatEntry) : Nat × Nat := (e.tierOffset / runBytes, e.tierOffset / runBytes + ceilDiv e.length runBytes)

/-- `n` runs from run `s` are free and in the tier. -/
def runsFree (d : Device) (s n : Nat) : Bool :=
  s + n ≤ 49152 && (liveEntries d).all fun e => let (a, b) := entryRuns e; s + n ≤ a || b ≤ s

/-- The lowest free span of `n` runs: it begins at 0 or where an entry ends (R260). -/
def findRun (d : Device) (n : Nat) : Option Nat :=
  ((0 :: (liveEntries d).map fun e => (entryRuns e).2).filter fun s => runsFree d s n).min?

/-- Free runs in all. -/
def freeRuns (d : Device) : Nat := 49152 - ((liveEntries d).map fun e => (entryRuns e).2 - (entryRuns e).1).sum

/-- The free span that begins at run `s`. -/
def spanFrom (d : Device) (s : Nat) : Nat :=
  (((liveEntries d).map fun e => (entryRuns e).1).filter (s ≤ ·)).foldl min 49152 - s

/-- The largest free span. -/
def largestRun (d : Device) : Nat :=
  (((0 :: (liveEntries d).map fun e => (entryRuns e).2).filter fun s => runsFree d s 1).map (spanFrom d)).foldl max 0

/-- FLS_CATALOG's counts follow the catalogue. -/
def refreshCatalog : Eff := .obs fun d => .all [
  setF F.FLS_CATALOG_free_runs 0 (freeRuns d), setF F.FLS_CATALOG_largest_run 0 (largestRun d),
  setF F.FLS_CATALOG_valid 0 ((d.catalog.filter fun e => e.2.state == 2).length)]

/-- The generation advances at each COMMIT and each change to FREE; the catalogue keeps it. -/
def bumpCatalog : Eff := .all [modCatGen (fun g => (g + 1) % 65536),
  .obs fun d => setF F.FLS_CATALOG_gen 0 d.catGen, refreshCatalog]

/-- Which of the two copies of the catalogue is written next: one that is not intact, else the older (R259). -/
def olderCopy (d : Device) : Nat :=
  let copy (i : Nat) : CatCopy := d.catCopies.getD i {}
  if !(copy 0).intact || (copy 1).intact && (copy 0).seq ≤ (copy 1).seq then 0 else 1

/-- The catalogue is written over the older copy, with the next sequence number (R259). -/
def saveCatalog : Eff := .obs fun d =>
  putCatCopies (d.catCopies.set (olderCopy d) ⟨true, nextSeq (d.catCopies.map (·.seq)), d.catGen, d.catalog⟩)

/-- The intact copy with the higher number (R259). -/
def newestCopy (d : Device) : Option CatCopy :=
  let cs := d.catCopies.filter (·.intact)
  cs.find? fun c => cs.all fun o => o.seq ≤ c.seq

/-- Entries that cover a stack extent become DAMAGED: those whose bytes are read, and one that is being loaded (R266). -/
def damageCovering (x : Nat) : Eff := .obs fun d =>
  let hit := mapKeys d.catalog fun _ e => e.state != 0 &&
    (List.range (ceilDiv e.length 65536)).any fun u => flashExtent (e.tierOffset + u * 65536) == x
  .seq (.each hit fun k => modCatalog k fun e => { e with state := 4 })
    (.when (!hit.isEmpty) (.seq refreshCatalog saveCatalog))

/-! ### Blocks (R254) -/

/-- The block, with its stack, that a unit is mapped to. -/
def blockOf (d : Device) (x : Nat) : Nat := x / 524288 * 524288 + d.blockMapAt x % 524288

/-- The unit that a block of a stack is mapped from at manufacture; a spare block has none. -/
def homeUnit (b : Nat) : Option Nat :=
  if b < 442368 then some (if b % 9 < 8 then b / 9 * 8 + b % 9 else 393216 + b / 9) else if b < 446464 then some b else none

/-- The unit that a block of a stack holds, with its stack; none where the block is spare. -/
def unitAt (d : Device) (y : Nat) : Option Nat :=
  let moved := mapKeys d.blockMap fun x b => x / 524288 == y / 524288 && b % 524288 == y % 524288
  match moved.head? with
  | some x => some x
  | none => ((homeUnit (y % 524288)).map (y / 524288 * 524288 + ·)).filter fun x => blockOf d x == y

/-- The flash dies of a stack, over which its blocks are dealt in turn (log entry 135). -/
def flashDies : Nat := 16

/-- The flash die, with its stack, that a block lies on. -/
def dieOf (y : Nat) : Nat := y / 524288 * flashDies + y % 524288 % flashDies

/-- A block is spare: it is good, and nothing is mapped to it. -/
def isSpare (d : Device) (y : Nat) : Bool := !d.badBlocksAt y && (unitAt d y).isNone

/-- The spare blocks of a stack that `ok` allows. -/
def sparesOf (d : Device) (j : Nat) (ok : Nat → Bool) : List Nat :=
  ((List.range 524288).map (j * 524288 + ·)).filter fun y => ok y && isSpare d y

/-- The first unit of the parity group that a data or parity unit belongs to (R254). -/
def groupFirst (x : Nat) : Nat :=
  x / 524288 * 524288 + (if x % 524288 < 393216 then x % 524288 / 8 * 8 else (x % 524288 - 393216) * 8)

/-- The 9 units of a data or parity unit's parity group: 8 extents of one 64 MiB run of the tier, and their parity block. -/
def parityGroup (x : Nat) : List Nat :=
  let f := groupFirst x
  (List.range 8).map (f + ·) ++ [f / 524288 * 524288 + 393216 + f % 524288 / 8]

/-- A unit belongs to a parity group: it holds data or parity. -/
def inGroup (x : Nat) : Bool := x % 524288 < 442368

/-- The flash-tier offset of byte `i` of a stack extent (R253). -/
def extentOffset (x i : Nat) : Nat :=
  let o := x % 524288 * 2097152 + i
  (o / 65536 * 4 + x / 524288) * 65536 + o % 65536

/-- Byte `i` of a data block, and of a group's parity block: the byte-wise exclusive or of its 8 extents (R254). -/
def blockByte (d : Device) (x i : Nat) : Byte :=
  if x % 524288 < 393216 then d.memAt (flashBase + extentOffset x i)
  else ((List.range 8).map fun k => d.memAt (flashBase + extentOffset (groupFirst x + k) i)).foldl (· ^^^ ·) 0

/-- Byte `i` of a unit as the other 8 blocks of its parity group give it (R266). -/
def rebuiltByte (d : Device) (x i : Nat) : Byte :=
  (((parityGroup x).filter (· != x)).map fun y => blockByte d y i).foldl (· ^^^ ·) 0

/-- FLS_STACK_STATUS.spare_blocks: the spare blocks left, of 77,824; a retired block whose data still waits for one takes none. -/
def refreshSpares (j : Nat) : Eff := .obs fun d => setF F.FLS_STACK_STATUS_spare_blocks j
  (77824 + (d.rebuildQueue.filter (· / 524288 == j)).length - (mapKeys d.badBlocks fun k b => b && k / 524288 == j).length)

/-- A spare pool below 1,024 blocks is a service event (R266). -/
def reportSpares (j : Nat) : Eff := .obs fun d =>
  .when (d.fld F.FLS_STACK_STATUS_spare_blocks j < 1024) (logService 10 j 0xFFFF 0)

/-! ### Disturb (R263, R267) -/

/-- The weight of a flash read at the stack's temperature (R263). -/
def readWeight (t : Nat) : Nat := if t ≤ 55 then 1 else if t ≤ 70 then 2 else if t ≤ 85 then 4 else 8

/-- The disturb count of a block. Each power failure since it was last set has restored it from its last saved value, plus 5 %
of the threshold (R263, R267). -/
def disturbCount (d : Device) (y : Nat) : Nat :=
  let (n, f) := d.disturbAt y
  (List.range (d.powerFails - f)).foldl (fun c k => min c (Config.savedDisturb (f + k) y) + 50000) n

/-- A block is queued for relocation, once, where it holds anything (R263, R265). -/
def queueRelocation (y : Nat) : Eff := .obs fun d =>
  .when (!d.relocQueue.contains y && (unitAt d y).isSome) (modRelocQueue (· ++ [y]))

/-- `k` read commands of a block: its disturb count grows, and at 1,000,000 it is queued (R263). -/
def disturbBlock (y k : Nat) : Eff := .obs fun d =>
  let n := disturbCount d y + k * readWeight (d.fld F.FLS_STACK_STATUS_temp (y / 524288))
  .seq (putDisturb y (n, d.powerFails)) (.when (1000000 ≤ n) (queueRelocation y))

/-- The read commands that read a whole block: each reads up to 64 KiB. -/
def blockReads : Nat := 32

/-- The read commands of a list of flash addresses: one for each 64 KiB unit touched. -/
def disturbReads (as : List Nat) : Eff :=
  .each ((as.filter inFlash).map fun a => (a - flashBase) / 65536).dedup fun u => .obs fun d =>
    disturbBlock (blockOf d (flashExtent (u * 65536))) 1

/-! ### Rebuilds (R266) -/

/-- The data of a retired block is rebuilt, from the other 8 blocks of its group where it is in one, into a spare block on a flash
die that holds no other block of the group; which of them is a free choice. While there is none it waits (R254, R266). -/
def rebuildUnit (x : Nat) : Eff := .obs fun d =>
  let j := x / 524288
  let others := if inGroup x then ((parityGroup x).filter (· != x)).map (blockOf d) else []
  let spares := sparesOf d j fun y => others.all fun o => dieOf o != dieOf y
  .when (!spares.isEmpty) <| .all [
    .each others (disturbBlock · blockReads),
    pickOne spares fun y => putBlockMap x (y % 524288),
    modRebuildQueue (·.filter (· != x)),
    .when (inGroup x) (addSat F.FLS_STACK_WEAR_rebuilds j 1)]

/-- The rebuilds of a stack that wait are tried again, and FLS_STACK_STATUS.degraded shows whether any still waits. -/
def rebuildWaiting (j : Nat) : Eff := .obs fun d => .all [
  .each (d.rebuildQueue.filter (· / 524288 == j)) rebuildUnit, refreshSpares j,
  .obs fun d => setF F.FLS_STACK_STATUS_degraded j (if d.rebuildQueue.any (· / 524288 == j) then 1 else 0)]

/-- The data of a stack extent is lost (R266). -/
def loseExtent (x : Nat) : Eff := .obs fun d => .when (x % 524288 < 393216 && !d.lostExtAt x) <|
  .all [putLostExt x true, damageCovering x, logService 10 (x / 524288) 0xFFFF 0]

/-- A block whose own correction fails is retired, and its unit's data rebuilt. -/
def retireBlock (x : Nat) : Eff := .obs fun d => .all [
  putBadBlocks (blockOf d x) true, modRebuildQueue (· ++ [x]), rebuildWaiting (x / 524288), reportSpares (x / 524288)]

/-- The block of a unit cannot be recovered by its own correction (R266). Where a second block of its parity group is
unrecoverable too, one that waits for its rebuild, one of `also`, or where `second` says so another, the data of both is lost;
which the other is, `second` leaves free. A unit that waits for its rebuild is served as before. -/
def failUnit (x : Nat) (also : List Nat) (second : Bool) : Eff := .obs fun d =>
  let others := if inGroup x then (parityGroup x).filter (· != x) else []
  let failed := others.filter fun y => d.rebuildQueue.contains y || also.contains y
  .when (!d.lostExtAt x) <|
    if !failed.isEmpty then .seq (loseExtent x) (.each failed loseExtent)
    else if inGroup x && second then .seq (loseExtent x) (pickOne others loseExtent)
    else .when (!d.rebuildQueue.contains x) (retireBlock x)

/-- What a read of flash meets: `lost` lists addresses that could not be corrected, of which those that the read touches count.
Another address of the same parity group says that its extent's block fails too, and the same address again that some second
block of the group does. -/
def flashErrors (as lost : List Nat) : Eff :=
  let unit (a : Nat) : Nat := flashExtent (a - flashBase)
  let bad := lost.filter inFlash
  .each ((bad.filter as.contains).map unit).dedup fun x =>
    failUnit x (bad.map unit) (2 ≤ ((bad.map unit).filter (· == x)).length)

end Sys2Proof.Machine
end

