-- ==== Sys2Proof/Machine/Binding.lean ====
section
/-! DEFINITION. The binding of logical elements to sites (01_package_and_hierarchy.md R21 to R24), and which parts are
powered and clocked (17_power_clocks_and_sleep.md R419 to R431; 20_bring_up_and_host_interface.md R499). -/

namespace Sys2Proof.Machine

/-! ### The binding (R21 to R24) -/

/-- Logical children of one parent at a level: 0 engines of a core, 1 cores of a cluster, 2 clusters of a die, 3 dies. -/
def lvlCount : Nat → Nat
  | 0 => 4
  | 1 => 16
  | 2 => 8
  | _ => 16

/-- The key of a site in the spare map. Sites are numbered through: child `j` of parent `q` is q × (children + 1) + j. -/
def siteKey (lvl site : Nat) : Nat := lvl * 1048576 + site

/-- A site is retired in the binding in use. -/
def siteBad (d : Device) (lvl site : Nat) : Bool := d.appliedAt (siteKey lvl site)

/-- The place within its parent of logical child `i` of parent site `q` (R22). Which die has the package's spare site is
recorded; in any other parent a second retired home site retires the parent (R23), so one child at most needs its spare. -/
def boundAt (d : Device) (lvl q i : Nat) : Option Nat :=
  bindChild (fun j => siteBad d lvl (q * (lvlCount lvl + 1) + j)) (if lvl == 3 then d.dieSpare else none) (lvlCount lvl) i

/-- The site of a logical cluster: die site × 9 + cluster site. -/
def clusterSite (d : Device) (die cl : Nat) : Option Nat :=
  (dieSite d die).bind fun s => (boundAt d 2 s cl).map (s * 9 + ·)

/-- The site of a logical core: cluster site × 17 + core site; core site 16 while a planned migration has it there (R409). -/
def coreSite (d : Device) (core : Nat) : Option Nat :=
  (clusterSite d (core / 128) (core / 16 % 8)).bind fun q =>
    if d.movedAt core then some (q * 17 + 16) else (boundAt d 1 q (core % 16)).map (q * 17 + ·)

/-- The site of a logical engine of a core. -/
def engineSite (d : Device) (core e : Nat) : Option Nat :=
  (coreSite d core).bind fun q => (boundAt d 0 q e).map (q * 5 + ·)

/-- The logical cluster a cluster site serves. -/
def clusterOfSite (d : Device) (site : Nat) : Option Nat :=
  (dieOfSite d (site / 9)).bind fun die => ((List.range 8).find? fun c => clusterSite d die c == some site).map (die * 8 + ·)

/-- The codec engine site that logical engine `j` is bound to: engine j mod 2 of the site of logical die j div 2 (R22, R351). -/
def codecSite (d : Device) (j : Nat) : Option Nat := (dieSite d (j / 2)).map fun s => s * 2 + j % 2

/-- A logical codec engine has a site that is in service. -/
def codecPresent (d : Device) (j : Nat) : Bool := (codecSite d j).any fun e => !siteBad d 4 e

/-- The link die's bridges: the four die sites it reaches the mesh through (R12, R15). -/
def bridgedSites (l : Nat) : List Nat :=
  match l with
  | 0 => [0, 1, 2, 3]
  | 1 => [3, 7, 11, 15]
  | 2 => [12, 13, 14, 15]
  | _ => [0, 4, 8, 12]

/-- The link die that carries PCI Express port `q` (R15). -/
def pcieLinkDie (q : Nat) : Nat := if q == 0 then 0 else 2

/-- The link die that carries the steward's fabric port (R12, R15). -/
def stewardLinkDie : Nat := 0

/-- The link die beside a flash stack, which carries its controller (R12, R15). -/
def flashLinkDie (j : Nat) : Nat := j

/-- The logical core a core site serves. -/
def coreOfSite (d : Device) (site : Nat) : Option Nat :=
  (clusterOfSite d (site / 17)).bind fun cl =>
    ((List.range 16).find? fun k => coreSite d (cl * 16 + k) == some site).map (cl * 16 + ·)

/-- Core site 16 of a cluster site is good and unbound. -/
def spareCoreFree (d : Device) (q : Nat) : Bool := !siteBad d 1 (q * 17 + 16) && (coreOfSite d (q * 17 + 16)).isNone

/-! ### What is powered and clocked (R419, R420, R422, R431, R499) -/

/-- PWR_STATE.state: 1 REST, 2 IDLE, 3 RUN, 4 entering REST, 5 waking, 6 shutting down. -/
def powerState (d : Device) : Nat := d.fld F.PWR_STATE_state 0

/-- The blocks outside the always-on domain are up: not OFF, in REST, waking or in recovery mode (R420, R485). -/
def powered (d : Device) : Bool :=
  d.off == 0 && d.fld F.STW_BOOT_recovery 0 == 0 && (powerState d == 2 || powerState d == 3 || powerState d == 4 || powerState d == 6)

/-- The device is halted (R497). -/
def halted (d : Device) : Bool := d.fld F.HALT_STATUS_halted 0 == 1

/-- Engines issue bursts: powered and not halted (R499). -/
def working (d : Device) : Bool := powered d && !halted d

/-- Engines take new work: in RUN or IDLE, not halted (R422 steps 1 to 3, R499). -/
def serving (d : Device) : Bool := working d && (powerState d == 2 || powerState d == 3)

/-- The state of a cluster site: 0 running, 1 clock-stopped, 2 gated, 3 waking, 4 off (R419). -/
def clusterState (d : Device) (site : Nat) : Nat := d.fld F.CLK_CLU_STAT_state site

/-- A logical cluster's clock runs. -/
def clocked (d : Device) (cl : Nat) : Bool :=
  working d && !d.tripped && (clusterSite d (cl / 8) (cl % 8)).any fun q => clusterState d q == 0

/-- Run an effect where a condition of the device holds. -/
def whileIt (c : Device → Bool) (e : Eff) : Eff := .obs fun d => .when (c d) e

end Sys2Proof.Machine
end

