-- ==== Sys2Proof/Machine/Rings.lean ====
section
/-! DEFINITION. Rings in general (11_dma_and_cues.md R275, R284; 13, 14 and 15 for the rings of the other engines): how
they are numbered, whom they belong to, and where a cancellation begins.

Numbers: compute-die DMA ring r of die site s is s × 512 + r; link-die DMA ring r of link die l is 8,704 + l × 256 + r;
collective ring r of link die l is 9,728 + l × 64 + r; codec job ring r of engine e is 9,984 + e × 8 + r; ingest job
ring r of die site s is 10,256 + s × 8 + r. -/

namespace Sys2Proof.Machine

def dmaRing (site r : Nat) : Nat := site * 512 + r
def linkRing (l r : Nat) : Nat := 8704 + l * 256 + r
def colRing (l r : Nat) : Nat := 9728 + l * 64 + r
def vceRing (e r : Nat) : Nat := 9984 + e * 8 + r
def ingRing (site r : Nat) : Nat := 10256 + site * 8 + r

/-- What serves a ring. -/
inductive RingKind where | dma | link | col | vce | ing
  deriving DecidableEq, Repr

/-- The kind of a ring. -/
def ringKind (n : Nat) : RingKind :=
  if n < 8704 then .dma else if n < 9728 then .link else if n < 9984 then .col else if n < 10256 then .vce else .ing

/-- The engine that serves a ring: a number of its own for each die's DMA engine, collective engine, codec engine and
ingest unit, by which the turn of R286, R356 and R374 is kept. -/
def ringEngine (n : Nat) : Nat :=
  match ringKind n with
  | .dma => n / 512
  | .link => 17 + (n - 8704) / 256
  | .col => 21 + (n - 9728) / 64
  | .vce => 32 + (n - 9984) / 8
  | .ing => 72 + (n - 10256) / 8

/-- The link die of a link-die or collective ring. -/
def ringLinkDie (n : Nat) : Nat := if n < 9728 then (n - 8704) / 256 else (n - 9728) / 64

/-- The context a ring belongs to (DMA_RING_CFG.context). -/
def ringCtx (d : Device) (n : Nat) : Nat := d.fld F.DMA_RING_CFG_context n

/-- The partition a ring belongs to: that of DMA_RING_OWN, or of the codec engine or ingest unit that serves it (R356,
R374). -/
def ringPart (d : Device) (n : Nat) : Option Nat :=
  match ringKind n with
  | .vce => if d.fld F.VCE_CTRL_enable ((n - 9984) / 8) == 1 then some (d.fld F.VCE_CTRL_partition ((n - 9984) / 8)) else none
  | .ing => if d.fld F.ING_CTRL_enable ((n - 10256) / 8) == 1 then some (d.fld F.ING_CTRL_partition ((n - 10256) / 8)) else none
  | _ => if d.fld F.DMA_RING_OWN_owned n == 1 then some (d.fld F.DMA_RING_OWN_partition n) else none

/-- A ring is served: enabled, owned, and its context bound to its partition (DMA_RING_CFG.context). -/
def ringServed (d : Device) (n : Nat) : Bool :=
  d.fld F.DMA_RING_BASE_enable n == 1 && (ringPart d n).isSome && ctxPart d (ringCtx d n) == ringPart d n

/-- The descriptors a ring holds (R275): 2^size_log2. -/
def ringSize (d : Device) (n : Nat) : Nat := 2 ^ d.fld F.DMA_RING_CFG_size_log2 n

/-- The virtual address of a ring's descriptor `j` (R275). -/
def descAddr (d : Device) (n j : Nat) : Nat := d.fld F.DMA_RING_BASE_base n * 64 + j % ringSize d n * 64

/-- The enabled rings of a context. -/
def ctxRings (d : Device) (c : Nat) : List Nat :=
  (d.listed .DMA_RING_BASE fun v => v % 2 == 1).filter fun n => ringCtx d n == c

/-- Begin cancelling a ring (R284): it takes nothing more; RING_CANCEL_DONE ends it. A descriptor with a burst that its peer has not
acknowledged is not complete (R281 step 1), whatever else ended it, and bursts not yet sent are not in flight. -/
def cancelStart (n : Nat) : Eff := .obs fun d =>
  .when (d.fld F.DMA_RING_BASE_enable n == 1) <| .seq (setF F.DMA_RING_STAT_state n 4)
    (modRings n fun xs => xs.map fun x => { x with
      moved := x.moved.take (x.moved.length - x.packing.length), packing := [], packs := 0,
      status := if x.unacked.isEmpty && x.packing.isEmpty then x.status else none })

end Sys2Proof.Machine
end

