-- ==== Sys2Proof/Machine/Contain.lean ====
section
/-! DEFINITION. Contained errors: the start of a context's teardown (16_partitions_and_scheduling.md R406 steps 1 to 3);
and cue events, which may be held, spilled or lost (R287 to R290, R397, R398). -/

namespace Sys2Proof.Machine

/-- Codes of CTX_FAULT beyond those of R100. -/
def codeSubstitution : Nat := 0x10
def codeDataLost : Nat := 0x11
def codeOwner : Nat := 0x12
def codeRange : Nat := 0x13
def codeEventLost : Nat := 0x14

/-- A core stops issuing at once for a teardown of the context it runs (R406 step 1). -/
def haltCoreOf (c core : Nat) : Eff :=
  modCores core fun k => if k.ctx == some c then { k with state := 4, waiting := false, acquiring := false, stopReq := false } else k

/-- The pre-emptions that a context's teardown or stop ends: where it was coming in, its cores are taken back and another
is chosen; where it was going out, the pre-empting context starts afresh once the teardown is done (R412). -/
def withdrawPreempts (c : Nat) : Eff := .obs fun d => .seq
  (.each (d.preempts.filter fun q => q.incoming == c || q.outgoing == c) fun q => .each q.done fun core =>
    modCores core fun k => if q.outgoing == c then { k with ctx := none, heldFor := none, state := 0 }
      else { k with ctx := none, heldFor := none, state := 3 })
  (modPreempts fun ps => (ps.filter fun q => q.outgoing != c).map fun q =>
    if q.incoming == c then { q with done := [] } else q)

/-- Begin the teardown of context `c` (R406 steps 1 to 3): its cores stop, its maps are invalid, its rings cancel. A
context already faulted or being torn down is left as it is. A pre-emption that was to bring it in is withdrawn. -/
def teardownWith (c code set step info : Nat) : Eff := .obs fun d =>
  let st := d.fld F.CTX_RUN_state c
  .when (st != 5 && st != 6) <| .all [
    setF F.CTX_RUN_state c 6,
    modCtxs c (fun x => { x with teardown := some (code, set, step, info), mapped := false }), dropPages (·.ctx == c),
    .each (ctxCores d c) (haltCoreOf c),
    .each (ctxRings d c) (fun n => .seq (putKeptMaps n ((ctxPart d c).map fun p => (p, figureMap d c, d.drvMapAt c))) (cancelStart n)),
    withdrawPreempts c]

/-- Begin a teardown that names no leaf set, step or semaphore. -/
def teardown (c code : Nat) : Eff := teardownWith c code 0xFFFF 0 0

/-- A context whose access reached the unlisted range of R7 is torn down; the access itself read zeros. -/
def rangeErrors (c : Nat) (as : List Nat) : Eff := .when (as.any unlisted) (teardown c codeRange)

/-! ### Cues (R287, R288) -/

/-- The key of a core cue, a cluster cue and a link-die cue. -/
def coreCue (core i : Nat) : Nat := core * 64 + i
def clusterCue (cl i : Nat) : Nat := 1048576 + cl * 64 + i
def linkCue (l i : Nat) : Nat := 2097152 + l * 64 + i

/-- A count added to a cue (R288): above 65,535 it holds 65,535 and its sticky overflow is set. -/
def Cue.plus (q : Cue) (n : Nat) : Cue :=
  if 65535 < q.value + n then ⟨65535, true⟩ else ⟨q.value + n, q.overflow⟩

/-- Add a count to a cue. -/
def cueAdd (k n : Nat) : Eff := modCues k fun q => q.plus n

/-- A count arrives at a cue of logical cluster `cl`: while its clock does not run, it is held there and starts a stopped
or gated cluster (R290, R499). -/
def cueArrive (cl k n : Nat) : Eff := .obs fun d =>
  if clocked d cl then cueAdd k n
  else .seq (modClkHeld cl (· ++ [(k, n)])) <|
    match clusterSite d (cl / 8) (cl % 8) with
    | some q => .when (clusterState d q == 1 || clusterState d q == 2) (setF F.CLK_CLU_STAT_state q 3)
    | none => .skip

/-- The events held at a cluster while its clock did not run are added (R290). -/
def releaseHeld (cl : Nat) : Eff := .obs fun d =>
  .when (clocked d cl) <| .seq (.each (d.clkHeldAt cl) fun e => cueAdd e.1 e.2) (putClkHeld cl [])

/-- Every condition of the IDLE row of R420 holds: every cluster gated or off, and no codec or ingest unit with a job. -/
def deviceIdle (d : Device) : Bool :=
  ((List.range 153).all fun q => 2 == clusterState d q || clusterState d q == 4) &&
    (mapKeys d.rings fun n xs => 9984 ≤ n && !xs.isEmpty).isEmpty

/-- PWR_STATE.state takes a value: a change raises MSI-X vector 2 and a PLDM event of sensor 30 (R492, R496). -/
def setPower (st : Nat) : Eff := .obs fun d => .when (powerState d != st) <|
  .all [setF F.PWR_STATE_state 0 st, raiseMsix 2, queueEvent 30]

/-- IDLE or RUN is reported by the conditions of R420 (R421). -/
def refreshIdle : Eff := .obs fun d =>
  .when (powerState d == 2 || powerState d == 3) (setPower (if deviceIdle d then 2 else 3))

/-- A stopped, gated or waking cluster runs again (R419), unless the clocks are held by a halt or a junction trip. -/
def startCluster (cl : Nat) : Eff := .obs fun d =>
  match clusterSite d (cl / 8) (cl % 8) with
  | some q =>
    let st := clusterState d q
    .when (working d && !d.tripped && (st == 1 || st == 2 || st == 3)) <|
      .all [setF F.CLK_CLU_STAT_state q 0, addSat F.CLK_CLU_STAT_wakes q 1, releaseHeld cl, refreshIdle]
  | none => .skip

/-! ### Save areas (R396) -/

/-- The stride of beat-state records in a save area. -/
def saveStride : Nat := 0x210000

/-- The tier-0 or tier-1 physical addresses of bytes [o, o + n) of the record of leaf `leaf` in context `c`'s save area;
none where the area does not hold it (R396). -/
def saveAddrs (d : Device) (c leaf o n : Nat) : Option (List Nat) :=
  match ctxPart d c with
  | none => none
  | some p =>
    match d.active p with
    | none => none
    | some f =>
      let ls := leaves f (d.fld F.CTX_BIND_set c)
      let base := d.fld F.CTX_SAVE_base c * 65536
      let tier := d.fld F.CTX_SAVE_tier c
      let die (l : Nat) : Nat := ((leafCore d p f l).getD 0) / 128
      let mates := if tier == 0 then ls.filter fun l => die l == die leaf else ls
      let j := mates.idxOf leaf
      if d.fld F.CTX_SAVE_slots c ≤ j then none
      else if tier == 0 then
        (List.range n).mapM fun i => scratchAddr d p (f.set leaf).cluster (base + j * saveStride + o + i)
      else if tier == 1 then (List.range n).mapM fun i => (partAddr d p (base + j * saveStride + o + i)).map (forCtx d c)
      else none

/-- A context's save area holds a record for every leaf of its set (R396). -/
def saveFits (d : Device) (c : Nat) : Bool :=
  match ctxPart d c with
  | none => false
  | some p =>
    match d.active p with
    | none => false
    | some f => (leaves f (d.fld F.CTX_BIND_set c)).all fun l =>
        (saveAddrs d c l 0 1).isSome && (saveAddrs d c l (saveStride - 1) 1).isSome

/-! ### Held events and the spill ring (R397, R398) -/

/-- Discard an event and count it. -/
def discardEvent (p : Nat) : Eff := addSat F.PRT_EVT_STAT_discarded p 1

/-- Tear a context down because an event of it is lost (R398). -/
def eventLost (p c : Nat) : Eff :=
  .seq (addSat F.PRT_EVT_STAT_lost p 1) (teardown c codeEventLost)

/-- The records a partition's spill ring holds. -/
def spillSize (d : Device) (p : Nat) : Nat := 2 ^ (d.fld F.PRT_EVT_SPILL_size_log2 p + 8)

/-- The addresses of a spill record's 16 bytes; none outside the partition's groups or in a hole. -/
def spillAddrs (d : Device) (p j : Nat) : Option (List Nat) :=
  (List.range 16).mapM fun i => partAddr d p (d.fld F.PRT_EVT_SPILL_base p * 4096 + j % spillSize d p * 16 + i)

/-- A spill record as its bytes (R398). -/
def spillBytes (c cluster core cue count : Nat) (isFree : Bool) : List Byte :=
  toLE 2 c ++ toLE 1 cluster ++ toLE 1 (core + (if isFree then 128 else 0)) ++ toLE 1 cue ++ toLE 3 0 ++ toLE 4 count ++ toLE 4 0

/-- Spill an event (R398): added into the newest record when that names the same context, core and cue, else appended;
lost when the ring is full, off or out of reach. -/
def spillEvent (p c core cue n : Nat) : Eff := .obs fun d =>
  let head := d.fld F.PRT_EVT_SPILL_PTR_head p
  let tail := d.fld F.PRT_EVT_SPILL_PTR_tail p
  let used := (head + 4294967296 - tail) % 4294967296
  let cl := partClusterOf d p (core / 16)
  let append : Eff :=
    match spillAddrs d p head with
    | some as =>
      if spillSize d p ≤ used then eventLost p c
      else .all [store as (spillBytes c cl (core % 16) cue n false),
        setF F.PRT_EVT_SPILL_PTR_head p (head + 1), addSat F.PRT_EVT_STAT_spilled p 1]
    | none => eventLost p c
  if d.fld F.PRT_EVT_SPILL_enable p == 0 then eventLost p c else
  match spillAddrs d p (head + 4294967295) with
  | some as =>
    let old := d.bytesAt as
    let count := fromLE (old.drop 8 |>.take 4)
    if used != 0 && old.take 8 == (spillBytes c cl (core % 16) cue 0 false).take 8 && count + n < 4294967296 then
      .seq (store as (spillBytes c cl (core % 16) cue (count + n) false)) (addSat F.PRT_EVT_STAT_spilled p 1)
    else append
  | none => append

/-- Add a count into the cue field of a saved record, with its overflow bit, and rewrite its CRC (R397). -/
def addToRecord (as : List Nat) (cue n : Nat) : Eff := .obs fun d =>
  let bs := d.bytesAt as
  let v := fromLE (bs.drop (0x50 + 2 * cue) |>.take 2)
  let ov := fromLE (bs.drop 0x90 |>.take 4)
  let sum := v + n
  let body := bs.take (0x50 + 2 * cue) ++ toLE 2 (min sum 65535) ++ (bs.drop (0x52 + 2 * cue)).take (0x90 - 0x52 - 2 * cue)
    ++ toLE 4 (if 65535 < sum && bit ov cue == 0 then ov + 2 ^ cue else ov) ++ (bs.drop 0x94).take (0xFC - 0x94)
  write as (body ++ toLE 4 (crc32c body))

/-- Hold an event at the target's cluster (R397): merged by context, core and cue in a table of 1,024 entries; when that
is full, into the saved record if there is a valid one, else spilled. -/
def holdEvent (p c core cue n : Nat) : Eff := .obs fun d =>
  let cl := core / 16
  let t := d.heldAt cl
  if t.any fun h => h.ctx == c && h.core == core && h.cue == cue then
    putHeld cl (t.map fun h => if h.ctx == c && h.core == core && h.cue == cue then { h with count := h.count + n, events := h.events + 1 } else h)
  else if t.length < 1024 then putHeld cl (t ++ [{ ctx := c, core := core, cue := cue, count := n }])
  else
    let leaf := (d.active p).bind fun f => leafOfCore d p f core
    match leaf.bind fun l => if (d.ctxsAt c).saved.contains core then saveAddrs d c l 0 256 else none with
    | some as => addToRecord as cue n
    | none => spillEvent p c core cue n

/-- An event for a core cue, by the state of the context it carries (R397). An event for no context is discarded. A core of the
running context that a switch or a test command has stopped takes it at once (R102); one stopped for migration does not (R290). -/
def coreEvent (p : Nat) (c? : Option Nat) (core cue n : Nat) : Eff := .obs fun d =>
  match c? with
  | none => discardEvent p
  | some c =>
    let st := d.fld F.CTX_RUN_state c
    let k := d.coresAt core
    if st == 0 || st == 5 then discardEvent p
    else if st == 6 then .skip
    else if k.ctx == some c && !k.fenced && (k.state == 1 || k.state == 2 || (k.state == 3 && st == 2)) then
      cueArrive (core / 16) (coreCue core cue) n
    else holdEvent p c core cue n

/-- The context an exclusive set's cue events are for, or the one running on a core: used for EVT_CUE_ADD (R397). -/
def ctxOnCore (d : Device) (core : Nat) : Option Nat := ((d.coresAt core).ctx).orElse fun _ => (d.coresAt core).lastCtx

/-- A cue as partition `p` names it: level, partition cluster, logical core, partition link die, index; none where the
partition has no such cue (EVT_CUE.valid). The answer is level, logical core or element, index. -/
def cueName (d : Device) (p level cluster core linkDie index : Nat) : Option (Nat × Nat × Nat) :=
  if level == 0 then
    if 32 ≤ index then none else ((partClusters d p)[cluster]?).map fun cl => (0, cl * 16 + core, index)
  else if level == 1 then ((partClusters d p)[cluster]?).map fun cl => (1, cl, index)
  else if level == 2 then ((partLinkDies d p)[linkDie]?).map fun l => (2, l, index)
  else none

/-- The key of a named cue. -/
def cueKey : Nat × Nat × Nat → Nat
  | (0, core, i) => coreCue core i
  | (1, cl, i) => clusterCue cl i
  | (_, l, i) => linkCue l i

/-- An event at a named cue for a context: core cues by R397, the others at once. -/
def cueEvent (p : Nat) (c? : Option Nat) (cue : Nat × Nat × Nat) (n : Nat) : Eff :=
  match cue with
  | (0, core, i) => coreEvent p c? core i n
  | (1, cl, i) => cueArrive cl (clusterCue cl i) n
  | q => cueAdd (cueKey q) n

/-- The cue field of a descriptor or request (R171, R278): the cue it signals on completion, if any. -/
def cueField (d : Device) (p w : Nat) : Option (Nat × Nat × Nat) :=
  if bit w 31 == 1 then cueName d p (bits w 30 29) (bits w 28 21) (bits w 20 17) (bits w 16 15) (bits w 14 9) else none

/-- Signal the cue of a completed request of context `c` (R281 step 4, R174). -/
def signalField (p c w : Nat) : Eff := .obs fun d =>
  match cueField d p w with
  | some q => cueEvent p (some c) q 1
  | none => .skip

/-! ### Events held for a context (R397, R398) -/

/-- A spill record's bytes at ring index `j`. -/
def spillRecord (d : Device) (p j : Nat) : List Byte := ((spillAddrs d p j).map d.bytesAt).getD []

/-- A spill record is free. -/
def spillFree (r : List Byte) : Bool := bit (num r 3 1) 7 == 1

/-- The indices of the records in a partition's spill ring, oldest first. -/
def spillIndices (d : Device) (p : Nat) : List Nat :=
  let h := d.fld F.PRT_EVT_SPILL_PTR_head p
  let t := d.fld F.PRT_EVT_SPILL_PTR_tail p
  (List.range ((h + 4294967296 - t) % 4294967296)).map fun i => (t + i) % 4294967296

/-- Mark a spill record free. -/
def freeSpill (p j : Nat) : Eff := .obs fun d =>
  match spillAddrs d p j with
  | some as => write as ((d.bytesAt as).set 3 (BitVec.ofNat 8 (num (spillRecord d p j) 3 1 % 128 + 128)))
  | none => .skip

/-- Advance a spill ring's tail over leading free records. -/
def trimSpill (p : Nat) : Eff := .obs fun d =>
  setF F.PRT_EVT_SPILL_PTR_tail p
    (d.fld F.PRT_EVT_SPILL_PTR_tail p + ((spillIndices d p).takeWhile fun j => spillFree (spillRecord d p j)).length)

/-- The live spill records of a context, for one core or for all. -/
def spillsOf (d : Device) (p c : Nat) (core : Option Nat) : List Nat :=
  if d.fld F.PRT_EVT_SPILL_enable p == 0 then [] else
  (spillIndices d p).filter fun j =>
    let r := spillRecord d p j
    !spillFree r && num r 0 2 == c &&
      (match core with
       | some k => num r 2 1 == partClusterOf d p (k / 16) && num r 3 1 % 16 == k % 16
       | none => true)

/-- Add a core's held and spilled events of context `c` to its cues, and forget them (R397, R398). -/
def foldEvents (p c core : Nat) : Eff := .obs fun d =>
  let mine (h : Held) : Bool := h.ctx == c && h.core == core
  let spills := spillsOf d p c (some core)
  .all [
    .each ((d.heldAt (core / 16)).filter mine) (fun h => cueAdd (coreCue core h.cue) h.count),
    modHeld (core / 16) (fun t => t.filter fun h => !mine h),
    .each spills (fun j => .seq (cueAdd (coreCue core (num (spillRecord d p j) 4 1)) (num (spillRecord d p j) 8 4)) (freeSpill p j)),
    .when (!spills.isEmpty) (trimSpill p)]

/-- How many held events and spill records a context has (R395; a spill record counts as one, log entry 12). -/
def eventCount (d : Device) (p c : Nat) : Nat :=
  (((partClusters d p).flatMap d.heldAt).filter fun h => h.ctx == c).foldl (fun a h => a + h.events) 0 +
    (spillsOf d p c none).length

/-- Discard every held and spilled event of a context. -/
def dropEvents (p c : Nat) : Eff := .obs fun d =>
  let spills := spillsOf d p c none
  .all [
    .each (partClusters d p) (fun cl => modHeld cl fun t => t.filter fun h => h.ctx != c),
    .each spills (freeSpill p), .when (!spills.isEmpty) (trimSpill p)]

/-- Discard what a context has saved and held, counting its events (R395). -/
def discardSaved (p c : Nat) : Eff := .obs fun d => .all [
  addSat F.PRT_EVT_STAT_discarded p (eventCount d p c), dropEvents p c,
  modCtxs c fun x => { x with saved := [], revoked := [] }, setF F.CTX_FAULT_resume_pending c 0]

/-! ### Placement epochs (R408) -/

/-- The logical core a stream entry's field pair names; none for a root port. -/
def strCore (d : Device) (e : Nat) (cl k : Fld) : Option Nat :=
  if d.fld cl e == 0xFF then none
  else ((partClusters d (d.fld F.STR_ENTRY_partition e))[d.fld cl e]?).map fun c => c * 16 + d.fld k e

/-- The streams that end at a logical core. -/
def streamsTo (d : Device) (core : Nat) : List Nat :=
  (d.listed .STR_ENTRY fun v => bit v 63 == 1).filter fun e =>
    strCore d e F.STR_ENTRY_dst_cluster F.STR_ENTRY_dst_core == some core

/-- The placement epoch of a core's leaf advances at every endpoint (R408, R409 step 4). -/
def advanceEpoch (core : Nat) : Eff := .obs fun d => .seq
  (putEpochs core ((d.epochsAt core + 1) % 256))
  (.each (streamsTo d core) fun e => setF F.STR_STAT_dst_epoch e ((d.epochsAt core + 1) % 256))

end Sys2Proof.Machine
end

