-- ==== Sys2Proof/Machine/Spare.lean ====
section
/-! DEFINITION. Sites, spares and routes (01_package_and_hierarchy.md R13 to R31): the binding of logical elements, what
a failure retires, the substitutions, and the routes of the die fabric. -/

namespace Sys2Proof.Machine

/-! ### The spare map (R21 to R24) -/

/-- A parent is retired: two home sites retired, or one with the spare already retired (R23). -/
def parentFails (bad : Nat → Bool) (n : Nat) : Bool :=
  let c := ((List.range n).filter bad).length
  2 ≤ c || (c == 1 && bad n)

/-- The spare core site of a cluster site is bound to a core that a planned migration has there (R205, R409). -/
def spareMoved (d : Device) (lvl q : Nat) : Bool :=
  lvl == 1 && (clusterOfSite d q).any fun cl => (List.range 16).any fun k => d.movedAt (cl * 16 + k)

/-- What retiring a site retires, the site first, then each parent that R23 retires, up to the die. A spare site that a
migrated core holds is bound. -/
def retireChain (d : Device) : Nat → Nat → Nat → List (Nat × Nat)
  | 0, lvl, site => [(lvl, site)]
  | fuel + 1, lvl, site =>
    let n := lvlCount lvl
    let q := site / (n + 1)
    if lvl < 3 && parentFails (fun j => siteBad d lvl (q * (n + 1) + j) || q * (n + 1) + j == site || (j == n && spareMoved d lvl q)) n then
      (lvl, site) :: retireChain d fuel (lvl + 1) q
    else [(lvl, site)]

/-- A site serves a logical element in the binding in use. -/
def siteServes (d : Device) (lvl site : Nat) : Bool :=
  match lvl with
  | 0 => (coreOfSite d (site / 5)).any fun k => (List.range 4).any fun e => engineSite d k e == some site
  | 1 => (coreOfSite d site).isSome
  | 2 => (clusterOfSite d site).isSome
  | _ => (dieOfSite d site).isSome

/-- The logical dies that are absent (R24). -/
def absentDies (d : Device) : List Nat := (List.range 16).filter fun i => dieSite d i == none

/-- The spare map as the body of its record (R21): the verdicts, as the retired elements; under level 14 the logical die bound to
die site 16; and under level 15 the cluster sites marked for retirement. Every other binding follows from the verdicts: a good
home site is bound to its own index, and a parent with a retired one has just that one (R22, R23). -/
def spareBody (d : Device) : List (Nat × Nat) :=
  (d.retired.filter (·.2)).map (fun e => (e.1, 1)) ++ (d.dieSpare.toList.map fun i => (siteKey 14 i, 1)) ++
    (d.marked.filter (·.2)).map fun e => (siteKey 15 e.1, 1)

/-- The binding of die site 16 is recorded. -/
def keepDieSpare : Eff := .obs fun d => putDieSpare (dieOfSite d 16)

/-- Write the spare map to its record: three copies, the next sequence number (R436). -/
def saveSpare : Eff := .obs fun d => .seq (putOldSpare (d.nvSpare.headD {}))
  (putNvSpare (List.replicate 3 ⟨true, nextSeq (d.nvSpare.map (·.seq)), spareBody d⟩))

/-- The flags of STW_SPARE_GEN follow the binding, and gen advances by 1 where `changed` (STW_SPARE_GEN, R24). Each logical
die newly absent, that is not among `before`, logs a device-severity service event. -/
def refreshGen (changed : Bool) (before : List Nat) : Eff := .obs fun d => .all [
  .when changed (addWrap F.STW_SPARE_GEN_gen 0 1),
  setF F.STW_SPARE_GEN_die_spare_used 0 (if (dieOfSite d 16).isSome then 1 else 0),
  .when (absentDies d != []) (setF F.STW_SPARE_GEN_degraded 0 1),
  .each ((absentDies d).filter fun i => !before.contains i) fun i => logError { severity := 2, flags := 1, source := 0, site := i }]

/-- The mesh maps of every cluster site follow the binding (CLU_MESH_MAP, R205). -/
def refreshMesh (site : Nat) : Eff := .obs fun d =>
  let spareFor := (List.range 16).find? fun k =>
    boundAt d 1 site k == some 16 || (clusterOfSite d site).any fun cl => d.movedAt (cl * 16 + k)
  .all [setF F.CLU_MESH_MAP_spare_bound site (if spareFor.isSome then 1 else 0),
    setF F.CLU_MESH_MAP_spare_position site (spareFor.getD 0),
    setF F.CLU_MESH_MAP_retired site
      (((List.range 17).filter fun k => siteBad d 1 (site * 17 + k)).foldl (fun a k => a + 2 ^ k) 0)]

/-- The clusters of the sites that a binding has changed follow it (R27, R29, R419): a site newly bound leaves Off, gated, and
its regulator comes up; one that serves no longer goes off with its regulator. So does the shell of die site 16. A regulator
with its phases gone stays off (R415). -/
def refreshPower : Eff := .obs fun d =>
  let rail (r : Nat) (on : Bool) : Eff := .obs fun d =>
    let dead : Bool := 3 ≤ ((List.range 8).filter fun p => bit (d.fld F.PWR_PHASE_failed r) p == 1).length
    setF F.PWR_PHASE_off r (if on && !dead then 0 else 1)
  .seq
    (.each (List.range 153) fun q =>
      if (clusterOfSite d q).isSome then .when (clusterState d q == 4) (.seq (setF F.CLK_CLU_STAT_state q 2) (rail (8 + q) true))
      else .when (clusterState d q != 4) (.all [setF F.CLK_CLU_STAT_state q 4, putXlats q [], rail (8 + q) false]))
    (rail 177 (dieOfSite d 16).isSome)

/-- Codec firmware is in the engines of a die site newly bound, its version a free value, and no longer in those of one that is
not bound (R27, VCE_CTRL.fw_ready). -/
def refreshCodecs (before : List Nat) : Eff := .obs fun d => .each (List.range 17) fun s => .each [2 * s, 2 * s + 1] fun e =>
  if (dieOfSite d s).isNone then setF F.VCE_CTRL_fw_ready e 0
  else .when (!before.contains s && !siteBad d 4 e) (withFree fun v =>
    .seq (setF F.VCE_CTRL_fw_ready e 1) (setF F.VCE_CTRL_fw_version e v))

/-- The die sites that serve a logical die. -/
def boundDies (d : Device) : List Nat := (List.range 17).filter fun s => (dieOfSite d s).isSome

/-- Retire a site now, with every parent R23 retires: the record and the binding in use both change (R22 to R24), and what the
new binding brings into service is woken (R27, R29). A core that a migration has on the retired spare site is on its home site
again. -/
def retireNow (lvl site : Nat) : Eff := .obs fun d =>
  let chain := retireChain d 3 lvl site
  let served := siteServes d lvl site
  .all [
    .each chain fun (l, s) => .seq (putRetired (siteKey l s) true) (putApplied (siteKey l s) true),
    .when (lvl == 1 && site % 17 == 16) (.each (clusterOfSite d (site / 17)).toList fun cl =>
      .upd (.movedDrop fun k => k / 16 == cl)),
    keepDieSpare, saveSpare, refreshGen served (absentDies d),
    .when (lvl ≤ 1) (refreshMesh (if lvl == 0 then site / 85 else site / 17)),
    .when (chain.any fun x => 2 ≤ x.1) (.seq refreshPower (refreshCodecs (boundDies d)))]

/-- Retire a site in the record only: the binding changes at the next start (R30, R447). -/
def retireLater (lvl site : Nat) : Eff := .seq (putRetired (siteKey lvl site) true) saveSpare

/-! ### Site lookups (R31) -/

/-- SITE_QUERY (R31): the writer's copy of the query is stored, its valid bit clears and a lookup starts. -/
def siteQuery (rq v : Nat) : Eff := .obs fun d =>
  .when (isSteward rq || isPf rq || ownsAny d rq) <| .all [
    setReg .STW_SITE_QUERY rq (bits v 17 16 * 65536 + bits v 13 8 * 256 + bits v 6 0),
    setF F.STW_SITE_RESULT_valid rq 0, putLookups rq true]

/-- The result of a query (STW_SITE_RESULT): place within the parent, and the sites down to the queried level. -/
def siteResult (d : Device) (q : Nat) : Nat :=
  let lvl := bits q 17 16
  let die := bits q 3 0
  let cl := bits q 6 4
  let k := bits q 11 8
  let e := bits q 13 12
  let core := (die * 8 + cl) * 16 + k
  let some_ (o : Option Nat) : Nat := o.getD 0
  match dieSite d die with
  | none => 2 ^ 31 + 2 * 2 ^ 28
  | some ds =>
    let cs := some_ (clusterSite d die cl) % 9
    let ks := some_ (coreSite d core) % 17
    let es := some_ (engineSite d core e) % 5
    let home : Bool := match lvl with
      | 0 => ds == die
      | 1 => cs == cl
      | 2 => ks == k
      | _ => es == e
    2 ^ 31 + (if home then 0 else 2 ^ 28) + (if 3 ≤ lvl then es * 2 ^ 24 else 0) + (if 2 ≤ lvl then ks * 2 ^ 16 else 0) +
      (if 1 ≤ lvl then cs * 2 ^ 8 else 0) + ds

/-- SITE_RESULT_VALID (R31): a lookup in progress completes with the binding as it now is. -/
def siteResultValid (rq : Nat) : Eff := .obs fun d =>
  .when (d.lookupsAt rq) <| .seq (setReg .STW_SITE_RESULT rq (siteResult d (d.reg .STW_SITE_QUERY rq))) (putLookups rq false)

/-! ### Substitutions during RUN (R29, R30, R410) -/

/-- Charge a fault event to the device (R455). -/
def chargeAvail (us : Nat) : Eff := .seq (addSat F.STW_AVAIL_charge_us 0 us) (addWrap F.STW_AVAIL_events 0 1)

/-- The checkpoint's banks come back from their shadows (R410). -/
def restoreBanks (core : Nat) : Eff := .obs fun d =>
  let lo := core * 131072
  .seq (.upd (.accDrop fun k => lo ≤ k && k < lo + 131072))
    (.each (mapKeys d.shadow fun k _ => lo ≤ k && k < lo + 131072) fun k => putAcc k (d.shadowAt k))

/-- Rewind a core to its last beat boundary and replay the beat there, or tear its context down with SUBSTITUTION where
the beat is not replayable or its state is unreadable (R410). A core with no running context has nothing to replay. -/
def replayOrTear (core : Nat) (readable : Bool) : Eff := .obs fun d =>
  let k := d.coresAt core
  match k.ctx with
  | none => .skip
  | some c =>
    if d.fld F.CTX_RUN_state c == 3 then .skip
    else if k.replayable && readable then .all [
      restoreBanks core,
      modCores core (fun k => { k with seq := k.checkpoint, waiting := false, acquiring := false, beatReads := [] }),
      advanceEpoch core, chargeAvail 100]
    else .seq (teardown c codeSubstitution) (addWrap F.STW_AVAIL_events 0 1)

/-- Every context with a set on the cores given is torn down with DATA_LOST (R29). -/
def tearCores (cores : List Nat) : Eff := .obs fun d => .each (ctxsOn d cores) fun c => teardown c codeDataLost

/-- The partitions that own a floor way of a die site or a codec engine of the logical die it serves. -/
def diePartitions (d : Device) (site : Nat) : List Nat :=
  (List.range 32).filter fun p =>
    ((List.range 16).any fun w => wayOwner d site w == some p) ||
    (dieOfSite d site).any fun die => d.fld F.PRT_CTRL_state p != 0 &&
      ((partCodecs d p).contains (2 * die) || (partCodecs d p).contains (2 * die + 1))

/-- The contexts of a die site: with a set on it, or of a partition with floor ways or codec engines there (R29). -/
def dieContexts (d : Device) (site : Nat) : List Nat :=
  let cores := match dieOfSite d site with
    | some die => (List.range 128).map (die * 128 + ·)
    | none => []
  (ctxsOn d cores ++ (diePartitions d site).flatMap (busyContexts d)).dedup

/-- The floor of die site 16 is empty as the site comes into service: its bytes read 0, unpoisoned, and its ways hold no lines
(R29). -/
def emptySpareFloor : Eff := .all [.upd (.memDrop fun a => wayBase 16 0 ≤ a && a < wayBase 17 0),
  .upd (.poisonDrop fun a => wayBase 16 0 ≤ a && a < wayBase 17 0), dropLines 16 (List.range 16)]

/-- What each retired level costs the work on it: an engine or core replays a beat, a cluster or die tears down. -/
def substituteAt (d0 : Device) (lvl site core : Nat) (readable : Bool) : Eff :=
  match lvl with
  | 0 | 1 => replayOrTear core readable
  | 2 => .seq (.each (ctxsOn d0 ((List.range 16).map (core / 16 * 16 + ·))) fun c => teardown c codeDataLost) (chargeAvail 5000)
  | _ => .seq (.each (dieContexts d0 site) fun c => teardown c codeDataLost)
      (.seq (chargeAvail 20000) (.when (site != 16 && (dieOfSite d0 16).isNone) emptySpareFloor))

/-- A site of level `lvl` fails during RUN: it is retired with the parents R23 retires, and the work on the highest level
retired is handled under R29. Where a core's spare was not free, the core's own context ends with SUBSTITUTION (R410). An
unbound site costs no work. -/
def failSite (lvl site : Nat) (readable : Bool) : Eff := .obs fun d =>
  let chain := retireChain d 3 lvl site
  let (top, topSite) := chain.getLastD (lvl, site)
  let core : Nat := match lvl with
    | 0 => (coreOfSite d (site / 5)).getD 0
    | 1 => (coreOfSite d site).getD 0
    | 2 => ((clusterOfSite d site).getD 0) * 16
    | _ => ((dieOfSite d site).getD 0) * 128
  .all [retireNow lvl site,
    .when (lvl ≤ 1 && 2 ≤ top && siteServes d lvl site) (match (d.coresAt core).ctx with
      | some c => teardown c codeSubstitution
      | none => .skip),
    .when (siteServes d lvl site) (substituteAt d top topSite core readable),
    logError { severity := 0, flags := 2, source := if lvl ≤ 1 then 6 else if lvl == 2 then 7 else 0, site := siteDie lvl site }]
where
  /-- The die site of a site of any level. -/
  siteDie (lvl site : Nat) : Nat :=
    match lvl with
    | 0 => site / 765
    | 1 => site / 153
    | 2 => site / 9
    | _ => site

/-- ENGINE_SUBSTITUTION (R29, R30): a failed engine; a second engine of the same core failing in the same cycle retires
the core directly. -/
def engineSubstitution (core e : Nat) (second : Option Nat) (readable : Bool) : Eff :=
  match second with
  | none => failSite 0 (core * 5 + e) readable
  | some e2 => .all [putRetired (siteKey 0 (core * 5 + e)) true, putApplied (siteKey 0 (core * 5 + e)) true,
      failSite 0 (core * 5 + e2) readable]

/-- CORE_SUBSTITUTION (R29). -/
def coreSubstitution (site : Nat) (readable : Bool) : Eff := failSite 1 site readable

/-- CLUSTER_SUBSTITUTION (R29). -/
def clusterSubstitution (site : Nat) : Eff := failSite 2 site false

/-- DIE_SUBSTITUTION (R29). -/
def dieSubstitution (site : Nat) : Eff := failSite 3 site false

/-- CODEC_ENGINE_RETIRE (R25): codec engine `e` (2 × die site + engine) is retired alone, reported as a service event. -/
def codecEngineRetire (e : Nat) : Eff := .all [putRetired (siteKey 4 e) true, putApplied (siteKey 4 e) true, saveSpare,
  setF F.VCE_CTRL_retired e 1,
  logService 14 (e / 2) (e % 2) 0]

/-- INGEST_UNIT_RETIRE (R25). -/
def ingestUnitRetire (site : Nat) : Eff := .all [putRetired (siteKey 5 site) true, putApplied (siteKey 5 site) true, saveSpare,
  setF F.ING_CTRL_retired site 1,
  logService 15 site 0xFFFF 0]

/-- The contexts with a window or a promotion frame in a group (R244). -/
def contextsReaching (d : Device) (g : Nat) : List Nat :=
  (List.range 32).flatMap fun p =>
    if !(partGroups d p).contains g then [] else
    let i := (groupOrder d p).idxOf g
    let reach (off len : Nat) : Bool := off < (i + 1) * 0xC0000000 && i * 0xC0000000 < off + len
    (busyContexts d p).filter fun c =>
      ((figureMap d c ++ d.drvMapAt c).any fun e => e.tier == 1 && reach e.offset e.length) ||
      reach (d.fld F.DRM_PROMO_POOL_base p * 2097152) (d.fld F.DRM_PROMO_POOL_frames p * 2097152)

/-- SHELL_RETIRE (R25): the stack of a die site is retired, its contexts' data is lost, stack_retired is set, and the site
carries no transit from then on; where its router no longer serves even its own site, the compute region goes too. -/
def shellRetire (site : Nat) (routerDead : Bool) : Eff := .obs fun d => .all [
  .each (((List.range 8).flatMap fun g => contextsReaching d (site * 8 + g)).dedup) fun c => teardown c codeDataLost,
  putRetired (siteKey 6 site) true, putApplied (siteKey 6 site) true, saveSpare,
  setF F.STW_SPARE_GEN_stack_retired 0 1, setF F.DRM_STACK_STATUS_retired site 1,
  putRoutesStale true, logService 9 site 0xFFFF 0,
  .when routerDead (failSite 3 site false)]

/-- ROUTE_INSTALL (R26): the changed routes are installed; the no-transit sites are those whose shell is retired, and writes
held for the change go on. -/
def routeInstall : Eff := .obs fun d =>
  .when d.routesStale <| .all [
    .each (List.range 16) fun s => putNoTransit s (siteBad d 6 s), putRoutesStale false, releaseWrites]

/-! ### Routes of the die fabric (R13, R17, R26) -/

/-- The sites from coordinate `a` to `b` along one axis, without `a`. -/
def axisWalk (a b : Nat) : List Nat :=
  if a ≤ b then (List.range (b - a)).map (a + 1 + ·) else (List.range (a - b)).map (a - 1 - ·)

/-- The column-first route between mesh sites: along the row's columns, then along the rows (R13). -/
def columnFirst (a b : Nat) : List Nat :=
  (axisWalk (a % 4) (b % 4)).map (a / 4 * 4 + ·) ++ (axisWalk (a / 4) (b / 4)).map (· * 4 + b % 4)

/-- The row-first route between mesh sites (R26 rule 2). -/
def rowFirst (a b : Nat) : List Nat :=
  (axisWalk (a / 4) (b / 4)).map (· * 4 + a % 4) ++ (axisWalk (a % 4) (b % 4)).map (b / 4 * 4 + ·)

/-- A route has no no-transit site among its intermediate sites. -/
def routeClear (nt : Nat → Bool) (r : List Nat) : Bool := r.dropLast.all fun s => !nt s

/-- The sidestep of R26 rule 3 along a row or a column: into the adjacent line of lower index, else higher, until one site
past the no-transit site, and back. Where on its line the route steps aside the rule does not say: DESIGN CHOICE, at the site
just before the no-transit site (log entry 119). -/
def sidestep (nt : Nat → Bool) (a b : Nat) : Option (List Nat) :=
  let same : Bool := a / 4 == b / 4
  if !same && a % 4 != b % 4 then none else
  let line := if same then a / 4 else a % 4
  let at_ (l x : Nat) : Nat := if same then l * 4 + x else x * 4 + l
  let (x, y) := if same then (a % 4, b % 4) else (a / 4, b / 4)
  match (axisWalk x y).find? fun z => nt (at_ line z) with
  | none => none
  | some z =>
    let past := if x ≤ y then z + 1 else z - 1
    let side := if line == 0 then 1 else line - 1
    let before := if x ≤ y then z - 1 else z + 1
    some ((axisWalk x before).map (at_ line) ++ [at_ side before] ++ (axisWalk before past).map (at_ side) ++
      [at_ line past] ++ (axisWalk past y).map (at_ line))

/-- The fabric neighbours of a mesh site, in ascending order. -/
def meshNeighbours (s : Nat) : List Nat :=
  (if 4 ≤ s then [s - 4] else []) ++ (if s % 4 != 0 then [s - 1] else []) ++ (if s % 4 != 3 then [s + 1] else []) ++
    (if s < 12 then [s + 4] else [])

/-- The shortest route of at most `n` hops that avoids every no-transit site between its ends, ties toward the lower site
at each hop (R26 rule 5). -/
def shortest (nt : Nat → Bool) (b : Nat) : Nat → Nat → Option (List Nat)
  | 0, _ => none
  | n + 1, a =>
    match shortest nt b n a with
    | some r => some r
    | none => (meshNeighbours a).findSome? fun s =>
        if s == b then some [b] else if nt s then none else (shortest nt b n s).map (s :: ·)

/-- The route between mesh sites under R13 and R26, without its first site. Where no route avoids every no-transit site the rules
name none: DESIGN CHOICE, the column-first route (log entry 120). -/
def meshRoute (nt : Nat → Bool) (a b : Nat) : List Nat :=
  if a == b then [] else
  if nt a || nt b || routeClear nt (columnFirst a b) then columnFirst a b
  else if routeClear nt (rowFirst a b) then rowFirst a b
  else match sidestep nt a b with
    | some r => if routeClear nt r && r.all (· < 16) then r else (shortest nt b 15 a).getD (columnFirst a b)
    | none => (shortest nt b 15 a).getD (columnFirst a b)

/-- Mesh hops between two sites (R17). -/
def meshHops (a b : Nat) : Nat :=
  (if a / 4 ≤ b / 4 then b / 4 - a / 4 else a / 4 - b / 4) + (if a % 4 ≤ b % 4 then b % 4 - a % 4 else a % 4 - b % 4)

/-- The bridge site that traffic between die site 16 and `b` uses: the nearest, the lowest-numbered of equals, no-transit
sites skipped (R13, R26 rule 4). With all four bridge sites no-transit the rules name none: DESIGN CHOICE, site 5 (log entry 120). -/
def bridgeSite (nt : Nat → Bool) (b : Nat) : Nat :=
  let cands := [5, 6, 9, 10].filter fun s => !nt s || s == b
  cands.foldl (fun best s => if meshHops s b < meshHops best b then s else best) (cands.getD 0 5)

/-- The route between any two die sites, without its first site (R13, R26). -/
def fabricRoute (nt : Nat → Bool) (a b : Nat) : List Nat :=
  if a == b then []
  else if a == 16 then bridgeSite nt b :: meshRoute nt (bridgeSite nt b) b
  else if b == 16 then meshRoute nt a (bridgeSite nt a) ++ [16]
  else meshRoute nt a b

end Sys2Proof.Machine
end

