-- ==== Sys2Proof/Machine/Rights.lean ====
section
/-! DEFINITION. Who may read and write which register (R489, and the access statement at the head of each chapter's
register section), and what a write stores by itself (R10).

Instances: registers of a partition, a context, a stack, a die site, a cluster site, a ring or a link carry that number;
where a register stands several times in a block, the block's number is multiplied by the count. Registers of a core
carry its logical core. SITE_QUERY and SITE_RESULT carry the requester. -/

namespace Sys2Proof.Machine

/-- The partition that owns a die site's floor ways in part. -/
def ownsWayOf (d : Device) (rq site : Nat) : Bool :=
  (List.range 16).any fun w => (wayOwner d site w).any fun p => isOwner d rq p

/-- The requester owns the partition that holds a logical core. -/
def ownsCore (d : Device) (rq core : Nat) : Bool := (clusterPart d (core / 16)).any fun p => isOwner d rq p

/-- The requester owns the partition that holds the logical cluster of a cluster site. -/
def ownsClusterSite (d : Device) (rq site : Nat) : Bool :=
  ((clusterOfSite d site).bind (clusterPart d)).any fun p => isOwner d rq p

/-- The requester owns the partition of a ring. -/
def ownsRing (d : Device) (rq n : Nat) : Bool := (ringPart d n).any fun p => isOwner d rq p

/-- The requester drives the context of a ring. -/
def drivesRing (d : Device) (rq n : Nat) : Bool := (ringPart d n).isSome && isCtxDriver d rq (ringCtx d n)

/-- The requester owns the partition of a context. -/
def ownsCtx (d : Device) (rq c : Nat) : Bool := (ctxPart d c).any fun p => isOwner d rq p

/-- The rings of a codec engine or an ingest unit, of which the requester drives one. -/
def drivesUnit (d : Device) (rq : Nat) (rings : List Nat) : Bool := rings.any (drivesRing d rq)

/-- The requester is the driver of a physical function, or owns an active partition (R489). -/
def pfOrOwner (d : Device) (rq : Nat) : Bool := isPf rq || ownsAny d rq

/-- A function may read a register. -/
def fnReads (d : Device) (rq : Nat) (r : Reg) (i : Nat) : Bool :=
  match r with
  | .STW_IDENT | .STW_STATE | .STW_CAPS | .STW_SPARE_GEN => true
  | .STW_SITE_QUERY | .STW_SITE_RESULT => i == rq && pfOrOwner d rq
  | .FIG_SRC | .FIG_LOAD | .FIG_STATUS | .FIG_DETAIL | .FIG_AREA | .FIG_SWITCH | .FIG_SWITCH_TIME | .FIG_DROPPED
  | .FIG_MINVER | .PRT_PFX_BASE | .PRT_PFX_CTRL | .PRT_PFX_EVLOG | .PRT_PFX_EVLOG_PTR | .PRT_PFX_USE | .PRT_PFX_REFD
  | .PRT_PFX_HITS | .PRT_PFX_MISSES | .PRT_PFX_EVENTS | .PRT_SEQ_DOORBELL | .PRT_SEQ_STAT | .DRM_PROMO_POOL
  | .DRM_PROMOTE | .DRM_PROMO_STAT | .FLS_RING_STAT | .FLS_RING_TIME | .COL_PRT_LIST | .COL_PRT_REMOVE | .PRT_CTRL
  | .PRT_SHAPE | .PRT_SHAPE_VCE | .PRT_SHAPE_LNK | .PRT_SHAPE_STR | .PRT_SHAPE_GRT | .PRT_SCHED | .PRT_SCHED_STAT
  | .PRT_EVT_SPILL | .PRT_EVT_STAT | .PRT_EVT_SPILL_PTR => isOwner d rq i
  | .FIG_STAGE => isOwner d rq (i / 8)
  | .PRT_SEQ_RING_BASE | .PRT_SEQ_RING_CFG => isOwner d rq (i / 64)
  | .PRT_SHAPE_CLU | .PRT_SHAPE_GRP => isOwner d rq (i / 4)
  | .PRT_SHAPE_SEM | .PRT_REG => isOwner d rq (i / 16)
  | .PRT_SVC_MODE => pfOrOwner d rq
  | .COR_SEQ_STATUS | .COR_FAULT | .COR_FAULT_ADDR | .COR_BEAT_STAT | .COR_ITER | .COR_SEL_STATE | .COR_NUM_STAT
  | .COR_ACC_STAT | .COR_RNG_CTR | .COR_ROW_STAT | .COR_BOUND_OVF | .COR_ROW_EXC | .COR_TMEM_ECC => ownsCore d rq i
  | .COR_LOOP_CNT => ownsCore d rq (i / 3)
  | .COR_BOUND_VAL => ownsCore d rq (i / 16)
  | .CLU_MESH_MAP | .CLU_HALO_STAT | .CLU_MESH_ERR => ownsClusterSite d rq i
  | .FLR_WAYMAP => ownsWayOf d rq i
  | .FLR_WAYOWN | .FLR_ECC | .FLR_SEM_STAT => true
  | .DRM_TRAIN | .DRM_TRAIN_MASK | .DRM_STACK_STATUS | .DRM_STACK_ECC | .DRM_CHAN_STATUS => false
  | .DRM_CTX_MAP => isCtxDriver d rq i
  | .FLS_CATALOG | .FLS_CMD | .FLS_ARG_A | .FLS_ARG_B | .FLS_STATUS | .FLS_STACK_STATUS | .FLS_STACK_WEAR
  | .FLS_SCRUB => isPf rq
  | .DMA_RING_OWN => ownsRing d rq i || drivesRing d rq i || isPf rq
  | .DMA_RING_BASE | .DMA_RING_CFG | .DMA_RING_RATE => ownsRing d rq i
  | .DMA_RING_STAT | .DMA_RING_DOORBELL | .DMA_RING_CTRL | .DMA_RING_BYTES => ownsRing d rq i || drivesRing d rq i
  | .EVT_CUE_SEL | .EVT_CUE | .EVT_CUE_ADD => isOwner d rq i || drivesIn d rq i
  | .LNK_DEVICE | .LNK_COORD | .LNK_SERIAL | .LNK_PROM_STATUS | .LNK_PROM_TIME | .LNK_PROM_CTRL | .LNK_TOPO_BASE
  | .LNK_FLOW_BASE | .LNK_DROPS | .LNK_FLOW_CTRL | .LNK_PORT_STATUS | .LNK_PORT_NBR | .LNK_PORT_ERR
  | .LNK_PORT_RETRY => pfOrOwner d rq
  | .COL_GROUP | .COL_GROUP_KEY | .COL_GROUP_STAT | .COL_GROUP_LIST | .COL_GROUP_SIZE =>
    isOwner d rq (d.fld F.COL_GROUP_partition i)
  | .VCE_CTRL | .VCE_LOAD | .VCE_RC_STAT | .VCE_ERR | .VCE_RETURN =>
    isOwner d rq (d.fld F.VCE_CTRL_partition i) || drivesUnit d rq ((List.range 8).map (vceRing i))
  | .ING_CTRL | .ING_STATUS | .ING_STAT | .ING_STREAM_BASE | .ING_STREAM_CTRL =>
    isOwner d rq (d.fld F.ING_CTRL_partition i) || drivesUnit d rq ((List.range 8).map (ingRing i))
  | .ING_PAGE => isPf rq
  | .CTX_BIND | .CTX_PRIO | .CTX_SAVE | .CTX_SEED => ownsCtx d rq i
  | .CTX_RUN | .CTX_FAULT | .CTX_STAT => ownsCtx d rq i || isCtxDriver d rq i
  | .STR_ENTRY | .STR_ENTRY_FMT | .STR_STAT => isOwner d rq (d.fld F.STR_ENTRY_partition i)
  | .PWR_STATE | .PWR_LIMIT | .PWR_GOV_STAT | .PWR_GOV_CNT | .PWR_MEAS | .PWR_WAKE | .PWR_WAKE_TIMER | .PWR_TIMES
  | .PWR_PHASE | .CLK_AON | .CLK_AON_CNT | .CLK_CLU_CTRL | .CLK_CLU_STAT => pfOrOwner d rq
  | .STW_RECORDS | .STW_FLOG_BASE | .STW_FLOG_PTR | .STW_STEWARD | .STW_AVAIL | .TST_SHUTDOWN_BUDGET
  | .TST_SHUTDOWN_STAT | .TST_CMD | .TST_STATUS | .TST_RESULT | .AGE_STATUS | .AGE_PEAK | .AGE_CLU | .AGE_VF_TABLE => isPf rq
  | .SEC_KEYSTATE | .SEC_ALARM_POLICY | .SEC_ALARM_FUSE | .SEC_TAMPER | .SEC_ROOT | .SEC_ENDORSE_MIN | .SEC_LINK_STAT
  | .SEC_DEBUG | .SEC_CTX_KEY | .SEC_CMD | .SEC_ARG | .SEC_STATUS => pfOrOwner d rq
  | .STW_BOOT | .STW_FW_STATUS | .STW_FW_CTRL | .STW_FW_SRC | .STW_FW_MINVER | .STW_PCIE | .STW_PCIE_BAR4 | .STW_DB_BIND
  | .STW_DB_RESULT | .STW_HIF_DENY | .STW_DEVRESET | .STW_MGMT | .HALT_STATUS | .HALT_CTRL => pfOrOwner d rq

/-- All 64 bits. -/
def allBits : Nat := 2 ^ 64 - 1

/-- The bits of a register a function may write (R489): all of them, some, or none. -/
def fnWrites (d : Device) (rq : Nat) (r : Reg) (i : Nat) : Nat :=
  let whole (b : Bool) : Nat := if b then allBits else 0
  match r with
  | .STW_SITE_QUERY => whole (i == rq && pfOrOwner d rq)
  | .FIG_SRC | .FIG_LOAD | .FIG_STATUS | .FIG_DETAIL | .FIG_AREA | .FIG_SWITCH | .FIG_SWITCH_TIME | .FIG_DROPPED
  | .FIG_MINVER | .PRT_PFX_BASE | .PRT_PFX_CTRL | .PRT_PFX_EVLOG | .PRT_PFX_EVLOG_PTR | .PRT_PFX_USE | .PRT_PFX_REFD
  | .PRT_PFX_HITS | .PRT_PFX_MISSES | .PRT_PFX_EVENTS | .PRT_SEQ_DOORBELL | .PRT_SEQ_STAT | .DRM_PROMO_POOL
  | .DRM_PROMOTE | .DRM_PROMO_STAT | .FLS_RING_STAT | .FLS_RING_TIME | .COL_PRT_LIST | .COL_PRT_REMOVE
  | .PRT_SCHED | .PRT_SCHED_STAT | .PRT_EVT_SPILL | .PRT_EVT_STAT | .PRT_EVT_SPILL_PTR => whole (isOwner d rq i)
  | .FIG_STAGE => whole (isOwner d rq (i / 8))
  | .PRT_SEQ_RING_BASE | .PRT_SEQ_RING_CFG => whole (isOwner d rq (i / 64))
  | .PRT_CTRL => if isOwner d rq i then 2 ^ 30 else 0
  | .COR_SEQ_STATUS | .COR_FAULT | .COR_FAULT_ADDR | .COR_BEAT_STAT | .COR_ITER | .COR_SEL_STATE | .COR_NUM_STAT
  | .COR_ACC_STAT | .COR_RNG_CTR | .COR_ROW_STAT | .COR_BOUND_OVF | .COR_ROW_EXC | .COR_TMEM_ECC =>
    whole (ownsCore d rq i)
  | .COR_LOOP_CNT => whole (ownsCore d rq (i / 3))
  | .COR_BOUND_VAL => whole (ownsCore d rq (i / 16))
  | .CLU_MESH_MAP | .CLU_HALO_STAT | .CLU_MESH_ERR => whole (ownsClusterSite d rq i)
  | .FLR_WAYMAP => whole (ownsWayOf d rq i)
  | .DRM_CTX_MAP => whole (isCtxDriver d rq i)
  | .FLS_CATALOG | .FLS_CMD | .FLS_ARG_A | .FLS_ARG_B | .FLS_STATUS | .FLS_STACK_STATUS | .FLS_STACK_WEAR
  | .FLS_SCRUB => whole (isPf rq)
  | .DMA_RING_BASE | .DMA_RING_CFG | .DMA_RING_RATE => whole (ownsRing d rq i)
  | .DMA_RING_STAT | .DMA_RING_DOORBELL | .DMA_RING_CTRL | .DMA_RING_BYTES => whole (ownsRing d rq i || drivesRing d rq i)
  | .EVT_CUE_SEL | .EVT_CUE | .EVT_CUE_ADD => whole (isOwner d rq i || drivesIn d rq i)
  | .LNK_FLOW_BASE | .LNK_FLOW_CTRL => whole (isPf rq)
  | .LNK_PROM_CTRL => whole (isPf rq && d.fld F.LNK_DEVICE_root 0 == 1)
  | .VCE_RC_STAT | .VCE_ERR | .VCE_LOAD | .VCE_RETURN =>
    whole (isOwner d rq (d.fld F.VCE_CTRL_partition i) || drivesUnit d rq ((List.range 8).map (vceRing i)))
  | .ING_STATUS | .ING_STAT | .ING_STREAM_BASE | .ING_STREAM_CTRL =>
    whole (isOwner d rq (d.fld F.ING_CTRL_partition i) || drivesUnit d rq ((List.range 8).map (ingRing i)))
  | .ING_PAGE => whole (isPf rq)
  | .CTX_BIND => if ownsCtx d rq i then 0xFFFF else 0
  | .CTX_PRIO | .CTX_SAVE | .CTX_SEED => whole (ownsCtx d rq i)
  | .CTX_RUN => if ownsCtx d rq i then 0xF0000000 else if isCtxDriver d rq i then 0xD0000000 else 0
  | .CTX_FAULT | .CTX_STAT => whole (ownsCtx d rq i || isCtxDriver d rq i)
  | .PWR_STATE | .PWR_WAKE | .PWR_WAKE_TIMER => whole (isPf rq)
  | .PWR_LIMIT => if isPf rq then 0x80000FFF else 0
  | .CLK_CLU_CTRL => whole (ownsClusterSite d rq i)
  | .TST_SHUTDOWN_BUDGET | .TST_CMD => whole (isPf rq)
  | .SEC_ALARM_POLICY => whole (isPf rq)
  | .SEC_CTX_KEY => whole (ownsCtx d rq i && d.fld F.CTX_RUN_state i == 0)
  | .SEC_CMD | .SEC_ARG | .SEC_STATUS => whole (if i == 32 then isPf rq else isOwner d rq i)
  | .STW_FW_CTRL | .STW_FW_SRC | .STW_DEVRESET | .HALT_CTRL => whole (isPf rq)
  | .STW_PCIE_BAR4 => whole (rq == rqOf (i * 1024))
  | .STW_DB_BIND => whole (isPf rq || ownsAny d rq)
  | _ => 0

/-- A requester may read a register: the steward every one. -/
def mayRead (d : Device) (rq : Nat) (r : Reg) (i : Nat) : Bool := isSteward rq || fnReads d rq r i

/-- The bits of a register a requester may write. -/
def mayWrite (d : Device) (rq : Nat) (r : Reg) (i : Nat) : Nat := if isSteward rq then allBits else fnWrites d rq r i

/-- A denied access is counted (R489). -/
def denied : Eff := addSat F.STW_HIF_DENY_registers 0 1

/-- What a write of `v` leaves in one field, by its access code (R10): RW takes the bits, W1C clears where 1 is written,
W1S sets, and the others keep their value. -/
def fieldAfter (old v : Nat) (f : Access × Nat × Nat) : Nat :=
  let (a, hi, lo) := f
  match a with
  | .rw | .rwl => putBits old hi lo (bits v hi lo)
  | .w1c => putBits old hi lo (bits old hi lo &&& ((2 ^ (hi + 1 - lo) - 1) ^^^ bits v hi lo))
  | .w1s => putBits old hi lo (bits old hi lo ||| bits v hi lo)
  | _ => old

/-- What a write of `v` leaves in a register, over the bits its writer may write. -/
def regAfter (r : Reg) (mask old v : Nat) : Nat :=
  r.info.fields.foldl (fun x f => if bits mask f.hi f.lo == 0 then x else fieldAfter x v (f.acc, f.hi, f.lo)) old

/-- What a write stores by itself (R10). -/
def storeWrite (rq : Nat) (r : Reg) (i v : Nat) : Eff := .obs fun d =>
  setReg r i (regAfter r (mayWrite d rq r i) (d.reg r i) v)

/-- A write of `v` that acts through bit `b` of a register: its fields are stored, then the action runs; a requester
without the right to the bit is denied (R489). -/
def writeAct (rq : Nat) (r : Reg) (i v b : Nat) (act : Eff) : Eff := .obs fun d =>
  if bit (mayWrite d rq r i) b == 1 then .seq (storeWrite rq r i v) act else denied

end Sys2Proof.Machine
end

