-- ==== Sys2Proof/Machine/Dram.lean ====
section
/-! DEFINITION. Floor ways, the DRAM stacks and their faults, and the promotion of flash extents
(09_on_chip_and_stacked_memory.md R223 to R230, R238 to R250). Channels are numbered stack × 32 + channel. -/

namespace Sys2Proof.Machine

/-! ### Retiring a channel (R244) -/

/-- The level under which the spare-map record lists the rows of a channel: their first repair, and their further ones (R242). -/
def rowLevel (chan n : Nat) : Nat := if n == 0 then 16 + chan else 1536 + 512 * n + chan

/-- The key of the `n`-th repair of a row in the spare-map record, counted from 0: each has taken a spare row (R242). -/
def rowKey (chan row n : Nat) : Nat := siteKey (rowLevel chan n) row

/-- How often a row has been repaired. -/
def rowRepairs (d : Device) (chan row : Nat) : Nat := ((List.range 4096).find? fun n => !d.retiredAt (rowKey chan row n)).getD 4096

/-- The key of a repaired bank in the spare-map record (R242). -/
def bankKey (chan bank : Nat) : Nat := siteKey (600 + chan) bank

/-- A channel is retired (R244): the contexts that reach its group are torn down, and the group, if it still has three
channels, is poisoned before it serves again. -/
def channelRetire (chan : Nat) : Eff := .obs fun d =>
  let g := chan / 32 * 8 + chan % 32 / 4
  .when (d.fld F.DRM_CHAN_STATUS_retired chan == 0) <| .all [
    .each (contextsReaching d g) (fun c => teardown c codeDataLost),
    setF F.DRM_CHAN_STATUS_retired chan 1,
    addWrap F.DRM_STACK_STATUS_channels_retired (chan / 32) 1,
    .obs (fun d => putGroupPoison g (!groupRetired d g)),
    logService 9 (chan / 32) (chan % 32 * 256 + 255) 0,
    putRetired (siteKey 8 chan) true, saveSpare]

/-- GROUP_POISON_DONE (R244): every line of the group reports poison until it is written again, and no floor keeps a copy of one
(R228); the writes that waited for it are made. -/
def groupPoisonDone (g : Nat) : Eff := .obs fun d =>
  .when (d.groupPoisonAt g) <| .all [
    .upd (.poisonDrop fun u => inDram u && groupOf u == g),
    putGroupLost g true,
    .obs (fun d => .each (mapKeys d.lines fun _ l => l.any fun l => inDram (l.tag * 256) && groupOf (l.tag * 256) == g) fun k =>
      putLines k none),
    putGroupPoison g false, releaseWrites]

/-! ### Repairs (R242) -/

/-- 24 hours of the 25 MHz always-on clock. -/
def dayCycles : Nat := 2160000000000

/-- Times within the last 24 hours, with the present one. -/
def recentTimes (now : Nat) (ts : List Nat) : List Nat := now :: ts.filter fun t => now < t + dayCycles

/-- A row needs repair (R242): it is remapped to a spare row and copied; the pool's last row is reported; with none left
the channel is retired. A row whose copy is under way needs no other. -/
def repairRow (chan row : Nat) : Eff := .obs fun d =>
  let left := d.fld F.DRM_STACK_STATUS_spare_rows (chan / 32)
  let bank := chan * 64 + Config.dramBank row % 64
  let now := d.reg .CLK_AON_CNT 0
  .when (!d.rowRepairAt (chan * 1048576 + row)) <|
  if left == 0 then channelRetire chan else .all [
    setF F.DRM_STACK_STATUS_spare_rows (chan / 32) (left - 1),
    addSat F.DRM_CHAN_STATUS_rows_repaired chan 1,
    putRowRepair (chan * 1048576 + row) true,
    putRowErrs (chan * 1048576 + row) [],
    modBankRepairs bank (recentTimes now),
    putRetired (rowKey chan row (rowRepairs d chan row)) true, saveSpare,
    .when (left == 1) (.seq (setF F.DRM_STACK_STATUS_rows_out (chan / 32) 1) (logService 9 (chan / 32) 0xFFFF 0))]

/-- A repair in the fault log: recovered by a spare (R242, R451). -/
def logRepair (chan row : Nat) : Eff :=
  logError { severity := 0, flags := 2, source := 9, site := chan / 32, subsite := chan % 32 * 256 + 255, info := row }

/-- ROW_REPAIR_DONE (R242, R243): the copy is over, and the channel serves its requests again, from the new row. -/
def rowRepairDone (chan row : Nat) : Eff := .obs fun d =>
  .when (d.rowRepairAt (chan * 1048576 + row)) <|
    .all [putRowRepair (chan * 1048576 + row) false, logRepair chan row, releaseWrites]

/-- BANK_REPAIR (R242): a bank with 8 rows repaired in 24 h is copied to a spare bank. -/
def bankRepair (chan bank : Nat) : Eff := .obs fun d =>
  let key := chan * 64 + bank
  let now := d.reg .CLK_AON_CNT 0
  .when (8 ≤ ((d.bankRepairsAt key).filter fun t => now < t + dayCycles).length && !d.bankCopyAt key) <|
    if 8 ≤ d.spareBanksAt (chan / 32) then channelRetire chan else .all [
      modSpareBanks (chan / 32) (· + 1),
      putBankCopy key true,
      putBankRepairs key [],
      putRetired (bankKey chan bank) true, saveSpare,
      .when (d.spareBanksAt (chan / 32) == 7)
        (.seq (setF F.DRM_STACK_STATUS_banks_out (chan / 32) 1) (logService 9 (chan / 32) 0xFFFF 0))]

/-- BANK_COPY_DONE (R242). -/
def bankCopyDone (chan bank : Nat) : Eff := .obs fun d =>
  .when (d.bankCopyAt (chan * 64 + bank)) (.seq (putBankCopy (chan * 64 + bank) false) (logRepair chan bank))

/-! ### Errors met by reads (R223, R230, R240) -/

/-- A corrected symbol of a DRAM access: counted, and the third of a row within 24 h has the row repaired (R240, R242). -/
def dramCorrected (a : Nat) : Eff := .obs fun d =>
  let (chan, o) := dramChan d a
  let row := Config.dramRow o % 1048576
  let ts := recentTimes (d.reg .CLK_AON_CNT 0) (d.rowErrsAt (chan * 1048576 + row))
  .seq (addSat F.DRM_STACK_ECC_corrected (chan / 32) 1)
    (if 3 ≤ ts.length then repairRow chan row else putRowErrs (chan * 1048576 + row) ts)

/-- An uncorrectable DRAM codeword: poisoned and counted, and its row repaired (R240, R242). -/
def dramLost (a : Nat) : Eff := .obs fun d =>
  let (chan, o) := dramChan d a
  .all [setPoison (poisonUnit a) true, addSat F.DRM_STACK_ECC_uncorrected (chan / 32) 1,
    repairRow chan (Config.dramRow o % 1048576)]

/-! ### Reads of memory -/

/-- What a read of these addresses meets: `fixed` lists addresses whose unit was corrected, `lost` those whose unit could not
be (R230, R240); addresses that the read does not touch are ignored. Blocks of flash read are disturbed (R263), and those that
fail rebuilt (R266). -/
def memErrors (as fixed lost : List Nat) : Eff :=
  let touched (xs : List Nat) : List Nat := (unitsOf (xs.filter (as.map place).contains))
  .all [
    .each (touched fixed) fun u =>
      if inDram u then dramCorrected u
      else .when (inFloor u) (addSat F.FLR_ECC_corrected (floorPlace u).1 1),
    .each (touched lost) fun u =>
      if inDram u then dramLost u
      else .when (inFloor u) (.seq (setPoison u true) (addSat F.FLR_ECC_poisoned (floorPlace u).1 1)),
    disturbReads as, flashErrors as lost]

/-- The errors a read of tile memory meets, of the words that `read` selects: words corrected, and words poisoned (R223). A
poisoned word flags the core site for the next shut-down test (R446). -/
def wordErrors (core : Nat) (read : Nat → Bool) (fixed lost : List Nat) : Eff :=
  let touched (ws : List Nat) : List Nat := (ws.filter read).dedup
  .all [
    addSat F.COR_TMEM_ECC_corrected core (touched fixed).length,
    .each (touched lost) (fun w => putTpoison (core * 196608 + w) true),
    addSat F.COR_TMEM_ECC_poisoned core (touched lost).length,
    .obs fun d => .each (if (touched lost).isEmpty then [] else (coreSite d core).toList) (putFlagged · true)]

/-- The errors met in `n` granules from `g`. -/
def tileErrors (core g n : Nat) (fixed lost : List Nat) : Eff :=
  wordErrors core (fun w => g * 8 ≤ w && w < (g + n) * 8) fixed lost

/-- PATROL_SCRUB (R241): every line of a stack is read, in RUN; `fixed` and `lost` are the errors it meets. The pass waits for a
row that is being copied and a group that is being poisoned, and a Critical stack takes no commands (R243 to R245). -/
def patrolScrub (stack : Nat) (fixed lost : List Nat) : Eff := .obs fun d =>
  let mine := (fixed ++ lost).filter fun a => inDram a && groupOf a / 8 == stack
  .when (d.fld F.PWR_STATE_state 0 == 3 && d.fld F.DRM_STACK_STATUS_state stack != 3 && !mine.any (dramHeld d)) <|
    memErrors mine fixed lost

/-! ### Training (R238, R239) -/

/-- The active partition that owns a group. -/
def groupPart (d : Device) (g : Nat) : Option Nat :=
  (List.range 32).find? fun p => d.fld F.PRT_CTRL_state p != 0 && shapeBit d .PRT_SHAPE_GRP p g

/-- DRAM_TRAIN (R238): a write of DRM_TRAIN.go; channels of groups that a running partition owns are not trained. -/
def dramTrain (rq stack v : Nat) : Eff := writeAct rq .DRM_TRAIN stack v 31 <| .obs fun d =>
  .when (bit v 31 == 1 && d.fld F.DRM_TRAIN_busy stack == 0) <|
    let named := (List.range 32).filter fun c => bit (d.fld F.DRM_TRAIN_MASK_mask stack) c == 1
    let free := named.filter fun c => (groupPart d (stack * 8 + c / 4)).isNone && !chanRetired d stack c
    .seq (setF F.DRM_TRAIN_busy stack 1)
      (putTraining stack (free.foldl (fun a c => a + 2 ^ c) 0 +
        (if named.any fun c => (groupPart d (stack * 8 + c / 4)).isSome then 2 ^ 32 else 0)))

/-- Train one channel on which `dq` further DQ lanes and `ca` command/address lanes are found to fail: spares are
substituted, or the channel is retired. -/
def trainChannel (chan dq ca : Nat) : Eff := .obs fun d =>
  let n := dq + d.dqFailedAt chan
  let dqUsed := d.fld F.DRM_CHAN_STATUS_dq_spares chan + n
  let caUsed := d.fld F.DRM_CHAN_STATUS_ca_spare chan + ca
  .all [
    putDqFailed chan 0,
    setF F.DRM_CHAN_STATUS_lane_pending chan 0,
    if 2 < dqUsed || 1 < caUsed then channelRetire chan
    else .seq (setF F.DRM_CHAN_STATUS_dq_spares chan dqUsed) (setF F.DRM_CHAN_STATUS_ca_spare chan caUsed)]

/-- Train a stack's channels; `dq` and `ca` name a channel once for each lane found to fail. -/
def trainStack (stack : Nat) (chans dq ca : List Nat) : Eff :=
  .each chans fun c => trainChannel (stack * 32 + c) (dq.count c) (ca.count c)

/-- Every stack in service is trained: at power-on and at each wake from REST (R238). `dq` and `ca` name a channel, as stack × 32 +
channel, once for each lane found to fail. -/
def trainAll (dq ca : List Nat) : Eff := .obs fun d =>
  .each ((List.range 16).filter fun k => d.fld F.DRM_STACK_STATUS_retired k == 0) fun k =>
    trainStack k ((List.range 32).filter fun c => !chanRetired d k c)
      ((dq.filter (· / 32 == k)).map (· % 32)) ((ca.filter (· / 32 == k)).map (· % 32))

/-- A training that no operand gives the outcome of: the lanes that it finds to fail are free (log entry 134). -/
def withLanes (k : List Nat → List Nat → Eff) : Eff := withFree fun v =>
  k ((Config.dqLanes v).map (· % 512)) ((Config.caLanes v).map (· % 512))

/-- DRAM_TRAIN_DONE (R238): training ends; the result is the highest code that applies. -/
def dramTrainDone (stack : Nat) (dq ca : List Nat) : Eff := .obs fun d =>
  .when (d.fld F.DRM_TRAIN_busy stack == 1) <|
    let chans := (List.range 32).filter fun c => bit (d.trainingAt stack) c == 1
    .all [
      trainStack stack chans dq ca,
      .obs (fun d' =>
        let changed (f : Fld) : Bool := chans.any fun c => d.fld f (stack * 32 + c) != d'.fld f (stack * 32 + c)
        setF F.DRM_TRAIN_result stack
          (if bit (d.trainingAt stack) 32 == 1 then 3
           else if changed F.DRM_CHAN_STATUS_retired then 2
           else if changed F.DRM_CHAN_STATUS_dq_spares || changed F.DRM_CHAN_STATUS_ca_spare then 1 else 0)),
      setF F.DRM_TRAIN_busy stack 0,
      putTraining stack 0]

/-- DQ_LANE_FAIL (R239): corrected by the code, and marked pending for the next training. -/
def dqLaneFail (chan : Nat) : Eff := .seq (setF F.DRM_CHAN_STATUS_lane_pending chan 1) (modDqFailed chan (· + 1))

/-- CA_LANE_FAIL (R239): the channel is retired at once. -/
def caLaneFail (chan : Nat) : Eff := channelRetire chan

/-- A stack's temperature state after a sample (R245): up above a threshold, down at 3 °C below it. -/
def tempState (st temp : Nat) : Nat :=
  let threshold (s : Nat) : Nat := 75 + 10 * s
  let up := ([3, 2, 1].find? fun s => threshold s < temp).getD 0
  let keep := ([3, 2, 1].find? fun s => s ≤ st && threshold s - 3 < temp).getD 0
  max up keep

/-- A sample of a DRAM stack's temperature (R245): a stack that becomes Critical is logged at device severity; one that leaves
that state makes the writes that waited for it. -/
def dramTemp (stack temp : Nat) : Eff := .obs fun d =>
  let st := d.fld F.DRM_STACK_STATUS_state stack
  let new := tempState st temp
  .all [
    setF F.DRM_STACK_STATUS_temp stack temp,
    setF F.DRM_STACK_STATUS_state stack new, sensorAt (5 + stack) new,
    .when (new == 3 && st != 3) (logError { severity := 2, source := 9, site := stack }), releaseWrites]

/-- A sample of a flash stack's temperature: library writes pause above 90 °C and resume below 87 °C (R262). -/
def flashTemp (j temp : Nat) : Eff := .all [
  setF F.FLS_STACK_STATUS_temp j (min 255 temp),
  sensorAt (21 + j) (if 90 ≤ temp then 1 else 0),
  .when (90 < temp) (setF F.FLS_STACK_STATUS_write_paused j 1),
  .when (temp < 87) (setF F.FLS_STACK_STATUS_write_paused j 0)]

/-- STACK_TEMP_SAMPLE (R245, R262): a sample of a DRAM stack, 0 to 15, or of a flash stack, 16 to 19. -/
def stackTempSample (stack temp : Nat) : Eff := if stack < 16 then dramTemp stack temp else flashTemp (stack - 16) temp

/-! ### Floor ways (R225, R229) -/

/-- The ways of a die site that a requester may change the mode of: its partitions' ways; all of them for the steward. -/
def waysOf (d : Device) (rq site : Nat) : List Nat :=
  (List.range 16).filter fun w => isSteward rq || (wayOwner d site w).any fun p => isOwner d rq p

/-- The ways given start to be cleared; what lines they held are given up. -/
def clearWays (site : Nat) (ws : List Nat) : Eff := .obs fun d => .seq
  (setF F.FLR_WAYMAP_busy site (ws.foldl (fun a w => a ||| 2 ^ w) (d.fld F.FLR_WAYMAP_busy site)))
  (dropLines site ws)

/-- WAYMAP_WRITE (R225, R229): the writer's own bits of mode change, and each way whose mode changes is cleared. -/
def waymapWrite (rq site v : Nat) : Eff := .obs fun d =>
  if mayWrite d rq .FLR_WAYMAP site == 0 then denied else
  let old := d.fld F.FLR_WAYMAP_mode site
  let changed := (waysOf d rq site).filter fun w => bit old w != bit v w
  .seq (setF F.FLR_WAYMAP_mode site (changed.foldl (fun a w => a ^^^ 2 ^ w) old)) (clearWays site changed)

/-- WAYOWN_WRITE (R225, R229): each way whose owner changes is cleared. -/
def wayownWrite (rq site i v : Nat) : Eff := .obs fun d =>
  let v := v &&& 0x9F9F9F9F
  let changed := (List.range 4).filter fun j => bits v (8 * j + 7) (8 * j) != wayOwnByte d site (4 * i + j)
  writeAct rq .FLR_WAYOWN (site * 4 + i) v 0 (clearWays site (changed.map (4 * i + ·)))

/-- WAY_CLEAR_DONE (R229): the way reads 0, and its accesses proceed. -/
def wayClearDone (site w : Nat) : Eff := .obs fun d =>
  let lo := wayBase site w
  .when (wayBusy d site w) <| .all [
    .upd (.memDrop fun a => lo ≤ a && a < lo + wayBytes),
    .upd (.poisonDrop fun a => lo ≤ a && a < lo + wayBytes),
    setF F.FLR_WAYMAP_busy site (d.fld F.FLR_WAYMAP_busy site - 2 ^ w), releaseWrites]

/-! ### Driver maps (R246, R248) -/

/-- A driver-map entry as its bytes at a partition offset give it; bad where reserved bytes are not 0 or a byte cannot be read
(R246, R252). -/
def mapEntryOf (off : Nat) (bs : List Byte) (lost : Bool) : MapEntry :=
  let f (o n : Nat) : Nat := fromLE ((bs.drop o).take n)
  { va := f 0 8, length := f 8 8, offset := f 16 8, tier := f 24 1, access := f 25 1, page := f 26 1, cluster := f 27 1
    bad := f 28 4 != 0 || lost, place := some off }

/-- The driver map of a context as memory holds it. -/
def readDriverMap (d : Device) (c : Nat) : List MapEntry :=
  match ctxPart d c with
  | none => []
  | some p => (List.range (d.fld F.DRM_CTX_MAP_count c)).filterMap fun j =>
      let off := d.fld F.DRM_CTX_MAP_base c * 64 + j * 32
      ((List.range 32).mapM fun i => partAddr d p (off + i)).map fun as => mapEntryOf off (d.bytesAt as) (anyPoison d as)

/-- A write of DRM_CTX_MAP keeps a count of at most 4,096. -/
def storeCtxMap (rq c v : Nat) : Eff := .seq (storeWrite rq .DRM_CTX_MAP c v)
  (.obs fun d => setF F.DRM_CTX_MAP_count c (min 4096 (d.fld F.DRM_CTX_MAP_count c)))

/-- DRIVER_MAP_INVAL (R248): from the write on, the context's driver map is as memory holds it, and no cluster caches a
translation of it. -/
def driverMapInval (rq c v : Nat) : Eff := .obs fun d =>
  if mayWrite d rq .DRM_CTX_MAP c == 0 then denied else
  .seq (storeCtxMap rq c v) (.when (bit v 63 == 1) (.seq (.obs fun d => putDrvMap c (readDriverMap d c))
    (dropPages fun p => p.ctx == c && p.entry.place.isSome)))

/-! ### Promotion (R249) -/

/-- The extents of the flash tier's user range. -/
def flashExtents : Nat := 1572864

/-- A partition's promoted extents. -/
def promoted (d : Device) (p : Nat) : List (Nat × Promo) :=
  d.promo.filterMap fun e => if e.1 / 2097152 == p then e.2.map fun r => (e.1 % 2097152, r) else none

/-- The frames of the promotion pool as it is now set (DRM_PROMO_POOL). -/
def poolFrames (d : Device) (p : Nat) : List Nat :=
  (List.range (d.fld F.DRM_PROMO_POOL_frames p)).map (d.fld F.DRM_PROMO_POOL_base p + ·)

/-- The key of a frame of a partition. -/
def frameKey (p frame : Nat) : Nat := p * 268435456 + frame

/-- A frame of the pool that nothing uses. -/
def freeFrame (d : Device) (p : Nat) : Option Nat :=
  (poolFrames d p).find? fun f =>
    !d.frameBusyAt (frameKey p f) && (promoted d p).all (fun e => e.2.frame != f) &&
      (d.promoJobAt p).all fun j => j.frame != f

/-- Frames in use (DRM_PROMO_STAT). -/
def countFrames (p : Nat) : Eff := .obs fun d => setF F.DRM_PROMO_STAT_in_use p (promoted d p).length

/-- The cached translations of an extent are invalidated in every cluster of the partition (R248). -/
def dropExtent (p x : Nat) : Eff := .obs fun d => dropPages fun q =>
  ctxPart d q.ctx == some p && q.entry.tier == 2 &&
    (let off := q.entry.offset + (q.va - q.entry.va)
     off < (x + 1) * 2097152 && x * 2097152 < off + pageBytes q.entry.page)

/-- Demote an extent: its frame is freed once its reads are over. -/
def demoteExtent (p x : Nat) : Eff := .obs fun d =>
  match d.promoAt (p * 2097152 + x) with
  | none => .skip
  | some r => .all [
      putPromo (p * 2097152 + x) none, dropExtent p x, putFrameBusy (frameKey p r.frame) true,
      addSat F.DRM_PROMO_STAT_demotions p 1, countFrames p]

/-- The least recently used extent that is not pinned, among those whose frames are of the pool as it is now set: with no frames
promotion is disabled. -/
def victim (d : Device) (p : Nat) : Option (Nat × Promo) :=
  let es := (promoted d p).filter fun e => !e.2.pinned && (poolFrames d p).contains e.2.frame
  es.find? fun e => es.all fun o => e.2.used ≤ o.2.used

/-- Start copying an extent into a frame: a free one, else that of the least recently used extent, which is demoted. -/
def startPromotion (p x : Nat) (pin : Bool) : Eff := .obs fun d =>
  let go (f : Nat) : Eff := .seq (putPromoJob p (some ⟨x, f, pin⟩)) (setF F.DRM_PROMOTE_busy p 1)
  match freeFrame d p with
  | some f => go f
  | none =>
    match victim d p with
    | some (y, r) => .seq (demoteExtent p y) (go r.frame)
    | none => .when pin (setF F.DRM_PROMOTE_result p 1)

/-- PROMOTE (R249): a write of DRM_PROMOTE with op 1. -/
def promoteExtent (rq p v : Nat) : Eff := writeAct rq .DRM_PROMOTE p v 30 <| .obs fun d =>
  let x := bits v 20 0
  .when ((d.promoJobAt p).isNone) <|
    if flashExtents ≤ x then setF F.DRM_PROMOTE_result p 2
    else if (d.promoAt (p * 2097152 + x)).isSome then
      .seq (modPromo (p * 2097152 + x) (Option.map fun r => { r with pinned := true })) (setF F.DRM_PROMOTE_result p 0)
    else startPromotion p x true

/-- DEMOTE (R249): a write of DRM_PROMOTE with op 2. -/
def demote (rq p v : Nat) : Eff := writeAct rq .DRM_PROMOTE p v 31 <| .obs fun d =>
  let x := bits v 20 0
  .when ((d.promoJobAt p).isNone) <|
    if flashExtents ≤ x then setF F.DRM_PROMOTE_result p 2
    else .seq (demoteExtent p x) (setF F.DRM_PROMOTE_result p 0)

/-- AUTO_PROMOTE (R249): an extent whose line reads have reached the threshold within 10 ms. -/
def autoPromote (p x : Nat) : Eff := .obs fun d =>
  let t := d.fld F.DRM_PROMO_POOL_threshold p
  let (n, since) := d.promoReadsAt (p * 2097152 + x)
  .when (t != 0 && t ≤ n && d.reg .CLK_AON_CNT 0 ≤ since + 250000 && (d.promoJobAt p).isNone && x < flashExtents &&
      (d.promoAt (p * 2097152 + x)).isNone) <|
    .seq (putPromoReads (p * 2097152 + x) (0, 0)) (startPromotion p x false)

/-- PROMOTE_DONE (R249): the extent's bytes, and what of it is lost, are in the frame. -/
def promoteDone (p : Nat) : Eff := .obs fun d =>
  match d.promoJobAt p with
  | none => .skip
  | some j =>
    let src := (List.range 2097152).map fun i => flashBase + j.extent * 2097152 + i
    let dst := (List.range 2097152).filterMap fun i => partAddr d p (j.frame * 2097152 + i)
    .when (!d.frameBusyAt (frameKey p j.frame) && !agentHeld d (some p) dst) <| .all [
      store dst (d.bytesAt src),
      .each ((dst.zip src).filter fun x => d.badByte x.2) (fun x => setPoison (poisonUnit x.1) true), disturbReads src,
      putPromo (p * 2097152 + j.extent) (some ⟨j.frame, j.pin, d.promoTick⟩), dropExtent p j.extent,
      putPromoTick (d.promoTick + 1),
      putPromoJob p none,
      setF F.DRM_PROMOTE_busy p 0, .when j.pin (setF F.DRM_PROMOTE_result p 0),
      countFrames p]

/-- FRAME_FREE (R249): the reads of a demoted extent's frame are over. -/
def frameFree (p frame : Nat) : Eff := putFrameBusy (frameKey p frame) false

/-- Count the line reads of flash extents that a read of the partition made, and the use of promoted ones (R249). -/
def countReads (p : Nat) (as : List Nat) : Eff := .obs fun d =>
  let now := d.reg .CLK_AON_CNT 0
  .seq
    (.each ((as.filter inFlash).map (fun a => a / 256)).dedup fun l =>
      modPromoReads (p * 2097152 + (l * 256 - flashBase) / 2097152) fun ns =>
        if now ≤ ns.2 + 250000 && ns.1 != 0 then (ns.1 + 1, ns.2) else (1, now))
    (.each ((promoted d p).filter fun e =>
        match partAddr d p (e.2.frame * 2097152) with
        | some b => as.any fun a => b ≤ a && a < b + 2097152
        | none => false) fun e =>
      .seq (modPromo (p * 2097152 + e.1) (Option.map fun r => { r with used := d.promoTick })) (modPromoTick (· + 1)))

end Sys2Proof.Machine
end

