-- ==== Sys2Proof/Machine/Operands.lean ====
section
/-! DEFINITION. The operand forms of tile steps (03_tile_programs.md R70, R76 to R80): tile addresses, address patterns,
shapes, windows; reading and writing tile memory with its poison (R223) and the beat's replay bookkeeping (R410). -/

namespace Sys2Proof.Machine

/-- What a step runs with: its core, context, partition, figure, leaf, program, the step word, and the sequencer as the
step was arrived at. -/
structure StepCtx where
  core : Nat
  ctx : Nat
  part : Nat
  fig : Figure
  leaf : Nat
  prog : Nat
  w : BitVec 128
  q : Seq
  /-- The errors its reads meet: corrected and uncorrectable, as words of tile memory or as memory addresses. -/
  fixed : List Nat := []
  lost : List Nat := []
  deriving DecidableEq, Repr

/-- The counter of loop level `l`; level 0 and a level that is not open read 0 (R75, R77). -/
def Seq.counter (q : Seq) (l : Nat) : Nat := if l == 0 then 0 else q.counters.getD (l - 1) 0

/-- The offset of an address pattern (R77). -/
def patOffset (q : Seq) (pat : Nat) : Int :=
  (q.counter (bits pat 31 29) : Int) * signed (bits pat 28 16) 13 +
    (q.counter (bits pat 15 13) : Int) * signed (bits pat 12 0) 13

/-- The first granule of a tile-address field (R76). -/
def tileGranule (d : Device) (x : StepCtx) (f : Nat) : Int :=
  (bits f 23 9 : Int) + (if bit f 8 == 1 then patOffset x.q (constReg d x.core (bits f 7 0)) else 0)

/-- `n` granules from `g` lie in tile memory (R78). -/
def granulesOk (g : Int) (n : Nat) : Bool := 0 ≤ g && g + (n : Int) ≤ 24576

/-- A shape constant: rows, granules a row, external pitch in granules (R79). -/
def shapeOf (v : Nat) : Nat × Nat × Nat :=
  let len := bits v 19 10 + 1
  (bits v 31 20 + 1, len, if bits v 9 0 == 0 then len else bits v 9 0)

/-! ### Tile memory -/

/-- The bytes of a core's tile memory: 1.5 MiB, or 196,608 words of 64 bits (R20). -/
def tileMemBytes : Nat := 1572864

/-- The key of byte `b` of a core's tile memory. -/
def tileByte (core b : Nat) : Nat := core * tileMemBytes + b

/-- Bytes of a core's tile memory. -/
def tileBytes (d : Device) (core b n : Nat) : List Byte := (List.range n).map fun i => d.tmemAt (tileByte core (b + i))

/-- A little-endian number in a core's tile memory. -/
def tileNum (d : Device) (core b n : Nat) : Nat := fromLE (tileBytes d core b n)

/-- The granule of the first poisoned word among those of `n` granules from `g` that `need` selects, counted from `g`
(R223). -/
def poisonedWords (d : Device) (core g n : Nat) (need : Nat → Bool) : Option Nat :=
  ((List.range (n * 8)).find? fun w => need w && d.tpoisonAt (core * 196608 + g * 8 + w)).map fun w => g + w / 8

/-- Write bytes of tile memory; every word written whole loses its poison (R223). -/
def wrTile (core b : Nat) (bs : List Byte) : Eff :=
  .seq (.each (List.range bs.length) fun i => putTmem (tileByte core (b + i)) (bs.getD i 0))
    (.upd (.tpoisonDrop fun k => core * 196608 + ceilDiv b 8 ≤ k && k < core * 196608 + (b + bs.length) / 8))

/-- Clear a core's tile memory and its poison (R224). -/
def clearTile (core : Nat) : Eff :=
  .seq (.upd (.tmemDrop fun k => tileByte core 0 ≤ k && k < tileByte (core + 1) 0))
    (.upd (.tpoisonDrop fun k => core * 196608 ≤ k && k < (core + 1) * 196608))

/-! ### Replay (R410) -/

/-- The beat can no longer be replayed. -/
def notReplayable (core : Nat) : Eff := modCores core fun k => { k with replayable := false }

/-- The beat has read `n` granules from `g`. -/
def noteRead (core g n : Nat) : Eff := modCores core fun k => { k with beatReads := (g, n) :: k.beatReads }

/-- The beat writes `n` granules from `g`: not replayable when it has read one of them before. -/
def noteWrite (core g n : Nat) : Eff := modCores core fun k =>
  if k.beatReads.any fun r => r.1 < g + n && g < r.1 + r.2 then { k with replayable := false } else k

/-! ### Windows (R80) -/

/-- The window a step names. -/
def stepWindow (x : StepCtx) (i : Nat) : WindowRec := x.fig.windows.getD i {}

/-- The offsets, in bytes, of an external block of `rows` rows of `len` granules at `pitch` (R79). -/
def blockOffsets (ext : Int) (rows len pitch : Nat) : List Int :=
  (List.range rows).flatMap fun r => (List.range (len * 64)).map fun (b : Nat) => (ext + (r * pitch : Nat)) * 64 + (b : Int)

/-- The first byte offset outside a window (R80). -/
def outsideWindow (win : WindowRec) (os : List Int) : Option Int := os.find? fun o => o < 0 || (win.length : Int) ≤ o

/-- The virtual address of an offset into a window, as 56 bits. -/
def windowVa (win : WindowRec) (o : Int) : Nat := (((win.va : Int) + o) % (2 ^ 56 : Nat)).toNat

/-- How an external access of a step comes out. -/
inductive ExtOut where
  /-- Served at these physical addresses. -/
  | served (as : List Nat)
  /-- A fault of R100 with its address. -/
  | fault (code addr : Nat)
  /-- Held: a way being cleared, a group being poisoned, or a Critical stack. -/
  | held
  deriving DecidableEq, Repr

/-- A LOAD's access to an address is served by a line of its die's floor (R227). -/
def floorCopy (d : Device) (x : StepCtx) (a : Nat) : Bool :=
  (dieSite d (x.core / 128)).any fun s => (lineHit d x.part s a).isSome

/-- No address is served by a floor line: a STORE and an ATOM reach their tier. -/
def noCopy (_ : Nat) : Bool := false

/-- An external access of a step to the offsets `os` of a window (R80, R247), of which a floor line serves those that `near`
selects; data to be read from its tier must be free of poison. -/
def extAccess (d : Device) (x : StepCtx) (win : WindowRec) (os : List Int) (k : Kind) (reads : Bool) (near : Nat → Bool) : ExtOut :=
  match outsideWindow win os with
  | some o => .fault 0x02 (windowVa win o)
  | none =>
    match os.find? fun o => (translate d x.ctx (windowVa win o) k).isNone with
    | some o => .fault 0x03 (windowVa win o)
    | none =>
      let as := os.filterMap fun o => translate d x.ctx (windowVa win o) k
      if agentHeld d (some x.part) (as.filter fun a => !near a) then .held
      else
        match (if reads then os.find? fun o =>
            (translate d x.ctx (windowVa win o) k).any fun a => !near a && d.badByte a else none) with
        | some o => .fault 0x05 (windowVa win o)
        | none => .served as

/-- The physical addresses that an access of a step touches, where it is not held. -/
def extTouched (d : Device) (x : StepCtx) (win : WindowRec) (os : List Int) (k : Kind) : List Nat :=
  let as := os.filterMap fun o => translate d x.ctx (windowVa win o) k
  if agentHeld d (some x.part) as then [] else as

/-! ### Floor lines of a core's reads (R227, R230) -/

/-- The errors that a read meets in floor lines, at those of the addresses `as` that they serve: a word corrected is counted, and
a line with a word that cannot be corrected is invalidated, to be read again from its tier, and counted (R230). -/
def lineErrors (x : StepCtx) (as fixed lost : List Nat) : Eff := .obs fun d =>
  .each (dieSite d (x.core / 128)).toList fun s => .all [
    addSat F.FLR_ECC_corrected s ((as.filter fun a => fixed.contains (place a)).map (place · / 8)).dedup.length,
    .each ((as.filter fun a => lost.contains (place a)).filterMap (lineHit d x.part s)).dedup fun k =>
      .seq (putLines k none) (addSat F.FLR_ECC_refetched s 1)]

/-- The errors that a LOAD's reads meet, in floor lines and in the tiers (R230, R240), and the flash blocks it reads (R263). -/
def readErrors (x : StepCtx) (as fixed lost : List Nat) : Eff := .obs fun d =>
  let near := as.filter (floorCopy d x)
  let far (xs : List Nat) : List Nat := xs.filter fun a => !(near.map place).contains a
  .when (!agentHeld d (some x.part) (as.filter fun a => !floorCopy d x a)) <| .seq (lineErrors x near fixed lost) <| .obs fun d =>
    memErrors (as.filter fun a => !floorCopy d x a) (far fixed) (far lost)

/-- The lines that a LOAD has read: a hit is used again, and a miss is allocated unless the step sets no_alloc (R81, R227). -/
def cacheReads (x : StepCtx) (noAlloc : Bool) (as : List Nat) : Eff := .obs fun d =>
  .each (dieSite d (x.core / 128)).toList fun s => .each (as.map (· / 256)).dedup fun t => .obs fun d =>
    match lineHit d x.part s (t * 256) with
    | some k => useLine k t
    | none => .when (!noAlloc) (fillLine x.part s (t * 256))

/-! ### Cached translations (R248) -/

/-- The cluster site of a core. -/
def coreCluster (d : Device) (core : Nat) : Option Nat := clusterSite d (core / 128) (core / 16 % 8)

/-- The pages that virtual addresses of a step's context lie in and that its cluster has not cached: a miss walks the maps. -/
def walkedPages (d : Device) (x : StepCtx) (vas : List Nat) : List CachedPage :=
  let cached := (coreCluster d x.core).map (d.xlatsAt ·) |>.getD []
  (((vas.map (· / 65536)).dedup.filterMap fun b => (coverEntry d x.ctx (b * 65536)).map fun e =>
    { ctx := x.ctx, va := b * 65536 / pageBytes e.page * pageBytes e.page, entry := e : CachedPage }).dedup).filter
    fun p => !cached.contains p

/-- The bytes that the walks for some pages read: their records of the driver map. -/
def walkAddrs (d : Device) (p : Nat) (ps : List CachedPage) : List Nat :=
  (ps.filterMap fun q => q.entry.place).flatMap fun o => (List.range 32).filterMap fun i => partAddr d p (o + i)

/-- A cluster caches a translation; with 1,024 it gives up another, the choice of which the spec leaves open (log entry 133). -/
def cachePage (s : Nat) (p : CachedPage) : Eff := .obs fun d =>
  if (d.xlatsAt s).length < 1024 then putXlats s (p :: d.xlatsAt s)
  else withFree fun v => putXlats s (p :: (d.xlatsAt s).eraseIdx (v % 1024))

/-- The pages whose translations an access of a step to offsets of a window misses. -/
def stepPages (d : Device) (x : StepCtx) (win : WindowRec) (os : List Int) : List CachedPage :=
  if (outsideWindow win os).isSome then [] else walkedPages d x (os.map (windowVa win))

/-- A step's access to offsets of a window first has the translations it misses walked (R248). A walk waits where a map's memory
is held; one that meets an uncorrectable error faults the step with TRANSLATION and logs a contained error (R252). -/
def withWalk (x : StepCtx) (win : WindowRec) (os : List Int) (fixed lost : List Nat) (fault : Nat → Eff) (k : Eff) : Eff :=
  .obs fun d =>
  let ps := stepPages d x win os
  let as := walkAddrs d x.part ps
  .when (!agentHeld d (some x.part) as) <| .seq (memErrors as fixed lost) <| .obs fun d =>
    if anyPoison d as then .seq (logError { severity := 1, source := 9, code := 3, context := x.ctx })
      (fault ((ps.find? fun p => anyPoison d (walkAddrs d x.part [p])).map (·.va) |>.getD 0))
    else .seq (.each (coreCluster d x.core).toList fun s => .each ps (cachePage s)) k

end Sys2Proof.Machine
end

