-- ==== Sys2Proof/Machine/Sequencer.lean ====
section
/-! DEFINITION. The tile sequencer (03_tile_programs.md R69 to R75, R95 to R100, R525): arriving at a step, running it,
going on, beat boundaries, faults. -/

namespace Sys2Proof.Machine

/-! ### Moving (R74, R75, R525) -/

def stepOpen (w : BitVec 128) : Nat := sb w 123 121
def stepClose (w : BitVec 128) : Nat := sb w 120 118

/-- The step that closes the loop which step `p` opens at level `n`: the first from `p` on whose close reaches `n`. -/
def closeOf (steps : List (BitVec 128)) (p n : Nat) : Nat :=
  p + ((steps.drop p).findIdx fun w => 1 ≤ stepClose w && stepClose w ≤ n)

/-- A loop register with level `l` replaced. -/
def setLevel (xs : List Nat) (l v : Nat) : List Nat := xs.set (l - 1) v

/-- Pass the end of the program: the next iteration begins at step 0 (R75). -/
def Seq.wrapEnd (q : Seq) (len : Nat) : Seq :=
  if q.ptr < len then q else { q with ptr := 0, iteration := (q.iteration + 1) % 4294967296 }

/-- Arrive at the step pointer (R75): open its loop unless it was reached by a loop-back; a body whose trip count is 0 is
skipped. The fuel bounds the skips of one arrival. -/
def arrive (steps : List (BitVec 128)) : Nat → Seq → Seq
  | 0, q => q
  | fuel + 1, q =>
    let w := steps.getD q.ptr 0
    let n := stepOpen w
    if n == 0 || q.reentry then q else
    let t := if sb w 116 116 == 0 then sb w 115 100 else q.dynTrip
    let q1 := { q with trips := setLevel q.trips n t, counters := setLevel q.counters n 0,
                       starts := setLevel q.starts n q.ptr, depth := n }
    if t == 0 then
      arrive steps fuel ({ q1 with depth := n - 1, ptr := closeOf steps q.ptr n + 1, reentry := false }.wrapEnd steps.length)
    else q1

/-- The sequencer once bodies of trip count 0, skipped one after another from the step pointer on, have carried it past the
program's end (R75); none where a step remains to be executed. -/
def skipsOut (steps : List (BitVec 128)) : Nat → Seq → Option Seq
  | 0, _ => none
  | fuel + 1, q =>
    let w := steps.getD q.ptr 0
    let n := stepOpen w
    if n == 0 || q.reentry || (if sb w 116 116 == 0 then sb w 115 100 else q.dynTrip) != 0 then none else
    let q1 := { q with trips := setLevel q.trips n 0, counters := setLevel q.counters n 0, starts := setLevel q.starts n q.ptr,
                       depth := n - 1, ptr := closeOf steps q.ptr n + 1 }
    if q1.ptr < steps.length then skipsOut steps fuel q1 else some (q1.wrapEnd steps.length)

/-- The sequencer moved to a step that it did not reach by a loop-back, and whether the program ended on the way. -/
def landed (steps : List (BitVec 128)) (q : Seq) : Seq × Bool :=
  match skipsOut steps (steps.length + 1) q with
  | some e => (e, true)
  | none => (q, false)

/-- Close loops from the current depth out to level `c` (R75): true where one of them loops back. -/
def closeLoops (c : Nat) : Nat → Seq → Seq × Bool
  | 0, q => (q, false)
  | fuel + 1, q =>
    if q.depth < c || q.depth == 0 then (q, false) else
    let n := q.counter q.depth + 1
    if n < q.trips.getD (q.depth - 1) 0 then
      ({ q with counters := setLevel q.counters q.depth n, ptr := q.starts.getD (q.depth - 1) 0, reentry := true }, true)
    else closeLoops c fuel { q with counters := setLevel q.counters q.depth 0, depth := q.depth - 1 }

/-- The sequencer after a step completes: a loop-back first, then a SEL's jump, then the next step or the program's end
(R75, R525). True where the program ended. -/
def leave (steps : List (BitVec 128)) (w : BitVec 128) (jump : Option Nat) (q : Seq) : Seq × Bool :=
  let (q1, back) := if stepClose w == 0 then (q, false) else closeLoops (stepClose w) 6 q
  if back then (q1, false) else
  match jump with
  | some t => landed steps { q1 with ptr := t, reentry := false }
  | none =>
    if q1.ptr + 1 < steps.length then landed steps { q1 with ptr := q1.ptr + 1, reentry := false }
    else ({ q1 with ptr := 0, reentry := false, iteration := (q1.iteration + 1) % 4294967296 }, true)

/-! ### Beat boundaries (R96, R410, R66) -/

/-- Copy the live banks of a core into its bank shadows (R410). -/
def shadowBanks (core : Nat) : Eff := .obs fun d =>
  let lo := core * 131072
  .seq (.upd (.shadowDrop fun k => lo ≤ k && k < lo + 131072))
    (.each (mapKeys d.acc fun k _ => lo ≤ k && k < lo + 131072) fun k => putShadow k (d.accAt k))

/-- A figure with a patch record applied: the leaf's program, and the constants it brings (R65, R66). -/
def Figure.withPatch (f : Figure) (r : PendingPatch) : Figure :=
  { f with
    sets := f.sets.set r.set { f.set r.set with program := r.program }
    consts := r.consts ++ f.consts.filter fun c => !r.consts.any fun b => b.owner == c.owner && b.kind == c.kind && b.slot == c.slot }

/-- A core once a patch record of its leaf has applied to it (R66): a mode 1 record goes on at its resume step, which is not
reached by a loop-back; a mode 0 record starts at step 0. Loop registers are kept. -/
def Core.patched (p : Nat) (k : Core) (r : PendingPatch) : Core :=
  { k with
    loaded := some (p, r.set, r.program)
    waiting := if r.mode == 1 then false else k.waiting
    state := if r.mode == 1 && k.state == 2 then 1 else k.state
    seq := { k.seq with ptr := if r.mode == 1 then r.resume else 0, reentry := false } }

/-- Apply the pending patch records of a core's leaf that are due at this boundary (R66): mode 1 at any beat boundary,
mode 0 where the program starts from step 0. Several records due at once apply in their order, so that the last stands (log
entry 124). Patch_pending falls when the last record of the partition has applied. -/
def applyPatches (core : Nat) (atStart : Bool) : Eff := .obs fun d =>
  match (d.coresAt core).loaded with
  | none => .skip
  | some (p, leaf, _) =>
    let now (r : PendingPatch) : Bool := r.set == leaf && (r.mode == 1 || atStart)
    let due := (d.patchesAt p).filter now
    let left := (d.patchesAt p).filter fun r => !now r
    let slot := p * 8 + d.fld F.FIG_STATUS_active_slot p
    .when (!due.isEmpty) <| .all [
      modSlots slot (Option.map fun f => due.foldl Figure.withPatch f),
      modCores core (fun k => due.foldl (Core.patched p) k),
      putPatches p left,
      .when left.isEmpty (.seq (setF F.FIG_STAGE_patch_pending slot 0)
        (.when (d.fld F.FIG_STATUS_state p == 7) (setF F.FIG_STATUS_state p 4)))]

/-- A context that is stopping to become idle is idle once each of its cores has stopped (R395). -/
def settleStop (core : Nat) : Eff := .obs fun d =>
  match (d.coresAt core).ctx with
  | none => .skip
  | some c =>
    let cores := (ctxCores d c).filter fun k => (d.coresAt k).ctx == some c
    .when ((d.ctxsAt c).halting && (d.preempts.all fun q => q.outgoing != c) &&
        cores.all fun k => (d.coresAt k).state == 3) <| .all [
      .each cores (fun k => modCores k fun x =>
        { x with ctx := none, state := 0, stopReq := false, waiting := false, acquiring := false }),
      modCtxs c (fun x => { x with halting := false }),
      .each (ctxPart d c).toList (fun p => discardSaved p c),
      setF F.CTX_RUN_state c 0]

/-- A core reaches a beat boundary: patches due apply, a checkpoint is taken, and a requested stop or a fence takes effect
there (R96, R66, R410, R409). -/
def beatBoundary (core : Nat) (atStart : Bool) : Eff := .all [
  applyPatches core atStart,
  shadowBanks core,
  modCores core (fun k => { k with
    atBeat := true, replayable := true, checkpoint := k.seq, beatReads := [],
    state := if k.stopReq || k.fenced then 3 else k.state }),
  settleStop core]

/-! ### Faults (R100) -/

/-- A core records a fault's code, step pointer and address, unless it holds a record. -/
def coreFault (core code ptr addr : Nat) : Eff := .obs fun d =>
  .when (d.fld F.COR_FAULT_valid core == 0) <| .all [
    setReg .COR_FAULT core (2 ^ 31 + ptr * 2 ^ 14 + code), setReg .COR_FAULT_ADDR core (addr % 2 ^ 56)]

/-- A step faults: the code, pointer and address are recorded, and the context is torn down. -/
def stepFault (x : StepCtx) (code addr : Nat) : Eff := .all [
  coreFault x.core code x.q.ptr addr,
  modCores x.core (fun k => { k with seq := { k.seq with ptr := x.q.ptr } }),
  teardownWith x.ctx code x.leaf x.q.ptr 0]

/-! ### Running a step -/

/-- What a core would run now: it is loaded, running a context, and its step pointer names a step. -/
def stepCtx (d : Device) (core : Nat) : Option StepCtx :=
  let k := d.coresAt core
  match coreFigure d core, k.ctx with
  | some (p, f, leaf, prog), some c =>
    let steps := f.steps prog
    let q := arrive steps (steps.length + 1) k.seq
    (steps[q.ptr]?).map fun w =>
      { core := core, ctx := c, part := p, fig := f, leaf := leaf, prog := prog, w := w, q := q }
  | _, _ => none

/-- The neighbouring position of logical core `i` of a cluster (R203). -/
def meshNeighbour (i dir : Nat) : Option Nat :=
  match dir with
  | 0 => if 4 ≤ i then some (i - 4) else none
  | 1 => if i % 4 ≤ 2 then some (i + 1) else none
  | 2 => if i < 12 then some (i + 4) else none
  | _ => if 1 ≤ i % 4 then some (i - 1) else none

/-- The HALOs of a core that are issued and not complete: those held at a neighbour's switch (R204, R206). -/
def halosOf (d : Device) (core : Nat) : List HeldHalo :=
  ((List.range 4).filterMap (meshNeighbour (core % 16))).flatMap fun nb =>
    (d.halosAt (core / 16 * 16 + nb)).filter fun h => h.src == core

/-- COR_BEAT_STAT counts a beat of `cycles` core cycles (R97). -/
def countBeat (core cycles : Nat) : Eff := .seq
  (.when (48000 < cycles) (addSat F.COR_BEAT_STAT_overruns core 1))
  (.obs fun d => setF F.COR_BEAT_STAT_longest core (max (d.fld F.COR_BEAT_STAT_longest core) (min 65535 (cycles / 16))))

/-- An iteration ends, with every step of it complete: a beat boundary (R96). The length of the beat that ends here is a free
value (log entry 47). -/
def endIteration (core : Nat) : Eff := .all [
  withFree (fun v => countBeat core (v % 4294967296)), modCores core (fun k => { k with ending := false }),
  beatBoundary core true]

/-- Leave the step of `x` with its sequencer as it then is, taking a SEL's jump where one is given. The end of the program is a
beat boundary once every step of the iteration has completed (R96). -/
def stepDone (x : StepCtx) (jump : Option Nat) : Eff := .obs fun d =>
  let k := d.coresAt x.core
  let (q, ended) := leave (x.fig.steps x.prog) x.w jump k.seq
  let late := !(halosOf d x.core).isEmpty
  .seq (putCores x.core { k with
      seq := { q with live := 0 }, waiting := false, acquiring := false, atBeat := false, state := 1, ending := ended && late })
    (.when (ended && !late) (endIteration x.core))

/-- A step of a core may issue (R69): the core runs, no step holds issue back, fewer than 16 steps are in flight, and a step that
waits for every earlier one meets none. -/
def canIssue (d : Device) (core : Nat) (w : BitVec 128) : Bool :=
  let k := d.coresAt core
  let inFlight := (halosOf d core).length
  k.state == 1 && !k.waiting && !k.ending && inFlight < 16 &&
    (inFlight == 0 || (sb w 117 117 == 0 && !([10, 12, 13, 14].contains (stepKind w))))

/-- Issue the step at a core's pointer when it is of kind `kind` and `p` holds of its word: the sequencer arrives at it
and `run` has its effect, with the memory errors its reads meet. A command whose step is not the one at the pointer does
nothing (log entry 7). -/
def issueWith (core kind : Nat) (p : BitVec 128 → Bool) (fixed lost : List Nat) (run : StepCtx → Eff) : Eff := .obs fun d =>
  match stepCtx d core with
  | some x =>
    .when (canIssue d core x.w && stepKind x.w == kind && p x.w) <|
      .seq (modCores core fun k => { k with seq := x.q }) (run { x with fixed := fixed, lost := lost })
  | none => .skip

/-- Go on with a write of `n` granules from `g` of a core's tile memory, unless an earlier HALO that reads one of them is still
in flight: the later step then waits (R70, R102). -/
def unlessRead (core g n : Nat) (k : Eff) : Eff := .obs fun d =>
  .when ((halosOf d core).all fun h => h.first + h.bytes.length / 64 ≤ g || g + n ≤ h.first) k

/-- Issue a step whose reads meet no error. -/
def issue (core kind : Nat) (p : BitVec 128 → Bool) (run : StepCtx → Eff) : Eff := issueWith core kind p [] [] run

/-- The errors that reading the words of `n` granules from `g` that `need` selects meets. -/
def spanErrors (x : StepCtx) (g n : Nat) (need : Nat → Bool) : Eff :=
  wordErrors x.core (fun w => g * 8 ≤ w && w < (g + n) * 8 && need (w - g * 8)) x.fixed x.lost

/-- Read a tile operand of `n` granules at `g`, of which the step reads the words that `need` selects, and go on with it:
TILE_RANGE where it leaves tile memory, TILE_ECC where a word it reads is poisoned (R78, R223). -/
def withWords (x : StepCtx) (g : Int) (n : Nat) (need : Nat → Bool) (k : Nat → Eff) : Eff :=
  if !granulesOk g n then stepFault x 0x01 ((g % 2 ^ 56).toNat) else
  .seq (spanErrors x g.toNat n need) <| .obs fun d =>
  match poisonedWords d x.core g.toNat n need with
  | some bad => stepFault x 0x04 bad
  | none => .seq (noteRead x.core g.toNat n) (k g.toNat)

/-- A tile operand that is read whole. -/
def wholeWords (_ : Nat) : Bool := true
def withTile (x : StepCtx) (g : Int) (n : Nat) (k : Nat → Eff) : Eff := withWords x g n wholeWords k

/-- Check a tile destination of `n` granules at `g`, and go on with it (R78). -/
def withDest (x : StepCtx) (g : Int) (n : Nat) (k : Nat → Eff) : Eff :=
  if !granulesOk g n then stepFault x 0x01 ((g % 2 ^ 56).toNat) else
  unlessRead x.core g.toNat n (.seq (noteWrite x.core g.toNat n) (k g.toNat))

/-! ### BEAT, WAIT, SIGNAL, SEL (R89, R90, R93, R94) -/

/-- The bank of a core. -/
def Seq.bank (q : Seq) (b : Nat) : Bank := if b == 0 then q.bank0 else q.bank1

/-- A sequencer with a bank's status replaced. -/
def Seq.setBank (q : Seq) (b : Nat) (k : Bank) : Seq := if b == 0 then { q with bank0 := k } else { q with bank1 := k }

/-- Empty a bank: it counts as 0 (R82). -/
def emptyBank (core b : Nat) : Eff :=
  let lo := (core * 2 + b) * 65536
  .seq (.upd (.accDrop fun k => lo ≤ k && k < lo + 65536))
    (modCores core fun k => { k with seq := k.seq.setBank b { acc := false, m := 0, n := 0 } })

/-- BEAT (R94, R96): a bank not marked live is emptied, the beat_id is recorded, and the core is at a beat boundary.
`cycles` is the length of the beat, which COR_BEAT_STAT counts (R97). -/
def beatStep (core cycles : Nat) : Eff := issue core 14 (fun _ => true) fun x => .all [
  .when (sb x.w 78 78 == 0) (emptyBank core 0),
  .when (sb x.w 79 79 == 0) (emptyBank core 1),
  modCores core (fun k => { k with seq := { k.seq with beatId := sb x.w 95 80 } }),
  countBeat core cycles,
  stepDone x none,
  modCores core (fun k => { k with seq := { k.seq with live := sb x.w 79 78 } }),
  beatBoundary core false]

/-- The cue a WAIT names, from the waiting core's own place (R89). -/
def waitCue (d : Device) (x : StepCtx) : Option Nat :=
  let i := sb x.w 91 86
  match sb x.w 95 94 with
  | 0 => some (coreCue x.core i)
  | 1 => some (clusterCue (x.core / 16) i)
  | 2 => ((partLinkDies d x.part)[sb x.w 93 92]?).map (linkCue · i)
  | _ => none

/-- Test a WAIT's cue (R89, R288): an overflowed cue faults; at or above the threshold it is consumed if asked and the
step completes; else the core waits, parked where it follows a beat boundary (R96), and a stop asked of a parked core
takes effect at once. -/
def testWait (x : StepCtx) : Eff := .obs fun d =>
  match waitCue d x with
  | none => stepFault x 0x02 0
  | some key =>
    let q := d.cuesAt key
    let t := sb x.w 85 70
    if q.overflow then stepFault x 0x07 0
    else if t ≤ q.value then .all [
      .when (sb x.w 69 69 == 1) (.seq (putCues key { q with value := q.value - t }) (notReplayable x.core)),
      stepDone x none]
    else .seq
      (modCores x.core fun k => { k with
        waiting := true
        state := if k.atBeat then (if k.stopReq || k.fenced then 3 else 2) else k.state })
      (settleStop x.core)

/-- WAIT (R89). -/
def waitStep (core : Nat) : Eff := issue core 9 (fun _ => true) testWait

/-- WAIT_SATISFIED (R89): a core held in a WAIT tests its cue again. -/
def waitSatisfied (core : Nat) : Eff := .obs fun d =>
  let k := d.coresAt core
  .when (k.waiting && !k.acquiring && (k.state == 1 || k.state == 2)) <|
    match stepCtx d core with
    | some x => .when (stepKind x.w == 9) (testWait x)
    | none => .skip

/-- SIGNAL (R90): the count is added to the named cue once every earlier step has completed. -/
def signalStep (core : Nat) : Eff := issue core 10 (fun _ => true) fun x => .obs fun d =>
  match cueName d x.part (sb x.w 95 94) (sb x.w 93 86) (sb x.w 85 82) (sb x.w 81 80) (sb x.w 79 74) with
  | some q => .all [notReplayable core, stepDone x none, cueEvent x.part (some x.ctx) q (sb x.w 73 58)]
  | none => stepDone x none

/-- Rows of a length table: 16 bytes each, in granules of four (R93). -/
def lengthField (d : Device) (x : StepCtx) (g row field : Nat) : Nat :=
  tileNum d x.core (g * 64 + row * 16 + field * 4) 4

/-- The bucket of a value: the smallest whose bound is at least the value (R93). -/
def bucketOf (d : Device) (x : StepCtx) (v : Nat) : Option Nat :=
  (List.range (sb x.w 41 38 + 1)).find? fun j => v ≤ constReg d x.core (sb x.w 49 42 + j)

/-- The jump target of a bucket (R93). -/
def jumpTarget (d : Device) (x : StepCtx) (j : Nat) : Nat :=
  let r := constReg d x.core (sb x.w 36 29 + j / 2)
  if j % 2 == 0 then bits r 15 0 else bits r 31 16

/-- SEL on a value read (R93): the bucket, the dynamic trip, the live row count, the jump. -/
def selOn (x : StepCtx) (v : Nat) : Eff := .obs fun d =>
  let src := sb x.w 95 94
  let bucket := if src == 2 then (if v ≤ sb x.w 41 38 then some v else none) else bucketOf d x v
  match bucket with
  | none => stepFault x 0x09 0
  | some j =>
    let trip := ceilDiv v (2 ^ sb x.w 27 24)
    if sb x.w 28 28 == 1 && 65535 < trip then stepFault x 0x0B 0 else
    let u := 64 * (sb x.w 19 18 + 1)
    let live := min u (v - x.q.counter (sb x.w 22 20) * u)
    .all [
      modCores x.core (fun k => { k with seq := { k.seq with
        dynTrip := if sb x.w 28 28 == 1 then trip else k.seq.dynTrip,
        liveRows := if sb x.w 23 23 == 1 then live else k.seq.liveRows } }),
      stepDone x (if sb x.w 37 37 == 1 then some (jumpTarget d x j) else none)]

/-- SEL (R93): the value is a length-table field, a loop counter or the semaphore status. -/
def selStep (core : Nat) (fixed lost : List Nat) : Eff :=
  issueWith core 13 (fun _ => true) fixed lost fun x => .obs fun d =>
  match sb x.w 95 94 with
  | 0 =>
    let row := sb x.w 69 58 + x.q.counter (sb x.w 57 55)
    if 4095 < row then stepFault x 0x0A 0 else
    let g := tileGranule d x (sb x.w 93 70)
    withWords x (g + (row / 4 : Nat)) 1 (· == row % 4 * 2 + sb x.w 54 53 / 2) fun g1 => .obs fun d =>
      selOn x (lengthField d x g1 (row % 4) (sb x.w 54 53))
  | 1 => selOn x (x.q.counter (sb x.w 52 50))
  | _ => selOn x x.q.semStatus

/-- WATCHDOG_EXPIRY (R98): 192,000 cycles without a beat boundary fault the context; a parked core does not count. -/
def watchdogExpiry (core : Nat) : Eff := .obs fun d =>
  .when ((d.coresAt core).state == 1) <|
    match stepCtx d core with
    | some x => stepFault x 0x06 0
    | none => .skip

/-! ### LOAD and STORE (R81) -/

/-- The external offset, in the step's unit, of a LOAD, STORE or ATOM: offset plus the pattern shifted (R77, R81). -/
def extOffset (d : Device) (x : StepCtx) (off patEn pat shift : Nat) : Int :=
  (off : Int) + (if patEn == 1 then patOffset x.q (constReg d x.core pat) * 2 ^ shift else 0)

/-- The byte offsets of a LOAD's or STORE's external block. -/
def moveOffsets (d : Device) (x : StepCtx) : List Int :=
  let (rows, len, pitch) := shapeOf (constReg d x.core (sb x.w 18 11))
  blockOffsets (extOffset d x (sb x.w 83 56) (sb x.w 55 55) (sb x.w 54 47) (sb x.w 46 43)) rows len pitch

/-- The granules a LOAD or STORE moves on the tile side: rows are packed (R79). -/
def moveGranules (d : Device) (x : StepCtx) : Nat :=
  let (rows, len, _) := shapeOf (constReg d x.core (sb x.w 18 11))
  rows * len

/-- The addresses that an access to offsets of a window reaches. -/
def extAddrs (d : Device) (x : StepCtx) (win : WindowRec) (os : List Int) (k : Kind) : List Nat :=
  os.filterMap fun o => translate d x.ctx (windowVa win o) k

/-- LOAD (R81): a window's data into tile memory. `fixed` and `lost` are the memory errors that its reads of the floor, of DRAM
and of the maps meet. -/
def loadStep (core : Nat) (fixed lost : List Nat) : Eff :=
  issueWith core 1 (fun _ => true) fixed lost fun x => .obs fun d =>
  let win := stepWindow x (sb x.w 95 84)
  let os := moveOffsets d x
  withDest x (tileGranule d x (sb x.w 42 19)) (moveGranules d x) fun g =>
    withWalk x win os fixed lost (stepFault x 0x03) <| .obs fun d =>
    .seq (readErrors x (extAddrs d x win os .read) fixed lost) <| .obs fun d =>
    match extAccess d x win os .read true (floorCopy d x) with
    | .fault code addr => stepFault x code addr
    | .held => .skip
    | .served as => .all [wrTile core (g * 64) (d.bytesAt as), countReads x.part as, cacheReads x (sb x.w 10 10 == 1) as,
      stepDone x none, rangeErrors x.ctx as]

/-- STORE (R81): tile memory into a window. `fixed` and `lost` are the errors that its reads of tile memory and of the maps meet. -/
def storeStep (core : Nat) (fixed lost : List Nat) : Eff :=
  issueWith core 2 (fun _ => true) fixed lost fun x => .obs fun d =>
  let n := moveGranules d x
  let win := stepWindow x (sb x.w 95 84)
  let os := moveOffsets d x
  withTile x (tileGranule d x (sb x.w 42 19)) n fun g =>
    withWalk x win os fixed lost (stepFault x 0x03) <| .obs fun d =>
    match extAccess d x win os .write false noCopy with
    | .fault code addr => stepFault x code addr
    | .held => .skip
    | .served as => .all [store as (tileBytes d core (g * 64) (n * 64)), stepDone x none]

/-! ### HALO (R88, R203 to R208) -/

/-- Write a HALO's bytes to the receiver; a granule with an uncorrectable link error arrives poisoned (R207). -/
def deliverHalo (dst g : Nat) (bs : List Byte) (bad : List Nat) : Eff :=
  .seq (wrTile dst (g * 64) bs)
    (.each bad fun i => .each (List.range 8) fun w => putTpoison (dst * 196608 + (g + i) * 8 + w) true)

/-- A HALO reaches its neighbour: its bytes, then 1 to the cue it names (R88). -/
def landHalo (dst : Nat) (h : HeldHalo) : Eff :=
  .seq (deliverHalo dst h.granule h.bytes h.bad) (cueEvent h.part (some h.ctx) (0, dst, h.cue) 1)

/-- A HALO of a context to a core is held at the position's switch: the core is stopped for migration or self-test, or for a
pre-emption of that context (R206). -/
def haloHeld (d : Device) (dst c : Nat) : Bool :=
  let k := d.coresAt dst
  k.fenced || (match k.ctx with
    | some o => o != c
    | none => d.preempts.any fun q => q.outgoing == c && q.done.contains dst)

/-- The HALOs held for a core are delivered once it has been restored, and the steps that sent them complete; an iteration that
ended with one of them outstanding reaches its beat boundary (R96, R204, R206). -/
def releaseHalos (core : Nat) : Eff := .obs fun d =>
  let go := (d.halosAt core).filter fun h => !haloHeld d core h.ctx
  .all [
    modHalos core (·.filter fun h => haloHeld d core h.ctx),
    .each go (landHalo core),
    .each ((go.map (·.src)).dedup) fun src => .obs fun d =>
      .when ((d.coresAt src).ending && (halosOf d src).isEmpty) (endIteration src)]

/-- The mesh errors a HALO's crossing meets: corrected ones are counted, and for one that is not corrected CLU_MESH_ERR records
the position and direction, and both core sites are flagged for test (R207). -/
def meshErrors (core dst dir corrected : Nat) (bad : List Nat) : Eff := .obs fun d =>
  let site := (clusterSite d (core / 128) (core / 16 % 8)).getD 0
  .seq (addSat F.CLU_HALO_STAT_corrected site corrected) <| .when (!bad.isEmpty) <| .all [
    .when (d.fld F.CLU_MESH_ERR_valid site == 0) (setReg .CLU_MESH_ERR site (2 ^ 31 + dir * 64 + core % 16)),
    putFlagged ((coreSite d core).getD 0) true, putFlagged ((coreSite d dst).getD 0) true]

/-- HALO (R88): rows to a mesh neighbour, then 1 to its cue. `bad` lists granules of the block with an uncorrectable mesh
error, `corrected` counts corrected ones (R207), `epoch` is the destination's placement epoch as the sender knew it: a
result of an older epoch is dropped and counted, and the sender's copy is sent again under the new one (R408). A HALO to a
position stopped for migration, substitution or self-test is held there and counted, and completes on delivery (R206); the
sender's later steps that need not wait for it issue meanwhile (R69, R204). -/
def haloStep (core : Nat) (fixed lost bad : List Nat) (corrected epoch : Nat) : Eff :=
  issueWith core 8 (fun _ => true) fixed lost fun x => .obs fun d =>
    match meshNeighbour (core % 16) (sb x.w 95 94) with
    | none => stepDone x none
    | some nb =>
      let dst := core / 16 * 16 + nb
      let n := (sb x.w 54 47 + 1) * (sb x.w 46 37 + 1)
      let send := sb x.w 93 70
      let recv := (sb x.w 69 55 : Int) + (tileGranule d x send - (bits send 23 9 : Int))
      withTile x (tileGranule d x send) n fun g =>
        if !granulesOk recv n then stepFault x 0x01 (recv % 2 ^ 56).toNat else
        .obs fun d =>
          let bad := bad.filter (· < n)
          let h : HeldHalo := { src := core, ctx := x.ctx, part := x.part, first := g, granule := recv.toNat,
                                bytes := tileBytes d core (g * 64) (n * 64), bad := bad, cue := sb x.w 36 32 }
          .all [
            notReplayable core,
            meshErrors core dst (sb x.w 95 94) corrected bad,
            .when (epoch != d.epochsAt dst) (addSat F.CTX_STAT_late_drops x.ctx 1),
            if haloHeld d dst x.ctx || !(d.halosAt dst).all (·.src != core) then .all [
              addSat F.CLU_HALO_STAT_held ((clusterSite d (core / 128) (core / 16 % 8)).getD 0) 1,
              modHalos dst (· ++ [h]), stepDone x none]
            else .seq (landHalo dst h) (stepDone x none)]

end Sys2Proof.Machine
end

