-- ==== Sys2Proof/Machine/Semaphores.lean ====
section
/-! DEFINITION. Floor semaphores (09_on_chip_and_stacked_memory.md R233, R234) with the scheduler's rules for them
(16_partitions_and_scheduling.md R403 to R405). -/

namespace Sys2Proof.Machine

/-- The cells of a partition in order: its lowest logical die first, then ascending cells (R233). -/
def partCells (d : Device) (p : Nat) : List Nat :=
  (List.range 16).flatMap fun die =>
    (List.range (d.fld F.PRT_SHAPE_SEM_count (p * 16 + die))).map fun i =>
      die * 512 + d.fld F.PRT_SHAPE_SEM_base (p * 16 + die) + i

/-- The cell of a partition's semaphore number (R233). -/
def semCell (d : Device) (p n : Nat) : Option Nat := (partCells d p)[n]?

/-- The semaphores a context holds. -/
def heldSems (d : Device) (c : Nat) : List Nat := mapKeys d.sems fun _ s => s.holder.any fun h => h.ctx == c

/-- A lock-extended pre-emption that is stopping context `c`, if any (R404). -/
def extending (d : Device) (c : Nat) : Option Preempt := d.preempts.find? fun q => q.outgoing == c && q.extended

/-- The status a grant carries, by the cell's mark (R234). -/
def grantStatus (mark : Nat) : Nat := match mark with
  | 1 => 3
  | 2 => 2
  | _ => 0

/-- Count a grant that carries a mark, at the die site of the cell's logical die (R234). -/
def countGrant (cell mark : Nat) : Eff := .obs fun d =>
  let site := (dieSite d (cell / 512)).getD 0
  match mark with
  | 1 => addSat F.FLR_SEM_STAT_abandoned site 1
  | 2 => addSat F.FLR_SEM_STAT_revoked site 1
  | _ => .skip

/-- Free a cell with a mark; the next waiter is granted it by `semGrants`. -/
def freeCell (cell mark : Nat) : Eff := modSems cell fun s => { s with holder := none, mark := mark }

/-- Revoke a context's semaphore (R404): the cell is freed with mark REVOKED, counted, and the context remembers it. -/
def revokeCell (p c cell : Nat) : Eff := .obs fun d =>
  let core := ((d.semsAt cell).holder.map (·.core)).getD 0
  .all [freeCell cell 2, addSat F.PRT_SCHED_STAT_revocations p 1, setF F.CTX_FAULT_resume_pending c 1,
    modCtxs c fun x => { x with revoked := x.revoked ++ [(core, (partCells d p).idxOf cell)] }]

/-- Ask the cores of a context to stop at their next beat boundaries: a parked core stops at once (R96, R401). -/
def stopCores (c : Nat) : Eff := .obs fun d => .each (ctxCores d c) fun core => modCores core fun k =>
  if k.ctx == some c then { k with stopReq := true, state := if k.state == 2 then 3 else k.state } else k

/-- A waiter may be granted now: not while its context is being stopped under lock extension and still holds one (R404). -/
def mayGrant (d : Device) (w : Waiter) : Bool := (extending d w.ctx).isNone || (heldSems d w.ctx).isEmpty

/-- The waiter served next: highest priority, then order of arrival (R403). -/
def nextWaiter (d : Device) (ws : List Waiter) : Option Waiter :=
  (ws.filter (mayGrant d)).foldl (fun best w => match best with
    | some b => if d.fld F.CTX_PRIO_priority b.ctx < d.fld F.CTX_PRIO_priority w.ctx then some w else some b
    | none => some w) none

/-- Complete a core's SEM step with a status (R92). -/
def semDone (core status : Nat) : Eff := .obs fun d =>
  match stepCtx d core with
  | some x => .seq (modCores core fun k => { k with seq := { x.q with semStatus := status } }) (stepDone x none)
  | none => .skip

/-- A context under lock extension is a holder again: its cores run on past beat boundaries (R404). -/
def extendAgain (c : Nat) : Eff := .obs fun d =>
  .when ((extending d c).any fun q => !q.holdPassed) <| .each (ctxCores d c) fun core =>
    modCores core fun k => if k.ctx == some c && k.state == 1 then { k with stopReq := false } else k

/-- Grant a free cell to its next waiter (R234, R403). A context whose hold limit has passed loses it again at once, and the
next waiter follows (R404). The fuel is the number of waiters. -/
def semGrants (cell : Nat) : Nat → Eff
  | 0 => .skip
  | fuel + 1 => .obs fun d =>
    let s := d.semsAt cell
    match s.holder, nextWaiter d s.waiters with
    | none, some w =>
      let late := (extending d w.ctx).any (·.holdPassed)
      .all [
        putSems cell { holder := some w, mark := 0, waiters := s.waiters.erase w },
        countGrant cell s.mark, semDone w.core (grantStatus s.mark), extendAgain w.ctx,
        .when late (.seq (revokeCell ((ctxPart d w.ctx).getD 0) w.ctx cell) (semGrants cell fuel))]
    | _, _ => .skip

/-- SEM_GRANT (R403): a free cell with a waiter it may serve grants it. -/
def semGrant (cell : Nat) : Eff := .obs fun d => semGrants cell (d.semsAt cell).waiters.length

/-- Free a cell with a mark, and grant it at once to the next waiter (R234). -/
def releaseCell (cell mark : Nat) : Eff := .seq (freeCell cell mark) (semGrant cell)

/-- Take a cell for a step (R234). -/
def takeCell (x : StepCtx) (cell : Nat) : Eff := .obs fun d =>
  let s := d.semsAt cell
  .all [putSems cell { s with holder := some ⟨x.ctx, x.core⟩, mark := 0 }, countGrant cell s.mark,
    modCores x.core fun k => { k with seq := { k.seq with semStatus := grantStatus s.mark } }]

/-- A try returns BUSY and nothing else changes (R234). -/
def tryBusy (x : StepCtx) : Eff :=
  .seq (modCores x.core fun k => { k with seq := { k.seq with semStatus := 1 } }) (stepDone x none)

/-- A context under lock extension that still holds a semaphore may take no further one (R404). -/
def mustWait (d : Device) (c : Nat) : Bool := (extending d c).isSome && !(heldSems d c).isEmpty

/-- Revoke at once what a context takes after its hold limit has passed (R404). -/
def revokeIfLate (x : StepCtx) (cell : Nat) : Eff := .obs fun d =>
  .when ((extending d x.ctx).any (·.holdPassed)) (.seq (revokeCell x.part x.ctx cell) (semGrant cell))

/-- SEM_ACQUIRE (R234): take a free cell, or wait among its waiters; a core that waits in an acquire is not parked. -/
def semAcquire (core : Nat) : Eff := issue core 12 (fun w => sb w 95 94 == 0) fun x => .obs fun d =>
  match semCell d x.part (sb x.w 93 81) with
  | none => .skip
  | some cell =>
    let s := d.semsAt cell
    .seq (notReplayable core) <|
    if s.holder.isNone && s.waiters.isEmpty && !mustWait d x.ctx then
      .all [takeCell x cell, stepDone x none, extendAgain x.ctx, revokeIfLate x cell]
    else .all [putSems cell { s with waiters := s.waiters ++ [⟨x.ctx, core⟩] },
      modCores core fun k => { k with waiting := true, acquiring := true }]

/-- SEM_TRY (R234): take a free cell, or BUSY. -/
def semTry (core : Nat) : Eff := issue core 12 (fun w => sb w 95 94 == 1) fun x => .obs fun d =>
  match semCell d x.part (sb x.w 93 81) with
  | none => .skip
  | some cell =>
    .seq (notReplayable core) <|
    if (d.semsAt cell).holder.isNone && !mustWait d x.ctx then
      .all [takeCell x cell, stepDone x none, extendAgain x.ctx, revokeIfLate x cell]
    else tryBusy x

/-- The pre-emption of a context that no longer holds any semaphore goes on to its beat boundaries (R404). -/
def endExtension (c : Nat) : Eff := .obs fun d =>
  .when ((heldSems d c).isEmpty && (extending d c).isSome) (stopCores c)

/-- SEM_RELEASE (R234): the holder, which is a context and a core, frees the cell, and the next waiter is granted it; any other
core faults. -/
def semRelease (core : Nat) : Eff := issue core 12 (fun w => sb w 95 94 == 2) fun x => .obs fun d =>
  match semCell d x.part (sb x.w 93 81) with
  | none => .skip
  | some cell =>
    if (d.semsAt cell).holder == some ⟨x.ctx, core⟩ then .all [
      notReplayable core,
      modCores core (fun k => { k with seq := { k.seq with semStatus := 0 } }),
      stepDone x none, releaseCell cell 0, endExtension x.ctx]
    else stepFault x 0x0C 0

end Sys2Proof.Machine
end

