-- ==== Sys2Proof/Machine/Flash.lean ====
section
/-! DEFINITION. The weight library in flash (10_weight_library.md R253 to R274): the catalogue and its commands, keeping
the data, and the streamer of a partition's weight ring. -/

namespace Sys2Proof.Machine

/-! ### Entries (R256 to R258) -/

/-- A catalogue entry as its 128 bytes (R256). -/
def CatEntry.bytes (e : CatEntry) : List Byte :=
  toLE 4 e.modelId ++ toLE 1 e.kind ++ toLE 1 e.state ++ toLE 2 e.layerCount ++ toLE 8 e.length ++ toLE 8 e.tierOffset ++
  toLE 4 e.share ++ toLE 4 e.layerTable ++ (e.digest ++ List.replicate 48 0).take 48 ++ toLE 8 e.serial ++ toLE 4 e.refs ++
  List.replicate 36 0

/-- A template entry from its 128 bytes: the fields OPEN takes (R260). -/
def templateOf (bs : List Byte) : CatEntry :=
  let n (o k : Nat) : Nat := fromLE ((bs.drop o).take k)
  { modelId := n 0 4, kind := n 4 1, state := 1, layerCount := n 6 2, length := n 8 8, share := n 0x18 4,
    layerTable := n 0x1C 4, digest := (bs.drop 0x20).take 48 }

/-- A template's fields are in range (R256, R257), the bytes after its last field among them. -/
def templateOk (bs : List Byte) : Bool :=
  let e := templateOf bs
  allZero ((bs.drop 0x5C).take 0x24) &&
  e.kind ≤ 2 && e.length != 0 && e.length % 65536 == 0 && e.length ≤ 0x30000000000 &&
  (if e.kind == 0 then 1 ≤ e.layerCount && e.layerCount ≤ 4096 && e.layerTable + 16 * e.layerCount ≤ e.length
   else e.layerCount == 0 && e.layerTable == 0)

/-- An entry of kind `ks`, VALID and shared with partition `p`, that covers a flash-tier range (R258). -/
def sharedEntry (d : Device) (p off len : Nat) (ks : List Nat) : Option Nat :=
  (mapKeys d.catalog fun _ e => e.state == 2 && ks.contains e.kind && bit e.share p == 1 && e.tierOffset ≤ off &&
    off + len ≤ e.tierOffset + e.length).head?

/-- The entries that a figure loaded from `src` names through its tier 2 windows, its weight ring and FIG_SRC, each once (R258). -/
def namedEntries (d : Device) (p src : Nat) (f : Figure) : List Nat :=
  (((f.windows.filter fun w => w.tier == 2).filterMap fun w => sharedEntry d p w.offset w.length [0, 1, 2]) ++
  (if f.weightRing.isEmpty then [] else
    (mapKeys d.catalog fun _ e => e.state == 2 && e.kind == 0 && e.modelId == fromLE (f.weightRing.take 4)).take 1) ++
  (if inFlash src then (sharedEntry d p (src - flashBase) 1 [1]).toList else [])).dedup

/-- A staged slot names an entry: one in refs (R258). -/
def refEntry (e : Nat) : Eff := modCatalog e fun x => { x with refs := x.refs + 1 }

/-- An entry becomes FREE, and the catalogue records it (R259, R260). -/
def freeEntry (e : Nat) : Eff := .all [putCatalog e {}, bumpCatalog, saveCatalog]

/-- A slot naming an entry is invalidated: one less in refs; a RETIRING entry with none left becomes FREE (R260, R274). -/
def unrefEntry (e : Nat) : Eff := .obs fun d =>
  let x := d.catalogAt e
  if x.state == 3 && x.refs ≤ 1 then freeEntry e else putCatalog e { x with refs := x.refs - 1 }

/-- A valid slot names these entries from now on (R258). -/
def refSlot (slot : Nat) (es : List Nat) : Eff := .seq (putSlotRefs slot es) (.each es refEntry)

/-- A slot is no longer valid: the entries it named lose it, whatever their state is by now (R258, R274). -/
def unrefSlot (slot : Nat) : Eff := .obs fun d => .seq (putSlotRefs slot []) (.each (d.slotRefsAt slot) unrefEntry)

/-! ### Library commands (R260 to R262) -/

/-- Some flash stack is out of service (R266). -/
def stackLost (d : Device) : Bool := (List.range 4).any fun j => d.fld F.FLS_STACK_STATUS_lost j == 1

/-- `n` bytes from `a` all lie in DRAM, by the physical address as it is given. -/
def dramRange (a n : Nat) : Bool := 0x1000000000 ≤ a && a + n ≤ 0x7000000000 && a < 0x7000000000

/-- The stack extents of `n` runs from run `r`: eight tier extents of 8 MiB a run, each on four stacks (R253). -/
def allocated (r n : Nat) : List Nat :=
  (List.range (n * 8)).flatMap fun i => (List.range 4).map fun j => j * 524288 + r * 8 + i

/-- OPEN (R260): a FREE entry becomes LOADING from the template, with a contiguous run of the tier. -/
def openEntry (entry a : Nat) (d : Device) : Nat × Eff :=
  let bs := d.bytes a 128
  let t := templateOf bs
  if (d.catalogAt entry).state != 0 then (1, .skip)
  else if !dramRange a 128 then (4, .skip)
  else if d.poisoned a 128 then (5, .skip)
  else if (liveEntries d).any fun e => e.modelId == t.modelId then (1, .skip)
  else if !templateOk bs then (4, .skip)
  else if (List.range 4).any fun j => d.fld F.FLS_STACK_STATUS_spare_blocks j == 0 then (2, .skip)
  else match findRun d (ceilDiv t.length runBytes) with
    | none => (2, .skip)
    | some r =>
      let o := flashBase + r * runBytes
      (0, .all [putCatalog entry { t with tierOffset := r * runBytes },
        .upd (.memDrop fun k => o ≤ k && k < o + ceilDiv t.length runBytes * runBytes),
        .each (allocated r (ceilDiv t.length runBytes)) (fun x => putLostExt x false), refreshCatalog])

/-- The object offset and the bytes of a WRITE (R260). -/
def writeSpan (b : Nat) : Nat × Nat := (bits b 39 0, bits b 63 40 * 65536)

/-- WRITE (R260): DRAM data into a LOADING object at an offset. -/
def writeEntry (entry a b : Nat) (d : Device) : Nat × Eff :=
  let e := d.catalogAt entry
  let (off, n) := writeSpan b
  if e.state != 1 then (1, .skip)
  else if e.length < off + n || !dramRange a n then (4, .skip)
  else if d.poisoned a n then (5, .skip)
  else (0, wrBytes (flashBase + e.tierOffset + off) (d.bytes a n))

/-- The bytes of an object as kept, whatever its state. -/
def objectBytes (d : Device) (e : CatEntry) : List Byte :=
  (List.range e.length).map fun i => d.memAt (flashBase + e.tierOffset + i)

/-- The reads of a whole object. -/
def readObject (e : CatEntry) : Eff := disturbReads ((List.range e.length).map fun i => flashBase + e.tierOffset + i)

/-- COMMIT (R260): the object read back has the digest of its entry, which becomes VALID. The catalogue records it when the command
ends. -/
def commitEntry (entry : Nat) (d : Device) : Nat × Eff :=
  let e := d.catalogAt entry
  if e.state != 1 then (1, .skip)
  else if Config.sha384 (objectBytes d e) != e.digest then (3, readObject e)
  else (0, .all [readObject e, bumpCatalog, .obs fun d => putCatalog entry { e with state := 2, serial := d.fld F.FLS_CATALOG_gen 0 },
    refreshCatalog])

/-- ABORT (R260): a LOADING entry becomes FREE. -/
def abortEntry (entry : Nat) (d : Device) : Nat × Eff :=
  if (d.catalogAt entry).state != 1 then (1, .skip) else (0, .seq (putCatalog entry {}) bumpCatalog)

/-- RETIRE (R260): an entry no slot names becomes FREE, another RETIRING. The catalogue records it when the command ends. -/
def retireEntry (entry : Nat) (d : Device) : Nat × Eff :=
  let e := d.catalogAt entry
  if e.state != 2 && e.state != 4 then (1, .skip)
  else if e.refs == 0 then (0, .seq (putCatalog entry {}) bumpCatalog)
  else (0, .seq (putCatalog entry { e with state := 3 }) refreshCatalog)

/-- READ_ENTRY (R260): the 128 bytes of an entry to DRAM. -/
def showEntry (entry a : Nat) (d : Device) : Nat × Eff :=
  if !dramRange a 128 then (4, .skip)
  else (0, store ((List.range 128).map (a + ·)) (d.catalogAt entry).bytes)

/-- A command's code and its effect (R260, R261): STACK_LOST of every command once a stack is lost. -/
def jobEffect (j : FlsJob) (d : Device) : Nat × Eff :=
  if stackLost d then (6, .skip) else match j.op with
  | 1 => openEntry j.entry j.a d
  | 2 => writeEntry j.entry j.a j.b d
  | 3 => commitEntry j.entry d
  | 4 => abortEntry j.entry d
  | 5 => retireEntry j.entry d
  | _ => showEntry j.entry j.a d

/-- The DRAM a command reads or writes. -/
def jobDram (j : FlsJob) : List Nat :=
  let n := if j.op == 2 then (writeSpan j.b).2 else if j.op == 1 || j.op == 6 then 128 else 0
  if dramRange j.a n then (List.range n).map (j.a + ·) else []

/-- The stacks that a command writes: those of the data of a WRITE, and of the parity of a COMMIT (R262). -/
def jobStacks (d : Device) (j : FlsJob) : List Nat :=
  let e := d.catalogAt j.entry
  let (off, n) := if j.op == 2 then writeSpan j.b else if j.op == 3 then (0, e.length) else (0, 0)
  (List.range 4).filter fun k => (List.range (ceilDiv n 65536 + 1)).any fun i => 
    off / 65536 + i < ceilDiv (off + n) 65536 && (e.tierOffset / 65536 + off / 65536 + i) % 4 == k

/-- A command waits: for DRAM that is held (R243 to R245), or for library writes that are paused on a stack it writes (R262). -/
def jobHeld (d : Device) (j : FlsJob) : Bool :=
  anyHeld d (jobDram j) || (jobStacks d j).any fun k => d.fld F.FLS_STACK_STATUS_write_paused k == 1

/-- The command in progress runs, once, unless it must wait. -/
def runJob : Eff := .obs fun d => match d.flsPending with
  | some j => .when (j.code.isNone && (stackLost d || !jobHeld d j)) <|
      let (code, e) := jobEffect j d
      .seq (putFlsPending (some { j with code := some code })) e
  | none => .skip

/-- A command begins: ignored while one is busy; its op and entry are shown, and its result waits for FLS_CMD_COMPLETE. -/
def flsCommand (rq op entry : Nat) : Eff := .obs fun d =>
  .when ((isSteward rq || isPf rq) && d.fld F.FLS_STATUS_busy 0 == 0) <|
    .all [setF F.FLS_CMD_op 0 op, setF F.FLS_CMD_entry 0 entry, setF F.FLS_STATUS_busy 0 1, setF F.FLS_STATUS_op 0 op,
      setF F.FLS_STATUS_entry 0 entry,
      putFlsPending (some { op := op, entry := entry, a := d.reg .FLS_ARG_A 0, b := d.reg .FLS_ARG_B 0 }), runJob]

/-- FLS_OPEN (R260). -/
def flsOpen (rq entry : Nat) : Eff := flsCommand rq 1 entry

/-- FLS_WRITE (R260). -/
def flsWrite (rq entry : Nat) : Eff := flsCommand rq 2 entry

/-- FLS_COMMIT (R260). -/
def flsCommit (rq entry : Nat) : Eff := flsCommand rq 3 entry

/-- FLS_ABORT (R260). -/
def flsAbort (rq entry : Nat) : Eff := flsCommand rq 4 entry

/-- FLS_RETIRE (R260). -/
def flsRetire (rq entry : Nat) : Eff := flsCommand rq 5 entry

/-- READ_ENTRY (R260). -/
def readEntry (rq entry : Nat) : Eff := flsCommand rq 6 entry

/-- A command that ended OK and changed the catalogue: a COMMIT, an ABORT or a RETIRE writes its older copy (R259). -/
def jobSaves (j : FlsJob) : Bool := j.code == some 0 && (j.op == 3 || j.op == 4 || j.op == 5)

/-- FLS_CMD_COMPLETE (R261): a command that waited runs, if it no longer must wait; when it has run, busy drops and the result is
recorded. -/
def flsCmdComplete : Eff := .seq runJob <| .obs fun d =>
  match d.flsPending with
  | some j => match j.code with
    | some code => .all [setF F.FLS_STATUS_busy 0 0, setF F.FLS_STATUS_result 0 code, .when (jobSaves j) saveCatalog,
        putFlsPending none]
    | none => .skip
  | none => .skip

/-- A loss of VIN cuts short the write of the catalogue's older copy by a command in progress, which leaves it not intact (R259). -/
def tearCatalog : Eff := .obs fun d => .when (d.flsPending.any jobSaves) <|
  putCatCopies (d.catCopies.set (olderCopy d) { d.catCopies.getD (olderCopy d) {} with intact := false })

/-! ### Keeping the data (R264 to R266) -/

/-- FLS_STACK_WEAR.wear: the percentage of the spare pool retired by erase count (R266). -/
def refreshWear (j : Nat) : Eff := .obs fun d => setF F.FLS_STACK_WEAR_wear j (min 100
  ((mapKeys d.badBlocks fun k b => b && k / 524288 == j && 3000 ≤ d.erasesAt k).length * 100 / 77824))

/-- A block is erased: its disturb count is 0 again, and at 3,000 erases it is spent (R264, R266). -/
def eraseBlock (y : Nat) : Eff := .obs fun d =>
  .all [putDisturb y (0, d.powerFails), putErases y (d.erasesAt y + 1),
    .when (3000 ≤ d.erasesAt y + 1) (.all [putBadBlocks y true, refreshSpares (y / 524288), reportSpares (y / 524288),
      refreshWear (y / 524288)])]

/-- The blocks that a relocation of block `y` may go to: the spare blocks of its flash die with the lowest erase count (R264). -/
def relocTargets (d : Device) (y : Nat) : List Nat :=
  let ok := sparesOf d (y / 524288) fun z => dieOf z == dieOf y
  ok.filter fun z => ok.all fun o => d.erasesAt z ≤ d.erasesAt o

/-- RELOCATION (R264): rebuilds that wait come first; then the first queued block is copied into the spare block named, the mapping
of its unit switches, and the old block is erased. With no spare block on its flash die it waits (R266). -/
def relocation (block : Nat) : Eff := .seq (.each (List.range 4) rebuildWaiting) <| .obs fun d =>
  match d.relocQueue with
  | [] => .skip
  | y :: rest =>
    let j := y / 524288
    match unitAt d y with
    | none => putRelocQueue rest
    | some x => .when ((relocTargets d y).contains (j * 524288 + block)) <| .all [
        putRelocQueue rest, disturbBlock y blockReads, putBlockMap x block, eraseBlock y, rebuildWaiting j,
        addSat F.FLS_STACK_WEAR_relocations j 1]

/-- FLASH_SCRUB (R265, R266): the next block of a stack is read, at temperature `temp`. `near`: its corrected bits are at the
margin. `lostBlocks`: 1 where its own correction fails, 2 where that of a second block of its parity group fails too. Rebuilds
that wait are tried again. -/
def flashScrub (j temp : Nat) (near : Bool) (lostBlocks : Nat) : Eff := .obs fun d =>
  let b := d.fld F.FLS_SCRUB_block j
  let y := j * 524288 + b
  .all [
    flashTemp j temp,
    setF F.FLS_SCRUB_block j ((b + 1) % 524288), putScrubPos j ((b + 1) % 524288),
    .when (b + 1 == 524288) (addWrap F.FLS_SCRUB_passes j 1),
    disturbBlock y blockReads,
    .when (near && lostBlocks == 0) (queueRelocation y),
    .when (lostBlocks != 0 && !d.badBlocksAt y) (match unitAt d y with
      | some x => failUnit x [] (lostBlocks == 2)
      | none => .all [putBadBlocks y true, refreshSpares j, reportSpares j]),
    rebuildWaiting j]

/-- FLASH_STACK_LOSS (R266): every entry becomes DAMAGED, and every command reports STACK_LOST from then on. -/
def flashStackLoss (j : Nat) : Eff := .obs fun d => .all [
  putFlashDead j true, setF F.FLS_STACK_STATUS_lost j 1,
  .each (mapKeys d.catalog fun _ e => e.state != 0) (fun k => modCatalog k fun e => { e with state := 4 }),
  refreshCatalog, saveCatalog, logService 10 j 0xFFFF 6]

/-! ### The weight window (R268 to R272) -/

/-- A number in a figure's WEIGHT_RING section. -/
def ringNum (f : Figure) (o n : Nat) : Nat := fromLE ((f.weightRing.drop o).take n)

def ringSlots (f : Figure) : Nat := ringNum f 6 1
def ringLayers (f : Figure) : Nat := ringNum f 0x10 2

/-- The slot that copy q uses: with every layer resident its own, else in turn (R270). -/
def ringSlot (f : Figure) (q : Nat) : Nat := if ringLayers f ≤ ringSlots f then q % ringLayers f else q % ringSlots f

/-- Copies that between them put every streamed layer into every slot it will occupy: with the layers resident each goes to its own,
else layers and slots turn together, as far as the passes go (R269, R270). -/
def ringCopies (f : Figure) : List Nat :=
  let n := ringLayers f
  let turn := if n ≤ ringSlots f then n else n * ringSlots f
  List.range (if ringNum f 0x14 4 == 0 then turn else min turn (ringNum f 0x14 4 * n))

/-- The catalogue entry a weight ring names. -/
def ringEntry (d : Device) (p : Nat) (f : Figure) : Option CatEntry :=
  (d.catalog.map (·.2)).find? fun e => 2 ≤ e.state && e.kind == 0 && e.modelId == ringNum f 0 4 && bit e.share p == 1

/-- Layer `l` of an object: its offset within the object and its length (R257). -/
def layerOf (d : Device) (e : CatEntry) (l : Nat) : Nat × Nat :=
  let a := flashBase + e.tierOffset + e.layerTable + l * 16
  (fromLE ((List.range 8).map fun i => d.memAt (a + i)), fromLE ((List.range 4).map fun i => d.memAt (a + 8 + i)))

/-- The logical cores of a ring's consumers (R268). -/
def ringConsumers (d : Device) (p : Nat) (f : Figure) : List Nat := setCores d p f (ringNum f 4 2)

/-- The context that a fill of a consuming leaf is for: the one not idle that is bound to the exclusive set the leaf is in (R394,
R397). -/
def leafContext (d : Device) (p : Nat) (f : Figure) (leaf : Nat) : Option Nat :=
  (busyContexts d p).find? fun c => (leaves f (d.fld F.CTX_BIND_set c)).contains leaf

/-- The contexts that run a weight ring's owner set: one, or one for each set beneath it that a context is bound to. -/
def ringContexts (d : Device) (p : Nat) (f : Figure) : List Nat :=
  ((leaves f (ringNum f 4 2)).filterMap (leafContext d p f)).dedup

/-- The addresses of `n` bytes of a ring's slot `s`. -/
def slotAddrs (d : Device) (p : Nat) (f : Figure) (s n : Nat) : List Nat :=
  let w := f.windows.getD (ringNum f 0xC 2) {}
  let off := w.offset + ringNum f (64 + 32 * s) 8
  (List.range n).filterMap fun i =>
    if w.tier == 0 then scratchAddr d p w.cluster (off + i)
    else (partAddr d p (off + i)).map fun a => match (ringContexts d p f).head? with
      | some c => forCtx d c a
      | none => a

/-- Every fill cue of the consumers moves by 1 (R270), each under the context whose set its leaf is in. -/
def fillCues (p : Nat) (f : Figure) : Eff := .obs fun d =>
  .each ((leaves f (ringNum f 4 2)).filterMap fun l => (leafCore d p f l).map (·, leafContext d p f l)) fun x =>
    coreEvent p x.2 x.1 (ringNum f 7 1) 1

/-- The streamer goes on to copy `q` (R270): it is done after passes × n copies, waits for releases where the slot has
been used before, and else copies. -/
def streamNext (p : Nat) (f : Figure) (q : Nat) : Eff := .all [
  modStreamers p (Option.map fun s => { s with q := q, first := false }),
  setF F.FLS_RING_STAT_state p
    (if ringNum f 0x14 4 != 0 && ringNum f 0x14 4 * ringLayers f ≤ q then 3
     else if (ringLayers f ≤ ringSlots f && ringLayers f ≤ q) || (ringSlots f < ringLayers f && ringSlots f ≤ q) then 2
     else 1)]

/-- A fill of copy `q`: the fill cues move, and the ring's status shows it. -/
def fillDone (p : Nat) (f : Figure) (q : Nat) : Eff := .all [
  fillCues p f, setF F.FLS_RING_STAT_seq p q, streamNext p f (q + 1)]

/-- STREAMER_START, inside SWITCH_PROCEED (R272): the ring starts from q = 0. -/
def streamerStart (p : Nat) (f : Figure) : Eff :=
  if f.weightRing.isEmpty then .seq (putStreamers p none) (setF F.FLS_RING_STAT_state p 0)
  else .all [putStreamers p (some { q := 0, first := true }), setF F.FLS_RING_STAT_state p 1, setF F.FLS_RING_STAT_seq p 0]

/-- The addresses that the first `n` bytes of copy `q` of a ring are read from, in promotion frames where promoted, and written
to (R270). -/
def layerAddrs (d : Device) (p : Nat) (f : Figure) (e : CatEntry) (q n : Nat) : List Nat × List Nat :=
  let (off, len) := layerOf d e (ringNum f 0xE 2 + q % ringLayers f)
  ((List.range (min n len)).filterMap fun i => tierAddr d p (e.tierOffset + off + i), slotAddrs d p f (ringSlot f q) (min n len))

/-- A layer's length for copy `q`. -/
def layerBytes (d : Device) (f : Figure) (e : CatEntry) (q : Nat) : Nat := (layerOf d e (ringNum f 0xE 2 + q % ringLayers f)).2

/-- The first `n` bytes of copy `q` of a ring, poison carried with them; what a shell has accepted for memory that is held is written
once it is not (R245, R270). -/
def copyLayer (p : Nat) (f : Figure) (e : CatEntry) (q n : Nat) : Eff := .obs fun d =>
  let (src, dst) := layerAddrs d p f e q n
  .all [
    storeHeld dst (d.bytesAt src),
    .each ((dst.zip src).filter fun x => d.badByte x.2) (fun x => setPoison (poisonUnit x.1) true),
    disturbReads src]

/-- The ring of a partition stops (R272, R274). A copy in progress is cancelled; how much of it a shell has accepted by then
is a free value. -/
def streamerStop (p : Nat) : Eff := .obs fun d =>
  match d.streamersAt p with
  | none => .skip
  | some s => .all [
      (match d.active p with
       | some f => .when (d.fld F.FLS_RING_STAT_state p == 1) <|
           match ringEntry d p f with
           | some e => withFree fun w => copyLayer p f e s.q (w % (layerBytes d f e s.q + 1))
           | none => .skip
       | none => .skip),
      putStreamers p none, setF F.FLS_RING_STAT_state p 4]

/-- LAYER_COPY_DONE (R270): the copy in progress completes, its bytes visible in its slot and poison carried with them,
then every fill cue moves. `cycles` is its length in 25 MHz cycles, and `first` the time from step 6 of R63. A copy whose slot or
source must wait does not complete (R229, R243 to R245, R274). -/
def layerCopyDone (p cycles : Nat) : Eff := .obs fun d =>
  match d.streamersAt p, d.active p with
  | some s, some f =>
    .when (d.fld F.FLS_RING_STAT_state p == 1) <|
      match ringEntry d p f with
      | none => streamerStop p
      | some e =>
        let (src, dst) := layerAddrs d p f e s.q (layerBytes d f e s.q)
        .when (!anyHeld d src && !anyHeld d dst) <| .all [
          copyLayer p f e s.q (layerBytes d f e s.q),
          .when s.first (setF F.FLS_RING_TIME_first p (min 65535 cycles)),
          setF F.FLS_RING_TIME_longest p (max (d.fld F.FLS_RING_TIME_longest p) (min 65535 cycles)),
          fillDone p f s.q]
  | _, _ => .skip

/-- RING_RELEASE_SEEN (R270): every consumer's release cue is at 1 or more; each is decremented, and the next copy starts. The cues
of a consumer whose beat state is saved are in its record, and the streamer waits until they are back (R274).
With every layer resident no copy is needed, and the fill cues move. An overflowed release cue stops the ring (R274). -/
def ringReleaseSeen (p : Nat) : Eff := .obs fun d =>
  match d.streamersAt p, d.active p with
  | some s, some f =>
    let keys := (ringConsumers d p f).map fun core => coreCue core (ringNum f 8 1)
    let resident := (leaves f (ringNum f 4 2)).all fun l =>
      (leafCore d p f l).all fun core => (d.coresAt core).ctx == leafContext d p f l
    .when (d.fld F.FLS_RING_STAT_state p == 2 && resident) <|
      if keys.any fun k => (d.cuesAt k).overflow then streamerStop p
      else .when (keys.all fun k => 1 ≤ (d.cuesAt k).value) <| .seq
        (.each keys fun k => modCues k fun q => { q with value := q.value - 1 })
        (if ringLayers f ≤ ringSlots f then fillDone p f s.q else setF F.FLS_RING_STAT_state p 1)
  | _, _ => .skip

/-- Mount at power-on (R259, R254, R265): the catalogue is its newest intact copy; every entry found LOADING becomes FREE, and so
does one RETIRING, which no slot names any more. The counts of the catalogue and of the spare blocks, and the scrub positions, are
read, and a stack lost before is out of service still (log entry 135). -/
def flashMount : Eff := .obs fun d =>
  let copy := (newestCopy d).getD {}
  let freed := copy.entries.filter fun x => x.2.state == 1 || x.2.state == 3
  .all [
    .upd (.catalogDrop fun _ => true),
    .each (copy.entries.filter fun x => x.2.state != 1 && x.2.state != 3) fun x => putCatalog x.1 { x.2 with refs := 0 },
    putCatGen ((copy.gen + freed.length) % 65536), .obs (fun d => setF F.FLS_CATALOG_gen 0 d.catGen), refreshCatalog,
    .each (List.range 4) fun j => .all [refreshSpares j, setF F.FLS_SCRUB_block j (d.scrubPosAt j),
      setF F.FLS_STACK_STATUS_lost j (if d.flashDeadAt j then 1 else 0)]]

end Sys2Proof.Machine
end

