-- ==== Sys2Proof/Machine/Groups.lean ====
section
/-! DEFINITION. The group table (13_collectives.md R329, R330): who the members of a group are, the checks of a GROUPS
record at load, and the entries a switch writes. -/

namespace Sys2Proof.Machine

/-- The device IDs of a group's listed members, by list position (R330). -/
def groupIds (d : Device) (g : GroupRec) : List Nat :=
  if g.kind == 0 then g.members
  else (List.range g.count).map fun i =>
    if g.axis == 0 then (g.start + i * g.stride) * 256 + d.fld F.LNK_COORD_round 0
    else d.fld F.LNK_COORD_line 0 * 256 + (g.start + i * g.stride)

/-- A member's coordinates are in range: line below 4,096, round below the round size, which
LNK_COORD.round_size holds less 1 (R330). -/
def idInRange (d : Device) (id : Nat) : Bool := id / 256 < 4096 && id % 256 ≤ d.fld F.LNK_COORD_round_size 0

/-- The bytes a group takes in the list region: its IDs of 4 bytes each, then from the next granule its exclusion
bitmap, each rounded up to granules (log entry 11). -/
def listBytes (n : Nat) : Nat := ceilDiv (4 * n) 64 * 64 + ceilDiv (ceilDiv n 8) 64 * 64

/-- The size of a partition's list region (COL_PRT_LIST). -/
def listRegion (d : Device) (p : Nat) : Nat := d.fld F.COL_PRT_LIST_size_kib p * 1024

/-- An axis group's coordinates in range: no member wraps its coordinate. -/
def axisOk (d : Device) (g : GroupRec) : Bool :=
  g.kind == 0 || (List.range g.count).all fun i =>
    if g.axis == 0 then g.start + i * g.stride < 4096 else g.start + i * g.stride ≤ d.fld F.LNK_COORD_round_size 0

/-- A group breaks a limit of R330 (RESOURCE_LIMIT). -/
def groupLimit (d : Device) (g : GroupRec) : Bool :=
  !(groupIds d g).Nodup || !(groupIds d g).all (idInRange d) || !axisOk d g || (g.kind == 1 && g.stride == 0) ||
    (g.algorithm == 2 && 256 < g.count)

/-- The device's own ID is a member, and valid (R330, RESOURCE_OWNER). -/
def groupOwn (d : Device) (g : GroupRec) : Bool :=
  d.fld F.LNK_DEVICE_valid 0 == 1 && (groupIds d g).contains (d.fld F.LNK_DEVICE_id 0)

/-- The offset in the list region of a figure's group `i`. -/
def listOffset (f : Figure) (i : Nat) : Nat := ((f.groups.take i).map fun g => listBytes g.count).sum

/-- The key of a group (R329). -/
def groupKey (f : Figure) (g : GroupRec) : Nat := f.figureId % 65536 * 65536 + g.group

/-- The physical addresses of `n` bytes at offset `o` of a partition's list region: scratchpad of its lowest logical die. -/
def listAddrs (d : Device) (p o n : Nat) : List Nat :=
  (List.range n).filterMap fun i => scratchAddr d p 0 (d.fld F.COL_PRT_LIST_base p * 65536 + o + i)

/-- The current members of an entry, in rank order (R330). -/
def ColEntry.current (e : ColEntry) : List Nat :=
  (e.ids.zipIdx.filter fun x => !e.gone.contains x.2).map (·.1)

/-- The list position of the member of a rank. -/
def ColEntry.position (e : ColEntry) (rank : Nat) : Nat := ((List.range e.ids.length).filter fun i => !e.gone.contains i).getD rank 0

/-- The exclusion bitmap of an entry. -/
def ColEntry.bitmap (e : ColEntry) : List Byte := toLE (ceilDiv e.ids.length 8) (e.gone.foldl (fun a i => a + 2 ^ i) 0)

/-- Members, rank and the bitmap of entry `g` follow its state (R329, R345 step 4). -/
def refreshGroup (g : Nat) : Eff := .obs fun d =>
  let e := d.colGroupsAt g
  let bm := d.fld F.COL_GROUP_LIST_addr g * 64 + ceilDiv (4 * e.ids.length) 64 * 64
  .all [setF F.COL_GROUP_members g e.current.length,
    setF F.COL_GROUP_rank g (e.current.idxOf (d.fld F.LNK_DEVICE_id 0)), storeHeld ((List.range e.bitmap.length).map (bm + ·)) e.bitmap]

/-- The table entries of a partition's allotment (PRT_SHAPE_GRT). -/
def partEntries (d : Device) (p : Nat) : List Nat :=
  (List.range (d.fld F.PRT_SHAPE_GRT_count p)).map (d.fld F.PRT_SHAPE_GRT_base p + ·)

/-- Write the entry of one GROUPS record, keeping epoch, exclusions and broken state where the outgoing figure held the
key (R329). `d0` is the block before the switch. -/
def writeGroup (d0 : Device) (p : Nat) (f : Figure) (base i : Nat) (g : GroupRec) : Eff := .obs fun d =>
  let e := base + i
  let key := groupKey f g
  let kept := (partEntries d0 p).find? fun k => d0.fld F.COL_GROUP_valid k == 1 && d0.reg .COL_GROUP_KEY k == key
  let ids := groupIds d g
  let at_ := (listAddrs d p (listOffset f i) 1).headD 0
  let keep (fl : Fld) : Nat := (kept.map (d0.fld fl)).getD 0
  .all [
    setReg .COL_GROUP e (2 ^ 63 + keep F.COL_GROUP_broken * 2 ^ 62 + keep F.COL_GROUP_excluded * 2 ^ 61 + p * 2 ^ 56 +
      g.algorithm * 2 ^ 54 + g.kind * 2 ^ 53 + g.onFail * 2 ^ 52 + keep F.COL_GROUP_epoch * 2 ^ 36),
    setReg .COL_GROUP_KEY e key, setReg .COL_GROUP_SIZE e g.count,
    setReg .COL_GROUP_LIST e ((if g.timeoutMs == 0 then 50 else g.timeoutMs) * 2 ^ 48 + at_),
    putColGroups e { index := g.group, ids := ids, gone := (kept.map fun k => (d0.colGroupsAt k).gone).getD [],
                     serial := (kept.map fun k => (d0.colGroupsAt k).serial).getD 0 },
    storeHeld (listAddrs d p (listOffset f i) (4 * ids.length)) (ids.flatMap (toLE 4)),
    refreshGroup e]

/-- Write a partition's group entries for a new figure (R63 step 5, R329); the entries beyond its groups are not valid. -/
def writeGroups (p : Nat) (f : Figure) : Eff := .obs fun d =>
  .seq (.each (partEntries d p) fun e => .seq (setReg .COL_GROUP e 0) (putColGroups e {}))
    (.each f.groups.zipIdx fun (g, i) => writeGroup d p f (d.fld F.PRT_SHAPE_GRT_base p) i g)

end Sys2Proof.Machine
end

