-- ==== Sys2Proof/Machine/LinkGroups.lean ====
section
/-! DEFINITION. Groups of links that lead to one neighbour, and the bundles of figures over them (12_links_and_lines.md
R306, R314, R321). -/

namespace Sys2Proof.Machine

/-- A link is up. -/
def linkUp (d : Device) (i : Nat) : Bool := d.fld F.LNK_PORT_STATUS_state i == 2

/-- The links that lead to the neighbour of link `i`, up or not. -/
def groupAll (d : Device) (i : Nat) : List Nat :=
  match d.nbrsAt i with
  | none => []
  | some n => (List.range 96).filter fun j => (d.nbrsAt j).any fun m => m.serial == n.serial

/-- The up links of the group of link `i`. -/
def groupUp (d : Device) (i : Nat) : List Nat := (groupAll d i).filter (linkUp d)

/-- The lowest link of the group of link `i`, which names it. -/
def groupName (d : Device) (i : Nat) : Nat := (groupAll d i).headD i

/-- The device ID of the neighbour of a link, from the topology map (R324). -/
def nbrId (d : Device) (i : Nat) : Option Nat :=
  (d.nbrsAt i).bind fun n => (d.topo.find? fun t => t.serial == n.serial).map (·.id)

/-- The up links that lead to a device ID. -/
def linksTo (d : Device) (id : Nat) : List Nat := (List.range 96).filter fun i => linkUp d i && nbrId d i == some id

/-- A bundle's links lie in groups: in one, but for role 5, tree-down, and for the line and round roles through ports of
that role on the board (R314). -/
def bundleGrouped (d : Device) (b : BundleRec) : Bool :=
  let ls := (List.range 96).filter fun i => bit b.links i == 1
  !ls.isEmpty && (ls.all fun i => linkUp d i && (d.nbrsAt i).isSome) &&
  (b.role == 5 || ls.all fun i => (groupAll d (ls.headD 0)).contains i) &&
  (4 ≤ b.role || ls.all fun i => d.fld F.LNK_PORT_STATUS_role i == b.role)

end Sys2Proof.Machine
end

