-- ==== Sys2Proof/Machine/FigCheck.lean ====
section
/-! DEFINITION. The loader's checks (02_figure_images.md R39 to R59, R95; 10_weight_library.md R269): an image's bytes to a
decoded figure, or the first failure with its code and index. -/

namespace Sys2Proof.Machine

/-- A check: its result, or the code of R59 and the index for FIG_DETAIL. -/
abbrev Chk (α : Type) := Except (Nat × Nat) α

/-- FIG_DETAIL where no index applies. -/
def noIndex : Nat := 0xFFFFFFFF

/-- A condition that must hold. -/
def need (c : Bool) (code i : Nat) : Chk Unit := if c then .ok () else .error (code, i)

/-- A check of every element of a list, in index order. -/
def needAll {α : Type} : Nat → List α → (Nat → α → Chk Unit) → Chk Unit
  | _, [], _ => .ok ()
  | i, x :: xs, f => do f i x; needAll (i + 1) xs f

/-- Bytes [o, o + k) are 0. -/
def zeroAt (bs : List Byte) (o k : Nat) : Bool := allZero ((bs.drop o).take k)

/-- A byte string cut into records of `k` bytes. -/
def records (k : Nat) (bs : List Byte) : List (List Byte) := (List.range (bs.length / k)).map fun i => (bs.drop (i * k)).take k

/-! ### Step 1: the header (R40) -/

/-- The image is partial (R40 flags). -/
def imgPartial (img : List Byte) : Bool := num img 0x0C 4 % 2 == 1

/-- The first byte that is not 0 among ranges of a byte string, each an offset and a length. -/
def firstNonzero (bs : List Byte) (rs : List (Nat × Nat)) : Option Nat :=
  rs.findSome? fun (o, k) => ((List.range k).find? fun i => bs.getD (o + i) 0 != 0).map (o + ·)

/-- Ranges of a byte string must be 0; the index is the offset of the first byte that is not, from `base`. -/
def needZero (bs : List Byte) (rs : List (Nat × Nat)) (code base : Nat) : Chk Unit :=
  match firstNonzero bs rs with
  | some o => .error (code, base + o)
  | none => .ok ()

/-- The checks of R58 step 1 on the image, `srcOk` telling whether its source lies where R58 allows, and `room` how many
bytes the source tier still holds from it on. -/
def checkHeader (img : List Byte) (srcOk : Bool) (room : Nat) : Chk Unit := do
  need srcOk 0x0C noIndex
  need (img.take 4 == [0x41, 0x58, 0x46, 0x47]) 0x01 0
  need (num img 5 1 == 1) 0x02 4
  need (num img 6 1 == 0xA7) 0x03 6
  need (num img 7 1 == 0x16) 0x03 7
  let len := num img 8 4
  need (len ≤ 0x10000000 && len % 64 == 0 && len ≤ room && 656 ≤ len) 0x04 8
  need (num img 0x7C 4 == crc32c (img.take 0x7C)) 0x05 0x7C
  needZero img [(0x1A, 2), (0x27, 1), (0x68, 0x14)] 0x05 0
  need (num img 0x0C 4 ≤ 1) 0x05 0x0C
  need (imgPartial img || zeroAt img 0x38 48) 0x05 0x38

/-! ### Step 2: the signature (R55, R56) -/

/-- A root slot is usable: programmed, not revoked, and its stored key matches its fuse (R460). -/
def rootUsable (d : Device) (j : Nat) : Bool :=
  j ≤ 3 && bit (d.fld F.SEC_ROOT_programmed 0) j == 1 && bit (d.fld F.SEC_ROOT_revoked 0) j == 0 &&
    bit (d.fld F.SEC_ROOT_key_ok 0) j == 1

/-- The checks of R58 step 2. -/
def checkSignature (d : Device) (p : Nat) (img : List Byte) : Chk Unit := do
  let at_ := num img 8 4 - 512
  let sig := img.drop at_
  let signer := num sig 6 1
  let root := num sig 7 1
  need (sig.take 4 == [0x41, 0x58, 0x53, 0x47]) 0x06 at_
  need (num sig 4 2 == 1) 0x06 (at_ + 4)
  needZero sig [(8, 8), (0x71, 15), (0x88, 8), (0x150, 0xB0)] 0x06 at_
  need (signer ≤ 1) 0x06 (at_ + 6)
  if signer == 0 then needZero sig [(0x10, 97), (0x80, 8), (0x90, 96)] 0x06 at_
  need (rootUsable d root) 0x07 (at_ + 7)
  let tenant := (sig.drop 0x10).take 97
  if signer == 1 then
    need (Config.ecdsaVerify (d.rootKeysAt root) (Config.sha384 ((sig.drop 4).take 0x8C)) ((sig.drop 0x90).take 96)) 0x08
      (at_ + 0x90)
    need (d.fld F.SEC_ENDORSE_MIN_min root ≤ num sig 0x84 4) 0x08 (at_ + 0x84)
    need (bit (num sig 0x80 4) p == 1) 0x0A (at_ + 0x80)
  need (Config.ecdsaVerify (if signer == 0 then d.rootKeysAt root else tenant)
    (Config.sha384 (img.take (at_ + 0xF0))) ((sig.drop 0xF0).take 96)) 0x09 (at_ + 0xF0)
  need (d.fld F.FIG_MINVER_minver p ≤ num img 0x14 4) 0x0B 0x14

/-! ### Step 3: the sections (R41 to R43) -/

/-- A section-table entry (R41). -/
structure Section where
  type : Nat
  flags : Nat
  layout : Nat
  off : Nat
  len : Nat
  crc : Nat

def sectionAt (img : List Byte) (i : Nat) : Section :=
  let e := (img.drop (0x80 + 16 * i)).take 16
  ⟨num e 0 2, num e 2 1, num e 3 1, num e 4 4, num e 8 4, num e 12 4⟩

def sectionsOf (img : List Byte) : List Section := (List.range (num img 0x18 2)).map (sectionAt img)

/-- The bytes of the section of a type; empty where the image has none. -/
def sectionBytes (img : List Byte) (t : Nat) : List Byte :=
  match (sectionsOf img).find? (fun s => s.type == t) with
  | some s => (img.drop s.off).take s.len
  | none => []

def hasSection (img : List Byte) (t : Nat) : Bool := (sectionsOf img).any fun s => s.type == t

/-- A type is known: 1 to 13 (R43). -/
def knownType (t : Nat) : Bool := 1 ≤ t && t ≤ 13

/-- The record size of a section with records of one size (R43). -/
def recordSize : Nat → Nat
  | 1 => 32 | 2 => 16 | 3 => 16 | 5 => 32 | 6 => 8 | 8 => 16 | 9 => 16 | 10 => 64 | 12 => 16 | _ => 1

/-- The offset of entry `i` of the section table, which FIG_DETAIL gives for the entry's errors. -/
def entryOff (i : Nat) : Nat := 0x80 + 16 * i

/-- The checks of R58 step 3. -/
def checkSections (img : List Byte) : Chk Unit := do
  let ss := sectionsOf img
  let lim := num img 8 4 - 512
  let tab := entryOff ss.length
  need (num img 0x1C 4 == 0x80) 0x10 0x1C
  need (1 ≤ ss.length && ss.length ≤ 64 && tab ≤ lim) 0x10 0x18
  needAll 0 ss fun i s => do
    need (s.off % 64 == 0 && tab ≤ s.off && s.off + s.len ≤ lim && s.flags ≤ 1 && s.layout == 0) 0x10 (entryOff i)
    need ((ss.take i).all fun r => s.off + s.len ≤ r.off || r.off + r.len ≤ s.off || s.len == 0 || r.len == 0) 0x10
      (entryOff i)
  let covered (o : Nat) : Bool := ss.any fun s => s.off ≤ o && o < s.off + s.len
  match (List.range (lim - tab)).find? fun k => !covered (tab + k) && img.getD (tab + k) 0 != 0 with
  | some k => .error (0x10, tab + k)
  | none => .ok ()
  needAll 0 ss fun i s => do
    need (knownType s.type || s.flags % 2 == 1) 0x13 (entryOff i)
    need (!imgPartial img || [4, 9, 12, 13].contains s.type) 0x13 (entryOff i)
    need (!((ss.take i).any fun r => r.type == s.type)) 0x14 (entryOff i)
  needAll 0 ss fun i s => need (s.crc == crc32c ((img.drop s.off).take s.len)) 0x11 (entryOff i)
  need ((if imgPartial img then [4, 12] else [1, 2, 3, 4, 10]).all (hasSection img)) 0x12 noIndex
  let len (t : Nat) : Nat := (sectionBytes img t).length
  need (len 1 == num img 0x28 4 * 32) 0x15 0x28
  need (len 2 == num img 0x2C 4 * 16) 0x15 0x2C
  need (len 3 == num img 0x30 4 * 16) 0x15 0x30
  need (((records 32 (sectionBytes img 1)).filter fun r => num r 2 1 == 0).length == num img 0x34 4) 0x15 0x34
  needAll 0 ss fun i s => need (s.len % recordSize s.type == 0 && (s.type != 10 || s.len == 64)) 0x15 (entryOff i)

/-! ### Decoding the sections (R44 to R54) -/

def parseSet (r : List Byte) : SetRec :=
  { parent := num r 0 2, composite := num r 2 1 != 0, tolerant := num r 3 1 % 2 == 1, firstPort := num r 4 4,
    portCount := num r 8 2, cluster := num r 12 1, core := num r 13 1, program := num r 14 2, firstChild := num r 12 2,
    childCount := num r 14 2, firstRoute := num r 16 4, routeCount := num r 20 4 }

def parsePort (r : List Byte) : PortRec :=
  { owner := num r 0 2, out := num r 2 1 != 0, format := num r 3 1, rows := num r 4 2, cols := num r 6 2, depth := num r 8 1,
    cue := num r 9 1, external := num r 10 1, externalIndex := num r 12 4 }

def parseRoute (r : List Byte) : RouteRec :=
  { src := num r 0 4, dst := num r 4 4, medium := num r 8 1, priority := num r 9 1, window := num r 10 2, bundle := num r 12 1 }

def parseWindow (r : List Byte) : WindowRec :=
  { owner := num r 0 2, tier := num r 2 1, access := num r 3 1, cluster := num r 4 1, page := num r 5 1, offset := num r 8 8,
    length := num r 16 8, va := num r 24 8 }

def parseCue (r : List Byte) : CueRec :=
  { owner := num r 0 2, level := num r 2 1, index := num r 3 1, initial := num r 4 2, linkDie := num r 6 1 }

def parseGroup (sec r : List Byte) : GroupRec :=
  { group := num r 0 2, kind := num r 2 1, algorithm := num r 3 1, count := num r 4 4,
    members := if num r 2 1 == 0 then (List.range (min 65536 (num r 4 4))).map fun i => num sec (num r 8 4 + 4 * i) 4 % 2 ^ 20 else [],
    axis := num r 12 1, onFail := num r 13 1, timeoutMs := num r 14 2, start := num r 16 4, stride := num r 20 4 }

def parseBundle (r : List Byte) : BundleRec := { role := num r 0 1, vc := num r 1 1, links := num r 4 12 }

def parseConst (sec r : List Byte) : ConstRec :=
  { owner := num r 0 2, kind := num r 2 1, slot := num r 3 1, value := num r 4 4,
    blob := if num r 2 1 == 4 then (sec.drop (num r 8 4)).take (num r 12 4) else [] }

def parsePatch (r : List Byte) : PatchRec :=
  { set := num r 0 2, mode := num r 2 1, program := num r 4 2, resume := num r 6 2 }

/-- The table of a PROGRAMS section: offset and steps of each program (R47). -/
def programTable (sec : List Byte) : List (Nat × Nat) :=
  (List.range (min 65536 (num sec 0 4))).map fun i => (num sec (16 + 16 * i) 4, num sec (20 + 16 * i) 2)

/-- A program's steps (R47, R73). -/
def parseProgram (sec : List Byte) (e : Nat × Nat) : List (BitVec 128) :=
  (records 16 ((sec.drop e.1).take (16 * e.2))).map fun r => BitVec.ofNat 128 (fromLE r)

/-- The figure of a full image, not yet checked past step 3. -/
def parseFigure (img : List Byte) : Figure :=
  let s (t : Nat) : List Byte := sectionBytes img t
  let pol := s 10
  { figureId := num img 0x10 4, security := num img 0x14 4, root := num img (num img 8 4 - 512 + 7) 1,
    digest := Config.sha384 (img.take (num img 8 4 - 512 + 0xF0)),
    shapeClusters := num img 0x20 2, shapeGroups := num img 0x22 2, shapeWays := num img 0x24 1, shapeVcs := num img 0x25 1,
    shapeCodecs := num img 0x26 1,
    sets := (records 32 (s 1)).map parseSet, ports := (records 16 (s 2)).map parsePort,
    routes := (records 16 (s 3)).map parseRoute, programs := (programTable (s 4)).map (parseProgram (s 4)),
    windows := (records 32 (s 5)).map parseWindow, cues := (records 8 (s 6)).map parseCue,
    groups := (records 32 ((s 7).drop 16 |>.take (32 * num (s 7) 0 4))).map (parseGroup (s 7)),
    bundles := (records 16 (s 8)).map parseBundle, consts := (records 16 (s 9)).map (parseConst (s 9)),
    accuracy := num pol 0 1, rank := num pol 1 1, promotion := num pol 2 1, weightRing := s 11 }

/-! ### Step 4: the shape (R58) -/

/-- The die sites that hold one of a partition's first `n` clusters. -/
def shapeDies (d : Device) (p n : Nat) : List Nat := (((partClusters d p).take n).map (· / 8)).dedup

/-- A logical cluster has a site under the spare map. -/
def clusterPresent (d : Device) (cl : Nat) : Bool := (clusterSite d (cl / 8) (cl % 8)).isSome

/-- Every element the figure requires has a site under the spare map: its partition clusters, its channel groups and its
codec engines (R58 step 4, R68). -/
def elementsPresent (d : Device) (p : Nat) (f : Figure) : Bool :=
  ((partClusters d p).take f.shapeClusters).all (clusterPresent d) && f.shapeGroups ≤ (groupOrder d p).length &&
    f.shapeCodecs ≤ ((partCodecs d p).filter (codecPresent d)).length

/-- The checks of R58 step 4: what the partition owns (R40), then whether every element is present. The ways are asked of
every die that holds a cluster of the partition. -/
def checkShape (d : Device) (p : Nat) (f : Figure) : Chk Unit := do
  need (1 ≤ f.shapeClusters && f.shapeClusters ≤ (partClusters d p).length) 0x20 0x20
  need (f.shapeGroups ≤ (partGroups d p).length) 0x21 0x22
  need ((shapeDies d p 128).all fun die => match dieSite d die with
    | some s => f.shapeWays ≤ ((List.range floorWays).filter fun w => wayOwner d s w == some p).length
    | none => true) 0x22 0x24
  need (f.shapeVcs % 2 == 0 && f.shapeVcs < 64 &&
    (List.range 6).all fun v => bit f.shapeVcs v == 0 || bit (d.reg .PRT_SHAPE_LNK p) v == 1) 0x23 0x25
  need (f.shapeCodecs ≤ (partCodecs d p).length) 0x24 0x26
  need (elementsPresent d p f) 0x25 noIndex

/-! ### Step 5: sets, ports, routes and paths (R32 to R37, R44 to R46) -/

/-- The checks of the set tree (R44); `raw` holds the bytes of the SETS records. -/
def checkTree (f : Figure) (raw : List (List Byte)) : Chk Unit := do
  need (f.sets.length ≤ 65536) 0x31 0x28
  need (f.ports.length ≤ 1048576) 0x31 0x2C
  need (!f.sets.isEmpty) 0x30 noIndex
  needAll 0 f.sets fun i s => do
    let r := raw.getD i []
    need (num r 2 1 ≤ 1 && num r 3 1 ≤ 1 && zeroAt r 10 2 && zeroAt r 28 4 && (s.composite || zeroAt r 16 8)) 0x30 i
    need (if i == 0 then s.parent == 0xFFFF else s.parent < i && (f.set s.parent).composite &&
      (f.set s.parent).firstChild ≤ i && i < (f.set s.parent).firstChild + (f.set s.parent).childCount) 0x30 i
    need (!s.composite || (1 ≤ s.childCount && s.firstChild + s.childCount ≤ f.sets.length && i < s.firstChild &&
      (List.range s.childCount).all fun k => (f.set (s.firstChild + k)).parent == i)) 0x30 i

/-- The placement of leaves (R33). A partition cluster is in range below the header's shape_clusters, which is what the figure
requires, also where the partition owns more; a tier 0 window's cluster alike (log entry 122). -/
def checkPlacement (f : Figure) : Chk Unit :=
  needAll 0 f.sets fun i s => need (s.composite || (s.cluster < f.shapeClusters && s.core < 16 &&
    !((List.range i).any fun j => !(f.set j).composite && (f.set j).cluster == s.cluster && (f.set j).core == s.core))) 0x32 i

/-- A port of the figure. -/
def Figure.port (f : Figure) (i : Nat) : PortRec := f.ports.getD i {}

/-- The checks of the PORTS records (R45); `raw` holds their bytes. -/
def checkPorts (f : Figure) (raw : List (List Byte)) : Chk Unit := do
  needAll 0 f.sets fun i s => need (s.firstPort + s.portCount ≤ f.ports.length) 0x33 i
  needAll 0 f.ports fun i q => do
    need (q.owner < f.sets.length && f.sets.zipIdx.all fun (s, o) =>
      (s.firstPort ≤ i && i < s.firstPort + s.portCount) == (o == q.owner)) 0x33 i
    let s := f.set q.owner
    need (num (raw.getD i []) 2 1 ≤ 1 && num (raw.getD i []) 11 1 == 0 && (q.format ≤ 7 || q.format == 15) && 1 ≤ q.rows && q.rows ≤ 4096 && 1 ≤ q.cols && q.cols ≤ 4096 &&
      1 ≤ q.depth && q.depth ≤ 16 && (if !s.composite && !q.out then q.cue < 32 else q.cue == 0xFF) &&
      (if q.owner == 0 then (q.external == 1 && q.externalIndex < 512) ||
        (q.external == 2 && q.externalIndex < f.bundles.length) else q.external == 0 && q.externalIndex == 0)) 0x34 i

/-- A port belongs to composite set `o` or to a child of it (R35). -/
def inScope (f : Figure) (o i : Nat) : Bool :=
  let q := f.port i
  q.owner == o || (q.owner != 0 && (f.set q.owner).parent == o)

/-- The checks of the ROUTES records (R35, R46); `raw` holds their bytes. -/
def checkRoutes (f : Figure) (raw : List (List Byte)) : Chk Unit := do
  needAll 0 f.sets fun i s => need (s.firstRoute + s.routeCount ≤ f.routes.length) 0x33 i
  needAll 0 f.routes fun i r => do
    need (r.src < f.ports.length && r.dst < f.ports.length) 0x33 i
    let a := f.port r.src
    let b := f.port r.dst
    match (List.range f.sets.length).filter fun o => (f.set o).composite && (f.set o).firstRoute ≤ i &&
        i < (f.set o).firstRoute + (f.set o).routeCount with
    | [o] => do
      need (inScope f o r.src && inScope f o r.dst) 0x35 i
      need (a.out == (a.owner != o) && b.out == (b.owner == o) && a.format == b.format && a.rows == b.rows &&
        a.cols == b.cols && (r.medium ≤ 4 || r.medium == 0xFF) && r.priority ≤ 3 &&
        (if r.medium == 1 || r.medium == 2 then decide (r.window < f.windows.length) else r.window == 0xFFFF) &&
        (if r.medium == 3 then decide (r.bundle < f.bundles.length) else r.bundle == 0xFF) &&
        zeroAt (raw.getD i []) 13 3) 0x34 i
    | _ => .error (0x35, i)

/-- The routes each port receives and sends (R36). -/
def checkBound (f : Figure) : Chk Unit :=
  needAll 0 f.ports fun i q => do
    let ins := (f.routes.filter fun r => r.dst == i).length
    let outs := (f.routes.filter fun r => r.src == i).length
    need (if q.out == (q.owner == 0) then ins == 1 else true) 0x36 i
    need (outs ≤ 8) 0x37 i
    need (if q.out != (q.owner == 0) then 1 ≤ outs else true) 0x36 i

/-- A port is a path's end: a leaf in-port or a root out-port. -/
def pathEnd (f : Figure) (i : Nat) : Bool :=
  let q := f.port i
  (!(f.set q.owner).composite && !q.out) || (q.owner == 0 && q.out)

/-- The routes from a port, with their indices. -/
def routesFrom (f : Figure) (i : Nat) : List (Nat × RouteRec) :=
  (f.routes.zipIdx.filter fun x => x.1.src == i).map fun x => (x.2, x.1)

/-- What the path from `src` leads to over a route (R36): the routes that break R36 or R37, and its streams, each with the
route that names its medium. `seen` holds the routes walked, `m` the medium found so far, and the fuel bounds the length of a
chain. -/
def walkPath (f : Figure) (src : Nat) : Nat → List Nat → Option (Nat × RouteRec) → Nat × RouteRec →
    List Nat × List (Nat × StreamRec)
  | 0, _, _, (i, _) => ([i], [])
  | fuel + 1, seen, m, (i, r) =>
    if seen.contains i || (r.medium != 0xFF && m.isSome) then ([i], []) else
    let m := if r.medium == 0xFF then m else some (i, r)
    if pathEnd f r.dst then
      match m with
      | some (k, q) => ([], [(k, ⟨src, r.dst, q.medium, q.priority, q.window, q.bundle⟩)])
      | none => ([i], [])
    else
      let next := (routesFrom f r.dst).map (walkPath f src fuel (i :: seen) m)
      (next.flatMap (·.1), next.flatMap (·.2))

/-- A port is a path's start: a leaf out-port or a root in-port. -/
def pathStart (f : Figure) (i : Nat) : Bool :=
  let q := f.port i
  (!(f.set q.owner).composite && q.out) || (q.owner == 0 && !q.out)

/-- Every path of a figure, by source port in ascending order (R36, R38). -/
def resolveAll (f : Figure) : List Nat × List (Nat × StreamRec) :=
  let all := ((List.range f.ports.length).filter (pathStart f)).flatMap fun s =>
    (routesFrom f s).map (walkPath f s (f.routes.length + 1) [] none)
  (all.flatMap (·.1), all.flatMap (·.2))

/-- The logical cluster of a port's leaf; none for a root port. -/
def portCluster (d : Device) (p : Nat) (f : Figure) (i : Nat) : Option Nat :=
  let q := f.port i
  if q.owner == 0 && (f.set 0).composite then none else (partClusters d p)[(f.set q.owner).cluster]?

/-- A stream's medium agrees with the placement of its ends (R37). Media 0 and 1 join leaves, which lie in a cluster and on a
die; medium 2 joins any two ends (log entry 39). -/
def mediumOk (d : Device) (p : Nat) (f : Figure) (s : StreamRec) : Bool :=
  let a := portCluster d p f s.src
  let b := portCluster d p f s.dst
  let w := f.windows.getD s.window {}
  let roots (ext : Nat) : List PortRec := ([s.src, s.dst].map f.port).filter fun q => q.owner == 0 && q.external == ext
  match s.medium with
  | 0 => a.isSome && a == b
  | 1 => w.tier == 0 && a.isSome && b.isSome && a.map (· / 8) == b.map (· / 8) &&
      ((partClusters d p)[w.cluster]?).map (· / 8) == a.map (· / 8)
  | 2 => w.tier == 1
  | 3 => (roots 2).any fun q => q.externalIndex == s.bundle
  | 4 => !(roots 1).isEmpty
  | _ => false

/-- The streams with every medium checked; the index is the lowest route at fault. -/
def checkMedia (d : Device) (p : Nat) (f : Figure) : Chk (List StreamRec) :=
  let (bad, ss) := resolveAll f
  match bad ++ (ss.filter fun s => !mediumOk d p f s.2).map (·.1) with
  | [] => .ok (ss.map (·.2))
  | i :: is => .error (0x38, is.foldl min i)

/-! ### Step 6: programs (R47, R95) -/

/-- The bits a kind defines end at this bit; lower ones are reserved (R81 to R94). -/
def kindLow : Nat → Nat
  | 1 => 10 | 2 => 10 | 3 => 26 | 4 => 4 | 5 => 18 | 6 => 2 | 7 => 21 | 8 => 32 | 9 => 69 | 10 => 58 | 11 => 6 | 12 => 81
  | 13 => 18 | 14 => 78 | _ => 0

/-- The record that reaches a leaf's constant register is of kind `k` (R95). -/
def constIs (f : Figure) (leaf s k : Nat) : Bool := (constRec f leaf s [0, 2, 3]).any fun c => c.kind == k

/-- The value of a leaf's constant register. -/
def constVal (f : Figure) (leaf s : Nat) : Nat := ((constRec f leaf s [0, 2, 3]).map (·.value)).getD 0

/-- A pattern register: kind 2, with levels 0 to 6 in both fields (R77, R95). -/
def patternOk (f : Figure) (leaf s : Nat) : Bool :=
  constIs f leaf s 2 && bits (constVal f leaf s) 31 29 ≤ 6 && bits (constVal f leaf s) 15 13 ≤ 6

/-- A tile-address field is valid. -/
def tileOk (f : Figure) (leaf a : Nat) : Bool := bit a 8 == 0 || patternOk f leaf (bits a 7 0)

/-- A window may be used by a leaf's step: owned by it or an ancestor, with the access (R80, R95). -/
def windowOk (f : Figure) (leaf i : Nat) (k : Kind) : Bool :=
  match f.windows[i]? with
  | some w => (ancestors f leaf).contains w.owner && k.permitted w.access && (k == .read || w.tier != 2) &&
      (k != .atomic || w.tier == 0)
  | none => false

/-- A leaf of the figure occupies a partition cluster's core. -/
def leafAt (f : Figure) (cluster core : Nat) : Bool :=
  f.sets.any fun s => !s.composite && s.cluster == cluster && s.core == core

/-- A cue is named in CUES, for a leaf's cluster at level 1 and a link die at level 2 (R95). -/
def cueNamed (f : Figure) (level cluster linkDie index : Nat) : Bool :=
  f.cues.any fun c => c.level == level && c.index == index &&
    (if level == 1 then (leaves f c.owner).any fun l => (f.set l).cluster == cluster
     else level != 2 || c.linkDie == linkDie)

/-- The loops open before each step, as (level, opening step, whether its trip is dynamic), innermost first, up to the first
step that breaks R74, which is given too. -/
def loopStacks : List (BitVec 128) → Nat → List (Nat × Nat × Bool) → List (List (Nat × Nat × Bool)) × Option Nat
  | [], i, st => ([st], if st.isEmpty then none else some (i - 1))
  | w :: ws, i, st =>
    let o := stepOpen w
    let c := stepClose w
    let dyn := sb w 116 116 == 1
    if (o != 0 && o != st.length + 1) || 6 < o || 6 < c || (o != 0 && !dyn && sb w 115 100 == 0) ||
        ((o == 0 || dyn) && sb w 115 100 != 0) then ([st], some i) else
    let st1 := if o == 0 then st else (o, i, dyn) :: st
    if c != 0 && (decide (st1.length < c) || st1.any fun l => decide (c < l.1) && l.2.2) then ([st], some i) else
    let (sts, bad) := loopStacks ws (i + 1) (if c == 0 then st1 else st1.drop (st1.length + 1 - c))
    (st :: sts, bad)

/-- The kind, the reserved bits and the enumerated fields of a step are valid (R81 to R95), apart from loops. -/
def stepForm (w : BitVec 128) : Bool :=
  let k := stepKind w
  let fmts : List Nat := [0, 1, 2, 3, 4, 7]
  1 ≤ k && k ≤ 14 && sb w 99 96 == 0 && w.toNat % 2 ^ kindLow k == 0 &&
  match k with
  | 3 =>
    let a := sb w 37 35
    let b := sb w 34 32
    fmts.contains a && fmts.contains b && sb w 31 27 ≤ 16 &&
      ((a == b && (a ≤ 1 || a == 7 || a == 4)) || ((a == 2 || a == 3) && (b == 2 || b == 3))) &&
      (sb w 26 26 == 0 || (a == 4 && b == 4))
  | 4 => sb w 47 46 ≤ 2 && sb w 16 7 % 2 ^ sb w 47 46 == 0 && (sb w 6 4 == 4 || sb w 6 4 == 5)
  | 5 => (sb w 26 24 == 4 || sb w 26 24 == 5) && (sb w 23 21 ≤ 3 || sb w 23 21 == 7)
  | 6 => if sb w 6 6 == 1 then sb w 95 92 == 12 else sb w 5 2 == 0
  | 7 => sb w 45 42 ≤ 6 && sb w 25 23 != 6
  | 9 => sb w 95 94 ≤ 2 && (sb w 95 94 == 2 || sb w 93 92 == 0) && (sb w 95 94 != 0 || sb w 91 86 < 32)
  | 10 => sb w 95 94 ≤ 2 && sb w 73 58 != 0 && (sb w 95 94 != 0 || sb w 79 74 < 32)
  | 11 => sb w 95 92 ≤ 10 && (sb w 6 6 == 0 || sb w 95 92 ≤ 8)
  | 12 => sb w 95 94 ≤ 2
  | 13 => sb w 95 94 ≤ 2 && sb w 57 55 ≤ 6 && sb w 54 53 ≤ 2 && sb w 52 50 ≤ 6 && sb w 22 20 ≤ 6
  | _ => true

/-- The cue a step of a leaf names may be used (R95): its own core's, one named in CUES, or a core cue of a leaf. -/
def stepCues (f : Figure) (leaf : Nat) (w : BitVec 128) : Bool :=
  match stepKind w, sb w 95 94 with
  | 9, 1 => cueNamed f 1 (f.set leaf).cluster 0 (sb w 91 86)
  | 9, 2 => cueNamed f 2 0 (sb w 93 92) (sb w 91 86)
  | 10, 0 => leafAt f (sb w 93 86) (sb w 85 82)
  | 10, 1 => cueNamed f 1 (sb w 93 86) 0 (sb w 79 74)
  | 10, 2 => cueNamed f 2 0 (sb w 81 80) (sb w 79 74)
  | _, _ => true

/-- The constants, windows and neighbours that a step of a leaf names are valid (R95). -/
def stepNames (f : Figure) (leaf : Nat) (w : BitVec 128) : Bool :=
  let s := f.set leaf
  let shapeOk (r : Nat) : Bool := constIs f leaf r 2 &&
    (bits (constVal f leaf r) 9 0 == 0 || bits (constVal f leaf r) 19 10 + 1 ≤ bits (constVal f leaf r) 9 0)
  match stepKind w with
  | 1 | 2 => windowOk f leaf (sb w 95 84) (if stepKind w == 1 then .read else .write) &&
      (sb w 55 55 == 0 || patternOk f leaf (sb w 54 47)) && tileOk f leaf (sb w 42 19) && shapeOk (sb w 18 11)
  | 3 => tileOk f leaf (sb w 95 72) && tileOk f leaf (sb w 71 48)
  | 4 => tileOk f leaf (sb w 95 72) && tileOk f leaf (sb w 71 48) && constIs f leaf (sb w 24 17) 0
  | 5 => tileOk f leaf (sb w 95 72) && tileOk f leaf (sb w 71 48)
  | 6 => tileOk f leaf (sb w 91 68) && tileOk f leaf (sb w 51 28) &&
      (sb w 6 6 == 0 || f.consts.any fun c => c.owner == leaf && c.kind == 1 && c.slot == sb w 5 2)
  | 7 => tileOk f leaf (sb w 94 71) && tileOk f leaf (sb w 70 47) && constIs f leaf (sb w 41 34) 3 &&
      constIs f leaf (sb w 33 26) 3
  | 8 => tileOk f leaf (sb w 93 70) && (meshNeighbour s.core (sb w 95 94)).any fun nb => leafAt f s.cluster nb
  | 11 => windowOk f leaf (sb w 91 80) .atomic && (sb w 51 51 == 0 || patternOk f leaf (sb w 50 43)) && tileOk f leaf (sb w 42 19)
  | 13 =>
    let n := sb w 41 38 + 1
    tileOk f leaf (sb w 93 70) &&
      (sb w 95 94 == 2 || (List.range n).all fun j => constIs f leaf (sb w 49 42 + j) 2) &&
      (sb w 37 37 == 0 || (List.range n).all fun j => constIs f leaf (sb w 36 29 + j / 2) 2)
  | _ => true

/-- The jump targets of a SEL at step `i` of `n` are valid (R525): below the program's end, with the loops open there that
are open once the SEL has completed. -/
def jumpsOk (f : Figure) (leaf n : Nat) (open_ : List (List (Nat × Nat × Bool))) (i : Nat) (w : BitVec 128) : Bool :=
  stepKind w != 13 || sb w 37 37 == 0 || (List.range (sb w 41 38 + 1)).all fun j =>
    let r := constVal f leaf (sb w 36 29 + j / 2)
    let t := if j % 2 == 0 then bits r 15 0 else bits r 31 16
    t < n && (open_.length ≤ t ||
      (open_.getD t []).map (fun l => (l.1, l.2.1)) == (open_.getD (i + 1) []).map fun l => (l.1, l.2.1))

/-- A program is valid for the leaves that run it (R95), `names` telling whether what a leaf's step names may be used; the
index is `shown` × 16,384 + step. -/
def checkProgram (names : Nat → BitVec 128 → Bool) (f : Figure) (users : List Nat) (prog shown : Nat) : Chk Unit :=
  let steps := f.steps prog
  let (st, bad) := loopStacks steps 0 []
  needAll 0 steps fun i w => need (bad != some i && stepForm w && users.all fun l =>
    names l w && jumpsOk f l steps.length st i w) 0x42 (shown * 16384 + i)

/-- The PROGRAMS section (R47): its head, its table and each program's place. -/
def checkProgramTable (sec : List Byte) : Chk Unit := do
  let n := num sec 0 4
  let tab := ceilDiv (16 + 16 * n) 64 * 64
  need (n ≤ 65536 && 16 + 16 * n ≤ sec.length && zeroAt sec 4 12 && zeroAt sec (16 + 16 * n) (tab - 16 - 16 * n)) 0x41 noIndex
  needAll 0 (programTable sec) fun i e => need (1 ≤ e.2 && e.2 ≤ 16384 && e.1 % 64 == 0 && tab ≤ e.1 &&
    e.1 + 16 * e.2 ≤ sec.length && zeroAt sec (22 + 16 * i) 10) 0x41 i

/-- The semaphores that a program names lie in the partition's allotment (R233). -/
def semsAllotted (d : Device) (p : Nat) (steps : List (BitVec 128)) : Bool :=
  steps.all fun w => stepKind w != 12 || sb w 93 81 < (partCells d p).length

/-- The programs of the figure (R58 step 6), each for the leaves that run it. -/
def checkPrograms (f : Figure) (sec : List Byte) : Chk Unit := do
  needAll 0 f.sets fun i s => need (s.composite || s.program < num sec 0 4) 0x40 i
  checkProgramTable sec
  needAll 0 f.programs fun j _ =>
    checkProgram (fun l w => stepCues f l w && stepNames f l w) f ((List.range f.sets.length).filter fun l => !(f.set l).composite && (f.set l).program == j) j j

/-! ### Step 6: resources and constants (R48 to R52, R269) -/

/-- The size of a partition's scratchpad space on a cluster's die. -/
def scratchSize (d : Device) (p cluster : Nat) : Nat :=
  match ((partClusters d p)[cluster]?).bind fun cl => dieSite d (cl / 8) with
  | some s => (scratchWays d p s).length * wayBytes
  | none => 0

/-- A tier 1 range lies in the partition's groups, reaches no hole (R237) and does not overlap the tree region (R168). -/
def dramSpanOk (d : Device) (p off len : Nat) : Bool :=
  !treeOverlap d p off len && off + len ≤ (groupOrder d p).length * 0xC0000000 &&
  ((groupOrder d p).zipIdx.all fun (g, i) => (groupChans d g).length != 3 ||
    off + len ≤ i * 0xC0000000 + 0x90000000 || (i + 1) * 0xC0000000 ≤ off)

/-- The checks of a WINDOWS record (R48, R258); `raw` holds the records' bytes. -/
def checkWindow (d : Device) (p : Nat) (f : Figure) (raw : List (List Byte)) (i : Nat) (w : WindowRec) : Chk Unit := do
  need (w.owner < f.sets.length) 0x48 i
  need (zeroAt (raw.getD i []) 6 2 && (w.tier != 0 || w.cluster < f.shapeClusters) && w.tier ≤ 2 && w.page ≤ 1 && w.access ≤ 7 && (bit w.access 2 == 0 || w.tier == 0) && (w.tier == 0 || w.cluster == 0) &&
    w.length != 0 && w.length % pageBytes w.page == 0 && w.offset % pageBytes w.page == 0 && w.va % pageBytes w.page == 0 &&
    w.va + w.length ≤ 2 ^ 56 &&
    (match w.tier with
     | 0 => w.offset + w.length ≤ scratchSize d p w.cluster
     | 1 => dramSpanOk d p w.offset w.length
     | _ => w.access % 8 ≤ 1 && (sharedEntry d p w.offset w.length [0, 1, 2]).isSome)) 0x4A i

/-- The checks of a CUES record (R49); `raw` holds the records' bytes. -/
def checkCue (d : Device) (p : Nat) (f : Figure) (raw : List (List Byte)) (i : Nat) (c : CueRec) : Chk Unit := do
  need (c.owner < f.sets.length && (c.level != 0 || !(f.set c.owner).composite) &&
    (c.level != 1 || ((leaves f c.owner).map fun l => (f.set l).cluster).dedup.length ≤ 1)) 0x48 i
  need (num (raw.getD i []) 7 1 == 0 && c.level ≤ 2 && c.index < (if c.level == 0 then 32 else 64) &&
    (if c.level == 2 then c.linkDie < (partLinkDies d p).length else c.linkDie == 0) &&
    !((f.cues.take i).any fun b => b.level == c.level && b.index == c.index &&
      (match c.level with
       | 0 => b.owner == c.owner
       | 1 => (leaves f b.owner).map (fun l => (f.set l).cluster) |>.any fun x =>
           ((leaves f c.owner).map fun l => (f.set l).cluster).contains x
       | _ => b.linkDie == c.linkDie))) 0x49 i

/-- FP32 bits of a bounded-head bound: finite, positive and at most 100 (R52). -/
def boundOk (v : Nat) : Bool := 0 < v && v ≤ 0x42C80000

/-- The checks of a CONSTANTS record (R52); `sets` tells whether the figure's sets are known. -/
def checkConst (sets : Bool) (f : Figure) (sec : List Byte) (i : Nat) (c : ConstRec) : Chk Unit := do
  need (!sets || (c.owner < f.sets.length && (c.kind != 1 || !(f.set c.owner).composite))) 0x48 i
  let r := (sec.drop (16 * i)).take 16
  need (c.kind ≤ 4 && (c.kind != 1 || (c.slot < 16 && boundOk c.value)) &&
    (if c.kind == 4 then c.value == 0 && num r 8 4 + num r 12 4 ≤ sec.length else zeroAt r 8 8)) 0x4B i

/-- The reserved bytes of a WEIGHT_RING section are 0 (R39, R268). -/
def ringReserved (sec : List Byte) : Bool :=
  zeroAt sec 9 3 && zeroAt sec 0x12 2 && zeroAt sec 0x18 0x28 &&
    (List.range (num sec 6 1)).all fun i => zeroAt sec (80 + 32 * i) 16

/-- The checks of the weight ring (R268, R269); `has` says that the image has the section. -/
def checkRing (d : Device) (p : Nat) (f : Figure) (has : Bool) : Chk Unit :=
  if !has then .ok () else do
    let s := ringSlots f
    need (ringNum f 4 2 < f.sets.length && ringNum f 7 1 != ringNum f 8 1) 0x48 noIndex
    need (2 ≤ s && s ≤ 8 && f.weightRing.length == 64 + 32 * s && ringReserved f.weightRing && 1 ≤ ringLayers f && ringNum f 7 1 < 32 && ringNum f 8 1 < 32) 0x49 noIndex
    match (d.catalog.map (·.2)).find? fun e => e.state == 2 && e.kind == 0 && e.modelId == ringNum f 0 4 && bit e.share p == 1 with
    | none => .error (0x4A, noIndex)
    | some e =>
      let w := f.windows.getD (ringNum f 0xC 2) {}
      let slot (i : Nat) : Nat × Nat := (ringNum f (64 + 32 * i) 8, ringNum f (72 + 32 * i) 8)
      need (ringNum f 0xC 2 < f.windows.length && w.tier ≤ 1 && (List.range s).all fun i =>
        (slot i).1 % 65536 == 0 && (slot i).2 % 65536 == 0 && (slot i).1 + (slot i).2 ≤ w.length &&
        (List.range i).all fun j => (slot i).1 + (slot i).2 ≤ (slot j).1 || (slot j).1 + (slot j).2 ≤ (slot i).1) 0x4A noIndex
      need (ringNum f 0xE 2 + ringLayers f ≤ e.layerCount && (ringCopies f).all fun q =>
        (layerOf d e (ringNum f 0xE 2 + q % ringLayers f)).2 ≤ (slot (ringSlot f q)).2) 0x49 noIndex

/-- The GROUPS section holds its table and its member lists, and its reserved bytes are 0 (R50). -/
def groupBytesOk (sec : List Byte) (i : Nat) : Bool :=
  let r := (sec.drop (16 + 32 * i)).take 32
  r.length == 32 && zeroAt r 24 8 && (if num r 2 1 == 0 then num r 8 4 + 4 * num r 4 4 ≤ sec.length else num r 8 4 == 0)

/-- The checks of the POLICY record (R53). -/
def policyOk (f : Figure) (r : List Byte) : Bool :=
  (f.accuracy == 2 && f.rank == 0 || f.accuracy == 1 && [8, 16, 32, 64].contains f.rank) && 1 ≤ f.promotion &&
    f.promotion ≤ 16 && zeroAt r 3 61

/-- The checks of R58 step 6 after the programs; `sec` gives the section of a type, and `ring` says that there is a weight ring. -/
def checkResources (d : Device) (p : Nat) (f : Figure) (sec : Nat → List Byte) (ring : Bool) : Chk Unit := do
  need (f.streams.length ≤ d.fld F.PRT_SHAPE_STR_count p) 0x49 noIndex
  need (f.windows.length ≤ 4096 && num (sec 7) 0 4 ≤ min 4096 (d.fld F.PRT_SHAPE_GRT_count p) && f.bundles.length ≤ 32 &&
    f.consts.length ≤ 65536) 0x49 noIndex
  needAll 0 f.programs fun j ws => need (semsAllotted d p ws) 0x49 j
  needAll 0 f.windows (checkWindow d p f (records 32 (sec 5)))
  needAll 0 f.cues (checkCue d p f (records 8 (sec 6)))
  need (zeroAt (sec 7) 4 12) 0x49 noIndex
  needAll 0 (List.range (num (sec 7) 0 4)) fun i _ => need (groupBytesOk (sec 7) i) 0x49 i
  needAll 0 f.groups fun i g => do
    need (g.kind ≤ 1 && g.algorithm ≤ 2 && 2 ≤ g.count && g.count ≤ 65536 && g.onFail ≤ 1 && g.axis ≤ 1 &&
      !groupLimit d g && listOffset f (i + 1) ≤ listRegion d p) 0x49 i
    need (groupOwn d g) 0x48 i
  needAll 0 f.bundles fun i b => do
    need (b.role ≤ 5 && 1 ≤ b.vc && b.vc ≤ 5 && bit f.shapeVcs b.vc == 1 && zeroAt ((records 16 (sec 8)).getD i []) 2 2) 0x49 i
    need (bundleGrouped d b) 0x48 i
  checkRing d p f ring
  needAll 0 f.consts (checkConst true f (sec 9))
  need (policyOk f (sec 10)) 0x4B 0

/-! ### A whole image -/

/-- Where a slot's share of the staging area begins, and its size (R57). -/
def slotArea (d : Device) (p slot : Nat) : Nat × Nat :=
  let n := d.fld F.FIG_AREA_size_mib p * 1048576 / 8
  (d.fld F.FIG_AREA_base p * 65536 + slot * n, n)

/-- Step 7: the decoded figure fits the slot's share of the staging area, which lies in the partition's DRAM (R58,
FIG_AREA). -/
def checkSpace (d : Device) (p slot : Nat) (img : List Byte) : Chk Unit :=
  let (a, n) := slotArea d p slot
  need (Config.decodedBytes img.length ≤ min n (dramRun d p 128 a)) 0x50 noIndex

/-- Steps 4 to 6 on a full image, which leave the figure with its streams. -/
def checkStructure (d : Device) (p : Nat) (img : List Byte) : Chk Figure := do
  let sec := sectionBytes img
  let f := parseFigure img
  checkShape d p f
  checkTree f (records 32 (sec 1))
  checkPlacement f
  checkPorts f (records 16 (sec 2))
  checkRoutes f (records 16 (sec 3))
  checkBound f
  let ss ← checkMedia d p f
  let f := { f with streams := ss }
  checkPrograms f (sec 4)
  checkResources d p f sec (hasSection img 11)
  return f

/-- A full image for slot `slot`, checked in the order of R58. -/
def checkFull (d : Device) (p slot : Nat) (img : List Byte) : Chk Figure := do
  checkSections img
  let f ← checkStructure d p img
  checkSpace d p slot img
  need (!(d.fld F.FIG_STATUS_active_valid p == 1 && d.fld F.FIG_STATUS_active_slot p == slot)) 0x51 noIndex
  return f

/-- A figure with a partial image's programs appended, its constants over those of the sets that own them, and the
patched leaves named with their new programs; the patches' program indices are moved to the joined list (R65). -/
def patchedFigure (f : Figure) (img : List Byte) : Figure × List PatchRec :=
  let sec := sectionBytes img 4
  let n := f.programs.length
  let cs := (records 16 (sectionBytes img 9)).map (parseConst (sectionBytes img 9))
  let ps := ((records 16 (sectionBytes img 12)).map parsePatch).map fun r => { r with program := n + r.program }
  ({ f with
     programs := f.programs ++ (programTable sec).map (parseProgram sec)
     consts := cs ++ f.consts.filter fun c => !cs.any fun b => b.owner == c.owner && b.kind == c.kind && b.slot == c.slot }, ps)

/-- The valid slot that a partial image patches: the lowest whose figure has the base digest it names (R65; log entry 123). -/
def baseSlot (d : Device) (p : Nat) (img : List Byte) : Option Nat :=
  (List.range 8).find? fun s => (d.slotsAt (p * 8 + s)).any fun f => f.digest == (img.drop 0x38).take 48

/-- A step index at which a patched core may resume: step 0, or a step of the program that follows a BEAT (R54). -/
def resumeOk (steps : List (BitVec 128)) (i : Nat) : Bool :=
  i == 0 || (i < steps.length && (steps[i - 1]?).any fun w => stepKind w == 14)

/-- The leaf sets that a partial image gives a program. -/
def patchUsers (f : Figure) (ps : List PatchRec) (prog : Nat) : List Nat :=
  (ps.filter fun r => r.program == prog && r.set < f.sets.length && !(f.set r.set).composite).map (·.set)

/-- The checks of R58 step 6 on a partial image over the figure it patches; without one (`none`), those that need none. -/
def checkPatchParts (d : Device) (p : Nat) (base : Option Figure) (img : List Byte) : Chk Unit := do
  let f := base.getD {}
  let sec := sectionBytes img
  let n := f.programs.length
  let (g, ps) := patchedFigure f img
  let cs := (records 16 (sec 9)).map (parseConst (sec 9))
  needAll 0 ps fun i r => need (r.program < n + num (sec 4) 0 4) 0x40 i
  checkProgramTable (sec 4)
  needAll 0 (g.programs.drop n) fun j _ => checkProgram (fun l w => stepNames g l w)
    g (if base.isNone then [] else patchUsers f ps (n + j)) (n + j) j
  need (ps.length ≤ 256 && cs.length ≤ 65536) 0x49 noIndex
  needAll 0 (g.programs.drop n) fun j ws => need (semsAllotted d p ws) 0x49 j
  needAll 0 cs fun i c => checkConst base.isSome f (sec 9) i c

/-- A partial image: the slot its base digest names, the patched figure, and its records (R54, R65 to R67), checked in the
order of R58: the programs and constants first, then the base and what each record may replace. Of several records for one
set the last stays in the stored form (log entry 124). -/
def checkPatch (d : Device) (p : Nat) (img : List Byte) : Chk (Nat × Figure × List PatchRec) := do
  checkSections img
  let slot := baseSlot d p img
  checkPatchParts d p (slot.bind fun s => d.slotsAt (p * 8 + s)) img
  match slot with
  | none => .error (0x53, noIndex)
  | some slot =>
    let f := (d.slotsAt (p * 8 + slot)).getD {}
    let sec := sectionBytes img
    let (g, ps) := patchedFigure f img
    checkSpace d p slot img
    needAll 0 ps fun i r => do
      let raw := (records 16 (sec 12)).getD i []
      need (r.set < f.sets.length && !(f.set r.set).composite && r.mode ≤ 1 && zeroAt raw 3 1 && zeroAt raw 8 8 &&
        (if r.mode == 0 then r.resume == 0 else resumeOk (g.steps r.program) r.resume)) 0x52 i
      need ((g.steps r.program).all (stepCues g r.set)) 0x52 i
    needAll 0 ((records 16 (sec 9)).map (parseConst (sec 9))) fun i c => need (ps.any fun r => r.set == c.owner) 0x52 i
    let sets := ps.foldl (fun ss r => ss.set r.set { g.set r.set with program := r.program }) g.sets
    return (slot, { g with sets := sets }, ps)

end Sys2Proof.Machine
end

