-- ==== Sys2Proof/Machine/Packets.lean ====
section
/-! DEFINITION. Flits, packets, groups, routes and flows (12_links_and_lines.md R299 to R303, R306, R308, R309, R312), and the
encryption of a flow's packets (19_security.md R469, R470). -/

namespace Sys2Proof.Machine

/-! ### Flits (R298, R299) -/

/-- The parity bit of a flit's framing bits: even parity over bits 7 to 2 (R299). -/
def frameParity (v : Nat) : Nat := ((List.range 6).map fun i => bit v (i + 2)).sum % 2

/-- The framing bits of a flit (R299): type 1 header, 2 data or 3 control, its virtual channel, and whether it ends its packet. -/
def frameBits (type vc : Nat) (last : Bool) : Nat :=
  let v := type * 64 + vc * 8 + (if last then 4 else 0)
  v + frameParity v * 2 + 1

/-- The bytes of a flit as a link carries it: its framing bits as one byte, then its 256 bytes. -/
def flitBytes : Nat := 257

/-- A flit. -/
def flit (frame : Nat) (bs : List Byte) : List Byte := toLE 1 frame ++ bs

/-- The flits that a link's bytes hold. -/
def flitsIn (bs : List Byte) : List (List Byte) :=
  (List.range (bs.length / flitBytes)).map fun k => (bs.drop (k * flitBytes)).take flitBytes

/-- The framing bits of a flit. -/
def frameOf (f : List Byte) : Nat := num f 0 1

/-- The first flit whose parity fails (R299). -/
def badFlit (bs : List Byte) : Option Nat := (flitsIn bs).findIdx? fun f => bit (frameOf f) 1 != frameParity (frameOf f)

/-! ### The packet as bytes (R301) -/

/-- Data flits of a packet. -/
def Packet.flits (p : Packet) : Nat := ceilDiv p.bytes 256

/-- Flits of a packet: its header and its data. -/
def Packet.length (p : Packet) : Nat := 1 + p.flits

/-- A byte string cut or padded with zeros to `n` bytes. -/
def padTo (n : Nat) (bs : List Byte) : List Byte := (bs ++ List.replicate (n - bs.length) 0).take n

/-- The header flit. -/
def Packet.header (p : Packet) : List Byte :=
  toLE 1 p.kind ++ toLE 1 p.vc ++ toLE 2 p.hops ++ toLE 4 p.dst ++ toLE 4 p.src ++ toLE 2 p.dstCtx ++ toLE 2 p.srcCtx ++
  toLE 8 p.va ++ toLE 4 p.cue ++ toLE 2 p.epoch ++ toLE 2 p.flits ++ toLE 8 p.tag ++ toLE 4 p.bytes ++ toLE 1 p.reason ++
  List.replicate 19 0 ++ padTo 32 p.crypt ++ padTo 160 p.body

/-- The framing bits of flit `k` of a packet (R299). -/
def Packet.frame (p : Packet) (k : Nat) : Nat := frameBits (if k == 0 then 1 else 2) p.vc (k == p.flits)

/-- All flits of a packet, the last padded with zeros. -/
def Packet.wire (p : Packet) : List Byte :=
  let bs := p.header ++ padTo (p.flits * 256) p.data
  (List.range p.length).flatMap fun k => flit (p.frame k) ((bs.drop (k * 256)).take 256)

/-- The packet that flits hold. -/
def packetOf (flits : List Byte) : Packet :=
  let bs := (flitsIn flits).flatMap (·.drop 1)
  { kind := num bs 0 1, vc := num bs 1 1, hops := num bs 2 2, dst := bits (num bs 4 4) 19 0, src := bits (num bs 8 4) 19 0,
    dstCtx := num bs 0xC 2, srcCtx := num bs 0xE 2, va := num bs 0x10 8, cue := num bs 0x18 4, epoch := num bs 0x1C 2,
    tag := num bs 0x20 8, bytes := num bs 0x28 4, reason := num bs 0x2C 1, crypt := (bs.drop 0x40).take 32,
    body := (bs.drop 0x60).take 160, data := (bs.drop 256).take (num bs 0x28 4) }

/-- The bytes given are the flits of one packet, each framed as its place in it asks: header and data flits in whole, its kind and
channel defined. -/
def wholePacket (bs : List Byte) : Bool :=
  let p := packetOf bs
  bs.length == flitBytes * p.length && num bs 0x1F 2 == p.flits && p.flits ≤ 256 && 1 ≤ p.kind && p.kind ≤ 8 && p.vc ≤ 7 &&
    (flitsIn bs).zipIdx.all fun x => frameOf x.1 / 2 == p.frame x.2 / 2

/-! ### Egress (R303, R312) -/

/-- The next of some links in rotation after the one used last. -/
def nextInTurn (last : Nat) (ls : List Nat) : Option Nat := (ls.find? (last < ·)).orElse fun _ => ls.head?

/-- Queue a packet for admission on the next of the links given, in rotation; with none up it is lost (R306). -/
def enqueue (name : Nat) (ls : List Nat) (p : Packet) : Eff := .obs fun d =>
  match nextInTurn (d.rrAt (1024 + name)) ls with
  | some i => .seq (putRr (1024 + name) i) (modEgress (i * 8 + p.vc) (· ++ [p]))
  | none => .skip

/-- The entry of a link die's routing table for a destination: the lowest-numbered valid one that covers it (R312). -/
def routeEntry (d : Device) (die dst : Nat) : Option Nat :=
  ((List.range 4096).find? fun e =>
    let w := (d.routesAt (die * 4096 + e)).toNat
    bit w 63 == 1 && bits w 59 40 ≤ dst && dst ≤ bits w 39 20).map fun e => (d.routesAt (die * 4096 + e)).toNat

/-- A packet's destination is this device. -/
def isLocal (d : Device) (die dst : Nat) : Bool := (routeEntry d die dst).any fun w => bit w 62 == 1

/-- A packet for a destination goes out on a link: a group of its entry has a link up. -/
def hasEgress (d : Device) (die dst : Nat) : Bool :=
  (routeEntry d die dst).any fun w => bit w 62 == 0 && !(groupUp d (bits w 19 18 * 24 + bits w 4 0)).isEmpty

/-- Route a packet from a link die: to the group of its entry, or discarded and counted (R312). -/
def routePacket (die : Nat) (p : Packet) : Eff := .obs fun d =>
  match routeEntry d die p.dst with
  | none => addSat F.LNK_DROPS_unrouted 0 1
  | some w =>
    let i := bits w 19 18 * 24 + bits w 4 0
    .when (bit w 62 == 0) (enqueue (groupName d i) (groupUp d i) p)

/-! ### Flows (R308, R309) -/

/-- The first flow entry, by number, that satisfies `p`. -/
def findFlow (d : Device) (p : Flow → Bool) : Option (Nat × Flow) :=
  ((mapKeys d.flows fun _ f => bit f.flags 0 == 1 && p f).head?).map fun k => (k, d.flowsAt k)

/-- The entry a context of this device sends under to a peer (R309). -/
def sendFlow (d : Device) (c peer : Nat) : Option (Nat × Flow) :=
  if d.fld F.LNK_FLOW_BASE_enable 0 == 0 then none
  else findFlow d fun f => bit f.flags 1 == 1 && f.peer == peer && f.localCtx == c

/-- The entry that admits a packet's source and destination contexts (R310). -/
def recvFlow (d : Device) (p : Packet) : Option (Nat × Flow) :=
  if d.fld F.LNK_FLOW_BASE_enable 0 == 0 then none
  else findFlow d fun f => f.peer == p.src && f.peerCtx == p.srcCtx && f.localCtx == p.dstCtx

/-- The virtual channel is permitted by an entry. -/
def flowVc (f : Flow) (vc : Nat) : Bool := 1 ≤ vc && vc ≤ 5 && bit f.vcs vc == 1

/-! ### Encryption of a flow's packets (R469, R470) -/

/-- The additional authenticated data: the header with hops and tag taken as 0. -/
def Packet.aad (p : Packet) : List Byte := { p with hops := 0, crypt := p.crypt.take 16 ++ List.replicate 16 0 }.header

/-- An encrypting entry can send: its slot holds a key and its counter is below 2^48. -/
def canSeal (d : Device) (f : Flow) : Bool :=
  bit f.flags 5 == 0 || ((d.linkKeysAt f.slot).gen != 0 && (d.linkKeysAt f.slot).counter < 281474976710656)

/-- A packet of a flow as it is sent: encrypted under the entry's slot where the entry says so. -/
def sealPacket (d : Device) (f : Flow) (p : Packet) : Packet :=
  if bit f.flags 5 == 0 then p
  else
    let k := d.linkKeysAt f.slot
    let q := { p with crypt := toLE 4 (d.fld F.LNK_DEVICE_id 0) ++ toLE 8 k.counter ++ toLE 4 k.gen }
    let (c, t) := Config.gcmSeal k.key (q.crypt.take 12) q.aad q.data
    { q with data := c, crypt := q.crypt ++ t }

/-- The counter of an encrypting entry's slot advances by 1 per packet. -/
def sealCount (f : Flow) : Eff :=
  .when (bit f.flags 5 == 1) (modLinkKeys f.slot fun k => { k with counter := k.counter + 1 })

/-- The key a packet of an encrypting entry was sent under, by its generation. -/
def packetKey (d : Device) (f : Flow) (p : Packet) : Option (List Byte) :=
  let g := num p.crypt 0xC 4
  let k := d.linkKeysAt f.slot
  if g == 0 then none else if g == k.gen then some k.key else if g == k.prevGen then some k.prevKey else none

/-- A counter is fresh: not accepted before, and within the 1,024 below the highest accepted. -/
def freshCounter (seen : List Nat) (c : Nat) : Bool := !seen.contains c && seen.foldl max 0 ≤ c + 1024

/-- The counters accepted under a generation for an entry. -/
def seenUnder (d : Device) (entry g : Nat) : List Nat :=
  (((d.linkSeenAt entry).find? fun s => s.gen == g).map (·.counters)).getD []

/-- The plaintext of a packet of entry `k`, where it passes every check of R470. -/
def openPacket (d : Device) (k : Nat) (f : Flow) (p : Packet) : Option (List Byte) :=
  if bit f.flags 5 == 0 then some p.data
  else
    match packetKey d f p with
    | none => none
    | some key =>
      if freshCounter (seenUnder d k (num p.crypt 0xC 4)) (num p.crypt 4 8) then
        Config.gcmOpen key (p.crypt.take 12) p.aad p.data (p.crypt.drop 16)
      else none

/-- Record that a packet's counter was accepted. -/
def acceptCounter (k : Nat) (f : Flow) (p : Packet) : Eff :=
  .when (bit f.flags 5 == 1) <| modLinkSeen k fun ss =>
    let g := num p.crypt 0xC 4
    let c := num p.crypt 4 8
    let old := ((ss.find? fun s => s.gen == g).map (·.counters)).getD []
    let all := c :: old
    ⟨g, all.filter fun x => all.foldl max 0 ≤ x + 1024⟩ :: ss.filter fun s => s.gen != g

end Sys2Proof.Machine
end

