-- ==== Sys2Proof/Machine/Engine.lean ====
section
/-! DEFINITION. What the engines of all rings share (11_dma_and_cues.md R275 to R284, R526; R332, R356 and R374 take it
over): reading the descriptor at head, writing a completed one back, halting, and cancelling. -/

namespace Sys2Proof.Machine

/-- A little-endian field of a descriptor. -/
def Desc.num (x : Desc) (o k : Nat) : Nat := Machine.num x.raw o k

/-- The control word, the cue field and the length field of a descriptor. -/
def Desc.ctrl (x : Desc) : Nat := x.num 0 4
def Desc.cue (x : Desc) : Nat := x.num 0x18 4
def Desc.length (x : Desc) : Nat := x.num 4 4

/-- A ring's state (DMA_RING_STAT.state): 0 disabled, 1 idle, 2 active, 3 halted, 4 cancelling. -/
def ringState (d : Device) (n : Nat) : Nat := d.fld F.DMA_RING_STAT_state n

/-- The fault-log source of a ring's engine (R451). -/
def ringSource (n : Nat) : Nat :=
  match ringKind n with
  | .dma | .link => 11
  | .col => 13
  | .vce => 14
  | .ing => 15

/-- Log a ring's halt as a corrected-severity event against its context (R283, R526). -/
def logRing (n code : Nat) : Eff := .obs fun d =>
  logError { severity := 0, source := ringSource n, code := code, context := ringCtx d n, site := ringEngine n }

/-- Translation of a ring's descriptors: by the maps of its context, or at a teardown by those that it had before (R284). -/
def descTranslate (d : Device) (n a : Nat) (k : Kind) : Option Nat :=
  match d.keptMapsAt n with
  | none => translateMaps d (ringCtx d n) a k
  | some (p, fig, drv) => translateEntry d p (ringCtx d n) a k ((covering a fig).orElse fun _ => covering a drv)

/-- The physical addresses of a ring's descriptor `j`. -/
def descAddrs (d : Device) (n j : Nat) (k : Kind) : Option (List Nat) :=
  (List.range 64).mapM fun i => descTranslate d n (descAddr d n j + i) k

/-- A ring's engine reports that a descriptor cannot be read or written back (R526). -/
def descriptorLost (n : Nat) : Eff := .seq (setF F.DMA_RING_STAT_last_status n 15) (logRing n 15)

/-- Halt a ring because a descriptor cannot be read or written back (R526). -/
def descriptorFault (n : Nat) : Eff := .seq (setF F.DMA_RING_STAT_state n 3) (descriptorLost n)

/-- What a ring's engine meets as it reads memory (R230, R240), and the counts of the flash extents that its partition reads
(R249). -/
def agentReads (n : Nat) (as fixed lost : List Nat) : Eff := .seq (memErrors as fixed lost) <| .obs fun d =>
  .each (ringPart d n).toList fun p => countReads p as

/-- The most descriptors a ring has taken: one and 8 read ahead (R277). -/
def takenLimit : Nat := 9

/-- Take the descriptor at head where its own bit is 1 (R277); `check` gives the status one that moves nothing ends with. -/
def fetchDesc (n : Nat) (check : Device → Desc → Option Nat) (fixed lost : List Nat) : Eff := .obs fun d =>
  let live := ringServed d n && (ringState d n == 1 || ringState d n == 2) && (d.ringsAt n).length < takenLimit
  let head := d.fld F.DMA_RING_STAT_head n
  .when live <|
    match descAddrs d n head .read with
    | none => descriptorFault n
    | some as => .when (!agentHeld d (ringPart d n) as) <| .seq (agentReads n as fixed lost) <| .obs fun d =>
      if anyPoison d as then descriptorFault n
      else
        let x : Desc := { index := head, raw := d.bytesAt as }
        .when (bit x.ctrl 31 == 1) <| .all [
          modRings n (· ++ [{ x with status := check d x }]),
          setF F.DMA_RING_STAT_head n (head + 1),
          setF F.DMA_RING_STAT_state n 2]

/-- Whether a completion with a status halts a ring: statuses 1 to 5 and 7 of a DMA or an ingest ring, and every status but
OK of a collective ring, and the statuses of R359 for a codec ring (R283, R341, R359, R374). -/
def halts (n status : Nat) : Bool :=
  match ringKind n with
  | .dma | .link | .ing => (1 ≤ status && status ≤ 5) || status == 7
  | .col => status != 0
  | .vce => status != 0 && status != 6 && status != 11 && status != 12

/-- Write a descriptor back (R281 steps 2 and 3): bytes 0x30 to 0x3F, then ctrl with own = 0. The answer is whether it
can be written; where it cannot, nothing is. -/
def canWriteBack (d : Device) (n : Nat) (x : Desc) : Bool :=
  match descAddrs d n x.index .write with
  | some as => writable as && !anyPoison d as
  | none => false

/-- The write-back itself. -/
def writeBack (n : Nat) (x : Desc) (tail : List Byte) : Eff := .obs fun d =>
  match descAddrs d n x.index .write with
  | some as => .seq (store (as.drop 0x30) tail) (store (as.take 4) (toLE 4 (x.ctrl % 2147483648)))
  | none => .skip

/-- A ring's state once descriptors have left it. -/
def settleRing (n : Nat) : Eff := .obs fun d =>
  .when (ringState d n == 2 && (d.ringsAt n).isEmpty) (setF F.DMA_RING_STAT_state n 1)

/-- A ring is halted under R526, which its registers show until it is resumed: descriptors taken before complete meanwhile. -/
def faultHalted (d : Device) (n : Nat) : Bool := ringState d n == 3 && d.fld F.DMA_RING_STAT_last_status n == 15

/-- Complete the oldest descriptor of a ring with its status (R281 to R283, R526): `tail` is what its engine writes at
bytes 0x30 to 0x3F, `signal` its cue event. -/
def completeDesc (n : Nat) (x : Desc) (status : Nat) (tail : List Byte) (signal : Eff) : Eff := .obs fun d => .all [
  modRings n (·.drop 1),
  if canWriteBack d n x then .all [
    writeBack n x tail,
    .when (!faultHalted d n) (setF F.DMA_RING_STAT_last_status n status),
    .when (bit x.cue 31 == 1) signal,
    .when (halts n status && ringState d n != 4) (.seq (setF F.DMA_RING_STAT_state n 3) (logRing n status))]
  else descriptorFault n,
  settleRing n]

/-- The cue of a descriptor's ring's context on this device (R281 step 4). -/
def signalDesc (n : Nat) (x : Desc) : Eff := .obs fun d =>
  match ringPart d n with
  | some p => signalField p (ringCtx d n) x.cue
  | none => .skip

/-- Write one cancelled descriptor back (R284): no cue is signalled. -/
def cancelDesc (n : Nat) (x : Desc) (code : Nat) (tail : List Byte) : Eff := .obs fun d =>
  if canWriteBack d n x then .seq (writeBack n x tail) (setF F.DMA_RING_STAT_last_status n code) else descriptorLost n

/-- Write back CANCELLED every later descriptor found with own = 1, up to the first with own = 0 (R284). -/
def cancelLater (n code : Nat) (tail : Desc → List Byte) : Nat → Nat → Eff
  | 0, _ => .skip
  | fuel + 1, j => .obs fun d =>
    match descAddrs d n j .read with
    | none => descriptorLost n
    | some as =>
      let x : Desc := { index := j, raw := d.bytesAt as }
      if anyPoison d as then descriptorLost n
      else .when (bit x.ctrl 31 == 1) <|
        .all [setF F.DMA_RING_STAT_head n (j + 1), cancelDesc n x code (tail x), cancelLater n code tail fuel (j + 1)]

/-- Finish a cancellation (R284), once every burst in flight is acknowledged or has failed: taken descriptors whose data was complete
complete in ring order, the others and the later ones are written back with `code`, and the ring is disabled. -/
def finishCancel (n code : Nat) (tail : Desc → Nat → List Byte) (signal : Desc → Eff) : Eff := .obs fun d =>
  .when (ringState d n == 4 && (d.ringsAt n).all (·.unacked.isEmpty)) <| .all [
    .each (d.ringsAt n) fun x =>
      match x.status with
      | some st => completeDesc n x st (tail x st) (signal x)
      | none => .seq (modRings n (·.drop 1)) (cancelDesc n x code (tail x code)),
    .obs fun d => cancelLater n code (fun x => tail x code) (ringSize d n) (d.fld F.DMA_RING_STAT_head n),
    setF F.DMA_RING_BASE_enable n 0, setF F.DMA_RING_STAT_state n 0, putKeptMaps n none]

/-- Change the descriptor of a ring with a number. -/
def modDesc (n index : Nat) (f : Desc → Desc) : Eff :=
  modRings n fun xs => xs.map fun x => if x.index == index then f x else x

end Sys2Proof.Machine
end

