-- ==== Sys2Proof/Machine/Dma.lean ====
section
/-! DEFINITION. DMA rings, their bursts and completions, and cues (11_dma_and_cues.md). -/

namespace Sys2Proof.Machine

/-! ### Checksums (R285) -/

/-- CRC-64, one bit: ECMA-182, not reflected. -/
def crc64Bit (c : BitVec 64) : BitVec 64 := if c.getLsbD 63 then (c <<< 1) ^^^ 0x42F0E1EBA9EA3693#64 else c <<< 1

/-- CRC-64, one byte. -/
def crc64Byte (c : BitVec 64) (b : Byte) : BitVec 64 :=
  crc64Bit <| crc64Bit <| crc64Bit <| crc64Bit <| crc64Bit <| crc64Bit <| crc64Bit <| crc64Bit
    (c ^^^ (b.setWidth 64 <<< 56))

/-- CRC-64 of a byte string: initial value and final XOR 0. -/
def crc64 (bs : List Byte) : Nat := (bs.foldl crc64Byte 0#64).toNat

/-- Fletcher-32 over 16-bit little-endian words, from the sums so far. -/
def fletcherFrom : Nat → Nat → List Byte → Nat
  | a, b, [] => b * 65536 + a
  | a, b, [x] =>
    let a := (a + x.toNat) % 65535
    (b + a) % 65535 * 65536 + a
  | a, b, x :: y :: t =>
    let a := (a + (x.toNat + 256 * y.toNat)) % 65535
    fletcherFrom a ((b + a) % 65535) t

/-- Fletcher-32 of a byte string. -/
def fletcher32 (bs : List Byte) : Nat := fletcherFrom 0 0 bs

/-- The checksum of the done bytes by kind; a transfer of 0 bytes has checksum 0. -/
def checksum (kind : Nat) (bs : List Byte) : Nat :=
  if bs.isEmpty then 0
  else if kind == 1 then crc32c bs else if kind == 2 then crc64 bs else if kind == 3 then fletcher32 bs else 0

/-! ### Descriptors (R278, R279) -/

def Desc.src (x : Desc) : Nat := x.num 8 8
def Desc.dst (x : Desc) : Nat := x.num 0x10 8
def Desc.peer (x : Desc) : Nat := bits (x.num 0x1C 4) 19 0
def Desc.bundle (x : Desc) : Nat := bits (x.num 0x1C 4) 24 20
def Desc.srcSpace (x : Desc) : Nat := bits x.ctrl 30 29
def Desc.dstSpace (x : Desc) : Nat := bits x.ctrl 28 27
def Desc.csum (x : Desc) : Nat := bits x.ctrl 26 25
def Desc.fence (x : Desc) : Bool := bit x.ctrl 22 == 1

/-- A ring is a link-die ring. -/
def isLinkRing (n : Nat) : Bool := ringKind n == .link

/-- The bundle a descriptor names, in the active figure of its ring's partition. -/
def descBundle (d : Device) (n : Nat) (x : Desc) : Option BundleRec :=
  ((ringPart d n).bind d.active).bind fun f => f.bundles[x.bundle]?

/-- A virtual channel that contexts of a partition may send data on: VC1 and those given to it (R302). -/
def dataVc (d : Device) (n vc : Nat) : Bool :=
  (ringPart d n).any fun p => vc == 1 || (1 ≤ vc && vc ≤ 5 && bit (d.fld F.PRT_SHAPE_LNK_vcs p) (vc - 1) == 1)

/-- An address is in its space. -/
def addrInSpace (space a : Nat) : Bool :=
  if space == 1 then true else if space == 3 then a < 281474976710656 else a < 72057594037927936

/-- A DMA descriptor breaks the rules of R279, R302 or R309, or sets a reserved bit. -/
def badDesc (d : Device) (n : Nat) (x : Desc) : Bool :=
  let remote := x.dstSpace == 2
  bits x.ctrl 21 0 != 0 || x.srcSpace == 2 || bits x.cue 7 0 != 0 || (bit x.cue 8 == 1 && !remote) || x.num 0x28 8 != 0 ||
  (if remote then bits (x.num 0x1C 4) 31 25 != 0 else x.num 0x1C 4 != 0) ||
  ((x.srcSpace == 3 || x.dstSpace == 3) && d.fld F.DMA_RING_OWN_phys n == 0) ||
  !addrInSpace x.srcSpace x.src || !addrInSpace x.dstSpace x.dst ||
  (remote && (!isLinkRing n || match descBundle d n x with
    | none => true
    | some b => !dataVc d n b.vc))

/-- The links of a bundle that a descriptor's first hop may use: for role 5, tree-down, those of the peer's group (R314). -/
def bundleLinks (d : Device) (b : BundleRec) (peer : Nat) : List Nat :=
  (List.range 96).filter fun i => bit b.links i == 1 && linkUp d i &&
    (b.role != 5 || nbrId d i == some peer)

/-- The flow and bundle a descriptor of space 2 is sent under; none is LINK_ERROR (R309, R469). -/
def remoteFlow (d : Device) (n : Nat) (x : Desc) : Option (Flow × BundleRec) :=
  match sendFlow d (ringCtx d n) x.peer, descBundle d n x with
  | some (_, f), some b => if flowVc f b.vc && canSeal d f && !(bundleLinks d b x.peer).isEmpty then some (f, b) else none
  | _, _ => none

/-- The status a DMA descriptor ends with before it moves anything (R279, R296, R309). -/
def dmaCheck (n : Nat) (d : Device) (x : Desc) : Option Nat :=
  if badDesc d n x then some 7
  else if x.dstSpace == 2 && (remoteFlow d n x).isNone then some 5
  else if x.length == 0 then some 0 else none

/-! ### Bursts (R280, R286) -/

/-- What a physical address is to a ring of partition `p` (R6, R7, R226, R508): 0 served, 1 unlisted, 2 a fault. -/
def physClass (d : Device) (p a : Nat) (write : Bool) : Nat :=
  if inDram a then (if groupRetired d (groupOf a) || inHole d (groupOf a) ((place a - 0x1000000000) % 0xC0000000) then 2 else 0)
  else if inFlash a then (if write then 2 else 0)
  else if inRegSpace a then 2
  else if floorServed d p a then 0 else 1

/-- The physical addresses of `m` bytes at `a` in space 0 or 3, none for a byte of an unlisted range; none at all where
one of them faults. -/
def spaceAddrs (d : Device) (n space a m : Nat) (k : Kind) : Option (List (Option Nat)) :=
  if space == 3 then
    match ringPart d n with
    | none => none
    | some p => (List.range m).mapM fun i =>
      let c := physClass d p (a + i) (k == .write)
      if c == 2 then none else if c == 1 then some none else some (some (a + i))
  else
    match translateRange d (ringCtx d n) a k m with
    | some as => if k == .write && !writable as then none else some (as.map fun a => if unlisted a then none else some a)
    | none => none

/-- The bytes of the next burst of a descriptor: up to the next 4 KiB boundary of its destination (R280). -/
def burstLength (x : Desc) : Nat := min (x.length - x.moved.length) (4096 - (x.dst + x.moved.length) % 4096)

/-- The bytes before the first poisoned 64-byte unit of a source (R282). -/
def beforePoison (d : Device) (a : Nat) (as : List (Option Nat)) : Nat :=
  match as.findIdx? fun b => b.any d.badByte with
  | some i => i - (a + i) % 64
  | none => as.length

/-- The descriptor whose burst is next on a ring: the first whose data is not all sent, unless it is fenced behind one
that has not completed (R278). -/
def nextDesc (xs : List Desc) : Option Desc :=
  match xs.findIdx? fun x => x.status.isNone && x.moved.length < x.length with
  | some i => xs[i]?.bind fun x => if x.fence && i != 0 then none else some x
  | none => none

/-- A burst waits: a part of its source or destination is held (R26, R229, R243 to R245). -/
def burstHeld (d : Device) (n : Nat) (x : Desc) : Bool :=
  let o := x.moved.length
  let held (s a : Nat) (k : Kind) : Bool := (s == 0 || s == 3) &&
    (spaceAddrs d n s (a + o) (burstLength x) k).any fun as => agentHeld d (ringPart d n) (as.filterMap id)
  held x.srcSpace x.src .read || held x.dstSpace x.dst .write

/-- A ring has a burst to issue. -/
def burstReady (d : Device) (n : Nat) : Bool :=
  ringServed d n && (ringState d n == 2 || ringState d n == 3) &&
    (nextDesc (d.ringsAt n)).any fun x => !burstHeld d n x

/-- The ring an engine serves next: the first with a burst after the one served last, in ring-number order (R286). -/
def burstTurn (d : Device) (e : Nat) : Option Nat :=
  nextInTurn (d.rrAt e) ((d.listed .DMA_RING_BASE fun v => v % 2 == 1).filter fun n =>
    ringEngine n == e && (ringKind n == .dma || ringKind n == .link) && burstReady d n)

/-- The PCI Express function of a context: port × 1,024 + virtual function (R487). -/
def ctxFunction (c : Nat) : Nat := c / 512 * 1024 + c % 512 + 1

/-- The tag of a packet of a DMA transfer: ring, descriptor and offset (log entry 22). -/
def dmaTag (n : Nat) (x : Desc) (o : Nat) : Nat := (n * 65536 + x.index % 65536) * 4294967296 + o

/-- The tag of a packet that no descriptor awaits an answer to: it names no ring. -/
def noTag : Nat := 18446744073709551615

/-- The offset in its transfer from which a descriptor's bursts are packed for the next packet. -/
def Desc.packed (x : Desc) : Nat := x.moved.length - x.packing.length

/-- The write packet that carries the bursts packed (R301, R309). -/
def burstPacket (d : Device) (n : Nat) (x : Desc) (f : Flow) (b : BundleRec) : Packet :=
  sealPacket d f {
    kind := 1, vc := b.vc, dst := x.peer, src := d.fld F.LNK_DEVICE_id 0, dstCtx := f.peerCtx,
    srcCtx := ringCtx d n, va := x.dst + x.packed, epoch := f.epoch, tag := dmaTag n x x.packed,
    bytes := x.packing.length, data := x.packing }

/-- The most bursts of a write packet (R301). -/
def packLimit : Nat := 16

/-- Record what a burst moved, and that the transfer is complete or has failed. -/
def burstDone (n : Nat) (x : Desc) (bs : List Byte) (status : Option Nat) : Eff := .all [
  modDesc n x.index fun y =>
    let m := y.moved ++ bs
    { y with
      moved := m
      status := status.orElse fun _ => if m.length == y.length && y.dstSpace != 2 then some 0 else none
      packing := if y.dstSpace == 2 then y.packing ++ bs else []
      packs := if y.dstSpace == 2 && !bs.isEmpty then y.packs + 1 else y.packs },
  addWrap F.DMA_RING_BYTES_bytes n bs.length]

/-- The bursts packed for another device are sent as one write packet, once they are 16 or no more follow (R301, log entry 66); a flow
or route that is gone by then is LINK_ERROR (R309). -/
def sendPacked (n index : Nat) : Eff := .obs fun d =>
  match (d.ringsAt n).find? fun x => x.index == index with
  | none => .skip
  | some x => .when (!x.packing.isEmpty && (x.packs == packLimit || x.moved.length == x.length || x.status.isSome)) <|
      match remoteFlow d n x with
      | some (f, b) => .all [
          enqueue (groupName d ((bundleLinks d b x.peer).headD 0)) (bundleLinks d b x.peer) (burstPacket d n x f b), sealCount f,
          modDesc n index fun y => { y with unacked := y.unacked ++ [(dmaTag n y y.packed, y.packed)], packing := [], packs := 0 }]
      | none => modDesc n index fun y => { y with moved := y.moved.take y.packed, packing := [], packs := 0, status := some 5 }

/-- A burst that moves `bs` ends, and so may the packing of its packet. -/
def burstEnd (n : Nat) (x : Desc) (bs : List Byte) (status : Option Nat) : Eff :=
  .seq (burstDone n x bs status) (sendPacked n x.index)

/-- A burst's bytes reach their destination, or its status says why not (R280, R282). -/
def burstWrite (n : Nat) (x : Desc) (bs : List Byte) (after : Option Nat) : Eff := .obs fun d =>
  let o := x.moved.length
  if bs.isEmpty || x.dstSpace == 2 then burstEnd n x bs after
  else if x.dstSpace == 1 then
    .seq (modSent (· ++ [.hostWrite (ctxFunction (ringCtx d n)) (x.dst + o) bs])) (burstEnd n x bs after)
  else
    match spaceAddrs d n x.dstSpace (x.dst + o) bs.length .write with
    | none => burstEnd n x [] (some 2)
    | some as =>
      let put := (as.zip bs).filterMap fun e => e.1.map fun a => (a, e.2)
      .all [store (put.map (·.1)) (put.map (·.2)), burstEnd n x bs after,
        .when (as.any (·.isNone)) (teardown (ringCtx d n) codeRange)]

/-- One burst of a ring: it reads all its source bytes, then writes (R280). `host` is what a read of host memory returned,
none where the PCI Express request failed. -/
def burstOf (n : Nat) (x : Desc) (host : Option (List Byte)) (fixed lost : List Nat) : Eff := .obs fun d =>
  let o := x.moved.length
  let m := burstLength x
  if x.srcSpace == 1 then
    .seq (modSent (· ++ [.hostRead (ctxFunction (ringCtx d n)) (x.src + o) m])) <|
      match host with
      | none => burstEnd n x [] (some 4)
      | some bs => .when (m ≤ bs.length) (burstWrite n x (bs.take m) none)
  else
    match spaceAddrs d n x.srcSpace (x.src + o) m .read with
    | none => burstEnd n x [] (some 1)
    | some as => .seq (agentReads n (as.filterMap id) fixed lost) <| .obs fun d =>
      let k := beforePoison d (x.src + o) as
      let bs := (as.take k).map fun a => (a.map d.byte).getD 0
      .seq (burstWrite n x bs (if k < m then some 3 else none))
        (.when (as.any (·.isNone)) (teardown (ringCtx d n) codeRange))

/-- DMA_BURST (R286): the engine issues one burst of the ring whose turn it is. Link-die engines are 17 to 20. -/
def dmaBurst (e : Nat) (host : Option (List Byte)) (fixed lost : List Nat) : Eff := .obs fun d =>
  match burstTurn d e with
  | none => .skip
  | some n => .seq (putRr e n) <|
    match nextDesc (d.ringsAt n) with
    | some x => burstOf n x host fixed lost
    | none => .skip

/-! ### Completion (R281 to R283) -/

/-- The bytes a descriptor has wholly moved: for space 2 those acknowledged in order (R282). -/
def doneBytes (x : Desc) : List Byte := x.moved.take ((x.unacked.map (·.2)).foldl min x.packed)

/-- Bytes 0x30 to 0x3F of a completed DMA descriptor: checksum, status, 0, done. -/
def dmaTail (x : Desc) (status : Nat) : List Byte :=
  toLE 8 (checksum x.csum (doneBytes x)) ++ toLE 2 status ++ toLE 2 0 ++ toLE 4 (doneBytes x).length

/-- The remote cue event of a descriptor (R278 bit 8, R311): a kind 2 packet on VC0. -/
def remoteCue (n : Nat) (x : Desc) : Eff := .obs fun d =>
  match sendFlow d (ringCtx d n) x.peer, descBundle d n x with
  | some (_, f), some b =>
    let ls := bundleLinks d b x.peer
    .seq (enqueue (groupName d (ls.headD 0)) ls (sealPacket d f {
      kind := 2, vc := 0, dst := x.peer, src := d.fld F.LNK_DEVICE_id 0,
      dstCtx := f.peerCtx, srcCtx := ringCtx d n, cue := x.cue, epoch := f.epoch, tag := noTag })) (sealCount f)
  | _, _ => .skip

/-- The cue event of a DMA descriptor. -/
def dmaSignal (n : Nat) (x : Desc) : Eff := if bit x.cue 8 == 1 then remoteCue n x else signalDesc n x

/-- DMA_COMPLETE (R281): the oldest descriptor of a ring, once its data is complete and the peer has acknowledged every burst. -/
def dmaComplete (n : Nat) : Eff := .obs fun d =>
  match d.ringsAt n with
  | x :: _ =>
    match x.status with
    | some st => .when (x.unacked.isEmpty && ringState d n != 4 && (ringKind n == .dma || ringKind n == .link) &&
        !(descAddrs d n x.index .write).any (agentHeld d (ringPart d n))) (completeDesc n x st (dmaTail x st) (dmaSignal n x))
    | none => .skip
  | [] => .skip

/-! ### Ring control (R284) -/

/-- RING_CANCEL (R284). -/
def ringCancel (rq n v : Nat) : Eff := writeAct rq .DMA_RING_CTRL n v 30 <| .when (bit v 30 == 1) (cancelStart n)

/-- RING_ENABLE (R284, DMA_RING_BASE): the base is ignored while the ring is enabled; setting enable sets head to 0, and
clearing it cancels. -/
def ringEnable (rq n v : Nat) : Eff := .obs fun d =>
  if bit (mayWrite d rq .DMA_RING_BASE n) 0 == 0 then denied
  else if d.fld F.DMA_RING_BASE_enable n == 1 then .when (bit v 0 == 0) (cancelStart n)
  else .seq (setF F.DMA_RING_BASE_base n (bits v 55 6)) <| .when (bit v 0 == 1) <| .all [
    setF F.DMA_RING_BASE_enable n 1, setF F.DMA_RING_STAT_head n 0, setF F.DMA_RING_STAT_state n 1, putRings n []]

/-! ### Cues (R287 to R290) -/

/-- CUE_EVENT (R288): counts that cross into a cue in one cycle are added; `sel` selects it as EVT_CUE_SEL does, within
partition `p`, and `c` is the context the events are for. -/
def cueEvents (p : Nat) (c : Option Nat) (sel : Nat) (counts : List Nat) : Eff := .obs fun d =>
  match cueName d p (bits sel 30 29) (bits sel 28 21) (bits sel 20 17) (bits sel 16 15) (bits sel 14 9) with
  | some q => .when (counts.foldl (· + ·) 0 != 0) (cueEvent p c q (counts.foldl (· + ·) 0))
  | none => .skip

/-- The cue a partition's EVT_CUE_SEL selects (EVT_CUE.valid). -/
def selectedCue (d : Device) (p : Nat) : Option (Nat × Nat × Nat) :=
  let v := d.reg .EVT_CUE_SEL p
  cueName d p (bits v 30 29) (bits v 28 21) (bits v 20 17) (bits v 16 15) (bits v 14 9)

/-- A requester sees a cue through the EVT block: the partition owner every one; a context's driver the cues of the leaves
beneath its set, which are core cues of its cores, and the wide cues where its set is exclusive (R493, R394). -/
def cueSeen (d : Device) (rq p : Nat) (q : Nat × Nat × Nat) : Bool :=
  isSteward rq || isOwner d rq p || match ctxOfRq rq, d.active p with
    | some c, some f => if q.1 == 0 then (ctxCores d c).contains q.2.1 else exclusive f (d.fld F.CTX_BIND_set c)
    | _, _ => false

/-- The cue a requester has selected. -/
def selectedFor (d : Device) (rq p : Nat) : Option (Nat × Nat × Nat) := (selectedCue d p).filter (cueSeen d rq p)

/-- CUE_SELECT (R296): a write of EVT_CUE_SEL. -/
def cueSelect (rq p v : Nat) : Eff := writeAct rq .EVT_CUE_SEL p v 9 .skip

/-- CUE_OVERFLOW_CLEAR (R289). -/
def cueOverflowClear (rq p v : Nat) : Eff := .obs fun d =>
  if bit (mayWrite d rq .EVT_CUE p) 16 == 0 then denied
  else
    match selectedFor d rq p with
    | some q => .when (bit v 16 == 1) (modCues (cueKey q) fun c => { c with overflow := false })
    | none => .skip

/-- CUE_ADD (R287): the count is added as an event; a core cue's is for the context of its core (R397). -/
def cueAddWrite (rq p v : Nat) : Eff := .obs fun d =>
  if mayWrite d rq .EVT_CUE_ADD p == 0 then denied
  else
    match selectedFor d rq p with
    | some q => .when (bits v 15 0 != 0) (cueEvent p (if q.1 == 0 then ctxOnCore d q.2.1 else none) q (bits v 15 0))
    | none => .skip

end Sys2Proof.Machine
end

