-- ==== Sys2Proof/Machine/Links.lean ====
section
/-! DEFINITION. The link layer, failover, link sites, forwarding and the reception of flows' packets
(12_links_and_lines.md R297 to R312, R328; 19_security.md R470). -/

namespace Sys2Proof.Machine

/-! ### Credits and sequence numbers (R302 to R305) -/

/-- The receive buffer of a virtual channel, in flits (R302). -/
def vcBuffer (vc : Nat) : Nat := if 1 ≤ vc && vc ≤ 5 then 512 else 32

/-- Credits a link's channel holds: its buffer less the flits sent and not yet freed. -/
def credits (q : Port) (vc : Nat) : Nat :=
  vcBuffer vc - (q.used.getD vc 0 % 65536 + 65536 - q.returned.getD vc 0) % 65536

/-- The retry buffer: 256 flits (R305). -/
def retryBuffer : Nat := 256

/-- Flits `n` to `m - 1` of the packets that a link has admitted and that are not acknowledged, each packet's with its channel. -/
def flitRun (q : Port) (n m : Nat) : List (Nat × List Byte) :=
  q.inFlight.filterMap fun e =>
    let lo := max n e.1
    let hi := min m (e.1 + e.2.length)
    if lo < hi then some (e.2.vc, (e.2.wire.drop ((lo - e.1) * flitBytes)).take ((hi - lo) * flitBytes)) else none

/-- The flits admitted go out while the retry buffer has room for them (R305). -/
def transmit (i : Nat) : Eff := .obs fun d =>
  let q := d.portsAt i
  let m := min q.sent (q.acked + retryBuffer)
  .when (q.out < m) <| .seq (modSent (· ++ (flitRun q q.out m).map fun e => .packet i e.1 e.2)) (putPorts i { q with out := m })

/-- A list with its `i`-th number raised by `n`. -/
def addAt (xs : List Nat) (i n : Nat) : List Nat := xs.set i (xs.getD i 0 + n)

/-- A control flit (R304): the cumulative count of flits received in order, with bit 15 for a NAK, and the flits freed per channel. -/
def controlBytes (q : Port) (nak : Bool) : List Byte :=
  flit (frameBits 3 0 false) (padTo 256 (toLE 2 ((q.received + q.partialFlits) % 4096 + (if nak then 32768 else 0)) ++ toLE 2 0 ++
    q.freed.flatMap fun n => toLE 2 (n % 65536)))

/-- A control flit goes out (R304). The counts are cumulative, so that those which repeat them in time change nothing (log entry
137). -/
def sendControl (i : Nat) (nak : Bool) : Eff := .obs fun d => modSent (· ++ [.packet i 0 (controlBytes (d.portsAt i) nak)])

/-- A packet leaves the receive buffer of a link's channel, which frees its flits (R302, R304). -/
def freeFlits (i : Nat) (p : Packet) : Eff := modPorts i fun q => { q with freed := addAt q.freed p.vc p.length }

/-- A forwarded packet leaves the receive buffer that holds it. -/
def freeVia (p : Packet) : Eff := .each p.via.toList fun i => .seq (freeFlits i p) (sendControl i false)

/-- PACKET_ADMIT (R303): the oldest packet waiting on a channel is admitted once the channel holds credits for all its
flits and the retry buffer is not full, and takes them all. -/
def packetAdmit (i vc : Nat) : Eff := .obs fun d =>
  match d.egressAt (i * 8 + vc) with
  | [] => .skip
  | p :: rest =>
    let q := d.portsAt i
    .when (linkUp d i && p.length ≤ credits q vc && q.sent < q.acked + retryBuffer) <| .all [
      putEgress (i * 8 + vc) rest,
      putPorts i { q with
        sent := q.sent + p.length
        inFlight := q.inFlight ++ [(q.sent, { p with via := none })]
        used := addAt q.used vc p.length },
      transmit i, freeVia p]

/-- The count of flits acknowledged that a 12-bit cumulative count stands for. -/
def ackedCount (q : Port) (c : Nat) : Nat := q.acked + (c + 4096 - q.acked % 4096) % 4096

/-- CONTROL_FLIT (R304): cumulative acks free the retry buffer, credits are taken over, and bit 15 asks a replay. A count beyond
the flits sent acknowledges nothing. `corrected` counts the codewords with corrected symbols since the last control flit. -/
def controlFlit (i ack : Nat) (credit : List Nat) (corrected : Nat) : Eff := .obs fun d =>
  let q := d.portsAt i
  let n := ackedCount q (ack % 4096)
  let c := q.corrected + corrected
  .when (linkUp d i && credit.length == 8 && n ≤ q.out) <| .all [
    putPorts i { q with
      acked := n
      inFlight := q.inFlight.filter fun e => n < e.1 + e.2.length
      returned := credit
      nak := if bit ack 15 == 1 then some n else q.nak
      corrected := c % 1024 },
    addSat F.LNK_PORT_ERR_corrected i (c / 1024), transmit i]

/-- RETRY_REPLAY (R305): the sequenced flits from the count received in order are sent again. -/
def retryReplay (i : Nat) : Eff := .obs fun d =>
  let q := d.portsAt i
  match q.nak with
  | none => .skip
  | some n => .when (linkUp d i) <| .all [
      modSent (· ++ (flitRun q n q.out).map fun e => .packet i e.1 e.2),
      putPorts i { q with nak := none },
      addSat F.LNK_PORT_RETRY_replays i 1]

/-- UNCORRECTABLE_CODEWORD (R305): the flit and every later one are discarded until the replay; `partialFlits` flits of a
packet not yet whole had come in order. A NAK carries the count received in order. -/
def uncorrectableCodeword (i partialFlits : Nat) : Eff := .obs fun d =>
  .when (linkUp d i) <| .all [
    addSat F.LNK_PORT_ERR_uncorrected i 1,
    modPorts i (fun q => { q with partialFlits := partialFlits }),
    sendControl i true]

/-! ### Lanes, links and sites (R300, R304, R306, R307, R328) -/

/-- The packets that wait on a link are lost, and leave the buffers that hold them. -/
def dropEgress (i : Nat) : Eff := .obs fun d => .each (List.range 8) fun v =>
  .seq (.each (d.egressAt (i * 8 + v)) freeVia) (putEgress (i * 8 + v) [])

/-- Put a port down with a reason and, where another link of its group is up, ask over it for the count the dead link
received in order (R306 step 1): a kind 8 packet on VC0 whose body is 1 and the far port (log entry 23). With none up its
packets are lost. -/
def linkDown (i reason : Nat) : Eff := .obs fun d => .all [
  setF F.LNK_PORT_STATUS_state i 3, setF F.LNK_PORT_STATUS_reason i reason,
  .obs fun d' =>
    let ls := groupUp d' i
    if ls.isEmpty then .seq (modPorts i fun q => { q with inFlight := [] }) (dropEgress i)
    else enqueue (groupName d i) ls {
      kind := 8, dst := (nbrId d i).getD 0, src := d.fld F.LNK_DEVICE_id 0,
      body := toLE 1 1 ++ toLE 1 (d.fld F.LNK_PORT_NBR_far_port i) }]

/-- LANE_SWITCH (R300, R328): a lane is replaced by the spare lane if that is free; a lane that has failed while it is not
puts the port down. -/
def laneSwitch (i lane : Nat) (failed : Bool) : Eff := .obs fun d =>
  let noSpare := d.fld F.LNK_PORT_STATUS_no_spare i == 1 || d.fld F.LNK_PORT_STATUS_spare_used i == 1 || (d.portsAt i).spareBad
  .when (linkUp d i) <|
    if noSpare then .when failed (linkDown i 3)
    else .all [setF F.LNK_PORT_STATUS_spare_used i 1, setF F.LNK_PORT_STATUS_spare_for i lane,
      addSat F.LNK_PORT_RETRY_lane_switches i 1]

/-- LINK_DOWN_TIMEOUT (R304): no valid control flit for 1 ms. -/
def linkDownTimeout (i : Nat) : Eff := .obs fun d => .when (linkUp d i) (linkDown i 7)

/-- The spare-map entry that binds a link to spare site `k` of its die (R307). -/
def linkBind (i k : Nat) : Nat := siteKey 9 (128 + i * 2 + k)

/-- The link site a link is bound to: its home site, or a spare of its die (R16, R297). -/
def linkSite (d : Device) (i : Nat) : Nat :=
  i / 24 * 26 + (if d.retiredAt (linkBind i 0) then 24 else if d.retiredAt (linkBind i 1) then 25 else i % 24)

/-- A spare site of a link die that is neither failed nor bound. -/
def freeLinkSite (d : Device) (die : Nat) : Option Nat :=
  (List.range 2).find? fun k => !siteBad d 9 (die * 26 + 24 + k) &&
    (List.range 24).all fun j => !d.retiredAt (linkBind (die * 24 + j) k)

/-- LINK_SITE_FAIL (R307): failover, then a free spare site of the link die is bound and the port retrained; with none the
port stays down. -/
def linkSiteFail (site : Nat) : Eff := .obs fun d => .all [
  putRetired (siteKey 9 site) true, putApplied (siteKey 9 site) true,
  match (List.range 96).find? fun i => linkSite d i == site with
  | none => .skip
  | some i => .all [
    .when (linkUp d i) (linkDown i 8), setF F.LNK_PORT_STATUS_reason i 8,
    .each [0, 1] (fun k => putRetired (linkBind i k) false),
    .obs fun d' =>
      match freeLinkSite d' (site / 26) with
      | none => setF F.LNK_PORT_STATUS_state i 3
      | some k => .all [putRetired (linkBind i k) true, setF F.LNK_PORT_STATUS_site i (site / 26 * 26 + 24 + k),
          setF F.LNK_PORT_STATUS_state i 1]],
  saveSpare]

/-- A trained port starts its link layer afresh: flits are numbered from 0 (R305). -/
def portUp (i : Nat) : Eff := .all [
  modPorts i (fun q => { spareBad := q.spareBad, corrected := q.corrected, woke := q.woke }),
  setF F.LNK_PORT_STATUS_state i 2, setF F.LNK_PORT_STATUS_reason i 0]

/-- SITE_RETRAIN_DONE (R307): the port of the substituted site rejoins its group. -/
def siteRetrainDone (i : Nat) : Eff := .obs fun d =>
  .when (d.fld F.LNK_PORT_STATUS_state i == 1 && d.fld F.LNK_PORT_STATUS_reason i == 8) (portUp i)

/-- PORT_RETRAIN_RETRY (R328): a port that failed lanes put down trains again. -/
def portRetrainRetry (i : Nat) : Eff := .obs fun d =>
  .when (d.fld F.LNK_PORT_STATUS_state i == 3 && d.fld F.LNK_PORT_STATUS_reason i == 3) (setF F.LNK_PORT_STATUS_state i 1)

/-! ### Arriving packets -/

/-- A packet arrives over a link, its first flit numbered `seq`: one out of order is discarded, and so is one with a flit whose
parity fails, as in an uncorrectable codeword (R299, R305); else its flits are counted as received, and it is handled. A packet of
a kind the command does not handle is left alone. -/
def packetFrom (i seq : Nat) (bs : List Byte) (mine : Device → Packet → Bool) (act : Packet → Eff) : Eff := .obs fun d =>
  let p := packetOf bs
  .when (linkUp d i && seq == (d.portsAt i).received % 4096) <|
    match badFlit bs with
    | some k => uncorrectableCodeword i k
    | none => .when (wholePacket bs && mine d p) <| .seq
        (modPorts i fun q => { q with received := q.received + p.length, partialFlits := 0 }) (act p)

/-- A packet that this device takes arrives: its flits leave the receive buffer at once. -/
def packetIn (i seq : Nat) (bs : List Byte) (mine : Device → Packet → Bool) (act : Packet → Eff) : Eff :=
  packetFrom i seq bs mine fun p => .all [freeFlits i p, sendControl i false, act p]

/-- A packet arriving on a link is for this device. -/
def forMe (i kind : Nat) (d : Device) (p : Packet) : Bool := p.kind == kind && isLocal d (i / 24) p.dst

/-- FAILOVER_PACKET (R306 step 2): the partial packet of the dead link is discarded, and the count of flits it received in
order is returned; the link goes down here as well. -/
def failoverPacket (i seq : Nat) (bs : List Byte) : Eff :=
  packetIn i seq bs (fun _ p => p.kind == 8 && num p.body 0 1 == 1 && num p.body 1 1 < 96) fun p => .obs fun d =>
    let dead := num p.body 1 1
    .all [
      modPorts dead (fun q => { q with partialFlits := 0 }),
      .when (linkUp d dead) (linkDown dead 7),
      enqueue (groupName d i) (groupUp d i) {
        kind := 8, dst := p.src, src := d.fld F.LNK_DEVICE_id 0,
        body := toLE 1 2 ++ toLE 1 (d.fld F.LNK_PORT_NBR_far_port dead) ++ toLE 2 ((d.portsAt dead).received % 4096) }]

/-- GROUP_FAILOVER (R306 step 3): the reply to a failover request; the packets of the dead link from the count on, and
those it had not admitted, go to the surviving links. -/
def groupFailover (i seq : Nat) (bs : List Byte) : Eff :=
  packetIn i seq bs (fun _ p => p.kind == 8 && num p.body 0 1 == 2 && num p.body 1 1 < 96) fun p => .obs fun d =>
    let dead := num p.body 1 1
    let q := d.portsAt dead
    let n := ackedCount q (num p.body 2 2)
    let again := (q.inFlight.filter fun e => n < e.1 + e.2.length).map (·.2)
    let waiting := (List.range 8).flatMap fun v => d.egressAt (dead * 8 + v)
    .all [
      .each (List.range 8) (fun v => putEgress (dead * 8 + v) []),
      putPorts dead { q with inFlight := [], nak := none },
      .each (again ++ waiting) (fun p => .obs fun d' => enqueue (groupName d' dead) (groupUp d' dead) p),
      addSat F.LNK_PORT_RETRY_failovers dead 1]

/-- A forwarded packet is queued on its way, where it keeps its place in the receive buffer until it is admitted (R303); one that no
route takes leaves it at once. -/
def forwardPacket (i : Nat) (p : Packet) : Eff := .obs fun d =>
  .seq (.when (!hasEgress d (i / 24) p.dst) (freeFlits i p)) (routePacket (i / 24) { p with via := some i })

/-- PACKET_FORWARD (R312): a packet for another device is routed with its hop counted, or discarded and counted. -/
def packetForward (i seq : Nat) (bs : List Byte) : Eff :=
  packetFrom i seq bs (fun d p => p.kind ≤ 6 && !isLocal d (i / 24) p.dst) fun p => .seq
    (if 65535 ≤ p.hops + 1 then .seq (freeFlits i p) (addSat F.LNK_DROPS_hop_limit 0 1)
     else forwardPacket i { p with hops := p.hops + 1 })
    (sendControl i false)

/-! ### Writes and cue events of flows (R310, R311) -/

/-- Answer a packet: an end-to-end ack with reason 0, else a refusal, which is counted. -/
def answer (i : Nat) (p : Packet) (reason : Nat) : Eff := .obs fun d => .seq
  (.when (reason != 0) (addSat F.LNK_DROPS_refused 0 1))
  (routePacket (i / 24) {
    kind := if reason == 0 then 3 else 4, dst := p.src, src := d.fld F.LNK_DEVICE_id 0, dstCtx := p.srcCtx,
    srcCtx := p.dstCtx, tag := p.tag, reason := reason })

/-- A context runs on the device: bound, and neither idle, faulted nor being torn down (log entry 24). -/
def ctxRuns (d : Device) (c : Nat) : Bool :=
  let st := d.fld F.CTX_RUN_state c
  c < 1024 && (ctxPart d c).isSome && st != 0 && st != 5 && st != 6

/-- The counter of a failed check of R470. -/
def countAuth (d : Device) (k : Nat) (f : Flow) (p : Packet) : Eff :=
  if (packetKey d f p).isSome && !freshCounter (seenUnder d k (num p.crypt 0xC 4)) (num p.crypt 4 8) then
    addSat F.SEC_LINK_STAT_replay 0 1 else addSat F.SEC_LINK_STAT_auth_fail 0 1

/-- Check a write or a cue event against its flow entry, whose receive bit is `recv`, and carry it out or refuse it (R310,
R311, R470). `act` gives the effect, or the reason why not; success is acknowledged where `ack`. -/
def checkFlow (i recv : Nat) (ack : Bool) (p : Packet) (act : Device → List Byte → Sum Nat Eff) : Eff := .obs fun d =>
  match recvFlow d p with
  | none => answer i p 1
  | some (k, f) =>
    if bit f.flags recv == 0 then answer i p 1
    else if bit f.flags 4 == 1 && p.epoch != f.epoch then addSat F.LNK_DROPS_epoch 0 1
    else if (p.kind != 2 || p.vc != 0) && !flowVc f p.vc then answer i p 2
    else
      match openPacket d k f p with
      | none => .seq (countAuth d k f p) (answer i p 5)
      | some data => .seq (acceptCounter k f p) <|
        if !ctxRuns d p.dstCtx then answer i p 4
        else
          match act d data with
          | .inl reason => answer i p reason
          | .inr e => .seq e (.when ack (answer i p 0))

/-- The addresses a write packet names are being held. -/
def writeHeld (d : Device) (p : Packet) : Bool := (translateRange d p.dstCtx p.va .write p.bytes).any (anyHeld d)

/-- LINK_WRITE_RECEIVE (R310). -/
def linkWriteReceive (i seq : Nat) (bs : List Byte) : Eff :=
  packetIn i seq bs (fun d p => forMe i 1 d p && !writeHeld d p) fun p => checkFlow i 2 true p fun d data =>
    match translateRange d p.dstCtx p.va .write p.bytes with
    | some as => if writable as then .inr (store as data) else .inl 3
    | none => .inl 3

/-- LINK_CUE_RECEIVE (R310): the cue is named within the destination context's partition. -/
def linkCueReceive (i seq : Nat) (bs : List Byte) : Eff :=
  packetIn i seq bs (forMe i 2) fun p => checkFlow i 3 true p fun d _ =>
    match ctxPart d p.dstCtx with
    | some q => .inr (signalField q p.dstCtx p.cue)
    | none => .inl 4

/-! ### Acks and refusals at the source (R311) -/

/-- The ring, descriptor index and offset of a tag of a DMA transfer's packet. -/
def tagRing (t : Nat) : Nat := t / 281474976710656
def tagIndex (t : Nat) : Nat := t / 4294967296 % 65536

/-- Change the descriptor that awaits an answer to a tag. -/
def onTag (t : Nat) (f : Device → Desc → Desc) : Eff := .obs fun d =>
  modRings (tagRing t) fun xs => xs.map fun x =>
    if x.index == tagIndex t && x.unacked.any (fun u => u.1 == t) then f d x else x

/-- A packet was delivered: data is complete once all of it is sent and acknowledged. -/
def ackTag (t : Nat) : Eff := onTag t fun d x =>
  let u := x.unacked.filter fun u => u.1 != t
  { x with
    unacked := u
    status := x.status.orElse fun _ =>
      if u.isEmpty && x.packing.isEmpty && x.moved.length == x.length && ringState d (tagRing t) != 4 then some 0 else none }

/-- A packet was not delivered: the descriptor ends with a status, the bytes acknowledged before it moved, also where a later burst
has failed already. -/
def failTag (t status : Nat) : Eff := onTag t fun d x =>
  { x with
    moved := doneBytes x
    unacked := []
    packing := []
    packs := 0
    status := if ringState d (tagRing t) != 4 then some status else none }

/-- The status a refusal's reason gives the source descriptor (R310, R470). -/
def refusalStatus (reason : Nat) : Nat := if reason == 3 then 2 else 5

/-- END_TO_END_ACK (R311). -/
def endToEndAck (i seq : Nat) (bs : List Byte) : Eff := packetIn i seq bs (forMe i 3) fun p => ackTag p.tag

/-- E2E_TIMEOUT (R311): a packet not acknowledged within tE2E. -/
def e2eTimeout (tag : Nat) : Eff := failTag tag 5

/-! ### The flow table (R308) -/

/-- A flow entry of 32 bytes. -/
def flowOf (bs : List Byte) : Flow :=
  { peer := bits (num bs 0 4) 19 0, flags := num bs 4 1, vcs := num bs 5 1, epoch := num bs 6 2, localCtx := num bs 8 2,
    peerCtx := num bs 0xA 2, slot := num bs 0xC 1 }

/-- FLOW_TABLE_SYNC (R308): a write of LNK_FLOW_CTRL.sync starts a load. -/
def flowTableSync (rq v : Nat) : Eff := writeAct rq .LNK_FLOW_CTRL 0 v 31 <|
  .when (bit v 31 == 1) (setF F.LNK_FLOW_CTRL_busy 0 1)

/-- The address of flow entry `e` in DRAM. -/
def flowAddr (d : Device) (e : Nat) : Nat := d.fld F.LNK_FLOW_BASE_base 0 * 131072 + e * 32

/-- The table of DRAM becomes the one in use; an entry that reads poisoned is not valid. -/
def loadFlows : Eff := .obs fun d =>
  let entry (e : Nat) : Flow := if d.poisoned (flowAddr d e) 32 then {} else flowOf (d.bytes (flowAddr d e) 32)
  .all [
    .each (List.range 4096) (fun e => putFlows e (entry e)),
    setF F.LNK_FLOW_CTRL_valid 0 ((List.range 4096).filter fun e => bit (entry e).flags 0 == 1).length]

/-- FLOW_TABLE_LOAD_DONE (R308). -/
def flowTableLoadDone : Eff := .obs fun d =>
  .when (d.fld F.LNK_FLOW_CTRL_busy 0 == 1) (.seq loadFlows (setF F.LNK_FLOW_CTRL_busy 0 0))

end Sys2Proof.Machine
end

