-- ==== Sys2Proof/Machine/Fp.lean ====
section
/-! DEFINITION. Exact binary numbers and their rounding (04_number_formats_and_products.md R103 to R105, R120, R122):
values are exact, and every rounding of the spec is one call of `roundMag`. FP32 words are natural numbers below 2^32. -/

namespace Sys2Proof.Machine

/-- An exact value: (−1)^neg × m × 2^e, an infinity, or NaN. -/
inductive Fp where
  | nan
  | inf (neg : Bool)
  | num (neg : Bool) (m : Nat) (e : Int)
  deriving DecidableEq, Repr

/-- Zero, with its sign. -/
def Fp.zero (neg : Bool) : Fp := .num neg 0 0

/-- The sign of a value; NaN has none. -/
def Fp.sign : Fp → Bool
  | .nan => false
  | .inf n => n
  | .num n _ _ => n

def Fp.isNan (x : Fp) : Bool := x == .nan

def Fp.isZero : Fp → Bool
  | .num _ 0 _ => true
  | _ => false

def Fp.isFinite : Fp → Bool
  | .num _ _ _ => true
  | _ => false

def Fp.isInf : Fp → Bool
  | .inf _ => true
  | _ => false

def Fp.negate : Fp → Fp
  | .nan => .nan
  | .inf n => .inf !n
  | .num n m e => .num (!n) m e

/-- The magnitude of a value. -/
def Fp.abs : Fp → Fp
  | .nan => .nan
  | .inf _ => .inf false
  | .num _ m e => .num false m e

/-- `s × m × 2^e` as an integer in units of 2^q, for q at or below e. -/
def inUnits (neg : Bool) (m : Nat) (e q : Int) : Int :=
  let v : Int := (m * 2 ^ (e - q).toNat : Nat)
  if neg then -v else v

/-- The exact sum, with IEEE 754's special values; an exact zero is +0 unless both terms are negative. -/
def Fp.add : Fp → Fp → Fp
  | .nan, _ => .nan
  | _, .nan => .nan
  | .inf a, .inf b => if a == b then .inf a else .nan
  | .inf a, _ => .inf a
  | _, .inf b => .inf b
  | .num n1 m1 e1, .num n2 m2 e2 =>
    let q := min e1 e2
    let s := inUnits n1 m1 e1 q + inUnits n2 m2 e2 q
    if s == 0 then .num (n1 && n2) 0 q else .num (decide (s < 0)) s.natAbs q

/-- The exact product, with IEEE 754's special values. -/
def Fp.mul : Fp → Fp → Fp
  | .nan, _ => .nan
  | _, .nan => .nan
  | .num n1 m1 e1, .num n2 m2 e2 => .num (n1 != n2) (m1 * m2) (e1 + e2)
  | x, y => if x.isZero || y.isZero then .nan else .inf (x.sign != y.sign)

/-- Comparison of values; false where one is NaN. The zeros are equal. -/
def Fp.lt : Fp → Fp → Bool
  | .nan, _ => false
  | _, .nan => false
  | .inf a, .inf b => a && !b
  | .inf a, .num _ _ _ => a
  | .num _ _ _, .inf b => !b
  | .num n1 m1 e1, .num n2 m2 e2 =>
    let q := min e1 e2
    decide (inUnits n1 m1 e1 q < inUnits n2 m2 e2 q)

/-- The larger of two values under R135: NaN if either is, +0 above −0. -/
def Fp.max (x y : Fp) : Fp :=
  if x.isNan || y.isNan then .nan
  else if x.lt y then y
  else if y.lt x then x
  else if x.sign then y else x

/-- The smaller of two values under R231: NaN if either is, −0 below +0. -/
def Fp.min (x y : Fp) : Fp :=
  if x.isNan || y.isNan then .nan
  else if x.lt y then x
  else if y.lt x then y
  else if x.sign then x else y

/-- floor(log2 |x|) of a finite value other than 0. -/
def Fp.log2 : Fp → Int
  | .num _ m e => (Nat.log2 m : Int) + e
  | _ => 0

/-! ### Rounding -/

/-- `n / d` rounded to the nearest integer, ties to even. -/
def rneDiv (n d : Nat) : Nat :=
  let q := n / d
  let r := n % d
  if d < 2 * r || (d == 2 * r && q % 2 == 1) then q + 1 else q

/-- A binary format with `eb` exponent bits and `mb` mantissa bits. -/
structure Fmt where
  eb : Nat
  mb : Nat

def fmt32 : Fmt := ⟨8, 23⟩
def fmtBf16 : Fmt := ⟨8, 7⟩
def fmtE4m3 : Fmt := ⟨4, 3⟩
def fmtE5m2 : Fmt := ⟨5, 2⟩
def fmt16 : Fmt := ⟨5, 10⟩

/-- The exponent bias. -/
def Fmt.bias (f : Fmt) : Int := ((2 ^ (f.eb - 1) - 1 : Nat) : Int)

/-- The exponent of the last mantissa bit of a subnormal. -/
def Fmt.qmin (f : Fmt) : Int := 1 - f.bias - (f.mb : Int)

/-- The code of an infinity without its sign. -/
def Fmt.infCode (f : Fmt) : Nat := (2 ^ f.eb - 1) * 2 ^ f.mb

/-- The canonical NaN of R105. -/
def Fmt.nanCode (f : Fmt) : Nat := f.infCode + 2 ^ (f.mb - 1)

/-- The sign bit. -/
def Fmt.signBit (f : Fmt) (neg : Bool) : Nat := if neg then 2 ^ (f.eb + f.mb) else 0

/-- The exponent of the last mantissa bit of the magnitude m × 2^e in a format. -/
def Fmt.lastExp (f : Fmt) (m : Nat) (e : Int) : Int := max ((Nat.log2 m : Int) + e - (f.mb : Int)) f.qmin

/-- The magnitude code nearest to m × 2^e, ties to even, with no upper limit: codes beyond `infCode` overflow. -/
def Fmt.roundMag (f : Fmt) (m : Nat) (e : Int) : Nat :=
  if m == 0 then 0 else
  let q := f.lastExp m e
  let n := if q ≤ e then m * 2 ^ (e - q).toNat else rneDiv m (2 ^ (q - e).toNat)
  (q - f.qmin).toNat * 2 ^ f.mb + n

/-- The nearest value of an IEEE format, ties to even, as a code. -/
def Fmt.encode (f : Fmt) : Fp → Nat
  | .nan => f.nanCode
  | .inf n => f.signBit n + f.infCode
  | .num n m e => f.signBit n + min (f.roundMag m e) f.infCode

/-- The value of a finite code without its sign. -/
def Fmt.magnitude (f : Fmt) (neg : Bool) (c : Nat) : Fp :=
  let x := c / 2 ^ f.mb
  if x == 0 then .num neg c f.qmin else .num neg (2 ^ f.mb + c % 2 ^ f.mb) ((x : Int) - 1 + f.qmin)

/-- The value of a code of an IEEE format. -/
def Fmt.decode (f : Fmt) (c : Nat) : Fp :=
  let neg := bit c (f.eb + f.mb) == 1
  let mag := c % 2 ^ (f.eb + f.mb)
  if f.infCode < mag then .nan else if mag == f.infCode then .inf neg else f.magnitude neg mag

/-! ### FP32 operations: each one rounding (05_row_functions.md) -/

/-- The value of an FP32 word. -/
def val (w : Nat) : Fp := fmt32.decode w

/-- The FP32 word nearest to a value. -/
def r32 (x : Fp) : Nat := fmt32.encode x

def fadd (a b : Nat) : Nat := r32 ((val a).add (val b))
def fsub (a b : Nat) : Nat := r32 ((val a).add (val b).negate)
def fmul (a b : Nat) : Nat := r32 ((val a).mul (val b))

/-- a × b + c rounded once. -/
def fma (a b c : Nat) : Nat := r32 (((val a).mul (val b)).add (val c))

def fneg (a : Nat) : Nat := r32 (val a).negate
def fabs (a : Nat) : Nat := r32 (val a).abs
def fmax (a b : Nat) : Nat := r32 ((val a).max (val b))
def flt (a b : Nat) : Bool := (val a).lt (val b)

/-- The magnitude of `a` with the sign of `b`. -/
def copysign (a b : Nat) : Nat := if (val b).sign then fneg (fabs a) else fabs a

def fpOne : Nat := 0x3F800000
def fpInf : Nat := 0x7F800000
def fpNegInf : Nat := 0xFF800000
def fpNan : Nat := 0x7FC00000
def fpHalf : Nat := 0x3F000000
def fpNegZero : Nat := 0x80000000

/-- The BF16 code of an FP32 word, and the FP32 word of a BF16 code (R105, R120). -/
def toBf16 (w : Nat) : Nat := fmtBf16.encode (val w)
def ofBf16 (c : Nat) : Nat := r32 (fmtBf16.decode c)

/-! ### exp2 and log2 (R136) -/

/-- The numbers 2^(2^-i) × 2^128 for i from 1 to 32, rounded down. -/
def rootsHigh : List Nat := [
  0x16A09E667F3BCC908B2FB1366EA957D3E, 0x1306FE0A31B7152DE8D5A46305C85EDEC, 0x1172B83C7D517ADCDF7C8C50EB14A7920,
  0x10B5586CF9890F6298B92B71842A98364, 0x1059B0D31585743AE7C548EB68CA417FE, 0x102C9A3E778060EE6F7CACA4F7A29BDE9,
  0x10163DA9FB33356D84A66AE336DCDFA40, 0x100B1AFA5ABCBED6129AB13EC11DC9544, 0x10058C86DA1C09EA1FF19D294CF2F679C,
  0x1002C605E2E8CEC506D21BFC89A23A010, 0x100162F3904051FA128BCA9C55C31E5E0, 0x1000B175EFFDC76BA38E31671CA939726,
  0x100058BA01FB9F96D6CACD4B180917C3E, 0x10002C5CC37DA9491D0985C348C68E7B3, 0x1000162E525EE054754457D5995292026,
  0x10000B17255775C040618BF4A4ADE83FC, 0x1000058B91B5BC9AE2EED81E9B7D4CFAC, 0x100002C5C89D5EC6CA4D7C8ACC017B7C9,
  0x10000162E43F4F831060E02D839A9D16D, 0x100000B1721BCFC99D9F890EA06911763, 0x10000058B90CF1E6D97F9CA14DBCC1628,
  0x1000002C5C863B73F016468F6BAC5CA2C, 0x100000162E430E5A18F6119E3C02282A5, 0x1000000B1721835514B86E6D96EFD1BFF,
  0x100000058B90C0B48C6BE5DF846C5B2F0, 0x10000002C5C8601CC6B9E94213C72737A, 0x1000000162E42FFF037DF38AA2B219F06,
  0x10000000B17217FBA9C739AA5819F44F9, 0x1000000058B90BFCDEE5ACD3C1CEDC823, 0x100000002C5C85FE31F35A6A30DA1BE50,
  0x10000000162E42FF0999CE3541B9FFFCF, 0x100000000B17217F80F4EF5AADDA45554
]

/-- The same for i from 33 to 64. -/
def rootsLow : List Nat := [
  0x10000000058B90BFBF8479BD5A81B51AD, 0x1000000002C5C85FDF84BD62AE30A74CC, 0x100000000162E42FEFB2FED257559BDAA,
  0x1000000000B17217F7D5A7716BBA4A9AF, 0x100000000058B90BFBE9DDBAC5E109CCF, 0x10000000002C5C85FDF4B15DE6F17EB0D,
  0x1000000000162E42FEFA494F1478FDE05, 0x10000000000B17217F7D20CF927C8E94C, 0x1000000000058B90BFBE8F71CB4E4B33E,
  0x100000000002C5C85FDF477B662B26945, 0x10000000000162E42FEFA3AE53369388C, 0x100000000000B17217F7D1D351A389D40,
  0x10000000000058B90BFBE8E8B2D3D4EDE, 0x1000000000002C5C85FDF4741BEA6E77F, 0x100000000000162E42FEFA39FE95583C3,
  0x1000000000000B17217F7D1CFB72B45E2, 0x100000000000058B90BFBE8E7CC35C3F1, 0x10000000000002C5C85FDF473E242EA38,
  0x1000000000000162E42FEFA39F02B772C, 0x10000000000000B17217F7D1CF7D83C1A, 0x1000000000000058B90BFBE8E7BDCBE2E,
  0x100000000000002C5C85FDF473DEA871F, 0x10000000000000162E42FEFA39EF44D91, 0x100000000000000B17217F7D1CF79E949,
  0x10000000000000058B90BFBE8E7BCE544, 0x1000000000000002C5C85FDF473DE6ECA, 0x100000000000000162E42FEFA39EF366F,
  0x1000000000000000B17217F7D1CF79AFA, 0x100000000000000058B90BFBE8E7BCD6D, 0x10000000000000002C5C85FDF473DE6B2,
  0x1000000000000000162E42FEFA39EF358, 0x10000000000000000B17217F7D1CF79AC
]

/-- 2^(f / 2^64) × 2^128 for f below 2^64: at most 512 below the exact value. -/
def exp2Frac (f : Nat) : Nat :=
  ((rootsHigh ++ rootsLow).zipIdx).foldl (fun y ri => if bit f (63 - ri.2) == 1 then y * ri.1 / 2 ^ 128 else y) (2 ^ 128)

/-- Values that enclose 2^x for a finite FP32 value x above −150 and below 128. Below 2^-40 in magnitude, 2^x lies between
1 + x/2 and 1 + x; else x is a multiple of 2^-64. -/
def exp2Span (neg : Bool) (m : Nat) (e : Int) : Fp × Fp :=
  if (Nat.log2 m : Int) + e < -40 then
    let half := (Fp.num false 1 0).add (.num neg m (e - 1))
    let full := (Fp.num false 1 0).add (.num neg m e)
    if neg then (full, half) else (half, full)
  else
    let t := inUnits neg m e (-64)
    let y := exp2Frac (t % 2 ^ 64).toNat
    (.num false y (t / 2 ^ 64 - 128), .num false (y + 512) (t / 2 ^ 64 - 128))

/-- The first `n` fraction bits of log2(y / 2^128) for y from 2^128 to below 2^129. -/
def log2Frac : Nat → Nat → Nat
  | 0, _ => 0
  | n + 1, y =>
    let z := y * y / 2 ^ 128
    if 2 ^ 129 ≤ z then 2 ^ n + log2Frac n (z / 2) else log2Frac n z

/-- Values that enclose log2(m × 2^e) for m above 0, 2^-79 apart. -/
def log2Span (m : Nat) (e : Int) : Fp × Fp :=
  let k := Nat.log2 m
  let s : Int := ((k : Int) + e) * 2 ^ 80 + (log2Frac 80 (m * 2 ^ 128 / 2 ^ k) : Nat)
  (.num (decide (s < 0)) s.natAbs (-80), .num (decide (s + 2 < 0)) (s + 2).natAbs (-80))

/-- Two ulp of FP32 at a value. -/
def twoUlp : Fp → Fp
  | .num _ m e => .num false 2 (fmt32.lastExp m e)
  | x => x

/-- A word lies within 2 ulp of the exact result, wherever that lies in the span given (R136). -/
def withinTwoUlp (span : Fp × Fp) (c : Nat) : Bool :=
  (val c).isFinite && !(span.1.add (twoUlp span.1)).lt (val c) && !(val c).lt (span.2.add (twoUlp span.1).negate)

/-- The integer a finite value is, if it is one. -/
def Fp.integer? : Fp → Option Int
  | .num n m e =>
    if 0 ≤ e then some (inUnits n m e 0)
    else if m % 2 ^ (-e).toNat == 0 then some (let v : Int := (m / 2 ^ (-e).toNat : Nat); if n then -v else v) else none
  | _ => none

/-- exp2 (R136, R139), with `other` for the arguments that no rule makes exact: it is given the argument and a span about
the exact result. -/
def exp2By (other : Nat → Fp × Fp → Nat) (w : Nat) : Nat :=
  match val w with
  | .nan => fpNan
  | .inf n => if n then 0 else fpInf
  | .num n m e =>
    let x := Fp.num n m e
    if m == 0 then fpOne
    else if !x.lt (.num false 128 0) then fpInf
    else if !(Fp.num true 150 0).lt x then 0
    else
      match x.integer? with
      | some i => r32 (.num false 1 i)
      | none => other w (exp2Span n m e)

/-- log2 (R136, R139), likewise. -/
def log2By (other : Nat → Fp × Fp → Nat) (w : Nat) : Nat :=
  match val w with
  | .nan => fpNan
  | .inf n => if n then fpNan else fpInf
  | .num n m e =>
    if m == 0 then fpNegInf
    else if n then fpNan
    else if m == 2 ^ Nat.log2 m then r32 (.num (decide ((Nat.log2 m : Int) + e < 0)) ((Nat.log2 m : Int) + e).natAbs 0)
    else other w (log2Span m e)

/-- A property of every number below a limit. -/
def allBelow : Nat → (Nat → Bool) → Bool
  | 0, _ => true
  | n + 1, p => p n && allBelow n p

/-- Of a function with the exact cases given, the word where the rest is an implementation's own. -/
def ownResult (fn : (Nat → Fp × Fp → Nat) → Nat → Nat) (own : BitVec 32 → BitVec 32) (w : Nat) : Nat :=
  fn (fun w _ => (own (BitVec.ofNat 32 w)).toNat) w

/-- An implementation's result at an argument is exact, or within 2 ulp. -/
def keepsBound (fn : (Nat → Fp × Fp → Nat) → Nat → Nat) (own : BitVec 32 → BitVec 32) (w : Nat) : Bool :=
  fn (fun w s => if withinTwoUlp s (own (BitVec.ofNat 32 w)).toNat then fpOne else fpNan) w != fpNan

/-- An implementation's results at two arguments are in order. -/
def inOrder (fn : (Nat → Fp × Fp → Nat) → Nat → Nat) (own : BitVec 32 → BitVec 32) (a b : Nat) : Bool :=
  !(val (ownResult fn own b)).lt (val (ownResult fn own a))

/-- The implementation's exp2 keeps the bound of R136 and is monotonic, over every argument below 150 in magnitude. -/
def exp2Lawful : Bool := allBelow 0x43160000 fun c =>
  keepsBound exp2By Config.exp2 (0x80000000 + c) && keepsBound exp2By Config.exp2 c &&
    inOrder exp2By Config.exp2 (0x80000000 + c + 1) (0x80000000 + c) && inOrder exp2By Config.exp2 c (c + 1)

/-- The implementation's log2 likewise, over every finite argument above 0. -/
def log2Lawful : Bool := allBelow 0x7F7FFFFF fun c =>
  keepsBound log2By Config.log2 (c + 1) && inOrder log2By Config.log2 (c + 1) (c + 2)

/-- exp2 (R136, R139): exact for integers from −149 to 127; of another argument the implementation's own result where its
function is lawful, else the value nearest to the exact one (log entry 18). -/
def fexp2 (w : Nat) : Nat :=
  exp2By (fun w s => if exp2Lawful then (Config.exp2 (BitVec.ofNat 32 w)).toNat else r32 s.1) w

/-- log2 (R136, R139): exact for powers of two. -/
def flog2 (w : Nat) : Nat :=
  log2By (fun w s => if log2Lawful then (Config.log2 (BitVec.ofNat 32 w)).toNat else r32 s.1) w

end Sys2Proof.Machine
end

