-- ==== Sys2Proof/Machine/Formats.lean ====
section
/-! DEFINITION. Element formats, operand layout and quantisation (04_number_formats_and_products.md R103 to R109 and R118
to R124). -/

namespace Sys2Proof.Machine

/-! ### Formats and layout (R103 to R108) -/

/-- A format with block scales and a tile scale. -/
def scaledFmt (f : Nat) : Bool := f == 0 || f == 1

/-- The bytes of a 32-element block. -/
def blockBytes (f : Nat) : Nat :=
  if f == 0 || f == 1 then 16 else if f == 4 then 64 else if f == 5 || f == 6 then 128 else 32

/-- The granules of an operand of `r` rows of `k` blocks, its first element granule and its first scale granule (R107). -/
def elemGranule (f : Nat) : Nat := if scaledFmt f then 1 else 0
def scaleGranule (f r k : Nat) : Nat := elemGranule f + ceilDiv (r * k * blockBytes f) 64
def operandGranules (f r k : Nat) : Nat :=
  scaleGranule f r k + (if scaledFmt f then ceilDiv (r * k * 2) 64 else 0)

/-- FP4 magnitudes in halves (R104). -/
def fp4Halves : List Nat := [0, 1, 2, 3, 4, 6, 8, 12]

/-- The value of an element code (R103 to R105). -/
def elemValue (f c : Nat) : Fp :=
  match f with
  | 0 => .num (bit c 3 == 1) (fp4Halves.getD (c % 8) 0) (-1)
  | 1 => let v := signed c 4; .num (decide (v < 0)) v.natAbs 0
  | 2 => if c % 128 == 127 then .nan else fmtE4m3.magnitude (bit c 7 == 1) (c % 128)
  | 3 => fmtE5m2.decode c
  | 4 => fmtBf16.decode c
  | 5 => fmt32.decode c
  | 6 => let v := signed c 32; .num (decide (v < 0)) v.natAbs 0
  | _ => let v := signed c 8; .num (decide (v < 0)) v.natAbs 0

/-- An operand in tile memory: its core, first granule, format, rows and blocks a row. -/
structure TileOperand where
  core : Nat
  g : Nat
  f : Nat
  rows : Nat
  k : Nat

/-- The words of an operand that a PRODUCT reads: of a header, the tile scale's alone (R107, R109). -/
def operandWords (f w : Nat) : Bool := !scaledFmt f || w == 0 || 8 ≤ w

/-- The code of element `i` of block `b` of row `r` (R107, R108). -/
def TileOperand.code (d : Device) (o : TileOperand) (r b i : Nat) : Nat :=
  let base := (o.g + elemGranule o.f) * 64 + (r * o.k + b) * blockBytes o.f
  if scaledFmt o.f then bits (tileNum d o.core (base + i / 2) 1) (i % 2 * 4 + 3) (i % 2 * 4)
  else let n := blockBytes o.f / 32; tileNum d o.core (base + i * n) n

/-- The block scale and the fine-scale byte of a block. -/
def TileOperand.scales (d : Device) (o : TileOperand) (r b : Nat) : Nat × Nat :=
  let a := (o.g + scaleGranule o.f o.rows o.k) * 64 + (r * o.k + b) * 2
  (tileNum d o.core a 1, tileNum d o.core (a + 1) 1)

/-- The tile scale as an FP32 word; 1.0 for a format without one. -/
def TileOperand.tileScale (d : Device) (o : TileOperand) : Nat :=
  if scaledFmt o.f then tileNum d o.core (o.g * 64) 4 else fpOne

/-- The 32 values of a block without the tile scale, exact (R106): an FP4 or INT4 element times its fine scale and its
block scale; NaN throughout where the block scale is 0xFF. -/
def TileOperand.block (d : Device) (o : TileOperand) (r b : Nat) : List Fp :=
  if scaledFmt o.f then
    let (c, fs) := o.scales d r b
    (List.range 32).map fun i =>
      if c == 0xFF then .nan
      else (elemValue o.f (o.code d r b i)).mul (.num false (4 + bits fs (i / 8 * 2 + 1) (i / 8 * 2)) ((c : Int) - 129))
  else (List.range 32).map fun i => elemValue o.f (o.code d r b i)

/-! ### Random values (R123) -/

/-- Modulo 2^64. -/
def m64 (x : Nat) : Nat := x % 2 ^ 64

/-- The generator's word for counter value `c`. -/
def randomWord (k c : Nat) : Nat :=
  let z := m64 (k + c * 0x9E3779B97F4A7C15)
  let z := m64 ((z ^^^ z >>> 30) * 0xBF58476D1CE4E5B9)
  let z := m64 ((z ^^^ z >>> 27) * 0x94D049BB133111EB)
  z ^^^ z >>> 31

/-- The random value of element `i` of a step that begins at counter `c0`. -/
def randomValue (k c0 i : Nat) : Nat :=
  let w := randomWord k (m64 (c0 + i / 4))
  bits w (16 * (i % 4) + 15) (16 * (i % 4))

/-! ### Converting one element (R120 to R122) -/

/-- A code, and whether the element saturated. -/
structure Coded where
  code : Nat
  sat : Bool := false

/-- |x| / (2^e × f/4) as a quotient of naturals: numerator and denominator. -/
def ratio (m : Nat) (ex e : Int) (f4 : Nat) : Nat × Nat :=
  let q := min ex (e - 2)
  (m * 2 ^ (ex - q).toNat, f4 * 2 ^ (e - 2 - q).toNat)

/-- FP4: |y| = n / t to a magnitude code; `r` is the random value where rounding is stochastic. -/
def fp4Mag (n t : Nat) (r : Option Nat) : Coded :=
  if 6 * t < n then ⟨7, true⟩ else
  match r with
  | none =>
    ⟨countIf7 fun k => let s := (fp4Halves.getD k 0 + fp4Halves.getD (k + 1) 0) * t
      decide (s < 4 * n) || (s == 4 * n && k % 2 == 1), false⟩
  | some r =>
    let k := countIf7 fun k => decide (fp4Halves.getD (k + 1) 0 * t ≤ 2 * n)
    let lo := fp4Halves.getD k 0
    let hi := fp4Halves.getD (k + 1) 0
    ⟨if k < 7 && decide (r * ((hi - lo) * t) < (2 * n - lo * t) * 2 ^ 16) then k + 1 else k, false⟩
where
  /-- How many of 0 to 6 satisfy `p`. -/
  countIf7 (p : Nat → Bool) : Nat := ((List.range 7).filter p).length

/-- A signed integer of `w` bits from y = ±n / t. -/
def intCode (w : Nat) (neg : Bool) (n t : Nat) (r : Option Nat) : Coded :=
  let v : Int :=
    match r with
    | none => let a : Int := (rneDiv n t : Nat); if neg then -a else a
    | some r =>
      let y : Int := if neg then -(n : Int) else n
      let lo := y / (t : Int)
      if (r : Int) * t < (y - lo * t) * 2 ^ 16 then lo + 1 else lo
  let hi : Int := 2 ^ (w - 1) - 1
  let lo : Int := -(2 ^ (w - 1))
  let c := max lo (min hi v)
  ⟨(c % 2 ^ w).toNat, c != v⟩

/-- A floating-point format by stochastic choice: between the adjacent magnitudes. -/
def stochasticMag (f : Fmt) (m : Nat) (e : Int) (r : Nat) : Nat :=
  if m == 0 then 0 else
  let q := f.lastExp m e
  let n := if q ≤ e then m * 2 ^ (e - q).toNat
    else
      let s := (q - e).toNat
      m / 2 ^ s + (if r * 2 ^ s < m % 2 ^ s * 2 ^ 16 then 1 else 0)
  (q - f.qmin).toNat * 2 ^ f.mb + n

/-- A floating-point format with largest finite code `top`; `over` is the code of finite magnitudes beyond it by
round-to-nearest-even. -/
def floatCode (f : Fmt) (top : Nat) (saturates : Bool) (x : Fp) (r : Option Nat) : Coded :=
  match x with
  | .num neg m e =>
    let s := f.signBit neg
    let beyond := (f.magnitude false top).lt (.num false m e)
    if beyond then (if saturates then ⟨s + top, true⟩ else ⟨s + min (f.roundMag m e) f.infCode, false⟩)
    else
      match r with
      | none => ⟨s + f.roundMag m e, false⟩
      | some r => ⟨s + stochasticMag f m e r, false⟩
  | _ => ⟨0, false⟩

/-- A non-finite input to a format without block scales (R121). -/
def nonFiniteCode (f : Nat) (x : Fp) : Coded :=
  match f, x with
  | 2, .inf n => ⟨0x7E + (if n then 128 else 0), true⟩
  | 2, _ => ⟨0x7F, false⟩
  | 3, x => ⟨fmtE5m2.encode x, false⟩
  | 4, x => ⟨fmtBf16.encode x, false⟩
  | 5, x => ⟨r32 x, false⟩
  | _, .inf n => ⟨if n then 0x80 else 0x7F, true⟩
  | _, _ => ⟨0, false⟩

/-- One element to a format without block scales (R120 to R122). -/
def plainCode (f : Nat) (x : Fp) (r : Option Nat) : Coded :=
  match x with
  | .num neg m e =>
    match f with
    | 2 => floatCode fmtE4m3 0x7E true x r
    | 3 => floatCode fmtE5m2 0x7B true x r
    | 4 => floatCode fmtBf16 0x7F7F false x r
    | 5 => ⟨r32 x, false⟩
    | _ => let (n, t) := ratio m e 0 4; intCode 8 neg n t r
  | _ => nonFiniteCode f x

/-! ### Blocks (R118, R119) -/

/-- A block as it is written: its block scale, fine byte, 32 codes, and what it counts. -/
structure CodedBlock where
  scale : Nat := 127
  fine : Nat := 0
  codes : List Nat := []
  saturated : Nat := 0
  nonfinite : Nat := 0

/-- The largest magnitude of a list of finite values. -/
def maxMag (xs : List Fp) : Fp := xs.foldl (fun a x => if a.lt x.abs then x.abs else a) (.zero false)

/-- The block scale of a block with largest magnitude `a` (R118). -/
def blockScale (a : Fp) : Nat := if a.isZero then 127 else (max 0 (min 254 (a.log2 - 2 + 127))).toNat

/-- The fine-scale code of a sub-block (R119). -/
def fineCode (qmax : Nat) (a : Fp) (e : Int) : Nat :=
  ((List.range 3).find? fun f => !(Fp.num false (qmax * (4 + f)) (e - 2)).lt a).getD 3

/-- One block to FP4 or INT4: each element with its random value where rounding is stochastic. -/
def scaledBlock (f : Nat) (fine : Bool) (xs : List (Fp × Option Nat)) : CodedBlock :=
  let bad := (xs.filter fun x => !x.1.isFinite).length
  if bad != 0 then { scale := 0xFF, codes := List.replicate 32 0, nonfinite := bad } else
  let bs := blockScale (maxMag (xs.map (·.1)))
  let e : Int := (bs : Int) - 127
  let fs := (List.range 4).map fun j =>
    if fine then fineCode (if f == 0 then 6 else 7) (maxMag (((xs.drop (8 * j)).take 8).map (·.1))) e else 0
  let cs := xs.zipIdx.map fun (x, i) =>
    match x.1 with
    | .num neg m ex =>
      let (n, t) := ratio m ex e (4 + fs.getD (i / 8) 0)
      if f == 0 then (let c := fp4Mag n t x.2; Coded.mk (c.code + (if neg then 8 else 0)) c.sat) else intCode 4 neg n t x.2
    | _ => ⟨0, false⟩
  { scale := bs
    fine := fs.getD 0 0 + fs.getD 1 0 * 4 + fs.getD 2 0 * 16 + fs.getD 3 0 * 64
    codes := cs.map (·.code)
    saturated := (cs.filter (·.sat)).length }

/-- One block of 32 elements to a format. -/
def codeBlock (f : Nat) (fine : Bool) (xs : List (Fp × Option Nat)) : CodedBlock :=
  if scaledFmt f then scaledBlock f fine xs
  else
    let cs := xs.map fun x => plainCode f x.1 x.2
    { codes := cs.map (·.code)
      saturated := (cs.filter (·.sat)).length
      nonfinite := (xs.filter fun x => !x.1.isFinite).length }

/-- The element bytes of a coded block (R108). -/
def CodedBlock.bytes (f : Nat) (b : CodedBlock) : List Byte :=
  if scaledFmt f then (List.range 16).map fun t => BitVec.ofNat 8 (b.codes.getD (2 * t) 0 + 16 * b.codes.getD (2 * t + 1) 0)
  else b.codes.flatMap (toLE (blockBytes f / 32))

/-! ### Writing an operand (R107, R109) -/

/-- Write row `r` of an operand of `rows` rows of `k` blocks at granule `g`. -/
def writeRow (core g f rows k r : Nat) (bs : List CodedBlock) : Eff := .seq
  (wrTile core ((g + elemGranule f) * 64 + r * k * blockBytes f) (bs.flatMap (CodedBlock.bytes f)))
  (.when (scaledFmt f) (wrTile core ((g + scaleGranule f rows k) * 64 + r * k * 2)
    (bs.flatMap fun b => [BitVec.ofNat 8 b.scale, BitVec.ofNat 8 b.fine])))

/-- Write the header granule of a scaled operand: tile scale 1.0 (R109). -/
def writeHeader (core g f : Nat) : Eff := .when (scaledFmt f) (wrTile core (g * 64) (toLE 64 fpOne))

/-- The saturated and the non-finite elements of blocks are counted (R120, R121). -/
def countBlocks (core : Nat) (bs : List CodedBlock) : Eff := .seq
  (addSat F.COR_NUM_STAT_saturated core ((bs.map (·.saturated)).sum))
  (addSat F.COR_NUM_STAT_nonfinite core ((bs.map (·.nonfinite)).sum))

/-- Advance the generator past `n` elements (R123). -/
def advanceGen (core n : Nat) : Eff :=
  modCores core fun k => { k with seq := { k.seq with gen := m64 (k.seq.gen + ceilDiv n 4) } }

/-- The generator's key for a leaf in a context (R123). -/
def genKey (d : Device) (x : StepCtx) : Nat := d.reg .CTX_SEED x.ctx ^^^ (x.leaf * 2 ^ 48)

end Sys2Proof.Machine
end

