-- ==== Sys2Proof/Machine/RowUnit.lean ====
section
/-! DEFINITION. The row unit (05_row_functions.md R133 to R151): the composed functions, reductions in their fixed order,
soft maximum, bounded heads, normalisation, and the ROW steps. -/

namespace Sys2Proof.Machine

/-! ### Composed functions (R137 to R139) -/

def fnL1 : Nat := 0x3FB8AA3B
def fnL2 : Nat := 0x32A57060
def fnLN2 : Nat := 0x3F317218
def fnT3 : Nat := 0xBEAAAAAB
def fnT5 : Nat := 0x3E088889
def fnT7 : Nat := 0xBD5D0DD1
def fnG1 : Nat := 0x3FCC422A
def fnG3 : Nat := 0x3D922279

/-- Special arguments answered by the table of R139: NaN, then +∞, −∞ and ±0; other arguments go on. -/
def special (w pinf ninf : Nat) (zero : Bool → Nat) (k : Nat) : Nat :=
  match val w with
  | .nan => fpNan
  | .inf n => if n then ninf else pinf
  | .num n m _ => if m == 0 then zero n else k

/-- The zero with the sign given. -/
def signedZero (n : Bool) : Nat := if n then fpNegZero else 0

/-- The infinity with the sign given. -/
def signedInf (n : Bool) : Nat := if n then fpNegInf else fpInf

/-- Reciprocal (op 2). -/
def frecip (b : Nat) : Nat :=
  special b 0 fpNegZero signedInf <|
    if !(Fp.num false 1 (-128)).lt (val b).abs then signedInf (val b).sign
    else
      let y := copysign (fexp2 (fneg (flog2 (fabs b)))) b
      fma y (fma (fneg b) y fpOne) y

/-- Reciprocal square root in its inner range (op 3). -/
def frsqrtCore (x : Nat) : Nat :=
  let y := fexp2 (fmul 0xBF000000 (flog2 x))
  let t := fmul y y
  fma (fmul fpHalf y) (fma (fneg x) t fpOne) y

/-- An FP32 word times 2^k, rounded once. -/
def fscale (w : Nat) (k : Int) : Nat := r32 ((val w).mul (.num false 1 k))

/-- Reciprocal square root (op 3): scaled outside 2^−126 to 2^126. -/
def frsqrt (x : Nat) : Nat :=
  special x 0 fpNan signedInf <|
    if (val x).sign then fpNan
    else if (val x).lt (.num false 1 (-126)) then fscale (frsqrtCore (fscale x 48)) 24
    else if !(val x).lt (.num false 1 126) then fscale (frsqrtCore (fscale x (-48))) (-24)
    else frsqrtCore x

/-- An IEEE 754 quotient where an operand is 0 or infinite. -/
def quotientEdge (a b : Nat) : Nat :=
  let neg := (val a).sign != (val b).sign
  if (val a).isNan || (val b).isNan then fpNan
  else if (val a).isInf && (val b).isInf then fpNan
  else if (val a).isZero && (val b).isZero then fpNan
  else if (val a).isInf || (val b).isZero then signedInf neg
  else signedZero neg

/-- Divide (op 4), with `rb` the reciprocal of `b`. -/
def fdiv (a b rb : Nat) : Nat :=
  let edge (w : Nat) : Bool := (val w).isZero || !(val w).isFinite
  if edge a || edge b then quotientEdge a b
  else
    let q := fmul a rb
    fma (fma (fneg b) q a) rb q

/-- Exponential (op 5). -/
def fexp (x : Nat) : Nat :=
  special x fpInf 0 (fun _ => fpOne) <|
    if (Fp.num false 89 0).lt (val x) then fpInf
    else if (val x).lt (.num true 104 0) then 0
    else
      let y := fmul x fnL1
      let c := fma x fnL1 (fneg y)
      let c := fma x fnL2 c
      let r := fexp2 y
      fma r (fmul c fnLN2) r

/-- Hyperbolic tangent (op 6). -/
def ftanh (x : Nat) : Nat :=
  special x fpOne 0xBF800000 signedZero <|
    let a := fabs x
    if (val a).lt (.num false 1 (-3)) then
      let s := fmul x x
      fma (fmul x s) (fma s (fma s fnT7 fnT5) fnT3) x
    else
      let u := fexp (fmul 0xC0000000 a)
      let b := fadd fpOne u
      copysign (fdiv (fsub fpOne u) b (frecip b)) x

/-- Sigmoid (op 7). -/
def fsigmoid (x : Nat) : Nat :=
  special x fpOne 0 (fun _ => fpHalf) <|
    let u := fexp (fneg (fabs x))
    let r := frecip (fadd fpOne u)
    if (val x).sign then fmul u r else r

/-- SiLU (op 8). -/
def fsilu (x : Nat) : Nat := special x fpInf fpNegZero signedZero (fmul x (fsigmoid x))

/-- GELU (op 9). -/
def fgelu (x : Nat) : Nat :=
  special x fpInf fpNegZero signedZero (fmul x (fsigmoid (fmul x (fma fnG3 (fmul x x) fnG1))))

/-- Softplus (op 10). -/
def fsoftplus (x : Nat) : Nat :=
  special x fpInf 0 (fun _ => fnLN2) <|
    let u := fexp (fneg (fabs x))
    let w := fadd fpOne u
    let l := if w == fpOne then u else fmul (fmul fnLN2 (flog2 w)) (fmul u (frecip (fsub w fpOne)))
    fadd (fmax x 0) l

/-- ReLU (EPI act 1). -/
def frelu (x : Nat) : Nat :=
  match val x with
  | .nan => fpNan
  | v => if (Fp.zero false).lt v then x else 0

/-! ### Reductions along a row (R135) -/

/-- One pass of the pairwise tree. -/
def pairUp (f : Nat → Nat → Nat) : List Nat → List Nat
  | a :: b :: t => f a b :: pairUp f t
  | l => l

/-- The tree over 64 lanes: six passes. -/
def tree (f : Nat → Nat → Nat) (l : List Nat) : Nat :=
  (pairUp f (pairUp f (pairUp f (pairUp f (pairUp f (pairUp f l)))))).getD 0 0

/-- A reduction: lane i takes columns i, i + 64, … in ascending order from `z` by `step`, then the tree combines. -/
def reduceRow (step f : Nat → Nat → Nat) (z : Nat) (xs : List Nat) : Nat :=
  tree f ((List.range 64).map fun i =>
    ((List.range (ceilDiv (xs.length - i) 64)).map fun j => xs.getD (i + 64 * j) 0).foldl step z)

def rowSum (xs : List Nat) : Nat := reduceRow fadd fadd 0 xs
def rowMax (xs : List Nat) : Nat := reduceRow fmax fmax fpNegInf xs

/-- The sum of squares of op 14: each lane by fma(x, x, running). -/
def rowSquares (xs : List Nat) : Nat := reduceRow (fun s x => fma x x s) fadd 0 xs

/-! ### Operations on one row (R143 to R149) -/

/-- What an operation does to one row: the elements of dst, the words of the aux entry written back from one on, and what it
counts. -/
structure RowOut where
  dst : Option (List Nat) := none
  aux : Option (Nat × List Nat) := none
  empty : Bool := false
  badRef : Bool := false
  replayed : Bool := false

/-- Op 12 on a row against reference m (R144). -/
def softRow (xs : List Nat) (aux : List Nat) : RowOut :=
  let m := aux.getD 0 0
  let l := aux.getD 1 0
  if (val m).isNan || m == fpInf then
    let ps := xs.map fun _ => fpNan
    { dst := some ps, aux := some (1, [fadd l (rowSum ps)]), badRef := true }
  else if m == fpNegInf then { dst := some (xs.map fun _ => 0) }
  else
    let ps := xs.map fun x => fexp2 (fsub x m)
    { dst := some ps, aux := some (1, [fadd l (rowSum ps)]) }

/-- Some element of a row is beyond the bound: NaN and −∞ take no part (R145). -/
def exceeds (bound : Nat) (xs : List Nat) : Bool :=
  xs.any fun x => (val bound).lt (val x).abs && x != fpNegInf

/-- A bounded row with reference `m` is replayed: it exceeds its bound, and `m` is neither NaN nor +∞ (R145). -/
def replayed (bound m : Nat) (xs : List Nat) : Bool := !(val m).isNan && m != fpInf && exceeds bound xs

/-- The replay of a row (R146). -/
def replayRow (xs : List Nat) (aux : List Nat) : RowOut :=
  let m := aux.getD 0 0
  let m' := fmax m (rowMax xs)
  let k := if m' == m then fpOne else fexp2 (fsub m m')
  let ps := xs.map fun x => fexp2 (fsub x m')
  { dst := some ps
    aux := some (0, [m', fadd (fmul (aux.getD 1 0) k) (rowSum ps), fmul (aux.getD 2 0) k, aux.getD 3 0 ||| 3])
    replayed := true }

/-- Op 12 with a bound (R145). -/
def boundedRow (bound : Nat) (xs aux : List Nat) : RowOut :=
  let m := aux.getD 0 0
  if replayed bound m xs then replayRow xs aux else softRow xs aux

/-- Op 13 (R144). -/
def scaleRow (xs aux : List Nat) : RowOut :=
  let l := aux.getD 1 0
  if (val l).isZero then { dst := some (xs.map fun _ => 0), empty := true }
  else { dst := some (let r := frecip l; xs.map fun x => fmul x r) }

/-- Op 14 (R148). -/
def momentsRow (xs aux : List Nat) : RowOut :=
  { aux := some (0, [fadd (aux.getD 0 0) (rowSum xs), fadd (aux.getD 1 0) (rowSquares xs),
      fadd (aux.getD 2 0) (r32 (.num false xs.length 0))]) }

/-- Op 15 (R149). -/
def normRow (xs aux : List Nat) : RowOut :=
  let n := aux.getD 2 0
  if (val n).isZero then { dst := some (xs.map fun _ => 0), empty := true }
  else
    let rn := frecip n
    let mu := if bit (aux.getD 3 0) 31 == 1 then 0 else fmul (aux.getD 0 0) rn
    let v := fmax (fma (fneg mu) mu (fmul (aux.getD 1 0) rn)) 0
    let r := frsqrt (fadd v (fabs (aux.getD 3 0)))
    { dst := some (xs.map fun x => fmul (fsub x mu) r) }

/-- The result of operation `op` on one row; `bound` is the head's bound where the step is bounded (R86). -/
def rowOp (op : Nat) (bound : Option Nat) (xs aux : List Nat) : RowOut :=
  match op with
  | 0 => { dst := some (xs.map fexp2) }
  | 1 => { dst := some (xs.map flog2) }
  | 2 => { dst := some (xs.map frecip) }
  | 3 => { dst := some (xs.map frsqrt) }
  | 4 => { dst := some (let b := aux.getD 0 0; let rb := frecip b; xs.map fun x => fdiv x b rb) }
  | 5 => { dst := some (xs.map fexp) }
  | 6 => { dst := some (xs.map ftanh) }
  | 7 => { dst := some (xs.map fsigmoid) }
  | 8 => { dst := some (xs.map fsilu) }
  | 9 => { dst := some (xs.map fgelu) }
  | 10 => { dst := some (xs.map fsoftplus) }
  | 11 => { aux := some (0, [fmax (aux.getD 0 0) (rowMax xs)]) }
  | 12 =>
    match bound with
    | some b => boundedRow b xs aux
    | none => softRow xs aux
  | 13 => scaleRow xs aux
  | 14 => momentsRow xs aux
  | _ => normRow xs aux

/-! ### The ROW step (R86) -/

/-- The words that hold the first `n` bytes of each row, for rows at a pitch of `pitch` granules. -/
def rowWords (pitch n w : Nat) : Bool := w % (pitch * 8) < ceilDiv n 8

/-- Read rows of a tile operand and go on with it (R78, R223): only the elements' bytes are read (R86). -/
def withRows (x : StepCtx) (g : Int) (rows pitch n : Nat) (k : Nat → Eff) : Eff :=
  withWords x g (rows * pitch) (rowWords pitch n) k

/-- The words that hold the first 8 bytes of each of `rows` aux entries. -/
def entryHeads (rows w : Nat) : Bool := w % 2 == 0 && w < 2 * rows

/-- The elements of a ROW step's row as FP32 words. -/
def rowElems (d : Device) (core g cols : Nat) (wide : Bool) : List Nat :=
  (List.range cols).map fun c =>
    if wide then r32 (val (tileNum d core (g * 64 + c * 4) 4)) else ofBf16 (tileNum d core (g * 64 + c * 2) 2)

/-- Elements as the bytes of a row. -/
def rowBytes (wide : Bool) (ys : List Nat) : List Byte :=
  ys.flatMap fun y => if wide then toLE 4 y else toLE 2 (toBf16 y)

/-- An aux entry: four FP32 words. -/
def auxEntry (d : Device) (core g r : Nat) : List Nat :=
  (List.range 4).map fun i => tileNum d core (g * 64 + r * 16 + i * 4) 4

/-- How many of a list satisfy `p`. -/
def countIf {α : Type} (p : α → Bool) (l : List α) : Nat := (l.filter p).length

/-- The effect of a ROW step on rows at granule `g`, with dst at `dg` and aux at `ag`: every element and entry is read
first; dst writes precede the aux write-back (R151). -/
def rowRun (x : StepCtx) (op g dg ag : Nat) : Eff := .obs fun d =>
  let rows := sb x.w 27 20 + 1
  let cols := sb x.w 19 8 + 1
  let wide := sb x.w 7 7 == 1
  let pitch := ceilDiv (cols * (if wide then 4 else 2)) 64
  let bound := if sb x.w 6 6 == 1 then some (headSlot d x.core (sb x.w 5 2)) else none
  let outs := (List.range rows).map fun r =>
    rowOp op bound (rowElems d x.core (g + r * pitch) cols wide) (auxEntry d x.core ag r)
  let replays := countIf (·.replayed) outs
  .all [
    .each outs.zipIdx (fun o => match o.1.dst with
      | some ys => wrTile x.core ((dg + o.2 * pitch) * 64) (rowBytes wide ys)
      | none => .skip),
    .each outs.zipIdx (fun o => match o.1.aux with
      | some (i, a) => wrTile x.core (ag * 64 + o.2 * 16 + i * 4) (a.flatMap (toLE 4))
      | none => .skip),
    addSat F.COR_ROW_STAT_rows x.core replays,
    .when (replays != 0) (.seq (addSat F.COR_ROW_STAT_steps x.core 1)
      (.obs fun d => setF F.COR_BOUND_OVF_slot x.core (d.fld F.COR_BOUND_OVF_slot x.core ||| 2 ^ sb x.w 5 2))),
    addSat F.COR_ROW_EXC_empty_rows x.core (countIf (·.empty) outs),
    addSat F.COR_ROW_EXC_bad_ref x.core (countIf (·.badRef) outs),
    stepDone x none]

/-- The second words, with g and flags, of the aux entries whose rows are replayed: they alone are read (R144, R146). -/
def replayTails (d : Device) (x : StepCtx) (g ag w : Nat) : Bool :=
  let cols := sb x.w 19 8 + 1
  let wide := sb x.w 7 7 == 1
  let pitch := ceilDiv (cols * (if wide then 4 else 2)) 64
  sb x.w 6 6 == 1 && w % 2 == 1 && w / 2 ≤ sb x.w 27 20 &&
    replayed (headSlot d x.core (sb x.w 5 2)) (tileNum d x.core (ag * 64 + w / 2 * 16) 4)
      (rowElems d x.core (g + w / 2 * pitch) cols wide)

/-- ROW with operation `op` (R86): src, then dst unless the operation writes none, then aux where it is used: of an entry,
ops 4 and 11 to 13 read m and l alone, but for a row that op 12 replays (R143, R144, R146). -/
def rowStep (core op : Nat) (fixed lost : List Nat) : Eff :=
  issueWith core 6 (fun w => sb w 95 92 == op) fixed lost fun x => .obs fun d =>
  let rows := sb x.w 27 20 + 1
  let bytes := (sb x.w 19 8 + 1) * (if sb x.w 7 7 == 1 then 4 else 2)
  let pitch := ceilDiv bytes 64
  let entries := ceilDiv (rows * 16) 64
  let src := tileGranule d x (sb x.w 91 68)
  let aux := tileGranule d x (sb x.w 51 28)
  withRows x src rows pitch bytes fun g =>
    let withDst (k : Nat → Eff) : Eff :=
      if op == 11 || op == 14 then k 0 else withDest x (src + signed (sb x.w 67 52) 16) (rows * pitch) k
    withDst fun dg =>
      let run (ag : Nat) : Eff :=
        if op == 4 || op == 13 || op == 15 then rowRun x op g dg ag
        else unlessRead core ag entries (.seq (noteWrite core ag entries) (rowRun x op g dg ag))
      if op == 4 || op == 11 || op == 13 then withWords x aux entries (entryHeads rows) run
      else if op == 12 then
        withWords x aux entries (entryHeads rows) fun ag => .obs fun d =>
          withWords x aux entries (replayTails d x g ag) run
      else if 14 ≤ op then withRows x aux 1 entries (rows * 16) run
      else rowRun x op g dg 0

end Sys2Proof.Machine
end

