-- ==== Sys2Proof/Machine/Numbers.lean ====
section
/-! DEFINITION. The numeric steps: PRODUCT, ROTATE, QUANT, EPI and ATOM (03_tile_programs.md R82 to R91;
04_number_formats_and_products.md R111 to R127; 05_row_functions.md R141; 09_on_chip_and_stacked_memory.md R231). -/

namespace Sys2Proof.Machine

/-! ### Products (R111 to R117) -/

/-- The exact sum of a block's products (R112, R113). -/
def blockValue (a b : List Fp) : Fp := (List.zipWith Fp.mul a b).foldl Fp.add (.zero false)

/-- The run exponent: the largest t_b of the finite block values other than 0 (R115). -/
def runExponent (vs : List Fp) : Int :=
  match vs.map (·.log2 + 1) with
  | [] => 0
  | t :: ts => ts.foldl max t

/-- A block value aligned to run exponent `r`: v × 2^(22 − r) to the nearest integer, ties to even. -/
def aligned (r : Int) (v : Fp) : Int :=
  match v with
  | .num neg m e =>
    let k := e + 22 - r
    let a : Int := ((if 0 ≤ k then m * 2 ^ k.toNat else rneDiv m (2 ^ (-k).toNat)) : Nat)
    if neg then -a else a
  | _ => 0

/-- What a promotion leaves: the wide accumulator, and whether it became NaN or overflowed. -/
structure Promoted where
  w : Nat
  nanOut : Bool := false
  overflow : Bool := false

/-- The promotion of one run into the wide accumulator (R116, R117). -/
def promote (w sigma : Nat) (vs : List Fp) : Promoted :=
  let vs := vs.filter fun v => !v.isZero
  if vs.isEmpty then { w } else
  let fin := vs.filter Fp.isFinite
  let infs := vs.filter Fp.isInf
  let special := (infs.map fun v => v.mul (val sigma)).foldl Fp.add (.zero false)
  let r := runExponent fin
  let a := (fin.map (aligned r)).sum
  let term := (Fp.num (decide (a < 0)) a.natAbs (r - 22)).mul (val sigma)
  let out :=
    if (val w).isNan || vs.any Fp.isNan then fpNan
    else
      let w1 := if fin.isEmpty then val w else if term.isZero then val w else (val w).add term
      r32 (if infs.isEmpty then w1 else w1.add special)
  { w := out
    nanOut := (val out).isNan && !(val w).isNan
    overflow := (val out).isInf && (val w).isFinite && term.isFinite && infs.isEmpty }

/-- Blocks into runs of `p` (R114). -/
def runsOf (p : Nat) : Nat → List Fp → List (List Fp)
  | 0, _ => []
  | n + 1, vs => if vs.isEmpty then [] else vs.take p :: runsOf p n (vs.drop p)

/-- What a PRODUCT step does to one output element: the accumulator, and how often it became NaN or overflowed. -/
def productElem (w sigma p : Nat) (vs : List Fp) : Nat × Nat × Nat :=
  (runsOf p vs.length vs).foldl (fun s run =>
    let q := promote s.1 sigma run
    (q.w, s.2.1 + (if q.nanOut then 1 else 0), s.2.2 + (if q.overflow then 1 else 0))) (w, 0, 0)

/-- The accumulator key of an element of a bank. -/
def accKey (core bank row col : Nat) : Nat := (core * 2 + bank) * 65536 + row * 256 + col

/-- The effect of a PRODUCT on its operands (R82). -/
def productRun (x : StepCtx) (a b : TileOperand) : Eff := .obs fun d =>
  let bank := sb x.w 47 47
  let p := if sb x.w 31 27 == 0 then x.fig.promotion else sb x.w 31 27
  let sigma := fmul (a.tileScale d) (b.tileScale d)
  let outs := (List.range a.rows).flatMap fun i => (List.range b.rows).map fun j =>
    let key := accKey x.core bank i j
    (key, productElem (d.accAt key).toNat sigma p
      ((List.range a.k).map fun n => blockValue (a.block d i n) (b.block d j n)))
  .all [
    .each outs (fun o => putAcc o.1 (BitVec.ofNat 32 o.2.1)),
    addSat F.COR_ACC_STAT_nan_out x.core ((outs.map (·.2.2.1)).sum),
    addSat F.COR_ACC_STAT_overflow x.core ((outs.map (·.2.2.2)).sum),
    modCores x.core (fun k => { k with seq := k.seq.setBank bank ⟨true, sb x.w 46 45, sb x.w 44 43⟩ }),
    stepDone x none]

/-- PRODUCT (R82): a bank that accumulates another shape faults with BANK_STATE. -/
def productStep (core : Nat) (fixed lost : List Nat) : Eff :=
  issueWith core 3 (fun _ => true) fixed lost fun x => .obs fun d =>
  let m := sb x.w 46 45
  let n := sb x.w 44 43
  let k := sb x.w 42 38 + 1
  let bk := x.q.bank (sb x.w 47 47)
  if bk.acc && (bk.m != m || bk.n != n) then stepFault x 0x08 0 else
  let fa := sb x.w 37 35
  let fb := sb x.w 34 32
  withWords x (tileGranule d x (sb x.w 95 72)) (operandGranules fa (64 * (m + 1)) k) (operandWords fa) fun ga =>
    withWords x (tileGranule d x (sb x.w 71 48)) (operandGranules fb (64 * (n + 1)) k) (operandWords fb) fun gb =>
      productRun x ⟨core, ga, fa, 64 * (m + 1), k⟩ ⟨core, gb, fb, 64 * (n + 1), k⟩

/-! ### Rotations (R125, R126) -/

/-- Modulo 2^32. -/
def m32 (x : Nat) : Nat := x % 2 ^ 32

/-- The word of 32 signs. -/
def mix32 (seed i : Nat) : Nat :=
  let x := m32 (seed + i * 0x9E3779B9)
  let x := m32 ((x ^^^ x >>> 16) * 0x85EBCA6B)
  let x := m32 ((x ^^^ x >>> 13) * 0xC2B2AE35)
  x ^^^ x >>> 16

/-- Stage `s` of the butterflies. -/
def butterfly (s : Nat) (xs : List Nat) : List Nat :=
  xs.zipIdx.map fun (v, i) =>
    if bit i s == 0 then fadd v (xs.getD (i + 2 ^ s) 0) else fsub (xs.getD (i - 2 ^ s) 0) v

/-- One transform block of order 2^n whose first element stands at global column `j0` (R125). -/
def transformBlock (n seed j0 : Nat) (xs : List Nat) : List Nat :=
  let ys := xs.zipIdx.map fun (v, i) => if bit (mix32 seed ((j0 + i) / 32)) ((j0 + i) % 32) == 1 then fneg v else v
  let zs := (List.range n).foldl (fun v s => butterfly s v) ys
  zs.map fun v => fscale v (if n == 6 then -3 else -4)

/-- ROTATE (R84). -/
def rotateStep (core : Nat) (fixed lost : List Nat) : Eff :=
  issueWith core 4 (fun _ => true) fixed lost fun x => .obs fun d =>
  let n := 6 + sb x.w 47 46
  let rows := sb x.w 45 34 + 1
  let blocks := sb x.w 33 25 + 1
  let wide := sb x.w 6 4 == 5
  let e := if wide then 4 else 2
  let size := rows * blocks * 2 ^ n * e / 64
  let seed := constReg d core (sb x.w 24 17)
  withTile x (tileGranule d x (sb x.w 95 72)) size fun g =>
    withDest x (tileGranule d x (sb x.w 71 48)) size fun dg => .obs fun d =>
      let outs := (List.range (rows * blocks)).map fun t =>
        transformBlock n seed (64 * sb x.w 16 7 + t % blocks * 2 ^ n)
          ((List.range (2 ^ n)).map fun i =>
            let at_ := g * 64 + (t * 2 ^ n + i) * e
            if wide then r32 (val (tileNum d core at_ 4)) else ofBf16 (tileNum d core at_ 2))
      .seq (.each outs.zipIdx fun o => wrTile core (dg * 64 + o.2 * 2 ^ n * e) (rowBytes wide o.1)) (stepDone x none)

/-! ### QUANT (R85, R118 to R124) -/

/-- The source element of a QUANT: row r, column c. -/
def quantSource (d : Device) (core g f cols r c : Nat) : Fp :=
  let e := if f == 5 then 4 else 2
  elemValue f (tileNum d core (g * 64 + (r * cols + c) * e) e)

/-- The 32 elements of block `b` of output row `r`, with their random values: along a row of the source, or down a column
where the step transposes; elements past the last source row are +0 and take no random value (R123, R124). -/
def quantBlockElems (d : Device) (core g f rows cols : Nat) (transpose : Bool) (rnd : Option (Nat × Nat)) (r b : Nat) :
    List (Fp × Option Nat) :=
  (List.range 32).map fun i =>
    let (sr, sc) := if transpose then (b * 32 + i, r) else (r, b * 32 + i)
    if sr < rows then
      (quantSource d core g f cols sr sc, rnd.map fun kc => randomValue kc.1 kc.2 (sr * cols + sc))
    else (.zero false, none)

/-- QUANT (R85). -/
def quantStep (core : Nat) (fixed lost : List Nat) : Eff :=
  issueWith core 5 (fun _ => true) fixed lost fun x => .obs fun d =>
  let rows := sb x.w 47 36 + 1
  let cols := (sb x.w 35 27 + 1) * 32
  let fin := sb x.w 26 24
  let fout := sb x.w 23 21
  let transpose := sb x.w 18 18 == 1
  let outRows := if transpose then cols else rows
  let k := if transpose then ceilDiv rows 32 else cols / 32
  withTile x (tileGranule d x (sb x.w 95 72)) (operandGranules fin rows (cols / 32)) fun g =>
    withDest x (tileGranule d x (sb x.w 71 48)) (operandGranules fout outRows k) fun dg => .obs fun d =>
      let rnd := if sb x.w 20 20 == 1 then some (genKey d x, x.q.gen) else none
      let out := (List.range outRows).map fun r => (List.range k).map fun b =>
        codeBlock fout (sb x.w 19 19 == 1) (quantBlockElems d core g fin rows cols transpose rnd r b)
      .all [
        writeHeader core dg fout,
        .each out.zipIdx (fun o => writeRow core dg fout outRows k o.2 o.1),
        countBlocks core out.flatten,
        .when (sb x.w 20 20 == 1) (advanceGen core (rows * cols)),
        stepDone x none]

/-! ### EPI (R87, R141) -/

/-- The activation of an EPI (R87). -/
def activation (act v : Nat) : Nat :=
  match act with
  | 0 => v
  | 1 => frelu v
  | 2 => fsilu v
  | 3 => fgelu v
  | 4 => fsigmoid v
  | 5 => ftanh v
  | _ => fsoftplus v

/-- One output element before quantisation (R141 steps 1 to 3). -/
def epiElem (act scale post bias a : Nat) : Nat := fmul post (activation act (fma scale a bias))

/-- The effect of an EPI with its destination at `dg` and its bias at `bg`: the bank is left empty. -/
def epiRun (x : StepCtx) (ro co dg bg : Nat) : Eff := .obs fun d =>
  let bank := sb x.w 95 95
  let fout := sb x.w 25 23
  let rnd := if sb x.w 22 22 == 1 && fout != 5 then some (genKey d x, x.q.gen) else none
  let scale := constReg d x.core (sb x.w 41 34)
  let post := constReg d x.core (sb x.w 33 26)
  let bias (c : Nat) : Nat := if sb x.w 46 46 == 1 then ofBf16 (tileNum d x.core (bg * 64 + c * 2) 2) else 0
  let out := (List.range ro).map fun r => (List.range (co / 32)).map fun b =>
    codeBlock fout true ((List.range 32).map fun i =>
      let c := b * 32 + i
      (val (epiElem (sb x.w 45 42) scale post (bias c) (d.accAt (accKey x.core bank r c)).toNat),
        rnd.map fun kc => randomValue kc.1 kc.2 (r * co + c)))
  .all [
    writeHeader x.core dg fout,
    .each out.zipIdx (fun o => .when (sb x.w 21 21 == 0 || o.2 < x.q.liveRows)
      (writeRow x.core dg fout ro (co / 32) o.2 o.1)),
    countBlocks x.core out.flatten,
    .when (sb x.w 22 22 == 1 && fout != 5) (advanceGen x.core (ro * co)),
    emptyBank x.core bank,
    stepDone x none]

/-- EPI (R87): an empty bank faults with BANK_STATE. TILE_RANGE is judged on the whole destination, also where mask leaves rows
unwritten (log entry 125). -/
def epiStep (core : Nat) (fixed lost : List Nat) : Eff :=
  issueWith core 7 (fun _ => true) fixed lost fun x => .obs fun d =>
  let bk := x.q.bank (sb x.w 95 95)
  if !bk.acc then stepFault x 0x08 0 else
  let ro := 64 * (bk.m + 1)
  let co := 64 * (bk.n + 1)
  let dst (bg : Nat) : Eff := withDest x (tileGranule d x (sb x.w 94 71)) (operandGranules (sb x.w 25 23) ro (co / 32))
    fun dg => epiRun x ro co dg bg
  if sb x.w 46 46 == 1 then withTile x (tileGranule d x (sb x.w 70 47)) (co / 32) dst else dst 0

/-! ### ATOM (R91, R231) -/

/-- An ATOM on BF16 elements: its units are 2 bytes. -/
def atomNarrow (op : Nat) : Bool := op == 2 || op == 7 || op == 8 || op == 10

/-- The new value of an element (R231). -/
def atomResult (op x y : Nat) : Nat :=
  let lessInt := signed x 32 < signed y 32
  match op with
  | 0 => m32 (x + y)
  | 1 | 9 => fadd x y
  | 2 | 10 => fmtBf16.encode ((fmtBf16.decode x).add (fmtBf16.decode y))
  | 3 => if lessInt then x else y
  | 4 => if lessInt then y else x
  | 5 => r32 ((val x).min (val y))
  | 6 => r32 ((val x).max (val y))
  | 7 => fmtBf16.encode ((fmtBf16.decode x).min (fmtBf16.decode y))
  | _ => fmtBf16.encode ((fmtBf16.decode x).max (fmtBf16.decode y))

/-- A byte list as numbers of `e` bytes. -/
def numbers (e : Nat) : Nat → List Byte → List Nat
  | 0, _ => []
  | n + 1, bs => fromLE (bs.take e) :: numbers e n (bs.drop e)

/-- ATOM with operation `op` (R91, R231): each element of the window is read, combined with its operand and written in
place; with fetch the old values replace the operands. `fixed` and `lost` are the errors its reads of tile memory, of the
floor and of the maps meet. -/
def atomStep (core op : Nat) (fixed lost : List Nat) : Eff :=
  issueWith core 11 (fun w => sb w 95 92 == op) fixed lost fun x => .obs fun d =>
  let e : Nat := if atomNarrow op then 2 else 4
  let n := sb x.w 18 7 + 1
  let fetch := sb x.w 6 6 == 1 && op ≤ 8
  let off := extOffset d x (sb x.w 79 52) (sb x.w 51 51) (sb x.w 50 43) 0 * (e : Int)
  let os := (List.range (n * e)).map fun (i : Nat) => off + (i : Int)
  let win := stepWindow x (sb x.w 91 80)
  withRows x (tileGranule d x (sb x.w 42 19)) 1 (ceilDiv (n * e) 64) (n * e) fun g =>
    (if fetch then unlessRead core g (ceilDiv (n * e) 64) else id) <|
    withWalk x win os fixed lost (stepFault x 0x03) <| .obs fun d =>
    .seq (memErrors (extTouched d x win os .atomic) fixed lost) <| .obs fun d =>
    match extAccess d x win os .atomic true noCopy with
    | .fault code addr => stepFault x code addr
    | .held => .skip
    | .served as =>
      let old := d.bytesAt as
      let new := List.zipWith (atomResult op) (numbers e n old) (numbers e n (tileBytes d core (g * 64) (n * e)))
      .all [
        notReplayable core,
        wrAt as (new.flatMap (toLE e)),
        .when fetch (.seq (noteWrite core g (ceilDiv (n * e) 64)) (wrTile core (g * 64) old)),
        stepDone x none]

end Sys2Proof.Machine
end

