-- ==== Sys2Proof/Machine/Collectives.lean ====
section
/-! DEFINITION. The operands, algorithms and reduction orders of collectives (13_collectives.md R333 to R339, R343), their
packets (R331, R348), and how a member fails, withdraws and suspects others (R340, R341, R344 to R347). -/

namespace Sys2Proof.Machine

/-! ### Elements (R333, R335) -/

/-- Bytes of an element. -/
def colSize (dtype : Nat) : Nat := if dtype == 0 || dtype == 2 then 4 else if dtype == 1 then 2 else 1

/-- The combination of two values, as the ATOM operation it is (R335, R231). -/
def colAtom (dtype reduce : Nat) : Nat :=
  if dtype == 0 then (if reduce == 0 then 1 else if reduce == 1 then 6 else 5)
  else if dtype == 1 then (if reduce == 0 then 2 else if reduce == 1 then 8 else 7)
  else (if reduce == 0 then 0 else if reduce == 1 then 4 else 3)

/-- Combine two byte strings element by element: `a ⊕ b`. -/
def colCombine (dtype reduce : Nat) (a b : List Byte) : List Byte :=
  let e := colSize dtype
  (List.zipWith (atomResult (colAtom dtype reduce)) (numbers e (a.length / e) a) (numbers e (b.length / e) b)).flatMap (toLE e)

/-- Granules of an operand. -/
def ColPart.granules (p : ColPart) : Nat := ceilDiv (p.count * colSize p.dtype) 64

/-- The operand that granule `g` of the joined operands belongs to (R343). -/
def partOfGranule : List ColPart → Nat → ColPart
  | [], _ => {}
  | p :: ps, g => if g < p.granules then p else partOfGranule ps (g - p.granules)

/-- Combine granules from `g` on, each under its own operand's dtype and reduce (R343). -/
def combineFrom (ps : List ColPart) : Nat → Nat → List Byte → List Byte → List Byte
  | 0, _, _, _ => []
  | n + 1, g, a, b =>
    let p := partOfGranule ps g
    colCombine p.dtype p.reduce (a.take 64) (b.take 64) ++ combineFrom ps n (g + 1) (a.drop 64) (b.drop 64)

/-! ### Operations, segments and chunks (R334, R336) -/

/-- Ops by number: 0 all-reduce, 1 reduce-scatter, 2 all-gather, 3 broadcast, 4 all-to-all. -/
def reducing (op : Nat) : Bool := op ≤ 1

/-- The algorithm an op runs by: the group's where it serves the op, else ring; all-to-all always direct (R334). -/
def colAlgo (op algo : Nat) : Nat :=
  if op == 4 then 2
  else if algo == 1 then (if op == 0 || op == 3 then 1 else 0)
  else algo

/-- Granules of the segment an operation is in. -/
def ColOp.granules (o : ColOp) : Nat :=
  if o.seg == 0 then o.total else min o.seg (o.total - o.segment * o.seg)

/-- Segments of an operation. -/
def ColOp.segments (o : ColOp) : Nat := if o.seg == 0 then 1 else max 1 (ceilDiv o.total o.seg)

/-- The first granule of a chunk of a segment. -/
def chunkStart (g n j : Nat) : Nat := j * g / n

/-- Chunk `j` of a segment's bytes. -/
def chunkOf (g n j : Nat) (bs : List Byte) : List Byte :=
  (bs.drop (chunkStart g n j * 64)).take ((chunkStart g n (j + 1) - chunkStart g n j) * 64)

/-- The granules of staging a segment needs (R336). -/
def stagingNeed (op algo g n : Nat) : Nat :=
  let c := ceilDiv g n
  if op == 3 then g
  else if op == 4 then 2 * n * g
  else if op == 2 then n * g
  else if algo == 1 then 3 * g else if algo == 2 then g + 8 * c else g + 2 * c

/-! ### Algorithms as steps (R337, R339) -/

/-- The depth of a tree position. -/
def treeDepth (p : Nat) : Nat := Nat.log2 (p + 1)

/-- Steps of a segment. -/
def colSteps (op algo n : Nat) : Nat :=
  if algo == 1 then (if op == 0 then 2 * Nat.log2 n else Nat.log2 n)
  else if algo == 2 then (if op == 0 then 2 else 1)
  else if op == 0 then 2 * (n - 1) else n - 1

/-- The tree position of rank `r`, and the rank of a position. -/
def treePos (root n r : Nat) : Nat := (r + n - root) % n
def treeRank (root n p : Nat) : Nat := (p + root) % n

/-- The children of a tree position. -/
def treeChildren (n p : Nat) : List Nat := [2 * p + 1, 2 * p + 2].filter (· < n)

/-- A tree step is on the way up. -/
def treeUp (op n s : Nat) : Bool := op == 0 && s < Nat.log2 n

/-- The depth whose nodes send in a tree step. -/
def treeLevel (op n s : Nat) : Nat :=
  if treeUp op n s then Nat.log2 n - s else if op == 0 then s - Nat.log2 n else s

/-- The chunk or block a rank sends in ring step `s`. -/
def ringChunk (op n r s : Nat) : Nat :=
  if reducing op && s < n - 1 then (r + 2 * n - 1 - s % n) % n
  else if op == 0 then (r + n - (s - (n - 1)) % n) % n
  else (r + n - s % n) % n

/-- Item `j` of the working values. -/
def ColOp.item (o : ColOp) (j : Nat) : List Byte := o.work.getD j []

/-- What rank `r` of `n` sends in the current step, by destination rank (R337). -/
def colSends (o : ColOp) (n r : Nat) : List (Nat × List Byte) :=
  let s := o.step
  let others := (List.range n).filter (· != r)
  if o.algo == 1 then
    let p := treePos o.root n r
    if treeDepth p != treeLevel o.op n s then []
    else if treeUp o.op n s then [(treeRank o.root n ((p - 1) / 2), o.item 0)]
    else (treeChildren n p).map fun c => (treeRank o.root n c, o.item 0)
  else if o.algo == 2 then
    if o.op == 3 then (if r == o.root then others.map fun j => (j, o.item 0) else [])
    else if o.op == 2 then others.map fun j => (j, o.item r)
    else if o.op == 4 then others.map fun j => (j, (o.input.drop (j * o.granules * 64)).take (o.granules * 64))
    else if s == 0 then others.map fun j => (j, chunkOf o.granules n j o.input)
    else others.map fun j => (j, o.item r)
  else if o.op == 3 then (if r == (o.root + s) % n then [((r + 1) % n, o.item 0)] else [])
  else [((r + 1) % n, o.item (ringChunk o.op n r s))]

/-- The ranks whose data rank `r` awaits in the current step, with the bytes each sends. -/
def colAwaits (o : ColOp) (n r : Nat) : List (Nat × Nat) :=
  let s := o.step
  let others := (List.range n).filter (· != r)
  let g := o.granules
  let chunk (j : Nat) : Nat := (chunkStart g n (j + 1) - chunkStart g n j) * 64
  if o.algo == 1 then
    let p := treePos o.root n r
    if treeUp o.op n s then
      (if treeDepth p + 1 == treeLevel o.op n s then (treeChildren n p).map fun c => (treeRank o.root n c, g * 64) else [])
    else if p != 0 && treeDepth p == treeLevel o.op n s + 1 then [(treeRank o.root n ((p - 1) / 2), g * 64)] else []
  else if o.algo == 2 then
    if o.op == 3 then (if r == o.root then [] else [(o.root, g * 64)])
    else if o.op == 2 || o.op == 4 then others.map fun j => (j, g * 64)
    else if s == 0 then others.map fun j => (j, chunk r)
    else others.map fun j => (j, chunk j)
  else if o.op == 3 then (if r == (o.root + s + 1) % n then [((r + n - 1) % n, g * 64)] else [])
  else
    let from_ := (r + n - 1) % n
    [(from_, if o.op == 2 then g * 64 else chunk (ringChunk o.op n from_ s))]

/-- Pieces in order of their offsets. -/
def placePiece (x : Nat × List Byte) : List (Nat × List Byte) → List (Nat × List Byte)
  | [] => [x]
  | y :: ys => if x.1 < y.1 then x :: y :: ys else y :: placePiece x ys

/-- The bytes received from a rank in the step. -/
def gotFrom (o : ColOp) (j : Nat) : List Byte :=
  ((o.got.filter fun x => x.1 == j).foldl (fun acc x => placePiece (x.2.1, x.2.2.1) acc) []).flatMap (·.2)

/-- All data of a rank has come: its last packet, and as many bytes as it sends. -/
def gotAll (o : ColOp) (e : Nat × Nat) : Bool :=
  (o.got.any fun x => x.1 == e.1 && x.2.2.2) && (gotFrom o e.1).length == e.2

/-- The first granule of the whole operation that chunk `j` of the segment holds. -/
def chunkGranule (o : ColOp) (n j : Nat) : Nat := o.segment * o.seg + chunkStart o.granules n j

/-- Combine two values of chunk `j`, or of the whole segment. -/
def combineChunk (o : ColOp) (n j : Nat) (a b : List Byte) : List Byte :=
  combineFrom o.parts (a.length / 64) (chunkGranule o n j) a b
def combineWhole (o : ColOp) (a b : List Byte) : List Byte :=
  combineFrom o.parts (a.length / 64) (o.segment * o.seg) a b

/-- The working values once the current step's data is in (R337). -/
def colCombined (o : ColOp) (n r : Nat) : List (List Byte) :=
  let s := o.step
  let put (j : Nat) (v : List Byte) : List (List Byte) := o.work.set j v
  if o.algo == 1 then
    match colAwaits o n r with
    | [] => o.work
    | [a] => if treeUp o.op n s then [combineWhole o (o.item 0) (gotFrom o a.1)] else [gotFrom o a.1]
    | a :: b :: _ => [combineWhole o (combineWhole o (o.item 0) (gotFrom o a.1)) (gotFrom o b.1)]
  else if o.algo == 2 then
    if o.op == 3 then (if r == o.root then o.work else [gotFrom o o.root])
    else if o.op == 2 || o.op == 4 || s == 1 then
      (List.range n).map fun j => if j == r then o.item r else gotFrom o j
    else
      let x (i : Nat) : List Byte := if i == r then chunkOf o.granules n r o.input else gotFrom o i
      put r ((List.range n).tail.foldl (fun acc i => combineChunk o n r acc (x i)) (x 0))
  else if o.op == 3 then (if colAwaits o n r == [] then o.work else [gotFrom o ((r + n - 1) % n)])
  else
    let j := ringChunk o.op n ((r + n - 1) % n) s
    let got := gotFrom o ((r + n - 1) % n)
    if reducing o.op && s < n - 1 then put j (combineChunk o n j got (chunkOf o.granules n j o.input)) else put j got

/-- The working values a segment starts with, from its input. -/
def colInitial (o : ColOp) (n r : Nat) : List (List Byte) :=
  if o.algo == 1 || o.op == 3 then [o.input]
  else if o.op == 2 then (List.range n).map fun j => if j == r then o.input else []
  else if o.op == 4 then (List.range n).map fun j =>
    if j == r then (o.input.drop (r * o.granules * 64)).take (o.granules * 64) else []
  else (List.range n).map fun j => chunkOf o.granules n j o.input

/-! ### Groups, flows and packets (R331, R348) -/

/-- The table entry of a partition's group, by its index in the figure. -/
def groupEntryOf (d : Device) (p idx : Nat) : Option Nat :=
  (partEntries d p).find? fun e => d.fld F.COL_GROUP_valid e == 1 && (d.colGroupsAt e).index == idx

/-- Members and own rank of an entry. -/
def groupSize (d : Device) (g : Nat) : Nat := d.fld F.COL_GROUP_members g
def ownRank (d : Device) (g : Nat) : Nat := d.fld F.COL_GROUP_rank g

/-- The device ID of a rank. -/
def rankId (d : Device) (g r : Nat) : Nat := (d.colGroupsAt g).current.getD r 0

/-- The flow an entry's packets to a device go under: of the ring's context where one is given, else of any context of the
partition. VC1 must be permitted (R331). -/
def colFlow (d : Device) (g : Nat) (c : Option Nat) (peer : Nat) : Option Flow :=
  let p := d.fld F.COL_GROUP_partition g
  let ok (f : Flow) : Bool := bit f.flags 1 == 1 && f.peer == peer && bit f.vcs 1 == 1 &&
    (match c with
      | some c => f.localCtx == c
      | none => ctxPart d f.localCtx == some p)
  if d.fld F.LNK_FLOW_BASE_enable 0 == 0 then none else (findFlow d ok).map (·.2)

/-- A route from a link die to a device exists, over an up link. -/
def hasRoute (d : Device) (die dst : Nat) : Bool :=
  match routeEntry d die dst with
  | some w => bit w 62 == 1 || !(groupUp d (bits w 19 18 * 24 + bits w 4 0)).isEmpty
  | none => false

/-- A member can be sent to. -/
def canSend (d : Device) (g : Nat) (c : Option Nat) (die rank : Nat) : Bool :=
  (colFlow d g c (rankId d g rank)).any (canSeal d) && hasRoute d die (rankId d g rank)

/-- The body of a collective packet (R348). -/
def colBody (key epoch msg flags serial step srcRank dstRank segment offset : Nat) (args : List Byte) : List Byte :=
  toLE 4 key ++ toLE 2 epoch ++ toLE 1 msg ++ toLE 1 flags ++ toLE 4 serial ++ toLE 4 step ++ toLE 2 srcRank ++
  toLE 2 dstRank ++ toLE 4 segment ++ toLE 8 offset ++ padTo 128 args

/-- Send a collective packet to a rank, or to the device given in its place (R331). -/
def colSendTo (g : Nat) (c : Option Nat) (die peer tag : Nat) (body data : List Byte) : Eff := .obs fun d =>
  match colFlow d g c peer with
  | none => .skip
  | some f => .seq (routePacket die (sealPacket d f {
      kind := 5, vc := 1, dst := peer, src := d.fld F.LNK_DEVICE_id 0, dstCtx := f.peerCtx, srcCtx := f.localCtx,
      epoch := f.epoch, tag := tag, bytes := data.length, body := body, data := data })) (sealCount f)

/-- The context, link die and tag of a ring's operation. -/
def opTag (n : Nat) (o : ColOp) : Nat := (n * 65536 + o.index % 65536) * 4294967296

/-- The arguments of a READY (R339, R348). -/
def readyArgs (d : Device) (n : Nat) (o : ColOp) : List Byte :=
  match (d.ringsAt n).find? fun x => x.index == o.index with
  | some x => toLE 1 (bits x.ctrl 30 28) ++ toLE 1 (bits x.ctrl 27 26) ++ toLE 1 (bits x.ctrl 25 24) ++ toLE 1 (bits x.ctrl 22 20) ++
      toLE 4 (x.num 4 4) ++ toLE 4 (x.num 0x2C 4) ++ toLE 2 (x.num 0x1E 2)
  | none => []

/-- The stacks of a range of a context's virtual addresses, read at each granule. -/
def rangeStacks (d : Device) (c a n : Nat) (k : Kind) : List Nat :=
  ((List.range (ceilDiv n 64)).filterMap fun i => (translate d c (a + 64 * i) k).bind fun x =>
    if inDram x then some (groupOf x / 8) else none).dedup

/-- The bytes of an operation's src and dst for `n` members: all-to-all has n blocks in both, all-gather in dst, and a broadcast
reads src at its root only (R334). -/
def ColOp.srcBytes (o : ColOp) (n r : Nat) (p : ColPart) : Nat :=
  if o.op == 3 && r != o.root then 0 else (if o.op == 4 then n else 1) * (p.count * colSize p.dtype)
def ColOp.dstBytes (o : ColOp) (n : Nat) (p : ColPart) : Nat := (if o.op == 2 || o.op == 4 then n else 1) * (p.count * colSize p.dtype)

/-- The stacks that hold an operation's src and dst. -/
def opStacks (d : Device) (n : Nat) (o : ColOp) : List Nat :=
  let m := groupSize d o.entry
  o.parts.flatMap fun p => rangeStacks d (ringCtx d n) p.src (o.srcBytes m (ownRank d o.entry) p) .read ++
    rangeStacks d (ringCtx d n) p.dst (o.dstBytes m p) .write

/-- The pace flag: a stack of the operation is Hot or Critical (R347). -/
def paceFlag (d : Device) (n : Nat) (o : ColOp) : Nat :=
  if (opStacks d n o).any fun k => 2 ≤ d.fld F.DRM_STACK_STATUS_state k then 1 else 0

/-- The pace flag of a packet that belongs to no operation: that of the operations on its group (R347). -/
def groupPace (d : Device) (g : Nat) : Nat :=
  if (mapKeys d.colOps fun n o => o.any fun o => o.entry == g && paceFlag d n o == 1).isEmpty then 0 else 1

/-- Send a control message of a group to a device: SUSPECT, REFORM, REFORM_ACK, COMMIT, ABORT or EXCLUDE. -/
def colControl (g msg epoch peer dstRank : Nat) (args : List Byte) : Eff := .obs fun d =>
  colSendTo g none 0 peer noTag
    (colBody (d.reg .COL_GROUP_KEY g) epoch msg (groupPace d g) 0 0 (ownRank d g) dstRank 0 0 args) []

/-- The packets of one step's data to one rank: 64 KiB of payload each, the last flagged, and one of header only where
there is none (R350). -/
def dataPieces (bs : List Byte) : List (Nat × List Byte × Bool) :=
  let k := max 1 (ceilDiv bs.length 65536)
  (List.range k).map fun i => (i * 65536, (bs.drop (i * 65536)).take 65536, i + 1 == k)

/-- Send what is due in the step to a rank. -/
def colSendData (n : Nat) (o : ColOp) (rank : Nat) (bs : List Byte) : Eff := .obs fun d =>
  .each (dataPieces bs) fun x =>
    colSendTo o.entry (some (ringCtx d n)) (ringLinkDie n) (rankId d o.entry rank) (opTag n o)
      (colBody (d.reg .COL_GROUP_KEY o.entry) (d.fld F.COL_GROUP_epoch o.entry) 2
        (paceFlag d n o + (if x.2.2 then 2 else 0)) o.serial o.step (ownRank d o.entry) rank o.segment x.1 []) x.2.1

/-- Send READY for the step to every rank awaited (R339). -/
def colSendReady (n : Nat) (o : ColOp) : Eff := .obs fun d =>
  .each (colAwaits o (groupSize d o.entry) (ownRank d o.entry)) fun e =>
    colSendTo o.entry (some (ringCtx d n)) (ringLinkDie n) (rankId d o.entry e.1) (opTag n o)
      (colBody (d.reg .COL_GROUP_KEY o.entry) (d.fld F.COL_GROUP_epoch o.entry) 1 (paceFlag d n o) o.serial o.step
        (ownRank d o.entry) e.1 o.segment 0 (readyArgs d n o)) []

/-! ### Ending descriptors of a group (R341, R345, R346) -/

/-- The collective rings of a partition that are enabled. -/
def colRingsOf (d : Device) (p : Nat) : List Nat :=
  (d.listed .DMA_RING_BASE fun v => v % 2 == 1).filter fun n => ringKind n == .col && ringPart d n == some p

/-- The segments that a descriptor has completed: those of the operation in flight where it is that one. -/
def segmentsDone (d : Device) (n index : Nat) : Nat :=
  (((d.colOpsAt n).filter fun o => o.index == index).map (·.segment)).getD 0

/-- End a descriptor with a status, its segments completed kept for the write-back. -/
def colEnd (n index status : Nat) : Eff := .obs fun d => .seq
  (modDesc n index fun x => { x with status := some status, results := [segmentsDone d n index] })
  (.when ((d.colOpsAt n).any fun o => o.index == index) (putColOps n none))

/-- End every in-flight and waiting descriptor of a group with a status. -/
def endGroup (g status : Nat) : Eff := .obs fun d =>
  .each (colRingsOf d (d.fld F.COL_GROUP_partition g)) fun n =>
    .each ((d.ringsAt n).filter fun x => x.status.isNone && x.num 0x1C 2 == (d.colGroupsAt g).index) fun x => colEnd n x.index status

/-- The leader as this member sees it: the lowest rank it does not hold suspect (R344). -/
def leaderOf (d : Device) (g : Nat) : Nat :=
  ((List.range (groupSize d g)).find? fun r => !(d.colGroupsAt g).doubted.contains r).getD 0

/-- Hold a rank suspect for a cause: SUSPECT goes to the leader, or is gathered where that is this member (R345 step 1). -/
def suspectRank (g rank cause : Nat) : Eff := .seq
  (modColGroups g fun e => { e with doubted := if e.doubted.contains rank then e.doubted else e.doubted ++ [rank], forming := true })
  (.obs fun d =>
    let l := leaderOf d g
    if l == ownRank d g then modColGroups g fun e => { e with gathered := e.gathered ++ [(ownRank d g, rank, cause)] }
    else colControl g 3 (d.fld F.COL_GROUP_epoch g) (rankId d g l) l (toLE 2 rank ++ toLE 1 cause))

/-- A member withdraws: its other descriptors on the group end EXCLUDED, and it names itself (R341, R346). -/
def withdraw (g cause : Nat) : Eff := .obs fun d => .all [
  endGroup g 10, setF F.COL_GROUP_excluded g 1, suspectRank g (ownRank d g) cause]

/-- A member's descriptor fails with a status of its own, and the member withdraws with cause 5 (R341). -/
def colFail (n : Nat) (o : ColOp) (status : Nat) : Eff := .seq (colEnd n o.index status) (withdraw o.entry 5)

/-- No link reaches a device any more: every link of the group that its route names is down (R344). -/
def reachLost (d : Device) (id : Nat) : Bool :=
  match routeEntry d 0 id with
  | some w => bit w 62 == 0 && (groupUp d (bits w 19 18 * 24 + bits w 4 0)).isEmpty
  | none => false

/-- Members that no link reaches any more are suspect at once, with cause 3 (R344, R345, R350). -/
def suspectUnreached : Eff := .obs fun d =>
  .each ((d.listed .COL_GROUP fun v => bit v 63 == 1).filter fun g =>
      d.fld F.COL_GROUP_broken g == 0 && d.fld F.COL_GROUP_excluded g == 0) fun g =>
    .each ((List.range (groupSize d g)).filter fun r => r != ownRank d g && !(d.colGroupsAt g).doubted.contains r &&
        reachLost d (rankId d g r)) fun r => suspectRank g r 3

/-! ### Staging (R333, R336) -/

/-- The virtual address and the bytes of the staging of a ring's operation, by its current segment. -/
def stagingSpan (d : Device) (n : Nat) (o : ColOp) : Nat × Nat :=
  ((((d.ringsAt n).find? fun x => x.index == o.index).map (·.num 0x20 8)).getD 0,
    64 * stagingNeed o.op o.algo o.granules (groupSize d o.entry))

/-- What the engine meets as it reads the staged values back: the status its descriptor ends with where they cannot be read or are
poisoned (R341). -/
def stagingFault (d : Device) (n : Nat) (o : ColOp) : Option Nat :=
  match translateRange d (ringCtx d n) (stagingSpan d n o).1 .read (stagingSpan d n o).2 with
  | none => some 1
  | some as => if anyPoison d as then some 3 else none

/-! ### Steps (R339) -/

/-- Every rank the current step exchanges with can be sent to. -/
def stepRoutes (d : Device) (n : Nat) (o : ColOp) : Bool :=
  let c := some (ringCtx d n)
  let g := o.entry
  ((colSends o (groupSize d g) (ownRank d g)).map (·.1) ++ (colAwaits o (groupSize d g) (ownRank d g)).map (·.1)).all
    fun r => canSend d g c (ringLinkDie n) r

/-- A READY of a rank for the current step is held. -/
def readyHeld (d : Device) (o : ColOp) (rank : Nat) : Bool :=
  (d.colGroupsAt o.entry).readies.any fun q =>
    q.serial == o.serial && q.segment == o.segment && q.step == o.step && q.rank == rank

/-- Send to every rank whose READY is held and that was not sent to. -/
def sendDue (n : Nat) : Eff := .obs fun d =>
  match d.colOpsAt n with
  | none => .skip
  | some o =>
    let due := (colSends o (groupSize d o.entry) (ownRank d o.entry)).filter fun e =>
      o.phase == 1 && !o.sentTo.contains e.1 && readyHeld d o e.1
    .seq (.each due fun e => colSendData n o e.1 e.2) (putColOps n (some { o with sentTo := o.sentTo ++ due.map (·.1) }))

/-- The current step is over: everything it awaits has come and everything it sends is sent. -/
def stepOver (d : Device) (o : ColOp) : Bool :=
  o.phase == 1 && (colAwaits o (groupSize d o.entry) (ownRank d o.entry)).all (gotAll o) &&
    (colSends o (groupSize d o.entry) (ownRank d o.entry)).all fun e => o.sentTo.contains e.1

/-- The operation after the current step: the values combined, and the next step or the write-out. -/
def nextStep (d : Device) (o : ColOp) : ColOp :=
  let n := groupSize d o.entry
  { o with
    work := colCombined o n (ownRank d o.entry)
    step := o.step + 1
    phase := if o.step + 1 < colSteps o.op o.algo n then 1 else 2
    sentTo := []
    got := []
    paced := false }

/-- Enter a step: READY is sent to every rank awaited and data to every rank ready; a step that needs neither is over at
once. At most `fuel` steps are passed. -/
def enterStep (n : Nat) : Nat → Eff
  | 0 => .skip
  | fuel + 1 => .obs fun d =>
    match d.colOpsAt n with
    | none => .skip
    | some o => .when (o.phase == 1) <|
      if !stepRoutes d n o then colFail n o 5
      else .all [
        colSendReady n o, sendDue n,
        .obs fun d =>
          match d.colOpsAt n with
          | none => .skip
          | some o => .when (stepOver d o) <|
              match stagingFault d n o with
              | some st => colFail n o st
              | none => .seq (putColOps n (some (nextStep d o))) (enterStep n fuel)]

/-- Go on where the current step may be over. -/
def progress (n : Nat) : Eff := .seq (sendDue n) <| .obs fun d =>
  match d.colOpsAt n with
  | none => .skip
  | some o => .when (stepOver d o) <|
      match stagingFault d n o with
      | some st => colFail n o st
      | none => .seq (putColOps n (some (nextStep d o))) (enterStep n (2 * groupSize d o.entry + 2))

end Sys2Proof.Machine
end

