-- ==== Sys2Proof/Machine/Promenade.lean ====
section
/-! DEFINITION. Port training, the identity memories and the promenade (12_links_and_lines.md R313, R315 to R326, R328). -/

namespace Sys2Proof.Machine

/-! ### Identity memories (R316, R318, R319) -/

/-- The board record in use: none where it is absent or fails its check, which gives the defaults of R316. -/
def boardRecord (d : Device) : Option (List Byte) :=
  if d.board.length == 512 && d.board.take 4 == [0x41, 0x58, 0x42, 0x44] && num d.board 4 1 == 1 &&
    num d.board 0x1FC 4 == crc32c (d.board.take 0x1FC) then some d.board else none

/-- A field of the board record; `dflt` where the defaults are in use. -/
def boardNum (d : Device) (o k dflt : Nat) : Nat :=
  match boardRecord d with
  | some bs => num bs o k
  | none => dflt

/-- The board's role of a port; 15 is unwired. -/
def boardRole (d : Device) (i : Nat) : Nat := if boardNum d (0x20 + i) 1 0xFF ≤ 3 then boardNum d (0x20 + i) 1 0xFF else 15

def boardRoot (d : Device) : Bool := bit (boardNum d 7 1 0) 0 == 1
def boardCoords (d : Device) : Bool := bit (boardNum d 7 1 0) 1 == 1
def boardLine (d : Device) : Nat := boardNum d 8 2 0 % 4096
def boardRound (d : Device) : Nat := boardNum d 0xA 1 0
def roundSize (d : Device) : Nat := boardNum d 0xB 1 0 + 1

/-! ### Sideband masters (R315) -/

/-- Where the identity memory at a 7-bit address stands: its sideband master, and the multiplexer and channel before it, 0 for none. -/
def sidebandKey (master mux channel address : Nat) : Nat := ((master * 128 + mux) * 8 + channel) * 128 + address

/-- The board identity memory and the cold-plate memory. -/
def boardKey : Nat := sidebandKey 0 0 0 0x50
def plateKey : Nat := sidebandKey 0 0 0 0x51

/-- The module of port `i`: on the sideband of its link die, through the multiplexer that the board record names (R315, R316). -/
def moduleKey (d : Device) (i : Nat) : Nat :=
  sidebandKey (1 + i / 24) (boardNum d (0x80 + 2 * i) 1 0 % 128) (boardNum d (0x81 + 2 * i) 1 0 % 8) 0x50

/-- The steward reads the board identity and the cold-plate memory, which answer `board` and `plate`. -/
def readBoard (board plate : List Byte) : Eff := .all [
  putSideband boardKey board, putSideband plateKey plate,
  .obs fun d => .seq (putBoard (d.sidebandAt boardKey)) (putColdPlate (d.sidebandAt plateKey))]

/-! ### Training (R318 to R320) -/

/-- A port begins training with what its module's identity read: nothing for no response, the 256-byte record of a
passive assembly, or the host lanes an active module advertises at 212.5 Gb/s after its first byte (R318, R319). -/
def trainPort (i : Nat) (module : List Byte) : Eff := .obs fun d =>
  let down (m reason : Nat) : Eff := .all [setF F.LNK_PORT_STATUS_module i m, setF F.LNK_PORT_STATUS_state i 3,
    setF F.LNK_PORT_STATUS_reason i reason]
  let train (m : Nat) : Eff := .all [setF F.LNK_PORT_STATUS_module i m, setF F.LNK_PORT_STATUS_state i 1,
    setF F.LNK_PORT_STATUS_reason i 0]
  .seq (.all [
    setF F.LNK_PORT_STATUS_role i (boardRole d i), setF F.LNK_PORT_STATUS_site i (linkSite d i),
    setF F.LNK_PORT_STATUS_spare_used i 0, setF F.LNK_PORT_STATUS_no_spare i 0, putNbrs i none]) <|
  if boardRole d i == 15 then setF F.LNK_PORT_STATUS_state i 0
  else if module.isEmpty then down 0 1
  else if num module 0 1 == 0x41 then
    let kind := num module 5 1
    if num module 0xFC 4 != crc32c (module.take 0xFC) then down 2 6
    else if 2 < num module 0x13 1 then down 2 2
    else .seq (setF F.LNK_PORT_STATUS_loss_class i (num module 0x13 1))
      (if kind == 3 then .seq (setF F.LNK_PORT_STATUS_module i 3) (setF F.LNK_PORT_STATUS_state i 4) else train 2)
  else if num module 1 1 == 9 then train 1
  else if num module 1 1 == 8 then .seq (setF F.LNK_PORT_STATUS_no_spare i 1) (train 1)
  else down 1 2

/-- The steward reads the module of a port, which answers `module`, and the port begins training. -/
def readModule (i : Nat) (module : List Byte) : Eff := .obs fun d =>
  .seq (putSideband (moduleKey d i) module) (.obs fun d => trainPort i (d.sidebandAt (moduleKey d i)))

/-- PORT_TRAINING (R320). -/
def portTraining (i : Nat) (module : List Byte) : Eff := readModule i module

/-- PORT_ATTACH (R328): a cable attached during RUN to a port that is not up. -/
def portAttach (i : Nat) (module : List Byte) : Eff := .obs fun d => .when (!linkUp d i) (readModule i module)

/-- A promenade message to the neighbour over a link: 0 identity, 1 candidate, 2 ASSIGN, 3 answer, 4 DONE, 5 map (log entry 6). -/
def promMessage (i : Nat) (args : List Nat) : Eff := modSent (· ++ [.message 7 i args])

/-- This device's identity goes out over a trained port (R321): device serial, system, board coordinates and whether they are
valid, round size less 1, root flag, port index and port role. -/
def sendIdentity (i : Nat) : Eff := .obs fun d => promMessage i [0, d.reg .LNK_SERIAL 0, boardNum d 0xC 4 0, boardLine d,
  boardRound d, if boardCoords d then 1 else 0, roundSize d - 1, if boardRoot d then 1 else 0, i, boardRole d i]

/-- A port that was not up stays down, for a reason. -/
def portDown (i reason : Nat) : Eff := .seq (setF F.LNK_PORT_STATUS_state i 3) (setF F.LNK_PORT_STATUS_reason i reason)

/-- PORT_TRAIN_DONE (R320): the lanes that failed, of 9 with lane 8 the spare; `inTime` is false where training had not
ended in time. Where none failed, the spare lane takes the place of a lane marked for its eye height (R442 rule 6). -/
def portTrainDone (i : Nat) (failed : List Nat) (inTime : Bool) : Eff := .obs fun d =>
  let noSpare := d.fld F.LNK_PORT_STATUS_no_spare i == 1
  let bad := if failed.isEmpty && !noSpare then (((List.range 8).filter fun l => d.laneMarksAt (i * 16 + l)).take 1)
    else failed.dedup
  .when (d.fld F.LNK_PORT_STATUS_state i == 1) <|
    if !inTime then portDown i 7
    else if 2 ≤ bad.length || (noSpare && bad != []) then portDown i 3
    else .all [
      portUp i,
      modPorts i (fun q => { q with spareBad := bad == [8] }),
      setF F.LNK_PORT_STATUS_spare_used i (if bad != [] && bad != [8] then 1 else 0),
      setF F.LNK_PORT_STATUS_spare_for i (if bad == [8] then 0 else bad.headD 0),
      sendIdentity i]

/-! ### Exchange (R321) -/

/-- Roles that face each other: line-forward and line-back, round-left and round-right. -/
def complementary (a b : Nat) : Bool := (a == 0 && b == 1) || (a == 1 && b == 0) || (a == 2 && b == 3) || (a == 3 && b == 2)

/-- The die that keeps the links to one neighbour: the one with the most, the lower of equals. -/
def bestDie (ls : List Nat) : Nat :=
  let count (x : Nat) : Nat := (ls.filter fun i => i / 24 == x).length
  (List.range 4).foldl (fun best x => if count best < count x then x else best) 0

/-- Links to one neighbour on more than one link die: the others' ports are down with reason 4 (R321). -/
def oneDie (serial : Nat) : Eff := .obs fun d =>
  let ls := (List.range 96).filter fun i => (d.nbrsAt i).any (fun n => n.serial == serial) &&
    (linkUp d i || (d.fld F.LNK_PORT_STATUS_state i == 3 && d.fld F.LNK_PORT_STATUS_reason i == 4))
  .each ls fun i =>
    if i / 24 == bestDie ls then .seq (setF F.LNK_PORT_STATUS_state i 2) (setF F.LNK_PORT_STATUS_reason i 0)
    else .seq (setF F.LNK_PORT_STATUS_state i 3) (setF F.LNK_PORT_STATUS_reason i 4)

/-! ### Election (R322, R326) -/

/-- A promenade message to the neighbour a link leads to, over a link of the group that is up. -/
def groupMessage (i : Nat) (args : List Nat) : Eff := .obs fun d => promMessage (((groupUp d i).head?).getD i) args

/-- One link of each group that is up, its lowest, with the group's role. -/
def groupHeads (d : Device) : List Nat :=
  (List.range 96).filter fun i => linkUp d i && (d.nbrsAt i).isSome && (groupUp d i).head? == some i

/-- A candidate is better: with the root flag, unless flags are ignored, and among equals the lower serial. -/
def betterCandidate (ignore : Bool) (a b : Bool × Nat) : Bool :=
  if a.1 != b.1 && !ignore then a.1 else a.2 < b.2

/-- Flood a candidate over every group but those named. -/
def flood (except : List Nat) (c : Bool × Nat) : Eff := .obs fun d =>
  .each ((groupHeads d).filter fun i => !except.contains i) fun i => promMessage i [1, if c.1 then 1 else 0, c.2]

/-- This device's own candidate. -/
def ownCandidate (d : Device) : Bool × Nat := (boardRoot d, d.reg .LNK_SERIAL 0)

/-- The coordinates an ASSIGN over a port of a role gives: one on along the line, or along the round to the right (R323). -/
def assignCoords (line round size role : Nat) : Nat × Nat :=
  if role == 0 then ((line + 1) % 4096, round) else if role == 1 then ((line + 4095) % 4096, round)
  else (line, (round + 1) % size)

/-- The coordinates of the neighbour over a port of a role, as the walk gives them from this device's own (R323). -/
def nbrCoords (d : Device) (role : Nat) : Nat × Nat :=
  let line := d.fld F.LNK_COORD_line 0
  let round := d.fld F.LNK_COORD_round 0
  if role == 2 then (line, (round + roundSize d - 1) % roundSize d) else assignCoords line round (roundSize d) role

/-- The device ID of the neighbour over a port of a role. -/
def walkedId (d : Device) (role : Nat) : Nat := (nbrCoords d role).1 * 256 + (nbrCoords d role).2

/-- Send ASSIGN to every neighbour group of role line-forward, line-back or round-right (R323 step 2). -/
def sendAssigns : Eff := .obs fun d =>
  let hs := (groupHeads d).filter fun i => d.fld F.LNK_PORT_STATUS_role i != 2
  let line := d.fld F.LNK_COORD_line 0
  let round := d.fld F.LNK_COORD_round 0
  .seq (modProm fun p => { p with asked := hs }) <| .each hs fun i =>
    let c := assignCoords line round (roundSize d) (d.fld F.LNK_PORT_STATUS_role i)
    promMessage i [2, ((d.prom.best.map (·.2)).getD 0), c.1, c.2, d.fld F.LNK_PROM_STATUS_hops 0 + 1]

/-- Take coordinates: the device ID is line × 256 + round, and misplaced where the board's valid ones differ (R323). -/
def takeCoords (line round : Nat) : Eff := .obs fun d => .all [
  setReg .LNK_DEVICE 0 (2 ^ 31 + d.fld F.LNK_DEVICE_root 0 * 2 ^ 30 + line * 256 + round),
  setF F.LNK_COORD_line 0 line, setF F.LNK_COORD_round 0 round, setF F.LNK_COORD_round_size 0 (roundSize d - 1),
  setF F.LNK_COORD_misplaced 0 (if boardCoords d && (boardLine d != line || boardRound d != round) then 1 else 0)]

/-- The links that name this device's group records: the lowest up link of each group, the lowest of one with none up, and
each port that an exchange put down (R321, R324). -/
def recordLinks (d : Device) : List Nat :=
  (List.range 96).filter fun i =>
    if (d.nbrsAt i).isSome then ((groupUp d i).head?).getD (groupName d i) == i
    else d.fld F.LNK_PORT_STATUS_state i == 3 &&
      (d.fld F.LNK_PORT_STATUS_reason i == 4 || d.fld F.LNK_PORT_STATUS_reason i == 5)

/-- A group record: lowest port, links up, role, reason of a down group, neighbour's ID and lowest port (R324). -/
def groupRecord (d : Device) (i : Nat) : List Nat :=
  let n := (groupUp d i).length
  let role := d.fld F.LNK_PORT_STATUS_role i
  [i, n, role, if n == 0 then d.fld F.LNK_PORT_STATUS_reason i else 0, if n == 0 then 0xFFFFF else walkedId d role,
    ((groupAll d i).filterMap fun j => (d.nbrsAt j).map (·.port)).foldl min (d.fld F.LNK_PORT_NBR_far_port i)]

/-- The device record of this device (R324). -/
def ownRecord (d : Device) : TopoDev :=
  let anyDown := (List.range 96).any fun i => d.fld F.LNK_PORT_STATUS_state i == 3
  { id := d.fld F.LNK_DEVICE_id 0, serial := d.reg .LNK_SERIAL 0, line := d.fld F.LNK_COORD_line 0,
    round := d.fld F.LNK_COORD_round 0, roundSize := roundSize d - 1,
    flags := d.fld F.LNK_DEVICE_root 0 + 2 * d.fld F.LNK_COORD_misplaced 0 + 4 * d.fld F.LNK_COORD_conflict 0 +
      (if anyDown then 8 else 0),
    hops := d.fld F.LNK_PROM_STATUS_hops 0, parent := (d.prom.parent.map fun i => walkedId d (d.fld F.LNK_PORT_STATUS_role i)).getD 0,
    groups := (recordLinks d).map (groupRecord d) }

/-- Device records of the map's layout, each naming its group records by the first's number (R324). -/
def devBytes (xs : List TopoDev) : List Byte :=
  (xs.foldl (fun (acc : List Byte × Nat) x =>
    (acc.1 ++ toLE 4 x.id ++ toLE 8 x.serial ++ toLE 2 x.line ++ toLE 1 x.round ++ toLE 1 x.roundSize ++ toLE 2 x.flags ++
      toLE 2 x.hops ++ toLE 4 x.parent ++ toLE 4 acc.2 ++ toLE 2 x.groups.length ++ toLE 2 0, acc.2 + x.groups.length)) ([], 0)).1

/-- Their group records (R324). -/
def grpBytes (xs : List TopoDev) : List Byte :=
  xs.flatMap fun x => x.groups.flatMap fun g =>
    toLE 1 (g.getD 0 0) ++ toLE 1 (g.getD 1 0) ++ toLE 1 (g.getD 2 0) ++ toLE 1 (g.getD 3 0) ++ toLE 4 (g.getD 4 0) ++
      toLE 1 (g.getD 5 0) ++ List.replicate 7 0

/-- Records as a message carries them: how many devices, then the bytes of their records and of their group records. -/
def recordArgs (xs : List TopoDev) : List Nat := xs.length :: (devBytes xs ++ grpBytes xs).map (·.toNat)

/-- Nothing more is to come from a group: no link of it is up, so that the walk does not wait for it (R325). -/
def groupDead (d : Device) (g : Nat) : Bool := (groupUp d g).isEmpty

/-- Once every ASSIGN is answered and every child is done, DONE goes to the parent with the records of the subtree; the
root then holds the map (R324). A group that has failed is not waited for (R325). -/
def checkDone : Eff := .obs fun d =>
  let p := d.prom
  .when (p.asked.all (groupDead d) && p.children.all (fun g => p.done.contains g || groupDead d g) &&
      d.fld F.LNK_PROM_STATUS_state 0 == 4) <| .seq
    (modProm fun p => { p with subtree := ownRecord d :: p.subtree })
    (match p.parent with
      | some i => .seq (groupMessage i (4 :: recordArgs (ownRecord d :: p.subtree))) (setF F.LNK_PROM_STATUS_state 0 5)
      | none => setF F.LNK_PROM_STATUS_state 0 5)

/-- A new walk takes in again what a conflict left out of the last one (R326). -/
def readmit : Eff := .obs fun d => .each ((List.range 96).filter fun i =>
    d.fld F.LNK_PORT_STATUS_state i == 4 && d.fld F.LNK_PORT_STATUS_reason i == 9) fun i =>
  .seq (setF F.LNK_PORT_STATUS_state i 2) (setF F.LNK_PORT_STATUS_reason i 0)

/-- Begin the walk as root (R323 step 1). -/
def beginWalk : Eff := .all [
  readmit,
  setF F.LNK_DEVICE_root 0 1,
  .obs fun d => if boardCoords d then takeCoords (boardLine d) (boardRound d) else takeCoords 0 0,
  setF F.LNK_PROM_STATUS_state 0 4, setF F.LNK_PROM_STATUS_hops 0 0, setF F.LNK_COORD_conflict 0 0,
  modProm fun p => { p with parent := none, children := [], done := [], subtree := [] },
  sendAssigns, checkDone]

/-- This device floods its own candidate; where it holds that as best, it begins the walk at once (R322). -/
def startElection : Eff := .obs fun d =>
  let own := ownCandidate d
  let mine := match d.prom.best with
    | none => true
    | some b => betterCandidate d.prom.ignoreRoot own b || b == own
  .all [flood [] own, .when (d.fld F.LNK_PROM_STATUS_state 0 != 7) (setF F.LNK_PROM_STATUS_state 0 3),
    .when mine (.seq (modProm fun p => { p with best := some own }) beginWalk)]

/-- CANDIDATE_FLOOD (R322): a candidate received over a link is adopted and flooded on where it is better than the best
seen; with no link it is this device's own. -/
def candidateFlood (i : Option Nat) (root : Bool) (serial : Nat) : Eff := .obs fun d =>
  match i with
  | none => startElection
  | some i =>
    let better := match d.prom.best with
      | none => true
      | some b => betterCandidate d.prom.ignoreRoot (root, serial) b
    .when (linkUp d i && better) <| .all [
      modProm (fun p => { p with best := some (root, serial), parent := none, asked := [], children := [], done := [], subtree := [] }),
      setF F.LNK_DEVICE_root 0 0,
      .when (d.fld F.LNK_PROM_STATUS_state 0 != 7) (setF F.LNK_PROM_STATUS_state 0 3),
      flood [((groupUp d i).head?).getD i] (root, serial)]

/-- The promenade runs again on this device (R326): it floods its own candidate and the best it has seen, and as root it walks (log
entry 138). -/
def walkAgain : Eff := .obs fun d => .seq startElection (.each d.prom.best.toList (flood []))

/-- IDENTITY_EXCHANGE (R321): what the neighbour over a trained port says of itself. A port that is back from REST with a different
neighbour has the promenade run again (R326). -/
def identityExchange (i serial system line round size port role : Nat) (coords root : Bool) : Eff := .obs fun d =>
  .when (linkUp d i) <| .seq (setF F.LNK_PORT_NBR_far_port i port) <|
    if !complementary (d.fld F.LNK_PORT_STATUS_role i) role then portDown i 4
    else if system != boardNum d 0xC 4 0 then portDown i 5
    else .all [
      modPorts i (fun q => { q with woke := false }),
      putNbrs i (some {
        serial := serial, system := system, line := line, round := round, roundSize := size,
        coords := coords, root := root, port := port, role := role }),
      oneDie serial,
      .obs (fun d => setF F.LNK_PORT_NBR_nbr_id i ((nbrId d i).getD 0)),
      .when ((d.portsAt i).woke && (d.nbrsAt i).any fun n => n.serial != serial) walkAgain]

/-! ### The walk (R323) -/

/-- Leave both groups of a conflict out of routes, with reason 9 (R323 step 5). -/
def excludeGroup (i : Nat) : Eff := .obs fun d => .each (groupAll d i) fun j =>
  .seq (setF F.LNK_PORT_STATUS_state j 4) (setF F.LNK_PORT_STATUS_reason j 9)

/-- ASSIGN (R323): from the walk of root `serial`, with coordinates and hops from the root. The first is accepted, and the
walk goes on; a later one is answered KNOWN. One that comes after the last walk is done begins a new walk (R326). -/
def assign (i serial line round hops : Nat) : Eff := .obs fun d =>
  let mine := (d.prom.best.map (·.2)) == some serial && d.fld F.LNK_DEVICE_root 0 == 0
  let walking := d.fld F.LNK_PROM_STATUS_state 0 == 4 || d.fld F.LNK_PROM_STATUS_state 0 == 5
  let isRoot := (d.prom.best.map (·.2)) == some serial && d.fld F.LNK_DEVICE_root 0 == 1
  let conflict := d.fld F.LNK_COORD_line 0 != line || d.fld F.LNK_COORD_round 0 != round
  .when (linkUp d i) <|
    if mine && !walking then .all [
      promMessage i [3, 1, 0], readmit,
      takeCoords line round, setF F.LNK_COORD_conflict 0 0,
      setF F.LNK_PROM_STATUS_state 0 4, setF F.LNK_PROM_STATUS_hops 0 hops, setF F.LNK_PROM_STATUS_devices 0 0,
      modProm fun p => { p with parent := some (groupName d i), children := [], done := [], subtree := [] },
      sendAssigns, checkDone]
    else .when (mine || isRoot) <| .seq (promMessage i [3, 0, if conflict then 1 else 0]) <|
      .when conflict (.all [setF F.LNK_COORD_conflict 0 1, excludeGroup i, checkDone])

/-- ASSIGN_ANSWER (R323, R324): ACCEPTED makes the group's neighbour a child; a neighbour that met a conflict leaves its group out of
routes, and so does this device (R323 step 5). -/
def assignAnswer (i : Nat) (accepted conflict : Bool) : Eff := .obs fun d =>
  let g := ((d.prom.asked.find? fun j => (groupAll d i).contains j)).getD 96
  .when (g < 96) <| .all [
    modProm (fun p => { p with asked := p.asked.filter (· != g), children := if accepted then p.children ++ [g] else p.children }),
    .when conflict (excludeGroup g), checkDone]

/-! ### The map (R324) -/

/-- A device record with its group records, from the map's layout. -/
def topoDev (devs groups : List Byte) (k : Nat) : TopoDev :=
  let r := (devs.drop (32 * k)).take 32
  let first := num r 0x18 4
  { id := num r 0 4, serial := num r 4 8, line := num r 0xC 2, round := num r 0xE 1, roundSize := num r 0xF 1,
    flags := num r 0x10 2, hops := num r 0x12 2, parent := num r 0x14 4,
    groups := (List.range (num r 0x1C 2)).map fun j =>
      let g := (groups.drop (16 * (first + j))).take 16
      [num g 0 1, num g 1 1, num g 2 1, num g 3 1, num g 4 4, num g 8 1] }

/-- The device records of a map. -/
def topoDevs (devs groups : List Byte) : List TopoDev := (List.range (devs.length / 32)).map (topoDev devs groups)

/-- PROMENADE_DONE (R324): a child's DONE with the records of its subtree. -/
def promenadeDone (i : Nat) (devs groups : List Byte) : Eff := .obs fun d =>
  match d.prom.children.find? fun j => (groupAll d i).contains j with
  | none => .skip
  | some g => .when (!d.prom.done.contains g) <| .seq
      (modProm fun p => { p with done := p.done ++ [g], subtree := p.subtree ++ topoDevs devs groups }) checkDone

/-- A device record placed in ID order. -/
def placeDev (x : TopoDev) : List TopoDev → List TopoDev
  | [] => [x]
  | y :: ys => if x.id < y.id then x :: y :: ys else if x.id == y.id then x :: ys else y :: placeDev x ys

/-- Device records in ID order. -/
def sortDevs (xs : List TopoDev) : List TopoDev := xs.foldl (fun acc x => placeDev x acc) []

/-- The stored map: header, device records in ID order, group records (R324). -/
def mapBytes (xs : List TopoDev) (root us : Nat) : List Byte :=
  let head := [0x41, 0x58, 0x54, 0x50] ++ toLE 4 1 ++ toLE 4 xs.length ++ toLE 4 root ++
    toLE 2 ((xs.map (·.hops)).foldl max 0) ++ toLE 2 0 ++ toLE 4 us
  padTo 64 head ++ devBytes xs ++ grpBytes xs

/-- The neighbours of round-left groups, which carry no ASSIGN, are checked against the map: one whose coordinates are not those that
its place gives is left out of routes (R323). -/
def checkLeft : Eff := .obs fun d =>
  .each ((groupHeads d).filter fun i => d.fld F.LNK_PORT_STATUS_role i == 2) fun i =>
    match d.topo.find? fun t => (d.nbrsAt i).any fun n => n.serial == t.serial with
    | some t => .when ((t.line, t.round) != nbrCoords d 2) (excludeGroup i)
    | none => .skip

/-! ### Routing tables (R312, R313) -/

/-- How many lines the map holds one after another from line `l` in a direction. -/
def lineRun (xs : List TopoDev) (step : Nat) : Nat → Nat → Nat
  | 0, _ => 0
  | fuel + 1, l =>
    let m := (l + step) % 4096
    if xs.any fun x => x.line == m then lineRun xs step fuel m + 1 else 0

/-- A routing-table entry to a group, by the group's lowest link (R312). -/
def groupEntry (lo hi i : Nat) : Nat := 2 ^ 63 + lo * 2 ^ 40 + hi * 2 ^ 20 + i / 24 * 2 ^ 18 + i % 24

/-- The lines `lo` to `lo + n - 1`, modulo 4,096, as ranges of device IDs. -/
def lineRanges (lo n : Nat) : List (Nat × Nat) :=
  if n == 0 then [] else if lo + n ≤ 4096 then [(lo * 256, (lo + n) * 256 - 1)]
  else [(lo * 256, 4096 * 256 - 1), (0, (lo + n - 4096) * 256 - 1)]

/-- The routing table of a device: itself, the lines behind and ahead, then its round in dimension order; a destination
directly across the wrap link takes that link (R313). -/
def routeTable (xs : List TopoDev) (l r size : Nat) (role : Nat → Option Nat) : List Nat :=
  let via (k : Nat) (rs : List (Nat × Nat)) : List Nat :=
    match role k with
    | some i => rs.map fun e => groupEntry e.1 e.2 i
    | none => []
  let back := lineRun xs 4095 4095 l
  let ahead := min (lineRun xs 1 4095 l) (4095 - back)
  let id := l * 256 + r
  let last := l * 256 + size - 1
  [2 ^ 63 + 2 ^ 62 + id * 2 ^ 40 + id * 2 ^ 20] ++
  via 1 (lineRanges ((l + 4096 - back) % 4096) back) ++ via 0 (lineRanges ((l + 1) % 4096) ahead) ++
  (if size ≤ 1 then [] else
    (if r == 0 then via 2 [(last, last)] else []) ++ (if r == size - 1 then via 3 [(l * 256, l * 256)] else []) ++
    (if r == 0 then [] else via 2 [(l * 256, id - 1)]) ++ (if r == size - 1 then [] else via 3 [(id + 1, last)]))

/-- Load the routing table of every link die from the map (R324). -/
def buildRoutes : Eff := .obs fun d =>
  let role (k : Nat) : Option Nat := (groupHeads d).find? fun i => d.fld F.LNK_PORT_STATUS_role i == k
  let t := routeTable d.topo (d.fld F.LNK_COORD_line 0) (d.fld F.LNK_COORD_round 0) (roundSize d)
    role
  .seq (.upd (.routesDrop fun _ => true)) <| .each (List.range 4) fun die =>
    .each ((List.range t.length).zip t) fun e => putRoutes (die * 4096 + e.1) (BitVec.ofNat 64 e.2)

/-- MAP_BROADCAST (R324): the map, from the parent over a link, or at the root its own; it goes on down the tree, is stored,
and the tables are built. `us` and `walk` are the times the header and LNK_PROM_TIME report. -/
def mapBroadcast (i : Option Nat) (devs groups : List Byte) (us walk : Nat) : Eff := .obs fun d =>
  let ready := match i with
    | some i => (d.prom.parent.any fun j => (groupAll d i).contains j)
    | none => d.prom.parent.isNone && d.fld F.LNK_DEVICE_root 0 == 1
  let xs := sortDevs (if i.isSome then topoDevs devs groups else d.prom.subtree)
  let root := ((xs.find? fun x => bit x.flags 0 == 1).map (·.id)).getD 0
  let bs := mapBytes xs root us
  let base := d.fld F.LNK_TOPO_BASE_base 0 * 4096
  .when (ready && d.fld F.LNK_PROM_STATUS_state 0 == 5) <| .all [
    putTopo xs, checkLeft,
    .each d.prom.children (fun j => groupMessage j (5 :: bs.map (·.toNat))),
    .when (base != 0) (.seq (wrBytes base bs) (setF F.LNK_TOPO_BASE_size_kib 0 (ceilDiv bs.length 1024))),
    .obs fun d => .each (List.range 96) fun j => .when (d.nbrsAt j).isSome (setF F.LNK_PORT_NBR_nbr_id j ((nbrId d j).getD 0)),
    buildRoutes,
    setF F.LNK_PROM_STATUS_state 0 6,
    .when i.isNone (.seq (setF F.LNK_PROM_STATUS_devices 0 xs.length)
      (setF F.LNK_PROM_STATUS_hops 0 ((xs.map (·.hops)).foldl max 0))),
    setF F.LNK_PROM_TIME_walk 0 (min 65535 (walk / 4)),
    setF F.LNK_PROM_TIME_done_ms 0 (min 65535 ((d.reg .CLK_AON_CNT 0 - d.prom.since) / 25000))]

/-- REWALK (R326): a write of LNK_PROM_CTRL.rewalk at the root walks again. -/
def rewalk (rq v : Nat) : Eff := writeAct rq .LNK_PROM_CTRL 0 v 31 <| .obs fun d =>
  .when (bit v 31 == 1 && d.fld F.LNK_DEVICE_root 0 == 1) beginWalk

/-- ROOT_LOST_TIMEOUT (R326, R328): no ASSIGN 600 ms after the exchange, or no map of a walk whose root has failed: root lost, which
the device reports, and the flood begins again with every root flag ignored. The walk of the best serial follows, this device's own
with its next CANDIDATE_FLOOD. -/
def rootLostTimeout : Eff := .obs fun d =>
  .when (d.fld F.LNK_DEVICE_root 0 == 0 && d.fld F.LNK_PROM_STATUS_state 0 ≤ 5) <| .all [
    setF F.LNK_PROM_STATUS_state 0 7,
    modProm (fun p => { p with ignoreRoot := true, best := some (ownCandidate d), parent := none, asked := [], children := [],
                               done := [], subtree := [] }),
    flood [] (ownCandidate d)]

end Sys2Proof.Machine
end

