-- ==== Sys2Proof/Machine/Reform.lean ====
section
/-! DEFINITION. The commands of collectives: a descriptor's start, stage-in, steps, write-out and completion
(13_collectives.md R333 to R343), and re-formation, abort and exclusion (R344 to R346, R350). -/

namespace Sys2Proof.Machine

/-! ### Descriptors (R333, R334, R336, R343) -/

/-- The op a descriptor's algorithm runs: its own, or the inner op of a fused one. -/
def innerOp (x : Desc) : Nat := if bits x.ctrl 30 28 == 5 then bits x.ctrl 22 20 else bits x.ctrl 30 28

/-- A collective descriptor that breaks R333, R334 or R343 whatever its group. -/
def badColDesc (x : Desc) : Bool :=
  let op := bits x.ctrl 30 28
  let dtype := bits x.ctrl 27 26
  let reduce := bits x.ctrl 25 24
  let big (a : Nat) : Bool := 72057594037927936 ≤ a
  bits x.ctrl 19 0 != 0 || 6 ≤ op || reduce == 3 || bits x.cue 8 0 != 0 || x.num 0x20 8 % 64 != 0 ||
  big (x.num 8 8) || big (x.num 0x10 8) || big (x.num 0x20 8) ||
  (innerOp x != 3 && x.num 0x1E 2 != 0) ||
  (if op == 5 then dtype != 0 || reduce != 0 || x.num 0x10 8 != 0 || (innerOp x != 0 && innerOp x != 3) ||
      x.num 4 4 == 0 || 64 < x.num 4 4
    else bits x.ctrl 22 20 != 0 || (reducing op && dtype == 3))

/-- The group entry of a ring's descriptor. -/
def descGroup (d : Device) (n : Nat) (x : Desc) : Option Nat := (ringPart d n).bind fun p => groupEntryOf d p (x.num 0x1C 2)

/-- The descriptor a collective ring has just taken: one that breaks the rules ends BAD_DESCRIPTOR, and the member
withdraws from the group it names (R334, R341). -/
def colTaken (n : Nat) : Eff := .obs fun d =>
  match (d.ringsAt n).getLast? with
  | none => .skip
  | some x =>
    let g := descGroup d n x
    .when (x.status.isNone && (badColDesc x || g.isNone)) <| .seq (colEnd n x.index 7)
      (match g with
        | some g => withdraw g 5
        | none => .skip)

/-- An entry of a fused descriptor's table (R343). -/
def fusedEntry (bs : List Byte) : ColPart :=
  { count := num bs 0 4, dtype := num bs 4 1, reduce := num bs 5 1, src := num bs 8 8, dst := num bs 0x10 8 }

/-- A fused entry breaks R343. -/
def badFused (inner : Nat) (bs : List Byte) : Bool :=
  let e := fusedEntry bs
  e.count == 0 || 3 < e.dtype || 2 < e.reduce || (inner == 3 && e.reduce != 0) || (inner == 0 && e.dtype == 3) ||
  num bs 6 2 != 0 || num bs 0x18 8 != 0 || 72057594037927936 ≤ e.src || 72057594037927936 ≤ e.dst

/-- The operands of a descriptor: one, or those of its entry table; else the status it ends with. -/
def colParts (d : Device) (n : Nat) (x : Desc) : Except Nat (List ColPart) :=
  if bits x.ctrl 30 28 != 5 then
    .ok [{ count := x.num 4 4, dtype := bits x.ctrl 27 26, reduce := bits x.ctrl 25 24, src := x.num 8 8, dst := x.num 0x10 8 }]
  else
    match translateRange d (ringCtx d n) (x.num 8 8) .read (32 * x.num 4 4) with
    | none => .error 1
    | some as =>
      if anyPoison d as then .error 3
      else
        let rows := (List.range (x.num 4 4)).map fun i => ((d.bytesAt as).drop (32 * i)).take 32
        let ps := rows.map fusedEntry
        if rows.any (badFused (innerOp x)) || 262144 < (ps.map (·.granules)).sum then .error 7 else .ok ps

/-- Start the oldest descriptor of a ring that has no status, where its op is `op` (R334): BROKEN and excluded groups end
it at once, and a group that is re-forming makes it wait. -/
def colStart (n op : Nat) : Eff := .obs fun d =>
  match (d.ringsAt n).findIdx? (·.status.isNone), d.colOpsAt n with
  | some i, none =>
    let x := (d.ringsAt n).getD i {}
    let live := ringKind n == .col && ringServed d n && (ringState d n == 2 || ringState d n == 3)
    .when (live && bits x.ctrl 30 28 == op && (bit x.ctrl 23 == 0 || i == 0)) <|
      match descGroup d n x with
      | none => colEnd n x.index 7
      | some g =>
        let e := d.colGroupsAt g
        let m := groupSize d g
        if d.fld F.COL_GROUP_broken g == 1 then colEnd n x.index 9
        else if d.fld F.COL_GROUP_excluded g == 1 then colEnd n x.index 10
        else if e.forming then .skip
        else
          match colParts d n x with
          | .error st => .seq (colEnd n x.index st) (withdraw g 5)
          | .ok ps =>
            let inner := innerOp x
            let algo := colAlgo inner (d.fld F.COL_GROUP_algorithm g)
            let o : ColOp := {
              index := x.index, entry := g, serial := e.serial, op := inner, algo := algo, root := x.num 0x1E 2,
              parts := ps, seg := x.num 0x2C 4, total := (ps.map (·.granules)).sum }
            let granules := if op == 5 then o.total else o.granules
            if m ≤ o.root || x.num 0x28 4 < 64 * stagingNeed inner algo granules m then
              .seq (colEnd n x.index 7) (withdraw g 5)
            else .seq (modColGroups g fun e => { e with serial := e.serial + 1 }) (putColOps n (some o))
  | _, _ => .skip

/-! ### Stage-in and write-out (R339, R347) -/

/-- The operand and the granule within it that granule `g` of the whole operation is. -/
def partPlace : List ColPart → Nat → ColPart × Nat
  | [], _ => ({}, 0)
  | p :: ps, g => if g < p.granules then (p, g) else partPlace ps (g - p.granules)

/-- The bytes of an operand in its granule `k`. -/
def granuleSize (p : ColPart) (k : Nat) : Nat := min 64 (p.count * colSize p.dtype - 64 * k)

/-- The virtual addresses and lengths a segment reads, granule by granule; all-to-all reads a segment of every block. -/
def segmentReads (o : ColOp) (n r : Nat) : List (Nat × Nat) :=
  let g0 := o.segment * o.seg
  let rows (off : Nat) : List (Nat × Nat) := (List.range o.granules).map fun i =>
    let (p, k) := partPlace o.parts (g0 + i)
    (p.src + off + 64 * k, granuleSize p k)
  if o.op == 4 then
    (List.range n).flatMap fun b => rows (b * ((o.parts.headD {}).count * colSize (o.parts.headD {}).dtype))
  else if o.op == 3 && r != o.root then []
  else rows 0

/-- The virtual addresses and bytes a segment writes (R334): positions beyond count are left out. -/
def segmentWrites (o : ColOp) (n r : Nat) : List (Nat × List Byte) :=
  let g0 := o.segment * o.seg
  let put (off first : Nat) (bs : List Byte) : List (Nat × List Byte) := (List.range (bs.length / 64)).map fun i =>
    let (p, k) := partPlace o.parts (first + i)
    (p.dst + off + 64 * k, ((bs.drop (64 * i)).take 64).take (granuleSize p k))
  let block := (o.parts.headD {}).count * colSize (o.parts.headD {}).dtype
  if o.op == 2 || o.op == 4 then (List.range n).flatMap fun b => put (b * block) g0 (o.item b)
  else if o.op == 1 then
    let before := ((List.range o.segment).map fun s =>
      let g := min o.seg (o.total - s * o.seg)
      chunkStart g n (r + 1) - chunkStart g n r).sum
    let first := chunkGranule o n r
    (put 0 first (o.item r)).map fun e => (e.1 + 64 * before - 64 * first, e.2)
  else put 0 g0 o.work.flatten

/-- A part of some virtual ranges lies in a stack that is Critical (R245). -/
def readsCritical (d : Device) (c : Nat) (rs : List (Nat × Nat)) (k : Kind) : Bool :=
  rs.any fun e => (rangeStacks d c e.1 e.2 k).any fun s => d.fld F.DRM_STACK_STATUS_state s == 3

/-- A part of some virtual ranges is held. -/
def readsHeld (d : Device) (c : Nat) (rs : List (Nat × Nat)) (k : Kind) : Bool :=
  rs.any fun e => (translateRange d c e.1 k e.2).any (agentHeld d (ctxPart d c))

/-- The staging bytes of a segment take values the spec does not give (log entry 25): free ones. -/
def fillStaging (as : List Nat) : Eff := .obs fun d =>
  .seq (putFree (d.free + as.length)) <|
    store as ((List.range as.length).map fun i => (Config.freeWord (d.free + i)).setWidth 8)

/-- STAGE_IN_DONE (R339 step 1, R347): the segment's source is read into staging and its steps begin; a Critical stack
withdraws the member, and one that is held for another reason is waited for. Staging that is no tier 0 window is BAD_DESCRIPTOR
(R333). -/
def stageInDone (n : Nat) (fixed lost : List Nat) : Eff := .obs fun d =>
  match d.colOpsAt n with
  | none => .skip
  | some o =>
    let c := ringCtx d n
    let m := groupSize d o.entry
    let r := ownRank d o.entry
    let rs := segmentReads o m r
    let staging (k : Kind) : Option (List Nat) := translateRange d c (stagingSpan d n o).1 k (stagingSpan d n o).2
    .when (o.phase == 0) <|
      if readsCritical d c rs .read then .seq (colEnd n o.index 10) (withdraw o.entry 2)
      else if readsHeld d c rs .read || readsHeld d c [stagingSpan d n o] .write then .skip
      else
        match rs.mapM fun e => translateRange d c e.1 .read e.2, staging .read, staging .write with
        | none, _, _ => colFail n o 1
        | some _, none, _ => colFail n o 1
        | some _, some _, none => colFail n o 2
        | some ass, some _, some st => if !st.all inFloor then colFail n o 7 else .seq (agentReads n ass.flatten fixed lost) <| .obs fun d =>
          if anyPoison d ass.flatten then colFail n o 3
          else
            let o1 := { o with input := (ass.flatMap fun as => padTo 64 (d.bytesAt as)) }
            let o2 := { o1 with
              work := colInitial o1 m r
              phase := if colSteps o.op o.algo m == 0 then 2 else 1
              step := 0
              sentTo := []
              got := [] }
            .all [fillStaging st, putColOps n (some o2), enterStep n (2 * m + 2)]

/-- COL_WRITE_OUT (R339 step 3, R347): the staged results are read back and go to dst, waiting while a stack is Critical; then the
next segment begins, or the descriptor is done. -/
def colWriteOut (n : Nat) (fixed lost : List Nat) : Eff := .obs fun d =>
  match d.colOpsAt n with
  | none => .skip
  | some o =>
    let c := ringCtx d n
    let ws := segmentWrites o (groupSize d o.entry) (ownRank d o.entry)
    let staged := (translateRange d c (stagingSpan d n o).1 .read (stagingSpan d n o).2).getD []
    .when (o.phase == 2 && !readsHeld d c (ws.map fun e => (e.1, e.2.length)) .write) <| .seq (agentReads n staged fixed lost) <|
      .obs fun d => match stagingFault d n o, ws.mapM fun e => translateRange d c e.1 .write e.2.length with
      | some st, _ => colFail n o st
      | none, none => colFail n o 2
      | none, some ass =>
        if !writable ass.flatten then colFail n o 2
        else .seq (.each (ass.zip (ws.map (·.2))) fun e => store e.1 e.2) <|
          let o' := { o with segment := o.segment + 1, phase := 0, step := 0, input := [], work := [], sentTo := [], got := [] }
          if o'.segment < o.segments then putColOps n (some o')
          else .all [putColOps n (some o'), colEnd n o.index 0, addWrap F.COL_GROUP_STAT_completed o.entry 1]

/-- Bytes 0x30 to 0x3F of a completed collective descriptor (R333). -/
def colTail (d : Device) (n : Nat) (x : Desc) (status : Nat) : List Byte :=
  let g := descGroup d n x
  let at_ (f : Nat → Nat) : Nat := (g.map f).getD 0
  toLE 2 (at_ (d.fld F.COL_GROUP_epoch)) ++ toLE 2 (at_ (ownRank d)) ++ toLE 2 status ++ toLE 2 0 ++
    toLE 4 (at_ (groupSize d)) ++ toLE 4 (x.results.headD 0)

/-- COL_COMPLETE (R341). -/
def colComplete (n : Nat) : Eff := .obs fun d =>
  match d.ringsAt n with
  | x :: _ =>
    match x.status with
    | some st => .when (ringKind n == .col && ringState d n != 4 && !(descAddrs d n x.index .write).any (agentHeld d (ringPart d n)))
        (completeDesc n x st (colTail d n x st) (signalDesc n x))
    | none => .skip
  | [] => .skip

/-- What follows when links have gone down: the promenade no longer waits for a group that is dead (R325), and members that no link
reaches are suspect (R344). -/
def linksChanged : Eff := .seq checkDone suspectUnreached

/-! ### Packets received (R331, R339, R348) -/

/-- Fields of a collective packet's body. -/
def bodyKey (p : Packet) : Nat := num p.body 0 4
def bodyEpoch (p : Packet) : Nat := num p.body 4 2
def bodyMsg (p : Packet) : Nat := num p.body 6 1
def bodyFlags (p : Packet) : Nat := num p.body 7 1
def bodySerial (p : Packet) : Nat := num p.body 8 4
def bodyStep (p : Packet) : Nat := num p.body 0xC 4
def bodySrcRank (p : Packet) : Nat := num p.body 0x10 2
def bodySegment (p : Packet) : Nat := num p.body 0x14 4
def bodyOffset (p : Packet) : Nat := num p.body 0x18 8
def bodyArgs (p : Packet) : List Byte := p.body.drop 0x20

/-- The next epoch (R344). -/
def nextEpoch (e : Nat) : Nat := (e + 1) % 65536

/-- A collective packet with message `msg`, checked as a write under R310 and then by its body (R331): `act` gets the
entry and the packet. -/
def colPacket (i seq msg : Nat) (bs : List Byte) (act : Nat → Packet → Eff) : Eff :=
  packetIn i seq bs (fun d p => forMe i 5 d p && bodyMsg p == msg) fun p => checkFlow i 2 false p fun d data => .inr <|
    let entry := (ctxPart d p.dstCtx).bind fun q => (partEntries d q).find? fun e =>
      d.fld F.COL_GROUP_valid e == 1 && d.reg .COL_GROUP_KEY e == bodyKey p
    match entry with
    | none => addSat F.LNK_DROPS_epoch 0 1
    | some g =>
      let epoch := d.fld F.COL_GROUP_epoch g
      let wanted := if msg == 4 || msg == 7 then nextEpoch epoch else epoch
      if bodyEpoch p == wanted && (d.colGroupsAt g).current.contains p.src then act g { p with data := data }
      else addSat F.COL_GROUP_STAT_stale g 1

/-- The ring whose operation on a group has a serial. -/
def opRing (d : Device) (g serial : Nat) : Option Nat :=
  (colRingsOf d (d.fld F.COL_GROUP_partition g)).find? fun n => (d.colOpsAt n).any fun o => o.entry == g && o.serial == serial

/-- The pace flag of a packet from a rank awaited in the step (R340, R347). -/
def notePace (n : Nat) (p : Packet) : Eff := .obs fun d =>
  modColOps n fun o => o.map fun o =>
    if bit (bodyFlags p) 0 == 1 && (colAwaits o (groupSize d o.entry) (ownRank d o.entry)).any (fun e => e.1 == bodySrcRank p)
      then { o with paced := true } else o

/-- The held READYs of a serial all agree with the descriptor that was issued under it (R339). -/
def mismatched (d : Device) (n : Nat) (o : ColOp) : Bool :=
  (d.colGroupsAt o.entry).readies.any fun q => q.serial == o.serial && q.args != readyArgs d n o

/-- A READY that differs ends the descriptor with MISMATCH, and the member withdraws with cause 5; else the ring goes on. -/
def checkReady (n : Nat) : Eff := .obs fun d =>
  match d.colOpsAt n with
  | none => .skip
  | some o => if mismatched d n o then colFail n o 11 else progress n

/-- COL_READY (R339): a READY is held; it permits sending the step's data to its rank. -/
def colReady (i seq : Nat) (bs : List Byte) : Eff := colPacket i seq 1 bs fun g p => .seq
  (modColGroups g fun e => { e with
    readies := e.readies ++ [⟨bodySerial p, bodySegment p, bodyStep p, bodySrcRank p, (bodyArgs p).take 14⟩] })
  (.obs fun d =>
    match opRing d g (bodySerial p) with
    | some n => .seq (notePace n p) (checkReady n)
    | none => .skip)

/-- COL_DATA (R339): data of the current step is taken in. -/
def colData (i seq : Nat) (bs : List Byte) : Eff := colPacket i seq 2 bs fun g p => .obs fun d =>
  match opRing d g (bodySerial p) with
  | none => .skip
  | some n => .seq (notePace n p) <| .seq
      (modColOps n fun o => o.map fun o =>
        if o.phase == 1 && o.segment == bodySegment p && o.step == bodyStep p then
          { o with got := o.got ++ [(bodySrcRank p, bodyOffset p, p.data, bit (bodyFlags p) 1 == 1)] } else o)
      (progress n)

/-- Start a descriptor with op `op` (R334), and check it against the READYs held for its serial (R350). -/
def colBegin (n op : Nat) : Eff := .seq (colStart n op) (.obs fun d =>
  match d.colOpsAt n with
  | some o => .when (o.phase == 0 && mismatched d n o) (colFail n o 11)
  | none => .skip)

/-- ALL_REDUCE, REDUCE_SCATTER, ALL_GATHER, BROADCAST, ALL_TO_ALL and FUSED (R334, R343). -/
def allReduce (n : Nat) : Eff := colBegin n 0
def reduceScatter (n : Nat) : Eff := colBegin n 1
def allGather (n : Nat) : Eff := colBegin n 2
def broadcast (n : Nat) : Eff := colBegin n 3
def allToAll (n : Nat) : Eff := colBegin n 4
def fused (n : Nat) : Eff := colBegin n 5

/-- STEP_TIMEOUT (R340): the step timer, at `ms`, has reached the group's timeout, or 4 times it where a rank awaited set
the pace flag: SUSPECT against the lowest rank still awaited. -/
def stepTimeout (n ms : Nat) : Eff := .obs fun d =>
  match d.colOpsAt n with
  | none => .skip
  | some o =>
    let late := (colAwaits o (groupSize d o.entry) (ownRank d o.entry)).filter fun e => !gotAll o e
    .when (o.phase == 1 && d.fld F.COL_GROUP_LIST_timeout_ms o.entry * (if o.paced then 4 else 1) ≤ ms && late != []) <|
      suspectRank o.entry ((late.map (·.1)).foldl min 65535) 1

/-! ### Re-formation (R344 to R346) -/

/-- The contexts that run a group's descriptors: those of its partition's enabled collective rings. -/
def groupCtxs (d : Device) (g : Nat) : List Nat :=
  ((colRingsOf d (d.fld F.COL_GROUP_partition g)).map (ringCtx d)).dedup

/-- Advance the epochs of the group's flow entries in the table, and load it (R345 step 4). -/
def advanceFlows (g : Nat) : Eff := .obs fun d =>
  let hit (f : Flow) : Bool := bit f.flags 0 == 1 && bit f.flags 4 == 1 && (groupCtxs d g).contains f.localCtx &&
    (d.colGroupsAt g).ids.contains f.peer
  .all [
    .each ((List.range 4096).filter fun e => hit (flowOf (d.bytes (flowAddr d e) 32))) fun e =>
      wr (flowAddr d e + 6) 2 (nextEpoch (flowOf (d.bytes (flowAddr d e) 32)).epoch),
    loadFlows]

/-- What every member does in step 4 of R345 and under R346: the group's descriptors end, the epoch and the flow epochs
advance, and the ranks of the removed positions are gone. -/
def newEpoch (g status : Nat) (removed : List Nat) : Eff := .obs fun d =>
  let e := d.colGroupsAt g
  .all [
    endGroup g status,
    modColGroups g fun e => { e with
      gone := e.gone ++ removed, serial := 0, gathered := [], doubted := [], readies := [] },
    setF F.COL_GROUP_epoch g (nextEpoch (d.fld F.COL_GROUP_epoch g)),
    addSat F.COL_GROUP_STAT_reformations g 1,
    .when (removed != [] || e.gone != []) (refreshGroup g),
    advanceFlows g]

/-- The list positions of some ranks. -/
def positionsOf (d : Device) (g : Nat) (ranks : List Nat) : List Nat := ranks.map (d.colGroupsAt g).position

/-- Re-form: the removed ranks are out, and the group waits for COMMIT. -/
def reformLocal (g : Nat) (ranks : List Nat) : Eff := .obs fun d => newEpoch g 8 (positionsOf d g ranks)

/-- Abort: the entry is broken. -/
def abortLocal (g : Nat) : Eff := .all [
  newEpoch g 9 [], setF F.COL_GROUP_broken g 1, modColGroups g fun e => { e with forming := false }]

/-- The ranks the leader removes: those named, but of two that name each other only the higher (R345 step 2). -/
def removedRanks (gathered : List (Nat × Nat × Nat)) : List Nat :=
  ((gathered.filter fun x => !(x.2.1 < x.1 && gathered.any fun y => y.1 == x.2.1 && y.2.1 == x.1)).map (·.2.1)).dedup

/-- SUSPECT (R345): the leader gathers it. -/
def suspectIn (i seq : Nat) (bs : List Byte) : Eff := colPacket i seq 3 bs fun g p =>
  modColGroups g fun e => { e with
    gathered := e.gathered ++ [(bodySrcRank p, num (bodyArgs p) 0 2, num (bodyArgs p) 2 1)], forming := true }

/-- SUSPECT_WINDOW_END (R345 step 3, R346): the leader removes the ranks gathered and tells every member, or aborts: then every
member, a suspect one too, is told so, and none is excluded. -/
def suspectWindowEnd (g : Nat) : Eff := .obs fun d =>
  let e := d.colGroupsAt g
  let removed := (removedRanks e.gathered).filter (· < groupSize d g)
  let left := (List.range (groupSize d g)).filter fun r => !removed.contains r
  let abort := d.fld F.COL_GROUP_on_fail g == 1 || 63 < removed.length || left.length < 2
  let others := (if abort then List.range (groupSize d g) else left).filter (· != ownRank d g)
  let next := nextEpoch (d.fld F.COL_GROUP_epoch g)
  let args := toLE 2 removed.length ++ removed.flatMap (toLE 2)
  .when (d.fld F.COL_GROUP_valid g == 1 && d.fld F.COL_GROUP_excluded g == 0 && removed != []) <| .all [
    .each others (fun r => colControl g (if abort then 7 else 4) next (rankId d g r) r (if abort then [] else args)),
    .each removed (fun r => .when (!abort && r != ownRank d g) (colControl g 8 (d.fld F.COL_GROUP_epoch g) (rankId d g r) r [])),
    if abort then abortLocal g
    else .seq (reformLocal g removed) (modColGroups g fun x => { x with acks := others.map (rankId d g) })]

/-- REFORM (R345 step 4, 5): the survivor takes the new epoch and acknowledges it to the leader. -/
def reformIn (i seq : Nat) (bs : List Byte) : Eff := colPacket i seq 4 bs fun g p =>
  let ranks := (List.range (min 63 (num (bodyArgs p) 0 2))).map fun j => num (bodyArgs p) (2 + 2 * j) 2
  .all [
    reformLocal g ranks, modColGroups g (fun e => { e with forming := true }),
    .obs fun d => colControl g 5 (d.fld F.COL_GROUP_epoch g) p.src ((d.colGroupsAt g).current.idxOf p.src) []]

/-- REFORM_ACK (R345 step 6): once every survivor has acknowledged, the leader sends COMMIT. -/
def reformAck (i seq : Nat) (bs : List Byte) : Eff := colPacket i seq 5 bs fun g p => .obs fun d =>
  let acks := (d.colGroupsAt g).acks.filter (· != p.src)
  .when ((d.colGroupsAt g).acks.contains p.src) <| .seq (modColGroups g fun e => { e with acks := acks }) <|
    .when acks.isEmpty <| .seq
      (.each ((List.range (groupSize d g)).filter (· != ownRank d g)) fun r =>
        colControl g 6 (d.fld F.COL_GROUP_epoch g) (rankId d g r) r [])
      (modColGroups g fun e => { e with forming := false })

/-- COL_COMMIT (R345 step 6): the group is served in the new epoch. -/
def colCommit (i seq : Nat) (bs : List Byte) : Eff := colPacket i seq 6 bs fun g _ =>
  modColGroups g fun e => { e with forming := false }

/-- COL_ABORT (R346). -/
def colAbort (i seq : Nat) (bs : List Byte) : Eff := colPacket i seq 7 bs fun g _ => abortLocal g

/-- EXCLUDE (R346): the group's descriptors end EXCLUDED, and this device is out of it. -/
def excludeIn (i seq : Nat) (bs : List Byte) : Eff := colPacket i seq 8 bs fun g _ => .all [
  endGroup g 10, setF F.COL_GROUP_excluded g 1,
  modColGroups g fun e => { e with forming := false, gathered := [], doubted := [] }]

/-- LEADER_TIMEOUT (R350): no REFORM after a SUSPECT: the leader is suspect too, and every rank held suspect is named to
the next. -/
def leaderTimeout (g : Nat) : Eff := .obs fun d =>
  let e := d.colGroupsAt g
  let l := leaderOf d g
  .when (d.fld F.COL_GROUP_valid g == 1 && e.forming && e.doubted != [] && l != ownRank d g) <|
    .each (e.doubted ++ [l]) fun r => .seq
      (modColGroups g fun e => { e with doubted := if e.doubted.contains l then e.doubted else e.doubted ++ [l] })
      (suspectRank g r 1)

/-- COL_REMOVE (R344): a write of COL_PRT_REMOVE.go names a rank of an entry the partition owns, with cause 4. -/
def colRemove (rq p v : Nat) : Eff := writeAct rq .COL_PRT_REMOVE p v 31 <| .obs fun d =>
  let g := bits v 27 16
  .when (bit v 31 == 1 && d.fld F.COL_GROUP_valid g == 1 && d.fld F.COL_GROUP_partition g == p &&
    bits v 15 0 < groupSize d g) (suspectRank g (bits v 15 0) 4)

/-- REFUSAL (R311, R341): a refusal ends the DMA or collective descriptor whose packet it answers. -/
def refusalReceive (i seq : Nat) (bs : List Byte) : Eff := packetIn i seq bs (forMe i 4) fun p =>
  if ringKind (tagRing p.tag) == .col then .obs fun d =>
    match d.colOpsAt (tagRing p.tag) with
    | some o => .when (o.index == tagIndex p.tag) (colFail (tagRing p.tag) o 5)
    | none => .skip
  else failTag p.tag (refusalStatus p.reason)

/-- A figure switch drops a group's key: a descriptor in flight on it ends CANCELLED, and the device withdraws with cause
2 (R350). -/
def dropGroup (g : Nat) : Eff := .obs fun d =>
  let rings := (colRingsOf d (d.fld F.COL_GROUP_partition g)).filter fun n => (d.colOpsAt n).any fun o => o.entry == g
  .when (rings != []) <| .seq
    (.each rings fun n => colEnd n (((d.colOpsAt n).map (·.index)).getD 0) 6) (withdraw g 2)

/-- The entries of a partition whose keys a new figure does not hold are dropped (R350). -/
def dropGroups (p : Nat) (f : Figure) : Eff := .obs fun d =>
  .each ((partEntries d p).filter fun e => d.fld F.COL_GROUP_valid e == 1 &&
    !(f.groups.map (groupKey f)).contains (d.reg .COL_GROUP_KEY e)) dropGroup

end Sys2Proof.Machine
end

