-- ==== Sys2Proof/Machine/Records.lean ====
section
/-! DEFINITION. Beat-state records (03_tile_programs.md R99): saving a core's beat state into a save area and restoring it
(16_partitions_and_scheduling.md R396, R401); and loading a core in the program start state (R63 step 8). -/

namespace Sys2Proof.Machine

/-! ### The record (R99) -/

/-- The record's banks field: accumulating, m and n. -/
def Bank.word (b : Bank) : Nat := (if b.acc then 1 else 0) + b.m % 4 * 2 + b.n % 4 * 8

/-- A bank from its record word. -/
def bankOfWord (v : Nat) : Bank := { acc := bit v 0 == 1, m := bits v 2 1, n := bits v 4 3 }

/-- Banks saved, as a mask (R99 live): those accumulating, and an empty one that the beat marks live (R94). -/
def liveMask (q : Seq) : Nat := ((if q.bank0.acc then 1 else 0) + (if q.bank1.acc then 2 else 0)) ||| q.live % 4

/-- The first 252 bytes of a record. -/
def recordBody (d : Device) (core prog : Nat) : List Byte :=
  let k := d.coresAt core
  let q := k.seq
  let cue (i : Nat) : Cue := d.cuesAt (coreCue core i)
  let ov := (List.range 32).foldl (fun a i => if (cue i).overflow then a + 2 ^ i else a) 0
  [0x41, 0x58, 0x42, 0x53] ++ toLE 2 1 ++ toLE 1 (liveMask q) ++ toLE 1 q.depth ++ toLE 2 q.ptr ++
  toLE 1 ((if q.reentry then 1 else 0) + (if k.waiting then 2 else 0)) ++ toLE 1 q.semStatus ++ toLE 2 prog ++ toLE 2 0 ++
  q.counters.flatMap (toLE 2) ++ toLE 2 q.dynTrip ++ toLE 2 q.liveRows ++ q.trips.flatMap (toLE 2) ++ toLE 2 q.beatId ++
  toLE 2 0 ++ q.starts.flatMap (toLE 2) ++ toLE 4 q.iteration ++ toLE 4 q.bank0.word ++ toLE 4 q.bank1.word ++ toLE 8 q.gen ++
  (List.range 32).flatMap (fun i => toLE 2 (cue i).value) ++ toLE 4 ov ++ List.replicate (0xFC - 0x94) 0

/-- A bank's 262,144 bytes: FP32, row by row. -/
def bankBytes (d : Device) (core b : Nat) : List Byte :=
  (List.range 65536).flatMap fun i => toLE 4 (d.accAt ((core * 2 + b) * 65536 + i)).toNat

/-- The whole record of a core. -/
def recordBytes (d : Device) (core prog : Nat) : List Byte :=
  let body := recordBody d core prog
  let q := (d.coresAt core).seq
  body ++ toLE 4 (crc32c body) ++ tileBytes d core 0 tileMemBytes ++
    (if bit (liveMask q) 0 == 1 then bankBytes d core 0 else []) ++ (if bit (liveMask q) 1 == 1 then bankBytes d core 1 else [])

/-- The length of a record with the banks of a mask. -/
def recordLen (live : Nat) : Nat := 256 + tileMemBytes + 262144 * (bit live 0 + bit live 1)

/-- The sequencer state a record holds. -/
def seqOfRecord (r : List Byte) : Seq :=
  let levels (o : Nat) : List Nat := (List.range 6).map fun i => num r (o + 2 * i) 2
  { ptr := num r 8 2, depth := num r 7 1, reentry := bit (num r 0xA 1) 0 == 1, counters := levels 0x10,
    trips := levels 0x20, starts := levels 0x30, dynTrip := num r 0x1C 2, liveRows := num r 0x1E 2,
    semStatus := num r 0xB 1, iteration := num r 0x3C 4, gen := num r 0x48 8, beatId := num r 0x2C 2,
    bank0 := bankOfWord (num r 0x40 4), bank1 := bankOfWord (num r 0x44 4), live := num r 6 1 % 4 }

/-- A record may be restored into a core that runs program `prog` (R99, R100): magic, CRC and program index match, and
neither its header nor a saved bank reads poisoned. -/
def recordOk (d : Device) (c leaf prog : Nat) : Bool :=
  match saveAddrs d c leaf 0 256 with
  | none => false
  | some as =>
    let r := d.bytesAt as
    let live := num r 6 1 % 4
    !anyPoison d as && r.take 4 == [0x41, 0x58, 0x42, 0x53] && num r 0xFC 4 == crc32c (r.take 0xFC) &&
      num r 0xC 2 == prog &&
      (match saveAddrs d c leaf (256 + tileMemBytes) (recordLen live - 256 - tileMemBytes) with
       | some bs => !anyPoison d bs
       | none => false)

/-- Save a core's beat state into context `c`'s save area (R401 step 3): the record, and the poison of tile words with it. -/
def saveRecord (c core leaf prog : Nat) : Eff := .obs fun d =>
  let rec_ := recordBytes d core prog
  match saveAddrs d c leaf 0 rec_.length with
  | none => .skip
  | some as => .all [
      store as rec_,
      .each ((List.range 196608).filter fun w => d.tpoisonAt (core * 196608 + w)) fun w =>
        setPoison (poisonUnit (as.getD (256 + w * 8) 0)) true,
      modCtxs c fun x => { x with saved := core :: x.saved.filter (· != core) }]

/-- Empty both banks of a core. -/
def emptyBanks (core : Nat) : Eff := .upd (.accDrop fun k => core * 131072 ≤ k && k < (core + 1) * 131072)

/-- Restore a core's beat state from context `c`'s save area (R99, R401 step 4). -/
def restoreRecord (p c core leaf prog : Nat) : Eff := .obs fun d =>
  let head := ((saveAddrs d c leaf 0 256).map d.bytesAt).getD []
  let live := num head 6 1 % 4
  let as := (saveAddrs d c leaf 256 (recordLen live - 256)).getD []
  let bs := d.bytesAt as
  let bank (o b : Nat) : Eff := .each (List.range 65536) fun i =>
    putAcc ((core * 2 + b) * 65536 + i) (BitVec.ofNat 32 (num bs (o + 4 * i) 4))
  let k := d.coresAt core
  .all [
    wrTile core 0 (bs.take tileMemBytes),
    .each ((List.range 196608).filter fun w => (List.range 8).any fun i => d.badByte (as.getD (w * 8 + i) 0)) fun w =>
      putTpoison (core * 196608 + w) true,
    emptyBanks core,
    .when (bit live 0 == 1) (bank tileMemBytes 0),
    .when (bit live 1 == 1) (bank (tileMemBytes + 262144 * bit live 0) 1),
    .each (List.range 32) (fun i => putCues (coreCue core i) ⟨num head (0x50 + 2 * i) 2, bit (num head 0x90 4) i == 1⟩),
    putCores core { k with
      seq := seqOfRecord head, loaded := some (p, leaf, prog), ctx := some c, lastCtx := some c, heldFor := some c,
      waiting := bit (num head 0xA 1) 1 == 1, acquiring := false, atBeat := true, stopReq := false, ending := false,
      replayable := true,
      checkpoint := seqOfRecord head, beatReads := [] },
    shadowBanks core]

/-! ### Starting (R63 step 8, R224) -/

/-- The initial value the figure gives a leaf's core cue (R49). -/
def initialCue (f : Figure) (leaf i : Nat) : Nat :=
  ((f.cues.find? fun c => c.level == 0 && c.owner == leaf && c.index == i).map (·.initial)).getD 0

/-- Clear the tile memory of a core that last held another context's beat state (R224). -/
def clearFor (c core : Nat) : Eff := .obs fun d => .when ((d.coresAt core).heldFor != some c) (clearTile core)

/-- Load a core with a leaf's program in the program start state for context `c` (R63 step 8, R401 step 4). -/
def startCore (p c core leaf : Nat) (f : Figure) : Eff := .all [
  clearFor c core, emptyBanks core,
  .each (List.range 32) (fun i => putCues (coreCue core i) ⟨initialCue f leaf i, false⟩),
  modCores core (fun k => { k with
    seq := {}, loaded := some (p, leaf, (f.set leaf).program), ctx := some c, lastCtx := some c, heldFor := some c,
    waiting := false, acquiring := false, atBeat := true, stopReq := false, ending := false, replayable := true, checkpoint := {},
    beatReads := [] }),
  shadowBanks core]

end Sys2Proof.Machine
end

