-- ==== Sys2Proof/Machine/Sched.lean ====
section
/-! DEFINITION. Partitions, contexts and scheduling (16_partitions_and_scheduling.md R390 to R412): creating a partition,
the service modes, the states of a context, pre-emption, migration, and tiles of streams. Teardown ends in
Machine/Teardown.lean. -/

namespace Sys2Proof.Machine

/-! ### Creating a partition (R390, R391) -/

/-- Two ranges, each a base and a count, share an element. -/
def overlap (a n b m : Nat) : Bool := n != 0 && m != 0 && a < b + m && b < a + n

/-- The shape of partition `p` names a resource that does not exist (R391). -/
def shapeMissing (d : Device) (p : Nat) : Bool :=
  ((List.range 16).any fun die => 512 < d.fld F.PRT_SHAPE_SEM_base (p * 16 + die) + d.fld F.PRT_SHAPE_SEM_count (p * 16 + die)) ||
  16384 < d.fld F.PRT_SHAPE_STR_base p + d.fld F.PRT_SHAPE_STR_count p ||
  4096 < d.fld F.PRT_SHAPE_GRT_base p + d.fld F.PRT_SHAPE_GRT_count p

/-- Partitions `p` and `q` name one exclusive resource both (R390). -/
def shapesMeet (d : Device) (p q : Nat) : Bool :=
  ((List.range 4).any fun i => d.reg .PRT_SHAPE_CLU (p * 4 + i) &&& d.reg .PRT_SHAPE_CLU (q * 4 + i) != 0 ||
    d.reg .PRT_SHAPE_GRP (p * 4 + i) &&& d.reg .PRT_SHAPE_GRP (q * 4 + i) != 0) ||
  d.reg .PRT_SHAPE_VCE p &&& d.reg .PRT_SHAPE_VCE q != 0 ||
  overlap (d.fld F.PRT_SHAPE_STR_base p) (d.fld F.PRT_SHAPE_STR_count p) (d.fld F.PRT_SHAPE_STR_base q)
    (d.fld F.PRT_SHAPE_STR_count q) ||
  overlap (d.fld F.PRT_SHAPE_GRT_base p) (d.fld F.PRT_SHAPE_GRT_count p) (d.fld F.PRT_SHAPE_GRT_base q)
    (d.fld F.PRT_SHAPE_GRT_count q) ||
  (List.range 16).any fun die => overlap (d.fld F.PRT_SHAPE_SEM_base (p * 16 + die)) (d.fld F.PRT_SHAPE_SEM_count (p * 16 + die))
    (d.fld F.PRT_SHAPE_SEM_base (q * 16 + die)) (d.fld F.PRT_SHAPE_SEM_count (q * 16 + die))

/-- Whether a create of `p` is refused (R391). -/
def createRefused (d : Device) (p : Nat) : Bool :=
  shapeMissing d p || (List.range 32).any fun q => q != p && d.fld F.PRT_CTRL_state q != 0 && shapesMeet d p q

/-- PRT_CTRL.create (R391): a free partition becomes active, or stays free with conflict set. -/
def createPartition (p : Nat) : Eff := .obs fun d =>
  .when (d.fld F.PRT_CTRL_state p == 0) <|
    if createRefused d p then setF F.PRT_CTRL_conflict p 1
    else .all [
      setF F.PRT_CTRL_state p 1, setF F.PRT_CTRL_conflict p 0,
      setF F.PRT_SHAPE_clusters p (partClusters d p).length, setF F.PRT_SHAPE_groups p (partGroups d p).length,
      setF F.PRT_SHAPE_codecs p (partCodecs d p).length, setF F.PRT_SHAPE_vcs p (d.fld F.PRT_SHAPE_LNK_vcs p),
      setF F.PRT_SHAPE_link_dies p (d.fld F.PRT_SHAPE_LNK_link_dies p)]

/-- A write of PRT_CTRL with create set. -/
def partitionCreate (rq p v : Nat) : Eff := writeAct rq .PRT_CTRL p v 31 (createPartition p)

/-! ### Service modes (R393) -/

/-- PRT_SVC_MODE (R393): in mode 0 the regulators pass everything and their buckets stay full. -/
def svcModeWrite (rq v : Nat) : Eff := writeAct rq .PRT_SVC_MODE 0 v 0 <|
  .when (bits v 1 0 == 0) (.upd (.bucketsDrop fun _ => true))

/-- The bytes a full bucket holds. -/
def bucketSize (d : Device) (p k : Nat) : Nat := d.fld F.PRT_REG_depth (p * 16 + k) * 4096

/-- A bucket's missing bytes once `filled` bytes have come in since the last request. -/
def bucketTaken (d : Device) (p k filled : Nat) : Nat := d.bucketsAt (p * 16 + k) - filled

/-- A request of `n` bytes may pass the regulator of partition `p` for stack `k` (R393). -/
def admits (d : Device) (p k n filled : Nat) : Bool :=
  d.fld F.PRT_SVC_MODE_mode 0 == 0 ||
    (d.fld F.PRT_REG_rate (p * 16 + k) != 0 && bucketTaken d p k filled + n ≤ bucketSize d p k)

/-- REGULATOR_ADMIT (R393): a request of `n` bytes of partition `p` to stack `k`, `filled` bytes of tokens having come in
since the last one (rate/64 of 2.46 TB/s times the time, which the command carries). Once the bucket holds its bytes it is
admitted and takes them. -/
def regulatorAdmit (p k n filled : Nat) : Eff := .obs fun d =>
  if d.fld F.PRT_SVC_MODE_mode 0 == 0 then .skip
  else if admits d p k n filled then putBuckets (p * 16 + k) (bucketTaken d p k filled + n)
  else putBuckets (p * 16 + k) (bucketTaken d p k filled)

/-! ### Arbitration (R394, R395, R399, R400) -/

/-- Context `c` may not name set `s` beside the contexts of its partition that are not idle (R394). -/
def setConflict (d : Device) (p : Nat) (f : Figure) (c s : Nat) : Bool :=
  (busyContexts d p).any fun o => o != c &&
    (let t := d.fld F.CTX_BIND_set o
     if t == s then exclusive f s else beneath f s t || beneath f t s)

/-- The contexts of a partition in one of the states given that name set `s`. -/
def setContexts (d : Device) (p s : Nat) (states : List Nat) : List Nat :=
  (busyContexts d p).filter fun c => d.fld F.CTX_BIND_set c == s && states.contains (d.fld F.CTX_RUN_state c)

/-- The context that a set's cores go to next: highest priority, then the lowest number (R412). -/
def bestWaiting (d : Device) (p s : Nat) : Option Nat :=
  (setContexts d p s [1, 3]).foldl (fun best c => match best with
    | some b => if d.fld F.CTX_PRIO_priority b < d.fld F.CTX_PRIO_priority c then some c else some b
    | none => some c) none

/-- Begin the pre-emption of `h` by `w` on set `s` (R401 step 1), lock-extended where `h` holds semaphores (R404). -/
def beginPreempt (p s h w : Nat) : Eff := .obs fun d =>
  let locked : Bool := !(heldSems d h).isEmpty
  .all [
    setF F.CTX_RUN_state h 4,
    modPreempts (· ++ [{ part := p, set := s, outgoing := h, incoming := w, extended := locked }]),
    .when (!locked) (stopCores h)]

/-- Ask for a pre-emption on set `s` where R400 holds: the waiting context reaches the gap over the running one, which can
be saved. A request during another replaces its target when its priority is higher (R412). None starts during a switch. -/
def requestPreempt (p s : Nat) : Eff := .obs fun d =>
  match bestWaiting d p s with
  | none => .skip
  | some w =>
    let prio (c : Nat) : Nat := d.fld F.CTX_PRIO_priority c
    match d.preempts.find? fun q => q.part == p && q.set == s with
    | some q => .when (q.done.isEmpty && prio q.incoming < prio w)
        (modPreempts fun ps => ps.map fun x => if x.part == p && x.set == s then { x with incoming := w } else x)
    | none =>
      match (setContexts d p s [2]).head? with
      | none => .skip
      | some h =>
        let gap := d.fld F.PRT_SCHED_gap p
        .when (gap != 0 && prio h + gap ≤ prio w && saveFits d h && (d.switchesAt p).isNone) (beginPreempt p s h w)

/-- Every context state's requests on the set of context `c`. -/
def rearbitrate (c : Nat) : Eff := .obs fun d =>
  match ctxPart d c with
  | some p => requestPreempt p (d.fld F.CTX_BIND_set c)
  | none => .skip

/-! ### The registers of a context (R394, R395, R399, R406) -/

/-- CTX_BIND.set (R394): stored without check while the context is idle, and refused clears. -/
def setCtxSet (c v : Nat) : Eff := .obs fun d =>
  .when (d.fld F.CTX_RUN_state c == 0) (.seq (setF F.CTX_BIND_set c (bits v 15 0)) (setF F.CTX_BIND_refused c 0))

def ctxSetWrite (rq c v : Nat) : Eff := .obs fun d =>
  if bits (mayWrite d rq .CTX_BIND c) 15 0 != 0 then setCtxSet c v else denied

/-- CTX_RUN.go (R394, R395): an idle context becomes ready once its set passes the checks, else refused is set. No context
becomes ready while the device is quarantined (R472). -/
def goCtx (c : Nat) : Eff := .obs fun d =>
  match ctxPart d c with
  | none => .skip
  | some p =>
    let s := d.fld F.CTX_BIND_set c
    .when (d.fld F.CTX_RUN_state c == 0 && d.fld F.SEC_KEYSTATE_quarantine 0 == 0) <|
      match d.active p with
      | none => setF F.CTX_BIND_refused c 1
      | some f =>
        if f.sets.length ≤ s || setConflict d p f c s then setF F.CTX_BIND_refused c 1
        else .all [setF F.CTX_RUN_state c 1, modCtxs c (fun x => { x with mapped := true }), requestPreempt p s]

def ctxGo (rq c : Nat) : Eff := .obs fun d =>
  if bit (mayWrite d rq .CTX_RUN c) 31 == 1 then goCtx c else denied

/-- CTX_RUN.stop (R395): a ready, running or pre-empted context returns to idle; a running one once each of its cores has
stopped at a beat boundary. -/
def stopCtx (c : Nat) : Eff := .obs fun d =>
  match ctxPart d c with
  | none => .skip
  | some p =>
    match d.fld F.CTX_RUN_state c with
    | 1 | 3 => .seq (discardSaved p c) (setF F.CTX_RUN_state c 0)
    | 2 => .all [discardSaved p c, setF F.CTX_RUN_state c 4, modCtxs c fun x => { x with halting := true },
        stopCores c, .each ((ctxCores d c).take 1) settleStop]
    | 4 => .seq (discardSaved p c) (modCtxs c fun x => { x with halting := true })
    | _ => .skip

def ctxStop (rq c : Nat) : Eff := .obs fun d =>
  if bit (mayWrite d rq .CTX_RUN c) 30 == 1 then stopCtx c else denied

/-- CTX_RUN.clear (R395): a faulted context returns to idle. -/
def clearCtx (c : Nat) : Eff := .obs fun d => .when (d.fld F.CTX_RUN_state c == 5) (setF F.CTX_RUN_state c 0)

def ctxClear (rq c : Nat) : Eff := .obs fun d =>
  if bit (mayWrite d rq .CTX_RUN c) 28 == 1 then clearCtx c else denied

/-- CTX_RUN.kill (R406): the partition owner tears the context down with OWNER. -/
def ctxKill (rq c : Nat) : Eff := .obs fun d =>
  if bit (mayWrite d rq .CTX_RUN c) 29 == 1 then .when (ctxPart d c).isSome (teardown c codeOwner) else denied

/-- CTX_PRIO (R399): the new priority applies at the next arbitration; a grant is not revoked. -/
def ctxPrioWrite (rq c v : Nat) : Eff := writeAct rq .CTX_PRIO c v 0 (rearbitrate c)

/-! ### Starting and resuming (R395, R401, R405) -/

/-- Write CTX_FAULT unless a record is held. -/
def recordFault (c code leaf info step : Nat) : Eff := .obs fun d =>
  .when (d.fld F.CTX_FAULT_valid c == 0) <| .all [
    setF F.CTX_FAULT_code c code, setF F.CTX_FAULT_set c leaf, setF F.CTX_FAULT_info c info, setF F.CTX_FAULT_step c step,
    setF F.CTX_FAULT_valid c 1]

/-- A leaf or an ancestor of it is revocation-tolerant (R44, R405). -/
def tolerant (f : Figure) (leaf : Nat) : Bool := (ancestors f leaf).any fun s => (f.set s).tolerant

/-- Some semaphore a context lost by revocation was held by a core whose leaf does not tolerate it (R405). -/
def intolerant (d : Device) (p : Nat) (f : Figure) (c : Nat) : Bool :=
  (d.ctxsAt c).revoked.any fun r => !((leafOfCore d p f r.1).any (tolerant f))

/-- Load one core with context `c`: its saved record, or its program at step 0 (R401 step 4). -/
def bringIn (p c core leaf : Nat) (f : Figure) : Eff := .obs fun d =>
  if (d.ctxsAt c).saved.contains core then restoreRecord p c core leaf (f.set leaf).program else startCore p c core leaf f

/-- A leaf's saved record of context `c`, where it has one, can be restored. -/
def canBringIn (d : Device) (c core leaf : Nat) (f : Figure) : Bool :=
  !(d.ctxsAt c).saved.contains core || recordOk d c leaf (f.set leaf).program

/-- The leaves of set `s` with their logical cores. -/
def leafCores (d : Device) (p : Nat) (f : Figure) (s : Nat) : List (Nat × Nat) :=
  (leaves f s).filterMap fun l => (leafCore d p f l).map fun core => (l, core)

/-- Let context `c` run on the cores it has been loaded on (R401 step 5): what it lost by revocation is recorded and its
status set (R405), the events and HALOs held for it are added before any step issues (R206, R397, R398), and its cores start
together. While a switch waits for the partition's cores, they are asked to stop like the others (R63). A context that waits may
pre-empt it at once (R400). -/
def gangStart (p c : Nat) (f : Figure) : Eff := .obs fun d =>
  let rv := (d.ctxsAt c).revoked
  let cores := setCores d p f (d.fld F.CTX_BIND_set c)
  let resumed := (d.ctxsAt c).saved
  let switching := (d.switchesAt p).isSome
  .all [
    (match rv with
     | (_, sem) :: _ => .seq (recordFault c 0x0D 0xFFFF sem 0) (setF F.CTX_FAULT_resume_pending c 1)
     | [] => .skip),
    .each rv (fun r => modCores r.1 fun k => { k with seq := { k.seq with semStatus := 2 } }),
    modCtxs c (fun x => { x with revoked := [], saved := [], mapped := true }),
    setF F.CTX_RUN_state c 2,
    .each cores fun core => .all [
      foldEvents p c core,
      modCores core (fun k => { k with
        stopReq := switching
        state := if k.fenced || (switching && k.waiting) then 3 else if k.waiting then 2 else 1 }),
      .when (!resumed.contains core) (beatBoundary core true)],
    .each cores releaseHalos,
    requestPreempt p (d.fld F.CTX_BIND_set c)]

/-- A record of context `c` that cannot be restored into a core tears the context down with RESTORE (R99, R100). -/
def restoreFails (c core leaf : Nat) : Eff := .obs fun d =>
  .seq (coreFault core 0x0F (d.coresAt core).seq.ptr 0) (teardownWith c 0x0F leaf 0 0)

/-- A context that lost a semaphore by revocation, which a core's leaf does not tolerate, is torn down with REVOKED, and that core
records it (R100, R405). -/
def revocationFails (p c : Nat) (f : Figure) : Eff := .obs fun d =>
  .seq (.each (((d.ctxsAt c).revoked.filter fun r => !((leafOfCore d p f r.1).any (tolerant f))).take 1) fun r => .obs fun d =>
      coreFault r.1 0x0D (d.coresAt r.1).seq.ptr 0)
    (teardownWith c 0x0D 0xFFFF 0 (((d.ctxsAt c).revoked.map (·.2)).headD 0))

/-- Context `c` takes its idle set: every core is loaded and they start together; a record that fails tears it down with
RESTORE, and an untolerated revocation with REVOKED (R395, R401, R405). -/
def takeSet (p c : Nat) (f : Figure) : Eff := .obs fun d =>
  let lcs := leafCores d p f (d.fld F.CTX_BIND_set c)
  match lcs.find? fun x => !canBringIn d c x.2 x.1 f with
  | some x => restoreFails c x.2 x.1
  | none =>
    if intolerant d p f c then revocationFails p c f
    else .seq (.each lcs fun x => bringIn p c x.2 x.1 f) (gangStart p c f)

/-- CONTEXT_START (R395): the context that comes first among those waiting for an idle set takes it. -/
def contextStart (c : Nat) : Eff := .obs fun d =>
  match ctxPart d c with
  | none => .skip
  | some p =>
    match d.active p with
    | none => .skip
    | some f =>
      let s := d.fld F.CTX_BIND_set c
      .when (bestWaiting d p s == some c && (setContexts d p s [2, 4, 6]).isEmpty && (d.switchesAt p).isNone) (takeSet p c f)

/-! ### Pre-emption (R400, R401, R404) -/

/-- YIELD (R400): a running context that can be saved, with every core of its set parked for yield_us, yields to the first
waiting context. -/
def yieldSet (c : Nat) : Eff := .obs fun d =>
  match ctxPart d c with
  | none => .skip
  | some p =>
    let s := d.fld F.CTX_BIND_set c
    match bestWaiting d p s with
    | none => .skip
    | some w => .when (d.fld F.CTX_RUN_state c == 2 && saveFits d c && (d.switchesAt p).isNone &&
        (ctxCores d c).all fun core => (d.coresAt core).state == 2 || (d.coresAt core).state == 0) (beginPreempt p s c w)

/-- The context a pre-emption brings in: the one chosen while it still waits, else the first waiting, else the outgoing one
again, unless it is to become idle. -/
def chooseIncoming (d : Device) (q : Preempt) : Option Nat :=
  let st := d.fld F.CTX_RUN_state q.incoming
  if st == 1 || st == 3 then some q.incoming
  else match bestWaiting d q.part q.set with
    | some w => some w
    | none => if (d.ctxsAt q.outgoing).halting then none else some q.outgoing

/-- Replace a pre-emption in the list. -/
def setPreempt (q : Preempt) : Eff :=
  modPreempts fun ps => ps.map fun x => if x.part == q.part && x.set == q.set then q else x

/-- PREEMPT_SAVE (R401 steps 3 and 4): a core of the set that has stopped saves its beat state, clearing as it reads, and is
loaded with the incoming context. A record of that context which fails tears it down with RESTORE. -/
def preemptSave (core : Nat) (fixed lost : List Nat) : Eff := .obs fun d =>
  match d.preempts.find? fun q => (ctxCores d q.outgoing).contains core && !q.done.contains core with
  | none => .skip
  | some q =>
    let k := d.coresAt core
    match d.active q.part with
    | none => .skip
    | some f =>
      let leaf := (leafOfCore d q.part f core).getD 0
      let fresh : Bool := k.ctx == some q.outgoing
      .when (k.state == 3 && (fresh || k.ctx.isNone)) <| .all [
        .when fresh <| .all [
          .when (!(d.ctxsAt q.outgoing).halting) (.seq (tileErrors core 0 24576 fixed lost)
            (saveRecord q.outgoing core leaf (f.set leaf).program)),
          clearTile core, emptyBanks core, modCores core fun k => { k with ctx := none, heldFor := none }],
        .obs fun d =>
          match chooseIncoming d q with
          | none => setPreempt { q with done := core :: q.done }
          | some w =>
            if canBringIn d w core leaf f then .all [
              bringIn q.part w core leaf f, modCores core fun k => { k with state := 6 },
              setPreempt { q with incoming := w, done := core :: q.done }]
            else restoreFails w core leaf]

/-- PREEMPT_GANG_START (R401 step 5): every core has finished; the outgoing context becomes pre-empted, or idle where it was
stopped, and the incoming one runs, unless an untolerated revocation tears it down first (R405). -/
def preemptGangStart (p s : Nat) : Eff := .obs fun d =>
  match d.preempts.find? fun q => q.part == p && q.set == s, d.active p with
  | some q, some f =>
    let cores := setCores d p f s
    let h := q.outgoing
    let same : Bool := q.incoming == h
    .when (cores.all q.done.contains) <| .all [
      modPreempts fun ps => ps.filter fun x => !(x.part == p && x.set == s),
      (if same then .skip else if (d.ctxsAt h).halting then .all [
          modCtxs h (fun x => { x with halting := false }), discardSaved p h, setF F.CTX_RUN_state h 0]
        else .all [setF F.CTX_RUN_state h 3, addSat F.CTX_STAT_preempted h 1, addSat F.PRT_SCHED_STAT_preemptions p 1]),
      .obs fun d =>
        if (chooseIncoming d q).isNone then .each cores fun core => modCores core fun k => { k with ctx := none, state := 0 }
        else if intolerant d p f q.incoming then revocationFails p q.incoming f
        else gangStart p q.incoming f]
  | _, _ => .skip

/-- HOLD_LIMIT_EXPIRY (R404): every semaphore a lock-extended context still holds is revoked and granted on, its cores stop at their
next beat boundaries, and what it is granted from now on is revoked at once. -/
def holdLimitExpiry (c : Nat) : Eff := .obs fun d =>
  match extending d c, ctxPart d c with
  | some q, some p =>
    let cells := heldSems d c
    .when (!q.holdPassed) <| .all [
      setPreempt { q with holdPassed := true },
      .each cells (revokeCell p c), .each cells semGrant, stopCores c]
  | _, _ => .skip

/-! ### Tiles of streams (R45, R206, R408) -/

/-- The context a stream's tile event is for: the one running on the sending core, else on the receiving one (log entry 13). -/
def streamCtx (d : Device) (e core : Nat) : Option Nat :=
  match strCore d e F.STR_ENTRY_src_cluster F.STR_ENTRY_src_core with
  | some src => ((d.coresAt src).ctx).orElse fun _ => ctxOnCore d core
  | none => ctxOnCore d core

/-- A tile enters the buffer at its destination and counts one event on the port's cue (R45). -/
def deliverTile (e core : Nat) (data : List Byte) : Eff := .obs fun d => .all [
  modStrBuf e (· ++ [data]),
  coreEvent (d.fld F.STR_ENTRY_partition e) (streamCtx d e core) core (d.fld F.STR_ENTRY_dst_cue e) 1]

/-- STREAM_TILE_DELIVERY (R45, R408): a tile of stream `e` reaches its leaf in-port under the placement epoch the sender
knew, the receiver having taken `taken` tiles from the buffer before. A full buffer or a fenced core holds it at the source
(R206); a tile of another epoch is dropped, counted and sent again. -/
def streamTile (e : Nat) (data : List Byte) (epoch taken : Nat) : Eff := .obs fun d =>
  match strCore d e F.STR_ENTRY_dst_cluster F.STR_ENTRY_dst_core with
  | none => .skip
  | some core => .when (d.fld F.STR_ENTRY_valid e == 1) <| .seq (modStrBuf e (·.drop taken)) <|
      if d.fld F.STR_ENTRY_medium e == 0 && epoch != d.epochsAt core then
        .seq (addSat F.STR_STAT_dropped e 1) (match streamCtx d e core with
          | some c => addSat F.CTX_STAT_late_drops c 1
          | none => .skip)
      else if (d.coresAt core).fenced || d.fld F.STR_ENTRY_depth e + 1 ≤ ((d.strBufAt e).drop taken).length then
        .seq (modHeldTiles e (· ++ [data])) (addSat F.STR_STAT_held e 1)
      else deliverTile e core data

/-- A core that goes on takes the events that were held for the context it runs while it was stopped (R290). -/
def takeHeld (core : Nat) : Eff := .obs fun d =>
  match (d.coresAt core).loaded, (d.coresAt core).ctx with
  | some (p, _, _), some c => .when (d.fld F.CTX_RUN_state c == 2) (foldEvents p c core)
  | _, _ => .skip

/-! ### Planned migration (R409, R410) -/

/-- MIGRATION_START (R409 step 1): a leaf's core is fenced; it stops at its next beat boundary, a parked one at once. -/
def migrationStart (core : Nat) : Eff :=
  modCores core fun k => if k.loaded.isSome then { k with fenced := true, state := if k.state == 2 then 3 else k.state } else k

/-- A core may be migrated to core site 16 of its cluster site, or back from it: at most one core of a cluster is bound there,
and only while the site is good (R205). -/
def mayMove (d : Device) (core site : Nat) (toSpare : Bool) : Bool := if toSpare then spareCoreFree d site else d.movedAt core

/-- A fenced core goes on: held tiles, events and HALOs are released (R206, R290), and it resumes where its context still runs. -/
def releaseCore (core : Nat) : Eff := .obs fun d => .all [
  modCores core (fun k => { k with
    fenced := false
    state := if k.state == 3 && !k.stopReq then (if k.waiting then 2 else 1) else k.state }),
  takeHeld core,
  .each (streamsTo d core) (fun e => .all [
    .each (d.heldTilesAt e) (deliverTile e core), setF F.STR_STAT_held e 0, putHeldTiles e []]),
  releaseHalos core]

/-- MIGRATION_RESUME (R409 steps 2 to 5): with the fenced core stopped, the epoch advances, the binding switches to core site
16 (`toSpare`) or back with the bypass (R205), and held tiles, events and HALOs are released under the new epoch (R206, R290); the
core resumes where its context still runs. -/
def migrationResume (core : Nat) (toSpare : Bool) : Eff := .obs fun d =>
  let k := d.coresAt core
  let site := (clusterSite d (core / 128) (core / 16 % 8)).getD 0
  .when (k.fenced && (k.state == 0 || k.state == 3 || k.state == 4) && mayMove d core site toSpare) <| .all [
    advanceEpoch core, putMoved core toSpare, refreshMesh site, releaseCore core]

end Sys2Proof.Machine
end

