-- ==== Sys2Proof/Machine/Figure.lean ====
section
/-! DEFINITION. Loading, staging, switching and patching figures (02_figure_images.md R57 to R68). -/

namespace Sys2Proof.Machine

/-! ### Status -/

/-- FIG_STATUS after a request: state, code and slot. -/
def figStatus (p state code slot : Nat) : Eff := .all [
  setF F.FIG_STATUS_state p state, setF F.FIG_STATUS_code p code, setF F.FIG_STATUS_slot p slot]

/-- A request fails: its code and slot, while a switch that goes on stays shown (log entry 14). -/
def figFail (p code slot : Nat) : Eff := .obs fun d => figStatus p (if (d.switchesAt p).isSome then 6 else 5) code slot

/-- A slot's figure is dropped: the slot is no longer valid, and the entries of the library it names lose a reference
(R62, R258, R274). -/
def dropSlot (p slot : Nat) : Eff := .obs fun d =>
  match d.slotsAt (p * 8 + slot) with
  | none => .skip
  | some _ => .all [
      putSlots (p * 8 + slot) none, setReg .FIG_STAGE (p * 8 + slot) 0, unrefSlot (p * 8 + slot)]

/-- The active slot of a partition. -/
def activeSlot (d : Device) (p : Nat) : Option Nat :=
  if d.fld F.FIG_STATUS_active_valid p == 1 then some (d.fld F.FIG_STATUS_active_slot p) else none

/-- A figure loaded from `src` is staged into a slot. -/
def fillSlot (p slot src : Nat) (f : Figure) : Eff := .obs fun d => .all [
  putSlots (p * 8 + slot) (some f), setF F.FIG_STAGE_valid (p * 8 + slot) 1,
  setF F.FIG_STAGE_figure_id (p * 8 + slot) f.figureId, refSlot (p * 8 + slot) (namedEntries d p src f)]

/-! ### Loading (R57, R58, R61) -/

/-- A load of the partition is queued or running. -/
def loadBusy (d : Device) (p : Nat) : Bool := (d.loadQueue ++ d.loading).any fun r => r.part == p

/-- FIG_LOAD.go (R61): refused while a load of the partition is queued or running, else queued. FIG_STATUS.refused clears at the
next FIG_LOAD.go that is accepted, not at a request to switch (log entry 126). -/
def queueLoad (p : Nat) : Eff := .obs fun d =>
  if loadBusy d p then setF F.FIG_STATUS_refused p 1
  else .all [
    setF F.FIG_STATUS_refused p 0, figStatus p 1 0 (d.fld F.FIG_LOAD_slot p),
    modLoadQueue (· ++ [{ part := p, slot := d.fld F.FIG_LOAD_slot p, src := d.fld F.FIG_SRC_addr p,
                          switchWhenDone := d.fld F.FIG_LOAD_switch_when_done p == 1 }])]

def figLoadGo (rq p v : Nat) : Eff := writeAct rq .FIG_LOAD p v 31 (queueLoad p)

/-- The entry of the library that an image in flash is read from: VALID, of kind 1 and shared with the partition (R258). -/
def srcEntry (d : Device) (p a : Nat) : Option CatEntry :=
  if inFlash a then (sharedEntry d p (a - flashBase) 1 [1]).map d.catalogAt else none

/-- The source of an image lies in the partition's DRAM or in such an entry, on a 64-byte boundary (R58 step 1, R258, FIG_SRC). -/
def srcAllowed (d : Device) (p a : Nat) : Bool := a % 64 == 0 && (ownsDram d p a || (srcEntry d p a).isSome)

/-- The bytes of the source from `a` on: of the entry in flash, or of the partition's DRAM without a break. -/
def srcRoom (d : Device) (p a : Nat) : Nat :=
  match srcEntry d p a with
  | some e => flashBase + e.tierOffset + e.length - a
  | none => dramRun d p 128 a

/-- The bytes the loader copies: the header, and the whole image where its length field is plausible. -/
def imageLen (d : Device) (p a : Nat) : Nat :=
  let n := d.rd (a + 8) 4
  if 128 ≤ n && n ≤ 0x10000000 && n ≤ srcRoom d p a then n else 128

/-- The loader's copy of an image is written to the slot's share of the staging area, as far as the share lies in the
partition's DRAM; not into the share of a slot whose figure the load must leave as it is, which is active, or valid while the
image is partial (R57, R58, log entry 10). -/
def copyToStaging (p slot : Nat) (img : List Byte) (part : Bool) : Eff := .obs fun d =>
  let (a, n) := slotArea d p slot
  let k := min img.length (min n (dramRun d p 128 a))
  .when (activeSlot d p != some slot && !(part && (d.slotsAt (p * 8 + slot)).isSome))
    (store ((List.range k).map (a + ·)) (img.take k))

/-- The decoded figure in a slot's share: the bytes that it takes hold free values (R60, log entry 10). -/
def decodeToStaging (p slot : Nat) (img : List Byte) : Eff := withFree fun v => .obs fun d =>
  let k := Config.decodedBytes img.length
  store ((List.range k).map ((slotArea d p slot).1 + ·)) ((List.range k).map (Config.decodedByte v))

/-- LOAD_START (R61, R57): the oldest queued load leaves the queue while fewer than 4 run, and copies its image. A full
image invalidates a valid slot that is not active (R62). -/
def loadStart : Eff := .obs fun d =>
  match d.loadQueue with
  | [] => .skip
  | r :: rest => .when (d.loading.length < 4) <|
      let n := imageLen d r.part r.src
      let img := d.bytes r.src n
      .all [
        putLoadQueue rest,
        modLoading (· ++ [{ r with image := img, poisoned := d.poisoned r.src n }]),
        setF F.FIG_STATUS_state r.part 2, disturbReads ((List.range n).map (r.src + ·)),
        .when (!(imgPartial img && srcAllowed d r.part r.src) && activeSlot d r.part != some r.slot) (dropSlot r.part r.slot),
        .when (srcAllowed d r.part r.src) (copyToStaging r.part r.slot img (imgPartial img))]

/-- A load fails with a code and an index: nothing else changes (R58). -/
def loadFails (p code idx slot : Nat) : Eff := .seq (figStatus p 5 code slot) (setReg .FIG_DETAIL p idx)

/-- A switch is asked of the partition's cores: each stops at its next beat boundary, and the outgoing weight ring issues no
more copies (R63, R272). Several contexts may be stopping already. -/
def askSwitch (p slot : Nat) : Eff := .obs fun d => .all [
  putSwitches p (some { slot := slot }), figStatus p 6 0 slot, streamerStop p,
  .each ((partClusters d p).flatMap fun cl => (List.range 16).map (cl * 16 + ·)) fun core => modCores core fun k =>
    if k.state == 1 || k.state == 2 then { k with stopReq := true, state := (if k.state == 2 then 3 else k.state) } else k]

/-- The logical cores of a partition. -/
def partCores (d : Device) (p : Nat) : List Nat := (partClusters d p).flatMap fun cl => (List.range 16).map (cl * 16 + ·)

/-- Every core of the partition has stopped, and no pre-emption or migration is still under way there (R63, R412). -/
def allStopped (d : Device) (p : Nat) : Bool :=
  (partCores d p).all (fun c => let k := d.coresAt c; (k.state == 0 || k.state == 3 || k.state == 4) && !k.fenced) &&
    d.preempts.all fun q => q.part != p

/-- A slot's figure is older than FIG_MINVER allows, or its signer's root is revoked (R68, R461). -/
def slotOld (d : Device) (p slot : Nat) : Bool :=
  (d.slotsAt (p * 8 + slot)).any fun f => f.security < d.fld F.FIG_MINVER_minver p ||
    bit (d.fld F.SEC_ROOT_revoked 0) f.root == 1

/-- A request to switch to a slot (R63, R68). An active slot whose figure is no longer accepted counts as invalid. -/
def requestSwitch (p slot : Nat) : Eff := .obs fun d =>
  if (d.slotsAt (p * 8 + slot)).isNone || slotOld d p slot then figFail p 0x54 slot
  else if !(d.patchesAt p).isEmpty then figFail p 0x55 slot
  else match d.switchesAt p with
    | some q => if allStopped d p then figFail p 0x55 slot
        else .seq (putSwitches p (some { q with slot := slot })) (figStatus p 6 0 slot)
    | none => askSwitch p slot

/-- FIG_SWITCH.go. -/
def figSwitchGo (rq p v : Nat) : Eff := writeAct rq .FIG_SWITCH p v 31 (requestSwitch p (bits v 2 0))

/-- A partial image is staged: the stored form of a slot that is not active takes every record at once (R65); of the active
slot the programs join, and each record waits for its leaf's core (R66). -/
def stagePatch (p slot : Nat) (f g : Figure) (ps : List PatchRec) : Eff := .obs fun d =>
  if activeSlot d p == some slot then
    let pend : List PendingPatch := ps.map fun r =>
      ⟨r.set, r.mode, r.program, r.resume, g.consts.filter fun c => c.owner == r.set && !f.consts.contains c⟩
    .seq (putSlots (p * 8 + slot) (some { f with programs := g.programs })) <|
      if pend.isEmpty then figStatus p 4 0 slot else .all [
        modPatches p (· ++ pend), setF F.FIG_STAGE_patch_pending (p * 8 + slot) 1, figStatus p 7 0 slot]
  else .seq (putSlots (p * 8 + slot) (some g)) (figStatus p 4 0 slot)

/-- LOAD_COMPLETE (R58, R59): the checks in their order on the copy, then the slot is staged, or the first failure recorded.
`i` is the place of the load among those running. An uncorrectable error in the source comes before every check of the header,
since the copy cannot be checked (log entry 127). -/
def loadComplete (i : Nat) : Eff := .obs fun d =>
  match d.loading[i]? with
  | none => .skip
  | some r =>
    let p := r.part
    .seq (putLoading (d.loading.eraseIdx i)) <|
    if r.poisoned && srcAllowed d p r.src then loadFails p 0x5F noIndex r.slot
    else match (do checkHeader r.image (srcAllowed d p r.src) (srcRoom d p r.src); checkSignature d p r.image : Chk Unit) with
      | .error (code, idx) => loadFails p code idx r.slot
      | .ok _ =>
        if imgPartial r.image then
          if (d.switchesAt p).isSome || !(d.patchesAt p).isEmpty then
            .seq (figFail p 0x55 r.slot) (setReg .FIG_DETAIL p noIndex)
          else match checkPatch d p r.image with
            | .error (code, idx) => loadFails p code idx r.slot
            | .ok (slot, g, ps) =>
              match d.slotsAt (p * 8 + slot) with
              | some f => .all [stagePatch p slot f g ps, setReg .FIG_DETAIL p noIndex, decodeToStaging p slot r.image,
                  .when r.switchWhenDone (requestSwitch p r.slot)]
              | none => loadFails p 0x53 noIndex r.slot
        else match checkFull d p r.slot r.image with
          | .error (code, idx) => loadFails p code idx r.slot
          | .ok f => .all [
              dropSlot p r.slot, fillSlot p r.slot r.src f, decodeToStaging p r.slot r.image, figStatus p 4 0 r.slot,
              setReg .FIG_DETAIL p noIndex,
              .when r.switchWhenDone (requestSwitch p r.slot)]

/-! ### Switching (R63, R68) -/

/-- FIG_SWITCH.cancel (R68): a switch that still waits for cores is withdrawn, and the stopped cores of running contexts go
on. A weight ring that the request has stopped stays stopped (log entry 128). -/
def cancelSwitch (p : Nat) : Eff := .obs fun d =>
  .when ((d.switchesAt p).isSome && !allStopped d p) <| .all [
    putSwitches p none, figStatus p 0 0 (d.fld F.FIG_STATUS_slot p),
    .each (partCores d p) fun core => modCores core fun k =>
      if k.ctx.any fun c => d.fld F.CTX_RUN_state c == 2 then
        { k with stopReq := false, state := if k.state == 3 && !k.fenced then (if k.waiting then 2 else 1) else k.state }
      else k,
    .each (partCores d p) takeHeld]

def figSwitchCancel (rq p v : Nat) : Eff := writeAct rq .FIG_SWITCH p v 30 (cancelSwitch p)

/-- The stream-table entries of a partition's allotment. -/
def partStreams (d : Device) (p : Nat) : List Nat :=
  (List.range (d.fld F.PRT_SHAPE_STR_count p)).map (d.fld F.PRT_SHAPE_STR_base p + ·)

/-- Write a stream's entry (R38, R63 step 5). The cue of a destination that is a root port, which names none, is a free value
(log entry 129). -/
def writeStream (p e : Nat) (f : Figure) (s : StreamRec) : Eff := withFree fun v =>
  let a := f.port s.src
  let b := f.port s.dst
  let so := f.set a.owner
  let do_ := f.set b.owner
  let cl (o : SetRec) : Nat := if o.composite then 0xFF else o.cluster
  let co (o : SetRec) : Nat := if o.composite then 0 else o.core
  let ext := match s.medium with
    | 1 | 2 => s.window
    | 3 => s.bundle
    | 4 => if a.external == 1 then a.externalIndex else b.externalIndex
    | _ => 0
  .all [
    setReg .STR_ENTRY e (2 ^ 63 + p * 2 ^ 58 + s.medium % 8 * 2 ^ 55 + s.priority % 4 * 2 ^ 53 + (b.depth - 1) % 16 * 2 ^ 49 +
      cl do_ * 2 ^ 41 + co do_ * 2 ^ 37 + (if b.cue < 32 then b.cue else v % 32) * 2 ^ 32 + cl so * 2 ^ 24 + co so * 2 ^ 20 + ext % 65536),
    setReg .STR_ENTRY_FMT e (b.format % 16 * 2 ^ 28 + (b.rows - 1) * 2 ^ 16 + (b.cols - 1)),
    setF F.STR_STAT_dst_epoch e 0, setF F.STR_STAT_held e 0, putStrBuf e [], putHeldTiles e []]

/-- Write the partition's stream table for a figure; the entries left over are not valid. -/
def writeStreams (p : Nat) (f : Figure) : Eff := .obs fun d => .seq
  (.each (partStreams d p) fun e => .seq (setReg .STR_ENTRY e 0) (setReg .STR_ENTRY_FMT e 0))
  (.each (f.streams.zip (partStreams d p)) fun x => writeStream p x.2 f x.1)

/-- The cluster and link-die cues a figure names, as keys with their initial values (R49, log entry 15). -/
def wideCues (d : Device) (p : Nat) (f : Figure) : List (Nat × Nat) :=
  f.cues.filterMap fun c => match c.level with
    | 1 => (((leaves f c.owner).head?).bind fun l => leafCore d p f l).map fun core => (clusterCue (core / 16) c.index, c.initial)
    | 2 => ((partLinkDies d p)[c.linkDie]?).map fun l => (linkCue l c.index, c.initial)
    | _ => none

/-- Every cue the new figure names takes its initial value, and every other cue of the partition 0 (R63 step 6). -/
def writeCues (p : Nat) (f : Figure) (old : Option Figure) : Eff := .obs fun d => .all [
  .each (partCores d p) (fun core => .each (List.range 32) fun i =>
    putCues (coreCue core i) ⟨((leafOfCore d p f core).map fun l => initialCue f l i).getD 0, false⟩),
  .each (partClusters d p) (fun cl => .each (List.range 64) fun i => putCues (clusterCue cl i) {}),
  .each ((old.map (wideCues d p)).getD []) (fun x => putCues x.1 {}),
  .each (wideCues d p f) (fun x => putCues x.1 ⟨x.2, false⟩)]

/-- The contexts of a partition after a switch (R412): saved records are invalid; those ready, running or pre-empted are
checked again in ascending number; one that fails becomes idle and refused, and the others are ready to start at step 0. -/
def recheckContexts (p : Nat) (f : Figure) : Eff := .obs fun d =>
  let busy := busyContexts d p
  let again := busy.filter fun c => 1 ≤ d.fld F.CTX_RUN_state c && d.fld F.CTX_RUN_state c ≤ 3
  .all [
    .each busy (fun c => .all [modCtxs c (fun x => { x with saved := [], revoked := [], halting := false }),
      setF F.CTX_FAULT_resume_pending c 0, .when (d.fld F.CTX_RUN_state c ≤ 4) (setF F.CTX_RUN_state c 0)]),
    .each again fun c => .obs fun e =>
      if f.sets.length ≤ e.fld F.CTX_BIND_set c || setConflict e p f c (e.fld F.CTX_BIND_set c) then
        setF F.CTX_BIND_refused c 1
      else setF F.CTX_RUN_state c 1]

/-- Install a figure: R63 steps 5 to 9 for the partition. Each set whose context ran goes on with it, from step 0. -/
def installFigure (p : Nat) (f : Figure) (old : Option Figure) : Eff := .obs fun d =>
  let ran := (busyContexts d p).filter fun c => d.fld F.CTX_RUN_state c == 2
  .all [
    writeStreams p f, dropGroups p f, writeGroups p f, writeCues p f old,
    .each (partCores d p) (fun core => .all [
      putEpochs core 0, emptyBanks core, putHalos core [],
      modCores core fun k => { k with
        seq := {}, checkpoint := {}, ctx := none, lastCtx := none, state := 0, waiting := false,
        acquiring := false, atBeat := true, stopReq := false, ending := false, replayable := true, beatReads := [],
        loaded := ((leafOfCore d p f core).map fun l => (p, l, (f.set l).program)) }]),
    streamerStart p f, recheckContexts p f,
    .each ran fun c => .obs fun e => .when (e.fld F.CTX_RUN_state c == 1) (takeSet p c f)]

/-- Tiles held at a source complete into their destination's buffer, and every tile left in a buffer of the partition's streams
is discarded and counted (R63 steps 1 and 2). `taken` gives, by stream, the tiles its receiver has taken from the buffer since
the last delivery. -/
def dropTiles (p : Nat) (taken : List (Nat × Nat)) : Eff := .obs fun d =>
  let gone (e : Nat) : Nat := ((taken.find? fun t => t.1 == e).map (·.2)).getD 0
  .seq
    (addSat F.FIG_DROPPED_tiles p
      ((partStreams d p).map fun e => (d.strBufAt e).length - gone e + (d.heldTilesAt e).length).sum)
    (.each (partStreams d p) fun e => .all [putStrBuf e [], putHeldTiles e [], setF F.STR_STAT_held e 0])

/-- Every semaphore the partition's sets hold is released marked abandoned, and counted (R63 step 3). -/
def dropSems (p : Nat) : Eff := .obs fun d =>
  let cells := (partCells d p).filter fun c => (d.semsAt c).holder.isSome
  .seq (addSat F.FIG_DROPPED_semaphores p cells.length)
    (.each (partCells d p) fun c => modSems c fun s =>
      { holder := none, mark := if s.holder.isSome then 1 else s.mark, waiters := [] })

/-- The staging slot's share of the area holds an uncorrectable error (R68), that of a lost group among them (R244). -/
def stagingBad (d : Device) (p slot : Nat) : Bool :=
  let (a, n) := slotArea d p slot
  (List.range (n / 64)).any fun i => d.isPoison (a + 64 * i)

/-- Every patch still pending is completed on the stored form of the active slot (R68). -/
def finishPatches (p : Nat) : Eff := .obs fun d =>
  match activeSlot d p with
  | none => .skip
  | some slot => .all [
      modSlots (p * 8 + slot) (Option.map fun f => (d.patchesAt p).foldl Figure.withPatch f),
      putPatches p [], setF F.FIG_STAGE_patch_pending (p * 8 + slot) 0]

/-- A slot whose figure is no longer accepted is invalidated once it is not active (R68, R461). -/
def dropOld (p slot : Nat) : Eff := .obs fun d => .when (slotOld d p slot) (dropSlot p slot)

/-- The switch makes slot `slot` active (R62): its status fields, and the time it took in 25 MHz cycles (R64). -/
def activate (p slot time : Nat) (f : Figure) : Eff := .obs fun d => .all [
  setF F.FIG_STATUS_active_slot p slot, setF F.FIG_STATUS_active_valid p 1, setF F.FIG_STATUS_accuracy p f.accuracy,
  .each (List.range 8) (fun s => setF F.FIG_STAGE_active (p * 8 + s) (if s == slot then 1 else 0)),
  setF F.FIG_SWITCH_TIME_last p (min 65535 time),
  setF F.FIG_SWITCH_TIME_max p (max (d.fld F.FIG_SWITCH_TIME_max p) (min 65535 time))]

/-- SWITCH_PROCEED (R63, R68): once every core has stopped. `time` is the time from then to the first step, in 25 MHz
cycles, and `taken` the tiles that receivers have taken from their buffers. An uncorrectable staging error tears the partition's contexts down; an absent element restarts the old figure. -/
def switchProceed (p time : Nat) (taken : List (Nat × Nat)) : Eff := .obs fun d =>
  match d.switchesAt p with
  | none => .skip
  | some q => .when (allStopped d p) <|
      let slot := q.slot
      let old := d.active p
      .seq (putSwitches p none) <| .seq (dropPages fun x => ctxPart d x.ctx == some p) <|
      match d.slotsAt (p * 8 + slot) with
      | none => .seq (figStatus p 5 0x54 slot) (match old with
          | some g => installFigure p g (some g)
          | none => .skip)
      | some f => .all [
          dropTiles p taken, dropSems p,
          if stagingBad d p slot then .all [
            figStatus p 5 0x5F slot, .each (busyContexts d p) (fun c => teardown c codeDataLost)]
          else if !elementsPresent d p f then .seq (figStatus p 5 0x25 slot) (match old with
            | some g => installFigure p g (some g)
            | none => .skip)
          else .all [
            finishPatches p, activate p slot time f, installFigure p f old, figStatus p 0 0 slot,
            (match activeSlot d p with
             | some o => .when (o != slot) (dropOld p o)
             | none => .skip)]]

/-! ### Staged slots and patches (R62, R66, R68) -/

/-- FIG_STAGE.discard (R62): the slot is invalidated; the active one fails with SLOT_ACTIVE. -/
def discardSlot (p slot : Nat) : Eff := .obs fun d =>
  if activeSlot d p == some slot then figFail p 0x51 slot else dropSlot p slot

def figStageDiscard (rq p slot v : Nat) : Eff := writeAct rq .FIG_STAGE (p * 8 + slot) v 28 (discardSlot p slot)

/-- A write of FIG_MINVER (R68): a lower value is ignored; a higher one is stored and invalidates the staged slots below it,
but not the active one. -/
def raiseMinver (p v : Nat) : Eff := .obs fun d =>
  .when (d.fld F.FIG_MINVER_minver p < v % 4294967296) <| .seq (setF F.FIG_MINVER_minver p v)
    (.each (List.range 8) fun s => .when (activeSlot d p != some s) (dropOld p s))

def figMinverWrite (rq p v : Nat) : Eff := .obs fun d =>
  if mayWrite d rq .FIG_MINVER p != 0 then raiseMinver p v else denied

/-- PATCH_APPLY (R66): the record due for the leaf of a core at a beat boundary is applied. -/
def patchApply (core : Nat) : Eff := .obs fun d =>
  let k := d.coresAt core
  .when (k.atBeat && k.loaded.isSome) (applyPatches core (k.seq.ptr == 0 && k.seq.depth == 0))

end Sys2Proof.Machine
end

