-- ==== Sys2Proof/Machine/Bitstream.lean ====
section
/-! DEFINITION. The two bitstreams as far as R353 to R371 name what stands in them: HEVC NAL units in an Annex B byte stream with
their parameter sets and SEI messages, and AV1 OBUs with their sequence headers. Where a field stands is the two standards' (log
entry 140). -/

namespace Sys2Proof.Machine

/-! ### Reading bits -/

/-- A reader of syntax elements: it takes bits from the front, or meets the end. -/
abbrev BitReader := StateT (List Bool) Option

/-- The bits of some bytes, the most significant of each first. -/
def bitsOf (bs : List Byte) : List Bool := bs.flatMap fun b => (List.range 8).map fun i => b.getLsbD (7 - i)

/-- The bytes some bits make, the last filled up with zeros. -/
def bytesOf (xs : List Bool) : List Byte := (List.range (ceilDiv xs.length 8)).map fun i =>
  BitVec.ofNat 8 ((List.range 8).foldl (fun v j => 2 * v + (xs.getD (8 * i + j) false).toNat) 0)

/-- The value of some bits. -/
def bitsValue (xs : List Bool) : Nat := xs.foldl (fun v b => 2 * v + b.toNat) 0

/-- u(n). -/
def readU (n : Nat) : BitReader Nat := fun xs => if xs.length < n then none else some (bitsValue (xs.take n), xs.drop n)

/-- A flag. -/
def readFlag : BitReader Bool := do return (← readU 1) == 1

/-- ue(v), and uvlc() of AV1. -/
def readUe : BitReader Nat := fun xs =>
  let z := (xs.takeWhile fun b => !b).length
  (readU (z + 1) (xs.drop z)).map fun e => (e.1 - 1, e.2)

/-- A syntax element that is read and not kept, where its flag says that it stands there. -/
def skipWhen (c : Bool) (r : BitReader Unit) : BitReader Unit := if c then r else pure ()

/-- Bits that are not kept. -/
def skipU (n : Nat) : BitReader Unit := do let _ ← readU n

/-- `n` Exp-Golomb numbers that are not kept. -/
def skipUe : Nat → BitReader Unit
  | 0 => pure ()
  | n + 1 => do
    let _ ← readUe
    skipUe n

/-- The same element read `n` times. -/
def readMany {α : Type} (r : BitReader α) : Nat → BitReader (List α)
  | 0 => pure []
  | n + 1 => do
    let x ← r
    return x :: (← readMany r n)

/-- ue(v) as bits. -/
def writeUe (v : Nat) : List Bool :=
  let w := Nat.log2 (v + 1)
  List.replicate w false ++ (List.range (w + 1)).map fun i => (v + 1).testBit (w - i)

/-! ### HEVC NAL units -/

/-- The NAL units of a byte stream from a start code on: each with its offset, the zero bytes before the next start code left out. -/
def nalUnits (bs : List Byte) : List (Nat × List Byte) :=
  let starts := (List.range (bs.length - 2)).filter fun i => (bs.drop i).take 3 == [0, 0, 1]
  (starts.zip (starts.drop 1 ++ [bs.length])).map fun e =>
    (e.1 + 3, (((bs.take e.2).drop (e.1 + 3)).reverse.dropWhile (· == 0)).reverse)

/-- The payload of a NAL unit with its emulation prevention bytes taken out; `z` counts the zeros just before. -/
def unescape : Nat → List Byte → List Byte
  | _, [] => []
  | z, b :: bs =>
    if z == 2 && b == 3 then unescape 0 bs
    else b :: unescape (if b == 0 then min 2 (z + 1) else 0) bs

/-- A payload with emulation prevention bytes put in. -/
def escape : Nat → List Byte → List Byte
  | _, [] => []
  | z, b :: bs =>
    if z == 2 && b.toNat ≤ 3 then 3 :: b :: escape (if b == 0 then 1 else 0) bs
    else b :: escape (if b == 0 then min 2 (z + 1) else 0) bs

/-- The type of a NAL unit, its layer, and the bits of its payload. -/
def nalType (u : List Byte) : Nat := bits (u.headD 0).toNat 6 1
def nalLayer (u : List Byte) : Nat := (u.headD 0).toNat % 2 * 32 + bits (u.getD 1 0).toNat 7 3
def nalBits (u : List Byte) : List Bool := bitsOf (unescape 0 (u.drop 2))

/-- A NAL unit of layer 0 and temporal layer 0. -/
def nalUnit (type : Nat) (payload : List Byte) : List Byte := [BitVec.ofNat 8 (2 * type), 1] ++ escape 0 payload

/-- A NAL unit in the byte stream: VPS, SPS and PPS, and the first unit of an access unit, carry the longer start code. -/
def startCoded (first : Bool) (u : List Byte) : List Byte :=
  (if first || (32 ≤ nalType u && nalType u ≤ 34) then [0] else []) ++ [0, 0, 1] ++ u

/-- The byte stream of an access unit. -/
def annexB (us : List (List Byte)) : List Byte := (us.zipIdx).flatMap fun e => startCoded (e.2 == 0) e.1

/-- The messages of an SEI payload: type and bytes. -/
def seiMessages : Nat → List Byte → List (Nat × List Byte)
  | 0, _ => []
  | fuel + 1, bs =>
    let t := (bs.takeWhile (· == 255)).length
    let bs1 := bs.drop t
    let s := ((bs1.drop 1).takeWhile (· == 255)).length
    let bs2 := bs1.drop (1 + s)
    match bs1, bs2 with
    | b1 :: _, b2 :: rest =>
      if bs == [0x80] then []
      else
        let size := 255 * s + b2.toNat
        (255 * t + b1.toNat, rest.take size) :: seiMessages fuel (rest.drop size)
    | _, _ => []

/-- The messages of a NAL unit that is a prefix SEI. -/
def seiOf (u : List Byte) : List (Nat × List Byte) :=
  if nalType u == 39 then let bs := unescape 0 (u.drop 2); seiMessages bs.length bs else []

/-- A prefix SEI NAL unit with one message. -/
def seiUnit (type : Nat) (payload : List Byte) : List Byte :=
  nalUnit 39 ([BitVec.ofNat 8 type, BitVec.ofNat 8 payload.length] ++ payload ++ [0x80])

/-- The recovery point SEI of the first picture of a sweep of `n` pictures (R371): recovery_poc_cnt n − 1, exact_match_flag 1,
broken_link_flag 0. -/
def recoveryPoint (n : Nat) : List Byte :=
  let cnt := if n ≤ 1 then [true] else writeUe (2 * (n - 1) - 1)
  let xs := cnt ++ [true, false]
  seiUnit 6 (bytesOf (if xs.length % 8 == 0 then xs else xs ++ [true]))

/-- The sweep that a recovery point SEI announces: its pictures, where it counts forward. -/
def sweepOfSei (u : List Byte) : Option Nat :=
  ((seiOf u).find? fun m => m.1 == 6).bind fun m => (readUe (bitsOf m.2)).bind fun e =>
    if e.1 == 0 then some 1 else if e.1 % 2 == 1 then some ((e.1 + 1) / 2 + 1) else none

/-- A filler data NAL unit that takes `n` bytes of the byte stream with its start code (R367). -/
def fillerUnit (n : Nat) : List Byte := [0, 0, 1, 0x4C, 1] ++ List.replicate (n - 6) 255 ++ [0x80]

/-- An end-of-sequence NAL unit with its start code (R357). -/
def endOfSequence : List Byte := [0, 0, 1, 0x48, 1]

/-! ### What a stream's headers say (R353, R355) -/

/-- A stream as its sequence parameters give it: whether the engines support its profile and tier, its level, size, bit depth and
chroma (0 monochrome, 1 4:2:0, 2 4:2:2), the picture buffers it needs, and whether it may carry film grain parameters. -/
def Stream.supported (s : Stream) : Bool :=
  s.profileOk && s.level ≤ (if s.av1 then 17 else 183) && 64 ≤ s.width && s.width ≤ 8192 && 64 ≤ s.height && s.height ≤ 8704 &&
    s.width * s.height ≤ 35651584

/-- The profile, tier and level of HEVC, for `subs` sub-layers above the first: the profiles of the compatibility flags with the
profile itself, the nine constraint flags from general_max_12bit_constraint_flag on, the tier and the level. -/
def readPtl (subs : Nat) : BitReader (List Nat × List Bool × Nat × Nat) := do
  skipU 2
  let tier ← readU 1
  let idc ← readU 5
  let compat ← readMany readFlag 32
  skipU 4
  let flags ← readMany readFlag 9
  skipU 35
  let level ← readU 8
  let subFlags ← readMany (readU 2) subs
  skipWhen (subs != 0) (skipU (2 * (8 - subs)))
  let _ ← (subFlags.foldlM (fun (_ : Unit) f => do
    skipWhen (bit f 1 == 1) (skipU 88)
    skipWhen (bit f 0 == 1) (skipU 8)) () : BitReader Unit)
  return (idc :: (List.range 32).filter fun k => compat.getD k false, flags, tier, level)

/-- HEVC Main, Main 10 or Main 4:2:2 10, by the profile and what it admits (R353). -/
def hevcProfileOk (profiles : List Nat) (flags : List Bool) (chroma depth : Nat) : Bool :=
  (profiles.contains 1 && chroma == 1 && depth == 8) || (profiles.contains 2 && chroma == 1 && depth ≤ 10) ||
  (profiles.contains 4 && chroma ≤ 2 && chroma != 0 && depth ≤ 10 &&
    flags == [true, true, false, true, false, false, false, false, true])

/-- The start of an HEVC sequence parameter set, and what its rest depends on. -/
structure SpsHead where
  stream : Stream
  tier : Nat
  profiles : List Nat
  subs : Nat
  pocBits : Nat
  deriving DecidableEq, Repr

/-- An HEVC sequence parameter set up to the picture buffers it needs. -/
def readSpsHead : BitReader SpsHead := do
  skipU 4
  let subs ← readU 3
  skipU 1
  let (profiles, flags, tier, level) ← readPtl subs
  let _ ← readUe
  let chroma ← readUe
  skipWhen (chroma == 3) (skipU 1)
  let w ← readUe
  let h ← readUe
  let window ← readFlag
  let crop ← if window then readMany readUe 4 else pure [0, 0, 0, 0]
  let dl ← readUe
  let dc ← readUe
  let poc ← readUe
  let ordering ← readFlag
  let rows ← readMany (readMany readUe 3) (if ordering then subs + 1 else 1)
  let cw := if chroma == 1 || chroma == 2 then 2 else 1
  let ch := if chroma == 1 then 2 else 1
  let depth := 8 + max dl dc
  return {
    stream := {
      av1 := false
      profileOk := hevcProfileOk profiles flags chroma depth
      level := level
      width := w - cw * (crop.getD 0 0 + crop.getD 1 0)
      height := h - ch * (crop.getD 2 0 + crop.getD 3 0)
      depth := depth
      chroma := chroma
      buffers := ((rows.getLastD []).headD 0) + 1
      grain := false }
    tier := tier, profiles := profiles, subs := subs, pocBits := poc + 4 }

/-- A short-term reference picture set of a sequence parameter set: `prev` holds how many pictures the one before it names, none for
the first. The answer is its own number. -/
def readRps (prev : Option Nat) : BitReader Nat := do
  let predicted ← if prev.isSome then readFlag else pure false
  if predicted then
    skipU 1
    let _ ← readUe
    let used ← readMany (do
      let u ← readFlag
      if u then return true else readFlag) (prev.getD 0 + 1)
    return (used.filter id).length
  else
    let neg ← readUe
    let pos ← readUe
    let _ ← readMany (do
      let _ ← readUe
      skipU 1) (neg + pos)
    return neg + pos

/-- All of them. -/
def readRpsList (prev : Option Nat) : Nat → BitReader Unit
  | 0 => pure ()
  | n + 1 => do
    let k ← readRps prev
    readRpsList (some k) n

/-- What the buffer model of a stream signals (R368): NAL HRD with one buffer, its bit rate and size, and cbr_flag. -/
structure Hrd where
  nal : Bool
  buffers : Nat
  rate : Nat
  size : Nat
  cbr : Bool
  deriving DecidableEq, Repr

/-- The HRD parameters of HEVC, those of the highest sub-layer kept. -/
def readHrd (subs : Nat) : BitReader Hrd := do
  let nal ← readFlag
  let vcl ← readFlag
  let sub ← if nal || vcl then readFlag else pure false
  skipWhen sub (skipU 19)
  let scales ← if nal || vcl then readU 8 else pure 0
  skipWhen sub (skipU 4)
  skipWhen (nal || vcl) (skipU 15)
  let cpb (n : Nat) : BitReader (List (Nat × Nat × Bool)) := readMany (do
    let r ← readUe
    let s ← readUe
    skipWhen sub (skipUe 2)
    let c ← readFlag
    return (r, s, c)) n
  let layers ← readMany (do
    let general ← readFlag
    let within ← if general then pure true else readFlag
    let lowDelay ← if within then do
        let _ ← readUe
        pure false
      else readFlag
    let n ← if lowDelay then pure 0 else readUe
    let a ← if nal then cpb (n + 1) else pure []
    let _ ← if vcl then cpb (n + 1) else pure []
    return a) (subs + 1)
  let last := layers.getLastD []
  let (r, s, c) := last.headD (0, 0, false)
  return { nal := nal, buffers := last.length, rate := (r + 1) * 2 ^ (6 + bits scales 7 4), size := (s + 1) * 2 ^ (4 + bits scales 3 0),
           cbr := c }

/-- What a sequence parameter set an encoder writes says: the block sizes, tools it must not use, temporal prediction of motion, the
colour description with the range first, and the HRD. -/
structure SpsTail where
  ctu : Nat
  minCu : Nat
  minTu : Nat
  maxTu : Nat
  excluded : Bool
  tmvp : Bool
  colour : List Nat
  hrd : Option Hrd
  deriving DecidableEq, Repr

/-- The rest of an HEVC sequence parameter set without scaling lists, PCM or long-term references, as an encoder of R354 writes it. -/
def readSpsTail (x : SpsHead) : BitReader SpsTail := do
  let minCb ← readUe
  let diffCb ← readUe
  let minTb ← readUe
  let diffTb ← readUe
  skipUe 2
  let scaling ← readFlag
  skipU 2
  let pcm ← readFlag
  if scaling || pcm then
    return { ctu := 0, minCu := 0, minTu := 0, maxTu := 0, excluded := true, tmvp := false, colour := [], hrd := none }
  let sets ← readUe
  readRpsList none sets
  let longTerm ← readFlag
  skipWhen longTerm (do
    let n ← readUe
    skipU (n * (x.pocBits + 1)))
  let tmvp ← readFlag
  skipU 1
  let vui ← readFlag
  let (colour, hrd) ← if !vui then pure ([], none) else do
    let aspect ← readFlag
    let idc ← if aspect then readU 8 else pure 0
    skipWhen (aspect && idc == 255) (skipU 32)
    let overscan ← readFlag
    skipWhen overscan (skipU 1)
    let signal ← readFlag
    let range ← if signal then readU 4 else pure 0
    let described ← if signal then readFlag else pure false
    let cs ← if described then readMany (readU 8) 3 else pure []
    let loc ← readFlag
    skipWhen loc (skipUe 2)
    skipU 3
    let window ← readFlag
    skipWhen window (skipUe 4)
    let timing ← readFlag
    skipWhen timing (skipU 64)
    let poc ← if timing then readFlag else pure false
    skipWhen poc (skipUe 1)
    let present ← if timing then readFlag else pure false
    let h ← if present then some <$> readHrd x.subs else pure none
    pure (if described then range % 2 :: cs else [], h)
  return { ctu := 2 ^ (minCb + 3 + diffCb), minCu := 2 ^ (minCb + 3), minTu := 2 ^ (minTb + 2), maxTu := 2 ^ (minTb + 2 + diffTb),
           excluded := longTerm, tmvp := tmvp, colour := colour, hrd := hrd }

/-- A sequence parameter set that an encoder writes. -/
def readSps : BitReader (SpsHead × SpsTail) := do
  let x ← readSpsHead
  let y ← readSpsTail x
  return (x, y)

/-- A picture parameter set uses a tool the encoder does not have (R354, R355): dependent slices, weighted prediction, transquant
bypass, tiles, wavefronts or scaling lists. -/
def readPpsExcluded : BitReader Bool := do
  skipUe 2
  let dependent ← readFlag
  skipU 4
  skipU 2
  skipUe 3
  skipU 2
  let delta ← readFlag
  skipWhen delta (skipUe 1)
  skipUe 2
  skipU 1
  let tools ← readMany readFlag 5
  if dependent || tools.contains true then return true
  skipU 1
  let control ← readFlag
  let disabled ← if control then (fun v => bit v 0 == 1) <$> readU 2 else pure true
  skipWhen (control && !disabled) (skipUe 2)
  readFlag

/-! ### AV1 OBUs -/

/-- leb128(): the value and the rest. -/
def leb128 : Nat → List Byte → Option (Nat × List Byte)
  | 0, _ => none
  | _, [] => none
  | fuel + 1, b :: bs =>
    if b.toNat < 128 then some (b.toNat, bs)
    else (leb128 fuel bs).map fun e => (b.toNat - 128 + 128 * e.1, e.2)

/-- leb128() in exactly `n` bytes. -/
def toLeb : Nat → Nat → List Byte
  | 0, _ => []
  | 1, v => [BitVec.ofNat 8 (v % 128)]
  | n + 2, v => BitVec.ofNat 8 (128 + v % 128) :: toLeb (n + 1) (v / 128)

/-- The bytes leb128() needs at least. -/
def lebSize : Nat → Nat → Nat
  | 0, _ => 1
  | fuel + 1, v => if v < 128 then 1 else 1 + lebSize fuel (v / 128)

/-- An OBU: where its payload stands in the input, its type and its payload. -/
structure Obu where
  at_ : Nat
  type : Nat
  body : List Byte
  deriving DecidableEq, Repr

/-- One OBU of `size` bytes, or of the size it gives, from offset `o` of some bytes; the offset after it. -/
def readObu (o : Nat) (size : Option Nat) (bs : List Byte) : Option (Obu × Nat) :=
  match bs with
  | [] => none
  | h :: rest =>
    let ext := bit h.toNat 2
    let body := rest.drop ext
    let head := 1 + ext
    if bit h.toNat 1 == 1 then
      (leb128 8 body).bind fun e =>
        let k := body.length - e.2.length
        if e.2.length < e.1 then none
        else some ({ at_ := o + head + k, type := bits h.toNat 6 3, body := e.2.take e.1 }, (size.getD (head + k + e.1)) + o)
    else size.bind fun n => if n < head || bs.length < n then none
      else some ({ at_ := o + head, type := bits h.toNat 6 3, body := body.take (n - head) }, o + n)

/-- The OBUs of the low-overhead form. -/
def obuList (bs : List Byte) : Nat → Nat → Option (List Obu)
  | 0, _ => some []
  | fuel + 1, o =>
    if bs.length ≤ o then some []
    else (readObu o none (bs.drop o)).bind fun e => (obuList bs fuel e.2).map (e.1 :: ·)

/-- A length-delimited unit of the Annex B form: where its bytes begin and end. -/
def sizedUnits (bs : List Byte) (stop : Nat) : Nat → Nat → Option (List (Nat × Nat))
  | 0, _ => some []
  | fuel + 1, o =>
    if stop ≤ o then some []
    else (leb128 8 (bs.drop o)).bind fun e =>
      let start := bs.length - e.2.length
      if stop < start + e.1 then none else (sizedUnits bs stop fuel (start + e.1)).map ((start, start + e.1) :: ·)

/-- The OBUs of the Annex B form: temporal units of frame units of OBUs, each with its length before it. -/
def obuListB (bs : List Byte) : Option (List Obu) := do
  let n := bs.length
  let temporal ← sizedUnits bs n n 0
  let frames ← temporal.mapM fun e => sizedUnits bs e.2 n e.1
  let obus ← frames.flatten.mapM fun e => sizedUnits bs e.2 n e.1
  obus.flatten.mapM fun e => (readObu e.1 (some (e.2 - e.1)) ((bs.take e.2).drop e.1)).map (·.1)

/-- An OBU with its size field (R354). -/
def obuUnit (type : Nat) (payload : List Byte) : List Byte :=
  BitVec.ofNat 8 (8 * type + 2) :: toLeb (lebSize 8 payload.length) payload.length ++ payload

/-- The payload bytes of a padding OBU of `n` bytes in all, and the bytes of its size field (R367). -/
def paddingSplit (n : Nat) : Nat × Nat :=
  let k := ((List.range 9).find? fun k => n - 1 - k < 128 ^ k && 0 < k).getD 8
  (n - 1 - k, k)

/-- An OBU_PADDING of `n` bytes: its padding is `pad`, and its last byte the trailing bit. -/
def paddingUnit (n : Nat) (pad : Nat → Byte) : List Byte :=
  let (p, k) := paddingSplit n
  [0x7A] ++ toLeb k p ++ (if p == 0 then [] else (List.range (p - 1)).map pad ++ [0x80])

/-- The payload of the metadata OBU of gradual refresh (R371): the first picture of a sweep or not, a sweep of `n` pictures at position
`k`, and columns of `column` luma samples. -/
def axgr (first : Bool) (n k column : Nat) : List Byte :=
  let be (v : Nat) : List Byte := [BitVec.ofNat 8 (v / 256), BitVec.ofNat 8 v]
  [0x41, 0x58, 0x47, 0x52, 1, if first then 1 else 0] ++ be n ++ be k ++ be column ++ [16]

/-- The metadata OBU that carries it, and its trailing bit. -/
def axgrUnit (first : Bool) (n k column : Nat) : List Byte := obuUnit 5 (6 :: axgr first n k column ++ [0x80])

/-- The sweep that a metadata OBU of gradual refresh begins: its pictures, at the first picture of a sweep. -/
def sweepOfObu (b : Obu) : Option Nat :=
  if b.type == 5 && b.body.take 6 == [6, 0x41, 0x58, 0x47, 0x52, 1] && 14 ≤ b.body.length && (b.body.getD 6 0).toNat % 2 == 1 then
    some ((b.body.getD 7 0).toNat * 256 + (b.body.getD 8 0).toNat)
  else none

/-- What an AV1 sequence header says beyond the stream itself: its tier, the decoder model of operating point 0 (whether timing
information, a decoder model and its parameters for that point are present, and its two delays), a tool the encoder must not use, and
the colour with the range first. -/
structure SeqTail where
  tier : Nat
  timing : Bool
  model : Bool
  forOp : Bool
  decoderDelay : Nat
  encoderDelay : Nat
  excluded : Bool
  colour : List Nat
  deriving DecidableEq, Repr

/-- The operating points of a sequence header: level, tier and, where it stands there, the model of each. -/
def readOpPoint (model : Bool) (delayBits : Nat) (display : Bool) : BitReader (Nat × Nat × Option (Nat × Nat)) := do
  skipU 12
  let level ← readU 5
  let tier ← if 7 < level then readU 1 else pure 0
  let here ← if model then readFlag else pure false
  let m ← if here then do
      let a ← readU delayBits
      let b ← readU delayBits
      skipU 1
      pure (some (a, b))
    else pure none
  let shown ← if display then readFlag else pure false
  skipWhen shown (skipU 4)
  return (level, tier, m)

/-- The colour configuration: bit depth, chroma (0 to 2, 3 for 4:4:4) and the colour description with the range first. -/
def readColour (profile : Nat) : BitReader (Nat × Nat × List Nat) := do
  let high ← readFlag
  let twelve ← if profile == 2 && high then readFlag else pure false
  let mono ← if profile == 1 then pure false else readFlag
  let described ← readFlag
  let cs ← if described then readMany (readU 8) 3 else pure [2, 2, 2]
  let depth := if twelve then 12 else if high then 10 else 8
  if mono then
    let range ← readU 1
    return (depth, 0, range :: cs)
  else if cs == [1, 13, 0] then
    skipU 1
    return (depth, 3, 1 :: cs)
  else
    let range ← readU 1
    let chroma ← if profile == 0 then pure 1 else if profile == 1 then pure 3 else if !twelve then pure 2 else do
      let x ← readU 1
      let y ← if x == 1 then readU 1 else pure 0
      pure (if y == 1 then 1 else if x == 1 then 2 else 3)
    skipWhen (chroma == 1) (skipU 2)
    skipU 1
    return (depth, chroma, range :: cs)

/-- An AV1 sequence header. -/
def readSeq : BitReader (Stream × SeqTail) := do
  let profile ← readU 3
  skipU 1
  let reduced ← readFlag
  let timing ← if reduced then pure false else readFlag
  skipWhen timing (skipU 64)
  let equal ← if timing then readFlag else pure false
  skipWhen equal (skipUe 1)
  let model ← if timing then readFlag else pure false
  let delayBits ← if model then do
      let n ← readU 5
      skipU 42
      pure (n + 1)
    else pure 0
  let display ← if reduced then pure false else readFlag
  let count ← if reduced then pure 0 else readU 5
  let points ← if reduced then do
      let l ← readU 5
      pure [(l, 0, none)]
    else readMany (readOpPoint model delayBits display) (count + 1)
  let wBits ← readU 4
  let hBits ← readU 4
  let w ← readU (wBits + 1)
  let h ← readU (hBits + 1)
  let ids ← if reduced then pure false else readFlag
  skipWhen ids (skipU 7)
  let big ← readFlag
  skipU 2
  let tools ← if reduced then pure (0, false) else do
    let masks ← readU 3
    skipU 1
    let hint ← readFlag
    let jnt ← if hint then readU 2 else pure 0
    let choose ← readFlag
    let force ← if choose then pure 2 else readU 1
    let mv ← if 0 < force then readFlag else pure true
    skipWhen (!mv) (skipU 1)
    skipWhen hint (skipU 3)
    pure (masks, bit jnt 1 == 1)
  let super ← readFlag
  skipU 2
  let (depth, chroma, colour) ← readColour profile
  let grain ← readFlag
  let (level, tier, m) := points.headD (0, 0, none)
  return ({
      av1 := true, profileOk := profile == 0 && depth ≤ 10 && chroma ≤ 1, level := level, width := w + 1, height := h + 1,
      depth := depth, chroma := chroma, buffers := 0, grain := grain },
    { tier := tier, timing := timing, model := model, forOp := m.isSome, decoderDelay := (m.getD (0, 0)).1,
      encoderDelay := (m.getD (0, 0)).2, excluded := big || tools.1 != 0 || tools.2 || super || grain, colour := colour })

/-- The start of a frame header: whether it shows an existing frame, its type, and whether it is shown. -/
def readFrame : BitReader (Bool × Nat × Bool) := do
  let existing ← readFlag
  if existing then return (true, 1, true)
  let type ← readU 2
  let shown ← readFlag
  return (false, type, shown)

end Sys2Proof.Machine
end

