-- ==== Sys2Proof/Machine/Video.lean ====
section
/-! DEFINITION. The codec engines: sessions, rate control against the receiver's buffer, gradual refresh, decoding into a
pool, and job completion (14_video_coding.md). What samples a picture decodes to and which bits its blocks code to are the
standards' and come with the command (log entry 27). -/

namespace Sys2Proof.Machine

/-! ### The session block (R360, R361) -/

/-- A field of a session block. -/
def Session.field (s : Session) (o k : Nat) : Nat := num s.block o k

def Session.isAv1 (s : Session) : Bool := s.field 0 1 == 1
def Session.encodes (s : Session) : Bool := s.field 1 1 == 1
def Session.width (s : Session) : Nat := s.field 4 2
def Session.height (s : Session) : Nat := s.field 6 2
def Session.fpsNum (s : Session) : Nat := s.field 8 4
def Session.fpsDen (s : Session) : Nat := s.field 0xC 4
def Session.rcMode (s : Session) : Nat := s.field 0x10 1
def Session.bitrate (s : Session) : Nat := s.field 0x14 4
def Session.cpb (s : Session) : Nat := s.field 0x18 4
def Session.guard (s : Session) : Nat := if s.field 0x20 4 == 0 then s.cpb / 64 else s.field 0x20 4
def Session.qpMax (s : Session) : Nat := s.field 0x2A 1
def Session.ctu (s : Session) : Nat := if s.isAv1 then 64 else s.field 0x30 1

/-- The unit of the buffer model: bits are counted in 1 / (90,000 × fps_num), so that every quantity is whole. -/
def Session.scale (s : Session) : Nat := 90000 * s.fpsNum

/-- The bits arriving in one picture interval, scaled (R361). -/
def Session.arriving (s : Session) : Nat := s.bitrate * s.fpsDen * 90000

/-- The initial fullness, scaled (R361). -/
def Session.firstFullness (s : Session) : Nat := s.field 0x1C 4 * s.bitrate * s.fpsNum

/-- CTU or superblock rows and columns, and the bits a row takes at most in forced mode (R361, R366). -/
def Session.rows (s : Session) : Nat := ceilDiv s.height s.ctu
def Session.columns (s : Session) : Nat := ceilDiv s.width s.ctu
def Session.rowBits (s : Session) : Nat := 64 * s.columns + 256

/-- A session needs what the engines do not support (R353, R355). -/
def Session.unsupported (s : Session) : Bool :=
  (if s.isAv1 then 17 else 183) < s.field 0x31 1 || (s.field 3 1 == 2 && (s.encodes || s.isAv1)) ||
  s.width < 64 || 8192 < s.width || s.height < 64 || 8704 < s.height || 35651584 < s.width * s.height ||
  (s.encodes && (s.width % 8 != 0 || s.height % 8 != 0))

/-- A field of a session block is out of range (R360). -/
def Session.outOfRange (s : Session) : Bool :=
  let f := s.field
  let qpTop := if s.isAv1 then 255 else 51
  1 < f 0 1 || 1 < f 1 1 || (f 2 1 != 8 && f 2 1 != 10) || (f 3 1 != 1 && f 3 1 != 2) || s.fpsNum == 0 || s.fpsDen == 0 ||
  3 < f 0x32 1 || f 0x33 1 != 0 || f 0x3B 1 != 0 || !allZero ((s.block.drop 0x50).take 48) ||
  (if s.encodes then
    2 < s.rcMode || 1 < f 0x11 1 || (if f 0x11 1 == 1 then f 0x12 1 != 2 && f 0x12 1 != 4 && f 0x12 1 != 8 else f 0x12 1 != 1) ||
    f 0x13 1 == 0 || 4 < f 0x13 1 || qpTop < s.qpMax || (f 0x2B 1 != 0 && (f 0x2B 1 < 8 || 128 < f 0x2B 1)) ||
    (if s.isAv1 then f 0x30 1 != 64 else f 0x30 1 != 32 && f 0x30 1 != 64) || f 0x38 2 != 0 ||
    (s.rcMode != 0 && (s.bitrate % 64 != 0 || s.bitrate == 0 || s.cpb % 16 != 0))
  else
    f 0x38 2 < 10 || 32 < f 0x38 2 || 16 ≤ f 0x3A 1 || 2 ^ f 0x3A 1 < f 0x38 2 || bit (f 0x3C 4) 31 != 1 || bits (f 0x3C 4) 8 0 != 0 ||
    72057594037927936 ≤ f 0x40 8 || 72057594037927936 ≤ f 0x48 8)

/-- The checks of OPEN beyond the ranges (R361); every comparison is scaled. -/
def Session.refused (s : Session) : Bool :=
  let f := s.field
  let k := s.scale
  s.encodes && (s.qpMax < f 0x28 1 || f 0x28 1 < f 0x29 1 || (f 0x2B 1 != 0 && f 0x11 1 == 1) ||
    (s.rcMode != 0 && (!Config.levelAllows (f 0 1) (f 0x31 1) s.bitrate s.cpb ||
      s.cpb * k < s.arriving + (s.guard + 64) * k || s.cpb * k < s.firstFullness ||
      s.arriving < (8192 + s.rows * s.rowBits) * k || s.firstFullness < (8192 + s.rows * s.rowBits + s.guard) * k)))

/-! ### Jobs (R357) -/

def Desc.op (x : Desc) : Nat := bits x.ctrl 30 27
def Desc.session (x : Desc) : Nat := bits x.ctrl 19 16

/-- The engine of a codec ring. -/
def vceOf (n : Nat) : Nat := (n - 9984) / 8

/-- A job descriptor with a reserved bit set or a bad op (R357, R358, R359). -/
def badJob (x : Desc) : Bool :=
  bits x.ctrl 26 20 != 0 || bits x.ctrl 13 0 != 0 || x.op == 0 || 5 < x.op || bits x.cue 8 0 != 0 ||
  (x.op != 3 && x.length != 0) || (x.op != 2 && x.op != 4 && x.num 0x10 8 != 0) ||
  72057594037927936 ≤ x.num 8 8 || 72057594037927936 ≤ x.num 0x10 8

/-- What a codec engine checks as it takes a job. -/
def vceCheck (_ : Device) (x : Desc) : Option Nat := if badJob x then some 7 else none

/-- A job ends: its status and its results. -/
def jobEnd (n : Nat) (x : Desc) (status r0 r1 us : Nat) : Eff :=
  modDesc n x.index fun y => { y with status := some status, results := [r0, r1, us] }

/-- The sessions of an engine that are open. -/
def openSessions (d : Device) (e : Nat) : List Nat := (List.range 16).filter fun k => (d.sessionsAt (e * 16 + k)).isSome

/-- VCE_LOAD.sessions follows the sessions open. -/
def countSessions (e : Nat) : Eff := .obs fun d => setF F.VCE_LOAD_sessions e (openSessions d e).length

/-- Close a session. -/
def closeSession (e k : Nat) : Eff := .seq (putSessions (e * 16 + k) none) (countSessions e)

/-- A session waits for a pool buffer with job `x` of ring `n`. -/
def jobWaits (d : Device) (n : Nat) (x : Desc) : Bool :=
  (openSessions d (vceOf n)).any fun k => (d.sessionsAt (vceOf n * 16 + k)).any fun s => s.ring == n && s.job == some x.index

/-- The job of a ring the engine would take next: its oldest without a status, unless it waits for a buffer or the ring
will halt. -/
def nextJob (d : Device) (n : Nat) : Option Desc :=
  match (d.ringsAt n).find? (·.status.isNone) with
  | some x => if jobWaits d n x || (d.ringsAt n).any (·.status.any (halts n)) then none else some x
  | none => none

/-- The engine serves its rings. -/
def engineServes (d : Device) (e : Nat) : Bool :=
  (dieOfSite d (e / 2)).isSome && d.fld F.VCE_CTRL_enable e == 1 && d.fld F.VCE_CTRL_fw_ready e == 1 &&
    d.fld F.VCE_CTRL_retired e == 0

/-- The ring whose job an engine takes next, in ring order (R356). -/
def jobTurn (d : Device) (e : Nat) : Option (Nat × Desc) :=
  let ring := nextInTurn (d.rrAt (32 + e)) (((List.range 8).map (vceRing e)).filter fun n =>
    ringServed d n && (ringState d n == 2) && (nextJob d n).isSome)
  ring.bind fun n => (nextJob d n).map fun x => (n, x)

/-- Run the engine's next job where its op is `op`. -/
def onJob (e op : Nat) (run : Nat → Desc → Eff) : Eff := .obs fun d =>
  .when (engineServes d e) <|
    match jobTurn d e with
    | some (n, x) => .when (x.op == op) (.seq (putRr (32 + e) n) (run n x))
    | none => .skip

/-- Run a job on its session, which must be open on its ring and of a direction that has the op (R356, R359). -/
def onSession (e op us : Nat) (dir : Session → Bool) (run : Nat → Desc → Nat → Session → Eff) : Eff :=
  onJob e op fun n x => .obs fun d =>
    match d.sessionsAt (e * 16 + x.session) with
    | some s => if s.ring == n && dir s then run n x (e * 16 + x.session) s else jobEnd n x 9 0 0 us
    | none => jobEnd n x 9 0 0 us

/-- VCE_OPEN (R361): the session block is read and checked, and a session allocated. -/
def vceOpen (e us : Nat) (fixed lost : List Nat) : Eff := onJob e 1 fun n x => .obs fun d =>
  match translateRange d (ringCtx d n) (x.num 8 8) .read 128 with
  | none => jobEnd n x 1 0 0 us
  | some as => .when (!agentHeld d (ringPart d n) as) <| .seq (agentReads n as fixed lost) <| .obs fun d =>
    let s : Session := { ring := n, block := d.bytesAt as }
    let s := { s with fullness := s.firstFullness }
    let spare := (List.range 16).filter fun k => !(openSessions d e).contains k
    if anyPoison d as then jobEnd n x 3 0 0 us
    else if s.unsupported then .seq (jobEnd n x 10 0 0 us) (addSat F.VCE_ERR_unsupported e 1)
    else if s.outOfRange || s.refused || spare == [] then jobEnd n x 8 0 0 us
    else withFree fun v =>
      let k := spare.getD (v % spare.length) 0
      .all [putSessions (e * 16 + k) (some s), countSessions e, jobEnd n x 0 k 0 us]

/-! ### Picture buffers (R362) -/

/-- The layout of a picture buffer: its pitch, its rows of luma and of chroma with the rows they are filled up to, for a size, a bit
depth and a chroma format (0 and 1: 4:2:0, 2: 4:2:2). -/
def pitchOf (w depth : Nat) : Nat := ceilDiv (w * (if depth == 10 then 2 else 1)) 256 * 256
def lumaRows (h : Nat) : Nat := ceilDiv h 16 * 16
def chromaRows (h chroma : Nat) : Nat := if chroma == 2 then lumaRows h else lumaRows h / 2

/-- The bytes of a picture buffer, without the rounding of a pool. -/
def bufferSize (w h depth chroma : Nat) : Nat := pitchOf w depth * (lumaRows h + chromaRows h chroma)

/-- The picture buffer of a session. -/
def picSize (s : Session) : Nat := bufferSize s.width s.height (s.field 2 1) (s.field 3 1)

/-- The distance between the buffers of a pool. -/
def poolStride (s : Session) : Nat := ceilDiv (picSize s) 65536 * 65536

/-- How many chroma values a picture has: the pairs of its rows. -/
def chromaCount (w h chroma : Nat) : Nat := if chroma == 0 then 0 else 2 * ceilDiv w 2 * (if chroma == 2 then h else ceilDiv h 2)

/-- The sample at a place of a buffer row, where the picture has one there: row `r` of the buffer, value `c` of the row. Monochrome
fills the chroma plane with mid-grey. -/
def bufferSample (q : Picture) (r c : Nat) : Option Nat :=
  let w2 := 2 * ceilDiv q.width 2
  let rows2 := if q.chroma == 2 then q.height else ceilDiv q.height 2
  let r2 := r - lumaRows q.height
  if r < lumaRows q.height then (if r < q.height && c < q.width then some (q.luma.getD (r * q.width + c) 0) else none)
  else if r2 < rows2 && c < w2 then some (if q.chroma == 0 then 2 ^ (q.depth - 1) else q.chromas.getD (r2 * w2 + c) 0)
  else none

/-- The bytes of a decoded picture's buffer; `pad` gives those the spec leaves undefined. -/
def bufferBytes (q : Picture) (pad : Nat → Byte) : List Byte :=
  let pitch := pitchOf q.width q.depth
  let k := if q.depth == 10 then 2 else 1
  (List.range (bufferSize q.width q.height q.depth q.chroma)).map fun i =>
    match bufferSample q (i / pitch) (i % pitch / k) with
    | some v => BitVec.ofNat 8 (v / 256 ^ (i % pitch % k))
    | none => pad i

/-! ### Rate control (R365 to R367) -/

/-- Rate control while a picture is coded: bits written, the QP of the next row, the sum of the QPs of the rows written,
the largest row coded at qp_max, whether the rows are coded at qp_max, and which stages were used. -/
structure RcState where
  written : Nat
  qp : Nat
  qpSum : Nat
  atMaxBits : Option Nat
  atMax : Bool
  stages : List Nat
  deriving DecidableEq, Repr

/-- The test of stage 2 by the estimate of R366: s_r + (R − r) × e_r > L_n, where e_r is a / r × 2^((q̄ − qp_max) / k); `x`
is (L_n − s_r), and both sides are raised to the power r × k so that they are whole. -/
def estimateExceeds (rows r a qpSum qpMax k x scale : Nat) : Bool :=
  x ^ (r * k) * 2 ^ (r * qpMax - qpSum) * r ^ (r * k) < ((rows - r) * a * scale) ^ (r * k)

/-- Row `r` of `rows` of a picture: the bits it takes at the QP in use, at qp_max and in forced mode, with the rows after
it in forced mode (R366). `limit` is L_n and `target` T_n, scaled. The answer says whether the picture is finished. -/
def codeRow (s : Session) (h limit target r normal atMax forcedRest : Nat) (q : RcState) : RcState × Bool :=
  let k := s.scale
  let rows := s.rows
  let sr := q.written + normal
  let beyond (w : Nat) : Bool := limit < (w + (rows - r) * s.rowBits) * k
  let force : RcState × Bool := ({ q with written := q.written + forcedRest, stages := q.stages ++ [3] }, true)
  let step := if s.isAv1 then 4 else 1
  let est := match q.atMaxBits with
    | some b => limit < (sr + (rows - r) * b) * k
    | none => limit < sr * k || estimateExceeds rows r (sr - h) (q.qpSum + q.qp) s.qpMax (if s.isAv1 then 24 else 6) (limit - sr * k) k
  if beyond sr then force
  else if q.qp < s.qpMax && !q.atMax && est then
    let w := q.written + atMax
    if beyond w then ({ force.1 with stages := q.stages ++ [2, 3] }, true)
    else ({ q with written := w, qp := s.qpMax, qpSum := q.qpSum + s.qpMax, atMax := true, stages := q.stages ++ [2],
                   atMaxBits := some (max atMax (q.atMaxBits.getD 0)) }, false)
  else
    let q1 := { q with
      written := sr
      qpSum := q.qpSum + q.qp
      atMaxBits := if q.qp == s.qpMax then some (max normal (q.atMaxBits.getD 0)) else q.atMaxBits }
    if r < rows && target * r < (sr * r + (rows - r) * (sr - h)) * k && q.qp < s.qpMax then
      ({ q1 with qp := min s.qpMax (q.qp + step), stages := if q.stages.contains 1 then q.stages else q.stages ++ [1] }, false)
    else (q1, false)

/-- The rows of a picture in order: the bits of each at the QP in use, at qp_max and in forced mode. -/
def codeRows (s : Session) (h limit target : Nat) : Nat → List (Nat × Nat × Nat) → RcState → RcState
  | _, [], q => q
  | r, (a, b, c) :: rest, q =>
    let forcedRest := c + (rest.map (·.2.2)).sum
    match codeRow s h limit target r a b forcedRest q with
    | (q', true) => q'
    | (q', false) => codeRows s h limit target (r + 1) rest q'

/-- The filler bytes of a CBR picture of `b` bits: the fewest that bring the next fullness to cpb_size or below (R367). -/
def fillerBytes (s : Session) (b : Nat) : Nat :=
  let next := s.fullness + s.arriving - b * s.scale
  if s.rcMode == 1 && s.cpb * s.scale < next then
    max (if s.isAv1 then 2 else 6) (ceilDiv (next - s.cpb * s.scale) (8 * s.scale)) else 0

/-- The buffer's fullness after a picture of `b` bits, filler included (R365). -/
def nextFullness (s : Session) (b : Nat) : Nat :=
  let f := s.fullness + s.arriving - b * s.scale
  if s.rcMode == 2 then min f (s.cpb * s.scale) else f

/-! ### Gradual refresh (R369) -/

/-- Pictures of a sweep: ceil(C / w), where w = ceil(C / P). -/
def sweepLength (s : Session) : Nat := ceilDiv s.columns (ceilDiv s.columns (s.field 0x2B 1))

/-- The next input picture is a key picture: the first, one asked for, or one due by key_interval. -/
def isKey (s : Session) (asked : Bool) : Bool :=
  asked || match s.sinceKey with
    | none => true
    | some n => s.field 0x2C 4 != 0 && s.field 0x2C 4 ≤ n

/-- A session after a picture is coded with `b` bits. -/
def afterPicture (s : Session) (key : Bool) (b : Nat) : Session := { s with
  fullness := if s.rcMode == 0 then s.fullness else nextFullness s b
  sweep := if s.field 0x2B 1 == 0 || key then 0 else (s.sweep + 1) % sweepLength s }

/-- A session after it has taken an input picture. -/
def afterInput (s : Session) (key : Bool) : Session := { s with sinceKey := some (if key then 1 else (s.sinceKey.getD 0) + 1) }

/-- `n` bytes whose values the spec does not give. -/
def freeBytes (n : Nat) (k : List Byte → Eff) : Eff := .obs fun d =>
  .seq (putFree (d.free + n)) (k ((List.range n).map fun i => (Config.freeWord (d.free + i)).setWidth 8))

/-- The picture after rate control: header bits, starting QP, the rows' bits. -/
def runRc (s : Session) (h qp : Nat) (rows : List (Nat × Nat × Nat)) : RcState :=
  let limit := s.fullness - s.guard * s.scale
  let avg := if s.field 0x24 4 == 0 then s.bitrate else s.field 0x24 4
  let target := if s.rcMode == 2 then avg * s.fpsDen * 90000 else s.arriving
  codeRows s h limit target 1 rows { written := h, qp := qp, qpSum := 0, atMaxBits := none, atMax := false, stages := [] }

/-- Result 1 of an ENCODE (R357). -/
def encodeResult (s : Session) (key : Bool) (qp stage : Nat) : Nat :=
  let sweeping := s.field 0x2B 1 != 0 && !key
  qp % 256 + (if key then 256 else 0) + (if sweeping && s.sweep == 0 then 512 else 0) + stage * 1024 +
    (if sweeping then s.sweep * 65536 else 0)

/-- A clean block of the picture at position `k` of a sweep (R369, R370): the refresh column is intra; an inter block references
pictures of its own sweep, its widened reference block in their reliable columns; an intra block that would reach a dirty sample uses
DC prediction. Forced blocks are coded without motion or as DC (R366). -/
def cleanBlock (s : Session) (k : Nat) (b : VideoBlock) : Bool :=
  let width := ceilDiv s.columns (s.field 0x2B 1) * s.ctu
  let edge (j : Nat) : Nat := min ((j + 1) * width) s.width
  let reliable (j : Nat) : Nat := if j + 1 == sweepLength s then s.width else edge j - (if s.isAv1 then 16 else 8)
  let left := if k == 0 then 0 else edge (k - 1)
  if edge k ≤ b.x then true
  else if b.inter then
    b.x + b.width ≤ left && b.refs.all fun r =>
      0 < r.back && r.back ≤ k && 3 ≤ (b.x : Int) + r.dx / 4 && (b.x : Int) + b.width + r.dx / 4 + 4 ≤ (reliable (k - r.back) : Nat)
  else b.reach ≤ edge k || b.dc

/-- A block the encoder may code in a picture (R354, R366): the motion it may use, at most two references, and no motion or DC
prediction where it is forced. -/
def legalBlock (key : Bool) (b : VideoBlock) : Bool :=
  (!b.inter || (!key && b.refs != [] && b.refs.length ≤ 2)) &&
  b.refs.all (fun r => r.dx.natAbs ≤ 2048 && r.dy.natAbs ≤ 1024) &&
  (!b.forced || (if b.inter then b.refs.length == 1 && b.refs.all (fun r => r.dx == 0 && r.dy == 0) else b.dc))

/-- The sequence parameter set of an HEVC session (R353, R354, R360, R368). -/
def spsLegal (s : Session) (u : List Byte) : Bool :=
  match readSps.run' (nalBits u) with
  | none => false
  | some (x, y) =>
    let f := s.field
    x.stream.supported && x.stream.width == s.width && x.stream.height == s.height && x.stream.depth == f 2 1 && x.stream.chroma == 1 &&
    x.tier == 0 && x.stream.level == f 0x31 1 && y.ctu == s.ctu && 8 ≤ y.minCu && 4 ≤ y.minTu && y.maxTu ≤ 32 && !y.excluded &&
    y.colour == [f 0x37 1, f 0x34 1, f 0x35 1, f 0x36 1] &&
    (s.rcMode == 0 || y.hrd.any fun h => h.nal && h.buffers == 1 && h.rate == s.bitrate && h.size == s.cpb && h.cbr == (s.rcMode == 1))

/-- The sequence header of an AV1 session (R353, R354, R360, R368). -/
def seqLegal (s : Session) (u : List Byte) : Bool :=
  match readSeq.run' (bitsOf (u.drop 1)) with
  | none => false
  | some (x, y) =>
    let f := s.field
    x.supported && x.width == s.width && x.height == s.height && x.depth == f 2 1 && x.chroma == 1 && y.tier == 0 &&
    x.level == f 0x31 1 && !y.excluded && y.colour == [f 0x37 1, f 0x34 1, f 0x35 1, f 0x36 1] &&
    (s.rcMode == 0 || (y.timing && y.model && y.forOp && y.decoderDelay == f 0x1C 4 && y.encoderDelay == f 0x1C 4))

/-- The units of an HEVC picture: at a key picture VPS, SPS and PPS, then SEI messages, then one slice; with a buffer model a picture
timing SEI, and at a key picture and the first of a sweep a buffering period SEI (R354, R368). -/
def hevcLegal (s : Session) (key first : Bool) (us : List (List Byte)) : Bool :=
  let params := if key then us.take 3 else []
  let rest := us.drop params.length
  let msgs := (rest.flatMap seiOf).map (·.1)
  let slice := nalType (rest.getLastD [])
  us.all (fun u => nalLayer u == 0 && 3 ≤ u.length) && params.map nalType == (if key then [32, 33, 34] else []) &&
  rest != [] && rest.dropLast.all (fun u => nalType u == 39) && (if key then slice == 19 || slice == 20 else slice ≤ 9) &&
  (!key || (spsLegal s (us.getD 1 []) && readPpsExcluded.run' (nalBits (us.getD 2 [])) == some false)) &&
  !msgs.contains 6 && (s.rcMode == 0 || (msgs.contains 1 && (!(key || first) || msgs.contains 0)))

/-- The units of an AV1 picture: at a key frame the sequence header, then frames, of which one is shown; without reordering it is the
only one (R354). -/
def av1Legal (s : Session) (key : Bool) (us : List (List Byte)) : Bool :=
  let type (u : List Byte) : Nat := bits (u.headD 0).toNat 6 3
  let frames := (us.drop (if key then 1 else 0))
  let heads := frames.map fun u => readFrame.run' (bitsOf (u.drop 1))
  (!key || (type (us.headD []) == 1 && seqLegal s (us.headD []))) && us.all (fun u => 2 ≤ u.length) &&
  frames.all (fun u => type u == 3 || type u == 6) && (heads.filter fun h => h.any (·.2.2)).length == 1 &&
  (if key then heads == [some (false, 0, true)] else heads.all fun h => h.any fun e => e.2.1 != 0) &&
  (s.field 0x11 1 == 1 || frames.length == 1)

/-- The picture a session codes next is the first of a sweep (R369). -/
def sweepFirst (s : Session) (key : Bool) : Bool := s.field 0x2B 1 != 0 && !key && s.sweep == 0

/-- The bytes of a picture's access unit or temporal unit before filler, with the refresh messages the engine adds (R354, R371). -/
def unitBytes (s : Session) (key : Bool) (us : List (List Byte)) : List Byte :=
  if s.isAv1 then
    let obu (u : List Byte) : List Byte := obuUnit (bits (u.headD 0).toNat 6 3) (u.drop 1)
    let column := ceilDiv s.columns (s.field 0x2B 1) * s.ctu
    [0x12, 0] ++ (if key then us.take 1 else []).flatMap obu ++
      (if s.field 0x2B 1 == 0 then [] else axgrUnit (sweepFirst s key) (sweepLength s) s.sweep column) ++
      (us.drop (if key then 1 else 0)).flatMap obu
  else annexB (us.dropLast ++ (if sweepFirst s key then [recoveryPoint (sweepLength s)] else []) ++ [us.getLastD []])

/-- A picture the encoder may code (R354, R366, R368, R370): its QP, its rows within forced mode's limit and their bits those of its
bytes, its units, its blocks, and the pictures they reference. -/
def picLegal (s : Session) (key : Bool) (p : CodedPic) (rc : RcState) : Bool :=
  let refresh := s.field 0x2B 1 != 0 && !key
  s.field 0x29 1 ≤ p.qp && p.qp ≤ s.qpMax &&
  (if s.isAv1 then av1Legal s key p.units else hevcLegal s key (sweepFirst s key) p.units) &&
  (s.rcMode == 0 || (ceilDiv rc.written 8 == (unitBytes s key p.units).length && p.normal.length == s.rows &&
    p.atMax.length == s.rows && p.forced.length == s.rows && p.forced.all (· ≤ s.rowBits))) &&
  p.blocks.all (legalBlock key) && ((p.blocks.flatMap fun b => b.refs.map (·.back)).dedup.length ≤ s.field 0x13 1) &&
  (!refresh || (p.blocks.all (cleanBlock s s.sweep) && !p.tmvp && (!s.isAv1 || p.primaryRef == 7)))

/-- Pictures as they are coded: the session after them, their bytes, and for each its rate control and whether it has filler. -/
structure Coding where
  session : Session
  out : List Byte
  steps : List (RcState × Bool)
  legal : Bool
  deriving DecidableEq, Repr

/-- Code pictures in order; `pad` gives the bytes of AV1 padding. -/
def codePics (pad : Nat → Byte) : List (Bool × CodedPic) → Coding → Coding
  | [], c => c
  | (key, p) :: rest, c =>
    let s := c.session
    let rc := runRc s p.header p.qp (p.normal.zip (p.atMax.zip p.forced))
    let bs := unitBytes s key p.units
    let fill := if s.rcMode == 0 then 0 else fillerBytes s (bs.length * 8)
    let filler := if fill == 0 then [] else if s.isAv1 then paddingUnit fill (fun i => pad (c.out.length + i)) else fillerUnit fill
    codePics pad rest {
      session := afterPicture s key ((bs.length + fill) * 8)
      out := c.out ++ bs ++ filler
      steps := c.steps ++ [(rc, fill != 0)]
      legal := c.legal && picLegal s key p rc }

/-- VCE_RC_STAT counts the stages that pictures used (R367). -/
def countStages (e : Nat) (s : Session) (steps : List (RcState × Bool)) : Eff := .when (s.rcMode != 0) <|
  .each steps fun q => .all [
    .when (q.1.stages.contains 1) (addSat F.VCE_RC_STAT_stage1 e 1),
    .when (q.1.stages.contains 2) (addSat F.VCE_RC_STAT_stage2 e 1),
    .when (q.1.stages.contains 3) (addSat F.VCE_RC_STAT_stage3 e 1),
    .when q.2 (addSat F.VCE_RC_STAT_filler e 1)]

/-- How many pictures an ENCODE codes: none where its picture opens or continues a mini-GOP, else its own and those held, which a key
picture closes too (R358, R373). -/
def codesNow (s : Session) (key : Bool) : Nat :=
  if s.field 0x11 1 == 1 && !key && s.heldPics + 1 < s.field 0x12 1 then 0 else s.heldPics + 1

/-- Write what pictures code to, `tail` after it, where the job's buffer holds it, and end the job; the session is as `done` makes
it (R357 to R359). -/
def writeCoded (n : Nat) (x : Desc) (k us : Nat) (s : Session) (c : Coding) (tail : List Byte) (done : Session → Session)
    (r1 : Nat) : Eff := .obs fun d =>
  let bs := c.out ++ tail
  if x.num 0x1C 4 < bs.length then jobEnd n x 12 0 0 us
  else
    match translateRange d (ringCtx d n) (x.num 0x10 8) .write bs.length with
    | none => jobEnd n x 2 0 0 us
    | some out =>
      if !writable out then jobEnd n x 2 0 0 us
      else .when (!agentHeld d (ringPart d n) out) <| .all [putFree (d.free + bs.length), store out bs, countStages (k / 16) s c.steps,
        putSessions k (some (done c.session)), jobEnd n x 0 bs.length r1 us]

/-- The bytes of AV1 padding: their values are free. -/
def padBytes (d : Device) (i : Nat) : Byte := (Config.freeWord (d.free + i)).setWidth 8

/-- ENCODE (R354, R358, R366): the input picture, coded as `pics` with the pictures of the mini-GOP it closes, in coding order, its own
first unless it is a key picture; a picture that only opens or continues a mini-GOP is held. -/
def encode (e : Nat) (pics : List CodedPic) (us : Nat) (fixed lost : List Nat) : Eff :=
  onSession e 2 us Session.encodes fun n x k s => .obs fun d =>
    let key := isKey s (bit x.ctrl 15 == 1)
    if s.rcMode != 0 && x.num 0x1C 4 < ceilDiv s.cpb 8 + 4096 then jobEnd n x 7 0 0 us
    else
      match translateRange d (ringCtx d n) (x.num 8 8) .read (picSize s) with
      | none => jobEnd n x 1 0 0 us
      | some as =>
        let keys := List.replicate s.heldPics false ++ [key]
        let c := codePics (padBytes d) (keys.zip pics) { session := s, out := [], steps := [], legal := true }
        let own := if key then c.steps.getLast? else c.steps.head?
        let stage := (own.map fun q => if q.2 then 4 else q.1.stages.foldl max 0).getD 0
        let qp := if s.rcMode == 0 then ((if key then pics.getLast? else pics.head?).map (·.qp)).getD 0
          else (own.map (·.1.qp)).getD 0
        .when (!agentHeld d (ringPart d n) as && pics.length == codesNow s key && c.legal) <| .seq (agentReads n as fixed lost) <| .obs fun d =>
        if anyPoison d as then jobEnd n x 3 0 0 us
        else if codesNow s key == 0 then
          .seq (putSessions k (some { afterInput s false with heldPics := s.heldPics + 1 })) (jobEnd n x 0 0 0 us)
        else writeCoded n x k us s c [] (fun s => { afterInput s key with heldPics := 0 })
          (encodeResult s key qp (if s.rcMode == 0 then 0 else stage))

/-! ### What decoding finds in its input (R353, R355, R363, R364) -/

/-- A picture found in the input: what its stream's headers say, whether it is a key picture, whether decoding may begin with it, the
sweep it begins, and whether its unit is poisoned. -/
structure InPic where
  stream : Stream
  key : Bool
  start : Bool
  mark : Option Nat
  poisoned : Bool
  deriving DecidableEq, Repr

/-- What has been found: pictures, the stream's headers, a sweep marked and poison met for the picture to come, an error in a header,
and a stream the engines do not support. -/
structure Found where
  pics : List InPic := []
  stream : Option Stream := none
  mark : Option Nat := none
  poisoned : Bool := false
  headErr : Bool := false
  refused : Bool := false
  deriving DecidableEq, Repr

/-- Poison of the picture found last. -/
def Found.poisonLast (q : Found) (p : Bool) : Found :=
  { q with pics := q.pics.modifyLast fun x => { x with poisoned := x.poisoned || p } }

/-- A picture begins, where its stream's headers are known and its own header has no error; else the unit is discarded. -/
def Found.picture (q : Found) (broken key start p : Bool) : Found :=
  match (if broken then none else q.stream) with
  | some st => { q with
      pics := q.pics ++ [{ stream := st, key := key, start := start, mark := q.mark, poisoned := q.poisoned || p }]
      mark := none
      poisoned := false }
  | none => { q with headErr := true, mark := none, poisoned := q.poisoned || p }

/-- A stream's headers, none where they hold an error. -/
def Found.header (q : Found) (s : Option Stream) (p : Bool) : Found :=
  match s with
  | some st => { q with stream := some st, refused := q.refused || !st.supported }
  | none => { q with headErr := true, poisoned := q.poisoned || p }

/-- One NAL unit; `broken` says that the decoder meets an error in its header, `p` that its bytes are poisoned. -/
def findNal (broken p : Bool) (u : List Byte) (q : Found) : Found :=
  let t := nalType u
  if nalLayer u != 0 then q
  else if t == 33 then q.header (if broken || p then none else (readSpsHead.run' (nalBits u)).map (·.stream)) p
  else if t == 32 || t == 34 then if broken || p then q.header none p else q
  else if t == 39 then { q with mark := if broken || p then q.mark else (sweepOfSei u).orElse fun _ => q.mark, poisoned := q.poisoned || p }
  else if t ≤ 9 || (16 ≤ t && t ≤ 21) then
    if bit (u.getD 2 0).toNat 7 == 1 then q.picture broken (t == 19 || t == 20) (16 ≤ t) p
    else { q.poisonLast p with headErr := q.headErr || broken }
  else q.poisonLast p

/-- One OBU. -/
def findObu (broken p : Bool) (b : Obu) (q : Found) : Found :=
  if b.type == 1 then q.header (if broken || p then none else (readSeq.run' (bitsOf b.body)).map (·.1)) p
  else if b.type == 5 then
    { q with mark := if broken || p then q.mark else (sweepOfObu b).orElse fun _ => q.mark, poisoned := q.poisoned || p }
  else if b.type == 3 || b.type == 6 then
    match readFrame.run' (bitsOf b.body) with
    | some (_, type, true) => q.picture broken (type == 0) (type == 0) p
    | some _ => { q with headErr := q.headErr || broken, poisoned := q.poisoned || p }
    | none => { q with headErr := true, poisoned := q.poisoned || p }
  else q.poisonLast p

/-- What a DECODE finds in its input; `bad` numbers the units, in order, in whose headers the decoder meets an error. -/
def findPics (s : Session) (bs : List Byte) (bad : List Nat) (poison : Nat → Nat → Bool) : Found :=
  let q : Found := { stream := s.stream }
  if s.isAv1 then
    match (if bit (s.field 0x32 1) 0 == 1 then obuListB bs else obuList bs bs.length 0) with
    | none => { q with headErr := true, poisoned := poison 0 bs.length }
    | some us => us.zipIdx.foldl (fun q e => findObu (bad.contains e.2) (poison e.1.at_ e.1.body.length) e.1 q) q
  else (nalUnits bs).zipIdx.foldl (fun q e => findNal (bad.contains e.2) (poison e.1.1 e.1.2.length) e.1.2 q) q

/-! ### Decoding (R363, R364) -/

/-- A picture that the standards may decode from one found: its size and samples, and the errors and references it may have. -/
def picMatches (f : InPic) (p : DecodedPic) : Bool :=
  let st := f.stream
  (if st.av1 then p.width ≤ st.width && p.height ≤ st.height else p.width == st.width && p.height == st.height) &&
  p.luma.length == p.width * p.height && p.chroma.length == chromaCount p.width p.height st.chroma &&
  (p.luma ++ p.chroma).all (· < 2 ^ st.depth) && (!p.grain || st.grain) && (!f.key || p.refs == 0) && p.refs ≤ 2 &&
  (p.lost == [] || p.err || f.poisoned)

/-- A picture lies within the session (R364). -/
def fitsSession (s : Session) (st : Stream) (p : DecodedPic) : Bool :=
  p.width ≤ s.width && p.height ≤ s.height && st.depth ≤ s.field 2 1 && st.chroma ≤ s.field 3 1

/-- A session after a picture is decoded (R364): pictures before decoding may begin are left out; those beyond the session are
discarded until a key picture that fits; corruption lasts until a key picture or the recovery of a sweep begun after the error; and
pictures before the recovery where decoding began with a sweep are unclean. The pictures due are put into output order. -/
def afterDecode (s : Session) (pts : Nat) (f : InPic) (p : DecodedPic) : Session :=
  let begun := s.begun || f.start || f.mark.isSome
  let left := if f.key then none else (f.mark.map (· - 1)).orElse fun _ => s.recover
  let recovered := f.start || left == some 0
  let unclean := !recovered && (if s.begun then s.unclean else f.mark.isSome)
  let dirty := s.dirty && !f.key && left != some 0
  let damaged := f.poisoned || p.err
  let badRef := (p.refs == 1 && dirty) || (p.refs == 2 && !unclean)
  let beyond := !fitsSession s f.stream p || (s.beyond && !f.key)
  let cause := if f.poisoned then 4 else if p.err then 1 else if badRef || unclean then 2 else 0
  let flags := (if damaged || badRef then 1 else 0) + (if unclean then 2 else 0) + (if f.key then 4 else 0) + if p.grain then 8 else 0
  let q : Picture := {
    order := p.order, flags := flags, cause := cause, width := p.width, height := p.height, depth := f.stream.depth
    chroma := f.stream.chroma, pts := pts, lost := p.lost, luma := p.luma, chromas := p.chroma }
  let held := !(unclean && bit (s.field 0x32 1) 1 == 1) && p.shown && begun && !beyond
  let waiting := (s.waiting ++ if held then [q] else []).mergeSort fun a b => a.order ≤ b.order
  { s with
    stream := some f.stream
    begun := begun
    beyond := beyond
    dirty := dirty || (begun && !beyond && (damaged || badRef))
    unclean := unclean
    recover := if damaged || left == some 0 then none else left.map (· - 1)
    waiting := waiting.drop p.outs
    pics := s.pics ++ waiting.take p.outs }

/-- The index in a picture's rows of the sample at (x, y), where the picture has one. -/
def sampleAt (q : Picture) (x y : Nat) : Option Nat := if x < q.width && y < q.height then q.luma[y * q.width + x]? else none

/-- The chroma value `i` of a row pair of a picture. -/
def chromaAt (q : Picture) (i y : Nat) : Option Nat :=
  if i < 2 * ceilDiv q.width 2 then q.chromas[y * (2 * ceilDiv q.width 2) + i]? else none

/-- A luma place lies in a block to conceal. -/
def inLost (q : Picture) (x y : Nat) : Bool := q.lost.any fun r => r.x ≤ x && x < r.x + r.w && r.y ≤ y && y < r.y + r.h

/-- A picture with its lost blocks concealed by the co-located samples of the last output picture, or mid-grey (R364). -/
def concealed (q : Picture) (last : Option Picture) : Picture :=
  let grey := 2 ^ (q.depth - 1)
  let w2 := 2 * ceilDiv q.width 2
  let k := if q.chroma == 2 then 1 else 2
  { q with
    luma := q.luma.zipIdx.map fun e =>
      let (x, y) := (e.2 % q.width, e.2 / q.width)
      if inLost q x y then (last.bind fun l => sampleAt l x y).getD grey else e.1
    chromas := q.chromas.zipIdx.map fun e =>
      let (i, y) := (e.2 % w2, e.2 / w2)
      if inLost q (i / 2 * 2) (y * k) then (last.bind fun l => chromaAt l i y).getD grey else e.1 }

/-- A picture is concealed: it or its input was corrupt (R364). -/
def picConcealed (q : Picture) : Bool := q.cause == 1 || q.cause == 4

/-- A record of 32 bytes (R363). -/
def recordOf (buffer j : Nat) (q : Picture) : List Byte :=
  toLE 2 buffer ++ toLE 2 q.flags ++ toLE 2 q.width ++ toLE 2 q.height ++ toLE 8 q.pts ++ toLE 4 j ++ toLE 1 q.depth ++
    toLE 1 q.chroma ++ toLE 1 q.cause ++ [0] ++ toLE 4 j ++ toLE 4 0

/-- The free buffers of a session's pool. -/
def freeBufs (s : Session) : List Nat := (List.range (s.field 0x38 2)).filter fun b => !s.heldBufs.contains b

/-- End a session's decoding job with its results. -/
def decodeEnd (n : Nat) (x : Desc) (k us : Nat) : Eff := .obs fun d =>
  match d.sessionsAt k with
  | none => .skip
  | some s => .seq (putSessions k (some { s with job := none, pics := [], written := 0, concealed := 0 }))
      (jobEnd n x s.outcome s.written s.concealed us)

/-- Write the pictures of a session's job into free pool buffers, in output order; a job with no free buffer, or with one whose stack
is held, waits (R363, R373). -/
def decodePics (n : Nat) (x : Desc) (k us : Nat) : Nat → Eff
  | 0 => .skip
  | fuel + 1 => .obs fun d =>
    match d.sessionsAt k with
    | none => .skip
    | some s =>
      let c := ringCtx d n
      match s.pics with
      | [] => decodeEnd n x k us
      | q :: rest =>
        if freeBufs s == [] then .skip
        else withFree fun v => .obs fun d =>
          let b := (freeBufs s).getD (v % (freeBufs s).length) 0
          let q := concealed q s.last
          let size := bufferSize q.width q.height q.depth q.chroma
          match translateRange d c (s.field 0x40 8 + b * poolStride s) .write size,
              translateRange d c (s.field 0x48 8 + s.records % 2 ^ s.field 0x3A 1 * 32) .write 32 with
          | some pa, some ra =>
            if !writable (pa ++ ra) then .seq (putSessions k (some { s with outcome := 2, pics := [] })) (decodeEnd n x k us)
            else .when (!agentHeld d (ringPart d n) (pa ++ ra)) <| .all [
              putFree (d.free + size), store pa (bufferBytes q (padBytes d)), store ra (recordOf b s.records q),
              putSessions k (some { s with
                pics := rest
                last := some q
                heldBufs := s.heldBufs ++ [b]
                records := s.records + 1
                written := s.written + 1
                concealed := s.concealed + (if picConcealed q then 1 else 0) }),
              .when (picConcealed q) (addSat F.VCE_ERR_concealed (k / 16) 1),
              (match ringPart d n with
                | some p => signalField p c (s.field 0x3C 4)
                | none => .skip),
              decodePics n x k us fuel]
          | _, _ => .seq (putSessions k (some { s with outcome := 2, pics := [] })) (decodeEnd n x k us)

/-- Begin writing a session's pictures, with the outcome their job ends with. -/
def startPics (n : Nat) (x : Desc) (k us outcome : Nat) (s : Session) : Eff :=
  .seq (putSessions k (some { s with job := some x.index, outcome := outcome, written := 0, concealed := 0 }))
    (decodePics n x k us (s.pics.length + 1))

/-- What a DECODE ends with (R359, R364): poison, an error in a header or in slice data, or a picture beyond the session. -/
def decodeOutcome (f : Found) (poisoned : Bool) (s : Session) (pics : List DecodedPic) : Nat :=
  if poisoned then 3
  else if f.headErr || pics.any (·.err) || (f.pics.zip pics).any (fun e => !fitsSession s e.1.stream e.2) || s.beyond then 11
  else 0

/-- DECODE (R363): whole units of input, in which the headers' errors are `bad`; `pics` are the pictures found in them, in decoding
order. A stream the engines do not support ends UNSUPPORTED, and one that needs more buffers than the pool has POOL_SHORT. -/
def decode (e : Nat) (bad : List Nat) (pics : List DecodedPic) (us : Nat) (fixed lost : List Nat) : Eff :=
  onSession e 3 us (fun s => !s.encodes) fun n x k s => .obs fun d =>
    match translateRange d (ringCtx d n) (x.num 8 8) .read x.length with
    | none => jobEnd n x 1 0 0 us
    | some as => .when (!agentHeld d (ringPart d n) as) <| .seq (agentReads n as fixed lost) <| .obs fun d =>
      let f := findPics s (d.bytesAt as) bad fun o m => anyPoison d ((as.drop o).take m)
      if f.refused then .all [jobEnd n x 10 0 0 us, addSat F.VCE_ERR_unsupported e 1, closeSession e x.session]
      else if f.pics.any fun p => s.field 0x38 2 < p.stream.buffers then jobEnd n x 13 0 0 us
      else .when (f.pics.length == pics.length && (f.pics.zip pics).all fun q => picMatches q.1 q.2) <|
        let s' := (f.pics.zip pics).foldl (fun s q => afterDecode s (x.num 0x28 8) q.1 q.2) { s with stream := f.stream }
        startPics n x k us (decodeOutcome f (anyPoison d as) s' pics) s'

/-- DECODE_RESUME (R363): a job that waits for a buffer goes on once one is free. -/
def decodeResume (e k us : Nat) : Eff := .obs fun d =>
  match d.sessionsAt (e * 16 + k) with
  | some s =>
    match s.job.bind fun j => (d.ringsAt s.ring).find? fun x => x.index == j with
    | some x => .when (engineServes d e && freeBufs s != []) (decodePics s.ring x (e * 16 + k) us (s.pics.length + 1))
    | none => .skip
  | none => .skip

/-- VCE_FLUSH (R357, R358): decode outputs every picture held for reordering; encode codes those held in an open mini-GOP, as `pics`, and
where the job asks for it an HEVC end-of-sequence NAL unit follows, after which the next picture is a key picture. -/
def vceFlush (e : Nat) (pics : List CodedPic) (us : Nat) : Eff :=
  onSession e 4 us (fun _ => true) fun n x k s => .obs fun d =>
    if !s.encodes then startPics n x k us 0 { s with pics := s.pics ++ s.waiting, waiting := [] }
    else
      let c := codePics (padBytes d) (pics.map fun p => (false, p)) { session := s, out := [], steps := [], legal := true }
      let ends := bit x.ctrl 14 == 1 && !s.isAv1
      .when (pics.length == s.heldPics && c.legal) <| writeCoded n x k us s c (if ends then endOfSequence else [])
        (fun s => { s with heldPics := 0, sinceKey := if ends then none else s.sinceKey }) 0

/-- VCE_CLOSE (R358). -/
def vceClose (e us : Nat) : Eff := onSession e 5 us (fun _ => true) fun n x _ _ =>
  .seq (closeSession e x.session) (jobEnd n x 0 0 0 us)

/-! ### Completion, returns and resets (R359, R363, R373) -/

/-- Bytes 0x30 to 0x3F of a completed job (R357, R375). -/
def jobTail (x : Desc) (status : Nat) : List Byte :=
  toLE 4 (x.results.getD 0 0) ++ toLE 4 (x.results.getD 1 0) ++ toLE 2 status ++ toLE 2 0 ++ toLE 4 (x.results.getD 2 0)

/-- What a codec ring's job reports where it ends early (R357): the records written and the pictures concealed of the one that waits
for a buffer. -/
def partResults (d : Device) (n : Nat) (x : Desc) : List Nat :=
  match ((openSessions d (vceOf n)).filterMap fun k => d.sessionsAt (vceOf n * 16 + k)).find? fun s => s.ring == n && s.job == some x.index with
  | some s => [s.written, s.concealed, 0]
  | none => []

/-- Complete the oldest job of a ring of a kind. -/
def jobComplete (n : Nat) (kind : RingKind) : Eff := .obs fun d =>
  match d.ringsAt n with
  | x :: _ =>
    match x.status with
    | some st => .when (ringKind n == kind && ringState d n != 4 && !(descAddrs d n x.index .write).any (agentHeld d (ringPart d n)))
        (completeDesc n x st (jobTail x st) (signalDesc n x))
    | none => .skip
  | [] => .skip

/-- VCE_JOB_COMPLETE (R359). -/
def vceJobComplete (n : Nat) : Eff := jobComplete n .vce

/-- Return a pool buffer of a session (R363); one not held is counted (R373). -/
def returnBuffer (e v : Nat) : Eff := .obs fun d =>
  let k := e * 16 + bits v 19 16
  match d.sessionsAt k with
  | some s => if s.heldBufs.contains (bits v 15 0) then putSessions k (some { s with heldBufs := s.heldBufs.filter (· != bits v 15 0) })
      else addSat F.VCE_ERR_bad_return e 1
  | none => addSat F.VCE_ERR_bad_return e 1

/-- VCE_RETURN (R363): a write with go. -/
def vceReturn (rq e v : Nat) : Eff := .obs fun d =>
  if bit (mayWrite d rq .VCE_RETURN e) 31 == 0 then denied else .when (bit v 31 == 1) (returnBuffer e v)

/-- ENGINE_RESET (R373): the job under way ends ENGINE_RESET, every session is lost, and firmware reloads. -/
def engineReset (e : Nat) : Eff := .obs fun d => .all [
  .each ((List.range 8).map (vceRing e)) (fun n => .each ((d.ringsAt n).filter fun x => x.status.isNone && jobWaits d n x) fun x =>
    jobEnd n x 14 ((partResults d n x).getD 0 0) ((partResults d n x).getD 1 0) 0),
  .each (List.range 16) (fun k => putSessions (e * 16 + k) none), countSessions e,
  setF F.VCE_CTRL_fw_ready e 1, logService 14 (e / 2) 0xFFFF 14]

/-- Cancel every job of an engine and close its sessions; the rings halt (R373). -/
def cancelEngine (e : Nat) : Eff := .obs fun d => .all [
  .each ((List.range 8).map (vceRing e)) (fun n => .all [
    .each (d.ringsAt n) (fun x => cancelDesc n x 6 (jobTail { x with results := partResults d n x } 6)), putRings n [],
    .when (d.fld F.DMA_RING_BASE_enable n == 1) (setF F.DMA_RING_STAT_state n 3)]),
  .each (List.range 16) (fun k => putSessions (e * 16 + k) none), countSessions e]

/-- VCE_ENABLE (R373): a steward write of VCE_CTRL. -/
def vceEnable (rq e v : Nat) : Eff := .obs fun d =>
  if mayWrite d rq .VCE_CTRL e == 0 then denied
  else
    let changed := bit v 31 == 0 || bits v 24 20 != d.fld F.VCE_CTRL_partition e
    .seq (.when (d.fld F.VCE_CTRL_enable e == 1 && changed) (cancelEngine e)) (storeWrite rq .VCE_CTRL e v)

/-- The sessions of a context's codec rings close (R373). -/
def closeCtxSessions (c : Nat) : Eff := .obs fun d =>
  .each (mapKeys d.sessions fun _ s => s.any fun s => ringCtx d s.ring == c) fun k => closeSession (k / 16) (k % 16)

end Sys2Proof.Machine
end

