-- ==== Sys2Proof/Machine/Ingest.lean ====
section
/-! DEFINITION. The ingest units: colour conversion and normalisation of a batch, replacement of bad samples from a
stream's hold, and the published load figures (15_ingest.md). -/

namespace Sys2Proof.Machine

/-! ### The profile of a job (R376) -/

/-- A field of a profile block. -/
structure Profile where
  block : List Byte
  deriving DecidableEq, Repr

def Profile.field (p : Profile) (o k : Nat) : Nat := num p.block o k
def Profile.input (p : Profile) : Nat := p.field 0 1
def Profile.mono (p : Profile) : Bool := p.input == 3
def Profile.sample (p : Profile) : Nat := p.field 1 1
def Profile.full (p : Profile) : Bool := p.field 3 1 == 1
def Profile.width (p : Profile) : Nat := p.field 4 2
def Profile.height (p : Profile) : Nat := p.field 6 2
def Profile.fmt (p : Profile) : Nat := p.field 8 1
def Profile.planar (p : Profile) : Bool := p.field 9 1 == 1
def Profile.mean (p : Profile) (c : Nat) : Nat := p.field (0xC + 4 * c) 4
def Profile.rscale (p : Profile) (c : Nat) : Nat := p.field (0x18 + 4 * c) 4

/-- The output channels: R, G and B, or the monochrome value. -/
def Profile.channels (p : Profile) : Nat := if p.mono then 1 else 3

/-- Bytes of a source sample and bits of an integer one. -/
def Profile.sampleBytes (p : Profile) : Nat := if p.sample == 0 then 1 else if p.sample == 3 then 4 else 2
def Profile.depth (p : Profile) : Nat := if p.sample == 0 then 8 else if p.sample == 1 then 10 else 16

/-- Bytes of an output element. -/
def Profile.elemBytes (p : Profile) : Nat := if p.fmt == 2 || p.fmt == 3 then 1 else 2

/-- A field of the profile is outside R376. -/
def Profile.bad (p : Profile) : Bool :=
  3 < p.input || 3 < p.sample || (2 ≤ p.sample && !p.mono) || 2 < p.field 2 1 || 1 < p.field 3 1 ||
  (p.mono && (p.field 2 1 != 0 || p.field 3 1 != 0)) || p.width < 16 || 8192 < p.width || p.height < 16 || 8704 < p.height ||
  !([2, 3, 4, 8].contains p.fmt) || 1 < p.field 9 1 || p.field 0xA 2 != 0 || !zeroAt p.block 0x24 28 ||
  (List.range p.channels).any fun c => !(val (p.rscale c)).isFinite

/-- The bytes of a row of a plane of the planar layout. -/
def Profile.rowBytes (p : Profile) : Nat := ceilDiv (p.width * p.elemBytes) 64 * 64

/-- The slot size (R380). -/
def Profile.slotBytes (p : Profile) : Nat :=
  if p.planar then p.channels * p.height * p.rowBytes else p.width * p.height * 64

/-! ### Source pictures (R362, R377) -/

/-- The rows of a source picture that the unit reads, as (offset in the picture, bytes), in plane and row order: luma,
then the interleaved chroma. `w` and `h` are the picture's size. -/
def sourceRows (p : Profile) (w h : Nat) : List (Nat × Nat) :=
  let b := p.sampleBytes
  let pitch := ceilDiv (w * b) 256 * 256
  let base := pitch * (ceilDiv h 16 * 16)
  let pitch2 := if p.input == 2 then ceilDiv (2 * w * b) 256 * 256 else pitch
  let width2 := if p.input == 2 then 2 * w * b else ceilDiv w 2 * 2 * b
  let rows2 := if p.mono then 0 else if p.input == 0 then ceilDiv h 2 else h
  (List.range h).map (fun y => (y * pitch, w * b)) ++ (List.range rows2).map fun y => (base + y * pitch2, width2)

/-- One sample of the bytes read: an integer, or an FP32 word. 10-bit samples use bits [9:0]. -/
def sourceSample (p : Profile) (bs : List Byte) (i : Nat) : Nat :=
  let v := num bs (i * p.sampleBytes) p.sampleBytes
  if p.sample == 1 then v % 1024 else v

/-- The luma, Cb and Cr samples of position (x, y), by nearest sample (R377). -/
def sourceAt (p : Profile) (bs : List Byte) (x y : Nat) : Nat × Nat × Nat :=
  let w := p.width
  let luma := sourceSample p bs (y * w + x)
  if p.mono then (luma, 0, 0)
  else
    let w2 := if p.input == 2 then w else ceilDiv w 2
    let i := (if p.input == 0 then y / 2 else y) * w2 + if p.input == 2 then x else x / 2
    let c := w * p.height + 2 * i
    (luma, sourceSample p bs c, sourceSample p bs (c + 1))

/-! ### Conversion (R378) -/

/-- The FP32 value nearest to a positive ratio, with its sign. -/
def ratio32 (neg : Bool) (n d : Nat) : Nat :=
  let q := n * 2 ^ 120 / d
  r32 (.num neg (2 * q + if n * 2 ^ 120 % d == 0 then 0 else 1) (-121))

/-- An integer as FP32. -/
def int32 (i : Int) : Nat := r32 (.num (decide (i < 0)) i.natAbs 0)

/-- Kr and Kb of a matrix, in ten-thousandths. -/
def matrixK (m : Nat) : Nat × Nat := if m == 0 then (2990, 1140) else if m == 1 then (2126, 722) else (2627, 593)

/-- The coefficients crv, cgr, cgb and cbu of a matrix. -/
def matrixCoef (m : Nat) : Nat × Nat × Nat × Nat :=
  let (r, b) := matrixK m
  let g := 10000 - r - b
  (ratio32 false (2 * (10000 - r)) 10000, ratio32 true (2 * r * (10000 - r)) (10000 * g),
    ratio32 true (2 * b * (10000 - b)) (10000 * g), ratio32 false (2 * (10000 - b)) 10000)

/-- The offsets oy and oc and the scales sy and sc of a range at a bit depth. -/
def rangeScale (full : Bool) (n : Nat) : Nat × Nat × Nat × Nat :=
  if full then (0, 2 ^ (n - 1), ratio32 false 1 (2 ^ n - 1), ratio32 false 1 (2 ^ n - 1))
  else (16 * 2 ^ (n - 8), 128 * 2 ^ (n - 8), ratio32 false 1 (219 * 2 ^ (n - 8)), ratio32 false 1 (224 * 2 ^ (n - 8)))

/-- The values v_c of a position (R378), as FP32 words. -/
def convertAt (p : Profile) (s : Nat × Nat × Nat) : List Nat :=
  let (l, b, r) := s
  if p.mono then [if p.sample == 3 then l else int32 l]
  else
    let (oy, oc, sy, sc) := rangeScale p.full p.depth
    let (crv, cgr, cgb, cbu) := matrixCoef (p.field 2 1)
    let y := fmul (int32 ((l : Int) - (oy : Int))) sy
    let cb := fmul (int32 ((b : Int) - (oc : Int))) sc
    let cr := fmul (int32 ((r : Int) - (oc : Int))) sc
    [fma crv cr y, fma cgb cb (fma cgr cr y), fma cbu cb y]

/-- The normalised value of a channel (R379). -/
def normalise (p : Profile) (c v : Nat) : Nat := fmul (fsub v (p.mean c)) (p.rscale c)

/-- The element of the output format a value is written as, and whether it saturates (R379). -/
def outputCode (f o : Nat) : Coded := if f == 8 then ⟨fmt16.encode (val o), false⟩ else plainCode f (val o) none

/-- A whole sample converted: each position's normalised channels, in row order. -/
def convertSample (p : Profile) (bs : List Byte) : List (List Nat) :=
  (List.range p.height).flatMap fun y => (List.range p.width).map fun x =>
    ((convertAt p (sourceAt p bs x y)).zipIdx).map fun vc => normalise p vc.2 vc.1

/-- A sample has a value that is NaN or infinite: an FP32 source sample, or an output (R384 cause 4). -/
def nonFinite (p : Profile) (bs : List Byte) (os : List (List Nat)) : Bool :=
  (p.sample == 3 && (List.range (p.width * p.height)).any fun i => !(val (sourceSample p bs i)).isFinite) ||
  os.any fun o => o.any fun v => !(val v).isFinite

/-- The elements of a sample that saturate. -/
def saturatedCount (p : Profile) (os : List (List Nat)) : Nat :=
  (os.map fun o => (o.filter fun v => (outputCode p.fmt v).sat).length).sum

/-- The bytes of an element. -/
def elemOut (p : Profile) (o : Nat) : List Byte := toLE p.elemBytes (outputCode p.fmt o).code

/-- The bytes of an output slot (R380). -/
def slotData (p : Profile) (os : List (List Nat)) : List Byte :=
  if p.planar then
    (List.range p.channels).flatMap fun c => (List.range p.height).flatMap fun y =>
      padTo p.rowBytes (((os.drop (y * p.width)).take p.width).flatMap fun o => elemOut p (o.getD c 0))
  else os.flatMap fun o => padTo 64 (o.flatMap (elemOut p))

/-! ### Jobs (R374, R375) -/

/-- The die site of an ingest ring. -/
def ingOf (n : Nat) : Nat := (n - 10256) / 8

/-- Fields of an ingest job descriptor; the sample count is in the length field's place. -/
def Desc.stride (x : Desc) : Nat := x.num 0x1C 4
def Desc.profileAt (x : Desc) : Nat := x.num 0x20 8

/-- A job descriptor that breaks R375 whatever its profile. -/
def badIngest (x : Desc) : Bool :=
  bits x.ctrl 30 28 != 1 || bits x.ctrl 27 0 != 0 || x.length == 0 || 4096 < x.length || bits x.cue 8 0 != 0 ||
  x.dst % 64 != 0 || x.stride % 64 != 0 || !addrInSpace 0 (x.num 8 8) || !addrInSpace 0 x.dst || !addrInSpace 0 x.profileAt

/-- What an ingest unit checks as it takes a job. -/
def ingCheck (_ : Device) (x : Desc) : Option Nat := if badIngest x then some 7 else none

/-- The partition a unit serves. -/
def ingPart (d : Device) (site : Nat) : Nat := d.fld F.ING_CTRL_partition site

/-- The unit serves its rings. -/
def ingServes (d : Device) (site : Nat) : Bool :=
  (dieOfSite d site).isSome && d.fld F.ING_CTRL_enable site == 1 && d.fld F.ING_CTRL_retired site == 0

/-- The job of a ring that the unit would take or has in progress. -/
def ingNext (d : Device) (n : Nat) : Option Desc :=
  if (d.ringsAt n).any (·.status.any (halts n)) then none else (d.ringsAt n).find? (·.status.isNone)

/-- A job is in progress: its profile has been read. -/
def Desc.begun (x : Desc) : Bool := !x.moved.isEmpty

/-- The rings of a unit with a job to serve. -/
def ingReady (d : Device) (site : Nat) : List (Nat × Desc) :=
  (List.range 8).filterMap fun r =>
    let n := ingRing site r
    if ringServed d n && ringState d n == 2 then (ingNext d n).map fun x => (n, x) else none

/-- The job the unit works on: the one in progress, or the next in turn (R374). -/
def ingTurn (d : Device) (site : Nat) : Option (Nat × Desc) :=
  let js := ingReady d site
  (js.find? (·.2.begun)).orElse fun _ =>
    (nextInTurn (d.rrAt (72 + site)) (js.map (·.1))).bind fun n => js.find? (·.1 == n)

/-- Samples done, replaced and saturated, and the time spent, of a job in progress. -/
def Desc.samplesDone (x : Desc) : Nat := x.results.getD 3 0

/-- End a job with a status. -/
def ingEnd (n : Nat) (x : Desc) (status : Nat) : Eff :=
  .seq (modDesc n x.index fun y => { y with status := some status }) (setF F.ING_CTRL_busy (ingOf n) 0)

/-- Begin a job (R375, R376): its profile and its table are read, and the profile is checked. -/
def beginJob (n : Nat) (x : Desc) (fixed lost : List Nat) : Eff := .obs fun d =>
  let c := ringCtx d n
  match translateRange d c x.profileAt .read 64, translateRange d c (x.num 8 8) .read (x.length * 32) with
  | some pa, some ta => .when (!agentHeld d (ringPart d n) (pa ++ ta)) <| .seq (agentReads n (pa ++ ta) fixed lost) <| .obs fun d =>
    let p : Profile := ⟨d.bytesAt pa⟩
    if anyPoison d (pa ++ ta) then ingEnd n x 3
    else if p.bad || x.stride < p.slotBytes then ingEnd n x 7
    else .all [
      putRr (72 + ingOf n) n, setF F.ING_CTRL_busy (ingOf n) 1,
      modDesc n x.index fun y => { y with moved := p.block, results := [0, 0, 0, 0] }]
  | _, _ => ingEnd n x 1

/-! ### The stream table (R382) -/

/-- The addresses of `n` bytes of a partition's space from a partition offset. -/
def partRange (d : Device) (p off n : Nat) : Option (List Nat) := (List.range n).mapM fun i => partAddr d p (off + i)

/-- The addresses of a unit's stream slot; none where no table is in use. -/
def streamAddrs (d : Device) (site slot : Nat) : Option (List Nat) :=
  if d.fld F.ING_STREAM_BASE_enable site == 0 || 256 ≤ slot then none
  else partRange d (ingPart d site) (d.fld F.ING_STREAM_BASE_base site * 16384 + slot * 64) 64

/-- A stream slot: where it lies and its bytes. -/
structure Slot where
  at_ : List Nat
  bytes : List Byte
  deriving DecidableEq, Repr

/-- A unit's stream slot, where its table is in use and readable. -/
def streamSlot (d : Device) (site slot : Nat) : Option Slot :=
  match streamAddrs d site slot with
  | some as => if anyPoison d as then none else some ⟨as, d.bytesAt as⟩
  | none => none

def Slot.field (s : Slot) (o k : Nat) : Nat := num s.bytes o k
def Slot.holdEn (s : Slot) : Bool := bit (s.field 0xC 1) 0 == 1
def Slot.holdValid (s : Slot) : Bool := bit (s.field 0xC 1) 1 == 1

/-- The addresses of a slot's hold buffer; none where it lies outside the partition's groups (R389). -/
def Slot.hold (d : Device) (site : Nat) (s : Slot) (n : Nat) : Option (List Nat) := partRange d (ingPart d site) (s.field 0 8) n

/-- Write a field of a stream slot. -/
def Slot.put (s : Slot) (o k v : Nat) : Eff := store ((s.at_.drop o).take k) (toLE k v)

/-- Set or clear hold_valid. -/
def Slot.setValid (s : Slot) (b : Bool) : Eff := s.put 0xC 1 (putBits (s.field 0xC 1) 1 1 (if b then 1 else 0))

/-- Clear hold_valid and the counters of a stream slot (ING_STREAM_CTRL.reset). -/
def clearSlot (site slot : Nat) : Eff := .obs fun d =>
  match streamSlot d site slot with
  | some s => .all [s.setValid false, store ((s.at_.drop 0x18).take 0x20) (toLE 0x20 0)]
  | none => .skip

/-- The holds of a unit's table are lost by a partition reset, when the unit is next enabled (R389). -/
def clearHolds (site : Nat) : Eff := .obs fun d =>
  .when (d.ingClearAt site && d.fld F.ING_CTRL_enable site == 1 && d.fld F.ING_STREAM_BASE_enable site == 1) <|
    .seq (putIngClear site false) (.each (List.range 256) fun k => .obs fun d =>
      match streamSlot d site k with
      | some s => s.setValid false
      | none => .skip)

/-- A unit that was disabled serves again: it counts its replacements anew, and holds lost by a partition reset are cleared (R386,
R389). -/
def ingEnabled (was site : Nat) : Eff := .obs fun d =>
  .when (was == 0 && d.fld F.ING_CTRL_enable site == 1) (.seq (modIngReplaced site fun _ => 0) (clearHolds site))

/-! ### One sample (R381, R383 to R385) -/

/-- An entry of the sample table. -/
structure Entry where
  at_ : List Nat
  bytes : List Byte
  deriving DecidableEq, Repr

def Entry.field (e : Entry) (o k : Nat) : Nat := num e.bytes o k
def Entry.kind (e : Entry) : Nat := e.field 0 1
def Entry.checks (e : Entry) : Bool := bit (e.field 1 1) 0 == 1
def Entry.stream (e : Entry) : Nat := e.field 2 2
def Entry.addr (e : Entry) : Nat := e.field 8 8

/-- The site of a logical codec engine (R351). -/
def engineOf (d : Device) (j : Nat) : Option Nat := if j < 32 then (dieSite d (j / 2)).map fun s => 2 * s + j % 2 else none

/-- What the unit finds of a sample's source: why it is bad so far, the addresses it reads, its size, whether its format
is the profile's, whether its record is unclean, and its pts. -/
structure Source where
  cause : Nat := 0
  addrs : List Nat := []
  width : Nat := 0
  height : Nat := 0
  sameFormat : Bool := true
  corrupt : Bool := false
  unclean : Bool := false
  pts : Nat := 0
  deriving DecidableEq, Repr

/-- The addresses of the rows a picture's size gives, from a virtual address of context `c`. -/
def pictureAddrs (d : Device) (c : Nat) (p : Profile) (a w h : Nat) : Option (List Nat) :=
  ((sourceRows p w h).mapM fun r => translateRange d c (a + r.1) .read r.2).map (·.flatten)

/-- The source of a kind 0 sample: its record, and the buffer that the record names in the engine's pool. -/
def decodedSource (d : Device) (n : Nat) (p : Profile) (e : Entry) : Source :=
  match engineOf d (e.field 4 1), translateRange d (ringCtx d n) e.addr .read 32 with
  | some g, some ra =>
    let k := g * 16 + e.field 5 1
    let r := d.bytesAt ra
    match (if e.field 5 1 < 16 then d.sessionsAt k else none) with
    | none => { cause := 6, addrs := ra }
    | some s =>
      let owned := d.fld F.VCE_CTRL_enable g == 1 && d.fld F.VCE_CTRL_partition g == ingPart d (ingOf n)
      if !owned then { cause := 6, addrs := ra }
      else if anyPoison d ra then { cause := 5, addrs := ra }
      else
        let w := num r 4 2
        let h := num r 6 2
        match pictureAddrs d (ringCtx d s.ring) p (s.field 0x40 8 + num r 0 2 * poolStride s) w h with
        | some as =>
          { cause := if num r 0x18 4 != e.field 0x10 4 then 6 else 0
            addrs := as
            width := w
            height := h
            sameFormat := num r 0x14 1 == p.depth && p.sample < 2 && num r 0x15 1 == (p.input + 1) % 4
            corrupt := bit (num r 2 2) 0 == 1
            unclean := bit (num r 2 2) 1 == 1 && bit (num r 2 2) 0 == 0
            pts := num r 8 8 }
        | none => { cause := 6 }
  | _, _ => { cause := 6 }

/-- The source of a sample (R383 step 1). -/
def sampleSource (d : Device) (n : Nat) (p : Profile) (e : Entry) : Source :=
  if e.kind == 0 then decodedSource d n p e
  else if 2 < e.kind then { cause := 6 }
  else
    match pictureAddrs d (ringCtx d n) p e.addr (e.field 4 2) (e.field 6 2) with
    | some as => { addrs := as, width := e.field 4 2, height := e.field 6 2, sameFormat := (e.kind == 2) == p.mono }
    | none => { cause := 6 }

/-- A finding: the first cause of R384, or 0; the CRC computed, or 0; the converted values. -/
structure Finding where
  cause : Nat
  crc : Nat
  values : List (List Nat)
  deriving DecidableEq, Repr

/-- The checks of R384 in their order, on the bytes read. -/
def checkSample (d : Device) (p : Profile) (e : Entry) (s : Source) : Finding :=
  let bs := d.bytesAt s.addrs
  if s.cause != 0 then ⟨s.cause, 0, []⟩
  else if anyPoison d s.addrs then ⟨5, 0, []⟩
  else if s.corrupt then ⟨1, 0, []⟩
  else if s.width != p.width || s.height != p.height || !s.sameFormat then ⟨3, 0, []⟩
  else
    let crc := if e.checks && e.kind != 0 then crc32c bs else 0
    if e.checks && e.kind != 0 && crc != e.field 0x10 4 then ⟨2, crc, []⟩
    else
      let os := convertSample p bs
      if nonFinite p bs os then ⟨4, crc, []⟩ else ⟨0, crc, os⟩

/-- The hold that replaces a bad sample, where it is valid, of the job's form and not poisoned (R385, R389). -/
def replacement (d : Device) (site : Nat) (p : Profile) (s : Slot) : Option (List Byte) :=
  if s.holdValid && s.field 0x10 2 == p.width && s.field 0x12 2 == p.height && s.field 0x14 1 == p.fmt &&
      s.field 0x15 1 == p.field 9 1 then
    match s.hold d site p.slotBytes with
    | some as => if anyPoison d as then none else some (d.bytesAt as)
    | none => none
  else none

/-- Keep a good sample as its stream's hold (R383 step 3). -/
def keepHold (site : Nat) (p : Profile) (s : Slot) (data : List Byte) (pts : Nat) : Eff := .obs fun d =>
  .when s.holdEn <|
    match s.hold d site (max p.slotBytes 1) with
    | none => .skip
    | some as =>
      if s.field 8 4 < p.slotBytes then s.setValid false
      else .all [store as data, s.setValid true, s.put 0x10 2 p.width, s.put 0x12 2 p.height, s.put 0x14 1 p.fmt,
        s.put 0x15 1 (p.field 9 1), s.put 0x38 8 pts]

/-- The counters of a stream slot after a sample (R382, R385). -/
def countStream (s : Slot) (cause : Nat) (unclean : Bool) : Eff := .all [
  (let o := 0x18 + 4 * (cause - 1)
   if cause == 0 then s.put 0x30 4 (s.field 0x30 4 + 1) else s.put o 4 (min 4294967295 (s.field o 4 + 1))),
  .when unclean (s.put 0x34 4 (s.field 0x34 4 + 1))]

/-- Run an effect on the stream slot of an entry, where its table is in use. -/
def onSlot (site slot : Nat) (k : Slot → Eff) : Eff := .obs fun d =>
  match streamSlot d site slot with
  | some s => k s
  | none => .skip

/-- Write a sample's slot, hold, entry and counters, and return its buffer (R383 steps 2 to 6). -/
def writeSample (n : Nat) (x : Desc) (p : Profile) (e : Entry) (s : Source) (f : Finding) (slot : List Nat) (us : Nat) : Eff :=
  .obs fun d =>
  let site := ingOf n
  let bad := f.cause != 0
  let hold := if bad then (streamSlot d site e.stream).bind (replacement d site p) else none
  let data := if bad then hold.getD (List.replicate p.slotBytes 0) else slotData p f.values
  let unclean := s.unclean && f.cause != 6
  let sat := saturatedCount p f.values
  let result := (if bad then 1 else 0) + (if hold.isSome then 2 else 0) + if unclean then 4 else 0
  .all [
    store slot data,
    .when (!bad) (onSlot site e.stream fun t => keepHold site p t data s.pts),
    store (e.at_.drop 0x14) (toLE 4 f.crc ++ toLE 1 result ++ toLE 1 f.cause ++ toLE 2 0 ++ toLE 4 s.pts),
    onSlot site e.stream fun t => countStream t f.cause unclean,
    .when bad (.seq (addSat F.ING_STAT_replaced site 1) (modIngReplaced site (· + 1))),
    addSat F.ING_STAT_saturated site sat,
    modDesc n x.index fun y => { y with results := [
      y.results.getD 0 0 + (if bad then 1 else 0), y.results.getD 1 0 + sat, y.results.getD 2 0 + us,
      y.results.getD 3 0 + 1] },
    .when (e.kind == 0 && bit (e.field 1 1) 1 == 1) <|
      match engineOf d (e.field 4 1), translateRange d (ringCtx d n) e.addr .read 2 with
      | some g, some ra => .when (d.fld F.VCE_CTRL_enable g == 1 && d.fld F.VCE_CTRL_partition g == ingPart d site)
          (returnBuffer g (fromLE (d.bytesAt ra) + e.field 5 1 % 16 * 65536))
      | _, _ => .skip,
    .when (x.samplesDone + 1 == x.length) (ingEnd n x 0)]

/-- One sample of the job in progress (R383): its slot must translate for writing, its table entry for reading and
writing; while a part of them is held, the unit waits. -/
def runSample (n : Nat) (x : Desc) (us : Nat) (fixed lost : List Nat) : Eff := .obs fun d =>
  let p : Profile := ⟨x.moved⟩
  let c := ringCtx d n
  let i := x.samplesDone
  match translateRange d c (x.num 8 8 + 32 * i) .read 32, translateRange d c (x.num 8 8 + 32 * i) .write 32 with
  | some ta, some tw =>
    match translateRange d c (x.dst + i * x.stride) .write p.slotBytes with
    | none => ingEnd n x 2
    | some slot =>
      let e : Entry := ⟨tw, d.bytesAt ta⟩
      let s := sampleSource d n p e
      if anyPoison d ta then ingEnd n x 3
      else if !writable slot then ingEnd n x 2
      else .when (!agentHeld d (ringPart d n) (ta ++ slot ++ s.addrs)) <| .seq (agentReads n (ta ++ s.addrs) fixed lost) <| .obs fun d =>
        let s := sampleSource d n p e
        writeSample n x p e s (checkSample d p e s) slot us
  | _, _ => ingEnd n x 1

/-- CONVERT (R383): the unit takes its next job where none is in progress, and processes the next sample. -/
def convert (site us : Nat) (fixed lost : List Nat) : Eff := .obs fun d =>
  .when (ingServes d site) <|
    match ingTurn d site with
    | none => .skip
    | some (n, x) => .seq (.when (!x.begun) (beginJob n x fixed lost)) <| .obs fun d =>
      match (d.ringsAt n).find? fun y => y.index == x.index && y.begun && y.status.isNone with
      | some y => runSample n y us fixed lost
      | none => .skip

/-- INGEST_JOB_COMPLETE (R375). -/
def ingestJobComplete (n : Nat) : Eff := jobComplete n .ing

/-- STREAM_SLOT_RESET (R389): a write of ING_STREAM_CTRL with reset. -/
def streamSlotReset (rq site v : Nat) : Eff :=
  writeAct rq .ING_STREAM_CTRL site v 31 (.when (bit v 31 == 1) (clearSlot site (bits v 7 0)))

/-! ### Published figures (R386) -/

/-- The descriptors of a ring from `j` on whose own bit is 1, read ahead without being taken. -/
def ownedAhead (d : Device) (n : Nat) : Nat → Nat → List Desc
  | 0, _ => []
  | fuel + 1, j =>
    match descAddrs d n j .read with
    | none => []
    | some as =>
      let x : Desc := { index := j, raw := d.bytesAt as }
      if !anyPoison d as && bit x.ctrl 31 == 1 then x :: ownedAhead d n fuel (j + 1) else []

/-- The jobs of a ring that the device owns and has not started. -/
def notStarted (d : Device) (n : Nat) : List Desc :=
  if d.fld F.DMA_RING_BASE_enable n == 0 then []
  else (d.ringsAt n).filter (fun x => x.status.isNone && !x.begun) ++ ownedAhead d n (ringSize d n) (d.fld F.DMA_RING_STAT_head n)

/-- Jobs queued at a codec engine, and VCE_LOAD as it reads: how busy the engine was is a free value (log entry 2). -/
def vceQueued (d : Device) (e : Nat) : Nat :=
  ((List.range 8).map fun r => ((notStarted d (vceRing e r)).filter fun x => !jobWaits d (vceRing e r) x).length).sum
def vceLoad (d : Device) (e free : Nat) : Nat :=
  let busy := free % 101
  busy * 16777216 + (free / 256 % (busy + 1)) * 65536 + (openSessions d e).length * 256 + min 255 (vceQueued d e)

/-- Jobs queued at an ingest unit. -/
def ingQueued (d : Device) (site : Nat) : Nat := ((List.range 8).map fun r => (notStarted d (ingRing site r)).length).sum

/-- A job of an ingest unit is owned by the device, queued or in progress. -/
def ingOwned (d : Device) (site : Nat) : Bool := 0 < ingQueued d site || (List.range 8).any fun r =>
  (d.ringsAt (ingRing site r)).any fun x => x.status.isNone

/-- Samples of the jobs queued and of the job in progress. -/
def ingSamples (d : Device) (site : Nat) : Nat :=
  ((List.range 8).map fun r =>
    (((notStarted d (ingRing site r)).map (·.length)).sum +
      (((d.ringsAt (ingRing site r)).filter fun x => x.status.isNone && x.begun).map (·.length)).sum)).sum

/-- Buffers of a die site's codec engines that are held. -/
def heldBuffers (d : Device) (site : Nat) : Nat :=
  ((List.range 32).map fun k => ((d.sessionsAt (site * 32 + k)).map (·.heldBufs.length)).getD 0).sum

/-- The record a unit publishes: all but the publication numbers at both ends. -/
def loadRecord (d : Device) (site free : Nat) : List Byte :=
  toLE 4 (d.reg .CLK_AON_CNT 0) ++ toLE 1 (free % 101) ++
  toLE 1 (if d.fld F.ING_CTRL_retired site == 1 then 2 else d.fld F.ING_CTRL_enable site) ++
  toLE 2 (min 65535 (ingQueued d site)) ++ toLE 4 (ingSamples d site) ++ toLE 4 (d.ingReplacedAt site) ++
  toLE 4 (heldBuffers d site) ++ toLE 4 (vceLoad d (2 * site) (free / 256)) ++ toLE 4 (vceLoad d (2 * site + 1) (free / 16777216)) ++
  List.replicate 92 0

/-- The header of the status page. -/
def pageHeader : List Byte := toLE 4 0x47495841 ++ [1, 16, 0, 0] ++ toLE 4 1000 ++ List.replicate 52 0

/-- Write bytes into the status page: in device memory, or by PCI Express writes of the port's physical function. -/
def pageWrite (o : Nat) (bs : List Byte) : Eff := .obs fun d =>
  let a := d.fld F.ING_PAGE_addr 0 * 4096 + o
  if d.fld F.ING_PAGE_space 0 == 1 then modSent (· ++ [.hostWrite (d.fld F.ING_PAGE_port 0 * 1024) a bs])
  else store ((List.range bs.length).map (a + ·)) bs

/-- The page can be written: a host page, or one in a memory of the device. -/
def pageThere (d : Device) : Bool :=
  d.fld F.ING_PAGE_space 0 == 1 || writable ((List.range 4096).map (d.fld F.ING_PAGE_addr 0 * 4096 + ·))

/-- The unit of a logical die publishes its record (R386), or skips the publication because it fails. -/
def publish (die : Nat) (failed : Bool) : Eff := .obs fun d =>
  match dieSite d die with
  | none => .skip
  | some site => .when (d.fld F.ING_CTRL_enable site == 1) <|
    if failed || !pageThere d then addSat F.ING_STATUS_pub_lost site 1
    else withFree fun v => .obs fun d =>
      let o := 0x40 + die * 128
      .all [pageWrite o (toLE 4 (d.ingPubsAt site)), pageWrite (o + 4) (loadRecord d site v),
        pageWrite (o + 0x7C) (toLE 4 (d.ingPubsAt site)), modIngPubs site (· + 1)]

/-- INGEST_PUBLISH (R386): the 1 ms tick; `failed` lists the logical dies whose publication fails. None is made in REST. -/
def ingestPublish (failed : List Nat) : Eff := .obs fun d =>
  .when (d.fld F.ING_PAGE_enable 0 == 1 && (d.fld F.PWR_STATE_state 0 == 2 || d.fld F.PWR_STATE_state 0 == 3)) <| .seq
    (.when (pageThere d) (pageWrite 0 pageHeader))
    (.each (List.range 16) fun i => publish i (failed.contains i))

end Sys2Proof.Machine
end

