-- ==== Sys2Proof/Machine/Prefix.lean ====
section
/-! DEFINITION. The sequence unit, the prefix tree and candidate verification (06_attention_and_kv.md R161 to R178, R180). -/

namespace Sys2Proof.Machine

/-! ### The hash (R161) -/

/-- Rotate a 64-bit number left. -/
def rotl64 (x n : Nat) : Nat := m64 (x * 2 ^ n) + x / 2 ^ (64 - n)

/-- One SipHash round. -/
def sipRound : Nat × Nat × Nat × Nat → Nat × Nat × Nat × Nat
  | (v0, v1, v2, v3) =>
    let v0 := m64 (v0 + v1)
    let v1 := rotl64 v1 13 ^^^ v0
    let v0 := rotl64 v0 32
    let v2 := m64 (v2 + v3)
    let v3 := rotl64 v3 16 ^^^ v2
    let v0 := m64 (v0 + v3)
    let v3 := rotl64 v3 21 ^^^ v0
    let v2 := m64 (v2 + v1)
    let v1 := rotl64 v1 17 ^^^ v2
    (v0, v1, rotl64 v2 32, v3)

/-- Absorb one 64-bit word: two rounds. -/
def sipWord (s : Nat × Nat × Nat × Nat) (m : Nat) : Nat × Nat × Nat × Nat :=
  let (v0, v1, v2, v3) := sipRound (sipRound (s.1, s.2.1, s.2.2.1, s.2.2.2 ^^^ m))
  (v0 ^^^ m, v1, v2, v3)

/-- SipHash-2-4 of a byte string under a 128-bit key. -/
def sipHash (key : Nat) (bs : List Byte) : Nat :=
  let k0 := key % 2 ^ 64
  let k1 := key / 2 ^ 64 % 2 ^ 64
  let s0 := (k0 ^^^ 0x736F6D6570736575, k1 ^^^ 0x646F72616E646F6D, k0 ^^^ 0x6C7967656E657261, k1 ^^^ 0x7465646279746573)
  let words := (List.range (bs.length / 8)).map fun i => fromLE ((bs.drop (8 * i)).take 8)
  let last := bs.length % 256 * 2 ^ 56 + fromLE (bs.drop (bs.length / 8 * 8))
  let (v0, v1, v2, v3) := (words ++ [last]).foldl sipWord s0
  let (v0, v1, v2, v3) := sipRound (sipRound (sipRound (sipRound (v0, v1, v2 ^^^ 0xFF, v3))))
  v0 ^^^ v1 ^^^ v2 ^^^ v3

/-- The hash of a block: scope, length, parent's hash, tokens (R161). -/
def blockHash (key scope parentHash : Nat) (tokens : List Nat) : Nat :=
  sipHash key (toLE 2 scope ++ toLE 1 tokens.length ++ toLE 1 0 ++ toLE 8 parentHash ++ tokens.flatMap (toLE 4))

/-! ### The tree (R163, R165 to R168) -/

/-- A partition's nodes in use, by index. -/
def treeNodes (d : Device) (p : Nat) : List (Nat × PfxNode) :=
  d.pfxNodes.filterMap fun e => if e.1 / 65536 == p then e.2.map fun n => (e.1 % 65536, n) else none

/-- A node of a partition. -/
def treeNode (d : Device) (p i : Nat) : Option PfxNode := if i < 65536 then d.pfxNodesAt (p * 65536 + i) else none

/-- Nodes that agree with a block in hash, scope and parent: a match where the tokens agree too, else a collision. -/
def candidates (d : Device) (p scope : Nat) (parent : Option Nat) (hash : Nat) : List (Nat × PfxNode) :=
  (treeNodes d p).filter fun n => n.2.hash == hash && n.2.scope == scope && n.2.parent == parent

/-- The node that matches a block (R163). -/
def matching (d : Device) (p scope : Nat) (parent : Option Nat) (tokens : List Nat) : Option Nat :=
  let h := blockHash (d.pfxKeysAt p) scope ((parent.bind (treeNode d p)).map (·.hash) |>.getD 0) tokens
  ((candidates d p scope parent h).find? fun n => n.2.tokens == tokens).map (·.1)

/-- A collision with a block (R163). -/
def collides (d : Device) (p scope : Nat) (parent : Option Nat) (tokens : List Nat) : Bool :=
  let h := blockHash (d.pfxKeysAt p) scope ((parent.bind (treeNode d p)).map (·.hash) |>.getD 0) tokens
  (candidates d p scope parent h).any fun n => n.2.tokens != tokens

/-- An evictable node: a leaf with no references (R167). -/
def PfxNode.evictable (n : PfxNode) : Bool := n.children == 0 && n.refs == 0

/-- Change a node. -/
def modNode (p i : Nat) (f : PfxNode → PfxNode) : Eff := modPfxNodes (p * 65536 + i) (Option.map f)

/-- The counts a partition's registers show (PRT_PFX_USE, PRT_PFX_REFD). -/
def countNodes (p : Nat) : Eff := .obs fun d => .seq
  (setF F.PRT_PFX_USE_valid p (treeNodes d p).length)
  (setF F.PRT_PFX_REFD_referenced p ((treeNodes d p).filter fun n => n.2.refs != 0).length)

/-- The eviction log takes another record: it is on and not full (PRT_PFX_EVLOG, PRT_PFX_EVLOG_PTR). -/
def logRoom (d : Device) (p : Nat) : Bool :=
  d.fld F.PRT_PFX_EVLOG_enable p == 1 &&
    (d.fld F.PRT_PFX_EVLOG_PTR_head p + 65536 - d.fld F.PRT_PFX_EVLOG_PTR_tail p) % 65536 < 4096

/-- Write one eviction record (R167). -/
def logEviction (p i flags : Nat) (n : PfxNode) : Eff := .obs fun d =>
  let j := d.fld F.PRT_PFX_EVLOG_PTR_head p
  let rec_ := toLE 2 i ++ toLE 2 n.scope ++ toLE 1 flags ++ toLE 3 0 ++ toLE 8 n.kvAddr
  .seq
    (match (List.range 16).mapM fun b => partAddr d p (d.fld F.PRT_PFX_EVLOG_base p * 65536 + j % 4096 * 16 + b) with
     | some as => store as rec_
     | none => .skip)
    (setF F.PRT_PFX_EVLOG_PTR_head p (j + 1))

/-- Remove a node: its parent has one child fewer. -/
def removeNode (p i : Nat) (n : PfxNode) : Eff := .seq
  (putPfxNodes (p * 65536 + i) none)
  (match n.parent with
   | some q => modNode p q fun m => { m with children := m.children - 1 }
   | none => .skip)

/-- Evict a node and log it. -/
def evictNode (p i : Nat) : Eff := .obs fun d =>
  match treeNode d p i with
  | some n => .seq (logEviction p i 0 n) (removeNode p i n)
  | none => .skip

/-- The evictable nodes with the oldest last_use, among those that satisfy `q`. -/
def oldest (d : Device) (p : Nat) (q : PfxNode → Bool) : List Nat :=
  let es := (treeNodes d p).filter fun n => n.2.evictable && q n.2
  (es.filter fun n => es.all fun m => n.2.lastUse ≤ m.2.lastUse).map (·.1)

/-- Remove the evictable nodes that satisfy `q`, and those that become so, while the log has room: a removal that meets a full
or disabled log ends there, as one that is done (log entry 131). -/
def evictAll (p : Nat) (q : PfxNode → Bool) : Nat → Eff
  | 0 => .skip
  | n + 1 => .obs fun d =>
    match (treeNodes d p).find? fun x => x.2.evictable && q x.2 with
    | some x => .when (logRoom d p) (.seq (evictNode p x.1) (evictAll p q n))
    | none => .skip

/-- Empty a partition's tree. -/
def emptyTree (p : Nat) : Eff := .all [
  .upd (.pfxNodesDrop fun k => k / 65536 == p),
  .upd (.pfxRefsDrop fun k => k / 65536 / 64 == p),
  countNodes p]

/-- Draw a new key (R161). -/
def drawKey (p : Nat) : Eff := withFree fun a => withFree fun b => putPfxKeys p (a + b * 2 ^ 64)

/-! ### References (R166) -/

/-- The key of a ring's references on a node. -/
def refKey (p ring i : Nat) : Nat := (p * 64 + ring) * 65536 + i

/-- The nodes a ring holds references on. -/
def ringRefs (d : Device) (p ring : Nat) : List Nat :=
  (mapKeys d.pfxRefs fun k _ => k / 65536 == p * 64 + ring).map (· % 65536)

/-- A ring can take one reference on each of the nodes given (R166). -/
def refsFit (d : Device) (p ring : Nat) (is : List Nat) : Bool :=
  (is.all fun i => ((treeNode d p i).map (·.refs)).getD 0 < 65535) &&
    (is.filter fun i => d.pfxRefsAt (refKey p ring i) == 0).dedup.length + (ringRefs d p ring).length ≤ 4096

/-- Take a reference on a node. -/
def takeRef (p ring i : Nat) : Eff := .seq (modNode p i fun n => { n with refs := n.refs + 1 }) (modPfxRefs (refKey p ring i) (· + 1))

/-- Give a reference up. -/
def giveRef (p ring i : Nat) : Eff := .seq (modNode p i fun n => { n with refs := n.refs - 1 }) (modPfxRefs (refKey p ring i) (· - 1))

/-- Release every reference of a ring (R166). -/
def releaseRing (p ring : Nat) : Eff := .obs fun d => .all [
  .each (ringRefs d p ring) (fun i => modNode p i fun n => { n with refs := n.refs - d.pfxRefsAt (refKey p ring i) }),
  .upd (.pfxRefsDrop fun k => k / 65536 == p * 64 + ring),
  countNodes p]

/-! ### Request rings (R169 to R171) -/

/-- A ring is served: enabled, and its context bound to its partition (PRT_SEQ_RING_CFG). -/
def seqServed (d : Device) (p ring : Nat) : Bool :=
  d.fld F.PRT_SEQ_RING_BASE_enable (p * 64 + ring) == 1 && d.fld F.PRT_CTRL_state p != 0 &&
    ctxPart d (d.fld F.PRT_SEQ_RING_CFG_context (p * 64 + ring)) == some p

/-- The ring's virtual address, its context and its size in records. -/
def seqBase (d : Device) (p ring : Nat) : Nat := d.fld F.PRT_SEQ_RING_BASE_base (p * 64 + ring) * 64
def seqCtx (d : Device) (p ring : Nat) : Nat := d.fld F.PRT_SEQ_RING_CFG_context (p * 64 + ring)
def seqSize (d : Device) (p ring : Nat) : Nat := 2 ^ d.fld F.PRT_SEQ_RING_CFG_size_log2 (p * 64 + ring)

/-- A number in a context's virtual range. -/
def readVirtual (d : Device) (c a n : Nat) : Option Nat := (translateRange d c a .read n).map fun as => fromLE (d.bytesAt as)

/-- The ring's head index, as it stands in memory (log entry 19). -/
def seqHead (d : Device) (p ring : Nat) : Option Nat := readVirtual d (seqCtx d p ring) (seqBase d p ring + 8) 4

/-- The logical die whose unit serves a partition: the lowest of its clusters (R169). -/
def seqDie (d : Device) (p : Nat) : Option Nat := ((partClusters d p)[0]?).map (· / 8)

/-- A ring has a record its unit knows of. -/
def seqWaiting (d : Device) (p ring : Nat) : Bool :=
  seqServed d p ring &&
    (match d.seqTailsAt (p * 64 + ring), seqHead d p ring with
     | some t, some h => t != h
     | _, _ => false)

/-- The rings with a record waiting at a die's unit, in turn after ring `from_`. -/
def seqTurn (d : Device) (die from_ : Nat) : List Nat :=
  ((List.range 2048).map fun i => (from_ + 1 + i) % 2048).filter fun k =>
    seqDie d (k / 64) == some die && seqWaiting d (k / 64) (k % 64)

/-- A request as its record gives it (R171). -/
structure SeqReq where
  part : Nat
  ring : Nat
  ctx : Nat
  head : Nat
  va : Nat
  op : Nat
  flags : Nat
  count : Nat
  serial : Nat
  a0 : Nat
  a1 : Nat
  a2 : Nat
  a3 : Nat
  imm : Nat
  cue : Nat
  vocab : Nat
  deriving DecidableEq, Repr

/-- The request at a ring's head. -/
def seqRequest (d : Device) (p ring : Nat) : Option SeqReq :=
  let c := seqCtx d p ring
  match seqHead d p ring with
  | none => none
  | some h =>
    let va := seqBase d p ring + 0x40 + h % seqSize d p ring * 64
    (translateRange d c va .read 64).map fun as =>
      let bs := d.bytesAt as
      let f (o n : Nat) : Nat := fromLE ((bs.drop o).take n)
      { part := p, ring := ring, ctx := c, head := h, va := va, op := f 0 1, flags := f 1 1, count := f 2 2, serial := f 4 4
        a0 := f 8 8, a1 := f 0x10 8, a2 := f 0x18 8, a3 := f 0x20 8, imm := f 0x28 8, cue := f 0x30 4, vocab := f 0x34 4 }

/-- Write to a context's virtual range, where it may. -/
def writeVirtual (c a : Nat) (bs : List Byte) : Eff := .obs fun d =>
  match translateRange d c a .write bs.length with
  | some as => store as bs
  | none => .skip

/-- Complete a request (R174): result, then status, then head, then the cue. -/
def seqComplete (q : SeqReq) (status result : Nat) : Eff := .obs fun d => .all [
  writeVirtual q.ctx (q.va + 0x3C) (toLE 4 result),
  writeVirtual q.ctx (q.va + 0x38) (toLE 4 status),
  writeVirtual q.ctx (seqBase d q.part q.ring + 8) (toLE 4 (q.head + 1)),
  setF F.PRT_SEQ_STAT_busy q.part 0,
  setF F.PRT_SEQ_STAT_last_ring q.part q.ring,
  setF F.PRT_SEQ_STAT_last_status q.part status,
  addWrap F.PRT_SEQ_STAT_completed q.part 1,
  .each ((seqDie d q.part).toList) (fun die => putSeqService die none),
  signalField q.part q.ctx q.cue]

/-- Fail a request: nothing but status, result and head changes; the spec gives no result value (log entry 2). The completion of
a request that fails signals its cue as any other does (log entry 130). -/
def seqFail (q : SeqReq) (status : Nat) : Eff := withFree fun w => seqComplete q status w

/-- A request whose fields are out of range (R171 to R173). -/
def seqMalformed (d : Device) (q : SeqReq) : Bool :=
  let shared := bit q.flags 1 == 1
  !(1 ≤ q.op && q.op ≤ 6) || 3 < q.flags || q.cue % 512 != 0 ||
  (shared && d.fld F.PRT_SEQ_RING_CFG_share_en (q.part * 64 + q.ring) == 0) ||
  (q.op != 4 && q.vocab != 0) ||
  (match q.op with
   | 1 => q.count != 0 || bits q.imm 12 0 == 0 || 4096 < bits q.imm 12 0
   | 2 => q.count != 0 || 2 ^ 24 ≤ q.imm || bits q.imm 22 16 == 0 || 64 < bits q.imm 22 16 || 2 ^ 48 ≤ q.a1 || 2 ^ 32 ≤ q.a2
   | 3 => q.count == 0 || 64 < q.count || q.imm != 0
   | 4 => q.count == 0 || 16 < q.count || q.vocab < 2 || 262144 < q.vocab
   | 5 => q.count != 0
   | _ => q.count != 0 || q.imm != 0)

/-- The scope of a request (R162). -/
def seqScope (d : Device) (q : SeqReq) : Nat :=
  let n := q.part * 64 + q.ring
  if bit q.flags 1 == 1 && d.fld F.PRT_SEQ_RING_CFG_share_en n == 1 then 0x400 + d.fld F.PRT_SEQ_RING_CFG_share_group n else q.ctx

/-- The unit of a die takes the next record in turn, if it has none in service (R169). A record with fields out of range is
completed at once. -/
def seqTake (die : Nat) : Eff := .obs fun d =>
  .when (d.seqServiceAt die).isNone <|
    match seqTurn d die (d.rrAt (512 + die)) with
    | [] => .skip
    | k :: _ =>
      .all [
        putRr (512 + die) k,
        match seqRequest d (k / 64) (k % 64) with
        | none => .skip
        | some q =>
          if seqMalformed d q then seqFail q 8
          else .seq (putSeqService die (some k)) (setF F.PRT_SEQ_STAT_busy (k / 64) 1)]

/-- Read a ring's tail (R170). -/
def seqReadTail (p ring : Nat) : Eff := .obs fun d =>
  .when (seqServed d p ring) (putSeqTails (p * 64 + ring) (readVirtual d (seqCtx d p ring) (seqBase d p ring) 4))

/-- SEQ_TAIL_POLL (R170): the tail is read, and the unit takes the next record. -/
def seqTailPoll (p ring : Nat) : Eff := whileIt serving <| .seq (seqReadTail p ring)
  (.obs fun d => .each (seqDie d p).toList seqTake)

/-- SEQ_DOORBELL (R170): a write of PRT_SEQ_DOORBELL. -/
def seqDoorbell (rq p ring : Nat) : Eff := writeAct rq .PRT_SEQ_DOORBELL p ring 0 (seqTailPoll p (ring % 64))

/-- SEQ_RING_ENABLE (R170): a write of PRT_SEQ_RING_BASE; clearing enable abandons the unserved records. -/
def seqRingEnable (rq p ring v : Nat) : Eff :=
  writeAct rq .PRT_SEQ_RING_BASE (p * 64 + ring) v 0 <| .when (bit v 0 == 0) (putSeqTails (p * 64 + ring) none)

/-! ### Serving requests (R164 to R166, R172) -/

/-- The tree of a partition is in service. -/
def treeReady (d : Device) (p : Nat) : Bool := d.fld F.PRT_PFX_CTRL_ready p == 1

/-- One of the 1,024 units of 64 bytes from `a`, all of one group, holds poison (R240, R244). -/
def chunkPoisoned (d : Device) (a : Nat) : Bool :=
  let listed := (d.poison.filter fun e => a ≤ e.1 && e.1 < a + 65536).length
  if d.lostGroup a then listed < 1024 else listed != 0

/-- An uncorrectable error lies in the tree's region (R180). -/
def treePoisoned (d : Device) (p : Nat) : Bool :=
  (List.range 384).any fun j =>
    (partAddr d p (d.fld F.PRT_PFX_BASE_base p * 2097152 + j * 65536)).any (chunkPoisoned d)

/-- A lost tree fails its requests until the partition is reset, and is logged once (R180). -/
def loseTree (p c : Nat) : Eff := .obs fun d =>
  .when (!d.pfxLostAt p) (.seq (putPfxLost p true) (logError { severity := 1, source := 9, code := 6, context := c }))

/-- A request of the partition fails because its tree's region has met an uncorrectable error, until the partition is reset
(R180). -/
def treeLost (d : Device) (p : Nat) : Bool := d.pfxLostAt p || (treeReady d p && treePoisoned d p)

/-- Serve the request in service at a die when it has the op given. Its record and its ring's configuration are those that
stand now: one that is out of range fails with BAD_REQUEST (R162, R173). Every request of a partition fails with BAD_NODE once
its tree is lost (R180). -/
def seqServe (die op : Nat) (run : SeqReq → Eff) : Eff := .obs fun d =>
  match d.seqServiceAt die with
  | none => .skip
  | some k =>
    match seqRequest d (k / 64) (k % 64) with
    | none => .skip
    | some q =>
      if seqMalformed d q then seqFail q 8
      else .when (q.op == op) <|
        if treeLost d q.part then .seq (loseTree q.part q.ctx) (seqFail q 6) else run q

/-- The tokens at a virtual address. -/
def tokensAt (d : Device) (c a n : Nat) : Option (List Nat) :=
  (translateRange d c a .read (4 * n)).map fun as => numbers n (d.bytesAt as)
where
  /-- Little-endian words. -/
  numbers : Nat → List Byte → List Nat
    | 0, _ => []
    | n + 1, bs => fromLE (bs.take 4) :: numbers n (bs.drop 4)

/-- Tokens in blocks of 64. -/
def tokenBlocks : Nat → List Nat → List (List Nat)
  | 0, _ => []
  | n + 1, ts => if ts.isEmpty then [] else ts.take 64 :: tokenBlocks n (ts.drop 64)

/-- The nodes a LOOKUP matches, in order, and whether the block that ended it met a collision (R164). -/
def walk (d : Device) (p scope : Nat) : Option Nat → List (List Nat) → List Nat × Bool
  | _, [] => ([], false)
  | parent, b :: bs =>
    match matching d p scope parent b with
    | some i => let (is, c) := walk d p scope (some i) bs; (i :: is, c)
    | none => ([], collides d p scope parent b)

/-- A LOOKUP's result entry (R164). -/
def lookupEntry (d : Device) (p i : Nat) : List Byte :=
  match treeNode d p i with
  | some n => toLE 2 i ++ toLE 1 n.tokens.length ++ toLE 5 0 ++ toLE 8 n.kvAddr
  | none => []

/-- LOOKUP (R164). -/
def lookupReq (die : Nat) : Eff := seqServe die 1 fun q => .obs fun d =>
  match tokensAt d q.ctx q.a0 (bits q.imm 12 0) with
  | none => seqFail q 9
  | some ts =>
    let blocks := tokenBlocks 64 ts
    let (is, clash) := walk d q.part (seqScope d q) none blocks
    let take := bit q.flags 0 == 1
    if (translateRange d q.ctx q.a1 .write (16 * is.length)).isNone then seqFail q 9
    else if take && !refsFit d q.part q.ring is then seqFail q 5
    else .all [
      writeVirtual q.ctx q.a1 (is.flatMap (lookupEntry d q.part)),
      .each is (fun i => .seq (modNode q.part i fun n => { n with lastUse := q.serial }) (.when take (takeRef q.part q.ring i))),
      countNodes q.part,
      addSat F.PRT_PFX_HITS_hits q.part is.length,
      .when (is.length < blocks.length) (addSat F.PRT_PFX_MISSES_misses q.part 1),
      .when clash (addSat F.PRT_PFX_EVENTS_collisions q.part 1),
      seqComplete q 0 is.length]

/-- The bucket of a hash; the spec does not say how it is formed (log entry 20). -/
def bucketIndex (hash : Nat) : Nat := Config.pfxBucket hash % 16384

/-- Allocate a free node for an INSERT (R165). -/
def allocate (q : SeqReq) (n : PfxNode) : Eff := .obs fun d =>
  pickOne ((List.range 65536).filter fun i => (treeNode d q.part i).isNone) fun i => .all [
    putPfxNodes (q.part * 65536 + i) (some n),
    (match n.parent with
     | some p => modNode q.part p fun m => { m with children := m.children + 1 }
     | none => .skip),
    .when (bit q.flags 0 == 1) (takeRef q.part q.ring i),
    countNodes q.part,
    seqComplete q 0 i]

/-- Make room by evicting the oldest among the nodes that satisfy `sel`, then go on; `full` is the failure (R167). -/
def evictFor (q : SeqReq) (sel : PfxNode → Bool) (full : Nat) (k : Eff) : Eff := .obs fun d =>
  match oldest d q.part sel with
  | [] => .seq (addSat F.PRT_PFX_EVENTS_full q.part 1) (seqFail q full)
  | es =>
    if logRoom d q.part then pickOne es fun i => .seq (evictNode q.part i) k
    else .seq (addSat F.PRT_PFX_EVENTS_full q.part 1) (seqFail q 3)

/-- Insert a block that no node matches (R165, R167). -/
def insertNew (q : SeqReq) (n : PfxNode) : Eff := .obs fun d =>
  let inBucket (m : PfxNode) : Bool := bucketIndex m.hash == bucketIndex n.hash
  if 8 ≤ ((treeNodes d q.part).filter fun m => inBucket m.2).length then evictFor q inBucket 4 (allocate q n)
  else if 65536 ≤ (treeNodes d q.part).length then evictFor q (fun _ => true) 3 (allocate q n)
  else allocate q n

/-- INSERT (R165). -/
def insertReq (die : Nat) : Eff := seqServe die 2 fun q => .obs fun d =>
  let parent := if bit q.imm 23 == 1 then none else some (bits q.imm 15 0)
  let take := bit q.flags 0 == 1
  let scope := seqScope d q
  match tokensAt d q.ctx q.a0 (bits q.imm 22 16) with
  | none => seqFail q 9
  | some ts =>
    if !treeReady d q.part then seqFail q 3
    else if parent.any fun i => d.pfxRefsAt (refKey q.part q.ring i) == 0 || (treeNode d q.part i).map (·.scope) != some scope
    then seqFail q 6
    else
      match matching d q.part scope parent ts with
      | some i =>
        if take && !refsFit d q.part q.ring [i] then seqFail q 5
        else .all [
          modNode q.part i (fun n => { n with lastUse := q.serial }),
          .when take (takeRef q.part q.ring i),
          countNodes q.part,
          seqComplete q 1 i]
      | none =>
        if collides d q.part scope parent ts then .seq (addSat F.PRT_PFX_EVENTS_collisions q.part 1) (seqFail q 2)
        else if take && 4096 ≤ (ringRefs d q.part q.ring).length then seqFail q 5
        else insertNew q {
          hash := blockHash (d.pfxKeysAt q.part) scope ((parent.bind (treeNode d q.part)).map (·.hash) |>.getD 0) ts
          parent := parent, scope := scope, tokens := ts, kvAddr := q.a1, kvBytes := q.a2, lastUse := q.serial }

/-- RELEASE (R166). -/
def releaseReq (die : Nat) : Eff := seqServe die 3 fun q => .obs fun d =>
  match translateRange d q.ctx q.a0 .read (2 * q.count) with
  | none => seqFail q 9
  | some as =>
    let bs := d.bytesAt as
    let is := (List.range q.count).map fun i => fromLE ((bs.drop (2 * i)).take 2)
    if is.any fun i => d.pfxRefsAt (refKey q.part q.ring i) < (is.filter (· == i)).length then seqFail q 7
    else if is.any fun i => (treeNode d q.part i).map (·.scope) != some (seqScope d q) then seqFail q 6
    else .all [.each is (giveRef q.part q.ring), countNodes q.part, seqComplete q 0 q.count]

/-- A node's 64-byte form (R163). -/
def nodeForm (n : PfxNode) : List Byte :=
  toLE 8 n.hash ++ toLE 2 (n.parent.getD 0) ++ toLE 2 n.scope ++ toLE 1 n.tokens.length ++
  toLE 1 (if n.children == 0 then 1 else 2) ++ toLE 2 n.refs ++ toLE 8 n.kvAddr ++ toLE 4 n.kvBytes ++ toLE 2 n.children ++
  toLE 1 (if n.parent.isNone then 1 else 0) ++ toLE 1 0 ++ toLE 8 n.lastUse ++ toLE 24 0

/-- NODE_READ (R163, R172). -/
def nodeReadReq (die : Nat) : Eff := seqServe die 5 fun q => .obs fun d =>
  match treeNode d q.part (bits q.imm 15 0) with
  | none => seqFail q 6
  | some n =>
    if n.scope != seqScope d q then seqFail q 6
    else if (translateRange d q.ctx q.a0 .write 64).isNone then seqFail q 9
    else .seq (writeVirtual q.ctx q.a0 (nodeForm n)) (seqComplete q 0 0)

/-- FLUSH_SCOPE (R172). -/
def flushScopeReq (die : Nat) : Eff := seqServe die 6 fun q => .obs fun d =>
  let scope := seqScope d q
  .seq (evictAll q.part (fun n => n.scope == scope) (treeNodes d q.part).length) <| .obs fun d' =>
    .seq (countNodes q.part) (seqComplete q 0 ((treeNodes d q.part).length - (treeNodes d' q.part).length))

/-! ### Candidate verification (R176 to R178) -/

/-- Row `i` of FP32 probabilities at a list of addresses. -/
def probRow (d : Device) (as : List Nat) (vocab i : Nat) : List Nat :=
  (List.range vocab).map fun v => r32 (val (fromLE (d.bytesAt ((as.drop ((i * vocab + v) * 4)).take 4))))

/-- A probability that VERIFY cannot use: negative or not finite (R173). -/
def badProb (w : Nat) : Bool := !(val w).isFinite || (val w).lt (.zero false)

/-- The lowest index that holds a row's maximum. -/
def topOf (row : List Nat) : Nat :=
  row.findIdx fun x => row.all fun y => !flt x y

/-- The uniform value of draw `j` (R177). -/
def uniform (k c0 j : Nat) : Nat := r32 (.num false (randomWord k (m64 (c0 + j)) / 2 ^ 40) (-24))

/-- A sum in ascending order, one rounding an addition. -/
def sumInOrder (r : List Nat) : Nat := r.foldl fadd 0

/-- How many candidates are accepted (R177). -/
def acceptedCount (rule k c0 : Nat) (cand : List Nat) (p q : Nat → List Nat) : Nat :=
  (cand.zipIdx.takeWhile fun (c, i) =>
    if rule == 0 then c == topOf (p i)
    else flt (fmul (uniform k c0 i) ((q i).getD c 0)) ((p i).getD c 0)).length

/-- The token drawn from a residual row: the first whose running sum exceeds t, else the last above 0. -/
def drawToken (r : List Nat) (t : Nat) : Nat :=
  let sums := (r.foldl (fun (acc : List Nat × Nat) x => let s := fadd acc.2 x; (acc.1 ++ [s], s)) ([], 0)).1
  let v := sums.findIdx fun s => flt t s
  if v < r.length then v
  else ((List.range r.length).reverse.find? fun v => flt 0 (r.getD v 0)).getD 0

/-- The emitted token (R177). -/
def emittedToken (rule k c0 n a : Nat) (p q : Nat → List Nat) : Nat :=
  let r := if a < n then List.zipWith (fun x y => fmax (fsub x y) 0) (p a) (if rule == 1 then q a else p a) else p n
  let total := sumInOrder r
  if rule == 0 || (val total).isZero then topOf (p a)
  else drawToken r (fmul (uniform k c0 16) total)

/-- VERIFY (R176 to R178). -/
def verifyReq (die : Nat) : Eff := seqServe die 4 fun q => .obs fun d =>
  let n := q.count
  let rule := bit q.imm 63
  let row := bits q.imm 55 0
  match tokensAt d q.ctx q.a0 n, translateRange d q.ctx q.a1 .read ((n + 1) * q.vocab * 4),
      (if rule == 1 then translateRange d q.ctx q.a2 .read (n * q.vocab * 4) else some []),
      translateRange d q.ctx row .read 16, translateRange d q.ctx row .write 16 with
  | some cand, some pas, some qas, some ras, some _ =>
    if cand.any fun c => q.vocab ≤ c then seqFail q 8 else
    let p := probRow d pas q.vocab
    let dr := probRow d qas q.vocab
    if ((List.range (n + 1)).any fun i => (p i).any badProb) || (rule == 1 && (List.range n).any fun i => (dr i).any badProb)
    then seqFail q 10 else
    let k := d.reg .CTX_SEED q.ctx ^^^ 1
    let a := acceptedCount rule k q.a3 cand p dr
    let bs := d.bytesAt ras
    .all [
      writeVirtual q.ctx (row + 4) (toLE 4 (fromLE ((bs.drop 4).take 4) + 1 + a)),
      writeVirtual q.ctx (row + 8) (toLE 4 (fromLE ((bs.drop 8).take 4) ||| 4)),
      seqComplete q 0 (a + emittedToken rule k q.a3 n a p dr * 256)]
  | _, _, _, _, _ => seqFail q 9

/-! ### The tree's registers (R168, R180) -/

/-- PFX_ENABLE (R168): a write of PRT_PFX_BASE. The base is kept while enable is 1; setting enable empties the tree. -/
def pfxEnable (rq p v : Nat) : Eff := .obs fun d =>
  let on := d.fld F.PRT_PFX_BASE_enable p
  let base := d.fld F.PRT_PFX_BASE_base p
  writeAct rq .PRT_PFX_BASE p v 0 <| .all [
    .when (on == 1) (setF F.PRT_PFX_BASE_base p base),
    .when (on == 0 && bit v 0 == 1) (emptyTree p),
    setF F.PRT_PFX_CTRL_ready p (bit v 0)]

/-- The nodes of a rekeyed tree are logged, with the held bit where they had references, while the log has room. -/
def logRekeyed (p : Nat) (n : Nat × PfxNode) : Eff := .obs fun d =>
  .when (logRoom d p) (logEviction p n.1 (2 + if n.2.refs == 0 then 0 else 1) n.2)

/-- PFX_REKEY (R180): every node is invalidated and logged, the reference tables are cleared, and a new key is drawn. -/
def pfxRekey (rq p : Nat) : Eff :=
  writeAct rq .PRT_PFX_CTRL p (2 ^ 31) 31 <| .obs fun d => .all [.each (treeNodes d p) (logRekeyed p), emptyTree p, drawKey p]

/-- PFX_FLUSH: every evictable node of every scope is removed. -/
def pfxFlush (rq p : Nat) : Eff :=
  writeAct rq .PRT_PFX_CTRL p (2 ^ 30) 30 <| .obs fun d =>
    .seq (evictAll p (fun _ => true) (treeNodes d p).length) (countNodes p)

/-- The unit abandons a ring (R174, R406): its references are given up, and nothing of its records is written. -/
def abandonSeqRing (p ring : Nat) : Eff := .obs fun d => .all [
  releaseRing p ring,
  putSeqTails (p * 64 + ring) none,
  .each ((seqDie d p).toList) (fun die => .when (d.seqServiceAt die == some (p * 64 + ring))
    (.seq (putSeqService die none) (setF F.PRT_SEQ_STAT_busy p 0)))]

end Sys2Proof.Machine
end

