-- ==== Sys2Proof/Machine/Teardown.lean ====
section
/-! DEFINITION. The ends of cancellations, teardowns and partition resets (11_dma_and_cues.md R277, R284;
16_partitions_and_scheduling.md R406, R407, R412; R11), over the rings of every kind. -/

namespace Sys2Proof.Machine

/-! ### Rings of every kind (R277, R284) -/

/-- What a ring's engine checks as it takes a descriptor, by the kind of the ring. -/
def kindCheck (n : Nat) : Device → Desc → Option Nat :=
  match ringKind n with
  | .dma | .link => dmaCheck n
  | .col => fun _ _ => none
  | .vce => vceCheck
  | .ing => ingCheck

/-- Read the descriptor at a ring's head; a collective engine checks what it has taken against its group (R334, R341). No
ring takes a descriptor during entry to REST or while halted (R422, R499); a job taken ends IDLE (R421). -/
def ringFetch (n : Nat) (fixed lost : List Nat) : Eff := .obs fun d =>
  let had := (d.ringsAt n).length
  .when (serving d) <| .seq (fetchDesc n (kindCheck n) fixed lost) <| .obs fun d =>
    .seq (.when (ringKind n == .col && had < (d.ringsAt n).length) (colTaken n)) refreshIdle

/-- RING_DOORBELL (R277): any write reads the descriptor at head. -/
def ringDoorbell (rq n : Nat) (fixed lost : List Nat) : Eff := .obs fun d =>
  if mayWrite d rq .DMA_RING_DOORBELL n == 0 then denied else ringFetch n fixed lost

/-- RING_POLL (R277): the descriptor at head of an enabled ring is read again. -/
def ringPoll (n : Nat) (fixed lost : List Nat) : Eff := ringFetch n fixed lost

/-- RING_RESUME (R283, R526): the ring leaves the halted state and continues at head, whose descriptor it reads. -/
def ringResume (rq n v : Nat) (fixed lost : List Nat) : Eff := writeAct rq .DMA_RING_CTRL n v 31 <| .obs fun d =>
  .when (bit v 31 == 1 && ringState d n == 3) <|
    .seq (setF F.DMA_RING_STAT_state n (if (d.ringsAt n).isEmpty then 1 else 2)) (ringFetch n fixed lost)

/-- The groups that the unfinished descriptors of a collective ring name. -/
def ringGroups (d : Device) (n : Nat) : List Nat :=
  (((d.ringsAt n).filter (·.status.isNone)).filterMap (descGroup d n)).dedup

/-- The cause a member withdraws with when its ring is cancelled: its context lost, or a failure of its own (R341, R350). -/
def cancelCause (d : Device) (n : Nat) : Nat := if d.fld F.CTX_RUN_state (ringCtx d n) == 6 then 2 else 5

/-- Finish the cancellation of a ring, by its kind (R284, R341, R350, R373, R389). -/
def ringCancelDone (n : Nat) : Eff := .obs fun d =>
  .when (ringState d n == 4) <|
    match ringKind n with
    | .dma | .link => finishCancel n 6 dmaTail (dmaSignal n)
    | .col => .all [
        .each (d.colOpsAt n).toList (fun o => modDesc n o.index fun x => { x with results := [o.segment] }),
        finishCancel n 6 (colTail d n) (signalDesc n), putColOps n none,
        .each (ringGroups d n) fun g => withdraw g (cancelCause d n)]
    | .vce => .all [
        modRings n (·.map fun x => if x.status.isNone then { x with results := partResults d n x } else x),
        finishCancel n 6 jobTail (signalDesc n),
        .each (List.range 16) fun k => modSessions (vceOf n * 16 + k) <| Option.map fun s =>
          if s.ring == n then { s with job := none, pics := [] } else s]
    | .ing => .seq (finishCancel n 6 jobTail (signalDesc n))
        (.when ((d.ringsAt n).any fun x => x.begun && x.status.isNone) (setF F.ING_CTRL_busy (ingOf n) 0))

/-! ### Teardown (R406 steps 4 to 8, R407) -/

/-- The floor's part (R406 step 4): waiting acquires are withdrawn, and every semaphore held is released, marked
abandoned. -/
def abandonSems (c : Nat) : Eff := .obs fun d => .seq
  (.each (mapKeys d.sems fun _ s => s.waiters.any fun w => w.ctx == c) fun cell =>
    modSems cell fun s => { s with waiters := s.waiters.filter fun w => w.ctx != c })
  (.each (heldSems d c) fun cell => releaseCell cell 1)

/-- The link dies' part (R406 step 5): packets of the context not yet admitted are discarded. -/
def discardPackets (c : Nat) : Eff := .obs fun d =>
  .each (mapKeys d.egress fun _ q => !q.isEmpty) fun k =>
    modEgress k fun q => q.filter fun p => !(p.src == d.fld F.LNK_DEVICE_id 0 && p.srcCtx == c && (p.kind == 1 || p.kind == 2 || p.kind == 5))

/-- The sequence unit's part (R406 step 6): the records of its rings are abandoned and their references released, also of a
ring that is not enabled now (R166, R174). -/
def abandonSeqRings (c : Nat) : Eff := .obs fun d =>
  match ctxPart d c with
  | none => .skip
  | some p => .each ((List.range 64).filter fun r =>
      seqCtx d p r == c) (abandonSeqRing p)

/-- The clusters' part (R406 step 7): held events are discarded, saved records invalid, and the tile memory of its cores is
cleared (R224). -/
def releaseCores (c : Nat) : Eff := .obs fun d => .all [
  .each (ctxPart d c).toList fun p => dropEvents p c,
  .each (mapKeys d.halos fun _ hs => hs.any fun h => h.ctx == c) (fun k => modHalos k (·.filter fun h => h.ctx != c)),
  .each (mapKeys d.cores fun _ k => k.ctx == some c || k.heldFor == some c) fun core => .all [
    clearTile core, emptyBanks core,
    modCores core fun k => { k with ctx := none, heldFor := none, state := 0, waiting := false, acquiring := false, stopReq := false, ending := false }]]

/-- The registers of a context in the CTX domain reset (R11): its statistics, its driver map and its rings. CTX_RUN takes
state 5, and CTX_FAULT keeps the record it holds. -/
def resetCtxRegs (c : Nat) : Eff := .obs fun d =>
  let rs := (List.range 10392).filter fun n => d.fld F.DMA_RING_CFG_context n == c && (ringPart d n).isSome
  .seq (putDrvMap c []) <| resetRegs fun r i =>
    ((r == Reg.CTX_STAT.code || r == Reg.DRM_CTX_MAP.code) && i == c) ||
    ((r == Reg.DMA_RING_BASE.code || r == Reg.DMA_RING_STAT.code || r == Reg.DMA_RING_BYTES.code) && rs.contains i)

/-- The steward's part (R406 step 8): CTX_FAULT is written, a contained error logged, and the context is faulted. -/
def recordTeardown (c : Nat) : Eff := .obs fun d =>
  match (d.ctxsAt c).teardown with
  | none => .skip
  | some (code, leaf, step, info) => .all [
      recordFault c code leaf info step, setF F.CTX_FAULT_resume_pending c 0,
      logError { severity := 1, source := 17, code := code, context := c, site := 0xFFFF, subsite := 0xFFFF },
      setF F.CTX_RUN_state c 5,
      .each (ctxPart d c).toList fun p => addSat F.PRT_SCHED_STAT_teardowns p 1]

/-- The weight ring stops when the context that runs its owner set is torn down (R272). -/
def stopOwnRing (c : Nat) : Eff := .obs fun d =>
  .each (ctxPart d c).toList fun p =>
    match d.active p with
    | some f => .when ((ringContexts d p f).contains c) (streamerStop p)
    | none => .skip

/-- Steps 4 to 8 of a teardown. -/
def finishSteps (c : Nat) : Eff := .all [
  stopOwnRing c, abandonSems c, discardPackets c, abandonSeqRings c, releaseCores c, closeCtxSessions c, recordTeardown c,
  resetCtxRegs c, putCtxs c { mapped := false }]

/-- TEARDOWN_FINISH (R406): once every ring of a context being torn down is cancelled, the rest of its teardown. -/
def teardownFinish (c : Nat) : Eff := .obs fun d =>
  .when (d.fld F.CTX_RUN_state c == 6 && (ctxRings d c).isEmpty) (finishSteps c)

/-- The bursts of a ring that its peers have not acknowledged count as not delivered. -/
def dropUnacked (n : Nat) : Eff := modRings n fun xs => xs.map fun x => { x with moved := doneBytes x, unacked := [], packing := [], packs := 0 }

/-- A whole teardown, for a reset that waits for it: what no peer has acknowledged by then is not (log entry 136). -/
def tearWhole (c code : Nat) : Eff := .all [
  teardown c code, .obs fun d => .each (ctxRings d c) fun n => .seq (dropUnacked n) (ringCancelDone n), teardownFinish c]

/-! ### Partition reset (R11, R412) -/

/-- Registers of the PRT and CTX domains whose instances belong to one partition. -/
def partRegs : List Reg := [
  .FIG_SRC, .FIG_LOAD, .FIG_STATUS, .FIG_DETAIL, .FIG_AREA, .FIG_SWITCH, .FIG_SWITCH_TIME, .FIG_DROPPED, .FIG_STAGE,
  .COR_SEQ_STATUS, .COR_FAULT, .COR_FAULT_ADDR, .COR_BEAT_STAT, .COR_ITER, .COR_LOOP_CNT, .COR_SEL_STATE, .COR_NUM_STAT,
  .COR_ACC_STAT, .COR_RNG_CTR, .COR_ROW_STAT, .COR_BOUND_OVF, .COR_ROW_EXC, .COR_BOUND_VAL, .COR_TMEM_ECC,
  .PRT_PFX_BASE, .PRT_PFX_CTRL, .PRT_PFX_EVLOG, .PRT_PFX_EVLOG_PTR, .PRT_PFX_USE, .PRT_PFX_REFD, .PRT_PFX_HITS,
  .PRT_PFX_MISSES, .PRT_PFX_EVENTS, .PRT_SEQ_DOORBELL, .PRT_SEQ_STAT, .PRT_SEQ_RING_BASE, .PRT_SEQ_RING_CFG,
  .CLU_HALO_STAT, .CLU_MESH_ERR, .CLK_CLU_CTRL, .DRM_PROMO_POOL, .DRM_PROMOTE, .DRM_PROMO_STAT, .DRM_CTX_MAP,
  .FLS_RING_STAT, .FLS_RING_TIME, .DMA_RING_BASE, .DMA_RING_OWN, .DMA_RING_CFG, .DMA_RING_RATE, .DMA_RING_STAT,
  .DMA_RING_DOORBELL, .DMA_RING_CTRL, .DMA_RING_BYTES, .EVT_CUE_SEL, .EVT_CUE, .EVT_CUE_ADD, .COL_GROUP, .COL_GROUP_KEY,
  .COL_GROUP_STAT, .COL_GROUP_LIST, .COL_GROUP_SIZE, .COL_PRT_LIST, .COL_PRT_REMOVE, .VCE_RC_STAT, .VCE_ERR, .VCE_RETURN,
  .ING_STAT, .ING_STREAM_BASE, .ING_STREAM_CTRL, .PRT_SCHED, .PRT_SCHED_STAT, .PRT_EVT_SPILL, .PRT_EVT_STAT,
  .PRT_EVT_SPILL_PTR, .PRT_REG, .CTX_PRIO, .CTX_RUN, .CTX_SAVE, .CTX_SEED, .CTX_FAULT, .CTX_STAT, .STR_ENTRY,
  .STR_ENTRY_FMT, .STR_STAT, .SEC_CTX_KEY, .SEC_CMD, .SEC_ARG, .SEC_STATUS, .STW_DB_BIND, .STW_DB_RESULT]

/-- An entry of a range. -/
def inRange (base count i : Nat) : Bool := base ≤ i && i < base + count

/-- An instance of a register belongs to partition `p`. STW_DB_BIND and STW_DB_RESULT, which stand once, are those of the
partition whose context STW_DB_BIND names (log entry 121). -/
def inPart (d : Device) (p : Nat) (r : Reg) (i : Nat) : Bool :=
  match r with
  | .FIG_STAGE => i / 8 == p
  | .PRT_SEQ_RING_BASE | .PRT_SEQ_RING_CFG => i / 64 == p
  | .PRT_REG => i / 16 == p
  | .COR_SEQ_STATUS | .COR_FAULT | .COR_FAULT_ADDR | .COR_BEAT_STAT | .COR_ITER | .COR_SEL_STATE | .COR_NUM_STAT
  | .COR_ACC_STAT | .COR_RNG_CTR | .COR_ROW_STAT | .COR_BOUND_OVF | .COR_ROW_EXC | .COR_TMEM_ECC => shapeBit d .PRT_SHAPE_CLU p (i / 16)
  | .COR_LOOP_CNT => shapeBit d .PRT_SHAPE_CLU p (i / 48)
  | .COR_BOUND_VAL => shapeBit d .PRT_SHAPE_CLU p (i / 256)
  | .CLU_HALO_STAT | .CLU_MESH_ERR | .CLK_CLU_CTRL => (clusterOfSite d i).any (shapeBit d .PRT_SHAPE_CLU p)
  | .DRM_CTX_MAP | .CTX_PRIO | .CTX_RUN | .CTX_SAVE | .CTX_SEED | .CTX_FAULT | .CTX_STAT | .SEC_CTX_KEY => ctxPart d i == some p
  | .DMA_RING_BASE | .DMA_RING_OWN | .DMA_RING_CFG | .DMA_RING_RATE | .DMA_RING_STAT | .DMA_RING_DOORBELL | .DMA_RING_CTRL
  | .DMA_RING_BYTES => ringPart d i == some p
  | .COL_GROUP | .COL_GROUP_KEY | .COL_GROUP_STAT | .COL_GROUP_LIST | .COL_GROUP_SIZE =>
    inRange (d.fld F.PRT_SHAPE_GRT_base p) (d.fld F.PRT_SHAPE_GRT_count p) i
  | .VCE_RC_STAT | .VCE_ERR | .VCE_RETURN => d.fld F.VCE_CTRL_enable i == 1 && d.fld F.VCE_CTRL_partition i == p
  | .ING_STAT | .ING_STREAM_BASE | .ING_STREAM_CTRL => d.fld F.ING_CTRL_enable i == 1 && d.fld F.ING_CTRL_partition i == p
  | .STW_DB_BIND | .STW_DB_RESULT => ctxPart d (d.fld F.STW_DB_BIND_context 0) == some p
  | .STR_ENTRY | .STR_ENTRY_FMT | .STR_STAT => inRange (d.fld F.PRT_SHAPE_STR_base p) (d.fld F.PRT_SHAPE_STR_count p) i
  | _ => i == p

/-- Reset the registers of a partition's PRT domain, and of the CTX domain beneath it (R11). -/
def resetPartRegs (p : Nat) : Eff := .obs fun d =>
  resetRegs fun r i => partRegs.any fun g => g.code == r && inPart d p g i

/-- A cue of a partition. -/
def partCue (d : Device) (p k : Nat) : Bool :=
  if k < 1048576 then shapeBit d .PRT_SHAPE_CLU p (k / 64 / 16)
  else if k < 2097152 then shapeBit d .PRT_SHAPE_CLU p ((k - 1048576) / 64)
  else (partLinkDies d p).contains ((k - 2097152) / 64)

/-- A cell of a partition's semaphores. -/
def partCell (d : Device) (p k : Nat) : Bool :=
  inRange (d.fld F.PRT_SHAPE_SEM_base (p * 16 + k / 512)) (d.fld F.PRT_SHAPE_SEM_count (p * 16 + k / 512)) (k % 512)

/-- SEC_KEYSTATE shows how many slots are loaded (R462). -/
def countKeys : Eff := .obs fun d => .seq
  (setF F.SEC_KEYSTATE_tenant_slots 0 (mapKeys d.tenantKeys fun _ t => t.isSome).length)
  (setF F.SEC_KEYSTATE_link_slots 0 (mapKeys d.linkKeys fun _ k => k.gen != 0).length)

/-- What a partition holds beside its registers is as after a device reset: figures, loads and switches, the tree with a new
key (R161, R180), cues, semaphores, streams, promoted extents, groups, the tenant key slots (R463), and the doorbell bindings (R494). -/
def resetPartState (p : Nat) : Eff := .obs fun d =>
  let strs := inRange (d.fld F.PRT_SHAPE_STR_base p) (d.fld F.PRT_SHAPE_STR_count p)
  let grps := inRange (d.fld F.PRT_SHAPE_GRT_base p) (d.fld F.PRT_SHAPE_GRT_count p)
  let core (k : Nat) : Bool := shapeBit d .PRT_SHAPE_CLU p (k / 16)
  .all [
    modLoadQueue (·.filter fun q => q.part != p), modLoading (·.filter fun q => q.part != p),
    putSwitches p none, putPatches p [], .each (List.range 8) (dropSlot p), modPreempts (·.filter fun q => q.part != p),
    emptyTree p, drawKey p, putPfxLost p false,
    .upd (.seqTailsDrop fun k => k / 64 == p),
    .each ((List.range 16).filter fun die => (d.seqServiceAt die).any fun k => k / 64 == p) fun die => putSeqService die none,
    .upd (.cuesDrop (partCue d p)), .upd (.semsDrop (partCell d p)),
    .upd (.strBufDrop strs), .upd (.heldTilesDrop strs), .upd (.epochsDrop core), .upd (.coresDrop core), .upd (.halosDrop core),
    .upd (.heldDrop fun k => shapeBit d .PRT_SHAPE_CLU p k),
    .upd (.promoDrop fun k => k / 2097152 == p), putPromoJob p none, .upd (.promoReadsDrop fun k => k / 2097152 == p),
    .upd (.frameBusyDrop fun k => k / 268435456 == p), .upd (.bucketsDrop fun k => k / 16 == p), putStreamers p none,
    .upd (.colGroupsDrop grps), .upd (.ringsDrop fun n => ringPart d n == some p), .upd (.colOpsDrop fun n => ringPart d n == some p),
    .each (mapKeys d.tenantKeys fun _ t => t.any fun t => t.part == p) fun k => putTenantKeys k none,
    countKeys, putSecPending p none, .upd (.dbBindDrop fun k => ctxPart d (k / 256) == some p),
    .each (List.range 17) fun s => .when (d.fld F.ING_CTRL_partition s == p) (putIngClear s true)]

/-- Reset a partition (R412): every context bound to it is torn down with OWNER, then its PRT domain resets. It is active
again afterwards: its shape and state are in the DEV domain. -/
def resetPartition (p : Nat) : Eff := .obs fun d =>
  .when (d.fld F.PRT_CTRL_state p == 1) <| .all [
    setF F.PRT_CTRL_state p 2,
    .each ((List.range 1024).filter fun c => ctxPart d c == some p) fun c => .obs fun d =>
      .when (d.fld F.CTX_RUN_state c != 5) (tearWhole c codeOwner),
    resetPartState p, resetPartRegs p, setF F.PRT_CTRL_state p 1]

/-- PARTITION_RESET (R412): a write of PRT_CTRL with reset. -/
def partitionReset (rq p v : Nat) : Eff := writeAct rq .PRT_CTRL p v 30 (.when (bit v 30 == 1) (resetPartition p))

end Sys2Proof.Machine
end

