-- ==== Sys2Proof/Machine/Reset.lean ====
section
/-! DEFINITION. What a device reset and a loss of power leave (00_scope.md R11; 17_power_clocks_and_sleep.md R413): all
but non-volatile memory, fuses, the always-on domain and what the board and the flash tier hold. -/

namespace Sys2Proof.Machine

/-- Registers kept in fuses or steward non-volatile memory: the fields whose reset value is NV, Fuse or Fused. -/
def nvRegs : List Reg := [.FIG_MINVER, .LNK_SERIAL, .TST_SHUTDOWN_BUDGET, .SEC_ALARM_FUSE, .SEC_ROOT, .SEC_ENDORSE_MIN,
  .STW_FW_MINVER, .STW_IDENT]

/-- A register number outside the AON domain and not in non-volatile memory: a DEV reset resets it (R11). -/
def resetsAtDev (r : Nat) : Bool := regDomainCode r != .aon && nvRegs.all fun g => g.code != r

/-- The registers of the DEV domain and of the domains within it read their reset values (R11). The DEV fields of
SEC_KEYSTATE and SEC_ROOT reset with them. -/
def resetDevRegs : Eff := .all [
  resetRegs fun r _ => resetsAtDev r,
  setF F.SEC_KEYSTATE_quarantine 0 0, setF F.SEC_KEYSTATE_identity_ready 0 0, setF F.SEC_KEYSTATE_debug_level 0 0,
  setF F.SEC_ROOT_key_ok 0 0]

/-- Everything that a DEV reset or a loss of power does not keep: tile memory, floors and DRAM among it. The flash tier's
data stays (R253). -/
def clearVolatile : Eff := .all [
    resetDevRegs, .upd (.memDrop fun a => !inFlash a),
    .upd (.poisonDrop fun _ => true), .upd (.tmemDrop fun _ => true), .upd (.tpoisonDrop fun _ => true),
    .upd (.accDrop fun _ => true), .upd (.shadowDrop fun _ => true), .upd (.coresDrop fun _ => true),
    .upd (.cuesDrop fun _ => true), .upd (.slotsDrop fun _ => true), putLoadQueue [], putLoading [],
    .upd (.switchesDrop fun _ => true), .upd (.patchesDrop fun _ => true), .upd (.ctxsDrop fun _ => true),
    putPreempts [], .upd (.heldDrop fun _ => true), .upd (.semsDrop fun _ => true),
    .upd (.strBufDrop fun _ => true), .upd (.epochsDrop fun _ => true), .upd (.heldTilesDrop fun _ => true),
    .upd (.halosDrop fun _ => true),
    .upd (.bucketsDrop fun _ => true), .upd (.appliedDrop fun _ => true), putRoutesStale false,
    .upd (.noTransitDrop fun _ => true), putFlog [], putFlogHead 0, .upd (.msixDrop fun _ => true),
    putPldmEvents [], putFlogSaved 0, putSelfTest none, .upd (.drvMapDrop fun _ => true),
    .upd (.xlatsDrop fun _ => true), .upd (.linesDrop fun _ => true), putLineTick 0, .upd (.backInvalDrop fun _ => true),
    putHeldWrites [], .upd (.promoDrop fun _ => true), .upd (.promoJobDrop fun _ => true), .upd (.promoReadsDrop fun _ => true),
    .upd (.frameBusyDrop fun _ => true), putPromoTick 0, .upd (.dqFailedDrop fun _ => true),
    .upd (.groupLostDrop fun _ => true), .upd (.trainingDrop fun _ => true), .upd (.groupPoisonDrop fun _ => true),
    .upd (.rowErrsDrop fun _ => true), .upd (.rowRepairDrop fun _ => true), .upd (.bankRepairsDrop fun _ => true),
    .upd (.bankCopyDrop fun _ => true), .upd (.ringsDrop fun _ => true), .upd (.rrDrop fun _ => true), .upd (.keptMapsDrop fun _ => true),
    .upd (.lookupsDrop fun _ => true), putFlsPending none, .upd (.catalogDrop fun _ => true),
    .upd (.slotRefsDrop fun _ => true), putRelocQueue [], .upd (.streamersDrop fun _ => true),
    .upd (.colGroupsDrop fun _ => true), .upd (.movedDrop fun _ => true), .upd (.pfxNodesDrop fun _ => true),
    .upd (.pfxRefsDrop fun _ => true), .upd (.pfxKeysDrop fun _ => true), .upd (.pfxLostDrop fun _ => true),
    .upd (.seqTailsDrop fun _ => true), .upd (.seqServiceDrop fun _ => true), .upd (.portsDrop fun _ => true),
    .upd (.egressDrop fun _ => true), .upd (.nbrsDrop fun _ => true), .upd (.flowsDrop fun _ => true),
    .upd (.routesDrop fun _ => true), putTopo [], putProm {}, putBoard [], .upd (.linkSeenDrop fun _ => true),
    .upd (.colOpsDrop fun _ => true), .upd (.sessionsDrop fun _ => true), .upd (.ingPubsDrop fun _ => true),
    .upd (.ingReplacedDrop fun _ => true), .upd (.ingClearDrop fun _ => true), putTripped false,
    .upd (.clkHeldDrop fun _ => true), putRestCores [], putRestLinks [], putRestFrom 0, putElectric [],
    .upd (.memKeyDrop fun _ => true), putIdKey none, .upd (.secPendingDrop fun _ => true), putFwDigest [],
    putFwVersion 0, putFwPending none, putRecBuf [], putRecCmd (0, 0), .upd (.dbBindDrop fun _ => true),
    .upd (.halfReadDrop fun _ => true), .upd (.halfWriteDrop fun _ => true), putReceiver none,
    .upd (.sensorsDrop fun _ => true), putColdPlate [], putGov {}, putSustCap 500, putPeakMs 0,
    .upd (.laneMarksDrop fun _ => true)]

end Sys2Proof.Machine
end

