-- ==== Sys2Proof/Machine/Health.lean ====
section
/-! DEFINITION. Records that survive power loss, ageing and margins, self-test on command, the fault log and the steward
(18_health_test_and_ageing.md R435 to R457).

The body of a margin table lists what differs from the factory points: the guard band of point `p` of cluster site `i`
under i × 32 + p where it is not 0, its top step under 2^20 + i where it is not 72, and the peak-voltage charge in ms under
2^21. -/

namespace Sys2Proof.Machine

/-! ### Resolving a record (R437, R438) -/

/-- A record resolved at a start: its outcome, the sequence number of the copies, and the body (R437). `merge` takes the
bodies that differ, the newest first. -/
def resolveCopies {α : Type} [DecidableEq α] (merge : List α → α) (rebuilt : α) (copies : List (Bool × Nat × α)) :
    Nat × Nat × α :=
  let good := (copies.filter (·.1)).map (·.2)
  let top := good.foldl (fun m c => max m c.1) 0
  let merged : Nat × Nat × α :=
    (2, top + 1, merge ((good.filter (·.1 == top) ++ good.filter (·.1 != top)).map (·.2)))
  match good with
  | [] => (4, 1, rebuilt)
  | [a] => (3, a.1, a.2)
  | [a, b] => if a = b then (1, a.1, a.2) else merged
  | a :: b :: c :: _ =>
    if a = b ∧ b = c then (0, a.1, a.2) else if a = b ∨ a = c then (1, a.1, a.2) else if b = c then (1, b.1, b.2) else merged

/-- The value of a key in a record's body. -/
def bodyAt (body : List (Nat × Nat)) (k dflt : Nat) : Nat := ((body.find? fun e => e.1 == k).map (·.2)).getD dflt

/-- The merge of spare maps (R438): every element retired or marked in any copy. -/
def mergeSpare (bs : List (List (Nat × Nat))) : List (Nat × Nat) := bs.flatten.dedup

/-- The merge of margin tables (R438): the largest guard band of each point, the lowest top step of each cluster site, and
the largest peak-voltage charge. -/
def mergeMargin (bs : List (List (Nat × Nat))) : List (Nat × Nat) :=
  (bs.flatten.map (·.1)).dedup.map fun k =>
    let vs := bs.map fun b => bodyAt b k (if inRange 1048576 153 k then 72 else 0)
    (k, if inRange 1048576 153 k then vs.foldl min 72 else vs.foldl max 0)

/-- A fault-log entry in its place by number. -/
def placeEntry (e : LogEntry) : List LogEntry → List LogEntry
  | [] => [e]
  | x :: xs => if e.seq ≤ x.seq then e :: x :: xs else x :: placeEntry e xs

/-- The merge of fault logs (R438): the union by number, an entry of the newer copy before that of an older one, and the
newest 2,048. -/
def mergeLog (bs : List (List LogEntry)) : List LogEntry :=
  let all := bs.flatten.foldl (fun acc e => if acc.any fun x => x.seq == e.seq then acc else acc ++ [e]) []
  let sorted := all.foldl (fun acc e => placeEntry e acc) []
  sorted.drop (sorted.length - 2048)

/-- The copies of a map as `resolveCopies` takes them. -/
def mapCopies (cs : List MapCopy) : List (Bool × Nat × List (Nat × Nat)) := cs.map fun c => (c.intact, c.seq, c.body)

/-- The copies of a fault log as `resolveCopies` takes them. -/
def logCopies (cs : List LogCopy) : List (Bool × Nat × List LogEntry) := cs.map fun c => (c.intact, c.seq, c.body)

/-- A margin table rebuilt (R439): every guard band at 60 mV, every top step at 56, the peak-voltage budget spent. -/
def rebuiltMargin : List (Nat × Nat) :=
  (List.range 4896).map (fun k => (k, 60)) ++ (List.range 153).map (fun i => (1048576 + i, 56)) ++ [(2097152, 1440000000)]

/-! ### Margins (R435, R440 to R443) -/

/-- The peak-voltage budget of 400 h, in ms (R430). -/
def peakBudgetMs : Nat := 1440000000

/-- The margin table in force as the body of its record. -/
def marginBody (d : Device) : List (Nat × Nat) :=
  ((d.listed .AGE_VF_TABLE fun _ => true).filterMap fun k =>
    let g := d.fld F.AGE_VF_TABLE_guard k
    if g == 0 then none else some (k, g)) ++
  ((List.range 153).filterMap fun i =>
    let t := d.fld F.AGE_CLU_top_step i
    if t == 72 then none else some (1048576 + i, t)) ++
  (if d.peakMs == 0 then [] else [(2097152, d.peakMs)])

/-- Write the margin table to its record (R436). -/
def saveMargin : Eff := .obs fun d => .seq (putOldMargin (d.nvMargin.headD {}))
  (putNvMargin (List.replicate 3 ⟨true, nextSeq (d.nvMargin.map (·.seq)), marginBody d⟩))

/-- Show a point with guard band `g` under top step `top` (AGE_VF_TABLE). -/
def showPoint (i top p g : Nat) : Eff := .all [
  setF F.AGE_VF_TABLE_valid (i * 32 + p) (if Config.vfStep i p ≤ top then 1 else 0),
  setF F.AGE_VF_TABLE_step (i * 32 + p) (Config.vfStep i p), setF F.AGE_VF_TABLE_guard (i * 32 + p) (min g 63),
  setF F.AGE_VF_TABLE_mv (i * 32 + p) (Config.vfBase i p + g), setF F.AGE_VF_TABLE_w (i * 32 + p) (Config.vfPower i p)]

/-- Take the peak-voltage charge in ms: AGE_PEAK and PWR_GOV_STAT.wear_spent follow it. -/
def setPeak (ms : Nat) : Eff := .all [putPeakMs ms, setF F.AGE_PEAK_seconds 0 (min (ms / 1000) 4294967295),
  setF F.PWR_GOV_STAT_wear_spent 0 (if peakBudgetMs ≤ ms then 1 else 0)]

/-- Put a margin table in force at a start. -/
def applyMargin (body : List (Nat × Nat)) : Eff := .seq
  (.each (List.range 153) fun i =>
    let top := bodyAt body (1048576 + i) 72
    .all [setF F.AGE_CLU_top_step i top, .each (List.range 32) fun p => showPoint i top p (bodyAt body (i * 32 + p) 0)])
  (setPeak (bodyAt body 2097152 0))

/-- The guard bands of a site's points under rules 1 and 2 of R442: 10 mV at each point of short slack and at every higher
one, then what V_min + 40 mV asks, in ascending order of points. -/
def raisedGuards (d : Device) (i vmin : Nat) (slack : Nat → Nat) : List Nat :=
  (List.range 32).map fun p =>
    let g := d.fld F.AGE_VF_TABLE_guard (i * 32 + p) + 10 * ((List.range (p + 1)).filter fun q => slack q < 8).length
    max g (vmin + 40 - Config.vfBase i p)

/-- A point is withdrawn under rule 3 of R442: its guard band or its voltage is above its bound. -/
def pointWithdrawn (i p g : Nat) : Bool :=
  60 < g || (if Config.vfStep i p ≤ 64 then 900 else 980) < Config.vfBase i p + g

/-- The top step after rule 3 of R442: the step of the highest point that remains; it never rises. -/
def topAfter (i top : Nat) (gs : List Nat) : Nat :=
  match (List.range 32).find? fun p => pointWithdrawn i p (gs.getD p 0) with
  | none => top
  | some 0 => 0
  | some (p + 1) => min top (Config.vfStep i p)

/-- Rules 1 to 4 of R442 for a bound cluster site. -/
def replanSite (i vmin : Nat) (slack : Nat → Nat) : Eff := .obs fun d =>
  let gs := raisedGuards d i vmin slack
  let top := topAfter i (d.fld F.AGE_CLU_top_step i) gs
  let spare := i / 9 * 9 + 8
  let mark : Bool := top < 40 && !siteBad d 2 spare && (clusterOfSite d spare).isNone
  .all [
    .each (List.range 32) (fun p => showPoint i top p (gs.getD p 0)),
    setF F.AGE_CLU_top_step i top, setF F.AGE_CLU_vmin_mv i (min vmin 65535),
    setF F.AGE_CLU_slack_min i (min 255 ((List.range 32).foldl (fun m p => min m (slack p)) 255)),
    .when mark (.seq (putMarked i true) (setF F.AGE_CLU_marked i 1))]

/-- A re-plan (R441, R442): `slack` holds the smallest slack in % at each point (cluster site × 32 + point), `vmin` the
V_min of each cluster site in mV, `drift` the regulator phases (regulator × 8 + phase) whose share drifts by more than
15 %, and `eyes` the lanes (link × 16 + lane) of short eye height. -/
def replanNow (trigger : Nat) (slack vmin drift eyes : List Nat) : Eff := .obs fun d => .all [
  .each ((List.range 153).filter fun i => (clusterOfSite d i).isSome) fun i =>
    replanSite i (vmin.getD i 0) fun p => slack.getD (i * 32 + p) 100,
  .each drift fun x => .seq (putRetired (siteKey 7 x) true) (.obs fun d =>
    setF F.PWR_PHASE_failed (x / 8) (d.fld F.PWR_PHASE_failed (x / 8) ||| 2 ^ (x % 8))),
  .each eyes fun x => putLaneMarks x true,
  .obs fun d' => .when (spareBody d' != spareBody d) saveSpare,
  saveMargin,
  setF F.AGE_STATUS_last_trigger 0 trigger, setF F.AGE_STATUS_hours 0 0, addWrap F.AGE_STATUS_replans 0 1]

/-- REPLAN (R441): the re-plan after 24 h counted in IDLE and RUN. -/
def replan (slack vmin drift eyes : List Nat) : Eff := .obs fun d =>
  .when (d.off == 0 && (powerState d == 2 || powerState d == 3)) (replanNow 1 slack vmin drift eyes)

/-- PEAK_CHARGE (R443): a 1 ms interval during which some cluster runs at a peak step. -/
def peakCharge : Eff := .obs fun d =>
  .when ((List.range 153).any fun i => d.off == 0 && clusterState d i == 0 && 65 ≤ d.fld F.CLK_CLU_STAT_step i)
    (setPeak (d.peakMs + 1))

/-! ### Self-test on command (R448, R449) -/

/-- The logical cores named in a write of TST_CMD. -/
def testCores (die cl mask : Nat) : List Nat := ((List.range 16).filter fun k => bit mask k == 1).map fun k => (die * 8 + cl) * 16 + k

/-- The bits of TST_STATUS.not_run for logical cores. -/
def coreMask (cores : List Nat) : Nat := cores.foldl (fun m k => m ||| 2 ^ (k % 16)) 0

/-- A self-test command ends: what was not reached is reported. -/
def testEnds (state : Nat) (left : List Nat) : Eff := .obs fun d => .all [
  putSelfTest none, setF F.TST_STATUS_state 0 state,
  setF F.TST_STATUS_not_run 0 (d.fld F.TST_STATUS_not_run 0 ||| coreMask left)]

/-- SELF_TEST_CMD (R448, R457): a write of TST_CMD with go. While a command runs, and outside IDLE and RUN, it is ignored
and TST_STATUS reads refused. -/
def selfTestCmd (rq v : Nat) : Eff := .obs fun d =>
  let die := bits v 29 26
  let cl := bits v 25 23
  let left := testCores die cl (bits v 15 0)
  if bit (mayWrite d rq .TST_CMD 0) 31 == 0 then denied
  else if d.selfTest.isSome || !(d.off == 0 && (powerState d == 2 || powerState d == 3)) then setF F.TST_STATUS_state 0 4
  else .all [
    storeWrite rq .TST_CMD 0 v, setReg .TST_RESULT 0 0, setReg .TST_STATUS 0 0, setF F.TST_STATUS_state 0 1,
    putSelfTest (some { die := die, cluster := cl, left := left, spare := bit v 22 == 1 }),
    .when ((clusterSite d die cl).isNone || (left.isEmpty && bit v 22 == 0)) (testEnds 2 left)]

/-- SELF_TEST_ABORT (R448): a write of TST_CMD with abort: its fields are stored (R10), and no further slice runs; a slice in
progress completes. -/
def selfTestAbort (rq v : Nat) : Eff := writeAct rq .TST_CMD 0 v 30 <| .obs fun d => .when (bit v 30 == 1) <|
  match d.selfTest with
  | some t => if t.started then .seq
      (setF F.TST_STATUS_not_run 0 (d.fld F.TST_STATUS_not_run 0 ||| coreMask (t.left.drop 1)))
      (putSelfTest (some { t with left := t.left.take 1, spare := false, aborted := true }))
    else testEnds 3 t.left
  | none => .skip

/-- A write of TST_CMD with neither go nor abort: ignored while a command runs and outside IDLE and RUN (R457). -/
def selfTestStore (rq v : Nat) : Eff := .obs fun d =>
  if mayWrite d rq .TST_CMD 0 == 0 then denied
  else if d.selfTest.isSome || !(d.off == 0 && (powerState d == 2 || powerState d == 3)) then setF F.TST_STATUS_state 0 4
  else storeWrite rq .TST_CMD 0 v

/-- The logical cores of the element that a site of level `lvl` serves, or that holds it. -/
def coresServed (d : Device) (lvl site : Nat) : List Nat :=
  match lvl with
  | 0 => (coreOfSite d (site / 5)).toList
  | 1 => (coreOfSite d site).toList
  | 2 => (clusterOfSite d site).toList.flatMap fun cl => (List.range 16).map (cl * 16 + ·)
  | _ => (dieOfSite d site).toList.flatMap fun die => (List.range 128).map (die * 128 + ·)

/-- The first slice left is over: the next follows, or the command ends. -/
def nextSlice (t : SelfTest) : Eff := .seq
  (putSelfTest (some { t with left := t.left.drop 1, started := false }))
  (.when (t.left.length ≤ 1 && !t.spare) (testEnds (if t.aborted then 3 else 2) []))

/-- The first slice left is not run (TST_STATUS.not_run). -/
def skipSlice (core : Nat) (t : SelfTest) : Eff := .obs fun d => .seq
  (setF F.TST_STATUS_not_run 0 (d.fld F.TST_STATUS_not_run 0 ||| coreMask [core])) (nextSlice t)

/-- A core under test is the target of a migration or a substitution: its test ends, not run, and it goes on (R457). -/
def dropSlice (cores : Device → List Nat) : Eff := .obs fun d =>
  match d.selfTest with
  | none => .skip
  | some t => match t.left with
    | [] => .skip
    | core :: _ => .when ((cores d).contains core) (.seq (.when t.started (releaseCore core)) (skipSlice core t))

/-- A slice on `core` has its verdict. -/
def sliceOver (core : Nat) (passed : Bool) (t : SelfTest) : Eff := .obs fun d => .seq
  (if passed then setF F.TST_RESULT_passed 0 (d.fld F.TST_RESULT_passed 0 ||| 2 ^ (core % 16))
    else setF F.TST_RESULT_failed 0 (d.fld F.TST_RESULT_failed 0 ||| 2 ^ (core % 16)))
  (nextSlice t)

/-- A home site fails its slice while core site 16 stands in: it is retired, and the spare stays bound (R449). -/
def homeFails (core site : Nat) : Eff := .seq (putMoved core false) (retireNow 1 site)

/-- A core site fails its slice and its spare is not free: the cluster is retired under R23, and the contexts on what is retired
are handled under R29 (R449). -/
def clusterFails (core site : Nat) : Eff := .obs fun d =>
  let (top, topSite) := (retireChain d 3 1 site).getLastD (1, site)
  .seq (retireNow 1 site) (substituteAt d top topSite core false)

/-- The core takes part in a pre-emption, which its slice waits for (R457). -/
def inPreempt (d : Device) (core : Nat) : Bool := (d.coresAt core).ctx.any fun c =>
  d.preempts.any fun q => q.outgoing == c || q.incoming == c

/-- The slice of one core (R448). With core site 16 free the logical core migrates there: a running core is fenced first,
and its slice runs once it has stopped at a beat. Otherwise the core must be parked or idle, and its beat state is saved to
its context's save area and restored. A core that a planned migration has fenced is not tested (R457). -/
def coreSlice (core : Nat) (passed : Bool) (t : SelfTest) : Eff := .obs fun d =>
  let k := d.coresAt core
  let q := (clusterSite d (core / 128) (core / 16 % 8)).getD 0
  let site := (coreSite d core).getD 0
  let resting : Bool := k.state == 0 || k.state == 3 || k.state == 4
  if inPreempt d core then .skip
  else if k.fenced && !t.started then skipSlice core t
  else if t.started || spareCoreFree d q then
    let fence := modCores core fun x => { x with fenced := true, state := k.state }
    if k.loaded.isSome && !(k.fenced && resting) then
      .when (!t.started) (.seq (migrationStart core) (putSelfTest (some { t with started := true })))
    else if !spareCoreFree d q then .seq (releaseCore core) (putSelfTest (some { t with started := false }))
    else .all [
      fence, migrationResume core true,
      (if passed then .seq fence (migrationResume core false) else homeFails core site),
      sliceOver core passed t]
  else
    let held := k.ctx.filter fun c => d.fld F.CTX_RUN_state c == 2
    let ready : Bool := match held with
      | none => resting || k.state == 2
      | some c => (k.state == 2 || k.state == 0) && saveFits d c
    .when ready <| .all [
      (match held, k.loaded with
       | some c, some (_, leaf, prog) => saveRecord c core leaf prog
       | _, _ => .skip),
      (if passed then (match held with
        | some c => modCtxs c fun x => { x with saved := x.saved.filter (· != core) }
        | none => clearTile core) else clusterFails core site),
      sliceOver core passed t]

/-- CORE_TEST_SLICE (R448): the next slice of the command in progress, its verdict, and whether the command's budget had
expired before it started. After the named cores, core site 16 is tested where asked and unbound. A cluster that has lost its
site has no core left to test. -/
def coreTestSlice (passed expired : Bool) : Eff := .obs fun d =>
  match d.selfTest with
  | none => .skip
  | some t =>
    match clusterSite d t.die t.cluster with
    | none => testEnds 2 t.left
    | some q =>
    if expired && !t.started then testEnds 2 t.left else
    match t.left with
    | core :: _ => coreSlice core passed t
    | [] => .seq
        (.when (t.spare && spareCoreFree d q) (if passed then setF F.TST_STATUS_spare_passed 0 1
          else .seq (setF F.TST_STATUS_spare_failed 0 1) (retireNow 1 (q * 17 + 16))))
        (testEnds 2 [])

/-! ### The fault log and the steward (R451, R453, R454) -/

/-- FAULT_LOG_FLUSH (R451): corrected entries not yet in the record are written to it. -/
def faultLogFlush : Eff := .obs fun d => .when (d.flogSaved < d.flogHead) saveLog

/-- The steward is lost: the device falls silent (R454). -/
def stewardLost : Eff := putOff 3

/-- STEWARD_TAKEOVER (R453): the lockstep pair disagrees or stops, and the standby takes over; the write of a record in
progress (0 margin table, 1 spare map, 2 fault log) is repeated with a new sequence number. A second one loses the
steward. -/
def stewardTakeover (mismatch : Bool) (rec_ : Option Nat) : Eff := .obs fun d =>
  if d.fld F.STW_STEWARD_active 0 == 1 then stewardLost else .all [
    setF F.STW_STEWARD_active 0 1, addWrap F.STW_STEWARD_takeovers 0 1,
    .when mismatch (addSat F.STW_STEWARD_mismatches 0 1),
    match rec_ with
    | some 0 => saveMargin
    | some 1 => saveSpare
    | some _ => saveLog
    | none => .skip]

/-- STEWARD_DIE_LOSS (R454): a controller failure after a takeover, or the loss of the steward die. -/
def stewardDieLoss : Eff := stewardLost

end Sys2Proof.Machine
end

