-- ==== Sys2Proof/Machine/Power.lean ====
section
/-! DEFINITION. Power, clocks and sleep (17_power_clocks_and_sleep.md R413 to R434): regulators, cluster states, the
governor, REST and OFF, and wake. -/

namespace Sys2Proof.Machine

/-! ### Loss of VIN (R413, R436) -/

/-- What a copy of a record that was being written holds after the loss: torn, and the copies after it as they were before
the write (R436). -/
def tornCopies {α : Type} (broken : α → α) (old : α) (k : Nat) (cs : List α) : List α :=
  (cs.take k) ++ ((cs.drop k).take 1).map broken ++ List.replicate (cs.length - k - 1) old

/-- VIN_LOSS (R413): VIN below 36 V for 10 µs. The device stops at once; what it does not keep is lost. `torn` names the
copy of a record (record × 3 + copy; 0 margin table, 1 spare map, 2 fault log) whose write was cut short. A slot of the boot
flash that was being programmed is left unverifiable (R501). -/
def vinLoss (torn : Option Nat) : Eff := .obs fun d =>
  let tear : Eff := match torn with
    | none => .skip
    | some t =>
      if t / 3 == 0 then putNvMargin (tornCopies (fun c => { c with intact := false }) d.oldMargin (t % 3) d.nvMargin)
      else if t / 3 == 1 then putNvSpare (tornCopies (fun c => { c with intact := false }) d.oldSpare (t % 3) d.nvSpare)
      else putNvLog (tornCopies (fun c => { c with intact := false }) d.oldLog (t % 3) d.nvLog)
  let slot := ((d.fwPending.map (·.2.1)).getD 0) * 0x1000000
  .all [
    .when (d.off == 0) (.seq tear tearCatalog),
    .when (d.off == 0 && d.fwPending.any fun x => x.1 == 1)
      (.each (List.range 256) fun i => putBootFlash (slot + i) 255),
    .when (d.off == 0) (.seq (putUnclean true) (modPowerFails (· + 1))), .when (d.off != 2) clearVolatile,
    putOff 1, putVin ⟨false, 0⟩]

/-! ### Regulators (R414, R415) -/

/-- Some regulator is derated. -/
def anyDerated (d : Device) : Bool := (List.range 182).any fun r => d.fld F.PWR_PHASE_derated r == 1

/-- The cold-plate record permits boost: present, intact, and its flow and inlet within R416. -/
def coldPlateOk (d : Device) : Bool :=
  d.coldPlate.length == 64 && num d.coldPlate 0x3C 4 == crc32c (d.coldPlate.take 0x3C) &&
    d.coldPlate.take 4 == [0x41, 0x58, 0x43, 0x50] && num d.coldPlate 4 1 == 1 &&
    60 ≤ num d.coldPlate 6 2 && num d.coldPlate 8 1 ≤ 40

/-- PWR_LIMIT.boost_ok follows the caps, the supply and the regulators (R428). -/
def refreshBoostOk : Eff := .obs fun d => setF F.PWR_LIMIT_boost_ok 0
  (if d.fld F.PWR_LIMIT_sustained 0 < d.fld F.PWR_LIMIT_supply 0 && coldPlateOk d && (boardNum d 6 1 0 == 1 ||
    boardNum d 6 1 0 == 2 || boardNum d 6 1 0 == 3) && !anyDerated d then 1 else 0)

/-- What a regulator feeds is retired as a unit (R415, R25, R29). -/
def retireLoad (r : Nat) : Eff := .obs fun d =>
  if r < 8 then
    let cap := max 100 (d.sustCap - 100)
    .seq (putSustCap cap) (setF F.PWR_LIMIT_sustained 0 (max 100 (d.fld F.PWR_LIMIT_sustained 0 - 100)))
  else if r < 161 then failSite 2 (r - 8) false
  else if r < 177 then shellRetire (r - 161) true
  else if r == 177 then failSite 3 16 false
  else .all [.each (List.range 26) fun k => linkSiteFail ((r - 178) * 26 + k), linksChanged, flashStackLoss (r - 178)]

/-- How many phases of a regulator have failed. -/
def failedPhases (d : Device) (r : Nat) : Nat :=
  ((List.range 8).filter fun p => bit (d.fld F.PWR_PHASE_failed r) p == 1).length

/-- The spare phase, 7, takes the place of a failed phase (R415). -/
def spendPhase (r phase : Nat) : Eff := .when (phase != 7) <|
  .seq (setF F.PWR_PHASE_spare_used r 1) (setF F.PWR_PHASE_spare_for r phase)

/-- A regulator is derated (R415): a cluster is capped at step 56 at once; any other ends boost. -/
def derate (r : Nat) : Eff := .obs fun d => .all [
  setF F.PWR_PHASE_derated r 1, refreshBoostOk, logService 1 r 0xFFFF 0,
  if 8 ≤ r && r < 161 then .all [setF F.CLK_CLU_STAT_capped (r - 8) 1,
    setF F.CLK_CLU_STAT_step (r - 8) (min 56 (d.fld F.CLK_CLU_STAT_step (r - 8)))]
  else setF F.PWR_GOV_STAT_boost 0 0]

/-- PHASE_FAIL (R415): a phase of a regulator fails. One marked by a re-plan is replaced at once (R442 rule 5). -/
def phaseFail (r phase : Nat) : Eff := .obs fun d =>
  let corrected : Eff := logError { severity := 0, flags := if phase == 7 then 0 else 2, source := 1, site := r, subsite := phase }
  .when (powered d && d.fld F.PWR_PHASE_off r == 0) <|
    if bit (d.fld F.PWR_PHASE_failed r) phase == 1 then
      .when (d.fld F.PWR_PHASE_spare_used r == 0 && failedPhases d r == 1) (.seq (spendPhase r phase) corrected)
    else .all [
      setF F.PWR_PHASE_failed r (d.fld F.PWR_PHASE_failed r ||| 2 ^ phase),
      putRetired (siteKey 7 (r * 8 + phase)) true, saveSpare,
      match failedPhases d r with
      | 0 => .seq (spendPhase r phase) corrected
      | 1 => derate r
      | _ => .all [setF F.PWR_PHASE_off r 1, logError { severity := 2, source := 1, site := r, subsite := phase }, retireLoad r]]

/-! ### Cluster states (R419) -/

/-- CLUSTER_CLOCK_STOP (R419): every core of a running cluster has been idle or parked for idle_us. -/
def clusterClockStop (q : Nat) : Eff := .obs fun d =>
  match clusterOfSite d q with
  | none => .skip
  | some cl => .when (working d && clusterState d q == 0 && (List.range 16).all fun k =>
        (d.coresAt (cl * 16 + k)).state == 0 || (d.coresAt (cl * 16 + k)).state == 2) <|
      .seq (setF F.CLK_CLU_STAT_state q 1) refreshIdle

/-- CLUSTER_GATE (R419): a cluster clock-stopped for gate_ms enters retention, with its translation cache emptied. -/
def clusterGate (q : Nat) : Eff := .obs fun d =>
  .when (powered d && clusterState d q == 1 && d.fld F.CLK_CLU_CTRL_gate_ms q != 0) <|
    .all [setF F.CLK_CLU_STAT_state q 2, putXlats q [], refreshIdle]

/-- CLUSTER_WAKE (R419). -/
def clusterWake (q : Nat) : Eff := .obs fun d => .each (clusterOfSite d q).toList startCluster

/-! ### The governor (R427 to R432) -/

/-- The temperature state of the stack beside a die site; the spare site has none. -/
def stackState (d : Device) (die : Nat) : Nat := if die < 16 then d.fld F.DRM_STACK_STATUS_state die else 0

/-- A cluster's own cap k_c (R418): cap_step, its top step, and the caps of R415 and R432. -/
def clusterCap (d : Device) (q : Nat) : Nat :=
  let base := min (d.fld F.CLK_CLU_CTRL_cap_step q) (d.fld F.AGE_CLU_top_step q)
  let base := if d.fld F.PWR_PHASE_derated (8 + q) == 1 then min base 56 else base
  match stackState d (q / 9) with
  | 3 => min base 24
  | 2 => min base d.gov.sust
  | _ => base

/-- A cap of R415 or R432 applies to a cluster. -/
def clusterCapped (d : Device) (q : Nat) : Bool := d.fld F.PWR_PHASE_derated (8 + q) == 1 || 2 ≤ stackState d (q / 9)

/-- w(s) of a cluster site: that of the first point whose step is not below s (AGE_VF_TABLE.w). -/
def relPower (d : Device) (q s : Nat) : Nat :=
  d.fld F.AGE_VF_TABLE_w (q * 32 + ((List.range 32).find? fun p => s ≤ d.fld F.AGE_VF_TABLE_step (q * 32 + p)).getD 31)

/-- P_pred(s) in mW, from the package power in W and each cluster site's power in mW. -/
def predPower (d : Device) (power : Nat) (loads : List Nat) (s : Nat) : Rat :=
  (List.range 153).foldl (fun x q =>
    let a := loads.getD q 0
    let now := d.fld F.CLK_CLU_STAT_step q
    let at_ := min s (clusterCap d q)
    if clusterState d q != 0 || a == 0 then x
    else if relPower d q now == 0 then x - a + (Config.predicted now at_ a : Nat)
    else x - a + (a * relPower d q at_ : Nat) / (relPower d q now : Nat)) ((1000 * power : Nat) : Rat)

/-- The highest step up to `top` whose predicted power is within a limit in W. -/
def ceilingFor (d : Device) (power : Nat) (loads : List Nat) (top limit : Nat) : Nat :=
  ((List.range (top + 1)).reverse.find? fun s => predPower d power loads s ≤ ((1000 * limit : Nat) : Rat)).getD 0

/-- The first-stage rating in W (R427). -/
def firstStage (d : Device) : Nat := ((List.range 8).map fun r =>
  if d.fld F.PWR_PHASE_off r == 1 then 0 else if d.fld F.PWR_PHASE_derated r == 1 then 900 else 1050).sum

/-- Every condition of R428 for boost to begin. -/
def boostMay (d : Device) (tj : Nat) : Bool :=
  d.fld F.PWR_LIMIT_boost_en 0 == 1 && d.fld F.PWR_LIMIT_boost_ok 0 == 1 && tj ≤ 90 &&
    d.fld F.PWR_GOV_STAT_window_ms 0 ≤ 1000 && (List.range 16).all fun k => d.fld F.DRM_STACK_STATUS_state k ≤ 1

/-- The limit of R429 reached in this period, the lowest number first; 0 for none. -/
def boostLimiter (d : Device) (iin power tj : Nat) : Nat :=
  if 105 ≤ tj then 1 else if 2000 ≤ d.fld F.PWR_GOV_STAT_window_ms 0 then 2
  else if d.fld F.PWR_GOV_STAT_wear_spent 0 == 1 && 64 < d.fld F.PWR_GOV_STAT_ceiling 0 then 3
  else if 20000 < iin then 4
  else if min (d.fld F.PWR_LIMIT_supply 0 * 10) (firstStage d) < power then 5
  else if d.fld F.PWR_LIMIT_boost_en 0 == 0 then 7 else 0

/-- Record a limiter, and count it (PWR_GOV_STAT, PWR_GOV_CNT). -/
def countLimiter (n : Nat) : Eff := .seq (setF F.PWR_GOV_STAT_limiter 0 n) <|
  match n with
  | 1 => addSat F.PWR_GOV_CNT_thermal 0 1
  | 2 => addSat F.PWR_GOV_CNT_electrical 0 1
  | 4 | 5 => addSat F.PWR_GOV_CNT_current 0 1
  | _ => .skip

/-- A period counts toward the 1 ms interval; at its end the window of R429 and the run of R431 move on. -/
def countWindow (power : Nat) : Eff := .obs fun d =>
  let g := d.gov
  if g.tick < 9 then putGov { g with tick := g.tick + 1, sum := g.sum + power } else
  let sum := g.sum + power
  .all [
    putElectric ((decide (55000 < sum) :: d.electric).take 10000),
    putGov { g with
      tick := 0
      sum := 0
      above := if d.fld F.PWR_LIMIT_sustained 0 * 100 < sum then g.above + 1 else 0
      rise := g.rise + 1 },
    .obs fun d => setF F.PWR_GOV_STAT_window_ms 0 (d.electric.filter id).length]

/-- Outside boost (R431): the ceiling falls by a step each ms while the junction or the package power is above its limit,
rises by a step each 10 ms, and is never above the ceiling of R427, `sust`. -/
def governOutside (tj sust : Nat) : Eff := .obs fun d =>
  let g := d.fld F.PWR_GOV_STAT_ceiling 0
  let ms : Bool := d.gov.tick == 0
  if ms && 105 ≤ tj then .seq (setF F.PWR_GOV_STAT_ceiling 0 (min sust (g - 1))) (countLimiter 1)
  else if ms && 10 ≤ d.gov.above then .seq (setF F.PWR_GOV_STAT_ceiling 0 (min sust (g - 1))) (countLimiter 6)
  else if ms && tj < 100 && g < sust && 10 ≤ d.gov.rise then
    .seq (setF F.PWR_GOV_STAT_ceiling 0 (g + 1)) (modGov fun x => { x with rise := 0 })
  else setF F.PWR_GOV_STAT_ceiling 0 (min sust g)

/-- STEP_CHANGE: a running cluster takes the lowest of its caps and the ceiling (R418). -/
def stepChange (q : Nat) : Eff := .obs fun d => .when (clusterState d q == 0 && (clusterOfSite d q).isSome) <| .seq
  (setF F.CLK_CLU_STAT_step q (min (d.fld F.PWR_GOV_STAT_ceiling 0) (clusterCap d q)))
  (setF F.CLK_CLU_STAT_capped q (if clusterCapped d q then 1 else 0))

/-- Every running cluster takes a new ceiling. -/
def applyCeiling : Eff := .each (List.range 153) stepChange

/-- The readings of a period: PWR_MEAS, the load of each regulator in %, and the sensors of R496. -/
def takeReadings (vin iin power tj : Nat) (pct : List Nat) : Eff := .all [
  setF F.PWR_MEAS_power 0 power, setF F.PWR_MEAS_iin 0 iin, setF F.PWR_MEAS_vin 0 vin, setF F.PWR_MEAS_tj 0 tj,
  .each (List.range 182) fun r => .each pct[r]?.toList fun v => setF F.PWR_PHASE_load_pct r (min 255 v),
  sensorAt 1 (if 5000 ≤ power then 1 else 0),
  sensorAt 2 (if vin ≤ 4000 || 6000 ≤ vin then 2 else 0),
  sensorAt 3 (if 20000 ≤ iin then 2 else 0),
  sensorAt 4 (if 112 ≤ tj then 3 else if 105 ≤ tj then 2 else if 100 ≤ tj then 1 else 0)]

/-- GOVERNOR_TICK (R427 to R432): every 100 µs, from VIN in 10 mV, the input current in 10 mA, the package power in W, the
hottest junction in °C, each cluster site's power in mW and each regulator's load in %, the ceiling is set. -/
def governorTick (vin iin power tj : Nat) (loads pct : List Nat) : Eff := .obs fun d => .when (powered d) <| .all [
  takeReadings vin iin power tj pct, countWindow power,
  .obs fun d =>
    let top := if d.fld F.PWR_GOV_STAT_wear_spent 0 == 1 then 64 else 72
    let sust := ceilingFor d power loads top (d.fld F.PWR_LIMIT_sustained 0 * 10)
    let most := ceilingFor d power loads top (min (d.fld F.PWR_LIMIT_supply 0 * 10) (min (vin * 2) (firstStage d)))
    let n := boostLimiter d iin power tj
    .seq (modGov fun g => { g with sust := sust }) <|
      if d.fld F.PWR_GOV_STAT_boost 0 == 1 && n != 0 then
        .all [setF F.PWR_GOV_STAT_boost 0 0, setF F.PWR_GOV_STAT_ceiling 0 sust, countLimiter n]
      else if d.fld F.PWR_GOV_STAT_boost 0 == 1 || boostMay d tj then
        .seq (setF F.PWR_GOV_STAT_boost 0 1) (setF F.PWR_GOV_STAT_ceiling 0 most)
      else governOutside tj sust,
  applyCeiling]

/-- JUNCTION_TRIP (R431): every cluster clock stops. -/
def junctionTrip : Eff := .obs fun d => .when (powered d && !d.tripped) <| .all [
  putTripped true, addSat F.PWR_GOV_CNT_trips 0 1, logError { severity := 2, source := 2 }]

/-- TRIP_RELEASE (R431): the clusters resume at step 0, and what was held for them is added. -/
def tripRelease : Eff := .obs fun d => .when d.tripped <| .all [
  putTripped false, setF F.PWR_GOV_STAT_ceiling 0 0, setF F.PWR_GOV_STAT_boost 0 0,
  .each (List.range 153) (fun q => setF F.CLK_CLU_STAT_step q 0), .each (List.range 128) releaseHeld]

/-! ### REST (R422 to R425) -/

/-- The cores stopped for REST or OFF go on: a waiting one parked, another running, and its cluster wakes for it. -/
def resumeCores : Eff := .obs fun d => .seq (putRestCores []) <| .each d.restCores fun core => .obs fun d =>
  let k := d.coresAt core
  .when k.stopReq <| .seq
    (modCores core fun k => { k with stopReq := false, state := if k.state == 3 then (if k.waiting then 2 else 1) else k.state })
    (match clusterSite d (core / 128) (core / 16 % 8) with
     | some q => .when (clusterState d q == 2 && !k.waiting) (setF F.CLK_CLU_STAT_state q 3)
     | none => .skip)

/-- Ports that were up at entry to REST come up; the rest of them train in full (R328, R425 step 5). -/
def restorePorts (up : List Nat) : Eff := .obs fun d => .seq (putRestLinks []) <| .each d.restLinks fun i =>
  .seq (modPorts i fun q => { q with woke := true }) (if up.contains i then portUp i else setF F.LNK_PORT_STATUS_state i 1)

/-- Wake from REST by a source of R424 (R425). `up` names the ports that come up; `dq` and `ca` name a DRAM channel (stack × 32 +
channel) once for each lane that its training finds to fail (R238). The time it takes is a free value. -/
def wakeUp (source : Nat) (up dq ca : List Nat) : Eff := .obs fun d => .when (d.off == 0 && powerState d == 1) <| .all [
  setF F.PWR_WAKE_last 0 source, setPower 5, trainAll dq ca, restorePorts up, setPower 3, resumeCores,
  withFree fun t => setF F.PWR_TIMES_wake 0 (t % 65536), refreshIdle]

/-- A wake whose outcome no operand gives: every port that was up comes up. -/
def wakeWhole (source : Nat) : Eff := .obs fun d => withLanes (wakeUp source d.restLinks)

/-- A wake source is enabled (PWR_WAKE). -/
def wakeEnabled (d : Device) (source : Nat) : Bool := bit (d.fld F.PWR_WAKE_enable 0) source == 1

/-- WAKE_TIMER_EXPIRY (R424): the timer reaches 0 in REST. -/
def wakeTimerExpiry : Eff := .obs fun d =>
  .when (d.off == 0 && powerState d == 1 && d.fld F.PWR_WAKE_TIMER_seconds 0 != 0) <|
    .seq (setF F.PWR_WAKE_TIMER_seconds 0 0) (whileIt (wakeEnabled · 2) (wakeWhole 2))

/-- A REST or RUN request, or a wake source, during entry to REST abandons it: the device returns to RUN (R434). -/
def abandonRest : Eff := .all [setF F.PWR_STATE_last_result 0 1, setPower 3, resumeCores, refreshIdle]

/-- A wake source during REST, or during its entry, which ends there (R424, R425, R434). -/
def wakeOrAbandon (source : Nat) (how : Eff) : Eff := .obs fun d =>
  .when (wakeEnabled d source) (if powerState d == 4 then abandonRest else how)

/-- WAKE (R424, R425, R434): an enabled wake source. -/
def wake (source : Nat) (up dq ca : List Nat) : Eff := whileIt (·.off == 0) (wakeOrAbandon source (wakeUp source up dq ca))

/-- Act on PWR_STATE.target (R422, R424, R426): 1 REST and 3 OFF from IDLE or RUN, 2 RUN from REST or its entry. -/
def powerRequest (target source : Nat) : Eff := .obs fun d =>
  let st := powerState d
  let begin (s : Nat) : Eff := .all [setF F.PWR_STATE_last_result 0 0, setPower s, putRestFrom (d.reg .CLK_AON_CNT 0)]
  .when (d.off == 0) <|
    if target == 1 && (st == 2 || st == 3) then begin 4
    else if target == 3 && (st == 2 || st == 3) then begin 6
    else if target == 2 && st == 1 then whileIt (wakeEnabled · source) (wakeWhole source)
    else .when (target == 2 && st == 4) abandonRest

/-- The cores that a REST or OFF request stops at their next beat: those that run or are parked, not being stopped already
(R422 step 4). -/
def coresToStop (d : Device) : List Nat :=
  mapKeys d.cores fun _ k => (k.state == 1 || k.state == 2) && k.ctx.isSome && !k.stopReq && !k.fenced

/-- A core has yet to reach its beat boundary, or is being saved, restored or migrated. -/
def coresBusy (d : Device) : Bool :=
  !(mapKeys d.cores fun _ k => k.state == 1 || k.state == 2 || k.state == 5 || k.state == 6 || k.fenced).isEmpty

/-- Steps 2 to 4 of R422: once no collective is in flight and no junction trip holds the clocks, the cores are asked to stop;
with every core stopped, or the clocks held by a halt, the rest follows. -/
def afterCores (rest : Eff) : Eff := .obs fun d =>
  .when ((mapKeys d.colOps fun _ o => o.isSome).isEmpty && !d.tripped) <|
    if halted d || !coresBusy d then rest else .seq
      (modRestCores (· ++ coresToStop d))
      (.each (coresToStop d) fun core => modCores core fun k =>
        { k with stopReq := true, state := if k.state == 2 then 3 else k.state })

/-- Steps 5 to 8 of R422, the re-plan with its readings. -/
def enterRest (slack vmin drift eyes : List Nat) : Eff := .obs fun d =>
  let up := (List.range 96).filter (linkUp d)
  .all [
    putRestLinks up,
    .each up fun i => .seq (setF F.LNK_PORT_STATUS_state i 3) (setF F.LNK_PORT_STATUS_reason i 7),
    replanNow 2 slack vmin drift eyes, faultLogFlush,
    .each ((List.range 153).filter fun q => clusterState d q != 4) fun q => .seq (setF F.CLK_CLU_STAT_state q 2) (putXlats q []),
    setF F.PWR_TIMES_entry 0 (min 65535 ((d.reg .CLK_AON_CNT 0 - d.restFrom) / 250)), setPower 1]

/-- REST_ENTRY (R422): the steps of entry after step 1. The first one asks the cores to stop; once they have, the next one
completes the entry. -/
def restEntry (slack vmin drift eyes : List Nat) : Eff := .obs fun d =>
  .when (d.off == 0 && powerState d == 4) (afterCores (enterRest slack vmin drift eyes))

/-- REST_COLLECTIVE_TIMEOUT (R422 step 2): collectives in flight at the bound withdraw under cause 2. -/
def restCollectiveTimeout : Eff := .obs fun d =>
  let entries := (d.colOps.filterMap fun e => e.2.map (·.entry)).dedup
  .when (d.off == 0 && (powerState d == 4 || powerState d == 6) && entries != []) <|
    .seq (.each entries fun g => withdraw g 2) (setF F.PWR_STATE_last_result 0 2)

/-! ### OFF (R426, R446, R447) -/

/-- Retire a site in the record, with every parent R23 retires (R447). -/
def mapFail : Nat → Nat → Nat → Eff
  | 0, lvl, site => putRetired (siteKey lvl site) true
  | fuel + 1, lvl, site => .seq (putRetired (siteKey lvl site) true) <| .obs fun d =>
    let q := site / (lvlCount lvl + 1)
    .when (lvl < 3 && parentFails (fun j => d.retiredAt (siteKey lvl (q * (lvlCount lvl + 1) + j))) (lvlCount lvl))
      (mapFail fuel (lvl + 1) q)

/-- The engine sites in the order the shut-down test takes them: oldest verdict first, then site order (R447). -/
def testOrder (d : Device) : List Nat := (List.range 13005).mergeSort fun a b => d.agesAt b ≤ d.agesAt a

/-- The flagged core sites that a shut-down test reaches: of `cores`, after a full pass over the engine sites (R446). -/
def testedCores (d : Device) (tested : Nat) (cores : List Nat) : List Nat :=
  if 13005 ≤ tested then cores.filter d.flaggedAt else []

/-- The verdicts of a shut-down test that reached the first `tested` engine sites in order and the flagged core sites of
`cores`, with those that failed (R446, R447). -/
def shutdownTest (tested : Nat) (failed cores badCores : List Nat) : Eff := .obs fun d =>
  let reached := (testOrder d).take tested
  let bad := failed.filter reached.contains
  let cores := testedCores d tested cores
  let badC := badCores.filter cores.contains
  .all [
    .each (List.range 13005) (fun e => putAges e (if reached.contains e then 0 else d.agesAt e + 1)),
    .each bad (mapFail 3 0), .each badC (mapFail 3 1), .each cores fun c => putFlagged c false]

/-- OFF_ENTRY (R426): steps 1 to 6 of R422, the shut-down test within its budget, the records, and the rails off. A budget of
0 skips the test. The next start reports the pass in TST_SHUTDOWN_STAT. -/
def offEntry (tested : Nat) (failed cores badCores : List Nat) : Eff := .obs fun d =>
  let tests : Bool := d.fld F.TST_SHUTDOWN_BUDGET_budget_ms 0 != 0
  .when (d.off == 0 && powerState d == 6) <| afterCores <| .all [
    .when tests (shutdownTest (min tested 13005) failed cores badCores),
    .when tests <| .obs fun d' => putLastPass (min tested 13005,
      min 1023 ((failed.filter ((testOrder d).take tested).contains).length +
        (badCores.filter (testedCores d tested cores).contains).length),
      min 255 ((d'.ages.map (·.2)).foldl max 0)),
    saveSpare, saveMargin, saveLog, clearVolatile, putOff 2, putUnclean false]

/-! ### The always-on clock (R417, R434) -/

/-- AON_REF_LOSS (R434): the crystal takes over from the reference input. -/
def aonRefLoss : Eff := .obs fun d => .when (d.fld F.CLK_AON_ext_ref 0 == 1) <|
  .seq (setF F.CLK_AON_ext_ref 0 0) (setF F.CLK_AON_ref_lost 0 1)

end Sys2Proof.Machine
end

