-- ==== Sys2Proof/Machine/Security.lean ====
section
/-! DEFINITION. Identity, roots, the key store and its commands, the tamper response, key retention and debug access
(19_security.md R458 to R476). Windows are numbered 0 to 31 for the partitions and 32 for the device. -/

namespace Sys2Proof.Machine

/-! ### The identity key (R458, R459) -/

/-- The order n of the P-384 group (log entry 4). -/
def p384Order : Nat :=
  0xFFFFFFFFFFFFFFFFFFFFFFFFFFFFFFFFFFFFFFFFFFFFFFFFC7634D81F4372DDF581A0DB248B0A77AECEC196ACCC52973

/-- The private scalar d (R458 steps 2 and 3). -/
def identityScalar : Nat :=
  fromLE (Config.sha384 ([0x41, 0x58, 0x49, 0x44] ++ Config.pufResponse ++ Config.idSalt)).reverse % (p384Order - 1) + 1

/-- Derive d at a start (R458). -/
def deriveIdentity : Eff := .seq (putIdKey (some identityScalar)) (setF F.SEC_KEYSTATE_identity_ready 0 1)

/-- The identity record (R459). -/
def identityRecord (d : Device) : List Byte :=
  [0x41, 0x58, 0x49, 0x44] ++ toLE 4 1 ++ toLE 8 (d.reg .LNK_SERIAL 0) ++ (Config.ecPublic identityScalar ++ toLE 31 0) ++
    Config.mfgSignature ++ toLE 16 0

/-- The signed part of the report of partition `p`, with the nonce of the request (R459). -/
def reportBody (d : Device) (p : Nat) (nonce : List Byte) : List Byte :=
  let f := d.active p
  let flags := d.fld F.STW_STATE_keys_lost 0 + 2 * d.fld F.SEC_KEYSTATE_quarantine 0 +
    (if d.fld F.SEC_KEYSTATE_debug_level 0 == 0 then 0 else 4) + (if f.isSome then 8 else 0)
  [0x41, 0x58, 0x41, 0x54] ++ toLE 1 1 ++ toLE 1 p ++ toLE 1 (d.fld F.SEC_KEYSTATE_state 0) ++ toLE 1 flags ++
    toLE 8 (d.reg .LNK_SERIAL 0) ++ nonce ++ d.fwDigest ++ ((f.map (·.digest)).getD (toLE 48 0)) ++
    toLE 4 ((f.map (·.security)).getD 0) ++ toLE 4 (d.fld F.FIG_MINVER_minver p) ++ toLE 4 (d.reg .SEC_ALARM_POLICY 0) ++
    toLE 4 (d.reg .SEC_ROOT 0) ++ toLE 8 (d.reg .CLK_AON_CNT 0) ++ toLE 56 0

/-- The report with its signature by `key`, the random draw given (R459). -/
def reportBytes (d : Device) (key p : Nat) (nonce : List Byte) (k : Nat) : List Byte :=
  reportBody d p nonce ++ Config.ecdsaSign key (Config.sha384 (reportBody d p nonce)) k ++ toLE 176 0

/-! ### The key store (R462, R463) -/

/-- Draw a new sealed-state key (R462). -/
def drawSealKey : Eff := freeBytes 32 putSealKey

/-- Every volatile key of the store is zeroised, and a new sealed-state key is drawn (R462, R472, R473). -/
def zeroiseKeys : Eff := .all [
  .upd (.tenantKeysDrop fun _ => true), .upd (.linkKeysDrop fun _ => true), putDebugNonce [], countKeys, drawSealKey]

/-- The whole key store is zeroised, d included, and SEC_KEYSTATE.state says why (R445, R472). -/
def zeroiseStore (state : Nat) : Eff := .all [
  zeroiseKeys, putIdKey none, setF F.SEC_KEYSTATE_identity_ready 0 0, setF F.SEC_KEYSTATE_state 0 state]

/-- The partition holds a tenant slot. -/
def holdsSlot (d : Device) (p s : Nat) : Bool := (d.tenantKeysAt s).any fun t => t.part == p

/-- A context that is ready, running, pre-empted or stopping names the slot (R463). -/
def slotInUse (d : Device) (s : Nat) : Bool :=
  (d.listed .SEC_CTX_KEY fun v => bit v 31 == 1 && bits v 9 0 == s).any fun c =>
    1 ≤ d.fld F.CTX_RUN_state c && d.fld F.CTX_RUN_state c ≤ 4

/-- The code of the first condition that does not hold (R466). -/
def firstFail (cs : List (Bool × Nat)) : Option Nat := (cs.find? fun c => !c.1).map (·.2)

/-- The `n` bytes at SEC_ARG lie where a window's commands may reach: DRAM, and for a partition window that of the
partition (R463). -/
def secReach (d : Device) (w a n : Nat) : Bool :=
  (List.range n).all fun i => inDram (a + i) && (w == 32 || ownsDram d w (a + i))

/-- A window's op and index are in range (R463). -/
def secInRange (w op index a : Nat) : Bool :=
  match op with
  | 1 | 3 | 4 => w < 32 && index < 1024
  | 2 => w < 32 && index < 1024 && a == 0
  | 5 => w == 32 && index < 256
  | 6 => index < 32 && (w == 32 || index == w)
  | 7 => index == 0
  | 8 => w == 32 && index == 0
  | _ => false

/-- Key and attestation commands fail while quarantined, and where they need an identity that is not there (R466). -/
def secQuarantined (d : Device) (op : Nat) : Bool :=
  (1 ≤ op && op ≤ 6 && d.fld F.SEC_KEYSTATE_quarantine 0 == 1) ||
  ((op == 6 || op == 7) && d.fld F.SEC_KEYSTATE_identity_ready 0 == 0) || ((op == 1 || op == 5) && d.idKey.isNone)

/-- SEC_ARG of a window. -/
def secArg (d : Device) (w : Nat) : Nat := d.fld F.SEC_ARG_addr w * 64

/-- A write of SEC_CMD with go (R463, R466): ignored while the window is busy. The command acts as `run` says, which gives
its code and what a good one does; SEC_CMD_COMPLETE reports the code. -/
def secCommand (rq w v : Nat) (run : Device → Nat × Eff) : Eff := writeAct rq .SEC_CMD w v 31 <| .obs fun d =>
  let op := bits v 29 26
  let (code, e) : Nat × Eff :=
    if secQuarantined d op then (7, .skip) else if !secInRange w op (bits v 15 0) (secArg d w) then (5, .skip) else run d
  .when (d.fld F.SEC_CMD_busy w == 0) <| .all [
    setF F.SEC_CMD_busy w 1, putSecPending w (some (op, bits v 15 0, code)), .when (code == 0) e]

/-- The value a command writes to SEC_CMD. -/
def secValue (op index : Nat) : Nat := 2147483648 + op * 67108864 + index % 65536

/-- SEC_CMD_COMPLETE (R466): the window's command ends, and SEC_STATUS records its code. -/
def secCmdComplete (w : Nat) : Eff := .obs fun d =>
  match d.secPendingAt w with
  | none => .skip
  | some (op, index, code) => .all [
      putSecPending w none, setF F.SEC_CMD_busy w 0, setF F.SEC_STATUS_code w code, setF F.SEC_STATUS_op w op,
      setF F.SEC_STATUS_index w index]

/-! ### Key blobs (R464, R465) -/

/-- The fields of a key blob that are not about its slot or its serial (R464). -/
def blobOk (b : List Byte) (kind index : Nat) : Bool :=
  b.take 4 == [0x41, 0x58, 0x4B, 0x42] && num b 4 1 == 1 && num b 5 1 == kind && num b 6 2 == index &&
    (kind == 2 || num b 0x10 4 == 0) && zeroAt b 0x14 12 && zeroAt b 0x81 11 && zeroAt b 0xE8 24

/-- The 64 bytes a key blob wraps (R464 steps 1 to 3); none where E is no valid point or the tag fails. -/
def unwrapBlob (d : Device) (b : List Byte) : Option (List Byte) :=
  d.idKey.bind fun key => (Config.ecdhX key ((b.drop 0x20).take 97)).bind fun x =>
    Config.gcmOpen ((Config.sha384 (x ++ b.take 0x81)).take 32) ((b.drop 0x8C).take 12) (b.take 0x8C)
      ((b.drop 0x98).take 64) ((b.drop 0xD8).take 16)

/-- A tenant key has K1 = K2 (R464). -/
def keyWeak (key : List Byte) : Bool := key.take 32 == key.drop 32

/-- A tenant key enters a slot of partition `p` (R463). -/
def loadTenant (s p : Nat) (key : List Byte) : Eff := .all [
  putTenantKeys s (some ⟨p, key⟩), countKeys, setF F.SEC_KEYSTATE_state 0 0]

/-- A slot may take a key for partition `p`: not another's, and not in use (R463). -/
def slotChecks (d : Device) (p s : Nat) : List (Bool × Nat) := [
  ((d.tenantKeysAt s).all fun t => t.part == p, 4), ((d.tenantKeysAt s).isNone || !slotInUse d s, 8)]

/-- KEY_LOAD (R464): op 1 unwraps a tenant key into a slot. -/
def keyLoad (rq w index : Nat) : Eff := secCommand rq w (secValue 1 index) fun d =>
  let a := secArg d w
  let b := d.bytes a 256
  match firstFail ([(secReach d w a 256, 5), (!d.poisoned a 256, 10), (blobOk b 1 index, 1),
    (num b 8 8 == d.reg .LNK_SERIAL 0, 2)] ++ slotChecks d w index) with
  | some c => (c, .skip)
  | none => match unwrapBlob d b with
    | none => (3, .skip)
    | some key => if keyWeak key then (6, .skip) else (0, loadTenant index w key)

/-- KEY_ERASE (R463): op 2 zeroises and frees a slot. -/
def keyErase (rq w index : Nat) : Eff := secCommand rq w (secValue 2 index) fun d =>
  match firstFail [(holdsSlot d w index, 11), (!slotInUse d index, 8)] with
  | some c => (c, .skip)
  | none => (0, .seq (putTenantKeys index none) countKeys)

/-- The first 32 bytes of a sealed blob, which are authenticated (R465). -/
def sealedHead (w index : Nat) (iv : List Byte) : List Byte :=
  [0x41, 0x58, 0x53, 0x4C] ++ toLE 2 1 ++ toLE 2 index ++ toLE 8 w ++ iv ++ toLE 4 0

/-- A sealed blob of a tenant key (R465). -/
def sealedBlob (d : Device) (w index : Nat) (iv key : List Byte) : List Byte :=
  let (ct, tag) := Config.gcmSeal d.sealKey iv (sealedHead w index iv) key
  sealedHead w index iv ++ ct ++ tag ++ toLE 16 0

/-- KEY_SEAL (R465): op 3 writes the sealed blob of a slot's key, under an IV drawn by the device. -/
def keySeal (rq w index : Nat) : Eff := secCommand rq w (secValue 3 index) fun d =>
  let a := secArg d w
  match firstFail [(secReach d w a 128, 5), (holdsSlot d w index, 11)] with
  | some c => (c, .skip)
  | none => (0, freeBytes 12 fun iv => store ((List.range 128).map (a + ·)) (sealedBlob d w index iv (slotKey d index)))

/-- KEY_UNSEAL (R465): op 4 loads a tenant key from a sealed blob, in the window of the partition it names. -/
def keyUnseal (rq w index : Nat) : Eff := secCommand rq w (secValue 4 index) fun d =>
  let a := secArg d w
  let b := d.bytes a 128
  let ok : Bool := b.take 4 == [0x41, 0x58, 0x53, 0x4C] && num b 4 1 == 1 && zeroAt b 5 1 && num b 6 2 == index &&
    num b 8 1 == w && zeroAt b 9 7 && zeroAt b 0x1C 4 && zeroAt b 0x70 16
  match firstFail ([(secReach d w a 128, 5), (!d.poisoned a 128, 10), (ok, 1)] ++ slotChecks d w index) with
  | some c => (c, .skip)
  | none => match Config.gcmOpen d.sealKey ((b.drop 0x10).take 12) (b.take 0x20) ((b.drop 0x20).take 64) ((b.drop 0x60).take 16) with
    | none => (3, .skip)
    | some key => if keyWeak key then (6, .skip) else (0, loadTenant index w key)

/-- LINK_KEY_LOAD (R464): op 5 loads a new generation of a link slot's key; the current one becomes the previous. -/
def linkKeyLoad (rq w index : Nat) : Eff := secCommand rq w (secValue 5 index) fun d =>
  let a := secArg d w
  let b := d.bytes a 256
  let old := d.linkKeysAt index
  match firstFail [(secReach d w a 256, 5), (!d.poisoned a 256, 10), (blobOk b 2 index && old.gen < num b 0x10 4, 1),
    (num b 8 8 == d.reg .LNK_SERIAL 0, 2)] with
  | some c => (c, .skip)
  | none => match unwrapBlob d b with
    | none => (3, .skip)
    | some key => if !zeroAt key 32 32 then (1, .skip) else (0, .all [
        putLinkKeys index { key := key.take 32, gen := num b 0x10 4, prevKey := old.key, prevGen := old.gen, counter := 0 },
        countKeys, setF F.SEC_KEYSTATE_state 0 0])

/-- ATTEST (R459): op 6 writes a report of one partition, signed with the identity key, over the request. -/
def attest (rq w index : Nat) : Eff := secCommand rq w (secValue 6 index) fun d =>
  let a := secArg d w
  match firstFail [(secReach d w a 512, 5), (!d.poisoned a 48, 10)] with
  | some c => (c, .skip)
  | none => (0, withFree fun k =>
      store ((List.range 512).map (a + ·)) (reportBytes d (d.idKey.getD 0) index (d.bytes a 48) k))

/-- ID_READ (R459): op 7 copies the identity record. -/
def idRead (rq w index : Nat) : Eff := secCommand rq w (secValue 7 index) fun d =>
  let a := secArg d w
  if secReach d w a 256 then (0, store ((List.range 256).map (a + ·)) (identityRecord d)) else (5, .skip)

/-! ### Roots (R460, R461) -/

/-- The fields of a root message (R461). -/
def rootMsgOk (b : List Byte) : Bool :=
  b.take 4 == [0x41, 0x58, 0x52, 0x56] && num b 4 1 == 1 && (num b 5 1 == 1 || num b 5 1 == 2) && num b 6 1 ≤ 3 &&
    num b 7 1 ≤ 3 && (num b 5 1 == 2 || (num b 6 1 != num b 7 1 && num b 0x10 4 == 0)) && zeroAt b 0x14 28

/-- A root message is refused (R461). -/
def rootRefused (d : Device) (b : List Byte) : Bool :=
  let target := num b 6 1
  !rootUsable d (num b 7 1) || (num b 5 1 == 1 && (List.range 4).all fun j => j == target || !rootUsable d j) ||
    (num b 5 1 == 2 && num b 0x10 4 < d.fld F.SEC_ENDORSE_MIN_min target)

/-- Blow a root slot's revoked fuse; each staged slot whose signer chain uses the root is invalidated (R461, R68). -/
def revokeRoot (j : Nat) : Eff := .obs fun d => .seq
  (setF F.SEC_ROOT_revoked 0 (d.fld F.SEC_ROOT_revoked 0 ||| 2 ^ j))
  (.each (List.range 32) fun p => .each (List.range 8) fun s => .when (activeSlot d p != some s) (dropOld p s))

/-- ROOT_MSG (R461): op 8 revokes a root slot or raises an endorsement minimum. -/
def rootMsg (rq w index : Nat) : Eff := secCommand rq w (secValue 8 index) fun d =>
  let a := secArg d w
  let b := d.bytes a 144
  match firstFail [(secReach d w a 144, 5), (!d.poisoned a 144, 10), (rootMsgOk b, 1),
    (num b 8 8 == 0 || num b 8 8 == d.reg .LNK_SERIAL 0, 2), (!rootRefused d b, 9),
    (Config.ecdsaVerify (d.rootKeysAt (num b 7 1)) (Config.sha384 (b.take 0x30)) ((b.drop 0x30).take 96), 3)] with
  | some c => (c, .skip)
  | none => (0, if num b 5 1 == 1 then revokeRoot (num b 6 1) else setF F.SEC_ENDORSE_MIN_min (num b 6 1) (num b 0x10 4))

/-- A write of SEC_CMD with go whose op is none of R463: the command ends RANGE. -/
def secOther (rq w v : Nat) : Eff := secCommand rq w v fun _ => (5, .skip)

/-! ### Keys of contexts, and the tamper policy (R471, R476) -/

/-- CTX_KEY_WRITE (R476): a write that enables a slot the context's partition does not hold is ignored and ends NOT_HELD. -/
def ctxKeyWrite (rq c v : Nat) : Eff := .obs fun d =>
  if bit (mayWrite d rq .SEC_CTX_KEY c) 31 == 0 then denied
  else if bit v 31 == 1 && !(ctxPart d c).any fun p => holdsSlot d p (bits v 9 0) then
    .each (ctxPart d c).toList fun p => setF F.SEC_STATUS_code p 11
  else storeWrite rq .SEC_CTX_KEY c v

/-- The response of a sensor class in force: the policy's, and never below the fused one (R471). -/
def tamperResponse (d : Device) (k : Nat) : Nat :=
  max (bits (d.reg .SEC_ALARM_POLICY 0) (2 * k + 1) (2 * k)) (bits (d.fld F.SEC_ALARM_FUSE_floor 0) (2 * k + 1) (2 * k))

/-- The fields of SEC_ALARM_POLICY. -/
def policyField : Nat → Fld
  | 0 => F.SEC_ALARM_POLICY_voltage
  | 1 => F.SEC_ALARM_POLICY_clock
  | 2 => F.SEC_ALARM_POLICY_temp
  | 3 => F.SEC_ALARM_POLICY_light
  | _ => F.SEC_ALARM_POLICY_mesh

/-- ALARM_POLICY_WRITE (R471): each class's response is raised; a lower value, or 3, leaves it. -/
def alarmPolicyWrite (rq v : Nat) : Eff := .obs fun d =>
  if mayWrite d rq .SEC_ALARM_POLICY 0 == 0 then denied else .each (List.range 5) fun k =>
    let new := bits v (2 * k + 1) (2 * k)
    .when (new != 3 && tamperResponse d k < new) (setF (policyField k) 0 new)

/-! ### The tamper response (R472) -/

/-- Quarantine (R472): every core stops, every ring is cancelled, every context is torn down with OWNER, and key and
attestation commands in service end QUARANTINE. -/
def quarantine : Eff := .obs fun d => .all [
  setF F.SEC_KEYSTATE_quarantine 0 1,
  .each (mapKeys d.cores fun _ k => k.state == 1 || k.state == 2 || k.state == 5 || k.state == 6) (fun core =>
    modCores core fun k => { k with state := 4, waiting := false, acquiring := false }),
  .each (d.listed .DMA_RING_BASE fun v => v % 2 == 1) cancelStart,
  .each ((List.range 1024).filter fun c => (ctxPart d c).isSome) fun c => teardown c codeOwner,
  .each (List.range 33) fun w => modSecPending w <| Option.map fun (op, index, code) =>
    (op, index, if 1 ≤ op && op ≤ 6 then 7 else code)]

/-- TAMPER_TRIP (R471, R472): a qualified trip of a sensor class. On VBAT alone only classes 2 to 4 are sensed: an erase
acts at once, and the quarantine is latched for the next start. -/
def tamperTrip (k : Nat) : Eff := .obs fun d =>
  let vbat : Bool := d.off == 1
  let r := tamperResponse d k
  .when (d.off != 3 && (!vbat || 2 ≤ k)) <| .all [
    setF F.SEC_TAMPER_latched 0 (d.fld F.SEC_TAMPER_latched 0 ||| 2 ^ k), setF F.SEC_TAMPER_vbat_only 0 (if vbat then 1 else 0),
    .when (d.off == 0) (logError { severity := 2, source := 3, info := k }),
    .when (r == 2) (.seq (zeroiseStore 2) (.when (d.off != 0) (putKeysLost true))),
    .when (1 ≤ r) (if d.off == 0 then quarantine else putQuarLatch true)]

/-! ### Power return and the backup cell (R413, R473) -/

/-- The volatile key material is lost: the tamper latches and the policy return to their fuse values, and lost_watch is set
(R473). With VIN absent too, the registers of the AON domain reset (R476). -/
def loseKeys (aon : Bool) : Eff := .all [
  .when aon (resetRegs fun r _ => regDomainCode r == .aon),
  .obs fun d => .all [
    zeroiseKeys, setF F.SEC_KEYSTATE_state 0 1, setF F.SEC_TAMPER_latched 0 0, setF F.SEC_TAMPER_vbat_only 0 0,
    setReg .SEC_ALARM_POLICY 0 (d.fld F.SEC_ALARM_FUSE_floor 0), setF F.SEC_TAMPER_lost_watch 0 1, putKeysLost true]]

/-- VIN_SAMPLE (R413, R473): at a tick of the backup clock VIN and VBAT, in mV, are sampled. The 65th consecutive sample of
38 V or more declares VIN valid; a VBAT below 1.9 V up to and including that sample loses the keys. -/
def vinSample (vin vbat : Nat) : Eff := .obs fun d =>
  if d.vin.valid then setF F.SEC_KEYSTATE_vbat_low 0 (if vbat < 1900 then 1 else 0) else
  let n := if 38000 ≤ vin then d.vin.count + 1 else 0
  .seq (.when (vbat < 1900) (loseKeys (vin < 38000))) (putVin (if n == 65 then ⟨true, 0⟩ else ⟨false, n⟩))

/-! ### Debug access (R445, R474) -/

/-- The debug nonce is drawn afresh (R474). -/
def drawNonce (k : List Byte → Eff) : Eff := freeBytes 32 fun n => .seq (putDebugNonce n) (k n)

/-- DEBUG_NONCE_READ (R474): the certificate instrument returns a fresh nonce, through the test access port. -/
def debugNonceRead : Eff := drawNonce fun n => modSent (· ++ [.management 2 0 (n.map (·.toNat))])

/-- A debug certificate is good (R474). -/
def certificateOk (d : Device) (c : List Byte) : Bool :=
  c.length == 256 && c.take 4 == [0x41, 0x58, 0x44, 0x43] && num c 4 1 == 1 && (num c 5 1 == 1 || num c 5 1 == 2) &&
    rootUsable d (num c 6 1) && zeroAt c 7 1 && num c 8 8 == d.reg .LNK_SERIAL 0 && (c.drop 0x10).take 32 == d.debugNonce &&
    zeroAt c 0x90 112 && d.fld F.SEC_ALARM_FUSE_debug_disable 0 == 0 &&
    Config.ecdsaVerify (d.rootKeysAt (num c 6 1)) (Config.sha384 (c.take 0x30)) ((c.drop 0x30).take 96)

/-- Before test access (R445): every context is torn down with OWNER, the key store is zeroised, and every tile memory and
floor way is cleared. -/
def clearForTest : Eff := .obs fun d => .all [
  .each ((List.range 1024).filter fun c => (ctxPart d c).isSome && d.fld F.CTX_RUN_state c != 5) fun c => tearWhole c codeOwner,
  zeroiseStore 3, .upd (.tmemDrop fun _ => true), .upd (.tpoisonDrop fun _ => true),
  .upd (.memDrop inFloor), .upd (.poisonDrop inFloor), .upd (.linesDrop fun _ => true)]

/-- DEBUG_CERTIFICATE (R474): a submitted certificate grants its level, after R445 for level 2, or is refused and counted.
The nonce is drawn afresh either way. -/
def debugCertificate (c : List Byte) : Eff := .obs fun d =>
  let level := num c 5 1
  .seq (drawNonce fun _ => .skip) <|
    if certificateOk d c then .all [
      .when (level == 2) clearForTest,
      setF F.SEC_KEYSTATE_debug_level 0 (max (d.fld F.SEC_KEYSTATE_debug_level 0) level),
      setF F.SEC_DEBUG_level 0 (max (d.fld F.SEC_DEBUG_level 0) level)]
    else addSat F.SEC_DEBUG_refused 0 1

end Sys2Proof.Machine
end

