-- ==== Sys2Proof/Machine/Boot.lean ====
section
/-! DEFINITION. The halt input (20_bring_up_and_host_interface.md R497 to R499), the boot flash and firmware (R480 to R485),
and the power-on sequence (R477, R478). -/

namespace Sys2Proof.Machine

/-! ### The halt input (R497 to R499) -/

/-- A change of HALT_STATUS.halted or fault raises MSI-X vector 1 and a PLDM event of sensor 31 (R492, R496). -/
def haltEvent : Eff := .seq (raiseMsix 1) (queueEvent 31)

/-- The channels read `a` and `b`, asserted where true: the device is halted while either does or a fault is latched. A halt
entered in REST is marked so. On release what was held for the clusters is added, and where the halt was entered in REST
the device wakes if source 3 is enabled (R424, R497, R499). -/
def haltInputs (a b : Bool) : Eff := .obs fun d =>
  let now : Bool := a || b || d.fld F.HALT_STATUS_fault 0 == 1
  .all [
    setF F.HALT_STATUS_a 0 (if a then 1 else 0), setF F.HALT_STATUS_b 0 (if b then 1 else 0),
    .when (now && !halted d) <| .all [
      setF F.HALT_STATUS_halted 0 1, setF F.HALT_STATUS_in_rest 0 (if d.off == 0 && powerState d == 1 then 1 else 0),
      setF F.HALT_STATUS_first 0 (if a && b then 3 else if a then 1 else if b then 2 else 0),
      addSat F.HALT_CTRL_halts 0 1, haltEvent],
    .when (!now && halted d) <| .all [
      setF F.HALT_STATUS_halted 0 0, haltEvent, .each (List.range 128) releaseHeld,
      .when (d.fld F.HALT_STATUS_in_rest 0 == 1 && wakeEnabled d 3) (wakeWhole 3)]]

/-- A disagreement of `cycles` always-on cycles has ended (R498). -/
def disagreed (cycles : Nat) : Eff := .when (cycles != 0) (setF F.HALT_STATUS_last_disagree 0 cycles)

/-- HALT_ASSERT (R497): the channels read `a` and `b`, one of them at least asserted, after a disagreement of `cycles`, 0 for
none. -/
def haltAssert (a b : Bool) (cycles : Nat) : Eff := .obs fun d =>
  .when (d.off == 0 && (a || b)) (.seq (disagreed cycles) (haltInputs a b))

/-- HALT_RELEASE (R497): both channels read deasserted, after a disagreement of `cycles`. -/
def haltRelease (cycles : Nat) : Eff := .obs fun d => .when (d.off == 0) (.seq (disagreed cycles) (haltInputs false false))

/-- HALT_DISCREPANCY (R498): the disagreement in which only channel A (`aOnly`), or only channel B, reads asserted reaches
250,001 cycles: the fault latches, and the count stops. -/
def haltDiscrepancy (aOnly : Bool) : Eff := .obs fun d => .when (d.off == 0 && d.fld F.HALT_STATUS_fault 0 == 0) <| .all [
  haltInputs aOnly !aOnly, setF F.HALT_STATUS_fault 0 1, setF F.HALT_STATUS_last_disagree 0 250001,
  logError { severity := 2 }, haltEvent]

/-- Clear the discrepancy fault (R498): refused while a channel reads asserted; no effect with no fault latched (R501). -/
def clearHalt : Eff := .obs fun d => .when (d.fld F.HALT_STATUS_fault 0 == 1) <|
  if d.fld F.HALT_STATUS_a 0 == 1 || d.fld F.HALT_STATUS_b 0 == 1 then setF F.HALT_CTRL_clear_refused 0 1
  else .all [setF F.HALT_CTRL_clear_refused 0 0, setF F.HALT_STATUS_fault 0 0, haltInputs false false]

/-- HALT_CLEAR (R498): a write of HALT_CTRL with clear. -/
def haltClear (rq v : Nat) : Eff := writeAct rq .HALT_CTRL 0 v 31 (.when (bit v 31 == 1) clearHalt)

/-! ### The boot flash (R480 to R482) -/

/-- `n` bytes of the boot flash from `a`. -/
def flashBytes (d : Device) (a n : Nat) : List Byte := (List.range n).map fun i => d.bootFlashAt (a + i)

/-- Write bytes of the boot flash from `a`. -/
def writeFlash (a : Nat) : List Byte → Eff
  | [] => .skip
  | b :: bs => .seq (putBootFlash a b) (writeFlash (a + 1) bs)

/-- The base of an image slot. -/
def slotBase (s : Nat) : Nat := s * 0x1000000

/-- The checks of R482 over an image, in order: 0 where it is accepted, else the code of R484. -/
def fwCheck (d : Device) (img : List Byte) : Nat :=
  let len := num img 8 4
  (firstFail [
    (img.take 4 == [0x41, 0x58, 0x46, 0x57] && num img 4 1 == 1 && num img 5 1 == 0xA7 && num img 6 1 == 0x16 &&
      len % 4096 == 0 && 256 ≤ len && len ≤ 0x1000000 && num img 0xFC 4 == crc32c (img.take 0xFC), 1),
    (rootUsable d (num img 7 1), 2),
    (Config.ecdsaVerify (d.rootKeysAt (num img 7 1)) (Config.sha384 (img.take 0x50)) ((img.drop 0x50).take 96), 3),
    (d.fld F.STW_FW_MINVER_minver 0 ≤ num img 0xC 4, 4),
    (Config.sha384 ((img.take len).drop 0x100) == (img.drop 0x20).take 48, 5)]).getD 0

/-- The image a slot holds, by the length its header gives. -/
def slotImage (d : Device) (s : Nat) : List Byte := flashBytes d (slotBase s) (min 0x1000000 (num (flashBytes d (slotBase s) 256) 8 4))

/-- A slot passes R482, or the code of its failure. -/
def slotCheck (d : Device) (s : Nat) : Nat :=
  fwCheck d (if num (flashBytes d (slotBase s) 256) 8 4 < 256 then flashBytes d (slotBase s) 256 else slotImage d s)

/-- The base of a boot control copy. -/
def controlBase (k : Nat) : Nat := 0x2000000 + k * 0x1000

/-- The sequence number of an intact boot control copy (R480). -/
def controlSeq (d : Device) (k : Nat) : Option Nat :=
  let b := flashBytes d (controlBase k) 64
  if b.take 4 == [0x41, 0x58, 0x42, 0x43] && num b 4 1 == 1 && num b 0x3C 4 == crc32c (b.take 0x3C) then some (num b 8 4) else none

/-- The boot control copy in use: the intact one of the higher sequence. -/
def controlUsed (d : Device) : Option Nat :=
  match controlSeq d 0, controlSeq d 1 with
  | some a, some b => some (if a < b then 1 else 0)
  | some _, none => some 0
  | none, some _ => some 1
  | none, none => none

/-- The preferred slot: A when neither copy is intact. -/
def preferred (d : Device) : Nat := match controlUsed d with
  | some k => num (flashBytes d (controlBase k) 64) 5 1 % 2
  | none => 0

/-- Write boot control to prefer a slot: the copy that is not in use takes the next sequence (R480). -/
def preferSlot (s : Nat) : Eff := .obs fun d =>
  let seq := match controlUsed d with
    | some k => (controlSeq d k).getD 0 + 1
    | none => 1
  let body := [0x41, 0x58, 0x42, 0x43] ++ toLE 1 1 ++ toLE 1 s ++ toLE 2 0 ++ toLE 4 seq ++ toLE 48 0
  writeFlash (controlBase (match controlUsed d with | some k => 1 - k | none => 0)) (body ++ toLE 4 (crc32c body))

/-! ### The steps of a start (R477) -/

/-- Step 2: the always-on domain is up, the halt inputs are sampled, and a latched quarantine is applied (R472). -/
def stepTwo (e : Env) : Eff := .obs fun d => .all [
  putOff 0, setF F.CLK_AON_ext_ref 0 (if e.aonClock == 2 then 1 else 0), setF F.CLK_AON_backup_ok 0 1,
  setF F.SEC_KEYSTATE_quarantine 0 (if d.quarLatch then 1 else 0), putQuarLatch false]

/-- Step 3: the steward boots; the loss of keys before this start is reported, the identity derived, the stored root keys
compared with their fuses (R458, R460, R473). A store erased for debug reads as lost from here on. The reset before it was a
PRT reset of every partition too, so each prefix tree has a new key (R11, R161). -/
def stepThree : Eff := .obs fun d => .all [
  .each (List.range 32) drawKey,
  setF F.STW_STATE_keys_lost 0 (if d.keysLost then 1 else 0), putKeysLost false,
  .when d.sealKey.isEmpty drawSealKey, .when (d.fld F.SEC_KEYSTATE_state 0 == 3) (setF F.SEC_KEYSTATE_state 0 1),
  deriveIdentity,
  setF F.SEC_ROOT_key_ok 0 (((List.range 4).filter fun j =>
    !(d.rootKeysAt j).isEmpty && Config.sha384 (d.rootKeysAt j) == Config.rootFuse j).foldl (fun m j => m + 2 ^ j) 0)]

/-- Step 5: the preferred slot, then the other, is tried; the accepted image runs. With none, recovery mode (R478, R482). -/
def stepFive (e : Env) : Eff := .obs fun d =>
  let p := preferred d
  let first := slotCheck d p
  let run (s : Nat) : Eff :=
    let img := slotImage d s
    .all [setF F.STW_FW_STATUS_running_slot 0 s, setF F.STW_FW_STATUS_fw_version 0 (num img 0x10 2),
      putFwDigest (Config.sha384 img), putFwVersion (num img 0xC 4)]
  if e.flashOk && first == 0 then run p else .seq
    (if e.flashOk then setF F.STW_FW_STATUS_fail_code 0 first else .skip)
    (if e.flashOk && slotCheck d (1 - p) == 0 then .seq (run (1 - p)) (setF F.STW_FW_STATUS_fallback 0 1)
    else setF F.STW_BOOT_recovery 0 1)

/-- Two bodies of a record hold the same entries. -/
def sameBody (a b : List (Nat × Nat)) : Bool := a.all b.contains && b.all a.contains

/-- What the body of a spare map records: the verdicts, the die that die site 16 serves, and the marked cluster sites (R21). Of
merged copies that record different dies the newest counts. -/
def takeSpareMap (body : List (Nat × Nat)) : Eff := .all [
  .upd (.retiredDrop fun _ => true), .upd (.markedDrop fun _ => true),
  putDieSpare ((body.find? fun x => x.1 / 1048576 == 14).map (·.1 % 1048576)),
  .each (body.filter fun x => x.1 / 1048576 != 14) fun x =>
    if x.1 / 1048576 == 15 then putMarked (x.1 % 1048576) true else putRetired x.1 true]

/-- Where the spare map was rebuilt, every engine site and core site is tested first (R439). -/
def rebuiltSpare (e : Env) : Eff := .all [takeSpareMap [],
  .each e.engines (mapFail 3 0), .each e.cores (mapFail 3 1)]

/-- A marked cluster site is retired where its die's spare is free and no other cluster of the die needs it (R442 rule 4,
R457). -/
def bindMarked : Eff := .each (List.range 153) fun q => .obs fun d =>
  .when (d.markedAt q && (List.range 9).all fun j => q / 9 * 9 + j == q || !d.retiredAt (siteKey 2 (q / 9 * 9 + j))) <|
    .seq (putRetired (siteKey 2 q) true) (putMarked q false)

/-- The elements of a level that the spare map lists. -/
def listedAt (d : Device) (lvl : Nat) : List Nat :=
  (mapKeys d.retired fun k b => b && k / 1048576 == lvl).map (· % 1048576)

/-- What the spare map shows in the registers of stacks, channels, codec engines, ingest units and shells. -/
def showSpare : Eff := .obs fun d => .all [
  .each (listedAt d 4) fun e => setF F.VCE_CTRL_retired e 1, .each (listedAt d 5) fun s => setF F.ING_CTRL_retired s 1,
  .each (listedAt d 6) fun s => .seq (setF F.DRM_STACK_STATUS_retired s 1) (setF F.STW_SPARE_GEN_stack_retired 0 1),
  .each (listedAt d 8) fun c => .seq (setF F.DRM_CHAN_STATUS_retired c 1) (addWrap F.DRM_STACK_STATUS_channels_retired (c / 32) 1),
  .each (List.range 512) fun c =>
    let rows := (mapKeys d.retired fun k b => b && (k / 1048576 == 16 + c ||
      2048 ≤ k / 1048576 && (k / 1048576 - 2048) % 512 == c)).length
    .when (rows != 0) (.all [setF F.DRM_CHAN_STATUS_rows_repaired c (min 65535 rows), .obs fun d =>
      setF F.DRM_STACK_STATUS_spare_rows (c / 32) (d.fld F.DRM_STACK_STATUS_spare_rows (c / 32) - rows)]),
  .each (List.range 16) fun k => .obs fun d => .seq
    (.when (d.fld F.DRM_STACK_STATUS_spare_rows k == 0) (setF F.DRM_STACK_STATUS_rows_out k 1))
    (.when (8 ≤ d.spareBanksAt k) (setF F.DRM_STACK_STATUS_banks_out k 1)),
  .each (List.range 16) fun s => putNoTransit s (siteBad d 6 s),
  .each (List.range 153) refreshMesh]

/-- The binding differs from binding every logical element to its home site. -/
def bindingMoved (d : Device) : Bool := (mapKeys d.applied fun k b =>
  b && k / 1048576 ≤ 3 && k % 1048576 % (lvlCount (k / 1048576) + 1) != lvlCount (k / 1048576)) != []

/-- TST_SHUTDOWN_STAT, which a start resets (R11), shows the pass of the last shut-down test, which the steward keeps (R447, log
entry 95). -/
def showPass : Eff := .obs fun d => .all [setF F.TST_SHUTDOWN_STAT_tested 0 d.lastPass.1,
  setF F.TST_SHUTDOWN_STAT_failed 0 d.lastPass.2.1, setF F.TST_SHUTDOWN_STAT_oldest 0 d.lastPass.2.2]

/-- Step 6: the three records are resolved and applied, the outcomes shown, what was merged or rebuilt reported, and the
binding formed (R22, R437 to R439). A loss of keys before this start is logged (R473, log entry 143). After a start that followed a loss of VIN without orderly shut-down, 600 s are added to
the charge (R443). -/
def stepSix (e : Env) : Eff := .obs fun d =>
  let m := resolveCopies mergeMargin rebuiltMargin (mapCopies d.nvMargin)
  let s := resolveCopies mergeSpare [] (mapCopies d.nvSpare)
  let l := resolveCopies mergeLog [] (logCopies d.nvLog)
  let copies (seq : Nat) (body : List (Nat × Nat)) : List MapCopy := List.replicate 3 ⟨true, seq, body⟩
  let head := ((l.2.2.getLast?).map fun x => x.seq + 1).getD 0
  .all [
    putNvMargin (copies m.2.1 m.2.2), putNvSpare (copies s.2.1 s.2.2), putNvLog (List.replicate 3 ⟨true, l.2.1, l.2.2⟩),
    setF F.STW_RECORDS_margin 0 m.1, setF F.STW_RECORDS_spare_map 0 s.1, setF F.STW_RECORDS_fault_log 0 l.1,
    putFlog l.2.2, putFlogHead head, putFlogSaved head, setF F.STW_FLOG_PTR_head 0 head,
    (if s.1 == 4 then rebuiltSpare e else takeSpareMap s.2.2),
    bindMarked,
    .upd (.appliedDrop fun _ => true), .obs (fun d' => .each (mapKeys d'.retired fun _ b => b) fun k => putApplied k true),
    keepDieSpare, .obs (fun d' => .when (!sameBody (spareBody d') s.2.2) saveSpare),
    showSpare, .obs (fun d' => refreshGen (bindingMoved d') []),
    applyMargin m.2.2, .each (List.range 153) (fun i => .obs fun d' => .when (d'.markedAt i) (setF F.AGE_CLU_marked i 1)),
    showPass,
    .when d.unclean (.all [.obs fun d' => setPeak (d'.peakMs + 600000), putUnclean false, saveMargin]),
    .each [m.1, s.1, l.1] (fun o => .when (o == 2 || o == 4) (logService 0 0xFFFF 0xFFFF o)),
    .when (m.1 == 4 || s.1 == 4 || l.1 == 4) (setF F.STW_BOOT_rebuilt 0 1),
    .when (boardRecord d).isNone (logService 0 0xFFFF 0xFFFF 0),
    .when (d.fld F.STW_STATE_keys_lost 0 == 1) (logError { severity := 0, source := 3 }),
    .when (d.fld F.STW_FW_STATUS_fallback 0 == 1) (logService 0 0xFFFF 0xFFFF (d.fld F.STW_FW_STATUS_fail_code 0))]

/-- What the phases failed before show of a regulator: the spare phase has the place of the first, two derate it, and with
three it is off (R415). -/
def showPhases (r : Nat) : Eff := .obs fun d =>
  let bad := (List.range 8).filter fun p => d.retiredAt (siteKey 7 (r * 8 + p))
  .when (bad != []) <| .all [
    setF F.PWR_PHASE_failed r (bad.foldl (fun m p => m + 2 ^ p) 0),
    .when (!bad.contains 7) (spendPhase r (bad.headD 0)),
    .when (2 ≤ bad.length) (setF F.PWR_PHASE_derated r 1), .when (3 ≤ bad.length) (setF F.PWR_PHASE_off r 1)]

/-- The supply cap of a board, in 10 W (R416). -/
def supplyCap (d : Device) : Nat :=
  match boardNum d 6 1 0 with
  | 1 => 600
  | 2 => 720
  | 3 => 960
  | _ => 500

/-- Step 7: the regulators come up with the phases failed before; the caps of R416 are set, then the phases that fail now are
handled under R415. Regulators of unbound or retired loads stay off (R27), and clusters are left gated. The shell of a die site
stays up while its stack or its router serves, whatever became of its compute region (R12, R25). -/
def stepSeven (e : Env) : Eff := .all [
  .each (List.range 182) showPhases,
  .obs fun d =>
    let off1 := ((List.range 8).filter fun r => d.fld F.PWR_PHASE_off r == 1).length
    let cap := max 100 ((if coldPlateOk d then 500 else 400) - 100 * off1)
    .all [
      setF F.PWR_LIMIT_supply 0 (supplyCap d), putSustCap cap, setF F.PWR_LIMIT_sustained 0 cap,
      .when (!coldPlateOk d) (logService 1 0xFFFF 0xFFFF 0),
      .each (List.range 153) fun q =>
        if (clusterOfSite d q).isSome then setF F.CLK_CLU_STAT_state q 2
        else .seq (setF F.CLK_CLU_STAT_state q 4) (setF F.PWR_PHASE_off (8 + q) 1),
      .each (List.range 16) fun s => .when (siteBad d 6 s && siteBad d 3 s) (setF F.PWR_PHASE_off (161 + s) 1),
      .when (dieOfSite d 16).isNone (setF F.PWR_PHASE_off 177 1)],
  refreshBoostOk, .each e.phases fun x => phaseFail (x / 8) (x % 8)]

/-- Step 8: DRAM is trained, with the lanes found to fail, and the flash tier is mounted (R238, R259). -/
def stepEight (e : Env) : Eff := .seq (trainAll e.dq e.ca) flashMount

/-- Step 9: codec firmware is in every bound codec engine, its version a free value; PRT_SVC_MODE is 0; and the functions are
configuration-ready, which a Device Readiness Status message says (R490). -/
def stepNine (e : Env) : Eff := .obs fun d => .all [
  withFree fun v => .each ((List.range 34).filter fun k => (dieOfSite d (k / 2)).isSome && !siteBad d 4 k) fun k =>
    .seq (setF F.VCE_CTRL_fw_ready k 1) (setF F.VCE_CTRL_fw_version k v),
  setReg .PRT_SVC_MODE 0 0, setF F.STW_BOOT_time_ms 0 (min 65535 e.ms),
  modSent (· ++ [.management 1 0 [0], .management 1 0 [1]])]

/-- A PCI Express port begins to train; what it trains to is a free value (R479, R486). -/
def trainPcie (q : Nat) : Eff := withFree fun k => .all [
  putPciHeld q false, setF F.STW_PCIE_state q 1, setF F.STW_PCIE_rate q (k % 6), setF F.STW_PCIE_width q (2 ^ (k / 6 % 5)),
  setF F.STW_PCIE_flit q (k / 30 % 2)]

/-- Ports whose PERST# was released before begin to train (R501). -/
def trainHeld : Eff := .obs fun d => .each ((List.range 2).filter d.pciHeldAt) trainPcie

/-- Recovery mode (R485): only port 0, and every link down with reason 7. -/
def enterRecovery : Eff := .seq
  (.each (List.range 96) fun i => .seq (setF F.LNK_PORT_STATUS_state i 3) (setF F.LNK_PORT_STATUS_reason i 7))
  (setF F.STW_BOOT_step 0 4)

/-- Steps 3 to 10 of R477 from a device whose DEV domain has reset. -/
def startSteps (e : Env) : Eff := .all [
  haltInputs e.haltA e.haltB, stepThree, trainHeld, readBoard e.board e.plate, stepFive e,
  .obs fun d => if d.fld F.STW_BOOT_recovery 0 == 1 then .seq enterRecovery (setF F.STW_PCIE_state 0 3) else .all [
    stepSix e, stepSeven e, stepEight e, stepNine e,
    setF F.PWR_WAKE_last 0 0xF, setF F.STW_BOOT_step 0 10, refreshIdle]]

/-- POWER_ON_SEQUENCE (R477): the start from VIN valid, or of a device right after reset. Without either source of its
clock the steward does not boot (R524). -/
def powerOn (e : Env) : Eff := .obs fun d =>
  let fresh : Bool := d.off == 0 && d.fld F.STW_BOOT_step 0 == 0 && d.fld F.STW_BOOT_recovery 0 == 0
  .when (e.aonClock != 0 && ((d.off == 1 && d.vin.valid) || fresh)) <| .all [
    .when fresh clearVolatile, stepTwo e, startSteps e]

/-- A DEV reset (R491): every context is torn down, the DEV domain and what it does not keep reset, and steps 3 to 10 run
again; the ports that were not down train again. -/
def devResetNow (e : Env) : Eff := .obs fun d => .all [
  .each ((List.range 1024).filter fun c => (ctxPart d c).isSome && d.fld F.CTX_RUN_state c != 5) fun c => tearWhole c codeOwner,
  .each ((List.range 2).filter fun q => d.fld F.STW_PCIE_state q != 0) fun q => putPciHeld q true,
  clearVolatile, drawNonce fun _ => .skip, startSteps e]

/-- DEV_RESET (R491): a write of STW_DEVRESET with go and key 0xA7. -/
def devReset (rq v : Nat) (e : Env) : Eff := .obs fun d =>
  if mayWrite d rq .STW_DEVRESET 0 == 0 then denied
  else .when (bit v 31 == 1 && bits v 7 0 == 0xA7) (devResetNow e)

/-! ### Firmware (R483 to R485) -/

/-- A write of STW_FW_CTRL with go (R484): its fields are stored (R10); while an operation is in progress none is started, and
the result is BUSY. -/
def fwCommand (rq v : Nat) (run : Device → Eff) : Eff := .obs fun d =>
  if mayWrite d rq .STW_FW_CTRL 0 == 0 then denied
  else .seq (storeWrite rq .STW_FW_CTRL 0 v) <|
    if d.fld F.STW_FW_CTRL_busy 0 == 1 then setF F.STW_FW_CTRL_result 0 7 else run d

/-- The value written to STW_FW_CTRL. -/
def fwValue (op slot : Nat) : Nat := 2147483648 + op * 536870912 + slot * 134217728

/-- An operation is in progress; FW_CTRL_COMPLETE gives its result. -/
def fwBusy (op slot code : Nat) : Eff := .seq (setF F.STW_FW_CTRL_busy 0 1) (putFwPending (some (op, slot, code)))

/-- FW_WRITE_SLOT (R484): op 1 checks the image in DRAM and programs the slot; `flashOk` is false where erase, program or
read-back fails. -/
def fwWriteSlot (rq slot : Nat) (flashOk : Bool) : Eff := fwCommand rq (fwValue 1 slot) fun d =>
  let a := d.fld F.STW_FW_SRC_addr 0 * 4096
  let len := num (d.bytes a 256) 8 4
  let n := if len % 4096 == 0 && 256 ≤ len && len ≤ 0x1000000 then len else 256
  let img := d.bytes a n
  let code := (firstFail [(d.fld F.STW_FW_STATUS_running_slot 0 != slot, 8), (dramRange a n && !d.poisoned a n, 9),
    (fwCheck d img == 0, fwCheck d img), (flashOk, 6)]).getD 0
  .seq (.when (code == 0) (.seq (.upd (.bootFlashDrop fun k => k / 0x1000000 == slot)) (writeFlash (slotBase slot) img)))
    (fwBusy 1 slot code)

/-- FW_PREFER_SLOT (R484): op 2 writes boot control to prefer a slot that passes R482. -/
def fwPreferSlot (rq slot : Nat) (flashOk : Bool) : Eff := fwCommand rq (fwValue 2 slot) fun d =>
  let code := (firstFail [(slotCheck d slot == 0, 1), (flashOk, 6)]).getD 0
  .seq (.when (code == 0) (preferSlot slot)) (fwBusy 2 slot code)

/-- FW_COMMIT_MINVER (R483): op 3 raises STW_FW_MINVER to the running image's security_version. -/
def fwCommitMinver (rq slot : Nat) : Eff := fwCommand rq (fwValue 3 slot) fun d => .seq
  (setF F.STW_FW_MINVER_minver 0 (max (d.fld F.STW_FW_MINVER_minver 0) d.fwVersion)) (setF F.STW_FW_CTRL_result 0 0)

/-- FW_CTRL_COMPLETE (R484). -/
def fwCtrlComplete : Eff := .obs fun d =>
  match d.fwPending with
  | none => .skip
  | some (_, _, code) => .all [putFwPending none, setF F.STW_FW_CTRL_busy 0 0, setF F.STW_FW_CTRL_result 0 code]

/-- RECOVERY_CHUNK (R485): in recovery mode the driver writes a chunk of the image into slot A; after the last, slot A is
checked, boot control prefers it, and a DEV reset follows. A slot A that fails leaves recovery mode as it is. -/
def recoveryChunk (offset : Nat) (data : List Byte) (last : Bool) (e : Env) : Eff := .obs fun d =>
  .when (d.off == 0 && d.fld F.STW_BOOT_recovery 0 == 1 && offset + data.length ≤ 0x1000000) <| .all [
    putRecBuf data, putRecCmd (offset, data.length), writeFlash offset data,
    .when last <| .obs fun d => .when (slotCheck d 0 == 0) (.seq (preferSlot 0) (devResetNow e))]

end Sys2Proof.Machine
end

