-- ==== Sys2Proof/Machine/Host.lean ====
section
/-! DEFINITION. The PCI Express ports, resets from the host, doorbell pages, and management messages
(20_bring_up_and_host_interface.md R479, R486 to R496). -/

namespace Sys2Proof.Machine

/-! ### Ports (R479, R490, R491) -/

/-- PERST_RELEASE (R479): training begins where the reference clock is there, and ends at a rate, a width (2^`width` lanes)
and a mode; before step 2 it waits for that (R501). -/
def perstRelease (q : Nat) (ref : Bool) (rate width : Nat) (flit : Bool) : Eff := .obs fun d =>
  if d.off == 1 || d.off == 2 then .when ref (putPciHeld q true)
  else .when (d.off == 0 && ref) <| .all [
    setF F.STW_PCIE_state q 1, setF F.STW_PCIE_rate q rate, setF F.STW_PCIE_width q (2 ^ width),
    setF F.STW_PCIE_flit q (if flit then 1 else 0)]

/-- A completion to a port's function (OutMsg.completion): status 0 successful, 1 unsupported request, 2 request retry, 3
poisoned. -/
def complete (q fn status value : Nat) : Eff := modSent (· ++ [.completion (q * 1024 + fn) status value])

/-- CONFIG_REQUEST (R490): before step 9 it completes with Request Retry Status; then it is served by a function the port
has. The spec does not hold the configuration space, so what a read returns is a free value. -/
def configRequest (q fn : Nat) (write : Bool) : Eff := .obs fun d =>
  let st := d.fld F.STW_PCIE_state q
  .when (d.off == 0 && st != 0) <| .seq (.when (st == 1) (setF F.STW_PCIE_state q 2)) <|
    if d.fld F.STW_BOOT_step 0 < 9 && st != 3 then complete q fn 2 0
    else if fn != 0 && (d.fld F.STW_PCIE_vfs q < fn || st == 3) then complete q fn 1 0
    else if write then complete q fn 0 0 else withFree fun v => complete q fn 0 v

/-- VF_ENABLE (R490): the port's virtual functions 1 to `n` are enabled. -/
def vfEnable (q n : Nat) : Eff := .obs fun d =>
  .when (d.off == 0 && 9 ≤ d.fld F.STW_BOOT_step 0 && d.fld F.STW_PCIE_state q == 2) (setF F.STW_PCIE_vfs q n)

/-- The descriptors of a context's DMA rings with host-space transfers not yet complete end HOST_ERROR (R491). -/
def failHost (c : Nat) : Eff := .obs fun d => .each (ctxRings d c) fun n =>
  .when (ringKind n == .dma || ringKind n == .link) <| modRings n fun xs => xs.map fun x =>
    if x.status.isNone && (x.srcSpace == 1 || x.dstSpace == 1) then { x with status := some 4 } else x

/-- The bound contexts among those given are torn down with OWNER, host-space transfers ending first. -/
def tearOwned (cs : List Nat) : Eff := .each cs fun c => .obs fun d =>
  .when ((ctxPart d c).isSome && d.fld F.CTX_RUN_state c != 5) (.seq (failHost c) (tearWhole c codeOwner))

/-- The partitions owned by a function among those `p` accepts, by function number. -/
def ownedParts (d : Device) (p : Nat → Bool) : List Nat :=
  (List.range 32).filter fun k => d.fld F.PRT_CTRL_state k == 1 && p (d.fld F.PRT_CTRL_owner_fn k)

/-- What a reset of port q does to the device (R491): its contexts end, its partitions are reset, and its functions return
to their reset state. -/
def portResets (q : Nat) : Eff := .all [
  tearOwned ((List.range 512).map (q * 512 + ·)),
  .obs fun d => .each (ownedParts d fun fn => fn / 1024 == q) resetPartition,
  setF F.STW_PCIE_vfs q 0, setReg .STW_PCIE_BAR4 q 0, .upd (.msixDrop fun k => k / 4 == q)]

/-- The functions of the ports are there, in any power state but OFF, and not in recovery mode (R485, R501). -/
def hosted (d : Device) : Bool := d.off == 0 && d.fld F.STW_BOOT_recovery 0 == 0

/-- PORT_RESET (R491): PERST# (`kind` 0), a hot reset (1) or link down (2). A hot reset trains the link again. -/
def portReset (q kind : Nat) : Eff := .obs fun d => .when (d.off == 0) <|
  .seq (.when (hosted d) (portResets q)) (setF F.STW_PCIE_state q (if kind == 1 && d.fld F.STW_PCIE_state q != 0 then 1 else 0))

/-- PF_FLR (R491): as a port reset; the link stays up. -/
def pfFlr (q : Nat) : Eff := whileIt hosted (portResets q)

/-- VF_FLR (R491): the context that virtual function `v` + 1 exposes is torn down, its doorbell bindings and CTX-domain
registers reset, and a partition the function owns is reset. -/
def vfFlr (q v : Nat) : Eff := .obs fun d =>
  let c := q * 512 + v
  .when (hosted d) <| .all [
    tearOwned [c],
    resetCtxRegs c,
    resetRegs (fun r i => (r == Reg.CTX_RUN.code || r == Reg.CTX_FAULT.code) && i == c), putCtxs c {},
    .upd (.dbBindDrop fun k => k / 256 == c),
    .obs fun d => .each (ownedParts d fun fn => fn == q * 1024 + v + 1) resetPartition]

/-! ### BAR4 (R488) -/

/-- A device physical byte of DRAM in service. -/
def dramServed (d : Device) (a : Nat) : Bool :=
  a < 281474976710656 && inDram a && !groupRetired d (groupOf a) && !inHole d (groupOf a) ((a - 0x1000000000) % 0xC0000000)

/-- BAR4_ACCESS (R488): a read of `len` bytes, or a write of `data`, at an offset of port q's BAR4. Outside DRAM it completes
as an Unsupported Request; a poisoned read completes poisoned; a write to a Critical stack is held, and nothing happens until
it comes again (R501). -/
def bar4Access (q offset len : Nat) (data : Option (List Byte)) : Eff := .obs fun d =>
  let a := d.fld F.STW_PCIE_BAR4_base q * 1073741824 + offset
  let as := (List.range ((data.map (·.length)).getD len)).map (a + ·)
  if !as.all (dramServed d) then complete q 0 1 0
  else if anyHeld d as then .skip
  else match data with
    | some bs => store as bs
    | none => if anyPoison d as then complete q 0 3 0 else complete q 0 0 (fromLE (d.bytesAt as))

/-! ### Doorbell pages (R493, R494) -/

/-- The ring a binding names, of a kind of R494: some ring number, or a sequence-unit ring as none. -/
def boundRing (d : Device) (kind unit ring : Nat) : Option (Option Nat) :=
  match kind with
  | 0 => if ring < 512 && unit < 16 then (dieSite d unit).map fun s => some (dmaRing s ring) else none
  | 1 => if ring < 256 && unit < 4 then some (some (linkRing unit ring)) else none
  | 2 => if ring < 64 && unit < 4 then some (some (colRing unit ring)) else none
  | 3 => if ring < 8 then (dieSite d (unit / 2)).map fun s => some (vceRing (2 * s + unit % 2) ring) else none
  | 4 => if ring < 8 && unit < 16 then (dieSite d unit).map fun s => some (ingRing s ring) else none
  | 5 => if ring < 64 then some none else none
  | _ => none

/-- The ring belongs to the context: to its partition and to it (R494). -/
def ringOfCtx (d : Device) (c ring : Nat) (n : Option Nat) : Bool :=
  match n, ctxPart d c with
  | some n, some p => ringPart d n == some p && ringCtx d n == c
  | none, some p => d.fld F.PRT_SEQ_RING_BASE_enable (p * 64 + ring) == 1 && seqCtx d p ring == c
  | _, none => false

/-- The ring bound to a doorbell slot that still belongs to its context: its number, or none for a sequence-unit ring, and
its place in its unit. -/
def slotRing (d : Device) (c slot : Nat) : Option (Option Nat × Nat) :=
  (d.dbBindAt (c * 256 + slot)).bind fun b =>
    (boundRing d (b / 32768) (b / 1024 % 32) (b % 1024)).bind fun n =>
      if ringOfCtx d c (b % 1024) n then some (n, b % 1024) else none

/-- DOORBELL_PAGE_WRITE (R493): a write at slot × 16 of the page of virtual function `v` + 1 rings the bound ring, or is discarded
and counted. A function whose context is not bound discards it (R487). -/
def doorbellPageWrite (q v slot : Nat) (fixed lost : List Nat) : Eff := .obs fun d =>
  let c := q * 512 + v
  match ctxPart d c with
  | none => .skip
  | some p =>
    match slotRing d c slot with
    | none => addSat F.STW_HIF_DENY_doorbells 0 1
    | some (some n, _) => ringFetch n fixed lost
    | some (none, r) => seqTailPoll p r

/-- The requester may bind doorbell slots of a context: the driver of the context's physical function, the owner of its
partition, or the steward (R494). -/
def mayBind (d : Device) (rq c : Nat) : Bool := isSteward rq || rq == rqOf (c / 512 * 1024) || ownsCtx d rq c

/-- A write of STW_DB_BIND that acts through a bit: its result (R494). -/
def dbCommand (rq v b : Nat) (run : Device → Nat × Eff) : Eff := writeAct rq .STW_DB_BIND 0 v b <| .obs fun d =>
  let (code, e) : Nat × Eff := if mayBind d rq (bits v 58 49) then run d else (4, .skip)
  .when (bit v b == 1) (.seq e (setF F.STW_DB_RESULT_result 0 code))

/-- DB_BIND (R494): bind a slot of a context to a ring of the context, where the slot is free. -/
def dbBindWrite (rq v : Nat) : Eff := dbCommand rq v 63 fun d =>
  let c := bits v 58 49
  let key := c * 256 + bits v 48 41
  let unit := bits v 40 36
  let ring := bits v 35 26
  let mine : Bool := (boundRing d (bits v 61 59) unit ring).any (ringOfCtx d c ring)
  if !mine then (1, .skip) else if (d.dbBindAt key).isSome then (2, .skip)
  else (0, putDbBind key (some (bits v 61 59 * 32768 + unit * 1024 + ring)))

/-- DB_UNBIND (R494): free a slot of a context. -/
def dbUnbindWrite (rq v : Nat) : Eff := dbCommand rq v 62 fun d =>
  let key := bits v 58 49 * 256 + bits v 48 41
  if (d.dbBindAt key).isSome then (0, putDbBind key none) else (3, .skip)

/-! ### Management messages (R495, R496) -/

/-- The management responder is served: the always-on domain is up, or the device is OFF with VIN present (R420, R495). -/
def managed (d : Device) : Bool := d.off == 0 || d.off == 2

/-- Waiting events go to the receiver (R496): message 2, on no transport in particular. -/
def deliverEvents : Eff := .obs fun d =>
  match d.receiver with
  | some r => .seq (modSent (· ++ d.pldmEvents.map fun e => .management r 2 [e])) (putPldmEvents [])
  | none => .skip

/-- A request to the steward over a transport (0 SMBus/I²C, 1 and 2 VDM on port 0 and 1): it is served, waiting events are
delivered, and in REST the device wakes if source 1 is enabled (R424). -/
def managementRequest (act : Eff) : Eff := .obs fun d => .when (managed d) <| .all [
  act, deliverEvents, .when (d.off == 0) (wakeOrAbandon 1 (wakeWhole 1))]

/-- An answer over a transport: message 0 with its status (0 done, 1 unsupported, 2 not ready) and value. -/
def mgmtAnswer (transport status value : Nat) : Eff := modSent (· ++ [.management transport 0 [status, value]])

/-- The endpoint ID field of a transport. -/
def eidField : Nat → Fld
  | 0 => F.STW_MGMT_eid_smbus
  | 1 => F.STW_MGMT_eid_vdm0
  | _ => F.STW_MGMT_eid_vdm1

/-- MCTP_CONTROL (R495): a message of type `kind`. A control message is served: Set Endpoint ID, command 1, assigns the
transport's ID; PLDM messages have commands of their own here; every other type is answered unsupported. -/
def mctpControl (transport kind command eid : Nat) : Eff := managementRequest <| .obs fun d =>
  if 2 ≤ kind then mgmtAnswer transport 1 kind
  else if kind == 0 && command == 1 then .seq (setF (eidField transport) 0 eid) (mgmtAnswer transport 0 eid)
  else mgmtAnswer transport 0 (d.fld (eidField transport) 0)

/-- The reading of a sensor (R496); none for an ID the repository does not hold. -/
def sensorReading (d : Device) (id : Nat) : Option Nat :=
  match id with
  | 1 => some (d.fld F.PWR_MEAS_power 0)
  | 2 => some (d.fld F.PWR_MEAS_vin 0 / 100)
  | 3 => some (d.fld F.PWR_MEAS_iin 0 / 100)
  | 4 => some (d.fld F.PWR_MEAS_tj 0)
  | 30 => some (if d.off == 2 then 0 else powerState d)
  | 31 => some (if d.fld F.HALT_STATUS_fault 0 == 1 then 2 else d.fld F.HALT_STATUS_halted 0)
  | _ => if 5 ≤ id && id ≤ 20 then some (d.fld F.DRM_STACK_STATUS_temp (id - 5))
    else if 21 ≤ id && id ≤ 24 then some (d.fld F.FLS_STACK_STATUS_temp (id - 21)) else none

/-- PLDM_SENSOR_READ (R496). -/
def pldmSensorRead (transport id : Nat) : Eff := managementRequest <| .obs fun d =>
  match sensorReading d id with
  | some v => mgmtAnswer transport 0 v
  | none => mgmtAnswer transport 1 id

/-- PLDM_SET_EVENT_RECEIVER (R496). -/
def pldmSetEventReceiver (transport eid : Nat) : Eff := managementRequest <| .all [
  putReceiver (some eid), setF F.STW_MGMT_receiver 0 1, mgmtAnswer transport 0 eid]

/-- PLDM_POWER_STATE (R496): effecter 40 requests REST (1), RUN (2) or OFF (3). In OFF with VIN present RUN lets the power-on
sequence start (R426). While a request is in progress it is answered not ready (R501). -/
def pldmPowerState (transport target : Nat) : Eff := .obs fun d => .when (managed d) <| .all [
  (if d.off == 2 then .seq (.when (target == 2) (.seq (putOff 1) (putVin ⟨true, 0⟩))) (mgmtAnswer transport 0 target)
  else if powerState d == 4 || powerState d == 5 || powerState d == 6 then mgmtAnswer transport 2 target
  else .seq (powerRequest target 1) (mgmtAnswer transport 0 target)),
  deliverEvents]

/-- PLDM_CLEAR_HALT (R496): effecter 41 acts as HALT_CTRL.clear. -/
def pldmClearHalt (transport : Nat) : Eff := managementRequest <| .obs fun d =>
  .when (d.off == 0) (.seq clearHalt (mgmtAnswer transport 0 0))

end Sys2Proof.Machine
end

