-- ==== Sys2Proof/Machine/RegAccess.lean ====
section
/-! DEFINITION. The register space (21_register_map.md R502 to R508): which register an address names, what a read of it
returns and clears, what a write of it does, access sizes, and the context area of a virtual function (R493).

An address is an offset in the register space, or in the context area. Instances are numbered as Rights.lean says. -/

namespace Sys2Proof.Machine

/-! ### Blocks (R503, R504) -/

/-- The registers of a block by their offsets in it. -/
abbrev Block := List (Nat × Reg)

/-- The STW block: the halt registers are part of it. -/
def stwBlock : Block := [(0x0, .STW_IDENT), (0x4, .STW_STATE), (0x8, .STW_CAPS), (0x408, .STW_SPARE_GEN),
  (0x500, .STW_RECORDS), (0x508, .STW_FLOG_BASE), (0x510, .STW_FLOG_PTR), (0x514, .STW_STEWARD), (0x518, .STW_AVAIL),
  (0x600, .STW_BOOT), (0x604, .STW_FW_STATUS), (0x608, .STW_FW_CTRL), (0x610, .STW_FW_SRC), (0x618, .STW_FW_MINVER),
  (0x640, .STW_DB_BIND), (0x648, .STW_DB_RESULT), (0x64C, .STW_HIF_DENY), (0x650, .STW_DEVRESET), (0x654, .STW_MGMT),
  (0x700, .HALT_STATUS), (0x704, .HALT_CTRL)]

/-- The PWR block. -/
def pwrBlock : Block := [(0x0, .PWR_STATE), (0x4, .PWR_LIMIT), (0x8, .PWR_GOV_STAT), (0xC, .PWR_GOV_CNT),
  (0x10, .PWR_MEAS), (0x18, .PWR_WAKE), (0x1C, .PWR_WAKE_TIMER), (0x20, .PWR_TIMES)]

/-- The CLK block. -/
def clkBlock : Block := [(0x0, .CLK_AON), (0x8, .CLK_AON_CNT)]

/-- The TST block. -/
def tstBlock : Block := [(0x0, .TST_SHUTDOWN_BUDGET), (0x4, .TST_SHUTDOWN_STAT), (0x10, .TST_CMD),
  (0x14, .TST_STATUS), (0x18, .TST_RESULT)]

/-- The AGE block. -/
def ageBlock : Block := [(0x0, .AGE_STATUS), (0x4, .AGE_PEAK)]

/-- The SEC block. -/
def secBlock : Block := [(0x0, .SEC_KEYSTATE), (0x4, .SEC_ALARM_POLICY), (0x8, .SEC_ALARM_FUSE), (0xC, .SEC_TAMPER),
  (0x10, .SEC_ROOT), (0x30, .SEC_LINK_STAT), (0x34, .SEC_DEBUG)]

/-- A command window of SEC (R463). -/
def secWindow : Block := [(0x0, .SEC_CMD), (0x8, .SEC_ARG), (0x10, .SEC_STATUS)]

/-- The PRT block of a partition. -/
def prtBlock : Block := [(0x0, .PRT_CTRL), (0x4, .PRT_SHAPE), (0x30, .PRT_SHAPE_VCE), (0x34, .PRT_SHAPE_LNK),
  (0x38, .PRT_SHAPE_STR), (0x3C, .PRT_SHAPE_GRT), (0x100, .PRT_SCHED), (0x104, .PRT_SCHED_STAT),
  (0x108, .PRT_EVT_SPILL), (0x110, .PRT_EVT_STAT), (0x118, .PRT_EVT_SPILL_PTR), (0x800, .PRT_PFX_BASE),
  (0x808, .PRT_PFX_CTRL), (0x810, .PRT_PFX_EVLOG), (0x818, .PRT_PFX_EVLOG_PTR), (0x820, .PRT_PFX_USE),
  (0x824, .PRT_PFX_REFD), (0x828, .PRT_PFX_HITS), (0x82C, .PRT_PFX_MISSES), (0x830, .PRT_PFX_EVENTS),
  (0x840, .PRT_SEQ_DOORBELL), (0x844, .PRT_SEQ_STAT)]

/-- The CTX block of a context. -/
def ctxBlock : Block := [(0x0, .CTX_BIND), (0x4, .CTX_PRIO), (0x8, .CTX_RUN), (0x10, .CTX_SAVE), (0x18, .CTX_SEED),
  (0x20, .CTX_FAULT), (0x28, .CTX_STAT)]

/-- An entry of the stream table. -/
def strBlock : Block := [(0x0, .STR_ENTRY), (0x8, .STR_ENTRY_FMT), (0xC, .STR_STAT)]

/-- The FIG block of a partition. -/
def figBlock : Block := [(0x0, .FIG_SRC), (0x8, .FIG_LOAD), (0xC, .FIG_STATUS), (0x10, .FIG_DETAIL),
  (0x18, .FIG_AREA), (0x20, .FIG_SWITCH), (0x24, .FIG_SWITCH_TIME), (0x28, .FIG_DROPPED), (0x2C, .FIG_MINVER)]

/-- The EVT block of a partition. -/
def evtBlock : Block := [(0x0, .EVT_CUE_SEL), (0x4, .EVT_CUE), (0x8, .EVT_CUE_ADD)]

/-- The global LNK block. -/
def lnkBlock : Block := [(0x0, .LNK_DEVICE), (0x4, .LNK_COORD), (0x8, .LNK_SERIAL), (0x10, .LNK_PROM_STATUS),
  (0x14, .LNK_PROM_TIME), (0x18, .LNK_PROM_CTRL), (0x20, .LNK_TOPO_BASE), (0x28, .LNK_FLOW_BASE), (0x30, .LNK_DROPS),
  (0x38, .LNK_FLOW_CTRL)]

/-- The LNK block of a logical link. -/
def portBlock : Block := [(0x0, .LNK_PORT_STATUS), (0x4, .LNK_PORT_NBR), (0x8, .LNK_PORT_ERR), (0xC, .LNK_PORT_RETRY)]

/-- An entry of the group table. -/
def groupBlock : Block := [(0x0, .COL_GROUP), (0x8, .COL_GROUP_KEY), (0xC, .COL_GROUP_STAT), (0x10, .COL_GROUP_LIST),
  (0x18, .COL_GROUP_SIZE)]

/-- The COL block of a partition. -/
def colBlock : Block := [(0x0, .COL_PRT_LIST), (0x8, .COL_PRT_REMOVE)]

/-- A DMA ring. -/
def ringBlock : Block := [(0x0, .DMA_RING_BASE), (0x8, .DMA_RING_OWN), (0xC, .DMA_RING_CFG), (0x10, .DMA_RING_RATE),
  (0x14, .DMA_RING_STAT), (0x18, .DMA_RING_DOORBELL), (0x1C, .DMA_RING_CTRL), (0x20, .DMA_RING_BYTES)]

/-- The FLR block of a die site. -/
def flrBlock : Block := [(0x0, .FLR_WAYMAP), (0x20, .FLR_ECC), (0x24, .FLR_SEM_STAT)]

/-- The DRM block of a stack. -/
def drmBlock : Block := [(0x0, .DRM_TRAIN), (0x4, .DRM_TRAIN_MASK), (0x8, .DRM_STACK_STATUS), (0xC, .DRM_STACK_ECC)]

/-- The DRM block of a partition. -/
def promoBlock : Block := [(0x0, .DRM_PROMO_POOL), (0x8, .DRM_PROMOTE), (0xC, .DRM_PROMO_STAT)]

/-- The global FLS block. -/
def flsBlock : Block := [(0x0, .FLS_CATALOG), (0x8, .FLS_CMD), (0x10, .FLS_ARG_A), (0x18, .FLS_ARG_B),
  (0x20, .FLS_STATUS)]

/-- The FLS block of a flash stack. -/
def flsStackBlock : Block := [(0x0, .FLS_STACK_STATUS), (0x4, .FLS_STACK_WEAR), (0x8, .FLS_SCRUB)]

/-- The FLS block of a partition. -/
def flsRingBlock : Block := [(0x0, .FLS_RING_STAT), (0x4, .FLS_RING_TIME)]

/-- The VCE block of an engine. -/
def vceBlock : Block := [(0x0, .VCE_CTRL), (0x4, .VCE_LOAD), (0x8, .VCE_RC_STAT), (0xC, .VCE_ERR),
  (0x10, .VCE_RETURN)]

/-- The ING block of a die site. -/
def ingBlock : Block := [(0x0, .ING_CTRL), (0x4, .ING_STATUS), (0x8, .ING_STAT), (0x10, .ING_STREAM_BASE),
  (0x18, .ING_STREAM_CTRL)]

/-- The CLU block of a cluster site. -/
def cluBlock : Block := [(0x40, .CLU_MESH_MAP), (0x44, .CLU_HALO_STAT), (0x48, .CLU_MESH_ERR)]

/-- The COR block of a core site. -/
def corBlock : Block := [(0x0, .COR_SEQ_STATUS), (0x4, .COR_FAULT), (0x8, .COR_FAULT_ADDR), (0x10, .COR_BEAT_STAT),
  (0x14, .COR_ITER), (0x24, .COR_SEL_STATE), (0x30, .COR_NUM_STAT), (0x34, .COR_ACC_STAT), (0x38, .COR_RNG_CTR),
  (0x40, .COR_ROW_STAT), (0x44, .COR_BOUND_OVF), (0x48, .COR_ROW_EXC), (0xC0, .COR_TMEM_ECC)]

/-- A collective ring: no rate register and no byte counter (R332). -/
def colRingBlock : Block := ringBlock.filter fun e => e.2 != .DMA_RING_RATE && e.2 != .DMA_RING_BYTES

/-- A job ring of a codec engine or an ingest unit (R356, R374). -/
def jobBlock : Block := [(0x0, .DMA_RING_BASE), (0x8, .DMA_RING_CFG), (0xC, .DMA_RING_STAT), (0x10, .DMA_RING_DOORBELL),
  (0x14, .DMA_RING_CTRL)]

/-- What an address may name: a register and its instance. -/
abbrev Spot := Option (Reg × Nat)

/-- The register of a block at an offset, as instance `i`. -/
def inBlock (b : Block) (i o : Nat) : Spot := (b.find? (·.1 == o)).map fun e => (e.2, i)

/-- The element of an array of `count` blocks that an address lies in, and the offset in it. -/
def inArray (base stride count a : Nat) : Option (Nat × Nat) :=
  if base ≤ a && a < base + stride * count then some ((a - base) / stride, (a - base) % stride) else none

/-- An array of one block each. -/
def blocks (b : Block) (base stride count a : Nat) : Spot :=
  (inArray base stride count a).bind fun (n, o) => inBlock b n o

/-- An array of one register each. -/
def regsOf (r : Reg) (base stride count : Nat) (inst : Nat → Nat) (a : Nat) : Spot :=
  (inArray base stride count a).bind fun (n, o) => if o == 0 then some (r, inst n) else none

/-- The first of several places that names a register. -/
def firstSpot : List Spot → Spot
  | [] => none
  | some x :: _ => some x
  | none :: xs => firstSpot xs

/-- The registers of the steward region (R502): the six blocks and the alias of AGE_VF_TABLE. The table is not read at its
own offsets where SEC and the hole after it lie (R505). SITE_QUERY and SITE_RESULT are the requester's own (R31). -/
def stewardSpot (rq a : Nat) : Spot := firstSpot [
  blocks stwBlock 0 0x800 1 a, regsOf .STW_SITE_QUERY 0x400 4 1 (fun _ => rq) a,
  regsOf .STW_SITE_RESULT 0x404 4 1 (fun _ => rq) a, regsOf .STW_PCIE 0x620 4 2 id a, regsOf .STW_PCIE_BAR4 0x630 8 2 id a,
  blocks pwrBlock 0x2000 0x100 1 a, regsOf .PWR_PHASE 0x2100 4 182 id a,
  blocks clkBlock 0x4000 0x100 1 a, regsOf .CLK_CLU_CTRL 0x4100 8 153 id a,
  if 0x4104 ≤ a then regsOf .CLK_CLU_STAT 0x4104 8 153 id a else none,
  blocks tstBlock 0x6000 0x100 1 a,
  blocks ageBlock 0x8000 0x100 1 a, regsOf .AGE_CLU 0x8100 4 153 id a,
  if a < 0xA000 || 0xB880 ≤ a then regsOf .AGE_VF_TABLE 0x9000 4 4896 id a else none,
  blocks secBlock 0xA000 0x400 1 a, regsOf .SEC_ENDORSE_MIN 0xA020 4 4 id a, regsOf .SEC_CTX_KEY 0xA400 4 1024 id a,
  blocks secWindow 0xB400 0x20 33 a,
  regsOf .AGE_VF_TABLE 0x10000 4 4896 id a]

/-- The registers of the partitions region. -/
def partitionSpot (a : Nat) : Spot := firstSpot [
  blocks prtBlock 0x1000000 0x1000 32 a,
  (inArray 0x1000000 0x1000 32 a).bind fun (p, o) => firstSpot [
    regsOf .PRT_SHAPE_CLU 0x10 4 4 (p * 4 + ·) o, regsOf .PRT_SHAPE_GRP 0x20 4 4 (p * 4 + ·) o,
    regsOf .PRT_SHAPE_SEM 0x40 4 16 (p * 16 + ·) o, regsOf .PRT_REG 0x200 4 16 (p * 16 + ·) o,
    regsOf .PRT_SEQ_RING_BASE 0x900 16 64 (p * 64 + ·) o,
    if 0x908 ≤ o then regsOf .PRT_SEQ_RING_CFG 0x908 16 64 (p * 64 + ·) o else none],
  regsOf .PRT_SVC_MODE 0x10FF000 4 1 id a, blocks ctxBlock 0x1080000 0x40 1024 a, blocks strBlock 0x1100000 0x10 16384 a]

/-- The registers of the figures and cues region. -/
def figureSpot (a : Nat) : Spot := firstSpot [
  blocks figBlock 0x2000000 0x1000 32 a,
  (inArray 0x2000000 0x1000 32 a).bind fun (p, o) => regsOf .FIG_STAGE 0x40 4 8 (p * 8 + ·) o,
  blocks evtBlock 0x2100000 0x100 32 a]

/-- The registers of the links region, but for the routing tables. -/
def linkSpot (a : Nat) : Spot := firstSpot [
  blocks lnkBlock 0x3000000 0x1000 1 a, blocks portBlock 0x3001000 0x20 96 a, blocks groupBlock 0x3100000 0x20 4096 a,
  blocks colBlock 0x3180000 0x100 32 a,
  (inArray 0x31C0000 0x1000 4 a).bind fun (l, o) => (inArray 0 0x40 64 o).bind fun (r, o) => inBlock colRingBlock (colRing l r) o,
  (inArray 0x3C00000 0x4000 4 a).bind fun (l, o) => (inArray 0 0x40 256 o).bind fun (r, o) => inBlock ringBlock (linkRing l r) o]

/-- The registers of the memory region. -/
def memorySpot (a : Nat) : Spot := firstSpot [
  blocks flrBlock 0x4000000 0x1000 17 a,
  (inArray 0x4000000 0x1000 17 a).bind fun (s, o) => regsOf .FLR_WAYOWN 0x10 4 4 (s * 4 + ·) o,
  blocks drmBlock 0x4100000 0x1000 16 a,
  (inArray 0x4100000 0x1000 16 a).bind fun (k, o) => regsOf .DRM_CHAN_STATUS 0x100 4 32 (k * 32 + ·) o,
  blocks promoBlock 0x4200000 0x100 32 a, regsOf .DRM_CTX_MAP 0x4300000 0x10 1024 id a,
  blocks flsBlock 0x4400000 0x100 1 a, blocks flsStackBlock 0x4410000 0x1000 4 a, blocks flsRingBlock 0x4420000 0x100 32 a]

/-- The registers of the media region. -/
def mediaSpot (a : Nat) : Spot := firstSpot [
  blocks vceBlock 0x5000000 0x1000 34 a,
  (inArray 0x5000000 0x1000 34 a).bind fun (e, o) => (inArray 0x100 0x20 8 o).bind fun (r, o) => inBlock jobBlock (vceRing e r) o,
  blocks ingBlock 0x5080000 0x1000 17 a,
  (inArray 0x5080000 0x1000 17 a).bind fun (s, o) => (inArray 0x100 0x20 8 o).bind fun (r, o) => inBlock jobBlock (ingRing s r) o,
  regsOf .ING_PAGE 0x50F0000 8 1 id a]

/-- The registers of a die window (R504). A core site's registers are those of the logical core it serves. -/
def dieSpot (d : Device) (s o : Nat) : Spot :=
  if 0x600000 ≤ o then (inArray 0x600000 0x40 512 o).bind fun (r, o) => inBlock ringBlock (dmaRing s r) o
  else (inArray 0 0x80000 9 o).bind fun (c, o) =>
    if o < 0x10000 then inBlock cluBlock (s * 9 + c) o
    else (inArray 0x10000 0x4000 17 o).bind fun (k, o) => (coreOfSite d ((s * 9 + c) * 17 + k)).bind fun core => firstSpot [
      inBlock corBlock core o, regsOf .COR_LOOP_CNT 0x18 4 3 (core * 3 + ·) o, regsOf .COR_BOUND_VAL 0x80 4 16 (core * 16 + ·) o]

/-- The register that an address of the register space names (R502 to R504); none in a hole. -/
def spotAt (d : Device) (rq a : Nat) : Spot :=
  if a < 0x1000000 then stewardSpot rq a
  else if a < 0x2000000 then partitionSpot a
  else if a < 0x3000000 then figureSpot a
  else if a < 0x4000000 then linkSpot a
  else if a < 0x5000000 then memorySpot a
  else if a < 0x6000000 then mediaSpot a
  else (inArray 0x7000000 0x800000 17 a).bind fun (s, o) => dieSpot d s o

/-- The site of a register is unbound or retired: its registers read 0 and discard writes, but for the steward (R505). -/
def siteGone (d : Device) (r : Reg) (i : Nat) : Bool :=
  let die (s : Nat) : Bool := (dieOfSite d s).isNone
  match r with
  | .CLU_MESH_MAP | .CLU_HALO_STAT | .CLU_MESH_ERR => (clusterOfSite d i).isNone
  | .FLR_WAYMAP | .FLR_ECC | .FLR_SEM_STAT => die i
  | .FLR_WAYOWN => die (i / 4)
  | .VCE_CTRL | .VCE_LOAD | .VCE_RC_STAT | .VCE_ERR | .VCE_RETURN => i / 2 == 16 && die 16
  | .ING_CTRL | .ING_STATUS | .ING_STAT | .ING_STREAM_BASE | .ING_STREAM_CTRL => i == 16 && die 16
  | .DMA_RING_BASE | .DMA_RING_OWN | .DMA_RING_CFG | .DMA_RING_RATE | .DMA_RING_STAT | .DMA_RING_DOORBELL
  | .DMA_RING_CTRL | .DMA_RING_BYTES => match ringKind i with
    | .dma => die (i / 512)
    | .vce => (i - 9984) / 16 == 16 && die 16
    | .ing => (i - 10256) / 8 == 16 && die 16
    | _ => false
  | _ => false

/-- The register a requester reaches at an address (R505). -/
def reached (d : Device) (rq a : Nat) : Spot :=
  (spotAt d rq a).filter fun x => isSteward rq || !siteGone d x.1 x.2

/-- The routing-table entry at an address: link die × 4,096 + entry (R503). -/
def routeSpot (a : Nat) : Option Nat := (inArray 0x3040000 8 16384 a).bind fun (k, o) => if o == 0 then some k else none

/-! ### What a read returns -/

/-- Logical dies present, codec engines, ingest units, DRAM channels and flash stacks in service (STW_CAPS, R24, R25, R244). -/
def capsValue (d : Device) : Nat :=
  let sites := (List.range 16).filterMap (dieSite d)
  let codecs := (sites.flatMap fun s => [2 * s, 2 * s + 1]).filter fun e => !siteBad d 4 e
  let ing := sites.filter fun s => !siteBad d 5 s
  let chans := (List.range 512).filter fun c => !chanRetired d (c / 32) (c % 32) && !stackRetired d (c / 32)
  let flash := (List.range 4).filter fun j => d.fld F.FLS_STACK_STATUS_lost j == 0
  sites.length * 2 ^ 27 + codecs.length * 2 ^ 21 + ing.length * 2 ^ 16 + chans.length * 2 ^ 6 + flash.length * 2 ^ 3

/-- STW_STATE: the mirrors, with keys_lost and service as kept (R509). -/
def stateValue (d : Device) : Nat :=
  let b (n k : Nat) : Nat := if n == 0 then 0 else 2 ^ k
  powerState d * 2 ^ 29 + b (d.fld F.HALT_STATUS_halted 0) 28 + b (d.fld F.HALT_STATUS_fault 0) 27 +
    b (d.fld F.SEC_KEYSTATE_quarantine 0) 26 + b (d.fld F.STW_STATE_keys_lost 0) 25 + b (d.fld F.STW_SPARE_GEN_degraded 0) 24 +
    b (d.fld F.STW_SPARE_GEN_stack_retired 0) 23 +
    (if 2 ≤ d.fld F.STW_RECORDS_fault_log 0 || 2 ≤ d.fld F.STW_RECORDS_spare_map 0 || 2 ≤ d.fld F.STW_RECORDS_margin 0
      then 2 ^ 22 else 0) +
    b (d.fld F.STW_FW_STATUS_fallback 0) 21 + b (d.fld F.STW_BOOT_recovery 0) 20 +
    (if d.fld F.LNK_PROM_STATUS_state 0 == 6 then 2 ^ 19 else 0) + b (d.fld F.STW_STATE_service 0) 18 +
    d.fld F.STW_BOOT_step 0 * 2 ^ 12

/-- The sequencer of a loaded core. -/
def loadedSeq (d : Device) (core : Nat) : Seq :=
  if (d.coresAt core).loaded.isSome then (d.coresAt core).seq else { liveRows := 0 }

/-- COR_SEQ_STATUS. -/
def seqStatus (d : Device) (core : Nat) : Nat :=
  let q := loadedSeq d core
  (d.coresAt core).state * 2 ^ 29 + q.depth * 2 ^ 26 + (if q.reentry then 2 ^ 25 else 0) +
    (if q.bank0.acc then 2 ^ 22 else 0) + (if q.bank1.acc then 2 ^ 23 else 0) + q.ptr

/-- EVT_CUE as a requester reads it: valid, the overflow and the value of the cue selected (R289). -/
def cueValue (d : Device) (rq p : Nat) : Nat :=
  match selectedFor d rq p with
  | some q => 2 ^ 31 + (if (d.cuesAt (cueKey q)).overflow then 2 ^ 16 else 0) + (d.cuesAt (cueKey q)).value
  | none => 0

/-- An ingest unit has a job under way. -/
def unitBusy (d : Device) (rings : List Nat) : Bool := rings.any fun n => (d.ringsAt n).any fun x => x.begun && x.status.isNone

/-- A codec engine has a job under way: one that waits for a pool buffer. -/
def vceBusy (d : Device) (e : Nat) : Bool := (openSessions d e).any fun k => (d.sessionsAt (e * 16 + k)).any fun s => s.job.isSome

/-- What a register reads as: as stored, or as the state it shows (WO fields are never stored, so they read 0). `free` is a
value for what the spec leaves to the hardware: how busy a unit was, and counts of events that no command brings (log entry
30). -/
def readValue (d : Device) (rq : Nat) (r : Reg) (i free : Nat) : Nat :=
  let q := loadedSeq d i
  match r with
  | .STW_STATE => stateValue d
  | .STW_CAPS => if d.fld F.STW_BOOT_step 0 < 6 then 0 else capsValue d
  | .COR_SEQ_STATUS => seqStatus d i
  | .COR_ITER => q.iteration % 2 ^ 32
  | .COR_LOOP_CNT => let c := (loadedSeq d (i / 3)).counters
    c.getD (2 * (i % 3) + 1) 0 * 65536 + c.getD (2 * (i % 3)) 0
  | .COR_SEL_STATE => q.semStatus * 2 ^ 30 + q.liveRows * 65536 + q.dynTrip
  | .COR_RNG_CTR => q.gen % 2 ^ 64
  | .COR_BOUND_VAL => headSlot d (i / 16) (i % 16)
  | .EVT_CUE => cueValue d rq i
  | .VCE_LOAD => vceLoad d i free
  | .VCE_CTRL => putBits (d.reg r i) 28 28 (if vceBusy d i then 1 else 0)
  | .ING_CTRL => putBits (d.reg r i) 29 29 (if unitBusy d ((List.range 8).map (ingRing i)) then 1 else 0)
  | .ING_STATUS => free % 101 * 2 ^ 24 + min 255 (ingQueued d i) * 2 ^ 16 + d.fld F.ING_STATUS_pub_lost i * 256
  | _ => d.reg r i

/-- Clear the RC fields of a register that touch its bits `hi` to `lo`. -/
def clearRc (r : Reg) (i hi lo : Nat) : Eff := .obs fun d =>
  let fs := r.info.fields.filter fun f => f.acc == .rc && lo ≤ f.hi && f.lo ≤ hi
  .when (fs != []) (setReg r i (fs.foldl (fun v f => putBits v f.hi f.lo 0) (d.reg r i)))

/-- Read a register: `k` takes its value, and the RC fields within the bits read clear. Without the right to it, 0 is read
and the denial counted (R489). -/
def readReg (rq : Nat) (r : Reg) (i : Nat) (granted : Bool) (hi lo : Nat) (k : Nat → Eff) : Eff := .obs fun d =>
  if granted || mayRead d rq r i then withFree fun f => .seq (k (readValue d rq r i f)) (clearRc r i hi lo)
  else .seq denied (k 0)

/-! ### What a write does -/

/-- A write that only stores (R10), by a requester with some right to the register. -/
def plainWrite (rq : Nat) (r : Reg) (i v : Nat) : Eff := .obs fun d =>
  if mayWrite d rq r i == 0 then denied else storeWrite rq r i v

/-- A write that acts where bit `b` of it is 1, and only stores where it is 0. -/
def actOn (rq : Nat) (r : Reg) (i v b : Nat) (act : Eff) : Eff := if bit v b == 1 then act else plainWrite rq r i v

/-- A field of a register keeps its value through a write. -/
def keepF (f : Fld) (i : Nat) (e : Eff) : Eff := .obs fun d =>
  let old := d.fld f i
  .seq e (setF f i old)

/-- CTX_RUN: kill, go, stop and clear, in that order where several are written. -/
def ctxRunWrite (rq c v : Nat) : Eff :=
  if bits v 31 28 == 0 then plainWrite rq .CTX_RUN c v else .all [
    .when (bit v 29 == 1) (ctxKill rq c), .when (bit v 31 == 1) (ctxGo rq c), .when (bit v 30 == 1) (ctxStop rq c),
    .when (bit v 28 == 1) (ctxClear rq c)]

/-- CTX_BIND: the steward binds the context; set is written while the context is idle (R394). -/
def ctxBindWrite (rq c v : Nat) : Eff := .seq
  (.when (isSteward rq) (keepF F.CTX_BIND_set c (storeWrite rq .CTX_BIND c v))) (ctxSetWrite rq c v)

/-- FLS_CMD: the library commands by op (R260); ops 0 and 7 are invalid and start nothing. -/
def flsWriteCmd (rq v : Nat) : Eff := .obs fun d =>
  let e := bits v 11 0
  if bit v 31 == 0 || mayWrite d rq .FLS_CMD 0 == 0 then plainWrite rq .FLS_CMD 0 v
  else match bits v 30 28 with
    | 1 => flsOpen rq e
    | 2 => flsWrite rq e
    | 3 => flsCommit rq e
    | 4 => flsAbort rq e
    | 5 => flsRetire rq e
    | 6 => readEntry rq e
    | _ => storeWrite rq .FLS_CMD 0 v

/-- SEC_CMD: the key and attestation commands by op (R463). -/
def secWriteCmd (rq w v : Nat) : Eff :=
  let x := bits v 15 0
  if bit v 31 == 0 then plainWrite rq .SEC_CMD w v
  else match bits v 29 26 with
    | 1 => keyLoad rq w x
    | 2 => keyErase rq w x
    | 3 => keySeal rq w x
    | 4 => keyUnseal rq w x
    | 5 => linkKeyLoad rq w x
    | 6 => attest rq w x
    | 7 => idRead rq w x
    | 8 => rootMsg rq w x
    | _ => secOther rq w v

/-- STW_FW_CTRL: the firmware operations by op (R484), on a boot flash that programs without error; op 0 is invalid and
starts nothing. -/
def fwWriteCtrl (rq v : Nat) : Eff :=
  if bit v 31 == 0 then plainWrite rq .STW_FW_CTRL 0 v
  else match bits v 30 29 with
    | 1 => fwWriteSlot rq (bit v 27) true
    | 2 => fwPreferSlot rq (bit v 27) true
    | 3 => fwCommitMinver rq (bit v 27)
    | _ => plainWrite rq .STW_FW_CTRL 0 v

/-- DMA_RING_CFG: the size is kept between 4 and 16, and while the ring is enabled. -/
def ringCfgWrite (rq n v : Nat) : Eff := .obs fun d =>
  if d.fld F.DMA_RING_BASE_enable n == 1 then keepF F.DMA_RING_CFG_size_log2 n (plainWrite rq .DMA_RING_CFG n v)
  else plainWrite rq .DMA_RING_CFG n (putBits v 20 16 (max 4 (min 16 (bits v 20 16))))

/-- PRT_EVT_SPILL: the size is at most 12 and kept while enable is 1; setting enable empties the ring. -/
def spillWrite (rq p v : Nat) : Eff := .obs fun d =>
  let on := d.fld F.PRT_EVT_SPILL_enable p
  let e := plainWrite rq .PRT_EVT_SPILL p (putBits v 59 56 (min 12 (bits v 59 56)))
  if mayWrite d rq .PRT_EVT_SPILL p == 0 then denied
  else if on == 1 then keepF F.PRT_EVT_SPILL_size_log2 p e
  else .seq e (.when (bit v 0 == 1) (setReg .PRT_EVT_SPILL_PTR p 0))

/-- PWR_LIMIT: the sustained limit is kept between 100 and its cap. -/
def limitWrite (rq v : Nat) : Eff := .obs fun d => .seq
  (plainWrite rq .PWR_LIMIT 0 (putBits v 11 0 (max 100 (min d.sustCap (bits v 11 0))))) refreshBoostOk

/-- PWR_STATE: go acts on the target written with it (R422, R424). -/
def powerWrite (rq v : Nat) : Eff := .obs fun d => .seq (plainWrite rq .PWR_STATE 0 v)
  (.when (bit v 31 == 1 && mayWrite d rq .PWR_STATE 0 != 0) (powerRequest (bits v 27 26) 0))

/-- A write of a register (R10, and the rule of each register). -/
def writeReg (rq : Nat) (r : Reg) (i v : Nat) : Eff :=
  match r with
  | .STW_SITE_QUERY => .obs fun d => if mayWrite d rq r i == 0 then denied else siteQuery rq v
  | .FIG_LOAD => actOn rq r i v 31 (figLoadGo rq i v)
  | .FIG_SWITCH => if bits v 31 30 == 0 then plainWrite rq r i v
    else .seq (.when (bit v 30 == 1) (figSwitchCancel rq i v)) (.when (bit v 31 == 1) (figSwitchGo rq i v))
  | .FIG_STAGE => actOn rq r i v 28 (figStageDiscard rq (i / 8) (i % 8) v)
  | .FIG_MINVER => figMinverWrite rq i v
  | .PRT_PFX_BASE => pfxEnable rq i v
  | .PRT_PFX_CTRL => if bits v 31 30 == 0 then plainWrite rq r i v
    else .seq (.when (bit v 31 == 1) (pfxRekey rq i)) (.when (bit v 30 == 1) (pfxFlush rq i))
  | .PRT_SEQ_DOORBELL => seqDoorbell rq i v
  | .PRT_SEQ_RING_BASE => seqRingEnable rq (i / 64) (i % 64) v
  | .FLR_WAYMAP => waymapWrite rq i v
  | .FLR_WAYOWN => wayownWrite rq (i / 4) (i % 4) v
  | .DRM_TRAIN => actOn rq r i v 31 (dramTrain rq i v)
  | .DRM_PROMOTE => match bits v 31 30 with
    | 1 => promoteExtent rq i v
    | 2 => demote rq i v
    | _ => plainWrite rq r i v
  | .DRM_CTX_MAP => driverMapInval rq i v
  | .FLS_CMD => flsWriteCmd rq v
  | .DMA_RING_BASE => ringEnable rq i v
  | .DMA_RING_CFG => ringCfgWrite rq i v
  | .DMA_RING_DOORBELL => ringDoorbell rq i [] []
  | .DMA_RING_CTRL => if bits v 31 30 == 0 then plainWrite rq r i v
    else .seq (.when (bit v 31 == 1) (ringResume rq i v [] [])) (.when (bit v 30 == 1) (ringCancel rq i v))
  | .EVT_CUE_SEL => cueSelect rq i v
  | .EVT_CUE => cueOverflowClear rq i v
  | .EVT_CUE_ADD => cueAddWrite rq i v
  | .LNK_PROM_CTRL => rewalk rq v
  | .LNK_TOPO_BASE => if isSteward rq then setReg r i (v / 4096 * 4096) else plainWrite rq r i v
  | .LNK_FLOW_CTRL => flowTableSync rq v
  | .COL_PRT_LIST => .obs fun d => if ((d.active i).any fun f => !f.groups.isEmpty) && mayWrite d rq r i != 0
    then keepF F.COL_PRT_LIST_base i (plainWrite rq r i v) else plainWrite rq r i v
  | .COL_PRT_REMOVE => colRemove rq i v
  | .VCE_CTRL => vceEnable rq i v
  | .VCE_RETURN => vceReturn rq i v
  | .ING_CTRL => .obs fun d => .seq (plainWrite rq r i v) (ingEnabled (d.fld F.ING_CTRL_enable i) i)
  | .ING_STREAM_BASE => .obs fun d => .seq (if ingOwned d i && mayWrite d rq r i != 0
    then keepF F.ING_STREAM_BASE_base i (plainWrite rq r i v) else plainWrite rq r i v) (clearHolds i)
  | .ING_STREAM_CTRL => actOn rq r i v 31 (streamSlotReset rq i v)
  | .PRT_CTRL => if bit v 31 == 1 then partitionCreate rq i v else if bit v 30 == 1 then partitionReset rq i v
    else plainWrite rq r i v
  | .PRT_SVC_MODE => svcModeWrite rq v
  | .PRT_EVT_SPILL => spillWrite rq i v
  | .CTX_BIND => ctxBindWrite rq i v
  | .CTX_PRIO => ctxPrioWrite rq i v
  | .PRT_SCHED => .seq (plainWrite rq r i v) (.obs fun d => .each (busyContexts d i) rearbitrate)
  | .CTX_SAVE => .seq (plainWrite rq r i v) (rearbitrate i)
  | .CTX_RUN => ctxRunWrite rq i v
  | .CTX_FAULT => .seq (plainWrite rq r i v) (.obs fun d =>
    .when (d.fld F.CTX_FAULT_valid i == 0 && (d.ctxsAt i).revoked.isEmpty) (setF F.CTX_FAULT_resume_pending i 0))
  | .CTX_SEED => .obs fun d => if d.fld F.CTX_RUN_state i == 0 || mayWrite d rq r i == 0 then plainWrite rq r i v else .skip
  | .PWR_STATE => powerWrite rq v
  | .PWR_LIMIT => limitWrite rq v
  | .CLK_CLU_CTRL => .seq (plainWrite rq r i (putBits (putBits v 31 25 (min 72 (bits v 31 25))) 24 16 (max 1 (bits v 24 16))))
    (stepChange i)
  | .TST_CMD => if bit v 30 == 1 then selfTestAbort rq v else if bit v 31 == 1 then selfTestCmd rq v else selfTestStore rq v
  | .STW_FLOG_BASE => if isSteward rq then setReg r i (bits v 47 16 * 65536) else plainWrite rq r i v
  | .SEC_ALARM_POLICY => alarmPolicyWrite rq v
  | .SEC_CTX_KEY => ctxKeyWrite rq i v
  | .SEC_CMD => secWriteCmd rq i v
  | .STW_FW_CTRL => fwWriteCtrl rq v
  | .STW_DB_BIND => if bit v 63 == 1 then dbBindWrite rq v else if bit v 62 == 1 then dbUnbindWrite rq v
    else plainWrite rq r i v
  | .HALT_CTRL => haltClear rq v
  | _ => plainWrite rq r i v

/-! ### When an access is served (R424, R485, R506) -/

/-- Any access of a requester ends what it holds of a half access (R506). -/
def dropHalves (rq : Nat) : Eff := .seq (putHalfRead rq none) (putHalfWrite rq none)

/-- The registers of the always-on domain (R424, EVT block). -/
def alwaysOn (r : Reg) : Bool :=
  match r with
  | .STW_SITE_QUERY | .STW_SITE_RESULT | .STW_SPARE_GEN | .STW_RECORDS | .STW_FLOG_BASE | .STW_FLOG_PTR | .STW_STEWARD
  | .STW_AVAIL | .STW_BOOT | .STW_FW_STATUS | .STW_FW_CTRL | .STW_FW_SRC | .STW_FW_MINVER | .STW_PCIE | .STW_PCIE_BAR4
  | .STW_DB_BIND | .STW_DB_RESULT | .STW_HIF_DENY | .STW_DEVRESET | .STW_MGMT | .STW_IDENT | .STW_STATE | .STW_CAPS
  | .HALT_STATUS | .HALT_CTRL | .PWR_STATE | .PWR_LIMIT | .PWR_GOV_STAT | .PWR_GOV_CNT | .PWR_MEAS | .PWR_WAKE
  | .PWR_WAKE_TIMER | .PWR_TIMES | .PWR_PHASE | .CLK_AON | .CLK_AON_CNT | .CLK_CLU_CTRL | .CLK_CLU_STAT
  | .TST_SHUTDOWN_BUDGET | .TST_SHUTDOWN_STAT | .TST_CMD | .TST_STATUS | .TST_RESULT | .SEC_KEYSTATE | .SEC_ALARM_POLICY
  | .SEC_ALARM_FUSE | .SEC_TAMPER | .SEC_ROOT | .SEC_ENDORSE_MIN | .SEC_LINK_STAT | .SEC_DEBUG | .SEC_CTX_KEY | .SEC_CMD
  | .SEC_ARG | .SEC_STATUS | .EVT_CUE_SEL | .EVT_CUE | .EVT_CUE_ADD => true
  | _ => false

/-- The device answers register accesses of a requester: not OFF, and of functions not in recovery mode (R485). -/
def answering (d : Device) (rq : Nat) : Bool := d.off == 0 && (isSteward rq || d.fld F.STW_BOOT_recovery 0 == 0)

/-- An access by a requester outside the always-on domain: where the device is up it is served; in REST, and during its entry,
it wakes the device first, if a function makes it and PWR_WAKE lets it; else `lost` happens (R424, R434). -/
def wakeElse (rq : Nat) (lost e : Eff) : Eff := .obs fun d => .when (answering d rq) <|
  let wakes := !isSteward rq && wakeEnabled d 0 && d.fld F.PWR_WAKE_auto 0 == 1
  if powered d then .seq (.when (wakes && powerState d == 4) abandonRest) e
  else if powerState d == 1 && wakes then .seq (wakeWhole 0) e
  else lost

/-- A register access outside the always-on domain. -/
def hostElse (rq : Nat) (lost e : Eff) : Eff := .seq (whileIt (answering · rq) (dropHalves rq)) (wakeElse rq lost e)

/-- A command of a requester on a block outside the always-on domain. -/
def hostDo (rq : Nat) (e : Eff) : Eff := hostElse rq .skip e

/-- A command of a requester on a block of the always-on domain. -/
def aonDo (rq : Nat) (e : Eff) : Eff := .obs fun d => .when (answering d rq) (.seq (dropHalves rq) e)

/-- An access to a register, by where its block lies. -/
def accessDo (rq : Nat) (r : Reg) (lost e : Eff) : Eff := if alwaysOn r then aonDo rq e else hostElse rq lost e

/-- A read that does not wake the device returns 0 and is logged (R424). -/
def lostRead (rq : Nat) : Eff := .seq (reply rq 0) (logError { severity := 0, source := 1 })

/-! ### The context area (R493) -/

/-- The register of a bound ring at an offset of its ring window. -/
def windowReg (n o : Nat) : Spot :=
  match ringKind n with
  | .dma | .link => inBlock ringBlock n o
  | .col => inBlock colRingBlock n o
  | .vce | .ing => inBlock jobBlock n o

/-- The register at an offset of a context's area, and whether the area itself grants the right to read it: the context
window's aliases, and the rings bound to the context's doorbell slots. -/
def areaSpot (d : Device) (c o : Nat) : Option ((Reg × Nat) × Bool) :=
  (ctxPart d c).bind fun p =>
    if o < 0x1000 then none
    else if o < 0x2000 then ([(0x1000, (Reg.CTX_RUN, c)), (0x1008, (.CTX_FAULT, c)), (0x1010, (.CTX_STAT, c)),
      (0x1018, (.DRM_CTX_MAP, c)), (0x1020, (.EVT_CUE_SEL, p)), (0x1024, (.EVT_CUE, p)),
      (0x1028, (.EVT_CUE_ADD, p))].find? (·.1 == o)).map fun e => (e.2, false)
    else (inArray 0x2000 64 256 o).bind fun (s, o) => (slotRing d c s).bind fun b =>
      (b.1.bind fun n => windowReg n o).map fun x => (x, true)

/-- A write at an offset of the area: of a ring window's registers only DOORBELL and CTRL are written. -/
def areaWrites (d : Device) (c o : Nat) : Spot :=
  (areaSpot d c o).bind fun (x, win) =>
    if win && x.1 != .DMA_RING_DOORBELL && x.1 != .DMA_RING_CTRL then none else some x

/-- A read of a doorbell slot: bound, the kind, and the ring's last status and head. A sequence-unit ring has no register
block, and the spec does not say what stands for it: a free value (log entry 30). -/
def slotValue (d : Device) (c s free : Nat) : Nat :=
  match d.dbBindAt (c * 256 + s), slotRing d c s with
  | some b, some (some n, _) => 2 ^ 31 + b / 32768 * 2 ^ 28 + d.fld F.DMA_RING_STAT_last_status n * 65536 +
      d.fld F.DMA_RING_STAT_head n
  | some b, some (none, _) => 2 ^ 31 + b / 32768 * 2 ^ 28 + free % 2 ^ 24
  | some b, none => 2 ^ 31 + b / 32768 * 2 ^ 28
  | none, _ => 0

/-! ### The accesses (R505, R506) -/

/-- Where a requester reads: a register and whether the right to it is granted. `area` means the context area of its own
virtual function, and else the register space. -/
def readSpot (d : Device) (rq : Nat) (area : Bool) (a : Nat) : Option ((Reg × Nat) × Bool) :=
  if area then (ctxOfRq rq).bind fun c => areaSpot d c a else (reached d rq a).map fun x => (x, false)

/-- Where a requester writes. -/
def writeSpot (d : Device) (rq : Nat) (area : Bool) (a : Nat) : Spot :=
  if area then (ctxOfRq rq).bind fun c => areaWrites d c a else reached d rq a

/-- REGISTER_WRITE (R10, R505): a write of the register's own size; a hole discards it. -/
def registerWrite (rq : Nat) (area : Bool) (a v : Nat) : Eff := .obs fun d =>
  match writeSpot d rq area a with
  | some (r, i) => accessDo rq r .skip (writeReg rq r i (if r.info.wide then v % 2 ^ 64 else v % 2 ^ 32))
  | none => aonDo rq .skip

/-- What recovery mode shows (R485): STW_BOOT at 0, the command, and the chunk buffer. The layout of the command is not
stated, so it reads as a free value. -/
def recoveryRead (d : Device) (a free : Nat) : Nat :=
  if a == 0 then d.reg .STW_BOOT 0
  else if 0x10 ≤ a && a < 0x20 then free % 2 ^ 32
  else if 0x8000 ≤ a && a < 0x10000 then num d.recBuf (a - 0x8000) 4
  else 0

/-- A narrow read: the 32-bit word of `a` is the low or the high half of the register there. -/
def wordSpot (d : Device) (rq : Nat) (area : Bool) (a : Nat) : Option (((Reg × Nat) × Bool) × Bool) :=
  match readSpot d rq area a with
  | some x => some (x, false)
  | none => ((readSpot d rq area (a - 4)).filter fun x => 4 ≤ a && x.1.1.info.wide).map fun x => (x, true)

/-- REGISTER_READ_CLEAR (R10, R505, R506): `size` 0 reads a whole register, 1 or 2 so many bytes within a word. A hole reads
0. A slot of the doorbell page and a routing-table entry are read whole. -/
def registerReadClear (rq : Nat) (area : Bool) (a size : Nat) : Eff := .obs fun d =>
  if d.off == 0 && rq == 1 && d.fld F.STW_BOOT_recovery 0 == 1 then withFree fun f => reply rq (recoveryRead d a f)
  else if area && a < 0x1000 then
    match ctxOfRq rq with
    | some c => hostElse rq (lostRead rq) <| .obs fun d => withFree fun f =>
        reply rq (if a % 16 == 0 && (ctxPart d c).isSome then slotValue d c (a / 16) f else 0)
    | none => aonDo rq (reply rq 0)
  else if size == 0 then
    match readSpot d rq area a, if area then none else routeSpot a with
    | some ((r, i), ok), _ => accessDo rq r (lostRead rq) (readReg rq r i ok 63 0 (reply rq))
    | none, some k => hostElse rq (lostRead rq) <| .obs fun d =>
        if isSteward rq || pfOrOwner d rq then reply rq (d.routesAt k).toNat else .seq denied (reply rq 0)
    | none, none => aonDo rq (reply rq 0)
  else
    match wordSpot d rq area (a / 4 * 4) with
    | some (((r, i), ok), high) => accessDo rq r (lostRead rq) <|
        readReg rq r i ok (if high then 63 else 31) (if high then 32 else 0) fun v =>
          reply rq (v / 2 ^ ((if high then 32 else 0) + 8 * (a % 4)) % 2 ^ (8 * size))
    | none => aonDo rq (reply rq 0)

/-- HALF_READ_LOW (R506): the low half of a 64-bit register at `a` is returned, and the high half is latched. -/
def halfReadLow (rq : Nat) (area : Bool) (a : Nat) : Eff := .obs fun d =>
  match (readSpot d rq area a).filter fun x => x.1.1.info.wide with
  | some ((r, i), ok) => accessDo rq r (lostRead rq) <| readReg rq r i ok 63 0 fun v => .seq
      (reply rq (v % 2 ^ 32)) (putHalfRead rq (some ((if area then 2 ^ 32 else 0) + a, v / 2 ^ 32)))
  | none => aonDo rq (reply rq 0)

/-- HALF_READ_HIGH (R506): the latched high half of the register at `a`, or its current one, whose RC fields clear. -/
def halfReadHigh (rq : Nat) (area : Bool) (a : Nat) : Eff := .obs fun d =>
  let held := (d.halfReadAt rq).filter fun h => h.1 == (if area then 2 ^ 32 else 0) + a
  match (readSpot d rq area a).filter fun x => x.1.1.info.wide, held with
  | some ((r, _), _), some h => accessDo rq r (lostRead rq) (reply rq h.2)
  | some ((r, i), ok), none => accessDo rq r (lostRead rq) <| readReg rq r i ok 63 32 fun v => reply rq (v / 2 ^ 32)
  | none, _ => aonDo rq (reply rq 0)

/-- HALF_WRITE_LOW (R506): the low half is held until the requester's next access. -/
def halfWriteLow (rq : Nat) (area : Bool) (a v : Nat) : Eff := .obs fun d =>
  match (writeSpot d rq area a).filter fun x => x.1.info.wide with
  | some (r, _) => accessDo rq r .skip (putHalfWrite rq (some ((if area then 2 ^ 32 else 0) + a, v % 2 ^ 32)))
  | none => aonDo rq .skip

/-- HALF_WRITE_HIGH (R506): the high half is committed with the low half held, or with the current one. -/
def halfWriteHigh (rq : Nat) (area : Bool) (a v : Nat) : Eff := .obs fun d =>
  let held := (d.halfWriteAt rq).filter fun h => h.1 == (if area then 2 ^ 32 else 0) + a
  match (writeSpot d rq area a).filter fun x => x.1.info.wide with
  | some (r, i) => accessDo rq r .skip <| .obs fun d =>
      writeReg rq r i (v % 2 ^ 32 * 2 ^ 32 + (held.map (·.2)).getD (d.reg r i % 2 ^ 32))
  | none => aonDo rq .skip

/-- BAD_SIZE_ACCESS (R506): discarded, or reads 0, and counted. -/
def badSizeAccess (rq : Nat) (write : Bool) : Eff := aonDo rq (.seq denied (.when (!write) (reply rq 0)))

end Sys2Proof.Machine
end

