-- ==== Sys2Proof/Machine/Idle.lean ====
section
/-! DEFINITION. What passes with time, and when each block acts: the tick of the always-on clock while no command waits (log
entry 16), and the guards of the commands in Commands.lean (R420 to R425, R499). -/

namespace Sys2Proof.Machine

/-! ### The tick (log entry 16) -/

/-- The cycles of the 25 MHz always-on clock in a second (R417). -/
def second : Nat := 25000000

/-- The cycle count reaches a multiple of `n` seconds with this tick. -/
def everySeconds (d : Device) (n : Nat) : Bool := (d.reg .CLK_AON_CNT 0 + 1) % (n * second) == 0

/-- One cycle of the always-on clock, which stands only in OFF: it is counted; in REST the wake timer counts its seconds, the
last of which is WAKE_TIMER_EXPIRY; in IDLE and RUN the hours to the next re-plan count, and in RUN the peak charge is saved
every 10 minutes (CLK_AON_CNT, R424, R441, R443). -/
def idle : Eff := .obs fun d => .when (d.off == 0) <| .all [
  .when (powerState d == 1 && everySeconds d 1 && 1 < d.fld F.PWR_WAKE_TIMER_seconds 0)
    (setF F.PWR_WAKE_TIMER_seconds 0 (d.fld F.PWR_WAKE_TIMER_seconds 0 - 1)),
  .when ((powerState d == 2 || powerState d == 3) && everySeconds d 3600) (addSat F.AGE_STATUS_hours 0 1),
  .when (powerState d == 3 && everySeconds d 600) saveMargin,
  setReg .CLK_AON_CNT 0 (d.reg .CLK_AON_CNT 0 + 1)]

/-! ### Guards -/

/-- The always-on domain is up. -/
def up (d : Device) : Bool := d.off == 0

/-- The cluster of a logical core is clocked. -/
def coreClocked (core : Nat) (d : Device) : Bool := clocked d (core / 16)

/-- An effect after which IDLE or RUN is reported anew (R421). -/
def thenIdle (e : Eff) : Eff := .seq e refreshIdle

/-- A command that writes a register: nothing reaches a site that is unbound or retired, but from the steward (R505). -/
def atSite (rq : Nat) (r : Reg) (i : Nat) (e : Eff) : Eff :=
  hostDo rq (.obs fun d => .when (isSteward rq || !siteGone d r i) e)

end Sys2Proof.Machine
end

