-- ==== Sys2Proof/Machine/Commands.lean ====
section
/-! DEFINITION. The meaning of each command: the effect that its family's file gives it, under the guard of the block that
carries it out (Idle.lean, RegAccess.lean), on commands whose operands name elements the device has. -/

namespace Sys2Proof.Machine

/-- REGISTER_WRITE (R10). -/
def execRegisterWrite (rq : Nat) (area : Bool) (addr : Nat) (value : Nat) (s : State) : Host.Outcome State Fault
    Refusal :=
  perform (decide (rq < 2049)) (registerWrite rq area addr value) s

/-- REGISTER_READ_CLEAR (R10). -/
def execRegisterReadClear (rq : Nat) (area : Bool) (addr : Nat) (size : Nat) (s : State) : Host.Outcome State Fault
    Refusal :=
  perform (decide (rq < 2049) && decide (size < 3)) (registerReadClear rq area addr size) s

/-- HALF_READ_LOW (R506). -/
def execHalfReadLow (rq : Nat) (area : Bool) (addr : Nat) (s : State) : Host.Outcome State Fault Refusal :=
  perform (decide (rq < 2049)) (halfReadLow rq area addr) s

/-- HALF_READ_HIGH (R506). -/
def execHalfReadHigh (rq : Nat) (area : Bool) (addr : Nat) (s : State) : Host.Outcome State Fault Refusal :=
  perform (decide (rq < 2049)) (halfReadHigh rq area addr) s

/-- HALF_WRITE_LOW (R506). -/
def execHalfWriteLow (rq : Nat) (area : Bool) (addr : Nat) (value : Nat) (s : State) : Host.Outcome State Fault
    Refusal :=
  perform (decide (rq < 2049)) (halfWriteLow rq area addr value) s

/-- HALF_WRITE_HIGH (R506). -/
def execHalfWriteHigh (rq : Nat) (area : Bool) (addr : Nat) (value : Nat) (s : State) : Host.Outcome State Fault
    Refusal :=
  perform (decide (rq < 2049)) (halfWriteHigh rq area addr value) s

/-- BAD_SIZE_ACCESS (R506). -/
def execBadSizeAccess (rq : Nat) (write : Bool) (s : State) : Host.Outcome State Fault Refusal :=
  perform (decide (rq < 2049)) (badSizeAccess rq write) s

/-- SITE_QUERY (R31). -/
def execSiteQuery (rq : Nat) (value : Nat) (s : State) : Host.Outcome State Fault Refusal :=
  perform (decide (rq < 2049)) (aonDo rq (writeReg rq .STW_SITE_QUERY rq value)) s

/-- SITE_RESULT_VALID (R31). -/
def execSiteResultValid (rq : Nat) (s : State) : Host.Outcome State Fault Refusal :=
  perform (decide (rq < 2049)) (whileIt up (siteResultValid rq)) s

/-- ENGINE_SUBSTITUTION (R29). -/
def execEngineSubstitution (core : Nat) (engine : Nat) (second : Option Nat) (readable : Bool) (s : State) :
    Host.Outcome State Fault Refusal :=
  perform (decide (core < 2601) && decide (engine < 5) && second.all (· < 5)) (whileIt powered (.seq
    (dropSlice (coresServed · 1 core)) (engineSubstitution core engine second readable))) s

/-- CORE_SUBSTITUTION (R29). -/
def execCoreSubstitution (site : Nat) (readable : Bool) (s : State) : Host.Outcome State Fault Refusal :=
  perform (decide (site < 2601)) (whileIt powered (.seq
    (dropSlice (coresServed · 1 site)) (coreSubstitution site readable))) s

/-- CLUSTER_SUBSTITUTION (R29). -/
def execClusterSubstitution (site : Nat) (s : State) : Host.Outcome State Fault Refusal :=
  perform (decide (site < 153)) (whileIt powered (.seq
    (dropSlice (coresServed · 2 site)) (clusterSubstitution site))) s

/-- DIE_SUBSTITUTION (R29). -/
def execDieSubstitution (site : Nat) (s : State) : Host.Outcome State Fault Refusal :=
  perform (decide (site < 17)) (whileIt powered (.seq
    (dropSlice (coresServed · 3 site)) (dieSubstitution site))) s

/-- CODEC_ENGINE_RETIRE (R25). -/
def execCodecEngineRetire (engine : Nat) (s : State) : Host.Outcome State Fault Refusal :=
  perform (decide (engine < 34)) (whileIt powered (codecEngineRetire engine)) s

/-- INGEST_UNIT_RETIRE (R25). -/
def execIngestUnitRetire (site : Nat) (s : State) : Host.Outcome State Fault Refusal :=
  perform (decide (site < 17)) (whileIt powered (ingestUnitRetire site)) s

/-- SHELL_RETIRE (R25). -/
def execShellRetire (site : Nat) (routerDead : Bool) (s : State) : Host.Outcome State Fault Refusal :=
  perform (decide (site < 16)) (whileIt powered (shellRetire site routerDead)) s

/-- ROUTE_INSTALL (R26). -/
def execRouteInstall (s : State) : Host.Outcome State Fault Refusal :=
  perform true (whileIt powered routeInstall) s

/-- FIG_LOAD_GO (R61). -/
def execFigLoadGo (rq : Nat) (part : Nat) (value : Nat) (s : State) : Host.Outcome State Fault Refusal :=
  perform (decide (rq < 2049) && decide (part < 32)) (hostDo rq (figLoadGo rq part value)) s

/-- LOAD_START (R61). -/
def execLoadStart (s : State) : Host.Outcome State Fault Refusal :=
  perform true (whileIt working loadStart) s

/-- LOAD_COMPLETE (R58). -/
def execLoadComplete (index : Nat) (s : State) : Host.Outcome State Fault Refusal :=
  perform (decide (index < 4)) (whileIt working (loadComplete index)) s

/-- FIG_SWITCH_GO (R63). -/
def execFigSwitchGo (rq : Nat) (part : Nat) (value : Nat) (s : State) : Host.Outcome State Fault Refusal :=
  perform (decide (rq < 2049) && decide (part < 32)) (hostDo rq (figSwitchGo rq part value)) s

/-- FIG_SWITCH_CANCEL (R68). -/
def execFigSwitchCancel (rq : Nat) (part : Nat) (value : Nat) (s : State) : Host.Outcome State Fault Refusal :=
  perform (decide (rq < 2049) && decide (part < 32)) (hostDo rq (figSwitchCancel rq part value)) s

/-- SWITCH_PROCEED (R63). -/
def execSwitchProceed (part : Nat) (time : Nat) (taken : List (Nat × Nat)) (s : State) : Host.Outcome State Fault Refusal :=
  perform (decide (part < 32)) (whileIt working (switchProceed part time taken)) s

/-- FIG_STAGE_DISCARD (R62). -/
def execFigStageDiscard (rq : Nat) (part : Nat) (slot : Nat) (value : Nat) (s : State) : Host.Outcome State Fault
    Refusal :=
  perform (decide (rq < 2049) && decide (part < 32) && decide (slot < 8)) (hostDo rq (figStageDiscard rq part slot
    value)) s

/-- FIG_MINVER_WRITE (R68). -/
def execFigMinverWrite (rq : Nat) (part : Nat) (value : Nat) (s : State) : Host.Outcome State Fault Refusal :=
  perform (decide (rq < 2049) && decide (part < 32)) (hostDo rq (figMinverWrite rq part value)) s

/-- PATCH_APPLY (R66). -/
def execPatchApply (core : Nat) (s : State) : Host.Outcome State Fault Refusal :=
  perform (decide (core < 2048)) (whileIt (coreClocked core) (patchApply core)) s

/-- LOAD (R81). -/
def execLoad (core : Nat) (fixed : List Nat) (lost : List Nat) (s : State) : Host.Outcome State Fault Refusal :=
  perform (decide (core < 2048)) (whileIt (coreClocked core) (loadStep core fixed lost)) s

/-- STORE (R81). -/
def execStore (core : Nat) (fixed : List Nat) (lost : List Nat) (s : State) : Host.Outcome State Fault Refusal :=
  perform (decide (core < 2048)) (whileIt (coreClocked core) (storeStep core fixed lost)) s

/-- PRODUCT (R82). -/
def execProduct (core : Nat) (fixed : List Nat) (lost : List Nat) (s : State) : Host.Outcome State Fault Refusal :=
  perform (decide (core < 2048)) (whileIt (coreClocked core) (productStep core fixed lost)) s

/-- ROTATE (R125). -/
def execRotate (core : Nat) (fixed : List Nat) (lost : List Nat) (s : State) : Host.Outcome State Fault Refusal :=
  perform (decide (core < 2048)) (whileIt (coreClocked core) (rotateStep core fixed lost)) s

/-- QUANT (R85). -/
def execQuant (core : Nat) (fixed : List Nat) (lost : List Nat) (s : State) : Host.Outcome State Fault Refusal :=
  perform (decide (core < 2048)) (whileIt (coreClocked core) (quantStep core fixed lost)) s

/-- ROW_EXP2 (R136). -/
def execRowExp2 (core : Nat) (fixed : List Nat) (lost : List Nat) (s : State) : Host.Outcome State Fault Refusal :=
  perform (decide (core < 2048)) (whileIt (coreClocked core) (rowStep core 0 fixed lost)) s

/-- ROW_LOG2 (R136). -/
def execRowLog2 (core : Nat) (fixed : List Nat) (lost : List Nat) (s : State) : Host.Outcome State Fault Refusal :=
  perform (decide (core < 2048)) (whileIt (coreClocked core) (rowStep core 1 fixed lost)) s

/-- ROW_RECIPROCAL (R137). -/
def execRowReciprocal (core : Nat) (fixed : List Nat) (lost : List Nat) (s : State) : Host.Outcome State Fault
    Refusal :=
  perform (decide (core < 2048)) (whileIt (coreClocked core) (rowStep core 2 fixed lost)) s

/-- ROW_RSQRT (R137). -/
def execRowRsqrt (core : Nat) (fixed : List Nat) (lost : List Nat) (s : State) : Host.Outcome State Fault Refusal :=
  perform (decide (core < 2048)) (whileIt (coreClocked core) (rowStep core 3 fixed lost)) s

/-- ROW_DIVIDE_BY_AUX (R140). -/
def execRowDivideByAux (core : Nat) (fixed : List Nat) (lost : List Nat) (s : State) : Host.Outcome State Fault
    Refusal :=
  perform (decide (core < 2048)) (whileIt (coreClocked core) (rowStep core 4 fixed lost)) s

/-- ROW_EXP (R137). -/
def execRowExp (core : Nat) (fixed : List Nat) (lost : List Nat) (s : State) : Host.Outcome State Fault Refusal :=
  perform (decide (core < 2048)) (whileIt (coreClocked core) (rowStep core 5 fixed lost)) s

/-- ROW_TANH (R137). -/
def execRowTanh (core : Nat) (fixed : List Nat) (lost : List Nat) (s : State) : Host.Outcome State Fault Refusal :=
  perform (decide (core < 2048)) (whileIt (coreClocked core) (rowStep core 6 fixed lost)) s

/-- ROW_SIGMOID (R137). -/
def execRowSigmoid (core : Nat) (fixed : List Nat) (lost : List Nat) (s : State) : Host.Outcome State Fault Refusal
    :=
  perform (decide (core < 2048)) (whileIt (coreClocked core) (rowStep core 7 fixed lost)) s

/-- ROW_SILU (R137). -/
def execRowSilu (core : Nat) (fixed : List Nat) (lost : List Nat) (s : State) : Host.Outcome State Fault Refusal :=
  perform (decide (core < 2048)) (whileIt (coreClocked core) (rowStep core 8 fixed lost)) s

/-- ROW_GELU (R137). -/
def execRowGelu (core : Nat) (fixed : List Nat) (lost : List Nat) (s : State) : Host.Outcome State Fault Refusal :=
  perform (decide (core < 2048)) (whileIt (coreClocked core) (rowStep core 9 fixed lost)) s

/-- ROW_SOFTPLUS (R137). -/
def execRowSoftplus (core : Nat) (fixed : List Nat) (lost : List Nat) (s : State) : Host.Outcome State Fault Refusal
    :=
  perform (decide (core < 2048)) (whileIt (coreClocked core) (rowStep core 10 fixed lost)) s

/-- ROW_MAXIMUM_TO_AUX (R144). -/
def execRowMaximumToAux (core : Nat) (fixed : List Nat) (lost : List Nat) (s : State) : Host.Outcome State Fault
    Refusal :=
  perform (decide (core < 2048)) (whileIt (coreClocked core) (rowStep core 11 fixed lost)) s

/-- ROW_EXP2_SCALED_DIFFERENCE (R144). -/
def execRowExp2ScaledDifference (core : Nat) (fixed : List Nat) (lost : List Nat) (s : State) : Host.Outcome State
    Fault Refusal :=
  perform (decide (core < 2048)) (whileIt (coreClocked core) (rowStep core 12 fixed lost)) s

/-- ROW_SCALE_BY_RECIPROCAL (R144). -/
def execRowScaleByReciprocal (core : Nat) (fixed : List Nat) (lost : List Nat) (s : State) : Host.Outcome State
    Fault Refusal :=
  perform (decide (core < 2048)) (whileIt (coreClocked core) (rowStep core 13 fixed lost)) s

/-- ROW_MEAN_AND_SQUARES (R148). -/
def execRowMeanAndSquares (core : Nat) (fixed : List Nat) (lost : List Nat) (s : State) : Host.Outcome State Fault
    Refusal :=
  perform (decide (core < 2048)) (whileIt (coreClocked core) (rowStep core 14 fixed lost)) s

/-- ROW_NORMALISE (R149). -/
def execRowNormalise (core : Nat) (fixed : List Nat) (lost : List Nat) (s : State) : Host.Outcome State Fault
    Refusal :=
  perform (decide (core < 2048)) (whileIt (coreClocked core) (rowStep core 15 fixed lost)) s

/-- EPI (R141). -/
def execEpi (core : Nat) (fixed : List Nat) (lost : List Nat) (s : State) : Host.Outcome State Fault Refusal :=
  perform (decide (core < 2048)) (whileIt (coreClocked core) (epiStep core fixed lost)) s

/-- HALO (R88). -/
def execHalo (core : Nat) (fixed : List Nat) (lost : List Nat) (bad : List Nat) (corrected : Nat) (epoch : Nat) (s :
    State) : Host.Outcome State Fault Refusal :=
  perform (decide (core < 2048) && bad.all (· < 24576)) (whileIt (coreClocked core) (haloStep core fixed lost bad
    corrected epoch)) s

/-- WAIT (R89). -/
def execWait (core : Nat) (s : State) : Host.Outcome State Fault Refusal :=
  perform (decide (core < 2048)) (whileIt (coreClocked core) (waitStep core)) s

/-- WAIT_SATISFIED (R89). -/
def execWaitSatisfied (core : Nat) (s : State) : Host.Outcome State Fault Refusal :=
  perform (decide (core < 2048)) (whileIt (coreClocked core) (waitSatisfied core)) s

/-- SIGNAL (R90). -/
def execSignal (core : Nat) (s : State) : Host.Outcome State Fault Refusal :=
  perform (decide (core < 2048)) (whileIt (coreClocked core) (signalStep core)) s

/-- ATOM_ADD_INT32 (R231). -/
def execAtomAddInt32 (core : Nat) (fixed : List Nat) (lost : List Nat) (s : State) : Host.Outcome State Fault
    Refusal :=
  perform (decide (core < 2048)) (whileIt (coreClocked core) (atomStep core 0 fixed lost)) s

/-- ATOM_ADD_FP32 (R231). -/
def execAtomAddFp32 (core : Nat) (fixed : List Nat) (lost : List Nat) (s : State) : Host.Outcome State Fault Refusal
    :=
  perform (decide (core < 2048)) (whileIt (coreClocked core) (atomStep core 1 fixed lost)) s

/-- ATOM_ADD_BF16 (R231). -/
def execAtomAddBf16 (core : Nat) (fixed : List Nat) (lost : List Nat) (s : State) : Host.Outcome State Fault Refusal
    :=
  perform (decide (core < 2048)) (whileIt (coreClocked core) (atomStep core 2 fixed lost)) s

/-- ATOM_MIN_INT32 (R231). -/
def execAtomMinInt32 (core : Nat) (fixed : List Nat) (lost : List Nat) (s : State) : Host.Outcome State Fault
    Refusal :=
  perform (decide (core < 2048)) (whileIt (coreClocked core) (atomStep core 3 fixed lost)) s

/-- ATOM_MAX_INT32 (R231). -/
def execAtomMaxInt32 (core : Nat) (fixed : List Nat) (lost : List Nat) (s : State) : Host.Outcome State Fault
    Refusal :=
  perform (decide (core < 2048)) (whileIt (coreClocked core) (atomStep core 4 fixed lost)) s

/-- ATOM_MIN_FP32 (R231). -/
def execAtomMinFp32 (core : Nat) (fixed : List Nat) (lost : List Nat) (s : State) : Host.Outcome State Fault Refusal
    :=
  perform (decide (core < 2048)) (whileIt (coreClocked core) (atomStep core 5 fixed lost)) s

/-- ATOM_MAX_FP32 (R231). -/
def execAtomMaxFp32 (core : Nat) (fixed : List Nat) (lost : List Nat) (s : State) : Host.Outcome State Fault Refusal
    :=
  perform (decide (core < 2048)) (whileIt (coreClocked core) (atomStep core 6 fixed lost)) s

/-- ATOM_MIN_BF16 (R231). -/
def execAtomMinBf16 (core : Nat) (fixed : List Nat) (lost : List Nat) (s : State) : Host.Outcome State Fault Refusal
    :=
  perform (decide (core < 2048)) (whileIt (coreClocked core) (atomStep core 7 fixed lost)) s

/-- ATOM_MAX_BF16 (R231). -/
def execAtomMaxBf16 (core : Nat) (fixed : List Nat) (lost : List Nat) (s : State) : Host.Outcome State Fault Refusal
    :=
  perform (decide (core < 2048)) (whileIt (coreClocked core) (atomStep core 8 fixed lost)) s

/-- ATOM_VECTOR_REDUCE_ADD_FP32 (R232). -/
def execAtomVectorReduceAddFp32 (core : Nat) (fixed : List Nat) (lost : List Nat) (s : State) : Host.Outcome State
    Fault Refusal :=
  perform (decide (core < 2048)) (whileIt (coreClocked core) (atomStep core 9 fixed lost)) s

/-- ATOM_VECTOR_REDUCE_ADD_BF16 (R232). -/
def execAtomVectorReduceAddBf16 (core : Nat) (fixed : List Nat) (lost : List Nat) (s : State) : Host.Outcome State
    Fault Refusal :=
  perform (decide (core < 2048)) (whileIt (coreClocked core) (atomStep core 10 fixed lost)) s

/-- SEM_ACQUIRE (R234). -/
def execSemAcquire (core : Nat) (s : State) : Host.Outcome State Fault Refusal :=
  perform (decide (core < 2048)) (whileIt (coreClocked core) (semAcquire core)) s

/-- SEM_TRY (R234). -/
def execSemTry (core : Nat) (s : State) : Host.Outcome State Fault Refusal :=
  perform (decide (core < 2048)) (whileIt (coreClocked core) (semTry core)) s

/-- SEM_RELEASE (R234). -/
def execSemRelease (core : Nat) (s : State) : Host.Outcome State Fault Refusal :=
  perform (decide (core < 2048)) (whileIt (coreClocked core) (semRelease core)) s

/-- SEM_GRANT (R403). -/
def execSemGrant (cell : Nat) (s : State) : Host.Outcome State Fault Refusal :=
  perform (decide (cell < 8192)) (whileIt working (semGrant cell)) s

/-- SEL (R93). -/
def execSel (core : Nat) (fixed : List Nat) (lost : List Nat) (s : State) : Host.Outcome State Fault Refusal :=
  perform (decide (core < 2048)) (whileIt (coreClocked core) (selStep core fixed lost)) s

/-- BEAT (R94). -/
def execBeat (core : Nat) (cycles : Nat) (s : State) : Host.Outcome State Fault Refusal :=
  perform (decide (core < 2048)) (whileIt (coreClocked core) (beatStep core cycles)) s

/-- WATCHDOG_EXPIRY (R98). -/
def execWatchdogExpiry (core : Nat) (s : State) : Host.Outcome State Fault Refusal :=
  perform (decide (core < 2048)) (whileIt (coreClocked core) (watchdogExpiry core)) s

/-- SEQ_DOORBELL (R170). -/
def execSeqDoorbell (rq : Nat) (part : Nat) (ring : Nat) (s : State) : Host.Outcome State Fault Refusal :=
  perform (decide (rq < 2049) && decide (part < 32)) (hostDo rq (seqDoorbell rq part ring)) s

/-- SEQ_TAIL_POLL (R170). -/
def execSeqTailPoll (part : Nat) (ring : Nat) (s : State) : Host.Outcome State Fault Refusal :=
  perform (decide (part < 32) && decide (ring < 64)) (seqTailPoll part ring) s

/-- LOOKUP (R164). -/
def execLookup (die : Nat) (s : State) : Host.Outcome State Fault Refusal :=
  perform (decide (die < 16)) (whileIt working (lookupReq die)) s

/-- INSERT (R165). -/
def execInsert (die : Nat) (s : State) : Host.Outcome State Fault Refusal :=
  perform (decide (die < 16)) (whileIt working (insertReq die)) s

/-- RELEASE (R166). -/
def execRelease (die : Nat) (s : State) : Host.Outcome State Fault Refusal :=
  perform (decide (die < 16)) (whileIt working (releaseReq die)) s

/-- VERIFY (R177). -/
def execVerify (die : Nat) (s : State) : Host.Outcome State Fault Refusal :=
  perform (decide (die < 16)) (whileIt working (verifyReq die)) s

/-- NODE_READ (R163). -/
def execNodeRead (die : Nat) (s : State) : Host.Outcome State Fault Refusal :=
  perform (decide (die < 16)) (whileIt working (nodeReadReq die)) s

/-- FLUSH_SCOPE (R172). -/
def execFlushScope (die : Nat) (s : State) : Host.Outcome State Fault Refusal :=
  perform (decide (die < 16)) (whileIt working (flushScopeReq die)) s

/-- PFX_REKEY (R180). -/
def execPfxRekey (rq : Nat) (part : Nat) (s : State) : Host.Outcome State Fault Refusal :=
  perform (decide (rq < 2049) && decide (part < 32)) (hostDo rq (pfxRekey rq part)) s

/-- PFX_FLUSH (R180). -/
def execPfxFlush (rq : Nat) (part : Nat) (s : State) : Host.Outcome State Fault Refusal :=
  perform (decide (rq < 2049) && decide (part < 32)) (hostDo rq (pfxFlush rq part)) s

/-- PFX_ENABLE (R168). -/
def execPfxEnable (rq : Nat) (part : Nat) (value : Nat) (s : State) : Host.Outcome State Fault Refusal :=
  perform (decide (rq < 2049) && decide (part < 32)) (hostDo rq (pfxEnable rq part value)) s

/-- SEQ_RING_ENABLE (R170). -/
def execSeqRingEnable (rq : Nat) (part : Nat) (ring : Nat) (value : Nat) (s : State) : Host.Outcome State Fault
    Refusal :=
  perform (decide (rq < 2049) && decide (part < 32) && decide (ring < 64)) (hostDo rq (seqRingEnable rq part ring
    value)) s

/-- WAYMAP_WRITE (R229). -/
def execWaymapWrite (rq : Nat) (site : Nat) (value : Nat) (s : State) : Host.Outcome State Fault Refusal :=
  perform (decide (rq < 2049) && decide (site < 17)) (atSite rq .FLR_WAYMAP site (waymapWrite rq site value)) s

/-- WAYOWN_WRITE (R229). -/
def execWayownWrite (rq : Nat) (site : Nat) (index : Nat) (value : Nat) (s : State) : Host.Outcome State Fault
    Refusal :=
  perform (decide (rq < 2049) && decide (site < 17) && decide (index < 4)) (atSite rq .FLR_WAYMAP site (wayownWrite rq
    site index value)) s

/-- WAY_CLEAR_DONE (R229). -/
def execWayClearDone (site : Nat) (way : Nat) (s : State) : Host.Outcome State Fault Refusal :=
  perform (decide (site < 17) && decide (way < 16)) (whileIt powered (wayClearDone site way)) s

/-- DRAM_TRAIN (R238). -/
def execDramTrain (rq : Nat) (stack : Nat) (value : Nat) (s : State) : Host.Outcome State Fault Refusal :=
  perform (decide (rq < 2049) && decide (stack < 16)) (hostDo rq (dramTrain rq stack value)) s

/-- DRAM_TRAIN_DONE (R238). -/
def execDramTrainDone (stack : Nat) (dq : List Nat) (ca : List Nat) (s : State) : Host.Outcome State Fault Refusal
    :=
  perform (decide (stack < 16) && dq.all (· < 32) && ca.all (· < 32)) (whileIt powered (dramTrainDone stack dq ca)) s

/-- DQ_LANE_FAIL (R239). -/
def execDqLaneFail (chan : Nat) (s : State) : Host.Outcome State Fault Refusal :=
  perform (decide (chan < 512)) (whileIt powered (dqLaneFail chan)) s

/-- CA_LANE_FAIL (R239). -/
def execCaLaneFail (chan : Nat) (s : State) : Host.Outcome State Fault Refusal :=
  perform (decide (chan < 512)) (whileIt powered (caLaneFail chan)) s

/-- CHANNEL_RETIRE (R244). -/
def execChannelRetire (chan : Nat) (s : State) : Host.Outcome State Fault Refusal :=
  perform (decide (chan < 512)) (whileIt powered (channelRetire chan)) s

/-- GROUP_POISON_DONE (R244). -/
def execGroupPoisonDone (group : Nat) (s : State) : Host.Outcome State Fault Refusal :=
  perform (decide (group < 128)) (whileIt powered (groupPoisonDone group)) s

/-- PATROL_SCRUB (R241). -/
def execPatrolScrub (stack : Nat) (fixed : List Nat) (lost : List Nat) (s : State) : Host.Outcome State Fault
    Refusal :=
  perform (decide (stack < 16)) (whileIt powered (patrolScrub stack fixed lost)) s

/-- BANK_REPAIR (R242). -/
def execBankRepair (chan : Nat) (bank : Nat) (s : State) : Host.Outcome State Fault Refusal :=
  perform (decide (chan < 512) && decide (bank < 64)) (whileIt powered (bankRepair chan bank)) s

/-- BANK_COPY_DONE (R242). -/
def execBankCopyDone (chan : Nat) (bank : Nat) (s : State) : Host.Outcome State Fault Refusal :=
  perform (decide (chan < 512) && decide (bank < 64)) (whileIt powered (bankCopyDone chan bank)) s

/-- STACK_TEMP_SAMPLE (R245). -/
def execStackTempSample (stack : Nat) (temp : Nat) (s : State) : Host.Outcome State Fault Refusal :=
  perform (decide (stack < 20) && decide (temp < 256)) (whileIt powered (stackTempSample stack temp)) s

/-- DRIVER_MAP_INVAL (R248). -/
def execDriverMapInval (rq : Nat) (ctx : Nat) (value : Nat) (s : State) : Host.Outcome State Fault Refusal :=
  perform (decide (rq < 2049) && decide (ctx < 1024)) (hostDo rq (driverMapInval rq ctx value)) s

/-- PROMOTE (R249). -/
def execPromote (rq : Nat) (part : Nat) (value : Nat) (s : State) : Host.Outcome State Fault Refusal :=
  perform (decide (rq < 2049) && decide (part < 32)) (hostDo rq (promoteExtent rq part value)) s

/-- DEMOTE (R249). -/
def execDemote (rq : Nat) (part : Nat) (value : Nat) (s : State) : Host.Outcome State Fault Refusal :=
  perform (decide (rq < 2049) && decide (part < 32)) (hostDo rq (demote rq part value)) s

/-- AUTO_PROMOTE (R249). -/
def execAutoPromote (part : Nat) (extent : Nat) (s : State) : Host.Outcome State Fault Refusal :=
  perform (decide (part < 32) && decide (extent < 1572864)) (whileIt working (autoPromote part extent)) s

/-- PROMOTE_DONE (R249). -/
def execPromoteDone (part : Nat) (s : State) : Host.Outcome State Fault Refusal :=
  perform (decide (part < 32)) (whileIt working (promoteDone part)) s

/-- FRAME_FREE (R249). -/
def execFrameFree (part : Nat) (frame : Nat) (s : State) : Host.Outcome State Fault Refusal :=
  perform (decide (part < 32) && decide (frame < 268435456)) (whileIt powered (frameFree part frame)) s

/-- FLS_OPEN (R260). -/
def execFlsOpen (rq : Nat) (entry : Nat) (s : State) : Host.Outcome State Fault Refusal :=
  perform (decide (rq < 2049) && decide (entry < 4096)) (hostDo rq (flsOpen rq entry)) s

/-- FLS_WRITE (R260). -/
def execFlsWrite (rq : Nat) (entry : Nat) (s : State) : Host.Outcome State Fault Refusal :=
  perform (decide (rq < 2049) && decide (entry < 4096)) (hostDo rq (flsWrite rq entry)) s

/-- FLS_COMMIT (R260). -/
def execFlsCommit (rq : Nat) (entry : Nat) (s : State) : Host.Outcome State Fault Refusal :=
  perform (decide (rq < 2049) && decide (entry < 4096)) (hostDo rq (flsCommit rq entry)) s

/-- FLS_ABORT (R260). -/
def execFlsAbort (rq : Nat) (entry : Nat) (s : State) : Host.Outcome State Fault Refusal :=
  perform (decide (rq < 2049) && decide (entry < 4096)) (hostDo rq (flsAbort rq entry)) s

/-- FLS_RETIRE (R260). -/
def execFlsRetire (rq : Nat) (entry : Nat) (s : State) : Host.Outcome State Fault Refusal :=
  perform (decide (rq < 2049) && decide (entry < 4096)) (hostDo rq (flsRetire rq entry)) s

/-- READ_ENTRY (R260). -/
def execReadEntry (rq : Nat) (entry : Nat) (s : State) : Host.Outcome State Fault Refusal :=
  perform (decide (rq < 2049) && decide (entry < 4096)) (hostDo rq (readEntry rq entry)) s

/-- FLS_CMD_COMPLETE (R261). -/
def execFlsCmdComplete (s : State) : Host.Outcome State Fault Refusal :=
  perform true (whileIt powered flsCmdComplete) s

/-- RELOCATION (R264). -/
def execRelocation (block : Nat) (s : State) : Host.Outcome State Fault Refusal :=
  perform (decide (block < 524288)) (whileIt up (relocation block)) s

/-- FLASH_SCRUB (R265). -/
def execFlashScrub (stack : Nat) (temp : Nat) (near : Bool) (lostBlocks : Nat) (s : State) : Host.Outcome State
    Fault Refusal :=
  perform (decide (stack < 4) && decide (temp < 256) && decide (lostBlocks < 3)) (whileIt up (flashScrub stack temp
    near lostBlocks)) s

/-- LAYER_COPY_DONE (R270). -/
def execLayerCopyDone (part : Nat) (cycles : Nat) (s : State) : Host.Outcome State Fault Refusal :=
  perform (decide (part < 32)) (whileIt working (layerCopyDone part cycles)) s

/-- RING_RELEASE_SEEN (R270). -/
def execRingReleaseSeen (part : Nat) (s : State) : Host.Outcome State Fault Refusal :=
  perform (decide (part < 32)) (whileIt working (ringReleaseSeen part)) s

/-- RING_DOORBELL (R277). -/
def execRingDoorbell (rq : Nat) (ring : Nat) (fixed : List Nat) (lost : List Nat) (s : State) : Host.Outcome State
    Fault Refusal :=
  perform (decide (rq < 2049) && decide (ring < 10392)) (atSite rq .DMA_RING_DOORBELL ring (ringDoorbell rq ring fixed
    lost)) s

/-- RING_POLL (R277). -/
def execRingPoll (ring : Nat) (fixed : List Nat) (lost : List Nat) (s : State) : Host.Outcome State Fault Refusal :=
  perform (decide (ring < 10392)) (ringPoll ring fixed lost) s

/-- DMA_BURST (R286). -/
def execDmaBurst (engine : Nat) (host : Option (List Byte)) (fixed : List Nat) (lost : List Nat) (s : State) :
    Host.Outcome State Fault Refusal :=
  perform (decide (engine < 21)) (whileIt serving (dmaBurst engine host fixed lost)) s

/-- DMA_COMPLETE (R281). -/
def execDmaComplete (ring : Nat) (s : State) : Host.Outcome State Fault Refusal :=
  perform (decide (ring < 9728)) (whileIt working (dmaComplete ring)) s

/-- RING_RESUME (R283). -/
def execRingResume (rq : Nat) (ring : Nat) (value : Nat) (fixed : List Nat) (lost : List Nat) (s : State) : Host.Outcome State Fault Refusal :=
  perform (decide (rq < 2049) && decide (ring < 10392)) (atSite rq .DMA_RING_CTRL ring (ringResume rq ring value fixed lost)) s

/-- RING_CANCEL (R284). -/
def execRingCancel (rq : Nat) (ring : Nat) (value : Nat) (s : State) : Host.Outcome State Fault Refusal :=
  perform (decide (rq < 2049) && decide (ring < 10392)) (atSite rq .DMA_RING_CTRL ring (ringCancel rq ring value)) s

/-- RING_ENABLE (R284). -/
def execRingEnable (rq : Nat) (ring : Nat) (value : Nat) (s : State) : Host.Outcome State Fault Refusal :=
  perform (decide (rq < 2049) && decide (ring < 10392)) (atSite rq .DMA_RING_BASE ring (ringEnable rq ring value)) s

/-- RING_CANCEL_DONE (R284). -/
def execRingCancelDone (ring : Nat) (s : State) : Host.Outcome State Fault Refusal :=
  perform (decide (ring < 10392)) (whileIt powered (ringCancelDone ring)) s

/-- CUE_EVENT (R288). -/
def execCueEvent (part : Nat) (ctx : Option Nat) (sel : Nat) (counts : List Nat) (s : State) : Host.Outcome State
    Fault Refusal :=
  perform (decide (part < 32) && ctx.all (· < 1024) && counts.all (· < 65536)) (whileIt powered (cueEvents part ctx
    sel counts)) s

/-- CUE_SELECT (R296). -/
def execCueSelect (rq : Nat) (part : Nat) (value : Nat) (s : State) : Host.Outcome State Fault Refusal :=
  perform (decide (rq < 2049) && decide (part < 32)) (aonDo rq (cueSelect rq part value)) s

/-- CUE_OVERFLOW_CLEAR (R289). -/
def execCueOverflowClear (rq : Nat) (part : Nat) (value : Nat) (s : State) : Host.Outcome State Fault Refusal :=
  perform (decide (rq < 2049) && decide (part < 32)) (aonDo rq (cueOverflowClear rq part value)) s

/-- CUE_ADD (R287). -/
def execCueAdd (rq : Nat) (part : Nat) (value : Nat) (s : State) : Host.Outcome State Fault Refusal :=
  perform (decide (rq < 2049) && decide (part < 32)) (aonDo rq (cueAddWrite rq part value)) s

/-- LANE_SWITCH (R300). -/
def execLaneSwitch (link : Nat) (lane : Nat) (failed : Bool) (s : State) : Host.Outcome State Fault Refusal :=
  perform (decide (link < 96) && decide (lane < 8)) (whileIt powered (.seq (laneSwitch link lane failed) linksChanged)) s

/-- CONTROL_FLIT (R304). -/
def execControlFlit (link : Nat) (ack : Nat) (credits : List Nat) (corrected : Nat) (s : State) : Host.Outcome State Fault Refusal :=
  perform (decide (link < 96) && decide (ack < 65536) && credits.all (· < 65536)) (whileIt powered (controlFlit link
    ack credits corrected)) s

/-- RETRY_REPLAY (R305). -/
def execRetryReplay (link : Nat) (s : State) : Host.Outcome State Fault Refusal :=
  perform (decide (link < 96)) (whileIt powered (retryReplay link)) s

/-- LINK_DOWN_TIMEOUT (R304). -/
def execLinkDownTimeout (link : Nat) (s : State) : Host.Outcome State Fault Refusal :=
  perform (decide (link < 96)) (whileIt powered (.seq (linkDownTimeout link) linksChanged)) s

/-- GROUP_FAILOVER (R306). -/
def execGroupFailover (link : Nat) (seq : Nat) (packet : List Byte) (s : State) : Host.Outcome State Fault Refusal
    :=
  perform (decide (link < 96) && decide (seq < 4096) && decide (packet.length < 66050)) (whileIt powered
    (groupFailover link seq packet)) s

/-- FAILOVER_PACKET (R306). -/
def execFailoverPacket (link : Nat) (seq : Nat) (packet : List Byte) (s : State) : Host.Outcome State Fault Refusal
    :=
  perform (decide (link < 96) && decide (seq < 4096) && decide (packet.length < 66050)) (whileIt powered
    (.seq (failoverPacket link seq packet) linksChanged)) s

/-- LINK_SITE_FAIL (R307). -/
def execLinkSiteFail (site : Nat) (s : State) : Host.Outcome State Fault Refusal :=
  perform (decide (site < 104)) (whileIt powered (.seq (linkSiteFail site) linksChanged)) s

/-- SITE_RETRAIN_DONE (R307). -/
def execSiteRetrainDone (link : Nat) (s : State) : Host.Outcome State Fault Refusal :=
  perform (decide (link < 96)) (whileIt powered (siteRetrainDone link)) s

/-- PACKET_ADMIT (R303). -/
def execPacketAdmit (link : Nat) (vc : Nat) (s : State) : Host.Outcome State Fault Refusal :=
  perform (decide (link < 96) && decide (vc < 8)) (whileIt powered (packetAdmit link vc)) s

/-- PACKET_FORWARD (R312). -/
def execPacketForward (link : Nat) (seq : Nat) (packet : List Byte) (s : State) : Host.Outcome State Fault Refusal
    :=
  perform (decide (link < 96) && decide (seq < 4096) && decide (packet.length < 66050)) (whileIt powered
    (packetForward link seq packet)) s

/-- LINK_WRITE_RECEIVE (R310). -/
def execLinkWriteReceive (link : Nat) (seq : Nat) (packet : List Byte) (s : State) : Host.Outcome State Fault
    Refusal :=
  perform (decide (link < 96) && decide (seq < 4096) && decide (packet.length < 66050)) (whileIt powered
    (linkWriteReceive link seq packet)) s

/-- LINK_CUE_RECEIVE (R310). -/
def execLinkCueReceive (link : Nat) (seq : Nat) (packet : List Byte) (s : State) : Host.Outcome State Fault Refusal
    :=
  perform (decide (link < 96) && decide (seq < 4096) && decide (packet.length < 66050)) (whileIt powered
    (linkCueReceive link seq packet)) s

/-- END_TO_END_ACK (R311). -/
def execEndToEndAck (link : Nat) (seq : Nat) (packet : List Byte) (s : State) : Host.Outcome State Fault Refusal :=
  perform (decide (link < 96) && decide (seq < 4096) && decide (packet.length < 66050)) (whileIt powered (endToEndAck
    link seq packet)) s

/-- REFUSAL (R311). -/
def execRefusal (link : Nat) (seq : Nat) (packet : List Byte) (s : State) : Host.Outcome State Fault Refusal :=
  perform (decide (link < 96) && decide (seq < 4096) && decide (packet.length < 66050)) (whileIt powered
    (refusalReceive link seq packet)) s

/-- E2E_TIMEOUT (R311). -/
def execE2eTimeout (tag : Nat) (s : State) : Host.Outcome State Fault Refusal :=
  perform true (whileIt powered (e2eTimeout tag)) s

/-- FLOW_TABLE_SYNC (R308). -/
def execFlowTableSync (rq : Nat) (value : Nat) (s : State) : Host.Outcome State Fault Refusal :=
  perform (decide (rq < 2049)) (hostDo rq (flowTableSync rq value)) s

/-- PORT_TRAINING (R320). -/
def execPortTraining (link : Nat) (module : List Byte) (s : State) : Host.Outcome State Fault Refusal :=
  perform (decide (link < 96) && decide (module.length < 257)) (whileIt powered (portTraining link module)) s

/-- PORT_TRAIN_DONE (R320). -/
def execPortTrainDone (link : Nat) (failed : List Nat) (inTime : Bool) (s : State) : Host.Outcome State Fault
    Refusal :=
  perform (decide (link < 96) && failed.all (· < 9)) (whileIt powered (portTrainDone link failed inTime)) s

/-- IDENTITY_EXCHANGE (R321). -/
def execIdentityExchange (link : Nat) (serial : Nat) (system : Nat) (line : Nat) (round : Nat) (size : Nat) (port :
    Nat) (role : Nat) (coords : Bool) (root : Bool) (s : State) : Host.Outcome State Fault Refusal :=
  perform (decide (link < 96) && decide (serial < 18446744073709551616) && decide (system < 4294967296) && decide
    (line < 4096) && decide (round < 256) && decide (size < 256) && decide (port < 96) && decide (role < 4))
    (whileIt powered (identityExchange link serial system line round size port role coords root)) s

/-- CANDIDATE_FLOOD (R322). -/
def execCandidateFlood (link : Option Nat) (root : Bool) (serial : Nat) (s : State) : Host.Outcome State Fault
    Refusal :=
  perform (link.all (· < 96)) (whileIt powered (candidateFlood link root serial)) s

/-- ASSIGN (R323). -/
def execAssign (link : Nat) (serial : Nat) (line : Nat) (round : Nat) (hops : Nat) (s : State) : Host.Outcome State
    Fault Refusal :=
  perform (decide (link < 96) && decide (line < 4096) && decide (round < 256)) (whileIt powered (assign link serial
    line round hops)) s

/-- ASSIGN_ANSWER (R324). -/
def execAssignAnswer (link : Nat) (accepted : Bool) (conflict : Bool) (s : State) : Host.Outcome State Fault Refusal :=
  perform (decide (link < 96)) (whileIt powered (assignAnswer link accepted conflict)) s

/-- PROMENADE_DONE (R324). -/
def execPromenadeDone (link : Nat) (devs : List Byte) (groups : List Byte) (s : State) : Host.Outcome State Fault
    Refusal :=
  perform (decide (link < 96)) (whileIt powered (promenadeDone link devs groups)) s

/-- MAP_BROADCAST (R324). -/
def execMapBroadcast (link : Option Nat) (devs : List Byte) (groups : List Byte) (us : Nat) (walk : Nat) (s : State)
    : Host.Outcome State Fault Refusal :=
  perform (link.all (· < 96)) (whileIt powered (mapBroadcast link devs groups us walk)) s

/-- REWALK (R326). -/
def execRewalk (rq : Nat) (value : Nat) (s : State) : Host.Outcome State Fault Refusal :=
  perform (decide (rq < 2049)) (hostDo rq (rewalk rq value)) s

/-- ROOT_LOST_TIMEOUT (R326). -/
def execRootLostTimeout (s : State) : Host.Outcome State Fault Refusal :=
  perform true (whileIt powered rootLostTimeout) s

/-- PORT_ATTACH (R328). -/
def execPortAttach (link : Nat) (module : List Byte) (s : State) : Host.Outcome State Fault Refusal :=
  perform (decide (link < 96) && decide (module.length < 257)) (whileIt powered (portAttach link module)) s

/-- PORT_RETRAIN_RETRY (R328). -/
def execPortRetrainRetry (link : Nat) (s : State) : Host.Outcome State Fault Refusal :=
  perform (decide (link < 96)) (whileIt powered (portRetrainRetry link)) s

/-- ALL_REDUCE (R334). -/
def execAllReduce (ring : Nat) (s : State) : Host.Outcome State Fault Refusal :=
  perform (decide (ring < 9984)) (whileIt working (allReduce ring)) s

/-- REDUCE_SCATTER (R334). -/
def execReduceScatter (ring : Nat) (s : State) : Host.Outcome State Fault Refusal :=
  perform (decide (ring < 9984)) (whileIt working (reduceScatter ring)) s

/-- ALL_GATHER (R334). -/
def execAllGather (ring : Nat) (s : State) : Host.Outcome State Fault Refusal :=
  perform (decide (ring < 9984)) (whileIt working (allGather ring)) s

/-- BROADCAST (R334). -/
def execBroadcast (ring : Nat) (s : State) : Host.Outcome State Fault Refusal :=
  perform (decide (ring < 9984)) (whileIt working (broadcast ring)) s

/-- ALL_TO_ALL (R334). -/
def execAllToAll (ring : Nat) (s : State) : Host.Outcome State Fault Refusal :=
  perform (decide (ring < 9984)) (whileIt working (allToAll ring)) s

/-- FUSED (R343). -/
def execFused (ring : Nat) (s : State) : Host.Outcome State Fault Refusal :=
  perform (decide (ring < 9984)) (whileIt working (fused ring)) s

/-- COL_READY (R339). -/
def execColReady (link : Nat) (seq : Nat) (packet : List Byte) (s : State) : Host.Outcome State Fault Refusal :=
  perform (decide (link < 96) && decide (seq < 4096) && decide (packet.length < 66050)) (whileIt working (colReady
    link seq packet)) s

/-- COL_DATA (R339). -/
def execColData (link : Nat) (seq : Nat) (packet : List Byte) (s : State) : Host.Outcome State Fault Refusal :=
  perform (decide (link < 96) && decide (seq < 4096) && decide (packet.length < 66050)) (whileIt working (colData link
    seq packet)) s

/-- STAGE_IN_DONE (R339). -/
def execStageInDone (ring : Nat) (fixed : List Nat) (lost : List Nat) (s : State) : Host.Outcome State Fault Refusal
    :=
  perform (decide (ring < 9984)) (whileIt working (stageInDone ring fixed lost)) s

/-- COL_WRITE_OUT (R339). -/
def execColWriteOut (ring : Nat) (fixed : List Nat) (lost : List Nat) (s : State) : Host.Outcome State Fault Refusal :=
  perform (decide (ring < 9984)) (whileIt working (colWriteOut ring fixed lost)) s

/-- COL_COMPLETE (R341). -/
def execColComplete (ring : Nat) (s : State) : Host.Outcome State Fault Refusal :=
  perform (decide (ring < 9984)) (whileIt working (colComplete ring)) s

/-- STEP_TIMEOUT (R340). -/
def execStepTimeout (ring : Nat) (ms : Nat) (s : State) : Host.Outcome State Fault Refusal :=
  perform (decide (ring < 9984)) (whileIt working (stepTimeout ring ms)) s

/-- SUSPECT (R345). -/
def execSuspect (link : Nat) (seq : Nat) (packet : List Byte) (s : State) : Host.Outcome State Fault Refusal :=
  perform (decide (link < 96) && decide (seq < 4096) && decide (packet.length < 66050)) (whileIt powered (suspectIn
    link seq packet)) s

/-- SUSPECT_WINDOW_END (R345). -/
def execSuspectWindowEnd (entry : Nat) (s : State) : Host.Outcome State Fault Refusal :=
  perform (decide (entry < 4096)) (whileIt powered (suspectWindowEnd entry)) s

/-- REFORM (R345). -/
def execReform (link : Nat) (seq : Nat) (packet : List Byte) (s : State) : Host.Outcome State Fault Refusal :=
  perform (decide (link < 96) && decide (seq < 4096) && decide (packet.length < 66050)) (whileIt powered (reformIn
    link seq packet)) s

/-- REFORM_ACK (R345). -/
def execReformAck (link : Nat) (seq : Nat) (packet : List Byte) (s : State) : Host.Outcome State Fault Refusal :=
  perform (decide (link < 96) && decide (seq < 4096) && decide (packet.length < 66050)) (whileIt powered (reformAck
    link seq packet)) s

/-- COL_COMMIT (R345). -/
def execColCommit (link : Nat) (seq : Nat) (packet : List Byte) (s : State) : Host.Outcome State Fault Refusal :=
  perform (decide (link < 96) && decide (seq < 4096) && decide (packet.length < 66050)) (whileIt powered (colCommit
    link seq packet)) s

/-- COL_ABORT (R346). -/
def execColAbort (link : Nat) (seq : Nat) (packet : List Byte) (s : State) : Host.Outcome State Fault Refusal :=
  perform (decide (link < 96) && decide (seq < 4096) && decide (packet.length < 66050)) (whileIt powered (colAbort
    link seq packet)) s

/-- EXCLUDE (R346). -/
def execExclude (link : Nat) (seq : Nat) (packet : List Byte) (s : State) : Host.Outcome State Fault Refusal :=
  perform (decide (link < 96) && decide (seq < 4096) && decide (packet.length < 66050)) (whileIt powered (excludeIn
    link seq packet)) s

/-- LEADER_TIMEOUT (R350). -/
def execLeaderTimeout (entry : Nat) (s : State) : Host.Outcome State Fault Refusal :=
  perform (decide (entry < 4096)) (whileIt powered (leaderTimeout entry)) s

/-- COL_REMOVE (R344). -/
def execColRemove (rq : Nat) (part : Nat) (value : Nat) (s : State) : Host.Outcome State Fault Refusal :=
  perform (decide (rq < 2049) && decide (part < 32)) (hostDo rq (colRemove rq part value)) s

/-- VCE_OPEN (R361). -/
def execVceOpen (engine : Nat) (us : Nat) (fixed : List Nat) (lost : List Nat) (s : State) : Host.Outcome State
    Fault Refusal :=
  perform (decide (engine < 34) && decide (us < 4294967296)) (whileIt serving (vceOpen engine us fixed lost)) s

/-- ENCODE (R366). -/
def execEncode (engine : Nat) (pics : List CodedPic) (us : Nat) (fixed : List Nat) (lost : List Nat) (s : State) : Host.Outcome
    State Fault Refusal :=
  perform (decide (engine < 34) && decide (us < 4294967296)) (whileIt serving (encode engine pics us fixed lost)) s

/-- DECODE (R363). -/
def execDecode (engine : Nat) (bad : List Nat) (pics : List DecodedPic) (us : Nat) (fixed : List Nat) (lost : List Nat)
    (s : State) : Host.Outcome State Fault Refusal :=
  perform (decide (engine < 34) && decide (us < 4294967296)) (whileIt serving (decode engine bad pics us fixed lost)) s

/-- DECODE_RESUME (R363). -/
def execDecodeResume (engine : Nat) (session : Nat) (us : Nat) (s : State) : Host.Outcome State Fault Refusal :=
  perform (decide (engine < 34) && decide (session < 16) && decide (us < 4294967296)) (whileIt serving (decodeResume
    engine session us)) s

/-- VCE_FLUSH (R358). -/
def execVceFlush (engine : Nat) (pics : List CodedPic) (us : Nat) (s : State) : Host.Outcome State Fault Refusal :=
  perform (decide (engine < 34) && decide (us < 4294967296)) (whileIt serving (vceFlush engine pics us)) s

/-- VCE_CLOSE (R358). -/
def execVceClose (engine : Nat) (us : Nat) (s : State) : Host.Outcome State Fault Refusal :=
  perform (decide (engine < 34) && decide (us < 4294967296)) (whileIt serving (vceClose engine us)) s

/-- VCE_JOB_COMPLETE (R359). -/
def execVceJobComplete (ring : Nat) (s : State) : Host.Outcome State Fault Refusal :=
  perform (decide (ring < 10256)) (whileIt working (thenIdle (vceJobComplete ring))) s

/-- VCE_RETURN (R363). -/
def execVceReturn (rq : Nat) (engine : Nat) (value : Nat) (s : State) : Host.Outcome State Fault Refusal :=
  perform (decide (rq < 2049) && decide (engine < 34)) (atSite rq .VCE_RETURN engine (vceReturn rq engine value)) s

/-- ENGINE_RESET (R373). -/
def execEngineReset (engine : Nat) (s : State) : Host.Outcome State Fault Refusal :=
  perform (decide (engine < 34)) (whileIt powered (thenIdle (engineReset engine))) s

/-- VCE_ENABLE (R373). -/
def execVceEnable (rq : Nat) (engine : Nat) (value : Nat) (s : State) : Host.Outcome State Fault Refusal :=
  perform (decide (rq < 2049) && decide (engine < 34)) (atSite rq .VCE_CTRL engine (vceEnable rq engine value)) s

/-- CONVERT (R383). -/
def execConvert (site : Nat) (us : Nat) (fixed : List Nat) (lost : List Nat) (s : State) : Host.Outcome State Fault
    Refusal :=
  perform (decide (site < 17) && decide (us < 4294967296)) (whileIt serving (convert site us fixed lost)) s

/-- INGEST_JOB_COMPLETE (R375). -/
def execIngestJobComplete (ring : Nat) (s : State) : Host.Outcome State Fault Refusal :=
  perform (decide (ring < 10392)) (whileIt working (thenIdle (ingestJobComplete ring))) s

/-- STREAM_SLOT_RESET (R389). -/
def execStreamSlotReset (rq : Nat) (site : Nat) (value : Nat) (s : State) : Host.Outcome State Fault Refusal :=
  perform (decide (rq < 2049) && decide (site < 17)) (atSite rq .ING_STREAM_CTRL site (streamSlotReset rq site value))
    s

/-- INGEST_PUBLISH (R386). -/
def execIngestPublish (failed : List Nat) (s : State) : Host.Outcome State Fault Refusal :=
  perform (failed.all (· < 16)) (whileIt serving (ingestPublish failed)) s

/-- PARTITION_CREATE (R391). -/
def execPartitionCreate (rq : Nat) (part : Nat) (value : Nat) (s : State) : Host.Outcome State Fault Refusal :=
  perform (decide (rq < 2049) && decide (part < 32)) (hostDo rq (partitionCreate rq part value)) s

/-- PARTITION_RESET (R412). -/
def execPartitionReset (rq : Nat) (part : Nat) (value : Nat) (s : State) : Host.Outcome State Fault Refusal :=
  perform (decide (rq < 2049) && decide (part < 32)) (hostDo rq (partitionReset rq part value)) s

/-- SVC_MODE_WRITE (R393). -/
def execSvcModeWrite (rq : Nat) (value : Nat) (s : State) : Host.Outcome State Fault Refusal :=
  perform (decide (rq < 2049)) (hostDo rq (svcModeWrite rq value)) s

/-- REGULATOR_ADMIT (R393). -/
def execRegulatorAdmit (part : Nat) (stack : Nat) (bytes : Nat) (filled : Nat) (s : State) : Host.Outcome State
    Fault Refusal :=
  perform (decide (part < 32) && decide (stack < 16)) (whileIt working (regulatorAdmit part stack bytes filled)) s

/-- CTX_SET_WRITE (R394). -/
def execCtxSetWrite (rq : Nat) (ctx : Nat) (value : Nat) (s : State) : Host.Outcome State Fault Refusal :=
  perform (decide (rq < 2049) && decide (ctx < 1024)) (hostDo rq (ctxSetWrite rq ctx value)) s

/-- CTX_GO (R394). -/
def execCtxGo (rq : Nat) (ctx : Nat) (s : State) : Host.Outcome State Fault Refusal :=
  perform (decide (rq < 2049) && decide (ctx < 1024)) (hostDo rq (ctxGo rq ctx)) s

/-- CTX_STOP (R395). -/
def execCtxStop (rq : Nat) (ctx : Nat) (s : State) : Host.Outcome State Fault Refusal :=
  perform (decide (rq < 2049) && decide (ctx < 1024)) (hostDo rq (ctxStop rq ctx)) s

/-- CTX_CLEAR (R395). -/
def execCtxClear (rq : Nat) (ctx : Nat) (s : State) : Host.Outcome State Fault Refusal :=
  perform (decide (rq < 2049) && decide (ctx < 1024)) (hostDo rq (ctxClear rq ctx)) s

/-- CTX_KILL (R406). -/
def execCtxKill (rq : Nat) (ctx : Nat) (s : State) : Host.Outcome State Fault Refusal :=
  perform (decide (rq < 2049) && decide (ctx < 1024)) (hostDo rq (ctxKill rq ctx)) s

/-- CTX_PRIO_WRITE (R399). -/
def execCtxPrioWrite (rq : Nat) (ctx : Nat) (value : Nat) (s : State) : Host.Outcome State Fault Refusal :=
  perform (decide (rq < 2049) && decide (ctx < 1024)) (hostDo rq (ctxPrioWrite rq ctx value)) s

/-- CONTEXT_START (R395). -/
def execContextStart (ctx : Nat) (s : State) : Host.Outcome State Fault Refusal :=
  perform (decide (ctx < 1024)) (whileIt serving (contextStart ctx)) s

/-- YIELD (R400). -/
def execYield (ctx : Nat) (s : State) : Host.Outcome State Fault Refusal :=
  perform (decide (ctx < 1024)) (whileIt working (yieldSet ctx)) s

/-- PREEMPT_SAVE (R401). -/
def execPreemptSave (core : Nat) (fixed : List Nat) (lost : List Nat) (s : State) : Host.Outcome State Fault Refusal
    :=
  perform (decide (core < 2048)) (whileIt (coreClocked core) (preemptSave core fixed lost)) s

/-- PREEMPT_GANG_START (R401). -/
def execPreemptGangStart (part : Nat) (leafSet : Nat) (s : State) : Host.Outcome State Fault Refusal :=
  perform (decide (part < 32) && decide (leafSet < 65536)) (whileIt working (preemptGangStart part leafSet)) s

/-- HOLD_LIMIT_EXPIRY (R404). -/
def execHoldLimitExpiry (ctx : Nat) (s : State) : Host.Outcome State Fault Refusal :=
  perform (decide (ctx < 1024)) (whileIt working (holdLimitExpiry ctx)) s

/-- TEARDOWN_FINISH (R406). -/
def execTeardownFinish (ctx : Nat) (s : State) : Host.Outcome State Fault Refusal :=
  perform (decide (ctx < 1024)) (whileIt powered (teardownFinish ctx)) s

/-- MIGRATION_START (R409). -/
def execMigrationStart (core : Nat) (s : State) : Host.Outcome State Fault Refusal :=
  perform (decide (core < 2048)) (whileIt working (.seq (dropSlice fun _ => [core]) (migrationStart core))) s

/-- MIGRATION_RESUME (R409). -/
def execMigrationResume (core : Nat) (toSpare : Bool) (s : State) : Host.Outcome State Fault Refusal :=
  perform (decide (core < 2048)) (whileIt working (migrationResume core toSpare)) s

/-- VIN_SAMPLE (R413). -/
def execVinSample (vin : Nat) (vbat : Nat) (s : State) : Host.Outcome State Fault Refusal :=
  perform true (vinSample vin vbat) s

/-- VIN_LOSS (R413). -/
def execVinLoss (torn : Option Nat) (s : State) : Host.Outcome State Fault Refusal :=
  perform (torn.all (· < 9)) (vinLoss torn) s

/-- PHASE_FAIL (R415). -/
def execPhaseFail (regulator : Nat) (phase : Nat) (s : State) : Host.Outcome State Fault Refusal :=
  perform (decide (regulator < 182) && decide (phase < 8)) (phaseFail regulator phase) s

/-- CLUSTER_CLOCK_STOP (R419). -/
def execClusterClockStop (site : Nat) (s : State) : Host.Outcome State Fault Refusal :=
  perform (decide (site < 153)) (clusterClockStop site) s

/-- CLUSTER_GATE (R419). -/
def execClusterGate (site : Nat) (s : State) : Host.Outcome State Fault Refusal :=
  perform (decide (site < 153)) (clusterGate site) s

/-- CLUSTER_WAKE (R419). -/
def execClusterWake (site : Nat) (s : State) : Host.Outcome State Fault Refusal :=
  perform (decide (site < 153)) (clusterWake site) s

/-- GOVERNOR_TICK (R427). -/
def execGovernorTick (vin : Nat) (iin : Nat) (power : Nat) (tj : Nat) (loads : List Nat) (pct : List Nat) (s :
    State) : Host.Outcome State Fault Refusal :=
  perform true (governorTick vin iin power tj loads pct) s

/-- JUNCTION_TRIP (R431). -/
def execJunctionTrip (s : State) : Host.Outcome State Fault Refusal :=
  perform true junctionTrip s

/-- TRIP_RELEASE (R431). -/
def execTripRelease (s : State) : Host.Outcome State Fault Refusal :=
  perform true tripRelease s

/-- REST_ENTRY (R422). -/
def execRestEntry (slack : List Nat) (vmin : List Nat) (drift : List Nat) (eyes : List Nat) (s : State) :
    Host.Outcome State Fault Refusal :=
  perform (drift.all (· < 1456) && eyes.all (· < 1536)) (restEntry slack vmin drift eyes) s

/-- REST_COLLECTIVE_TIMEOUT (R422). -/
def execRestCollectiveTimeout (s : State) : Host.Outcome State Fault Refusal :=
  perform true restCollectiveTimeout s

/-- WAKE (R425). -/
def execWake (source : Nat) (ports : List Nat) (dq : List Nat) (ca : List Nat) (s : State) :
    Host.Outcome State Fault Refusal :=
  perform (decide (source < 4) && ports.all (· < 96) && dq.all (· < 512) && ca.all (· < 512)) (wake source ports dq ca) s

/-- WAKE_TIMER_EXPIRY (R424). -/
def execWakeTimerExpiry (s : State) : Host.Outcome State Fault Refusal :=
  perform true wakeTimerExpiry s

/-- OFF_ENTRY (R426). -/
def execOffEntry (tested : Nat) (failed : List Nat) (cores : List Nat) (badCores : List Nat) (s : State) :
    Host.Outcome State Fault Refusal :=
  perform (failed.all (· < 13005) && cores.all (· < 2601) && badCores.all (· < 2601)) (offEntry tested failed cores
    badCores) s

/-- AON_REF_LOSS (R434). -/
def execAonRefLoss (s : State) : Host.Outcome State Fault Refusal :=
  perform true (whileIt up aonRefLoss) s

/-- REPLAN (R441). -/
def execReplan (slack : List Nat) (vmin : List Nat) (drift : List Nat) (eyes : List Nat) (s : State) : Host.Outcome
    State Fault Refusal :=
  perform (drift.all (· < 1456) && eyes.all (· < 1536)) (whileIt powered (replan slack vmin drift eyes)) s

/-- PEAK_CHARGE (R443). -/
def execPeakCharge (s : State) : Host.Outcome State Fault Refusal :=
  perform true (whileIt powered peakCharge) s

/-- SELF_TEST_CMD (R448). -/
def execSelfTestCmd (rq : Nat) (value : Nat) (s : State) : Host.Outcome State Fault Refusal :=
  perform (decide (rq < 2049)) (aonDo rq (selfTestCmd rq value)) s

/-- SELF_TEST_ABORT (R448). -/
def execSelfTestAbort (rq : Nat) (value : Nat) (s : State) : Host.Outcome State Fault Refusal :=
  perform (decide (rq < 2049)) (aonDo rq (selfTestAbort rq value)) s

/-- CORE_TEST_SLICE (R448). -/
def execCoreTestSlice (passed : Bool) (expired : Bool) (s : State) : Host.Outcome State Fault Refusal :=
  perform true (whileIt powered (coreTestSlice passed expired)) s

/-- FAULT_LOG_FLUSH (R451). -/
def execFaultLogFlush (s : State) : Host.Outcome State Fault Refusal :=
  perform true (whileIt up faultLogFlush) s

/-- STEWARD_TAKEOVER (R453). -/
def execStewardTakeover (mismatch : Bool) (rec : Option Nat) (s : State) : Host.Outcome State Fault Refusal :=
  perform (rec.all (· < 3)) (whileIt up (stewardTakeover mismatch rec)) s

/-- KEY_LOAD (R464). -/
def execKeyLoad (rq : Nat) (win : Nat) (index : Nat) (s : State) : Host.Outcome State Fault Refusal :=
  perform (decide (rq < 2049) && decide (win < 33)) (aonDo rq (keyLoad rq win index)) s

/-- KEY_ERASE (R463). -/
def execKeyErase (rq : Nat) (win : Nat) (index : Nat) (s : State) : Host.Outcome State Fault Refusal :=
  perform (decide (rq < 2049) && decide (win < 33)) (aonDo rq (keyErase rq win index)) s

/-- KEY_SEAL (R465). -/
def execKeySeal (rq : Nat) (win : Nat) (index : Nat) (s : State) : Host.Outcome State Fault Refusal :=
  perform (decide (rq < 2049) && decide (win < 33)) (aonDo rq (keySeal rq win index)) s

/-- KEY_UNSEAL (R465). -/
def execKeyUnseal (rq : Nat) (win : Nat) (index : Nat) (s : State) : Host.Outcome State Fault Refusal :=
  perform (decide (rq < 2049) && decide (win < 33)) (aonDo rq (keyUnseal rq win index)) s

/-- LINK_KEY_LOAD (R464). -/
def execLinkKeyLoad (rq : Nat) (win : Nat) (index : Nat) (s : State) : Host.Outcome State Fault Refusal :=
  perform (decide (rq < 2049) && decide (win < 33)) (aonDo rq (linkKeyLoad rq win index)) s

/-- ATTEST (R459). -/
def execAttest (rq : Nat) (win : Nat) (index : Nat) (s : State) : Host.Outcome State Fault Refusal :=
  perform (decide (rq < 2049) && decide (win < 33)) (aonDo rq (attest rq win index)) s

/-- ID_READ (R459). -/
def execIdRead (rq : Nat) (win : Nat) (index : Nat) (s : State) : Host.Outcome State Fault Refusal :=
  perform (decide (rq < 2049) && decide (win < 33)) (aonDo rq (idRead rq win index)) s

/-- ROOT_MSG (R461). -/
def execRootMsg (rq : Nat) (win : Nat) (index : Nat) (s : State) : Host.Outcome State Fault Refusal :=
  perform (decide (rq < 2049) && decide (win < 33)) (aonDo rq (rootMsg rq win index)) s

/-- CTX_KEY_WRITE (R476). -/
def execCtxKeyWrite (rq : Nat) (ctx : Nat) (value : Nat) (s : State) : Host.Outcome State Fault Refusal :=
  perform (decide (rq < 2049) && decide (ctx < 1024)) (aonDo rq (ctxKeyWrite rq ctx value)) s

/-- ALARM_POLICY_WRITE (R471). -/
def execAlarmPolicyWrite (rq : Nat) (value : Nat) (s : State) : Host.Outcome State Fault Refusal :=
  perform (decide (rq < 2049)) (aonDo rq (alarmPolicyWrite rq value)) s

/-- TAMPER_TRIP (R472). -/
def execTamperTrip (sensor : Nat) (s : State) : Host.Outcome State Fault Refusal :=
  perform (decide (sensor < 5)) (tamperTrip sensor) s

/-- DEBUG_NONCE_READ (R474). -/
def execDebugNonceRead (s : State) : Host.Outcome State Fault Refusal :=
  perform true (whileIt up debugNonceRead) s

/-- DEBUG_CERTIFICATE (R474). -/
def execDebugCertificate (cert : List Byte) (s : State) : Host.Outcome State Fault Refusal :=
  perform true (whileIt up (debugCertificate cert)) s

/-- POWER_ON_SEQUENCE (R477). -/
def execPowerOnSequence (env : Env) (s : State) : Host.Outcome State Fault Refusal :=
  perform env.ok (powerOn env) s

/-- RECOVERY_CHUNK (R485). -/
def execRecoveryChunk (offset : Nat) (data : List Byte) (last : Bool) (env : Env) (s : State) : Host.Outcome State
    Fault Refusal :=
  perform (decide (data.length < 32769) && env.ok) (recoveryChunk offset data last env) s

/-- PERST_RELEASE (R479). -/
def execPerstRelease (port : Nat) (ref : Bool) (rate : Nat) (width : Nat) (flit : Bool) (s : State) : Host.Outcome
    State Fault Refusal :=
  perform (decide (port < 2) && decide (rate < 6) && decide (width < 5)) (perstRelease port ref rate width flit) s

/-- PORT_RESET (R491). -/
def execPortReset (port : Nat) (kind : Nat) (s : State) : Host.Outcome State Fault Refusal :=
  perform (decide (port < 2) && decide (kind < 3)) (portReset port kind) s

/-- PF_FLR (R491). -/
def execPfFlr (port : Nat) (s : State) : Host.Outcome State Fault Refusal :=
  perform (decide (port < 2)) (pfFlr port) s

/-- VF_FLR (R491). -/
def execVfFlr (port : Nat) (vf : Nat) (s : State) : Host.Outcome State Fault Refusal :=
  perform (decide (port < 2) && decide (vf < 512)) (vfFlr port vf) s

/-- DEV_RESET (R491). -/
def execDevReset (rq : Nat) (value : Nat) (env : Env) (s : State) : Host.Outcome State Fault Refusal :=
  perform (decide (rq < 2049) && env.ok) (aonDo rq (devReset rq value env)) s

/-- CONFIG_REQUEST (R490). -/
def execConfigRequest (port : Nat) (fn : Nat) (write : Bool) (s : State) : Host.Outcome State Fault Refusal :=
  perform (decide (port < 2) && decide (fn < 1024)) (configRequest port fn write) s

/-- VF_ENABLE (R490). -/
def execVfEnable (port : Nat) (n : Nat) (s : State) : Host.Outcome State Fault Refusal :=
  perform (decide (port < 2) && decide (n < 513)) (vfEnable port n) s

/-- BAR4_ACCESS (R488). -/
def execBar4Access (port : Nat) (offset : Nat) (len : Nat) (data : Option (List Byte)) (s : State) : Host.Outcome
    State Fault Refusal :=
  perform (decide (port < 2)) (wakeElse (rqOf (port * 1024)) (.when data.isNone (.seq (complete port 0 0 0) (logError
    { severity := 0, source := 1 }))) (bar4Access port offset len data)) s

/-- FW_WRITE_SLOT (R484). -/
def execFwWriteSlot (rq : Nat) (slot : Nat) (flashOk : Bool) (s : State) : Host.Outcome State Fault Refusal :=
  perform (decide (rq < 2049) && decide (slot < 2)) (aonDo rq (fwWriteSlot rq slot flashOk)) s

/-- FW_PREFER_SLOT (R484). -/
def execFwPreferSlot (rq : Nat) (slot : Nat) (flashOk : Bool) (s : State) : Host.Outcome State Fault Refusal :=
  perform (decide (rq < 2049) && decide (slot < 2)) (aonDo rq (fwPreferSlot rq slot flashOk)) s

/-- FW_COMMIT_MINVER (R483). -/
def execFwCommitMinver (rq : Nat) (slot : Nat) (s : State) : Host.Outcome State Fault Refusal :=
  perform (decide (rq < 2049) && decide (slot < 2)) (aonDo rq (fwCommitMinver rq slot)) s

/-- DOORBELL_PAGE_WRITE (R493). -/
def execDoorbellPageWrite (port : Nat) (vf : Nat) (slot : Nat) (fixed : List Nat) (lost : List Nat) (s : State) :
    Host.Outcome State Fault Refusal :=
  perform (decide (port < 2) && decide (vf < 512) && decide (slot < 256)) (hostDo (rqOf (port * 1024 + vf + 1))
    (doorbellPageWrite port vf slot fixed lost)) s

/-- DB_BIND (R494). -/
def execDbBind (rq : Nat) (value : Nat) (s : State) : Host.Outcome State Fault Refusal :=
  perform (decide (rq < 2049)) (aonDo rq (dbBindWrite rq value)) s

/-- DB_UNBIND (R494). -/
def execDbUnbind (rq : Nat) (value : Nat) (s : State) : Host.Outcome State Fault Refusal :=
  perform (decide (rq < 2049)) (aonDo rq (dbUnbindWrite rq value)) s

/-- MCTP_CONTROL (R495). -/
def execMctpControl (transport : Nat) (kind : Nat) (command : Nat) (eid : Nat) (s : State) : Host.Outcome State
    Fault Refusal :=
  perform (decide (transport < 3) && decide (eid < 256)) (mctpControl transport kind command eid) s

/-- PLDM_SENSOR_READ (R496). -/
def execPldmSensorRead (transport : Nat) (id : Nat) (s : State) : Host.Outcome State Fault Refusal :=
  perform (decide (transport < 3)) (pldmSensorRead transport id) s

/-- PLDM_SET_EVENT_RECEIVER (R496). -/
def execPldmSetEventReceiver (transport : Nat) (eid : Nat) (s : State) : Host.Outcome State Fault Refusal :=
  perform (decide (transport < 3) && decide (eid < 256)) (pldmSetEventReceiver transport eid) s

/-- PLDM_POWER_STATE (R496). -/
def execPldmPowerState (transport : Nat) (target : Nat) (s : State) : Host.Outcome State Fault Refusal :=
  perform (decide (transport < 3) && decide (target < 4)) (pldmPowerState transport target) s

/-- PLDM_CLEAR_HALT (R496). -/
def execPldmClearHalt (transport : Nat) (s : State) : Host.Outcome State Fault Refusal :=
  perform (decide (transport < 3)) (pldmClearHalt transport) s

/-- HALT_ASSERT (R497). -/
def execHaltAssert (a : Bool) (b : Bool) (cycles : Nat) (s : State) : Host.Outcome State Fault Refusal :=
  perform (decide (cycles < 250001)) (haltAssert a b cycles) s

/-- HALT_RELEASE (R497). -/
def execHaltRelease (cycles : Nat) (s : State) : Host.Outcome State Fault Refusal :=
  perform (decide (cycles < 250001)) (haltRelease cycles) s

/-- HALT_DISCREPANCY (R498). -/
def execHaltDiscrepancy (aOnly : Bool) (s : State) : Host.Outcome State Fault Refusal :=
  perform true (haltDiscrepancy aOnly) s

/-- HALT_CLEAR (R498). -/
def execHaltClear (rq : Nat) (value : Nat) (s : State) : Host.Outcome State Fault Refusal :=
  perform (decide (rq < 2049)) (aonDo rq (haltClear rq value)) s

/-- STREAM_TILE_DELIVERY (R45). -/
def execStreamTileDelivery (entry : Nat) (data : List Byte) (epoch : Nat) (taken : Nat) (s : State) : Host.Outcome
    State Fault Refusal :=
  perform (decide (entry < 16384)) (whileIt powered (streamTile entry data epoch taken)) s

/-- UNCORRECTABLE_CODEWORD (R305). -/
def execUncorrectableCodeword (link : Nat) (partialFlits : Nat) (s : State) : Host.Outcome State Fault Refusal :=
  perform (decide (link < 96) && decide (partialFlits < 257)) (whileIt powered (uncorrectableCodeword link
    partialFlits)) s

/-- ROW_REPAIR_DONE (R242). -/
def execRowRepairDone (chan : Nat) (row : Nat) (s : State) : Host.Outcome State Fault Refusal :=
  perform (decide (chan < 512) && decide (row < 1048576)) (whileIt powered (rowRepairDone chan row)) s

/-- STEWARD_DIE_LOSS (R454). -/
def execStewardDieLoss (s : State) : Host.Outcome State Fault Refusal :=
  perform true (whileIt up stewardDieLoss) s

/-- FLASH_STACK_LOSS (R266). -/
def execFlashStackLoss (stack : Nat) (s : State) : Host.Outcome State Fault Refusal :=
  perform (decide (stack < 4)) (whileIt powered (flashStackLoss stack)) s

/-- SEC_CMD_COMPLETE (R466). -/
def execSecCmdComplete (win : Nat) (s : State) : Host.Outcome State Fault Refusal :=
  perform (decide (win < 33)) (whileIt up (secCmdComplete win)) s

/-- FW_CTRL_COMPLETE (R484). -/
def execFwCtrlComplete (s : State) : Host.Outcome State Fault Refusal :=
  perform true (whileIt up fwCtrlComplete) s

/-- FLOW_TABLE_LOAD_DONE (R308). -/
def execFlowTableLoadDone (s : State) : Host.Outcome State Fault Refusal :=
  perform true (whileIt powered flowTableLoadDone) s

end Sys2Proof.Machine
end

