-- ==== Sys2Proof/Machine/Dispatch.lean ====
section
/-! DEFINITION. One arm for each command: its meaning. -/

namespace Sys2Proof.Machine

/-- The effect of a command on the block. -/
def exec (i : Instr) (s : State) : Host.Outcome State Fault Refusal :=
  match i with
  | .registerWrite rq area addr value => Sys2Proof.Machine.execRegisterWrite rq area addr value s
  | .registerReadClear rq area addr size => Sys2Proof.Machine.execRegisterReadClear rq area addr size s
  | .halfReadLow rq area addr => Sys2Proof.Machine.execHalfReadLow rq area addr s
  | .halfReadHigh rq area addr => Sys2Proof.Machine.execHalfReadHigh rq area addr s
  | .halfWriteLow rq area addr value => Sys2Proof.Machine.execHalfWriteLow rq area addr value s
  | .halfWriteHigh rq area addr value => Sys2Proof.Machine.execHalfWriteHigh rq area addr value s
  | .badSizeAccess rq write => Sys2Proof.Machine.execBadSizeAccess rq write s
  | .siteQuery rq value => Sys2Proof.Machine.execSiteQuery rq value s
  | .siteResultValid rq => Sys2Proof.Machine.execSiteResultValid rq s
  | .engineSubstitution core engine second readable => Sys2Proof.Machine.execEngineSubstitution core engine second readable s
  | .coreSubstitution site readable => Sys2Proof.Machine.execCoreSubstitution site readable s
  | .clusterSubstitution site => Sys2Proof.Machine.execClusterSubstitution site s
  | .dieSubstitution site => Sys2Proof.Machine.execDieSubstitution site s
  | .codecEngineRetire engine => Sys2Proof.Machine.execCodecEngineRetire engine s
  | .ingestUnitRetire site => Sys2Proof.Machine.execIngestUnitRetire site s
  | .shellRetire site routerDead => Sys2Proof.Machine.execShellRetire site routerDead s
  | .routeInstall => Sys2Proof.Machine.execRouteInstall s
  | .figLoadGo rq part value => Sys2Proof.Machine.execFigLoadGo rq part value s
  | .loadStart => Sys2Proof.Machine.execLoadStart s
  | .loadComplete index => Sys2Proof.Machine.execLoadComplete index s
  | .figSwitchGo rq part value => Sys2Proof.Machine.execFigSwitchGo rq part value s
  | .figSwitchCancel rq part value => Sys2Proof.Machine.execFigSwitchCancel rq part value s
  | .switchProceed part time taken => Sys2Proof.Machine.execSwitchProceed part time taken s
  | .figStageDiscard rq part slot value => Sys2Proof.Machine.execFigStageDiscard rq part slot value s
  | .figMinverWrite rq part value => Sys2Proof.Machine.execFigMinverWrite rq part value s
  | .patchApply core => Sys2Proof.Machine.execPatchApply core s
  | .load core fixed lost => Sys2Proof.Machine.execLoad core fixed lost s
  | .store core fixed lost => Sys2Proof.Machine.execStore core fixed lost s
  | .product core fixed lost => Sys2Proof.Machine.execProduct core fixed lost s
  | .rotate core fixed lost => Sys2Proof.Machine.execRotate core fixed lost s
  | .quant core fixed lost => Sys2Proof.Machine.execQuant core fixed lost s
  | .rowExp2 core fixed lost => Sys2Proof.Machine.execRowExp2 core fixed lost s
  | .rowLog2 core fixed lost => Sys2Proof.Machine.execRowLog2 core fixed lost s
  | .rowReciprocal core fixed lost => Sys2Proof.Machine.execRowReciprocal core fixed lost s
  | .rowRsqrt core fixed lost => Sys2Proof.Machine.execRowRsqrt core fixed lost s
  | .rowDivideByAux core fixed lost => Sys2Proof.Machine.execRowDivideByAux core fixed lost s
  | .rowExp core fixed lost => Sys2Proof.Machine.execRowExp core fixed lost s
  | .rowTanh core fixed lost => Sys2Proof.Machine.execRowTanh core fixed lost s
  | .rowSigmoid core fixed lost => Sys2Proof.Machine.execRowSigmoid core fixed lost s
  | .rowSilu core fixed lost => Sys2Proof.Machine.execRowSilu core fixed lost s
  | .rowGelu core fixed lost => Sys2Proof.Machine.execRowGelu core fixed lost s
  | .rowSoftplus core fixed lost => Sys2Proof.Machine.execRowSoftplus core fixed lost s
  | .rowMaximumToAux core fixed lost => Sys2Proof.Machine.execRowMaximumToAux core fixed lost s
  | .rowExp2ScaledDifference core fixed lost => Sys2Proof.Machine.execRowExp2ScaledDifference core fixed lost s
  | .rowScaleByReciprocal core fixed lost => Sys2Proof.Machine.execRowScaleByReciprocal core fixed lost s
  | .rowMeanAndSquares core fixed lost => Sys2Proof.Machine.execRowMeanAndSquares core fixed lost s
  | .rowNormalise core fixed lost => Sys2Proof.Machine.execRowNormalise core fixed lost s
  | .epi core fixed lost => Sys2Proof.Machine.execEpi core fixed lost s
  | .halo core fixed lost bad corrected epoch => Sys2Proof.Machine.execHalo core fixed lost bad corrected epoch s
  | .wait core => Sys2Proof.Machine.execWait core s
  | .waitSatisfied core => Sys2Proof.Machine.execWaitSatisfied core s
  | .signal core => Sys2Proof.Machine.execSignal core s
  | .atomAddInt32 core fixed lost => Sys2Proof.Machine.execAtomAddInt32 core fixed lost s
  | .atomAddFp32 core fixed lost => Sys2Proof.Machine.execAtomAddFp32 core fixed lost s
  | .atomAddBf16 core fixed lost => Sys2Proof.Machine.execAtomAddBf16 core fixed lost s
  | .atomMinInt32 core fixed lost => Sys2Proof.Machine.execAtomMinInt32 core fixed lost s
  | .atomMaxInt32 core fixed lost => Sys2Proof.Machine.execAtomMaxInt32 core fixed lost s
  | .atomMinFp32 core fixed lost => Sys2Proof.Machine.execAtomMinFp32 core fixed lost s
  | .atomMaxFp32 core fixed lost => Sys2Proof.Machine.execAtomMaxFp32 core fixed lost s
  | .atomMinBf16 core fixed lost => Sys2Proof.Machine.execAtomMinBf16 core fixed lost s
  | .atomMaxBf16 core fixed lost => Sys2Proof.Machine.execAtomMaxBf16 core fixed lost s
  | .atomVectorReduceAddFp32 core fixed lost => Sys2Proof.Machine.execAtomVectorReduceAddFp32 core fixed lost s
  | .atomVectorReduceAddBf16 core fixed lost => Sys2Proof.Machine.execAtomVectorReduceAddBf16 core fixed lost s
  | .semAcquire core => Sys2Proof.Machine.execSemAcquire core s
  | .semTry core => Sys2Proof.Machine.execSemTry core s
  | .semRelease core => Sys2Proof.Machine.execSemRelease core s
  | .semGrant cell => Sys2Proof.Machine.execSemGrant cell s
  | .sel core fixed lost => Sys2Proof.Machine.execSel core fixed lost s
  | .beat core cycles => Sys2Proof.Machine.execBeat core cycles s
  | .watchdogExpiry core => Sys2Proof.Machine.execWatchdogExpiry core s
  | .seqDoorbell rq part ring => Sys2Proof.Machine.execSeqDoorbell rq part ring s
  | .seqTailPoll part ring => Sys2Proof.Machine.execSeqTailPoll part ring s
  | .lookup die => Sys2Proof.Machine.execLookup die s
  | .insert die => Sys2Proof.Machine.execInsert die s
  | .release die => Sys2Proof.Machine.execRelease die s
  | .verify die => Sys2Proof.Machine.execVerify die s
  | .nodeRead die => Sys2Proof.Machine.execNodeRead die s
  | .flushScope die => Sys2Proof.Machine.execFlushScope die s
  | .pfxRekey rq part => Sys2Proof.Machine.execPfxRekey rq part s
  | .pfxFlush rq part => Sys2Proof.Machine.execPfxFlush rq part s
  | .pfxEnable rq part value => Sys2Proof.Machine.execPfxEnable rq part value s
  | .seqRingEnable rq part ring value => Sys2Proof.Machine.execSeqRingEnable rq part ring value s
  | .waymapWrite rq site value => Sys2Proof.Machine.execWaymapWrite rq site value s
  | .wayownWrite rq site index value => Sys2Proof.Machine.execWayownWrite rq site index value s
  | .wayClearDone site way => Sys2Proof.Machine.execWayClearDone site way s
  | .dramTrain rq stack value => Sys2Proof.Machine.execDramTrain rq stack value s
  | .dramTrainDone stack dq ca => Sys2Proof.Machine.execDramTrainDone stack dq ca s
  | .dqLaneFail chan => Sys2Proof.Machine.execDqLaneFail chan s
  | .caLaneFail chan => Sys2Proof.Machine.execCaLaneFail chan s
  | .channelRetire chan => Sys2Proof.Machine.execChannelRetire chan s
  | .groupPoisonDone group => Sys2Proof.Machine.execGroupPoisonDone group s
  | .patrolScrub stack fixed lost => Sys2Proof.Machine.execPatrolScrub stack fixed lost s
  | .bankRepair chan bank => Sys2Proof.Machine.execBankRepair chan bank s
  | .bankCopyDone chan bank => Sys2Proof.Machine.execBankCopyDone chan bank s
  | .stackTempSample stack temp => Sys2Proof.Machine.execStackTempSample stack temp s
  | .driverMapInval rq ctx value => Sys2Proof.Machine.execDriverMapInval rq ctx value s
  | .promote rq part value => Sys2Proof.Machine.execPromote rq part value s
  | .demote rq part value => Sys2Proof.Machine.execDemote rq part value s
  | .autoPromote part extent => Sys2Proof.Machine.execAutoPromote part extent s
  | .promoteDone part => Sys2Proof.Machine.execPromoteDone part s
  | .frameFree part frame => Sys2Proof.Machine.execFrameFree part frame s
  | .flsOpen rq entry => Sys2Proof.Machine.execFlsOpen rq entry s
  | .flsWrite rq entry => Sys2Proof.Machine.execFlsWrite rq entry s
  | .flsCommit rq entry => Sys2Proof.Machine.execFlsCommit rq entry s
  | .flsAbort rq entry => Sys2Proof.Machine.execFlsAbort rq entry s
  | .flsRetire rq entry => Sys2Proof.Machine.execFlsRetire rq entry s
  | .readEntry rq entry => Sys2Proof.Machine.execReadEntry rq entry s
  | .flsCmdComplete => Sys2Proof.Machine.execFlsCmdComplete s
  | .relocation block => Sys2Proof.Machine.execRelocation block s
  | .flashScrub stack temp near lostBlocks => Sys2Proof.Machine.execFlashScrub stack temp near lostBlocks s
  | .layerCopyDone part cycles => Sys2Proof.Machine.execLayerCopyDone part cycles s
  | .ringReleaseSeen part => Sys2Proof.Machine.execRingReleaseSeen part s
  | .ringDoorbell rq ring fixed lost => Sys2Proof.Machine.execRingDoorbell rq ring fixed lost s
  | .ringPoll ring fixed lost => Sys2Proof.Machine.execRingPoll ring fixed lost s
  | .dmaBurst engine host fixed lost => Sys2Proof.Machine.execDmaBurst engine host fixed lost s
  | .dmaComplete ring => Sys2Proof.Machine.execDmaComplete ring s
  | .ringResume rq ring value fixed lost => Sys2Proof.Machine.execRingResume rq ring value fixed lost s
  | .ringCancel rq ring value => Sys2Proof.Machine.execRingCancel rq ring value s
  | .ringEnable rq ring value => Sys2Proof.Machine.execRingEnable rq ring value s
  | .ringCancelDone ring => Sys2Proof.Machine.execRingCancelDone ring s
  | .cueEvent part ctx sel counts => Sys2Proof.Machine.execCueEvent part ctx sel counts s
  | .cueSelect rq part value => Sys2Proof.Machine.execCueSelect rq part value s
  | .cueOverflowClear rq part value => Sys2Proof.Machine.execCueOverflowClear rq part value s
  | .cueAdd rq part value => Sys2Proof.Machine.execCueAdd rq part value s
  | .laneSwitch link lane failed => Sys2Proof.Machine.execLaneSwitch link lane failed s
  | .controlFlit link ack credits corrected => Sys2Proof.Machine.execControlFlit link ack credits corrected s
  | .retryReplay link => Sys2Proof.Machine.execRetryReplay link s
  | .linkDownTimeout link => Sys2Proof.Machine.execLinkDownTimeout link s
  | .groupFailover link seq packet => Sys2Proof.Machine.execGroupFailover link seq packet s
  | .failoverPacket link seq packet => Sys2Proof.Machine.execFailoverPacket link seq packet s
  | .linkSiteFail site => Sys2Proof.Machine.execLinkSiteFail site s
  | .siteRetrainDone link => Sys2Proof.Machine.execSiteRetrainDone link s
  | .packetAdmit link vc => Sys2Proof.Machine.execPacketAdmit link vc s
  | .packetForward link seq packet => Sys2Proof.Machine.execPacketForward link seq packet s
  | .linkWriteReceive link seq packet => Sys2Proof.Machine.execLinkWriteReceive link seq packet s
  | .linkCueReceive link seq packet => Sys2Proof.Machine.execLinkCueReceive link seq packet s
  | .endToEndAck link seq packet => Sys2Proof.Machine.execEndToEndAck link seq packet s
  | .refusal link seq packet => Sys2Proof.Machine.execRefusal link seq packet s
  | .e2eTimeout tag => Sys2Proof.Machine.execE2eTimeout tag s
  | .flowTableSync rq value => Sys2Proof.Machine.execFlowTableSync rq value s
  | .portTraining link module => Sys2Proof.Machine.execPortTraining link module s
  | .portTrainDone link failed inTime => Sys2Proof.Machine.execPortTrainDone link failed inTime s
  | .identityExchange link serial system line round size port role coords root => Sys2Proof.Machine.execIdentityExchange link serial system line round size port role coords root s
  | .candidateFlood link root serial => Sys2Proof.Machine.execCandidateFlood link root serial s
  | .assign link serial line round hops => Sys2Proof.Machine.execAssign link serial line round hops s
  | .assignAnswer link accepted conflict => Sys2Proof.Machine.execAssignAnswer link accepted conflict s
  | .promenadeDone link devs groups => Sys2Proof.Machine.execPromenadeDone link devs groups s
  | .mapBroadcast link devs groups us walk => Sys2Proof.Machine.execMapBroadcast link devs groups us walk s
  | .rewalk rq value => Sys2Proof.Machine.execRewalk rq value s
  | .rootLostTimeout => Sys2Proof.Machine.execRootLostTimeout s
  | .portAttach link module => Sys2Proof.Machine.execPortAttach link module s
  | .portRetrainRetry link => Sys2Proof.Machine.execPortRetrainRetry link s
  | .allReduce ring => Sys2Proof.Machine.execAllReduce ring s
  | .reduceScatter ring => Sys2Proof.Machine.execReduceScatter ring s
  | .allGather ring => Sys2Proof.Machine.execAllGather ring s
  | .broadcast ring => Sys2Proof.Machine.execBroadcast ring s
  | .allToAll ring => Sys2Proof.Machine.execAllToAll ring s
  | .fused ring => Sys2Proof.Machine.execFused ring s
  | .colReady link seq packet => Sys2Proof.Machine.execColReady link seq packet s
  | .colData link seq packet => Sys2Proof.Machine.execColData link seq packet s
  | .stageInDone ring fixed lost => Sys2Proof.Machine.execStageInDone ring fixed lost s
  | .colWriteOut ring fixed lost => Sys2Proof.Machine.execColWriteOut ring fixed lost s
  | .colComplete ring => Sys2Proof.Machine.execColComplete ring s
  | .stepTimeout ring ms => Sys2Proof.Machine.execStepTimeout ring ms s
  | .suspect link seq packet => Sys2Proof.Machine.execSuspect link seq packet s
  | .suspectWindowEnd entry => Sys2Proof.Machine.execSuspectWindowEnd entry s
  | .reform link seq packet => Sys2Proof.Machine.execReform link seq packet s
  | .reformAck link seq packet => Sys2Proof.Machine.execReformAck link seq packet s
  | .colCommit link seq packet => Sys2Proof.Machine.execColCommit link seq packet s
  | .colAbort link seq packet => Sys2Proof.Machine.execColAbort link seq packet s
  | .exclude link seq packet => Sys2Proof.Machine.execExclude link seq packet s
  | .leaderTimeout entry => Sys2Proof.Machine.execLeaderTimeout entry s
  | .colRemove rq part value => Sys2Proof.Machine.execColRemove rq part value s
  | .vceOpen engine us fixed lost => Sys2Proof.Machine.execVceOpen engine us fixed lost s
  | .encode engine pics us fixed lost => Sys2Proof.Machine.execEncode engine pics us fixed lost s
  | .decode engine bad pics us fixed lost => Sys2Proof.Machine.execDecode engine bad pics us fixed lost s
  | .decodeResume engine session us => Sys2Proof.Machine.execDecodeResume engine session us s
  | .vceFlush engine pics us => Sys2Proof.Machine.execVceFlush engine pics us s
  | .vceClose engine us => Sys2Proof.Machine.execVceClose engine us s
  | .vceJobComplete ring => Sys2Proof.Machine.execVceJobComplete ring s
  | .vceReturn rq engine value => Sys2Proof.Machine.execVceReturn rq engine value s
  | .engineReset engine => Sys2Proof.Machine.execEngineReset engine s
  | .vceEnable rq engine value => Sys2Proof.Machine.execVceEnable rq engine value s
  | .convert site us fixed lost => Sys2Proof.Machine.execConvert site us fixed lost s
  | .ingestJobComplete ring => Sys2Proof.Machine.execIngestJobComplete ring s
  | .streamSlotReset rq site value => Sys2Proof.Machine.execStreamSlotReset rq site value s
  | .ingestPublish failed => Sys2Proof.Machine.execIngestPublish failed s
  | .partitionCreate rq part value => Sys2Proof.Machine.execPartitionCreate rq part value s
  | .partitionReset rq part value => Sys2Proof.Machine.execPartitionReset rq part value s
  | .svcModeWrite rq value => Sys2Proof.Machine.execSvcModeWrite rq value s
  | .regulatorAdmit part stack bytes filled => Sys2Proof.Machine.execRegulatorAdmit part stack bytes filled s
  | .ctxSetWrite rq ctx value => Sys2Proof.Machine.execCtxSetWrite rq ctx value s
  | .ctxGo rq ctx => Sys2Proof.Machine.execCtxGo rq ctx s
  | .ctxStop rq ctx => Sys2Proof.Machine.execCtxStop rq ctx s
  | .ctxClear rq ctx => Sys2Proof.Machine.execCtxClear rq ctx s
  | .ctxKill rq ctx => Sys2Proof.Machine.execCtxKill rq ctx s
  | .ctxPrioWrite rq ctx value => Sys2Proof.Machine.execCtxPrioWrite rq ctx value s
  | .contextStart ctx => Sys2Proof.Machine.execContextStart ctx s
  | .yield ctx => Sys2Proof.Machine.execYield ctx s
  | .preemptSave core fixed lost => Sys2Proof.Machine.execPreemptSave core fixed lost s
  | .preemptGangStart part leafSet => Sys2Proof.Machine.execPreemptGangStart part leafSet s
  | .holdLimitExpiry ctx => Sys2Proof.Machine.execHoldLimitExpiry ctx s
  | .teardownFinish ctx => Sys2Proof.Machine.execTeardownFinish ctx s
  | .migrationStart core => Sys2Proof.Machine.execMigrationStart core s
  | .migrationResume core toSpare => Sys2Proof.Machine.execMigrationResume core toSpare s
  | .vinSample vin vbat => Sys2Proof.Machine.execVinSample vin vbat s
  | .vinLoss torn => Sys2Proof.Machine.execVinLoss torn s
  | .phaseFail regulator phase => Sys2Proof.Machine.execPhaseFail regulator phase s
  | .clusterClockStop site => Sys2Proof.Machine.execClusterClockStop site s
  | .clusterGate site => Sys2Proof.Machine.execClusterGate site s
  | .clusterWake site => Sys2Proof.Machine.execClusterWake site s
  | .governorTick vin iin power tj loads pct => Sys2Proof.Machine.execGovernorTick vin iin power tj loads pct s
  | .junctionTrip => Sys2Proof.Machine.execJunctionTrip s
  | .tripRelease => Sys2Proof.Machine.execTripRelease s
  | .restEntry slack vmin drift eyes => Sys2Proof.Machine.execRestEntry slack vmin drift eyes s
  | .restCollectiveTimeout => Sys2Proof.Machine.execRestCollectiveTimeout s
  | .wake source ports dq ca => Sys2Proof.Machine.execWake source ports dq ca s
  | .wakeTimerExpiry => Sys2Proof.Machine.execWakeTimerExpiry s
  | .offEntry tested failed cores badCores => Sys2Proof.Machine.execOffEntry tested failed cores badCores s
  | .aonRefLoss => Sys2Proof.Machine.execAonRefLoss s
  | .replan slack vmin drift eyes => Sys2Proof.Machine.execReplan slack vmin drift eyes s
  | .peakCharge => Sys2Proof.Machine.execPeakCharge s
  | .selfTestCmd rq value => Sys2Proof.Machine.execSelfTestCmd rq value s
  | .selfTestAbort rq value => Sys2Proof.Machine.execSelfTestAbort rq value s
  | .coreTestSlice passed expired => Sys2Proof.Machine.execCoreTestSlice passed expired s
  | .faultLogFlush => Sys2Proof.Machine.execFaultLogFlush s
  | .stewardTakeover mismatch rec => Sys2Proof.Machine.execStewardTakeover mismatch rec s
  | .keyLoad rq win index => Sys2Proof.Machine.execKeyLoad rq win index s
  | .keyErase rq win index => Sys2Proof.Machine.execKeyErase rq win index s
  | .keySeal rq win index => Sys2Proof.Machine.execKeySeal rq win index s
  | .keyUnseal rq win index => Sys2Proof.Machine.execKeyUnseal rq win index s
  | .linkKeyLoad rq win index => Sys2Proof.Machine.execLinkKeyLoad rq win index s
  | .attest rq win index => Sys2Proof.Machine.execAttest rq win index s
  | .idRead rq win index => Sys2Proof.Machine.execIdRead rq win index s
  | .rootMsg rq win index => Sys2Proof.Machine.execRootMsg rq win index s
  | .ctxKeyWrite rq ctx value => Sys2Proof.Machine.execCtxKeyWrite rq ctx value s
  | .alarmPolicyWrite rq value => Sys2Proof.Machine.execAlarmPolicyWrite rq value s
  | .tamperTrip sensor => Sys2Proof.Machine.execTamperTrip sensor s
  | .debugNonceRead => Sys2Proof.Machine.execDebugNonceRead s
  | .debugCertificate cert => Sys2Proof.Machine.execDebugCertificate cert s
  | .powerOnSequence env => Sys2Proof.Machine.execPowerOnSequence env s
  | .recoveryChunk offset data last env => Sys2Proof.Machine.execRecoveryChunk offset data last env s
  | .perstRelease port ref rate width flit => Sys2Proof.Machine.execPerstRelease port ref rate width flit s
  | .portReset port kind => Sys2Proof.Machine.execPortReset port kind s
  | .pfFlr port => Sys2Proof.Machine.execPfFlr port s
  | .vfFlr port vf => Sys2Proof.Machine.execVfFlr port vf s
  | .devReset rq value env => Sys2Proof.Machine.execDevReset rq value env s
  | .configRequest port fn write => Sys2Proof.Machine.execConfigRequest port fn write s
  | .vfEnable port n => Sys2Proof.Machine.execVfEnable port n s
  | .bar4Access port offset len data => Sys2Proof.Machine.execBar4Access port offset len data s
  | .fwWriteSlot rq slot flashOk => Sys2Proof.Machine.execFwWriteSlot rq slot flashOk s
  | .fwPreferSlot rq slot flashOk => Sys2Proof.Machine.execFwPreferSlot rq slot flashOk s
  | .fwCommitMinver rq slot => Sys2Proof.Machine.execFwCommitMinver rq slot s
  | .doorbellPageWrite port vf slot fixed lost => Sys2Proof.Machine.execDoorbellPageWrite port vf slot fixed lost s
  | .dbBind rq value => Sys2Proof.Machine.execDbBind rq value s
  | .dbUnbind rq value => Sys2Proof.Machine.execDbUnbind rq value s
  | .mctpControl transport kind command eid => Sys2Proof.Machine.execMctpControl transport kind command eid s
  | .pldmSensorRead transport id => Sys2Proof.Machine.execPldmSensorRead transport id s
  | .pldmSetEventReceiver transport eid => Sys2Proof.Machine.execPldmSetEventReceiver transport eid s
  | .pldmPowerState transport target => Sys2Proof.Machine.execPldmPowerState transport target s
  | .pldmClearHalt transport => Sys2Proof.Machine.execPldmClearHalt transport s
  | .haltAssert a b cycles => Sys2Proof.Machine.execHaltAssert a b cycles s
  | .haltRelease cycles => Sys2Proof.Machine.execHaltRelease cycles s
  | .haltDiscrepancy aOnly => Sys2Proof.Machine.execHaltDiscrepancy aOnly s
  | .haltClear rq value => Sys2Proof.Machine.execHaltClear rq value s
  | .streamTileDelivery entry data epoch taken => Sys2Proof.Machine.execStreamTileDelivery entry data epoch taken s
  | .uncorrectableCodeword link partialFlits => Sys2Proof.Machine.execUncorrectableCodeword link partialFlits s
  | .rowRepairDone chan row => Sys2Proof.Machine.execRowRepairDone chan row s
  | .stewardDieLoss => Sys2Proof.Machine.execStewardDieLoss s
  | .flashStackLoss stack => Sys2Proof.Machine.execFlashStackLoss stack s
  | .secCmdComplete win => Sys2Proof.Machine.execSecCmdComplete win s
  | .fwCtrlComplete => Sys2Proof.Machine.execFwCtrlComplete s
  | .flowTableLoadDone => Sys2Proof.Machine.execFlowTableLoadDone s

end Sys2Proof.Machine
end

