-- ==== Sys2Proof/Safety.lean ====
section
/-! DEFINITION. What counts as a state in good order, and as a run in good order: every table of the block in its canonical form
(Machine/Sparse.lean), and every waiting command one whose operands name elements the block has. `Completes` is the form of the
statements about what a command does. -/

namespace Sys2Proof.Machine

/-- Device memory is in its canonical form: addresses strictly rising, and no byte listed that reads as an unlisted one. -/
def Memory.wf (m : List Host.Cell) : Bool := mapOk dfltMem m

/-- Every table of the block is in its canonical form. -/
structure Device.Ok (d : Device) : Prop where
  regs : mapOk dfltRegs d.regs = true
  replies : mapOk dfltReplies d.replies = true
  mem : Memory.wf d.mem = true
  poison : mapOk dfltPoison d.poison = true
  tmem : mapOk dfltTmem d.tmem = true
  tpoison : mapOk dfltTpoison d.tpoison = true
  acc : mapOk dfltAcc d.acc = true
  shadow : mapOk dfltShadow d.shadow = true
  cores : mapOk dfltCores d.cores = true
  cues : mapOk dfltCues d.cues = true
  slots : mapOk dfltSlots d.slots = true
  switches : mapOk dfltSwitches d.switches = true
  patches : mapOk dfltPatches d.patches = true
  ctxs : mapOk dfltCtxs d.ctxs = true
  held : mapOk dfltHeld d.held = true
  sems : mapOk dfltSems d.sems = true
  strBuf : mapOk dfltStrBuf d.strBuf = true
  epochs : mapOk dfltEpochs d.epochs = true
  heldTiles : mapOk dfltHeldTiles d.heldTiles = true
  halos : mapOk dfltHalos d.halos = true
  buckets : mapOk dfltBuckets d.buckets = true
  retired : mapOk dfltRetired d.retired = true
  applied : mapOk dfltApplied d.applied = true
  noTransit : mapOk dfltNoTransit d.noTransit = true
  msix : mapOk dfltMsix d.msix = true
  ages : mapOk dfltAges d.ages = true
  flagged : mapOk dfltFlagged d.flagged = true
  drvMap : mapOk dfltDrvMap d.drvMap = true
  lines : mapOk dfltLines d.lines = true
  xlats : mapOk dfltXlats d.xlats = true
  promo : mapOk dfltPromo d.promo = true
  promoJob : mapOk dfltPromoJob d.promoJob = true
  promoReads : mapOk dfltPromoReads d.promoReads = true
  frameBusy : mapOk dfltFrameBusy d.frameBusy = true
  dqFailed : mapOk dfltDqFailed d.dqFailed = true
  backInval : mapOk dfltBackInval d.backInval = true
  groupLost : mapOk dfltGroupLost d.groupLost = true
  training : mapOk dfltTraining d.training = true
  groupPoison : mapOk dfltGroupPoison d.groupPoison = true
  rowErrs : mapOk dfltRowErrs d.rowErrs = true
  rowRepair : mapOk dfltRowRepair d.rowRepair = true
  bankRepairs : mapOk dfltBankRepairs d.bankRepairs = true
  bankCopy : mapOk dfltBankCopy d.bankCopy = true
  spareBanks : mapOk dfltSpareBanks d.spareBanks = true
  rings : mapOk dfltRings d.rings = true
  rr : mapOk dfltRr d.rr = true
  keptMaps : mapOk dfltKeptMaps d.keptMaps = true
  lookups : mapOk dfltLookups d.lookups = true
  catalog : mapOk dfltCatalog d.catalog = true
  slotRefs : mapOk dfltSlotRefs d.slotRefs = true
  lostExt : mapOk dfltLostExt d.lostExt = true
  disturb : mapOk dfltDisturb d.disturb = true
  blockMap : mapOk dfltBlockMap d.blockMap = true
  erases : mapOk dfltErases d.erases = true
  badBlocks : mapOk dfltBadBlocks d.badBlocks = true
  streamers : mapOk dfltStreamers d.streamers = true
  rootKeys : mapOk dfltRootKeys d.rootKeys = true
  colGroups : mapOk dfltColGroups d.colGroups = true
  moved : mapOk dfltMoved d.moved = true
  pfxNodes : mapOk dfltPfxNodes d.pfxNodes = true
  pfxRefs : mapOk dfltPfxRefs d.pfxRefs = true
  pfxKeys : mapOk dfltPfxKeys d.pfxKeys = true
  pfxLost : mapOk dfltPfxLost d.pfxLost = true
  seqTails : mapOk dfltSeqTails d.seqTails = true
  seqService : mapOk dfltSeqService d.seqService = true
  ports : mapOk dfltPorts d.ports = true
  egress : mapOk dfltEgress d.egress = true
  nbrs : mapOk dfltNbrs d.nbrs = true
  flows : mapOk dfltFlows d.flows = true
  routes : mapOk dfltRoutes d.routes = true
  linkKeys : mapOk dfltLinkKeys d.linkKeys = true
  linkSeen : mapOk dfltLinkSeen d.linkSeen = true
  tenantKeys : mapOk dfltTenantKeys d.tenantKeys = true
  colOps : mapOk dfltColOps d.colOps = true
  sessions : mapOk dfltSessions d.sessions = true
  ingPubs : mapOk dfltIngPubs d.ingPubs = true
  ingReplaced : mapOk dfltIngReplaced d.ingReplaced = true
  ingClear : mapOk dfltIngClear d.ingClear = true
  clkHeld : mapOk dfltClkHeld d.clkHeld = true
  memKey : mapOk dfltMemKey d.memKey = true
  secPending : mapOk dfltSecPending d.secPending = true
  bootFlash : mapOk dfltBootFlash d.bootFlash = true
  pciHeld : mapOk dfltPciHeld d.pciHeld = true
  dbBind : mapOk dfltDbBind d.dbBind = true
  halfRead : mapOk dfltHalfRead d.halfRead = true
  halfWrite : mapOk dfltHalfWrite d.halfWrite = true
  sensors : mapOk dfltSensors d.sensors = true
  laneMarks : mapOk dfltLaneMarks d.laneMarks = true
  marked : mapOk dfltMarked d.marked = true
  sideband : mapOk dfltSideband d.sideband = true
  flashDead : mapOk dfltFlashDead d.flashDead = true
  scrubPos : mapOk dfltScrubPos d.scrubPos = true

/-- The state is in good order: its block is. -/
def State.Ok (s : State) : Prop := s.dev.Ok

/-- No waiting command stops the machine: each names elements the block has. -/
def State.Safe (s : State) : Prop := ∀ c ∈ s.pending, c.wellFormed = true

/-- The command completes: it answers a next state, with the queue as it was and a block of which `P` holds. -/
def Completes (c : Instr) (s : State) (P : Device → Prop) : Prop := ∃ d, exec c s = .next { s with dev := d } ∧ P d

/-- The command completes and leaves exactly the block `e` makes of `d`, with the queue as it was. -/
def Gives (c : Instr) (s : State) (d : Device) (e : Eff) : Prop := exec c s = .next { s with dev := e.run d }

/-- The command completes with exactly the effect `e`: it answers the next state in which the queue is as it was and the block is
what `e` makes of it. -/
def Does (c : Instr) (s : State) (e : Eff) : Prop := Gives c s s.dev e

/-- What comes before a requester's command on a block outside the always-on domain: what the requester held of a half access is
ended (R506), an entry to REST is abandoned for an access that may wake the device, and in REST the device wakes (R424). -/
def beforeAccess (rq : Nat) : Eff := .seq (dropHalves rq) <| .obs fun d =>
  if powered d then .when (!isSteward rq && wakeEnabled d 0 && d.fld F.PWR_WAKE_auto 0 == 1 && powerState d == 4) abandonRest
  else wakeWhole 0

/-- A requester's command is served by a block outside the always-on domain (R424, R485): the device is up, or in REST and woken
by it. The command finds the device as `d`. -/
structure Asks (s : State) (rq : Nat) (d : Device) : Prop where
  inRange : rq < 2049
  answers : answering s.dev rq = true
  served : powered s.dev = true ∨
    (powerState s.dev = 1 ∧ isSteward rq = false ∧ wakeEnabled s.dev 0 = true ∧ s.dev.fld F.PWR_WAKE_auto 0 = 1)
  found : (beforeAccess rq).run s.dev = d

/-- A requester's command is served by a block of the always-on domain (R424, R485), and finds the device as `d`. -/
structure AsksAon (s : State) (rq : Nat) (d : Device) : Prop where
  inRange : rq < 2049
  answers : answering s.dev rq = true
  found : (dropHalves rq).run s.dev = d

/-- A requester's write of `v` to a register outside the always-on domain is served, and acts through bit `b`, to which
the requester has the right; the fields written are stored, and the action finds the device as `d` (R10, R489). -/
structure Writes (s : State) (rq : Nat) (r : Reg) (i v b : Nat) (d : Device) : Prop where
  asks : Asks s rq ((beforeAccess rq).run s.dev)
  right : bit (mayWrite ((beforeAccess rq).run s.dev) rq r i) b = 1
  found : (storeWrite rq r i v).run ((beforeAccess rq).run s.dev) = d

/-- The same of a register of the always-on domain. -/
structure WritesAon (s : State) (rq : Nat) (r : Reg) (i v b : Nat) (d : Device) : Prop where
  asks : AsksAon s rq ((dropHalves rq).run s.dev)
  right : bit (mayWrite ((dropHalves rq).run s.dev) rq r i) b = 1
  found : (storeWrite rq r i v).run ((dropHalves rq).run s.dev) = d

/-- A requester's access to register `r` is served, wherever the block of the register lies, and finds the device as `d`. -/
def AsksFor (s : State) (rq : Nat) (r : Reg) (d : Device) : Prop := if alwaysOn r then AsksAon s rq d else Asks s rq d

/-- The registers a write of which does nothing but what R10 says of each field: no command of the block starts with it, and no rule
of the register keeps or bounds a field. -/
def plainReg : Reg → Bool
  | .STW_SITE_QUERY | .FIG_LOAD | .FIG_SWITCH | .FIG_STAGE | .FIG_MINVER | .PRT_PFX_BASE | .PRT_PFX_CTRL | .PRT_SEQ_DOORBELL
  | .PRT_SEQ_RING_BASE | .FLR_WAYMAP | .FLR_WAYOWN | .DRM_TRAIN | .DRM_PROMOTE | .DRM_CTX_MAP | .FLS_CMD | .DMA_RING_BASE
  | .DMA_RING_CFG | .DMA_RING_DOORBELL | .DMA_RING_CTRL | .EVT_CUE_SEL | .EVT_CUE | .EVT_CUE_ADD | .LNK_PROM_CTRL
  | .LNK_TOPO_BASE | .LNK_FLOW_CTRL | .COL_PRT_LIST | .COL_PRT_REMOVE | .VCE_CTRL | .VCE_RETURN | .ING_CTRL
  | .ING_STREAM_BASE | .ING_STREAM_CTRL | .PRT_CTRL | .PRT_SVC_MODE | .PRT_EVT_SPILL | .CTX_BIND | .CTX_PRIO | .PRT_SCHED
  | .CTX_SAVE | .CTX_RUN | .CTX_FAULT | .CTX_SEED | .PWR_STATE | .PWR_LIMIT | .CLK_CLU_CTRL | .TST_CMD | .STW_FLOG_BASE
  | .SEC_ALARM_POLICY | .SEC_CTX_KEY | .SEC_CMD | .STW_FW_CTRL | .STW_DB_BIND | .HALT_CTRL => false
  | _ => true

/-- The address under which a half access is held: the context area's are apart from the register space's (R493, R506). -/
def halfKey (area : Bool) (a : Nat) : Nat := (if area then 2 ^ 32 else 0) + a

/-- The sequencer arrives at its step: the loops that open there are opened (R75). -/
def arriveAt (x : StepCtx) : Eff := modCores x.core fun k => { k with seq := x.q }

/-- A core is about to run a step of kind `kind`: its cluster is clocked, nothing holds it back, and `x` is the step at its
pointer once its loops are opened (R75), with the memory errors that its reads meet; the step finds the device as `d`. -/
structure Runs (s : State) (core kind : Nat) (x : StepCtx) (d : Device) : Prop where
  inRange : core < 2048
  clock : clocked s.dev (core / 16) = true
  free : canIssue s.dev core x.w = true
  step : stepCtx s.dev core = some { x with fixed := [], lost := [] }
  kind_eq : stepKind x.w = kind
  core_eq : x.core = core
  found : (arriveAt x).run s.dev = d

/-- A tile operand of `n` granules at `g`, read on the device `d`, lies in tile memory, and none of its words that `need`
selects is poisoned (R78, R223); the device is then `d'`. -/
structure ReadsWords (x : StepCtx) (d : Device) (g : Int) (n : Nat) (need : Nat → Bool) (d' : Device) : Prop where
  inside : granulesOk g n = true
  sound : poisonedWords ((spanErrors x g.toNat n need).run d) x.core g.toNat n need = none
  found : (noteRead x.core g.toNat n).run ((spanErrors x g.toNat n need).run d) = d'

/-- A tile operand that is read whole, and rows of one of which the elements' bytes are read (R86). -/
abbrev ReadsTile (x : StepCtx) (d : Device) (g : Int) (n : Nat) (d' : Device) : Prop := ReadsWords x d g n wholeWords d'
abbrev ReadsRows (x : StepCtx) (d : Device) (g : Int) (rows pitch n : Nat) (d' : Device) : Prop :=
  ReadsWords x d g (rows * pitch) (rowWords pitch n) d'

/-- A tile operand of `n` granules at `g`, read on the device `d`, faults with `code` and the datum `bad`: it leaves tile memory
(TILE_RANGE), or a word of it that `need` selects is poisoned (TILE_ECC, R78, R223); the device is then `d'`. -/
def BadWords (x : StepCtx) (d : Device) (g : Int) (n : Nat) (need : Nat → Bool) (code bad : Nat) (d' : Device) : Prop :=
  (granulesOk g n = false ∧ code = 0x01 ∧ bad = (g % 2 ^ 56).toNat ∧ d' = d) ∨
    (granulesOk g n = true ∧ code = 0x04 ∧ (spanErrors x g.toNat n need).run d = d' ∧
      poisonedWords d' x.core g.toNat n need = some bad)

/-- The bytes and the granules of a row of a ROW step (R86). -/
def rowSize (x : StepCtx) : Nat := (sb x.w 19 8 + 1) * (if sb x.w 7 7 == 1 then 4 else 2)
def rowPitch (x : StepCtx) : Nat := ceilDiv (rowSize x) 64

/-- `n` granules from `g` of a core's tile memory are read by none of its HALOs in flight (R70, R102). -/
def unread (d : Device) (core g n : Nat) : Bool :=
  (halosOf d core).all fun h => h.first + h.bytes.length / 64 ≤ g || g + n ≤ h.first

/-- A tile destination of `n` granules at `g` lies in tile memory (R78), and no HALO in flight reads it; the device is then `d'`. -/
structure TakesDest (x : StepCtx) (d : Device) (g : Int) (n : Nat) (d' : Device) : Prop where
  inside : granulesOk g n = true
  free : unread d x.core g.toNat n = true
  found : (noteWrite x.core g.toNat n).run d = d'

/-- The translations that a step's access to offsets `os` of a window misses are walked: no map they read is held or has an error
that cannot be corrected (R248, R252); the device is then `d'`. -/
structure Walks (x : StepCtx) (d : Device) (win : WindowRec) (os : List Int) (d' : Device) : Prop where
  free : agentHeld d (some x.part) (walkAddrs d x.part (stepPages d x win os)) = false
  sound : anyPoison ((memErrors (walkAddrs d x.part (stepPages d x win os)) x.fixed x.lost).run d)
    (walkAddrs d x.part (stepPages d x win os)) = false
  found : (Eff.obs fun d1 => .each (coreCluster d1 x.core).toList fun s => .each (stepPages d x win os) (cachePage s)).run
    ((memErrors (walkAddrs d x.part (stepPages d x win os)) x.fixed x.lost).run d) = d'

/-- The unit of a die has request `q` in service, of operation `op` and in range, and its partition's tree is not lost (R169, R173,
R180). -/
structure Serves (s : State) (die op : Nat) (q : SeqReq) : Prop where
  inRange : die < 16
  working : working s.dev = true
  request : (s.dev.seqServiceAt die).bind (fun k => seqRequest s.dev (k / 64) (k % 64)) = some q
  op_eq : q.op = op
  formed : seqMalformed s.dev q = false
  kept : treeLost s.dev q.part = false

/-- Command `c` has the descriptor at the head of ring `n` read, and the engine of the ring finds the device as `d` (R277, R283): a
doorbell that its writer may ring, a poll, or a resume of a halted ring; `fixed` and `lost` are the errors the read meets. -/
def Fetches (s : State) (c : Instr) (n : Nat) (fixed lost : List Nat) (d : Device) : Prop :=
  n < 10392 ∧
    ((∃ rq, c = .ringDoorbell rq n fixed lost ∧ Asks s rq d ∧ (isSteward rq || !siteGone d .DMA_RING_DOORBELL n) = true ∧
        mayWrite d rq .DMA_RING_DOORBELL n ≠ 0) ∨
      (c = .ringPoll n fixed lost ∧ d = s.dev) ∨
      (∃ rq v d0, c = .ringResume rq n v fixed lost ∧ Writes s rq .DMA_RING_CTRL n v 31 d0 ∧
        (isSteward rq || !siteGone ((beforeAccess rq).run s.dev) .DMA_RING_CTRL n) = true ∧ bit v 31 = 1 ∧
        ringState d0 n = 3 ∧ (setF F.DMA_RING_STAT_state n (if (d0.ringsAt n).isEmpty then 1 else 2)).run d0 = d))

/-- A ring's engine serves it and may take a further descriptor of it (R277). -/
structure TakesMore (d : Device) (n : Nat) : Prop where
  serving : serving d = true
  served : ringServed d n = true
  state : ringState d n = 1 ∨ ringState d n = 2
  room : (d.ringsAt n).length < takenLimit

/-- A library command begins: its op and entry are shown, it is busy, and it holds its arguments (R260). -/
def libraryBegins (op entry : Nat) : Eff := .obs fun d => .all [setF F.FLS_CMD_op 0 op, setF F.FLS_CMD_entry 0 entry,
  setF F.FLS_STATUS_busy 0 1, setF F.FLS_STATUS_op 0 op, setF F.FLS_STATUS_entry 0 entry,
  putFlsPending (some { op := op, entry := entry, a := d.reg .FLS_ARG_A 0, b := d.reg .FLS_ARG_B 0 })]

/-- A library command that need not wait takes effect: its result code waits for FLS_CMD_COMPLETE (R260, R261), and `e` happens. -/
def libraryRuns (j : FlsJob) (code : Nat) (e : Eff) : Eff := .seq (putFlsPending (some { j with code := some code })) e

/-- The driver of a physical function or the steward asks for library command `op` on entry `entry`, none being busy; the command
begins, and the device is then `d`, with `j` the command in progress. -/
structure AsksLibrary (s : State) (rq op entry : Nat) (d : Device) (j : FlsJob) : Prop where
  asks : ∃ d0, Asks s rq d0 ∧ d0.fld F.FLS_STATUS_busy 0 = 0 ∧ (libraryBegins op entry).run d0 = d ∧
    j = { op := op, entry := entry, a := d0.reg .FLS_ARG_A 0, b := d0.reg .FLS_ARG_B 0 }
  inRange : entry < 4096
  right : (isSteward rq || isPf rq) = true

/-- The same, and the command runs at once: no stack is lost, and nothing it needs is held or paused (R262). -/
structure RunsLibrary (s : State) (rq op entry : Nat) (d : Device) (j : FlsJob) : Prop where
  asks : AsksLibrary s rq op entry d j
  whole : stackLost d = false
  free : jobHeld d j = false

/-- A whole packet `p`, no flit of which fails its parity, arrives over a link that is up, its first flit the next in order (R299,
R305); its flits are counted as received, and it is handled on the device as `d`. -/
structure Comes (s : State) (i seq : Nat) (bs : List Byte) (p : Packet) (d : Device) : Prop where
  inRange : i < 96
  seqRange : seq < 4096
  short : bs.length < 66050
  powered : powered s.dev = true
  up : linkUp s.dev i = true
  sound : badFlit bs = none
  whole : wholePacket bs = true
  packet_eq : packetOf bs = p
  order : (s.dev.portsAt i).received % 4096 = seq
  found : (modPorts i fun q => { q with received := q.received + p.length, partialFlits := 0 }).run s.dev = d

/-- The same of a packet that this device takes: its flits leave the receive buffer and a control flit acknowledges them (R303, R304)
before it is handled. -/
def Arrives (s : State) (i seq : Nat) (bs : List Byte) (p : Packet) (d : Device) : Prop :=
  ∃ d0, Comes s i seq bs p d0 ∧ (Eff.seq (freeFlits i p) (sendControl i false)).run d0 = d

/-- A packet passes every check of its flow entry `k`, whose receive bit is `recv`, and carries the plaintext `data` for a context
that runs (R310, R470); the device is then `d'`. -/
structure Admits (d : Device) (recv : Nat) (p : Packet) (k : Nat) (f : Flow) (data : List Byte) (d' : Device) : Prop where
  flow : recvFlow d p = some (k, f)
  right : bit f.flags recv ≠ 0
  epoch : (bit f.flags 4 == 1 && p.epoch != f.epoch) = false
  channel : ((p.kind != 2 || p.vc != 0) && !flowVc f p.vc) = false
  opened : openPacket d k f p = some data
  runs : ctxRuns d p.dstCtx = true
  found : (acceptCounter k f p).run d = d'

/-- A collective packet with message `msg` arrives for this device, is admitted, and names group entry `g` by its key, in the epoch
it must have, from a member (R331); its group's part acts on `p` and finds the device as `d`. -/
structure Reaches (s : State) (i seq : Nat) (bs : List Byte) (msg g : Nat) (p : Packet) (d : Device) : Prop where
  comes : ∃ q d1 k f data, Arrives s i seq bs q d1 ∧ forMe i 5 s.dev q = true ∧ bodyMsg q = msg ∧ Admits d1 2 q k f data d ∧
    ((ctxPart d1 q.dstCtx).bind fun x => (partEntries d1 x).find? fun e =>
      d1.fld F.COL_GROUP_valid e == 1 && d1.reg .COL_GROUP_KEY e == bodyKey q) = some g ∧
    bodyEpoch q = (if msg == 4 || msg == 7 then nextEpoch (d1.fld F.COL_GROUP_epoch g) else d1.fld F.COL_GROUP_epoch g) ∧
    (d1.colGroupsAt g).current.contains q.src = true ∧ p = { q with data := data }

/-- The oldest unfinished descriptor of a collective ring is one of op `op` that its group may begin: the ring is served, no operation
is under way on it, the group is whole and not re-forming, the operands read, and the staging area is large enough (R334, R336); `o`
is the operation it makes. -/
structure Begins (s : State) (n op : Nat) (o : ColOp) : Prop where
  inRange : n < 9984
  ok : s.Ok
  working : working s.dev = true
  ring : (ringKind n == .col && ringServed s.dev n && (ringState s.dev n == 2 || ringState s.dev n == 3)) = true
  free : s.dev.colOpsAt n = none
  next : ∃ i x ps, (s.dev.ringsAt n).findIdx? (·.status.isNone) = some i ∧ (s.dev.ringsAt n)[i]? = some x ∧
    bits x.ctrl 30 28 = op ∧ (bit x.ctrl 23 == 0 || i == 0) = true ∧ descGroup s.dev n x = some o.entry ∧
    colParts s.dev n x = .ok ps ∧
    o = { index := x.index, entry := o.entry, serial := (s.dev.colGroupsAt o.entry).serial, op := innerOp x,
          algo := colAlgo (innerOp x) (s.dev.fld F.COL_GROUP_algorithm o.entry), root := x.num 0x1E 2, parts := ps,
          seg := x.num 0x2C 4, total := (ps.map (·.granules)).sum } ∧
    o.root < groupSize s.dev o.entry ∧
    64 * stagingNeed o.op o.algo (if op = 5 then o.total else o.granules) (groupSize s.dev o.entry) ≤ x.num 0x28 4
  whole : s.dev.fld F.COL_GROUP_broken o.entry ≠ 1 ∧ s.dev.fld F.COL_GROUP_excluded o.entry ≠ 1 ∧
    (s.dev.colGroupsAt o.entry).forming = false

/-- A codec engine that serves its rings takes the next job in turn, `x` of ring `n`, which is of op `op` (R356, R358), and carries it
out on the device as `d`. -/
structure TakesJob (s : State) (e op n : Nat) (x : Desc) (d : Device) : Prop where
  inRange : e < 34
  serving : serving s.dev = true
  serves : engineServes s.dev e = true
  turn : jobTurn s.dev e = some (n, x)
  op_eq : x.op = op
  found : (putRr (32 + e) n).run s.dev = d

/-- A key or attestation command takes effect (R463, R466): the window is busy, its code waits for SEC_CMD_COMPLETE, and `e`
happens. -/
def keyRuns (w op index code : Nat) (e : Eff) : Eff :=
  .all [setF F.SEC_CMD_busy w 1, putSecPending w (some (op, index, code)), e]

/-- A requester writes SEC_CMD of window `w` with go, op `op` and `index`, in range (R463); the window is not busy and nothing
bars the op (R466). The command finds the device as `d`. -/
structure AsksKeys (s : State) (rq w op index : Nat) (d : Device) : Prop where
  window : w < 33
  op_lt : op < 16
  index_lt : index < 65536
  asks : WritesAon s rq .SEC_CMD w (secValue op index) 31 d
  idle : d.fld F.SEC_CMD_busy w = 0
  allowed : secQuarantined d op = false
  inRange : secInRange w op index (secArg d w) = true

/-- Two devices hold the same of what programs compute with: device memory, tile memory and the accumulator banks byte by byte, and
the cores, the cues, the semaphores and the contexts. -/
structure SameWork (d d' : Device) : Prop where
  mem : ∀ a, d'.memAt a = d.memAt a
  tile : ∀ a, d'.tmemAt a = d.tmemAt a
  acc : ∀ a, d'.accAt a = d.accAt a
  cores : ∀ k, d'.coresAt k = d.coresAt k
  cues : ∀ k, d'.cuesAt k = d.cuesAt k
  sems : ∀ k, d'.semsAt k = d.semsAt k
  ctxs : ∀ k, d'.ctxsAt k = d.ctxsAt k

/-- The commands of which no rule gives an effect on what programs compute with. -/
def keepsWork : Instr → Bool
  | .badSizeAccess _ _ | .siteResultValid _ | .dqLaneFail _ | .autoPromote _ _ | .frameFree _ _ | .cueSelect _ _ _
  | .laneSwitch _ _ _ | .controlFlit _ _ _ _ | .retryReplay _ | .linkDownTimeout _ | .groupFailover _ _ _
  | .failoverPacket _ _ _ | .linkSiteFail _ | .siteRetrainDone _ | .packetAdmit _ _ | .packetForward _ _ _ | .endToEndAck _ _ _
  | .refusal _ _ _ | .e2eTimeout _ | .portTraining _ _ | .portTrainDone _ _ _ | .identityExchange _ _ _ _ _ _ _ _ _ _
  | .candidateFlood _ _ _ | .assign _ _ _ _ _ | .assignAnswer _ _ _ | .promenadeDone _ _ _ | .rootLostTimeout | .portAttach _ _
  | .portRetrainRetry _ | .allReduce _ | .reduceScatter _ | .allGather _ | .broadcast _ | .allToAll _ | .fused _
  | .colReady _ _ _ | .colData _ _ _ | .stepTimeout _ _ | .suspect _ _ _ | .reformAck _ _ _ | .colCommit _ _ _ | .exclude _ _ _
  | .leaderTimeout _ | .vceClose _ _ | .regulatorAdmit _ _ _ _ | .vinSample _ _ | .clusterClockStop _ | .clusterGate _
  | .governorTick _ _ _ _ _ _ | .restCollectiveTimeout | .aonRefLoss | .replan _ _ _ _ | .peakCharge | .selfTestCmd _ _
  | .selfTestAbort _ _ | .faultLogFlush | .stewardTakeover _ _ | .keyLoad _ _ _ | .keyErase _ _ _ | .keyUnseal _ _ _
  | .linkKeyLoad _ _ _ | .rootMsg _ _ _ | .ctxKeyWrite _ _ _ | .alarmPolicyWrite _ _ | .debugNonceRead
  | .perstRelease _ _ _ _ _ | .configRequest _ _ _ | .vfEnable _ _ | .fwWriteSlot _ _ _ | .fwPreferSlot _ _ _
  | .fwCommitMinver _ _ | .dbBind _ _ | .dbUnbind _ _ | .uncorrectableCodeword _ _ | .stewardDieLoss | .secCmdComplete _
  | .fwCtrlComplete | .flowTableLoadDone => true
  | _ => false

/-- The commands of which no rule gives an effect on a register. -/
def keepsRegs : Instr → Bool
  | .routeInstall | .groupPoisonDone _ | .frameFree _ _ | .packetAdmit _ _ | .e2eTimeout _ | .regulatorAdmit _ _ _ _
  | .faultLogFlush | .debugNonceRead | .stewardDieLoss => true
  | _ => false

end Sys2Proof.Machine
end

