-- ==== Sys2Proof/Certificates/Slice0/Obligations.lean ====
section
/-! DEFINITION. What is to be proved of the model: for each command what it does, family by family, and what holds of all of them.
In each clause `d` is the block as the command finds it. -/

open Sys2Proof Sys2Proof.Machine

/-- REGISTER_WRITE, HALF_WRITE_LOW, HALF_WRITE_HIGH and BAD_SIZE_ACCESS, in the register space and in a context area. A register
written by a requester with the right to it takes in each field what R10 says; without the right nothing is stored and the denial is
counted; a register whose write starts a command or has a rule of its own has that effect (`writeReg`); a hole discards the write.
The low half of a 64-bit register is held, and is committed with the high half; a high half alone is committed with the low half
as it stands. An access of a bad size is discarded, or reads 0, and is counted. Where the device does not answer, nothing happens. -/
def Obligations.RegisterWrites : Prop :=
  (∀ (s : State) (d : Device) (rq a v i : Nat) (area : Bool) (r : Reg), plainReg r = true → AsksFor s rq r d →
    writeSpot s.dev rq area a = some (r, i) → mayWrite d rq r i ≠ 0 →
    Gives (.registerWrite rq area a v) s d
      (setReg r i (regAfter r (mayWrite d rq r i) (d.reg r i) (if r.info.wide then v % 2 ^ 64 else v % 2 ^ 32)))) ∧
  (∀ (s : State) (d : Device) (rq a v i : Nat) (area : Bool) (r : Reg), plainReg r = true → AsksFor s rq r d →
    writeSpot s.dev rq area a = some (r, i) → mayWrite d rq r i = 0 →
    Gives (.registerWrite rq area a v) s d (addSat F.STW_HIF_DENY_registers 0 1)) ∧
  (∀ (s : State) (d : Device) (rq a v i : Nat) (area : Bool) (r : Reg), AsksFor s rq r d →
    writeSpot s.dev rq area a = some (r, i) →
    Gives (.registerWrite rq area a v) s d (writeReg rq r i (if r.info.wide then v % 2 ^ 64 else v % 2 ^ 32))) ∧
  (∀ (s : State) (d : Device) (rq a v : Nat) (area : Bool), AsksAon s rq d → writeSpot s.dev rq area a = none →
    Gives (.registerWrite rq area a v) s d .skip) ∧
  (∀ (s : State) (d : Device) (rq a v i : Nat) (area : Bool) (r : Reg), AsksFor s rq r d →
    writeSpot s.dev rq area a = some (r, i) → r.info.wide = true →
    Gives (.halfWriteLow rq area a v) s d (putHalfWrite rq (some (halfKey area a, v % 2 ^ 32)))) ∧
  (∀ (s : State) (d : Device) (rq a v : Nat) (area : Bool), AsksAon s rq d →
    ((writeSpot s.dev rq area a).filter fun x => x.1.info.wide) = none →
    Gives (.halfWriteLow rq area a v) s d .skip ∧ Gives (.halfWriteHigh rq area a v) s d .skip) ∧
  (∀ (s : State) (d : Device) (rq a v low i : Nat) (area : Bool) (r : Reg), AsksFor s rq r d →
    writeSpot s.dev rq area a = some (r, i) → r.info.wide = true → s.dev.halfWriteAt rq = some (halfKey area a, low) →
    Gives (.halfWriteHigh rq area a v) s d (writeReg rq r i (v % 2 ^ 32 * 2 ^ 32 + low))) ∧
  (∀ (s : State) (d : Device) (rq a v low i : Nat) (area : Bool) (r : Reg), plainReg r = true → AsksFor s rq r d →
    writeSpot s.dev rq area a = some (r, i) → r.info.wide = true → s.dev.halfWriteAt rq = some (halfKey area a, low) →
    mayWrite d rq r i ≠ 0 →
    Gives (.halfWriteHigh rq area a v) s d
      (setReg r i (regAfter r (mayWrite d rq r i) (d.reg r i) (v % 2 ^ 32 * 2 ^ 32 + low)))) ∧
  (∀ (s : State) (d : Device) (rq a v i : Nat) (area : Bool) (r : Reg), AsksFor s rq r d →
    writeSpot s.dev rq area a = some (r, i) → r.info.wide = true →
    ((s.dev.halfWriteAt rq).filter fun h => h.1 == halfKey area a) = none →
    Gives (.halfWriteHigh rq area a v) s d (writeReg rq r i (v % 2 ^ 32 * 2 ^ 32 + d.reg r i % 2 ^ 32))) ∧
  (∀ (s : State) (d : Device) (rq : Nat) (write : Bool), AsksAon s rq d →
    Gives (.badSizeAccess rq write) s d (.seq (addSat F.STW_HIF_DENY_registers 0 1) (.when (!write) (reply rq 0)))) ∧
  (∀ (s : State) (rq a v : Nat) (area write : Bool), rq < 2049 → answering s.dev rq = false →
    Does (.registerWrite rq area a v) s .skip ∧ Does (.halfWriteLow rq area a v) s .skip ∧
    Does (.halfWriteHigh rq area a v) s .skip ∧ Does (.badSizeAccess rq write) s .skip)

/-- REGISTER_READ_CLEAR, HALF_READ_LOW and HALF_READ_HIGH, in the register space and in a context area. A read returns the register
and clears its read-clear fields: of the whole register, of the half a narrow read lies in, or of the low half with the high half
kept for the next access. A high half kept is returned; with none kept the current one is, and its read-clear fields clear. Without
the right 0 is read and the denial is counted; a hole reads 0; a slot of the doorbell page and an entry of the routing tables read as
they stand. In recovery mode the steward's port shows the recovery interface, and where the device does not answer nothing
happens. `Config.freeWord` stands for what the spec leaves to the hardware (log entry 30). -/
def Obligations.RegisterReads : Prop :=
  (∀ (s : State) (d : Device) (rq a i : Nat) (area ok : Bool) (r : Reg), AsksFor s rq r d → (area && a < 0x1000) = false →
    (s.dev.off == 0 && rq == 1 && s.dev.fld F.STW_BOOT_recovery 0 == 1) = false →
    readSpot s.dev rq area a = some ((r, i), ok) → (ok || mayRead d rq r i) = true →
    Gives (.registerReadClear rq area a 0) s d
      (.all [putFree (d.free + 1), reply rq (readValue d rq r i (Config.freeWord d.free).toNat), clearRc r i 63 0])) ∧
  (∀ (s : State) (d : Device) (rq a size i : Nat) (area ok high : Bool) (r : Reg), AsksFor s rq r d → (area && a < 0x1000) = false →
    (s.dev.off == 0 && rq == 1 && s.dev.fld F.STW_BOOT_recovery 0 == 1) = false → (size = 1 ∨ size = 2) →
    wordSpot s.dev rq area (a / 4 * 4) = some (((r, i), ok), high) → (ok || mayRead d rq r i) = true →
    Gives (.registerReadClear rq area a size) s d (.all [putFree (d.free + 1),
      reply rq (readValue d rq r i (Config.freeWord d.free).toNat / 2 ^ ((if high then 32 else 0) + 8 * (a % 4)) % 2 ^ (8 * size)),
      if high then clearRc r i 63 32 else clearRc r i 31 0])) ∧
  (∀ (s : State) (d : Device) (rq a size i : Nat) (area high : Bool) (r : Reg), AsksFor s rq r d → (area && a < 0x1000) = false →
    (s.dev.off == 0 && rq == 1 && s.dev.fld F.STW_BOOT_recovery 0 == 1) = false →
    (size = 0 ∧ readSpot s.dev rq area a = some ((r, i), false)) ∨
      ((size = 1 ∨ size = 2) ∧ wordSpot s.dev rq area (a / 4 * 4) = some (((r, i), false), high)) →
    mayRead d rq r i = false →
    Gives (.registerReadClear rq area a size) s d (.seq (addSat F.STW_HIF_DENY_registers 0 1) (reply rq 0))) ∧
  (∀ (s : State) (d : Device) (rq a size : Nat) (area : Bool), AsksAon s rq d → (area && a < 0x1000) = false →
    (s.dev.off == 0 && rq == 1 && s.dev.fld F.STW_BOOT_recovery 0 == 1) = false →
    (size = 0 ∧ readSpot s.dev rq area a = none ∧ (area = true ∨ routeSpot a = none)) ∨
      ((size = 1 ∨ size = 2) ∧ wordSpot s.dev rq area (a / 4 * 4) = none) →
    Gives (.registerReadClear rq area a size) s d (reply rq 0)) ∧
  (∀ (s : State) (d : Device) (rq a k : Nat), Asks s rq d →
    (s.dev.off == 0 && rq == 1 && s.dev.fld F.STW_BOOT_recovery 0 == 1) = false →
    readSpot s.dev rq false a = none → routeSpot a = some k →
    ((isSteward rq || pfOrOwner d rq) = true → Gives (.registerReadClear rq false a 0) s d (reply rq (d.routesAt k).toNat)) ∧
    ((isSteward rq || pfOrOwner d rq) = false →
      Gives (.registerReadClear rq false a 0) s d (.seq (addSat F.STW_HIF_DENY_registers 0 1) (reply rq 0)))) ∧
  (∀ (s : State) (d : Device) (rq a size c : Nat), Asks s rq d → size < 3 → a < 0x1000 → ctxOfRq rq = some c →
    (s.dev.off == 0 && rq == 1 && s.dev.fld F.STW_BOOT_recovery 0 == 1) = false →
    Gives (.registerReadClear rq true a size) s d (.seq (putFree (d.free + 1))
      (reply rq (if a % 16 == 0 && (ctxPart d c).isSome then slotValue d c (a / 16) (Config.freeWord d.free).toNat else 0)))) ∧
  (∀ (s : State) (d : Device) (rq a i : Nat) (area ok : Bool) (r : Reg), AsksFor s rq r d →
    readSpot s.dev rq area a = some ((r, i), ok) → r.info.wide = true →
    ((ok || mayRead d rq r i) = true → Gives (.halfReadLow rq area a) s d (.all [putFree (d.free + 1),
      reply rq (readValue d rq r i (Config.freeWord d.free).toNat % 2 ^ 32),
      putHalfRead rq (some (halfKey area a, readValue d rq r i (Config.freeWord d.free).toNat / 2 ^ 32)), clearRc r i 63 0])) ∧
    ((ok || mayRead d rq r i) = false → Gives (.halfReadLow rq area a) s d (.all [addSat F.STW_HIF_DENY_registers 0 1,
      reply rq 0, putHalfRead rq (some (halfKey area a, 0))]))) ∧
  (∀ (s : State) (d : Device) (rq a i high : Nat) (area ok : Bool) (r : Reg), AsksFor s rq r d →
    readSpot s.dev rq area a = some ((r, i), ok) → r.info.wide = true → s.dev.halfReadAt rq = some (halfKey area a, high) →
    Gives (.halfReadHigh rq area a) s d (reply rq high)) ∧
  (∀ (s : State) (d : Device) (rq a i : Nat) (area ok : Bool) (r : Reg), AsksFor s rq r d →
    readSpot s.dev rq area a = some ((r, i), ok) → r.info.wide = true →
    ((s.dev.halfReadAt rq).filter fun h => h.1 == halfKey area a) = none →
    ((ok || mayRead d rq r i) = true → Gives (.halfReadHigh rq area a) s d (.all [putFree (d.free + 1),
      reply rq (readValue d rq r i (Config.freeWord d.free).toNat / 2 ^ 32), clearRc r i 63 32])) ∧
    ((ok || mayRead d rq r i) = false →
      Gives (.halfReadHigh rq area a) s d (.seq (addSat F.STW_HIF_DENY_registers 0 1) (reply rq 0)))) ∧
  (∀ (s : State) (d : Device) (rq a : Nat) (area : Bool), AsksAon s rq d →
    ((readSpot s.dev rq area a).filter fun x => x.1.1.info.wide) = none →
    Gives (.halfReadLow rq area a) s d (reply rq 0) ∧ Gives (.halfReadHigh rq area a) s d (reply rq 0)) ∧
  (∀ (s : State) (a size : Nat) (area : Bool), size < 3 → s.dev.off = 0 → s.dev.fld F.STW_BOOT_recovery 0 = 1 →
    Gives (.registerReadClear 1 area a size) s s.dev
      (.seq (putFree (s.dev.free + 1)) (reply 1 (recoveryRead s.dev a (Config.freeWord s.dev.free).toNat)))) ∧
  (∀ (s : State) (rq a size : Nat) (area : Bool), rq < 2049 → size < 3 → answering s.dev rq = false →
    (s.dev.off == 0 && rq == 1 && s.dev.fld F.STW_BOOT_recovery 0 == 1) = false →
    Does (.registerReadClear rq area a size) s .skip ∧ Does (.halfReadLow rq area a) s .skip ∧
    Does (.halfReadHigh rq area a) s .skip)

/-- SITE_QUERY stores the query, clears valid and starts a lookup; SITE_RESULT_VALID ends it with the binding then in use; another
requester's query is denied and counted, and with no lookup in progress nothing happens. -/
def Obligations.SiteLookups : Prop :=
  (∀ (s : State) (d : Device) (rq v : Nat), AsksAon s rq d → (isSteward rq || pfOrOwner d rq) = true →
    Gives (.siteQuery rq v) s d (.all [
      setReg .STW_SITE_QUERY rq (bits v 17 16 * 65536 + bits v 13 8 * 256 + bits v 6 0),
      setF F.STW_SITE_RESULT_valid rq 0, putLookups rq true])) ∧
  (∀ (s : State) (d : Device) (rq v : Nat), AsksAon s rq d → isSteward rq = false → pfOrOwner d rq = false →
    Gives (.siteQuery rq v) s d (addSat F.STW_HIF_DENY_registers 0 1)) ∧
  (∀ (s : State) (rq : Nat), rq < 2049 → up s.dev = true → s.dev.lookupsAt rq = true →
    Does (.siteResultValid rq) s (.seq (setReg .STW_SITE_RESULT rq (siteResult s.dev (s.dev.reg .STW_SITE_QUERY rq)))
      (putLookups rq false))) ∧
  (∀ (s : State) (rq : Nat), rq < 2049 → up s.dev = true → s.dev.lookupsAt rq = false → Does (.siteResultValid rq) s .skip)

/-- ENGINE_SUBSTITUTION, CORE_SUBSTITUTION, CLUSTER_SUBSTITUTION and DIE_SUBSTITUTION, once a self-test slice on a core they touch is
dropped. Where only the failed element is retired and it served, it is retired in the record and the binding, the generation
advances, what the new binding brings into service comes up, an engine or a core replays its beat or tears its context down, a
cluster or a die tears down every context on it, and the substitution is logged. An element that serves nothing costs no work. A
second engine of a core is retired with the first. Where the loss takes a parent with it, the context of an engine or a core ends
with SUBSTITUTION, and the work on the highest element retired is ended. -/
def Obligations.Substitutions : Prop :=
  (∀ (s : State) (d : Device) (core e k : Nat) (readable : Bool), core < 2601 → e < 5 → powered s.dev = true →
    (dropSlice (coresServed · 1 core)).run s.dev = d → retireChain d 3 0 (core * 5 + e) = [(0, core * 5 + e)] →
    siteServes d 0 (core * 5 + e) = true → coreOfSite d core = some k →
    Gives (.engineSubstitution core e none readable) s d (.all [
      putRetired (siteKey 0 (core * 5 + e)) true, putApplied (siteKey 0 (core * 5 + e)) true, keepDieSpare,
      saveSpare, refreshGen true (absentDies d), refreshMesh (core / 17), replayOrTear k readable,
      logError { severity := 0, flags := 2, source := 6, site := core / 153 }])) ∧
  (∀ (s : State) (d : Device) (core e : Nat) (readable : Bool), core < 2601 → e < 5 → powered s.dev = true →
    (dropSlice (coresServed · 1 core)).run s.dev = d → retireChain d 3 0 (core * 5 + e) = [(0, core * 5 + e)] →
    siteServes d 0 (core * 5 + e) = false →
    Gives (.engineSubstitution core e none readable) s d (.all [
      putRetired (siteKey 0 (core * 5 + e)) true, putApplied (siteKey 0 (core * 5 + e)) true, keepDieSpare,
      saveSpare, refreshGen false (absentDies d), refreshMesh (core / 17),
      logError { severity := 0, flags := 2, source := 6, site := core / 153 }])) ∧
  (∀ (s : State) (d : Device) (core e e2 : Nat) (readable : Bool), core < 2601 → e < 5 → e2 < 5 → powered s.dev = true →
    (dropSlice (coresServed · 1 core)).run s.dev = d →
    Gives (.engineSubstitution core e (some e2) readable) s d (.all [
      putRetired (siteKey 0 (core * 5 + e)) true, putApplied (siteKey 0 (core * 5 + e)) true,
      failSite 0 (core * 5 + e2) readable])) ∧
  (∀ (s : State) (d : Device) (core e c k top topSite : Nat) (readable : Bool), core < 2601 → e < 5 → powered s.dev = true →
    (dropSlice (coresServed · 1 core)).run s.dev = d →
    (retireChain d 3 0 (core * 5 + e)).getLast? = some (top, topSite) → 2 ≤ top → siteServes d 0 (core * 5 + e) = true →
    coreOfSite d core = some k → (d.coresAt k).ctx = some c →
    Gives (.engineSubstitution core e none readable) s d (.all [retireNow 0 (core * 5 + e), teardown c codeSubstitution,
      substituteAt d top topSite k readable, logError { severity := 0, flags := 2, source := 6, site := core / 153 }])) ∧
  (∀ (s : State) (d : Device) (site k : Nat) (readable : Bool), site < 2601 → powered s.dev = true →
    (dropSlice (coresServed · 1 site)).run s.dev = d → retireChain d 3 1 site = [(1, site)] → coreOfSite d site = some k →
    Gives (.coreSubstitution site readable) s d (.all [
      putRetired (siteKey 1 site) true, putApplied (siteKey 1 site) true,
      .when (site % 17 == 16) (.each (clusterOfSite d (site / 17)).toList fun cl => .upd (.movedDrop fun k => k / 16 == cl)),
      keepDieSpare, saveSpare, refreshGen true (absentDies d), refreshMesh (site / 17), replayOrTear k readable,
      logError { severity := 0, flags := 2, source := 6, site := site / 153 }])) ∧
  (∀ (s : State) (d : Device) (site : Nat) (readable : Bool), site < 2601 → powered s.dev = true →
    (dropSlice (coresServed · 1 site)).run s.dev = d → retireChain d 3 1 site = [(1, site)] → coreOfSite d site = none →
    Gives (.coreSubstitution site readable) s d (.all [
      putRetired (siteKey 1 site) true, putApplied (siteKey 1 site) true,
      .when (site % 17 == 16) (.each (clusterOfSite d (site / 17)).toList fun cl => .upd (.movedDrop fun k => k / 16 == cl)),
      keepDieSpare, saveSpare, refreshGen false (absentDies d), refreshMesh (site / 17),
      logError { severity := 0, flags := 2, source := 6, site := site / 153 }])) ∧
  (∀ (s : State) (d : Device) (site c k top topSite : Nat) (readable : Bool), site < 2601 → powered s.dev = true →
    (dropSlice (coresServed · 1 site)).run s.dev = d →
    (retireChain d 3 1 site).getLast? = some (top, topSite) → 2 ≤ top → coreOfSite d site = some k →
    (d.coresAt k).ctx = some c →
    Gives (.coreSubstitution site readable) s d (.all [retireNow 1 site, teardown c codeSubstitution,
      substituteAt d top topSite k readable, logError { severity := 0, flags := 2, source := 6, site := site / 153 }])) ∧
  (∀ (s : State) (d : Device) (site cl : Nat), site < 153 → powered s.dev = true →
    (dropSlice (coresServed · 2 site)).run s.dev = d → retireChain d 3 2 site = [(2, site)] → clusterOfSite d site = some cl →
    Gives (.clusterSubstitution site) s d (.all [
      putRetired (siteKey 2 site) true, putApplied (siteKey 2 site) true, keepDieSpare, saveSpare,
      refreshGen true (absentDies d), refreshPower, refreshCodecs (boundDies d),
      .each (ctxsOn d ((List.range 16).map (cl * 16 + ·))) (teardown · codeDataLost), chargeAvail 5000,
      logError { severity := 0, flags := 2, source := 7, site := site / 9 }])) ∧
  (∀ (s : State) (d : Device) (site : Nat), site < 153 → powered s.dev = true →
    (dropSlice (coresServed · 2 site)).run s.dev = d → retireChain d 3 2 site = [(2, site)] → clusterOfSite d site = none →
    Gives (.clusterSubstitution site) s d (.all [
      putRetired (siteKey 2 site) true, putApplied (siteKey 2 site) true, keepDieSpare, saveSpare,
      refreshGen false (absentDies d), refreshPower, refreshCodecs (boundDies d),
      logError { severity := 0, flags := 2, source := 7, site := site / 9 }])) ∧
  (∀ (s : State) (d : Device) (site cl : Nat), site < 153 → powered s.dev = true →
    (dropSlice (coresServed · 2 site)).run s.dev = d → retireChain d 3 2 site = [(2, site), (3, site / 9)] →
    clusterOfSite d site = some cl →
    Gives (.clusterSubstitution site) s d (.all [retireNow 2 site, substituteAt d 3 (site / 9) (cl * 16) false,
      logError { severity := 0, flags := 2, source := 7, site := site / 9 }])) ∧
  (∀ (s : State) (d : Device) (site die : Nat), site < 17 → powered s.dev = true →
    (dropSlice (coresServed · 3 site)).run s.dev = d → dieOfSite d site = some die →
    Gives (.dieSubstitution site) s d (.all [
      putRetired (siteKey 3 site) true, putApplied (siteKey 3 site) true, keepDieSpare, saveSpare,
      refreshGen true (absentDies d), refreshPower, refreshCodecs (boundDies d),
      .each (dieContexts d site) (teardown · codeDataLost), chargeAvail 20000,
      .when (site != 16 && (dieOfSite d 16).isNone) emptySpareFloor,
      logError { severity := 0, flags := 2, source := 0, site := site }])) ∧
  (∀ (s : State) (d : Device) (site : Nat), site < 17 → powered s.dev = true →
    (dropSlice (coresServed · 3 site)).run s.dev = d → dieOfSite d site = none →
    Gives (.dieSubstitution site) s d (.all [
      putRetired (siteKey 3 site) true, putApplied (siteKey 3 site) true, keepDieSpare, saveSpare,
      refreshGen false (absentDies d), refreshPower, refreshCodecs (boundDies d),
      logError { severity := 0, flags := 2, source := 0, site := site }]))

/-- CODEC_ENGINE_RETIRE and INGEST_UNIT_RETIRE retire the unit alone, in the record and the binding, and report it; SHELL_RETIRE
also retires the stack, tears down the contexts whose data it held, and with a dead router fails the die; ROUTE_INSTALL makes
exactly the sites of retired shells carry no transit and lets the writes held for the change go on, and with no change to install
nothing happens. -/
def Obligations.Retirements : Prop :=
  (∀ (s : State) (e : Nat), e < 34 → powered s.dev = true →
    Does (.codecEngineRetire e) s (.all [putRetired (siteKey 4 e) true, putApplied (siteKey 4 e) true, saveSpare,
      setF F.VCE_CTRL_retired e 1, logService 14 (e / 2) (e % 2) 0])) ∧
  (∀ (s : State) (site : Nat), site < 17 → powered s.dev = true →
    Does (.ingestUnitRetire site) s (.all [putRetired (siteKey 5 site) true, putApplied (siteKey 5 site) true, saveSpare,
      setF F.ING_CTRL_retired site 1, logService 15 site 0xFFFF 0])) ∧
  (∀ (s : State) (site : Nat) (routerDead : Bool), site < 16 → powered s.dev = true →
    Does (.shellRetire site routerDead) s (.obs fun d => .all [
      .each (((List.range 8).flatMap fun g => contextsReaching d (site * 8 + g)).dedup) (teardown · codeDataLost),
      putRetired (siteKey 6 site) true, putApplied (siteKey 6 site) true, saveSpare,
      setF F.STW_SPARE_GEN_stack_retired 0 1, setF F.DRM_STACK_STATUS_retired site 1, putRoutesStale true,
      logService 9 site 0xFFFF 0, .when routerDead (failSite 3 site false)])) ∧
  (∀ (s : State), powered s.dev = true → s.dev.routesStale = true →
    Does .routeInstall s (.all [.each (List.range 16) fun site => putNoTransit site (siteBad s.dev 6 site), putRoutesStale false,
      releaseWrites])) ∧
  (∀ (s : State), powered s.dev = true → s.dev.routesStale = false → Does .routeInstall s .skip)

/-- FIG_LOAD_GO queues a load, or sets refused while one of the partition is under way. LOAD_START, while fewer than four loads run,
takes the oldest and copies its image, into the slot's share of the staging area too; a full image invalidates a slot that is not
active. LOAD_COMPLETE reports an unreadable source before any check; it stages a full image that passes every check and else records
the first failure; a partial image is refused while a switch or a patch is pending, and else patches the slot it names or records
the first failure. -/
def Obligations.FigureLoads : Prop :=
  (∀ (s : State) (d : Device) (rq p v : Nat), p < 32 → Writes s rq .FIG_LOAD p v 31 d → loadBusy d p = false →
    Gives (.figLoadGo rq p v) s d (.all [setF F.FIG_STATUS_refused p 0, figStatus p 1 0 (d.fld F.FIG_LOAD_slot p),
      modLoadQueue (· ++ [{ part := p, slot := d.fld F.FIG_LOAD_slot p, src := d.fld F.FIG_SRC_addr p,
                            switchWhenDone := d.fld F.FIG_LOAD_switch_when_done p == 1 }])])) ∧
  (∀ (s : State) (d : Device) (rq p v : Nat), p < 32 → Writes s rq .FIG_LOAD p v 31 d → loadBusy d p = true →
    Gives (.figLoadGo rq p v) s d (setF F.FIG_STATUS_refused p 1)) ∧
  (∀ (s : State) (r : LoadReq) (rest : List LoadReq), working s.dev = true → s.dev.loadQueue = r :: rest →
    s.dev.loading.length < 4 →
    Does .loadStart s (.obs fun d =>
      let img := d.bytes r.src (imageLen d r.part r.src)
      .all [putLoadQueue rest,
        modLoading (· ++ [{ r with image := img, poisoned := d.poisoned r.src (imageLen d r.part r.src) }]),
        setF F.FIG_STATUS_state r.part 2, disturbReads ((List.range (imageLen d r.part r.src)).map (r.src + ·)),
        .when (!(imgPartial img && srcAllowed d r.part r.src) && activeSlot d r.part != some r.slot) (dropSlot r.part r.slot),
        .when (srcAllowed d r.part r.src) (copyToStaging r.part r.slot img (imgPartial img))])) ∧
  (∀ (s : State), working s.dev = true → s.dev.loadQueue = [] ∨ 4 ≤ s.dev.loading.length → Does .loadStart s .skip) ∧
  (∀ (s : State) (i : Nat), i < 4 → working s.dev = true → s.dev.loading[i]? = none → Does (.loadComplete i) s .skip) ∧
  (∀ (s : State) (i : Nat) (r : LoadReq), i < 4 → working s.dev = true → s.dev.loading[i]? = some r →
    (r.poisoned && srcAllowed s.dev r.part r.src) = true →
    Does (.loadComplete i) s (.all [putLoading (s.dev.loading.eraseIdx i), figStatus r.part 5 0x5F r.slot,
      setReg .FIG_DETAIL r.part noIndex])) ∧
  (∀ (s : State) (i code idx : Nat) (r : LoadReq), i < 4 → working s.dev = true → s.dev.loading[i]? = some r →
    (r.poisoned && srcAllowed s.dev r.part r.src) = false →
    (do checkHeader r.image (srcAllowed s.dev r.part r.src) (srcRoom s.dev r.part r.src)
        checkSignature s.dev r.part r.image : Chk Unit) = .error (code, idx) →
    Does (.loadComplete i) s (.all [putLoading (s.dev.loading.eraseIdx i), figStatus r.part 5 code r.slot,
      setReg .FIG_DETAIL r.part idx])) ∧
  (∀ (s : State) (i : Nat) (r : LoadReq) (fails : Nat → Nat → Eff), i < 4 → working s.dev = true →
    s.dev.loading[i]? = some r → (r.poisoned && srcAllowed s.dev r.part r.src) = false →
    fails = (fun code idx => .seq (figStatus r.part 5 code r.slot) (setReg .FIG_DETAIL r.part idx)) →
    Does (.loadComplete i) s (.seq (putLoading (s.dev.loading.eraseIdx i)) <|
      match (do checkHeader r.image (srcAllowed s.dev r.part r.src) (srcRoom s.dev r.part r.src)
                checkSignature s.dev r.part r.image : Chk Unit) with
      | .error (code, idx) => fails code idx
      | .ok _ =>
        if imgPartial r.image then
          if (s.dev.switchesAt r.part).isSome || !(s.dev.patchesAt r.part).isEmpty then
            .seq (figFail r.part 0x55 r.slot) (setReg .FIG_DETAIL r.part noIndex)
          else match checkPatch s.dev r.part r.image with
            | .error (code, idx) => fails code idx
            | .ok (slot, g, ps) => match s.dev.slotsAt (r.part * 8 + slot) with
              | none => fails 0x53 noIndex
              | some f => .all [stagePatch r.part slot f g ps, setReg .FIG_DETAIL r.part noIndex,
                  decodeToStaging r.part slot r.image, .when r.switchWhenDone (requestSwitch r.part r.slot)]
        else match checkFull s.dev r.part r.slot r.image with
          | .error (code, idx) => fails code idx
          | .ok f => .all [dropSlot r.part r.slot, fillSlot r.part r.slot r.src f, decodeToStaging r.part r.slot r.image,
              figStatus r.part 4 0 r.slot, setReg .FIG_DETAIL r.part noIndex,
              .when r.switchWhenDone (requestSwitch r.part r.slot)]))

/-- FIG_SWITCH_GO asks the cores of the partition to stop and its weight ring to issue no more copies; a request while one still
waits takes its place; it fails for a slot with no figure, or none that is still accepted, while a patch is pending, and once the
cores of an earlier request have stopped. FIG_SWITCH_CANCEL withdraws a switch that still waits. SWITCH_PROCEED, once every core has
stopped, makes the slot active; it tears the contexts down where the staging area cannot be read, and restarts the old figure where
an element is absent or the slot has no figure. FIG_STAGE_DISCARD drops a slot that is not active. FIG_MINVER_WRITE only raises.
PATCH_APPLY applies the records due at a beat boundary. -/
def Obligations.FigureSwitches : Prop :=
  (∀ (s : State) (d : Device) (rq p v : Nat), p < 32 → Writes s rq .FIG_SWITCH p v 31 d →
    (d.slotsAt (p * 8 + bits v 2 0)).isSome = true → slotOld d p (bits v 2 0) = false → d.patchesAt p = [] → d.switchesAt p = none →
    Gives (.figSwitchGo rq p v) s d (.all [putSwitches p (some { slot := bits v 2 0 }), figStatus p 6 0 (bits v 2 0),
      streamerStop p,
      .each (partCores d p) fun core => modCores core fun k =>
        if k.state == 1 || k.state == 2 then { k with stopReq := true, state := (if k.state == 2 then 3 else k.state) } else k])) ∧
  (∀ (s : State) (d : Device) (rq p v : Nat) (q : SwitchReq), p < 32 → Writes s rq .FIG_SWITCH p v 31 d →
    (d.slotsAt (p * 8 + bits v 2 0)).isSome = true → slotOld d p (bits v 2 0) = false → d.patchesAt p = [] →
    d.switchesAt p = some q → allStopped d p = false →
    Gives (.figSwitchGo rq p v) s d (.seq (putSwitches p (some { q with slot := bits v 2 0 })) (figStatus p 6 0 (bits v 2 0)))) ∧
  (∀ (s : State) (d : Device) (rq p v : Nat), p < 32 → Writes s rq .FIG_SWITCH p v 31 d →
    ((d.slotsAt (p * 8 + bits v 2 0)).isNone || slotOld d p (bits v 2 0)) = true →
    Gives (.figSwitchGo rq p v) s d (figStatus p (if (d.switchesAt p).isSome then 6 else 5) 0x54 (bits v 2 0))) ∧
  (∀ (s : State) (d : Device) (rq p v : Nat), p < 32 → Writes s rq .FIG_SWITCH p v 31 d →
    (d.slotsAt (p * 8 + bits v 2 0)).isSome = true → slotOld d p (bits v 2 0) = false →
    (d.patchesAt p ≠ [] ∨ ((d.switchesAt p).isSome = true ∧ allStopped d p = true)) →
    Gives (.figSwitchGo rq p v) s d (figStatus p (if (d.switchesAt p).isSome then 6 else 5) 0x55 (bits v 2 0))) ∧
  (∀ (s : State) (d : Device) (rq p v : Nat), p < 32 → Writes s rq .FIG_SWITCH p v 30 d →
    (d.switchesAt p).isSome = true → allStopped d p = false →
    Gives (.figSwitchCancel rq p v) s d (.all [putSwitches p none, figStatus p 0 0 (d.fld F.FIG_STATUS_slot p),
      .each (partCores d p) (fun core => modCores core fun k =>
        if k.ctx.any fun c => d.fld F.CTX_RUN_state c == 2 then
          { k with stopReq := false, state := if k.state == 3 && !k.fenced then (if k.waiting then 2 else 1) else k.state }
        else k),
      .each (partCores d p) takeHeld])) ∧
  (∀ (s : State) (d : Device) (rq p v : Nat), p < 32 → Writes s rq .FIG_SWITCH p v 30 d →
    ((d.switchesAt p).isSome && !allStopped d p) = false → Gives (.figSwitchCancel rq p v) s d .skip) ∧
  (∀ (s : State) (p time : Nat) (taken : List (Nat × Nat)) (q : SwitchReq) (f : Figure), p < 32 → working s.dev = true →
    s.dev.switchesAt p = some q → allStopped s.dev p = true → s.dev.slotsAt (p * 8 + q.slot) = some f →
    stagingBad s.dev p q.slot = false → elementsPresent s.dev p f = true →
    Does (.switchProceed p time taken) s (.all [putSwitches p none, dropPages fun x => ctxPart s.dev x.ctx == some p,
      dropTiles p taken, dropSems p, finishPatches p, activate p q.slot time f, installFigure p f (s.dev.active p),
      figStatus p 0 0 q.slot,
      (match activeSlot s.dev p with
       | some o => .when (o != q.slot) (dropOld p o)
       | none => .skip)])) ∧
  (∀ (s : State) (p time : Nat) (taken : List (Nat × Nat)) (q : SwitchReq) (f : Figure), p < 32 → working s.dev = true →
    s.dev.switchesAt p = some q → allStopped s.dev p = true → s.dev.slotsAt (p * 8 + q.slot) = some f →
    stagingBad s.dev p q.slot = true →
    Does (.switchProceed p time taken) s (.all [putSwitches p none, dropPages fun x => ctxPart s.dev x.ctx == some p,
      dropTiles p taken, dropSems p, figStatus p 5 0x5F q.slot, .each (busyContexts s.dev p) fun c => teardown c codeDataLost])) ∧
  (∀ (s : State) (p time : Nat) (taken : List (Nat × Nat)) (q : SwitchReq) (f g : Figure), p < 32 → working s.dev = true →
    s.dev.switchesAt p = some q → allStopped s.dev p = true → s.dev.slotsAt (p * 8 + q.slot) = some f →
    stagingBad s.dev p q.slot = false → elementsPresent s.dev p f = false → s.dev.active p = some g →
    Does (.switchProceed p time taken) s (.all [putSwitches p none, dropPages fun x => ctxPart s.dev x.ctx == some p,
      dropTiles p taken, dropSems p, figStatus p 5 0x25 q.slot, installFigure p g (some g)])) ∧
  (∀ (s : State) (p time : Nat) (taken : List (Nat × Nat)) (q : SwitchReq) (g : Figure), p < 32 → working s.dev = true →
    s.dev.switchesAt p = some q → allStopped s.dev p = true → s.dev.slotsAt (p * 8 + q.slot) = none → s.dev.active p = some g →
    Does (.switchProceed p time taken) s (.all [putSwitches p none, dropPages fun x => ctxPart s.dev x.ctx == some p,
      figStatus p 5 0x54 q.slot, installFigure p g (some g)])) ∧
  (∀ (s : State) (p time : Nat) (taken : List (Nat × Nat)), p < 32 → working s.dev = true →
    (s.dev.switchesAt p = none ∨ allStopped s.dev p = false) → Does (.switchProceed p time taken) s .skip) ∧
  (∀ (s : State) (d : Device) (rq p slot v : Nat), p < 32 → slot < 8 →
    Writes s rq .FIG_STAGE (p * 8 + slot) v 28 d → activeSlot d p ≠ some slot → (d.slotsAt (p * 8 + slot)).isSome = true →
    Gives (.figStageDiscard rq p slot v) s d (.all [putSlots (p * 8 + slot) none, setReg .FIG_STAGE (p * 8 + slot) 0,
      unrefSlot (p * 8 + slot)])) ∧
  (∀ (s : State) (d : Device) (rq p slot v : Nat), p < 32 → slot < 8 →
    Writes s rq .FIG_STAGE (p * 8 + slot) v 28 d → activeSlot d p ≠ some slot → d.slotsAt (p * 8 + slot) = none →
    Gives (.figStageDiscard rq p slot v) s d .skip) ∧
  (∀ (s : State) (d : Device) (rq p slot v : Nat), p < 32 → slot < 8 →
    Writes s rq .FIG_STAGE (p * 8 + slot) v 28 d → activeSlot d p = some slot →
    Gives (.figStageDiscard rq p slot v) s d (figFail p 0x51 slot)) ∧
  (∀ (s : State) (d : Device) (rq p v : Nat), p < 32 → Asks s rq d → mayWrite d rq .FIG_MINVER p ≠ 0 →
    d.fld F.FIG_MINVER_minver p < v % 4294967296 →
    Gives (.figMinverWrite rq p v) s d (.seq (setF F.FIG_MINVER_minver p v)
      (.each (List.range 8) fun slot => .when (activeSlot d p != some slot) (dropOld p slot)))) ∧
  (∀ (s : State) (d : Device) (rq p v : Nat), p < 32 → Asks s rq d → mayWrite d rq .FIG_MINVER p ≠ 0 →
    v % 4294967296 ≤ d.fld F.FIG_MINVER_minver p → Gives (.figMinverWrite rq p v) s d .skip) ∧
  (∀ (s : State) (d : Device) (rq p v : Nat), p < 32 → Asks s rq d → mayWrite d rq .FIG_MINVER p = 0 →
    Gives (.figMinverWrite rq p v) s d (addSat F.STW_HIF_DENY_registers 0 1)) ∧
  (∀ (s : State) (core : Nat), core < 2048 → clocked s.dev (core / 16) = true → (s.dev.coresAt core).atBeat = true →
    (s.dev.coresAt core).loaded.isSome = true →
    Does (.patchApply core) s (applyPatches core ((s.dev.coresAt core).seq.ptr == 0 && (s.dev.coresAt core).seq.depth == 0))) ∧
  (∀ (s : State) (core : Nat), core < 2048 → clocked s.dev (core / 16) = true →
    ((s.dev.coresAt core).atBeat && (s.dev.coresAt core).loaded.isSome) = false → Does (.patchApply core) s .skip)

/-- PARTITION_CREATE makes a free partition active and shows its shape, or sets conflict, and leaves one that is not free alone;
SVC_MODE_WRITE stores the mode, and mode 0 fills every bucket; REGULATOR_ADMIT fills a bucket with what has come in, and takes the
bytes of a request once the bucket holds them; mode 0 passes everything. -/
def Obligations.Partitions : Prop :=
  (∀ (s : State) (d : Device) (rq p v : Nat), p < 32 → Writes s rq .PRT_CTRL p v 31 d → d.fld F.PRT_CTRL_state p = 0 →
    createRefused d p = false →
    Gives (.partitionCreate rq p v) s d (.all [setF F.PRT_CTRL_state p 1, setF F.PRT_CTRL_conflict p 0,
      setF F.PRT_SHAPE_clusters p (partClusters d p).length, setF F.PRT_SHAPE_groups p (partGroups d p).length,
      setF F.PRT_SHAPE_codecs p (partCodecs d p).length, setF F.PRT_SHAPE_vcs p (d.fld F.PRT_SHAPE_LNK_vcs p),
      setF F.PRT_SHAPE_link_dies p (d.fld F.PRT_SHAPE_LNK_link_dies p)])) ∧
  (∀ (s : State) (d : Device) (rq p v : Nat), p < 32 → Writes s rq .PRT_CTRL p v 31 d → d.fld F.PRT_CTRL_state p = 0 →
    createRefused d p = true → Gives (.partitionCreate rq p v) s d (setF F.PRT_CTRL_conflict p 1)) ∧
  (∀ (s : State) (d : Device) (rq p v : Nat), p < 32 → Writes s rq .PRT_CTRL p v 31 d → d.fld F.PRT_CTRL_state p ≠ 0 →
    Gives (.partitionCreate rq p v) s d .skip) ∧
  (∀ (s : State) (d : Device) (rq v : Nat), Writes s rq .PRT_SVC_MODE 0 v 0 d →
    Gives (.svcModeWrite rq v) s d (.when (bits v 1 0 == 0) (.upd (.bucketsDrop fun _ => true)))) ∧
  (∀ (s : State) (p k bytes filled : Nat), p < 32 → k < 16 → working s.dev = true → s.dev.fld F.PRT_SVC_MODE_mode 0 ≠ 0 →
    s.dev.fld F.PRT_REG_rate (p * 16 + k) ≠ 0 →
    s.dev.bucketsAt (p * 16 + k) - filled + bytes ≤ s.dev.fld F.PRT_REG_depth (p * 16 + k) * 4096 →
    Does (.regulatorAdmit p k bytes filled) s (putBuckets (p * 16 + k) (s.dev.bucketsAt (p * 16 + k) - filled + bytes))) ∧
  (∀ (s : State) (p k bytes filled : Nat), p < 32 → k < 16 → working s.dev = true → s.dev.fld F.PRT_SVC_MODE_mode 0 ≠ 0 →
    (s.dev.fld F.PRT_REG_rate (p * 16 + k) = 0 ∨
      s.dev.fld F.PRT_REG_depth (p * 16 + k) * 4096 < s.dev.bucketsAt (p * 16 + k) - filled + bytes) →
    Does (.regulatorAdmit p k bytes filled) s (putBuckets (p * 16 + k) (s.dev.bucketsAt (p * 16 + k) - filled))) ∧
  (∀ (s : State) (p k bytes filled : Nat), p < 32 → k < 16 → working s.dev = true → s.dev.fld F.PRT_SVC_MODE_mode 0 = 0 →
    Does (.regulatorAdmit p k bytes filled) s .skip)

/-- CTX_SET_WRITE, CTX_GO, CTX_STOP, CTX_CLEAR, CTX_KILL and CTX_PRIO_WRITE by the state of the context: a set is stored while the
context is idle; an idle context becomes ready, or is refused; a ready or pre-empted one stops at once, a running one at the next beat
boundaries, and one being pre-empted goes idle after it; a faulted one is cleared; a kill starts its teardown with OWNER; a new
priority counts at the next arbitration. In the other states nothing happens, and without the right the denial is counted. -/
def Obligations.ContextCommands : Prop :=
  (∀ (s : State) (d : Device) (rq c v : Nat), c < 1024 → Asks s rq d → bits (mayWrite d rq .CTX_BIND c) 15 0 ≠ 0 →
    (d.fld F.CTX_RUN_state c = 0 →
      Gives (.ctxSetWrite rq c v) s d (.seq (setF F.CTX_BIND_set c (bits v 15 0)) (setF F.CTX_BIND_refused c 0))) ∧
    (d.fld F.CTX_RUN_state c ≠ 0 → Gives (.ctxSetWrite rq c v) s d .skip)) ∧
  (∀ (s : State) (d : Device) (rq c p : Nat) (f : Figure), c < 1024 → Asks s rq d → bit (mayWrite d rq .CTX_RUN c) 31 = 1 →
    ctxPart d c = some p → d.fld F.CTX_RUN_state c = 0 → d.fld F.SEC_KEYSTATE_quarantine 0 = 0 → d.active p = some f →
    d.fld F.CTX_BIND_set c < f.sets.length → setConflict d p f c (d.fld F.CTX_BIND_set c) = false →
    Gives (.ctxGo rq c) s d (.all [setF F.CTX_RUN_state c 1, modCtxs c (fun x => { x with mapped := true }),
      requestPreempt p (d.fld F.CTX_BIND_set c)])) ∧
  (∀ (s : State) (d : Device) (rq c p : Nat), c < 1024 → Asks s rq d → bit (mayWrite d rq .CTX_RUN c) 31 = 1 →
    ctxPart d c = some p → d.fld F.CTX_RUN_state c = 0 → d.fld F.SEC_KEYSTATE_quarantine 0 = 0 →
    (d.active p = none ∨ ∃ f, d.active p = some f ∧
      (f.sets.length ≤ d.fld F.CTX_BIND_set c ∨ setConflict d p f c (d.fld F.CTX_BIND_set c) = true)) →
    Gives (.ctxGo rq c) s d (setF F.CTX_BIND_refused c 1)) ∧
  (∀ (s : State) (d : Device) (rq c : Nat), c < 1024 → Asks s rq d → bit (mayWrite d rq .CTX_RUN c) 31 = 1 →
    (ctxPart d c = none ∨ d.fld F.CTX_RUN_state c ≠ 0 ∨ d.fld F.SEC_KEYSTATE_quarantine 0 ≠ 0) →
    Gives (.ctxGo rq c) s d .skip) ∧
  (∀ (s : State) (d : Device) (rq c p : Nat), c < 1024 → Asks s rq d → bit (mayWrite d rq .CTX_RUN c) 30 = 1 →
    ctxPart d c = some p →
    (d.fld F.CTX_RUN_state c = 1 ∨ d.fld F.CTX_RUN_state c = 3 →
      Gives (.ctxStop rq c) s d (.seq (discardSaved p c) (setF F.CTX_RUN_state c 0))) ∧
    (d.fld F.CTX_RUN_state c = 2 →
      Gives (.ctxStop rq c) s d (.all [discardSaved p c, setF F.CTX_RUN_state c 4, modCtxs c (fun x => { x with halting := true }),
        stopCores c, .each ((ctxCores d c).take 1) settleStop])) ∧
    (d.fld F.CTX_RUN_state c = 4 →
      Gives (.ctxStop rq c) s d (.seq (discardSaved p c) (modCtxs c fun x => { x with halting := true }))) ∧
    (d.fld F.CTX_RUN_state c = 0 ∨ 5 ≤ d.fld F.CTX_RUN_state c → Gives (.ctxStop rq c) s d .skip)) ∧
  (∀ (s : State) (d : Device) (rq c : Nat), c < 1024 → Asks s rq d → bit (mayWrite d rq .CTX_RUN c) 28 = 1 →
    (d.fld F.CTX_RUN_state c = 5 → Gives (.ctxClear rq c) s d (setF F.CTX_RUN_state c 0)) ∧
    (d.fld F.CTX_RUN_state c ≠ 5 → Gives (.ctxClear rq c) s d .skip)) ∧
  (∀ (s : State) (d : Device) (rq c : Nat), c < 1024 → Asks s rq d → bit (mayWrite d rq .CTX_RUN c) 29 = 1 →
    (ctxPart d c).isSome = true →
    (d.fld F.CTX_RUN_state c ≠ 5 → d.fld F.CTX_RUN_state c ≠ 6 →
      Gives (.ctxKill rq c) s d (.all [setF F.CTX_RUN_state c 6,
        modCtxs c (fun x => { x with teardown := some (0x12, 0xFFFF, 0, 0), mapped := false }),
        dropPages (·.ctx == c), .each (ctxCores d c) (haltCoreOf c),
        .each (ctxRings d c) (fun n => .seq (putKeptMaps n ((ctxPart d c).map fun p => (p, figureMap d c, d.drvMapAt c)))
          (cancelStart n)), withdrawPreempts c])) ∧
    (d.fld F.CTX_RUN_state c = 5 ∨ d.fld F.CTX_RUN_state c = 6 → Gives (.ctxKill rq c) s d .skip)) ∧
  (∀ (s : State) (d : Device) (rq c p v : Nat), c < 1024 → Writes s rq .CTX_PRIO c v 0 d → ctxPart d c = some p →
    Gives (.ctxPrioWrite rq c v) s d (requestPreempt p (d.fld F.CTX_BIND_set c))) ∧
  (∀ (s : State) (d : Device) (rq c v : Nat), c < 1024 → Asks s rq d →
    (bits (mayWrite d rq .CTX_BIND c) 15 0 = 0 → Gives (.ctxSetWrite rq c v) s d (addSat F.STW_HIF_DENY_registers 0 1)) ∧
    (bit (mayWrite d rq .CTX_RUN c) 31 ≠ 1 → Gives (.ctxGo rq c) s d (addSat F.STW_HIF_DENY_registers 0 1)) ∧
    (bit (mayWrite d rq .CTX_RUN c) 30 ≠ 1 → Gives (.ctxStop rq c) s d (addSat F.STW_HIF_DENY_registers 0 1)) ∧
    (bit (mayWrite d rq .CTX_RUN c) 28 ≠ 1 → Gives (.ctxClear rq c) s d (addSat F.STW_HIF_DENY_registers 0 1)) ∧
    (bit (mayWrite d rq .CTX_RUN c) 29 ≠ 1 → Gives (.ctxKill rq c) s d (addSat F.STW_HIF_DENY_registers 0 1)) ∧
    (bit (mayWrite d rq .CTX_PRIO c) 0 ≠ 1 → Gives (.ctxPrioWrite rq c v) s d (addSat F.STW_HIF_DENY_registers 0 1)))

/-- CONTEXT_START: the first of the contexts that wait for an idle set loads every core of it and starts them together, or is torn
down where a record cannot be restored or a revocation is not tolerated. YIELD begins a pre-emption, lock-extended where semaphores
are held. PREEMPT_SAVE saves a stopped core, clearing it, and loads it for the incoming context; PREEMPT_GANG_START, once every core
is done, makes the outgoing context pre-empted, or idle where it was stopped, and starts the incoming one. HOLD_LIMIT_EXPIRY revokes
what a lock-extended context still holds. Where their conditions do not hold, nothing happens. -/
def Obligations.SetTaking : Prop :=
  (∀ (s : State) (c p : Nat) (f : Figure), c < 1024 → serving s.dev = true → ctxPart s.dev c = some p →
    s.dev.active p = some f → bestWaiting s.dev p (s.dev.fld F.CTX_BIND_set c) = some c →
    setContexts s.dev p (s.dev.fld F.CTX_BIND_set c) [2, 4, 6] = [] → s.dev.switchesAt p = none →
    ((∀ x ∈ leafCores s.dev p f (s.dev.fld F.CTX_BIND_set c), canBringIn s.dev c x.2 x.1 f = true) →
      intolerant s.dev p f c = false →
      Does (.contextStart c) s (.seq
        (.each (leafCores s.dev p f (s.dev.fld F.CTX_BIND_set c)) fun x => bringIn p c x.2 x.1 f) (gangStart p c f))) ∧
    ((∀ x ∈ leafCores s.dev p f (s.dev.fld F.CTX_BIND_set c), canBringIn s.dev c x.2 x.1 f = true) →
      intolerant s.dev p f c = true → Does (.contextStart c) s (revocationFails p c f)) ∧
    (∀ x, (leafCores s.dev p f (s.dev.fld F.CTX_BIND_set c)).find? (fun x => !canBringIn s.dev c x.2 x.1 f) = some x →
      Does (.contextStart c) s (restoreFails c x.2 x.1))) ∧
  (∀ (s : State) (c p : Nat), c < 1024 → serving s.dev = true → ctxPart s.dev c = some p →
    (bestWaiting s.dev p (s.dev.fld F.CTX_BIND_set c) ≠ some c ∨
      setContexts s.dev p (s.dev.fld F.CTX_BIND_set c) [2, 4, 6] ≠ [] ∨ (s.dev.switchesAt p).isSome = true) →
    Does (.contextStart c) s .skip) ∧
  (∀ (s : State) (c p w : Nat), c < 1024 → working s.dev = true → ctxPart s.dev c = some p →
    bestWaiting s.dev p (s.dev.fld F.CTX_BIND_set c) = some w → s.dev.fld F.CTX_RUN_state c = 2 → saveFits s.dev c = true →
    s.dev.switchesAt p = none →
    ((ctxCores s.dev c).all fun core => (s.dev.coresAt core).state == 2 || (s.dev.coresAt core).state == 0) = true →
    Does (.yield c) s (.all [setF F.CTX_RUN_state c 4,
      modPreempts (· ++ [{ part := p, set := s.dev.fld F.CTX_BIND_set c, outgoing := c, incoming := w,
                           extended := !(heldSems s.dev c).isEmpty }]),
      .when (heldSems s.dev c).isEmpty (stopCores c)])) ∧
  (∀ (s : State) (c p : Nat), c < 1024 → working s.dev = true → ctxPart s.dev c = some p →
    (bestWaiting s.dev p (s.dev.fld F.CTX_BIND_set c) = none ∨ s.dev.fld F.CTX_RUN_state c ≠ 2 ∨ saveFits s.dev c = false ∨
      (s.dev.switchesAt p).isSome = true ∨
      ((ctxCores s.dev c).all fun core => (s.dev.coresAt core).state == 2 || (s.dev.coresAt core).state == 0) = false) →
    Does (.yield c) s .skip) ∧
  (∀ (s : State) (core : Nat) (fixed lost : List Nat) (q : Preempt) (f : Figure) (leaf w : Nat), core < 2048 →
    clocked s.dev (core / 16) = true →
    (s.dev.preempts.find? fun q => (ctxCores s.dev q.outgoing).contains core && !q.done.contains core) = some q →
    s.dev.active q.part = some f → leafOfCore s.dev q.part f core = some leaf →
    (s.dev.coresAt core).state = 3 → (s.dev.coresAt core).ctx = none → chooseIncoming s.dev q = some w →
    (canBringIn s.dev w core leaf f = true →
      Does (.preemptSave core fixed lost) s (.all [bringIn q.part w core leaf f, modCores core (fun k => { k with state := 6 }),
        setPreempt { q with incoming := w, done := core :: q.done }])) ∧
    (canBringIn s.dev w core leaf f = false → Does (.preemptSave core fixed lost) s (restoreFails w core leaf))) ∧
  (∀ (s : State) (core : Nat) (fixed lost : List Nat) (q : Preempt) (f : Figure), core < 2048 →
    clocked s.dev (core / 16) = true →
    (s.dev.preempts.find? fun q => (ctxCores s.dev q.outgoing).contains core && !q.done.contains core) = some q →
    s.dev.active q.part = some f → (s.dev.coresAt core).state = 3 → (s.dev.coresAt core).ctx = none →
    chooseIncoming s.dev q = none →
    Does (.preemptSave core fixed lost) s (setPreempt { q with done := core :: q.done })) ∧
  (∀ (s : State) (core : Nat) (fixed lost : List Nat) (q : Preempt) (f : Figure) (leaf : Nat), core < 2048 →
    clocked s.dev (core / 16) = true →
    (s.dev.preempts.find? fun q => (ctxCores s.dev q.outgoing).contains core && !q.done.contains core) = some q →
    s.dev.active q.part = some f → leafOfCore s.dev q.part f core = some leaf →
    (s.dev.coresAt core).state = 3 → (s.dev.coresAt core).ctx = some q.outgoing →
    Does (.preemptSave core fixed lost) s (.all [
      .when (!(s.dev.ctxsAt q.outgoing).halting)
        (.seq (tileErrors core 0 24576 fixed lost) (saveRecord q.outgoing core leaf (f.set leaf).program)),
      clearTile core, emptyBanks core, modCores core (fun k => { k with ctx := none, heldFor := none }),
      .obs fun d => match chooseIncoming d q with
        | none => setPreempt { q with done := core :: q.done }
        | some w =>
          if canBringIn d w core leaf f then .all [bringIn q.part w core leaf f, modCores core (fun k => { k with state := 6 }),
            setPreempt { q with incoming := w, done := core :: q.done }]
          else restoreFails w core leaf])) ∧
  (∀ (s : State) (core : Nat) (fixed lost : List Nat), core < 2048 → clocked s.dev (core / 16) = true →
    ((s.dev.coresAt core).state ≠ 3 ∨
      (s.dev.preempts.find? fun q => (ctxCores s.dev q.outgoing).contains core && !q.done.contains core) = none ∨
      ∃ q, (s.dev.preempts.find? fun q => (ctxCores s.dev q.outgoing).contains core && !q.done.contains core) = some q ∧
        (s.dev.coresAt core).ctx ≠ some q.outgoing ∧ (s.dev.coresAt core).ctx ≠ none) →
    Does (.preemptSave core fixed lost) s .skip) ∧
  (∀ (s : State) (p leafSet : Nat) (q : Preempt) (f : Figure), p < 32 → leafSet < 65536 → working s.dev = true →
    (s.dev.preempts.find? fun q => q.part == p && q.set == leafSet) = some q → s.dev.active p = some f →
    (setCores s.dev p f leafSet).all q.done.contains = true →
    Does (.preemptGangStart p leafSet) s (.all [
      modPreempts (fun ps => ps.filter fun x => !(x.part == p && x.set == leafSet)),
      (if q.incoming == q.outgoing then .skip else if (s.dev.ctxsAt q.outgoing).halting then .all [
          modCtxs q.outgoing (fun x => { x with halting := false }), discardSaved p q.outgoing, setF F.CTX_RUN_state q.outgoing 0]
        else .all [setF F.CTX_RUN_state q.outgoing 3, addSat F.CTX_STAT_preempted q.outgoing 1,
          addSat F.PRT_SCHED_STAT_preemptions p 1]),
      .obs fun d =>
        if (chooseIncoming d q).isNone then
          .each (setCores s.dev p f leafSet) fun core => modCores core fun k => { k with ctx := none, state := 0 }
        else if intolerant d p f q.incoming then revocationFails p q.incoming f
        else gangStart p q.incoming f])) ∧
  (∀ (s : State) (p leafSet : Nat) (q : Preempt) (f : Figure), p < 32 → leafSet < 65536 → working s.dev = true →
    s.dev.active p = some f →
    ((s.dev.preempts.find? fun q => q.part == p && q.set == leafSet) = none ∨
      (s.dev.preempts.find? fun q => q.part == p && q.set == leafSet) = some q ∧
        (setCores s.dev p f leafSet).all q.done.contains = false) →
    Does (.preemptGangStart p leafSet) s .skip) ∧
  (∀ (s : State) (c p : Nat) (q : Preempt), c < 1024 → working s.dev = true → extending s.dev c = some q →
    ctxPart s.dev c = some p → q.holdPassed = false →
    Does (.holdLimitExpiry c) s (.all [setPreempt { q with holdPassed := true },
      .each (heldSems s.dev c) (revokeCell p c), .each (heldSems s.dev c) semGrant, stopCores c])) ∧
  (∀ (s : State) (c : Nat), c < 1024 → working s.dev = true →
    (extending s.dev c = none ∨ ∃ q, extending s.dev c = some q ∧ q.holdPassed = true) → Does (.holdLimitExpiry c) s .skip)

/-- MIGRATION_START fences a loaded core, once a self-test slice on it is dropped; MIGRATION_RESUME, with the fenced core stopped and
core site 16 free, or the core on it where it goes back, advances the placement epoch, moves the binding and releases what was held.
STREAM_TILE_DELIVERY delivers a tile of the epoch in use, holds one for a fenced core or a full buffer, and drops and counts one of
another epoch; epochs count on the streams of a die only. -/
def Obligations.MigrationAndTiles : Prop :=
  (∀ (s : State) (d : Device) (core : Nat), core < 2048 → working s.dev = true → (dropSlice fun _ => [core]).run s.dev = d →
    Gives (.migrationStart core) s d (modCores core fun k =>
      if k.loaded.isSome then { k with fenced := true, state := if k.state == 2 then 3 else k.state } else k)) ∧
  (∀ (s : State) (core site : Nat) (toSpare : Bool), core < 2048 → working s.dev = true → (s.dev.coresAt core).fenced = true →
    ((s.dev.coresAt core).state = 0 ∨ (s.dev.coresAt core).state = 3 ∨ (s.dev.coresAt core).state = 4) →
    (clusterSite s.dev (core / 128) (core / 16 % 8)).getD 0 = site →
    (if toSpare then spareCoreFree s.dev site else s.dev.movedAt core) = true →
    Does (.migrationResume core toSpare) s (.all [advanceEpoch core, putMoved core toSpare, refreshMesh site,
      .obs fun d => .all [
        modCores core (fun k => { k with
          fenced := false
          state := if k.state == 3 && !k.stopReq then (if k.waiting then 2 else 1) else k.state }),
        takeHeld core,
        .each (streamsTo d core) (fun e => .all [
          .each (d.heldTilesAt e) (deliverTile e core), setF F.STR_STAT_held e 0, putHeldTiles e []]),
        releaseHalos core]])) ∧
  (∀ (s : State) (core site : Nat) (toSpare : Bool), core < 2048 → working s.dev = true →
    (clusterSite s.dev (core / 128) (core / 16 % 8)).getD 0 = site →
    ((s.dev.coresAt core).fenced = false ∨
      ((s.dev.coresAt core).state ≠ 0 ∧ (s.dev.coresAt core).state ≠ 3 ∧ (s.dev.coresAt core).state ≠ 4) ∨
      (if toSpare then spareCoreFree s.dev site else s.dev.movedAt core) = false) →
    Does (.migrationResume core toSpare) s .skip) ∧
  (∀ (s : State) (e core epoch taken : Nat) (data : List Byte), e < 16384 → powered s.dev = true →
    strCore s.dev e F.STR_ENTRY_dst_cluster F.STR_ENTRY_dst_core = some core → s.dev.fld F.STR_ENTRY_valid e = 1 →
    (s.dev.fld F.STR_ENTRY_medium e ≠ 0 ∨ epoch = s.dev.epochsAt core) → (s.dev.coresAt core).fenced = false →
    ((s.dev.strBufAt e).drop taken).length ≤ s.dev.fld F.STR_ENTRY_depth e →
    Does (.streamTileDelivery e data epoch taken) s (.seq (modStrBuf e (·.drop taken)) (.obs fun d => .all [
      modStrBuf e (· ++ [data]),
      coreEvent (d.fld F.STR_ENTRY_partition e) (streamCtx d e core) core (d.fld F.STR_ENTRY_dst_cue e) 1]))) ∧
  (∀ (s : State) (e core epoch taken : Nat) (data : List Byte), e < 16384 → powered s.dev = true →
    strCore s.dev e F.STR_ENTRY_dst_cluster F.STR_ENTRY_dst_core = some core → s.dev.fld F.STR_ENTRY_valid e = 1 →
    (s.dev.fld F.STR_ENTRY_medium e ≠ 0 ∨ epoch = s.dev.epochsAt core) →
    ((s.dev.coresAt core).fenced = true ∨ s.dev.fld F.STR_ENTRY_depth e + 1 ≤ ((s.dev.strBufAt e).drop taken).length) →
    Does (.streamTileDelivery e data epoch taken) s (.all [modStrBuf e (·.drop taken), modHeldTiles e (· ++ [data]),
      addSat F.STR_STAT_held e 1])) ∧
  (∀ (s : State) (e core epoch taken : Nat) (data : List Byte), e < 16384 → powered s.dev = true →
    strCore s.dev e F.STR_ENTRY_dst_cluster F.STR_ENTRY_dst_core = some core → s.dev.fld F.STR_ENTRY_valid e = 1 →
    s.dev.fld F.STR_ENTRY_medium e = 0 → epoch ≠ s.dev.epochsAt core →
    Does (.streamTileDelivery e data epoch taken) s (.all [modStrBuf e (·.drop taken), addSat F.STR_STAT_dropped e 1,
      .each (streamCtx s.dev e core).toList fun c => addSat F.CTX_STAT_late_drops c 1])) ∧
  (∀ (s : State) (e epoch taken : Nat) (data : List Byte), e < 16384 → powered s.dev = true →
    (strCore s.dev e F.STR_ENTRY_dst_cluster F.STR_ENTRY_dst_core = none ∨ s.dev.fld F.STR_ENTRY_valid e ≠ 1) →
    Does (.streamTileDelivery e data epoch taken) s .skip)

/-- WAIT and WAIT_SATISFIED complete once the cue has reached the threshold and consume it where asked, wait below it, and fault on a
cue that overflowed or does not exist; SIGNAL adds its count to the cue it names; SEL takes the bucket of its value, of a length
table, a loop counter or the semaphore status, sets what it is asked to and jumps where asked, and faults on a value above every
bound, a trip count above 65,535 and a row above 4,095; BEAT empties the banks not live, counts the beat and is a beat boundary;
WATCHDOG_EXPIRY faults a core that runs. -/
def Obligations.ControlSteps : Prop :=
  (∀ (s : State) (d : Device) (core key : Nat) (x : StepCtx), Runs s core 9 x d → waitCue d x = some key →
    (d.cuesAt key).overflow = false → sb x.w 85 70 ≤ (d.cuesAt key).value →
    Gives (.wait core) s d (.seq
      (.when (sb x.w 69 69 == 1) (.seq (putCues key { d.cuesAt key with value := (d.cuesAt key).value - sb x.w 85 70 })
        (notReplayable x.core)))
      (stepDone x none))) ∧
  (∀ (s : State) (d : Device) (core key : Nat) (x : StepCtx), Runs s core 9 x d → waitCue d x = some key →
    (d.cuesAt key).overflow = false → (d.cuesAt key).value < sb x.w 85 70 →
    Gives (.wait core) s d (.seq
      (modCores x.core fun k => { k with
        waiting := true
        state := if k.atBeat then (if k.stopReq || k.fenced then 3 else 2) else k.state })
      (settleStop x.core))) ∧
  (∀ (s : State) (d : Device) (core : Nat) (x : StepCtx), Runs s core 9 x d →
    (waitCue d x = none → Gives (.wait core) s d (stepFault x 0x02 0)) ∧
    (∀ key, waitCue d x = some key → (d.cuesAt key).overflow = true → Gives (.wait core) s d (stepFault x 0x07 0))) ∧
  (∀ (s : State) (core key : Nat) (x : StepCtx), core < 2048 → clocked s.dev (core / 16) = true →
    (s.dev.coresAt core).waiting = true → (s.dev.coresAt core).acquiring = false →
    ((s.dev.coresAt core).state = 1 ∨ (s.dev.coresAt core).state = 2) → stepCtx s.dev core = some x → stepKind x.w = 9 →
    waitCue s.dev x = some key →
    ((s.dev.cuesAt key).overflow = false → sb x.w 85 70 ≤ (s.dev.cuesAt key).value →
      Does (.waitSatisfied core) s (.seq
        (.when (sb x.w 69 69 == 1) (.seq (putCues key { s.dev.cuesAt key with value := (s.dev.cuesAt key).value - sb x.w 85 70 })
          (notReplayable x.core)))
        (stepDone x none))) ∧
    ((s.dev.cuesAt key).overflow = false → (s.dev.cuesAt key).value < sb x.w 85 70 →
      Does (.waitSatisfied core) s (.seq
        (modCores x.core fun k => { k with
          waiting := true
          state := if k.atBeat then (if k.stopReq || k.fenced then 3 else 2) else k.state })
        (settleStop x.core))) ∧
    ((s.dev.cuesAt key).overflow = true → Does (.waitSatisfied core) s (stepFault x 0x07 0))) ∧
  (∀ (s : State) (core : Nat), core < 2048 → clocked s.dev (core / 16) = true →
    ((s.dev.coresAt core).waiting = false ∨ (s.dev.coresAt core).acquiring = true) → Does (.waitSatisfied core) s .skip) ∧
  (∀ (s : State) (d : Device) (core : Nat) (x : StepCtx), Runs s core 10 x d →
    (∀ q, cueName d x.part (sb x.w 95 94) (sb x.w 93 86) (sb x.w 85 82) (sb x.w 81 80) (sb x.w 79 74) = some q →
      Gives (.signal core) s d (.all [notReplayable core, stepDone x none, cueEvent x.part (some x.ctx) q (sb x.w 73 58)])) ∧
    (cueName d x.part (sb x.w 95 94) (sb x.w 93 86) (sb x.w 85 82) (sb x.w 81 80) (sb x.w 79 74) = none →
      Gives (.signal core) s d (stepDone x none))) ∧
  (∀ (s : State) (d : Device) (core cycles : Nat) (x : StepCtx), Runs s core 14 x d →
    Gives (.beat core cycles) s d (.all [
      .when (sb x.w 78 78 == 0) (emptyBank core 0), .when (sb x.w 79 79 == 0) (emptyBank core 1),
      modCores core (fun k => { k with seq := { k.seq with beatId := sb x.w 95 80 } }),
      .when (48000 < cycles) (addSat F.COR_BEAT_STAT_overruns core 1),
      .obs (fun d => setF F.COR_BEAT_STAT_longest core (max (d.fld F.COR_BEAT_STAT_longest core) (min 65535 (cycles / 16)))),
      stepDone x none, modCores core (fun k => { k with seq := { k.seq with live := sb x.w 79 78 } }),
      beatBoundary core false])) ∧
  (∀ (s : State) (d d1 : Device) (core v : Nat) (x : StepCtx), Runs s core 13 x d →
    (sb x.w 95 94 = 0 ∧ sb x.w 69 58 + x.q.counter (sb x.w 57 55) ≤ 4095 ∧
      ReadsWords x d (tileGranule d x (sb x.w 93 70) + ((sb x.w 69 58 + x.q.counter (sb x.w 57 55)) / 4 : Nat)) 1
        (· == (sb x.w 69 58 + x.q.counter (sb x.w 57 55)) % 4 * 2 + sb x.w 54 53 / 2) d1 ∧
      v = lengthField d1 x (tileGranule d x (sb x.w 93 70) + ((sb x.w 69 58 + x.q.counter (sb x.w 57 55)) / 4 : Nat)).toNat
        ((sb x.w 69 58 + x.q.counter (sb x.w 57 55)) % 4) (sb x.w 54 53)) ∨
    (sb x.w 95 94 ≠ 0 ∧ d = d1 ∧ v = (if sb x.w 95 94 = 1 then x.q.counter (sb x.w 52 50) else x.q.semStatus)) →
    (∀ j, (if sb x.w 95 94 == 2 then (if v ≤ sb x.w 41 38 then some v else none) else bucketOf d1 x v) = some j →
      (sb x.w 28 28 = 1 → ceilDiv v (2 ^ sb x.w 27 24) ≤ 65535) →
      Gives (.sel core x.fixed x.lost) s d1 (.seq
        (modCores x.core fun k => { k with seq := { k.seq with
          dynTrip := if sb x.w 28 28 == 1 then ceilDiv v (2 ^ sb x.w 27 24) else k.seq.dynTrip,
          liveRows := if sb x.w 23 23 == 1 then
            min (64 * (sb x.w 19 18 + 1)) (v - x.q.counter (sb x.w 22 20) * (64 * (sb x.w 19 18 + 1))) else k.seq.liveRows } })
        (stepDone x (if sb x.w 37 37 == 1 then some (jumpTarget d1 x j) else none)))) ∧
    ((if sb x.w 95 94 == 2 then (if v ≤ sb x.w 41 38 then some v else none) else bucketOf d1 x v) = none →
      Gives (.sel core x.fixed x.lost) s d1 (stepFault x 0x09 0)) ∧
    (∀ j, (if sb x.w 95 94 == 2 then (if v ≤ sb x.w 41 38 then some v else none) else bucketOf d1 x v) = some j →
      sb x.w 28 28 = 1 → 65535 < ceilDiv v (2 ^ sb x.w 27 24) →
      Gives (.sel core x.fixed x.lost) s d1 (stepFault x 0x0B 0))) ∧
  (∀ (s : State) (d : Device) (core : Nat) (x : StepCtx), Runs s core 13 x d → sb x.w 95 94 = 0 →
    4095 < sb x.w 69 58 + x.q.counter (sb x.w 57 55) → Gives (.sel core x.fixed x.lost) s d (stepFault x 0x0A 0)) ∧
  (∀ (s : State) (core : Nat) (x : StepCtx), core < 2048 → clocked s.dev (core / 16) = true →
    ((s.dev.coresAt core).state = 1 → stepCtx s.dev core = some x → Does (.watchdogExpiry core) s (stepFault x 0x06 0)) ∧
    ((s.dev.coresAt core).state ≠ 1 → Does (.watchdogExpiry core) s .skip))

/-- LOAD writes a window's bytes to tile memory, with the lines it has read kept on the floor; STORE writes tile memory to a window;
HALO sends rows to a mesh neighbour with one event on its cue, and to a neighbour that is stopped, or behind an earlier HALO held
there, it is held; a direction with no neighbour sends nothing. The memory errors that the reads meet are counted or poison what they
reach. A tile operand outside tile memory, or poisoned, faults, and so do a walk of the maps that meets an error that cannot be
corrected and an access that `extAccess` faults; a walk or an access that is held leaves the step to be tried again. -/
def Obligations.MoveSteps : Prop :=
  (∀ (s : State) (d d1 d2 d3 : Device) (core : Nat) (x : StepCtx), Runs s core 1 x d →
    TakesDest x d (tileGranule d x (sb x.w 42 19)) (moveGranules d x) d1 →
    Walks x d1 (stepWindow x (sb x.w 95 84)) (moveOffsets d x) d2 →
    (readErrors x (extAddrs d2 x (stepWindow x (sb x.w 95 84)) (moveOffsets d x) .read) x.fixed x.lost).run d2 = d3 →
    (∀ as, extAccess d3 x (stepWindow x (sb x.w 95 84)) (moveOffsets d x) .read true (floorCopy d3 x) = .served as →
      Gives (.load core x.fixed x.lost) s d3 (.all [
        wrTile core ((tileGranule d x (sb x.w 42 19)).toNat * 64) (d3.bytesAt as), countReads x.part as,
        cacheReads x (sb x.w 10 10 == 1) as, stepDone x none, .when (as.any unlisted) (teardown x.ctx codeRange)])) ∧
    (∀ code a, extAccess d3 x (stepWindow x (sb x.w 95 84)) (moveOffsets d x) .read true (floorCopy d3 x) = .fault code a →
      Gives (.load core x.fixed x.lost) s d3 (stepFault x code a)) ∧
    (extAccess d3 x (stepWindow x (sb x.w 95 84)) (moveOffsets d x) .read true (floorCopy d3 x) = .held →
      Gives (.load core x.fixed x.lost) s d3 .skip)) ∧
  (∀ (s : State) (d : Device) (core : Nat) (x : StepCtx), Runs s core 1 x d →
    granulesOk (tileGranule d x (sb x.w 42 19)) (moveGranules d x) = false →
    Gives (.load core x.fixed x.lost) s d (stepFault x 0x01 (tileGranule d x (sb x.w 42 19) % 2 ^ 56).toNat)) ∧
  (∀ (s : State) (d d1 d2 : Device) (core : Nat) (x : StepCtx), Runs s core 2 x d →
    ReadsTile x d (tileGranule d x (sb x.w 42 19)) (moveGranules d x) d1 →
    Walks x d1 (stepWindow x (sb x.w 95 84)) (moveOffsets d x) d2 →
    (∀ as, extAccess d2 x (stepWindow x (sb x.w 95 84)) (moveOffsets d x) .write false noCopy = .served as →
      Gives (.store core x.fixed x.lost) s d2 (.seq
        (store as (tileBytes d2 core ((tileGranule d x (sb x.w 42 19)).toNat * 64) (moveGranules d x * 64)))
        (stepDone x none))) ∧
    (∀ code a, extAccess d2 x (stepWindow x (sb x.w 95 84)) (moveOffsets d x) .write false noCopy = .fault code a →
      Gives (.store core x.fixed x.lost) s d2 (stepFault x code a)) ∧
    (extAccess d2 x (stepWindow x (sb x.w 95 84)) (moveOffsets d x) .write false noCopy = .held →
      Gives (.store core x.fixed x.lost) s d2 .skip)) ∧
  (∀ (s : State) (d d1 : Device) (core bad : Nat) (x : StepCtx), Runs s core 2 x d →
    granulesOk (tileGranule d x (sb x.w 42 19)) (moveGranules d x) = true →
    (spanErrors x (tileGranule d x (sb x.w 42 19)).toNat (moveGranules d x) wholeWords).run d = d1 →
    poisonedWords d1 core (tileGranule d x (sb x.w 42 19)).toNat (moveGranules d x) wholeWords = some bad →
    Gives (.store core x.fixed x.lost) s d1 (stepFault x 0x04 bad)) ∧
  (∀ (s : State) (d d1 : Device) (core corrected epoch nb : Nat) (bad : List Nat) (x : StepCtx) (n recv : Nat) (h : HeldHalo),
    Runs s core 8 x d → meshNeighbour (core % 16) (sb x.w 95 94) = some nb → bad.all (· < 24576) = true →
    n = (sb x.w 54 47 + 1) * (sb x.w 46 37 + 1) → ReadsTile x d (tileGranule d x (sb x.w 93 70)) n d1 →
    granulesOk ((sb x.w 69 55 : Int) + (tileGranule d x (sb x.w 93 70) - (bits (sb x.w 93 70) 23 9 : Int))) n = true →
    recv = ((sb x.w 69 55 : Int) + (tileGranule d x (sb x.w 93 70) - (bits (sb x.w 93 70) 23 9 : Int))).toNat →
    h = { src := core, ctx := x.ctx, part := x.part, first := (tileGranule d x (sb x.w 93 70)).toNat, granule := recv,
          bytes := tileBytes d1 core ((tileGranule d x (sb x.w 93 70)).toNat * 64) (n * 64), bad := bad.filter (· < n),
          cue := sb x.w 36 32 } →
    ((haloHeld d1 (core / 16 * 16 + nb) x.ctx || !(d1.halosAt (core / 16 * 16 + nb)).all (·.src != core)) = false →
      Gives (.halo core x.fixed x.lost bad corrected epoch) s d1 (.all [notReplayable core,
        meshErrors core (core / 16 * 16 + nb) (sb x.w 95 94) corrected (bad.filter (· < n)),
        .when (epoch != d1.epochsAt (core / 16 * 16 + nb)) (addSat F.CTX_STAT_late_drops x.ctx 1),
        deliverHalo (core / 16 * 16 + nb) recv h.bytes h.bad,
        cueEvent x.part (some x.ctx) (0, core / 16 * 16 + nb, sb x.w 36 32) 1, stepDone x none])) ∧
    ((haloHeld d1 (core / 16 * 16 + nb) x.ctx || !(d1.halosAt (core / 16 * 16 + nb)).all (·.src != core)) = true →
      Gives (.halo core x.fixed x.lost bad corrected epoch) s d1 (.all [notReplayable core,
        meshErrors core (core / 16 * 16 + nb) (sb x.w 95 94) corrected (bad.filter (· < n)),
        .when (epoch != d1.epochsAt (core / 16 * 16 + nb)) (addSat F.CTX_STAT_late_drops x.ctx 1),
        addSat F.CLU_HALO_STAT_held ((clusterSite d1 (core / 128) (core / 16 % 8)).getD 0) 1,
        modHalos (core / 16 * 16 + nb) (· ++ [h]), stepDone x none]))) ∧
  (∀ (s : State) (d : Device) (core corrected epoch : Nat) (bad : List Nat) (x : StepCtx), Runs s core 8 x d →
    bad.all (· < 24576) = true → meshNeighbour (core % 16) (sb x.w 95 94) = none →
    Gives (.halo core x.fixed x.lost bad corrected epoch) s d (stepDone x none)) ∧
  (∀ (s : State) (d : Device) (core : Nat) (x : StepCtx), Runs s core 2 x d →
    granulesOk (tileGranule d x (sb x.w 42 19)) (moveGranules d x) = false →
    Gives (.store core x.fixed x.lost) s d (stepFault x 0x01 (tileGranule d x (sb x.w 42 19) % 2 ^ 56).toNat)) ∧
  (∀ (s : State) (d d1 : Device) (core corrected epoch nb n : Nat) (bad : List Nat) (x : StepCtx), Runs s core 8 x d →
    bad.all (· < 24576) = true → meshNeighbour (core % 16) (sb x.w 95 94) = some nb →
    n = (sb x.w 54 47 + 1) * (sb x.w 46 37 + 1) →
    (granulesOk (tileGranule d x (sb x.w 93 70)) n = false →
      Gives (.halo core x.fixed x.lost bad corrected epoch) s d
        (stepFault x 0x01 (tileGranule d x (sb x.w 93 70) % 2 ^ 56).toNat)) ∧
    (ReadsTile x d (tileGranule d x (sb x.w 93 70)) n d1 →
      granulesOk ((sb x.w 69 55 : Int) + (tileGranule d x (sb x.w 93 70) - (bits (sb x.w 93 70) 23 9 : Int))) n = false →
      Gives (.halo core x.fixed x.lost bad corrected epoch) s d1 (stepFault x 0x01
        (((sb x.w 69 55 : Int) + (tileGranule d x (sb x.w 93 70) - (bits (sb x.w 93 70) 23 9 : Int))) % 2 ^ 56).toNat)) ∧
    (∀ first, granulesOk (tileGranule d x (sb x.w 93 70)) n = true →
      (spanErrors x (tileGranule d x (sb x.w 93 70)).toNat n wholeWords).run d = d1 →
      poisonedWords d1 core (tileGranule d x (sb x.w 93 70)).toNat n wholeWords = some first →
      Gives (.halo core x.fixed x.lost bad corrected epoch) s d1 (stepFault x 0x04 first))) ∧
  (∀ (s : State) (d d1 d2 : Device) (c : Instr) (core : Nat) (x : StepCtx) (as : List Nat) (ps : List CachedPage),
    (c = .load core x.fixed x.lost ∧ Runs s core 1 x d ∧ TakesDest x d (tileGranule d x (sb x.w 42 19)) (moveGranules d x) d1) ∨
      (c = .store core x.fixed x.lost ∧ Runs s core 2 x d ∧ ReadsTile x d (tileGranule d x (sb x.w 42 19)) (moveGranules d x) d1) →
    stepPages d1 x (stepWindow x (sb x.w 95 84)) (moveOffsets d x) = ps → walkAddrs d1 x.part ps = as →
    (agentHeld d1 (some x.part) as = true →
      Gives c s d1 .skip) ∧
    (agentHeld d1 (some x.part) as = false → (memErrors as x.fixed x.lost).run d1 = d2 → anyPoison d2 as = true →
      Gives c s d2 (.seq
        (logError { severity := 1, source := 9, code := 3, context := x.ctx })
        (stepFault x 0x03 ((ps.find? fun p => anyPoison d2 (walkAddrs d2 x.part [p])).map (·.va) |>.getD 0)))))

/-- SEM_ACQUIRE takes a free cell that none waits for, or waits among its waiters; SEM_TRY takes a free cell or returns BUSY;
SEM_RELEASE by the holder frees the cell and grants it on, and by any other core faults; SEM_GRANT gives a free cell to its next
waiter, from which it is revoked at once where the hold limit has passed. -/
def Obligations.SemaphoreSteps : Prop :=
  (∀ (s : State) (d : Device) (core cell : Nat) (x : StepCtx), Runs s core 12 x d → sb x.w 95 94 = 0 →
    semCell d x.part (sb x.w 93 81) = some cell →
    ((d.semsAt cell).holder = none → (d.semsAt cell).waiters = [] → mustWait d x.ctx = false →
      Gives (.semAcquire core) s d (.all [notReplayable core, takeCell x cell, stepDone x none, extendAgain x.ctx,
        revokeIfLate x cell])) ∧
    ((d.semsAt cell).holder.isSome = true ∨ (d.semsAt cell).waiters ≠ [] ∨ mustWait d x.ctx = true →
      Gives (.semAcquire core) s d (.all [notReplayable core,
        putSems cell { d.semsAt cell with waiters := (d.semsAt cell).waiters ++ [⟨x.ctx, core⟩] },
        modCores core fun k => { k with waiting := true, acquiring := true }]))) ∧
  (∀ (s : State) (d : Device) (core cell : Nat) (x : StepCtx), Runs s core 12 x d → sb x.w 95 94 = 1 →
    semCell d x.part (sb x.w 93 81) = some cell →
    ((d.semsAt cell).holder = none → mustWait d x.ctx = false →
      Gives (.semTry core) s d (.all [notReplayable core, takeCell x cell, stepDone x none, extendAgain x.ctx,
        revokeIfLate x cell])) ∧
    ((d.semsAt cell).holder.isSome = true ∨ mustWait d x.ctx = true →
      Gives (.semTry core) s d (.all [notReplayable core,
        modCores core (fun k => { k with seq := { k.seq with semStatus := 1 } }), stepDone x none]))) ∧
  (∀ (s : State) (d : Device) (core cell : Nat) (x : StepCtx), Runs s core 12 x d → sb x.w 95 94 = 2 →
    semCell d x.part (sb x.w 93 81) = some cell →
    ((d.semsAt cell).holder = some ⟨x.ctx, core⟩ →
      Gives (.semRelease core) s d (.all [notReplayable core,
        modCores core (fun k => { k with seq := { k.seq with semStatus := 0 } }), stepDone x none,
        modSems cell (fun q => { q with holder := none, mark := 0 }), semGrant cell, endExtension x.ctx])) ∧
    ((d.semsAt cell).holder ≠ some ⟨x.ctx, core⟩ → Gives (.semRelease core) s d (stepFault x 0x0C 0))) ∧
  (∀ (s : State) (cell fuel : Nat) (w : Waiter), cell < 8192 → working s.dev = true → (s.dev.semsAt cell).holder = none →
    nextWaiter s.dev (s.dev.semsAt cell).waiters = some w → (s.dev.semsAt cell).waiters.length = fuel + 1 →
    Does (.semGrant cell) s (.all [
      putSems cell { holder := some w, mark := 0, waiters := (s.dev.semsAt cell).waiters.erase w },
      countGrant cell (s.dev.semsAt cell).mark, semDone w.core (grantStatus (s.dev.semsAt cell).mark), extendAgain w.ctx,
      .when ((extending s.dev w.ctx).any (·.holdPassed))
        (.seq (revokeCell ((ctxPart s.dev w.ctx).getD 0) w.ctx cell) (semGrants cell fuel))])) ∧
  (∀ (s : State) (cell : Nat), cell < 8192 → working s.dev = true →
    ((s.dev.semsAt cell).holder.isSome = true ∨ nextWaiter s.dev (s.dev.semsAt cell).waiters = none) →
    Does (.semGrant cell) s .skip)

/-- PRODUCT, with a bank that is empty or accumulates the same shape, adds every element of the product to the accumulator; ROTATE
transforms every block; QUANT codes every block; EPI finishes a bank and leaves it empty. The memory errors that the reads meet are
counted or poison what they reach. A bank in the wrong state faults, and so does a source outside tile memory or poisoned, or a
destination outside tile memory. -/
def Obligations.NumericSteps : Prop :=
  (∀ (s : State) (d d1 d2 : Device) (core : Nat) (x : StepCtx), Runs s core 3 x d →
    ((x.q.bank (sb x.w 47 47)).acc = true → (x.q.bank (sb x.w 47 47)).m = sb x.w 46 45 ∧
      (x.q.bank (sb x.w 47 47)).n = sb x.w 44 43) →
    ReadsWords x d (tileGranule d x (sb x.w 95 72))
      (operandGranules (sb x.w 37 35) (64 * (sb x.w 46 45 + 1)) (sb x.w 42 38 + 1)) (operandWords (sb x.w 37 35)) d1 →
    ReadsWords x d1 (tileGranule d x (sb x.w 71 48))
      (operandGranules (sb x.w 34 32) (64 * (sb x.w 44 43 + 1)) (sb x.w 42 38 + 1)) (operandWords (sb x.w 34 32)) d2 →
    Gives (.product core x.fixed x.lost) s d2 (productRun x
      ⟨core, (tileGranule d x (sb x.w 95 72)).toNat, sb x.w 37 35, 64 * (sb x.w 46 45 + 1), sb x.w 42 38 + 1⟩
      ⟨core, (tileGranule d x (sb x.w 71 48)).toNat, sb x.w 34 32, 64 * (sb x.w 44 43 + 1), sb x.w 42 38 + 1⟩)) ∧
  (∀ (s : State) (d : Device) (core : Nat) (x : StepCtx), Runs s core 3 x d → (x.q.bank (sb x.w 47 47)).acc = true →
    ((x.q.bank (sb x.w 47 47)).m ≠ sb x.w 46 45 ∨ (x.q.bank (sb x.w 47 47)).n ≠ sb x.w 44 43) →
    Gives (.product core x.fixed x.lost) s d (stepFault x 0x08 0)) ∧
  (∀ (s : State) (d d1 d2 : Device) (core size : Nat) (x : StepCtx), Runs s core 4 x d →
    size = (sb x.w 45 34 + 1) * (sb x.w 33 25 + 1) * 2 ^ (6 + sb x.w 47 46) * (if sb x.w 6 4 == 5 then 4 else 2) / 64 →
    ReadsTile x d (tileGranule d x (sb x.w 95 72)) size d1 → TakesDest x d1 (tileGranule d x (sb x.w 71 48)) size d2 →
    Gives (.rotate core x.fixed x.lost) s d2 (
      let n := 6 + sb x.w 47 46
      let blocks := sb x.w 33 25 + 1
      let wide := sb x.w 6 4 == 5
      let e := if wide then 4 else 2
      .seq
        (.each ((List.range ((sb x.w 45 34 + 1) * blocks)).map (fun t =>
            transformBlock n (constReg d core (sb x.w 24 17)) (64 * sb x.w 16 7 + t % blocks * 2 ^ n)
              ((List.range (2 ^ n)).map fun i =>
                if wide then r32 (val (tileNum d2 core ((tileGranule d x (sb x.w 95 72)).toNat * 64 + (t * 2 ^ n + i) * e) 4))
                else ofBf16 (tileNum d2 core ((tileGranule d x (sb x.w 95 72)).toNat * 64 + (t * 2 ^ n + i) * e) 2)))).zipIdx
          fun o => wrTile core ((tileGranule d x (sb x.w 71 48)).toNat * 64 + o.2 * 2 ^ n * e) (rowBytes wide o.1))
        (stepDone x none))) ∧
  (∀ (s : State) (d d1 d2 : Device) (core rows cols k outRows : Nat) (x : StepCtx), Runs s core 5 x d →
    rows = sb x.w 47 36 + 1 → cols = (sb x.w 35 27 + 1) * 32 →
    outRows = (if sb x.w 18 18 == 1 then cols else rows) → k = (if sb x.w 18 18 == 1 then ceilDiv rows 32 else cols / 32) →
    ReadsTile x d (tileGranule d x (sb x.w 95 72)) (operandGranules (sb x.w 26 24) rows (cols / 32)) d1 →
    TakesDest x d1 (tileGranule d x (sb x.w 71 48)) (operandGranules (sb x.w 23 21) outRows k) d2 →
    Gives (.quant core x.fixed x.lost) s d2 (
      let g := (tileGranule d x (sb x.w 95 72)).toNat
      let dg := (tileGranule d x (sb x.w 71 48)).toNat
      let rnd := if sb x.w 20 20 == 1 then some (genKey d2 x, x.q.gen) else none
      let out := (List.range outRows).map fun r => (List.range k).map fun b =>
        codeBlock (sb x.w 23 21) (sb x.w 19 19 == 1)
          (quantBlockElems d2 core g (sb x.w 26 24) rows cols (sb x.w 18 18 == 1) rnd r b)
      .all [writeHeader core dg (sb x.w 23 21),
        .each out.zipIdx (fun o => writeRow core dg (sb x.w 23 21) outRows k o.2 o.1), countBlocks core out.flatten,
        .when (sb x.w 20 20 == 1) (advanceGen core (rows * cols)), stepDone x none])) ∧
  (∀ (s : State) (d d1 : Device) (core ro co : Nat) (x : StepCtx), Runs s core 7 x d →
    (x.q.bank (sb x.w 95 95)).acc = true → sb x.w 46 46 = 0 → ro = 64 * ((x.q.bank (sb x.w 95 95)).m + 1) →
    co = 64 * ((x.q.bank (sb x.w 95 95)).n + 1) →
    TakesDest x d (tileGranule d x (sb x.w 94 71)) (operandGranules (sb x.w 25 23) ro (co / 32)) d1 →
    Gives (.epi core x.fixed x.lost) s d1 (epiRun x ro co (tileGranule d x (sb x.w 94 71)).toNat 0)) ∧
  (∀ (s : State) (d d1 d2 : Device) (core ro co : Nat) (x : StepCtx), Runs s core 7 x d →
    (x.q.bank (sb x.w 95 95)).acc = true → sb x.w 46 46 = 1 → ro = 64 * ((x.q.bank (sb x.w 95 95)).m + 1) →
    co = 64 * ((x.q.bank (sb x.w 95 95)).n + 1) →
    ReadsTile x d (tileGranule d x (sb x.w 70 47)) (co / 32) d1 →
    TakesDest x d1 (tileGranule d x (sb x.w 94 71)) (operandGranules (sb x.w 25 23) ro (co / 32)) d2 →
    Gives (.epi core x.fixed x.lost) s d2
      (epiRun x ro co (tileGranule d x (sb x.w 94 71)).toNat (tileGranule d x (sb x.w 70 47)).toNat)) ∧
  (∀ (s : State) (d : Device) (core : Nat) (x : StepCtx), Runs s core 7 x d → (x.q.bank (sb x.w 95 95)).acc = false →
    Gives (.epi core x.fixed x.lost) s d (stepFault x 0x08 0)) ∧
  (∀ (s : State) (d d1 d2 : Device) (core code bad : Nat) (x : StepCtx), Runs s core 3 x d →
    ((x.q.bank (sb x.w 47 47)).acc = true → (x.q.bank (sb x.w 47 47)).m = sb x.w 46 45 ∧
      (x.q.bank (sb x.w 47 47)).n = sb x.w 44 43) →
    BadWords x d (tileGranule d x (sb x.w 95 72)) (operandGranules (sb x.w 37 35) (64 * (sb x.w 46 45 + 1)) (sb x.w 42 38 + 1))
        (operandWords (sb x.w 37 35)) code bad d2 ∨
      (ReadsWords x d (tileGranule d x (sb x.w 95 72))
        (operandGranules (sb x.w 37 35) (64 * (sb x.w 46 45 + 1)) (sb x.w 42 38 + 1)) (operandWords (sb x.w 37 35)) d1 ∧
      BadWords x d1 (tileGranule d x (sb x.w 71 48))
        (operandGranules (sb x.w 34 32) (64 * (sb x.w 44 43 + 1)) (sb x.w 42 38 + 1)) (operandWords (sb x.w 34 32)) code bad d2) →
    Gives (.product core x.fixed x.lost) s d2 (stepFault x code bad)) ∧
  (∀ (s : State) (d d1 d2 : Device) (core size n code bad : Nat) (c : Instr) (src dst : Int) (x : StepCtx),
    (c = .rotate core x.fixed x.lost ∧ Runs s core 4 x d ∧ src = tileGranule d x (sb x.w 95 72) ∧
        dst = tileGranule d x (sb x.w 71 48) ∧ n = size ∧ size =
          (sb x.w 45 34 + 1) * (sb x.w 33 25 + 1) * 2 ^ (6 + sb x.w 47 46) * (if sb x.w 6 4 == 5 then 4 else 2) / 64) ∨
      (c = .quant core x.fixed x.lost ∧ Runs s core 5 x d ∧ src = tileGranule d x (sb x.w 95 72) ∧
        dst = tileGranule d x (sb x.w 71 48) ∧
        size = operandGranules (sb x.w 26 24) (sb x.w 47 36 + 1) ((sb x.w 35 27 + 1) * 32 / 32) ∧
        n = operandGranules (sb x.w 23 21) (if sb x.w 18 18 == 1 then (sb x.w 35 27 + 1) * 32 else sb x.w 47 36 + 1)
          (if sb x.w 18 18 == 1 then ceilDiv (sb x.w 47 36 + 1) 32 else (sb x.w 35 27 + 1) * 32 / 32)) ∨
      (c = .epi core x.fixed x.lost ∧ Runs s core 7 x d ∧ (x.q.bank (sb x.w 95 95)).acc = true ∧ sb x.w 46 46 = 1 ∧
        src = tileGranule d x (sb x.w 70 47) ∧ dst = tileGranule d x (sb x.w 94 71) ∧
        size = 64 * ((x.q.bank (sb x.w 95 95)).n + 1) / 32 ∧
        n = operandGranules (sb x.w 25 23) (64 * ((x.q.bank (sb x.w 95 95)).m + 1))
          (64 * ((x.q.bank (sb x.w 95 95)).n + 1) / 32)) →
    (BadWords x d src size wholeWords code bad d2 → Gives c s d2 (stepFault x code bad)) ∧
    (ReadsTile x d src size d1 → granulesOk dst n = false → Gives c s d1 (stepFault x 0x01 (dst % 2 ^ 56).toNat))) ∧
  (∀ (s : State) (d : Device) (core : Nat) (x : StepCtx), Runs s core 7 x d → (x.q.bank (sb x.w 95 95)).acc = true →
    sb x.w 46 46 = 0 → granulesOk (tileGranule d x (sb x.w 94 71)) (operandGranules (sb x.w 25 23)
      (64 * ((x.q.bank (sb x.w 95 95)).m + 1)) (64 * ((x.q.bank (sb x.w 95 95)).n + 1) / 32)) = false →
    Gives (.epi core x.fixed x.lost) s d (stepFault x 0x01 (tileGranule d x (sb x.w 94 71) % 2 ^ 56).toNat))

/-- Each of the sixteen row steps reads its rows, takes its destination and reads of its aux entries what the operation uses, where it
has them, and then writes what rowRun says: of an entry, the operations on m and l alone read no more than those, but for a row that
op 12 replays. The memory errors that the reads meet are counted or poison what they reach; an operand outside tile memory or
poisoned faults. -/
def Obligations.RowSteps : Prop :=
  (∀ c ∈ [(Instr.rowExp2, 0), (Instr.rowLog2, 1), (Instr.rowReciprocal, 2), (Instr.rowRsqrt, 3), (Instr.rowExp, 5),
      (Instr.rowTanh, 6), (Instr.rowSigmoid, 7), (Instr.rowSilu, 8), (Instr.rowGelu, 9), (Instr.rowSoftplus, 10)],
    ∀ (s : State) (d d1 d2 : Device) (core : Nat) (x : StepCtx),
    Runs s core 6 x d → sb x.w 95 92 = c.2 →
    ReadsRows x d (tileGranule d x (sb x.w 91 68)) (sb x.w 27 20 + 1) (rowPitch x) (rowSize x) d1 →
    TakesDest x d1 (tileGranule d x (sb x.w 91 68) + signed (sb x.w 67 52) 16) ((sb x.w 27 20 + 1) * rowPitch x) d2 →
    Gives (c.1 core x.fixed x.lost) s d2 (rowRun x c.2 (tileGranule d x (sb x.w 91 68)).toNat
      (tileGranule d x (sb x.w 91 68) + signed (sb x.w 67 52) 16).toNat 0)) ∧
  (∀ c ∈ [(Instr.rowDivideByAux, 4), (Instr.rowScaleByReciprocal, 13)],
    ∀ (s : State) (d d1 d2 d3 : Device) (core : Nat) (x : StepCtx),
    Runs s core 6 x d → sb x.w 95 92 = c.2 →
    ReadsRows x d (tileGranule d x (sb x.w 91 68)) (sb x.w 27 20 + 1) (rowPitch x) (rowSize x) d1 →
    TakesDest x d1 (tileGranule d x (sb x.w 91 68) + signed (sb x.w 67 52) 16) ((sb x.w 27 20 + 1) * rowPitch x) d2 →
    ReadsWords x d2 (tileGranule d x (sb x.w 51 28)) (ceilDiv ((sb x.w 27 20 + 1) * 16) 64)
      (entryHeads (sb x.w 27 20 + 1)) d3 →
    Gives (c.1 core x.fixed x.lost) s d3 (rowRun x c.2 (tileGranule d x (sb x.w 91 68)).toNat
      (tileGranule d x (sb x.w 91 68) + signed (sb x.w 67 52) 16).toNat (tileGranule d x (sb x.w 51 28)).toNat)) ∧
  (∀ (s : State) (d d1 d2 : Device) (core : Nat) (x : StepCtx), Runs s core 6 x d → sb x.w 95 92 = 11 →
    ReadsRows x d (tileGranule d x (sb x.w 91 68)) (sb x.w 27 20 + 1) (rowPitch x) (rowSize x) d1 →
    ReadsWords x d1 (tileGranule d x (sb x.w 51 28)) (ceilDiv ((sb x.w 27 20 + 1) * 16) 64)
      (entryHeads (sb x.w 27 20 + 1)) d2 →
    unread d2 core (tileGranule d x (sb x.w 51 28)).toNat (ceilDiv ((sb x.w 27 20 + 1) * 16) 64) = true →
    Gives (.rowMaximumToAux core x.fixed x.lost) s d2 (.seq
      (noteWrite core (tileGranule d x (sb x.w 51 28)).toNat (ceilDiv ((sb x.w 27 20 + 1) * 16) 64))
      (rowRun x 11 (tileGranule d x (sb x.w 91 68)).toNat 0 (tileGranule d x (sb x.w 51 28)).toNat))) ∧
  (∀ (s : State) (d d1 d2 d3 d4 : Device) (core : Nat) (x : StepCtx), Runs s core 6 x d → sb x.w 95 92 = 12 →
    ReadsRows x d (tileGranule d x (sb x.w 91 68)) (sb x.w 27 20 + 1) (rowPitch x) (rowSize x) d1 →
    TakesDest x d1 (tileGranule d x (sb x.w 91 68) + signed (sb x.w 67 52) 16) ((sb x.w 27 20 + 1) * rowPitch x) d2 →
    ReadsWords x d2 (tileGranule d x (sb x.w 51 28)) (ceilDiv ((sb x.w 27 20 + 1) * 16) 64)
      (entryHeads (sb x.w 27 20 + 1)) d3 →
    ReadsWords x d3 (tileGranule d x (sb x.w 51 28)) (ceilDiv ((sb x.w 27 20 + 1) * 16) 64)
      (replayTails d3 x (tileGranule d x (sb x.w 91 68)).toNat (tileGranule d x (sb x.w 51 28)).toNat) d4 →
    unread d4 core (tileGranule d x (sb x.w 51 28)).toNat (ceilDiv ((sb x.w 27 20 + 1) * 16) 64) = true →
    Gives (.rowExp2ScaledDifference core x.fixed x.lost) s d4 (.seq
      (noteWrite core (tileGranule d x (sb x.w 51 28)).toNat (ceilDiv ((sb x.w 27 20 + 1) * 16) 64))
      (rowRun x 12 (tileGranule d x (sb x.w 91 68)).toNat
        (tileGranule d x (sb x.w 91 68) + signed (sb x.w 67 52) 16).toNat (tileGranule d x (sb x.w 51 28)).toNat))) ∧
  (∀ (s : State) (d d1 d2 : Device) (core : Nat) (x : StepCtx), Runs s core 6 x d → sb x.w 95 92 = 14 →
    ReadsRows x d (tileGranule d x (sb x.w 91 68)) (sb x.w 27 20 + 1) (rowPitch x) (rowSize x) d1 →
    ReadsRows x d1 (tileGranule d x (sb x.w 51 28)) 1 (ceilDiv ((sb x.w 27 20 + 1) * 16) 64) ((sb x.w 27 20 + 1) * 16) d2 →
    unread d2 core (tileGranule d x (sb x.w 51 28)).toNat (ceilDiv ((sb x.w 27 20 + 1) * 16) 64) = true →
    Gives (.rowMeanAndSquares core x.fixed x.lost) s d2 (.seq
      (noteWrite core (tileGranule d x (sb x.w 51 28)).toNat (ceilDiv ((sb x.w 27 20 + 1) * 16) 64))
      (rowRun x 14 (tileGranule d x (sb x.w 91 68)).toNat 0 (tileGranule d x (sb x.w 51 28)).toNat))) ∧
  (∀ (s : State) (d d1 d2 d3 : Device) (core : Nat) (x : StepCtx), Runs s core 6 x d → sb x.w 95 92 = 15 →
    ReadsRows x d (tileGranule d x (sb x.w 91 68)) (sb x.w 27 20 + 1) (rowPitch x) (rowSize x) d1 →
    TakesDest x d1 (tileGranule d x (sb x.w 91 68) + signed (sb x.w 67 52) 16) ((sb x.w 27 20 + 1) * rowPitch x) d2 →
    ReadsRows x d2 (tileGranule d x (sb x.w 51 28)) 1 (ceilDiv ((sb x.w 27 20 + 1) * 16) 64) ((sb x.w 27 20 + 1) * 16) d3 →
    Gives (.rowNormalise core x.fixed x.lost) s d3 (rowRun x 15 (tileGranule d x (sb x.w 91 68)).toNat
      (tileGranule d x (sb x.w 91 68) + signed (sb x.w 67 52) 16).toNat (tileGranule d x (sb x.w 51 28)).toNat)) ∧
  (∀ c ∈ [(Instr.rowExp2, 0), (Instr.rowLog2, 1), (Instr.rowReciprocal, 2), (Instr.rowRsqrt, 3), (Instr.rowDivideByAux, 4),
      (Instr.rowExp, 5), (Instr.rowTanh, 6), (Instr.rowSigmoid, 7), (Instr.rowSilu, 8), (Instr.rowGelu, 9),
      (Instr.rowSoftplus, 10), (Instr.rowMaximumToAux, 11), (Instr.rowExp2ScaledDifference, 12),
      (Instr.rowScaleByReciprocal, 13), (Instr.rowMeanAndSquares, 14), (Instr.rowNormalise, 15)],
    ∀ (s : State) (d d1 d2 d3 : Device) (core code bad : Nat) (x : StepCtx), Runs s core 6 x d → sb x.w 95 92 = c.2 →
    (BadWords x d (tileGranule d x (sb x.w 91 68)) ((sb x.w 27 20 + 1) * rowPitch x) (rowWords (rowPitch x) (rowSize x))
        code bad d1 →
      Gives (c.1 core x.fixed x.lost) s d1 (stepFault x code bad)) ∧
    (ReadsRows x d (tileGranule d x (sb x.w 91 68)) (sb x.w 27 20 + 1) (rowPitch x) (rowSize x) d1 → c.2 ≠ 11 → c.2 ≠ 14 →
      granulesOk (tileGranule d x (sb x.w 91 68) + signed (sb x.w 67 52) 16) ((sb x.w 27 20 + 1) * rowPitch x) = false →
      Gives (c.1 core x.fixed x.lost) s d1
        (stepFault x 0x01 ((tileGranule d x (sb x.w 91 68) + signed (sb x.w 67 52) 16) % 2 ^ 56).toNat)) ∧
    (ReadsRows x d (tileGranule d x (sb x.w 91 68)) (sb x.w 27 20 + 1) (rowPitch x) (rowSize x) d1 →
      (if c.2 = 11 ∨ c.2 = 14 then d2 = d1 else
        TakesDest x d1 (tileGranule d x (sb x.w 91 68) + signed (sb x.w 67 52) 16) ((sb x.w 27 20 + 1) * rowPitch x) d2) →
      c.2 = 4 ∨ 11 ≤ c.2 →
      BadWords x d2 (tileGranule d x (sb x.w 51 28)) (ceilDiv ((sb x.w 27 20 + 1) * 16) 64)
        (if 14 ≤ c.2 then rowWords (ceilDiv ((sb x.w 27 20 + 1) * 16) 64) ((sb x.w 27 20 + 1) * 16) else
          entryHeads (sb x.w 27 20 + 1)) code bad d3 →
      Gives (c.1 core x.fixed x.lost) s d3 (stepFault x code bad))) ∧
  (∀ (s : State) (d d1 d2 d3 d4 : Device) (core code bad : Nat) (x : StepCtx), Runs s core 6 x d → sb x.w 95 92 = 12 →
    ReadsRows x d (tileGranule d x (sb x.w 91 68)) (sb x.w 27 20 + 1) (rowPitch x) (rowSize x) d1 →
    TakesDest x d1 (tileGranule d x (sb x.w 91 68) + signed (sb x.w 67 52) 16) ((sb x.w 27 20 + 1) * rowPitch x) d2 →
    ReadsWords x d2 (tileGranule d x (sb x.w 51 28)) (ceilDiv ((sb x.w 27 20 + 1) * 16) 64)
      (entryHeads (sb x.w 27 20 + 1)) d3 →
    BadWords x d3 (tileGranule d x (sb x.w 51 28)) (ceilDiv ((sb x.w 27 20 + 1) * 16) 64)
      (replayTails d3 x (tileGranule d x (sb x.w 91 68)).toNat (tileGranule d x (sb x.w 51 28)).toNat) code bad d4 →
    Gives (.rowExp2ScaledDifference core x.fixed x.lost) s d4 (stepFault x code bad))

/-- Each of the eleven ATOM steps reads the elements of its window, combines each with its operand by atomResult and writes them in
place; with fetch the old values replace the operands. The memory errors that the reads meet are counted or poison what they reach.
An operand outside tile memory, or poisoned, faults, and so do a walk of the maps that meets an error that cannot be corrected and
an access that `extAccess` faults; a walk or an access that is held leaves the step to be tried again. -/
def Obligations.AtomSteps : Prop :=
  ∀ c ∈ [(Instr.atomAddInt32, 0),
      (Instr.atomAddFp32, 1),
      (Instr.atomAddBf16, 2),
      (Instr.atomMinInt32, 3),
      (Instr.atomMaxInt32, 4),
      (Instr.atomMinFp32, 5),
      (Instr.atomMaxFp32, 6),
      (Instr.atomMinBf16, 7),
      (Instr.atomMaxBf16, 8),
      (Instr.atomVectorReduceAddFp32, 9),
      (Instr.atomVectorReduceAddBf16, 10)],
    ∀ (s : State) (d d1 : Device) (core n e : Nat) (x : StepCtx) (os : List Int) (win : WindowRec),
    Runs s core 11 x d → sb x.w 95 92 = c.2 → e = (if atomNarrow c.2 then 2 else 4) → n = sb x.w 18 7 + 1 →
    os = (List.range (n * e)).map (fun (i : Nat) =>
      extOffset d x (sb x.w 79 52) (sb x.w 51 51) (sb x.w 50 43) 0 * (e : Int) + (i : Int)) →
    stepWindow x (sb x.w 91 80) = win →
    (ReadsRows x d (tileGranule d x (sb x.w 42 19)) 1 (ceilDiv (n * e) 64) (n * e) d1 →
      (sb x.w 6 6 = 1 → c.2 ≤ 8 → unread d1 core (tileGranule d x (sb x.w 42 19)).toNat (ceilDiv (n * e) 64) = true) →
      (∀ d2 d3, Walks x d1 win os d2 → (memErrors (extTouched d2 x win os .atomic) x.fixed x.lost).run d2 = d3 →
        (∀ as, extAccess d3 x win os .atomic true noCopy = .served as →
          Gives (c.1 core x.fixed x.lost) s d3 (.all [notReplayable core,
            wrAt as ((List.zipWith (atomResult c.2) (numbers e n (d3.bytesAt as))
              (numbers e n (tileBytes d3 core ((tileGranule d x (sb x.w 42 19)).toNat * 64) (n * e)))).flatMap (toLE e)),
            .when (sb x.w 6 6 == 1 && decide (c.2 ≤ 8))
              (.seq (noteWrite core (tileGranule d x (sb x.w 42 19)).toNat (ceilDiv (n * e) 64))
                (wrTile core ((tileGranule d x (sb x.w 42 19)).toNat * 64) (d3.bytesAt as))),
            stepDone x none])) ∧
        (∀ code a, extAccess d3 x win os .atomic true noCopy = .fault code a →
          Gives (c.1 core x.fixed x.lost) s d3 (stepFault x code a)) ∧
        (extAccess d3 x win os .atomic true noCopy = .held → Gives (c.1 core x.fixed x.lost) s d3 .skip)) ∧
      (agentHeld d1 (some x.part) (walkAddrs d1 x.part (stepPages d1 x win os)) = true →
        Gives (c.1 core x.fixed x.lost) s d1 .skip) ∧
      (∀ d2, agentHeld d1 (some x.part) (walkAddrs d1 x.part (stepPages d1 x win os)) = false →
        (memErrors (walkAddrs d1 x.part (stepPages d1 x win os)) x.fixed x.lost).run d1 = d2 →
        anyPoison d2 (walkAddrs d1 x.part (stepPages d1 x win os)) = true →
        Gives (c.1 core x.fixed x.lost) s d2 (.seq
          (logError { severity := 1, source := 9, code := 3, context := x.ctx })
          (stepFault x 0x03 (((stepPages d1 x win os).find? fun p =>
            anyPoison d2 (walkAddrs d2 x.part [p])).map (·.va) |>.getD 0))))) ∧
    (∀ code bad, BadWords x d (tileGranule d x (sb x.w 42 19)) (1 * ceilDiv (n * e) 64) (rowWords (ceilDiv (n * e) 64) (n * e))
        code bad d1 → Gives (c.1 core x.fixed x.lost) s d1 (stepFault x code bad))

/-- SEQ_DOORBELL and SEQ_TAIL_POLL read the tail of a ring that is served and let its unit take the next record, and read no tail of
one that is not; a unit that has none in service takes the first record in turn, and completes one out of range at once.
SEQ_RING_ENABLE that clears enable abandons the records not served. -/
def Obligations.SequenceRings : Prop :=
  (∀ (s : State) (d : Device) (rq p v : Nat), p < 32 → Writes s rq .PRT_SEQ_DOORBELL p v 0 d → serving d = true →
    (seqServed d p (v % 64) = true →
      Gives (.seqDoorbell rq p v) s d (.seq
        (putSeqTails (p * 64 + v % 64) (readVirtual d (seqCtx d p (v % 64)) (seqBase d p (v % 64)) 4))
        (.obs fun d => .each (seqDie d p).toList seqTake))) ∧
    (seqServed d p (v % 64) = false → Gives (.seqDoorbell rq p v) s d (.each (seqDie d p).toList seqTake))) ∧
  (∀ (s : State) (d : Device) (rq p v : Nat), p < 32 → Writes s rq .PRT_SEQ_DOORBELL p v 0 d → serving d = false →
    Gives (.seqDoorbell rq p v) s d .skip) ∧
  (∀ (s : State) (p ring : Nat), p < 32 → ring < 64 → serving s.dev = true →
    (seqServed s.dev p ring = true →
      Does (.seqTailPoll p ring) s (.seq
        (putSeqTails (p * 64 + ring) (readVirtual s.dev (seqCtx s.dev p ring) (seqBase s.dev p ring) 4))
        (.obs fun d => .each (seqDie d p).toList seqTake))) ∧
    (seqServed s.dev p ring = false → Does (.seqTailPoll p ring) s (.each (seqDie s.dev p).toList seqTake))) ∧
  (∀ (s : State) (p ring die k : Nat) (ks : List Nat), p < 32 → ring < 64 → serving s.dev = true →
    seqServed s.dev p ring = false → seqDie s.dev p = some die → s.dev.seqServiceAt die = none →
    (seqTurn s.dev die (s.dev.rrAt (512 + die)) = [] → Does (.seqTailPoll p ring) s .skip) ∧
    (∀ q, seqTurn s.dev die (s.dev.rrAt (512 + die)) = k :: ks → seqRequest s.dev (k / 64) (k % 64) = some q →
      (seqMalformed s.dev q = true → Does (.seqTailPoll p ring) s (.seq (putRr (512 + die) k) (seqFail q 8))) ∧
      (seqMalformed s.dev q = false → Does (.seqTailPoll p ring) s (.all [putRr (512 + die) k, putSeqService die (some k),
        setF F.PRT_SEQ_STAT_busy (k / 64) 1])))) ∧
  (∀ (s : State) (d : Device) (rq p ring v : Nat), p < 32 → ring < 64 →
    Writes s rq .PRT_SEQ_RING_BASE (p * 64 + ring) v 0 d →
    Gives (.seqRingEnable rq p ring v) s d (.when (bit v 0 == 0) (putSeqTails (p * 64 + ring) none)))

/-- LOOKUP writes the nodes it matches and counts hits and misses; INSERT finds the block, or allocates a node for it and first makes
room by evicting the oldest evictable node where its bucket or the tree is full; RELEASE gives references up; NODE_READ writes a
node's form; FLUSH_SCOPE evicts the nodes of its scope; VERIFY accepts the leading candidates and emits a token. Each completes with
its status and result; a request that fails completes with the status that says why, one out of range with BAD_REQUEST, and one of
a partition whose tree is lost with BAD_NODE. Without a request of its op in service a command has no effect. -/
def Obligations.SequenceRequests : Prop :=
  (∀ (s : State) (die : Nat) (q : SeqReq), Serves s die 1 q →
    (∀ ts is clash, tokensAt s.dev q.ctx q.a0 (bits q.imm 12 0) = some ts →
      walk s.dev q.part (seqScope s.dev q) none (tokenBlocks 64 ts) = (is, clash) →
      ((translateRange s.dev q.ctx q.a1 .write (16 * is.length)).isSome = true →
        (bit q.flags 0 = 1 → refsFit s.dev q.part q.ring is = true) →
        Does (.lookup die) s (.all [writeVirtual q.ctx q.a1 (is.flatMap (lookupEntry s.dev q.part)),
          .each is (fun i => .seq (modNode q.part i fun n => { n with lastUse := q.serial })
            (.when (bit q.flags 0 == 1) (takeRef q.part q.ring i))),
          countNodes q.part, addSat F.PRT_PFX_HITS_hits q.part is.length,
          .when (is.length < (tokenBlocks 64 ts).length) (addSat F.PRT_PFX_MISSES_misses q.part 1),
          .when clash (addSat F.PRT_PFX_EVENTS_collisions q.part 1), seqComplete q 0 is.length])) ∧
      (translateRange s.dev q.ctx q.a1 .write (16 * is.length) = none → Does (.lookup die) s (seqFail q 9)) ∧
      ((translateRange s.dev q.ctx q.a1 .write (16 * is.length)).isSome = true → bit q.flags 0 = 1 →
        refsFit s.dev q.part q.ring is = false → Does (.lookup die) s (seqFail q 5))) ∧
    (tokensAt s.dev q.ctx q.a0 (bits q.imm 12 0) = none → Does (.lookup die) s (seqFail q 9))) ∧
  (∀ (s : State) (die scope : Nat) (q : SeqReq) (parent : Option Nat), Serves s die 2 q → scope = seqScope s.dev q →
    parent = (if bit q.imm 23 = 1 then none else some (bits q.imm 15 0)) →
    (tokensAt s.dev q.ctx q.a0 (bits q.imm 22 16) = none → Does (.insert die) s (seqFail q 9)) ∧
    (∀ ts, tokensAt s.dev q.ctx q.a0 (bits q.imm 22 16) = some ts →
      (treeReady s.dev q.part = false → Does (.insert die) s (seqFail q 3)) ∧
      (∀ i, treeReady s.dev q.part = true → parent = some i →
        (s.dev.pfxRefsAt (refKey q.part q.ring i) = 0 ∨ (treeNode s.dev q.part i).map (·.scope) ≠ some scope) →
        Does (.insert die) s (seqFail q 6)) ∧
      (treeReady s.dev q.part = true → (∀ i, parent = some i → s.dev.pfxRefsAt (refKey q.part q.ring i) ≠ 0 ∧
          (treeNode s.dev q.part i).map (·.scope) = some scope) →
        (∀ i, matching s.dev q.part scope parent ts = some i →
          ((bit q.flags 0 = 1 → refsFit s.dev q.part q.ring [i] = true) →
            Does (.insert die) s (.all [modNode q.part i (fun n => { n with lastUse := q.serial }),
              .when (bit q.flags 0 == 1) (takeRef q.part q.ring i), countNodes q.part, seqComplete q 1 i])) ∧
          (bit q.flags 0 = 1 → refsFit s.dev q.part q.ring [i] = false → Does (.insert die) s (seqFail q 5))) ∧
        (matching s.dev q.part scope parent ts = none →
          (collides s.dev q.part scope parent ts = true →
            Does (.insert die) s (.seq (addSat F.PRT_PFX_EVENTS_collisions q.part 1) (seqFail q 2))) ∧
          (collides s.dev q.part scope parent ts = false → bit q.flags 0 = 1 →
            4096 ≤ (ringRefs s.dev q.part q.ring).length → Does (.insert die) s (seqFail q 5)) ∧
          (∀ (n : PfxNode) (room bucket : Bool) (sel : PfxNode → Bool) (full : Nat),
            collides s.dev q.part scope parent ts = false →
            (bit q.flags 0 = 1 → (ringRefs s.dev q.part q.ring).length < 4096) →
            n = { hash := blockHash (s.dev.pfxKeysAt q.part) scope
                    ((parent.bind (treeNode s.dev q.part)).map (·.hash) |>.getD 0) ts
                  parent := parent, scope := scope, tokens := ts, kvAddr := q.a1, kvBytes := q.a2, lastUse := q.serial } →
            bucket = decide (8 ≤ ((treeNodes s.dev q.part).filter fun m => bucketIndex m.2.hash == bucketIndex n.hash).length) →
            room = (!bucket && decide ((treeNodes s.dev q.part).length < 65536)) →
            sel = (if bucket then fun m => bucketIndex m.hash == bucketIndex n.hash else fun _ => true) →
            full = (if bucket then 4 else 3) →
            (room = true → Does (.insert die) s (allocate q n)) ∧
            (room = false → oldest s.dev q.part sel = [] →
              Does (.insert die) s (.seq (addSat F.PRT_PFX_EVENTS_full q.part 1) (seqFail q full))) ∧
            (room = false → oldest s.dev q.part sel ≠ [] → logRoom s.dev q.part = true →
              Does (.insert die) s (pickOne (oldest s.dev q.part sel) fun i => .seq (evictNode q.part i) (allocate q n))) ∧
            (room = false → oldest s.dev q.part sel ≠ [] → logRoom s.dev q.part = false →
              Does (.insert die) s (.seq (addSat F.PRT_PFX_EVENTS_full q.part 1) (seqFail q 3)))))))) ∧
  (∀ (s : State) (die : Nat) (q : SeqReq), Serves s die 3 q →
    (translateRange s.dev q.ctx q.a0 .read (2 * q.count) = none → Does (.release die) s (seqFail q 9)) ∧
    (∀ as is, translateRange s.dev q.ctx q.a0 .read (2 * q.count) = some as →
      is = (List.range q.count).map (fun i => fromLE (((s.dev.bytesAt as).drop (2 * i)).take 2)) →
      ((∀ i ∈ is, (is.filter (· == i)).length ≤ s.dev.pfxRefsAt (refKey q.part q.ring i)) →
        (∀ i ∈ is, (treeNode s.dev q.part i).map (·.scope) = some (seqScope s.dev q)) →
        Does (.release die) s (.all [.each is (giveRef q.part q.ring), countNodes q.part, seqComplete q 0 q.count])) ∧
      (∀ i ∈ is, s.dev.pfxRefsAt (refKey q.part q.ring i) < (is.filter (· == i)).length →
        Does (.release die) s (seqFail q 7)) ∧
      ((∀ i ∈ is, (is.filter (· == i)).length ≤ s.dev.pfxRefsAt (refKey q.part q.ring i)) →
        ∀ i ∈ is, (treeNode s.dev q.part i).map (·.scope) ≠ some (seqScope s.dev q) → Does (.release die) s (seqFail q 6)))) ∧
  (∀ (s : State) (die : Nat) (q : SeqReq), Serves s die 5 q →
    (∀ n, treeNode s.dev q.part (bits q.imm 15 0) = some n → n.scope = seqScope s.dev q →
      ((translateRange s.dev q.ctx q.a0 .write 64).isSome = true →
        Does (.nodeRead die) s (.seq (writeVirtual q.ctx q.a0 (nodeForm n)) (seqComplete q 0 0))) ∧
      (translateRange s.dev q.ctx q.a0 .write 64 = none → Does (.nodeRead die) s (seqFail q 9))) ∧
    ((∀ n, treeNode s.dev q.part (bits q.imm 15 0) = some n → n.scope ≠ seqScope s.dev q) →
      Does (.nodeRead die) s (seqFail q 6))) ∧
  (∀ (s : State) (die : Nat) (q : SeqReq), Serves s die 6 q →
    Does (.flushScope die) s (.seq
      (evictAll q.part (fun n => n.scope == seqScope s.dev q) (treeNodes s.dev q.part).length)
      (.obs fun d => .seq (countNodes q.part)
        (seqComplete q 0 ((treeNodes s.dev q.part).length - (treeNodes d q.part).length))))) ∧
  (∀ (s : State) (die row rule : Nat) (q : SeqReq), Serves s die 4 q → bit q.imm 63 = rule → row = bits q.imm 55 0 →
    (∀ cand pas qas ras was, tokensAt s.dev q.ctx q.a0 q.count = some cand →
      translateRange s.dev q.ctx q.a1 .read ((q.count + 1) * q.vocab * 4) = some pas →
      (if rule = 1 then translateRange s.dev q.ctx q.a2 .read (q.count * q.vocab * 4) = some qas else qas = []) →
      translateRange s.dev q.ctx row .read 16 = some ras → translateRange s.dev q.ctx row .write 16 = some was →
      (∀ a, (∀ c ∈ cand, c < q.vocab) →
        (∀ i < q.count + 1, (probRow s.dev pas q.vocab i).any badProb = false) →
        (rule = 1 → ∀ i < q.count, (probRow s.dev qas q.vocab i).any badProb = false) →
        a = acceptedCount rule (s.dev.reg .CTX_SEED q.ctx ^^^ 1) q.a3 cand (probRow s.dev pas q.vocab)
          (probRow s.dev qas q.vocab) →
        Does (.verify die) s (.all [
          writeVirtual q.ctx (row + 4) (toLE 4 (fromLE (((s.dev.bytesAt ras).drop 4).take 4) + 1 + a)),
          writeVirtual q.ctx (row + 8) (toLE 4 (fromLE (((s.dev.bytesAt ras).drop 8).take 4) ||| 4)),
          seqComplete q 0 (a + emittedToken rule (s.dev.reg .CTX_SEED q.ctx ^^^ 1) q.a3 q.count a
            (probRow s.dev pas q.vocab) (probRow s.dev qas q.vocab) * 256)])) ∧
      (∀ c ∈ cand, q.vocab ≤ c → Does (.verify die) s (seqFail q 8)) ∧
      (∀ i, (∀ c ∈ cand, c < q.vocab) →
        ((i < q.count + 1 ∧ (probRow s.dev pas q.vocab i).any badProb = true) ∨
          (rule = 1 ∧ i < q.count ∧ (probRow s.dev qas q.vocab i).any badProb = true)) →
        Does (.verify die) s (seqFail q 10))) ∧
    (tokensAt s.dev q.ctx q.a0 q.count = none ∨ translateRange s.dev q.ctx q.a1 .read ((q.count + 1) * q.vocab * 4) = none ∨
      (rule = 1 ∧ translateRange s.dev q.ctx q.a2 .read (q.count * q.vocab * 4) = none) ∨
      translateRange s.dev q.ctx row .read 16 = none ∨ translateRange s.dev q.ctx row .write 16 = none →
      Does (.verify die) s (seqFail q 9))) ∧
  (∀ c ∈ [(Instr.lookup, 1), (Instr.insert, 2), (Instr.release, 3), (Instr.verify, 4), (Instr.nodeRead, 5),
      (Instr.flushScope, 6)], ∀ (s : State) (die : Nat), die < 16 → working s.dev = true →
    (∀ q, (s.dev.seqServiceAt die).bind (fun k => seqRequest s.dev (k / 64) (k % 64)) = some q →
      (seqMalformed s.dev q = true → Does (c.1 die) s (seqFail q 8)) ∧
      (seqMalformed s.dev q = false → q.op ≠ c.2 → Does (c.1 die) s .skip) ∧
      (seqMalformed s.dev q = false → q.op = c.2 → treeLost s.dev q.part = true →
        Does (c.1 die) s (.seq (loseTree q.part q.ctx) (seqFail q 6)))) ∧
    ((s.dev.seqServiceAt die).bind (fun k => seqRequest s.dev (k / 64) (k % 64)) = none → Does (c.1 die) s .skip))

/-- PFX_ENABLE keeps the base while enable is 1, empties a tree newly enabled, and makes ready follow enable; PFX_REKEY logs and
drops every node and draws a key; PFX_FLUSH evicts every node it may, and ends there where the log takes no more; a write without
the right is denied. -/
def Obligations.PrefixTreeControl : Prop :=
  (∀ (s : State) (d : Device) (rq p v on base : Nat), p < 32 → Writes s rq .PRT_PFX_BASE p v 0 d →
    ((beforeAccess rq).run s.dev).fld F.PRT_PFX_BASE_enable p = on →
    ((beforeAccess rq).run s.dev).fld F.PRT_PFX_BASE_base p = base →
    Gives (.pfxEnable rq p v) s d (.all [.when (on == 1) (setF F.PRT_PFX_BASE_base p base),
      .when (on == 0 && bit v 0 == 1) (emptyTree p), setF F.PRT_PFX_CTRL_ready p (bit v 0)])) ∧
  (∀ (s : State) (d : Device) (rq p : Nat), p < 32 → Writes s rq .PRT_PFX_CTRL p (2 ^ 31) 31 d →
    Gives (.pfxRekey rq p) s d (.all [.each (treeNodes d p) (logRekeyed p), emptyTree p, drawKey p])) ∧
  (∀ (s : State) (d : Device) (rq p : Nat), p < 32 → Writes s rq .PRT_PFX_CTRL p (2 ^ 30) 30 d →
    Gives (.pfxFlush rq p) s d (.seq (evictAll p (fun _ => true) (treeNodes d p).length) (countNodes p)) ∧
    (logRoom d p = false → Gives (.pfxFlush rq p) s d (countNodes p))) ∧
  (∀ (s : State) (d : Device) (rq p ring v : Nat), p < 32 → ring < 64 → Asks s rq d →
    (bit (mayWrite d rq .PRT_PFX_BASE p) 0 = 0 → Gives (.pfxEnable rq p v) s d denied) ∧
    (bit (mayWrite d rq .PRT_PFX_CTRL p) 31 = 0 → Gives (.pfxRekey rq p) s d denied) ∧
    (bit (mayWrite d rq .PRT_PFX_CTRL p) 30 = 0 → Gives (.pfxFlush rq p) s d denied) ∧
    (bit (mayWrite d rq .PRT_SEQ_DOORBELL p) 0 = 0 → Gives (.seqDoorbell rq p v) s d denied) ∧
    (bit (mayWrite d rq .PRT_SEQ_RING_BASE (p * 64 + ring)) 0 = 0 → Gives (.seqRingEnable rq p ring v) s d denied))

/-- WAYMAP_WRITE changes the mode of the ways the requester may change and starts to clear each that changes; WAYOWN_WRITE stores
owners and starts to clear each way whose owner changes; what lines a way held are given up. WAY_CLEAR_DONE leaves a way being
cleared reading 0 and makes the writes that waited for it. A write without the right is denied, and one to a floor whose site is gone
has no effect. -/
def Obligations.FloorWays : Prop :=
  (∀ (s : State) (d : Device) (rq site v : Nat) (changed : List Nat), site < 17 → Asks s rq d →
    (isSteward rq || !siteGone d .FLR_WAYMAP site) = true → mayWrite d rq .FLR_WAYMAP site ≠ 0 →
    changed = (waysOf d rq site).filter (fun w => bit (d.fld F.FLR_WAYMAP_mode site) w != bit v w) →
    Gives (.waymapWrite rq site v) s d (.seq
      (setF F.FLR_WAYMAP_mode site (changed.foldl (fun a w => a ^^^ 2 ^ w) (d.fld F.FLR_WAYMAP_mode site)))
      (.obs fun d => .seq
        (setF F.FLR_WAYMAP_busy site (changed.foldl (fun a w => a ||| 2 ^ w) (d.fld F.FLR_WAYMAP_busy site)))
        (dropLines site changed)))) ∧
  (∀ (s : State) (d : Device) (rq site i v : Nat), site < 17 → i < 4 →
    (isSteward rq || !siteGone ((beforeAccess rq).run s.dev) .FLR_WAYMAP site) = true →
    Writes s rq .FLR_WAYOWN (site * 4 + i) (v &&& 0x9F9F9F9F) 0 d →
    Gives (.wayownWrite rq site i v) s d (clearWays site (((List.range 4).filter fun j =>
      bits (v &&& 0x9F9F9F9F) (8 * j + 7) (8 * j) !=
        wayOwnByte ((beforeAccess rq).run s.dev) site (4 * i + j)).map (4 * i + ·)))) ∧
  (∀ (s : State) (site way : Nat), site < 17 → way < 16 → powered s.dev = true →
    (wayBusy s.dev site way = true →
      Does (.wayClearDone site way) s (.all [
        .upd (.memDrop fun a => wayBase site way ≤ a && a < wayBase site way + wayBytes),
        .upd (.poisonDrop fun a => wayBase site way ≤ a && a < wayBase site way + wayBytes),
        setF F.FLR_WAYMAP_busy site (s.dev.fld F.FLR_WAYMAP_busy site - 2 ^ way), releaseWrites])) ∧
    (wayBusy s.dev site way = false → Does (.wayClearDone site way) s .skip)) ∧
  (∀ (s : State) (d : Device) (rq site i v : Nat), site < 17 → i < 4 → Asks s rq d →
    ((isSteward rq || !siteGone d .FLR_WAYMAP site) = true →
      (mayWrite d rq .FLR_WAYMAP site = 0 → Gives (.waymapWrite rq site v) s d denied) ∧
      (bit (mayWrite d rq .FLR_WAYOWN (site * 4 + i)) 0 = 0 → Gives (.wayownWrite rq site i v) s d denied)) ∧
    ((isSteward rq || !siteGone d .FLR_WAYMAP site) = false →
      Gives (.waymapWrite rq site v) s d .skip ∧ Gives (.wayownWrite rq site i v) s d .skip))

/-- DRAM_TRAIN marks the channels to train; DRAM_TRAIN_DONE trains them, substituting spares or retiring, and gives the result;
DQ_LANE_FAIL is marked for the next training; CA_LANE_FAIL and CHANNEL_RETIRE tear down the contexts that reach the channel's group,
retire the channel, poison its group and record it, once. -/
def Obligations.DramTraining : Prop :=
  (∀ (s : State) (d : Device) (rq stack v : Nat), stack < 16 → Writes s rq .DRM_TRAIN stack v 31 d →
    (∀ named, bit v 31 = 1 → d.fld F.DRM_TRAIN_busy stack = 0 →
      named = (List.range 32).filter (fun c => bit (d.fld F.DRM_TRAIN_MASK_mask stack) c == 1) →
      Gives (.dramTrain rq stack v) s d (.seq (setF F.DRM_TRAIN_busy stack 1) (putTraining stack
        ((named.filter fun c => (groupPart d (stack * 8 + c / 4)).isNone && !chanRetired d stack c).foldl
          (fun a c => a + 2 ^ c) 0 + (if named.any fun c => (groupPart d (stack * 8 + c / 4)).isSome then 2 ^ 32 else 0))))) ∧
    (bit v 31 = 0 ∨ d.fld F.DRM_TRAIN_busy stack ≠ 0 → Gives (.dramTrain rq stack v) s d .skip)) ∧
  (∀ (s : State) (stack : Nat) (dq ca chans : List Nat), stack < 16 → (dq.all (· < 32)) = true → (ca.all (· < 32)) = true →
    powered s.dev = true → chans = (List.range 32).filter (fun c => bit (s.dev.trainingAt stack) c == 1) →
    (s.dev.fld F.DRM_TRAIN_busy stack = 1 →
      Does (.dramTrainDone stack dq ca) s (.all [
        .each chans fun c => .obs fun d =>
          let n := dq.count c + d.dqFailedAt (stack * 32 + c)
          .all [putDqFailed (stack * 32 + c) 0, setF F.DRM_CHAN_STATUS_lane_pending (stack * 32 + c) 0,
            if 2 < d.fld F.DRM_CHAN_STATUS_dq_spares (stack * 32 + c) + n ∨
              1 < d.fld F.DRM_CHAN_STATUS_ca_spare (stack * 32 + c) + ca.count c then channelRetire (stack * 32 + c)
            else .seq
              (setF F.DRM_CHAN_STATUS_dq_spares (stack * 32 + c) (d.fld F.DRM_CHAN_STATUS_dq_spares (stack * 32 + c) + n))
              (setF F.DRM_CHAN_STATUS_ca_spare (stack * 32 + c)
                (d.fld F.DRM_CHAN_STATUS_ca_spare (stack * 32 + c) + ca.count c))],
        .obs (fun d' => setF F.DRM_TRAIN_result stack
          (if bit (s.dev.trainingAt stack) 32 == 1 then 3
           else if chans.any fun c =>
             s.dev.fld F.DRM_CHAN_STATUS_retired (stack * 32 + c) != d'.fld F.DRM_CHAN_STATUS_retired (stack * 32 + c) then 2
           else if (chans.any fun c =>
               s.dev.fld F.DRM_CHAN_STATUS_dq_spares (stack * 32 + c) != d'.fld F.DRM_CHAN_STATUS_dq_spares (stack * 32 + c)) ||
             (chans.any fun c =>
               s.dev.fld F.DRM_CHAN_STATUS_ca_spare (stack * 32 + c) != d'.fld F.DRM_CHAN_STATUS_ca_spare (stack * 32 + c))
             then 1 else 0)),
        setF F.DRM_TRAIN_busy stack 0, putTraining stack 0])) ∧
    (s.dev.fld F.DRM_TRAIN_busy stack ≠ 1 → Does (.dramTrainDone stack dq ca) s .skip)) ∧
  (∀ (s : State) (chan : Nat), chan < 512 → powered s.dev = true →
    Does (.dqLaneFail chan) s (.seq (setF F.DRM_CHAN_STATUS_lane_pending chan 1) (modDqFailed chan (· + 1)))) ∧
  (∀ c ∈ [Instr.caLaneFail, Instr.channelRetire], ∀ (s : State) (chan g : Nat), chan < 512 → powered s.dev = true →
    g = chan / 32 * 8 + chan % 32 / 4 →
    (s.dev.fld F.DRM_CHAN_STATUS_retired chan = 0 →
      Does (c chan) s (.all [.each (contextsReaching s.dev g) (teardown · codeDataLost),
        setF F.DRM_CHAN_STATUS_retired chan 1, addWrap F.DRM_STACK_STATUS_channels_retired (chan / 32) 1,
        .obs (fun d => putGroupPoison g (!groupRetired d g)), logService 9 (chan / 32) (chan % 32 * 256 + 255) 0,
        putRetired (siteKey 8 chan) true, saveSpare])) ∧
    (s.dev.fld F.DRM_CHAN_STATUS_retired chan ≠ 0 → Does (c chan) s .skip))

/-- GROUP_POISON_DONE leaves every line of the group poisoned until written, drops the floors' copies of it and makes the writes that
waited; PATROL_SCRUB meets the errors of its stack where nothing there holds it; BANK_REPAIR copies a bank with 8 rows repaired in
24 h to a spare bank, or retires the channel where none is left; BANK_COPY_DONE and ROW_REPAIR_DONE log the repair; STACK_TEMP_SAMPLE
moves the state of a DRAM stack and logs Critical, and pauses or resumes the library writes of a flash stack. -/
def Obligations.DramRepairs : Prop :=
  (∀ (s : State) (g : Nat), g < 128 → powered s.dev = true →
    (s.dev.groupPoisonAt g = true →
      Does (.groupPoisonDone g) s (.all [.upd (.poisonDrop fun u => inDram u && groupOf u == g), putGroupLost g true,
        .obs (fun d => .each (mapKeys d.lines fun _ l => l.any fun l => inDram (l.tag * 256) && groupOf (l.tag * 256) == g)
          fun k => putLines k none),
        putGroupPoison g false, releaseWrites])) ∧
    (s.dev.groupPoisonAt g = false → Does (.groupPoisonDone g) s .skip)) ∧
  (∀ (s : State) (stack : Nat) (fixed lost mine : List Nat), stack < 16 → powered s.dev = true →
    mine = (fixed ++ lost).filter (fun a => inDram a && groupOf a / 8 == stack) →
    (s.dev.fld F.PWR_STATE_state 0 = 3 → s.dev.fld F.DRM_STACK_STATUS_state stack ≠ 3 → mine.any (dramHeld s.dev) = false →
      Does (.patrolScrub stack fixed lost) s (memErrors mine fixed lost)) ∧
    (s.dev.fld F.PWR_STATE_state 0 ≠ 3 ∨ s.dev.fld F.DRM_STACK_STATUS_state stack = 3 ∨ mine.any (dramHeld s.dev) = true →
      Does (.patrolScrub stack fixed lost) s .skip)) ∧
  (∀ (s : State) (chan bank key : Nat), chan < 512 → bank < 64 → powered s.dev = true → key = chan * 64 + bank →
    (8 ≤ ((s.dev.bankRepairsAt key).filter fun t => s.dev.reg .CLK_AON_CNT 0 < t + dayCycles).length →
      s.dev.bankCopyAt key = false →
      (s.dev.spareBanksAt (chan / 32) < 8 →
        Does (.bankRepair chan bank) s (.all [modSpareBanks (chan / 32) (· + 1), putBankCopy key true,
          putBankRepairs key [], putRetired (bankKey chan bank) true, saveSpare,
          .when (s.dev.spareBanksAt (chan / 32) == 7)
            (.seq (setF F.DRM_STACK_STATUS_banks_out (chan / 32) 1) (logService 9 (chan / 32) 0xFFFF 0))])) ∧
      (8 ≤ s.dev.spareBanksAt (chan / 32) → Does (.bankRepair chan bank) s (channelRetire chan))) ∧
    (((s.dev.bankRepairsAt key).filter fun t => s.dev.reg .CLK_AON_CNT 0 < t + dayCycles).length < 8 ∨
      s.dev.bankCopyAt key = true → Does (.bankRepair chan bank) s .skip)) ∧
  (∀ (s : State) (chan bank row : Nat), chan < 512 → bank < 64 → row < 1048576 → powered s.dev = true →
    (s.dev.bankCopyAt (chan * 64 + bank) = true →
      Does (.bankCopyDone chan bank) s (.seq (putBankCopy (chan * 64 + bank) false) (logRepair chan bank))) ∧
    (s.dev.bankCopyAt (chan * 64 + bank) = false → Does (.bankCopyDone chan bank) s .skip) ∧
    (s.dev.rowRepairAt (chan * 1048576 + row) = true →
      Does (.rowRepairDone chan row) s (.all [putRowRepair (chan * 1048576 + row) false, logRepair chan row, releaseWrites])) ∧
    (s.dev.rowRepairAt (chan * 1048576 + row) = false → Does (.rowRepairDone chan row) s .skip)) ∧
  (∀ (s : State) (stack temp new : Nat), stack < 16 → temp < 256 → powered s.dev = true →
    new = tempState (s.dev.fld F.DRM_STACK_STATUS_state stack) temp →
    Does (.stackTempSample stack temp) s (.all [setF F.DRM_STACK_STATUS_temp stack temp,
      setF F.DRM_STACK_STATUS_state stack new, sensorAt (5 + stack) new,
      .when (new == 3 && s.dev.fld F.DRM_STACK_STATUS_state stack != 3)
        (logError { severity := 2, source := 9, site := stack }), releaseWrites])) ∧
  (∀ (s : State) (j temp : Nat), j < 4 → temp < 256 → powered s.dev = true →
    Does (.stackTempSample (16 + j) temp) s (.all [setF F.FLS_STACK_STATUS_temp j temp,
      sensorAt (21 + j) (if 90 ≤ temp then 1 else 0),
      .when (90 < temp) (setF F.FLS_STACK_STATUS_write_paused j 1),
      .when (temp < 87) (setF F.FLS_STACK_STATUS_write_paused j 0)]))

/-- DRIVER_MAP_INVAL takes the map anew from memory and drops what the clusters cache of it; PROMOTE and AUTO_PROMOTE start copying an
extent into a free frame, or into that of the least recently used extent, which is demoted; PROMOTE_DONE puts its bytes and its
poison there once the frame's reads are over; DEMOTE gives the frame up and FRAME_FREE frees it. An extent the tier does not have, or
no frame to take, gives its result; a copy under way is not disturbed; a write without the right is denied. -/
def Obligations.DriverMapsAndPromotion : Prop :=
  (∀ (s : State) (d : Device) (rq c v : Nat), c < 1024 → Asks s rq d →
    (mayWrite d rq .DRM_CTX_MAP c ≠ 0 →
      Gives (.driverMapInval rq c v) s d (.all [storeWrite rq .DRM_CTX_MAP c v,
        .obs (fun d => setF F.DRM_CTX_MAP_count c (min 4096 (d.fld F.DRM_CTX_MAP_count c))),
        .when (bit v 63 == 1) (.seq (.obs fun d => putDrvMap c (readDriverMap d c))
          (dropPages fun p => p.ctx == c && p.entry.place.isSome))])) ∧
    (mayWrite d rq .DRM_CTX_MAP c = 0 → Gives (.driverMapInval rq c v) s d denied)) ∧
  (∀ (s : State) (d : Device) (rq p v x : Nat), p < 32 → Writes s rq .DRM_PROMOTE p v 30 d → x = bits v 20 0 →
    (d.promoJobAt p = none → 1572864 ≤ x → Gives (.promote rq p v) s d (setF F.DRM_PROMOTE_result p 2)) ∧
    (∀ r, d.promoJobAt p = none → x < 1572864 → d.promoAt (p * 2097152 + x) = some r → Gives (.promote rq p v) s d (.seq
      (modPromo (p * 2097152 + x) (Option.map fun r => { r with pinned := true })) (setF F.DRM_PROMOTE_result p 0))) ∧
    (d.promoJobAt p = none → x < 1572864 → d.promoAt (p * 2097152 + x) = none →
      (∀ f, freeFrame d p = some f →
        Gives (.promote rq p v) s d (.seq (putPromoJob p (some ⟨x, f, true⟩)) (setF F.DRM_PROMOTE_busy p 1))) ∧
      (∀ y r, freeFrame d p = none → victim d p = some (y, r) → Gives (.promote rq p v) s d (.all [demoteExtent p y,
        putPromoJob p (some ⟨x, r.frame, true⟩), setF F.DRM_PROMOTE_busy p 1])) ∧
      (freeFrame d p = none → victim d p = none → Gives (.promote rq p v) s d (setF F.DRM_PROMOTE_result p 1))) ∧
    (d.promoJobAt p ≠ none → Gives (.promote rq p v) s d .skip)) ∧
  (∀ (s : State) (d : Device) (rq p v x : Nat), p < 32 → Writes s rq .DRM_PROMOTE p v 31 d → x = bits v 20 0 →
    (d.promoJobAt p = none → 1572864 ≤ x → Gives (.demote rq p v) s d (setF F.DRM_PROMOTE_result p 2)) ∧
    (∀ r, d.promoJobAt p = none → x < 1572864 → d.promoAt (p * 2097152 + x) = some r →
      Gives (.demote rq p v) s d (.all [putPromo (p * 2097152 + x) none, dropExtent p x, putFrameBusy (frameKey p r.frame) true,
        addSat F.DRM_PROMO_STAT_demotions p 1, countFrames p, setF F.DRM_PROMOTE_result p 0])) ∧
    (d.promoJobAt p = none → x < 1572864 → d.promoAt (p * 2097152 + x) = none →
      Gives (.demote rq p v) s d (setF F.DRM_PROMOTE_result p 0)) ∧
    (d.promoJobAt p ≠ none → Gives (.demote rq p v) s d .skip)) ∧
  (∀ (s : State) (p x n since : Nat), p < 32 → x < 1572864 → working s.dev = true →
    s.dev.promoReadsAt (p * 2097152 + x) = (n, since) →
    (s.dev.fld F.DRM_PROMO_POOL_threshold p ≠ 0 → s.dev.fld F.DRM_PROMO_POOL_threshold p ≤ n →
      s.dev.reg .CLK_AON_CNT 0 ≤ since + 250000 → s.dev.promoJobAt p = none → s.dev.promoAt (p * 2097152 + x) = none →
      Does (.autoPromote p x) s (.seq (putPromoReads (p * 2097152 + x) (0, 0)) (startPromotion p x false)) ∧
      (∀ f, freeFrame s.dev p = some f → Does (.autoPromote p x) s (.all [putPromoReads (p * 2097152 + x) (0, 0),
        putPromoJob p (some ⟨x, f, false⟩), setF F.DRM_PROMOTE_busy p 1]))) ∧
    (s.dev.fld F.DRM_PROMO_POOL_threshold p = 0 ∨ n < s.dev.fld F.DRM_PROMO_POOL_threshold p ∨
      since + 250000 < s.dev.reg .CLK_AON_CNT 0 ∨ s.dev.promoJobAt p ≠ none ∨ s.dev.promoAt (p * 2097152 + x) ≠ none →
      Does (.autoPromote p x) s .skip)) ∧
  (∀ (s : State) (p : Nat), p < 32 → working s.dev = true →
    (∀ (j : PromoJob) (src dst : List Nat), s.dev.promoJobAt p = some j →
      src = (List.range 2097152).map (fun i => flashBase + j.extent * 2097152 + i) →
      dst = (List.range 2097152).filterMap (fun i => partAddr s.dev p (j.frame * 2097152 + i)) →
      (s.dev.frameBusyAt (frameKey p j.frame) = false → agentHeld s.dev (some p) dst = false →
        Does (.promoteDone p) s (.all [store dst (s.dev.bytesAt src),
          .each ((dst.zip src).filter fun x => s.dev.badByte x.2) (fun x => setPoison (poisonUnit x.1) true), disturbReads src,
          putPromo (p * 2097152 + j.extent) (some ⟨j.frame, j.pin, s.dev.promoTick⟩), dropExtent p j.extent,
          putPromoTick (s.dev.promoTick + 1), putPromoJob p none, setF F.DRM_PROMOTE_busy p 0,
          .when j.pin (setF F.DRM_PROMOTE_result p 0), countFrames p])) ∧
      (s.dev.frameBusyAt (frameKey p j.frame) = true ∨ agentHeld s.dev (some p) dst = true → Does (.promoteDone p) s .skip)) ∧
    (s.dev.promoJobAt p = none → Does (.promoteDone p) s .skip)) ∧
  (∀ (s : State) (p frame : Nat), p < 32 → frame < 268435456 → powered s.dev = true →
    Does (.frameFree p frame) s (putFrameBusy (frameKey p frame) false)) ∧
  (∀ (s : State) (d : Device) (rq p v : Nat), p < 32 → Asks s rq d →
    (bit (mayWrite d rq .DRM_PROMOTE p) 30 = 0 → Gives (.promote rq p v) s d denied) ∧
    (bit (mayWrite d rq .DRM_PROMOTE p) 31 = 0 → Gives (.demote rq p v) s d denied))

/-- FLS_OPEN takes a free entry and the lowest run that fits; FLS_WRITE copies DRAM into a LOADING object; FLS_COMMIT of an object
with its digest makes it VALID; FLS_ABORT and FLS_RETIRE free it, or FLS_RETIRE of an entry still named makes it RETIRING; READ_ENTRY
writes its 128 bytes. A command the state of its entry or its arguments do not allow changes nothing but the result; one begun with a
stack lost has the result STACK_LOST, and one whose memory is held or whose writes are paused waits. FLS_CMD_COMPLETE runs a command
that waited, if nothing holds it any more, and records the result. A command asked for while one is busy is ignored. -/
def Obligations.LibraryCommands : Prop :=
  (∀ (s : State) (d : Device) (rq entry a : Nat) (bs : List Byte) (t : CatEntry) (j : FlsJob), RunsLibrary s rq 1 entry d j →
    a = j.a → d.bytes a 128 = bs → t = templateOf bs →
    ((d.catalogAt entry).state ≠ 0 → Gives (.flsOpen rq entry) s d (libraryRuns j 1 .skip)) ∧
    ((d.catalogAt entry).state = 0 → dramRange a 128 = false → Gives (.flsOpen rq entry) s d (libraryRuns j 4 .skip)) ∧
    ((d.catalogAt entry).state = 0 → dramRange a 128 = true → d.poisoned a 128 = true →
      Gives (.flsOpen rq entry) s d (libraryRuns j 5 .skip)) ∧
    ((d.catalogAt entry).state = 0 → dramRange a 128 = true → d.poisoned a 128 = false →
      ((liveEntries d).any fun e => e.modelId == t.modelId) = true → Gives (.flsOpen rq entry) s d (libraryRuns j 1 .skip)) ∧
    ((d.catalogAt entry).state = 0 → dramRange a 128 = true → d.poisoned a 128 = false →
      ((liveEntries d).any fun e => e.modelId == t.modelId) = false → templateOk bs = false →
      Gives (.flsOpen rq entry) s d (libraryRuns j 4 .skip)) ∧
    ((d.catalogAt entry).state = 0 → dramRange a 128 = true → d.poisoned a 128 = false →
      ((liveEntries d).any fun e => e.modelId == t.modelId) = false → templateOk bs = true →
      (((List.range 4).any fun j => d.fld F.FLS_STACK_STATUS_spare_blocks j == 0) = true ∨
        findRun d (ceilDiv t.length runBytes) = none) → Gives (.flsOpen rq entry) s d (libraryRuns j 2 .skip)) ∧
    (∀ r, (d.catalogAt entry).state = 0 → dramRange a 128 = true → d.poisoned a 128 = false →
      ((liveEntries d).any fun e => e.modelId == t.modelId) = false → templateOk bs = true →
      ((List.range 4).any fun j => d.fld F.FLS_STACK_STATUS_spare_blocks j == 0) = false →
      findRun d (ceilDiv t.length runBytes) = some r →
      Gives (.flsOpen rq entry) s d (libraryRuns j 0 (.all [putCatalog entry { t with tierOffset := r * runBytes },
        .upd (.memDrop fun k => flashBase + r * runBytes ≤ k &&
          k < flashBase + r * runBytes + ceilDiv t.length runBytes * runBytes),
        .each (allocated r (ceilDiv t.length runBytes)) (fun x => putLostExt x false), refreshCatalog])))) ∧
  (∀ (s : State) (d : Device) (rq entry off n : Nat) (e : CatEntry) (j : FlsJob), RunsLibrary s rq 2 entry d j →
    e = d.catalogAt entry → off = bits j.b 39 0 → n = bits j.b 63 40 * 65536 →
    (e.state ≠ 1 → Gives (.flsWrite rq entry) s d (libraryRuns j 1 .skip)) ∧
    (e.state = 1 → e.length < off + n ∨ dramRange j.a n = false → Gives (.flsWrite rq entry) s d (libraryRuns j 4 .skip)) ∧
    (e.state = 1 → off + n ≤ e.length → dramRange j.a n = true → d.poisoned j.a n = true →
      Gives (.flsWrite rq entry) s d (libraryRuns j 5 .skip)) ∧
    (e.state = 1 → off + n ≤ e.length → dramRange j.a n = true → d.poisoned j.a n = false →
      Gives (.flsWrite rq entry) s d (libraryRuns j 0 (wrBytes (flashBase + e.tierOffset + off) (d.bytes j.a n))))) ∧
  (∀ (s : State) (d : Device) (rq entry : Nat) (e : CatEntry) (j : FlsJob), RunsLibrary s rq 3 entry d j →
    e = d.catalogAt entry →
    (e.state ≠ 1 → Gives (.flsCommit rq entry) s d (libraryRuns j 1 .skip)) ∧
    (e.state = 1 → Config.sha384 (objectBytes d e) ≠ e.digest →
      Gives (.flsCommit rq entry) s d (libraryRuns j 3 (readObject e))) ∧
    (e.state = 1 → Config.sha384 (objectBytes d e) = e.digest →
      Gives (.flsCommit rq entry) s d (libraryRuns j 0 (.all [readObject e, bumpCatalog,
        .obs (fun d => putCatalog entry { e with state := 2, serial := d.fld F.FLS_CATALOG_gen 0 }), refreshCatalog])))) ∧
  (∀ (s : State) (d : Device) (rq entry : Nat) (j : FlsJob), RunsLibrary s rq 4 entry d j →
    ((d.catalogAt entry).state ≠ 1 → Gives (.flsAbort rq entry) s d (libraryRuns j 1 .skip)) ∧
    ((d.catalogAt entry).state = 1 →
      Gives (.flsAbort rq entry) s d (libraryRuns j 0 (.seq (putCatalog entry {}) bumpCatalog)))) ∧
  (∀ (s : State) (d : Device) (rq entry : Nat) (e : CatEntry) (j : FlsJob), RunsLibrary s rq 5 entry d j →
    e = d.catalogAt entry →
    (e.state ≠ 2 → e.state ≠ 4 → Gives (.flsRetire rq entry) s d (libraryRuns j 1 .skip)) ∧
    (e.state = 2 ∨ e.state = 4 → e.refs = 0 →
      Gives (.flsRetire rq entry) s d (libraryRuns j 0 (.seq (putCatalog entry {}) bumpCatalog))) ∧
    (e.state = 2 ∨ e.state = 4 → e.refs ≠ 0 →
      Gives (.flsRetire rq entry) s d (libraryRuns j 0 (.seq (putCatalog entry { e with state := 3 }) refreshCatalog)))) ∧
  (∀ (s : State) (d : Device) (rq entry : Nat) (j : FlsJob), RunsLibrary s rq 6 entry d j →
    (dramRange j.a 128 = false → Gives (.readEntry rq entry) s d (libraryRuns j 4 .skip)) ∧
    (dramRange j.a 128 = true → Gives (.readEntry rq entry) s d
      (libraryRuns j 0 (store ((List.range 128).map (j.a + ·)) (d.catalogAt entry).bytes)))) ∧
  (∀ c ∈ [(Instr.flsOpen, 1), (Instr.flsWrite, 2), (Instr.flsCommit, 3), (Instr.flsAbort, 4), (Instr.flsRetire, 5),
      (Instr.readEntry, 6)], ∀ (s : State) (d : Device) (rq entry : Nat) (j : FlsJob),
    (AsksLibrary s rq c.2 entry d j → stackLost d = true → Gives (c.1 rq entry) s d (libraryRuns j 6 .skip)) ∧
    (AsksLibrary s rq c.2 entry d j → stackLost d = false → jobHeld d j = true → Gives (c.1 rq entry) s d .skip) ∧
    (entry < 4096 → Asks s rq d → ((isSteward rq || isPf rq) = false ∨ d.fld F.FLS_STATUS_busy 0 ≠ 0) →
      Gives (c.1 rq entry) s d .skip)) ∧
  (∀ (s : State), powered s.dev = true →
    (∀ (j : FlsJob) (code : Nat), s.dev.flsPending = some j → j.code = some code →
      Does .flsCmdComplete s (.all [setF F.FLS_STATUS_busy 0 0, setF F.FLS_STATUS_result 0 code, .when (jobSaves j) saveCatalog,
        putFlsPending none])) ∧
    (∀ (j : FlsJob), s.dev.flsPending = some j → j.code = none → stackLost s.dev = false → jobHeld s.dev j = true →
      Does .flsCmdComplete s .skip) ∧
    (∀ (j : FlsJob) (code : Nat) (e : Eff), s.dev.flsPending = some j → j.code = none →
      (stackLost s.dev = true ∨ jobHeld s.dev j = false) → jobEffect j s.dev = (code, e) →
      ((libraryRuns j code e).run s.dev).flsPending = some { j with code := some code } →
      Does .flsCmdComplete s (.all [libraryRuns j code e, setF F.FLS_STATUS_busy 0 0, setF F.FLS_STATUS_result 0 code,
        .when (jobSaves { j with code := some code }) saveCatalog, putFlsPending none])) ∧
    (s.dev.flsPending = none → Does .flsCmdComplete s .skip))

/-- RELOCATION first tries the rebuilds that wait, and then copies the first queued block into a spare block of its flash die with the
lowest erase count, switches the mapping of its unit and erases it; it does nothing where the block named is no such one, and drops
from the queue a block that holds nothing. FLASH_SCRUB reads the next block of a stack, queues one at its margin, and retires or
loses one whose correction fails. FLASH_STACK_LOSS damages every entry for good. -/
def Obligations.FlashKeeping : Prop :=
  (∀ (s : State) (d : Device) (block : Nat), block < 524288 → up s.dev = true →
    (Eff.each (List.range 4) rebuildWaiting).run s.dev = d →
    (d.relocQueue = [] → Gives (.relocation block) s d .skip) ∧
    (∀ y rest, d.relocQueue = y :: rest → unitAt d y = none → Gives (.relocation block) s d (putRelocQueue rest)) ∧
    (∀ y rest x, d.relocQueue = y :: rest → unitAt d y = some x →
      (relocTargets d y).contains (y / 524288 * 524288 + block) = true →
      Gives (.relocation block) s d (.all [putRelocQueue rest, disturbBlock y 32, putBlockMap x block, eraseBlock y,
        rebuildWaiting (y / 524288), addSat F.FLS_STACK_WEAR_relocations (y / 524288) 1])) ∧
    (∀ y rest x, d.relocQueue = y :: rest → unitAt d y = some x →
      (relocTargets d y).contains (y / 524288 * 524288 + block) = false → Gives (.relocation block) s d .skip)) ∧
  (∀ (s : State) (j temp b y lost : Nat) (near : Bool), j < 4 → temp < 256 → lost < 3 → up s.dev = true →
    b = s.dev.fld F.FLS_SCRUB_block j → y = j * 524288 + b →
    Does (.flashScrub j temp near lost) s (.all [flashTemp j temp, setF F.FLS_SCRUB_block j ((b + 1) % 524288),
      putScrubPos j ((b + 1) % 524288), .when (b + 1 == 524288) (addWrap F.FLS_SCRUB_passes j 1), disturbBlock y 32,
      .when (near && lost == 0) (queueRelocation y),
      .when (lost != 0 && !s.dev.badBlocksAt y) (match unitAt s.dev y with
        | some x => failUnit x [] (lost == 2)
        | none => .all [putBadBlocks y true, refreshSpares j, reportSpares j]),
      rebuildWaiting j])) ∧
  (∀ (s : State) (j : Nat), j < 4 → powered s.dev = true →
    Does (.flashStackLoss j) s (.all [putFlashDead j true, setF F.FLS_STACK_STATUS_lost j 1,
      .each (mapKeys s.dev.catalog fun _ e => e.state != 0) (fun k => modCatalog k fun e => { e with state := 4 }),
      refreshCatalog, saveCatalog, logService 10 j 0xFFFF 6]))

/-- LAYER_COPY_DONE makes the bytes of the layer visible in its slot, carries poison with them, shows how long the copy took and moves
the fill cues; a copy whose slot or source is held does not complete, and one whose entry is gone stops the ring. RING_RELEASE_SEEN
takes one from every release cue once all consumers have released, and starts the next copy, or moves the fill cues where every layer
is resident; an overflowed cue stops the ring, and the streamer waits for a consumer whose beat state is saved. -/
def Obligations.WeightRing : Prop :=
  (∀ (s : State) (p cycles : Nat) (w : Streamer) (f : Figure), p < 32 → working s.dev = true →
    s.dev.streamersAt p = some w → s.dev.active p = some f → s.dev.fld F.FLS_RING_STAT_state p = 1 →
    (ringEntry s.dev p f = none → Does (.layerCopyDone p cycles) s (streamerStop p)) ∧
    (∀ e off len src dst, ringEntry s.dev p f = some e →
      layerOf s.dev e (ringNum f 0xE 2 + w.q % ringLayers f) = (off, len) →
      src = (List.range len).filterMap (fun i => tierAddr s.dev p (e.tierOffset + off + i)) →
      dst = slotAddrs s.dev p f (ringSlot f w.q) len →
      (anyHeld s.dev src = false → anyHeld s.dev dst = false →
        Does (.layerCopyDone p cycles) s (.all [store dst (s.dev.bytesAt src),
          .each ((dst.zip src).filter fun x => s.dev.badByte x.2) (fun x => setPoison (poisonUnit x.1) true), disturbReads src,
          .when w.first (setF F.FLS_RING_TIME_first p (min 65535 cycles)),
          setF F.FLS_RING_TIME_longest p (max (s.dev.fld F.FLS_RING_TIME_longest p) (min 65535 cycles)),
          fillCues p f, setF F.FLS_RING_STAT_seq p w.q, streamNext p f (w.q + 1)])) ∧
      (anyHeld s.dev src = true ∨ anyHeld s.dev dst = true → Does (.layerCopyDone p cycles) s .skip))) ∧
  (∀ (s : State) (p : Nat) (w : Streamer) (f : Figure) (keys : List Nat), p < 32 → working s.dev = true →
    s.dev.streamersAt p = some w → s.dev.active p = some f → s.dev.fld F.FLS_RING_STAT_state p = 2 →
    keys = (ringConsumers s.dev p f).map (fun core => coreCue core (ringNum f 8 1)) →
    ((∀ l ∈ leaves f (ringNum f 4 2), ∀ core, leafCore s.dev p f l = some core →
        (s.dev.coresAt core).ctx = leafContext s.dev p f l) →
      ((keys.any fun k => (s.dev.cuesAt k).overflow) = false → (keys.all fun k => 1 ≤ (s.dev.cuesAt k).value) = true →
        Does (.ringReleaseSeen p) s (.seq (.each keys fun k => modCues k fun q => { q with value := q.value - 1 })
          (if ringLayers f ≤ ringSlots f then fillDone p f w.q else setF F.FLS_RING_STAT_state p 1))) ∧
      ((keys.any fun k => (s.dev.cuesAt k).overflow) = true → Does (.ringReleaseSeen p) s (streamerStop p)) ∧
      ((keys.any fun k => (s.dev.cuesAt k).overflow) = false → (keys.all fun k => 1 ≤ (s.dev.cuesAt k).value) = false →
        Does (.ringReleaseSeen p) s .skip)) ∧
    (∀ l core, l ∈ leaves f (ringNum f 4 2) → leafCore s.dev p f l = some core →
      (s.dev.coresAt core).ctx ≠ leafContext s.dev p f l → Does (.ringReleaseSeen p) s .skip)) ∧
  (∀ (s : State) (p cycles : Nat), p < 32 → working s.dev = true →
    (s.dev.streamersAt p = none ∨ s.dev.active p = none ∨ s.dev.fld F.FLS_RING_STAT_state p ≠ 1 →
      Does (.layerCopyDone p cycles) s .skip) ∧
    (s.dev.streamersAt p = none ∨ s.dev.active p = none ∨ s.dev.fld F.FLS_RING_STAT_state p ≠ 2 →
      Does (.ringReleaseSeen p) s .skip))

/-- A doorbell, a poll and a resume have the descriptor at head read: it is taken where its own bit is 1, with the check of its kind;
a descriptor that cannot be read halts the ring, and one that is held is left. DMA_BURST moves one burst of the ring whose turn it is,
and ends it early where its source or the host faults or is poisoned. DMA_COMPLETE writes the oldest descriptor back with its
checksum, status and count, signals its cue, and halts the ring where the status does. -/
def Obligations.RingService : Prop :=
  (∀ (s : State) (d : Device) (c : Instr) (n head : Nat) (fixed lost : List Nat), Fetches s c n fixed lost d → TakesMore d n →
    head = d.fld F.DMA_RING_STAT_head n →
    (descAddrs d n head .read = none → Gives c s d (.all [setF F.DMA_RING_STAT_state n 3,
      setF F.DMA_RING_STAT_last_status n 15, logRing n 15, refreshIdle])) ∧
    (∀ as, descAddrs d n head .read = some as →
      (agentHeld d (ringPart d n) as = true → Gives c s d refreshIdle) ∧
      (∀ d', agentHeld d (ringPart d n) as = false → (agentReads n as fixed lost).run d = d' →
        (d'.ringsAt n).length = (d.ringsAt n).length →
        (anyPoison d' as = true → Gives c s d' (.all [setF F.DMA_RING_STAT_state n 3,
          setF F.DMA_RING_STAT_last_status n 15, logRing n 15, refreshIdle])) ∧
        (∀ x : Desc, anyPoison d' as = false → x = { index := head, raw := d'.bytesAt as } →
          (bit x.ctrl 31 = 0 → Gives c s d' refreshIdle) ∧
          (bit x.ctrl 31 = 1 → ringKind n ≠ .col →
            Gives c s d' (.all [modRings n (· ++ [{ x with status := kindCheck n d' x }]),
              setF F.DMA_RING_STAT_head n (head + 1), setF F.DMA_RING_STAT_state n 2, refreshIdle])) ∧
          (bit x.ctrl 31 = 1 → ringKind n = .col → d'.Ok →
            Gives c s d' (.all [modRings n (· ++ [x]),
              setF F.DMA_RING_STAT_head n (head + 1), setF F.DMA_RING_STAT_state n 2, colTaken n, refreshIdle])))))) ∧
  (∀ (s : State) (d : Device) (c : Instr) (n : Nat) (fixed lost : List Nat), Fetches s c n fixed lost d →
    (serving d = true → (ringServed d n = false ∨ (ringState d n ≠ 1 ∧ ringState d n ≠ 2) ∨ takenLimit ≤ (d.ringsAt n).length) →
      Gives c s d refreshIdle) ∧
    (serving d = false → Gives c s d .skip)) ∧
  (∀ (s : State) (d d1 : Device) (e n o m : Nat) (x : Desc) (host : Option (List Byte)) (fixed lost : List Nat), e < 21 →
    serving s.dev = true → burstTurn s.dev e = some n → nextDesc (s.dev.ringsAt n) = some x → (putRr e n).run s.dev = d →
    o = x.moved.length → m = burstLength x →
    (x.srcSpace = 1 → (modSent (· ++ [.hostRead (ctxFunction (ringCtx d n)) (x.src + o) m])).run d = d1 →
      Gives (.dmaBurst e none fixed lost) s d1 (burstEnd n x [] (some 4)) ∧
      (∀ bs : List Byte, m ≤ bs.length → Gives (.dmaBurst e (some bs) fixed lost) s d1 (burstWrite n x (bs.take m) none)) ∧
      (∀ bs : List Byte, bs.length < m → Gives (.dmaBurst e (some bs) fixed lost) s d1 .skip)) ∧
    (x.srcSpace ≠ 1 → spaceAddrs d n x.srcSpace (x.src + o) m .read = none →
      Gives (.dmaBurst e host fixed lost) s d (burstEnd n x [] (some 1))) ∧
    (∀ (as : List (Option Nat)) (k : Nat), x.srcSpace ≠ 1 → spaceAddrs d n x.srcSpace (x.src + o) m .read = some as →
      (agentReads n (as.filterMap id) fixed lost).run d = d1 → k = beforePoison d1 (x.src + o) as →
      Gives (.dmaBurst e host fixed lost) s d1 (.seq
        (burstWrite n x ((as.take k).map fun a => (a.map d1.byte).getD 0) (if k < m then some 3 else none))
        (.when (as.any (·.isNone)) (teardown (ringCtx d1 n) codeRange))))) ∧
  (∀ (s : State) (e : Nat) (host : Option (List Byte)) (fixed lost : List Nat), e < 21 → serving s.dev = true →
    burstTurn s.dev e = none → Does (.dmaBurst e host fixed lost) s .skip) ∧
  (∀ (s : State) (n st : Nat) (x : Desc) (rest : List Desc), n < 9728 → working s.dev = true →
    s.dev.ringsAt n = x :: rest → x.status = some st →
    (x.unacked = [] → ringState s.dev n ≠ 4 → (∀ as, descAddrs s.dev n x.index .write = some as →
        agentHeld s.dev (ringPart s.dev n) as = false) →
      (canWriteBack s.dev n x = true →
        Does (.dmaComplete n) s (.all [modRings n (·.drop 1), writeBack n x (dmaTail x st),
          .when (!faultHalted s.dev n) (setF F.DMA_RING_STAT_last_status n st),
          .when (bit x.cue 31 == 1) (dmaSignal n x),
          .when (halts n st) (.seq (setF F.DMA_RING_STAT_state n 3) (logRing n st)), settleRing n])) ∧
      (canWriteBack s.dev n x = false →
        Does (.dmaComplete n) s (.all [modRings n (·.drop 1), setF F.DMA_RING_STAT_state n 3,
          setF F.DMA_RING_STAT_last_status n 15, logRing n 15, settleRing n]))) ∧
    (x.unacked ≠ [] ∨ ringState s.dev n = 4 ∨ (∃ as, descAddrs s.dev n x.index .write = some as ∧
        agentHeld s.dev (ringPart s.dev n) as = true) → Does (.dmaComplete n) s .skip)) ∧
  (∀ (s : State) (n : Nat), n < 9728 → working s.dev = true →
    (s.dev.ringsAt n = [] ∨ ∃ x rest, s.dev.ringsAt n = x :: rest ∧ x.status = none) → Does (.dmaComplete n) s .skip)

/-- RING_RESUME leaves the halted state and reads the descriptor at head; RING_CANCEL and a cleared enable begin a cancellation of a
ring that is enabled; RING_ENABLE stores the base and empties the ring, and is without effect on one that is enabled already;
RING_CANCEL_DONE, once every burst in flight is acknowledged, ends a cancellation with every descriptor written back and the ring
disabled, and settles what the engine of the ring holds of it. A write without the right is denied. -/
def Obligations.RingControl : Prop :=
  (∀ (s : State) (d : Device) (rq n v : Nat) (fixed lost : List Nat), n < 10392 → Writes s rq .DMA_RING_CTRL n v 31 d →
    (isSteward rq || !siteGone ((beforeAccess rq).run s.dev) .DMA_RING_CTRL n) = true →
    (bit v 31 = 1 → ringState d n = 3 → Gives (.ringResume rq n v fixed lost) s d (.seq
      (setF F.DMA_RING_STAT_state n (if (d.ringsAt n).isEmpty then 1 else 2)) (ringFetch n fixed lost))) ∧
    (bit v 31 = 0 ∨ ringState d n ≠ 3 → Gives (.ringResume rq n v fixed lost) s d .skip)) ∧
  (∀ (s : State) (d : Device) (rq n v : Nat), n < 10392 → Writes s rq .DMA_RING_CTRL n v 30 d →
    (isSteward rq || !siteGone ((beforeAccess rq).run s.dev) .DMA_RING_CTRL n) = true →
    (bit v 30 = 1 → d.fld F.DMA_RING_BASE_enable n = 1 → Gives (.ringCancel rq n v) s d (.seq (setF F.DMA_RING_STAT_state n 4)
      (modRings n fun xs => xs.map fun x => { x with
        moved := x.moved.take (x.moved.length - x.packing.length), packing := [], packs := 0,
        status := if x.unacked.isEmpty && x.packing.isEmpty then x.status else none }))) ∧
    (bit v 30 = 0 ∨ d.fld F.DMA_RING_BASE_enable n ≠ 1 → Gives (.ringCancel rq n v) s d .skip)) ∧
  (∀ (s : State) (d : Device) (rq n v : Nat), n < 10392 → Asks s rq d →
    (isSteward rq || !siteGone d .DMA_RING_BASE n) = true → bit (mayWrite d rq .DMA_RING_BASE n) 0 = 1 →
    (d.fld F.DMA_RING_BASE_enable n ≠ 1 → bit v 0 = 1 →
      Gives (.ringEnable rq n v) s d (.all [setF F.DMA_RING_BASE_base n (bits v 55 6), setF F.DMA_RING_BASE_enable n 1,
        setF F.DMA_RING_STAT_head n 0, setF F.DMA_RING_STAT_state n 1, putRings n []])) ∧
    (d.fld F.DMA_RING_BASE_enable n ≠ 1 → bit v 0 = 0 →
      Gives (.ringEnable rq n v) s d (setF F.DMA_RING_BASE_base n (bits v 55 6))) ∧
    (d.fld F.DMA_RING_BASE_enable n = 1 → bit v 0 = 0 → Gives (.ringEnable rq n v) s d (cancelStart n)) ∧
    (d.fld F.DMA_RING_BASE_enable n = 1 → bit v 0 = 1 → Gives (.ringEnable rq n v) s d .skip)) ∧
  (∀ (s : State) (n : Nat), n < 10392 → powered s.dev = true →
    ringState s.dev n = 4 →
    (n < 9728 → (s.dev.ringsAt n).all (·.unacked.isEmpty) = true →
      Does (.ringCancelDone n) s (.all [
        .each (s.dev.ringsAt n) (fun x =>
          match x.status with
          | some st => completeDesc n x st (dmaTail x st) (dmaSignal n x)
          | none => .seq (modRings n (·.drop 1)) (cancelDesc n x 6 (dmaTail x 6))),
        .obs (fun d => cancelLater n 6 (fun x => dmaTail x 6) (ringSize d n) (d.fld F.DMA_RING_STAT_head n)),
        setF F.DMA_RING_BASE_enable n 0, setF F.DMA_RING_STAT_state n 0, putKeptMaps n none])) ∧
    (n < 9728 → (s.dev.ringsAt n).all (·.unacked.isEmpty) = false → Does (.ringCancelDone n) s .skip) ∧
    (9728 ≤ n → n < 9984 → Does (.ringCancelDone n) s (.all [
      .each (s.dev.colOpsAt n).toList (fun o => modDesc n o.index fun x => { x with results := [o.segment] }),
      finishCancel n 6 (colTail s.dev n) (signalDesc n), putColOps n none,
      .each (ringGroups s.dev n) fun g => withdraw g (cancelCause s.dev n)])) ∧
    (9984 ≤ n → n < 10256 → Does (.ringCancelDone n) s (.all [
      modRings n (·.map fun x => if x.status.isNone then { x with results := partResults s.dev n x } else x),
      finishCancel n 6 jobTail (signalDesc n),
      .each (List.range 16) fun k => modSessions (vceOf n * 16 + k) (Option.map fun x =>
        if x.ring == n then { x with job := none, pics := [] } else x)])) ∧
    (10256 ≤ n → Does (.ringCancelDone n) s (.seq (finishCancel n 6 jobTail (signalDesc n))
      (.when ((s.dev.ringsAt n).any fun x => x.begun && x.status.isNone) (setF F.ING_CTRL_busy (ingOf n) 0))))) ∧
  (∀ (s : State) (n : Nat), n < 10392 → powered s.dev = true → ringState s.dev n ≠ 4 → Does (.ringCancelDone n) s .skip) ∧
  (∀ (s : State) (d : Device) (rq n v : Nat) (fixed lost : List Nat), n < 10392 → Asks s rq d →
    ((isSteward rq || !siteGone d .DMA_RING_CTRL n) = true →
      (bit (mayWrite d rq .DMA_RING_CTRL n) 31 = 0 → Gives (.ringResume rq n v fixed lost) s d denied) ∧
      (bit (mayWrite d rq .DMA_RING_CTRL n) 30 = 0 → Gives (.ringCancel rq n v) s d denied)) ∧
    ((isSteward rq || !siteGone d .DMA_RING_BASE n) = true → bit (mayWrite d rq .DMA_RING_BASE n) 0 = 0 →
      Gives (.ringEnable rq n v) s d denied) ∧
    ((isSteward rq || !siteGone d .DMA_RING_DOORBELL n) = true → mayWrite d rq .DMA_RING_DOORBELL n = 0 →
      Gives (.ringDoorbell rq n fixed lost) s d denied))

/-- CUE_EVENT adds the counts that cross together to the cue they name; CUE_SELECT stores the selection; CUE_OVERFLOW_CLEAR clears
the overflow flag of the selected cue; CUE_ADD adds its count to it. Where no cue is named or selected, or the selected one is not the
requester's to see, or there is nothing to add, nothing changes; a write without the right is denied. -/
def Obligations.CueCommands : Prop :=
  (∀ (s : State) (p sel : Nat) (c : Option Nat) (counts : List Nat), p < 32 → c.all (· < 1024) = true →
    counts.all (· < 65536) = true → powered s.dev = true →
    (∀ q, cueName s.dev p (bits sel 30 29) (bits sel 28 21) (bits sel 20 17) (bits sel 16 15) (bits sel 14 9) = some q →
      (counts.foldl (· + ·) 0 ≠ 0 → Does (.cueEvent p c sel counts) s (cueEvent p c q (counts.foldl (· + ·) 0))) ∧
      (counts.foldl (· + ·) 0 = 0 → Does (.cueEvent p c sel counts) s .skip)) ∧
    (cueName s.dev p (bits sel 30 29) (bits sel 28 21) (bits sel 20 17) (bits sel 16 15) (bits sel 14 9) = none →
      Does (.cueEvent p c sel counts) s .skip)) ∧
  (∀ (s : State) (d : Device) (rq p v : Nat), p < 32 → AsksAon s rq d →
    (bit (mayWrite d rq .EVT_CUE_SEL p) 9 = 1 → Gives (.cueSelect rq p v) s d (storeWrite rq .EVT_CUE_SEL p v)) ∧
    (bit (mayWrite d rq .EVT_CUE_SEL p) 9 = 0 → Gives (.cueSelect rq p v) s d denied)) ∧
  (∀ (s : State) (d : Device) (rq p v : Nat), p < 32 → AsksAon s rq d →
    (∀ q, bit (mayWrite d rq .EVT_CUE p) 16 = 1 → selectedFor d rq p = some q →
      (bit v 16 = 1 → Gives (.cueOverflowClear rq p v) s d (modCues (cueKey q) fun c => { c with overflow := false })) ∧
      (bit v 16 = 0 → Gives (.cueOverflowClear rq p v) s d .skip)) ∧
    (bit (mayWrite d rq .EVT_CUE p) 16 = 1 → selectedFor d rq p = none → Gives (.cueOverflowClear rq p v) s d .skip) ∧
    (bit (mayWrite d rq .EVT_CUE p) 16 = 0 → Gives (.cueOverflowClear rq p v) s d denied)) ∧
  (∀ (s : State) (d : Device) (rq p v : Nat), p < 32 → AsksAon s rq d →
    (∀ q, mayWrite d rq .EVT_CUE_ADD p ≠ 0 → selectedFor d rq p = some q →
      (bits v 15 0 ≠ 0 →
        Gives (.cueAdd rq p v) s d (cueEvent p (if q.1 = 0 then ctxOnCore d q.2.1 else none) q (bits v 15 0))) ∧
      (bits v 15 0 = 0 → Gives (.cueAdd rq p v) s d .skip)) ∧
    (mayWrite d rq .EVT_CUE_ADD p ≠ 0 → selectedFor d rq p = none → Gives (.cueAdd rq p v) s d .skip) ∧
    (mayWrite d rq .EVT_CUE_ADD p = 0 → Gives (.cueAdd rq p v) s d denied))

/-- TEARDOWN_FINISH carries out the remaining steps of the teardown of a context once its rings are cancelled, and otherwise changes
nothing; PARTITION_RESET of an active partition tears down every context of it that is not yet, as code OWNER, and resets what it
holds; of another it stores PRT_CTRL and changes nothing else, as without its bit; without the right it is denied. -/
def Obligations.TeardownsAndResets : Prop :=
  (∀ (s : State) (c : Nat), c < 1024 → powered s.dev = true →
    (s.dev.fld F.CTX_RUN_state c = 6 → ctxRings s.dev c = [] →
      Does (.teardownFinish c) s (.all [stopOwnRing c, abandonSems c, discardPackets c, abandonSeqRings c, releaseCores c,
        closeCtxSessions c, recordTeardown c, resetCtxRegs c, putCtxs c { mapped := false }])) ∧
    (s.dev.fld F.CTX_RUN_state c ≠ 6 ∨ ctxRings s.dev c ≠ [] → Does (.teardownFinish c) s .skip)) ∧
  (∀ (s : State) (d : Device) (rq p v : Nat), p < 32 → Writes s rq .PRT_CTRL p v 30 d →
    (bit v 30 = 1 → d.fld F.PRT_CTRL_state p = 1 →
      Gives (.partitionReset rq p v) s d (.all [setF F.PRT_CTRL_state p 2,
        .each ((List.range 1024).filter fun c => ctxPart d c == some p) (fun c => .obs fun d =>
          .when (d.fld F.CTX_RUN_state c != 5) (.all [teardown c codeOwner,
            .obs fun d => .each (ctxRings d c) fun n => .seq (dropUnacked n) (ringCancelDone n), teardownFinish c])),
        resetPartState p, resetPartRegs p, setF F.PRT_CTRL_state p 1])) ∧
    (bit v 30 = 0 ∨ d.fld F.PRT_CTRL_state p ≠ 1 → Gives (.partitionReset rq p v) s d .skip)) ∧
  (∀ (s : State) (d : Device) (rq p v : Nat), p < 32 → Asks s rq d → bit (mayWrite d rq .PRT_CTRL p) 30 = 0 →
    Gives (.partitionReset rq p v) s d denied)

/-- PACKET_ADMIT takes the oldest packet of a channel once it holds credits for all its flits and the retry buffer is not full, and
its flits go out while that buffer has room; CONTROL_FLIT frees what is acknowledged and takes credits over, a count beyond the
flits sent changing nothing; UNCORRECTABLE_CODEWORD asks a replay, and RETRY_REPLAY sends the flits from the count asked for;
LANE_SWITCH uses the spare lane, and with none a lane that has failed puts the port down; LINK_DOWN_TIMEOUT puts the port down.
Over a link that is down, and with nothing to send, nothing changes. -/
def Obligations.LinkLayer : Prop :=
  (∀ (s : State) (i vc : Nat), i < 96 → vc < 8 → powered s.dev = true →
    (∀ p rest, s.dev.egressAt (i * 8 + vc) = p :: rest →
      (linkUp s.dev i = true → p.length ≤ credits (s.dev.portsAt i) vc →
        (s.dev.portsAt i).sent < (s.dev.portsAt i).acked + 256 →
        Does (.packetAdmit i vc) s (.all [putEgress (i * 8 + vc) rest,
          putPorts i { s.dev.portsAt i with
            sent := (s.dev.portsAt i).sent + p.length
            inFlight := (s.dev.portsAt i).inFlight ++ [((s.dev.portsAt i).sent, { p with via := none })]
            used := addAt (s.dev.portsAt i).used vc p.length },
          .obs fun d => .when ((d.portsAt i).out < min (d.portsAt i).sent ((d.portsAt i).acked + 256)) (.seq
            (modSent (· ++ (flitRun (d.portsAt i) (d.portsAt i).out (min (d.portsAt i).sent ((d.portsAt i).acked + 256))).map
              fun e => .packet i e.1 e.2))
            (putPorts i { d.portsAt i with out := min (d.portsAt i).sent ((d.portsAt i).acked + 256) })),
          .each p.via.toList fun j => .seq (freeFlits j p) (sendControl j false)])) ∧
      (linkUp s.dev i = false ∨ credits (s.dev.portsAt i) vc < p.length ∨
        (s.dev.portsAt i).acked + 256 ≤ (s.dev.portsAt i).sent → Does (.packetAdmit i vc) s .skip)) ∧
    (s.dev.egressAt (i * 8 + vc) = [] → Does (.packetAdmit i vc) s .skip)) ∧
  (∀ (s : State) (i ack corrected n : Nat) (cr : List Nat), i < 96 → ack < 65536 → cr.all (· < 65536) = true →
    powered s.dev = true → n = (s.dev.portsAt i).acked + (ack % 4096 + 4096 - (s.dev.portsAt i).acked % 4096) % 4096 →
    (linkUp s.dev i = true → cr.length = 8 → n ≤ (s.dev.portsAt i).out →
      Does (.controlFlit i ack cr corrected) s (.all [putPorts i { s.dev.portsAt i with
        acked := n
        inFlight := (s.dev.portsAt i).inFlight.filter fun e => n < e.1 + e.2.length
        returned := cr
        nak := if bit ack 15 == 1 then some n else (s.dev.portsAt i).nak
        corrected := ((s.dev.portsAt i).corrected + corrected) % 1024 },
        addSat F.LNK_PORT_ERR_corrected i (((s.dev.portsAt i).corrected + corrected) / 1024), transmit i])) ∧
    (linkUp s.dev i = false ∨ cr.length ≠ 8 ∨ (s.dev.portsAt i).out < n →
      Does (.controlFlit i ack cr corrected) s .skip)) ∧
  (∀ (s : State) (i : Nat), i < 96 → powered s.dev = true →
    (∀ n, linkUp s.dev i = true → (s.dev.portsAt i).nak = some n →
      Does (.retryReplay i) s (.all [
        modSent (· ++ (flitRun (s.dev.portsAt i) n (s.dev.portsAt i).out).map fun e => .packet i e.1 e.2),
        putPorts i { s.dev.portsAt i with nak := none }, addSat F.LNK_PORT_RETRY_replays i 1])) ∧
    (linkUp s.dev i = false ∨ (s.dev.portsAt i).nak = none → Does (.retryReplay i) s .skip)) ∧
  (∀ (s : State) (i k : Nat), i < 96 → k < 257 → powered s.dev = true →
    (linkUp s.dev i = true →
      Does (.uncorrectableCodeword i k) s (.all [addSat F.LNK_PORT_ERR_uncorrected i 1,
        modPorts i (fun q => { q with partialFlits := k }),
        .obs fun d => modSent (· ++ [.packet i 0 (flit (frameBits 3 0 false) (padTo 256
          (toLE 2 (((d.portsAt i).received + (d.portsAt i).partialFlits) % 4096 + 32768) ++ toLE 2 0 ++
            (d.portsAt i).freed.flatMap fun n => toLE 2 (n % 65536))))])])) ∧
    (linkUp s.dev i = false → Does (.uncorrectableCodeword i k) s .skip)) ∧
  (∀ (s : State) (i lane : Nat) (failed free : Bool), i < 96 → lane < 8 → powered s.dev = true →
    free = (s.dev.fld F.LNK_PORT_STATUS_no_spare i != 1 && s.dev.fld F.LNK_PORT_STATUS_spare_used i != 1 &&
      !(s.dev.portsAt i).spareBad) →
    (linkUp s.dev i = true → free = true →
      Does (.laneSwitch i lane failed) s (.all [setF F.LNK_PORT_STATUS_spare_used i 1, setF F.LNK_PORT_STATUS_spare_for i lane,
        addSat F.LNK_PORT_RETRY_lane_switches i 1, linksChanged])) ∧
    (linkUp s.dev i = true → free = false → failed = true →
      Does (.laneSwitch i lane failed) s (.seq (linkDown i 3) linksChanged)) ∧
    (linkUp s.dev i = false ∨ (free = false ∧ failed = false) → Does (.laneSwitch i lane failed) s linksChanged)) ∧
  (∀ (s : State) (i : Nat), i < 96 → powered s.dev = true →
    (linkUp s.dev i = true → Does (.linkDownTimeout i) s (.seq (linkDown i 7) linksChanged)) ∧
    (linkUp s.dev i = false → Does (.linkDownTimeout i) s linksChanged))

/-- FAILOVER_PACKET returns the count the dead link received in order, and puts the link down here too; GROUP_FAILOVER moves the
packets from that count on, and those not yet admitted, to the surviving links; LINK_SITE_FAIL puts the link of the site down and
binds a free spare site of its die, whose port SITE_RETRAIN_DONE brings up; with no free one the port stays down, and of a site that
serves no link only the retirement is kept. -/
def Obligations.LinkFailover : Prop :=
  (∀ (s : State) (d : Device) (i seq dead : Nat) (bs : List Byte) (p : Packet), Arrives s i seq bs p d → p.kind = 8 →
    num p.body 0 1 = 1 → dead = num p.body 1 1 → dead < 96 →
    Gives (.failoverPacket i seq bs) s d (.all [modPorts dead (fun q => { q with partialFlits := 0 }),
      .when (linkUp d dead) (linkDown dead 7),
      enqueue (groupName d i) (groupUp d i) {
        kind := 8, dst := p.src, src := d.fld F.LNK_DEVICE_id 0,
        body := toLE 1 2 ++ toLE 1 (d.fld F.LNK_PORT_NBR_far_port dead) ++ toLE 2 ((d.portsAt dead).received % 4096) },
      linksChanged])) ∧
  (∀ (s : State) (d : Device) (i seq dead n : Nat) (bs : List Byte) (p : Packet), Arrives s i seq bs p d → p.kind = 8 →
    num p.body 0 1 = 2 → dead = num p.body 1 1 → dead < 96 →
    n = (d.portsAt dead).acked + (num p.body 2 2 + 4096 - (d.portsAt dead).acked % 4096) % 4096 →
    Gives (.groupFailover i seq bs) s d (.all [.each (List.range 8) (fun v => putEgress (dead * 8 + v) []),
      putPorts dead { d.portsAt dead with inFlight := [], nak := none },
      .each (((d.portsAt dead).inFlight.filter fun e => n < e.1 + e.2.length).map (·.2) ++
          (List.range 8).flatMap fun v => d.egressAt (dead * 8 + v))
        (fun p => .obs fun d' => enqueue (groupName d' dead) (groupUp d' dead) p),
      addSat F.LNK_PORT_RETRY_failovers dead 1])) ∧
  (∀ (s : State) (site : Nat), site < 104 → powered s.dev = true →
    (∀ d i, (List.range 96).find? (fun i => linkSite s.dev i == site) = some i →
      (.all [putRetired (siteKey 9 site) true, putApplied (siteKey 9 site) true,
        .when (linkUp s.dev i) (linkDown i 8), setF F.LNK_PORT_STATUS_reason i 8,
        putRetired (linkBind i 0) false, putRetired (linkBind i 1) false] : Eff).run s.dev = d →
      (∀ k, freeLinkSite d (site / 26) = some k →
        Gives (.linkSiteFail site) s d (.all [putRetired (linkBind i k) true,
          setF F.LNK_PORT_STATUS_site i (site / 26 * 26 + 24 + k), setF F.LNK_PORT_STATUS_state i 1, saveSpare, linksChanged])) ∧
      (freeLinkSite d (site / 26) = none →
        Gives (.linkSiteFail site) s d (.all [setF F.LNK_PORT_STATUS_state i 3, saveSpare, linksChanged]))) ∧
    ((List.range 96).find? (fun i => linkSite s.dev i == site) = none →
      Does (.linkSiteFail site) s (.all [putRetired (siteKey 9 site) true, putApplied (siteKey 9 site) true, saveSpare,
        linksChanged]))) ∧
  (∀ (s : State) (i : Nat), i < 96 → powered s.dev = true →
    (s.dev.fld F.LNK_PORT_STATUS_state i = 1 → s.dev.fld F.LNK_PORT_STATUS_reason i = 8 →
      Does (.siteRetrainDone i) s (.all [
        modPorts i (fun q => { spareBad := q.spareBad, corrected := q.corrected, woke := q.woke }),
        setF F.LNK_PORT_STATUS_state i 2, setF F.LNK_PORT_STATUS_reason i 0])) ∧
    (s.dev.fld F.LNK_PORT_STATUS_state i ≠ 1 ∨ s.dev.fld F.LNK_PORT_STATUS_reason i ≠ 8 →
      Does (.siteRetrainDone i) s .skip))

/-- A packet out of order is discarded, and one with a flit whose parity fails asks a replay. One for another device is forwarded
with its hop counted, or discarded and counted; a write that its flow admits is stored and acknowledged, or refused where it may
not write there; a cue event is signalled and acknowledged; a packet that fails a check of its flow is refused with the reason, or
discarded and counted; an acknowledgement or a refusal settles the descriptor whose packet it answers, as the end-to-end timeout
does. -/
def Obligations.PacketReception : Prop :=
  (∀ (s : State) (i seq : Nat) (bs : List Byte) (c : Instr), i < 96 → seq < 4096 → bs.length < 66050 →
    (c ∈ [.groupFailover i seq bs, .packetForward i seq bs, .linkWriteReceive i seq bs, .linkCueReceive i seq bs,
        .endToEndAck i seq bs, .refusal i seq bs, .suspect i seq bs, .reform i seq bs, .reformAck i seq bs, .colCommit i seq bs,
        .colAbort i seq bs, .exclude i seq bs] ∧ powered s.dev = true) ∨ (c ∈ [.colReady i seq bs, .colData i seq bs] ∧ working s.dev = true) →
    (linkUp s.dev i = false ∨ seq ≠ (s.dev.portsAt i).received % 4096 → Does c s .skip) ∧
    (∀ k, linkUp s.dev i = true → seq = (s.dev.portsAt i).received % 4096 → badFlit bs = some k →
      Does c s (uncorrectableCodeword i k))) ∧
  (∀ (s : State) (d : Device) (i seq : Nat) (bs : List Byte) (p : Packet), Comes s i seq bs p d → p.kind ≤ 6 →
    isLocal s.dev (i / 24) p.dst = false →
    (p.hops < 65534 → Gives (.packetForward i seq bs) s d (.all [
      .when (!hasEgress d (i / 24) p.dst) (modPorts i fun q => { q with freed := addAt q.freed p.vc p.length }),
      routePacket (i / 24) { p with hops := p.hops + 1, via := some i }, sendControl i false])) ∧
    (65534 ≤ p.hops → Gives (.packetForward i seq bs) s d (.all [
      modPorts i fun q => { q with freed := addAt q.freed p.vc p.length }, addSat F.LNK_DROPS_hop_limit 0 1,
      sendControl i false]))) ∧
  (∀ (s : State) (d d' : Device) (i seq k : Nat) (bs data : List Byte) (p : Packet) (f : Flow),
    Arrives s i seq bs p d → forMe i 1 s.dev p = true → writeHeld s.dev p = false → Admits d 2 p k f data d' →
    (∀ as, translateRange d p.dstCtx p.va .write p.bytes = some as → writable as = true →
      Gives (.linkWriteReceive i seq bs) s d' (.seq (store as data) (answer i p 0))) ∧
    (translateRange d p.dstCtx p.va .write p.bytes = none ∨
      (∃ as, translateRange d p.dstCtx p.va .write p.bytes = some as ∧ writable as = false) →
      Gives (.linkWriteReceive i seq bs) s d' (answer i p 3))) ∧
  (∀ (s : State) (d : Device) (i seq : Nat) (bs : List Byte) (p : Packet), Arrives s i seq bs p d → forMe i 1 s.dev p = true →
    writeHeld s.dev p = true → Does (.linkWriteReceive i seq bs) s .skip) ∧
  (∀ (s : State) (d d' : Device) (i seq k : Nat) (bs data : List Byte) (p : Packet) (f : Flow),
    Arrives s i seq bs p d → forMe i 2 s.dev p = true → Admits d 3 p k f data d' → ∀ q, ctxPart d p.dstCtx = some q →
    Gives (.linkCueReceive i seq bs) s d' (.seq (signalField q p.dstCtx p.cue) (answer i p 0))) ∧
  (∀ (s : State) (d : Device) (i seq kind recv : Nat) (bs : List Byte) (p : Packet) (c : Instr), Arrives s i seq bs p d →
    forMe i kind s.dev p = true → (c = .linkWriteReceive i seq bs ∧ kind = 1 ∧ recv = 2 ∧ writeHeld s.dev p = false) ∨
      (c = .linkCueReceive i seq bs ∧ kind = 2 ∧ recv = 3) →
    (recvFlow d p = none → Gives c s d (answer i p 1)) ∧
    (∀ k f, recvFlow d p = some (k, f) →
      (bit f.flags recv = 0 → Gives c s d (answer i p 1)) ∧
      (bit f.flags recv = 1 → bit f.flags 4 = 1 → p.epoch ≠ f.epoch → Gives c s d (addSat F.LNK_DROPS_epoch 0 1)) ∧
      (bit f.flags recv = 1 → (bit f.flags 4 = 0 ∨ p.epoch = f.epoch) →
        (kind = 1 ∨ p.vc ≠ 0 → flowVc f p.vc = false → Gives c s d (answer i p 2)) ∧
        ((kind = 2 ∧ p.vc = 0) ∨ flowVc f p.vc = true →
          (openPacket d k f p = none → Gives c s d (.seq (countAuth d k f p) (answer i p 5))) ∧
          (∀ data, openPacket d k f p = some data → ctxRuns d p.dstCtx = false →
            Gives c s d (.seq (acceptCounter k f p) (answer i p 4))))))) ∧
  (∀ (s : State) (d : Device) (i seq : Nat) (bs : List Byte) (p : Packet), Arrives s i seq bs p d →
    (forMe i 3 s.dev p = true → Gives (.endToEndAck i seq bs) s d (ackTag p.tag)) ∧
    (forMe i 4 s.dev p = true → ringKind (tagRing p.tag) ≠ .col →
      Gives (.refusal i seq bs) s d (failTag p.tag (if p.reason == 3 then 2 else 5))) ∧
    (forMe i 4 s.dev p = true → ringKind (tagRing p.tag) = .col →
      (∀ o, d.colOpsAt (tagRing p.tag) = some o → o.index = tagIndex p.tag →
        Gives (.refusal i seq bs) s d (colFail (tagRing p.tag) o 5)) ∧
      (∀ o, d.colOpsAt (tagRing p.tag) = some o → o.index ≠ tagIndex p.tag → Gives (.refusal i seq bs) s d .skip) ∧
      (d.colOpsAt (tagRing p.tag) = none → Gives (.refusal i seq bs) s d .skip))) ∧
  (∀ (s : State) (tag : Nat), powered s.dev = true → Does (.e2eTimeout tag) s (failTag tag 5))

/-- FLOW_TABLE_SYNC sets busy, and without its bit, or the right, changes no more than its write stores; FLOW_TABLE_LOAD_DONE makes
the table of DRAM the one in use, counts its valid entries and clears busy, and changes nothing where no load is under way. -/
def Obligations.FlowTable : Prop :=
  (∀ (s : State) (d : Device) (rq v : Nat), Writes s rq .LNK_FLOW_CTRL 0 v 31 d →
    (bit v 31 = 1 → Gives (.flowTableSync rq v) s d (setF F.LNK_FLOW_CTRL_busy 0 1)) ∧
    (bit v 31 = 0 → Gives (.flowTableSync rq v) s d .skip)) ∧
  (∀ (s : State) (d : Device) (rq v : Nat), Asks s rq d → bit (mayWrite d rq .LNK_FLOW_CTRL 0) 31 = 0 →
    Gives (.flowTableSync rq v) s d denied) ∧
  (∀ (s : State) (entry : Nat → Flow), powered s.dev = true → s.dev.fld F.LNK_FLOW_CTRL_busy 0 = 1 →
    (∀ e, entry e = if s.dev.poisoned (flowAddr s.dev e) 32 then {} else flowOf (s.dev.bytes (flowAddr s.dev e) 32)) →
    Does .flowTableLoadDone s (.all [.each (List.range 4096) (fun e => putFlows e (entry e)),
      setF F.LNK_FLOW_CTRL_valid 0 ((List.range 4096).filter fun e => bit (entry e).flags 0 == 1).length,
      setF F.LNK_FLOW_CTRL_busy 0 0])) ∧
  (∀ s : State, powered s.dev = true → s.dev.fld F.LNK_FLOW_CTRL_busy 0 ≠ 1 → Does .flowTableLoadDone s .skip)

/-- PORT_TRAINING, and PORT_ATTACH of a port that is not up, read what the module answers: an unwired port stays disabled; one with no
response goes down, as do a passive assembly whose check fails or whose loss class is unknown and an active module of neither 8 nor
9 lanes; a loopback plug is no link; any other trains. PORT_TRAIN_DONE brings the port up, or down where its lanes or its time
failed; PORT_RETRAIN_RETRY trains a port its lanes put down. In any other state of the port nothing changes. -/
def Obligations.PortTraining : Prop :=
  (∀ (s : State) (i : Nat) (m : List Byte) (c : Instr) (start : Eff), s.Ok → i < 96 → m.length < 257 → powered s.dev = true →
    (c = .portTraining i m ∨ (c = .portAttach i m ∧ linkUp s.dev i = false)) →
    start = .all [putSideband (moduleKey s.dev i) m, setF F.LNK_PORT_STATUS_role i (boardRole s.dev i),
      setF F.LNK_PORT_STATUS_site i (linkSite s.dev i), setF F.LNK_PORT_STATUS_spare_used i 0,
      setF F.LNK_PORT_STATUS_no_spare i 0, putNbrs i none] →
    (boardRole s.dev i = 15 → Does c s (.seq start (setF F.LNK_PORT_STATUS_state i 0))) ∧
    (boardRole s.dev i ≠ 15 → m = [] →
      Does c s (.seq start (.all [setF F.LNK_PORT_STATUS_module i 0, setF F.LNK_PORT_STATUS_state i 3,
        setF F.LNK_PORT_STATUS_reason i 1]))) ∧
    (boardRole s.dev i ≠ 15 → num m 0 1 = 0x41 →
      (num m 0xFC 4 ≠ crc32c (m.take 0xFC) →
        Does c s (.seq start (.all [setF F.LNK_PORT_STATUS_module i 2, setF F.LNK_PORT_STATUS_state i 3,
          setF F.LNK_PORT_STATUS_reason i 6]))) ∧
      (num m 0xFC 4 = crc32c (m.take 0xFC) → 2 < num m 0x13 1 →
        Does c s (.seq start (.all [setF F.LNK_PORT_STATUS_module i 2, setF F.LNK_PORT_STATUS_state i 3,
          setF F.LNK_PORT_STATUS_reason i 2]))) ∧
      (num m 0xFC 4 = crc32c (m.take 0xFC) → num m 0x13 1 ≤ 2 → num m 5 1 = 3 →
        Does c s (.seq start (.all [setF F.LNK_PORT_STATUS_loss_class i (num m 0x13 1), setF F.LNK_PORT_STATUS_module i 3,
          setF F.LNK_PORT_STATUS_state i 4]))) ∧
      (num m 0xFC 4 = crc32c (m.take 0xFC) → num m 0x13 1 ≤ 2 → num m 5 1 ≠ 3 →
        Does c s (.seq start (.all [setF F.LNK_PORT_STATUS_loss_class i (num m 0x13 1), setF F.LNK_PORT_STATUS_module i 2,
          setF F.LNK_PORT_STATUS_state i 1, setF F.LNK_PORT_STATUS_reason i 0])))) ∧
    (boardRole s.dev i ≠ 15 → m ≠ [] → num m 0 1 ≠ 0x41 →
      (num m 1 1 = 9 →
        Does c s (.seq start (.all [setF F.LNK_PORT_STATUS_module i 1, setF F.LNK_PORT_STATUS_state i 1,
          setF F.LNK_PORT_STATUS_reason i 0]))) ∧
      (num m 1 1 = 8 →
        Does c s (.seq start (.all [setF F.LNK_PORT_STATUS_no_spare i 1, setF F.LNK_PORT_STATUS_module i 1,
          setF F.LNK_PORT_STATUS_state i 1, setF F.LNK_PORT_STATUS_reason i 0]))) ∧
      (num m 1 1 ≠ 9 → num m 1 1 ≠ 8 →
        Does c s (.seq start (.all [setF F.LNK_PORT_STATUS_module i 1, setF F.LNK_PORT_STATUS_state i 3,
          setF F.LNK_PORT_STATUS_reason i 2]))))) ∧
  (∀ (s : State) (i : Nat) (m : List Byte), i < 96 → m.length < 257 → powered s.dev = true → linkUp s.dev i = true →
    Does (.portAttach i m) s .skip) ∧
  (∀ (s : State) (i : Nat) (failed bad : List Nat) (t : Bool), i < 96 → failed.all (· < 9) = true → powered s.dev = true →
    bad = (if failed = [] ∧ s.dev.fld F.LNK_PORT_STATUS_no_spare i ≠ 1 then
      ((List.range 8).filter fun l => s.dev.laneMarksAt (i * 16 + l)).take 1 else failed.dedup) →
    (s.dev.fld F.LNK_PORT_STATUS_state i ≠ 1 → Does (.portTrainDone i failed t) s .skip) ∧
    (s.dev.fld F.LNK_PORT_STATUS_state i = 1 →
      (t = false → Does (.portTrainDone i failed t) s (portDown i 7)) ∧
      (t = true → 2 ≤ bad.length ∨ (s.dev.fld F.LNK_PORT_STATUS_no_spare i = 1 ∧ bad ≠ []) →
        Does (.portTrainDone i failed t) s (portDown i 3)) ∧
      (t = true → bad = [] →
        Does (.portTrainDone i failed t) s (.all [portUp i, modPorts i (fun q => { q with spareBad := false }),
          setF F.LNK_PORT_STATUS_spare_used i 0, setF F.LNK_PORT_STATUS_spare_for i 0, sendIdentity i])) ∧
      (∀ l, t = true → bad = [l] → s.dev.fld F.LNK_PORT_STATUS_no_spare i ≠ 1 →
        Does (.portTrainDone i failed t) s (.all [portUp i, modPorts i (fun q => { q with spareBad := l == 8 }),
          setF F.LNK_PORT_STATUS_spare_used i (if l = 8 then 0 else 1),
          setF F.LNK_PORT_STATUS_spare_for i (if l = 8 then 0 else l), sendIdentity i])))) ∧
  (∀ (s : State) (i : Nat), i < 96 → powered s.dev = true →
    (s.dev.fld F.LNK_PORT_STATUS_state i = 3 → s.dev.fld F.LNK_PORT_STATUS_reason i = 3 →
      Does (.portRetrainRetry i) s (setF F.LNK_PORT_STATUS_state i 1)) ∧
    (s.dev.fld F.LNK_PORT_STATUS_state i ≠ 3 ∨ s.dev.fld F.LNK_PORT_STATUS_reason i ≠ 3 →
      Does (.portRetrainRetry i) s .skip))

/-- IDENTITY_EXCHANGE records a complementary neighbour of the same system, and puts the port of any other down; CANDIDATE_FLOOD adopts
and floods a better candidate; the first ASSIGN of a walk gives coordinates and goes on, a later one is answered KNOWN, a conflict
leaving its group out of routes; ASSIGN_ANSWER and PROMENADE_DONE gather children and their records; MAP_BROADCAST stores the map,
passes it on and builds the routes; REWALK walks again at the root and ROOT_LOST_TIMEOUT floods again. Over a link that is down, from
no parent, or in no such state, nothing changes. -/
def Obligations.Promenade : Prop :=
  (∀ (s : State) (i serial system line round size port role : Nat) (co ro : Bool), i < 96 → serial < 18446744073709551616 →
    system < 4294967296 → line < 4096 → round < 256 → size < 256 → port < 96 → role < 4 → powered s.dev = true →
    (linkUp s.dev i = false → Does (.identityExchange i serial system line round size port role co ro) s .skip) ∧
    (linkUp s.dev i = true →
      (complementary (s.dev.fld F.LNK_PORT_STATUS_role i) role = true → system = boardNum s.dev 0xC 4 0 →
        Does (.identityExchange i serial system line round size port role co ro) s (.all [setF F.LNK_PORT_NBR_far_port i port,
          modPorts i (fun q => { q with woke := false }),
          putNbrs i (some {
            serial := serial, system := system, line := line, round := round, roundSize := size,
            coords := co, root := ro, port := port, role := role }),
          oneDie serial, .obs fun d => setF F.LNK_PORT_NBR_nbr_id i ((nbrId d i).getD 0),
          .when ((s.dev.portsAt i).woke && (s.dev.nbrsAt i).any fun n => n.serial != serial)
            (.obs fun d => .seq startElection (.each d.prom.best.toList (flood [])))])) ∧
      (complementary (s.dev.fld F.LNK_PORT_STATUS_role i) role = true → system ≠ boardNum s.dev 0xC 4 0 →
        Does (.identityExchange i serial system line round size port role co ro) s (.all [setF F.LNK_PORT_NBR_far_port i port,
          setF F.LNK_PORT_STATUS_state i 3, setF F.LNK_PORT_STATUS_reason i 5])) ∧
      (complementary (s.dev.fld F.LNK_PORT_STATUS_role i) role = false →
        Does (.identityExchange i serial system line round size port role co ro) s (.all [setF F.LNK_PORT_NBR_far_port i port,
          setF F.LNK_PORT_STATUS_state i 3, setF F.LNK_PORT_STATUS_reason i 4])))) ∧
  (∀ (s : State) (i serial : Nat) (root : Bool), i < 96 → powered s.dev = true →
    (linkUp s.dev i = true → (∀ b, s.dev.prom.best = some b → betterCandidate s.dev.prom.ignoreRoot (root, serial) b = true) →
      Does (.candidateFlood (some i) root serial) s (.all [
        modProm (fun p => { p with best := some (root, serial), parent := none, asked := [], children := [], done := [], subtree := [] }),
        setF F.LNK_DEVICE_root 0 0,
        .when (s.dev.fld F.LNK_PROM_STATUS_state 0 != 7) (setF F.LNK_PROM_STATUS_state 0 3),
        flood [((groupUp s.dev i).head?).getD i] (root, serial)])) ∧
    (linkUp s.dev i = false ∨ (∃ b, s.dev.prom.best = some b ∧ betterCandidate s.dev.prom.ignoreRoot (root, serial) b = false) →
      Does (.candidateFlood (some i) root serial) s .skip)) ∧
  (∀ (s : State) (root : Bool) (serial : Nat), powered s.dev = true →
    Does (.candidateFlood none root serial) s startElection) ∧
  (∀ (s : State) (i serial line round hops : Nat) (conflict mine isRoot walking : Bool), i < 96 → line < 4096 → round < 256 →
    powered s.dev = true →
    conflict = (s.dev.fld F.LNK_COORD_line 0 != line || s.dev.fld F.LNK_COORD_round 0 != round) →
    mine = (s.dev.prom.best.map (·.2) == some serial && s.dev.fld F.LNK_DEVICE_root 0 == 0) →
    isRoot = (s.dev.prom.best.map (·.2) == some serial && s.dev.fld F.LNK_DEVICE_root 0 == 1) →
    walking = (s.dev.fld F.LNK_PROM_STATUS_state 0 == 4 || s.dev.fld F.LNK_PROM_STATUS_state 0 == 5) →
    (linkUp s.dev i = true → mine = true → walking = false →
      Does (.assign i serial line round hops) s (.all [promMessage i [3, 1, 0], readmit, takeCoords line round,
        setF F.LNK_COORD_conflict 0 0, setF F.LNK_PROM_STATUS_state 0 4, setF F.LNK_PROM_STATUS_hops 0 hops,
        setF F.LNK_PROM_STATUS_devices 0 0,
        modProm fun p => { p with parent := some (groupName s.dev i), children := [], done := [], subtree := [] },
        sendAssigns, checkDone])) ∧
    (linkUp s.dev i = true → (mine = true ∧ walking = true) ∨ isRoot = true →
      (conflict = false → Does (.assign i serial line round hops) s (promMessage i [3, 0, 0])) ∧
      (conflict = true → Does (.assign i serial line round hops) s
        (.all [promMessage i [3, 0, 1], setF F.LNK_COORD_conflict 0 1,
          .obs fun d => .each (groupAll d i) fun j =>
            .seq (setF F.LNK_PORT_STATUS_state j 4) (setF F.LNK_PORT_STATUS_reason j 9),
          checkDone]))) ∧
    (linkUp s.dev i = false ∨ (mine = false ∧ isRoot = false) → Does (.assign i serial line round hops) s .skip)) ∧
  (∀ (s : State) (i : Nat) (acc conflict : Bool), i < 96 → powered s.dev = true →
    (∀ g, g < 96 → (s.dev.prom.asked.find? fun j => (groupAll s.dev i).contains j) = some g →
      Does (.assignAnswer i acc conflict) s (.all [modProm fun p => { p with
        asked := p.asked.filter (· != g), children := if acc then p.children ++ [g] else p.children },
        .when conflict (excludeGroup g), checkDone])) ∧
    ((s.dev.prom.asked.find? fun j => (groupAll s.dev i).contains j) = none → Does (.assignAnswer i acc conflict) s .skip)) ∧
  (∀ (s : State) (i : Nat) (devs groups : List Byte), i < 96 → powered s.dev = true →
    (∀ g, (s.dev.prom.children.find? fun j => (groupAll s.dev i).contains j) = some g →
      (s.dev.prom.done.contains g = false →
        Does (.promenadeDone i devs groups) s (.seq (modProm fun p => { p with
          done := p.done ++ [g], subtree := p.subtree ++ topoDevs devs groups }) checkDone)) ∧
      (s.dev.prom.done.contains g = true → Does (.promenadeDone i devs groups) s .skip)) ∧
    ((s.dev.prom.children.find? fun j => (groupAll s.dev i).contains j) = none →
      Does (.promenadeDone i devs groups) s .skip)) ∧
  (∀ (s : State) (src : Option Nat) (root : Nat) (devs groups bs : List Byte) (us walk : Nat) (xs : List TopoDev) (ready : Bool),
    src.all (· < 96) = true → powered s.dev = true →
    ready = (match src with
      | some i => s.dev.prom.parent.any fun j => (groupAll s.dev i).contains j
      | none => s.dev.prom.parent.isNone && s.dev.fld F.LNK_DEVICE_root 0 == 1) →
    xs = sortDevs (if src.isSome then topoDevs devs groups else s.dev.prom.subtree) →
    root = ((xs.find? fun x => bit x.flags 0 == 1).map (·.id)).getD 0 → bs = mapBytes xs root us →
    (ready = true → s.dev.fld F.LNK_PROM_STATUS_state 0 = 5 →
      Does (.mapBroadcast src devs groups us walk) s (.all [putTopo xs, checkLeft,
        .each s.dev.prom.children (fun j => groupMessage j (5 :: bs.map (·.toNat))),
        .when (s.dev.fld F.LNK_TOPO_BASE_base 0 * 4096 != 0) (.seq (wrBytes (s.dev.fld F.LNK_TOPO_BASE_base 0 * 4096) bs)
          (setF F.LNK_TOPO_BASE_size_kib 0 (ceilDiv bs.length 1024))),
        .obs fun d => .each (List.range 96) fun j =>
          .when (d.nbrsAt j).isSome (setF F.LNK_PORT_NBR_nbr_id j ((nbrId d j).getD 0)),
        buildRoutes, setF F.LNK_PROM_STATUS_state 0 6,
        .when src.isNone (.seq (setF F.LNK_PROM_STATUS_devices 0 xs.length)
          (setF F.LNK_PROM_STATUS_hops 0 ((xs.map (·.hops)).foldl max 0))),
        setF F.LNK_PROM_TIME_walk 0 (min 65535 (walk / 4)),
        setF F.LNK_PROM_TIME_done_ms 0 (min 65535 ((s.dev.reg .CLK_AON_CNT 0 - s.dev.prom.since) / 25000))])) ∧
    (ready = false ∨ s.dev.fld F.LNK_PROM_STATUS_state 0 ≠ 5 → Does (.mapBroadcast src devs groups us walk) s .skip)) ∧
  (∀ (s : State) (d : Device) (rq v : Nat), Writes s rq .LNK_PROM_CTRL 0 v 31 d →
    (bit v 31 = 1 → d.fld F.LNK_DEVICE_root 0 = 1 → Gives (.rewalk rq v) s d (.all [readmit, setF F.LNK_DEVICE_root 0 1,
      .obs fun d => if boardCoords d then takeCoords (boardLine d) (boardRound d) else takeCoords 0 0,
      setF F.LNK_PROM_STATUS_state 0 4, setF F.LNK_PROM_STATUS_hops 0 0, setF F.LNK_COORD_conflict 0 0,
      modProm fun p => { p with parent := none, children := [], done := [], subtree := [] },
      sendAssigns, checkDone])) ∧
    (bit v 31 = 0 ∨ d.fld F.LNK_DEVICE_root 0 ≠ 1 → Gives (.rewalk rq v) s d .skip)) ∧
  (∀ (s : State) (d : Device) (rq v : Nat), Asks s rq d → bit (mayWrite d rq .LNK_PROM_CTRL 0) 31 = 0 →
    Gives (.rewalk rq v) s d denied) ∧
  (∀ (s : State), powered s.dev = true →
    (s.dev.fld F.LNK_DEVICE_root 0 = 0 → s.dev.fld F.LNK_PROM_STATUS_state 0 ≤ 5 →
      Does .rootLostTimeout s (.all [setF F.LNK_PROM_STATUS_state 0 7,
        modProm (fun p => { p with
          ignoreRoot := true, best := some (boardRoot s.dev, s.dev.reg .LNK_SERIAL 0), parent := none, asked := [], children := [],
          done := [], subtree := [] }),
        flood [] (boardRoot s.dev, s.dev.reg .LNK_SERIAL 0)])) ∧
    (s.dev.fld F.LNK_DEVICE_root 0 ≠ 0 ∨ 5 < s.dev.fld F.LNK_PROM_STATUS_state 0 → Does .rootLostTimeout s .skip))

/-- ALL_REDUCE, REDUCE_SCATTER, ALL_GATHER, BROADCAST, ALL_TO_ALL and FUSED begin the oldest unfinished descriptor of their ring,
where its op is theirs: it takes the group's next serial and becomes the ring's operation, and ends MISMATCH where a READY that came
before it differs. Of no group, of a broken or an excluded one, with operands that cannot be read, or with a root or a staging area
that does not fit, it ends at once; while its group re-forms it waits, and else nothing changes. -/
def Obligations.CollectiveStarts : Prop :=
  (∀ (s : State) (n op : Nat) (c : Instr) (o : ColOp), (c, op) ∈ [(.allReduce n, 0), (.reduceScatter n, 1), (.allGather n, 2),
      (.broadcast n, 3), (.allToAll n, 4), (.fused n, 5)] → Begins s n op o →
    Does c s (.all [modColGroups o.entry (fun e => { e with serial := e.serial + 1 }), putColOps n (some o),
      .obs fun d => .when (mismatched d n o) (colFail n o 11)])) ∧
  (∀ (s : State) (n op i : Nat) (c : Instr) (x : Desc), (c, op) ∈ [(.allReduce n, 0), (.reduceScatter n, 1), (.allGather n, 2),
      (.broadcast n, 3), (.allToAll n, 4), (.fused n, 5)] → s.Ok → n < 9984 → working s.dev = true →
    ringKind n = .col → ringServed s.dev n = true → (ringState s.dev n = 2 ∨ ringState s.dev n = 3) → s.dev.colOpsAt n = none →
    (s.dev.ringsAt n).findIdx? (·.status.isNone) = some i → (s.dev.ringsAt n)[i]? = some x →
    (bits x.ctrl 30 28 ≠ op ∨ (bit x.ctrl 23 = 1 ∧ i ≠ 0) → Does c s .skip) ∧
    (bits x.ctrl 30 28 = op → (bit x.ctrl 23 = 0 ∨ i = 0) →
      (descGroup s.dev n x = none → Does c s (colEnd n x.index 7)) ∧
      (∀ g, descGroup s.dev n x = some g →
        (s.dev.fld F.COL_GROUP_broken g = 1 → Does c s (colEnd n x.index 9)) ∧
        (s.dev.fld F.COL_GROUP_broken g ≠ 1 → s.dev.fld F.COL_GROUP_excluded g = 1 → Does c s (colEnd n x.index 10)) ∧
        (s.dev.fld F.COL_GROUP_broken g ≠ 1 → s.dev.fld F.COL_GROUP_excluded g ≠ 1 →
          ((s.dev.colGroupsAt g).forming = true → Does c s .skip) ∧
          ((s.dev.colGroupsAt g).forming = false →
            (∀ st, colParts s.dev n x = .error st → Does c s (.seq (colEnd n x.index st) (withdraw g 5))) ∧
            (∀ ps o, colParts s.dev n x = .ok ps →
              o = ({ op := innerOp x, parts := ps, seg := x.num 0x2C 4, total := (ps.map (·.granules)).sum } : ColOp) →
              groupSize s.dev g ≤ x.num 0x1E 2 ∨
                x.num 0x28 4 < 64 * stagingNeed o.op (colAlgo o.op (s.dev.fld F.COL_GROUP_algorithm g))
                  (if op = 5 then o.total else o.granules) (groupSize s.dev g) →
              Does c s (.seq (colEnd n x.index 7) (withdraw g 5)))))))) ∧
  (∀ (s : State) (n op : Nat) (c : Instr), (c, op) ∈ [(.allReduce n, 0), (.reduceScatter n, 1), (.allGather n, 2),
      (.broadcast n, 3), (.allToAll n, 4), (.fused n, 5)] → n < 9984 → working s.dev = true → s.dev.colOpsAt n = none →
    ringKind n ≠ .col ∨ ringServed s.dev n = false ∨ (ringState s.dev n ≠ 2 ∧ ringState s.dev n ≠ 3) ∨
      (s.dev.ringsAt n).findIdx? (·.status.isNone) = none → Does c s .skip)

/-- STAGE_IN_DONE reads the segment's source and enters its first step, or ends the descriptor where a range cannot be read or
written, is poisoned or in a Critical stack, or staging is no tier 0 window; COL_READY holds a READY and COL_DATA takes data of the
step in, and the operation goes on, a packet of no group dropped and one of a stale epoch counted; COL_WRITE_OUT stores the segment's
results and goes to the next segment or ends the descriptor; COL_COMPLETE writes the descriptor back; STEP_TIMEOUT suspects the
lowest rank still awaited. With no operation in that phase, or while its memory is held, nothing changes. -/
def Obligations.CollectiveSteps : Prop :=
  (∀ (s : State) (n : Nat) (fixed lost : List Nat), n < 9984 → working s.dev = true →
    (s.dev.colOpsAt n = none → Does (.stageInDone n fixed lost) s .skip) ∧
    (∀ o, s.dev.colOpsAt n = some o → o.phase ≠ 0 → Does (.stageInDone n fixed lost) s .skip) ∧
    (∀ (o : ColOp) (m r c : Nat) (rs : List (Nat × Nat)) (staging : Kind → Option (List Nat)), s.dev.colOpsAt n = some o → o.phase = 0 →
      m = groupSize s.dev o.entry → r = ownRank s.dev o.entry → c = ringCtx s.dev n → rs = segmentReads o m r →
      (∀ k, staging k = translateRange s.dev c (stagingSpan s.dev n o).1 k (stagingSpan s.dev n o).2) →
      (readsCritical s.dev c rs .read = true →
        Does (.stageInDone n fixed lost) s (.seq (colEnd n o.index 10) (withdraw o.entry 2))) ∧
      (readsCritical s.dev c rs .read = false → (readsHeld s.dev c rs .read || readsHeld s.dev c [stagingSpan s.dev n o] .write) = true →
        Does (.stageInDone n fixed lost) s .skip) ∧
      (readsCritical s.dev c rs .read = false → (readsHeld s.dev c rs .read || readsHeld s.dev c [stagingSpan s.dev n o] .write) = false →
        ((rs.mapM fun e => translateRange s.dev c e.1 .read e.2) = none ∨ staging .read = none →
          Does (.stageInDone n fixed lost) s (colFail n o 1)) ∧
        (∀ ass as, (rs.mapM fun e => translateRange s.dev c e.1 .read e.2) = some ass → staging .read = some as →
          (staging .write = none → Does (.stageInDone n fixed lost) s (colFail n o 2)) ∧
          (∀ st, staging .write = some st →
            (st.all inFloor = false → Does (.stageInDone n fixed lost) s (colFail n o 7)) ∧
            (∀ d, st.all inFloor = true → (agentReads n ass.flatten fixed lost).run s.dev = d →
              (anyPoison d ass.flatten = true → Gives (.stageInDone n fixed lost) s d (colFail n o 3)) ∧
              (∀ o1, anyPoison d ass.flatten = false → o1 = { o with input := (ass.flatMap fun as => padTo 64 (d.bytesAt as)) } →
                Gives (.stageInDone n fixed lost) s d (.all [fillStaging st,
                  putColOps n (some { o1 with
                    work := colInitial o1 m r
                    phase := if colSteps o.op o.algo m == 0 then 2 else 1
                    step := 0
                    sentTo := []
                    got := [] }),
                  enterStep n (2 * m + 2)])))))))) ∧
  (∀ (s : State) (n : Nat) (fixed lost : List Nat), n < 9984 → working s.dev = true →
    (s.dev.colOpsAt n = none → Does (.colWriteOut n fixed lost) s .skip) ∧
    (∀ o c ws, s.dev.colOpsAt n = some o → c = ringCtx s.dev n →
      ws = segmentWrites o (groupSize s.dev o.entry) (ownRank s.dev o.entry) →
      (o.phase ≠ 2 ∨ readsHeld s.dev c (ws.map fun e => (e.1, e.2.length)) .write = true →
        Does (.colWriteOut n fixed lost) s .skip) ∧
      (∀ d, o.phase = 2 → readsHeld s.dev c (ws.map fun e => (e.1, e.2.length)) .write = false →
        (agentReads n ((translateRange s.dev c (stagingSpan s.dev n o).1 .read (stagingSpan s.dev n o).2).getD []) fixed lost).run
          s.dev = d →
        (∀ st, stagingFault d n o = some st → Gives (.colWriteOut n fixed lost) s d (colFail n o st)) ∧
        (stagingFault d n o = none → ((ws.mapM fun e => translateRange d c e.1 .write e.2.length) = none ∨
            ∃ ass, (ws.mapM fun e => translateRange d c e.1 .write e.2.length) = some ass ∧ writable ass.flatten = false) →
          Gives (.colWriteOut n fixed lost) s d (colFail n o 2)) ∧
        (∀ ass o', stagingFault d n o = none → (ws.mapM fun e => translateRange d c e.1 .write e.2.length) = some ass →
          writable ass.flatten = true →
          o' = { o with segment := o.segment + 1, phase := 0, step := 0, input := [], work := [], sentTo := [], got := [] } →
          Gives (.colWriteOut n fixed lost) s d (.seq (.each (ass.zip (ws.map (·.2))) fun e => store e.1 e.2)
            (if o'.segment < o'.segments then putColOps n (some o')
             else .all [putColOps n (some o'), colEnd n o.index 0, addWrap F.COL_GROUP_STAT_completed o.entry 1])))))) ∧
  (∀ (s : State) (n : Nat), n < 9984 → working s.dev = true →
    (s.dev.ringsAt n = [] → Does (.colComplete n) s .skip) ∧
    (∀ x rest, s.dev.ringsAt n = x :: rest → x.status = none → Does (.colComplete n) s .skip) ∧
    (∀ st x rest, s.dev.ringsAt n = x :: rest → x.status = some st →
      (ringKind n ≠ .col ∨ ringState s.dev n = 4 ∨
        (descAddrs s.dev n x.index .write).any (agentHeld s.dev (ringPart s.dev n)) = true → Does (.colComplete n) s .skip) ∧
      (ringKind n = .col → ringState s.dev n ≠ 4 →
        (descAddrs s.dev n x.index .write).any (agentHeld s.dev (ringPart s.dev n)) = false →
        (canWriteBack s.dev n x = true →
          Does (.colComplete n) s (.all [modRings n (·.drop 1), writeBack n x (colTail s.dev n x st),
            .when (!faultHalted s.dev n) (setF F.DMA_RING_STAT_last_status n st), .when (bit x.cue 31 == 1) (signalDesc n x),
            .when (st != 0) (.seq (setF F.DMA_RING_STAT_state n 3) (logRing n st)), settleRing n])) ∧
        (canWriteBack s.dev n x = false →
          Does (.colComplete n) s (.all [modRings n (·.drop 1), setF F.DMA_RING_STAT_state n 3,
            setF F.DMA_RING_STAT_last_status n 15, logRing n 15, settleRing n]))))) ∧
  (∀ (s : State) (n ms : Nat), n < 9984 → working s.dev = true →
    (s.dev.colOpsAt n = none → Does (.stepTimeout n ms) s .skip) ∧
    (∀ o late, s.dev.colOpsAt n = some o →
      late = (colAwaits o (groupSize s.dev o.entry) (ownRank s.dev o.entry)).filter (fun e => !gotAll o e) →
      (o.phase = 1 → s.dev.fld F.COL_GROUP_LIST_timeout_ms o.entry * (if o.paced then 4 else 1) ≤ ms → late ≠ [] →
        Does (.stepTimeout n ms) s (suspectRank o.entry ((late.map (·.1)).foldl min 65535) 1)) ∧
      (o.phase ≠ 1 ∨ ms < s.dev.fld F.COL_GROUP_LIST_timeout_ms o.entry * (if o.paced then 4 else 1) ∨ late = [] →
        Does (.stepTimeout n ms) s .skip))) ∧
  (∀ (s : State) (d : Device) (i seq g : Nat) (bs : List Byte) (p : Packet), Reaches s i seq bs 1 g p d → working s.dev = true →
    (∀ n, opRing d g (bodySerial p) = some n →
      Gives (.colReady i seq bs) s d (.all [modColGroups g (fun e => { e with
          readies := e.readies ++ [⟨bodySerial p, bodySegment p, bodyStep p, bodySrcRank p, (bodyArgs p).take 14⟩] }),
        notePace n p, checkReady n])) ∧
    (opRing d g (bodySerial p) = none →
      Gives (.colReady i seq bs) s d (modColGroups g (fun e => { e with
        readies := e.readies ++ [⟨bodySerial p, bodySegment p, bodyStep p, bodySrcRank p, (bodyArgs p).take 14⟩] })))) ∧
  (∀ (s : State) (d : Device) (i seq g : Nat) (bs : List Byte) (p : Packet), Reaches s i seq bs 2 g p d → working s.dev = true →
    (∀ n, opRing d g (bodySerial p) = some n →
      Gives (.colData i seq bs) s d (.all [notePace n p,
        modColOps n (Option.map fun o =>
          if o.phase == 1 && o.segment == bodySegment p && o.step == bodyStep p then
            { o with got := o.got ++ [(bodySrcRank p, bodyOffset p, p.data, bit (bodyFlags p) 1 == 1)] } else o),
        progress n])) ∧
    (opRing d g (bodySerial p) = none → Gives (.colData i seq bs) s d .skip)) ∧
  (∀ (s : State) (d d1 : Device) (i seq msg k : Nat) (bs data : List Byte) (f : Flow) (q : Packet) (c : Instr) (entry : Option Nat),
    (c, msg) ∈ [(.colReady i seq bs, 1), (.colData i seq bs, 2), (.suspect i seq bs, 3), (.reform i seq bs, 4),
      (.reformAck i seq bs, 5), (.colCommit i seq bs, 6), (.colAbort i seq bs, 7), (.exclude i seq bs, 8)] →
    (msg ≤ 2 → working s.dev = true) → Arrives s i seq bs q d1 → forMe i 5 s.dev q = true → bodyMsg q = msg →
    Admits d1 2 q k f data d →
    entry = (ctxPart d1 q.dstCtx).bind (fun x => (partEntries d1 x).find? fun e =>
      d1.fld F.COL_GROUP_valid e == 1 && d1.reg .COL_GROUP_KEY e == bodyKey q) →
    (entry = none → Gives c s d (addSat F.LNK_DROPS_epoch 0 1)) ∧
    (∀ g, entry = some g →
      bodyEpoch q ≠ (if msg = 4 ∨ msg = 7 then nextEpoch (d1.fld F.COL_GROUP_epoch g) else d1.fld F.COL_GROUP_epoch g) ∨
        (d1.colGroupsAt g).current.contains q.src = false → Gives c s d (addSat F.COL_GROUP_STAT_stale g 1)))

/-- SUSPECT is gathered; SUSPECT_WINDOW_END removes the ranks gathered and tells them and every member, or aborts and tells every
member; REFORM takes the new epoch and acknowledges; the last REFORM_ACK commits; COL_COMMIT, COL_ABORT and EXCLUDE end a
re-formation; LEADER_TIMEOUT suspects the leader; COL_REMOVE suspects a rank on request. In any other state of the group nothing
changes, and a write without the right is denied. -/
def Obligations.Reformation : Prop :=
  (∀ (s : State) (d : Device) (i seq g : Nat) (bs : List Byte) (p : Packet), Reaches s i seq bs 3 g p d →
    Gives (.suspect i seq bs) s d (modColGroups g fun e => { e with
      gathered := e.gathered ++ [(bodySrcRank p, num (bodyArgs p) 0 2, num (bodyArgs p) 2 1)], forming := true })) ∧
  (∀ (s : State) (g : Nat) (removed left : List Nat), g < 4096 → powered s.dev = true →
    removed = (removedRanks (s.dev.colGroupsAt g).gathered).filter (· < groupSize s.dev g) →
    left = (List.range (groupSize s.dev g)).filter (fun r => !removed.contains r) →
    (s.dev.fld F.COL_GROUP_valid g = 1 → s.dev.fld F.COL_GROUP_excluded g = 0 → removed ≠ [] →
      (s.dev.fld F.COL_GROUP_on_fail g ≠ 1 → removed.length ≤ 63 → 2 ≤ left.length →
        Does (.suspectWindowEnd g) s (.all [
          .each (left.filter (· != ownRank s.dev g)) (fun r =>
            colControl g 4 (nextEpoch (s.dev.fld F.COL_GROUP_epoch g)) (rankId s.dev g r) r
              (toLE 2 removed.length ++ removed.flatMap (toLE 2))),
          .each removed (fun r => .when (r != ownRank s.dev g)
            (colControl g 8 (s.dev.fld F.COL_GROUP_epoch g) (rankId s.dev g r) r [])),
          reformLocal g removed,
          modColGroups g fun x => { x with acks := (left.filter (· != ownRank s.dev g)).map (rankId s.dev g) }])) ∧
      (s.dev.fld F.COL_GROUP_on_fail g = 1 ∨ 63 < removed.length ∨ left.length < 2 →
        Does (.suspectWindowEnd g) s (.all [
          .each ((List.range (groupSize s.dev g)).filter (· != ownRank s.dev g)) (fun r =>
            colControl g 7 (nextEpoch (s.dev.fld F.COL_GROUP_epoch g)) (rankId s.dev g r) r []),
          newEpoch g 9 [], setF F.COL_GROUP_broken g 1, modColGroups g fun e => { e with forming := false }]))) ∧
    (s.dev.fld F.COL_GROUP_valid g ≠ 1 ∨ s.dev.fld F.COL_GROUP_excluded g ≠ 0 ∨ removed = [] →
      Does (.suspectWindowEnd g) s .skip)) ∧
  (∀ (s : State) (d : Device) (i seq g : Nat) (bs : List Byte) (p : Packet), Reaches s i seq bs 4 g p d →
    Gives (.reform i seq bs) s d (.all [
      reformLocal g ((List.range (min 63 (num (bodyArgs p) 0 2))).map fun j => num (bodyArgs p) (2 + 2 * j) 2),
      modColGroups g (fun e => { e with forming := true }),
      .obs fun d => colControl g 5 (d.fld F.COL_GROUP_epoch g) p.src ((d.colGroupsAt g).current.idxOf p.src) []])) ∧
  (∀ (s : State) (d : Device) (i seq g : Nat) (bs : List Byte) (p : Packet), Reaches s i seq bs 5 g p d →
    ((d.colGroupsAt g).acks.contains p.src = true → (d.colGroupsAt g).acks.filter (· != p.src) = [] →
      Gives (.reformAck i seq bs) s d (.all [modColGroups g (fun e => { e with acks := [] }),
        .each ((List.range (groupSize d g)).filter (· != ownRank d g)) (fun r =>
          colControl g 6 (d.fld F.COL_GROUP_epoch g) (rankId d g r) r []),
        modColGroups g fun e => { e with forming := false }])) ∧
    ((d.colGroupsAt g).acks.contains p.src = true → ((d.colGroupsAt g).acks.filter (· != p.src)).isEmpty = false →
      Gives (.reformAck i seq bs) s d (modColGroups g fun e => { e with acks := (d.colGroupsAt g).acks.filter (· != p.src) })) ∧
    ((d.colGroupsAt g).acks.contains p.src = false → Gives (.reformAck i seq bs) s d .skip)) ∧
  (∀ (s : State) (d : Device) (i seq g : Nat) (bs : List Byte) (p : Packet), Reaches s i seq bs 6 g p d →
    Gives (.colCommit i seq bs) s d (modColGroups g fun e => { e with forming := false })) ∧
  (∀ (s : State) (d : Device) (i seq g : Nat) (bs : List Byte) (p : Packet), Reaches s i seq bs 7 g p d →
    Gives (.colAbort i seq bs) s d (.all [newEpoch g 9 [], setF F.COL_GROUP_broken g 1,
      modColGroups g fun e => { e with forming := false }])) ∧
  (∀ (s : State) (d : Device) (i seq g : Nat) (bs : List Byte) (p : Packet), Reaches s i seq bs 8 g p d →
    Gives (.exclude i seq bs) s d (.all [endGroup g 10, setF F.COL_GROUP_excluded g 1,
      modColGroups g fun e => { e with forming := false, gathered := [], doubted := [] }])) ∧
  (∀ (s : State) (g : Nat), g < 4096 → powered s.dev = true →
    (s.dev.fld F.COL_GROUP_valid g = 1 → (s.dev.colGroupsAt g).forming = true → (s.dev.colGroupsAt g).doubted ≠ [] →
      leaderOf s.dev g ≠ ownRank s.dev g →
      Does (.leaderTimeout g) s (.each ((s.dev.colGroupsAt g).doubted ++ [leaderOf s.dev g]) fun r => .seq
        (modColGroups g fun e => { e with
          doubted := if e.doubted.contains (leaderOf s.dev g) then e.doubted else e.doubted ++ [leaderOf s.dev g] })
        (suspectRank g r 1))) ∧
    (s.dev.fld F.COL_GROUP_valid g ≠ 1 ∨ (s.dev.colGroupsAt g).forming = false ∨ (s.dev.colGroupsAt g).doubted = [] ∨
      leaderOf s.dev g = ownRank s.dev g → Does (.leaderTimeout g) s .skip)) ∧
  (∀ (s : State) (d : Device) (rq p v g : Nat), p < 32 → Writes s rq .COL_PRT_REMOVE p v 31 d → g = bits v 27 16 →
    (bit v 31 = 1 → d.fld F.COL_GROUP_valid g = 1 → d.fld F.COL_GROUP_partition g = p → bits v 15 0 < groupSize d g →
      Gives (.colRemove rq p v) s d (suspectRank g (bits v 15 0) 4)) ∧
    (bit v 31 = 0 ∨ d.fld F.COL_GROUP_valid g ≠ 1 ∨ d.fld F.COL_GROUP_partition g ≠ p ∨ groupSize d g ≤ bits v 15 0 →
      Gives (.colRemove rq p v) s d .skip)) ∧
  (∀ (s : State) (d : Device) (rq p v : Nat), p < 32 → Asks s rq d → bit (mayWrite d rq .COL_PRT_REMOVE p) 31 = 0 →
    Gives (.colRemove rq p v) s d denied)

/-- VCE_OPEN reads and checks the session block and allocates a session; ENCODE codes the pictures due under rate control, stores their
units and accounts for them, or holds its picture; DECODE finds the pictures of its input and writes them to the pool, and
DECODE_RESUME goes on where a buffer is free; VCE_FLUSH ends what is held; VCE_CLOSE closes the session. A job whose input cannot be
read or is poisoned, whose output cannot be written or does not fit, or that the checks refuse ends with that status; one on a
session that is not open for it ends BAD_SESSION; while its memory is held it waits, and with no such job in turn nothing changes. -/
def Obligations.CodecJobs : Prop :=
  (∀ (s : State) (e op us : Nat) (c : Instr) (fixed lost bad : List Nat) (coded : List CodedPic) (found : List DecodedPic),
    (c, op) ∈ [(.vceOpen e us fixed lost, 1), (.encode e coded us fixed lost, 2), (.decode e bad found us fixed lost, 3),
      (.vceFlush e coded us, 4), (.vceClose e us, 5)] → e < 34 → us < 4294967296 → serving s.dev = true →
    (engineServes s.dev e = false ∨ jobTurn s.dev e = none ∨ ∃ n x, jobTurn s.dev e = some (n, x) ∧ x.op ≠ op) → Does c s .skip) ∧
  (∀ (s : State) (d : Device) (e op n us : Nat) (x : Desc) (c : Instr) (fixed lost bad : List Nat) (coded : List CodedPic)
    (found : List DecodedPic), TakesJob s e op n x d → us < 4294967296 →
    (c, op) ∈ [(.encode e coded us fixed lost, 2), (.decode e bad found us fixed lost, 3), (.vceFlush e coded us, 4),
      (.vceClose e us, 5)] →
    (d.sessionsAt (e * 16 + x.session) = none ∨ ∃ q, d.sessionsAt (e * 16 + x.session) = some q ∧
      (q.ring ≠ n ∨ (op = 2 ∧ q.encodes = false) ∨ (op = 3 ∧ q.encodes = true))) → Gives c s d (jobEnd n x 9 0 0 us)) ∧
  (∀ (s : State) (d : Device) (e n us : Nat) (x : Desc) (fixed lost : List Nat), TakesJob s e 1 n x d → us < 4294967296 →
    (translateRange d (ringCtx d n) (x.num 8 8) .read 128 = none → Gives (.vceOpen e us fixed lost) s d (jobEnd n x 1 0 0 us)) ∧
    (∀ as, translateRange d (ringCtx d n) (x.num 8 8) .read 128 = some as →
      (agentHeld d (ringPart d n) as = true → Gives (.vceOpen e us fixed lost) s d .skip) ∧
      (∀ (d' : Device) (q : Session), agentHeld d (ringPart d n) as = false → (agentReads n as fixed lost).run d = d' →
        q = { ring := n, block := d'.bytesAt as, fullness := Session.firstFullness { ring := n, block := d'.bytesAt as } } →
        (anyPoison d' as = true → Gives (.vceOpen e us fixed lost) s d' (jobEnd n x 3 0 0 us)) ∧
        (anyPoison d' as = false → q.unsupported = true →
          Gives (.vceOpen e us fixed lost) s d' (.seq (jobEnd n x 10 0 0 us) (addSat F.VCE_ERR_unsupported e 1))) ∧
        (anyPoison d' as = false → q.unsupported = false →
          (q.outOfRange = true ∨ q.refused = true ∨ ((List.range 16).filter fun k => !(openSessions d' e).contains k) = [] →
            Gives (.vceOpen e us fixed lost) s d' (jobEnd n x 8 0 0 us)) ∧
          (q.outOfRange = false → q.refused = false → ((List.range 16).filter fun k => !(openSessions d' e).contains k) ≠ [] →
            Gives (.vceOpen e us fixed lost) s d' (withFree fun v =>
              let spare := (List.range 16).filter fun k => !(openSessions d' e).contains k
              let k := spare.getD (v % spare.length) 0
              .all [putSessions (e * 16 + k) (some q), countSessions e, jobEnd n x 0 k 0 us])))))) ∧
  (∀ (s : State) (d : Device) (e n us k : Nat) (x : Desc) (q : Session) (key : Bool) (pics : List CodedPic) (coding : Coding)
    (fixed lost : List Nat), TakesJob s e 2 n x d → us < 4294967296 → k = e * 16 + x.session →
    d.sessionsAt k = some q → q.ring = n → q.encodes = true → key = isKey q (bit x.ctrl 15 == 1) →
    coding = codePics (padBytes d) ((List.replicate q.heldPics false ++ [key]).zip pics)
      { session := q, out := [], steps := [], legal := true } →
    (q.rcMode ≠ 0 → x.num 0x1C 4 < ceilDiv q.cpb 8 + 4096 →
      Gives (.encode e pics us fixed lost) s d (jobEnd n x 7 0 0 us)) ∧
    ((q.rcMode = 0 ∨ ceilDiv q.cpb 8 + 4096 ≤ x.num 0x1C 4) →
      (translateRange d (ringCtx d n) (x.num 8 8) .read (picSize q) = none →
        Gives (.encode e pics us fixed lost) s d (jobEnd n x 1 0 0 us)) ∧
      (∀ as, translateRange d (ringCtx d n) (x.num 8 8) .read (picSize q) = some as →
        (agentHeld d (ringPart d n) as = true ∨ pics.length ≠ codesNow q key ∨ coding.legal = false →
          Gives (.encode e pics us fixed lost) s d .skip) ∧
        (∀ d', agentHeld d (ringPart d n) as = false → pics.length = codesNow q key → coding.legal = true →
          (agentReads n as fixed lost).run d = d' →
          (anyPoison d' as = true → Gives (.encode e pics us fixed lost) s d' (jobEnd n x 3 0 0 us)) ∧
          (anyPoison d' as = false → codesNow q key = 0 →
            Gives (.encode e pics us fixed lost) s d' (.seq
              (putSessions k (some { afterInput q false with heldPics := q.heldPics + 1 })) (jobEnd n x 0 0 0 us))) ∧
          (anyPoison d' as = false → codesNow q key ≠ 0 →
            (x.num 0x1C 4 < coding.out.length → Gives (.encode e pics us fixed lost) s d' (jobEnd n x 12 0 0 us)) ∧
            (coding.out.length ≤ x.num 0x1C 4 →
              (translateRange d' (ringCtx d' n) (x.num 0x10 8) .write coding.out.length = none ∨
                  (∃ out, translateRange d' (ringCtx d' n) (x.num 0x10 8) .write coding.out.length = some out ∧ writable out = false) →
                Gives (.encode e pics us fixed lost) s d' (jobEnd n x 2 0 0 us)) ∧
              (∀ out, translateRange d' (ringCtx d' n) (x.num 0x10 8) .write coding.out.length = some out → writable out = true →
                (agentHeld d' (ringPart d' n) out = true → Gives (.encode e pics us fixed lost) s d' .skip) ∧
                (∀ own : Option (RcState × Bool), agentHeld d' (ringPart d' n) out = false →
                  own = (if key then coding.steps.getLast? else coding.steps.head?) →
                  Gives (.encode e pics us fixed lost) s d' (.all [putFree (d'.free + coding.out.length), store out coding.out,
                    countStages (k / 16) q coding.steps,
                    putSessions k (some { afterInput coding.session key with heldPics := 0 }),
                    jobEnd n x 0 coding.out.length (encodeResult q key
                      (if q.rcMode = 0 then ((if key then pics.getLast? else pics.head?).map (·.qp)).getD 0
                       else (own.map (·.1.qp)).getD 0)
                      (if q.rcMode = 0 then 0
                       else (own.map fun o => if o.2 then 4 else o.1.stages.foldl max 0).getD 0)) us]))))))))) ∧
  (∀ (s : State) (d : Device) (e n us k : Nat) (x : Desc) (q : Session) (bad : List Nat) (pics : List DecodedPic)
    (fixed lost : List Nat), TakesJob s e 3 n x d → us < 4294967296 → k = e * 16 + x.session →
    d.sessionsAt k = some q → q.ring = n → q.encodes = false →
    (translateRange d (ringCtx d n) (x.num 8 8) .read x.length = none →
      Gives (.decode e bad pics us fixed lost) s d (jobEnd n x 1 0 0 us)) ∧
    (∀ as, translateRange d (ringCtx d n) (x.num 8 8) .read x.length = some as →
      (agentHeld d (ringPart d n) as = true → Gives (.decode e bad pics us fixed lost) s d .skip) ∧
      (∀ (d' : Device) (f : Found), agentHeld d (ringPart d n) as = false → (agentReads n as fixed lost).run d = d' →
        f = findPics q (d'.bytesAt as) bad (fun o m => anyPoison d' ((as.drop o).take m)) →
        (f.refused = true → Gives (.decode e bad pics us fixed lost) s d' (.all [jobEnd n x 10 0 0 us,
          addSat F.VCE_ERR_unsupported e 1, closeSession e x.session])) ∧
        (f.refused = false → (f.pics.any fun p => q.field 0x38 2 < p.stream.buffers) = true →
          Gives (.decode e bad pics us fixed lost) s d' (jobEnd n x 13 0 0 us)) ∧
        (f.refused = false → (f.pics.any fun p => q.field 0x38 2 < p.stream.buffers) = false →
          (f.pics.length ≠ pics.length ∨ ((f.pics.zip pics).all fun o => picMatches o.1 o.2) = false →
            Gives (.decode e bad pics us fixed lost) s d' .skip) ∧
          (∀ q', f.pics.length = pics.length → ((f.pics.zip pics).all fun o => picMatches o.1 o.2) = true →
            q' = (f.pics.zip pics).foldl (fun s q => afterDecode s (x.num 0x28 8) q.1 q.2) { q with stream := f.stream } →
            Gives (.decode e bad pics us fixed lost) s d' (.seq
              (putSessions k (some { q' with
                job := some x.index, outcome := decodeOutcome f (anyPoison d' as) q' pics, written := 0, concealed := 0 }))
              (decodePics n x k us (q'.pics.length + 1)))))))) ∧
  (∀ (s : State) (e k us : Nat), e < 34 → k < 16 → us < 4294967296 → serving s.dev = true →
    (s.dev.sessionsAt (e * 16 + k) = none → Does (.decodeResume e k us) s .skip) ∧
    (∀ q, s.dev.sessionsAt (e * 16 + k) = some q →
      (∀ x, (q.job.bind fun j => (s.dev.ringsAt q.ring).find? fun x => x.index == j) = some x →
        (engineServes s.dev e = true → freeBufs q ≠ [] →
          Does (.decodeResume e k us) s (decodePics q.ring x (e * 16 + k) us (q.pics.length + 1))) ∧
        (engineServes s.dev e = false ∨ freeBufs q = [] → Does (.decodeResume e k us) s .skip)) ∧
      ((q.job.bind fun j => (s.dev.ringsAt q.ring).find? fun x => x.index == j) = none →
        Does (.decodeResume e k us) s .skip))) ∧
  (∀ (s : State) (d : Device) (e n us k : Nat) (x : Desc) (q : Session) (pics : List CodedPic),
    TakesJob s e 4 n x d → us < 4294967296 → k = e * 16 + x.session → d.sessionsAt k = some q → q.ring = n →
    (q.encodes = false →
      Gives (.vceFlush e pics us) s d (startPics n x k us 0 { q with pics := q.pics ++ q.waiting, waiting := [] })) ∧
    (∀ (coding : Coding) (ends : Bool) (bs : List Byte), q.encodes = true →
      coding = codePics (padBytes d) (pics.map fun p => (false, p)) { session := q, out := [], steps := [], legal := true } →
      ends = (bit x.ctrl 14 == 1 && !q.isAv1) → bs = coding.out ++ (if ends then endOfSequence else []) →
      (pics.length ≠ q.heldPics ∨ coding.legal = false → Gives (.vceFlush e pics us) s d .skip) ∧
      (pics.length = q.heldPics → coding.legal = true →
        (x.num 0x1C 4 < bs.length → Gives (.vceFlush e pics us) s d (jobEnd n x 12 0 0 us)) ∧
        (bs.length ≤ x.num 0x1C 4 →
          (translateRange d (ringCtx d n) (x.num 0x10 8) .write bs.length = none ∨
              (∃ out, translateRange d (ringCtx d n) (x.num 0x10 8) .write bs.length = some out ∧ writable out = false) →
            Gives (.vceFlush e pics us) s d (jobEnd n x 2 0 0 us)) ∧
          (∀ out, translateRange d (ringCtx d n) (x.num 0x10 8) .write bs.length = some out → writable out = true →
            (agentHeld d (ringPart d n) out = true → Gives (.vceFlush e pics us) s d .skip) ∧
            (agentHeld d (ringPart d n) out = false →
              Gives (.vceFlush e pics us) s d (.all [putFree (d.free + bs.length), store out bs, countStages (k / 16) q coding.steps,
                putSessions k (some { coding.session with
                  heldPics := 0, sinceKey := if ends then none else coding.session.sinceKey }),
                jobEnd n x 0 bs.length 0 us]))))))) ∧
  (∀ (s : State) (d : Device) (e n us : Nat) (x : Desc) (q : Session), TakesJob s e 5 n x d → us < 4294967296 →
    d.sessionsAt (e * 16 + x.session) = some q → q.ring = n →
    Gives (.vceClose e us) s d (.all [putSessions (e * 16 + x.session) none, countSessions e, jobEnd n x 0 0 0 us]))

/-- VCE_JOB_COMPLETE and INGEST_JOB_COMPLETE write the oldest job of a ring of their kind back with its results, or halt the ring
where they cannot; VCE_RETURN frees a pool buffer that is held and counts one that is not; ENGINE_RESET ends the waiting jobs and
loses every session; VCE_ENABLE stores the control register, cancelling an engine it takes away. A write without the right is denied,
and one to a site that is gone reaches nothing. -/
def Obligations.CodecControl : Prop :=
  (∀ (s : State) (n : Nat) (c : Instr) (kind : RingKind), (c, kind) ∈ [(.vceJobComplete n, .vce), (.ingestJobComplete n, .ing)] →
    n < (if kind = .vce then 10256 else 10392) → working s.dev = true →
    (s.dev.ringsAt n = [] → Does c s refreshIdle) ∧
    (∀ x rest, s.dev.ringsAt n = x :: rest → x.status = none → Does c s refreshIdle) ∧
    (∀ st x rest, s.dev.ringsAt n = x :: rest → x.status = some st →
      (ringKind n ≠ kind ∨ ringState s.dev n = 4 ∨
        (descAddrs s.dev n x.index .write).any (agentHeld s.dev (ringPart s.dev n)) = true → Does c s refreshIdle) ∧
      (ringKind n = kind → ringState s.dev n ≠ 4 →
        (descAddrs s.dev n x.index .write).any (agentHeld s.dev (ringPart s.dev n)) = false →
        (canWriteBack s.dev n x = true →
          Does c s (.all [modRings n (·.drop 1), writeBack n x (toLE 4 (x.results.getD 0 0) ++ toLE 4 (x.results.getD 1 0) ++
              toLE 2 st ++ toLE 2 0 ++ toLE 4 (x.results.getD 2 0)),
            .when (!faultHalted s.dev n) (setF F.DMA_RING_STAT_last_status n st), .when (bit x.cue 31 == 1) (signalDesc n x),
            .when (halts n st) (.seq (setF F.DMA_RING_STAT_state n 3) (logRing n st)), settleRing n, refreshIdle])) ∧
        (canWriteBack s.dev n x = false →
          Does c s (.all [modRings n (·.drop 1), setF F.DMA_RING_STAT_state n 3,
            setF F.DMA_RING_STAT_last_status n 15, logRing n 15, settleRing n, refreshIdle]))))) ∧
  (∀ (s : State) (d : Device) (rq e v : Nat), e < 34 → Asks s rq d → (isSteward rq || !siteGone d .VCE_RETURN e) = true →
    (∀ q, bit (mayWrite d rq .VCE_RETURN e) 31 = 1 → bit v 31 = 1 → d.sessionsAt (e * 16 + bits v 19 16) = some q →
      (q.heldBufs.contains (bits v 15 0) = true → Gives (.vceReturn rq e v) s d
        (putSessions (e * 16 + bits v 19 16) (some { q with heldBufs := q.heldBufs.filter (· != bits v 15 0) }))) ∧
      (q.heldBufs.contains (bits v 15 0) = false → Gives (.vceReturn rq e v) s d (addSat F.VCE_ERR_bad_return e 1))) ∧
    (bit (mayWrite d rq .VCE_RETURN e) 31 = 1 → bit v 31 = 1 → d.sessionsAt (e * 16 + bits v 19 16) = none →
      Gives (.vceReturn rq e v) s d (addSat F.VCE_ERR_bad_return e 1)) ∧
    (bit (mayWrite d rq .VCE_RETURN e) 31 = 1 → bit v 31 = 0 → Gives (.vceReturn rq e v) s d .skip) ∧
    (bit (mayWrite d rq .VCE_RETURN e) 31 = 0 → Gives (.vceReturn rq e v) s d denied)) ∧
  (∀ (s : State) (e : Nat), e < 34 → powered s.dev = true →
    Does (.engineReset e) s (.all [
      .each ((List.range 8).map (vceRing e)) (fun n =>
        .each ((s.dev.ringsAt n).filter fun x => x.status.isNone && jobWaits s.dev n x) fun x =>
          jobEnd n x 14 ((partResults s.dev n x).getD 0 0) ((partResults s.dev n x).getD 1 0) 0),
      .each (List.range 16) (fun k => putSessions (e * 16 + k) none), countSessions e,
      setF F.VCE_CTRL_fw_ready e 1, logService 14 (e / 2) 0xFFFF 14, refreshIdle])) ∧
  (∀ (s : State) (d : Device) (rq e v : Nat), e < 34 → Asks s rq d → (isSteward rq || !siteGone d .VCE_CTRL e) = true →
    (mayWrite d rq .VCE_CTRL e ≠ 0 →
      Gives (.vceEnable rq e v) s d (.seq
        (.when (d.fld F.VCE_CTRL_enable e == 1 && (bit v 31 == 0 || bits v 24 20 != d.fld F.VCE_CTRL_partition e)) (.all [
          .each ((List.range 8).map (vceRing e)) (fun n => .all [
            .each (d.ringsAt n) (fun x => cancelDesc n x 6 (jobTail { x with results := partResults d n x } 6)), putRings n [],
            .when (d.fld F.DMA_RING_BASE_enable n == 1) (setF F.DMA_RING_STAT_state n 3)]),
          .each (List.range 16) (fun k => putSessions (e * 16 + k) none), countSessions e]))
        (storeWrite rq .VCE_CTRL e v))) ∧
    (mayWrite d rq .VCE_CTRL e = 0 → Gives (.vceEnable rq e v) s d denied)) ∧
  (∀ (s : State) (d : Device) (rq e v : Nat), e < 34 → Asks s rq d →
    ((isSteward rq || !siteGone d .VCE_RETURN e) = false → Gives (.vceReturn rq e v) s d .skip) ∧
    ((isSteward rq || !siteGone d .VCE_CTRL e) = false → Gives (.vceEnable rq e v) s d .skip))

/-- CONVERT takes the next job of the unit where none is in progress, reading and checking its profile and table, and processes the
next sample of the job: it reads the entry and the source, checks and converts, writes the slot, the hold, the entry and the
counters, returns the buffer and ends the job after its last sample; what cannot be read or written, or is poisoned, ends the job.
STREAM_SLOT_RESET clears a slot's hold and counters; INGEST_PUBLISH writes the header and every unit's record. A unit that is held
or has no job waits. -/
def Obligations.IngestUnits : Prop :=
  (∀ (s : State) (site us : Nat) (fixed lost : List Nat), site < 17 → us < 4294967296 → serving s.dev = true →
    ingServes s.dev site = false ∨ ingTurn s.dev site = none → Does (.convert site us fixed lost) s .skip) ∧
  (∀ (s : State) (d d' : Device) (site n us : Nat) (x : Desc) (e : Eff) (fixed lost : List Nat), site < 17 → us < 4294967296 →
    serving s.dev = true → ingServes s.dev site = true → ingTurn s.dev site = some (n, x) → x.begun = false →
    ((translateRange s.dev (ringCtx s.dev n) x.profileAt .read 64 = none ∨
        translateRange s.dev (ringCtx s.dev n) (x.num 8 8) .read (x.length * 32) = none) ∧ d = s.dev ∧ e = ingEnd n x 1) ∨
      (∃ pa ta, translateRange s.dev (ringCtx s.dev n) x.profileAt .read 64 = some pa ∧
        translateRange s.dev (ringCtx s.dev n) (x.num 8 8) .read (x.length * 32) = some ta ∧
        ((agentHeld s.dev (ringPart s.dev n) (pa ++ ta) = true ∧ d = s.dev ∧ e = .skip) ∨
          (agentHeld s.dev (ringPart s.dev n) (pa ++ ta) = false ∧ (agentReads n (pa ++ ta) fixed lost).run s.dev = d ∧
            ((anyPoison d (pa ++ ta) = true ∧ e = ingEnd n x 3) ∨
              (anyPoison d (pa ++ ta) = false ∧
                (Profile.bad ⟨d.bytesAt pa⟩ = true ∨ x.stride < Profile.slotBytes ⟨d.bytesAt pa⟩) ∧ e = ingEnd n x 7))))) →
    e.run d = d' → (d'.ringsAt n).find? (fun y => y.index == x.index && y.begun && y.status.isNone) = none →
    Gives (.convert site us fixed lost) s d e) ∧
  (∀ (s : State) (d : Device) (site n us i c : Nat) (x y : Desc) (p : Profile) (fixed lost : List Nat), site < 17 → us < 4294967296 →
    serving s.dev = true → ingServes s.dev site = true → ingTurn s.dev site = some (n, x) →
    (x.begun = true ∧ d = s.dev) ∨ (x.begun = false ∧ ∃ pa ta d0,
      translateRange s.dev (ringCtx s.dev n) x.profileAt .read 64 = some pa ∧
      translateRange s.dev (ringCtx s.dev n) (x.num 8 8) .read (x.length * 32) = some ta ∧
      agentHeld s.dev (ringPart s.dev n) (pa ++ ta) = false ∧ (agentReads n (pa ++ ta) fixed lost).run s.dev = d0 ∧
      anyPoison d0 (pa ++ ta) = false ∧ Profile.bad ⟨d0.bytesAt pa⟩ = false ∧ Profile.slotBytes ⟨d0.bytesAt pa⟩ ≤ x.stride ∧
      (Eff.all [putRr (72 + ingOf n) n, setF F.ING_CTRL_busy (ingOf n) 1,
        modDesc n x.index fun y => { y with moved := d0.bytesAt pa, results := [0, 0, 0, 0] }]).run d0 = d) →
    (d.ringsAt n).find? (fun y => y.index == x.index && y.begun && y.status.isNone) = some y → p = ⟨y.moved⟩ →
    i = y.samplesDone → c = ringCtx d n →
    (translateRange d c (y.num 8 8 + 32 * i) .read 32 = none ∨ translateRange d c (y.num 8 8 + 32 * i) .write 32 = none →
      Gives (.convert site us fixed lost) s d (ingEnd n y 1)) ∧
    (∀ ta tw, translateRange d c (y.num 8 8 + 32 * i) .read 32 = some ta →
      translateRange d c (y.num 8 8 + 32 * i) .write 32 = some tw →
      (translateRange d c (y.dst + i * y.stride) .write p.slotBytes = none ∨
          (anyPoison d ta = false ∧ ∃ slot, translateRange d c (y.dst + i * y.stride) .write p.slotBytes = some slot ∧
            writable slot = false) →
        Gives (.convert site us fixed lost) s d (ingEnd n y 2)) ∧
      (∀ (slot : List Nat) (e : Entry), translateRange d c (y.dst + i * y.stride) .write p.slotBytes = some slot →
        e = ⟨tw, d.bytesAt ta⟩ →
        (anyPoison d ta = true → Gives (.convert site us fixed lost) s d (ingEnd n y 3)) ∧
        (anyPoison d ta = false → writable slot = true →
          agentHeld d (ringPart d n) (ta ++ slot ++ (sampleSource d n p e).addrs) = true →
          Gives (.convert site us fixed lost) s d .skip) ∧
        (∀ (d' : Device) (src : Source) (f : Finding) (hold : Option (List Byte)) (bad unclean : Bool) (sat : Nat),
          anyPoison d ta = false → writable slot = true →
          agentHeld d (ringPart d n) (ta ++ slot ++ (sampleSource d n p e).addrs) = false →
          (agentReads n (ta ++ (sampleSource d n p e).addrs) fixed lost).run d = d' → src = sampleSource d' n p e →
          f = checkSample d' p e src → bad = (f.cause != 0) → unclean = (src.unclean && f.cause != 6) →
          sat = saturatedCount p f.values →
          hold = (if bad then (streamSlot d' (ingOf n) e.stream).bind (replacement d' (ingOf n) p) else none) →
          Gives (.convert site us fixed lost) s d' (.all [
            store slot (if bad then hold.getD (List.replicate p.slotBytes 0) else slotData p f.values),
            .when (!bad) (onSlot (ingOf n) e.stream fun t => keepHold (ingOf n) p t (slotData p f.values) src.pts),
            store (e.at_.drop 0x14) (toLE 4 f.crc ++
              toLE 1 ((if bad then 1 else 0) + (if hold.isSome then 2 else 0) + if unclean then 4 else 0) ++
              toLE 1 f.cause ++ toLE 2 0 ++ toLE 4 src.pts),
            onSlot (ingOf n) e.stream fun t => countStream t f.cause unclean,
            .when bad (.seq (addSat F.ING_STAT_replaced (ingOf n) 1) (modIngReplaced (ingOf n) (· + 1))),
            addSat F.ING_STAT_saturated (ingOf n) sat,
            modDesc n y.index fun z => { z with results := [
              z.results.getD 0 0 + (if bad then 1 else 0), z.results.getD 1 0 + sat, z.results.getD 2 0 + us,
              z.results.getD 3 0 + 1] },
            .when (e.kind == 0 && bit (e.field 1 1) 1 == 1) (
              match engineOf d' (e.field 4 1), translateRange d' (ringCtx d' n) e.addr .read 2 with
              | some g, some ra => .when (d'.fld F.VCE_CTRL_enable g == 1 && d'.fld F.VCE_CTRL_partition g == ingPart d' (ingOf n))
                  (returnBuffer g (fromLE (d'.bytesAt ra) + e.field 5 1 % 16 * 65536))
              | _, _ => .skip),
            .when (i + 1 == y.length) (ingEnd n y 0)]))))) ∧
  (∀ (s : State) (d : Device) (rq site v : Nat), site < 17 → Writes s rq .ING_STREAM_CTRL site v 31 d →
    (isSteward rq || !siteGone ((beforeAccess rq).run s.dev) .ING_STREAM_CTRL site) = true →
    (∀ k, bit v 31 = 1 → streamSlot d site (bits v 7 0) = some k →
      Gives (.streamSlotReset rq site v) s d (.seq (k.setValid false) (store ((k.at_.drop 0x18).take 0x20) (toLE 0x20 0)))) ∧
    (bit v 31 = 0 ∨ streamSlot d site (bits v 7 0) = none → Gives (.streamSlotReset rq site v) s d .skip)) ∧
  (∀ (s : State) (d : Device) (rq site v : Nat), site < 17 → Asks s rq d →
    ((isSteward rq || !siteGone d .ING_STREAM_CTRL site) = true → bit (mayWrite d rq .ING_STREAM_CTRL site) 31 = 0 →
      Gives (.streamSlotReset rq site v) s d denied) ∧
    ((isSteward rq || !siteGone d .ING_STREAM_CTRL site) = false → Gives (.streamSlotReset rq site v) s d .skip)) ∧
  (∀ (s : State) (failed : List Nat), failed.all (· < 16) = true → serving s.dev = true →
    (s.dev.fld F.ING_PAGE_enable 0 = 1 →
      Does (.ingestPublish failed) s (.seq (.when (pageThere s.dev) (pageWrite 0 pageHeader))
        (.each (List.range 16) fun die => .obs fun d =>
          match dieSite d die with
          | none => .skip
          | some site => .when (d.fld F.ING_CTRL_enable site == 1) (
            if failed.contains die || !pageThere d then addSat F.ING_STATUS_pub_lost site 1
            else withFree fun v => .obs fun d => .all [
              pageWrite (0x40 + die * 128) (toLE 4 (d.ingPubsAt site)), pageWrite (0x40 + die * 128 + 4) (loadRecord d site v),
              pageWrite (0x40 + die * 128 + 0x7C) (toLE 4 (d.ingPubsAt site)), modIngPubs site (· + 1)])))) ∧
    (s.dev.fld F.ING_PAGE_enable 0 ≠ 1 → Does (.ingestPublish failed) s .skip))

/-- A key or attestation command makes its window busy and acts, its code being that of the first of its checks that fails, or 0:
KEY_LOAD, KEY_UNSEAL and LINK_KEY_LOAD load the key their blob unwraps to, KEY_ERASE frees the slot, KEY_SEAL writes the sealed blob,
ATTEST the report, ID_READ the identity record; ROOT_MSG with a valid signature revokes or raises. A command that fails changes
nothing else; one that is barred ends QUARANTINE and one out of range RANGE; a busy window ignores the write, and a write without the
right is denied. SEC_CMD_COMPLETE reports the code. -/
def Obligations.KeyCommands : Prop :=
  (∀ (s : State) (d : Device) (rq w op index : Nat) (c : Instr), (c, op) ∈ [(.keyLoad rq w index, 1), (.keyErase rq w index, 2),
      (.keySeal rq w index, 3), (.keyUnseal rq w index, 4), (.linkKeyLoad rq w index, 5), (.attest rq w index, 6),
      (.idRead rq w index, 7), (.rootMsg rq w index, 8)] → w < 33 → index < 65536 →
    (AsksAon s rq d → bit (mayWrite d rq .SEC_CMD w) 31 = 0 → Gives c s d denied) ∧
    (WritesAon s rq .SEC_CMD w (secValue op index) 31 d →
      (d.fld F.SEC_CMD_busy w ≠ 0 → Gives c s d .skip) ∧
      (d.fld F.SEC_CMD_busy w = 0 → secQuarantined d op = true → Gives c s d (keyRuns w op index 7 .skip)) ∧
      (d.fld F.SEC_CMD_busy w = 0 → secQuarantined d op = false → secInRange w op index (secArg d w) = false →
        Gives c s d (keyRuns w op index 5 .skip)))) ∧
  (∀ (s : State) (d : Device) (rq w index : Nat) (b : List Byte) (fails : Option Nat), AsksKeys s rq w 1 index d →
    b = d.bytes (secArg d w) 256 →
    fails = firstFail ([(secReach d w (secArg d w) 256, 5), (!d.poisoned (secArg d w) 256, 10), (blobOk b 1 index, 1),
      (num b 8 8 == d.reg .LNK_SERIAL 0, 2)] ++ slotChecks d w index) →
    (∀ code, fails = some code → code ≠ 0 → Gives (.keyLoad rq w index) s d (keyRuns w 1 index code .skip)) ∧
    (fails = none → Gives (.keyLoad rq w index) s d (match unwrapBlob d b with
      | none => keyRuns w 1 index 3 .skip
      | some key => if keyWeak key then keyRuns w 1 index 6 .skip else keyRuns w 1 index 0 (.all [
          putTenantKeys index (some ⟨w, key⟩), countKeys, setF F.SEC_KEYSTATE_state 0 0])))) ∧
  (∀ (s : State) (d : Device) (rq w index : Nat), AsksKeys s rq w 2 index d →
    (holdsSlot d w index = false → Gives (.keyErase rq w index) s d (keyRuns w 2 index 11 .skip)) ∧
    (holdsSlot d w index = true → slotInUse d index = true → Gives (.keyErase rq w index) s d (keyRuns w 2 index 8 .skip)) ∧
    (holdsSlot d w index = true → slotInUse d index = false →
      Gives (.keyErase rq w index) s d (keyRuns w 2 index 0 (.seq (putTenantKeys index none) countKeys)))) ∧
  (∀ (s : State) (d : Device) (rq w index : Nat), AsksKeys s rq w 3 index d →
    (secReach d w (secArg d w) 128 = false → Gives (.keySeal rq w index) s d (keyRuns w 3 index 5 .skip)) ∧
    (secReach d w (secArg d w) 128 = true → holdsSlot d w index = false →
      Gives (.keySeal rq w index) s d (keyRuns w 3 index 11 .skip)) ∧
    (secReach d w (secArg d w) 128 = true → holdsSlot d w index = true →
      Gives (.keySeal rq w index) s d (keyRuns w 3 index 0 (freeBytes 12 fun iv =>
        store ((List.range 128).map (secArg d w + ·)) (sealedBlob d w index iv (slotKey d index)))))) ∧
  (∀ (s : State) (d : Device) (rq w index : Nat) (b : List Byte) (fails : Option Nat),
    AsksKeys s rq w 4 index d → b = d.bytes (secArg d w) 128 →
    fails = firstFail ([(secReach d w (secArg d w) 128, 5), (!d.poisoned (secArg d w) 128, 10),
      (b.take 4 == [0x41, 0x58, 0x53, 0x4C] && num b 4 1 == 1 && zeroAt b 5 1 && num b 6 2 == index && num b 8 1 == w &&
        zeroAt b 9 7 && zeroAt b 0x1C 4 && zeroAt b 0x70 16, 1)] ++ slotChecks d w index) →
    (∀ code, fails = some code → code ≠ 0 → Gives (.keyUnseal rq w index) s d (keyRuns w 4 index code .skip)) ∧
    (fails = none → Gives (.keyUnseal rq w index) s d (match Config.gcmOpen d.sealKey ((b.drop 0x10).take 12) (b.take 0x20)
        ((b.drop 0x20).take 64) ((b.drop 0x60).take 16) with
      | none => keyRuns w 4 index 3 .skip
      | some key => if keyWeak key then keyRuns w 4 index 6 .skip else keyRuns w 4 index 0 (loadTenant index w key)))) ∧
  (∀ (s : State) (d : Device) (rq w index : Nat) (b : List Byte) (fails : Option Nat), AsksKeys s rq w 5 index d →
    b = d.bytes (secArg d w) 256 →
    fails = firstFail [(secReach d w (secArg d w) 256, 5), (!d.poisoned (secArg d w) 256, 10),
      (blobOk b 2 index && (d.linkKeysAt index).gen < num b 0x10 4, 1), (num b 8 8 == d.reg .LNK_SERIAL 0, 2)] →
    (∀ code, fails = some code → code ≠ 0 → Gives (.linkKeyLoad rq w index) s d (keyRuns w 5 index code .skip)) ∧
    (fails = none → Gives (.linkKeyLoad rq w index) s d (match unwrapBlob d b with
      | none => keyRuns w 5 index 3 .skip
      | some key => if zeroAt key 32 32 then keyRuns w 5 index 0 (.all [
            putLinkKeys index { key := key.take 32, gen := num b 0x10 4, prevKey := (d.linkKeysAt index).key,
                                prevGen := (d.linkKeysAt index).gen, counter := 0 },
            countKeys, setF F.SEC_KEYSTATE_state 0 0])
          else keyRuns w 5 index 1 .skip))) ∧
  (∀ (s : State) (d : Device) (rq w index : Nat), AsksKeys s rq w 6 index d →
    (secReach d w (secArg d w) 512 = false → Gives (.attest rq w index) s d (keyRuns w 6 index 5 .skip)) ∧
    (secReach d w (secArg d w) 512 = true → d.poisoned (secArg d w) 48 = true →
      Gives (.attest rq w index) s d (keyRuns w 6 index 10 .skip)) ∧
    (secReach d w (secArg d w) 512 = true → d.poisoned (secArg d w) 48 = false →
      Gives (.attest rq w index) s d (keyRuns w 6 index 0 (withFree fun k =>
        store ((List.range 512).map (secArg d w + ·)) (reportBytes d (d.idKey.getD 0) index (d.bytes (secArg d w) 48) k))))) ∧
  (∀ (s : State) (d : Device) (rq w index : Nat), AsksKeys s rq w 7 index d →
    (secReach d w (secArg d w) 256 = false → Gives (.idRead rq w index) s d (keyRuns w 7 index 5 .skip)) ∧
    (secReach d w (secArg d w) 256 = true → Gives (.idRead rq w index) s d
      (keyRuns w 7 index 0 (store ((List.range 256).map (secArg d w + ·)) (identityRecord d))))) ∧
  (∀ (s : State) (d : Device) (rq w index : Nat) (b : List Byte) (fails : Option Nat), AsksKeys s rq w 8 index d →
    b = d.bytes (secArg d w) 144 →
    fails = firstFail [(secReach d w (secArg d w) 144, 5), (!d.poisoned (secArg d w) 144, 10), (rootMsgOk b, 1),
      (num b 8 8 == 0 || num b 8 8 == d.reg .LNK_SERIAL 0, 2), (!rootRefused d b, 9)] →
    (∀ code, fails = some code → code ≠ 0 → Gives (.rootMsg rq w index) s d (keyRuns w 8 index code .skip)) ∧
    (fails = none → Gives (.rootMsg rq w index) s d
      (if Config.ecdsaVerify (d.rootKeysAt (num b 7 1)) (Config.sha384 (b.take 0x30)) ((b.drop 0x30).take 96) then
        keyRuns w 8 index 0 (if num b 5 1 = 1 then revokeRoot (num b 6 1)
          else setF F.SEC_ENDORSE_MIN_min (num b 6 1) (num b 0x10 4))
       else keyRuns w 8 index 3 .skip))) ∧
  (∀ (s : State) (w : Nat), w < 33 → up s.dev = true →
    (∀ op index code, s.dev.secPendingAt w = some (op, index, code) →
      Does (.secCmdComplete w) s (.all [putSecPending w none, setF F.SEC_CMD_busy w 0, setF F.SEC_STATUS_code w code,
        setF F.SEC_STATUS_op w op, setF F.SEC_STATUS_index w index])) ∧
    (s.dev.secPendingAt w = none → Does (.secCmdComplete w) s .skip))

/-- CTX_KEY_WRITE is denied without the right; a write that enables a slot the context's partition does not hold is ignored and
shows NOT_HELD in the partition's SEC_STATUS, and any other is stored. ALARM_POLICY_WRITE only raises responses and never sets 3. TAMPER_TRIP
latches its class, logs it and acts as the response in force says: an erase zeroises the store, and with it or with a quarantine every core
stops, every ring is cancelled, every context is torn down with OWNER and the key commands in service end QUARANTINE; while the device
is off on VBAT only classes 2 to 4 trip, an erase acts at once and a quarantine is latched. VIN_SAMPLE counts the samples of 38 V or
more, declares VIN valid at the 65th, loses the keys where VBAT is below 1.9 V before or at it, and afterwards only shows a low
VBAT. DEBUG_NONCE_READ draws a nonce and sends it; DEBUG_CERTIFICATE draws one too and grants the level of a good certificate, after the
clearing for level 2, or counts a refusal; neither acts on a device that is off. -/
def Obligations.SecurityControl : Prop :=
  (∀ (s : State) (d : Device) (rq c v : Nat), c < 1024 → AsksAon s rq d →
    (bit (mayWrite d rq .SEC_CTX_KEY c) 31 = 0 → Gives (.ctxKeyWrite rq c v) s d denied) ∧
    (bit (mayWrite d rq .SEC_CTX_KEY c) 31 ≠ 0 → bit v 31 ≠ 1 → Gives (.ctxKeyWrite rq c v) s d (storeWrite rq .SEC_CTX_KEY c v)) ∧
    (∀ p, bit (mayWrite d rq .SEC_CTX_KEY c) 31 ≠ 0 → bit v 31 = 1 → ctxPart d c = some p →
      (holdsSlot d p (bits v 9 0) = true → Gives (.ctxKeyWrite rq c v) s d (storeWrite rq .SEC_CTX_KEY c v)) ∧
      (holdsSlot d p (bits v 9 0) = false → Gives (.ctxKeyWrite rq c v) s d (setF F.SEC_STATUS_code p 11))) ∧
    (bit (mayWrite d rq .SEC_CTX_KEY c) 31 ≠ 0 → bit v 31 = 1 → ctxPart d c = none → Gives (.ctxKeyWrite rq c v) s d .skip)) ∧
  (∀ (s : State) (d : Device) (rq v : Nat), AsksAon s rq d →
    (mayWrite d rq .SEC_ALARM_POLICY 0 = 0 → Gives (.alarmPolicyWrite rq v) s d denied) ∧
    (mayWrite d rq .SEC_ALARM_POLICY 0 ≠ 0 → Gives (.alarmPolicyWrite rq v) s d (.each (List.range 5) fun k =>
      .when (bits v (2 * k + 1) (2 * k) != 3 && tamperResponse d k < bits v (2 * k + 1) (2 * k))
        (setF (policyField k) 0 (bits v (2 * k + 1) (2 * k)))))) ∧
  (∀ (s : State) (k : Nat) (latch : Nat), k < 5 → latch = s.dev.fld F.SEC_TAMPER_latched 0 ||| 2 ^ k →
    (s.dev.off = 0 → tamperResponse s.dev k = 0 → Does (.tamperTrip k) s (.all [setF F.SEC_TAMPER_latched 0 latch,
      setF F.SEC_TAMPER_vbat_only 0 0, logError { severity := 2, source := 3, info := k }])) ∧
    (s.dev.off = 0 → 1 ≤ tamperResponse s.dev k → Does (.tamperTrip k) s (.all [setF F.SEC_TAMPER_latched 0 latch,
      setF F.SEC_TAMPER_vbat_only 0 0, logError { severity := 2, source := 3, info := k },
      .when (tamperResponse s.dev k == 2) (zeroiseStore 2),
      .obs fun d => .all [
        setF F.SEC_KEYSTATE_quarantine 0 1,
        .each (mapKeys d.cores fun _ k => k.state == 1 || k.state == 2 || k.state == 5 || k.state == 6) (fun core =>
          modCores core fun k => { k with state := 4, waiting := false, acquiring := false }),
        .each (d.listed .DMA_RING_BASE fun v => v % 2 == 1) cancelStart,
        .each ((List.range 1024).filter fun c => (ctxPart d c).isSome) fun c => teardown c codeOwner,
        .each (List.range 33) fun w => modSecPending w <| Option.map fun (op, index, code) =>
          (op, index, if 1 ≤ op && op ≤ 6 then 7 else code)]])) ∧
    (s.dev.off = 1 → 2 ≤ k → Does (.tamperTrip k) s (.all [setF F.SEC_TAMPER_latched 0 latch, setF F.SEC_TAMPER_vbat_only 0 1,
      .when (tamperResponse s.dev k == 2) (.seq (zeroiseStore 2) (putKeysLost true)),
      .when (1 ≤ tamperResponse s.dev k) (putQuarLatch true)])) ∧
    (s.dev.off = 1 → k < 2 → Does (.tamperTrip k) s .skip) ∧
    (s.dev.off = 2 → Does (.tamperTrip k) s (.all [setF F.SEC_TAMPER_latched 0 latch, setF F.SEC_TAMPER_vbat_only 0 0,
      .when (tamperResponse s.dev k == 2) (.seq (zeroiseStore 2) (putKeysLost true)),
      .when (1 ≤ tamperResponse s.dev k) (putQuarLatch true)])) ∧
    (s.dev.off = 3 → Does (.tamperTrip k) s .skip)) ∧
  (∀ (s : State) (vin vbat : Nat),
    (s.dev.vin.valid = true → Does (.vinSample vin vbat) s (setF F.SEC_KEYSTATE_vbat_low 0 (if vbat < 1900 then 1 else 0))) ∧
    (s.dev.vin.valid = false → 38000 ≤ vin → s.dev.vin.count + 1 ≠ 65 →
      Does (.vinSample vin vbat) s (.seq (.when (vbat < 1900) (loseKeys false)) (putVin ⟨false, s.dev.vin.count + 1⟩))) ∧
    (s.dev.vin.valid = false → 38000 ≤ vin → s.dev.vin.count + 1 = 65 →
      Does (.vinSample vin vbat) s (.seq (.when (vbat < 1900) (loseKeys false)) (putVin ⟨true, 0⟩))) ∧
    (s.dev.vin.valid = false → vin < 38000 →
      Does (.vinSample vin vbat) s (.seq (.when (vbat < 1900) (loseKeys true)) (putVin ⟨false, 0⟩)))) ∧
  (∀ (s : State),
    (up s.dev = true → Does .debugNonceRead s (freeBytes 32 fun n => .seq (putDebugNonce n)
      (modSent (· ++ [.management 2 0 (n.map (·.toNat))])))) ∧
    (up s.dev = false → Does .debugNonceRead s .skip)) ∧
  (∀ (s : State) (c : List Byte),
    (up s.dev = true → Does (.debugCertificate c) s (.seq (freeBytes 32 fun n => .seq (putDebugNonce n) .skip)
      (if certificateOk s.dev c then .all [
          .when (num c 5 1 == 2) clearForTest,
          setF F.SEC_KEYSTATE_debug_level 0 (max (s.dev.fld F.SEC_KEYSTATE_debug_level 0) (num c 5 1)),
          setF F.SEC_DEBUG_level 0 (max (s.dev.fld F.SEC_DEBUG_level 0) (num c 5 1))]
        else addSat F.SEC_DEBUG_refused 0 1))) ∧
    (up s.dev = false → Does (.debugCertificate c) s .skip))

/-- REPLAN applies the rules of margins to every bound cluster site, retires drifting phases, marks short lanes and records the table, in IDLE
and RUN only; PEAK_CHARGE charges a millisecond while some cluster runs at a peak step. SELF_TEST_CMD starts a command, is refused
while one runs and outside IDLE and RUN, ends at once where there is nothing to test, and is denied without the right; SELF_TEST_ABORT
stores its fields and ends the command, letting a slice in progress complete. CORE_TEST_SLICE ends a command whose cluster has no
site or whose budget has expired, waits for a pre-emption, passes over a fenced core, migrates a core to a free core site 16 and back
or else saves and restores its state, retires what fails, and last tests core site 16. FAULT_LOG_FLUSH writes unsaved entries;
STEWARD_TAKEOVER brings the standby in, and a second one, like STEWARD_DIE_LOSS, silences the device. -/
def Obligations.Health : Prop :=
  (∀ (s : State) (slack vmin drift eyes : List Nat), drift.all (· < 1456) = true → eyes.all (· < 1536) = true →
    (powered s.dev = true → (powerState s.dev = 2 ∨ powerState s.dev = 3) →
      Does (.replan slack vmin drift eyes) s (.all [
        .each ((List.range 153).filter fun i => (clusterOfSite s.dev i).isSome) (fun i =>
          replanSite i (vmin.getD i 0) fun p => slack.getD (i * 32 + p) 100),
        .each drift (fun x => .seq (putRetired (siteKey 7 x) true) (.obs fun d =>
          setF F.PWR_PHASE_failed (x / 8) (d.fld F.PWR_PHASE_failed (x / 8) ||| 2 ^ (x % 8)))),
        .each eyes (fun x => putLaneMarks x true), .obs fun d => .when (spareBody d != spareBody s.dev) saveSpare, saveMargin,
        setF F.AGE_STATUS_last_trigger 0 1, setF F.AGE_STATUS_hours 0 0, addWrap F.AGE_STATUS_replans 0 1])) ∧
    ((powered s.dev = false ∨ powerState s.dev ≠ 2 ∧ powerState s.dev ≠ 3) → Does (.replan slack vmin drift eyes) s .skip)) ∧
  (∀ (s : State),
    (∀ i, powered s.dev = true → i < 153 → clusterState s.dev i = 0 → 65 ≤ s.dev.fld F.CLK_CLU_STAT_step i →
      Does .peakCharge s (.all [putPeakMs (s.dev.peakMs + 1),
        setF F.AGE_PEAK_seconds 0 (min ((s.dev.peakMs + 1) / 1000) 4294967295),
        setF F.PWR_GOV_STAT_wear_spent 0 (if 1440000000 ≤ s.dev.peakMs + 1 then 1 else 0)])) ∧
    ((powered s.dev = false ∨ ∀ i, i < 153 → clusterState s.dev i ≠ 0 ∨ s.dev.fld F.CLK_CLU_STAT_step i < 65) → Does .peakCharge s .skip)) ∧
  (∀ (s : State) (d : Device) (rq v die cl : Nat) (left : List Nat), AsksAon s rq d →
    die = bits v 29 26 → cl = bits v 25 23 → left = testCores die cl (bits v 15 0) →
    (bit (mayWrite d rq .TST_CMD 0) 31 = 0 → Gives (.selfTestCmd rq v) s d denied) ∧
    (bit (mayWrite d rq .TST_CMD 0) 31 ≠ 0 → d.selfTest ≠ none → Gives (.selfTestCmd rq v) s d (setF F.TST_STATUS_state 0 4)) ∧
    (bit (mayWrite d rq .TST_CMD 0) 31 ≠ 0 → (d.off ≠ 0 ∨ powerState d ≠ 2 ∧ powerState d ≠ 3) →
      Gives (.selfTestCmd rq v) s d (setF F.TST_STATUS_state 0 4)) ∧
    (bit (mayWrite d rq .TST_CMD 0) 31 ≠ 0 → d.selfTest = none → d.off = 0 → (powerState d = 2 ∨ powerState d = 3) →
      ((clusterSite d die cl).isSome = true → (left ≠ [] ∨ bit v 22 ≠ 0) →
        Gives (.selfTestCmd rq v) s d (.all [storeWrite rq .TST_CMD 0 v, setReg .TST_RESULT 0 0, setReg .TST_STATUS 0 0,
          setF F.TST_STATUS_state 0 1, putSelfTest (some { die := die, cluster := cl, left := left, spare := bit v 22 == 1 })])) ∧
      ((clusterSite d die cl = none ∨ left = [] ∧ bit v 22 = 0) →
        Gives (.selfTestCmd rq v) s d (.all [storeWrite rq .TST_CMD 0 v, setReg .TST_RESULT 0 0, setReg .TST_STATUS 0 0,
          setF F.TST_STATUS_state 0 1, putSelfTest (some { die := die, cluster := cl, left := left, spare := bit v 22 == 1 }),
          testEnds 2 left])))) ∧
  (∀ (s : State) (d : Device) (rq v : Nat), AsksAon s rq d → bit (mayWrite d rq .TST_CMD 0) 30 = 0 →
    Gives (.selfTestAbort rq v) s d denied) ∧
  (∀ (s : State) (d : Device) (rq v : Nat), WritesAon s rq .TST_CMD 0 v 30 d →
    (∀ t, bit v 30 = 1 → d.selfTest = some t → t.started = false → Gives (.selfTestAbort rq v) s d (.all [putSelfTest none,
      setF F.TST_STATUS_state 0 3, setF F.TST_STATUS_not_run 0 (d.fld F.TST_STATUS_not_run 0 ||| coreMask t.left)])) ∧
    (∀ t, bit v 30 = 1 → d.selfTest = some t → t.started = true → Gives (.selfTestAbort rq v) s d (.seq
      (setF F.TST_STATUS_not_run 0 (d.fld F.TST_STATUS_not_run 0 ||| coreMask (t.left.drop 1)))
      (putSelfTest (some { t with left := t.left.take 1, spare := false, aborted := true })))) ∧
    ((bit v 30 ≠ 1 ∨ d.selfTest = none) → Gives (.selfTestAbort rq v) s d .skip)) ∧
  (∀ (s : State) (passed expired : Bool), (powered s.dev = false ∨ s.dev.selfTest = none) →
    Does (.coreTestSlice passed expired) s .skip) ∧
  (∀ (s : State) (passed expired : Bool) (t : SelfTest), powered s.dev = true → s.dev.selfTest = some t →
    (clusterSite s.dev t.die t.cluster = none → Does (.coreTestSlice passed expired) s (testEnds 2 t.left)) ∧
    (∀ q, clusterSite s.dev t.die t.cluster = some q → expired = true → t.started = false →
      Does (.coreTestSlice passed expired) s (testEnds 2 t.left)) ∧
    (∀ q, clusterSite s.dev t.die t.cluster = some q → (expired = false ∨ t.started = true) → t.left = [] →
      (t.spare = true → spareCoreFree s.dev q = true → passed = true →
        Does (.coreTestSlice passed expired) s (.seq (setF F.TST_STATUS_spare_passed 0 1) (testEnds 2 []))) ∧
      (t.spare = true → spareCoreFree s.dev q = true → passed = false → Does (.coreTestSlice passed expired) s (.all [
        setF F.TST_STATUS_spare_failed 0 1, retireNow 1 (q * 17 + 16), testEnds 2 []])) ∧
      ((t.spare = false ∨ spareCoreFree s.dev q = false) → Does (.coreTestSlice passed expired) s (testEnds 2 []))) ∧
    (∀ q core rest k site, clusterSite s.dev t.die t.cluster = some q → (expired = false ∨ t.started = true) → t.left = core :: rest →
      clusterSite s.dev (core / 128) (core / 16 % 8) = some q → k = s.dev.coresAt core → site = (coreSite s.dev core).getD 0 →
      (inPreempt s.dev core = true → Does (.coreTestSlice passed expired) s .skip) ∧
      (inPreempt s.dev core = false → k.fenced = true → t.started = false →
        Does (.coreTestSlice passed expired) s (.all [
          setF F.TST_STATUS_not_run 0 (s.dev.fld F.TST_STATUS_not_run 0 ||| coreMask [core]), nextSlice t])) ∧
      (inPreempt s.dev core = false → k.fenced = false → t.started = false → spareCoreFree s.dev q = true → k.loaded ≠ none →
        Does (.coreTestSlice passed expired) s (.seq (migrationStart core) (putSelfTest (some { t with started := true })))) ∧
      (inPreempt s.dev core = false → t.started = true → k.loaded ≠ none → (k.fenced = false ∨ k.state ≠ 0 ∧ k.state ≠ 3 ∧ k.state ≠ 4) →
        Does (.coreTestSlice passed expired) s .skip) ∧
      (inPreempt s.dev core = false → t.started = true → (k.loaded = none ∨ k.fenced = true ∧ (k.state = 0 ∨ k.state = 3 ∨ k.state = 4)) →
        spareCoreFree s.dev q = false →
        Does (.coreTestSlice passed expired) s (.seq (releaseCore core) (putSelfTest (some { t with started := false })))) ∧
      (inPreempt s.dev core = false → spareCoreFree s.dev q = true → (k.fenced = false ∨ t.started = true) →
        (k.loaded = none ∨ k.fenced = true ∧ (k.state = 0 ∨ k.state = 3 ∨ k.state = 4)) →
        (passed = true → Does (.coreTestSlice passed expired) s (.all [modCores core fun x => { x with fenced := true, state := k.state },
          migrationResume core true, modCores core fun x => { x with fenced := true, state := k.state }, migrationResume core false,
          sliceOver core true t])) ∧
        (passed = false → Does (.coreTestSlice passed expired) s (.all [modCores core fun x => { x with fenced := true, state := k.state },
          migrationResume core true, homeFails core site, sliceOver core false t]))) ∧
      (inPreempt s.dev core = false → k.fenced = false → t.started = false → spareCoreFree s.dev q = false →
        (∀ c save, k.ctx = some c → s.dev.fld F.CTX_RUN_state c = 2 → (save = match k.loaded with
            | some (_, leaf, prog) => saveRecord c core leaf prog
            | none => .skip) →
          ((k.state = 2 ∨ k.state = 0) → saveFits s.dev c = true → passed = true → Does (.coreTestSlice passed expired) s (.all [save,
            modCtxs c fun x => { x with saved := x.saved.filter (· != core) }, sliceOver core true t])) ∧
          ((k.state = 2 ∨ k.state = 0) → saveFits s.dev c = true → passed = false → Does (.coreTestSlice passed expired) s (.all [save,
            clusterFails core site, sliceOver core false t])) ∧
          ((k.state ≠ 2 ∧ k.state ≠ 0 ∨ saveFits s.dev c = false) → Does (.coreTestSlice passed expired) s .skip)) ∧
        ((k.ctx.filter fun c => s.dev.fld F.CTX_RUN_state c == 2) = none →
          (k.state ≤ 4 → k.state ≠ 1 → passed = true → Does (.coreTestSlice passed expired) s (.seq (clearTile core) (sliceOver core true t))) ∧
          (k.state ≤ 4 → k.state ≠ 1 → passed = false →
            Does (.coreTestSlice passed expired) s (.seq (clusterFails core site) (sliceOver core false t))) ∧
          ((k.state = 1 ∨ 5 ≤ k.state) → Does (.coreTestSlice passed expired) s .skip))))) ∧
  (∀ (s : State), (up s.dev = true → s.dev.flogSaved < s.dev.flogHead → Does .faultLogFlush s saveLog) ∧
    (up s.dev = false ∨ s.dev.flogHead ≤ s.dev.flogSaved → Does .faultLogFlush s .skip)) ∧
  (∀ (s : State) (mismatch : Bool) (r : Option Nat), r.all (· < 3) = true →
    (up s.dev = true → s.dev.fld F.STW_STEWARD_active 0 ≠ 1 →
      Does (.stewardTakeover mismatch r) s (.all [setF F.STW_STEWARD_active 0 1, addWrap F.STW_STEWARD_takeovers 0 1,
        .when mismatch (addSat F.STW_STEWARD_mismatches 0 1),
        if r = none then .skip else if r = some 0 then saveMargin else if r = some 1 then saveSpare else saveLog])) ∧
    (up s.dev = true → s.dev.fld F.STW_STEWARD_active 0 = 1 → Does (.stewardTakeover mismatch r) s (putOff 3)) ∧
    (up s.dev = false → Does (.stewardTakeover mismatch r) s .skip)) ∧
  (∀ (s : State), (up s.dev = true → Does .stewardDieLoss s (putOff 3)) ∧ (up s.dev = false → Does .stewardDieLoss s .skip))

/-- VIN_LOSS stops the device, tears the copy of the record or slot being written and clears what the device does not keep; a device in OFF only
loses its rails. PHASE_FAIL spends the spare phase, derates a regulator or turns it off with its load; a phase already replaced or marked is
no new failure. CLUSTER_CLOCK_STOP, CLUSTER_GATE and CLUSTER_WAKE move a cluster between its states, and act only from the states
and under the conditions named. -/
def Obligations.PowerStages : Prop :=
  (∀ (s : State) (torn : Option Nat) (tear : Eff), (torn = none ∧ tear = .skip ∨
      (∃ k < 3, torn = some k ∧ tear = putNvMargin (tornCopies (fun c => { c with intact := false }) s.dev.oldMargin k s.dev.nvMargin)) ∨
      (∃ k < 3, torn = some (3 + k) ∧ tear = putNvSpare (tornCopies (fun c => { c with intact := false }) s.dev.oldSpare k s.dev.nvSpare)) ∨
      (∃ k < 3, torn = some (6 + k) ∧ tear = putNvLog (tornCopies (fun c => { c with intact := false }) s.dev.oldLog k s.dev.nvLog))) →
    (s.dev.off = 0 → (∀ x, s.dev.fwPending = some x → x.1 ≠ 1) →
      Does (.vinLoss torn) s (.all [tear, tearCatalog, putUnclean true, modPowerFails (· + 1), clearVolatile, putOff 1,
        putVin ⟨false, 0⟩])) ∧
    (∀ slot code, s.dev.off = 0 → s.dev.fwPending = some (1, slot, code) →
      Does (.vinLoss torn) s (.all [tear, tearCatalog, .each (List.range 256) (fun i => putBootFlash (slot * 0x1000000 + i) 255),
        putUnclean true, modPowerFails (· + 1), clearVolatile, putOff 1, putVin ⟨false, 0⟩])) ∧
    (s.dev.off = 2 → Does (.vinLoss torn) s (.seq (putOff 1) (putVin ⟨false, 0⟩))) ∧
    (s.dev.off ≠ 0 → s.dev.off ≠ 2 → Does (.vinLoss torn) s (.all [clearVolatile, putOff 1, putVin ⟨false, 0⟩]))) ∧
  (∀ (s : State) (r phase : Nat), r < 182 → phase < 8 →
    ((powered s.dev = false ∨ s.dev.fld F.PWR_PHASE_off r ≠ 0) → Does (.phaseFail r phase) s .skip) ∧
    (powered s.dev = true → s.dev.fld F.PWR_PHASE_off r = 0 → bit (s.dev.fld F.PWR_PHASE_failed r) phase = 1 →
      (s.dev.fld F.PWR_PHASE_spare_used r = 0 → failedPhases s.dev r = 1 → phase ≠ 7 →
        Does (.phaseFail r phase) s (.all [setF F.PWR_PHASE_spare_used r 1, setF F.PWR_PHASE_spare_for r phase,
          logError { severity := 0, flags := 2, source := 1, site := r, subsite := phase }])) ∧
      (s.dev.fld F.PWR_PHASE_spare_used r = 0 → failedPhases s.dev r = 1 → phase = 7 →
        Does (.phaseFail r phase) s (logError { severity := 0, source := 1, site := r, subsite := 7 })) ∧
      ((s.dev.fld F.PWR_PHASE_spare_used r ≠ 0 ∨ failedPhases s.dev r ≠ 1) → Does (.phaseFail r phase) s .skip)) ∧
    (∀ fail, powered s.dev = true → s.dev.fld F.PWR_PHASE_off r = 0 → bit (s.dev.fld F.PWR_PHASE_failed r) phase ≠ 1 →
      fail = .all [setF F.PWR_PHASE_failed r (s.dev.fld F.PWR_PHASE_failed r ||| 2 ^ phase),
        putRetired (siteKey 7 (r * 8 + phase)) true, saveSpare] →
      (failedPhases s.dev r = 0 → phase ≠ 7 → Does (.phaseFail r phase) s (.all [fail,
        setF F.PWR_PHASE_spare_used r 1, setF F.PWR_PHASE_spare_for r phase,
        logError { severity := 0, flags := 2, source := 1, site := r, subsite := phase }])) ∧
      (failedPhases s.dev r = 0 → phase = 7 → Does (.phaseFail r phase) s (.seq fail
        (logError { severity := 0, source := 1, site := r, subsite := 7 }))) ∧
      (failedPhases s.dev r = 1 → 8 ≤ r → r < 161 → Does (.phaseFail r phase) s (.seq fail (.obs fun d => .all [
        setF F.PWR_PHASE_derated r 1, refreshBoostOk, logService 1 r 0xFFFF 0, setF F.CLK_CLU_STAT_capped (r - 8) 1,
        setF F.CLK_CLU_STAT_step (r - 8) (min 56 (d.fld F.CLK_CLU_STAT_step (r - 8)))]))) ∧
      (failedPhases s.dev r = 1 → (r < 8 ∨ 161 ≤ r) → Does (.phaseFail r phase) s (.seq fail (.obs fun _ => .all [
        setF F.PWR_PHASE_derated r 1, refreshBoostOk, logService 1 r 0xFFFF 0, setF F.PWR_GOV_STAT_boost 0 0]))) ∧
      (2 ≤ failedPhases s.dev r → Does (.phaseFail r phase) s (.all [fail, setF F.PWR_PHASE_off r 1,
        logError { severity := 2, source := 1, site := r, subsite := phase }, retireLoad r])))) ∧
  (∀ (s : State) (q : Nat), q < 153 →
    (∀ cl, clusterOfSite s.dev q = some cl → working s.dev = true → clusterState s.dev q = 0 →
      (∀ k < 16, (s.dev.coresAt (cl * 16 + k)).state = 0 ∨ (s.dev.coresAt (cl * 16 + k)).state = 2) →
      Does (.clusterClockStop q) s (.seq (setF F.CLK_CLU_STAT_state q 1) refreshIdle)) ∧
    ((clusterOfSite s.dev q = none ∨ working s.dev = false ∨ clusterState s.dev q ≠ 0) → Does (.clusterClockStop q) s .skip) ∧
    (∀ cl k, clusterOfSite s.dev q = some cl → k < 16 → (s.dev.coresAt (cl * 16 + k)).state ≠ 0 →
      (s.dev.coresAt (cl * 16 + k)).state ≠ 2 → Does (.clusterClockStop q) s .skip)) ∧
  (∀ (s : State) (q : Nat), q < 153 →
    (powered s.dev = true → clusterState s.dev q = 1 → s.dev.fld F.CLK_CLU_CTRL_gate_ms q ≠ 0 →
      Does (.clusterGate q) s (.all [setF F.CLK_CLU_STAT_state q 2, putXlats q [], refreshIdle])) ∧
    ((powered s.dev = false ∨ clusterState s.dev q ≠ 1 ∨ s.dev.fld F.CLK_CLU_CTRL_gate_ms q = 0) →
      Does (.clusterGate q) s .skip)) ∧
  (∀ (s : State) (q : Nat), q < 153 →
    (∀ cl, working s.dev = true → s.dev.tripped = false → clusterOfSite s.dev q = some cl →
      clusterSite s.dev (cl / 8) (cl % 8) = some q → (clusterState s.dev q = 1 ∨ clusterState s.dev q = 2 ∨ clusterState s.dev q = 3) →
      Does (.clusterWake q) s (.all [setF F.CLK_CLU_STAT_state q 0, addSat F.CLK_CLU_STAT_wakes q 1, releaseHeld cl, refreshIdle])) ∧
    ((clusterOfSite s.dev q = none ∨ working s.dev = false ∨ s.dev.tripped = true) → Does (.clusterWake q) s .skip) ∧
    (∀ cl, clusterOfSite s.dev q = some cl → clusterSite s.dev (cl / 8) (cl % 8) = some q →
      (clusterState s.dev q = 0 ∨ 4 ≤ clusterState s.dev q) → Does (.clusterWake q) s .skip))

/-- GOVERNOR_TICK takes its readings and sets the ceiling and every running cluster's step: outside boost, on leaving boost for the first
limiter reached, and in boost. JUNCTION_TRIP stops the cluster clocks and TRIP_RELEASE resumes them at step 0; REST_ENTRY and OFF_ENTRY
wait for collectives and for a trip, ask the cores to stop, and complete their entry once they have, OFF_ENTRY with the shut-down
test unless its budget is 0; REST_COLLECTIVE_TIMEOUT withdraws what is in flight; WAKE and WAKE_TIMER_EXPIRY by an enabled source leave
REST or abandon its entry; AON_REF_LOSS falls back to the crystal. In any other state each leaves all as it was. -/
def Obligations.GovernorAndSleep : Prop :=
  (∀ (s : State) (vin iin power tj : Nat) (loads pct : List Nat),
    (∀ d top sust most n, powered s.dev = true →
      (Eff.seq (takeReadings vin iin power tj pct) (countWindow power)).run s.dev = d →
      top = (if d.fld F.PWR_GOV_STAT_wear_spent 0 = 1 then 64 else 72) →
      sust = ceilingFor d power loads top (d.fld F.PWR_LIMIT_sustained 0 * 10) →
      most = ceilingFor d power loads top (min (d.fld F.PWR_LIMIT_supply 0 * 10) (min (vin * 2) (firstStage d))) →
      n = boostLimiter d iin power tj →
      (d.fld F.PWR_GOV_STAT_boost 0 ≠ 1 → boostMay d tj = false →
        Gives (.governorTick vin iin power tj loads pct) s d (.all [modGov fun g => { g with sust := sust },
          governOutside tj sust, applyCeiling])) ∧
      (d.fld F.PWR_GOV_STAT_boost 0 ≠ 1 → boostMay d tj = true →
        Gives (.governorTick vin iin power tj loads pct) s d (.all [modGov fun g => { g with sust := sust },
          setF F.PWR_GOV_STAT_boost 0 1, setF F.PWR_GOV_STAT_ceiling 0 most, applyCeiling])) ∧
      (d.fld F.PWR_GOV_STAT_boost 0 = 1 → n ≠ 0 →
        Gives (.governorTick vin iin power tj loads pct) s d (.all [modGov fun g => { g with sust := sust },
          setF F.PWR_GOV_STAT_boost 0 0, setF F.PWR_GOV_STAT_ceiling 0 sust, countLimiter n, applyCeiling])) ∧
      (d.fld F.PWR_GOV_STAT_boost 0 = 1 → n = 0 →
        Gives (.governorTick vin iin power tj loads pct) s d (.all [modGov fun g => { g with sust := sust },
          setF F.PWR_GOV_STAT_boost 0 1, setF F.PWR_GOV_STAT_ceiling 0 most, applyCeiling]))) ∧
    (powered s.dev = false → Does (.governorTick vin iin power tj loads pct) s .skip)) ∧
  (∀ (s : State),
    (powered s.dev = true → s.dev.tripped = false → Does .junctionTrip s (.all [putTripped true,
      addSat F.PWR_GOV_CNT_trips 0 1, logError { severity := 2, source := 2 }])) ∧
    ((powered s.dev = false ∨ s.dev.tripped = true) → Does .junctionTrip s .skip) ∧
    (s.dev.tripped = true → Does .tripRelease s (.all [putTripped false, setF F.PWR_GOV_STAT_ceiling 0 0,
      setF F.PWR_GOV_STAT_boost 0 0, .each (List.range 153) (fun q => setF F.CLK_CLU_STAT_step q 0),
      .each (List.range 128) releaseHeld])) ∧
    (s.dev.tripped = false → Does .tripRelease s .skip)) ∧
  (∀ (s : State) (slack vmin drift eyes : List Nat), drift.all (· < 1456) = true → eyes.all (· < 1536) = true →
    (s.dev.off = 0 → powerState s.dev = 4 → (mapKeys s.dev.colOps fun _ o => o.isSome) = [] → s.dev.tripped = false →
      ((halted s.dev = true ∨ coresBusy s.dev = false) →
        Does (.restEntry slack vmin drift eyes) s (enterRest slack vmin drift eyes)) ∧
      (halted s.dev = false → coresBusy s.dev = true →
        Does (.restEntry slack vmin drift eyes) s (.seq (modRestCores (· ++ coresToStop s.dev))
          (.each (coresToStop s.dev) fun core => modCores core fun k =>
            { k with stopReq := true, state := if k.state == 2 then 3 else k.state })))) ∧
    ((s.dev.off ≠ 0 ∨ powerState s.dev ≠ 4 ∨ (mapKeys s.dev.colOps fun _ o => o.isSome) ≠ [] ∨ s.dev.tripped = true) →
      Does (.restEntry slack vmin drift eyes) s .skip)) ∧
  (∀ (s : State) (entries : List Nat), entries = (s.dev.colOps.filterMap fun e => e.2.map (·.entry)).dedup →
    (s.dev.off = 0 → (powerState s.dev = 4 ∨ powerState s.dev = 6) → entries ≠ [] →
      Does .restCollectiveTimeout s (.seq (.each entries fun g => withdraw g 2) (setF F.PWR_STATE_last_result 0 2))) ∧
    ((s.dev.off ≠ 0 ∨ powerState s.dev ≠ 4 ∧ powerState s.dev ≠ 6 ∨ entries = []) → Does .restCollectiveTimeout s .skip)) ∧
  (∀ (s : State) (source : Nat) (ports dq ca : List Nat), source < 4 → ports.all (· < 96) = true →
    dq.all (· < 512) = true → ca.all (· < 512) = true →
    (s.dev.off = 0 → powerState s.dev = 1 → wakeEnabled s.dev source = true →
      Does (.wake source ports dq ca) s (.all [setF F.PWR_WAKE_last 0 source, setPower 5, trainAll dq ca,
        restorePorts ports, setPower 3, resumeCores, withFree fun t => setF F.PWR_TIMES_wake 0 (t % 65536), refreshIdle])) ∧
    (s.dev.off = 0 → powerState s.dev = 4 → wakeEnabled s.dev source = true →
      Does (.wake source ports dq ca) s (.all [setF F.PWR_STATE_last_result 0 1, setPower 3, resumeCores, refreshIdle])) ∧
    ((s.dev.off ≠ 0 ∨ wakeEnabled s.dev source = false ∨ powerState s.dev ≠ 1 ∧ powerState s.dev ≠ 4) →
      Does (.wake source ports dq ca) s .skip)) ∧
  (∀ (s : State),
    (s.dev.off = 0 → powerState s.dev = 1 → s.dev.fld F.PWR_WAKE_TIMER_seconds 0 ≠ 0 →
      Does .wakeTimerExpiry s (.seq (setF F.PWR_WAKE_TIMER_seconds 0 0) (.obs fun d =>
        .when (wakeEnabled d 2) (withLanes (wakeUp 2 d.restLinks))))) ∧
    ((s.dev.off ≠ 0 ∨ powerState s.dev ≠ 1 ∨ s.dev.fld F.PWR_WAKE_TIMER_seconds 0 = 0) → Does .wakeTimerExpiry s .skip)) ∧
  (∀ (s : State) (n : Nat) (failed cores bad : List Nat), failed.all (· < 13005) = true → cores.all (· < 2601) = true →
    bad.all (· < 2601) = true →
    (s.dev.off = 0 → powerState s.dev = 6 → (mapKeys s.dev.colOps fun _ o => o.isSome) = [] → s.dev.tripped = false →
      ((halted s.dev = true ∨ coresBusy s.dev = false) → s.dev.fld F.TST_SHUTDOWN_BUDGET_budget_ms 0 = 0 →
        Does (.offEntry n failed cores bad) s (.all [saveSpare, saveMargin, saveLog, clearVolatile, putOff 2, putUnclean false])) ∧
      ((halted s.dev = true ∨ coresBusy s.dev = false) → s.dev.fld F.TST_SHUTDOWN_BUDGET_budget_ms 0 ≠ 0 →
        Does (.offEntry n failed cores bad) s (.all [shutdownTest (min n 13005) failed cores bad,
          .obs fun d => putLastPass (min n 13005,
            min 1023 ((failed.filter ((testOrder s.dev).take n).contains).length +
              (bad.filter (testedCores s.dev n cores).contains).length),
            min 255 ((d.ages.map (·.2)).foldl max 0)),
          saveSpare, saveMargin, saveLog, clearVolatile, putOff 2, putUnclean false])) ∧
      (halted s.dev = false → coresBusy s.dev = true →
        Does (.offEntry n failed cores bad) s (.seq (modRestCores (· ++ coresToStop s.dev))
          (.each (coresToStop s.dev) fun core => modCores core fun k =>
            { k with stopReq := true, state := if k.state == 2 then 3 else k.state })))) ∧
    ((s.dev.off ≠ 0 ∨ powerState s.dev ≠ 6 ∨ (mapKeys s.dev.colOps fun _ o => o.isSome) ≠ [] ∨ s.dev.tripped = true) →
      Does (.offEntry n failed cores bad) s .skip)) ∧
  (∀ (s : State),
    (up s.dev = true → s.dev.fld F.CLK_AON_ext_ref 0 = 1 →
      Does .aonRefLoss s (.seq (setF F.CLK_AON_ext_ref 0 0) (setF F.CLK_AON_ref_lost 0 1))) ∧
    ((up s.dev = false ∨ s.dev.fld F.CLK_AON_ext_ref 0 ≠ 1) → Does .aonRefLoss s .skip))

/-- HALT_ASSERT halts a device that is not halted, records which channel was first and whether in REST, and counts it; of a halted device it only
shows the channels. HALT_RELEASE ends a halt that no fault holds, adds what was held and may wake the device. HALT_DISCREPANCY
latches the fault and halts, once. HALT_CLEAR has no effect without a fault, is refused while a channel reads asserted, and else clears the fault
and ends the halt as HALT_RELEASE does; without the right it is denied. A device that is off senses none of these. -/
def Obligations.HaltInput : Prop :=
  (∀ (s : State) (d : Device) (a b : Bool) (cycles : Nat), cycles < 250001 →
    (Eff.when (cycles != 0) (setF F.HALT_STATUS_last_disagree 0 cycles)).run s.dev = d →
    (s.dev.off = 0 → (a || b) = true → halted d = false →
      Gives (.haltAssert a b cycles) s d (.all [setF F.HALT_STATUS_a 0 (if a then 1 else 0), setF F.HALT_STATUS_b 0 (if b then 1 else 0),
        setF F.HALT_STATUS_halted 0 1, setF F.HALT_STATUS_in_rest 0 (if d.off == 0 && powerState d == 1 then 1 else 0),
        setF F.HALT_STATUS_first 0 (if a && b then 3 else if a then 1 else 2), addSat F.HALT_CTRL_halts 0 1, haltEvent])) ∧
    (s.dev.off = 0 → (a || b) = true → halted d = true →
      Gives (.haltAssert a b cycles) s d (.seq (setF F.HALT_STATUS_a 0 (if a then 1 else 0)) (setF F.HALT_STATUS_b 0 (if b then 1 else 0)))) ∧
    ((s.dev.off ≠ 0 ∨ (a || b) = false) → Does (.haltAssert a b cycles) s .skip)) ∧
  (∀ (s : State) (d : Device) (cycles : Nat), cycles < 250001 →
    (Eff.when (cycles != 0) (setF F.HALT_STATUS_last_disagree 0 cycles)).run s.dev = d →
    (s.dev.off = 0 → halted d = true → d.fld F.HALT_STATUS_fault 0 ≠ 1 →
      Gives (.haltRelease cycles) s d (.all [setF F.HALT_STATUS_a 0 0, setF F.HALT_STATUS_b 0 0, setF F.HALT_STATUS_halted 0 0,
        haltEvent, .each (List.range 128) releaseHeld,
        .when (d.fld F.HALT_STATUS_in_rest 0 == 1 && wakeEnabled d 3) (wakeWhole 3)])) ∧
    (s.dev.off = 0 → halted d = true → d.fld F.HALT_STATUS_fault 0 = 1 →
      Gives (.haltRelease cycles) s d (.seq (setF F.HALT_STATUS_a 0 0) (setF F.HALT_STATUS_b 0 0))) ∧
    (s.dev.off = 0 → halted d = false → d.fld F.HALT_STATUS_fault 0 ≠ 1 →
      Gives (.haltRelease cycles) s d (.seq (setF F.HALT_STATUS_a 0 0) (setF F.HALT_STATUS_b 0 0))) ∧
    (s.dev.off = 0 → Gives (.haltRelease cycles) s d (haltInputs false false)) ∧
    (s.dev.off ≠ 0 → Does (.haltRelease cycles) s .skip)) ∧
  (∀ (s : State) (aOnly : Bool),
    (s.dev.off = 0 → s.dev.fld F.HALT_STATUS_fault 0 = 0 → halted s.dev = true →
      Does (.haltDiscrepancy aOnly) s (.all [setF F.HALT_STATUS_a 0 (if aOnly then 1 else 0), setF F.HALT_STATUS_b 0 (if aOnly then 0 else 1),
        setF F.HALT_STATUS_fault 0 1, setF F.HALT_STATUS_last_disagree 0 250001, logError { severity := 2 }, haltEvent])) ∧
    (s.dev.off = 0 → s.dev.fld F.HALT_STATUS_fault 0 = 0 → halted s.dev = false →
      Does (.haltDiscrepancy aOnly) s (.all [setF F.HALT_STATUS_a 0 (if aOnly then 1 else 0), setF F.HALT_STATUS_b 0 (if aOnly then 0 else 1),
        setF F.HALT_STATUS_halted 0 1, setF F.HALT_STATUS_in_rest 0 (if powerState s.dev = 1 then 1 else 0),
        setF F.HALT_STATUS_first 0 (if aOnly then 1 else 2), addSat F.HALT_CTRL_halts 0 1, haltEvent,
        setF F.HALT_STATUS_fault 0 1, setF F.HALT_STATUS_last_disagree 0 250001, logError { severity := 2 }, haltEvent])) ∧
    ((s.dev.off ≠ 0 ∨ s.dev.fld F.HALT_STATUS_fault 0 ≠ 0) → Does (.haltDiscrepancy aOnly) s .skip)) ∧
  (∀ (s : State) (d : Device) (rq v : Nat), AsksAon s rq d → bit (mayWrite d rq .HALT_CTRL 0) 31 ≠ 1 →
    Gives (.haltClear rq v) s d denied) ∧
  (∀ (s : State) (d : Device) (rq v : Nat), WritesAon s rq .HALT_CTRL 0 v 31 d →
    ((bit v 31 ≠ 1 ∨ d.fld F.HALT_STATUS_fault 0 ≠ 1) → Gives (.haltClear rq v) s d .skip) ∧
    (bit v 31 = 1 → d.fld F.HALT_STATUS_fault 0 = 1 → (d.fld F.HALT_STATUS_a 0 = 1 ∨ d.fld F.HALT_STATUS_b 0 = 1) →
      Gives (.haltClear rq v) s d (setF F.HALT_CTRL_clear_refused 0 1)) ∧
    (bit v 31 = 1 → d.fld F.HALT_STATUS_fault 0 = 1 → d.fld F.HALT_STATUS_a 0 ≠ 1 → d.fld F.HALT_STATUS_b 0 ≠ 1 →
      Gives (.haltClear rq v) s d (.all [setF F.HALT_CTRL_clear_refused 0 0, setF F.HALT_STATUS_fault 0 0,
        haltInputs false false])))

/-- POWER_ON_SEQUENCE runs the steps of a start, in their order, once VIN is valid, or from reset; with no source of its clock, and in any other
state, nothing happens. DEV_RESET with its key tears every context down, resets and runs steps 3 to 10; with another key it has
no effect, and without the right it is denied. A firmware command is denied without the right and answers BUSY while one is in progress;
FW_WRITE_SLOT and FW_PREFER_SLOT act as their checks allow, FW_COMMIT_MINVER raises the minimum, and FW_CTRL_COMPLETE reports. In recovery
mode RECOVERY_CHUNK writes slot A, and after the last a slot A that passes is preferred and a DEV reset follows. -/
def Obligations.StartsAndFirmware : Prop :=
  (∀ (s : State) (e : Env) (start : Eff), e.ok = true → start = .all [
      haltInputs e.haltA e.haltB, stepThree, trainHeld, readBoard e.board e.plate, stepFive e,
      .obs fun d => if d.fld F.STW_BOOT_recovery 0 == 1 then .seq enterRecovery (setF F.STW_PCIE_state 0 3) else .all [
        stepSix e, stepSeven e, stepEight e, stepNine e,
        setF F.PWR_WAKE_last 0 0xF, setF F.STW_BOOT_step 0 10, refreshIdle]] →
    (e.aonClock ≠ 0 → s.dev.off = 1 → s.dev.vin.valid = true → Does (.powerOnSequence e) s (.seq (stepTwo e) start)) ∧
    (e.aonClock ≠ 0 → s.dev.off = 0 → s.dev.fld F.STW_BOOT_step 0 = 0 → s.dev.fld F.STW_BOOT_recovery 0 = 0 →
      Does (.powerOnSequence e) s (.all [clearVolatile, stepTwo e, start])) ∧
    ((e.aonClock = 0 ∨ s.dev.off = 0 ∧ (s.dev.fld F.STW_BOOT_step 0 ≠ 0 ∨ s.dev.fld F.STW_BOOT_recovery 0 ≠ 0) ∨
        s.dev.off = 1 ∧ s.dev.vin.valid = false ∨ 2 ≤ s.dev.off) → Does (.powerOnSequence e) s .skip) ∧
    (∀ d rq v, AsksAon s rq d →
      (mayWrite d rq .STW_DEVRESET 0 = 0 → Gives (.devReset rq v e) s d denied) ∧
      (mayWrite d rq .STW_DEVRESET 0 ≠ 0 → bit v 31 = 1 → bits v 7 0 = 0xA7 →
        Gives (.devReset rq v e) s d (.all [
          .each ((List.range 1024).filter fun c => (ctxPart d c).isSome && d.fld F.CTX_RUN_state c != 5)
            (fun c => tearWhole c codeOwner),
          .each ((List.range 2).filter fun q => d.fld F.STW_PCIE_state q != 0) (fun q => putPciHeld q true),
          clearVolatile, drawNonce fun _ => .skip, start])) ∧
      (mayWrite d rq .STW_DEVRESET 0 ≠ 0 → (bit v 31 ≠ 1 ∨ bits v 7 0 ≠ 0xA7) → Gives (.devReset rq v e) s d .skip))) ∧
  (∀ (s : State) (d : Device) (rq slot op : Nat) (flashOk : Bool) (c : Instr), (c, op) ∈ [(.fwWriteSlot rq slot flashOk, 1),
      (.fwPreferSlot rq slot flashOk, 2), (.fwCommitMinver rq slot, 3)] → slot < 2 → AsksAon s rq d →
    (mayWrite d rq .STW_FW_CTRL 0 = 0 → Gives c s d denied) ∧
    (mayWrite d rq .STW_FW_CTRL 0 ≠ 0 → d.fld F.STW_FW_CTRL_busy 0 = 1 →
      Gives c s d (.seq (storeWrite rq .STW_FW_CTRL 0 (fwValue op slot)) (setF F.STW_FW_CTRL_result 0 7)))) ∧
  (∀ (s : State) (d : Device) (rq slot a len n code : Nat) (img : List Byte) (flashOk : Bool), slot < 2 → AsksAon s rq d →
    mayWrite d rq .STW_FW_CTRL 0 ≠ 0 → d.fld F.STW_FW_CTRL_busy 0 ≠ 1 →
    a = d.fld F.STW_FW_SRC_addr 0 * 4096 → len = num (d.bytes a 256) 8 4 →
    n = (if len % 4096 == 0 && 256 ≤ len && len ≤ 0x1000000 then len else 256) → img = d.bytes a n →
    code = (firstFail [(d.fld F.STW_FW_STATUS_running_slot 0 != slot, 8), (dramRange a n && !d.poisoned a n, 9),
      (fwCheck d img == 0, fwCheck d img), (flashOk, 6)]).getD 0 →
    Gives (.fwWriteSlot rq slot flashOk) s d (.all [storeWrite rq .STW_FW_CTRL 0 (fwValue 1 slot),
      .when (code == 0) (.seq (.upd (.bootFlashDrop fun k => k / 0x1000000 == slot)) (writeFlash (slotBase slot) img)),
      setF F.STW_FW_CTRL_busy 0 1, putFwPending (some (1, slot, code))])) ∧
  (∀ (s : State) (d : Device) (rq slot : Nat) (flashOk : Bool), slot < 2 → AsksAon s rq d →
    mayWrite d rq .STW_FW_CTRL 0 ≠ 0 → d.fld F.STW_FW_CTRL_busy 0 ≠ 1 →
    (∀ code, code = (if slotCheck d slot ≠ 0 then 1 else if flashOk then 0 else 6) → Gives (.fwPreferSlot rq slot flashOk) s d (.all [
      storeWrite rq .STW_FW_CTRL 0 (fwValue 2 slot), .when (code == 0) (preferSlot slot), setF F.STW_FW_CTRL_busy 0 1,
      putFwPending (some (2, slot, code))])) ∧
    Gives (.fwCommitMinver rq slot) s d (.all [storeWrite rq .STW_FW_CTRL 0 (fwValue 3 slot),
      setF F.STW_FW_MINVER_minver 0 (max (d.fld F.STW_FW_MINVER_minver 0) d.fwVersion), setF F.STW_FW_CTRL_result 0 0])) ∧
  (∀ (s : State),
    (∀ op slot code, up s.dev = true → s.dev.fwPending = some (op, slot, code) →
      Does .fwCtrlComplete s (.all [putFwPending none, setF F.STW_FW_CTRL_busy 0 0, setF F.STW_FW_CTRL_result 0 code])) ∧
    ((up s.dev = false ∨ s.dev.fwPending = none) → Does .fwCtrlComplete s .skip)) ∧
  (∀ (s : State) (offset : Nat) (data : List Byte) (last : Bool) (e : Env), data.length < 32769 → e.ok = true →
    (s.dev.off = 0 → s.dev.fld F.STW_BOOT_recovery 0 = 1 → offset + data.length ≤ 0x1000000 → last = false →
      Does (.recoveryChunk offset data last e) s (.all [putRecBuf data, putRecCmd (offset, data.length), writeFlash offset data])) ∧
    (∀ d, s.dev.off = 0 → s.dev.fld F.STW_BOOT_recovery 0 = 1 → offset + data.length ≤ 0x1000000 → last = true →
      (Eff.all [putRecBuf data, putRecCmd (offset, data.length), writeFlash offset data]).run s.dev = d →
      Gives (.recoveryChunk offset data last e) s d (if slotCheck d 0 = 0 then .seq (preferSlot 0) (devResetNow e) else .skip)) ∧
    ((s.dev.off ≠ 0 ∨ s.dev.fld F.STW_BOOT_recovery 0 ≠ 1 ∨ 0x1000000 < offset + data.length) →
      Does (.recoveryChunk offset data last e) s .skip))

/-- PERST_RELEASE begins training at a port with a reference clock, at once or, of a device that is off, at its next start. CONFIG_REQUEST is answered
Request Retry Status before step 9, an Unsupported Request for a function the port does not have, in recovery mode for all but function
0, and else completes. VF_ENABLE enables virtual functions. PORT_RESET and PF_FLR end what the port's functions own and VF_FLR what one virtual
function owns; in recovery mode a PORT_RESET only resets the link. BAR4_ACCESS reads and writes DRAM, is an Unsupported Request elsewhere, is held where
the memory is, and is answered 0 and logged by a device in REST that it does not wake. In any other state each leaves all as
it was. -/
def Obligations.HostPorts : Prop :=
  (∀ (s : State) (q rate width : Nat) (flit : Bool), q < 2 → rate < 6 → width < 5 →
    (s.dev.off = 0 → Does (.perstRelease q true rate width flit) s (.all [setF F.STW_PCIE_state q 1, setF F.STW_PCIE_rate q rate,
      setF F.STW_PCIE_width q (2 ^ width), setF F.STW_PCIE_flit q (if flit then 1 else 0)])) ∧
    ((s.dev.off = 1 ∨ s.dev.off = 2) → Does (.perstRelease q true rate width flit) s (putPciHeld q true)) ∧
    (3 ≤ s.dev.off → Does (.perstRelease q true rate width flit) s .skip) ∧
    Does (.perstRelease q false rate width flit) s .skip) ∧
  (∀ (s : State) (q fn st : Nat) (write : Bool) (seen : Eff), q < 2 → fn < 1024 → st = s.dev.fld F.STW_PCIE_state q →
    seen = .when (st == 1) (setF F.STW_PCIE_state q 2) →
    ((s.dev.off ≠ 0 ∨ st = 0) → Does (.configRequest q fn write) s .skip) ∧
    (s.dev.off = 0 → st ≠ 0 → st ≠ 3 → s.dev.fld F.STW_BOOT_step 0 < 9 →
      Does (.configRequest q fn write) s (.seq seen (modSent (· ++ [.completion (q * 1024 + fn) 2 0])))) ∧
    (s.dev.off = 0 → st ≠ 0 → (st = 3 ∨ 9 ≤ s.dev.fld F.STW_BOOT_step 0) →
      (fn ≠ 0 → (s.dev.fld F.STW_PCIE_vfs q < fn ∨ st = 3) →
        Does (.configRequest q fn write) s (.seq seen (modSent (· ++ [.completion (q * 1024 + fn) 1 0])))) ∧
      ((fn = 0 ∨ fn ≤ s.dev.fld F.STW_PCIE_vfs q ∧ st ≠ 3) → write = true →
        Does (.configRequest q fn write) s (.seq seen (modSent (· ++ [.completion (q * 1024 + fn) 0 0])))) ∧
      ((fn = 0 ∨ fn ≤ s.dev.fld F.STW_PCIE_vfs q ∧ st ≠ 3) → write = false →
        Does (.configRequest q fn write) s (.seq seen (withFree fun v => modSent (· ++ [.completion (q * 1024 + fn) 0 v])))))) ∧
  (∀ (s : State) (q n : Nat), q < 2 → n < 513 →
    (s.dev.off = 0 → 9 ≤ s.dev.fld F.STW_BOOT_step 0 → s.dev.fld F.STW_PCIE_state q = 2 →
      Does (.vfEnable q n) s (setF F.STW_PCIE_vfs q n)) ∧
    ((s.dev.off ≠ 0 ∨ s.dev.fld F.STW_BOOT_step 0 < 9 ∨ s.dev.fld F.STW_PCIE_state q ≠ 2) → Does (.vfEnable q n) s .skip)) ∧
  (∀ (s : State) (q : Nat) (ends : Eff), q < 2 → ends = .all [tearOwned ((List.range 512).map (q * 512 + ·)),
      .obs fun d => .each (ownedParts d fun fn => fn / 1024 == q) resetPartition,
      setF F.STW_PCIE_vfs q 0, setReg .STW_PCIE_BAR4 q 0, .upd (.msixDrop fun k => k / 4 == q)] →
    (∀ kind st, kind < 3 → st = (if kind == 1 && s.dev.fld F.STW_PCIE_state q != 0 then 1 else 0) →
      (s.dev.off = 0 → s.dev.fld F.STW_BOOT_recovery 0 = 0 →
        Does (.portReset q kind) s (.seq ends (setF F.STW_PCIE_state q st))) ∧
      (s.dev.off = 0 → s.dev.fld F.STW_BOOT_recovery 0 ≠ 0 → Does (.portReset q kind) s (setF F.STW_PCIE_state q st)) ∧
      (s.dev.off ≠ 0 → Does (.portReset q kind) s .skip)) ∧
    (s.dev.off = 0 → s.dev.fld F.STW_BOOT_recovery 0 = 0 → Does (.pfFlr q) s ends) ∧
    ((s.dev.off ≠ 0 ∨ s.dev.fld F.STW_BOOT_recovery 0 ≠ 0) → Does (.pfFlr q) s .skip) ∧
    (∀ v c, v < 512 → c = q * 512 + v →
      (s.dev.off = 0 → s.dev.fld F.STW_BOOT_recovery 0 = 0 → Does (.vfFlr q v) s (.all [
        .when ((ctxPart s.dev c).isSome && s.dev.fld F.CTX_RUN_state c != 5) (.seq (failHost c) (tearWhole c codeOwner)),
        resetCtxRegs c, resetRegs (fun r i => (r == Reg.CTX_RUN.code || r == Reg.CTX_FAULT.code) && i == c), putCtxs c {},
        .upd (.dbBindDrop fun k => k / 256 == c),
        .obs fun d => .each (ownedParts d fun fn => fn == q * 1024 + v + 1) resetPartition])) ∧
      ((s.dev.off ≠ 0 ∨ s.dev.fld F.STW_BOOT_recovery 0 ≠ 0) → Does (.vfFlr q v) s .skip))) ∧
  (∀ (s : State) (q offset len : Nat) (data : Option (List Byte)) (wakes : Bool), q < 2 →
    wakes = (wakeEnabled s.dev 0 && s.dev.fld F.PWR_WAKE_auto 0 == 1) →
    (answering s.dev (rqOf (q * 1024)) = false → Does (.bar4Access q offset len data) s .skip) ∧
    (answering s.dev (rqOf (q * 1024)) = true → powered s.dev = false → (powerState s.dev ≠ 1 ∨ wakes = false) →
      (data = none → Does (.bar4Access q offset len data) s (.seq (modSent (· ++ [.completion (q * 1024) 0 0]))
        (logError { severity := 0, source := 1 }))) ∧
      (data ≠ none → Does (.bar4Access q offset len data) s .skip)) ∧
    (∀ d as, answering s.dev (rqOf (q * 1024)) = true → (powered s.dev = true ∨ powerState s.dev = 1 ∧ wakes = true) →
      (if powered s.dev then Eff.when (wakes && powerState s.dev == 4) abandonRest else wakeWhole 0).run s.dev = d →
      as = (List.range ((data.map (·.length)).getD len)).map (d.fld F.STW_PCIE_BAR4_base q * 1073741824 + offset + ·) →
      (as.all (dramServed d) = false →
        Gives (.bar4Access q offset len data) s d (modSent (· ++ [.completion (q * 1024) 1 0]))) ∧
      (as.all (dramServed d) = true → anyHeld d as = true → Gives (.bar4Access q offset len data) s d .skip) ∧
      (∀ bs, as.all (dramServed d) = true → anyHeld d as = false → data = some bs →
        Gives (.bar4Access q offset len data) s d (store as bs)) ∧
      (as.all (dramServed d) = true → anyHeld d as = false → data = none → anyPoison d as = true →
        Gives (.bar4Access q offset len data) s d (modSent (· ++ [.completion (q * 1024) 3 0]))) ∧
      (as.all (dramServed d) = true → anyHeld d as = false → data = none → anyPoison d as = false →
        Gives (.bar4Access q offset len data) s d (modSent (· ++ [.completion (q * 1024) 0 (fromLE (d.bytesAt as))])))))

/-- DOORBELL_PAGE_WRITE rings the ring bound to the slot, or is discarded, and counted where the context is bound. DB_BIND binds a free slot to a
ring of the context and DB_UNBIND frees a bound slot; a requester that may not bind the context's slots has result 4, a ring that is
not the context's 1, a slot that is taken 2, and a slot that is free 3 for DB_UNBIND. Without the right the write is denied. -/
def Obligations.DoorbellPages : Prop :=
  (∀ (s : State) (d : Device) (q v slot c : Nat) (fixed lost : List Nat), q < 2 → v < 512 → slot < 256 →
    Asks s (rqOf (q * 1024 + v + 1)) d → c = q * 512 + v →
    (ctxPart d c = none → Gives (.doorbellPageWrite q v slot fixed lost) s d .skip) ∧
    (∀ p, ctxPart d c = some p → slotRing d c slot = none →
      Gives (.doorbellPageWrite q v slot fixed lost) s d (addSat F.STW_HIF_DENY_doorbells 0 1)) ∧
    (∀ p n r, ctxPart d c = some p → slotRing d c slot = some (some n, r) →
      Gives (.doorbellPageWrite q v slot fixed lost) s d (ringFetch n fixed lost)) ∧
    (∀ p r, ctxPart d c = some p → slotRing d c slot = some (none, r) →
      Gives (.doorbellPageWrite q v slot fixed lost) s d (seqTailPoll p r))) ∧
  (∀ (s : State) (d : Device) (rq v b : Nat) (c : Instr), (c, b) ∈ [(.dbBind rq v, 63), (.dbUnbind rq v, 62)] →
    (AsksAon s rq d → bit (mayWrite d rq .STW_DB_BIND 0) b ≠ 1 → Gives c s d denied) ∧
    (WritesAon s rq .STW_DB_BIND 0 v b d →
      (bit v b ≠ 1 → Gives c s d .skip) ∧
      (bit v b = 1 → mayBind d rq (bits v 58 49) = false → Gives c s d (setF F.STW_DB_RESULT_result 0 4)))) ∧
  (∀ (s : State) (d : Device) (rq v c key : Nat) (mine : Bool), WritesAon s rq .STW_DB_BIND 0 v 63 d → bit v 63 = 1 →
    c = bits v 58 49 → mayBind d rq c = true → key = c * 256 + bits v 48 41 →
    mine = (boundRing d (bits v 61 59) (bits v 40 36) (bits v 35 26)).any (ringOfCtx d c (bits v 35 26)) →
    (mine = false → Gives (.dbBind rq v) s d (setF F.STW_DB_RESULT_result 0 1)) ∧
    (∀ x, mine = true → d.dbBindAt key = some x → Gives (.dbBind rq v) s d (setF F.STW_DB_RESULT_result 0 2)) ∧
    (mine = true → d.dbBindAt key = none → Gives (.dbBind rq v) s d (.seq
      (putDbBind key (some (bits v 61 59 * 32768 + bits v 40 36 * 1024 + bits v 35 26))) (setF F.STW_DB_RESULT_result 0 0)))) ∧
  (∀ (s : State) (d : Device) (rq v c key : Nat), WritesAon s rq .STW_DB_BIND 0 v 62 d → bit v 62 = 1 →
    c = bits v 58 49 → mayBind d rq c = true → key = c * 256 + bits v 48 41 →
    (∀ x, d.dbBindAt key = some x → Gives (.dbUnbind rq v) s d (.seq (putDbBind key none) (setF F.STW_DB_RESULT_result 0 0))) ∧
    (d.dbBindAt key = none → Gives (.dbUnbind rq v) s d (setF F.STW_DB_RESULT_result 0 3)))

/-- While VIN is present, MCTP_CONTROL answers, with an unsupported-type error for a type it does not serve, and assigns an
endpoint ID; PLDM_SENSOR_READ answers the sensor's reading, or that there is none; PLDM_SET_EVENT_RECEIVER sets the receiver; PLDM_CLEAR_HALT
acts as HALT_CTRL.clear. Each then delivers the waiting events and, where source 1 is enabled, wakes a device in REST or abandons its entry.
PLDM_POWER_STATE asks for a power state, is not ready while a request is in progress, and starts a device from OFF. Without VIN
nothing answers. -/
def Obligations.Management : Prop :=
  (∀ (s : State) (after : Eff) (t : Nat), t < 3 → (s.dev.off = 0 ∨ s.dev.off = 2) → after = .seq deliverEvents (.when (s.dev.off == 0)
      (.obs fun d => .when (wakeEnabled d 1) (if powerState d == 4 then abandonRest else wakeWhole 1))) →
    (∀ kind command eid, eid < 256 →
      (2 ≤ kind → Does (.mctpControl t kind command eid) s (.seq (modSent (· ++ [.management t 0 [1, kind]])) after)) ∧
      (kind = 0 → command = 1 → Does (.mctpControl t kind command eid) s (.all [setF (eidField t) 0 eid,
        modSent (· ++ [.management t 0 [0, eid]]), after])) ∧
      (kind < 2 → (kind ≠ 0 ∨ command ≠ 1) → Does (.mctpControl t kind command eid) s
        (.seq (modSent (· ++ [.management t 0 [0, s.dev.fld (eidField t) 0]])) after))) ∧
    (∀ id v, (id, v) ∈ [(1, s.dev.fld F.PWR_MEAS_power 0), (2, s.dev.fld F.PWR_MEAS_vin 0 / 100), (3, s.dev.fld F.PWR_MEAS_iin 0 / 100),
        (4, s.dev.fld F.PWR_MEAS_tj 0), (30, if s.dev.off = 2 then 0 else powerState s.dev),
        (31, if s.dev.fld F.HALT_STATUS_fault 0 = 1 then 2 else s.dev.fld F.HALT_STATUS_halted 0)] →
      Does (.pldmSensorRead t id) s (.seq (modSent (· ++ [.management t 0 [0, v]])) after)) ∧
    (∀ id, 5 ≤ id → id ≤ 20 → Does (.pldmSensorRead t id) s
      (.seq (modSent (· ++ [.management t 0 [0, s.dev.fld F.DRM_STACK_STATUS_temp (id - 5)]])) after)) ∧
    (∀ id, 21 ≤ id → id ≤ 24 → Does (.pldmSensorRead t id) s
      (.seq (modSent (· ++ [.management t 0 [0, s.dev.fld F.FLS_STACK_STATUS_temp (id - 21)]])) after)) ∧
    (∀ id, (id = 0 ∨ 24 < id ∧ id < 30 ∨ 31 < id) → Does (.pldmSensorRead t id) s
      (.seq (modSent (· ++ [.management t 0 [1, id]])) after)) ∧
    (∀ eid, eid < 256 → Does (.pldmSetEventReceiver t eid) s (.all [putReceiver (some eid), setF F.STW_MGMT_receiver 0 1,
      modSent (· ++ [.management t 0 [0, eid]]), after])) ∧
    (s.dev.off = 0 → Does (.pldmClearHalt t) s (.all [clearHalt, modSent (· ++ [.management t 0 [0, 0]]), after])) ∧
    (s.dev.off = 2 → Does (.pldmClearHalt t) s after)) ∧
  (∀ (s : State) (t target : Nat), t < 3 → target < 4 →
    (s.dev.off = 2 → target = 2 → Does (.pldmPowerState t target) s (.all [putOff 1, putVin ⟨true, 0⟩,
      modSent (· ++ [.management t 0 [0, target]]), deliverEvents])) ∧
    (s.dev.off = 2 → target ≠ 2 → Does (.pldmPowerState t target) s
      (.seq (modSent (· ++ [.management t 0 [0, target]])) deliverEvents)) ∧
    (s.dev.off = 0 → (powerState s.dev = 4 ∨ powerState s.dev = 5 ∨ powerState s.dev = 6) →
      Does (.pldmPowerState t target) s (.seq (modSent (· ++ [.management t 0 [2, target]])) deliverEvents)) ∧
    (s.dev.off = 0 → powerState s.dev ≠ 4 → powerState s.dev ≠ 5 → powerState s.dev ≠ 6 →
      Does (.pldmPowerState t target) s (.all [powerRequest target 1, modSent (· ++ [.management t 0 [0, target]]), deliverEvents]))) ∧
  (∀ (s : State) (t kind command eid id target : Nat), t < 3 → eid < 256 → target < 4 → s.dev.off ≠ 0 → s.dev.off ≠ 2 →
    ∀ c ∈ [Instr.mctpControl t kind command eid, .pldmSensorRead t id, .pldmSetEventReceiver t eid, .pldmPowerState t target,
      .pldmClearHalt t], Does c s .skip)

/-- At every level and for every state: logical index i of a parent is bound to its own site when that site is good; when that site
is retired and is the only one of the parent's sites that is, it is bound to the spare site of the parent; and no two indices of
a parent are bound to the spare site. A die's parent is the package. -/
def Obligations.BindingRule : Prop :=
  (∀ (d : Device) (lvl q i : Nat), siteBad d lvl (q * (lvlCount lvl + 1) + i) = false → boundAt d lvl q i = some i) ∧
  (∀ (d : Device) (lvl q i : Nat), i < lvlCount lvl →
    (∀ j, j ≤ lvlCount lvl → (siteBad d lvl (q * (lvlCount lvl + 1) + j) = true ↔ j = i)) →
    boundAt d lvl q i = some (lvlCount lvl)) ∧
  (∀ (d : Device) (lvl q i j : Nat), i < lvlCount lvl → j < lvlCount lvl → boundAt d lvl q i = some (lvlCount lvl) →
    boundAt d lvl q j = some (lvlCount lvl) → i = j) ∧
  (∀ (d : Device) (die : Nat), dieSite d die = boundAt d 3 0 die)

/-- The scope of a request is the number of the context that owns the ring, below 1,024; where the request sets its shared flag and
the ring's share_en is 1 it is 0x400 + share_group instead. The request at the head of a ring is one of the context the ring's
configuration names. -/
def Obligations.RequestScope : Prop :=
  (∀ (d : Device) (q : SeqReq), ¬ (bit q.flags 1 = 1 ∧ d.fld F.PRT_SEQ_RING_CFG_share_en (q.part * 64 + q.ring) = 1) →
    seqScope d q = q.ctx) ∧
  (∀ (d : Device) (q : SeqReq), bit q.flags 1 = 1 → d.fld F.PRT_SEQ_RING_CFG_share_en (q.part * 64 + q.ring) = 1 →
    seqScope d q = 0x400 + d.fld F.PRT_SEQ_RING_CFG_share_group (q.part * 64 + q.ring)) ∧
  (∀ (d : Device) (p ring : Nat) (q : SeqReq), seqRequest d p ring = some q →
    q.ctx = d.fld F.PRT_SEQ_RING_CFG_context (p * 64 + ring) ∧ q.ctx < 1024)

/-- A step with a command at the front of the queue is exactly that command on the state with the queue's rest. With no command
waiting a cycle of the always-on clock passes, which stands still in OFF; that this happens then is the model's choice (log
entry 16). -/
def Obligations.StepTakesFront : Prop :=
  (∀ (c : Instr) (rest : List Instr) (d : Device), step ⟨c :: rest, d⟩ = exec c ⟨rest, d⟩) ∧
  (∀ (d : Device), step ⟨[], d⟩ = .next ⟨[], idle.run d⟩) ∧
  (∀ (d : Device), d.off ≠ 0 → idle.run d = d) ∧
  (∀ (d : Device), d.Ok → d.off = 0 → (idle.run d).reg .CLK_AON_CNT 0 = (d.reg .CLK_AON_CNT 0 + 1) % 2 ^ 64)

/-- The state after reset has no command waiting, is in good order with every table empty, and every register of it reads the reset
value that its fields give in the register tables, as the access map has them. -/
def Obligations.ResetInOrder : Prop :=
  (State.reset.Ok ∧ State.reset.Safe ∧ State.reset.pending = []) ∧
  (∀ (r : Reg) (i : Nat) (f : FieldInfo), i < 1048576 → f ∈ r.info.fields →
    bits (State.reset.dev.reg r i) f.hi f.lo = f.reset)

/-- From every state in good order, a step that answers a next state leaves every table of the block, device memory and tile memory
among them, in its canonical form: keys strictly rising, and no entry equal to what an unlisted key reads as. -/
def Obligations.StepKeepsOrder : Prop :=
  ∀ (s t : State), s.Ok → step s = .next t → t.Ok

/-- A command whose operands name elements the block has answers a next state, in every state, and leaves the queue alone; any other
is a fault and changes nothing; no command is refused. So a machine none of whose waiting commands is ill-formed takes a step,
to such a machine again, with the queue's rest. -/
def Obligations.EveryCommandCompletes : Prop :=
  (∀ (c : Instr) (s : State), c.wellFormed = true → ∃ d, exec c s = .next ⟨s.pending, d⟩) ∧
  (∀ (c : Instr) (s : State), c.wellFormed = false → exec c s = .fault .illFormed) ∧
  (∀ (s : State), s.Safe → ∃ t, step s = .next t ∧ t.Safe ∧ t.pending = s.pending.tail)

/-- The commands listed in keepsWork change no byte of device memory or tile memory, no accumulator, core, cue, semaphore or
context; those listed in keepsRegs change no register. A store leaves the bytes it is given at the addresses it is given, where a read under the
key they were written with finds them; it changes no byte of device memory anywhere else, but for those of an encryption unit it writes under another key
than the unit holds; tile memory and registers are as before. -/
def Obligations.Frames : Prop :=
  (∀ (c : Instr) (s t : State), keepsWork c = true → exec c s = .next t → SameWork s.dev t.dev) ∧
  (∀ (c : Instr) (s t : State) (r : Reg) (i : Nat), keepsRegs c = true → exec c s = .next t → t.dev.reg r i = s.dev.reg r i) ∧
  (∀ (d : Device) (as : List Nat) (bs : List Byte) (a : Nat),
    (∀ x ∈ as, place x ≠ a ∧ (inDram x = true → d.memKeyAt (place x / 64 * 64) ≠ keyOf d x → place x / 64 ≠ a / 64)) →
    ((store as bs).run d).memAt a = d.memAt a) ∧
  (∀ (d : Device) (as : List Nat) (bs : List Byte) (k : Nat) (a : Nat) (b : Byte), d.Ok →
    (∀ x ∈ as, inDram x = true → d.memKeyAt (place x / 64 * 64) = keyOf d x) → (as.map place).Nodup →
    as[k]? = some a → bs[k]? = some b → ((store as bs).run d).memAt (place a) = b ∧
      (inDram a = true → ((store as bs).run d).byte a = b)) ∧
  (∀ (d : Device) (as : List Nat) (bs : List Byte) (a : Nat) (r : Reg) (i : Nat),
    ((store as bs).run d).tmemAt a = d.tmemAt a ∧ ((store as bs).run d).reg r i = d.reg r i)
end

