-- ==== Sys2Proof/Laws/Sparse.lean ====
section
/-! SUPPORT. The laws of sparse tables: a read after a write, and that every operation keeps the canonical form. -/

namespace Sys2Proof.Machine

variable {α : Type} [DecidableEq α] {d : Nat → α} {m : List (Nat × α)}

@[simp] theorem mapGet_nil (k : Nat) : mapGet d [] k = d k := rfl

theorem mapOk_iff : mapOk d m = true ↔ m.Pairwise (fun a b => a.1 < b.1) ∧ ∀ e ∈ m, e.2 ≠ d e.1 := by
  simp [mapOk]

theorem mapOk_nil : mapOk d [] = true := by simp [mapOk]

theorem mapOk_tail {e : Nat × α} {t : List (Nat × α)} (h : mapOk d (e :: t) = true) : mapOk d t = true := by
  rw [mapOk_iff] at *
  exact ⟨h.1.tail, fun x hx => h.2 x (List.mem_cons_of_mem _ hx)⟩

/-- A key below every key listed reads as unlisted. -/
theorem mapGet_low (k : Nat) (h : ∀ e ∈ m, k < e.1) : mapGet d m k = d k := by
  induction m with
  | nil => rfl
  | cons e t ih =>
    obtain ⟨j, v⟩ := e
    have hj : k < j := h (j, v) (List.mem_cons_self ..)
    simp only [mapGet, show j ≠ k by omega, if_false]
    exact ih fun x hx => h x (List.mem_cons_of_mem _ hx)

/-- A read after a write to the same key gives what was written. -/
theorem mapGet_mapSet_self (h : mapOk d m = true) (k : Nat) (v : α) : mapGet d (mapSet d m k v) k = v := by
  induction m with
  | nil => by_cases hv : v = d k <;> simp [mapSet, mapGet, hv]
  | cons e t ih =>
    obtain ⟨j, w⟩ := e
    have hp := ((mapOk_iff).1 h).1
    have low : ∀ x ∈ t, j < x.1 := fun x hx => (List.pairwise_cons.1 hp).1 x hx
    unfold mapSet
    by_cases h1 : k < j
    · simp only [h1, if_true]
      split
      · rename_i hv
        rw [mapGet_low k (by
          intro x hx
          rcases List.mem_cons.1 hx with rfl | hx
          · exact h1
          · exact Nat.lt_trans h1 (low x hx)), hv]
      · simp [mapGet]
    · simp only [h1, if_false]
      by_cases h2 : k = j
      · subst h2
        simp only [if_true]
        split
        · rename_i hv
          rw [mapGet_low k low, hv]
        · simp [mapGet]
      · simp only [h2, if_false, mapGet, show j ≠ k from fun e => h2 e.symm]
        exact ih (mapOk_tail h)

/-- A write leaves every other key alone. -/
theorem mapGet_mapSet_ne (m : List (Nat × α)) {k k' : Nat} (v : α) (hk : k' ≠ k) :
    mapGet d (mapSet d m k v) k' = mapGet d m k' := by
  induction m with
  | nil => by_cases hv : v = d k <;> simp [mapSet, mapGet, hv, hk.symm]
  | cons e t ih =>
    obtain ⟨j, w⟩ := e
    unfold mapSet
    split
    · split
      · rfl
      · simp [mapGet, hk.symm]
    · split
      · rename_i h2
        subst h2
        split <;> simp [mapGet, hk.symm]
      · simp only [mapGet, ih]

/-- The keys of a written table are those listed before and the one written. -/
theorem mem_mapSet {k : Nat} {v : α} {e : Nat × α} (h : e ∈ mapSet d m k v) : e ∈ m ∨ (e = (k, v) ∧ v ≠ d k) := by
  induction m with
  | nil =>
    unfold mapSet at h
    split at h
    · simp at h
    · simp at h
      exact .inr ⟨h, by assumption⟩
  | cons x t ih =>
    obtain ⟨j, w⟩ := x
    unfold mapSet at h
    split at h
    · split at h
      · exact .inl h
      · rcases List.mem_cons.1 h with rfl | h
        · exact .inr ⟨rfl, by assumption⟩
        · exact .inl h
    · split at h
      · split at h
        · exact .inl (List.mem_cons_of_mem _ h)
        · rcases List.mem_cons.1 h with rfl | h
          · exact .inr ⟨rfl, by assumption⟩
          · exact .inl (List.mem_cons_of_mem _ h)
      · rcases List.mem_cons.1 h with rfl | h
        · exact .inl (List.mem_cons_self ..)
        · rcases ih h with h | h
          · exact .inl (List.mem_cons_of_mem _ h)
          · exact .inr h

/-- A write keeps the canonical form. -/
theorem mapOk_mapSet (h : mapOk d m = true) (k : Nat) (v : α) : mapOk d (mapSet d m k v) = true := by
  induction m with
  | nil =>
    unfold mapSet
    split
    · exact mapOk_nil
    · rw [mapOk_iff]
      simp_all
  | cons e t ih =>
    obtain ⟨j, w⟩ := e
    have h' := (mapOk_iff).1 h
    have low : ∀ x ∈ t, j < x.1 := fun x hx => (List.pairwise_cons.1 h'.1).1 x hx
    unfold mapSet
    split
    · rename_i h1
      split
      · exact h
      · rename_i hv
        rw [mapOk_iff]
        refine ⟨List.pairwise_cons.2 ⟨?_, h'.1⟩, ?_⟩
        · intro x hx
          rcases List.mem_cons.1 hx with rfl | hx
          · exact h1
          · exact Nat.lt_trans h1 (low x hx)
        · intro x hx
          rcases List.mem_cons.1 hx with rfl | hx
          · exact hv
          · exact h'.2 x hx
    · split
      · rename_i h2
        subst h2
        split
        · exact mapOk_tail h
        · rename_i hv
          rw [mapOk_iff]
          refine ⟨List.pairwise_cons.2 ⟨low, h'.1.tail⟩, ?_⟩
          intro x hx
          rcases List.mem_cons.1 hx with rfl | hx
          · exact hv
          · exact h'.2 x (List.mem_cons_of_mem _ hx)
      · have ih' := (mapOk_iff).1 (ih (mapOk_tail h))
        rw [mapOk_iff]
        refine ⟨List.pairwise_cons.2 ⟨?_, ih'.1⟩, ?_⟩
        · intro x hx
          rcases mem_mapSet hx with hx | ⟨rfl, _⟩
          · exact low x hx
          · show j < k
            omega
        · intro x hx
          rcases List.mem_cons.1 hx with rfl | hx
          · exact h'.2 _ (List.mem_cons_self ..)
          · exact ih'.2 x hx

/-- Dropping keys keeps the canonical form. -/
theorem mapOk_mapDrop (h : mapOk d m = true) (p : Nat → Bool) : mapOk d (mapDrop p m) = true := by
  rw [mapOk_iff] at *
  exact ⟨h.1.filter _, fun x hx => h.2 x (List.mem_of_mem_filter hx)⟩

/-- A dropped key reads as unlisted, and every other key as before. -/
theorem mapGet_mapDrop (m : List (Nat × α)) (p : Nat → Bool) (k : Nat) :
    mapGet d (mapDrop p m) k = if p k then d k else mapGet d m k := by
  induction m with
  | nil => simp [mapDrop, mapGet]
  | cons e t ih =>
    obtain ⟨j, v⟩ := e
    have hd : mapDrop p ((j, v) :: t) = if p j then mapDrop p t else (j, v) :: mapDrop p t := by
      cases hj : p j <;> simp [mapDrop, List.filter_cons, hj]
    rw [hd]
    by_cases hjk : j = k
    · subst hjk
      cases hp : p j <;> simp [mapGet, ih, hp]
    · cases hp : p j <;> simp [mapGet, ih, hjk]

end Sys2Proof.Machine
end

