-- ==== Sys2Proof/Laws/State.lean ====
section
/-! SUPPORT. What each single change of the block leaves of each field: one lemma per field, over every change. -/

namespace Sys2Proof.Machine

@[simp] theorem Upd.apply_regs (u : Upd) (d : Device) : (u.apply d).regs = (match u with
    | .regs k v => mapSet dfltRegs d.regs k v
    | .regsDrop p => mapDrop p d.regs
    | _ => d.regs) := by cases u <;> rfl

@[simp] theorem Upd.apply_replies (u : Upd) (d : Device) : (u.apply d).replies = (match u with
    | .replies k v => mapSet dfltReplies d.replies k v
    | .repliesDrop p => mapDrop p d.replies
    | _ => d.replies) := by cases u <;> rfl

@[simp] theorem Upd.apply_mem (u : Upd) (d : Device) : (u.apply d).mem = (match u with
    | .mem k v => mapSet dfltMem d.mem k v
    | .memDrop p => mapDrop p d.mem
    | _ => d.mem) := by cases u <;> rfl

@[simp] theorem Upd.apply_poison (u : Upd) (d : Device) : (u.apply d).poison = (match u with
    | .poison k v => mapSet dfltPoison d.poison k v
    | .poisonDrop p => mapDrop p d.poison
    | _ => d.poison) := by cases u <;> rfl

@[simp] theorem Upd.apply_tmem (u : Upd) (d : Device) : (u.apply d).tmem = (match u with
    | .tmem k v => mapSet dfltTmem d.tmem k v
    | .tmemDrop p => mapDrop p d.tmem
    | _ => d.tmem) := by cases u <;> rfl

@[simp] theorem Upd.apply_tpoison (u : Upd) (d : Device) : (u.apply d).tpoison = (match u with
    | .tpoison k v => mapSet dfltTpoison d.tpoison k v
    | .tpoisonDrop p => mapDrop p d.tpoison
    | _ => d.tpoison) := by cases u <;> rfl

@[simp] theorem Upd.apply_acc (u : Upd) (d : Device) : (u.apply d).acc = (match u with
    | .acc k v => mapSet dfltAcc d.acc k v
    | .accDrop p => mapDrop p d.acc
    | _ => d.acc) := by cases u <;> rfl

@[simp] theorem Upd.apply_shadow (u : Upd) (d : Device) : (u.apply d).shadow = (match u with
    | .shadow k v => mapSet dfltShadow d.shadow k v
    | .shadowDrop p => mapDrop p d.shadow
    | _ => d.shadow) := by cases u <;> rfl

@[simp] theorem Upd.apply_cores (u : Upd) (d : Device) : (u.apply d).cores = (match u with
    | .cores k v => mapSet dfltCores d.cores k v
    | .coresDrop p => mapDrop p d.cores
    | _ => d.cores) := by cases u <;> rfl

@[simp] theorem Upd.apply_cues (u : Upd) (d : Device) : (u.apply d).cues = (match u with
    | .cues k v => mapSet dfltCues d.cues k v
    | .cuesDrop p => mapDrop p d.cues
    | _ => d.cues) := by cases u <;> rfl

@[simp] theorem Upd.apply_slots (u : Upd) (d : Device) : (u.apply d).slots = (match u with
    | .slots k v => mapSet dfltSlots d.slots k v
    | .slotsDrop p => mapDrop p d.slots
    | _ => d.slots) := by cases u <;> rfl

@[simp] theorem Upd.apply_loadQueue (u : Upd) (d : Device) : (u.apply d).loadQueue = (match u with
    | .loadQueue v => v
    | _ => d.loadQueue) := by cases u <;> rfl

@[simp] theorem Upd.apply_loading (u : Upd) (d : Device) : (u.apply d).loading = (match u with
    | .loading v => v
    | _ => d.loading) := by cases u <;> rfl

@[simp] theorem Upd.apply_switches (u : Upd) (d : Device) : (u.apply d).switches = (match u with
    | .switches k v => mapSet dfltSwitches d.switches k v
    | .switchesDrop p => mapDrop p d.switches
    | _ => d.switches) := by cases u <;> rfl

@[simp] theorem Upd.apply_patches (u : Upd) (d : Device) : (u.apply d).patches = (match u with
    | .patches k v => mapSet dfltPatches d.patches k v
    | .patchesDrop p => mapDrop p d.patches
    | _ => d.patches) := by cases u <;> rfl

@[simp] theorem Upd.apply_ctxs (u : Upd) (d : Device) : (u.apply d).ctxs = (match u with
    | .ctxs k v => mapSet dfltCtxs d.ctxs k v
    | .ctxsDrop p => mapDrop p d.ctxs
    | _ => d.ctxs) := by cases u <;> rfl

@[simp] theorem Upd.apply_preempts (u : Upd) (d : Device) : (u.apply d).preempts = (match u with
    | .preempts v => v
    | _ => d.preempts) := by cases u <;> rfl

@[simp] theorem Upd.apply_held (u : Upd) (d : Device) : (u.apply d).held = (match u with
    | .held k v => mapSet dfltHeld d.held k v
    | .heldDrop p => mapDrop p d.held
    | _ => d.held) := by cases u <;> rfl

@[simp] theorem Upd.apply_sems (u : Upd) (d : Device) : (u.apply d).sems = (match u with
    | .sems k v => mapSet dfltSems d.sems k v
    | .semsDrop p => mapDrop p d.sems
    | _ => d.sems) := by cases u <;> rfl

@[simp] theorem Upd.apply_strBuf (u : Upd) (d : Device) : (u.apply d).strBuf = (match u with
    | .strBuf k v => mapSet dfltStrBuf d.strBuf k v
    | .strBufDrop p => mapDrop p d.strBuf
    | _ => d.strBuf) := by cases u <;> rfl

@[simp] theorem Upd.apply_epochs (u : Upd) (d : Device) : (u.apply d).epochs = (match u with
    | .epochs k v => mapSet dfltEpochs d.epochs k v
    | .epochsDrop p => mapDrop p d.epochs
    | _ => d.epochs) := by cases u <;> rfl

@[simp] theorem Upd.apply_heldTiles (u : Upd) (d : Device) : (u.apply d).heldTiles = (match u with
    | .heldTiles k v => mapSet dfltHeldTiles d.heldTiles k v
    | .heldTilesDrop p => mapDrop p d.heldTiles
    | _ => d.heldTiles) := by cases u <;> rfl

@[simp] theorem Upd.apply_halos (u : Upd) (d : Device) : (u.apply d).halos = (match u with
    | .halos k v => mapSet dfltHalos d.halos k v
    | .halosDrop p => mapDrop p d.halos
    | _ => d.halos) := by cases u <;> rfl

@[simp] theorem Upd.apply_buckets (u : Upd) (d : Device) : (u.apply d).buckets = (match u with
    | .buckets k v => mapSet dfltBuckets d.buckets k v
    | .bucketsDrop p => mapDrop p d.buckets
    | _ => d.buckets) := by cases u <;> rfl

@[simp] theorem Upd.apply_retired (u : Upd) (d : Device) : (u.apply d).retired = (match u with
    | .retired k v => mapSet dfltRetired d.retired k v
    | .retiredDrop p => mapDrop p d.retired
    | _ => d.retired) := by cases u <;> rfl

@[simp] theorem Upd.apply_applied (u : Upd) (d : Device) : (u.apply d).applied = (match u with
    | .applied k v => mapSet dfltApplied d.applied k v
    | .appliedDrop p => mapDrop p d.applied
    | _ => d.applied) := by cases u <;> rfl

@[simp] theorem Upd.apply_dieSpare (u : Upd) (d : Device) : (u.apply d).dieSpare = (match u with
    | .dieSpare v => v
    | _ => d.dieSpare) := by cases u <;> rfl

@[simp] theorem Upd.apply_lastPass (u : Upd) (d : Device) : (u.apply d).lastPass = (match u with
    | .lastPass v => v
    | _ => d.lastPass) := by cases u <;> rfl

@[simp] theorem Upd.apply_routesStale (u : Upd) (d : Device) : (u.apply d).routesStale = (match u with
    | .routesStale v => v
    | _ => d.routesStale) := by cases u <;> rfl

@[simp] theorem Upd.apply_noTransit (u : Upd) (d : Device) : (u.apply d).noTransit = (match u with
    | .noTransit k v => mapSet dfltNoTransit d.noTransit k v
    | .noTransitDrop p => mapDrop p d.noTransit
    | _ => d.noTransit) := by cases u <;> rfl

@[simp] theorem Upd.apply_flog (u : Upd) (d : Device) : (u.apply d).flog = (match u with
    | .flog v => v
    | _ => d.flog) := by cases u <;> rfl

@[simp] theorem Upd.apply_flogHead (u : Upd) (d : Device) : (u.apply d).flogHead = (match u with
    | .flogHead v => v
    | _ => d.flogHead) := by cases u <;> rfl

@[simp] theorem Upd.apply_msix (u : Upd) (d : Device) : (u.apply d).msix = (match u with
    | .msix k v => mapSet dfltMsix d.msix k v
    | .msixDrop p => mapDrop p d.msix
    | _ => d.msix) := by cases u <;> rfl

@[simp] theorem Upd.apply_pldmEvents (u : Upd) (d : Device) : (u.apply d).pldmEvents = (match u with
    | .pldmEvents v => v
    | _ => d.pldmEvents) := by cases u <;> rfl

@[simp] theorem Upd.apply_flogSaved (u : Upd) (d : Device) : (u.apply d).flogSaved = (match u with
    | .flogSaved v => v
    | _ => d.flogSaved) := by cases u <;> rfl

@[simp] theorem Upd.apply_nvMargin (u : Upd) (d : Device) : (u.apply d).nvMargin = (match u with
    | .nvMargin v => v
    | _ => d.nvMargin) := by cases u <;> rfl

@[simp] theorem Upd.apply_nvSpare (u : Upd) (d : Device) : (u.apply d).nvSpare = (match u with
    | .nvSpare v => v
    | _ => d.nvSpare) := by cases u <;> rfl

@[simp] theorem Upd.apply_nvLog (u : Upd) (d : Device) : (u.apply d).nvLog = (match u with
    | .nvLog v => v
    | _ => d.nvLog) := by cases u <;> rfl

@[simp] theorem Upd.apply_selfTest (u : Upd) (d : Device) : (u.apply d).selfTest = (match u with
    | .selfTest v => v
    | _ => d.selfTest) := by cases u <;> rfl

@[simp] theorem Upd.apply_ages (u : Upd) (d : Device) : (u.apply d).ages = (match u with
    | .ages k v => mapSet dfltAges d.ages k v
    | .agesDrop p => mapDrop p d.ages
    | _ => d.ages) := by cases u <;> rfl

@[simp] theorem Upd.apply_flagged (u : Upd) (d : Device) : (u.apply d).flagged = (match u with
    | .flagged k v => mapSet dfltFlagged d.flagged k v
    | .flaggedDrop p => mapDrop p d.flagged
    | _ => d.flagged) := by cases u <;> rfl

@[simp] theorem Upd.apply_free (u : Upd) (d : Device) : (u.apply d).free = (match u with
    | .free v => v
    | _ => d.free) := by cases u <;> rfl

@[simp] theorem Upd.apply_drvMap (u : Upd) (d : Device) : (u.apply d).drvMap = (match u with
    | .drvMap k v => mapSet dfltDrvMap d.drvMap k v
    | .drvMapDrop p => mapDrop p d.drvMap
    | _ => d.drvMap) := by cases u <;> rfl

@[simp] theorem Upd.apply_lines (u : Upd) (d : Device) : (u.apply d).lines = (match u with
    | .lines k v => mapSet dfltLines d.lines k v
    | .linesDrop p => mapDrop p d.lines
    | _ => d.lines) := by cases u <;> rfl

@[simp] theorem Upd.apply_xlats (u : Upd) (d : Device) : (u.apply d).xlats = (match u with
    | .xlats k v => mapSet dfltXlats d.xlats k v
    | .xlatsDrop p => mapDrop p d.xlats
    | _ => d.xlats) := by cases u <;> rfl

@[simp] theorem Upd.apply_promo (u : Upd) (d : Device) : (u.apply d).promo = (match u with
    | .promo k v => mapSet dfltPromo d.promo k v
    | .promoDrop p => mapDrop p d.promo
    | _ => d.promo) := by cases u <;> rfl

@[simp] theorem Upd.apply_promoJob (u : Upd) (d : Device) : (u.apply d).promoJob = (match u with
    | .promoJob k v => mapSet dfltPromoJob d.promoJob k v
    | .promoJobDrop p => mapDrop p d.promoJob
    | _ => d.promoJob) := by cases u <;> rfl

@[simp] theorem Upd.apply_promoReads (u : Upd) (d : Device) : (u.apply d).promoReads = (match u with
    | .promoReads k v => mapSet dfltPromoReads d.promoReads k v
    | .promoReadsDrop p => mapDrop p d.promoReads
    | _ => d.promoReads) := by cases u <;> rfl

@[simp] theorem Upd.apply_frameBusy (u : Upd) (d : Device) : (u.apply d).frameBusy = (match u with
    | .frameBusy k v => mapSet dfltFrameBusy d.frameBusy k v
    | .frameBusyDrop p => mapDrop p d.frameBusy
    | _ => d.frameBusy) := by cases u <;> rfl

@[simp] theorem Upd.apply_promoTick (u : Upd) (d : Device) : (u.apply d).promoTick = (match u with
    | .promoTick v => v
    | _ => d.promoTick) := by cases u <;> rfl

@[simp] theorem Upd.apply_heldWrites (u : Upd) (d : Device) : (u.apply d).heldWrites = (match u with
    | .heldWrites v => v
    | _ => d.heldWrites) := by cases u <;> rfl

@[simp] theorem Upd.apply_lineTick (u : Upd) (d : Device) : (u.apply d).lineTick = (match u with
    | .lineTick v => v
    | _ => d.lineTick) := by cases u <;> rfl

@[simp] theorem Upd.apply_dqFailed (u : Upd) (d : Device) : (u.apply d).dqFailed = (match u with
    | .dqFailed k v => mapSet dfltDqFailed d.dqFailed k v
    | .dqFailedDrop p => mapDrop p d.dqFailed
    | _ => d.dqFailed) := by cases u <;> rfl

@[simp] theorem Upd.apply_backInval (u : Upd) (d : Device) : (u.apply d).backInval = (match u with
    | .backInval k v => mapSet dfltBackInval d.backInval k v
    | .backInvalDrop p => mapDrop p d.backInval
    | _ => d.backInval) := by cases u <;> rfl

@[simp] theorem Upd.apply_groupLost (u : Upd) (d : Device) : (u.apply d).groupLost = (match u with
    | .groupLost k v => mapSet dfltGroupLost d.groupLost k v
    | .groupLostDrop p => mapDrop p d.groupLost
    | _ => d.groupLost) := by cases u <;> rfl

@[simp] theorem Upd.apply_training (u : Upd) (d : Device) : (u.apply d).training = (match u with
    | .training k v => mapSet dfltTraining d.training k v
    | .trainingDrop p => mapDrop p d.training
    | _ => d.training) := by cases u <;> rfl

@[simp] theorem Upd.apply_groupPoison (u : Upd) (d : Device) : (u.apply d).groupPoison = (match u with
    | .groupPoison k v => mapSet dfltGroupPoison d.groupPoison k v
    | .groupPoisonDrop p => mapDrop p d.groupPoison
    | _ => d.groupPoison) := by cases u <;> rfl

@[simp] theorem Upd.apply_rowErrs (u : Upd) (d : Device) : (u.apply d).rowErrs = (match u with
    | .rowErrs k v => mapSet dfltRowErrs d.rowErrs k v
    | .rowErrsDrop p => mapDrop p d.rowErrs
    | _ => d.rowErrs) := by cases u <;> rfl

@[simp] theorem Upd.apply_rowRepair (u : Upd) (d : Device) : (u.apply d).rowRepair = (match u with
    | .rowRepair k v => mapSet dfltRowRepair d.rowRepair k v
    | .rowRepairDrop p => mapDrop p d.rowRepair
    | _ => d.rowRepair) := by cases u <;> rfl

@[simp] theorem Upd.apply_bankRepairs (u : Upd) (d : Device) : (u.apply d).bankRepairs = (match u with
    | .bankRepairs k v => mapSet dfltBankRepairs d.bankRepairs k v
    | .bankRepairsDrop p => mapDrop p d.bankRepairs
    | _ => d.bankRepairs) := by cases u <;> rfl

@[simp] theorem Upd.apply_bankCopy (u : Upd) (d : Device) : (u.apply d).bankCopy = (match u with
    | .bankCopy k v => mapSet dfltBankCopy d.bankCopy k v
    | .bankCopyDrop p => mapDrop p d.bankCopy
    | _ => d.bankCopy) := by cases u <;> rfl

@[simp] theorem Upd.apply_spareBanks (u : Upd) (d : Device) : (u.apply d).spareBanks = (match u with
    | .spareBanks k v => mapSet dfltSpareBanks d.spareBanks k v
    | .spareBanksDrop p => mapDrop p d.spareBanks
    | _ => d.spareBanks) := by cases u <;> rfl

@[simp] theorem Upd.apply_rings (u : Upd) (d : Device) : (u.apply d).rings = (match u with
    | .rings k v => mapSet dfltRings d.rings k v
    | .ringsDrop p => mapDrop p d.rings
    | _ => d.rings) := by cases u <;> rfl

@[simp] theorem Upd.apply_rr (u : Upd) (d : Device) : (u.apply d).rr = (match u with
    | .rr k v => mapSet dfltRr d.rr k v
    | .rrDrop p => mapDrop p d.rr
    | _ => d.rr) := by cases u <;> rfl

@[simp] theorem Upd.apply_keptMaps (u : Upd) (d : Device) : (u.apply d).keptMaps = (match u with
    | .keptMaps k v => mapSet dfltKeptMaps d.keptMaps k v
    | .keptMapsDrop p => mapDrop p d.keptMaps
    | _ => d.keptMaps) := by cases u <;> rfl

@[simp] theorem Upd.apply_sent (u : Upd) (d : Device) : (u.apply d).sent = (match u with
    | .sent v => v
    | _ => d.sent) := by cases u <;> rfl

@[simp] theorem Upd.apply_lookups (u : Upd) (d : Device) : (u.apply d).lookups = (match u with
    | .lookups k v => mapSet dfltLookups d.lookups k v
    | .lookupsDrop p => mapDrop p d.lookups
    | _ => d.lookups) := by cases u <;> rfl

@[simp] theorem Upd.apply_catalog (u : Upd) (d : Device) : (u.apply d).catalog = (match u with
    | .catalog k v => mapSet dfltCatalog d.catalog k v
    | .catalogDrop p => mapDrop p d.catalog
    | _ => d.catalog) := by cases u <;> rfl

@[simp] theorem Upd.apply_slotRefs (u : Upd) (d : Device) : (u.apply d).slotRefs = (match u with
    | .slotRefs k v => mapSet dfltSlotRefs d.slotRefs k v
    | .slotRefsDrop p => mapDrop p d.slotRefs
    | _ => d.slotRefs) := by cases u <;> rfl

@[simp] theorem Upd.apply_catCopies (u : Upd) (d : Device) : (u.apply d).catCopies = (match u with
    | .catCopies v => v
    | _ => d.catCopies) := by cases u <;> rfl

@[simp] theorem Upd.apply_flsPending (u : Upd) (d : Device) : (u.apply d).flsPending = (match u with
    | .flsPending v => v
    | _ => d.flsPending) := by cases u <;> rfl

@[simp] theorem Upd.apply_lostExt (u : Upd) (d : Device) : (u.apply d).lostExt = (match u with
    | .lostExt k v => mapSet dfltLostExt d.lostExt k v
    | .lostExtDrop p => mapDrop p d.lostExt
    | _ => d.lostExt) := by cases u <;> rfl

@[simp] theorem Upd.apply_disturb (u : Upd) (d : Device) : (u.apply d).disturb = (match u with
    | .disturb k v => mapSet dfltDisturb d.disturb k v
    | .disturbDrop p => mapDrop p d.disturb
    | _ => d.disturb) := by cases u <;> rfl

@[simp] theorem Upd.apply_relocQueue (u : Upd) (d : Device) : (u.apply d).relocQueue = (match u with
    | .relocQueue v => v
    | _ => d.relocQueue) := by cases u <;> rfl

@[simp] theorem Upd.apply_flashDead (u : Upd) (d : Device) : (u.apply d).flashDead = (match u with
    | .flashDead k v => mapSet dfltFlashDead d.flashDead k v
    | .flashDeadDrop p => mapDrop p d.flashDead
    | _ => d.flashDead) := by cases u <;> rfl

@[simp] theorem Upd.apply_scrubPos (u : Upd) (d : Device) : (u.apply d).scrubPos = (match u with
    | .scrubPos k v => mapSet dfltScrubPos d.scrubPos k v
    | .scrubPosDrop p => mapDrop p d.scrubPos
    | _ => d.scrubPos) := by cases u <;> rfl

@[simp] theorem Upd.apply_rebuildQueue (u : Upd) (d : Device) : (u.apply d).rebuildQueue = (match u with
    | .rebuildQueue v => v
    | _ => d.rebuildQueue) := by cases u <;> rfl

@[simp] theorem Upd.apply_blockMap (u : Upd) (d : Device) : (u.apply d).blockMap = (match u with
    | .blockMap k v => mapSet dfltBlockMap d.blockMap k v
    | .blockMapDrop p => mapDrop p d.blockMap
    | _ => d.blockMap) := by cases u <;> rfl

@[simp] theorem Upd.apply_erases (u : Upd) (d : Device) : (u.apply d).erases = (match u with
    | .erases k v => mapSet dfltErases d.erases k v
    | .erasesDrop p => mapDrop p d.erases
    | _ => d.erases) := by cases u <;> rfl

@[simp] theorem Upd.apply_badBlocks (u : Upd) (d : Device) : (u.apply d).badBlocks = (match u with
    | .badBlocks k v => mapSet dfltBadBlocks d.badBlocks k v
    | .badBlocksDrop p => mapDrop p d.badBlocks
    | _ => d.badBlocks) := by cases u <;> rfl

@[simp] theorem Upd.apply_streamers (u : Upd) (d : Device) : (u.apply d).streamers = (match u with
    | .streamers k v => mapSet dfltStreamers d.streamers k v
    | .streamersDrop p => mapDrop p d.streamers
    | _ => d.streamers) := by cases u <;> rfl

@[simp] theorem Upd.apply_rootKeys (u : Upd) (d : Device) : (u.apply d).rootKeys = (match u with
    | .rootKeys k v => mapSet dfltRootKeys d.rootKeys k v
    | .rootKeysDrop p => mapDrop p d.rootKeys
    | _ => d.rootKeys) := by cases u <;> rfl

@[simp] theorem Upd.apply_colGroups (u : Upd) (d : Device) : (u.apply d).colGroups = (match u with
    | .colGroups k v => mapSet dfltColGroups d.colGroups k v
    | .colGroupsDrop p => mapDrop p d.colGroups
    | _ => d.colGroups) := by cases u <;> rfl

@[simp] theorem Upd.apply_moved (u : Upd) (d : Device) : (u.apply d).moved = (match u with
    | .moved k v => mapSet dfltMoved d.moved k v
    | .movedDrop p => mapDrop p d.moved
    | _ => d.moved) := by cases u <;> rfl

@[simp] theorem Upd.apply_pfxNodes (u : Upd) (d : Device) : (u.apply d).pfxNodes = (match u with
    | .pfxNodes k v => mapSet dfltPfxNodes d.pfxNodes k v
    | .pfxNodesDrop p => mapDrop p d.pfxNodes
    | _ => d.pfxNodes) := by cases u <;> rfl

@[simp] theorem Upd.apply_pfxRefs (u : Upd) (d : Device) : (u.apply d).pfxRefs = (match u with
    | .pfxRefs k v => mapSet dfltPfxRefs d.pfxRefs k v
    | .pfxRefsDrop p => mapDrop p d.pfxRefs
    | _ => d.pfxRefs) := by cases u <;> rfl

@[simp] theorem Upd.apply_pfxKeys (u : Upd) (d : Device) : (u.apply d).pfxKeys = (match u with
    | .pfxKeys k v => mapSet dfltPfxKeys d.pfxKeys k v
    | .pfxKeysDrop p => mapDrop p d.pfxKeys
    | _ => d.pfxKeys) := by cases u <;> rfl

@[simp] theorem Upd.apply_pfxLost (u : Upd) (d : Device) : (u.apply d).pfxLost = (match u with
    | .pfxLost k v => mapSet dfltPfxLost d.pfxLost k v
    | .pfxLostDrop p => mapDrop p d.pfxLost
    | _ => d.pfxLost) := by cases u <;> rfl

@[simp] theorem Upd.apply_seqTails (u : Upd) (d : Device) : (u.apply d).seqTails = (match u with
    | .seqTails k v => mapSet dfltSeqTails d.seqTails k v
    | .seqTailsDrop p => mapDrop p d.seqTails
    | _ => d.seqTails) := by cases u <;> rfl

@[simp] theorem Upd.apply_seqService (u : Upd) (d : Device) : (u.apply d).seqService = (match u with
    | .seqService k v => mapSet dfltSeqService d.seqService k v
    | .seqServiceDrop p => mapDrop p d.seqService
    | _ => d.seqService) := by cases u <;> rfl

@[simp] theorem Upd.apply_ports (u : Upd) (d : Device) : (u.apply d).ports = (match u with
    | .ports k v => mapSet dfltPorts d.ports k v
    | .portsDrop p => mapDrop p d.ports
    | _ => d.ports) := by cases u <;> rfl

@[simp] theorem Upd.apply_egress (u : Upd) (d : Device) : (u.apply d).egress = (match u with
    | .egress k v => mapSet dfltEgress d.egress k v
    | .egressDrop p => mapDrop p d.egress
    | _ => d.egress) := by cases u <;> rfl

@[simp] theorem Upd.apply_nbrs (u : Upd) (d : Device) : (u.apply d).nbrs = (match u with
    | .nbrs k v => mapSet dfltNbrs d.nbrs k v
    | .nbrsDrop p => mapDrop p d.nbrs
    | _ => d.nbrs) := by cases u <;> rfl

@[simp] theorem Upd.apply_flows (u : Upd) (d : Device) : (u.apply d).flows = (match u with
    | .flows k v => mapSet dfltFlows d.flows k v
    | .flowsDrop p => mapDrop p d.flows
    | _ => d.flows) := by cases u <;> rfl

@[simp] theorem Upd.apply_routes (u : Upd) (d : Device) : (u.apply d).routes = (match u with
    | .routes k v => mapSet dfltRoutes d.routes k v
    | .routesDrop p => mapDrop p d.routes
    | _ => d.routes) := by cases u <;> rfl

@[simp] theorem Upd.apply_topo (u : Upd) (d : Device) : (u.apply d).topo = (match u with
    | .topo v => v
    | _ => d.topo) := by cases u <;> rfl

@[simp] theorem Upd.apply_prom (u : Upd) (d : Device) : (u.apply d).prom = (match u with
    | .prom v => v
    | _ => d.prom) := by cases u <;> rfl

@[simp] theorem Upd.apply_board (u : Upd) (d : Device) : (u.apply d).board = (match u with
    | .board v => v
    | _ => d.board) := by cases u <;> rfl

@[simp] theorem Upd.apply_sideband (u : Upd) (d : Device) : (u.apply d).sideband = (match u with
    | .sideband k v => mapSet dfltSideband d.sideband k v
    | .sidebandDrop p => mapDrop p d.sideband
    | _ => d.sideband) := by cases u <;> rfl

@[simp] theorem Upd.apply_linkKeys (u : Upd) (d : Device) : (u.apply d).linkKeys = (match u with
    | .linkKeys k v => mapSet dfltLinkKeys d.linkKeys k v
    | .linkKeysDrop p => mapDrop p d.linkKeys
    | _ => d.linkKeys) := by cases u <;> rfl

@[simp] theorem Upd.apply_linkSeen (u : Upd) (d : Device) : (u.apply d).linkSeen = (match u with
    | .linkSeen k v => mapSet dfltLinkSeen d.linkSeen k v
    | .linkSeenDrop p => mapDrop p d.linkSeen
    | _ => d.linkSeen) := by cases u <;> rfl

@[simp] theorem Upd.apply_tenantKeys (u : Upd) (d : Device) : (u.apply d).tenantKeys = (match u with
    | .tenantKeys k v => mapSet dfltTenantKeys d.tenantKeys k v
    | .tenantKeysDrop p => mapDrop p d.tenantKeys
    | _ => d.tenantKeys) := by cases u <;> rfl

@[simp] theorem Upd.apply_colOps (u : Upd) (d : Device) : (u.apply d).colOps = (match u with
    | .colOps k v => mapSet dfltColOps d.colOps k v
    | .colOpsDrop p => mapDrop p d.colOps
    | _ => d.colOps) := by cases u <;> rfl

@[simp] theorem Upd.apply_sessions (u : Upd) (d : Device) : (u.apply d).sessions = (match u with
    | .sessions k v => mapSet dfltSessions d.sessions k v
    | .sessionsDrop p => mapDrop p d.sessions
    | _ => d.sessions) := by cases u <;> rfl

@[simp] theorem Upd.apply_ingPubs (u : Upd) (d : Device) : (u.apply d).ingPubs = (match u with
    | .ingPubs k v => mapSet dfltIngPubs d.ingPubs k v
    | .ingPubsDrop p => mapDrop p d.ingPubs
    | _ => d.ingPubs) := by cases u <;> rfl

@[simp] theorem Upd.apply_ingReplaced (u : Upd) (d : Device) : (u.apply d).ingReplaced = (match u with
    | .ingReplaced k v => mapSet dfltIngReplaced d.ingReplaced k v
    | .ingReplacedDrop p => mapDrop p d.ingReplaced
    | _ => d.ingReplaced) := by cases u <;> rfl

@[simp] theorem Upd.apply_ingClear (u : Upd) (d : Device) : (u.apply d).ingClear = (match u with
    | .ingClear k v => mapSet dfltIngClear d.ingClear k v
    | .ingClearDrop p => mapDrop p d.ingClear
    | _ => d.ingClear) := by cases u <;> rfl

@[simp] theorem Upd.apply_off (u : Upd) (d : Device) : (u.apply d).off = (match u with
    | .off v => v
    | _ => d.off) := by cases u <;> rfl

@[simp] theorem Upd.apply_vin (u : Upd) (d : Device) : (u.apply d).vin = (match u with
    | .vin v => v
    | _ => d.vin) := by cases u <;> rfl

@[simp] theorem Upd.apply_tripped (u : Upd) (d : Device) : (u.apply d).tripped = (match u with
    | .tripped v => v
    | _ => d.tripped) := by cases u <;> rfl

@[simp] theorem Upd.apply_clkHeld (u : Upd) (d : Device) : (u.apply d).clkHeld = (match u with
    | .clkHeld k v => mapSet dfltClkHeld d.clkHeld k v
    | .clkHeldDrop p => mapDrop p d.clkHeld
    | _ => d.clkHeld) := by cases u <;> rfl

@[simp] theorem Upd.apply_restCores (u : Upd) (d : Device) : (u.apply d).restCores = (match u with
    | .restCores v => v
    | _ => d.restCores) := by cases u <;> rfl

@[simp] theorem Upd.apply_restLinks (u : Upd) (d : Device) : (u.apply d).restLinks = (match u with
    | .restLinks v => v
    | _ => d.restLinks) := by cases u <;> rfl

@[simp] theorem Upd.apply_restFrom (u : Upd) (d : Device) : (u.apply d).restFrom = (match u with
    | .restFrom v => v
    | _ => d.restFrom) := by cases u <;> rfl

@[simp] theorem Upd.apply_electric (u : Upd) (d : Device) : (u.apply d).electric = (match u with
    | .electric v => v
    | _ => d.electric) := by cases u <;> rfl

@[simp] theorem Upd.apply_memKey (u : Upd) (d : Device) : (u.apply d).memKey = (match u with
    | .memKey k v => mapSet dfltMemKey d.memKey k v
    | .memKeyDrop p => mapDrop p d.memKey
    | _ => d.memKey) := by cases u <;> rfl

@[simp] theorem Upd.apply_idKey (u : Upd) (d : Device) : (u.apply d).idKey = (match u with
    | .idKey v => v
    | _ => d.idKey) := by cases u <;> rfl

@[simp] theorem Upd.apply_sealKey (u : Upd) (d : Device) : (u.apply d).sealKey = (match u with
    | .sealKey v => v
    | _ => d.sealKey) := by cases u <;> rfl

@[simp] theorem Upd.apply_debugNonce (u : Upd) (d : Device) : (u.apply d).debugNonce = (match u with
    | .debugNonce v => v
    | _ => d.debugNonce) := by cases u <;> rfl

@[simp] theorem Upd.apply_secPending (u : Upd) (d : Device) : (u.apply d).secPending = (match u with
    | .secPending k v => mapSet dfltSecPending d.secPending k v
    | .secPendingDrop p => mapDrop p d.secPending
    | _ => d.secPending) := by cases u <;> rfl

@[simp] theorem Upd.apply_keysLost (u : Upd) (d : Device) : (u.apply d).keysLost = (match u with
    | .keysLost v => v
    | _ => d.keysLost) := by cases u <;> rfl

@[simp] theorem Upd.apply_quarLatch (u : Upd) (d : Device) : (u.apply d).quarLatch = (match u with
    | .quarLatch v => v
    | _ => d.quarLatch) := by cases u <;> rfl

@[simp] theorem Upd.apply_fwDigest (u : Upd) (d : Device) : (u.apply d).fwDigest = (match u with
    | .fwDigest v => v
    | _ => d.fwDigest) := by cases u <;> rfl

@[simp] theorem Upd.apply_fwVersion (u : Upd) (d : Device) : (u.apply d).fwVersion = (match u with
    | .fwVersion v => v
    | _ => d.fwVersion) := by cases u <;> rfl

@[simp] theorem Upd.apply_fwPending (u : Upd) (d : Device) : (u.apply d).fwPending = (match u with
    | .fwPending v => v
    | _ => d.fwPending) := by cases u <;> rfl

@[simp] theorem Upd.apply_bootFlash (u : Upd) (d : Device) : (u.apply d).bootFlash = (match u with
    | .bootFlash k v => mapSet dfltBootFlash d.bootFlash k v
    | .bootFlashDrop p => mapDrop p d.bootFlash
    | _ => d.bootFlash) := by cases u <;> rfl

@[simp] theorem Upd.apply_recBuf (u : Upd) (d : Device) : (u.apply d).recBuf = (match u with
    | .recBuf v => v
    | _ => d.recBuf) := by cases u <;> rfl

@[simp] theorem Upd.apply_recCmd (u : Upd) (d : Device) : (u.apply d).recCmd = (match u with
    | .recCmd v => v
    | _ => d.recCmd) := by cases u <;> rfl

@[simp] theorem Upd.apply_pciHeld (u : Upd) (d : Device) : (u.apply d).pciHeld = (match u with
    | .pciHeld k v => mapSet dfltPciHeld d.pciHeld k v
    | .pciHeldDrop p => mapDrop p d.pciHeld
    | _ => d.pciHeld) := by cases u <;> rfl

@[simp] theorem Upd.apply_dbBind (u : Upd) (d : Device) : (u.apply d).dbBind = (match u with
    | .dbBind k v => mapSet dfltDbBind d.dbBind k v
    | .dbBindDrop p => mapDrop p d.dbBind
    | _ => d.dbBind) := by cases u <;> rfl

@[simp] theorem Upd.apply_halfRead (u : Upd) (d : Device) : (u.apply d).halfRead = (match u with
    | .halfRead k v => mapSet dfltHalfRead d.halfRead k v
    | .halfReadDrop p => mapDrop p d.halfRead
    | _ => d.halfRead) := by cases u <;> rfl

@[simp] theorem Upd.apply_halfWrite (u : Upd) (d : Device) : (u.apply d).halfWrite = (match u with
    | .halfWrite k v => mapSet dfltHalfWrite d.halfWrite k v
    | .halfWriteDrop p => mapDrop p d.halfWrite
    | _ => d.halfWrite) := by cases u <;> rfl

@[simp] theorem Upd.apply_receiver (u : Upd) (d : Device) : (u.apply d).receiver = (match u with
    | .receiver v => v
    | _ => d.receiver) := by cases u <;> rfl

@[simp] theorem Upd.apply_sensors (u : Upd) (d : Device) : (u.apply d).sensors = (match u with
    | .sensors k v => mapSet dfltSensors d.sensors k v
    | .sensorsDrop p => mapDrop p d.sensors
    | _ => d.sensors) := by cases u <;> rfl

@[simp] theorem Upd.apply_coldPlate (u : Upd) (d : Device) : (u.apply d).coldPlate = (match u with
    | .coldPlate v => v
    | _ => d.coldPlate) := by cases u <;> rfl

@[simp] theorem Upd.apply_gov (u : Upd) (d : Device) : (u.apply d).gov = (match u with
    | .gov v => v
    | _ => d.gov) := by cases u <;> rfl

@[simp] theorem Upd.apply_sustCap (u : Upd) (d : Device) : (u.apply d).sustCap = (match u with
    | .sustCap v => v
    | _ => d.sustCap) := by cases u <;> rfl

@[simp] theorem Upd.apply_unclean (u : Upd) (d : Device) : (u.apply d).unclean = (match u with
    | .unclean v => v
    | _ => d.unclean) := by cases u <;> rfl

@[simp] theorem Upd.apply_peakMs (u : Upd) (d : Device) : (u.apply d).peakMs = (match u with
    | .peakMs v => v
    | _ => d.peakMs) := by cases u <;> rfl

@[simp] theorem Upd.apply_laneMarks (u : Upd) (d : Device) : (u.apply d).laneMarks = (match u with
    | .laneMarks k v => mapSet dfltLaneMarks d.laneMarks k v
    | .laneMarksDrop p => mapDrop p d.laneMarks
    | _ => d.laneMarks) := by cases u <;> rfl

@[simp] theorem Upd.apply_marked (u : Upd) (d : Device) : (u.apply d).marked = (match u with
    | .marked k v => mapSet dfltMarked d.marked k v
    | .markedDrop p => mapDrop p d.marked
    | _ => d.marked) := by cases u <;> rfl

@[simp] theorem Upd.apply_oldMargin (u : Upd) (d : Device) : (u.apply d).oldMargin = (match u with
    | .oldMargin v => v
    | _ => d.oldMargin) := by cases u <;> rfl

@[simp] theorem Upd.apply_oldSpare (u : Upd) (d : Device) : (u.apply d).oldSpare = (match u with
    | .oldSpare v => v
    | _ => d.oldSpare) := by cases u <;> rfl

@[simp] theorem Upd.apply_oldLog (u : Upd) (d : Device) : (u.apply d).oldLog = (match u with
    | .oldLog v => v
    | _ => d.oldLog) := by cases u <;> rfl

end Sys2Proof.Machine
end

