-- ==== Sys2Proof/Laws/Eff.lean ====
section
/-! SUPPORT. The laws of effects: how an effect runs, what it leaves alone, what it keeps; and the laws of the register
operations and of `perform`. -/

namespace Sys2Proof.Machine

/-! ### Running

These are not marked as definitional, so that the steps they make are rewritten and not left to the kernel to unfold. -/

@[simp] theorem Eff.run_skip (d : Device) : Eff.skip.run d = d := (rfl)
@[simp] theorem Eff.run_upd (u : Upd) (d : Device) : (Eff.upd u).run d = u.apply d := (rfl)
@[simp] theorem Eff.run_seq (a b : Eff) (d : Device) : (Eff.seq a b).run d = b.run (a.run d) := (rfl)
@[simp] theorem Eff.run_obs (k : Device → Eff) (d : Device) : (Eff.obs k).run d = (k d).run d := (rfl)
@[simp] theorem Eff.run_all_nil (d : Device) : (Eff.all []).run d = d := (rfl)
@[simp] theorem Eff.run_all_cons (e : Eff) (es : List Eff) (d : Device) :
    (Eff.all (e :: es)).run d = (Eff.all es).run (e.run d) := (rfl)
@[simp] theorem Eff.run_each_nil {α : Type} (f : α → Eff) (d : Device) : (Eff.each [] f).run d = d := (rfl)
@[simp] theorem Eff.run_each_cons {α : Type} (x : α) (xs : List α) (f : α → Eff) (d : Device) :
    (Eff.each (x :: xs) f).run d = (Eff.each xs f).run ((f x).run d) := (rfl)
@[simp] theorem Eff.when_true (e : Eff) : Eff.when true e = e := (rfl)
@[simp] theorem Eff.when_false (e : Eff) : Eff.when false e = .skip := (rfl)
theorem Eff.run_when (c : Bool) (e : Eff) (d : Device) : (Eff.when c e).run d = if c = true then e.run d else d := by
  cases c <;> rfl

/-! ### What an effect keeps -/

/-- Every change an effect can make, whatever the block then is, satisfies `P`. -/
def Eff.Makes (P : Upd → Prop) : Eff → Prop
  | .skip => True
  | .upd u => P u
  | .seq a b => a.Makes P ∧ b.Makes P
  | .obs k => ∀ d, (k d).Makes P

/-- A predicate that every single change keeps is kept by every effect. -/
theorem Eff.run_keeps {Q : Device → Prop} (hq : ∀ (u : Upd) d, Q d → Q (u.apply d)) (e : Eff) (d : Device) (h : Q d) :
    Q (e.run d) := by
  induction e generalizing d with
  | skip => exact h
  | upd u => exact hq u d h
  | seq a b iha ihb => exact ihb _ (iha d h)
  | obs k ih => exact ih d d h

/-- What the changes an effect makes leave alone, the effect leaves alone. -/
theorem Eff.run_frame {β : Type} {P : Upd → Prop} {f : Device → β} (hf : ∀ (u : Upd) d, P u → f (u.apply d) = f d) (e : Eff)
    (he : e.Makes P) (d : Device) : f (e.run d) = f d := by
  induction e generalizing d with
  | skip => rfl
  | upd u => exact hf u d he
  | seq a b iha ihb => exact (ihb he.2 _).trans (iha he.1 d)
  | obs k ih => exact ih d (he d) d

theorem Eff.makes_all {P : Upd → Prop} {es : List Eff} : (Eff.all es).Makes P ↔ ∀ e ∈ es, e.Makes P := by
  induction es with
  | nil => simp [Eff.all, Eff.Makes]
  | cons e t ih => simp [Eff.all, Eff.Makes, ih]

theorem Eff.makes_each {α : Type} {P : Upd → Prop} {xs : List α} {f : α → Eff} :
    (Eff.each xs f).Makes P ↔ ∀ x ∈ xs, (f x).Makes P := by
  simp [Eff.each, Eff.makes_all]

theorem Eff.makes_when {P : Upd → Prop} {c : Bool} {e : Eff} : (Eff.when c e).Makes P ↔ (c = true → e.Makes P) := by
  cases c <;> simp [Eff.Makes]

/-- An effect that makes one kind of changes makes every wider kind. -/
theorem Eff.Makes.mono {P Q : Upd → Prop} (hpq : ∀ u, P u → Q u) (e : Eff) (he : e.Makes P) : e.Makes Q := by
  induction e with
  | skip => trivial
  | upd u => exact hpq u he
  | seq a b iha ihb => exact ⟨iha he.1, ihb he.2⟩
  | obs k ih => exact fun d => ih d (he d)

/-! ### perform -/

@[simp] theorem perform_true (e : Eff) (s : State) : perform true e s = .next { s with dev := e.run s.dev } := (rfl)
@[simp] theorem perform_false (e : Eff) (s : State) : perform false e s = .fault .illFormed := (rfl)

/-! ### Bit fields -/

theorem bits_lt (v hi lo : Nat) : bits v hi lo < 2 ^ (hi + 1 - lo) := Nat.mod_lt _ (Nat.two_pow_pos _)

end Sys2Proof.Machine
end

