-- ==== Sys2Proof/Laws/Commands.lean ====
section
/-! SUPPORT. The laws of the guards of commands: what a guarded effect does to a block that lets it through. -/

namespace Sys2Proof.Machine

/-- A command whose operands name elements the device has carries out its effect. -/
theorem perform_ok {ok : Bool} (h : ok = true) (e : Eff) (s : State) : perform ok e s = .next { s with dev := e.run s.dev } := by
  subst h
  rfl

theorem run_whileIt {c : Device → Bool} {d : Device} (h : c d = true) (e : Eff) : (whileIt c e).run d = e.run d := by
  simp [whileIt, h]

/-- Who may write STW_SITE_QUERY: the steward, and at its own copy a physical function's driver or a partition owner. -/
theorem mayWrite_siteQuery (d : Device) (rq i : Nat) : mayWrite d rq .STW_SITE_QUERY i =
    if isSteward rq then allBits else if i == rq && pfOrOwner d rq then allBits else 0 := rfl

/-- What a requester holds of half accesses is no part of what decides whether it is answered. -/
theorem answering_dropHalves (rq r : Nat) (d : Device) : answering ((dropHalves r).run d) rq = answering d rq := rfl

theorem powered_dropHalves (r : Nat) (d : Device) : powered ((dropHalves r).run d) = powered d := rfl

theorem powerState_dropHalves (r : Nat) (d : Device) : powerState ((dropHalves r).run d) = powerState d := rfl

theorem wakeEnabled_dropHalves (r k : Nat) (d : Device) : wakeEnabled ((dropHalves r).run d) k = wakeEnabled d k := rfl

theorem fld_dropHalves (r : Nat) (f : Fld) (i : Nat) (d : Device) : ((dropHalves r).run d).fld f i = d.fld f i := rfl

theorem off_of_powered {d : Device} (h : powered d = true) : d.off = 0 := by
  simp [powered] at h
  exact h.1.1

theorem off_of_hosted {d : Device} (h : hosted d = true) : d.off = 0 := by
  simp [hosted] at h
  exact h.1

/-- A reset of a port whose functions are there, with what they own ended by `e`. -/
theorem run_portResetWith {d : Device} (q kind : Nat) (e : Eff) (hp : hosted d = true) :
    (Eff.obs fun d => .when (d.off == 0) <| .seq (.when (hosted d) e)
      (setF F.STW_PCIE_state q (if kind == 1 && d.fld F.STW_PCIE_state q != 0 then 1 else 0))).run d =
    (setF F.STW_PCIE_state q (if kind == 1 && d.fld F.STW_PCIE_state q != 0 then 1 else 0)).run (e.run d) := by
  have h0 : (d.off == 0) = true := by simp [off_of_hosted hp]
  rw [Eff.run_obs, h0, hp]
  simp only [Eff.when_true, Eff.run_seq]

theorem run_portReset {d : Device} (q kind : Nat) (hp : hosted d = true) : (portReset q kind).run d =
    (setF F.STW_PCIE_state q (if kind == 1 && d.fld F.STW_PCIE_state q != 0 then 1 else 0)).run ((portResets q).run d) :=
  run_portResetWith q kind (portResets q) hp

/-- Six effects in turn. -/
theorem run_all_snoc (e1 e2 e3 e4 e5 e6 : Eff) (d : Device) :
    e6.run ((Eff.all [e1, e2, e3, e4, e5]).run d) = (Eff.all [e1, e2, e3, e4, e5, e6]).run d := by
  simp only [Eff.run_all_cons, Eff.run_all_nil]

/-- A command of a requester that a block is up for, or woken for. -/
theorem run_hostElse {s : State} {rq : Nat} {d : Device} (h : Asks s rq d) (lost e : Eff) :
    (hostElse rq lost e).run s.dev = e.run d := by
  obtain ⟨-, ha, hv, rfl⟩ := h
  simp only [hostElse, Eff.run_seq, run_whileIt (c := (answering · rq)) ha, wakeElse, Eff.run_obs, answering_dropHalves, ha,
    Eff.when_true, powered_dropHalves, powerState_dropHalves, wakeEnabled_dropHalves, fld_dropHalves, beforeAccess]
  by_cases hp : powered s.dev = true
  · simp only [hp, if_true, Eff.run_seq]
  · obtain ⟨h1, h2, h3, h4⟩ := hv.resolve_left hp
    simp [hp, h1, h2, h3, h4]

theorem run_hostDo {s : State} {rq : Nat} {d : Device} (h : Asks s rq d) (e : Eff) : (hostDo rq e).run s.dev = e.run d :=
  run_hostElse h _ e

/-- A command of a requester on an element whose site is in service, or from the steward. -/
theorem run_atSite {s : State} {rq : Nat} {d : Device} (h : Asks s rq d) {r : Reg} {i : Nat}
    (hb : (isSteward rq || !siteGone d r i) = true) (e : Eff) : (atSite rq r i e).run s.dev = e.run d := by
  simp [atSite, run_hostDo h, hb]

theorem run_aonDo {s : State} {rq : Nat} {d : Device} (h : AsksAon s rq d) (e : Eff) : (aonDo rq e).run s.dev = e.run d := by
  obtain ⟨-, ha, rfl⟩ := h
  simp [aonDo, ha]

theorem run_writes {s : State} {rq : Nat} {r : Reg} {i v b : Nat} {d : Device} (h : Writes s rq r i v b d) (act : Eff) :
    (hostDo rq (writeAct rq r i v b act)).run s.dev = act.run d := by
  obtain ⟨ha, hr, rfl⟩ := h
  simp [run_hostDo ha, writeAct, hr]

theorem run_writesAt {s : State} {rq : Nat} {r : Reg} {i v b : Nat} {d : Device} (h : Writes s rq r i v b d) {q : Reg} {j : Nat}
    (hb : (isSteward rq || !siteGone ((beforeAccess rq).run s.dev) q j) = true) (act : Eff) :
    (atSite rq q j (writeAct rq r i v b act)).run s.dev = act.run d := by
  obtain ⟨ha, hr, rfl⟩ := h
  simp [run_atSite ha hb, writeAct, hr]

theorem run_writesAon {s : State} {rq : Nat} {r : Reg} {i v b : Nat} {d : Device} (h : WritesAon s rq r i v b d) (act : Eff) :
    (aonDo rq (writeAct rq r i v b act)).run s.dev = act.run d := by
  obtain ⟨ha, hr, rfl⟩ := h
  simp [run_aonDo ha, writeAct, hr]

theorem run_accessDo {s : State} {rq : Nat} {r : Reg} {d : Device} (h : AsksFor s rq r d) (lost e : Eff) :
    (accessDo rq r lost e).run s.dev = e.run d := by
  unfold AsksFor at h
  unfold accessDo
  cases ha : alwaysOn r <;> simp only [ha, if_true, Bool.false_eq_true, if_false] at h ⊢
  · exact run_hostElse h _ _
  · exact run_aonDo h _

theorem AsksFor.lt {s : State} {rq : Nat} {r : Reg} {d : Device} (h : AsksFor s rq r d) : rq < 2049 := by
  unfold AsksFor at h
  split at h
  · exact h.1
  · exact h.1

theorem writeReg_plain {r : Reg} (h : plainReg r = true) (rq i v : Nat) : writeReg rq r i v = plainWrite rq r i v := by
  cases r <;> first | rfl | simp [plainReg] at h

theorem Asks.lt {s : State} {rq : Nat} {d : Device} (h : Asks s rq d) : rq < 2049 := h.1

theorem AsksAon.lt {s : State} {rq : Nat} {d : Device} (h : AsksAon s rq d) : rq < 2049 := h.1

/-- A step that its core may issue has its effect, with the errors its reads meet. -/
theorem run_issueWith {s : State} {core kind : Nat} {x : StepCtx} {d : Device} (h : Runs s core kind x d) {p : BitVec 128 → Bool}
    (hp : p x.w = true) (run : StepCtx → Eff) :
    (whileIt (coreClocked core) (issueWith core kind p x.fixed x.lost run)).run s.dev = (run x).run d := by
  obtain ⟨-, hc, hf, hs, hk, hx, rfl⟩ := h
  subst hx
  simp [whileIt, coreClocked, hc, issueWith, hs, hf, hk, hp, arriveAt]

/-- A step whose reads meet no error has its effect. -/
theorem run_issue {s : State} {core kind : Nat} {x : StepCtx} {d : Device} (h : Runs s core kind x d) {p : BitVec 128 → Bool}
    (hp : p x.w = true) (run : StepCtx → Eff) :
    (whileIt (coreClocked core) (issue core kind p run)).run s.dev = (run { x with fixed := [], lost := [] }).run d := by
  obtain ⟨-, hc, hf, hs, hk, hx, rfl⟩ := h
  subst hx
  simp [whileIt, coreClocked, hc, issue, issueWith, hs, hf, hk, hp, arriveAt]

theorem run_seqServe {s : State} {die op : Nat} {q : SeqReq} (h : Serves s die op q) (run : SeqReq → Eff) :
    (whileIt working (seqServe die op run)).run s.dev = (run q).run s.dev := by
  obtain ⟨-, hw, hr, rfl, hf, hk⟩ := h
  obtain ⟨k, hs, hq⟩ := Option.bind_eq_some_iff.1 hr
  simp only [whileIt, hw, Eff.when_true, Eff.run_obs, seqServe, hs, hq, hf, hk, beq_self_eq_true]
  rfl

/-- A doorbell, a poll and a resume read the descriptor at head. -/
theorem exec_fetches {s : State} {c : Instr} {n : Nat} {fixed lost : List Nat} {d : Device} (h : Fetches s c n fixed lost d) :
    exec c s = .next { s with dev := (ringFetch n fixed lost).run d } := by
  obtain ⟨hn, ⟨rq, rfl, ha, hg, hw⟩ | ⟨rfl, rfl⟩ | ⟨rq, v, d0, rfl, hw, hg, hb, hs, rfl⟩⟩ := h
  · have hw' : (mayWrite d rq .DMA_RING_DOORBELL n == 0) = false := beq_eq_false_iff_ne.2 hw
    simp only [exec, execRingDoorbell, ha.lt, hn, decide_true, Bool.and_self, perform_true, run_atSite ha hg, ringDoorbell, Eff.run_obs,
      hw', Bool.false_eq_true, if_false]
  · simp only [exec, execRingPoll, hn, decide_true, perform_true, ringPoll]
  · simp only [exec, execRingResume, hw.asks.lt, hn, decide_true, Bool.and_self, perform_true, run_atSite hw.asks hg, ringResume,
      writeAct, Eff.run_obs, hw.right, beq_self_eq_true, if_true, Eff.run_seq, hw.found, hb, hs, Eff.when_true]

/-- A library command that is not busy begins, and runs where it need not wait. -/
theorem run_flsCommand {s : State} {rq op entry : Nat} {d : Device} {j : FlsJob} (h : AsksLibrary s rq op entry d j) :
    (hostDo rq (flsCommand rq op entry)).run s.dev = runJob.run d := by
  obtain ⟨⟨d0, ha, hb, rfl, -⟩, -, hr⟩ := h
  rw [run_hostDo ha]
  simp only [flsCommand, Eff.run_obs, hr, hb, Bool.true_and, beq_self_eq_true, Eff.when_true, libraryBegins, Eff.run_all_cons,
    Eff.run_all_nil]

theorem AsksLibrary.pending {s : State} {rq op entry : Nat} {d : Device} {j : FlsJob} (h : AsksLibrary s rq op entry d j) :
    d.flsPending = some j ∧ j.code = none := by
  obtain ⟨⟨d0, -, -, rfl, rfl⟩, -, -⟩ := h
  exact ⟨rfl, rfl⟩

theorem run_flsJob {s : State} {rq op entry code : Nat} {d : Device} {j : FlsJob} {e : Eff} (h : RunsLibrary s rq op entry d j)
    (hr : jobEffect j d = (code, e)) :
    (hostDo rq (flsCommand rq op entry)).run s.dev = (libraryRuns j code e).run d := by
  rw [run_flsCommand h.asks]
  simp only [runJob, Eff.run_obs, h.asks.pending.1, h.asks.pending.2, Option.isNone_none, h.whole, h.free, hr, Bool.true_and,
    Bool.not_false, Bool.or_true, Eff.when_true, libraryRuns]

theorem run_withWords {x : StepCtx} {d d' : Device} {g : Int} {n : Nat} {need : Nat → Bool} (h : ReadsWords x d g n need d')
    (k : Nat → Eff) : (withWords x g n need k).run d = (k g.toNat).run d' := by
  obtain ⟨hi, hs, rfl⟩ := h
  simp [withWords, hi, hs]

theorem run_withWords_bad {x : StepCtx} {d d' : Device} {g : Int} {n code bad : Nat} {need : Nat → Bool}
    (h : BadWords x d g n need code bad d') (k : Nat → Eff) : (withWords x g n need k).run d = (stepFault x code bad).run d' := by
  rcases h with ⟨hi, rfl, rfl, rfl⟩ | ⟨hi, rfl, rfl, hp⟩
  · simp [withWords, hi]
  · simp [withWords, hi, hp]

theorem run_withDest_bad {x : StepCtx} {d : Device} {g : Int} {n : Nat} (h : granulesOk g n = false) (k : Nat → Eff) :
    (withDest x g n k).run d = (stepFault x 0x01 (g % 2 ^ 56).toNat).run d := by simp [withDest, h]

theorem run_withTile {x : StepCtx} {d d' : Device} {g : Int} {n : Nat} (h : ReadsTile x d g n d') (k : Nat → Eff) :
    (withTile x g n k).run d = (k g.toNat).run d' := run_withWords h k

theorem run_withRows {x : StepCtx} {d d' : Device} {g : Int} {rows pitch n : Nat} (h : ReadsRows x d g rows pitch n d')
    (k : Nat → Eff) : (withRows x g rows pitch n k).run d = (k g.toNat).run d' := run_withWords h k

theorem run_withDest {x : StepCtx} {d d' : Device} {g : Int} {n : Nat} (h : TakesDest x d g n d') (k : Nat → Eff) :
    (withDest x g n k).run d = (k g.toNat).run d' := by
  obtain ⟨hi, hf, rfl⟩ := h
  rw [unread] at hf
  simp only [withDest, hi, unlessRead, Eff.run_obs, hf, Eff.when_true, Bool.not_true, Bool.false_eq_true, if_false, Eff.run_seq]

theorem run_unlessRead {d : Device} {core g n : Nat} (h : unread d core g n = true) (k : Eff) :
    (unlessRead core g n k).run d = k.run d := by
  rw [unread] at h
  simp only [unlessRead, Eff.run_obs, h, Eff.when_true]

/-- An access whose walks meet nothing that stops them goes on. -/
theorem run_withWalk {x : StepCtx} {d d' : Device} {win : WindowRec} {os : List Int} (h : Walks x d win os d') (fault : Nat → Eff)
    (k : Eff) : (withWalk x win os x.fixed x.lost fault k).run d = k.run d' := by
  obtain ⟨hf, hs, rfl⟩ := h
  simp only [withWalk, Eff.run_obs, hf, hs, Bool.not_false, Eff.when_true, Eff.run_seq, Bool.false_eq_true, if_false]

/-- A packet that arrives whole and in order and is handled has its effect. -/
theorem run_packetFrom {s : State} {i seq : Nat} {bs : List Byte} {p : Packet} {d : Device} (h : Comes s i seq bs p d)
    {mine : Device → Packet → Bool} (hm : mine s.dev p = true) (act : Packet → Eff) :
    (whileIt powered (packetFrom i seq bs mine act)).run s.dev = (act p).run d := by
  obtain ⟨-, -, -, hp, hu, hb, hw, rfl, rfl, rfl⟩ := h
  simp [run_whileIt hp, packetFrom, hu, hb, hw, hm]

theorem run_packetIn {s : State} {i seq : Nat} {bs : List Byte} {p : Packet} {d : Device} (h : Arrives s i seq bs p d)
    {mine : Device → Packet → Bool} (hm : mine s.dev p = true) (act : Packet → Eff) :
    (whileIt powered (packetIn i seq bs mine act)).run s.dev = (act p).run d := by
  obtain ⟨d0, hc, rfl⟩ := h
  rw [packetIn, run_packetFrom hc hm]
  simp only [Eff.run_all_cons, Eff.run_all_nil, Eff.run_seq]

theorem Comes.ok {s : State} {i seq : Nat} {bs : List Byte} {p : Packet} {d : Device} (h : Comes s i seq bs p d) :
    (decide (i < 96) && decide (seq < 4096) && decide (bs.length < 66050)) = true := by
  simp [h.inRange, h.seqRange, h.short]

theorem Arrives.ok {s : State} {i seq : Nat} {bs : List Byte} {p : Packet} {d : Device} (h : Arrives s i seq bs p d) :
    (decide (i < 96) && decide (seq < 4096) && decide (bs.length < 66050)) = true := by
  obtain ⟨d0, hc, -⟩ := h
  exact hc.ok

theorem Arrives.powered {s : State} {i seq : Nat} {bs : List Byte} {p : Packet} {d : Device} (h : Arrives s i seq bs p d) :
    Sys2Proof.Machine.powered s.dev = true := by
  obtain ⟨d0, hc, -⟩ := h
  exact hc.powered

/-- A packet its flow entry admits has its effect, or is refused for the reason its own part gives. -/
theorem run_checkFlow {d d' : Device} {i recv : Nat} {p : Packet} {k : Nat} {f : Flow} {data : List Byte}
    (h : Admits d recv p k f data d') (ack : Bool) (act : Device → List Byte → Sum Nat Eff) :
    (checkFlow i recv ack p act).run d = (match act d data with
      | .inl reason => answer i p reason
      | .inr e => .seq e (.when ack (answer i p 0)) : Eff).run d' := by
  obtain ⟨hf, hr, he, hv, ho, hc, rfl⟩ := h
  simp only [checkFlow, Eff.run_obs, hf]
  rw [if_neg (by simpa using hr), if_neg (by simp [he]), if_neg (by rw [hv]; decide), ho]
  simp only [Eff.run_seq, hc]
  rfl

/-- A collective packet that reaches a group has its effect there. -/
theorem run_colPacket {s : State} {i seq msg g : Nat} {bs : List Byte} {p : Packet} {d : Device} (h : Reaches s i seq bs msg g p d)
    (act : Nat → Packet → Eff) : (whileIt powered (colPacket i seq msg bs act)).run s.dev = (act g p).run d := by
  obtain ⟨q, d1, k, f, data, ha, hm, hb, hd, hg, he, hc, rfl⟩ := h.comes
  rw [colPacket, run_packetIn ha (by simp [hm, hb]), run_checkFlow hd]
  simp only [hg, he, hc]
  simp

theorem Reaches.ok {s : State} {i seq msg g : Nat} {bs : List Byte} {p : Packet} {d : Device} (h : Reaches s i seq bs msg g p d) :
    (decide (i < 96) && decide (seq < 4096) && decide (bs.length < 66050)) = true := by
  obtain ⟨q, d1, k, f, data, ha, -⟩ := h.comes
  exact ha.ok

theorem colGroupsAt_modColGroups {d : Device} (h : d.Ok) (g : Nat) (f : ColEntry → ColEntry) :
    ((modColGroups g f).run d).colGroupsAt g = f (d.colGroupsAt g) :=
  mapGet_mapSet_self h.colGroups g _

/-- A collective operation that may begin begins. -/
theorem run_colBegin {s : State} {n op : Nat} {o : ColOp} (h : Begins s n op o) :
    (whileIt Sys2Proof.Machine.working (colBegin n op)).run s.dev =
      (Eff.all [modColGroups o.entry fun e => { e with serial := e.serial + 1 }, putColOps n (some o),
        .obs fun d => .when (o.phase == 0 && mismatched d n o) (colFail n o 11)]).run s.dev := by
  obtain ⟨-, hok, hw, hr, hf, ⟨i, x, ps, hi, hx, hop, hfe, hg, hps, ho, hroot, hst⟩, ⟨hb, he, hfm⟩⟩ := h
  have hx' : (s.dev.ringsAt n).getD i {} = x := by simp [List.getD, hx]
  have hs : (colStart n op).run s.dev =
      (Eff.seq (modColGroups o.entry fun e => { e with serial := e.serial + 1 }) (putColOps n (some o))).run s.dev := by
    have hfit : (decide (groupSize s.dev o.entry ≤ x.num 0x1E 2) ||
        decide (x.num 0x28 4 < 64 * stagingNeed (innerOp x) (colAlgo (innerOp x) (s.dev.fld F.COL_GROUP_algorithm o.entry))
          (if op == 5 then o.total else o.granules) (groupSize s.dev o.entry))) = false := by
      have e1 : o.root = x.num 0x1E 2 := by rw [ho]
      have e2 : o.op = innerOp x := by rw [ho]
      have e3 : o.algo = colAlgo (innerOp x) (s.dev.fld F.COL_GROUP_algorithm o.entry) := by rw [ho]
      rw [e1] at hroot
      rw [e2, e3] at hst
      simp only [Bool.or_eq_false_iff, decide_eq_false_iff_not, beq_iff_eq]
      omega
    rw [ho] at hfit
    simp only [colStart, Eff.run_obs, hi, hf, hx', hr, hop, hfe, hg, hps, beq_self_eq_true, Bool.true_and, Eff.when_true,
      beq_eq_false_iff_ne.2 hb, beq_eq_false_iff_ne.2 he, hfm, Bool.false_eq_true, if_false, hfit]
    rw [← ho]
  rw [run_whileIt hw, colBegin, Eff.run_seq, hs]
  have h1 : ((putColOps n (some o)).run ((modColGroups o.entry fun e => { e with serial := e.serial + 1 }).run s.dev)).colOpsAt n =
      some o := mapGet_mapSet_self (m := s.dev.colOps) hok.colOps n (some o)
  simp only [Eff.run_seq, Eff.run_obs, h1, Eff.run_all_cons, Eff.run_all_nil]

/-- The same of a packet that a working device alone handles. -/
theorem run_colPacket_working {s : State} {i seq msg g : Nat} {bs : List Byte} {p : Packet} {d : Device}
    (h : Reaches s i seq bs msg g p d) (hw : Sys2Proof.Machine.working s.dev = true) (act : Nat → Packet → Eff) :
    (whileIt Sys2Proof.Machine.working (colPacket i seq msg bs act)).run s.dev = (act g p).run d := by
  rw [run_whileIt hw, ← run_colPacket h, run_whileIt]
  obtain ⟨q, d1, k, f, data, ha, -⟩ := h.comes
  exact ha.powered

/-- A job an engine takes is carried out. -/
theorem run_onJob {s : State} {e op n : Nat} {x : Desc} {d : Device} (h : TakesJob s e op n x d) (run : Nat → Desc → Eff) :
    (whileIt Sys2Proof.Machine.serving (onJob e op run)).run s.dev = (run n x).run d := by
  obtain ⟨-, hv, hs, ht, rfl, rfl⟩ := h
  simp only [run_whileIt hv, onJob, Eff.run_obs, hs, ht, beq_self_eq_true, Eff.when_true, Eff.run_seq]

/-- A job on its open session of a direction that has the op is carried out there. -/
theorem run_onSession {s : State} {e op n : Nat} {x : Desc} {d : Device} (h : TakesJob s e op n x d) {us : Nat} {q : Session}
    {dir : Session → Bool} (hq : d.sessionsAt (e * 16 + x.session) = some q) (hr : (q.ring == n && dir q) = true)
    (run : Nat → Desc → Nat → Session → Eff) :
    (whileIt Sys2Proof.Machine.serving (onSession e op us dir run)).run s.dev = (run n x (e * 16 + x.session) q).run d := by
  rw [onSession, run_onJob h]
  simp only [Eff.run_obs, hq, hr, if_true]

theorem bits_secValue_op {op : Nat} (h : op < 16) (index : Nat) : bits (secValue op index) 29 26 = op := by
  unfold bits secValue
  have : (2147483648 + op * 67108864 + index % 65536) / 2 ^ 26 = 32 + op := by omega
  rw [this]
  omega

theorem bits_secValue_index (op : Nat) {index : Nat} (h : index < 65536) : bits (secValue op index) 15 0 = index := by
  unfold bits secValue
  simp
  omega

/-- What a window that is not busy and not barred makes of a write of SEC_CMD. -/
theorem run_secServed {rq w v op index code : Nat} {d : Device} {run : Device → Nat × Eff} {e : Eff} (e1 : bits v 29 26 = op)
    (e2 : bits v 15 0 = index) (hb : d.fld F.SEC_CMD_busy w = 0) (hq : secQuarantined d op = false)
    (hg : secInRange w op index (secArg d w) = true) (hr : run d = (code, e)) {s : State}
    (ha : WritesAon s rq .SEC_CMD w v 31 d) :
    (aonDo rq (secCommand rq w v run)).run s.dev = (keyRuns w op index code (.when (code == 0) e)).run d := by
  subst e1 e2
  rw [secCommand, run_writesAon ha]
  simp only [Eff.run_obs, hq, hg, hr, hb, Bool.false_eq_true, if_false, Bool.not_true, beq_self_eq_true, Eff.when_true, keyRuns]

/-- A key or attestation command that is served acts as its own part says. -/
theorem run_secCommand {s : State} {rq w op index code : Nat} {d : Device} {run : Device → Nat × Eff} {e : Eff}
    (h : AsksKeys s rq w op index d) (hr : run d = (code, e)) :
    (aonDo rq (secCommand rq w (secValue op index) run)).run s.dev = (keyRuns w op index code (.when (code == 0) e)).run d :=
  run_secServed (bits_secValue_op h.op_lt index) (bits_secValue_index op h.index_lt) h.idle h.allowed h.inRange hr h.asks

end Sys2Proof.Machine
end

