-- ==== Sys2Proof/Laws/PerInstr.lean ====
section
/-! SUPPORT. One lemma per command: a well-formed command that a requester sends names a requester there is, the steward (0) or
function f of port p (1 + p × 1,024 + f). -/

namespace Sys2Proof.Laws.Operands

/-- The requester that sends a command; none for an event that befalls the block. -/
def requester : Instr → Option Nat
  | .registerWrite rq _ _ _ => some rq
  | .registerReadClear rq _ _ _ => some rq
  | .halfReadLow rq _ _ => some rq
  | .halfReadHigh rq _ _ => some rq
  | .halfWriteLow rq _ _ _ => some rq
  | .halfWriteHigh rq _ _ _ => some rq
  | .badSizeAccess rq _ => some rq
  | .siteQuery rq _ => some rq
  | .siteResultValid rq => some rq
  | .engineSubstitution _ _ _ _ => none
  | .coreSubstitution _ _ => none
  | .clusterSubstitution _ => none
  | .dieSubstitution _ => none
  | .codecEngineRetire _ => none
  | .ingestUnitRetire _ => none
  | .shellRetire _ _ => none
  | .routeInstall => none
  | .figLoadGo rq _ _ => some rq
  | .loadStart => none
  | .loadComplete _ => none
  | .figSwitchGo rq _ _ => some rq
  | .figSwitchCancel rq _ _ => some rq
  | .switchProceed _ _ _ => none
  | .figStageDiscard rq _ _ _ => some rq
  | .figMinverWrite rq _ _ => some rq
  | .patchApply _ => none
  | .load _ _ _ => none
  | .store _ _ _ => none
  | .product _ _ _ => none
  | .rotate _ _ _ => none
  | .quant _ _ _ => none
  | .rowExp2 _ _ _ => none
  | .rowLog2 _ _ _ => none
  | .rowReciprocal _ _ _ => none
  | .rowRsqrt _ _ _ => none
  | .rowDivideByAux _ _ _ => none
  | .rowExp _ _ _ => none
  | .rowTanh _ _ _ => none
  | .rowSigmoid _ _ _ => none
  | .rowSilu _ _ _ => none
  | .rowGelu _ _ _ => none
  | .rowSoftplus _ _ _ => none
  | .rowMaximumToAux _ _ _ => none
  | .rowExp2ScaledDifference _ _ _ => none
  | .rowScaleByReciprocal _ _ _ => none
  | .rowMeanAndSquares _ _ _ => none
  | .rowNormalise _ _ _ => none
  | .epi _ _ _ => none
  | .halo _ _ _ _ _ _ => none
  | .wait _ => none
  | .waitSatisfied _ => none
  | .signal _ => none
  | .atomAddInt32 _ _ _ => none
  | .atomAddFp32 _ _ _ => none
  | .atomAddBf16 _ _ _ => none
  | .atomMinInt32 _ _ _ => none
  | .atomMaxInt32 _ _ _ => none
  | .atomMinFp32 _ _ _ => none
  | .atomMaxFp32 _ _ _ => none
  | .atomMinBf16 _ _ _ => none
  | .atomMaxBf16 _ _ _ => none
  | .atomVectorReduceAddFp32 _ _ _ => none
  | .atomVectorReduceAddBf16 _ _ _ => none
  | .semAcquire _ => none
  | .semTry _ => none
  | .semRelease _ => none
  | .semGrant _ => none
  | .sel _ _ _ => none
  | .beat _ _ => none
  | .watchdogExpiry _ => none
  | .seqDoorbell rq _ _ => some rq
  | .seqTailPoll _ _ => none
  | .lookup _ => none
  | .insert _ => none
  | .release _ => none
  | .verify _ => none
  | .nodeRead _ => none
  | .flushScope _ => none
  | .pfxRekey rq _ => some rq
  | .pfxFlush rq _ => some rq
  | .pfxEnable rq _ _ => some rq
  | .seqRingEnable rq _ _ _ => some rq
  | .waymapWrite rq _ _ => some rq
  | .wayownWrite rq _ _ _ => some rq
  | .wayClearDone _ _ => none
  | .dramTrain rq _ _ => some rq
  | .dramTrainDone _ _ _ => none
  | .dqLaneFail _ => none
  | .caLaneFail _ => none
  | .channelRetire _ => none
  | .groupPoisonDone _ => none
  | .patrolScrub _ _ _ => none
  | .bankRepair _ _ => none
  | .bankCopyDone _ _ => none
  | .stackTempSample _ _ => none
  | .driverMapInval rq _ _ => some rq
  | .promote rq _ _ => some rq
  | .demote rq _ _ => some rq
  | .autoPromote _ _ => none
  | .promoteDone _ => none
  | .frameFree _ _ => none
  | .flsOpen rq _ => some rq
  | .flsWrite rq _ => some rq
  | .flsCommit rq _ => some rq
  | .flsAbort rq _ => some rq
  | .flsRetire rq _ => some rq
  | .readEntry rq _ => some rq
  | .flsCmdComplete => none
  | .relocation _ => none
  | .flashScrub _ _ _ _ => none
  | .layerCopyDone _ _ => none
  | .ringReleaseSeen _ => none
  | .ringDoorbell rq _ _ _ => some rq
  | .ringPoll _ _ _ => none
  | .dmaBurst _ _ _ _ => none
  | .dmaComplete _ => none
  | .ringResume rq _ _ _ _ => some rq
  | .ringCancel rq _ _ => some rq
  | .ringEnable rq _ _ => some rq
  | .ringCancelDone _ => none
  | .cueEvent _ _ _ _ => none
  | .cueSelect rq _ _ => some rq
  | .cueOverflowClear rq _ _ => some rq
  | .cueAdd rq _ _ => some rq
  | .laneSwitch _ _ _ => none
  | .controlFlit _ _ _ _ => none
  | .retryReplay _ => none
  | .linkDownTimeout _ => none
  | .groupFailover _ _ _ => none
  | .failoverPacket _ _ _ => none
  | .linkSiteFail _ => none
  | .siteRetrainDone _ => none
  | .packetAdmit _ _ => none
  | .packetForward _ _ _ => none
  | .linkWriteReceive _ _ _ => none
  | .linkCueReceive _ _ _ => none
  | .endToEndAck _ _ _ => none
  | .refusal _ _ _ => none
  | .e2eTimeout _ => none
  | .flowTableSync rq _ => some rq
  | .portTraining _ _ => none
  | .portTrainDone _ _ _ => none
  | .identityExchange _ _ _ _ _ _ _ _ _ _ => none
  | .candidateFlood _ _ _ => none
  | .assign _ _ _ _ _ => none
  | .assignAnswer _ _ _ => none
  | .promenadeDone _ _ _ => none
  | .mapBroadcast _ _ _ _ _ => none
  | .rewalk rq _ => some rq
  | .rootLostTimeout => none
  | .portAttach _ _ => none
  | .portRetrainRetry _ => none
  | .allReduce _ => none
  | .reduceScatter _ => none
  | .allGather _ => none
  | .broadcast _ => none
  | .allToAll _ => none
  | .fused _ => none
  | .colReady _ _ _ => none
  | .colData _ _ _ => none
  | .stageInDone _ _ _ => none
  | .colWriteOut _ _ _ => none
  | .colComplete _ => none
  | .stepTimeout _ _ => none
  | .suspect _ _ _ => none
  | .suspectWindowEnd _ => none
  | .reform _ _ _ => none
  | .reformAck _ _ _ => none
  | .colCommit _ _ _ => none
  | .colAbort _ _ _ => none
  | .exclude _ _ _ => none
  | .leaderTimeout _ => none
  | .colRemove rq _ _ => some rq
  | .vceOpen _ _ _ _ => none
  | .encode _ _ _ _ _ => none
  | .decode _ _ _ _ _ _ => none
  | .decodeResume _ _ _ => none
  | .vceFlush _ _ _ => none
  | .vceClose _ _ => none
  | .vceJobComplete _ => none
  | .vceReturn rq _ _ => some rq
  | .engineReset _ => none
  | .vceEnable rq _ _ => some rq
  | .convert _ _ _ _ => none
  | .ingestJobComplete _ => none
  | .streamSlotReset rq _ _ => some rq
  | .ingestPublish _ => none
  | .partitionCreate rq _ _ => some rq
  | .partitionReset rq _ _ => some rq
  | .svcModeWrite rq _ => some rq
  | .regulatorAdmit _ _ _ _ => none
  | .ctxSetWrite rq _ _ => some rq
  | .ctxGo rq _ => some rq
  | .ctxStop rq _ => some rq
  | .ctxClear rq _ => some rq
  | .ctxKill rq _ => some rq
  | .ctxPrioWrite rq _ _ => some rq
  | .contextStart _ => none
  | .yield _ => none
  | .preemptSave _ _ _ => none
  | .preemptGangStart _ _ => none
  | .holdLimitExpiry _ => none
  | .teardownFinish _ => none
  | .migrationStart _ => none
  | .migrationResume _ _ => none
  | .vinSample _ _ => none
  | .vinLoss _ => none
  | .phaseFail _ _ => none
  | .clusterClockStop _ => none
  | .clusterGate _ => none
  | .clusterWake _ => none
  | .governorTick _ _ _ _ _ _ => none
  | .junctionTrip => none
  | .tripRelease => none
  | .restEntry _ _ _ _ => none
  | .restCollectiveTimeout => none
  | .wake _ _ _ _ => none
  | .wakeTimerExpiry => none
  | .offEntry _ _ _ _ => none
  | .aonRefLoss => none
  | .replan _ _ _ _ => none
  | .peakCharge => none
  | .selfTestCmd rq _ => some rq
  | .selfTestAbort rq _ => some rq
  | .coreTestSlice _ _ => none
  | .faultLogFlush => none
  | .stewardTakeover _ _ => none
  | .keyLoad rq _ _ => some rq
  | .keyErase rq _ _ => some rq
  | .keySeal rq _ _ => some rq
  | .keyUnseal rq _ _ => some rq
  | .linkKeyLoad rq _ _ => some rq
  | .attest rq _ _ => some rq
  | .idRead rq _ _ => some rq
  | .rootMsg rq _ _ => some rq
  | .ctxKeyWrite rq _ _ => some rq
  | .alarmPolicyWrite rq _ => some rq
  | .tamperTrip _ => none
  | .debugNonceRead => none
  | .debugCertificate _ => none
  | .powerOnSequence _ => none
  | .recoveryChunk _ _ _ _ => none
  | .perstRelease _ _ _ _ _ => none
  | .portReset _ _ => none
  | .pfFlr _ => none
  | .vfFlr _ _ => none
  | .devReset rq _ _ => some rq
  | .configRequest _ _ _ => none
  | .vfEnable _ _ => none
  | .bar4Access _ _ _ _ => none
  | .fwWriteSlot rq _ _ => some rq
  | .fwPreferSlot rq _ _ => some rq
  | .fwCommitMinver rq _ => some rq
  | .doorbellPageWrite _ _ _ _ _ => none
  | .dbBind rq _ => some rq
  | .dbUnbind rq _ => some rq
  | .mctpControl _ _ _ _ => none
  | .pldmSensorRead _ _ => none
  | .pldmSetEventReceiver _ _ => none
  | .pldmPowerState _ _ => none
  | .pldmClearHalt _ => none
  | .haltAssert _ _ _ => none
  | .haltRelease _ => none
  | .haltDiscrepancy _ => none
  | .haltClear rq _ => some rq
  | .streamTileDelivery _ _ _ _ => none
  | .uncorrectableCodeword _ _ => none
  | .rowRepairDone _ _ => none
  | .stewardDieLoss => none
  | .flashStackLoss _ => none
  | .secCmdComplete _ => none
  | .fwCtrlComplete => none
  | .flowTableLoadDone => none

/-- The requester of a well-formed command is one of the 2,049 there are. -/
def Statement (i : Instr) : Prop := i.wellFormed = true → (requester i).all (· < 2049) = true

/-- The first of two conditions that both hold. -/
theorem first {a b : Bool} (h : (a && b) = true) : a = true := (Bool.and_eq_true_iff.1 h).1

theorem registerWrite (a0 : Nat) (a1 : Bool) (a2 : Nat) (a3 : Nat) : Statement (.registerWrite a0 a1 a2 a3) := fun h
    => h
theorem registerReadClear (a0 : Nat) (a1 : Bool) (a2 : Nat) (a3 : Nat) : Statement (.registerReadClear a0 a1 a2 a3)
    := fun h => first h
theorem halfReadLow (a0 : Nat) (a1 : Bool) (a2 : Nat) : Statement (.halfReadLow a0 a1 a2) := fun h => h
theorem halfReadHigh (a0 : Nat) (a1 : Bool) (a2 : Nat) : Statement (.halfReadHigh a0 a1 a2) := fun h => h
theorem halfWriteLow (a0 : Nat) (a1 : Bool) (a2 : Nat) (a3 : Nat) : Statement (.halfWriteLow a0 a1 a2 a3) := fun h
    => h
theorem halfWriteHigh (a0 : Nat) (a1 : Bool) (a2 : Nat) (a3 : Nat) : Statement (.halfWriteHigh a0 a1 a2 a3) := fun h
    => h
theorem badSizeAccess (a0 : Nat) (a1 : Bool) : Statement (.badSizeAccess a0 a1) := fun h => h
theorem siteQuery (a0 : Nat) (a1 : Nat) : Statement (.siteQuery a0 a1) := fun h => h
theorem siteResultValid (a0 : Nat) : Statement (.siteResultValid a0) := fun h => h
theorem engineSubstitution (a0 : Nat) (a1 : Nat) (a2 : Option Nat) (a3 : Bool) : Statement (.engineSubstitution a0
    a1 a2 a3) := fun _ => rfl
theorem coreSubstitution (a0 : Nat) (a1 : Bool) : Statement (.coreSubstitution a0 a1) := fun _ => rfl
theorem clusterSubstitution (a0 : Nat) : Statement (.clusterSubstitution a0) := fun _ => rfl
theorem dieSubstitution (a0 : Nat) : Statement (.dieSubstitution a0) := fun _ => rfl
theorem codecEngineRetire (a0 : Nat) : Statement (.codecEngineRetire a0) := fun _ => rfl
theorem ingestUnitRetire (a0 : Nat) : Statement (.ingestUnitRetire a0) := fun _ => rfl
theorem shellRetire (a0 : Nat) (a1 : Bool) : Statement (.shellRetire a0 a1) := fun _ => rfl
theorem routeInstall : Statement (.routeInstall) := fun _ => rfl
theorem figLoadGo (a0 : Nat) (a1 : Nat) (a2 : Nat) : Statement (.figLoadGo a0 a1 a2) := fun h => first h
theorem loadStart : Statement (.loadStart) := fun _ => rfl
theorem loadComplete (a0 : Nat) : Statement (.loadComplete a0) := fun _ => rfl
theorem figSwitchGo (a0 : Nat) (a1 : Nat) (a2 : Nat) : Statement (.figSwitchGo a0 a1 a2) := fun h => first h
theorem figSwitchCancel (a0 : Nat) (a1 : Nat) (a2 : Nat) : Statement (.figSwitchCancel a0 a1 a2) := fun h => first h
theorem switchProceed (a0 : Nat) (a1 : Nat) (a2 : List (Nat × Nat)) : Statement (.switchProceed a0 a1 a2) := fun _ => rfl
theorem figStageDiscard (a0 : Nat) (a1 : Nat) (a2 : Nat) (a3 : Nat) : Statement (.figStageDiscard a0 a1 a2 a3) :=
    fun h => first (first h)
theorem figMinverWrite (a0 : Nat) (a1 : Nat) (a2 : Nat) : Statement (.figMinverWrite a0 a1 a2) := fun h => first h
theorem patchApply (a0 : Nat) : Statement (.patchApply a0) := fun _ => rfl
theorem load (a0 : Nat) (a1 : List Nat) (a2 : List Nat) : Statement (.load a0 a1 a2) := fun _ => rfl
theorem store (a0 : Nat) (a1 : List Nat) (a2 : List Nat) : Statement (.store a0 a1 a2) := fun _ => rfl
theorem product (a0 : Nat) (a1 : List Nat) (a2 : List Nat) : Statement (.product a0 a1 a2) := fun _ => rfl
theorem rotate (a0 : Nat) (a1 : List Nat) (a2 : List Nat) : Statement (.rotate a0 a1 a2) := fun _ => rfl
theorem quant (a0 : Nat) (a1 : List Nat) (a2 : List Nat) : Statement (.quant a0 a1 a2) := fun _ => rfl
theorem rowExp2 (a0 : Nat) (a1 : List Nat) (a2 : List Nat) : Statement (.rowExp2 a0 a1 a2) := fun _ => rfl
theorem rowLog2 (a0 : Nat) (a1 : List Nat) (a2 : List Nat) : Statement (.rowLog2 a0 a1 a2) := fun _ => rfl
theorem rowReciprocal (a0 : Nat) (a1 : List Nat) (a2 : List Nat) : Statement (.rowReciprocal a0 a1 a2) := fun _ =>
    rfl
theorem rowRsqrt (a0 : Nat) (a1 : List Nat) (a2 : List Nat) : Statement (.rowRsqrt a0 a1 a2) := fun _ => rfl
theorem rowDivideByAux (a0 : Nat) (a1 : List Nat) (a2 : List Nat) : Statement (.rowDivideByAux a0 a1 a2) := fun _ =>
    rfl
theorem rowExp (a0 : Nat) (a1 : List Nat) (a2 : List Nat) : Statement (.rowExp a0 a1 a2) := fun _ => rfl
theorem rowTanh (a0 : Nat) (a1 : List Nat) (a2 : List Nat) : Statement (.rowTanh a0 a1 a2) := fun _ => rfl
theorem rowSigmoid (a0 : Nat) (a1 : List Nat) (a2 : List Nat) : Statement (.rowSigmoid a0 a1 a2) := fun _ => rfl
theorem rowSilu (a0 : Nat) (a1 : List Nat) (a2 : List Nat) : Statement (.rowSilu a0 a1 a2) := fun _ => rfl
theorem rowGelu (a0 : Nat) (a1 : List Nat) (a2 : List Nat) : Statement (.rowGelu a0 a1 a2) := fun _ => rfl
theorem rowSoftplus (a0 : Nat) (a1 : List Nat) (a2 : List Nat) : Statement (.rowSoftplus a0 a1 a2) := fun _ => rfl
theorem rowMaximumToAux (a0 : Nat) (a1 : List Nat) (a2 : List Nat) : Statement (.rowMaximumToAux a0 a1 a2) := fun _
    => rfl
theorem rowExp2ScaledDifference (a0 : Nat) (a1 : List Nat) (a2 : List Nat) : Statement (.rowExp2ScaledDifference a0
    a1 a2) := fun _ => rfl
theorem rowScaleByReciprocal (a0 : Nat) (a1 : List Nat) (a2 : List Nat) : Statement (.rowScaleByReciprocal a0 a1 a2)
    := fun _ => rfl
theorem rowMeanAndSquares (a0 : Nat) (a1 : List Nat) (a2 : List Nat) : Statement (.rowMeanAndSquares a0 a1 a2) :=
    fun _ => rfl
theorem rowNormalise (a0 : Nat) (a1 : List Nat) (a2 : List Nat) : Statement (.rowNormalise a0 a1 a2) := fun _ => rfl
theorem epi (a0 : Nat) (a1 : List Nat) (a2 : List Nat) : Statement (.epi a0 a1 a2) := fun _ => rfl
theorem halo (a0 : Nat) (a1 : List Nat) (a2 : List Nat) (a3 : List Nat) (a4 : Nat) (a5 : Nat) : Statement (.halo a0
    a1 a2 a3 a4 a5) := fun _ => rfl
theorem wait (a0 : Nat) : Statement (.wait a0) := fun _ => rfl
theorem waitSatisfied (a0 : Nat) : Statement (.waitSatisfied a0) := fun _ => rfl
theorem signal (a0 : Nat) : Statement (.signal a0) := fun _ => rfl
theorem atomAddInt32 (a0 : Nat) (a1 : List Nat) (a2 : List Nat) : Statement (.atomAddInt32 a0 a1 a2) := fun _ => rfl
theorem atomAddFp32 (a0 : Nat) (a1 : List Nat) (a2 : List Nat) : Statement (.atomAddFp32 a0 a1 a2) := fun _ => rfl
theorem atomAddBf16 (a0 : Nat) (a1 : List Nat) (a2 : List Nat) : Statement (.atomAddBf16 a0 a1 a2) := fun _ => rfl
theorem atomMinInt32 (a0 : Nat) (a1 : List Nat) (a2 : List Nat) : Statement (.atomMinInt32 a0 a1 a2) := fun _ => rfl
theorem atomMaxInt32 (a0 : Nat) (a1 : List Nat) (a2 : List Nat) : Statement (.atomMaxInt32 a0 a1 a2) := fun _ => rfl
theorem atomMinFp32 (a0 : Nat) (a1 : List Nat) (a2 : List Nat) : Statement (.atomMinFp32 a0 a1 a2) := fun _ => rfl
theorem atomMaxFp32 (a0 : Nat) (a1 : List Nat) (a2 : List Nat) : Statement (.atomMaxFp32 a0 a1 a2) := fun _ => rfl
theorem atomMinBf16 (a0 : Nat) (a1 : List Nat) (a2 : List Nat) : Statement (.atomMinBf16 a0 a1 a2) := fun _ => rfl
theorem atomMaxBf16 (a0 : Nat) (a1 : List Nat) (a2 : List Nat) : Statement (.atomMaxBf16 a0 a1 a2) := fun _ => rfl
theorem atomVectorReduceAddFp32 (a0 : Nat) (a1 : List Nat) (a2 : List Nat) : Statement (.atomVectorReduceAddFp32 a0
    a1 a2) := fun _ => rfl
theorem atomVectorReduceAddBf16 (a0 : Nat) (a1 : List Nat) (a2 : List Nat) : Statement (.atomVectorReduceAddBf16 a0
    a1 a2) := fun _ => rfl
theorem semAcquire (a0 : Nat) : Statement (.semAcquire a0) := fun _ => rfl
theorem semTry (a0 : Nat) : Statement (.semTry a0) := fun _ => rfl
theorem semRelease (a0 : Nat) : Statement (.semRelease a0) := fun _ => rfl
theorem semGrant (a0 : Nat) : Statement (.semGrant a0) := fun _ => rfl
theorem sel (a0 : Nat) (a1 : List Nat) (a2 : List Nat) : Statement (.sel a0 a1 a2) := fun _ => rfl
theorem beat (a0 : Nat) (a1 : Nat) : Statement (.beat a0 a1) := fun _ => rfl
theorem watchdogExpiry (a0 : Nat) : Statement (.watchdogExpiry a0) := fun _ => rfl
theorem seqDoorbell (a0 : Nat) (a1 : Nat) (a2 : Nat) : Statement (.seqDoorbell a0 a1 a2) := fun h => first h
theorem seqTailPoll (a0 : Nat) (a1 : Nat) : Statement (.seqTailPoll a0 a1) := fun _ => rfl
theorem lookup (a0 : Nat) : Statement (.lookup a0) := fun _ => rfl
theorem insert (a0 : Nat) : Statement (.insert a0) := fun _ => rfl
theorem release (a0 : Nat) : Statement (.release a0) := fun _ => rfl
theorem verify (a0 : Nat) : Statement (.verify a0) := fun _ => rfl
theorem nodeRead (a0 : Nat) : Statement (.nodeRead a0) := fun _ => rfl
theorem flushScope (a0 : Nat) : Statement (.flushScope a0) := fun _ => rfl
theorem pfxRekey (a0 : Nat) (a1 : Nat) : Statement (.pfxRekey a0 a1) := fun h => first h
theorem pfxFlush (a0 : Nat) (a1 : Nat) : Statement (.pfxFlush a0 a1) := fun h => first h
theorem pfxEnable (a0 : Nat) (a1 : Nat) (a2 : Nat) : Statement (.pfxEnable a0 a1 a2) := fun h => first h
theorem seqRingEnable (a0 : Nat) (a1 : Nat) (a2 : Nat) (a3 : Nat) : Statement (.seqRingEnable a0 a1 a2 a3) := fun h
    => first (first h)
theorem waymapWrite (a0 : Nat) (a1 : Nat) (a2 : Nat) : Statement (.waymapWrite a0 a1 a2) := fun h => first h
theorem wayownWrite (a0 : Nat) (a1 : Nat) (a2 : Nat) (a3 : Nat) : Statement (.wayownWrite a0 a1 a2 a3) := fun h =>
    first (first h)
theorem wayClearDone (a0 : Nat) (a1 : Nat) : Statement (.wayClearDone a0 a1) := fun _ => rfl
theorem dramTrain (a0 : Nat) (a1 : Nat) (a2 : Nat) : Statement (.dramTrain a0 a1 a2) := fun h => first h
theorem dramTrainDone (a0 : Nat) (a1 : List Nat) (a2 : List Nat) : Statement (.dramTrainDone a0 a1 a2) := fun _ =>
    rfl
theorem dqLaneFail (a0 : Nat) : Statement (.dqLaneFail a0) := fun _ => rfl
theorem caLaneFail (a0 : Nat) : Statement (.caLaneFail a0) := fun _ => rfl
theorem channelRetire (a0 : Nat) : Statement (.channelRetire a0) := fun _ => rfl
theorem groupPoisonDone (a0 : Nat) : Statement (.groupPoisonDone a0) := fun _ => rfl
theorem patrolScrub (a0 : Nat) (a1 : List Nat) (a2 : List Nat) : Statement (.patrolScrub a0 a1 a2) := fun _ => rfl
theorem bankRepair (a0 : Nat) (a1 : Nat) : Statement (.bankRepair a0 a1) := fun _ => rfl
theorem bankCopyDone (a0 : Nat) (a1 : Nat) : Statement (.bankCopyDone a0 a1) := fun _ => rfl
theorem stackTempSample (a0 : Nat) (a1 : Nat) : Statement (.stackTempSample a0 a1) := fun _ => rfl
theorem driverMapInval (a0 : Nat) (a1 : Nat) (a2 : Nat) : Statement (.driverMapInval a0 a1 a2) := fun h => first h
theorem promote (a0 : Nat) (a1 : Nat) (a2 : Nat) : Statement (.promote a0 a1 a2) := fun h => first h
theorem demote (a0 : Nat) (a1 : Nat) (a2 : Nat) : Statement (.demote a0 a1 a2) := fun h => first h
theorem autoPromote (a0 : Nat) (a1 : Nat) : Statement (.autoPromote a0 a1) := fun _ => rfl
theorem promoteDone (a0 : Nat) : Statement (.promoteDone a0) := fun _ => rfl
theorem frameFree (a0 : Nat) (a1 : Nat) : Statement (.frameFree a0 a1) := fun _ => rfl
theorem flsOpen (a0 : Nat) (a1 : Nat) : Statement (.flsOpen a0 a1) := fun h => first h
theorem flsWrite (a0 : Nat) (a1 : Nat) : Statement (.flsWrite a0 a1) := fun h => first h
theorem flsCommit (a0 : Nat) (a1 : Nat) : Statement (.flsCommit a0 a1) := fun h => first h
theorem flsAbort (a0 : Nat) (a1 : Nat) : Statement (.flsAbort a0 a1) := fun h => first h
theorem flsRetire (a0 : Nat) (a1 : Nat) : Statement (.flsRetire a0 a1) := fun h => first h
theorem readEntry (a0 : Nat) (a1 : Nat) : Statement (.readEntry a0 a1) := fun h => first h
theorem flsCmdComplete : Statement (.flsCmdComplete) := fun _ => rfl
theorem relocation (a0 : Nat) : Statement (.relocation a0) := fun _ => rfl
theorem flashScrub (a0 : Nat) (a1 : Nat) (a2 : Bool) (a3 : Nat) : Statement (.flashScrub a0 a1 a2 a3) := fun _ =>
    rfl
theorem layerCopyDone (a0 : Nat) (a1 : Nat) : Statement (.layerCopyDone a0 a1) := fun _ => rfl
theorem ringReleaseSeen (a0 : Nat) : Statement (.ringReleaseSeen a0) := fun _ => rfl
theorem ringDoorbell (a0 : Nat) (a1 : Nat) (a2 : List Nat) (a3 : List Nat) : Statement (.ringDoorbell a0 a1 a2 a3)
    := fun h => first h
theorem ringPoll (a0 : Nat) (a1 : List Nat) (a2 : List Nat) : Statement (.ringPoll a0 a1 a2) := fun _ => rfl
theorem dmaBurst (a0 : Nat) (a1 : Option (List Byte)) (a2 : List Nat) (a3 : List Nat) : Statement (.dmaBurst a0 a1
    a2 a3) := fun _ => rfl
theorem dmaComplete (a0 : Nat) : Statement (.dmaComplete a0) := fun _ => rfl
theorem ringResume (a0 : Nat) (a1 : Nat) (a2 : Nat) (a3 : List Nat) (a4 : List Nat) : Statement (.ringResume a0 a1 a2 a3 a4) := fun h => first h
theorem ringCancel (a0 : Nat) (a1 : Nat) (a2 : Nat) : Statement (.ringCancel a0 a1 a2) := fun h => first h
theorem ringEnable (a0 : Nat) (a1 : Nat) (a2 : Nat) : Statement (.ringEnable a0 a1 a2) := fun h => first h
theorem ringCancelDone (a0 : Nat) : Statement (.ringCancelDone a0) := fun _ => rfl
theorem cueEvent (a0 : Nat) (a1 : Option Nat) (a2 : Nat) (a3 : List Nat) : Statement (.cueEvent a0 a1 a2 a3) := fun
    _ => rfl
theorem cueSelect (a0 : Nat) (a1 : Nat) (a2 : Nat) : Statement (.cueSelect a0 a1 a2) := fun h => first h
theorem cueOverflowClear (a0 : Nat) (a1 : Nat) (a2 : Nat) : Statement (.cueOverflowClear a0 a1 a2) := fun h => first
    h
theorem cueAdd (a0 : Nat) (a1 : Nat) (a2 : Nat) : Statement (.cueAdd a0 a1 a2) := fun h => first h
theorem laneSwitch (a0 : Nat) (a1 : Nat) (a2 : Bool) : Statement (.laneSwitch a0 a1 a2) := fun _ => rfl
theorem controlFlit (a0 : Nat) (a1 : Nat) (a2 : List Nat) (a3 : Nat) : Statement (.controlFlit a0 a1 a2 a3) := fun _ => rfl
theorem retryReplay (a0 : Nat) : Statement (.retryReplay a0) := fun _ => rfl
theorem linkDownTimeout (a0 : Nat) : Statement (.linkDownTimeout a0) := fun _ => rfl
theorem groupFailover (a0 : Nat) (a1 : Nat) (a2 : List Byte) : Statement (.groupFailover a0 a1 a2) := fun _ => rfl
theorem failoverPacket (a0 : Nat) (a1 : Nat) (a2 : List Byte) : Statement (.failoverPacket a0 a1 a2) := fun _ => rfl
theorem linkSiteFail (a0 : Nat) : Statement (.linkSiteFail a0) := fun _ => rfl
theorem siteRetrainDone (a0 : Nat) : Statement (.siteRetrainDone a0) := fun _ => rfl
theorem packetAdmit (a0 : Nat) (a1 : Nat) : Statement (.packetAdmit a0 a1) := fun _ => rfl
theorem packetForward (a0 : Nat) (a1 : Nat) (a2 : List Byte) : Statement (.packetForward a0 a1 a2) := fun _ => rfl
theorem linkWriteReceive (a0 : Nat) (a1 : Nat) (a2 : List Byte) : Statement (.linkWriteReceive a0 a1 a2) := fun _ =>
    rfl
theorem linkCueReceive (a0 : Nat) (a1 : Nat) (a2 : List Byte) : Statement (.linkCueReceive a0 a1 a2) := fun _ => rfl
theorem endToEndAck (a0 : Nat) (a1 : Nat) (a2 : List Byte) : Statement (.endToEndAck a0 a1 a2) := fun _ => rfl
theorem refusal (a0 : Nat) (a1 : Nat) (a2 : List Byte) : Statement (.refusal a0 a1 a2) := fun _ => rfl
theorem e2eTimeout (a0 : Nat) : Statement (.e2eTimeout a0) := fun _ => rfl
theorem flowTableSync (a0 : Nat) (a1 : Nat) : Statement (.flowTableSync a0 a1) := fun h => h
theorem portTraining (a0 : Nat) (a1 : List Byte) : Statement (.portTraining a0 a1) := fun _ => rfl
theorem portTrainDone (a0 : Nat) (a1 : List Nat) (a2 : Bool) : Statement (.portTrainDone a0 a1 a2) := fun _ => rfl
theorem identityExchange (a0 : Nat) (a1 : Nat) (a2 : Nat) (a3 : Nat) (a4 : Nat) (a5 : Nat) (a6 : Nat) (a7 : Nat) (a8
    : Bool) (a9 : Bool) : Statement (.identityExchange a0 a1 a2 a3 a4 a5 a6 a7 a8 a9) := fun _ => rfl
theorem candidateFlood (a0 : Option Nat) (a1 : Bool) (a2 : Nat) : Statement (.candidateFlood a0 a1 a2) := fun _ =>
    rfl
theorem assign (a0 : Nat) (a1 : Nat) (a2 : Nat) (a3 : Nat) (a4 : Nat) : Statement (.assign a0 a1 a2 a3 a4) := fun _
    => rfl
theorem assignAnswer (a0 : Nat) (a1 : Bool) (a2 : Bool) : Statement (.assignAnswer a0 a1 a2) := fun _ => rfl
theorem promenadeDone (a0 : Nat) (a1 : List Byte) (a2 : List Byte) : Statement (.promenadeDone a0 a1 a2) := fun _ =>
    rfl
theorem mapBroadcast (a0 : Option Nat) (a1 : List Byte) (a2 : List Byte) (a3 : Nat) (a4 : Nat) : Statement
    (.mapBroadcast a0 a1 a2 a3 a4) := fun _ => rfl
theorem rewalk (a0 : Nat) (a1 : Nat) : Statement (.rewalk a0 a1) := fun h => h
theorem rootLostTimeout : Statement (.rootLostTimeout) := fun _ => rfl
theorem portAttach (a0 : Nat) (a1 : List Byte) : Statement (.portAttach a0 a1) := fun _ => rfl
theorem portRetrainRetry (a0 : Nat) : Statement (.portRetrainRetry a0) := fun _ => rfl
theorem allReduce (a0 : Nat) : Statement (.allReduce a0) := fun _ => rfl
theorem reduceScatter (a0 : Nat) : Statement (.reduceScatter a0) := fun _ => rfl
theorem allGather (a0 : Nat) : Statement (.allGather a0) := fun _ => rfl
theorem broadcast (a0 : Nat) : Statement (.broadcast a0) := fun _ => rfl
theorem allToAll (a0 : Nat) : Statement (.allToAll a0) := fun _ => rfl
theorem fused (a0 : Nat) : Statement (.fused a0) := fun _ => rfl
theorem colReady (a0 : Nat) (a1 : Nat) (a2 : List Byte) : Statement (.colReady a0 a1 a2) := fun _ => rfl
theorem colData (a0 : Nat) (a1 : Nat) (a2 : List Byte) : Statement (.colData a0 a1 a2) := fun _ => rfl
theorem stageInDone (a0 : Nat) (a1 : List Nat) (a2 : List Nat) : Statement (.stageInDone a0 a1 a2) := fun _ => rfl
theorem colWriteOut (a0 : Nat) (a1 : List Nat) (a2 : List Nat) : Statement (.colWriteOut a0 a1 a2) := fun _ => rfl
theorem colComplete (a0 : Nat) : Statement (.colComplete a0) := fun _ => rfl
theorem stepTimeout (a0 : Nat) (a1 : Nat) : Statement (.stepTimeout a0 a1) := fun _ => rfl
theorem suspect (a0 : Nat) (a1 : Nat) (a2 : List Byte) : Statement (.suspect a0 a1 a2) := fun _ => rfl
theorem suspectWindowEnd (a0 : Nat) : Statement (.suspectWindowEnd a0) := fun _ => rfl
theorem reform (a0 : Nat) (a1 : Nat) (a2 : List Byte) : Statement (.reform a0 a1 a2) := fun _ => rfl
theorem reformAck (a0 : Nat) (a1 : Nat) (a2 : List Byte) : Statement (.reformAck a0 a1 a2) := fun _ => rfl
theorem colCommit (a0 : Nat) (a1 : Nat) (a2 : List Byte) : Statement (.colCommit a0 a1 a2) := fun _ => rfl
theorem colAbort (a0 : Nat) (a1 : Nat) (a2 : List Byte) : Statement (.colAbort a0 a1 a2) := fun _ => rfl
theorem exclude (a0 : Nat) (a1 : Nat) (a2 : List Byte) : Statement (.exclude a0 a1 a2) := fun _ => rfl
theorem leaderTimeout (a0 : Nat) : Statement (.leaderTimeout a0) := fun _ => rfl
theorem colRemove (a0 : Nat) (a1 : Nat) (a2 : Nat) : Statement (.colRemove a0 a1 a2) := fun h => first h
theorem vceOpen (a0 : Nat) (a1 : Nat) (a2 : List Nat) (a3 : List Nat) : Statement (.vceOpen a0 a1 a2 a3) := fun _ =>
    rfl
theorem encode (a0 : Nat) (a1 : List CodedPic) (a2 : Nat) (a3 : List Nat) (a4 : List Nat) : Statement (.encode a0 a1 a2 a3 a4) :=
  fun _ => rfl
theorem decode (a0 : Nat) (a1 : List Nat) (a2 : List DecodedPic) (a3 : Nat) (a4 : List Nat) (a5 : List Nat) :
    Statement (.decode a0 a1 a2 a3 a4 a5) := fun _ => rfl
theorem decodeResume (a0 : Nat) (a1 : Nat) (a2 : Nat) : Statement (.decodeResume a0 a1 a2) := fun _ => rfl
theorem vceFlush (a0 : Nat) (a1 : List CodedPic) (a2 : Nat) : Statement (.vceFlush a0 a1 a2) := fun _ => rfl
theorem vceClose (a0 : Nat) (a1 : Nat) : Statement (.vceClose a0 a1) := fun _ => rfl
theorem vceJobComplete (a0 : Nat) : Statement (.vceJobComplete a0) := fun _ => rfl
theorem vceReturn (a0 : Nat) (a1 : Nat) (a2 : Nat) : Statement (.vceReturn a0 a1 a2) := fun h => first h
theorem engineReset (a0 : Nat) : Statement (.engineReset a0) := fun _ => rfl
theorem vceEnable (a0 : Nat) (a1 : Nat) (a2 : Nat) : Statement (.vceEnable a0 a1 a2) := fun h => first h
theorem convert (a0 : Nat) (a1 : Nat) (a2 : List Nat) (a3 : List Nat) : Statement (.convert a0 a1 a2 a3) := fun _ =>
    rfl
theorem ingestJobComplete (a0 : Nat) : Statement (.ingestJobComplete a0) := fun _ => rfl
theorem streamSlotReset (a0 : Nat) (a1 : Nat) (a2 : Nat) : Statement (.streamSlotReset a0 a1 a2) := fun h => first h
theorem ingestPublish (a0 : List Nat) : Statement (.ingestPublish a0) := fun _ => rfl
theorem partitionCreate (a0 : Nat) (a1 : Nat) (a2 : Nat) : Statement (.partitionCreate a0 a1 a2) := fun h => first h
theorem partitionReset (a0 : Nat) (a1 : Nat) (a2 : Nat) : Statement (.partitionReset a0 a1 a2) := fun h => first h
theorem svcModeWrite (a0 : Nat) (a1 : Nat) : Statement (.svcModeWrite a0 a1) := fun h => h
theorem regulatorAdmit (a0 : Nat) (a1 : Nat) (a2 : Nat) (a3 : Nat) : Statement (.regulatorAdmit a0 a1 a2 a3) := fun
    _ => rfl
theorem ctxSetWrite (a0 : Nat) (a1 : Nat) (a2 : Nat) : Statement (.ctxSetWrite a0 a1 a2) := fun h => first h
theorem ctxGo (a0 : Nat) (a1 : Nat) : Statement (.ctxGo a0 a1) := fun h => first h
theorem ctxStop (a0 : Nat) (a1 : Nat) : Statement (.ctxStop a0 a1) := fun h => first h
theorem ctxClear (a0 : Nat) (a1 : Nat) : Statement (.ctxClear a0 a1) := fun h => first h
theorem ctxKill (a0 : Nat) (a1 : Nat) : Statement (.ctxKill a0 a1) := fun h => first h
theorem ctxPrioWrite (a0 : Nat) (a1 : Nat) (a2 : Nat) : Statement (.ctxPrioWrite a0 a1 a2) := fun h => first h
theorem contextStart (a0 : Nat) : Statement (.contextStart a0) := fun _ => rfl
theorem yield (a0 : Nat) : Statement (.yield a0) := fun _ => rfl
theorem preemptSave (a0 : Nat) (a1 : List Nat) (a2 : List Nat) : Statement (.preemptSave a0 a1 a2) := fun _ => rfl
theorem preemptGangStart (a0 : Nat) (a1 : Nat) : Statement (.preemptGangStart a0 a1) := fun _ => rfl
theorem holdLimitExpiry (a0 : Nat) : Statement (.holdLimitExpiry a0) := fun _ => rfl
theorem teardownFinish (a0 : Nat) : Statement (.teardownFinish a0) := fun _ => rfl
theorem migrationStart (a0 : Nat) : Statement (.migrationStart a0) := fun _ => rfl
theorem migrationResume (a0 : Nat) (a1 : Bool) : Statement (.migrationResume a0 a1) := fun _ => rfl
theorem vinSample (a0 : Nat) (a1 : Nat) : Statement (.vinSample a0 a1) := fun _ => rfl
theorem vinLoss (a0 : Option Nat) : Statement (.vinLoss a0) := fun _ => rfl
theorem phaseFail (a0 : Nat) (a1 : Nat) : Statement (.phaseFail a0 a1) := fun _ => rfl
theorem clusterClockStop (a0 : Nat) : Statement (.clusterClockStop a0) := fun _ => rfl
theorem clusterGate (a0 : Nat) : Statement (.clusterGate a0) := fun _ => rfl
theorem clusterWake (a0 : Nat) : Statement (.clusterWake a0) := fun _ => rfl
theorem governorTick (a0 : Nat) (a1 : Nat) (a2 : Nat) (a3 : Nat) (a4 : List Nat) (a5 : List Nat) : Statement
    (.governorTick a0 a1 a2 a3 a4 a5) := fun _ => rfl
theorem junctionTrip : Statement (.junctionTrip) := fun _ => rfl
theorem tripRelease : Statement (.tripRelease) := fun _ => rfl
theorem restEntry (a0 : List Nat) (a1 : List Nat) (a2 : List Nat) (a3 : List Nat) : Statement (.restEntry a0 a1 a2
    a3) := fun _ => rfl
theorem restCollectiveTimeout : Statement (.restCollectiveTimeout) := fun _ => rfl
theorem wake (a0 : Nat) (a1 : List Nat) (a2 : List Nat) (a3 : List Nat) : Statement (.wake a0 a1 a2 a3) := fun _ => rfl
theorem wakeTimerExpiry : Statement (.wakeTimerExpiry) := fun _ => rfl
theorem offEntry (a0 : Nat) (a1 : List Nat) (a2 : List Nat) (a3 : List Nat) : Statement (.offEntry a0 a1 a2 a3) :=
    fun _ => rfl
theorem aonRefLoss : Statement (.aonRefLoss) := fun _ => rfl
theorem replan (a0 : List Nat) (a1 : List Nat) (a2 : List Nat) (a3 : List Nat) : Statement (.replan a0 a1 a2 a3) :=
    fun _ => rfl
theorem peakCharge : Statement (.peakCharge) := fun _ => rfl
theorem selfTestCmd (a0 : Nat) (a1 : Nat) : Statement (.selfTestCmd a0 a1) := fun h => h
theorem selfTestAbort (a0 : Nat) (a1 : Nat) : Statement (.selfTestAbort a0 a1) := fun h => h
theorem coreTestSlice (a0 : Bool) (a1 : Bool) : Statement (.coreTestSlice a0 a1) := fun _ => rfl
theorem faultLogFlush : Statement (.faultLogFlush) := fun _ => rfl
theorem stewardTakeover (a0 : Bool) (a1 : Option Nat) : Statement (.stewardTakeover a0 a1) := fun _ => rfl
theorem keyLoad (a0 : Nat) (a1 : Nat) (a2 : Nat) : Statement (.keyLoad a0 a1 a2) := fun h => first h
theorem keyErase (a0 : Nat) (a1 : Nat) (a2 : Nat) : Statement (.keyErase a0 a1 a2) := fun h => first h
theorem keySeal (a0 : Nat) (a1 : Nat) (a2 : Nat) : Statement (.keySeal a0 a1 a2) := fun h => first h
theorem keyUnseal (a0 : Nat) (a1 : Nat) (a2 : Nat) : Statement (.keyUnseal a0 a1 a2) := fun h => first h
theorem linkKeyLoad (a0 : Nat) (a1 : Nat) (a2 : Nat) : Statement (.linkKeyLoad a0 a1 a2) := fun h => first h
theorem attest (a0 : Nat) (a1 : Nat) (a2 : Nat) : Statement (.attest a0 a1 a2) := fun h => first h
theorem idRead (a0 : Nat) (a1 : Nat) (a2 : Nat) : Statement (.idRead a0 a1 a2) := fun h => first h
theorem rootMsg (a0 : Nat) (a1 : Nat) (a2 : Nat) : Statement (.rootMsg a0 a1 a2) := fun h => first h
theorem ctxKeyWrite (a0 : Nat) (a1 : Nat) (a2 : Nat) : Statement (.ctxKeyWrite a0 a1 a2) := fun h => first h
theorem alarmPolicyWrite (a0 : Nat) (a1 : Nat) : Statement (.alarmPolicyWrite a0 a1) := fun h => h
theorem tamperTrip (a0 : Nat) : Statement (.tamperTrip a0) := fun _ => rfl
theorem debugNonceRead : Statement (.debugNonceRead) := fun _ => rfl
theorem debugCertificate (a0 : List Byte) : Statement (.debugCertificate a0) := fun _ => rfl
theorem powerOnSequence (a0 : Env) : Statement (.powerOnSequence a0) := fun _ => rfl
theorem recoveryChunk (a0 : Nat) (a1 : List Byte) (a2 : Bool) (a3 : Env) : Statement (.recoveryChunk a0 a1 a2 a3) :=
    fun _ => rfl
theorem perstRelease (a0 : Nat) (a1 : Bool) (a2 : Nat) (a3 : Nat) (a4 : Bool) : Statement (.perstRelease a0 a1 a2 a3
    a4) := fun _ => rfl
theorem portReset (a0 : Nat) (a1 : Nat) : Statement (.portReset a0 a1) := fun _ => rfl
theorem pfFlr (a0 : Nat) : Statement (.pfFlr a0) := fun _ => rfl
theorem vfFlr (a0 : Nat) (a1 : Nat) : Statement (.vfFlr a0 a1) := fun _ => rfl
theorem devReset (a0 : Nat) (a1 : Nat) (a2 : Env) : Statement (.devReset a0 a1 a2) := fun h => first h
theorem configRequest (a0 : Nat) (a1 : Nat) (a2 : Bool) : Statement (.configRequest a0 a1 a2) := fun _ => rfl
theorem vfEnable (a0 : Nat) (a1 : Nat) : Statement (.vfEnable a0 a1) := fun _ => rfl
theorem bar4Access (a0 : Nat) (a1 : Nat) (a2 : Nat) (a3 : Option (List Byte)) : Statement (.bar4Access a0 a1 a2 a3)
    := fun _ => rfl
theorem fwWriteSlot (a0 : Nat) (a1 : Nat) (a2 : Bool) : Statement (.fwWriteSlot a0 a1 a2) := fun h => first h
theorem fwPreferSlot (a0 : Nat) (a1 : Nat) (a2 : Bool) : Statement (.fwPreferSlot a0 a1 a2) := fun h => first h
theorem fwCommitMinver (a0 : Nat) (a1 : Nat) : Statement (.fwCommitMinver a0 a1) := fun h => first h
theorem doorbellPageWrite (a0 : Nat) (a1 : Nat) (a2 : Nat) (a3 : List Nat) (a4 : List Nat) : Statement
    (.doorbellPageWrite a0 a1 a2 a3 a4) := fun _ => rfl
theorem dbBind (a0 : Nat) (a1 : Nat) : Statement (.dbBind a0 a1) := fun h => h
theorem dbUnbind (a0 : Nat) (a1 : Nat) : Statement (.dbUnbind a0 a1) := fun h => h
theorem mctpControl (a0 : Nat) (a1 : Nat) (a2 : Nat) (a3 : Nat) : Statement (.mctpControl a0 a1 a2 a3) := fun _ =>
    rfl
theorem pldmSensorRead (a0 : Nat) (a1 : Nat) : Statement (.pldmSensorRead a0 a1) := fun _ => rfl
theorem pldmSetEventReceiver (a0 : Nat) (a1 : Nat) : Statement (.pldmSetEventReceiver a0 a1) := fun _ => rfl
theorem pldmPowerState (a0 : Nat) (a1 : Nat) : Statement (.pldmPowerState a0 a1) := fun _ => rfl
theorem pldmClearHalt (a0 : Nat) : Statement (.pldmClearHalt a0) := fun _ => rfl
theorem haltAssert (a0 : Bool) (a1 : Bool) (a2 : Nat) : Statement (.haltAssert a0 a1 a2) := fun _ => rfl
theorem haltRelease (a0 : Nat) : Statement (.haltRelease a0) := fun _ => rfl
theorem haltDiscrepancy (a0 : Bool) : Statement (.haltDiscrepancy a0) := fun _ => rfl
theorem haltClear (a0 : Nat) (a1 : Nat) : Statement (.haltClear a0 a1) := fun h => h
theorem streamTileDelivery (a0 : Nat) (a1 : List Byte) (a2 : Nat) (a3 : Nat) : Statement (.streamTileDelivery a0 a1
    a2 a3) := fun _ => rfl
theorem uncorrectableCodeword (a0 : Nat) (a1 : Nat) : Statement (.uncorrectableCodeword a0 a1) := fun _ => rfl
theorem rowRepairDone (a0 : Nat) (a1 : Nat) : Statement (.rowRepairDone a0 a1) := fun _ => rfl
theorem stewardDieLoss : Statement (.stewardDieLoss) := fun _ => rfl
theorem flashStackLoss (a0 : Nat) : Statement (.flashStackLoss a0) := fun _ => rfl
theorem secCmdComplete (a0 : Nat) : Statement (.secCmdComplete a0) := fun _ => rfl
theorem fwCtrlComplete : Statement (.fwCtrlComplete) := fun _ => rfl
theorem flowTableLoadDone : Statement (.flowTableLoadDone) := fun _ => rfl

end Sys2Proof.Laws.Operands
end

