-- ==== Sys2Proof/Laws/Regs.lean ====
section
/-! SUPPORT. The laws of registers and their fields: what a store leaves in the field stored, in the other fields of the
register, and in every other register. -/

namespace Sys2Proof.Machine

/-! ### Bits of numbers -/

theorem pow_split {hi lo : Nat} (h : lo ≤ hi) : 2 ^ (hi + 1) = 2 ^ (hi + 1 - lo) * 2 ^ lo := by
  rw [← pow_add]
  congr 1
  omega

theorem putBits_div {x hi lo v : Nat} (h : lo ≤ hi) :
    putBits x hi lo v / 2 ^ lo = x / 2 ^ (hi + 1) * 2 ^ (hi + 1 - lo) + v % 2 ^ (hi + 1 - lo) := by
  have e : putBits x hi lo v =
      x % 2 ^ lo + 2 ^ lo * (x / 2 ^ (hi + 1) * 2 ^ (hi + 1 - lo) + v % 2 ^ (hi + 1 - lo)) := by
    unfold putBits
    rw [show x / 2 ^ (hi + 1) * 2 ^ (hi + 1) = x / 2 ^ (hi + 1) * (2 ^ (hi + 1 - lo) * 2 ^ lo) by rw [← pow_split h]]
    ring
  rw [e, Nat.add_mul_div_left _ _ (Nat.two_pow_pos lo), Nat.div_eq_of_lt (Nat.mod_lt _ (Nat.two_pow_pos lo)), zero_add]

/-- The field stored reads what was stored. -/
theorem bits_putBits {x hi lo v : Nat} (h : lo ≤ hi) : bits (putBits x hi lo v) hi lo = v % 2 ^ (hi + 1 - lo) := by
  rw [bits, putBits_div h, Nat.mul_add_mod', Nat.mod_mod]

/-- A field below the one stored keeps its value. -/
theorem bits_putBits_below {x hi lo v h' l' : Nat} (h : lo ≤ hi) (hb : h' < lo) (hl : l' ≤ h') :
    bits (putBits x hi lo v) h' l' = bits x h' l' := by
  have key : putBits x hi lo v % 2 ^ lo = x % 2 ^ lo := by
    have e : putBits x hi lo v =
        x % 2 ^ lo + 2 ^ lo * (x / 2 ^ (hi + 1) * 2 ^ (hi + 1 - lo) + v % 2 ^ (hi + 1 - lo)) := by
      unfold putBits
      rw [show x / 2 ^ (hi + 1) * 2 ^ (hi + 1) = x / 2 ^ (hi + 1) * (2 ^ (hi + 1 - lo) * 2 ^ lo) by rw [← pow_split h]]
      ring
    rw [e, Nat.add_mul_mod_self_left, Nat.mod_mod]
  have cut (y : Nat) : bits y h' l' = bits (y % 2 ^ lo) h' l' := by
    unfold bits
    have e : 2 ^ lo = 2 ^ l' * (2 ^ (h' + 1 - l') * 2 ^ (lo - (h' + 1))) := by
      rw [← pow_add, ← pow_add]
      congr 1
      omega
    rw [e, Nat.mod_mul_right_div_self, Nat.mod_mul_right_mod]
  rw [cut, key, ← cut]

/-- A field above the one stored keeps its value. -/
theorem bits_putBits_above {x hi lo v h' l' : Nat} (h : lo ≤ hi) (hb : hi < l') :
    bits (putBits x hi lo v) h' l' = bits x h' l' := by
  have top : putBits x hi lo v / 2 ^ (hi + 1) = x / 2 ^ (hi + 1) := by
    have hlt : v % 2 ^ (hi + 1 - lo) * 2 ^ lo + x % 2 ^ lo < 2 ^ (hi + 1) := by
      have h1 : v % 2 ^ (hi + 1 - lo) + 1 ≤ 2 ^ (hi + 1 - lo) := Nat.mod_lt _ (Nat.two_pow_pos _)
      have h2 : x % 2 ^ lo < 2 ^ lo := Nat.mod_lt _ (Nat.two_pow_pos _)
      have h3 := Nat.mul_le_mul_right (2 ^ lo) h1
      rw [pow_split h]
      nlinarith
    unfold putBits
    rw [add_assoc, Nat.add_comm, Nat.add_mul_div_right _ _ (Nat.two_pow_pos _), Nat.div_eq_of_lt hlt, zero_add]
  have cut (y : Nat) : y / 2 ^ l' = y / 2 ^ (hi + 1) / 2 ^ (l' - (hi + 1)) := by
    rw [Nat.div_div_eq_div_mul, ← pow_add]
    congr 2
    omega
  unfold bits
  rw [cut, top, ← cut]

theorem putBits_lt {x hi lo v n : Nat} (h : lo ≤ hi) (hn : hi < n) (hx : x < 2 ^ n) : putBits x hi lo v < 2 ^ n := by
  have top : putBits x hi lo v / 2 ^ n = x / 2 ^ n := by
    have cut (y : Nat) : y / 2 ^ n = bits y (n + 64) n + y / 2 ^ n / 2 ^ 65 * 2 ^ 65 := by
      unfold bits
      rw [show n + 64 + 1 - n = 65 by omega]
      exact (Nat.mod_add_div' _ _).symm
    have e : n = hi + 1 + (n - (hi + 1)) := by omega
    have t := bits_putBits_above (x := x) (v := v) (h' := n + 64) h hn
    have hlt : v % 2 ^ (hi + 1 - lo) * 2 ^ lo + x % 2 ^ lo < 2 ^ (hi + 1) := by
      have h1 : v % 2 ^ (hi + 1 - lo) + 1 ≤ 2 ^ (hi + 1 - lo) := Nat.mod_lt _ (Nat.two_pow_pos _)
      have h2 : x % 2 ^ lo < 2 ^ lo := Nat.mod_lt _ (Nat.two_pow_pos _)
      have h3 := Nat.mul_le_mul_right (2 ^ lo) h1
      rw [pow_split h]
      nlinarith
    have low : putBits x hi lo v / 2 ^ (hi + 1) = x / 2 ^ (hi + 1) := by
      unfold putBits
      rw [add_assoc, Nat.add_comm, Nat.add_mul_div_right _ _ (Nat.two_pow_pos _), Nat.div_eq_of_lt hlt, zero_add]
    rw [e, pow_add, ← Nat.div_div_eq_div_mul, ← Nat.div_div_eq_div_mul, low]
  have z : x / 2 ^ n = 0 := Nat.div_eq_of_lt hx
  rw [z] at top
  exact (Nat.div_eq_zero_iff_lt (Nat.two_pow_pos n)).1 top

/-! ### Registers -/

theorem Device.reg_lt (d : Device) (r : Reg) (i : Nat) : d.reg r i < 2 ^ 64 := BitVec.isLt _

/-- Every effect keeps the register file in its canonical form. -/
theorem Eff.run_regsOk (e : Eff) {d : Device} (h : mapOk dfltRegs d.regs = true) :
    mapOk dfltRegs (e.run d).regs = true := by
  refine Eff.run_keeps (Q := fun d => mapOk dfltRegs d.regs = true) ?_ e d h
  intro u d h
  rw [Upd.apply_regs]
  split
  · exact mapOk_mapSet h _ _
  · exact mapOk_mapDrop h _
  · exact h

/-- Every effect keeps device memory in its canonical form. -/
theorem Eff.run_memOk (e : Eff) {d : Device} (h : mapOk dfltMem d.mem = true) : mapOk dfltMem (e.run d).mem = true := by
  refine Eff.run_keeps (Q := fun d => mapOk dfltMem d.mem = true) ?_ e d h
  intro u d h
  rw [Upd.apply_mem]
  split
  · exact mapOk_mapSet h _ _
  · exact mapOk_mapDrop h _
  · exact h

/-- A store to a register is what it then reads. -/
theorem reg_setReg {d : Device} (h : mapOk dfltRegs d.regs = true) (r : Reg) (i v : Nat) :
    ((setReg r i v).run d).reg r i = v % 2 ^ 64 := by
  simp [setReg, putRegs, Device.reg, Device.regsAt, mapGet_mapSet_self h, BitVec.toNat_ofNat]

/-- A store leaves every other register alone. -/
theorem reg_setReg_ne (d : Device) {r r' : Reg} {i i' : Nat} (v : Nat) (hk : regKey r' i' ≠ regKey r i) :
    ((setReg r i v).run d).reg r' i' = d.reg r' i' := by
  simp [setReg, putRegs, Device.reg, Device.regsAt, mapGet_mapSet_ne _ _ hk]

theorem setF_run (f : Fld) (i v : Nat) (d : Device) :
    (setF f i v).run d = (setReg f.reg i (putBits (d.reg f.reg i) f.hi f.lo v)).run d := rfl

/-- The field stored reads what was stored, cut to its width. -/
theorem fld_setF {d : Device} (h : mapOk dfltRegs d.regs = true) {f : Fld} (hl : f.lo ≤ f.hi) (hh : f.hi < 64) (i v : Nat) :
    ((setF f i v).run d).fld f i = v % 2 ^ (f.hi + 1 - f.lo) := by
  rw [setF_run, Device.fld, reg_setReg h, Nat.mod_eq_of_lt (putBits_lt hl hh (d.reg_lt _ _)), bits_putBits hl]

/-- A field of another register, or of another instance, keeps its value. -/
theorem fld_setF_key (d : Device) {f g : Fld} {i j : Nat} (v : Nat) (hk : regKey g.reg j ≠ regKey f.reg i) :
    ((setF f i v).run d).fld g j = d.fld g j := by
  rw [setF_run, Device.fld, reg_setReg_ne d _ hk, Device.fld]

/-- Another field of the same register keeps its value. -/
theorem fld_setF_beside {d : Device} (h : mapOk dfltRegs d.regs = true) {f g : Fld} (hr : g.reg = f.reg)
    (hl : f.lo ≤ f.hi) (hh : f.hi < 64) (gl : g.lo ≤ g.hi) (hd : g.hi < f.lo ∨ f.hi < g.lo) (i v : Nat) :
    ((setF f i v).run d).fld g i = d.fld g i := by
  rw [setF_run, Device.fld, hr, reg_setReg h, Nat.mod_eq_of_lt (putBits_lt hl hh (d.reg_lt _ _)), Device.fld, hr]
  rcases hd with hd | hd
  · exact bits_putBits_below hl hd gl
  · exact bits_putBits_above hl hd

/-- Two registers of small instance numbers share a key only where both are the same. -/
theorem regKey_inj {r r' : Reg} {i i' : Nat} (hi : i < 1048576) (hi' : i' < 1048576) :
    regKey r i = regKey r' i' ↔ r.code = r'.code ∧ i = i' := by
  unfold regKey
  omega

end Sys2Proof.Machine
end

