-- ==== Sys2Proof/Tests/Slice0.lean ====
section
/-! SUPPORT. Small tests of the model, and for each statement that has hypotheses states and operands that meet them. -/

open Sys2Proof Sys2Proof.Machine

namespace Sys2Proof.Tests

set_option Elab.async false

/-- The block right after reset, and what an effect then makes of it. -/
def on (e : Eff) : State := ⟨[], e.run Device.reset⟩

/-- The block in RUN. -/
def live : Eff := setF F.PWR_STATE_state 0 3

/-- The block in RUN, and more. -/
def with' (es : List Eff) : State := on (.all (live :: es))

/-- A figure of one leaf, which runs the program of one step `w` on core 0 of cluster 0, with a window of 256 MiB of DRAM. -/
def fig (w : BitVec 128) : Figure :=
  { sets := [{}], programs := [[w]], windows := [{ tier := 1, access := 7, length := 0x10000000 }] }

/-- Partition 0 holds cluster 0 and has that figure active; context 0 is bound to it. -/
def part (w : BitVec 128) : Eff := .all [
  live, setF F.PRT_CTRL_state 0 1, setReg .PRT_SHAPE_CLU 0 1, setF F.CTX_BIND_bound 0 1, setF F.FIG_STATUS_active_valid 0 1,
  putSlots 0 (some (fig w))]

/-- Partition 0 holds channel group 0, and the driver of context 0 maps 256 MiB of it from address 0. -/
def mapped : Eff := .all [setReg .PRT_SHAPE_GRP 0 1, putDrvMap 0 [{ length := 0x10000000, tier := 1, access := 7 }]]

/-- Context 0 runs on core 0, at that step. -/
def runs (w : BitVec 128) (es : List Eff) : State := on (.all (part w :: setF F.CTX_RUN_state 0 2 ::
  putCores 0 { state := 1, loaded := some (0, 0, 0), ctx := some 0, atBeat := false } :: mapped :: es))

/-- The step of that core. -/
def at0 (w : BitVec 128) : StepCtx := { core := 0, ctx := 0, part := 0, fig := fig w, leaf := 0, prog := 0, w := w, q := {} }

/-- The same where bank 0 holds an accumulation, of 64 rows and 64 columns. -/
def acc0 : Seq := { bank0 := { acc := true } }

/-- A step of kind `k`, with other bits. -/
def step' (k : Nat) (other : Nat) : BitVec 128 := BitVec.ofNat 128 (k * 2 ^ 124 + other)

/-- `n` bytes of device memory from the first of channel group 0, that is, from the window's start. -/
def dram (n : Nat) : List Nat := (List.range n).map (0x1000000000 + ·)

/-- Context 1 is bound too, and waits for the same set. -/
def waits : Eff := .all [setF F.CTX_BIND_bound 1 1, setF F.CTX_RUN_state 1 1, setF F.CTX_PRIO_priority 1 1]

/-- Context 0 gives way to context 1. -/
def giveWay : Preempt := { part := 0, set := 0, outgoing := 0, incoming := 1 }

/-- Stream 0 leads to core 0. -/
def stream : Eff := .all [setF F.STR_ENTRY_valid 0 1, setF F.STR_ENTRY_depth 0 1]

/-- Sequence ring 0 of partition 0 is enabled for context 0, at virtual address 0. -/
def seqRing : Eff := setF F.PRT_SEQ_RING_BASE_enable 0 1

/-- The request at the head of that ring, of operation `op`. -/
def req (op imm : Nat) : SeqReq :=
  { part := 0, ring := 0, ctx := 0, head := 0, va := 0x40, op := op, flags := 0, count := 0, serial := 0, a0 := 0, a1 := 0, a2 := 0,
    a3 := 0, imm := imm, cue := 0, vocab := 0 }

/-- The record of a request. -/
def record (q : SeqReq) : List Byte := toLE 1 q.op ++ toLE 1 q.flags ++ toLE 2 q.count ++ toLE 4 q.serial ++ toLE 8 q.a0 ++
  toLE 8 q.a1 ++ toLE 8 q.a2 ++ toLE 8 q.a3 ++ toLE 8 q.imm ++ toLE 4 q.cue ++ toLE 4 q.vocab

/-- Die 0 serves that request. -/
def request (q : SeqReq) (es : List Eff) : State :=
  runs 0 ([seqRing, putSeqService 0 (some 0), wrBytes 0x1000000040 (record q)] ++ es)

/-- The node of a block of the one token 0 at the root of partition 0's tree. -/
def node : PfxNode := { hash := blockHash 0 0 0 [0], tokens := [0], lastUse := 1 }

/-- Nodes of the tree of partition 0, which is ready. -/
def tree (ns : List PfxNode) : Eff := .seq (setF F.PRT_PFX_CTRL_ready 0 1)
  (.each ns.zipIdx.reverse fun n => putPfxNodes n.2 (some n.1))

/-- The template of an object of kind 1 and 64 KiB stands at the first byte of channel group 0, and FLS_ARG_A names it. -/
def template : Eff := .all [.each [0, 1, 2, 3] (fun j => setF F.FLS_STACK_STATUS_spare_blocks j 1),
  setReg .FLS_ARG_A 0 0x1000000000, putMem 0x1000000004 1, putMem 0x100000000A 1]

/-- A figure with a weight ring: object 0, one layer of no bytes, one slot, in window 0. -/
def ringFig : Figure := { fig 0 with
  weightRing := [0, 0, 0, 0, 0, 0, 1, 0, 0, 0, 0, 0, 0, 0, 0, 0, 1, 0] ++ List.replicate 110 0 }

/-- Partition 0 has that figure active, with its streamer, in state `st`. -/
def streams (st : Nat) (es : List Eff) : State := runs 0 ([putSlots 0 (some ringFig), putStreamers 0 (some {}),
  setF F.FLS_RING_STAT_state 0 st, putCatalog 0 { state := 2, share := 1, length := 65536 }] ++ es)

/-- Ring `n` of partition 0 is enabled for context 0, at virtual address 0, in state `st`. -/
def ring (n st : Nat) : Eff := .all [setF F.DMA_RING_BASE_enable n 1, setF F.DMA_RING_OWN_owned n 1, setF F.DMA_RING_STAT_state n st]

/-- Context 0 and partition 0 as they run, with ring `n`. -/
def rings (n st : Nat) (es : List Eff) : State := runs 0 (ring n st :: es)

/-- The descriptor at a ring's head has its own bit set. -/
def owned : Eff := putMem 0x1000000003 0x80

/-- A descriptor with this control word and length. -/
def desc (ctrl length : Nat) : Desc := { raw := toLE 4 ctrl ++ toLE 4 length ++ List.replicate 56 0 }

/-- Link 0 is up, and this device has ID 1. -/
def linked (es : List Eff) : State := runs 0 ([setF F.LNK_PORT_STATUS_state 0 2, setF F.LNK_DEVICE_id 0 1] ++ es)

/-- A packet from context 3 of device 2 to context 0 of this device, as bytes. -/
def packet (kind : Nat) (body : List Byte) : List Byte :=
  Packet.wire { kind := kind, vc := 1, src := 2, srcCtx := 3, dst := 1, body := body }

/-- Packets to device 1 are for this device. -/
def local' : Eff := putRoutes 0 (BitVec.ofNat 64 (2 ^ 63 + 2 ^ 62 + 2 ^ 40 + 2 ^ 20))

/-- Flow 0 admits writes and cue events from context 3 of device 2 to context 0, unencrypted, on channel 1. -/
def flowIn : Eff := .all [local', setF F.LNK_FLOW_BASE_enable 0 1,
  putFlows 0 { peer := 2, flags := 0xF, vcs := 2, localCtx := 0, peerCtx := 3 }]

/-- The links 0 and 1 lead to one neighbour, up or not. -/
def peers : Eff := .all [putNbrs 0 (some { serial := 9 }), putNbrs 1 (some { serial := 9 })]

/-- A record and its CRC after it: the number there is the CRC. -/
theorem num_crc (b : List Byte) : num (b ++ toLE 4 (crc32c b)) b.length 4 = crc32c b := by
  have h : crc32c b < 4294967296 := (b.foldl crcByte 0xFFFFFFFF#32 ^^^ 0xFFFFFFFF#32).isLt
  simp only [num, List.drop_left, toLE, List.take_succ_cons, List.take_zero, fromLE, BitVec.toNat_ofNat]
  omega

/-- The check of a passive assembly's identity holds by its CRC. -/
theorem crc_at (b : List Byte) (h : b.length = 0xFC) :
    num (b ++ toLE 4 (crc32c b)) 0xFC 4 = crc32c ((b ++ toLE 4 (crc32c b)).take 0xFC) := by
  have hn := num_crc b
  rw [h] at hn
  rw [hn, List.take_left' h]

/-- The first 508 bytes of a board record of system 7 whose port roles are all line-forward. -/
def boardHead : List Byte :=
  [0x41, 0x58, 0x42, 0x44, 1, 0, 0, 1, 0, 0, 0, 15, 7] ++ List.replicate 115 0 ++ List.replicate 380 0

/-- The block in RUN with a board record, and more. -/
def onBoard (b : List Byte) (es : List Eff) : State := with' (putBoard b :: es)

theorem onBoard_board (b : List Byte) : (onBoard b []).dev.board = b := rfl

/-- The block in RUN with that board. -/
def boarded : State := onBoard (boardHead ++ toLE 4 (crc32c boardHead)) []

theorem num_app (b t : List Byte) (o k : Nat) (h : o + k ≤ b.length) : num (b ++ t) o k = num b o k := by
  rw [num, num, List.drop_append_of_le_length (by omega), List.take_append_of_le_length (by simp; omega)]

/-- A board record made of its first 508 bytes is the one in use. -/
theorem record_of (d : Device) (b : List Byte) (hb : d.board = b ++ toLE 4 (crc32c b)) (hl : b.length = 0x1FC)
    (hm : b.take 4 = [0x41, 0x58, 0x42, 0x44]) (hv : num b 4 1 = 1) : boardRecord d = some (b ++ toLE 4 (crc32c b)) := by
  have hn := num_crc b
  rw [hl] at hn
  have hz : (toLE 4 (crc32c b)).length = 4 := rfl
  have ht : (b ++ toLE 4 (crc32c b)).take 4 = [0x41, 0x58, 0x42, 0x44] := by rw [List.take_append_of_le_length (by omega), hm]
  have hw := (num_app b (toLE 4 (crc32c b)) 4 1 (by omega)).trans hv
  simp only [boardRecord, hb, List.length_append, hl, hz, ht, hw, hn, List.take_left' hl, BEq.rfl, Bool.and_self, if_true]

theorem role_of (d : Device) (bs : List Byte) (i v : Nat) (h : boardRecord d = some bs) (hv : num bs (0x20 + i) 1 = v)
    (hle : v ≤ 3) : boardRole d i ≠ 15 := by
  simp only [boardRole, boardNum, h, hv, hle, if_true]
  omega

theorem boarded_role : boardRole boarded.dev 95 ≠ 15 :=
  role_of _ _ 95 0 (record_of _ boardHead (onBoard_board _) (by decide +kernel) (by decide +kernel) (by decide +kernel))
    ((num_app boardHead _ (0x20 + 95) 1 (by decide +kernel)).trans (by decide +kernel)) (by decide)

/-- The identity of a passive assembly of that reach and loss class, but for its CRC. -/
def moduleHead (reach loss : Nat) : List Byte :=
  [0x41, 0, 0, 0, 0] ++ toLE 1 reach ++ List.replicate 13 0 ++ toLE 1 loss ++ List.replicate 232 0

/-- The identity of a passive assembly. -/
def moduleOf (reach loss : Nat) : List Byte := moduleHead reach loss ++ toLE 4 (crc32c (moduleHead reach loss))

/-- Link 0 leads to a neighbour that is asked, and that is a child and the parent; the best candidate has serial 5. -/
def walked (es : List Eff) : State := with' (setF F.LNK_PORT_STATUS_state 0 2 :: peers :: modProm (fun _ =>
  { best := some (true, 5), asked := [0], children := [0], parent := some 0 }) :: es)

/-- A collective message of a group with key 5 from device 2, as a packet's bytes. -/
def message (msg : Nat) (epoch : Nat) : List Byte := packet 5 (toLE 4 5 ++ toLE 2 epoch ++ toLE 1 msg)

/-- The entry of flow 0. -/
def inFlow : Flow := { peer := 2, flags := 0xF, vcs := 2, localCtx := 0, peerCtx := 3 }

/-- Group entry 0 is one of partition 0 with key 5, whose members are devices 1, this one, to 4. -/
def group (e : ColEntry) : Eff := .all [flowIn, setF F.PRT_SHAPE_GRT_count 0 1, setF F.COL_GROUP_valid 0 1, setReg .COL_GROUP_KEY 0 5,
  setF F.COL_GROUP_members 0 4, putColGroups 0 { e with ids := [1, 2, 3, 4] }]

/-- Collective ring 0 runs. -/
def colRing (es : List Eff) : State := linked (group {} :: ring 9728 2 :: es)

/-- A collective descriptor of op `op` on one FP32 element at virtual address 0, or of a table of one there. -/
def colDesc (op : Nat) : Desc :=
  { raw := toLE 4 (2 ^ 31 + op * 2 ^ 28) ++ toLE 4 1 ++ List.replicate 32 0 ++ toLE 4 4096 ++ List.replicate 20 0 }

/-- The block with that descriptor taken; the table's entry names one FP32 element. -/
def starts (op : Nat) : State := colRing [putRings 9728 [colDesc op], putMem 0x1000000000 1]

/-- The operation it makes, of effective op `op` and algorithm `algo`. -/
def colOp (op algo : Nat) : ColOp := { op := op, algo := algo, parts := [{ count := 1 }], total := 1 }

/-- A codec job of op `op`, on session 0, of `length` bytes, with `cap` bytes at virtual address 0 for what it writes. -/
def codecJob (op length cap : Nat) : Desc :=
  { raw := toLE 4 (2 ^ 31 + op * 2 ^ 27) ++ toLE 4 length ++ List.replicate 20 0 ++ toLE 4 cap ++ List.replicate 32 0 }

/-- Codec engine 0 serves ring 0 of it, which holds that job. -/
def codec (x : Desc) (es : List Eff) : State := rings 9984 2 ([setF F.VCE_CTRL_enable 0 1, setF F.VCE_CTRL_fw_ready 0 1,
  putRings 9984 [x]] ++ es)

/-- The session block of a decoding session of HEVC, 8 bits, 4:2:0, 64 by 64, with a pool of 10 buffers at virtual address 0. -/
def decodeBlock : List Byte :=
  [0, 0, 8, 1, 64, 0, 64, 0, 1, 0, 0, 0, 1, 0, 0, 0] ++ List.replicate 40 0 ++ [10, 0, 4, 0, 0, 0, 0, 0x80] ++ List.replicate 64 0

/-- The session block of an encoding session of HEVC with rate control `rc` and that size. -/
def encodeBlock (rc w h : Nat) : List Byte :=
  [0, 1, 8, 1] ++ toLE 2 w ++ toLE 2 h ++ [1, 0, 0, 0, 1, 0, 0, 0] ++ toLE 1 rc ++ List.replicate 25 0 ++ [51, 0, 0, 0, 0, 0, 64] ++
    List.replicate 79 0

/-- Those sessions, open on ring 0 of engine 0. -/
def decoding : Session := { ring := 9984, block := decodeBlock }
def encoding (rc w h : Nat) : Session := { ring := 9984, block := encodeBlock rc w h }
def session (q : Session) : Eff := putSessions 0 (some q)

/-- A picture of one slice without blocks, coded without rate control in a session that has coded its key picture. -/
def slicePic : CodedPic := {
  header := 0, qp := 0, normal := [], atMax := [], forced := [], units := [[2, 1, 0x80]], blocks := [],
  tmvp := false, primaryRef := 0 }
def inter : Session := { encoding 0 0 64 with sinceKey := some 1 }

/-- The stream of a decoding session, and a picture of it of one sample. -/
def known : Stream := { profileOk := true, width := 1, height := 1, depth := 8, buffers := 2 }
def onePic : DecodedPic := {
  order := 0, outs := 1, err := false, lost := [], refs := 0, shown := true, width := 1, height := 1,
  grain := false, luma := [5], chroma := [] }

/-- A profile block: 16 by 16 monochrome 8-bit samples to planar 8-bit elements. -/
def profile : List Byte := [3, 0, 0, 0, 16, 0, 16, 0, 2, 1] ++ List.replicate 54 0

/-- An ingest job of one sample in progress: its table, source and slot lie at these virtual addresses and 0. -/
def ingestAt (table slot : Nat) : Desc :=
  { raw := toLE 4 (2 ^ 31 + 2 ^ 28) ++ toLE 4 1 ++ toLE 8 table ++ toLE 8 slot ++ List.replicate 4 0 ++ toLE 4 1024 ++
      List.replicate 32 0,
    moved := profile, results := [0, 0, 0, 0] }
def ingestJob : Desc := ingestAt 0 0

/-- Ingest unit 0 has that job on ring 0 of it; the table's entry names a monochrome source of 16 by 16. -/
def ingesting (es : List Eff) : State := rings 10256 2 ([setF F.ING_CTRL_enable 0 1, putRings 10256 [ingestJob],
  wrBytes 0x1000000000 [2, 0, 0, 0, 16, 0, 16, 0]] ++ es)

/-- Every window's argument is the first byte of partition 0's memory, which holds `bs`; the identity is ready. -/
def keyed (bs : List Byte) (es : List Eff) : State := runs 0 ([setF F.SEC_ARG_addr 0 0x40000000, setF F.SEC_ARG_addr 32 0x40000000,
  setF F.SEC_KEYSTATE_identity_ready 0 1, putIdKey (some 5), wrBytes 0x1000000000 bs] ++ es)

/-- Partition 0 holds tenant slot 1023. -/
def tenant : Eff := putTenantKeys 1023 (some ⟨0, List.replicate 64 1⟩)

/-- A self-test of cluster 0 of die 0 whose cores left are `left`. -/
def testing (left : List Nat) (spare : Bool) : Eff := putSelfTest (some { left := left, spare := spare })

/-- What a start finds: all is well, and the always-on clock runs. -/
def env : Env := ⟨[], [], true, 1, false, false, [], [], [], [], [], 0⟩

/-- The block with core site 3 of cluster site 0 failed: its spare takes its place. -/
def spared : Device := (on (putApplied (siteKey 1 3) true)).dev

/-! ### The manual's worked examples -/

/-- Quantising one block of a Mazurka activation (04_number_formats_and_products.md): fine scales, FP4. -/
theorem test_quant_block :
    let x (w : Nat) : Fp × Option Nat := (val w, none)
    let b := codeBlock 0 true ([x 0x41600000, x 0x41300000, x 0xBFA00000, x 0x3F200000, x 0, x 0, x 0, x 0, x 0x40400000, x 0xC0266666]
      ++ List.replicate 22 (x 0))
    (b.scale, b.fine, b.codes.take 10) = (0x80, 0x01, [0x7, 0x6, 0x9, 0x0, 0, 0, 0, 0, 0x3, 0xB]) := by decide +kernel

/-- INT4 rounds to the nearest integer and saturates where the clamp changes it: 7.4 gives 7 and is not counted, 7.6 is
(04_number_formats_and_products.md, R120). -/
theorem test_int4_saturation : (intCode 4 false 74 10 none).sat = false ∧ (intCode 4 false 76 10 none).code = 7 ∧
    (intCode 4 false 76 10 none).sat = true := by decide +kernel

/-- One logit of a Sarabande-14 attention head (04_number_formats_and_products.md): two block values, tile scale 0.5. -/
theorem test_product_logit : (productElem 0 0x3F000000 8 [.num false 1152 0, .num false 15 (-12), .zero false, .zero false]).1 =
    0x44100020 := by decide +kernel

/-- A windowed-attention row (05_row_functions.md): 3.0, 1.0, 1.0 and −∞, against the reference 3.0 and within a bound of 44.0. -/
theorem test_soft_row : (softRow [0x40400000, 0x3F800000, 0x3F800000, 0xFF800000] [0x40400000, 0, 0, 0]).dst =
      some [0x3F800000, 0x3E800000, 0x3E800000, 0] ∧
    (boundedRow 0x42300000 [0x40400000, 0x3F800000, 0x3F800000, 0xFF800000] [0, 0, 0, 0]).aux = some (1, [0x41400000]) := by
  decide +kernel

/-- A key/value window of a Sarabande-14 stage (09_on_chip_and_stacked_memory.md): the physical address and the channel. -/
theorem test_group_address : groupAddr 45 0x12345A80 = 0x31D2345A80 ∧
    chanPlace Device.reset 45 0x12345A80 = (22, 0x48D1680) := by decide +kernel

/-- A die substitution on a route-clip stage (01_package_and_hierarchy.md): logical die 0 binds to die site 16. -/
theorem test_die_substitution : dieSite (on (putApplied (siteKey 3 0) true)).dev 0 = some 16 ∧
    fabricRoute (fun _ => false) 16 0 = [5, 4, 0] ∧ fabricRoute (fun _ => false) 16 15 = [10, 11, 15] := by decide +kernel

/-- Cluster site 2 of die site 7 and core site 11 of its spare have failed, as in 21_register_map.md. -/
def bound : Device := (on (.seq (putApplied (siteKey 2 65) true) (putApplied (siteKey 1 1218) true))).dev

/-- Finding a core's registers after substitutions (21_register_map.md): the answer to the query 0x0002_0B27. -/
theorem test_site_query : siteResult bound 0x20B27 = 2 ^ 31 + 2 ^ 28 + 16 * 2 ^ 16 + 8 * 2 ^ 8 + 7 := by decide +kernel

/-- The same example's addresses: COR_FAULT of logical core 11 of logical cluster 2 of die 7, and its cluster's and regulator's. -/
theorem test_register_addresses : writeSpot bound 0 false 0xAC50004 = some (.COR_FAULT, 939) ∧
    writeSpot bound 0 false 0x4338 = some (.CLK_CLU_CTRL, 71) ∧ writeSpot bound 0 false 0x821C = some (.AGE_CLU, 71) ∧
    writeSpot bound 0 false 0x223C = some (.PWR_PHASE, 79) ∧ writeSpot bound 0 false 0xA804004 = none := by decide +kernel

/-- A retirement written across a power loss (18_health_test_and_ageing.md): two intact copies differ and are merged. -/
theorem test_spare_merge :
    let r := (siteKey 1 802, 1)
    resolveCopies mergeSpare [] [(true, 41, [r]), (false, 0, []), (true, 40, [])] = (2, 42, [r]) ∧
    resolveCopies mergeSpare [] [(true, 41, [r]), (true, 41, [r]), (false, 0, [])] = (1, 41, [r]) := by decide +kernel

/-- The replay counts of a Sarabande-14 round (13_collectives.md): 14 granules of staging for 6 over 16 members, direct. -/
theorem test_staging_need : stagingNeed 0 2 6 16 = 14 := by decide +kernel

/-- Bringing up the route-clip system (12_links_and_lines.md): the routing table of device (3, 5), of 8 lines of 16. -/
theorem test_route_table :
    let xs : List TopoDev := (List.range 8).map fun l => { line := l }
    routeTable xs 3 5 16 (fun k => [24, 0, 48, 72][k]?) = [2 ^ 63 + 2 ^ 62 + 773 * 2 ^ 40 + 773 * 2 ^ 20, groupEntry 0 767 0,
      groupEntry 1024 2047 24, groupEntry 768 772 48, groupEntry 774 783 72] := by decide +kernel

/-- A review stream of the route clip (14_video_coding.md): the session block of HEVC at 3840 by 2160 and 30 frames a second. -/
def review : Session := {
  block := [0, 1, 10, 1, 0x00, 0x0F, 0x70, 0x08, 30, 0, 0, 0, 1, 0, 0, 0, 1, 0, 1, 1] ++ toLE 4 36000000 ++ toLE 4 2400000 ++
    toLE 4 5000 ++ toLE 4 0 ++ toLE 4 0 ++ [30, 10, 42, 30] ++ toLE 4 0 ++ [64, 153] ++ List.replicate 78 0 }

/-- That example's rows, columns, bits of a forced row, refresh sweep, bits of a picture interval and initial fullness. -/
theorem test_review_session : (review.rows, review.columns, review.rowBits, sweepLength review) = (34, 60, 4096, 30) ∧
    review.arriving = 1200000 * review.scale ∧ review.firstFullness = 2000000 * review.scale ∧
    review.guard = 37500 := by decide +kernel

/-- That example's row 28: at QP 37 the estimate exceeds the limit, so it is coded again at QP 42, in 60,000 bits. The sum of the
QPs of the 27 rows before is 21 × 30 + 31 + … + 36. -/
theorem test_row_recoded :
    let q : RcState := { written := 1702400, qp := 37, qpSum := 831, atMaxBits := none, atMax := false, stages := [1] }
    let r := codeRow review 2400 (1962500 * review.scale) (1200000 * review.scale) 28 150000 60000 24576 q
    (r.1.written, r.1.qp, r.2) = (1762400, 42, false) := by decide +kernel

/-- A discharged cell on a rack power-up (19_security.md): at the declaring sample a cell below 1.9 V loses the keys. -/
theorem test_vin_declared :
    let d := (on (putVin ⟨false, 64⟩)).dev
    ((vinSample 38000 1899).run d).fld F.SEC_KEYSTATE_state 0 = 1 ∧
      ((vinSample 38000 1899).run d).vin.valid = true := by decide +kernel

/-- The same example's last row: after the declaration the cell is only shown low. -/
theorem test_vin_after :
    let d := (on (putVin ⟨true, 0⟩)).dev
    ((vinSample 38000 1899).run d).keysLost = false ∧ ((vinSample 38000 1899).run d).fld F.SEC_KEYSTATE_vbat_low 0 = 1 := by
  decide +kernel

/-- STW_CAPS after a channel retirement (21_register_map.md): 511 channels of 0.75 GiB are 383.25 GiB. -/
theorem test_channel_retired :
    let d := ((channelRetire 0).run (on live).dev)
    d.fld F.DRM_CHAN_STATUS_retired 0 = 1 ∧ bits (capsValue d) 15 6 = 511 := by decide +kernel

/-- The check values of the CRC catalogue for "123456789": CRC-32C, and CRC-64 with the polynomial of ECMA-182. -/
theorem test_crc : crc32c [0x31, 0x32, 0x33, 0x34, 0x35, 0x36, 0x37, 0x38, 0x39] = 0xE3069283 ∧
    crc64 [0x31, 0x32, 0x33, 0x34, 0x35, 0x36, 0x37, 0x38, 0x39] = 0x6C40DF5F0B497347 := by decide +kernel

/-! ### The queue -/

/-- The front command is taken and runs on the rest of the queue. -/
theorem test_step_takes_front : step ⟨[.vfEnable 2 0, .junctionTrip], Device.reset⟩ = .fault .illFormed := rfl

/-- The table gives its rows no bits: no word spells a command. -/
theorem test_no_words : decodeTableWord 32 0 = none ∧ (State.reset.withFetchWord 32 0).pending = [] := by decide +kernel

/-! ### The operand checks of Sys2Proof/WellFormed.lean -/

/-- A term of each kind of check of `Instr.wellFormed` with an operand one beyond the check's range is ill-formed. -/
theorem test_illFormed_1 : ([.registerWrite 2049 false 0 0, .registerReadClear 0 false 0 3, .engineSubstitution 2601 0 none
    false, .engineSubstitution 0 5 none false, .engineSubstitution 0 0 (some 5) false, .coreSubstitution 2601 false,
    .clusterSubstitution 153, .dieSubstitution 17, .codecEngineRetire 34, .shellRetire 16 false, .figLoadGo 0 32 0,
    .loadComplete 4, .figStageDiscard 0 0 8 0, .patchApply 2048, .halo 0 [] [] [24576] 0 0, .semGrant 8192, .seqTailPoll 0 64,
    .lookup 16, .wayClearDone 0 16, .dramTrain 0 16 0, .dramTrainDone 0 [32] [], .dramTrainDone 0 [] [32], .dqLaneFail 512,
    .groupPoisonDone 128, .bankRepair 0 64, .stackTempSample 0 256, .driverMapInval 0 1024 0, .autoPromote 0 1572864,
    .frameFree 0 268435456, .flsOpen 0 4096, .relocation 524288, .flashScrub 4 0 false 0, .flashScrub 0 0 false 3] : List
    Instr).all (fun c => !c.wellFormed) = true := by decide +kernel

/-- A term of each kind of check of `Instr.wellFormed` with an operand one beyond the check's range is ill-formed. -/
theorem test_illFormed_2 : ([.ringDoorbell 0 10392 [] [], .dmaBurst 21 none [] [], .dmaComplete 9728, .cueEvent 0 (some 1024)
    0 [], .cueEvent 0 none 0 [65536], .laneSwitch 96 0 false, .laneSwitch 0 8 false, .controlFlit 0 65536 [] 0, .controlFlit 0 0
    [65536] 0, .groupFailover 0 4096 [], .groupFailover 0 0 (List.replicate 66050 0), .linkSiteFail 104, .packetAdmit 0 8,
    .portTraining 0 (List.replicate 257 0), .portTrainDone 0 [9] false, .candidateFlood (some 96) false 0, .allReduce 9984,
    .vceOpen 0 4294967296 [] [], .encode 0 [] 4294967296 [] [], .decode 34 [] [] 0 [] [], .decodeResume 0 16 0,
    .vceJobComplete 10256, .ingestPublish [16], .preemptGangStart 0 65536, .vinLoss (some 9), .phaseFail 182 0, .phaseFail 0
    8] : List Instr).all (fun c => !c.wellFormed) = true := by decide +kernel

/-- An identity exchange with any one operand one beyond its range is ill-formed. -/
theorem test_illFormed_identity : (List.range 7).all (fun k =>
    let at' (i bound : Nat) := if i = k then bound else 0
    !(Instr.identityExchange 0 (at' 0 (2 ^ 64)) (at' 1 (2 ^ 32)) (at' 2 4096) (at' 3 256) (at' 4 256) (at' 5 96) (at' 6 4) false
      false).wellFormed) = true := by decide +kernel

/-- A term of each kind of check of `Instr.wellFormed` with an operand one beyond the check's range is ill-formed. -/
theorem test_illFormed_3 : ([.restEntry [] [] [1456] [], .restEntry [] [] [] [1536], .wake 4 [] [] [], .wake 0 [96] [] [], .wake 0
    [] [512] [], .wake 0 [] [] [512], .offEntry 0 [13005] [] [], .offEntry 0 [] [2601] [], .offEntry 0 [] [] [2601],
    .stewardTakeover false (some 3),
    .keyLoad 0 33 0, .tamperTrip 5, .powerOnSequence { env with aonClock := 3 }, .recoveryChunk 0 (List.replicate 32769 0)
    false env, .perstRelease 2 false 0 0 false, .perstRelease 0 false 6 0 false, .perstRelease 0 false 0 5 false, .portReset 0
    3, .vfFlr 0 512, .configRequest 0 1024 false, .vfEnable 0 513, .fwWriteSlot 0 2 false, .doorbellPageWrite 0 0 256 [] [],
    .mctpControl 3 0 0 0, .mctpControl 0 0 0 256, .pldmPowerState 0 4, .haltAssert false false 250001, .streamTileDelivery
    16384 [] 0 0, .uncorrectableCodeword 0 257, .rowRepairDone 0 1048576, .powerOnSequence { env with phases := [1456] },
    .powerOnSequence { env with dq := [512] }, .powerOnSequence { env with ca := [512] }, .powerOnSequence
    { env with engines := [13005] }, .powerOnSequence { env with cores := [2601] }] : List Instr).all (fun c => !c.wellFormed)
    = true := by decide +kernel

/-- An ill-formed command changes nothing: it stops the machine. -/
theorem test_illFormed_stops : exec (.vfEnable 2 0) (on live) = .fault .illFormed := rfl

/-! ### The hypotheses of the statements, from what is decided by evaluation -/

theorem asks {s : State} {rq : Nat} (h : rq < 2049 ∧ answering s.dev rq = true ∧ (powered s.dev = true ∨ (powerState s.dev = 1 ∧
    isSteward rq = false ∧ wakeEnabled s.dev 0 = true ∧ s.dev.fld F.PWR_WAKE_auto 0 = 1))) :
    Asks s rq ((beforeAccess rq).run s.dev) := ⟨h.1, h.2.1, h.2.2, rfl⟩

theorem asksAon {s : State} {rq : Nat} (h : rq < 2049 ∧ answering s.dev rq = true) : AsksAon s rq ((dropHalves rq).run s.dev) :=
  ⟨h.1, h.2, rfl⟩

theorem asksFor {s : State} {rq : Nat} {r : Reg} (h : rq < 2049 ∧ answering s.dev rq = true ∧ (alwaysOn r = true ∨ powered s.dev =
    true)) : AsksFor s rq r ((if alwaysOn r then dropHalves rq else beforeAccess rq).run s.dev) := by
  obtain ⟨h1, h2, h3⟩ := h
  simp only [AsksFor]
  split
  · exact asksAon ⟨h1, h2⟩
  · exact asks ⟨h1, h2, .inl (h3.resolve_left (by assumption))⟩

theorem writes {s : State} {rq : Nat} {r : Reg} {i v b : Nat} (h : (rq < 2049 ∧ answering s.dev rq = true ∧ powered s.dev = true) ∧
    bit (mayWrite ((beforeAccess rq).run s.dev) rq r i) b = 1) :
    Writes s rq r i v b ((storeWrite rq r i v).run ((beforeAccess rq).run s.dev)) :=
  ⟨asks ⟨h.1.1, h.1.2.1, .inl h.1.2.2⟩, h.2, rfl⟩

theorem writesAon {s : State} {rq : Nat} {r : Reg} {i v b : Nat} (h : (rq < 2049 ∧ answering s.dev rq = true) ∧
    bit (mayWrite ((dropHalves rq).run s.dev) rq r i) b = 1) :
    WritesAon s rq r i v b ((storeWrite rq r i v).run ((dropHalves rq).run s.dev)) := ⟨asksAon h.1, h.2, rfl⟩

theorem issues {s : State} {core kind : Nat} {x : StepCtx} (h : core < 2048 ∧ clocked s.dev (core / 16) = true ∧
    canIssue s.dev core x.w = true ∧ stepCtx s.dev core = some { x with fixed := [], lost := [] } ∧ stepKind x.w = kind ∧
    x.core = core) : Runs s core kind x ((arriveAt x).run s.dev) := by
  obtain ⟨hc, hk, hi, hs, hw, hx⟩ := h
  exact ⟨hc, hk, hi, hs, hw, hx, rfl⟩

theorem reads {x : StepCtx} {d : Device} {g : Int} {n : Nat} {need : Nat → Bool} (h : granulesOk g n = true ∧
    poisonedWords ((spanErrors x g.toNat n need).run d) x.core g.toNat n need = none) : ReadsWords x d g n need
    ((noteRead x.core g.toNat n).run ((spanErrors x g.toNat n need).run d)) := ⟨h.1, h.2, rfl⟩

theorem dest {x : StepCtx} {d : Device} {g : Int} {n : Nat} (h : granulesOk g n = true ∧ unread d x.core g.toNat n = true) :
    TakesDest x d g n ((noteWrite x.core g.toNat n).run d) := ⟨h.1, h.2, rfl⟩

theorem walks {x : StepCtx} {d : Device} {win : WindowRec} {os : List Int} (h : agentHeld d (some x.part) (walkAddrs d x.part
    (stepPages d x win os)) = false ∧ anyPoison ((memErrors (walkAddrs d x.part (stepPages d x win os)) x.fixed x.lost).run d)
    (walkAddrs d x.part (stepPages d x win os)) = false) : Walks x d win os ((Eff.obs fun d1 =>
    .each (coreCluster d1 x.core).toList fun s => .each (stepPages d x win os) (cachePage s)).run
      ((memErrors (walkAddrs d x.part (stepPages d x win os)) x.fixed x.lost).run d)) := ⟨h.1, h.2, rfl⟩

theorem serves {s : State} {die op : Nat} {q : SeqReq} (h : die < 16 ∧ working s.dev = true ∧
    (s.dev.seqServiceAt die).bind (fun k => seqRequest s.dev (k / 64) (k % 64)) = some q ∧ q.op = op ∧
    seqMalformed s.dev q = false ∧ treeLost s.dev q.part = false) : Serves s die op q := by
  obtain ⟨hd, hw, hq, ho, hm, hl⟩ := h
  exact ⟨hd, hw, hq, ho, hm, hl⟩

theorem takesMore {d : Device} {n : Nat} (h : serving d = true ∧ ringServed d n = true ∧ (ringState d n = 1 ∨ ringState d n = 2) ∧
    (d.ringsAt n).length < takenLimit) : TakesMore d n := by
  obtain ⟨hd, hr, hs, hn⟩ := h
  exact ⟨hd, hr, hs, hn⟩

theorem takes {s : State} {e op n : Nat} {x : Desc} (h : e < 34 ∧ serving s.dev = true ∧ engineServes s.dev e = true ∧
    jobTurn s.dev e = some (n, x) ∧ x.op = op) : TakesJob s e op n x ((putRr (32 + e) n).run s.dev) :=
  by
  obtain ⟨he, hs, hv, hj, ho⟩ := h
  exact ⟨he, hs, hv, hj, ho, rfl⟩

/-- What a key command finds: the write of its window's command register, stored. -/
def afterKey (s : State) (rq w op index : Nat) : Device :=
  (storeWrite rq .SEC_CMD w (secValue op index)).run ((dropHalves rq).run s.dev)

theorem keys {s : State} {rq w op index : Nat} (h : w < 33 ∧ op < 16 ∧ index < 65536 ∧ ((rq < 2049 ∧ answering s.dev rq = true) ∧
    bit (mayWrite ((dropHalves rq).run s.dev) rq .SEC_CMD w) 31 = 1) ∧ (afterKey s rq w op index).fld F.SEC_CMD_busy w = 0 ∧
    secQuarantined (afterKey s rq w op index) op = false ∧ secInRange w op index (secArg (afterKey s rq w op index) w) = true) :
    AsksKeys s rq w op index (afterKey s rq w op index) := by
  obtain ⟨hw, ho, hi, ha, hb, hq, hr⟩ := h
  exact ⟨hw, ho, hi, writesAon ha, hb, hq, hr⟩

/-- What a library command finds, and the command in progress. -/
def libraryAt (s : State) (rq op entry : Nat) : Device := (libraryBegins op entry).run ((beforeAccess rq).run s.dev)
def libraryJob (s : State) (rq op entry : Nat) : FlsJob :=
  let d := (beforeAccess rq).run s.dev
  { op := op, entry := entry, a := d.reg .FLS_ARG_A 0, b := d.reg .FLS_ARG_B 0 }

theorem asksLibrary {s : State} {rq op entry : Nat} (h : (rq < 2049 ∧ answering s.dev rq = true ∧ powered s.dev = true) ∧
    ((beforeAccess rq).run s.dev).fld F.FLS_STATUS_busy 0 = 0 ∧ entry < 4096 ∧ (isSteward rq || isPf rq) = true) :
    AsksLibrary s rq op entry (libraryAt s rq op entry) (libraryJob s rq op entry) := by
  obtain ⟨⟨hq, ha, hp⟩, hb, he, hr⟩ := h
  exact ⟨⟨_, asks ⟨hq, ha, .inl hp⟩, hb, rfl, rfl⟩, he, hr⟩

theorem runsLibrary {s : State} {rq op entry : Nat} (h : ((rq < 2049 ∧ answering s.dev rq = true ∧ powered s.dev = true) ∧
    ((beforeAccess rq).run s.dev).fld F.FLS_STATUS_busy 0 = 0 ∧ entry < 4096 ∧ (isSteward rq || isPf rq) = true) ∧
    stackLost (libraryAt s rq op entry) = false ∧ jobHeld (libraryAt s rq op entry) (libraryJob s rq op entry) = false) :
    RunsLibrary s rq op entry (libraryAt s rq op entry) (libraryJob s rq op entry) := by
  obtain ⟨ha, hl, hj⟩ := h
  exact ⟨asksLibrary ha, hl, hj⟩

theorem comes {s : State} {i seq : Nat} {bs : List Byte} {p : Packet} (h : i < 96 ∧ seq < 4096 ∧ bs.length < 66050 ∧
    powered s.dev = true ∧ linkUp s.dev i = true ∧ badFlit bs = none ∧ wholePacket bs = true ∧ packetOf bs = p ∧
    (s.dev.portsAt i).received % 4096 = seq) : Comes s i seq bs p
    ((modPorts i fun q => { q with received := q.received + p.length, partialFlits := 0 }).run s.dev) := by
  obtain ⟨hi, hq, hl, hp, hu, hf, hw, hk, hn⟩ := h
  exact ⟨hi, hq, hl, hp, hu, hf, hw, hk, hn, rfl⟩

/-- What the handler of a packet finds. -/
def arrived (s : State) (i : Nat) (p : Packet) : Device := (Eff.seq (freeFlits i p) (sendControl i false)).run
  ((modPorts i fun q => { q with received := q.received + p.length, partialFlits := 0 }).run s.dev)

theorem arrives {s : State} {i seq : Nat} {bs : List Byte} {p : Packet} (h : i < 96 ∧ seq < 4096 ∧ bs.length < 66050 ∧
    powered s.dev = true ∧ linkUp s.dev i = true ∧ badFlit bs = none ∧ wholePacket bs = true ∧ packetOf bs = p ∧
    (s.dev.portsAt i).received % 4096 = seq) : Arrives s i seq bs p (arrived s i p) := ⟨_, comes h, rfl⟩

theorem admits {d : Device} {recv : Nat} {p : Packet} {k : Nat} {f : Flow} {data : List Byte} (h : recvFlow d p = some (k, f) ∧
    bit f.flags recv ≠ 0 ∧ (bit f.flags 4 == 1 && p.epoch != f.epoch) = false ∧
    ((p.kind != 2 || p.vc != 0) && !flowVc f p.vc) = false ∧ openPacket d k f p = some data ∧ ctxRuns d p.dstCtx = true) :
    Admits d recv p k f data ((acceptCounter k f p).run d) := by
  obtain ⟨hf, hb, he, hv, hd, hc⟩ := h
  exact ⟨hf, hb, he, hv, hd, hc, rfl⟩

/-- Context 0 runs on core 0, at that step, with its sequencer as `q`. -/
def runsAt (w : BitVec 128) (q : Seq) (es : List Eff) : State := runs w (putCores 0
  { state := 1, loaded := some (0, 0, 0), ctx := some 0, atBeat := false, seq := q } :: es)

/-- The step of that core. -/
def atSeq (w : BitVec 128) (q : Seq) : StepCtx := { at0 w with q := q }

/-- Core 0 waits at that step. -/
def waiting (w : BitVec 128) (es : List Eff) : State := runs w (putCores 0
  { state := 1, loaded := some (0, 0, 0), ctx := some 0, atBeat := false, waiting := true } :: es)

theorem seqTurn_of {d : Device} {die f : Nat} {ks : List Nat} (h : ((List.range 2048).map fun i => (f + 1 + i) % 2048).filter
    (fun k => seqWaiting d (k / 64) (k % 64) && seqDie d (k / 64) == some die) = ks) : seqTurn d die f = ks := by
  rw [← h]
  simp only [seqTurn, Bool.and_comm]

/-- That request, where its ring holds references on 4,096 nodes. -/
def crowded (q : SeqReq) : State :=
  let s := request q [tree []]
  { s with dev := { s.dev with pfxRefs := (List.range 4096).map fun i => (i, 1) } }

theorem crowded_refs (q : SeqReq) : 4096 ≤ (ringRefs (crowded q).dev 0 0).length := by
  have h : (List.range 4096).filter (fun i => i / 65536 == 0 * 64 + 0) = List.range 4096 :=
    List.filter_eq_self.mpr fun i hi => by
      rw [List.mem_range] at hi
      simp only [beq_iff_eq]
      omega
  simp only [ringRefs, crowded, mapKeys, List.map_map, List.filter_map, Function.comp_def, List.length_map, h,
    List.length_range, Nat.le_refl]

/-- A request to insert a block, where the tree's bucket for it holds eight nodes of another scope, with `refs` references. -/
def full8 (refs : Nat) (es : List Eff) : State :=
  request (req 2 0x810000) (tree (List.replicate 8 { node with scope := 1, refs := refs }) :: es)

theorem full8_nodes (refs : Nat) (es : List Eff) (h : treeNodes (full8 refs es).dev 0 = (List.replicate 8
    { node with scope := 1, refs := refs }).zipIdx.map fun n => (n.2, n.1)) : true = decide (8 ≤ ((treeNodes (full8 refs es).dev
      0).filter fun m => bucketIndex m.2.hash == bucketIndex node.hash).length) := by
  rw [h]
  simp [List.replicate]

theorem full8_oldest (es : List Eff) (h : treeNodes (full8 0 es).dev 0 = (List.replicate 8
    { node with scope := 1 }).zipIdx.map fun n => (n.2, n.1)) :
    oldest (full8 0 es).dev 0 (fun m => bucketIndex m.hash == bucketIndex node.hash) ≠ [] := by
  simp only [oldest, h]
  simp [List.replicate, node, PfxNode.evictable]

/-- A partition with no channel group in service has no address for any offset. -/
theorem noGroups {d : Device} {p k n : Nat} (h : groupOrder d p = []) :
    [] = (List.range n).filterMap (fun i => partAddr d p (k + i)) :=
  (List.filterMap_eq_nil_iff.mpr fun i _ => by simp [partAddr, h]).symm

theorem poisoned_first {d : Device} {a n : Nat} (h : d.badByte a = true ∧ n ≠ 0) : d.poisoned a n = true := by
  obtain ⟨m, rfl⟩ := Nat.exists_eq_succ_of_ne_zero h.2
  simp [Device.poisoned, h.1]

/-- A spare block of a block's flash die that was never erased is one that it may be relocated to, and a block in use is none. -/
theorem relocTo {d : Device} {y b : Nat} (h : b < 524288 ∧ (dieOf (y / 524288 * 524288 + b) == dieOf y) = true ∧
    isSpare d (y / 524288 * 524288 + b) = true ∧ d.erasesAt (y / 524288 * 524288 + b) = 0) :
    (relocTargets d y).contains (y / 524288 * 524288 + b) = true := by
  obtain ⟨h1, h2, h3, h4⟩ := h
  simp only [relocTargets, sparesOf, List.contains_iff_mem, List.mem_filter, List.mem_map, List.mem_range, h2, h3, h4,
    Bool.and_self, Nat.zero_le, decide_true, and_true, List.all_eq_true, implies_true]
  exact ⟨b, h1, Nat.add_comm _ _ ▸ rfl⟩

theorem relocNot {d : Device} {y b : Nat} (h : isSpare d (y / 524288 * 524288 + b) = false) :
    (relocTargets d y).contains (y / 524288 * 524288 + b) = false := by
  simp [relocTargets, sparesOf, h]

/-- The context of each consumer's core is the one its leaf's set runs. -/
theorem sameContexts {d : Device} {p s : Nat} {f : Figure} (h : ((leaves f s).all fun l => (leafCore d p f l).all fun core =>
    (d.coresAt core).ctx == leafContext d p f l) = true) : ∀ l ∈ leaves f s, ∀ core, leafCore d p f l = some core →
    (d.coresAt core).ctx = leafContext d p f l := fun l hl core hc => by
  have := (List.all_eq_true.mp h) l hl
  simpa [hc] using this

/-- A WRITE of bytes of the first channel group, where nothing holds that group and no stack it writes is paused, runs. -/
theorem writeFree {d : Device} {j : FlsJob} (h : (j.op = 2 ∧ d.routesStale = false ∧ d.rowRepair = [] ∧ d.groupPoisonAt 0 = false ∧
    d.fld F.DRM_STACK_STATUS_state 0 ≠ 3) ∧ (0x1000000000 ≤ j.a ∧ j.a + (writeSpan j.b).2 ≤ 0x10C0000000) ∧
    ((jobStacks d j).any fun k => d.fld F.FLS_STACK_STATUS_write_paused k == 1) = false) : jobHeld d j = false := by
  obtain ⟨⟨ho, hr, hq, hg, hf⟩, ⟨ha, hn⟩, hs⟩ := h
  have hd : anyHeld d ((List.range (writeSpan j.b).2).map (j.a + ·)) = false := by
    simp only [anyHeld, hr, Bool.false_or, List.any_eq_false, List.mem_map, List.mem_range]
    rintro a ⟨i, hi, rfl⟩
    have hp : place (j.a + i) = j.a + i := by simp only [place]; omega
    have hz : groupOf (j.a + i) = 0 := by simp only [groupOf, hp]; omega
    have hl : inFloor (j.a + i) = false := by simp only [inFloor, Bool.and_eq_false_iff, decide_eq_false_iff_not]; omega
    simp [floorHeld, dramHeld, hl, hz, hg, hq, hf]
  simp only [jobHeld, hs, Bool.or_false, jobDram, ho, BEq.rfl, if_true]
  split
  · exact hd
  · simp [anyHeld, hr]

/-- No access of a translation is held: the one there is, or because there is none. -/
theorem noneHeld {d : Device} {q : Option Nat} {o : Option (List Nat)} {l : List Nat} (h : o = some l ∧ agentHeld d q l = false) :
    ∀ as, o = some as → agentHeld d q as = false := fun as ha => by
  rw [h.1] at ha
  cases ha
  exact h.2

theorem noneReached {d : Device} {q : Option Nat} {o : Option (List Nat)} (h : o = none) :
    ∀ as, o = some as → agentHeld d q as = false := fun as ha => by
  rw [h] at ha
  cases ha

/-- A poll has the descriptor at the head of a ring read. -/
theorem polls {s : State} {n : Nat} {fixed lost : List Nat} (h : n < 10392) :
    Fetches s (.ringPoll n fixed lost) n fixed lost s.dev := ⟨h, .inr (.inl ⟨rfl, rfl⟩)⟩

/-- A collective message reaches the group of its key over flow 0. -/
theorem reaches {s : State} {i seq msg g : Nat} {bs data : List Byte} {q : Packet} (h : (i < 96 ∧ seq < 4096 ∧ bs.length < 66050 ∧
    powered s.dev = true ∧ linkUp s.dev i = true ∧ badFlit bs = none ∧ wholePacket bs = true ∧ packetOf bs = q ∧
    (s.dev.portsAt i).received % 4096 = seq) ∧ (forMe i 5 s.dev q = true ∧ bodyMsg q = msg) ∧
    (recvFlow (arrived s i q) q = some (0, inFlow) ∧ bit inFlow.flags 2 ≠ 0 ∧
      (bit inFlow.flags 4 == 1 && q.epoch != inFlow.epoch) = false ∧ ((q.kind != 2 || q.vc != 0) && !flowVc inFlow q.vc) = false ∧
      openPacket (arrived s i q) 0 inFlow q = some data ∧ ctxRuns (arrived s i q) q.dstCtx = true) ∧
    (((ctxPart (arrived s i q) q.dstCtx).bind fun x => (partEntries (arrived s i q) x).find? fun e =>
      (arrived s i q).fld F.COL_GROUP_valid e == 1 && (arrived s i q).reg .COL_GROUP_KEY e == bodyKey q) = some g ∧
    bodyEpoch q = (if msg == 4 || msg == 7 then nextEpoch ((arrived s i q).fld F.COL_GROUP_epoch g) else
      (arrived s i q).fld F.COL_GROUP_epoch g) ∧ ((arrived s i q).colGroupsAt g).current.contains q.src = true)) :
    Reaches s i seq bs msg g { q with data := data } ((acceptCounter 0 inFlow q).run (arrived s i q)) := by
  obtain ⟨ha, ⟨hf, hm⟩, hd, hg, he, hs⟩ := h
  exact ⟨⟨q, _, 0, inFlow, data, arrives ha, hf, hm, admits hd, hg, he, hs, rfl⟩⟩

/-- A collective descriptor as `colDesc`, whose staging area lies at virtual address 0x40000000. -/
def colDescIn (op : Nat) : Desc :=
  { raw := toLE 4 (2 ^ 31 + op * 2 ^ 28) ++ toLE 4 1 ++ List.replicate 24 0 ++ toLE 8 0x40000000 ++ toLE 4 4096 ++ List.replicate 20 0 }

/-- The ring with that descriptor and the operation `o`, where that address is a tier 0 window in way 0 of die site 0, with access
`a`. -/
def staged (a : Nat) (o : ColOp) (es : List Eff) : State := colRing ([putRings 9728 [colDescIn 0], putColOps 9728 (some o),
  setReg .FLR_WAYOWN 0 0x80, setF F.FLR_WAYMAP_mode 0 1, putDrvMap 0 [{ length := 0x10000000, tier := 1, access := 7 },
  { va := 0x40000000, length := 0x10000, access := a }]] ++ es)

/-- Translation by the one window of a figure map, from virtual address 0 on to the first bytes of channel group 0. -/
theorem plain_at {d : Device} {c a : Nat} {k : Kind} {e : MapEntry} (h : (d.ctxsAt c).mapped = true ∧ ctxPart d c = some 0 ∧
    figureMap d c = [e] ∧ e.broken d 0 = false ∧ k.permitted e.access = true ∧ (e.tier = 1 ∧ e.va = 0 ∧ e.offset = 0) ∧
    (groupOrder d 0)[0]? = some 0 ∧ (groupChans d 0).length ≠ 3 ∧ d.fld F.PRT_PFX_BASE_enable 0 = 0 ∧ d.fld F.SEC_CTX_KEY_enable c = 0)
    (ha : a < e.length) (hb : a < 0xC0000000) : translate d c a k = some (0x1000000000 + a) := by
  obtain ⟨h1, h2, h3, h4, h5, ⟨h6, h7, h8⟩, h9, h10, h11, h12⟩ := h
  have hq : a / 0xC0000000 = 0 := Nat.div_eq_of_lt hb
  have hr : a % 0xC0000000 = a := Nat.mod_eq_of_lt hb
  have hp : partAddr d 0 a = some (0x1000000000 + a) := by
    simp [partAddr, hq, hr, h9, inHole, h10, groupAddr]
  simp [Machine.translate, h1, translateMaps, h2, translateEntry, coverEntry, h3, covering, lastBelow, h7, ha, h4, h5, h6, entryAddr, h8,
    treeOverlap, h11, hp, forCtx, h12]

theorem mapM_some {f : Nat → Option Nat} {g : Nat → Nat} : ∀ l : List Nat, (∀ i ∈ l, f i = some (g i)) → l.mapM f = some (l.map g)
  | [], _ => rfl
  | x :: xs, h => by
    rw [List.mapM_cons, h x List.mem_cons_self, mapM_some xs fun i hi => h i (List.mem_cons_of_mem _ hi)]
    rfl

theorem plain_range {d : Device} {c n : Nat} {k : Kind} {e : MapEntry} (h : ((d.ctxsAt c).mapped = true ∧ ctxPart d c = some 0 ∧
    figureMap d c = [e] ∧ e.broken d 0 = false ∧ k.permitted e.access = true ∧ (e.tier = 1 ∧ e.va = 0 ∧ e.offset = 0) ∧
    (groupOrder d 0)[0]? = some 0 ∧ (groupChans d 0).length ≠ 3 ∧ d.fld F.PRT_PFX_BASE_enable 0 = 0 ∧
    d.fld F.SEC_CTX_KEY_enable c = 0) ∧ n ≤ e.length ∧ n ≤ 0xC0000000) : translateRange d c 0 k n = some (dram n) := by
  have : ∀ i ∈ List.range n, Machine.translate d c (0 + i) k = some (0x1000000000 + i) := fun i hi => by
    rw [Nat.zero_add]
    rw [List.mem_range] at hi
    exact plain_at h.1 (by omega) (by omega)
  exact mapM_some _ this

/-- A range whose first byte has no translation has none. -/
theorem unmapped {d : Device} {c a n : Nat} {k : Kind} (h : Machine.translate d c a k = none ∧ n ≠ 0) : translateRange d c a k n = none := by
  obtain ⟨m, rfl⟩ := Nat.exists_eq_succ_of_ne_zero h.2
  rw [translateRange, List.range_succ_eq_map, List.mapM_cons, Nat.add_zero, h.1]
  rfl

/-- The first bytes of channel group 0 wait for nothing where neither it, its stack nor partition 0's regulator holds them. -/
theorem plain_held {d : Device} {q : Option Nat} {n : Nat} (h : (d.routesStale = false ∧ d.rowRepair = [] ∧ d.groupPoisonAt 0 = false ∧
    d.fld F.DRM_STACK_STATUS_state 0 ≠ 3 ∧ d.fld F.PRT_REG_rate 0 ≠ 0 ∧ d.fld F.PRT_REG_depth 0 ≠ 0) ∧ q = some 0 ∧ n ≤ 0xC0000000) :
    agentHeld d q (dram n) = false := by
  obtain ⟨⟨h1, h2, h3, h4, h5, h6⟩, rfl, hn⟩ := h
  have hz : ∀ i < n, groupOf (0x1000000000 + i) = 0 := fun i hi => by
    have hp : place (0x1000000000 + i) = 0x1000000000 + i := by simp only [place]; omega
    simp only [groupOf, hp]
    omega
  simp only [agentHeld, anyHeld, h1, Bool.false_or, Option.any_some, Bool.or_eq_false_iff, dram, regulated, Bool.and_eq_false_iff,
    List.any_eq_false, List.mem_map, List.mem_range]
  refine ⟨?_, .inr ?_⟩
  · rintro a ⟨i, hi, rfl⟩
    have hl : inFloor (0x1000000000 + i) = false := by simp only [inFloor, Bool.and_eq_false_iff, decide_eq_false_iff_not]; omega
    simp [floorHeld, dramHeld, hl, hz i hi, h2, h3, h4]
  · rintro a ⟨i, hi, rfl⟩
    simp [hz i hi, h5, h6]

/-- A read of DRAM that meets no error counts nothing where no extent is promoted. -/
theorem plain_read {d : Device} {n m : Nat} (h : (ringPart d n).all (fun p => (promoted d p).isEmpty) = true ∧ m ≤ 0xC0000000) :
    (agentReads n (dram m) [] []).run d = d := by
  have hf : (dram m).filter inFlash = [] := by
    simp only [dram, List.filter_eq_nil_iff, List.mem_map, List.mem_range]
    rintro a ⟨i, hi, rfl⟩
    simp only [inFlash, Bool.and_eq_true, decide_eq_true_eq]
    omega
  have he : (memErrors (dram m) [] []).run d = d := by
    simp [memErrors, unitsOf, disturbReads, hf, flashErrors, Eff.run_all_cons, Eff.run_all_nil]
  simp only [agentReads, Eff.run_seq, he, Eff.run_obs]
  cases hr : ringPart d n with
  | none => simp
  | some p =>
    have hp : promoted d p = [] := by simpa [hr, List.isEmpty_iff] using h.1
    simp [countReads, hf, hp]

/-- DRAM whose first byte is poisoned. -/
theorem plain_poison {d : Device} {n : Nat} (h : d.badByte 0x1000000000 = true ∧ n ≠ 0) : anyPoison d (dram n) = true := by
  obtain ⟨m, rfl⟩ := Nat.exists_eq_succ_of_ne_zero h.2
  rw [anyPoison, dram, List.range_succ_eq_map, List.map_cons, List.any_cons, Nat.add_zero, h.1, Bool.true_or]

theorem witness_RegisterWrites_0 : ∃ (s : State) (d : Device) (rq a i : Nat) (area : Bool) (r : Reg), AsksFor s rq r d ∧
    plainReg r = true ∧ writeSpot s.dev rq area a = some (r, i) ∧ mayWrite d rq r i ≠ 0 :=
  ⟨with' [setF F.PRT_CTRL_state 31 1], _, 1, 0x201F000, 31, false, .FIG_SRC, asksFor (by decide +kernel), by decide +kernel⟩

theorem witness_RegisterWrites_1 : ∃ (s : State) (d : Device) (rq a i : Nat) (area : Bool) (r : Reg), AsksFor s rq r d ∧
    plainReg r = true ∧ writeSpot s.dev rq area a = some (r, i) ∧ mayWrite d rq r i = 0 :=
  ⟨on live, _, 3, 0x2000000, 0, false, .FIG_SRC, asksFor (by decide +kernel), by decide +kernel⟩

theorem witness_RegisterWrites_2 : ∃ (s : State) (d : Device) (rq a i : Nat) (area : Bool) (r : Reg), AsksFor s rq r d ∧
    writeSpot s.dev rq area a = some (r, i) :=
  ⟨on live, _, 0, 0x1000100, 0, false, .PRT_SCHED, asksFor (by decide +kernel), by decide +kernel⟩

theorem witness_RegisterWrites_3 : ∃ (s : State) (d : Device) (rq a : Nat) (area : Bool), AsksAon s rq d ∧ writeSpot s.dev rq
    area a = none :=
  ⟨on live, _, 0, 0x1000008, false, asksAon (by decide +kernel), by decide +kernel⟩

theorem witness_RegisterWrites_4 : ∃ (s : State) (d : Device) (rq a i : Nat) (area : Bool) (r : Reg), AsksFor s rq r d ∧
    writeSpot s.dev rq area a = some (r, i) ∧ r.info.wide = true :=
  ⟨on live, _, 0, 0x1080010, 0, false, .CTX_SAVE, asksFor (by decide +kernel), by decide +kernel⟩

theorem witness_RegisterWrites_5 : ∃ (s : State) (d : Device) (rq a : Nat) (area : Bool), AsksAon s rq d ∧ (((writeSpot s.dev
    rq area a).filter fun x => x.1.info.wide) = none) :=
  ⟨on live, _, 0, 0x1000100, false, asksAon (by decide +kernel), by decide +kernel⟩

theorem witness_RegisterWrites_6 : ∃ (s : State) (d : Device) (rq a low i : Nat) (area : Bool) (r : Reg), AsksFor s rq r d ∧
    writeSpot s.dev rq area a = some (r, i) ∧ r.info.wide = true ∧ s.dev.halfWriteAt rq = some (halfKey area a, low) :=
  ⟨with' [putHalfWrite 0 (some (0x1080010, 5))], _, 0, 0x1080010, 5, 0, false, .CTX_SAVE, asksFor (by decide +kernel),
    by decide +kernel⟩

theorem witness_RegisterWrites_7 : ∃ (s : State) (d : Device) (rq a low i : Nat) (area : Bool) (r : Reg), AsksFor s rq r d ∧
    plainReg r = true ∧ writeSpot s.dev rq area a = some (r, i) ∧ r.info.wide = true ∧ s.dev.halfWriteAt rq = some (halfKey
    area a, low) ∧ mayWrite d rq r i ≠ 0 :=
  ⟨with' [setF F.PRT_CTRL_state 0 1, putHalfWrite 1 (some (0x2000000, 0xFFFFFFFF))], _, 1, 0x2000000, 0xFFFFFFFF, 0, false,
    .FIG_SRC, asksFor (by decide +kernel), by decide +kernel⟩

theorem witness_RegisterWrites_8 : ∃ (s : State) (d : Device) (rq a i : Nat) (area : Bool) (r : Reg), AsksFor s rq r d ∧
    writeSpot s.dev rq area a = some (r, i) ∧ r.info.wide = true ∧ (((s.dev.halfWriteAt rq).filter fun h => h.1 == halfKey
    area a) = none) :=
  ⟨on live, _, 0, 0x1080010, 0, false, .CTX_SAVE, asksFor (by decide +kernel), by decide +kernel⟩

theorem witness_RegisterWrites_9 : ∃ (s : State) (d : Device) (rq : Nat), AsksAon s rq d :=
  ⟨on live, _, 2048, asksAon (by decide +kernel)⟩

theorem witness_RegisterWrites_10 : ∃ (s : State) (rq : Nat), rq < 2049 ∧ answering s.dev rq = false :=
  ⟨on (setF F.STW_BOOT_recovery 0 1), 1, by decide +kernel⟩

theorem witness_RegisterReads_0 : ∃ (s : State) (d : Device) (rq a i : Nat) (area ok : Bool) (r : Reg), AsksFor s rq r d ∧
    (area && a < 0x1000) = false ∧ (s.dev.off == 0 && rq == 1 && s.dev.fld F.STW_BOOT_recovery 0 == 1) = false ∧ readSpot
    s.dev rq area a = some ((r, i), ok) ∧ (ok || mayRead d rq r i) = true :=
  ⟨on live, _, 0, 0x1000100, 0, false, false, .PRT_SCHED, asksFor (by decide +kernel), by decide +kernel⟩

theorem witness_RegisterReads_1 : ∃ (s : State) (d : Device) (rq a size i : Nat) (area ok high : Bool) (r : Reg), AsksFor s rq
    r d ∧ (area && a < 0x1000) = false ∧ (s.dev.off == 0 && rq == 1 && s.dev.fld F.STW_BOOT_recovery 0 == 1) = false ∧ ((size
    = 1 ∨ size = 2)) ∧ wordSpot s.dev rq area (a / 4 * 4) = some (((r, i), ok), high) ∧ (ok || mayRead d rq r i) = true :=
  ⟨on live, _, 0, 0x1080016, 2, 0, false, false, true, .CTX_SAVE, asksFor (by decide +kernel), by decide +kernel⟩

theorem witness_RegisterReads_2 : ∃ (s : State) (d : Device) (rq a size i : Nat) (area high : Bool) (r : Reg), AsksFor s rq r
    d ∧ (area && a < 0x1000) = false ∧ (s.dev.off == 0 && rq == 1 && s.dev.fld F.STW_BOOT_recovery 0 == 1) = false ∧ ((size =
    0 ∧ readSpot s.dev rq area a = some ((r, i), false)) ∨ ((size = 1 ∨ size = 2) ∧ wordSpot s.dev rq area (a / 4 * 4) = some
    (((r, i), false), high))) ∧ mayRead d rq r i = false :=
  ⟨on live, _, 3, 0x1080013, 1, 0, false, false, .CTX_SAVE, asksFor (by decide +kernel), by decide +kernel⟩

theorem witness_RegisterReads_3 : ∃ (s : State) (d : Device) (rq a size : Nat) (area : Bool), AsksAon s rq d ∧ (area && a <
    0x1000) = false ∧ (s.dev.off == 0 && rq == 1 && s.dev.fld F.STW_BOOT_recovery 0 == 1) = false ∧ ((size = 0 ∧ readSpot
    s.dev rq area a = none ∧ (area = true ∨ routeSpot a = none)) ∨ ((size = 1 ∨ size = 2) ∧ wordSpot s.dev rq area (a / 4 * 4)
    = none)) :=
  ⟨on live, _, 0, 0x1000008, 0, false, asksAon (by decide +kernel), by decide +kernel⟩

theorem witness_RegisterReads_4 : (∃ (s : State) (d : Device) (rq a k : Nat), Asks s rq d ∧ (s.dev.off == 0 && rq == 1 &&
    s.dev.fld F.STW_BOOT_recovery 0 == 1) = false ∧ readSpot s.dev rq false a = none ∧ routeSpot a = some k ∧ (isSteward rq ||
    pfOrOwner d rq) = true) ∧ (∃ (s : State) (d : Device) (rq a k : Nat), Asks s rq d ∧ (s.dev.off == 0 && rq == 1 &&
    s.dev.fld F.STW_BOOT_recovery 0 == 1) = false ∧ readSpot s.dev rq false a = none ∧ routeSpot a = some k ∧ (isSteward rq ||
    pfOrOwner d rq) = false) :=
  ⟨⟨on live, _, 0, 0x3040000, 0, asks (by decide +kernel), by decide +kernel⟩, ⟨on live, _, 3, 0x3040000, 0, asks
    (by decide +kernel), by decide +kernel⟩⟩

theorem witness_RegisterReads_5 : ∃ (s : State) (d : Device) (rq a size c : Nat), Asks s rq d ∧ size < 3 ∧ a < 0x1000 ∧
    ctxOfRq rq = some c ∧ (s.dev.off == 0 && rq == 1 && s.dev.fld F.STW_BOOT_recovery 0 == 1) = false :=
  ⟨on live, _, 2, 0xFFF, 2, 0, asks (by decide +kernel), by decide +kernel⟩

theorem witness_RegisterReads_6 : (∃ (s : State) (d : Device) (rq a i : Nat) (area ok : Bool) (r : Reg), AsksFor s rq r d ∧
    readSpot s.dev rq area a = some ((r, i), ok) ∧ r.info.wide = true ∧ (ok || mayRead d rq r i) = true) ∧ (∃ (s : State) (d :
    Device) (rq a i : Nat) (area ok : Bool) (r : Reg), AsksFor s rq r d ∧ readSpot s.dev rq area a = some ((r, i), ok) ∧
    r.info.wide = true ∧ (ok || mayRead d rq r i) = false) :=
  ⟨⟨on live, _, 0, 0x1080010, 0, false, false, .CTX_SAVE, asksFor (by decide +kernel), by decide +kernel⟩, ⟨on live, _, 3,
    0x1080010, 0, false, false, .CTX_SAVE, asksFor (by decide +kernel), by decide +kernel⟩⟩

theorem witness_RegisterReads_7 : ∃ (s : State) (d : Device) (rq a i high : Nat) (area ok : Bool) (r : Reg), AsksFor s rq r d
    ∧ readSpot s.dev rq area a = some ((r, i), ok) ∧ r.info.wide = true ∧ s.dev.halfReadAt rq = some (halfKey area a, high) :=
  ⟨with' [putHalfRead 0 (some (0x1080010, 7))], _, 0, 0x1080010, 0, 7, false, false, .CTX_SAVE, asksFor (by decide +kernel),
    by decide +kernel⟩

theorem witness_RegisterReads_8 : (∃ (s : State) (d : Device) (rq a i : Nat) (area ok : Bool) (r : Reg), AsksFor s rq r d ∧
    readSpot s.dev rq area a = some ((r, i), ok) ∧ r.info.wide = true ∧ (((s.dev.halfReadAt rq).filter fun h => h.1 == halfKey
    area a) = none) ∧ (ok || mayRead d rq r i) = true) ∧ (∃ (s : State) (d : Device) (rq a i : Nat) (area ok : Bool) (r :
    Reg), AsksFor s rq r d ∧ readSpot s.dev rq area a = some ((r, i), ok) ∧ r.info.wide = true ∧ (((s.dev.halfReadAt
    rq).filter fun h => h.1 == halfKey area a) = none) ∧ (ok || mayRead d rq r i) = false) :=
  ⟨⟨on live, _, 0, 0x1080010, 0, false, false, .CTX_SAVE, asksFor (by decide +kernel), by decide +kernel⟩, ⟨on live, _, 3,
    0x1080010, 0, false, false, .CTX_SAVE, asksFor (by decide +kernel), by decide +kernel⟩⟩

theorem witness_RegisterReads_9 : ∃ (s : State) (d : Device) (rq a : Nat) (area : Bool), AsksAon s rq d ∧ (((readSpot s.dev rq
    area a).filter fun x => x.1.1.info.wide) = none) :=
  ⟨on live, _, 0, 0x1000100, false, asksAon (by decide +kernel), by decide +kernel⟩

theorem witness_RegisterReads_10 : ∃ (s : State) (size : Nat), size < 3 ∧ s.dev.off = 0 ∧ s.dev.fld F.STW_BOOT_recovery 0 = 1
    :=
  ⟨on (setF F.STW_BOOT_recovery 0 1), 2, by decide +kernel⟩

theorem witness_RegisterReads_11 : ∃ (s : State) (rq size : Nat), rq < 2049 ∧ size < 3 ∧ answering s.dev rq = false ∧
    (s.dev.off == 0 && rq == 1 && s.dev.fld F.STW_BOOT_recovery 0 == 1) = false :=
  ⟨on (setF F.STW_BOOT_recovery 0 1), 2048, 2, by decide +kernel⟩

theorem witness_SiteLookups_0 : ∃ (s : State) (d : Device) (rq : Nat), AsksAon s rq d ∧ (isSteward rq || pfOrOwner d rq) =
    true :=
  ⟨on live, _, 1, asksAon (by decide +kernel), by decide +kernel⟩

theorem witness_SiteLookups_1 : ∃ (s : State) (d : Device) (rq : Nat), AsksAon s rq d ∧ isSteward rq = false ∧ pfOrOwner d rq
    = false :=
  ⟨on live, _, 5, asksAon (by decide +kernel), by decide +kernel⟩

theorem witness_SiteLookups_2 : ∃ (s : State) (rq : Nat), rq < 2049 ∧ up s.dev = true ∧ s.dev.lookupsAt rq = true :=
  ⟨with' [putLookups 2048 true], 2048, by decide +kernel⟩

theorem witness_SiteLookups_3 : ∃ (s : State) (rq : Nat), rq < 2049 ∧ up s.dev = true ∧ s.dev.lookupsAt rq = false :=
  ⟨on live, 2048, by decide +kernel⟩

theorem witness_Substitutions_0 : ∃ (s : State) (d : Device) (core e k : Nat), (dropSlice (coresServed · 1 core)).run s.dev =
    d ∧ core < 2601 ∧ e < 5 ∧ powered s.dev = true ∧ retireChain d 3 0 (core * 5 + e) = [(0, core * 5 + e)] ∧ siteServes d 0
    (core * 5 + e) = true ∧ coreOfSite d core = some k :=
  ⟨on live, _, 2429, 3, 2047, rfl, by decide +kernel⟩

theorem witness_Substitutions_1 : ∃ (s : State) (d : Device) (core e : Nat), (dropSlice (coresServed · 1 core)).run s.dev = d
    ∧ core < 2601 ∧ e < 5 ∧ powered s.dev = true ∧ retireChain d 3 0 (core * 5 + e) = [(0, core * 5 + e)] ∧ siteServes d 0
    (core * 5 + e) = false :=
  ⟨on live, _, 2600, 4, rfl, by decide +kernel⟩

theorem witness_Substitutions_2 : ∃ (s : State) (d : Device) (core e e2 : Nat), (dropSlice (coresServed · 1 core)).run s.dev =
    d ∧ core < 2601 ∧ e < 5 ∧ e2 < 5 ∧ powered s.dev = true :=
  ⟨on live, _, 2600, 4, 4, rfl, by decide +kernel⟩

theorem witness_Substitutions_3 : ∃ (s : State) (d : Device) (core e c k top topSite : Nat), (dropSlice (coresServed · 1
    core)).run s.dev = d ∧ core < 2601 ∧ e < 5 ∧ powered s.dev = true ∧ (retireChain d 3 0 (core * 5 + e)).getLast? = some
    (top, topSite) ∧ 2 ≤ top ∧ siteServes d 0 (core * 5 + e) = true ∧ coreOfSite d core = some k ∧ (d.coresAt k).ctx = some c
    :=
  ⟨runs 0 [putApplied (siteKey 0 4) true, putApplied (siteKey 1 16) true], _, 0, 0, 0, 0, 2, 0, rfl, by decide +kernel⟩

theorem witness_Substitutions_4 : ∃ (s : State) (d : Device) (site k : Nat), (dropSlice (coresServed · 1 site)).run s.dev = d
    ∧ site < 2601 ∧ powered s.dev = true ∧ retireChain d 3 1 site = [(1, site)] ∧ coreOfSite d site = some k :=
  ⟨on live, _, 2429, 2047, rfl, by decide +kernel⟩

theorem witness_Substitutions_5 : ∃ (s : State) (d : Device) (site : Nat), (dropSlice (coresServed · 1 site)).run s.dev = d ∧
    site < 2601 ∧ powered s.dev = true ∧ retireChain d 3 1 site = [(1, site)] ∧ coreOfSite d site = none :=
  ⟨on live, _, 2600, rfl, by decide +kernel⟩

theorem witness_Substitutions_6 : ∃ (s : State) (d : Device) (site c k top topSite : Nat), (dropSlice (coresServed · 1
    site)).run s.dev = d ∧ site < 2601 ∧ powered s.dev = true ∧ (retireChain d 3 1 site).getLast? = some (top, topSite) ∧ 2 ≤
    top ∧ coreOfSite d site = some k ∧ (d.coresAt k).ctx = some c :=
  ⟨runs 0 [putApplied (siteKey 1 16) true], _, 0, 0, 0, 2, 0, rfl, by decide +kernel⟩

theorem witness_Substitutions_7 : ∃ (s : State) (d : Device) (site cl : Nat), (dropSlice (coresServed · 2 site)).run s.dev = d
    ∧ site < 153 ∧ powered s.dev = true ∧ retireChain d 3 2 site = [(2, site)] ∧ clusterOfSite d site = some cl :=
  ⟨on live, _, 142, 127, rfl, by decide +kernel⟩

theorem witness_Substitutions_8 : ∃ (s : State) (d : Device) (site : Nat), (dropSlice (coresServed · 2 site)).run s.dev = d ∧
    site < 153 ∧ powered s.dev = true ∧ retireChain d 3 2 site = [(2, site)] ∧ clusterOfSite d site = none :=
  ⟨on live, _, 152, rfl, by decide +kernel⟩

theorem witness_Substitutions_9 : ∃ (s : State) (d : Device) (site cl : Nat), (dropSlice (coresServed · 2 site)).run s.dev = d
    ∧ site < 153 ∧ powered s.dev = true ∧ retireChain d 3 2 site = [(2, site), (3, site / 9)] ∧ clusterOfSite d site = some cl
    :=
  ⟨with' [putApplied (siteKey 2 8) true], _, 0, 0, rfl, by decide +kernel⟩

theorem witness_Substitutions_10 : ∃ (s : State) (d : Device) (site die : Nat), (dropSlice (coresServed · 3 site)).run s.dev =
    d ∧ site < 17 ∧ powered s.dev = true ∧ dieOfSite d site = some die :=
  ⟨on live, _, 15, 15, rfl, by decide +kernel⟩

theorem witness_Substitutions_11 : ∃ (s : State) (d : Device) (site : Nat), (dropSlice (coresServed · 3 site)).run s.dev = d ∧
    site < 17 ∧ powered s.dev = true ∧ dieOfSite d site = none :=
  ⟨on live, _, 16, rfl, by decide +kernel⟩

theorem witness_Retirements_0 : ∃ (s : State) (e : Nat), e < 34 ∧ powered s.dev = true :=
  ⟨on live, 33, by decide +kernel⟩

theorem witness_Retirements_1 : ∃ (s : State) (site : Nat), site < 17 ∧ powered s.dev = true :=
  ⟨on live, 16, by decide +kernel⟩

theorem witness_Retirements_2 : ∃ (s : State) (site : Nat), site < 16 ∧ powered s.dev = true :=
  ⟨on live, 15, by decide +kernel⟩

theorem witness_Retirements_3 : ∃ (s : State), powered s.dev = true ∧ s.dev.routesStale = true :=
  ⟨with' [putRoutesStale true], by decide +kernel⟩

theorem witness_Retirements_4 : ∃ (s : State), powered s.dev = true ∧ s.dev.routesStale = false :=
  ⟨on live, by decide +kernel⟩

theorem witness_FigureLoads_0 : ∃ (s : State) (d : Device) (rq p v : Nat), Writes s rq .FIG_LOAD p v 31 d ∧ p < 32 ∧ loadBusy
    d p = false :=
  ⟨on live, _, 0, 31, 0x80000000, writes (by decide +kernel), by decide +kernel⟩

theorem witness_FigureLoads_1 : ∃ (s : State) (d : Device) (rq p v : Nat), Writes s rq .FIG_LOAD p v 31 d ∧ p < 32 ∧ loadBusy
    d p = true :=
  ⟨with' [putLoadQueue [{}]], _, 0, 0, 0x80000000, writes (by decide +kernel), by decide +kernel⟩

theorem witness_FigureLoads_2 : ∃ (s : State) (r : LoadReq) (rest : List LoadReq), working s.dev = true ∧ s.dev.loadQueue = r
    :: rest ∧ s.dev.loading.length < 4 :=
  ⟨with' [putLoadQueue [{}], putLoading [{}, {}, {}]], {}, [], by decide +kernel⟩

theorem witness_FigureLoads_3 : ∃ (s : State), working s.dev = true ∧ (s.dev.loadQueue = [] ∨ 4 ≤ s.dev.loading.length) :=
  ⟨on live, by decide +kernel⟩

theorem witness_FigureLoads_4 : ∃ (s : State) (i : Nat), i < 4 ∧ working s.dev = true ∧ s.dev.loading[i]? = none :=
  ⟨on live, 3, by decide +kernel⟩

theorem witness_FigureLoads_5 : ∃ (s : State) (i : Nat) (r : LoadReq), i < 4 ∧ working s.dev = true ∧ s.dev.loading[i]? = some
    r ∧ (r.poisoned && srcAllowed s.dev r.part r.src) = true :=
  ⟨on (.all [part 0, mapped, putLoading [{ src := 0x1000000000, poisoned := true }]]), 0,
    { src := 0x1000000000, poisoned := true }, by decide +kernel⟩

theorem witness_FigureLoads_6 : ∃ (s : State) (i code idx : Nat) (r : LoadReq), i < 4 ∧ working s.dev = true ∧
    s.dev.loading[i]? = some r ∧ (r.poisoned && srcAllowed s.dev r.part r.src) = false ∧ ((checkHeader r.image (srcAllowed
    s.dev r.part r.src) (srcRoom s.dev r.part r.src) >>= fun _ => checkSignature s.dev r.part r.image) = .error (code, idx))
    :=
  ⟨with' [putLoading [{}]], 0, 0x0C, noIndex, {}, by decide +kernel⟩

theorem witness_FigureLoads_7 : ∃ (s : State) (i : Nat) (r : LoadReq) (fails : Nat → Nat → Eff), (fails = (fun code idx =>
    .seq (figStatus r.part 5 code r.slot) (setReg .FIG_DETAIL r.part idx))) ∧ i < 4 ∧ working s.dev = true ∧ s.dev.loading[i]?
    = some r ∧ (r.poisoned && srcAllowed s.dev r.part r.src) = false :=
  ⟨with' [putLoading [{}, {}, {}, {}]], 3, {}, _, rfl, by decide +kernel⟩

theorem witness_FigureSwitches_0 : ∃ (s : State) (d : Device) (rq p v : Nat), Writes s rq .FIG_SWITCH p v 31 d ∧ p < 32 ∧
    (d.slotsAt (p * 8 + bits v 2 0)).isSome = true ∧ slotOld d p (bits v 2 0) = false ∧ d.patchesAt p = [] ∧ d.switchesAt p =
    none :=
  ⟨with' [putSlots 7 (some {})], _, 0, 0, 0x80000007, writes (by decide +kernel), by decide +kernel⟩

theorem witness_FigureSwitches_1 : ∃ (s : State) (d : Device) (rq p v : Nat) (q : SwitchReq), Writes s rq .FIG_SWITCH p v 31 d
    ∧ p < 32 ∧ (d.slotsAt (p * 8 + bits v 2 0)).isSome = true ∧ slotOld d p (bits v 2 0) = false ∧ d.patchesAt p = [] ∧
    d.switchesAt p = some q ∧ allStopped d p = false :=
  ⟨runs 0 [putSlots 7 (some {}), putSwitches 0 (some {})], _, 0, 0, 0x80000007, {}, writes (by decide +kernel),
    by decide +kernel⟩

theorem witness_FigureSwitches_2 : ∃ (s : State) (d : Device) (rq p v : Nat), Writes s rq .FIG_SWITCH p v 31 d ∧ p < 32 ∧
    ((d.slotsAt (p * 8 + bits v 2 0)).isNone || slotOld d p (bits v 2 0)) = true :=
  ⟨on live, _, 0, 31, 0x80000000, writes (by decide +kernel), by decide +kernel⟩

theorem witness_FigureSwitches_3 : ∃ (s : State) (d : Device) (rq p v : Nat), Writes s rq .FIG_SWITCH p v 31 d ∧ p < 32 ∧
    (d.slotsAt (p * 8 + bits v 2 0)).isSome = true ∧ slotOld d p (bits v 2 0) = false ∧ ((d.patchesAt p ≠ [] ∨ ((d.switchesAt
    p).isSome = true ∧ allStopped d p = true))) :=
  ⟨with' [putSlots 7 (some {}), putSwitches 0 (some {})], _, 0, 0, 0x80000007, writes (by decide +kernel), by decide +kernel⟩

theorem witness_FigureSwitches_4 : ∃ (s : State) (d : Device) (rq p v : Nat), Writes s rq .FIG_SWITCH p v 30 d ∧ p < 32 ∧
    (d.switchesAt p).isSome = true ∧ allStopped d p = false :=
  ⟨runs 0 [putSwitches 0 (some {})], _, 0, 0, 0x40000000, writes (by decide +kernel), by decide +kernel⟩

theorem witness_FigureSwitches_5 : ∃ (s : State) (d : Device) (rq p v : Nat), Writes s rq .FIG_SWITCH p v 30 d ∧ p < 32 ∧
    ((d.switchesAt p).isSome && !allStopped d p) = false :=
  ⟨on live, _, 0, 31, 0x40000000, writes (by decide +kernel), by decide +kernel⟩

theorem witness_FigureSwitches_6 : ∃ (s : State) (p : Nat) (q : SwitchReq) (f : Figure), p < 32 ∧ working s.dev = true ∧
    s.dev.switchesAt p = some q ∧ allStopped s.dev p = true ∧ s.dev.slotsAt (p * 8 + q.slot) = some f ∧ stagingBad s.dev p
    q.slot = false ∧ elementsPresent s.dev p f = true :=
  ⟨with' [putSwitches 0 (some {}), putSlots 0 (some {})], 0, {}, {}, by decide +kernel⟩

theorem witness_FigureSwitches_7 : ∃ (s : State) (p : Nat) (q : SwitchReq) (f : Figure), p < 32 ∧ working s.dev = true ∧
    s.dev.switchesAt p = some q ∧ allStopped s.dev p = true ∧ s.dev.slotsAt (p * 8 + q.slot) = some f ∧ stagingBad s.dev p
    q.slot = true :=
  ⟨with' [putSwitches 0 (some {}), putSlots 0 (some {}), setF F.FIG_AREA_base 0 0x100000, setF F.FIG_AREA_size_mib 0 1,
    putPoison 0x1000000000 true], 0, {}, {}, by decide +kernel⟩

theorem witness_FigureSwitches_8 : ∃ (s : State) (p : Nat) (q : SwitchReq) (f g : Figure), p < 32 ∧ working s.dev = true ∧
    s.dev.switchesAt p = some q ∧ allStopped s.dev p = true ∧ s.dev.slotsAt (p * 8 + q.slot) = some f ∧ stagingBad s.dev p
    q.slot = false ∧ elementsPresent s.dev p f = false ∧ s.dev.active p = some g :=
  ⟨with' [putSwitches 0 (some { slot := 1 }), putSlots 1 (some { shapeGroups := 1 }), putSlots 0 (some {}), setF
    F.FIG_STATUS_active_valid 0 1], 0, { slot := 1 }, { shapeGroups := 1 }, {}, by decide +kernel⟩

theorem witness_FigureSwitches_9 : ∃ (s : State) (p : Nat) (q : SwitchReq) (g : Figure), p < 32 ∧ working s.dev = true ∧
    s.dev.switchesAt p = some q ∧ allStopped s.dev p = true ∧ s.dev.slotsAt (p * 8 + q.slot) = none ∧ s.dev.active p = some g
    :=
  ⟨with' [putSwitches 0 (some { slot := 1 }), putSlots 0 (some {}), setF F.FIG_STATUS_active_valid 0 1], 0, { slot := 1 }, {},
    by decide +kernel⟩

theorem witness_FigureSwitches_10 : ∃ (s : State) (p : Nat), p < 32 ∧ working s.dev = true ∧ ((s.dev.switchesAt p = none ∨
    allStopped s.dev p = false)) :=
  ⟨on live, 31, by decide +kernel⟩

theorem witness_FigureSwitches_11 : ∃ (s : State) (d : Device) (rq p slot v : Nat), Writes s rq .FIG_STAGE (p * 8 + slot) v 28
    d ∧ p < 32 ∧ slot < 8 ∧ activeSlot d p ≠ some slot ∧ (d.slotsAt (p * 8 + slot)).isSome = true :=
  ⟨with' [putSlots 7 (some {})], _, 0, 0, 7, 0x10000000, writes (by decide +kernel), by decide +kernel⟩

theorem witness_FigureSwitches_12 : ∃ (s : State) (d : Device) (rq p slot v : Nat), Writes s rq .FIG_STAGE (p * 8 + slot) v 28
    d ∧ p < 32 ∧ slot < 8 ∧ activeSlot d p ≠ some slot ∧ d.slotsAt (p * 8 + slot) = none :=
  ⟨on live, _, 0, 31, 7, 0x10000000, writes (by decide +kernel), by decide +kernel⟩

theorem witness_FigureSwitches_13 : ∃ (s : State) (d : Device) (rq p slot v : Nat), Writes s rq .FIG_STAGE (p * 8 + slot) v 28
    d ∧ p < 32 ∧ slot < 8 ∧ activeSlot d p = some slot :=
  ⟨on (part 0), _, 0, 0, 0, 0x10000000, writes (by decide +kernel), by decide +kernel⟩

theorem witness_FigureSwitches_14 : ∃ (s : State) (d : Device) (rq p v : Nat), Asks s rq d ∧ p < 32 ∧ mayWrite d rq
    .FIG_MINVER p ≠ 0 ∧ d.fld F.FIG_MINVER_minver p < v % 4294967296 :=
  ⟨on live, _, 0, 0, 1, asks (by decide +kernel), by decide +kernel⟩

theorem witness_FigureSwitches_15 : ∃ (s : State) (d : Device) (rq p v : Nat), Asks s rq d ∧ p < 32 ∧ mayWrite d rq
    .FIG_MINVER p ≠ 0 ∧ v % 4294967296 ≤ d.fld F.FIG_MINVER_minver p :=
  ⟨on live, _, 0, 0, 0x100000000, asks (by decide +kernel), by decide +kernel⟩

theorem witness_FigureSwitches_16 : ∃ (s : State) (d : Device) (rq p : Nat), Asks s rq d ∧ p < 32 ∧ mayWrite d rq .FIG_MINVER
    p = 0 :=
  ⟨on live, _, 3, 0, asks (by decide +kernel), by decide +kernel⟩

theorem witness_FigureSwitches_17 : ∃ (s : State) (core : Nat), core < 2048 ∧ clocked s.dev (core / 16) = true ∧
    (s.dev.coresAt core).atBeat = true ∧ (s.dev.coresAt core).loaded.isSome = true :=
  ⟨with' [putCores 2047 { loaded := some (0, 0, 0) }], 2047, by decide +kernel⟩

theorem witness_FigureSwitches_18 : ∃ (s : State) (core : Nat), core < 2048 ∧ clocked s.dev (core / 16) = true ∧
    ((s.dev.coresAt core).atBeat && (s.dev.coresAt core).loaded.isSome) = false :=
  ⟨on live, 2047, by decide +kernel⟩

theorem witness_Partitions_0 : ∃ (s : State) (d : Device) (rq p v : Nat), Writes s rq .PRT_CTRL p v 31 d ∧ p < 32 ∧ d.fld
    F.PRT_CTRL_state p = 0 ∧ createRefused d p = false :=
  ⟨on live, _, 0, 31, 0x80000000, writes (by decide +kernel), by decide +kernel⟩

theorem witness_Partitions_1 : ∃ (s : State) (d : Device) (rq p v : Nat), Writes s rq .PRT_CTRL p v 31 d ∧ p < 32 ∧ d.fld
    F.PRT_CTRL_state p = 0 ∧ createRefused d p = true :=
  ⟨with' [setF F.PRT_CTRL_state 1 1, setReg .PRT_SHAPE_CLU 0 1, setReg .PRT_SHAPE_CLU 4 1], _, 0, 0, 0x80000000, writes
    (by decide +kernel), by decide +kernel⟩

theorem witness_Partitions_2 : ∃ (s : State) (d : Device) (rq p v : Nat), Writes s rq .PRT_CTRL p v 31 d ∧ p < 32 ∧ d.fld
    F.PRT_CTRL_state p ≠ 0 :=
  ⟨with' [setF F.PRT_CTRL_state 0 2], _, 0, 0, 0x80000000, writes (by decide +kernel), by decide +kernel⟩

theorem witness_Partitions_3 : ∃ (s : State) (d : Device) (rq v : Nat), Writes s rq .PRT_SVC_MODE 0 v 0 d :=
  ⟨on live, _, 0, 1, writes (by decide +kernel)⟩

theorem witness_Partitions_4 : ∃ (s : State) (p k bytes filled : Nat), p < 32 ∧ k < 16 ∧ working s.dev = true ∧ s.dev.fld
    F.PRT_SVC_MODE_mode 0 ≠ 0 ∧ s.dev.fld F.PRT_REG_rate (p * 16 + k) ≠ 0 ∧ s.dev.bucketsAt (p * 16 + k) - filled + bytes ≤
    s.dev.fld F.PRT_REG_depth (p * 16 + k) * 4096 :=
  ⟨with' [setF F.PRT_SVC_MODE_mode 0 1, setF F.PRT_REG_rate 511 1], 31, 15, 0, 0, by decide +kernel⟩

theorem witness_Partitions_5 : ∃ (s : State) (p k bytes filled : Nat), p < 32 ∧ k < 16 ∧ working s.dev = true ∧ s.dev.fld
    F.PRT_SVC_MODE_mode 0 ≠ 0 ∧ ((s.dev.fld F.PRT_REG_rate (p * 16 + k) = 0 ∨ s.dev.fld F.PRT_REG_depth (p * 16 + k) * 4096 <
    s.dev.bucketsAt (p * 16 + k) - filled + bytes)) :=
  ⟨with' [setF F.PRT_SVC_MODE_mode 0 1, setF F.PRT_REG_rate 511 0], 31, 15, 0, 0, by decide +kernel⟩

theorem witness_Partitions_6 : ∃ (s : State) (p k : Nat), p < 32 ∧ k < 16 ∧ working s.dev = true ∧ s.dev.fld
    F.PRT_SVC_MODE_mode 0 = 0 :=
  ⟨with' [setF F.PRT_SVC_MODE_mode 0 0], 31, 15, by decide +kernel⟩

theorem witness_ContextCommands_0 : (∃ (s : State) (d : Device) (rq c : Nat), Asks s rq d ∧ c < 1024 ∧ bits (mayWrite d rq
    .CTX_BIND c) 15 0 ≠ 0 ∧ d.fld F.CTX_RUN_state c = 0) ∧ (∃ (s : State) (d : Device) (rq c : Nat), Asks s rq d ∧ c < 1024 ∧
    bits (mayWrite d rq .CTX_BIND c) 15 0 ≠ 0 ∧ d.fld F.CTX_RUN_state c ≠ 0) :=
  ⟨⟨on live, _, 0, 1023, asks (by decide +kernel), by decide +kernel⟩, ⟨with' [setF F.CTX_RUN_state 0 1], _, 0, 0, asks
    (by decide +kernel), by decide +kernel⟩⟩

theorem witness_ContextCommands_1 : ∃ (s : State) (d : Device) (rq c p : Nat) (f : Figure), Asks s rq d ∧ c < 1024 ∧ bit
    (mayWrite d rq .CTX_RUN c) 31 = 1 ∧ ctxPart d c = some p ∧ d.fld F.CTX_RUN_state c = 0 ∧ d.fld F.SEC_KEYSTATE_quarantine 0
    = 0 ∧ d.active p = some f ∧ d.fld F.CTX_BIND_set c < f.sets.length ∧ setConflict d p f c (d.fld F.CTX_BIND_set c) = false
    :=
  ⟨on (part 0), _, 0, 0, 0, fig 0, asks (by decide +kernel), by decide +kernel⟩

theorem witness_ContextCommands_2 : ∃ (s : State) (d : Device) (rq c p : Nat), Asks s rq d ∧ c < 1024 ∧ bit (mayWrite d rq
    .CTX_RUN c) 31 = 1 ∧ ctxPart d c = some p ∧ d.fld F.CTX_RUN_state c = 0 ∧ d.fld F.SEC_KEYSTATE_quarantine 0 = 0 ∧
    ((d.active p = none ∨ ∃ f, d.active p = some f ∧ (f.sets.length ≤ d.fld F.CTX_BIND_set c ∨ setConflict d p f c (d.fld
    F.CTX_BIND_set c) = true))) :=
  ⟨on (.all [part 0, setF F.CTX_BIND_set 0 1]), _, 0, 0, 0, asks (by decide +kernel), by decide +kernel⟩

theorem witness_ContextCommands_3 : ∃ (s : State) (d : Device) (rq c : Nat), Asks s rq d ∧ c < 1024 ∧ bit (mayWrite d rq
    .CTX_RUN c) 31 = 1 ∧ ((ctxPart d c = none ∨ d.fld F.CTX_RUN_state c ≠ 0 ∨ d.fld F.SEC_KEYSTATE_quarantine 0 ≠ 0)) :=
  ⟨on live, _, 0, 1023, asks (by decide +kernel), by decide +kernel⟩

theorem witness_ContextCommands_4 : (∃ (s : State) (d : Device) (rq c p : Nat), Asks s rq d ∧ c < 1024 ∧ bit (mayWrite d rq
    .CTX_RUN c) 30 = 1 ∧ ctxPart d c = some p ∧ (d.fld F.CTX_RUN_state c = 1 ∨ d.fld F.CTX_RUN_state c = 3)) ∧ (∃ (s : State)
    (d : Device) (rq c p : Nat), Asks s rq d ∧ c < 1024 ∧ bit (mayWrite d rq .CTX_RUN c) 30 = 1 ∧ ctxPart d c = some p ∧ d.fld
    F.CTX_RUN_state c = 2) ∧ (∃ (s : State) (d : Device) (rq c p : Nat), Asks s rq d ∧ c < 1024 ∧ bit (mayWrite d rq .CTX_RUN
    c) 30 = 1 ∧ ctxPart d c = some p ∧ d.fld F.CTX_RUN_state c = 4) ∧ (∃ (s : State) (d : Device) (rq c p : Nat), Asks s rq d
    ∧ c < 1024 ∧ bit (mayWrite d rq .CTX_RUN c) 30 = 1 ∧ ctxPart d c = some p ∧ (d.fld F.CTX_RUN_state c = 0 ∨ 5 ≤ d.fld
    F.CTX_RUN_state c)) :=
  ⟨⟨on (.all [part 0, setF F.CTX_RUN_state 0 1]), _, 0, 0, 0, asks (by decide +kernel), by decide +kernel⟩, ⟨runs 0 [], _, 0,
    0, 0, asks (by decide +kernel), by decide +kernel⟩, ⟨on (.all [part 0, setF F.CTX_RUN_state 0 4]), _, 0, 0, 0, asks
    (by decide +kernel), by decide +kernel⟩, ⟨on (part 0), _, 0, 0, 0, asks (by decide +kernel), by decide +kernel⟩⟩

theorem witness_ContextCommands_5 : (∃ (s : State) (d : Device) (rq c : Nat), Asks s rq d ∧ c < 1024 ∧ bit (mayWrite d rq
    .CTX_RUN c) 28 = 1 ∧ d.fld F.CTX_RUN_state c = 5) ∧ (∃ (s : State) (d : Device) (rq c : Nat), Asks s rq d ∧ c < 1024 ∧ bit
    (mayWrite d rq .CTX_RUN c) 28 = 1 ∧ d.fld F.CTX_RUN_state c ≠ 5) :=
  ⟨⟨with' [setF F.CTX_RUN_state 1023 5], _, 0, 1023, asks (by decide +kernel), by decide +kernel⟩, ⟨on live, _, 0, 1023, asks
    (by decide +kernel), by decide +kernel⟩⟩

theorem witness_ContextCommands_6 : (∃ (s : State) (d : Device) (rq c : Nat), Asks s rq d ∧ c < 1024 ∧ bit (mayWrite d rq
    .CTX_RUN c) 29 = 1 ∧ (ctxPart d c).isSome = true ∧ d.fld F.CTX_RUN_state c ≠ 5 ∧ d.fld F.CTX_RUN_state c ≠ 6) ∧ (∃ (s :
    State) (d : Device) (rq c : Nat), Asks s rq d ∧ c < 1024 ∧ bit (mayWrite d rq .CTX_RUN c) 29 = 1 ∧ (ctxPart d c).isSome =
    true ∧ (d.fld F.CTX_RUN_state c = 5 ∨ d.fld F.CTX_RUN_state c = 6)) :=
  ⟨⟨runs 0 [], _, 0, 0, asks (by decide +kernel), by decide +kernel⟩, ⟨on (.all [part 0, setF F.CTX_RUN_state 0 6]), _, 0, 0,
    asks (by decide +kernel), by decide +kernel⟩⟩

theorem witness_ContextCommands_7 : ∃ (s : State) (d : Device) (rq c p v : Nat), Writes s rq .CTX_PRIO c v 0 d ∧ c < 1024 ∧
    ctxPart d c = some p :=
  ⟨on (part 0), _, 0, 0, 0, 1, writes (by decide +kernel), by decide +kernel⟩

theorem witness_ContextCommands_8 : (∃ (s : State) (d : Device) (rq c : Nat), Asks s rq d ∧ c < 1024 ∧ bits (mayWrite d rq
    .CTX_BIND c) 15 0 = 0) ∧ (∃ (s : State) (d : Device) (rq c : Nat), Asks s rq d ∧ c < 1024 ∧ bit (mayWrite d rq .CTX_RUN c)
    31 ≠ 1) ∧ (∃ (s : State) (d : Device) (rq c : Nat), Asks s rq d ∧ c < 1024 ∧ bit (mayWrite d rq .CTX_RUN c) 30 ≠ 1) ∧ (∃
    (s : State) (d : Device) (rq c : Nat), Asks s rq d ∧ c < 1024 ∧ bit (mayWrite d rq .CTX_RUN c) 28 ≠ 1) ∧ (∃ (s : State) (d
    : Device) (rq c : Nat), Asks s rq d ∧ c < 1024 ∧ bit (mayWrite d rq .CTX_RUN c) 29 ≠ 1) ∧ (∃ (s : State) (d : Device) (rq
    c : Nat), Asks s rq d ∧ c < 1024 ∧ bit (mayWrite d rq .CTX_PRIO c) 0 ≠ 1) :=
  ⟨⟨on live, _, 3, 1023, asks (by decide +kernel), by decide +kernel⟩, ⟨on live, _, 3, 1023, asks (by decide +kernel),
    by decide +kernel⟩, ⟨on live, _, 3, 1023, asks (by decide +kernel), by decide +kernel⟩, ⟨on live, _, 3, 1023, asks
    (by decide +kernel), by decide +kernel⟩, ⟨on live, _, 3, 1023, asks (by decide +kernel), by decide +kernel⟩, ⟨on live, _,
    3, 1023, asks (by decide +kernel), by decide +kernel⟩⟩

theorem witness_SetTaking_0 : (∃ (s : State) (c p : Nat) (f : Figure), c < 1024 ∧ serving s.dev = true ∧ ctxPart s.dev c =
    some p ∧ s.dev.active p = some f ∧ bestWaiting s.dev p (s.dev.fld F.CTX_BIND_set c) = some c ∧ setContexts s.dev p
    (s.dev.fld F.CTX_BIND_set c) [2, 4, 6] = [] ∧ s.dev.switchesAt p = none ∧ ((∀ x ∈ leafCores s.dev p f (s.dev.fld
    F.CTX_BIND_set c), canBringIn s.dev c x.2 x.1 f = true)) ∧ intolerant s.dev p f c = false) ∧ (∃ (s : State) (c p : Nat) (f
    : Figure), c < 1024 ∧ serving s.dev = true ∧ ctxPart s.dev c = some p ∧ s.dev.active p = some f ∧ bestWaiting s.dev p
    (s.dev.fld F.CTX_BIND_set c) = some c ∧ setContexts s.dev p (s.dev.fld F.CTX_BIND_set c) [2, 4, 6] = [] ∧ s.dev.switchesAt
    p = none ∧ ((∀ x ∈ leafCores s.dev p f (s.dev.fld F.CTX_BIND_set c), canBringIn s.dev c x.2 x.1 f = true)) ∧ intolerant
    s.dev p f c = true) ∧ (∃ (s : State) (c p : Nat) (f : Figure) (x : _), c < 1024 ∧ serving s.dev = true ∧ ctxPart s.dev c =
    some p ∧ s.dev.active p = some f ∧ bestWaiting s.dev p (s.dev.fld F.CTX_BIND_set c) = some c ∧ setContexts s.dev p
    (s.dev.fld F.CTX_BIND_set c) [2, 4, 6] = [] ∧ s.dev.switchesAt p = none ∧ ((leafCores s.dev p f (s.dev.fld F.CTX_BIND_set
    c)).find? (fun x => !canBringIn s.dev c x.2 x.1 f) = some x)) :=
  ⟨⟨on (.all [part 0, setF F.CTX_RUN_state 0 1]), 0, 0, fig 0, by decide +kernel⟩, ⟨on (.all [part 0, setF F.CTX_RUN_state 0
    1, putCtxs 0 { revoked := [(0, 0)] }]), 0, 0, fig 0, by decide +kernel⟩, ⟨on (.all [part 0, setF F.CTX_RUN_state 0 1,
    putCtxs 0 { saved := [0] }]), 0, 0, fig 0, (0, 0), by decide +kernel⟩⟩

theorem witness_SetTaking_1 : ∃ (s : State) (c p : Nat), c < 1024 ∧ serving s.dev = true ∧ ctxPart s.dev c = some p ∧
    ((bestWaiting s.dev p (s.dev.fld F.CTX_BIND_set c) ≠ some c ∨ setContexts s.dev p (s.dev.fld F.CTX_BIND_set c) [2, 4, 6] ≠
    [] ∨ (s.dev.switchesAt p).isSome = true)) :=
  ⟨on (part 0), 0, 0, by decide +kernel⟩

theorem witness_SetTaking_2 : ∃ (s : State) (c p w : Nat), c < 1024 ∧ working s.dev = true ∧ ctxPart s.dev c = some p ∧
    bestWaiting s.dev p (s.dev.fld F.CTX_BIND_set c) = some w ∧ s.dev.fld F.CTX_RUN_state c = 2 ∧ saveFits s.dev c = true ∧
    s.dev.switchesAt p = none ∧ (((ctxCores s.dev c).all fun core => (s.dev.coresAt core).state == 2 || (s.dev.coresAt
    core).state == 0) = true) :=
  ⟨runs 0 [waits, mapped, setF F.CTX_SAVE_tier 0 1, setF F.CTX_SAVE_slots 0 1, putCores 0
    { state := 2, loaded := some (0, 0, 0), ctx := some 0 }], 0, 0, 1, by decide +kernel⟩

theorem witness_SetTaking_3 : ∃ (s : State) (c p : Nat), c < 1024 ∧ working s.dev = true ∧ ctxPart s.dev c = some p ∧
    ((bestWaiting s.dev p (s.dev.fld F.CTX_BIND_set c) = none ∨ s.dev.fld F.CTX_RUN_state c ≠ 2 ∨ saveFits s.dev c = false ∨
    (s.dev.switchesAt p).isSome = true ∨ ((ctxCores s.dev c).all fun core => (s.dev.coresAt core).state == 2 || (s.dev.coresAt
    core).state == 0) = false)) :=
  ⟨on (part 0), 0, 0, by decide +kernel⟩

theorem witness_SetTaking_4 : (∃ (s : State) (core : Nat) (q : Preempt) (f : Figure) (leaf w : Nat), core < 2048 ∧ clocked
    s.dev (core / 16) = true ∧ ((s.dev.preempts.find? fun q => (ctxCores s.dev q.outgoing).contains core && !q.done.contains
    core) = some q) ∧ s.dev.active q.part = some f ∧ leafOfCore s.dev q.part f core = some leaf ∧ (s.dev.coresAt core).state =
    3 ∧ (s.dev.coresAt core).ctx = none ∧ chooseIncoming s.dev q = some w ∧ canBringIn s.dev w core leaf f = true) ∧ (∃ (s :
    State) (core : Nat) (q : Preempt) (f : Figure) (leaf w : Nat), core < 2048 ∧ clocked s.dev (core / 16) = true ∧
    ((s.dev.preempts.find? fun q => (ctxCores s.dev q.outgoing).contains core && !q.done.contains core) = some q) ∧
    s.dev.active q.part = some f ∧ leafOfCore s.dev q.part f core = some leaf ∧ (s.dev.coresAt core).state = 3 ∧
    (s.dev.coresAt core).ctx = none ∧ chooseIncoming s.dev q = some w ∧ canBringIn s.dev w core leaf f = false) :=
  ⟨⟨runs 0 [waits, putPreempts [giveWay], putCores 0 { state := 3, loaded := some (0, 0, 0) }], 0, giveWay, fig 0, 0, 1,
    by decide +kernel⟩, ⟨runs 0 [waits, putPreempts [giveWay], putCores 0 { state := 3, loaded := some (0, 0, 0) }, putCtxs 1
    { saved := [0] }], 0, giveWay, fig 0, 0, 1, by decide +kernel⟩⟩

theorem witness_SetTaking_5 : ∃ (s : State) (core : Nat) (q : Preempt) (f : Figure), core < 2048 ∧ clocked s.dev (core / 16) =
    true ∧ ((s.dev.preempts.find? fun q => (ctxCores s.dev q.outgoing).contains core && !q.done.contains core) = some q) ∧
    s.dev.active q.part = some f ∧ (s.dev.coresAt core).state = 3 ∧ (s.dev.coresAt core).ctx = none ∧ chooseIncoming s.dev q =
    none :=
  ⟨runs 0 [putCtxs 0 { halting := true }, putPreempts [giveWay], putCores 0 { state := 3, loaded := some (0, 0, 0) }], 0,
    giveWay, fig 0, by decide +kernel⟩

theorem witness_SetTaking_6 : ∃ (s : State) (core : Nat) (q : Preempt) (f : Figure) (leaf : Nat), core < 2048 ∧ clocked s.dev
    (core / 16) = true ∧ ((s.dev.preempts.find? fun q => (ctxCores s.dev q.outgoing).contains core && !q.done.contains core) =
    some q) ∧ s.dev.active q.part = some f ∧ leafOfCore s.dev q.part f core = some leaf ∧ (s.dev.coresAt core).state = 3 ∧
    (s.dev.coresAt core).ctx = some q.outgoing :=
  ⟨runs 0 [waits, putPreempts [giveWay], putCores 0 { state := 3, loaded := some (0, 0, 0), ctx := some 0 }], 0, giveWay, fig
    0, 0, by decide +kernel⟩

theorem witness_SetTaking_7 : ∃ (s : State) (core : Nat), (((s.dev.coresAt core).state ≠ 3 ∨ (s.dev.preempts.find? fun q =>
    (ctxCores s.dev q.outgoing).contains core && !q.done.contains core) = none ∨ ∃ q, (s.dev.preempts.find? fun q => (ctxCores
    s.dev q.outgoing).contains core && !q.done.contains core) = some q ∧ (s.dev.coresAt core).ctx ≠ some q.outgoing ∧
    (s.dev.coresAt core).ctx ≠ none)) ∧ core < 2048 ∧ clocked s.dev (core / 16) = true :=
  ⟨on live, 2047, .inl (by decide +kernel), by decide +kernel⟩

theorem witness_SetTaking_8 : ∃ (s : State) (p leafSet : Nat) (q : Preempt) (f : Figure), p < 32 ∧ leafSet < 65536 ∧ working
    s.dev = true ∧ ((s.dev.preempts.find? fun q => q.part == p && q.set == leafSet) = some q) ∧ s.dev.active p = some f ∧
    (setCores s.dev p f leafSet).all q.done.contains = true :=
  ⟨runs 0 [waits, putPreempts [{ giveWay with done := [0] }]], 0, 0, { giveWay with done := [0] }, fig 0, by decide +kernel⟩

theorem witness_SetTaking_9 : ∃ (s : State) (p leafSet : Nat) (q : Preempt) (f : Figure), p < 32 ∧ leafSet < 65536 ∧ working
    s.dev = true ∧ s.dev.active p = some f ∧ (((s.dev.preempts.find? fun q => q.part == p && q.set == leafSet) = none ∨
    (s.dev.preempts.find? fun q => q.part == p && q.set == leafSet) = some q ∧ (setCores s.dev p f leafSet).all
    q.done.contains = false)) :=
  ⟨runs 0 [waits, putPreempts [giveWay]], 0, 0, giveWay, fig 0, by decide +kernel⟩

theorem witness_SetTaking_10 : ∃ (s : State) (c p : Nat) (q : Preempt), c < 1024 ∧ working s.dev = true ∧ extending s.dev c =
    some q ∧ ctxPart s.dev c = some p ∧ q.holdPassed = false :=
  ⟨runs 0 [waits, putPreempts [{ giveWay with extended := true }], putSems 0 { holder := some ⟨0, 0⟩ }], 0, 0,
    { giveWay with extended := true }, by decide +kernel⟩

theorem witness_SetTaking_11 : ∃ (s : State) (c : Nat), ((extending s.dev c = none ∨ ∃ q, extending s.dev c = some q ∧
    q.holdPassed = true)) ∧ c < 1024 ∧ working s.dev = true :=
  ⟨on live, 1023, .inl (by decide +kernel), by decide +kernel⟩

theorem witness_MigrationAndTiles_0 : ∃ (s : State) (d : Device) (core : Nat), ((dropSlice fun _ => [core]).run s.dev = d) ∧
    core < 2048 ∧ working s.dev = true :=
  ⟨runs 0 [], _, 0, rfl, by decide +kernel⟩

theorem witness_MigrationAndTiles_1 : ∃ (s : State) (core site : Nat) (toSpare : Bool), core < 2048 ∧ working s.dev = true ∧
    (s.dev.coresAt core).fenced = true ∧ (((s.dev.coresAt core).state = 0 ∨ (s.dev.coresAt core).state = 3 ∨ (s.dev.coresAt
    core).state = 4)) ∧ (clusterSite s.dev (core / 128) (core / 16 % 8)).getD 0 = site ∧ (if toSpare then spareCoreFree s.dev
    site else s.dev.movedAt core) = true :=
  ⟨runs 0 [putCores 0 { fenced := true, state := 3 }], 0, 0, true, by decide +kernel⟩

theorem witness_MigrationAndTiles_2 : ∃ (s : State) (core site : Nat) (toSpare : Bool), core < 2048 ∧ working s.dev = true ∧
    (clusterSite s.dev (core / 128) (core / 16 % 8)).getD 0 = site ∧ (((s.dev.coresAt core).fenced = false ∨ ((s.dev.coresAt
    core).state ≠ 0 ∧ (s.dev.coresAt core).state ≠ 3 ∧ (s.dev.coresAt core).state ≠ 4) ∨ (if toSpare then spareCoreFree s.dev
    site else s.dev.movedAt core) = false)) :=
  ⟨on live, 2047, 142, false, by decide +kernel⟩

theorem witness_MigrationAndTiles_3 : ∃ (s : State) (e core epoch taken : Nat), e < 16384 ∧ powered s.dev = true ∧ strCore
    s.dev e F.STR_ENTRY_dst_cluster F.STR_ENTRY_dst_core = some core ∧ s.dev.fld F.STR_ENTRY_valid e = 1 ∧ ((s.dev.fld
    F.STR_ENTRY_medium e ≠ 0 ∨ epoch = s.dev.epochsAt core)) ∧ (s.dev.coresAt core).fenced = false ∧ ((s.dev.strBufAt e).drop
    taken).length ≤ s.dev.fld F.STR_ENTRY_depth e :=
  ⟨runs 0 [stream], 0, 0, 0, 0, by decide +kernel⟩

theorem witness_MigrationAndTiles_4 : ∃ (s : State) (e core epoch taken : Nat), e < 16384 ∧ powered s.dev = true ∧ strCore
    s.dev e F.STR_ENTRY_dst_cluster F.STR_ENTRY_dst_core = some core ∧ s.dev.fld F.STR_ENTRY_valid e = 1 ∧ ((s.dev.fld
    F.STR_ENTRY_medium e ≠ 0 ∨ epoch = s.dev.epochsAt core)) ∧ (((s.dev.coresAt core).fenced = true ∨ s.dev.fld
    F.STR_ENTRY_depth e + 1 ≤ ((s.dev.strBufAt e).drop taken).length)) :=
  ⟨runs 0 [stream, putStrBuf 0 [[1], [2]]], 0, 0, 0, 0, by decide +kernel⟩

theorem witness_MigrationAndTiles_5 : ∃ (s : State) (e core epoch : Nat), e < 16384 ∧ powered s.dev = true ∧ strCore s.dev e
    F.STR_ENTRY_dst_cluster F.STR_ENTRY_dst_core = some core ∧ s.dev.fld F.STR_ENTRY_valid e = 1 ∧ s.dev.fld
    F.STR_ENTRY_medium e = 0 ∧ epoch ≠ s.dev.epochsAt core :=
  ⟨runs 0 [stream], 0, 0, 1, by decide +kernel⟩

theorem witness_MigrationAndTiles_6 : ∃ (s : State) (e : Nat), e < 16384 ∧ powered s.dev = true ∧ ((strCore s.dev e
    F.STR_ENTRY_dst_cluster F.STR_ENTRY_dst_core = none ∨ s.dev.fld F.STR_ENTRY_valid e ≠ 1)) :=
  ⟨on live, 16383, by decide +kernel⟩

theorem witness_ControlSteps_0 : ∃ (s : State) (d : Device) (core key : Nat) (x : StepCtx), Runs s core 9 x d ∧ waitCue d x =
    some key ∧ (d.cuesAt key).overflow = false ∧ sb x.w 85 70 ≤ (d.cuesAt key).value :=
  ⟨runs (step' 9 0) [], _, 0, 0, at0 (step' 9 0), issues (by decide +kernel), by decide +kernel⟩

theorem witness_ControlSteps_1 : ∃ (s : State) (d : Device) (core key : Nat) (x : StepCtx), Runs s core 9 x d ∧ waitCue d x =
    some key ∧ (d.cuesAt key).overflow = false ∧ (d.cuesAt key).value < sb x.w 85 70 :=
  ⟨runs (step' 9 (2 ^ 70)) [], _, 0, 0, at0 (step' 9 (2 ^ 70)), issues (by decide +kernel), by decide +kernel⟩

theorem witness_ControlSteps_2 : (∃ (s : State) (d : Device) (core : Nat) (x : StepCtx), Runs s core 9 x d ∧ waitCue d x =
    none) ∧ (∃ (s : State) (d : Device) (core : Nat) (x : StepCtx) (key : _), Runs s core 9 x d ∧ waitCue d x = some key ∧
    (d.cuesAt key).overflow = true) :=
  ⟨⟨runs (step' 9 (3 * 2 ^ 94)) [], _, 0, at0 (step' 9 (3 * 2 ^ 94)), issues (by decide +kernel), by decide +kernel⟩, ⟨runs
    (step' 9 0) [putCues 0 { overflow := true }], _, 0, at0 (step' 9 0), 0, issues (by decide +kernel), by decide +kernel⟩⟩

theorem witness_ControlSteps_3 : (∃ (s : State) (core key : Nat) (x : StepCtx), core < 2048 ∧ clocked s.dev (core / 16) = true
    ∧ (s.dev.coresAt core).waiting = true ∧ (s.dev.coresAt core).acquiring = false ∧ (((s.dev.coresAt core).state = 1 ∨
    (s.dev.coresAt core).state = 2)) ∧ stepCtx s.dev core = some x ∧ stepKind x.w = 9 ∧ waitCue s.dev x = some key ∧
    (s.dev.cuesAt key).overflow = false ∧ sb x.w 85 70 ≤ (s.dev.cuesAt key).value) ∧ (∃ (s : State) (core key : Nat) (x :
    StepCtx), core < 2048 ∧ clocked s.dev (core / 16) = true ∧ (s.dev.coresAt core).waiting = true ∧ (s.dev.coresAt
    core).acquiring = false ∧ (((s.dev.coresAt core).state = 1 ∨ (s.dev.coresAt core).state = 2)) ∧ stepCtx s.dev core = some
    x ∧ stepKind x.w = 9 ∧ waitCue s.dev x = some key ∧ (s.dev.cuesAt key).overflow = false ∧ (s.dev.cuesAt key).value < sb
    x.w 85 70) ∧ (∃ (s : State) (core key : Nat) (x : StepCtx), core < 2048 ∧ clocked s.dev (core / 16) = true ∧
    (s.dev.coresAt core).waiting = true ∧ (s.dev.coresAt core).acquiring = false ∧ (((s.dev.coresAt core).state = 1 ∨
    (s.dev.coresAt core).state = 2)) ∧ stepCtx s.dev core = some x ∧ stepKind x.w = 9 ∧ waitCue s.dev x = some key ∧
    (s.dev.cuesAt key).overflow = true) :=
  ⟨⟨waiting (step' 9 0) [], 0, 0, at0 (step' 9 0), by decide +kernel⟩, ⟨waiting (step' 9 (2 ^ 70)) [], 0, 0, at0 (step' 9 (2 ^
    70)), by decide +kernel⟩, ⟨waiting (step' 9 0) [putCues 0 { overflow := true }], 0, 0, at0 (step' 9 0),
    by decide +kernel⟩⟩

theorem witness_ControlSteps_4 : ∃ (s : State) (core : Nat), core < 2048 ∧ clocked s.dev (core / 16) = true ∧ (((s.dev.coresAt
    core).waiting = false ∨ (s.dev.coresAt core).acquiring = true)) :=
  ⟨on live, 2047, by decide +kernel⟩

theorem witness_ControlSteps_5 : (∃ (s : State) (d : Device) (core : Nat) (x : StepCtx) (q : _), Runs s core 10 x d ∧ cueName
    d x.part (sb x.w 95 94) (sb x.w 93 86) (sb x.w 85 82) (sb x.w 81 80) (sb x.w 79 74) = some q) ∧ (∃ (s : State) (d :
    Device) (core : Nat) (x : StepCtx), Runs s core 10 x d ∧ cueName d x.part (sb x.w 95 94) (sb x.w 93 86) (sb x.w 85 82) (sb
    x.w 81 80) (sb x.w 79 74) = none) :=
  ⟨⟨runs (step' 10 0) [], _, 0, at0 (step' 10 0), (0, 0, 0), issues (by decide +kernel), by decide +kernel⟩, ⟨runs (step' 10
    (3 * 2 ^ 94)) [], _, 0, at0 (step' 10 (3 * 2 ^ 94)), issues (by decide +kernel), by decide +kernel⟩⟩

theorem witness_ControlSteps_6 : ∃ (s : State) (d : Device) (core : Nat) (x : StepCtx), Runs s core 14 x d :=
  ⟨runs (step' 14 0) [], _, 0, at0 (step' 14 0), issues (by decide +kernel)⟩

theorem witness_ControlSteps_7 : (∃ (s : State) (d d1 : Device) (core v : Nat) (x : StepCtx) (j : _), Runs s core 13 x d ∧
    ((sb x.w 95 94 = 0 ∧ sb x.w 69 58 + x.q.counter (sb x.w 57 55) ≤ 4095 ∧ ReadsWords x d (tileGranule d x (sb x.w 93 70) +
    ((sb x.w 69 58 + x.q.counter (sb x.w 57 55)) / 4 : Nat)) 1 (· == (sb x.w 69 58 + x.q.counter (sb x.w 57 55)) % 4 * 2 + sb
    x.w 54 53 / 2) d1 ∧ v = lengthField d1 x (tileGranule d x (sb x.w 93 70) + ((sb x.w 69 58 + x.q.counter (sb x.w 57 55)) /
    4 : Nat)).toNat ((sb x.w 69 58 + x.q.counter (sb x.w 57 55)) % 4) (sb x.w 54 53)) ∨ (sb x.w 95 94 ≠ 0 ∧ d = d1 ∧ v = (if
    sb x.w 95 94 = 1 then x.q.counter (sb x.w 52 50) else x.q.semStatus))) ∧ (if sb x.w 95 94 == 2 then (if v ≤ sb x.w 41 38
    then some v else none) else bucketOf d1 x v) = some j ∧ ((sb x.w 28 28 = 1 → ceilDiv v (2 ^ sb x.w 27 24) ≤ 65535))) ∧ (∃
    (s : State) (d d1 : Device) (core v : Nat) (x : StepCtx), Runs s core 13 x d ∧ ((sb x.w 95 94 = 0 ∧ sb x.w 69 58 +
    x.q.counter (sb x.w 57 55) ≤ 4095 ∧ ReadsWords x d (tileGranule d x (sb x.w 93 70) + ((sb x.w 69 58 + x.q.counter (sb x.w
    57 55)) / 4 : Nat)) 1 (· == (sb x.w 69 58 + x.q.counter (sb x.w 57 55)) % 4 * 2 + sb x.w 54 53 / 2) d1 ∧ v = lengthField
    d1 x (tileGranule d x (sb x.w 93 70) + ((sb x.w 69 58 + x.q.counter (sb x.w 57 55)) / 4 : Nat)).toNat ((sb x.w 69 58 +
    x.q.counter (sb x.w 57 55)) % 4) (sb x.w 54 53)) ∨ (sb x.w 95 94 ≠ 0 ∧ d = d1 ∧ v = (if sb x.w 95 94 = 1 then x.q.counter
    (sb x.w 52 50) else x.q.semStatus))) ∧ (if sb x.w 95 94 == 2 then (if v ≤ sb x.w 41 38 then some v else none) else
    bucketOf d1 x v) = none) ∧ (∃ (s : State) (d d1 : Device) (core v : Nat) (x : StepCtx) (j : _), Runs s core 13 x d ∧ ((sb
    x.w 95 94 = 0 ∧ sb x.w 69 58 + x.q.counter (sb x.w 57 55) ≤ 4095 ∧ ReadsWords x d (tileGranule d x (sb x.w 93 70) + ((sb
    x.w 69 58 + x.q.counter (sb x.w 57 55)) / 4 : Nat)) 1 (· == (sb x.w 69 58 + x.q.counter (sb x.w 57 55)) % 4 * 2 + sb x.w
    54 53 / 2) d1 ∧ v = lengthField d1 x (tileGranule d x (sb x.w 93 70) + ((sb x.w 69 58 + x.q.counter (sb x.w 57 55)) / 4 :
    Nat)).toNat ((sb x.w 69 58 + x.q.counter (sb x.w 57 55)) % 4) (sb x.w 54 53)) ∨ (sb x.w 95 94 ≠ 0 ∧ d = d1 ∧ v = (if sb
    x.w 95 94 = 1 then x.q.counter (sb x.w 52 50) else x.q.semStatus))) ∧ (if sb x.w 95 94 == 2 then (if v ≤ sb x.w 41 38 then
    some v else none) else bucketOf d1 x v) = some j ∧ sb x.w 28 28 = 1 ∧ 65535 < ceilDiv v (2 ^ sb x.w 27 24)) :=
  ⟨⟨runs (step' 13 (2 * 2 ^ 94)) [], _, _, 0, 0, at0 (step' 13 (2 * 2 ^ 94)), 0, issues (by decide +kernel), .inr
    ⟨by decide +kernel, rfl, by decide +kernel⟩, by decide +kernel⟩, ⟨runsAt (step' 13 (2 ^ 94 + 2 ^ 50))
    { depth := 1, counters := [1, 0, 0, 0, 0, 0], trips := [2, 0, 0, 0, 0, 0] } [], _, _, 0, 1, atSeq (step' 13 (2 ^ 94 + 2 ^
    50)) { depth := 1, counters := [1, 0, 0, 0, 0, 0], trips := [2, 0, 0, 0, 0, 0] }, issues (by decide +kernel), .inr
    ⟨by decide +kernel, rfl, by decide +kernel⟩, by decide +kernel⟩, ⟨runs (step' 13 (2 ^ 28)) [putSlots 0 (some
    { fig (step' 13 (2 ^ 28)) with consts := [{ value := 2 ^ 31 }] }), putTmem (tileByte 0 3) 1], _, _, 0, _,
    { at0 (step' 13 (2 ^ 28)) with fig := { fig (step' 13 (2 ^ 28)) with consts := [{ value := 2 ^ 31 }] } }, 0, issues
    (by decide +kernel), .inl ⟨by decide +kernel, by decide +kernel, reads (by decide +kernel), rfl⟩, by decide +kernel⟩⟩

theorem witness_ControlSteps_8 : ∃ (s : State) (d : Device) (core : Nat) (x : StepCtx), Runs s core 13 x d ∧ sb x.w 95 94 = 0
    ∧ 4095 < sb x.w 69 58 + x.q.counter (sb x.w 57 55) :=
  ⟨runsAt (step' 13 (4095 * 2 ^ 58 + 2 ^ 55)) { depth := 1, counters := [1, 0, 0, 0, 0, 0], trips := [2, 0, 0, 0, 0, 0] } [],
    _, 0, atSeq (step' 13 (4095 * 2 ^ 58 + 2 ^ 55))
    { depth := 1, counters := [1, 0, 0, 0, 0, 0], trips := [2, 0, 0, 0, 0, 0] }, issues (by decide +kernel),
    by decide +kernel⟩

theorem witness_ControlSteps_9 : (∃ (s : State) (core : Nat) (x : StepCtx), core < 2048 ∧ clocked s.dev (core / 16) = true ∧
    (s.dev.coresAt core).state = 1 ∧ stepCtx s.dev core = some x) ∧ (∃ (s : State) (core : Nat), core < 2048 ∧ clocked s.dev
    (core / 16) = true ∧ (s.dev.coresAt core).state ≠ 1) :=
  ⟨⟨runs (step' 9 0) [], 0, at0 (step' 9 0), by decide +kernel⟩, ⟨on live, 2047, by decide +kernel⟩⟩

theorem witness_MoveSteps_0 : (∃ (s : State) (d d1 d2 d3 : Device) (core : Nat) (x : StepCtx) (as : _), Runs s core 1 x d ∧
    TakesDest x d (tileGranule d x (sb x.w 42 19)) (moveGranules d x) d1 ∧ Walks x d1 (stepWindow x (sb x.w 95 84))
    (moveOffsets d x) d2 ∧ (readErrors x (extAddrs d2 x (stepWindow x (sb x.w 95 84)) (moveOffsets d x) .read) x.fixed
    x.lost).run d2 = d3 ∧ extAccess d3 x (stepWindow x (sb x.w 95 84)) (moveOffsets d x) .read true (floorCopy d3 x) = .served
    as) ∧ (∃ (s : State) (d d1 d2 d3 : Device) (core : Nat) (x : StepCtx) (code a : _), Runs s core 1 x d ∧ TakesDest x d
    (tileGranule d x (sb x.w 42 19)) (moveGranules d x) d1 ∧ Walks x d1 (stepWindow x (sb x.w 95 84)) (moveOffsets d x) d2 ∧
    (readErrors x (extAddrs d2 x (stepWindow x (sb x.w 95 84)) (moveOffsets d x) .read) x.fixed x.lost).run d2 = d3 ∧
    extAccess d3 x (stepWindow x (sb x.w 95 84)) (moveOffsets d x) .read true (floorCopy d3 x) = .fault code a) ∧ (∃ (s :
    State) (d d1 d2 d3 : Device) (core : Nat) (x : StepCtx), Runs s core 1 x d ∧ TakesDest x d (tileGranule d x (sb x.w 42
    19)) (moveGranules d x) d1 ∧ Walks x d1 (stepWindow x (sb x.w 95 84)) (moveOffsets d x) d2 ∧ (readErrors x (extAddrs d2 x
    (stepWindow x (sb x.w 95 84)) (moveOffsets d x) .read) x.fixed x.lost).run d2 = d3 ∧ extAccess d3 x (stepWindow x (sb x.w
    95 84)) (moveOffsets d x) .read true (floorCopy d3 x) = .held) :=
  ⟨⟨runs (step' 1 0) [], _, _, _, _, 0, at0 (step' 1 0), dram 64, issues (by decide +kernel), dest (by decide +kernel), walks
    (by decide +kernel), rfl, by decide +kernel⟩, ⟨runs (step' 1 (2 ^ 84)) [], _, _, _, _, 0, at0 (step' 1 (2 ^ 84)), 2, 0,
    issues (by decide +kernel), dest (by decide +kernel), walks (by decide +kernel), rfl, by decide +kernel⟩, ⟨runs (step' 1
    0) [setF F.DRM_STACK_STATUS_state 0 3], _, _, _, _, 0, at0 (step' 1 0), issues (by decide +kernel), dest
    (by decide +kernel), walks (by decide +kernel), rfl, by decide +kernel⟩⟩

theorem witness_MoveSteps_1 : ∃ (s : State) (d : Device) (core : Nat) (x : StepCtx), Runs s core 1 x d ∧ granulesOk
    (tileGranule d x (sb x.w 42 19)) (moveGranules d x) = false :=
  ⟨runs (step' 1 (0xFFFFFF * 2 ^ 19)) [], _, 0, at0 (step' 1 (0xFFFFFF * 2 ^ 19)), issues (by decide +kernel),
    by decide +kernel⟩

theorem witness_MoveSteps_2 : (∃ (s : State) (d d1 d2 : Device) (core : Nat) (x : StepCtx) (as : _), Runs s core 2 x d ∧
    ReadsTile x d (tileGranule d x (sb x.w 42 19)) (moveGranules d x) d1 ∧ Walks x d1 (stepWindow x (sb x.w 95 84))
    (moveOffsets d x) d2 ∧ extAccess d2 x (stepWindow x (sb x.w 95 84)) (moveOffsets d x) .write false noCopy = .served as) ∧
    (∃ (s : State) (d d1 d2 : Device) (core : Nat) (x : StepCtx) (code a : _), Runs s core 2 x d ∧ ReadsTile x d (tileGranule
    d x (sb x.w 42 19)) (moveGranules d x) d1 ∧ Walks x d1 (stepWindow x (sb x.w 95 84)) (moveOffsets d x) d2 ∧ extAccess d2 x
    (stepWindow x (sb x.w 95 84)) (moveOffsets d x) .write false noCopy = .fault code a) ∧ (∃ (s : State) (d d1 d2 : Device)
    (core : Nat) (x : StepCtx), Runs s core 2 x d ∧ ReadsTile x d (tileGranule d x (sb x.w 42 19)) (moveGranules d x) d1 ∧
    Walks x d1 (stepWindow x (sb x.w 95 84)) (moveOffsets d x) d2 ∧ extAccess d2 x (stepWindow x (sb x.w 95 84)) (moveOffsets
    d x) .write false noCopy = .held) :=
  ⟨⟨runs (step' 2 0) [], _, _, _, 0, at0 (step' 2 0), dram 64, issues (by decide +kernel), reads (by decide +kernel), walks
    (by decide +kernel), by decide +kernel⟩, ⟨runs (step' 2 (2 ^ 84)) [], _, _, _, 0, at0 (step' 2 (2 ^ 84)), 2, 0, issues
    (by decide +kernel), reads (by decide +kernel), walks (by decide +kernel), by decide +kernel⟩, ⟨runs (step' 2 0) [setF
    F.DRM_STACK_STATUS_state 0 3], _, _, _, 0, at0 (step' 2 0), issues (by decide +kernel), reads (by decide +kernel), walks
    (by decide +kernel), by decide +kernel⟩⟩

theorem witness_MoveSteps_3 : ∃ (s : State) (d d1 : Device) (core bad : Nat) (x : StepCtx), Runs s core 2 x d ∧ (spanErrors x
    (tileGranule d x (sb x.w 42 19)).toNat (moveGranules d x) wholeWords).run d = d1 ∧ granulesOk (tileGranule d x (sb x.w 42
    19)) (moveGranules d x) = true ∧ poisonedWords d1 core (tileGranule d x (sb x.w 42 19)).toNat (moveGranules d x)
    wholeWords = some bad :=
  ⟨runs (step' 2 0) [putTpoison 7 true], _, _, 0, 0, at0 (step' 2 0), issues (by decide +kernel), rfl, by decide +kernel⟩

theorem witness_MoveSteps_4 : (∃ (s : State) (d d1 : Device) (core nb : Nat) (bad : List Nat) (x : StepCtx) (n recv : Nat) (h
    : HeldHalo), Runs s core 8 x d ∧ n = (sb x.w 54 47 + 1) * (sb x.w 46 37 + 1) ∧ ReadsTile x d (tileGranule d x (sb x.w 93
    70)) n d1 ∧ recv = ((sb x.w 69 55 : Int) + (tileGranule d x (sb x.w 93 70) - (bits (sb x.w 93 70) 23 9 : Int))).toNat ∧ h
    = {
    src := core, ctx := x.ctx, part := x.part, first := (tileGranule d x (sb x.w 93 70)).toNat, granule := recv, bytes :=
    tileBytes d1 core ((tileGranule d x (sb x.w 93 70)).toNat * 64) (n * 64), bad := bad.filter (· < n), cue := sb x.w 36 32 }
    ∧ meshNeighbour (core % 16) (sb x.w 95 94) = some nb ∧ bad.all (· < 24576) = true ∧ granulesOk ((sb x.w 69 55 : Int) +
    (tileGranule d x (sb x.w 93 70) - (bits (sb x.w 93 70) 23 9 : Int))) n = true ∧ (haloHeld d1 (core / 16 * 16 + nb) x.ctx
    || !(d1.halosAt (core / 16 * 16 + nb)).all (·.src != core)) = false) ∧ (∃ (s : State) (d d1 : Device) (core nb : Nat) (bad
    : List Nat) (x : StepCtx) (n recv : Nat) (h : HeldHalo), Runs s core 8 x d ∧ n = (sb x.w 54 47 + 1) * (sb x.w 46 37 + 1) ∧
    ReadsTile x d (tileGranule d x (sb x.w 93 70)) n d1 ∧ recv = ((sb x.w 69 55 : Int) + (tileGranule d x (sb x.w 93 70) -
    (bits (sb x.w 93 70) 23 9 : Int))).toNat ∧ h = {
    src := core, ctx := x.ctx, part := x.part, first := (tileGranule d x (sb x.w 93 70)).toNat, granule := recv, bytes :=
    tileBytes d1 core ((tileGranule d x (sb x.w 93 70)).toNat * 64) (n * 64), bad := bad.filter (· < n), cue := sb x.w 36 32 }
    ∧ meshNeighbour (core % 16) (sb x.w 95 94) = some nb ∧ bad.all (· < 24576) = true ∧ granulesOk ((sb x.w 69 55 : Int) +
    (tileGranule d x (sb x.w 93 70) - (bits (sb x.w 93 70) 23 9 : Int))) n = true ∧ (haloHeld d1 (core / 16 * 16 + nb) x.ctx
    || !(d1.halosAt (core / 16 * 16 + nb)).all (·.src != core)) = true) :=
  ⟨⟨runs (step' 8 (2 ^ 94)) [putCores 1 { ctx := some 0 }], _, _, 0, 1, [24575], at0 (step' 8 (2 ^ 94)), _, _, _, issues
    (by decide +kernel), rfl, reads (by decide +kernel), rfl, rfl, by decide +kernel⟩, ⟨runs (step' 8 (2 ^ 94)) [putCores 1
    { ctx := some 1 }], _, _, 0, 1, [24575], at0 (step' 8 (2 ^ 94)), _, _, _, issues (by decide +kernel), rfl, reads
    (by decide +kernel), rfl, rfl, by decide +kernel⟩⟩

theorem witness_MoveSteps_5 : ∃ (s : State) (d : Device) (core : Nat) (bad : List Nat) (x : StepCtx), Runs s core 8 x d ∧
    bad.all (· < 24576) = true ∧ meshNeighbour (core % 16) (sb x.w 95 94) = none :=
  ⟨runs (step' 8 0) [], _, 0, [], at0 (step' 8 0), issues (by decide +kernel), by decide +kernel⟩

theorem witness_MoveSteps_6 : ∃ (s : State) (d : Device) (core : Nat) (x : StepCtx), Runs s core 2 x d ∧ granulesOk
    (tileGranule d x (sb x.w 42 19)) (moveGranules d x) = false :=
  ⟨runs (step' 2 (0xFFFFFF * 2 ^ 19)) [], _, 0, at0 (step' 2 (0xFFFFFF * 2 ^ 19)), issues (by decide +kernel),
    by decide +kernel⟩

theorem witness_MoveSteps_7 : (∃ (s : State) (d : Device) (core nb n : Nat) (bad : List Nat) (x : StepCtx), Runs s core 8 x d
    ∧ bad.all (· < 24576) = true ∧ meshNeighbour (core % 16) (sb x.w 95 94) = some nb ∧ n = (sb x.w 54 47 + 1) * (sb x.w 46 37
    + 1) ∧ granulesOk (tileGranule d x (sb x.w 93 70)) n = false) ∧ (∃ (s : State) (d d1 : Device) (core nb n : Nat) (bad :
    List Nat) (x : StepCtx), Runs s core 8 x d ∧ ReadsTile x d (tileGranule d x (sb x.w 93 70)) n d1 ∧ bad.all (· < 24576) =
    true ∧ meshNeighbour (core % 16) (sb x.w 95 94) = some nb ∧ n = (sb x.w 54 47 + 1) * (sb x.w 46 37 + 1) ∧ granulesOk ((sb
    x.w 69 55 : Int) + (tileGranule d x (sb x.w 93 70) - (bits (sb x.w 93 70) 23 9 : Int))) n = false) ∧ (∃ (s : State) (d d1
    : Device) (core nb n : Nat) (bad : List Nat) (x : StepCtx) (first : _), Runs s core 8 x d ∧ (spanErrors x (tileGranule d x
    (sb x.w 93 70)).toNat n wholeWords).run d = d1 ∧ bad.all (· < 24576) = true ∧ meshNeighbour (core % 16) (sb x.w 95 94) =
    some nb ∧ n = (sb x.w 54 47 + 1) * (sb x.w 46 37 + 1) ∧ granulesOk (tileGranule d x (sb x.w 93 70)) n = true ∧
    poisonedWords d1 core (tileGranule d x (sb x.w 93 70)).toNat n wholeWords = some first) :=
  ⟨⟨runs (step' 8 (2 ^ 94 + 0xFFFFFF * 2 ^ 70)) [], _, 0, 1, 1, [], at0 (step' 8 (2 ^ 94 + 0xFFFFFF * 2 ^ 70)), issues
    (by decide +kernel), by decide +kernel⟩, ⟨runs (step' 8 (2 ^ 94 + 32767 * 2 ^ 55)) [], _, _, 0, 1, 1, [], at0 (step' 8 (2
    ^ 94 + 32767 * 2 ^ 55)), issues (by decide +kernel), reads (by decide +kernel), by decide +kernel⟩, ⟨runs (step' 8 (2 ^
    94)) [putTpoison 7 true], _, _, 0, 1, 1, [], at0 (step' 8 (2 ^ 94)), 0, issues (by decide +kernel), rfl,
    by decide +kernel⟩⟩

theorem witness_MoveSteps_8 : (∃ (s : State) (d d1 : Device) (c : Instr) (core : Nat) (x : StepCtx) (as : List Nat) (ps : List
    CachedPage), ((c = .load core x.fixed x.lost ∧ Runs s core 1 x d ∧ TakesDest x d (tileGranule d x (sb x.w 42 19))
    (moveGranules d x) d1) ∨ (c = .store core x.fixed x.lost ∧ Runs s core 2 x d ∧ ReadsTile x d (tileGranule d x (sb x.w 42
    19)) (moveGranules d x) d1)) ∧ stepPages d1 x (stepWindow x (sb x.w 95 84)) (moveOffsets d x) = ps ∧ walkAddrs d1 x.part
    ps = as ∧ agentHeld d1 (some x.part) as = true) ∧ (∃ (s : State) (d d1 d2 : Device) (c : Instr) (core : Nat) (x : StepCtx)
    (as : List Nat) (ps : List CachedPage), ((c = .load core x.fixed x.lost ∧ Runs s core 1 x d ∧ TakesDest x d (tileGranule d
    x (sb x.w 42 19)) (moveGranules d x) d1) ∨ (c = .store core x.fixed x.lost ∧ Runs s core 2 x d ∧ ReadsTile x d
    (tileGranule d x (sb x.w 42 19)) (moveGranules d x) d1)) ∧ stepPages d1 x (stepWindow x (sb x.w 95 84)) (moveOffsets d x)
    = ps ∧ walkAddrs d1 x.part ps = as ∧ (memErrors as x.fixed x.lost).run d1 = d2 ∧ agentHeld d1 (some x.part) as = false ∧
    anyPoison d2 as = true) :=
  ⟨⟨runs (step' 1 0) [putRoutesStale true], _, _, _, 0, at0 (step' 1 0), _, _, .inl ⟨rfl, issues (by decide +kernel), dest
    (by decide +kernel)⟩, rfl, rfl, by decide +kernel⟩, ⟨runs (step' 2 0) [putSlots 0 (some
    { fig (step' 2 0) with windows := [{ owner := 1, length := 64 }] }), putDrvMap 0 [{ length := 64, place := some 0 }],
    putPoison 0x1000000000 true], _, _, _, _, 0,
    { at0 (step' 2 0) with fig := { fig (step' 2 0) with windows := [{ owner := 1, length := 64 }] } }, _, _, .inr ⟨rfl,
    issues (by decide +kernel), reads (by decide +kernel)⟩, rfl, rfl, rfl, by decide +kernel⟩⟩

theorem witness_SemaphoreSteps_0 : (∃ (s : State) (d : Device) (core cell : Nat) (x : StepCtx), Runs s core 12 x d ∧ sb x.w 95
    94 = 0 ∧ semCell d x.part (sb x.w 93 81) = some cell ∧ (d.semsAt cell).holder = none ∧ (d.semsAt cell).waiters = [] ∧
    mustWait d x.ctx = false) ∧ (∃ (s : State) (d : Device) (core cell : Nat) (x : StepCtx), Runs s core 12 x d ∧ sb x.w 95 94
    = 0 ∧ semCell d x.part (sb x.w 93 81) = some cell ∧ ((d.semsAt cell).holder.isSome = true ∨ (d.semsAt cell).waiters ≠ [] ∨
    mustWait d x.ctx = true)) :=
  ⟨⟨runs (step' 12 0) [setF F.PRT_SHAPE_SEM_count 15 1, setF F.PRT_SHAPE_SEM_base 15 511], _, 0, 8191, at0 (step' 12 0),
    issues (by decide +kernel), by decide +kernel⟩, ⟨runs (step' 12 0) [setF F.PRT_SHAPE_SEM_count 0 1, putSems 0
    { holder := some ⟨0, 0⟩ }], _, 0, 0, at0 (step' 12 0), issues (by decide +kernel), by decide +kernel⟩⟩

theorem witness_SemaphoreSteps_1 : (∃ (s : State) (d : Device) (core cell : Nat) (x : StepCtx), Runs s core 12 x d ∧ sb x.w 95
    94 = 1 ∧ semCell d x.part (sb x.w 93 81) = some cell ∧ (d.semsAt cell).holder = none ∧ mustWait d x.ctx = false) ∧ (∃ (s :
    State) (d : Device) (core cell : Nat) (x : StepCtx), Runs s core 12 x d ∧ sb x.w 95 94 = 1 ∧ semCell d x.part (sb x.w 93
    81) = some cell ∧ ((d.semsAt cell).holder.isSome = true ∨ mustWait d x.ctx = true)) :=
  ⟨⟨runs (step' 12 (2 ^ 94)) [setF F.PRT_SHAPE_SEM_count 0 1], _, 0, 0, at0 (step' 12 (2 ^ 94)), issues (by decide +kernel),
    by decide +kernel⟩, ⟨runs (step' 12 (2 ^ 94)) [setF F.PRT_SHAPE_SEM_count 0 1, putSems 0 { holder := some ⟨0, 0⟩ }], _, 0,
    0, at0 (step' 12 (2 ^ 94)), issues (by decide +kernel), by decide +kernel⟩⟩

theorem witness_SemaphoreSteps_2 : (∃ (s : State) (d : Device) (core cell : Nat) (x : StepCtx), Runs s core 12 x d ∧ sb x.w 95
    94 = 2 ∧ semCell d x.part (sb x.w 93 81) = some cell ∧ (d.semsAt cell).holder = some ⟨x.ctx, core⟩) ∧ (∃ (s : State) (d :
    Device) (core cell : Nat) (x : StepCtx), Runs s core 12 x d ∧ sb x.w 95 94 = 2 ∧ semCell d x.part (sb x.w 93 81) = some
    cell ∧ (d.semsAt cell).holder ≠ some ⟨x.ctx, core⟩) :=
  ⟨⟨runs (step' 12 (2 * 2 ^ 94)) [setF F.PRT_SHAPE_SEM_count 0 1, putSems 0 { holder := some ⟨0, 0⟩ }], _, 0, 0, at0 (step' 12
    (2 * 2 ^ 94)), issues (by decide +kernel), by decide +kernel⟩, ⟨runs (step' 12 (2 * 2 ^ 94)) [setF F.PRT_SHAPE_SEM_count 0
    1], _, 0, 0, at0 (step' 12 (2 * 2 ^ 94)), issues (by decide +kernel), by decide +kernel⟩⟩

theorem witness_SemaphoreSteps_3 : ∃ (s : State) (cell fuel : Nat) (w : Waiter), cell < 8192 ∧ working s.dev = true ∧
    (s.dev.semsAt cell).holder = none ∧ nextWaiter s.dev (s.dev.semsAt cell).waiters = some w ∧ (s.dev.semsAt
    cell).waiters.length = fuel + 1 :=
  ⟨runs 0 [putSems 8191 { waiters := [⟨0, 0⟩] }], 8191, 0, ⟨0, 0⟩, by decide +kernel⟩

theorem witness_SemaphoreSteps_4 : ∃ (s : State) (cell : Nat), cell < 8192 ∧ working s.dev = true ∧ (((s.dev.semsAt
    cell).holder.isSome = true ∨ nextWaiter s.dev (s.dev.semsAt cell).waiters = none)) :=
  ⟨on live, 8191, by decide +kernel⟩

theorem witness_NumericSteps_0 : ∃ (s : State) (d d1 d2 : Device) (core : Nat) (x : StepCtx), Runs s core 3 x d ∧ ReadsWords x
    d (tileGranule d x (sb x.w 95 72)) (operandGranules (sb x.w 37 35) (64 * (sb x.w 46 45 + 1)) (sb x.w 42 38 + 1))
    (operandWords (sb x.w 37 35)) d1 ∧ ReadsWords x d1 (tileGranule d x (sb x.w 71 48)) (operandGranules (sb x.w 34 32) (64 *
    (sb x.w 44 43 + 1)) (sb x.w 42 38 + 1)) (operandWords (sb x.w 34 32)) d2 ∧ (((x.q.bank (sb x.w 47 47)).acc = true →
    (x.q.bank (sb x.w 47 47)).m = sb x.w 46 45 ∧ (x.q.bank (sb x.w 47 47)).n = sb x.w 44 43)) :=
  ⟨runs (step' 3 0) [], _, _, _, 0, at0 (step' 3 0), issues (by decide +kernel), reads (by decide +kernel), reads
    (by decide +kernel), by decide +kernel⟩

theorem witness_NumericSteps_1 : ∃ (s : State) (d : Device) (core : Nat) (x : StepCtx), Runs s core 3 x d ∧ (x.q.bank (sb x.w
    47 47)).acc = true ∧ (((x.q.bank (sb x.w 47 47)).m ≠ sb x.w 46 45 ∨ (x.q.bank (sb x.w 47 47)).n ≠ sb x.w 44 43)) :=
  ⟨runsAt (step' 3 (2 ^ 45)) acc0 [], _, 0, atSeq (step' 3 (2 ^ 45)) acc0, issues (by decide +kernel), by decide +kernel⟩

theorem witness_NumericSteps_2 : ∃ (s : State) (d d1 d2 : Device) (core size : Nat) (x : StepCtx), Runs s core 4 x d ∧ size =
    (sb x.w 45 34 + 1) * (sb x.w 33 25 + 1) * 2 ^ (6 + sb x.w 47 46) * (if sb x.w 6 4 == 5 then 4 else 2) / 64 ∧ ReadsTile x d
    (tileGranule d x (sb x.w 95 72)) size d1 ∧ TakesDest x d1 (tileGranule d x (sb x.w 71 48)) size d2 :=
  ⟨runs (step' 4 0) [], _, _, _, 0, _, at0 (step' 4 0), issues (by decide +kernel), rfl, reads (by decide +kernel), dest
    (by decide +kernel)⟩

theorem witness_NumericSteps_3 : ∃ (s : State) (d d1 d2 : Device) (core rows cols k outRows : Nat) (x : StepCtx), Runs s core
    5 x d ∧ rows = sb x.w 47 36 + 1 ∧ cols = (sb x.w 35 27 + 1) * 32 ∧ outRows = (if sb x.w 18 18 == 1 then cols else rows) ∧
    k = (if sb x.w 18 18 == 1 then ceilDiv rows 32 else cols / 32) ∧ ReadsTile x d (tileGranule d x (sb x.w 95 72))
    (operandGranules (sb x.w 26 24) rows (cols / 32)) d1 ∧ TakesDest x d1 (tileGranule d x (sb x.w 71 48)) (operandGranules
    (sb x.w 23 21) outRows k) d2 :=
  ⟨runs (step' 5 0) [], _, _, _, 0, _, _, _, _, at0 (step' 5 0), issues (by decide +kernel), rfl, rfl, rfl, rfl, reads
    (by decide +kernel), dest (by decide +kernel)⟩

theorem witness_NumericSteps_4 : ∃ (s : State) (d d1 : Device) (core ro co : Nat) (x : StepCtx), Runs s core 7 x d ∧ ro = 64 *
    ((x.q.bank (sb x.w 95 95)).m + 1) ∧ co = 64 * ((x.q.bank (sb x.w 95 95)).n + 1) ∧ TakesDest x d (tileGranule d x (sb x.w
    94 71)) (operandGranules (sb x.w 25 23) ro (co / 32)) d1 ∧ (x.q.bank (sb x.w 95 95)).acc = true ∧ sb x.w 46 46 = 0 :=
  ⟨runsAt (step' 7 0) acc0 [], _, _, 0, _, _, atSeq (step' 7 0) acc0, issues (by decide +kernel), rfl, rfl, dest
    (by decide +kernel), by decide +kernel⟩

theorem witness_NumericSteps_5 : ∃ (s : State) (d d1 d2 : Device) (core ro co : Nat) (x : StepCtx), Runs s core 7 x d ∧ ro =
    64 * ((x.q.bank (sb x.w 95 95)).m + 1) ∧ co = 64 * ((x.q.bank (sb x.w 95 95)).n + 1) ∧ ReadsTile x d (tileGranule d x (sb
    x.w 70 47)) (co / 32) d1 ∧ TakesDest x d1 (tileGranule d x (sb x.w 94 71)) (operandGranules (sb x.w 25 23) ro (co / 32))
    d2 ∧ (x.q.bank (sb x.w 95 95)).acc = true ∧ sb x.w 46 46 = 1 :=
  ⟨runsAt (step' 7 (2 ^ 46)) acc0 [], _, _, _, 0, _, _, atSeq (step' 7 (2 ^ 46)) acc0, issues (by decide +kernel), rfl, rfl,
    reads (by decide +kernel), dest (by decide +kernel), by decide +kernel⟩

theorem witness_NumericSteps_6 : ∃ (s : State) (d : Device) (core : Nat) (x : StepCtx), Runs s core 7 x d ∧ (x.q.bank (sb x.w
    95 95)).acc = false :=
  ⟨runs (step' 7 0) [], _, 0, at0 (step' 7 0), issues (by decide +kernel), by decide +kernel⟩

theorem witness_NumericSteps_7 : ∃ (s : State) (d d1 d2 : Device) (core code bad : Nat) (x : StepCtx), Runs s core 3 x d ∧
    (BadWords x d (tileGranule d x (sb x.w 95 72)) (operandGranules (sb x.w 37 35) (64 * (sb x.w 46 45 + 1)) (sb x.w 42 38 +
    1)) (operandWords (sb x.w 37 35)) code bad d2 ∨ (ReadsWords x d (tileGranule d x (sb x.w 95 72)) (operandGranules (sb x.w
    37 35) (64 * (sb x.w 46 45 + 1)) (sb x.w 42 38 + 1)) (operandWords (sb x.w 37 35)) d1 ∧ BadWords x d1 (tileGranule d x (sb
    x.w 71 48)) (operandGranules (sb x.w 34 32) (64 * (sb x.w 44 43 + 1)) (sb x.w 42 38 + 1)) (operandWords (sb x.w 34 32))
    code bad d2)) ∧ (((x.q.bank (sb x.w 47 47)).acc = true → (x.q.bank (sb x.w 47 47)).m = sb x.w 46 45 ∧ (x.q.bank (sb x.w 47
    47)).n = sb x.w 44 43)) :=
  ⟨runs (step' 3 (0xFFFFFF * 2 ^ 72)) [], _, Device.reset, _, 0, _, _, at0 (step' 3 (0xFFFFFF * 2 ^ 72)), issues
    (by decide +kernel), .inl (.inl ⟨by decide +kernel, rfl, rfl, rfl⟩), by decide +kernel⟩

theorem witness_NumericSteps_8 : (∃ (s : State) (d d2 : Device) (core size n code bad : Nat) (c : Instr) (src dst : Int) (x :
    StepCtx), ((c = .rotate core x.fixed x.lost ∧ Runs s core 4 x d ∧ src = tileGranule d x (sb x.w 95 72) ∧ dst = tileGranule
    d x (sb x.w 71 48) ∧ n = size ∧ size = (sb x.w 45 34 + 1) * (sb x.w 33 25 + 1) * 2 ^ (6 + sb x.w 47 46) * (if sb x.w 6 4
    == 5 then 4 else 2) / 64) ∨ (c = .quant core x.fixed x.lost ∧ Runs s core 5 x d ∧ src = tileGranule d x (sb x.w 95 72) ∧
    dst = tileGranule d x (sb x.w 71 48) ∧ size = operandGranules (sb x.w 26 24) (sb x.w 47 36 + 1) ((sb x.w 35 27 + 1) * 32 /
    32) ∧ n = operandGranules (sb x.w 23 21) (if sb x.w 18 18 == 1 then (sb x.w 35 27 + 1) * 32 else sb x.w 47 36 + 1) (if sb
    x.w 18 18 == 1 then ceilDiv (sb x.w 47 36 + 1) 32 else (sb x.w 35 27 + 1) * 32 / 32)) ∨ (c = .epi core x.fixed x.lost ∧
    Runs s core 7 x d ∧ (x.q.bank (sb x.w 95 95)).acc = true ∧ sb x.w 46 46 = 1 ∧ src = tileGranule d x (sb x.w 70 47) ∧ dst =
    tileGranule d x (sb x.w 94 71) ∧ size = 64 * ((x.q.bank (sb x.w 95 95)).n + 1) / 32 ∧ n = operandGranules (sb x.w 25 23)
    (64 * ((x.q.bank (sb x.w 95 95)).m + 1)) (64 * ((x.q.bank (sb x.w 95 95)).n + 1) / 32))) ∧ BadWords x d src size
    wholeWords code bad d2) ∧ (∃ (s : State) (d d1 : Device) (core size n : Nat) (c : Instr) (src dst : Int) (x : StepCtx),
    ((c = .rotate core x.fixed x.lost ∧ Runs s core 4 x d ∧ src = tileGranule d x (sb x.w 95 72) ∧ dst = tileGranule d x (sb
    x.w 71 48) ∧ n = size ∧ size = (sb x.w 45 34 + 1) * (sb x.w 33 25 + 1) * 2 ^ (6 + sb x.w 47 46) * (if sb x.w 6 4 == 5 then
    4 else 2) / 64) ∨ (c = .quant core x.fixed x.lost ∧ Runs s core 5 x d ∧ src = tileGranule d x (sb x.w 95 72) ∧ dst =
    tileGranule d x (sb x.w 71 48) ∧ size = operandGranules (sb x.w 26 24) (sb x.w 47 36 + 1) ((sb x.w 35 27 + 1) * 32 / 32) ∧
    n = operandGranules (sb x.w 23 21) (if sb x.w 18 18 == 1 then (sb x.w 35 27 + 1) * 32 else sb x.w 47 36 + 1) (if sb x.w 18
    18 == 1 then ceilDiv (sb x.w 47 36 + 1) 32 else (sb x.w 35 27 + 1) * 32 / 32)) ∨ (c = .epi core x.fixed x.lost ∧ Runs s
    core 7 x d ∧ (x.q.bank (sb x.w 95 95)).acc = true ∧ sb x.w 46 46 = 1 ∧ src = tileGranule d x (sb x.w 70 47) ∧ dst =
    tileGranule d x (sb x.w 94 71) ∧ size = 64 * ((x.q.bank (sb x.w 95 95)).n + 1) / 32 ∧ n = operandGranules (sb x.w 25 23)
    (64 * ((x.q.bank (sb x.w 95 95)).m + 1)) (64 * ((x.q.bank (sb x.w 95 95)).n + 1) / 32))) ∧ ReadsTile x d src size d1 ∧
    granulesOk dst n = false) :=
  ⟨⟨runs (step' 4 0) [putTpoison 7 true], _, _, 0, _, _, _, 0, _, _, _, at0 (step' 4 0), .inl ⟨rfl, issues
    (by decide +kernel), rfl, rfl, rfl, rfl⟩, .inr ⟨by decide +kernel, rfl, rfl, by decide +kernel⟩⟩, ⟨runs (step' 5 (0xFFFFFF
    * 2 ^ 48)) [], _, _, 0, _, _, _, _, _, at0 (step' 5 (0xFFFFFF * 2 ^ 48)), .inr (.inl ⟨rfl, issues (by decide +kernel),
    rfl, rfl, rfl, rfl⟩), reads (by decide +kernel), by decide +kernel⟩⟩

theorem witness_NumericSteps_9 : ∃ (s : State) (d : Device) (core : Nat) (x : StepCtx), Runs s core 7 x d ∧ (x.q.bank (sb x.w
    95 95)).acc = true ∧ sb x.w 46 46 = 0 ∧ granulesOk (tileGranule d x (sb x.w 94 71)) (operandGranules (sb x.w 25 23) (64 *
    ((x.q.bank (sb x.w 95 95)).m + 1)) (64 * ((x.q.bank (sb x.w 95 95)).n + 1) / 32)) = false :=
  ⟨runsAt (step' 7 (0xFFFFFF * 2 ^ 71)) acc0 [], _, 0, atSeq (step' 7 (0xFFFFFF * 2 ^ 71)) acc0, issues (by decide +kernel),
    by decide +kernel⟩

theorem witness_RowSteps_0 : ∃ (c : _) (s : State) (d d1 d2 : Device) (core : Nat) (x : StepCtx), c ∈ [(Instr.rowExp2, 0),
    (Instr.rowLog2, 1), (Instr.rowReciprocal, 2), (Instr.rowRsqrt, 3), (Instr.rowExp, 5), (Instr.rowTanh, 6),
    (Instr.rowSigmoid, 7), (Instr.rowSilu, 8), (Instr.rowGelu, 9), (Instr.rowSoftplus, 10)] ∧ Runs s core 6 x d ∧ ReadsRows x
    d (tileGranule d x (sb x.w 91 68)) (sb x.w 27 20 + 1) (rowPitch x) (rowSize x) d1 ∧ TakesDest x d1 (tileGranule d x (sb
    x.w 91 68) + signed (sb x.w 67 52) 16) ((sb x.w 27 20 + 1) * rowPitch x) d2 ∧ sb x.w 95 92 = c.2 :=
  ⟨(Instr.rowSoftplus, 10), runs (step' 6 (10 * 2 ^ 92)) [], _, _, _, 0, at0 (step' 6 (10 * 2 ^ 92)), by simp, issues
    (by decide +kernel), reads (by decide +kernel), dest (by decide +kernel), by decide +kernel⟩

theorem witness_RowSteps_1 : ∃ (c : _) (s : State) (d d1 d2 d3 : Device) (core : Nat) (x : StepCtx), c ∈
    [(Instr.rowDivideByAux, 4), (Instr.rowScaleByReciprocal, 13)] ∧ Runs s core 6 x d ∧ ReadsRows x d (tileGranule d x (sb x.w
    91 68)) (sb x.w 27 20 + 1) (rowPitch x) (rowSize x) d1 ∧ TakesDest x d1 (tileGranule d x (sb x.w 91 68) + signed (sb x.w
    67 52) 16) ((sb x.w 27 20 + 1) * rowPitch x) d2 ∧ ReadsWords x d2 (tileGranule d x (sb x.w 51 28)) (ceilDiv ((sb x.w 27 20
    + 1) * 16) 64) (entryHeads (sb x.w 27 20 + 1)) d3 ∧ sb x.w 95 92 = c.2 :=
  ⟨(Instr.rowScaleByReciprocal, 13), runs (step' 6 (13 * 2 ^ 92)) [], _, _, _, _, 0, at0 (step' 6 (13 * 2 ^ 92)), by simp,
    issues (by decide +kernel), reads (by decide +kernel), dest (by decide +kernel), reads (by decide +kernel),
    by decide +kernel⟩

theorem witness_RowSteps_2 : ∃ (s : State) (d d1 d2 : Device) (core : Nat) (x : StepCtx), Runs s core 6 x d ∧ ReadsRows x d
    (tileGranule d x (sb x.w 91 68)) (sb x.w 27 20 + 1) (rowPitch x) (rowSize x) d1 ∧ ReadsWords x d1 (tileGranule d x (sb x.w
    51 28)) (ceilDiv ((sb x.w 27 20 + 1) * 16) 64) (entryHeads (sb x.w 27 20 + 1)) d2 ∧ sb x.w 95 92 = 11 ∧ unread d2 core
    (tileGranule d x (sb x.w 51 28)).toNat (ceilDiv ((sb x.w 27 20 + 1) * 16) 64) = true :=
  ⟨runs (step' 6 (11 * 2 ^ 92)) [], _, _, _, 0, at0 (step' 6 (11 * 2 ^ 92)), issues (by decide +kernel), reads
    (by decide +kernel), reads (by decide +kernel), by decide +kernel⟩

theorem witness_RowSteps_3 : ∃ (s : State) (d d1 d2 d3 d4 : Device) (core : Nat) (x : StepCtx), Runs s core 6 x d ∧ ReadsRows
    x d (tileGranule d x (sb x.w 91 68)) (sb x.w 27 20 + 1) (rowPitch x) (rowSize x) d1 ∧ TakesDest x d1 (tileGranule d x (sb
    x.w 91 68) + signed (sb x.w 67 52) 16) ((sb x.w 27 20 + 1) * rowPitch x) d2 ∧ ReadsWords x d2 (tileGranule d x (sb x.w 51
    28)) (ceilDiv ((sb x.w 27 20 + 1) * 16) 64) (entryHeads (sb x.w 27 20 + 1)) d3 ∧ ReadsWords x d3 (tileGranule d x (sb x.w
    51 28)) (ceilDiv ((sb x.w 27 20 + 1) * 16) 64) (replayTails d3 x (tileGranule d x (sb x.w 91 68)).toNat (tileGranule d x
    (sb x.w 51 28)).toNat) d4 ∧ sb x.w 95 92 = 12 ∧ unread d4 core (tileGranule d x (sb x.w 51 28)).toNat (ceilDiv ((sb x.w 27
    20 + 1) * 16) 64) = true :=
  ⟨runs (step' 6 (12 * 2 ^ 92)) [], _, _, _, _, _, 0, at0 (step' 6 (12 * 2 ^ 92)), issues (by decide +kernel), reads
    (by decide +kernel), dest (by decide +kernel), reads (by decide +kernel), reads (by decide +kernel), by decide +kernel⟩

theorem witness_RowSteps_4 : ∃ (s : State) (d d1 d2 : Device) (core : Nat) (x : StepCtx), Runs s core 6 x d ∧ ReadsRows x d
    (tileGranule d x (sb x.w 91 68)) (sb x.w 27 20 + 1) (rowPitch x) (rowSize x) d1 ∧ ReadsRows x d1 (tileGranule d x (sb x.w
    51 28)) 1 (ceilDiv ((sb x.w 27 20 + 1) * 16) 64) ((sb x.w 27 20 + 1) * 16) d2 ∧ sb x.w 95 92 = 14 ∧ unread d2 core
    (tileGranule d x (sb x.w 51 28)).toNat (ceilDiv ((sb x.w 27 20 + 1) * 16) 64) = true :=
  ⟨runs (step' 6 (14 * 2 ^ 92)) [], _, _, _, 0, at0 (step' 6 (14 * 2 ^ 92)), issues (by decide +kernel), reads
    (by decide +kernel), reads (by decide +kernel), by decide +kernel⟩

theorem witness_RowSteps_5 : ∃ (s : State) (d d1 d2 d3 : Device) (core : Nat) (x : StepCtx), Runs s core 6 x d ∧ ReadsRows x d
    (tileGranule d x (sb x.w 91 68)) (sb x.w 27 20 + 1) (rowPitch x) (rowSize x) d1 ∧ TakesDest x d1 (tileGranule d x (sb x.w
    91 68) + signed (sb x.w 67 52) 16) ((sb x.w 27 20 + 1) * rowPitch x) d2 ∧ ReadsRows x d2 (tileGranule d x (sb x.w 51 28))
    1 (ceilDiv ((sb x.w 27 20 + 1) * 16) 64) ((sb x.w 27 20 + 1) * 16) d3 ∧ sb x.w 95 92 = 15 :=
  ⟨runs (step' 6 (15 * 2 ^ 92)) [], _, _, _, _, 0, at0 (step' 6 (15 * 2 ^ 92)), issues (by decide +kernel), reads
    (by decide +kernel), dest (by decide +kernel), reads (by decide +kernel), by decide +kernel⟩

theorem witness_RowSteps_6 : (∃ (c : _) (s : State) (d d1 : Device) (core code bad : Nat) (x : StepCtx), c ∈ [(Instr.rowExp2,
    0), (Instr.rowLog2, 1), (Instr.rowReciprocal, 2), (Instr.rowRsqrt, 3), (Instr.rowDivideByAux, 4), (Instr.rowExp, 5),
    (Instr.rowTanh, 6), (Instr.rowSigmoid, 7), (Instr.rowSilu, 8), (Instr.rowGelu, 9), (Instr.rowSoftplus, 10),
    (Instr.rowMaximumToAux, 11), (Instr.rowExp2ScaledDifference, 12), (Instr.rowScaleByReciprocal, 13),
    (Instr.rowMeanAndSquares, 14), (Instr.rowNormalise, 15)] ∧ Runs s core 6 x d ∧ BadWords x d (tileGranule d x (sb x.w 91
    68)) ((sb x.w 27 20 + 1) * rowPitch x) (rowWords (rowPitch x) (rowSize x)) code bad d1 ∧ sb x.w 95 92 = c.2) ∧ (∃ (c : _)
    (s : State) (d d1 : Device) (core : Nat) (x : StepCtx), c ∈ [(Instr.rowExp2, 0), (Instr.rowLog2, 1), (Instr.rowReciprocal,
    2), (Instr.rowRsqrt, 3), (Instr.rowDivideByAux, 4), (Instr.rowExp, 5), (Instr.rowTanh, 6), (Instr.rowSigmoid, 7),
    (Instr.rowSilu, 8), (Instr.rowGelu, 9), (Instr.rowSoftplus, 10), (Instr.rowMaximumToAux, 11),
    (Instr.rowExp2ScaledDifference, 12), (Instr.rowScaleByReciprocal, 13), (Instr.rowMeanAndSquares, 14), (Instr.rowNormalise,
    15)] ∧ Runs s core 6 x d ∧ ReadsRows x d (tileGranule d x (sb x.w 91 68)) (sb x.w 27 20 + 1) (rowPitch x) (rowSize x) d1 ∧
    sb x.w 95 92 = c.2 ∧ c.2 ≠ 11 ∧ c.2 ≠ 14 ∧ granulesOk (tileGranule d x (sb x.w 91 68) + signed (sb x.w 67 52) 16) ((sb x.w
    27 20 + 1) * rowPitch x) = false) ∧ (∃ (c : _) (s : State) (d d1 d2 d3 : Device) (core code bad : Nat) (x : StepCtx), c ∈
    [(Instr.rowExp2, 0), (Instr.rowLog2, 1), (Instr.rowReciprocal, 2), (Instr.rowRsqrt, 3), (Instr.rowDivideByAux, 4),
    (Instr.rowExp, 5), (Instr.rowTanh, 6), (Instr.rowSigmoid, 7), (Instr.rowSilu, 8), (Instr.rowGelu, 9), (Instr.rowSoftplus,
    10), (Instr.rowMaximumToAux, 11), (Instr.rowExp2ScaledDifference, 12), (Instr.rowScaleByReciprocal, 13),
    (Instr.rowMeanAndSquares, 14), (Instr.rowNormalise, 15)] ∧ Runs s core 6 x d ∧ ReadsRows x d (tileGranule d x (sb x.w 91
    68)) (sb x.w 27 20 + 1) (rowPitch x) (rowSize x) d1 ∧ ((if c.2 = 11 ∨ c.2 = 14 then d2 = d1 else TakesDest x d1
    (tileGranule d x (sb x.w 91 68) + signed (sb x.w 67 52) 16) ((sb x.w 27 20 + 1) * rowPitch x) d2)) ∧ BadWords x d2
    (tileGranule d x (sb x.w 51 28)) (ceilDiv ((sb x.w 27 20 + 1) * 16) 64) (if 14 ≤ c.2 then rowWords (ceilDiv ((sb x.w 27 20
    + 1) * 16) 64) ((sb x.w 27 20 + 1) * 16) else entryHeads (sb x.w 27 20 + 1)) code bad d3 ∧ sb x.w 95 92 = c.2 ∧ (c.2 = 4 ∨
    11 ≤ c.2)) :=
  ⟨⟨(Instr.rowExp2, 0), runs (step' 6 0) [putTpoison 0 true], _, _, 0, _, 0, at0 (step' 6 0), by simp, issues
    (by decide +kernel), .inr ⟨by decide +kernel, rfl, rfl, by decide +kernel⟩, by decide +kernel⟩, ⟨(Instr.rowExp2, 0), runs
    (step' 6 (0x8000 * 2 ^ 52)) [], _, _, 0, at0 (step' 6 (0x8000 * 2 ^ 52)), by simp, issues (by decide +kernel), reads
    (by decide +kernel), by decide +kernel⟩, ⟨(Instr.rowMaximumToAux, 11), runs (step' 6 (11 * 2 ^ 92 + 2 ^ 37)) [putTpoison 8
    true], _, _, _, _, 0, _, 1, at0 (step' 6 (11 * 2 ^ 92 + 2 ^ 37)), by simp, issues (by decide +kernel), reads
    (by decide +kernel), rfl, .inr ⟨by decide +kernel, rfl, rfl, by decide +kernel⟩, by decide +kernel⟩⟩

theorem witness_RowSteps_7 : ∃ (s : State) (d d1 d2 d3 d4 : Device) (core code bad : Nat) (x : StepCtx), Runs s core 6 x d ∧
    ReadsRows x d (tileGranule d x (sb x.w 91 68)) (sb x.w 27 20 + 1) (rowPitch x) (rowSize x) d1 ∧ TakesDest x d1
    (tileGranule d x (sb x.w 91 68) + signed (sb x.w 67 52) 16) ((sb x.w 27 20 + 1) * rowPitch x) d2 ∧ ReadsWords x d2
    (tileGranule d x (sb x.w 51 28)) (ceilDiv ((sb x.w 27 20 + 1) * 16) 64) (entryHeads (sb x.w 27 20 + 1)) d3 ∧ BadWords x d3
    (tileGranule d x (sb x.w 51 28)) (ceilDiv ((sb x.w 27 20 + 1) * 16) 64) (replayTails d3 x (tileGranule d x (sb x.w 91
    68)).toNat (tileGranule d x (sb x.w 51 28)).toNat) code bad d4 ∧ sb x.w 95 92 = 12 :=
  ⟨runs (step' 6 (12 * 2 ^ 92 + 2 ^ 37 + 2 ^ 6)) [putTpoison 9 true, putTmem (tileByte 0 1) 0x3F], _, _, _, _, _, 0, _, 1, at0
    (step' 6 (12 * 2 ^ 92 + 2 ^ 37 + 2 ^ 6)), issues (by decide +kernel), reads (by decide +kernel), dest (by decide +kernel),
    reads (by decide +kernel), .inr ⟨by decide +kernel, rfl, rfl, by decide +kernel⟩, by decide +kernel⟩

theorem witness_AtomSteps_0 : (∃ (c : _) (s : State) (d d1 : Device) (core n e : Nat) (x : StepCtx) (os : List Int) (win :
    WindowRec) (d2 d3 as : _), c ∈ [(Instr.atomAddInt32, 0), (Instr.atomAddFp32, 1), (Instr.atomAddBf16, 2),
    (Instr.atomMinInt32, 3), (Instr.atomMaxInt32, 4), (Instr.atomMinFp32, 5), (Instr.atomMaxFp32, 6), (Instr.atomMinBf16, 7),
    (Instr.atomMaxBf16, 8), (Instr.atomVectorReduceAddFp32, 9), (Instr.atomVectorReduceAddBf16, 10)] ∧ Runs s core 11 x d ∧ e
    = (if atomNarrow c.2 then 2 else 4) ∧ n = sb x.w 18 7 + 1 ∧ (os = (List.range (n * e)).map (fun (i : Nat) => extOffset d x
    (sb x.w 79 52) (sb x.w 51 51) (sb x.w 50 43) 0 * (e : Int) + (i : Int))) ∧ stepWindow x (sb x.w 91 80) = win ∧ ReadsRows x
    d (tileGranule d x (sb x.w 42 19)) 1 (ceilDiv (n * e) 64) (n * e) d1 ∧ Walks x d1 win os d2 ∧ (memErrors (extTouched d2 x
    win os .atomic) x.fixed x.lost).run d2 = d3 ∧ sb x.w 95 92 = c.2 ∧ ((sb x.w 6 6 = 1 → c.2 ≤ 8 → unread d1 core
    (tileGranule d x (sb x.w 42 19)).toNat (ceilDiv (n * e) 64) = true)) ∧ extAccess d3 x win os .atomic true noCopy = .served
    as) ∧ (∃ (c : _) (s : State) (d d1 : Device) (core n e : Nat) (x : StepCtx) (os : List Int) (win : WindowRec) (d2 d3 code
    a : _), c ∈ [(Instr.atomAddInt32, 0), (Instr.atomAddFp32, 1), (Instr.atomAddBf16, 2), (Instr.atomMinInt32, 3),
    (Instr.atomMaxInt32, 4), (Instr.atomMinFp32, 5), (Instr.atomMaxFp32, 6), (Instr.atomMinBf16, 7), (Instr.atomMaxBf16, 8),
    (Instr.atomVectorReduceAddFp32, 9), (Instr.atomVectorReduceAddBf16, 10)] ∧ Runs s core 11 x d ∧ e = (if atomNarrow c.2
    then 2 else 4) ∧ n = sb x.w 18 7 + 1 ∧ (os = (List.range (n * e)).map (fun (i : Nat) => extOffset d x (sb x.w 79 52) (sb
    x.w 51 51) (sb x.w 50 43) 0 * (e : Int) + (i : Int))) ∧ stepWindow x (sb x.w 91 80) = win ∧ ReadsRows x d (tileGranule d x
    (sb x.w 42 19)) 1 (ceilDiv (n * e) 64) (n * e) d1 ∧ Walks x d1 win os d2 ∧ (memErrors (extTouched d2 x win os .atomic)
    x.fixed x.lost).run d2 = d3 ∧ sb x.w 95 92 = c.2 ∧ ((sb x.w 6 6 = 1 → c.2 ≤ 8 → unread d1 core (tileGranule d x (sb x.w 42
    19)).toNat (ceilDiv (n * e) 64) = true)) ∧ extAccess d3 x win os .atomic true noCopy = .fault code a) ∧ (∃ (c : _) (s :
    State) (d d1 : Device) (core n e : Nat) (x : StepCtx) (os : List Int) (win : WindowRec) (d2 d3 : _), c ∈
    [(Instr.atomAddInt32, 0), (Instr.atomAddFp32, 1), (Instr.atomAddBf16, 2), (Instr.atomMinInt32, 3), (Instr.atomMaxInt32,
    4), (Instr.atomMinFp32, 5), (Instr.atomMaxFp32, 6), (Instr.atomMinBf16, 7), (Instr.atomMaxBf16, 8),
    (Instr.atomVectorReduceAddFp32, 9), (Instr.atomVectorReduceAddBf16, 10)] ∧ Runs s core 11 x d ∧ e = (if atomNarrow c.2
    then 2 else 4) ∧ n = sb x.w 18 7 + 1 ∧ (os = (List.range (n * e)).map (fun (i : Nat) => extOffset d x (sb x.w 79 52) (sb
    x.w 51 51) (sb x.w 50 43) 0 * (e : Int) + (i : Int))) ∧ stepWindow x (sb x.w 91 80) = win ∧ ReadsRows x d (tileGranule d x
    (sb x.w 42 19)) 1 (ceilDiv (n * e) 64) (n * e) d1 ∧ Walks x d1 win os d2 ∧ (memErrors (extTouched d2 x win os .atomic)
    x.fixed x.lost).run d2 = d3 ∧ sb x.w 95 92 = c.2 ∧ ((sb x.w 6 6 = 1 → c.2 ≤ 8 → unread d1 core (tileGranule d x (sb x.w 42
    19)).toNat (ceilDiv (n * e) 64) = true)) ∧ extAccess d3 x win os .atomic true noCopy = .held) ∧ (∃ (c : _) (s : State) (d
    d1 : Device) (core n e : Nat) (x : StepCtx) (os : List Int) (win : WindowRec), c ∈ [(Instr.atomAddInt32, 0),
    (Instr.atomAddFp32, 1), (Instr.atomAddBf16, 2), (Instr.atomMinInt32, 3), (Instr.atomMaxInt32, 4), (Instr.atomMinFp32, 5),
    (Instr.atomMaxFp32, 6), (Instr.atomMinBf16, 7), (Instr.atomMaxBf16, 8), (Instr.atomVectorReduceAddFp32, 9),
    (Instr.atomVectorReduceAddBf16, 10)] ∧ Runs s core 11 x d ∧ e = (if atomNarrow c.2 then 2 else 4) ∧ n = sb x.w 18 7 + 1 ∧
    (os = (List.range (n * e)).map (fun (i : Nat) => extOffset d x (sb x.w 79 52) (sb x.w 51 51) (sb x.w 50 43) 0 * (e : Int)
    + (i : Int))) ∧ stepWindow x (sb x.w 91 80) = win ∧ ReadsRows x d (tileGranule d x (sb x.w 42 19)) 1 (ceilDiv (n * e) 64)
    (n * e) d1 ∧ sb x.w 95 92 = c.2 ∧ ((sb x.w 6 6 = 1 → c.2 ≤ 8 → unread d1 core (tileGranule d x (sb x.w 42 19)).toNat
    (ceilDiv (n * e) 64) = true)) ∧ agentHeld d1 (some x.part) (walkAddrs d1 x.part (stepPages d1 x win os)) = true) ∧ (∃ (c :
    _) (s : State) (d d1 : Device) (core n e : Nat) (x : StepCtx) (os : List Int) (win : WindowRec) (d2 : _), c ∈
    [(Instr.atomAddInt32, 0), (Instr.atomAddFp32, 1), (Instr.atomAddBf16, 2), (Instr.atomMinInt32, 3), (Instr.atomMaxInt32,
    4), (Instr.atomMinFp32, 5), (Instr.atomMaxFp32, 6), (Instr.atomMinBf16, 7), (Instr.atomMaxBf16, 8),
    (Instr.atomVectorReduceAddFp32, 9), (Instr.atomVectorReduceAddBf16, 10)] ∧ Runs s core 11 x d ∧ e = (if atomNarrow c.2
    then 2 else 4) ∧ n = sb x.w 18 7 + 1 ∧ (os = (List.range (n * e)).map (fun (i : Nat) => extOffset d x (sb x.w 79 52) (sb
    x.w 51 51) (sb x.w 50 43) 0 * (e : Int) + (i : Int))) ∧ stepWindow x (sb x.w 91 80) = win ∧ ReadsRows x d (tileGranule d x
    (sb x.w 42 19)) 1 (ceilDiv (n * e) 64) (n * e) d1 ∧ (memErrors (walkAddrs d1 x.part (stepPages d1 x win os)) x.fixed
    x.lost).run d1 = d2 ∧ sb x.w 95 92 = c.2 ∧ ((sb x.w 6 6 = 1 → c.2 ≤ 8 → unread d1 core (tileGranule d x (sb x.w 42
    19)).toNat (ceilDiv (n * e) 64) = true)) ∧ agentHeld d1 (some x.part) (walkAddrs d1 x.part (stepPages d1 x win os)) =
    false ∧ anyPoison d2 (walkAddrs d1 x.part (stepPages d1 x win os)) = true) ∧ (∃ (c : _) (s : State) (d d1 : Device) (core
    n e : Nat) (x : StepCtx) (os : List Int) (win : WindowRec) (code bad : _), c ∈ [(Instr.atomAddInt32, 0),
    (Instr.atomAddFp32, 1), (Instr.atomAddBf16, 2), (Instr.atomMinInt32, 3), (Instr.atomMaxInt32, 4), (Instr.atomMinFp32, 5),
    (Instr.atomMaxFp32, 6), (Instr.atomMinBf16, 7), (Instr.atomMaxBf16, 8), (Instr.atomVectorReduceAddFp32, 9),
    (Instr.atomVectorReduceAddBf16, 10)] ∧ Runs s core 11 x d ∧ e = (if atomNarrow c.2 then 2 else 4) ∧ n = sb x.w 18 7 + 1 ∧
    (os = (List.range (n * e)).map (fun (i : Nat) => extOffset d x (sb x.w 79 52) (sb x.w 51 51) (sb x.w 50 43) 0 * (e : Int)
    + (i : Int))) ∧ stepWindow x (sb x.w 91 80) = win ∧ BadWords x d (tileGranule d x (sb x.w 42 19)) (1 * ceilDiv (n * e) 64)
    (rowWords (ceilDiv (n * e) 64) (n * e)) code bad d1 ∧ sb x.w 95 92 = c.2) :=
  ⟨⟨(Instr.atomVectorReduceAddBf16, 10), runs (step' 11 (10 * 2 ^ 92)) [], _, _, 0, _, _, at0 (step' 11 (10 * 2 ^ 92)), _, _,
    _, _, dram 2, by simp, issues (by decide +kernel), rfl, rfl, rfl, rfl, reads (by decide +kernel), walks
    (by decide +kernel), rfl, by decide +kernel⟩, ⟨(Instr.atomAddInt32, 0), runs (step' 11 (2 ^ 80)) [], _, _, 0, _, _, at0
    (step' 11 (2 ^ 80)), _, _, _, _, 2, 0, by simp, issues (by decide +kernel), rfl, rfl, rfl, rfl, reads (by decide +kernel),
    walks (by decide +kernel), rfl, by decide +kernel⟩, ⟨(Instr.atomAddInt32, 0), runs (step' 11 0) [setF
    F.DRM_STACK_STATUS_state 0 3], _, _, 0, _, _, at0 (step' 11 0), _, _, _, _, by simp, issues (by decide +kernel), rfl, rfl,
    rfl, rfl, reads (by decide +kernel), walks (by decide +kernel), rfl, by decide +kernel⟩, ⟨(Instr.atomAddInt32, 0), runs
    (step' 11 0) [putRoutesStale true], _, _, 0, _, _, at0 (step' 11 0), _, _, by simp, issues (by decide +kernel), rfl, rfl,
    rfl, rfl, reads (by decide +kernel), by decide +kernel⟩, ⟨(Instr.atomAddInt32, 0), runs (step' 11 0) [putSlots 0 (some
    { fig (step' 11 0) with windows := [{ owner := 1, length := 64 }] }), putDrvMap 0 [{ length := 64, place := some 0 }],
    putPoison 0x1000000000 true], _, _, 0, _, _,
    { at0 (step' 11 0) with fig := { fig (step' 11 0) with windows := [{ owner := 1, length := 64 }] } }, _, _, _, by simp,
    issues (by decide +kernel), rfl, rfl, rfl, rfl, reads (by decide +kernel), rfl, by decide +kernel⟩, ⟨(Instr.atomAddInt32,
    0), runs (step' 11 0) [putTpoison 0 true], _, _, 0, _, _, at0 (step' 11 0), _, _, _, 0, by simp, issues
    (by decide +kernel), rfl, rfl, rfl, rfl, .inr ⟨by decide +kernel, rfl, rfl, by decide +kernel⟩, by decide +kernel⟩⟩

theorem witness_SequenceRings_0 : (∃ (s : State) (d : Device) (rq p v : Nat), Writes s rq .PRT_SEQ_DOORBELL p v 0 d ∧ p < 32 ∧
    serving d = true ∧ seqServed d p (v % 64) = true) ∧ (∃ (s : State) (d : Device) (rq p v : Nat), Writes s rq
    .PRT_SEQ_DOORBELL p v 0 d ∧ p < 32 ∧ serving d = true ∧ seqServed d p (v % 64) = false) :=
  ⟨⟨runs 0 [seqRing], _, 0, 0, 0, writes (by decide +kernel), by decide +kernel⟩, ⟨on live, _, 0, 31, 63, writes
    (by decide +kernel), by decide +kernel⟩⟩

theorem witness_SequenceRings_1 : ∃ (s : State) (d : Device) (rq p v : Nat), Writes s rq .PRT_SEQ_DOORBELL p v 0 d ∧ p < 32 ∧
    serving d = false :=
  ⟨on (setF F.PWR_STATE_state 0 4), _, 0, 0, 0, writes (by decide +kernel), by decide +kernel⟩

theorem witness_SequenceRings_2 : (∃ (s : State) (p ring : Nat), p < 32 ∧ ring < 64 ∧ serving s.dev = true ∧ seqServed s.dev p
    ring = true) ∧ (∃ (s : State) (p ring : Nat), p < 32 ∧ ring < 64 ∧ serving s.dev = true ∧ seqServed s.dev p ring = false)
    :=
  ⟨⟨runs 0 [seqRing], 0, 0, by decide +kernel⟩, ⟨on live, 31, 63, by decide +kernel⟩⟩

theorem witness_SequenceRings_3 : (∃ (s : State) (p ring die : Nat), seqTurn s.dev die (s.dev.rrAt (512 + die)) = [] ∧ p < 32
    ∧ ring < 64 ∧ serving s.dev = true ∧ seqServed s.dev p ring = false ∧ seqDie s.dev p = some die ∧ s.dev.seqServiceAt die =
    none) ∧ (∃ (s : State) (p ring die k : Nat) (ks : List Nat) (q : _), seqTurn s.dev die (s.dev.rrAt (512 + die)) = k :: ks
    ∧ p < 32 ∧ ring < 64 ∧ serving s.dev = true ∧ seqServed s.dev p ring = false ∧ seqDie s.dev p = some die ∧
    s.dev.seqServiceAt die = none ∧ seqRequest s.dev (k / 64) (k % 64) = some q ∧ seqMalformed s.dev q = true) ∧ (∃ (s :
    State) (p ring die k : Nat) (ks : List Nat) (q : _), seqTurn s.dev die (s.dev.rrAt (512 + die)) = k :: ks ∧ p < 32 ∧ ring
    < 64 ∧ serving s.dev = true ∧ seqServed s.dev p ring = false ∧ seqDie s.dev p = some die ∧ s.dev.seqServiceAt die = none ∧
    seqRequest s.dev (k / 64) (k % 64) = some q ∧ seqMalformed s.dev q = false) :=
  ⟨⟨on (part 0), 0, 63, 0, seqTurn_of (by decide +kernel), by decide +kernel⟩, ⟨request (req 7 0) [putSeqService 0 none,
    putSeqTails 0 (some 1)], 0, 63, 0, 0, [], req 7 0, seqTurn_of (by decide +kernel), by decide +kernel⟩, ⟨request (req 1 1)
    [putSeqService 0 none, putSeqTails 0 (some 1)], 0, 63, 0, 0, [], req 1 1, seqTurn_of (by decide +kernel),
    by decide +kernel⟩⟩

theorem witness_SequenceRings_4 : ∃ (s : State) (d : Device) (rq p ring v : Nat), Writes s rq .PRT_SEQ_RING_BASE (p * 64 +
    ring) v 0 d ∧ p < 32 ∧ ring < 64 :=
  ⟨on live, _, 0, 31, 63, 0, writes (by decide +kernel), by decide +kernel⟩

theorem witness_SequenceRequests_0 : (∃ (s : State) (die : Nat) (q : SeqReq) (ts is clash : _), Serves s die 1 q ∧ tokensAt
    s.dev q.ctx q.a0 (bits q.imm 12 0) = some ts ∧ walk s.dev q.part (seqScope s.dev q) none (tokenBlocks 64 ts) = (is, clash)
    ∧ (translateRange s.dev q.ctx q.a1 .write (16 * is.length)).isSome = true ∧ ((bit q.flags 0 = 1 → refsFit s.dev q.part
    q.ring is = true))) ∧ (∃ (s : State) (die : Nat) (q : SeqReq) (ts is clash : _), Serves s die 1 q ∧ tokensAt s.dev q.ctx
    q.a0 (bits q.imm 12 0) = some ts ∧ walk s.dev q.part (seqScope s.dev q) none (tokenBlocks 64 ts) = (is, clash) ∧
    translateRange s.dev q.ctx q.a1 .write (16 * is.length) = none) ∧ (∃ (s : State) (die : Nat) (q : SeqReq) (ts is clash :
    _), Serves s die 1 q ∧ tokensAt s.dev q.ctx q.a0 (bits q.imm 12 0) = some ts ∧ walk s.dev q.part (seqScope s.dev q) none
    (tokenBlocks 64 ts) = (is, clash) ∧ (translateRange s.dev q.ctx q.a1 .write (16 * is.length)).isSome = true ∧ bit q.flags
    0 = 1 ∧ refsFit s.dev q.part q.ring is = false) ∧ (∃ (s : State) (die : Nat) (q : SeqReq), Serves s die 1 q ∧ tokensAt
    s.dev q.ctx q.a0 (bits q.imm 12 0) = none) :=
  ⟨⟨request (req 1 1) [], 0, (req 1 1), [0], [], false, serves (by decide +kernel), by decide +kernel⟩, ⟨request
    { req 1 1 with a1 := 0x20000000 } [tree [node]], 0, { req 1 1 with a1 := 0x20000000 }, [0], [0], false, serves
    (by decide +kernel), by decide +kernel⟩, ⟨request { req 1 1 with flags := 1 } [tree [{ node with refs := 65535 }]], 0,
    { req 1 1 with flags := 1 }, [0], [0], false, serves (by decide +kernel), by decide +kernel⟩, ⟨request
    { req 1 4096 with a0 := 0x20000000 } [], 0, { req 1 4096 with a0 := 0x20000000 }, serves (by decide +kernel),
    by decide +kernel⟩⟩

theorem witness_SequenceRequests_1 : (∃ (s : State) (die scope : Nat) (q : SeqReq) (parent : Option Nat), Serves s die 2 q ∧
    scope = seqScope s.dev q ∧ parent = (if bit q.imm 23 = 1 then none else some (bits q.imm 15 0)) ∧ tokensAt s.dev q.ctx
    q.a0 (bits q.imm 22 16) = none) ∧ (∃ (s : State) (die scope : Nat) (q : SeqReq) (parent : Option Nat) (ts : _), Serves s
    die 2 q ∧ scope = seqScope s.dev q ∧ parent = (if bit q.imm 23 = 1 then none else some (bits q.imm 15 0)) ∧ tokensAt s.dev
    q.ctx q.a0 (bits q.imm 22 16) = some ts ∧ treeReady s.dev q.part = false) ∧ (∃ (s : State) (die scope : Nat) (q : SeqReq)
    (parent : Option Nat) (ts i : _), Serves s die 2 q ∧ scope = seqScope s.dev q ∧ parent = (if bit q.imm 23 = 1 then none
    else some (bits q.imm 15 0)) ∧ tokensAt s.dev q.ctx q.a0 (bits q.imm 22 16) = some ts ∧ treeReady s.dev q.part = true ∧
    parent = some i ∧ ((s.dev.pfxRefsAt (refKey q.part q.ring i) = 0 ∨ (treeNode s.dev q.part i).map (·.scope) ≠ some scope)))
    ∧ (∃ (s : State) (die scope : Nat) (q : SeqReq) (parent : Option Nat) (ts i : _), Serves s die 2 q ∧ ((∀ i, parent = some
    i → s.dev.pfxRefsAt (refKey q.part q.ring i) ≠ 0 ∧ (treeNode s.dev q.part i).map (·.scope) = some scope)) ∧ scope =
    seqScope s.dev q ∧ parent = (if bit q.imm 23 = 1 then none else some (bits q.imm 15 0)) ∧ tokensAt s.dev q.ctx q.a0 (bits
    q.imm 22 16) = some ts ∧ treeReady s.dev q.part = true ∧ matching s.dev q.part scope parent ts = some i ∧ ((bit q.flags 0
    = 1 → refsFit s.dev q.part q.ring [i] = true))) ∧ (∃ (s : State) (die scope : Nat) (q : SeqReq) (parent : Option Nat) (ts
    i : _), Serves s die 2 q ∧ ((∀ i, parent = some i → s.dev.pfxRefsAt (refKey q.part q.ring i) ≠ 0 ∧ (treeNode s.dev q.part
    i).map (·.scope) = some scope)) ∧ scope = seqScope s.dev q ∧ parent = (if bit q.imm 23 = 1 then none else some (bits q.imm
    15 0)) ∧ tokensAt s.dev q.ctx q.a0 (bits q.imm 22 16) = some ts ∧ treeReady s.dev q.part = true ∧ matching s.dev q.part
    scope parent ts = some i ∧ bit q.flags 0 = 1 ∧ refsFit s.dev q.part q.ring [i] = false) ∧ (∃ (s : State) (die scope : Nat)
    (q : SeqReq) (parent : Option Nat) (ts : _), Serves s die 2 q ∧ ((∀ i, parent = some i → s.dev.pfxRefsAt (refKey q.part
    q.ring i) ≠ 0 ∧ (treeNode s.dev q.part i).map (·.scope) = some scope)) ∧ scope = seqScope s.dev q ∧ parent = (if bit q.imm
    23 = 1 then none else some (bits q.imm 15 0)) ∧ tokensAt s.dev q.ctx q.a0 (bits q.imm 22 16) = some ts ∧ treeReady s.dev
    q.part = true ∧ matching s.dev q.part scope parent ts = none ∧ collides s.dev q.part scope parent ts = true) ∧ (∃ (s :
    State) (die scope : Nat) (q : SeqReq) (parent : Option Nat) (ts : _), Serves s die 2 q ∧ ((∀ i, parent = some i →
    s.dev.pfxRefsAt (refKey q.part q.ring i) ≠ 0 ∧ (treeNode s.dev q.part i).map (·.scope) = some scope)) ∧ 4096 ≤ (ringRefs
    s.dev q.part q.ring).length ∧ scope = seqScope s.dev q ∧ parent = (if bit q.imm 23 = 1 then none else some (bits q.imm 15
    0)) ∧ tokensAt s.dev q.ctx q.a0 (bits q.imm 22 16) = some ts ∧ treeReady s.dev q.part = true ∧ matching s.dev q.part scope
    parent ts = none ∧ collides s.dev q.part scope parent ts = false ∧ bit q.flags 0 = 1) ∧ (∃ (s : State) (die scope : Nat)
    (q : SeqReq) (parent : Option Nat) (ts : _) (n : PfxNode) (room bucket : Bool) (sel : PfxNode → Bool) (full : Nat), Serves
    s die 2 q ∧ ((∀ i, parent = some i → s.dev.pfxRefsAt (refKey q.part q.ring i) ≠ 0 ∧ (treeNode s.dev q.part i).map
    (·.scope) = some scope)) ∧ n = {
    hash := blockHash (s.dev.pfxKeysAt q.part) scope ((parent.bind (treeNode s.dev q.part)).map (·.hash) |>.getD 0) ts, parent
    := parent, scope := scope, tokens := ts, kvAddr := q.a1, kvBytes := q.a2, lastUse := q.serial } ∧ (sel = (if bucket then
    fun m => bucketIndex m.hash == bucketIndex n.hash else fun _ => true)) ∧ scope = seqScope s.dev q ∧ parent = (if bit q.imm
    23 = 1 then none else some (bits q.imm 15 0)) ∧ tokensAt s.dev q.ctx q.a0 (bits q.imm 22 16) = some ts ∧ treeReady s.dev
    q.part = true ∧ matching s.dev q.part scope parent ts = none ∧ collides s.dev q.part scope parent ts = false ∧ ((bit
    q.flags 0 = 1 → (ringRefs s.dev q.part q.ring).length < 4096)) ∧ (bucket = decide (8 ≤ ((treeNodes s.dev q.part).filter
    fun m => bucketIndex m.2.hash == bucketIndex n.hash).length)) ∧ room = (!bucket && decide ((treeNodes s.dev q.part).length
    < 65536)) ∧ full = (if bucket then 4 else 3) ∧ room = true) ∧ (∃ (s : State) (die scope : Nat) (q : SeqReq) (parent :
    Option Nat) (ts : _) (n : PfxNode) (room bucket : Bool) (sel : PfxNode → Bool) (full : Nat), Serves s die 2 q ∧ ((∀ i,
    parent = some i → s.dev.pfxRefsAt (refKey q.part q.ring i) ≠ 0 ∧ (treeNode s.dev q.part i).map (·.scope) = some scope)) ∧
    (bucket = decide (8 ≤ ((treeNodes s.dev q.part).filter fun m => bucketIndex m.2.hash == bucketIndex n.hash).length)) ∧
    (sel = (if bucket then fun m => bucketIndex m.hash == bucketIndex n.hash else fun _ => true)) ∧ scope = seqScope s.dev q ∧
    parent = (if bit q.imm 23 = 1 then none else some (bits q.imm 15 0)) ∧ tokensAt s.dev q.ctx q.a0 (bits q.imm 22 16) = some
    ts ∧ treeReady s.dev q.part = true ∧ matching s.dev q.part scope parent ts = none ∧ collides s.dev q.part scope parent ts
    = false ∧ ((bit q.flags 0 = 1 → (ringRefs s.dev q.part q.ring).length < 4096)) ∧ n = {
    hash := blockHash (s.dev.pfxKeysAt q.part) scope ((parent.bind (treeNode s.dev q.part)).map (·.hash) |>.getD 0) ts, parent
    := parent, scope := scope, tokens := ts, kvAddr := q.a1, kvBytes := q.a2, lastUse := q.serial } ∧ room = (!bucket &&
    decide ((treeNodes s.dev q.part).length < 65536)) ∧ full = (if bucket then 4 else 3) ∧ room = false ∧ oldest s.dev q.part
    sel = []) ∧ (∃ (s : State) (die scope : Nat) (q : SeqReq) (parent : Option Nat) (ts : _) (n : PfxNode) (room bucket :
    Bool) (sel : PfxNode → Bool) (full : Nat), Serves s die 2 q ∧ ((∀ i, parent = some i → s.dev.pfxRefsAt (refKey q.part
    q.ring i) ≠ 0 ∧ (treeNode s.dev q.part i).map (·.scope) = some scope)) ∧ (bucket = decide (8 ≤ ((treeNodes s.dev
    q.part).filter fun m => bucketIndex m.2.hash == bucketIndex n.hash).length)) ∧ (sel = (if bucket then fun m => bucketIndex
    m.hash == bucketIndex n.hash else fun _ => true)) ∧ oldest s.dev q.part sel ≠ [] ∧ scope = seqScope s.dev q ∧ parent = (if
    bit q.imm 23 = 1 then none else some (bits q.imm 15 0)) ∧ tokensAt s.dev q.ctx q.a0 (bits q.imm 22 16) = some ts ∧
    treeReady s.dev q.part = true ∧ matching s.dev q.part scope parent ts = none ∧ collides s.dev q.part scope parent ts =
    false ∧ ((bit q.flags 0 = 1 → (ringRefs s.dev q.part q.ring).length < 4096)) ∧ n = {
    hash := blockHash (s.dev.pfxKeysAt q.part) scope ((parent.bind (treeNode s.dev q.part)).map (·.hash) |>.getD 0) ts, parent
    := parent, scope := scope, tokens := ts, kvAddr := q.a1, kvBytes := q.a2, lastUse := q.serial } ∧ room = (!bucket &&
    decide ((treeNodes s.dev q.part).length < 65536)) ∧ full = (if bucket then 4 else 3) ∧ room = false ∧ logRoom s.dev q.part
    = true) ∧ (∃ (s : State) (die scope : Nat) (q : SeqReq) (parent : Option Nat) (ts : _) (n : PfxNode) (room bucket : Bool)
    (sel : PfxNode → Bool) (full : Nat), Serves s die 2 q ∧ ((∀ i, parent = some i → s.dev.pfxRefsAt (refKey q.part q.ring i)
    ≠ 0 ∧ (treeNode s.dev q.part i).map (·.scope) = some scope)) ∧ (bucket = decide (8 ≤ ((treeNodes s.dev q.part).filter fun
    m => bucketIndex m.2.hash == bucketIndex n.hash).length)) ∧ (sel = (if bucket then fun m => bucketIndex m.hash ==
    bucketIndex n.hash else fun _ => true)) ∧ oldest s.dev q.part sel ≠ [] ∧ scope = seqScope s.dev q ∧ parent = (if bit q.imm
    23 = 1 then none else some (bits q.imm 15 0)) ∧ tokensAt s.dev q.ctx q.a0 (bits q.imm 22 16) = some ts ∧ treeReady s.dev
    q.part = true ∧ matching s.dev q.part scope parent ts = none ∧ collides s.dev q.part scope parent ts = false ∧ ((bit
    q.flags 0 = 1 → (ringRefs s.dev q.part q.ring).length < 4096)) ∧ n = {
    hash := blockHash (s.dev.pfxKeysAt q.part) scope ((parent.bind (treeNode s.dev q.part)).map (·.hash) |>.getD 0) ts, parent
    := parent, scope := scope, tokens := ts, kvAddr := q.a1, kvBytes := q.a2, lastUse := q.serial } ∧ room = (!bucket &&
    decide ((treeNodes s.dev q.part).length < 65536)) ∧ full = (if bucket then 4 else 3) ∧ room = false ∧ logRoom s.dev q.part
    = false) :=
  ⟨⟨request { req 2 0xC00000 with a0 := 0x20000000 } [], 0, _, { req 2 0xC00000 with a0 := 0x20000000 }, none, serves
    (by decide +kernel), rfl, by decide +kernel⟩, ⟨request (req 2 0x810000) [], 0, _, (req 2 0x810000), none, [0], serves
    (by decide +kernel), rfl, by decide +kernel⟩, ⟨request (req 2 0x10005) [tree []], 0, _, (req 2 0x10005), some 5, [0], 5,
    serves (by decide +kernel), rfl, by decide +kernel⟩, ⟨request (req 2 0x810000) [tree [node]], 0, 0, (req 2 0x810000),
    none, [0], 0, serves (by decide +kernel), (fun _ h => nomatch h), by decide +kernel⟩, ⟨request
    { req 2 0x810000 with flags := 1 } [tree [{ node with refs := 65535 }]], 0, 0, { req 2 0x810000 with flags := 1 }, none,
    [0], 0, serves (by decide +kernel), (fun _ h => nomatch h), by decide +kernel⟩, ⟨request (req 2 0x810000) [tree
    [{ node with tokens := [1] }]], 0, 0, (req 2 0x810000), none, [0], serves (by decide +kernel), (fun _ h => nomatch h),
    by decide +kernel⟩, ⟨crowded { req 2 0x810000 with flags := 1 }, 0, 0, { req 2 0x810000 with flags := 1 }, none, [0],
    serves (by decide +kernel), (fun _ h => nomatch h), crowded_refs _, by decide +kernel⟩, ⟨request (req 2 0x810000) [tree
    []], 0, 0, (req 2 0x810000), none, [0], _, true, false, _, 3, serves (by decide +kernel), (fun _ h => nomatch h), rfl,
    rfl, by decide +kernel⟩, ⟨full8 1 [], 0, 0, req 2 0x810000, none, [0], { node with lastUse := 0 }, false, true, _, 4,
    serves (by decide +kernel), (fun _ h => nomatch h), full8_nodes 1 [] (by decide +kernel), rfl, by decide +kernel⟩, ⟨full8
    0 [setF F.PRT_PFX_EVLOG_enable 0 1], 0, 0, req 2 0x810000, none, [0], { node with lastUse := 0 }, false, true, _, 4,
    serves (by decide +kernel), (fun _ h => nomatch h), full8_nodes 0 [setF F.PRT_PFX_EVLOG_enable 0 1] (by decide +kernel),
    rfl, full8_oldest [setF F.PRT_PFX_EVLOG_enable 0 1] (by decide +kernel), by decide +kernel⟩, ⟨full8 0 [], 0, 0, req 2
    0x810000, none, [0], { node with lastUse := 0 }, false, true, _, 4, serves (by decide +kernel), (fun _ h => nomatch h),
    full8_nodes 0 [] (by decide +kernel), rfl, full8_oldest [] (by decide +kernel), by decide +kernel⟩⟩

theorem witness_SequenceRequests_2 : (∃ (s : State) (die : Nat) (q : SeqReq), Serves s die 3 q ∧ translateRange s.dev q.ctx
    q.a0 .read (2 * q.count) = none) ∧ (∃ (s : State) (die : Nat) (q : SeqReq) (as is : _), Serves s die 3 q ∧ translateRange
    s.dev q.ctx q.a0 .read (2 * q.count) = some as ∧ (is = (List.range q.count).map (fun i => fromLE (((s.dev.bytesAt as).drop
    (2 * i)).take 2))) ∧ ((∀ i ∈ is, (is.filter (· == i)).length ≤ s.dev.pfxRefsAt (refKey q.part q.ring i))) ∧ ((∀ i ∈ is,
    (treeNode s.dev q.part i).map (·.scope) = some (seqScope s.dev q)))) ∧ (∃ (s : State) (die : Nat) (q : SeqReq) (as is i :
    _), Serves s die 3 q ∧ translateRange s.dev q.ctx q.a0 .read (2 * q.count) = some as ∧ (is = (List.range q.count).map (fun
    i => fromLE (((s.dev.bytesAt as).drop (2 * i)).take 2))) ∧ i ∈ is ∧ s.dev.pfxRefsAt (refKey q.part q.ring i) < (is.filter
    (· == i)).length) ∧ (∃ (s : State) (die : Nat) (q : SeqReq) (as is i : _), Serves s die 3 q ∧ translateRange s.dev q.ctx
    q.a0 .read (2 * q.count) = some as ∧ (is = (List.range q.count).map (fun i => fromLE (((s.dev.bytesAt as).drop (2 *
    i)).take 2))) ∧ ((∀ i ∈ is, (is.filter (· == i)).length ≤ s.dev.pfxRefsAt (refKey q.part q.ring i))) ∧ i ∈ is ∧ (treeNode
    s.dev q.part i).map (·.scope) ≠ some (seqScope s.dev q)) :=
  ⟨⟨request { req 3 0 with count := 64, a0 := 0x20000000 } [], 0, { req 3 0 with count := 64, a0 := 0x20000000 }, serves
    (by decide +kernel), by decide +kernel⟩, ⟨request { req 3 0 with count := 1 } [tree [node], putPfxRefs (refKey 0 0 0) 1],
    0, { req 3 0 with count := 1 }, dram 2, [0], serves (by decide +kernel), by decide +kernel⟩, ⟨request
    { req 3 0 with count := 1 } [], 0, { req 3 0 with count := 1 }, dram 2, [0], 0, serves (by decide +kernel),
    by decide +kernel⟩, ⟨request { req 3 0 with count := 1 } [putPfxRefs (refKey 0 0 0) 1], 0, { req 3 0 with count := 1 },
    dram 2, [0], 0, serves (by decide +kernel), by decide +kernel⟩⟩

theorem witness_SequenceRequests_3 : (∃ (s : State) (die : Nat) (q : SeqReq) (n : _), Serves s die 5 q ∧ treeNode s.dev q.part
    (bits q.imm 15 0) = some n ∧ n.scope = seqScope s.dev q ∧ (translateRange s.dev q.ctx q.a0 .write 64).isSome = true) ∧ (∃
    (s : State) (die : Nat) (q : SeqReq) (n : _), Serves s die 5 q ∧ treeNode s.dev q.part (bits q.imm 15 0) = some n ∧
    n.scope = seqScope s.dev q ∧ translateRange s.dev q.ctx q.a0 .write 64 = none) ∧ (∃ (s : State) (die : Nat) (q : SeqReq),
    Serves s die 5 q ∧ ((∀ n, treeNode s.dev q.part (bits q.imm 15 0) = some n → n.scope ≠ seqScope s.dev q))) :=
  ⟨⟨request (req 5 0) [tree [node]], 0, (req 5 0), node, serves (by decide +kernel), by decide +kernel⟩, ⟨request
    { req 5 0 with a0 := 0x20000000 } [tree [node]], 0, { req 5 0 with a0 := 0x20000000 }, node, serves (by decide +kernel),
    by decide +kernel⟩, ⟨request (req 5 65535) [], 0, (req 5 65535), serves (by decide +kernel), (fun _ h => nomatch
    (h.symm.trans (by decide +kernel : _ = none) : some _ = none))⟩⟩

theorem witness_SequenceRequests_4 : ∃ (s : State) (die : Nat) (q : SeqReq), Serves s die 6 q :=
  ⟨request (req 6 0) [], 0, (req 6 0), serves (by decide +kernel)⟩

theorem witness_SequenceRequests_5 : (∃ (s : State) (die row rule : Nat) (q : SeqReq) (cand pas qas ras was a : _), Serves s
    die 4 q ∧ a = acceptedCount rule (s.dev.reg .CTX_SEED q.ctx ^^^ 1) q.a3 cand (probRow s.dev pas q.vocab) (probRow s.dev
    qas q.vocab) ∧ bit q.imm 63 = rule ∧ row = bits q.imm 55 0 ∧ tokensAt s.dev q.ctx q.a0 q.count = some cand ∧
    translateRange s.dev q.ctx q.a1 .read ((q.count + 1) * q.vocab * 4) = some pas ∧ (if rule = 1 then translateRange s.dev
    q.ctx q.a2 .read (q.count * q.vocab * 4) = some qas else qas = []) ∧ translateRange s.dev q.ctx row .read 16 = some ras ∧
    translateRange s.dev q.ctx row .write 16 = some was ∧ ((∀ c ∈ cand, c < q.vocab)) ∧ ((∀ i < q.count + 1, (probRow s.dev
    pas q.vocab i).any badProb = false)) ∧ ((rule = 1 → ∀ i < q.count, (probRow s.dev qas q.vocab i).any badProb = false))) ∧
    (∃ (s : State) (die row rule : Nat) (q : SeqReq) (cand pas qas ras was c : _), Serves s die 4 q ∧ bit q.imm 63 = rule ∧
    row = bits q.imm 55 0 ∧ tokensAt s.dev q.ctx q.a0 q.count = some cand ∧ translateRange s.dev q.ctx q.a1 .read ((q.count +
    1) * q.vocab * 4) = some pas ∧ (if rule = 1 then translateRange s.dev q.ctx q.a2 .read (q.count * q.vocab * 4) = some qas
    else qas = []) ∧ translateRange s.dev q.ctx row .read 16 = some ras ∧ translateRange s.dev q.ctx row .write 16 = some was
    ∧ c ∈ cand ∧ q.vocab ≤ c) ∧ (∃ (s : State) (die row rule : Nat) (q : SeqReq) (cand pas qas ras was i : _), Serves s die 4
    q ∧ bit q.imm 63 = rule ∧ row = bits q.imm 55 0 ∧ tokensAt s.dev q.ctx q.a0 q.count = some cand ∧ translateRange s.dev
    q.ctx q.a1 .read ((q.count + 1) * q.vocab * 4) = some pas ∧ (if rule = 1 then translateRange s.dev q.ctx q.a2 .read
    (q.count * q.vocab * 4) = some qas else qas = []) ∧ translateRange s.dev q.ctx row .read 16 = some ras ∧ translateRange
    s.dev q.ctx row .write 16 = some was ∧ ((∀ c ∈ cand, c < q.vocab)) ∧ (((i < q.count + 1 ∧ (probRow s.dev pas q.vocab
    i).any badProb = true) ∨ (rule = 1 ∧ i < q.count ∧ (probRow s.dev qas q.vocab i).any badProb = true)))) ∧ (∃ (s : State)
    (die row rule : Nat) (q : SeqReq), Serves s die 4 q ∧ bit q.imm 63 = rule ∧ row = bits q.imm 55 0 ∧ (tokensAt s.dev q.ctx
    q.a0 q.count = none ∨ translateRange s.dev q.ctx q.a1 .read ((q.count + 1) * q.vocab * 4) = none ∨ (rule = 1 ∧
    translateRange s.dev q.ctx q.a2 .read (q.count * q.vocab * 4) = none) ∨ translateRange s.dev q.ctx row .read 16 = none ∨
    translateRange s.dev q.ctx row .write 16 = none)) :=
  ⟨⟨request { req 4 0 with count := 1, vocab := 2 } [], 0, 0, 0, { req 4 0 with count := 1, vocab := 2 }, [0], dram 16, [],
    dram 16, dram 16, _, serves (by decide +kernel), rfl, by decide +kernel⟩, ⟨request
    { req 4 0 with count := 1, vocab := 2, a0 := 0x100 } [putMem 0x1000000100 5], 0, 0, 0,
    { req 4 0 with count := 1, vocab := 2, a0 := 0x100 }, [5], dram 16, [], dram 16, dram 16, 5, serves (by decide +kernel),
    by decide +kernel⟩, ⟨request { req 4 0 with count := 1, vocab := 2, a1 := 0x100 } [wrBytes 0x1000000100 [0, 0, 0xC0,
    0xFF]], 0, 0, 0, { req 4 0 with count := 1, vocab := 2, a1 := 0x100 }, [0], (dram 272).drop 256, [], dram 16, dram 16, 0,
    serves (by decide +kernel), by decide +kernel⟩, ⟨request { req 4 0 with count := 16, vocab := 2, a0 := 0x20000000 } [], 0,
    0, 0, { req 4 0 with count := 16, vocab := 2, a0 := 0x20000000 }, serves (by decide +kernel), by decide +kernel⟩⟩

theorem witness_SequenceRequests_6 : (∃ (c : _) (s : State) (die : Nat) (q : _), c ∈ [(Instr.lookup, 1), (Instr.insert, 2),
    (Instr.release, 3), (Instr.verify, 4), (Instr.nodeRead, 5), (Instr.flushScope, 6)] ∧ die < 16 ∧ working s.dev = true ∧
    ((s.dev.seqServiceAt die).bind (fun k => seqRequest s.dev (k / 64) (k % 64)) = some q) ∧ seqMalformed s.dev q = true) ∧ (∃
    (c : _) (s : State) (die : Nat) (q : _), c ∈ [(Instr.lookup, 1), (Instr.insert, 2), (Instr.release, 3), (Instr.verify, 4),
    (Instr.nodeRead, 5), (Instr.flushScope, 6)] ∧ die < 16 ∧ working s.dev = true ∧ ((s.dev.seqServiceAt die).bind (fun k =>
    seqRequest s.dev (k / 64) (k % 64)) = some q) ∧ seqMalformed s.dev q = false ∧ q.op ≠ c.2) ∧ (∃ (c : _) (s : State) (die :
    Nat) (q : _), c ∈ [(Instr.lookup, 1), (Instr.insert, 2), (Instr.release, 3), (Instr.verify, 4), (Instr.nodeRead, 5),
    (Instr.flushScope, 6)] ∧ die < 16 ∧ working s.dev = true ∧ ((s.dev.seqServiceAt die).bind (fun k => seqRequest s.dev (k /
    64) (k % 64)) = some q) ∧ seqMalformed s.dev q = false ∧ q.op = c.2 ∧ treeLost s.dev q.part = true) ∧ (∃ (c : _) (s :
    State) (die : Nat), c ∈ [(Instr.lookup, 1), (Instr.insert, 2), (Instr.release, 3), (Instr.verify, 4), (Instr.nodeRead, 5),
    (Instr.flushScope, 6)] ∧ die < 16 ∧ working s.dev = true ∧ ((s.dev.seqServiceAt die).bind (fun k => seqRequest s.dev (k /
    64) (k % 64)) = none)) :=
  ⟨⟨(Instr.lookup, 1), request (req 7 0) [], 0, (req 7 0), by simp, by decide +kernel⟩, ⟨(Instr.lookup, 1), request (req 6 0)
    [], 0, (req 6 0), by simp, by decide +kernel⟩, ⟨(Instr.lookup, 1), request (req 1 1) [putPfxLost 0 true], 0, (req 1 1), by
    simp, by decide +kernel⟩, ⟨(Instr.lookup, 1), on live, 15, by simp, by decide +kernel⟩⟩

theorem witness_PrefixTreeControl_0 : ∃ (s : State) (d : Device) (rq p v on base : Nat), Writes s rq .PRT_PFX_BASE p v 0 d ∧
    ((beforeAccess rq).run s.dev).fld F.PRT_PFX_BASE_enable p = on ∧ ((beforeAccess rq).run s.dev).fld F.PRT_PFX_BASE_base p =
    base ∧ p < 32 :=
  ⟨on live, _, 0, 31, 1, _, _, writes (by decide +kernel), rfl, rfl, by decide +kernel⟩

theorem witness_PrefixTreeControl_1 : ∃ (s : State) (d : Device) (rq p : Nat), Writes s rq .PRT_PFX_CTRL p (2 ^ 31) 31 d ∧ p <
    32 :=
  ⟨on live, _, 0, 31, writes (by decide +kernel), by decide +kernel⟩

theorem witness_PrefixTreeControl_2 : ∃ (s : State) (d : Device) (rq p : Nat), Writes s rq .PRT_PFX_CTRL p (2 ^ 30) 30 d ∧ p <
    32 ∧ logRoom d p = false :=
  ⟨on live, _, 0, 31, writes (by decide +kernel), by decide +kernel⟩

theorem witness_PrefixTreeControl_3 : (∃ (s : State) (d : Device) (rq p ring : Nat), Asks s rq d ∧ p < 32 ∧ ring < 64 ∧ bit
    (mayWrite d rq .PRT_PFX_BASE p) 0 = 0) ∧ (∃ (s : State) (d : Device) (rq p ring : Nat), Asks s rq d ∧ p < 32 ∧ ring < 64 ∧
    bit (mayWrite d rq .PRT_PFX_CTRL p) 31 = 0) ∧ (∃ (s : State) (d : Device) (rq p ring : Nat), Asks s rq d ∧ p < 32 ∧ ring <
    64 ∧ bit (mayWrite d rq .PRT_PFX_CTRL p) 30 = 0) ∧ (∃ (s : State) (d : Device) (rq p ring : Nat), Asks s rq d ∧ p < 32 ∧
    ring < 64 ∧ bit (mayWrite d rq .PRT_SEQ_DOORBELL p) 0 = 0) ∧ (∃ (s : State) (d : Device) (rq p ring : Nat), Asks s rq d ∧
    p < 32 ∧ ring < 64 ∧ bit (mayWrite d rq .PRT_SEQ_RING_BASE (p * 64 + ring)) 0 = 0) :=
  ⟨⟨on live, _, 3, 31, 63, asks (by decide +kernel), by decide +kernel⟩, ⟨on live, _, 3, 31, 63, asks (by decide +kernel),
    by decide +kernel⟩, ⟨on live, _, 3, 31, 63, asks (by decide +kernel), by decide +kernel⟩, ⟨on live, _, 3, 31, 63, asks
    (by decide +kernel), by decide +kernel⟩, ⟨on live, _, 3, 31, 63, asks (by decide +kernel), by decide +kernel⟩⟩

theorem witness_FloorWays_0 : ∃ (s : State) (d : Device) (rq site v : Nat) (changed : List Nat), Asks s rq d ∧ (changed =
    (waysOf d rq site).filter (fun w => bit (d.fld F.FLR_WAYMAP_mode site) w != bit v w)) ∧ site < 17 ∧ (isSteward rq ||
    !siteGone d .FLR_WAYMAP site) = true ∧ mayWrite d rq .FLR_WAYMAP site ≠ 0 :=
  ⟨on live, _, 0, 16, 0xFFFF, _, asks (by decide +kernel), rfl, by decide +kernel⟩

theorem witness_FloorWays_1 : ∃ (s : State) (d : Device) (rq site i v : Nat), Writes s rq .FLR_WAYOWN (site * 4 + i) (v &&&
    0x9F9F9F9F) 0 d ∧ site < 17 ∧ i < 4 ∧ (isSteward rq || !siteGone ((beforeAccess rq).run s.dev) .FLR_WAYMAP site) = true :=
  ⟨on live, _, 0, 16, 3, 1, writes (by decide +kernel), by decide +kernel⟩

theorem witness_FloorWays_2 : (∃ (s : State) (site way : Nat), site < 17 ∧ way < 16 ∧ powered s.dev = true ∧ wayBusy s.dev
    site way = true) ∧ (∃ (s : State) (site way : Nat), site < 17 ∧ way < 16 ∧ powered s.dev = true ∧ wayBusy s.dev site way =
    false) :=
  ⟨⟨with' [setF F.FLR_WAYMAP_busy 0 0x8000], 0, 15, by decide +kernel⟩, ⟨on live, 16, 15, by decide +kernel⟩⟩

theorem witness_FloorWays_3 : (∃ (s : State) (d : Device) (rq site i : Nat), Asks s rq d ∧ site < 17 ∧ i < 4 ∧ (isSteward rq
    || !siteGone d .FLR_WAYMAP site) = true ∧ mayWrite d rq .FLR_WAYMAP site = 0) ∧ (∃ (s : State) (d : Device) (rq site i :
    Nat), Asks s rq d ∧ site < 17 ∧ i < 4 ∧ (isSteward rq || !siteGone d .FLR_WAYMAP site) = true ∧ bit (mayWrite d rq
    .FLR_WAYOWN (site * 4 + i)) 0 = 0) ∧ (∃ (s : State) (d : Device) (rq site i : Nat), Asks s rq d ∧ site < 17 ∧ i < 4 ∧
    (isSteward rq || !siteGone d .FLR_WAYMAP site) = false) :=
  ⟨⟨on live, _, 3, 15, 3, asks (by decide +kernel), by decide +kernel⟩, ⟨on live, _, 3, 15, 3, asks (by decide +kernel),
    by decide +kernel⟩, ⟨on live, _, 3, 16, 3, asks (by decide +kernel), by decide +kernel⟩⟩

theorem witness_DramTraining_0 : (∃ (s : State) (d : Device) (rq stack v : Nat) (named : _), Writes s rq .DRM_TRAIN stack v 31
    d ∧ (named = (List.range 32).filter (fun c => bit (d.fld F.DRM_TRAIN_MASK_mask stack) c == 1)) ∧ stack < 16 ∧ bit v 31 = 1
    ∧ d.fld F.DRM_TRAIN_busy stack = 0) ∧ (∃ (s : State) (d : Device) (rq stack v : Nat), Writes s rq .DRM_TRAIN stack v 31 d
    ∧ stack < 16 ∧ (bit v 31 = 0 ∨ d.fld F.DRM_TRAIN_busy stack ≠ 0)) :=
  ⟨⟨on live, _, 0, 15, 0x80000000, _, writes (by decide +kernel), rfl, by decide +kernel⟩, ⟨on live, _, 0, 15, 0, writes
    (by decide +kernel), by decide +kernel⟩⟩

theorem witness_DramTraining_1 : (∃ (s : State) (stack : Nat) (dq ca chans : List Nat), (chans = (List.range 32).filter (fun c
    => bit (s.dev.trainingAt stack) c == 1)) ∧ stack < 16 ∧ (dq.all (· < 32)) = true ∧ (ca.all (· < 32)) = true ∧ powered
    s.dev = true ∧ s.dev.fld F.DRM_TRAIN_busy stack = 1) ∧ (∃ (s : State) (stack : Nat) (dq ca chans : List Nat), (chans =
    (List.range 32).filter (fun c => bit (s.dev.trainingAt stack) c == 1)) ∧ stack < 16 ∧ (dq.all (· < 32)) = true ∧ (ca.all
    (· < 32)) = true ∧ powered s.dev = true ∧ s.dev.fld F.DRM_TRAIN_busy stack ≠ 1) :=
  ⟨⟨with' [setF F.DRM_TRAIN_busy 15 1, putTraining 15 1], 15, [0], [], _, rfl, by decide +kernel⟩, ⟨on live, 15, [0], [31], _,
    rfl, by decide +kernel⟩⟩

theorem witness_DramTraining_2 : ∃ (s : State) (chan : Nat), chan < 512 ∧ powered s.dev = true :=
  ⟨on live, 511, by decide +kernel⟩

theorem witness_DramTraining_3 : (∃ (c : _) (s : State) (chan g : Nat), c ∈ [Instr.caLaneFail, Instr.channelRetire] ∧ g = chan
    / 32 * 8 + chan % 32 / 4 ∧ chan < 512 ∧ powered s.dev = true ∧ s.dev.fld F.DRM_CHAN_STATUS_retired chan = 0) ∧ (∃ (c : _)
    (s : State) (chan g : Nat), c ∈ [Instr.caLaneFail, Instr.channelRetire] ∧ g = chan / 32 * 8 + chan % 32 / 4 ∧ chan < 512 ∧
    powered s.dev = true ∧ s.dev.fld F.DRM_CHAN_STATUS_retired chan ≠ 0) :=
  ⟨⟨Instr.caLaneFail, on live, 511, _, by simp, rfl, by decide +kernel⟩, ⟨Instr.channelRetire, with' [setF
    F.DRM_CHAN_STATUS_retired 511 1], 511, _, by simp, rfl, by decide +kernel⟩⟩

theorem witness_DramRepairs_0 : (∃ (s : State) (g : Nat), g < 128 ∧ powered s.dev = true ∧ s.dev.groupPoisonAt g = true) ∧ (∃
    (s : State) (g : Nat), g < 128 ∧ powered s.dev = true ∧ s.dev.groupPoisonAt g = false) :=
  ⟨⟨with' [putGroupPoison 127 true], 127, by decide +kernel⟩, ⟨on live, 127, by decide +kernel⟩⟩

theorem witness_DramRepairs_1 : (∃ (s : State) (stack : Nat) (fixed lost mine : List Nat), (mine = (fixed ++ lost).filter (fun
    a => inDram a && groupOf a / 8 == stack)) ∧ stack < 16 ∧ powered s.dev = true ∧ s.dev.fld F.PWR_STATE_state 0 = 3 ∧
    s.dev.fld F.DRM_STACK_STATUS_state stack ≠ 3 ∧ mine.any (dramHeld s.dev) = false) ∧ (∃ (s : State) (stack : Nat) (fixed
    lost mine : List Nat), (mine = (fixed ++ lost).filter (fun a => inDram a && groupOf a / 8 == stack)) ∧ stack < 16 ∧
    powered s.dev = true ∧ (s.dev.fld F.PWR_STATE_state 0 ≠ 3 ∨ s.dev.fld F.DRM_STACK_STATUS_state stack = 3 ∨ mine.any
    (dramHeld s.dev) = true)) :=
  ⟨⟨on live, 0, [0x1000000000], [0x1000000040], _, rfl, by decide +kernel⟩, ⟨on (setF F.PWR_STATE_state 0 4), 0, [], [], _,
    rfl, by decide +kernel⟩⟩

theorem witness_DramRepairs_2 : (∃ (s : State) (chan bank key : Nat), key = chan * 64 + bank ∧ chan < 512 ∧ bank < 64 ∧
    powered s.dev = true ∧ (8 ≤ ((s.dev.bankRepairsAt key).filter fun t => s.dev.reg .CLK_AON_CNT 0 < t + dayCycles).length) ∧
    s.dev.bankCopyAt key = false ∧ s.dev.spareBanksAt (chan / 32) < 8) ∧ (∃ (s : State) (chan bank key : Nat), key = chan * 64
    + bank ∧ chan < 512 ∧ bank < 64 ∧ powered s.dev = true ∧ (8 ≤ ((s.dev.bankRepairsAt key).filter fun t => s.dev.reg
    .CLK_AON_CNT 0 < t + dayCycles).length) ∧ s.dev.bankCopyAt key = false ∧ 8 ≤ s.dev.spareBanksAt (chan / 32)) ∧ (∃ (s :
    State) (chan bank key : Nat), key = chan * 64 + bank ∧ chan < 512 ∧ bank < 64 ∧ powered s.dev = true ∧
    (((s.dev.bankRepairsAt key).filter fun t => s.dev.reg .CLK_AON_CNT 0 < t + dayCycles).length < 8 ∨ s.dev.bankCopyAt key =
    true)) :=
  ⟨⟨with' [putBankRepairs 32767 [1, 1, 1, 1, 1, 1, 1, 1]], 511, 63, _, rfl, by decide +kernel⟩, ⟨with' [putBankRepairs 32767
    [1, 1, 1, 1, 1, 1, 1, 1], putSpareBanks 15 8], 511, 63, _, rfl, by decide +kernel⟩, ⟨on live, 511, 63, _, rfl,
    by decide +kernel⟩⟩

theorem witness_DramRepairs_3 : (∃ (s : State) (chan bank row : Nat), chan < 512 ∧ bank < 64 ∧ row < 1048576 ∧ powered s.dev =
    true ∧ s.dev.bankCopyAt (chan * 64 + bank) = true) ∧ (∃ (s : State) (chan bank row : Nat), chan < 512 ∧ bank < 64 ∧ row <
    1048576 ∧ powered s.dev = true ∧ s.dev.bankCopyAt (chan * 64 + bank) = false) ∧ (∃ (s : State) (chan bank row : Nat), chan
    < 512 ∧ bank < 64 ∧ row < 1048576 ∧ powered s.dev = true ∧ s.dev.rowRepairAt (chan * 1048576 + row) = true) ∧ (∃ (s :
    State) (chan bank row : Nat), chan < 512 ∧ bank < 64 ∧ row < 1048576 ∧ powered s.dev = true ∧ s.dev.rowRepairAt (chan *
    1048576 + row) = false) :=
  ⟨⟨with' [putBankCopy 32767 true], 511, 63, 0, by decide +kernel⟩, ⟨on live, 511, 63, 0, by decide +kernel⟩, ⟨with'
    [putRowRepair (511 * 1048576 + 1048575) true], 511, 63, 1048575, by decide +kernel⟩, ⟨on live, 511, 63, 1048575,
    by decide +kernel⟩⟩

theorem witness_DramRepairs_4 : ∃ (s : State) (stack temp new : Nat), new = tempState (s.dev.fld F.DRM_STACK_STATUS_state
    stack) temp ∧ stack < 16 ∧ temp < 256 ∧ powered s.dev = true :=
  ⟨on live, 15, 255, _, rfl, by decide +kernel⟩

theorem witness_DramRepairs_5 : ∃ (s : State) (j temp : Nat), j < 4 ∧ temp < 256 ∧ powered s.dev = true :=
  ⟨on live, 3, 255, by decide +kernel⟩

theorem witness_DriverMapsAndPromotion_0 : (∃ (s : State) (d : Device) (rq c : Nat), Asks s rq d ∧ c < 1024 ∧ mayWrite d rq
    .DRM_CTX_MAP c ≠ 0) ∧ (∃ (s : State) (d : Device) (rq c : Nat), Asks s rq d ∧ c < 1024 ∧ mayWrite d rq .DRM_CTX_MAP c = 0)
    :=
  ⟨⟨on live, _, 0, 1023, asks (by decide +kernel), by decide +kernel⟩, ⟨on live, _, 3, 1023, asks (by decide +kernel),
    by decide +kernel⟩⟩

theorem witness_DriverMapsAndPromotion_1 : (∃ (s : State) (d : Device) (rq p v x : Nat), Writes s rq .DRM_PROMOTE p v 30 d ∧ x
    = bits v 20 0 ∧ p < 32 ∧ d.promoJobAt p = none ∧ 1572864 ≤ x) ∧ (∃ (s : State) (d : Device) (rq p v x : Nat) (r : _),
    Writes s rq .DRM_PROMOTE p v 30 d ∧ x = bits v 20 0 ∧ p < 32 ∧ d.promoJobAt p = none ∧ x < 1572864 ∧ d.promoAt (p *
    2097152 + x) = some r) ∧ (∃ (s : State) (d : Device) (rq p v x : Nat) (f : _), Writes s rq .DRM_PROMOTE p v 30 d ∧ x =
    bits v 20 0 ∧ p < 32 ∧ d.promoJobAt p = none ∧ x < 1572864 ∧ d.promoAt (p * 2097152 + x) = none ∧ freeFrame d p = some f)
    ∧ (∃ (s : State) (d : Device) (rq p v x : Nat) (y r : _), Writes s rq .DRM_PROMOTE p v 30 d ∧ x = bits v 20 0 ∧ p < 32 ∧
    d.promoJobAt p = none ∧ x < 1572864 ∧ d.promoAt (p * 2097152 + x) = none ∧ freeFrame d p = none ∧ victim d p = some (y,
    r)) ∧ (∃ (s : State) (d : Device) (rq p v x : Nat), Writes s rq .DRM_PROMOTE p v 30 d ∧ x = bits v 20 0 ∧ p < 32 ∧
    d.promoJobAt p = none ∧ x < 1572864 ∧ d.promoAt (p * 2097152 + x) = none ∧ freeFrame d p = none ∧ victim d p = none) ∧ (∃
    (s : State) (d : Device) (rq p v x : Nat), Writes s rq .DRM_PROMOTE p v 30 d ∧ x = bits v 20 0 ∧ p < 32 ∧ d.promoJobAt p ≠
    none) :=
  ⟨⟨on live, _, 0, 31, 2 ^ 30 + 1572864, _, writes (by decide +kernel), rfl, by decide +kernel⟩, ⟨with' [putPromo 5 (some
    {})], _, 0, 0, 2 ^ 30 + 5, _, {}, writes (by decide +kernel), rfl, by decide +kernel⟩, ⟨with' [setF
    F.DRM_PROMO_POOL_frames 0 1], _, 0, 0, 2 ^ 30, _, 0, writes (by decide +kernel), rfl, by decide +kernel⟩, ⟨with' [putPromo
    5 (some {}), setF F.DRM_PROMO_POOL_frames 0 1], _, 0, 0, 2 ^ 30, _, 5, {}, writes (by decide +kernel), rfl,
    by decide +kernel⟩, ⟨on live, _, 0, 0, 2 ^ 30, _, writes (by decide +kernel), rfl, by decide +kernel⟩, ⟨with' [putPromoJob
    0 (some {})], _, 0, 0, 2 ^ 30, _, writes (by decide +kernel), rfl, by decide +kernel⟩⟩

theorem witness_DriverMapsAndPromotion_2 : (∃ (s : State) (d : Device) (rq p v x : Nat), Writes s rq .DRM_PROMOTE p v 31 d ∧ x
    = bits v 20 0 ∧ p < 32 ∧ d.promoJobAt p = none ∧ 1572864 ≤ x) ∧ (∃ (s : State) (d : Device) (rq p v x : Nat) (r : _),
    Writes s rq .DRM_PROMOTE p v 31 d ∧ x = bits v 20 0 ∧ p < 32 ∧ d.promoJobAt p = none ∧ x < 1572864 ∧ d.promoAt (p *
    2097152 + x) = some r) ∧ (∃ (s : State) (d : Device) (rq p v x : Nat), Writes s rq .DRM_PROMOTE p v 31 d ∧ x = bits v 20 0
    ∧ p < 32 ∧ d.promoJobAt p = none ∧ x < 1572864 ∧ d.promoAt (p * 2097152 + x) = none) ∧ (∃ (s : State) (d : Device) (rq p v
    x : Nat), Writes s rq .DRM_PROMOTE p v 31 d ∧ x = bits v 20 0 ∧ p < 32 ∧ d.promoJobAt p ≠ none) :=
  ⟨⟨on live, _, 0, 31, 2 ^ 31 + 1572864, _, writes (by decide +kernel), rfl, by decide +kernel⟩, ⟨with' [putPromo 5 (some
    {})], _, 0, 0, 2 ^ 31 + 5, _, {}, writes (by decide +kernel), rfl, by decide +kernel⟩, ⟨on live, _, 0, 0, 2 ^ 31 + 5, _,
    writes (by decide +kernel), rfl, by decide +kernel⟩, ⟨with' [putPromoJob 0 (some {})], _, 0, 0, 2 ^ 31 + 5, _, writes
    (by decide +kernel), rfl, by decide +kernel⟩⟩

theorem witness_DriverMapsAndPromotion_3 : (∃ (s : State) (p x n since : Nat) (f : _), p < 32 ∧ x < 1572864 ∧ working s.dev =
    true ∧ s.dev.promoReadsAt (p * 2097152 + x) = (n, since) ∧ s.dev.fld F.DRM_PROMO_POOL_threshold p ≠ 0 ∧ s.dev.fld
    F.DRM_PROMO_POOL_threshold p ≤ n ∧ s.dev.reg .CLK_AON_CNT 0 ≤ since + 250000 ∧ s.dev.promoJobAt p = none ∧ s.dev.promoAt
    (p * 2097152 + x) = none ∧ freeFrame s.dev p = some f) ∧ (∃ (s : State) (p x n since : Nat), p < 32 ∧ x < 1572864 ∧
    working s.dev = true ∧ s.dev.promoReadsAt (p * 2097152 + x) = (n, since) ∧ (s.dev.fld F.DRM_PROMO_POOL_threshold p = 0 ∨ n
    < s.dev.fld F.DRM_PROMO_POOL_threshold p ∨ since + 250000 < s.dev.reg .CLK_AON_CNT 0 ∨ s.dev.promoJobAt p ≠ none ∨
    s.dev.promoAt (p * 2097152 + x) ≠ none)) :=
  ⟨⟨with' [setF F.DRM_PROMO_POOL_frames 0 1, setF F.DRM_PROMO_POOL_threshold 0 1, putPromoReads 0 (1, 0)], 0, 0, 1, 0, 0,
    by decide +kernel⟩, ⟨with' [], 31, 1572863, 0, 0, by decide +kernel⟩⟩

theorem witness_DriverMapsAndPromotion_4 : (∃ (s : State) (p : Nat) (j : PromoJob) (src dst : List Nat), (src = (List.range
    2097152).map (fun i => flashBase + j.extent * 2097152 + i)) ∧ (dst = (List.range 2097152).filterMap (fun i => partAddr
    s.dev p (j.frame * 2097152 + i))) ∧ p < 32 ∧ working s.dev = true ∧ s.dev.promoJobAt p = some j ∧ s.dev.frameBusyAt
    (frameKey p j.frame) = false ∧ agentHeld s.dev (some p) dst = false) ∧ (∃ (s : State) (p : Nat) (j : PromoJob) (src dst :
    List Nat), (src = (List.range 2097152).map (fun i => flashBase + j.extent * 2097152 + i)) ∧ (dst = (List.range
    2097152).filterMap (fun i => partAddr s.dev p (j.frame * 2097152 + i))) ∧ p < 32 ∧ working s.dev = true ∧ s.dev.promoJobAt
    p = some j ∧ (s.dev.frameBusyAt (frameKey p j.frame) = true ∨ agentHeld s.dev (some p) dst = true)) ∧ (∃ (s : State) (p :
    Nat), p < 32 ∧ working s.dev = true ∧ s.dev.promoJobAt p = none) :=
  ⟨⟨with' [putPromoJob 0 (some {})], 0, {}, _, [], rfl, noGroups (by decide +kernel), by decide +kernel⟩, ⟨with' [putPromoJob
    0 (some {}), putFrameBusy (frameKey 0 0) true], 0, {}, _, [], rfl, noGroups (by decide +kernel), by decide +kernel⟩, ⟨on
    live, 31, by decide +kernel⟩⟩

theorem witness_DriverMapsAndPromotion_5 : ∃ (s : State) (p frame : Nat), p < 32 ∧ frame < 268435456 ∧ powered s.dev = true :=
  ⟨on live, 31, 268435455, by decide +kernel⟩

theorem witness_DriverMapsAndPromotion_6 : (∃ (s : State) (d : Device) (rq p : Nat), Asks s rq d ∧ p < 32 ∧ bit (mayWrite d rq
    .DRM_PROMOTE p) 30 = 0) ∧ (∃ (s : State) (d : Device) (rq p : Nat), Asks s rq d ∧ p < 32 ∧ bit (mayWrite d rq .DRM_PROMOTE
    p) 31 = 0) :=
  ⟨⟨on live, _, 3, 31, asks (by decide +kernel), by decide +kernel⟩, ⟨on live, _, 3, 31, asks (by decide +kernel),
    by decide +kernel⟩⟩

theorem witness_LibraryCommands_0 : (∃ (s : State) (d : Device) (rq entry a : Nat) (bs : List Byte) (t : CatEntry) (j :
    FlsJob), RunsLibrary s rq 1 entry d j ∧ a = j.a ∧ d.bytes a 128 = bs ∧ t = templateOf bs ∧ (d.catalogAt entry).state ≠ 0)
    ∧ (∃ (s : State) (d : Device) (rq entry a : Nat) (bs : List Byte) (t : CatEntry) (j : FlsJob), RunsLibrary s rq 1 entry d
    j ∧ a = j.a ∧ d.bytes a 128 = bs ∧ t = templateOf bs ∧ (d.catalogAt entry).state = 0 ∧ dramRange a 128 = false) ∧ (∃ (s :
    State) (d : Device) (rq entry a : Nat) (bs : List Byte) (t : CatEntry) (j : FlsJob), RunsLibrary s rq 1 entry d j ∧ a =
    j.a ∧ d.bytes a 128 = bs ∧ t = templateOf bs ∧ (d.catalogAt entry).state = 0 ∧ dramRange a 128 = true ∧ d.poisoned a 128 =
    true) ∧ (∃ (s : State) (d : Device) (rq entry a : Nat) (bs : List Byte) (t : CatEntry) (j : FlsJob), RunsLibrary s rq 1
    entry d j ∧ a = j.a ∧ d.bytes a 128 = bs ∧ t = templateOf bs ∧ (d.catalogAt entry).state = 0 ∧ dramRange a 128 = true ∧
    d.poisoned a 128 = false ∧ (((liveEntries d).any fun e => e.modelId == t.modelId) = true)) ∧ (∃ (s : State) (d : Device)
    (rq entry a : Nat) (bs : List Byte) (t : CatEntry) (j : FlsJob), RunsLibrary s rq 1 entry d j ∧ a = j.a ∧ d.bytes a 128 =
    bs ∧ t = templateOf bs ∧ (d.catalogAt entry).state = 0 ∧ dramRange a 128 = true ∧ d.poisoned a 128 = false ∧
    (((liveEntries d).any fun e => e.modelId == t.modelId) = false) ∧ templateOk bs = false) ∧ (∃ (s : State) (d : Device) (rq
    entry a : Nat) (bs : List Byte) (t : CatEntry) (j : FlsJob), RunsLibrary s rq 1 entry d j ∧ a = j.a ∧ d.bytes a 128 = bs ∧
    t = templateOf bs ∧ (d.catalogAt entry).state = 0 ∧ dramRange a 128 = true ∧ d.poisoned a 128 = false ∧ (((liveEntries
    d).any fun e => e.modelId == t.modelId) = false) ∧ templateOk bs = true ∧ ((((List.range 4).any fun j => d.fld
    F.FLS_STACK_STATUS_spare_blocks j == 0) = true ∨ findRun d (ceilDiv t.length runBytes) = none))) ∧ (∃ (s : State) (d :
    Device) (rq entry a : Nat) (bs : List Byte) (t : CatEntry) (j : FlsJob) (r : _), RunsLibrary s rq 1 entry d j ∧ a = j.a ∧
    d.bytes a 128 = bs ∧ t = templateOf bs ∧ (d.catalogAt entry).state = 0 ∧ dramRange a 128 = true ∧ d.poisoned a 128 = false
    ∧ (((liveEntries d).any fun e => e.modelId == t.modelId) = false) ∧ templateOk bs = true ∧ (((List.range 4).any fun j =>
    d.fld F.FLS_STACK_STATUS_spare_blocks j == 0) = false) ∧ findRun d (ceilDiv t.length runBytes) = some r) :=
  ⟨⟨with' [putCatalog 0 { state := 2 }], _, 0, 0, _, _, _, _, runsLibrary (by decide +kernel), rfl, rfl, rfl,
    by decide +kernel⟩, ⟨on live, _, 0, 0, _, _, _, _, runsLibrary (by decide +kernel), rfl, rfl, rfl, by decide +kernel⟩,
    ⟨with' [template, putPoison 0x1000000000 true], _, 0, 0, _, _, _, _, runsLibrary (by decide +kernel), rfl, rfl, rfl,
    by decide +kernel⟩, ⟨with' [template, putCatalog 1 { state := 2 }], _, 0, 0, _, _, _, _, runsLibrary (by decide +kernel),
    rfl, rfl, rfl, by decide +kernel⟩, ⟨with' [setReg .FLS_ARG_A 0 0x1000000000], _, 0, 0, _, _, _, _, runsLibrary
    (by decide +kernel), rfl, rfl, rfl, by decide +kernel⟩, ⟨with' [template, setF F.FLS_STACK_STATUS_spare_blocks 0 0], _, 0,
    0, _, _, _, _, runsLibrary (by decide +kernel), rfl, rfl, rfl, by decide +kernel⟩, ⟨with' [template], _, 0, 0, _, _, _, _,
    0, runsLibrary (by decide +kernel), rfl, rfl, rfl, by decide +kernel⟩⟩

theorem witness_LibraryCommands_1 : (∃ (s : State) (d : Device) (rq entry off n : Nat) (e : CatEntry) (j : FlsJob),
    RunsLibrary s rq 2 entry d j ∧ e = d.catalogAt entry ∧ off = bits j.b 39 0 ∧ n = bits j.b 63 40 * 65536 ∧ e.state ≠ 1) ∧
    (∃ (s : State) (d : Device) (rq entry off n : Nat) (e : CatEntry) (j : FlsJob), RunsLibrary s rq 2 entry d j ∧ e =
    d.catalogAt entry ∧ off = bits j.b 39 0 ∧ n = bits j.b 63 40 * 65536 ∧ e.state = 1 ∧ (e.length < off + n ∨ dramRange j.a n
    = false)) ∧ (∃ (s : State) (d : Device) (rq entry off n : Nat) (e : CatEntry) (j : FlsJob), RunsLibrary s rq 2 entry d j ∧
    e = d.catalogAt entry ∧ off = bits j.b 39 0 ∧ n = bits j.b 63 40 * 65536 ∧ d.poisoned j.a n = true ∧ e.state = 1 ∧ off + n
    ≤ e.length ∧ dramRange j.a n = true) ∧ (∃ (s : State) (d : Device) (rq entry off n : Nat) (e : CatEntry) (j : FlsJob),
    RunsLibrary s rq 2 entry d j ∧ e = d.catalogAt entry ∧ off = bits j.b 39 0 ∧ n = bits j.b 63 40 * 65536 ∧ e.state = 1 ∧
    off + n ≤ e.length ∧ dramRange j.a n = true ∧ d.poisoned j.a n = false) :=
  ⟨⟨on live, _, 1, 4095, _, _, _, _, runsLibrary (by decide +kernel), rfl, rfl, rfl, by decide +kernel⟩, ⟨with' [putCatalog 0
    { state := 1 }, setReg .FLS_ARG_B 0 1], _, 1, 0, _, _, _, _, runsLibrary (by decide +kernel), rfl, rfl, rfl,
    by decide +kernel⟩, ⟨with' [putCatalog 0 { state := 1, length := 65536 }, template, setReg .FLS_ARG_B 0 (2 ^ 40),
    putPoison 0x1000000000 true], _, 1, 0, _, _, _, _, runsLibrary ⟨by decide +kernel, by decide +kernel, writeFree
    (by decide +kernel)⟩, rfl, rfl, rfl, poisoned_first (by decide +kernel), by decide +kernel⟩, ⟨with' [putCatalog 0
    { state := 1 }, template], _, 1, 0, _, _, _, _, runsLibrary (by decide +kernel), rfl, rfl, rfl, by decide +kernel⟩⟩

theorem witness_LibraryCommands_2 : (∃ (s : State) (d : Device) (rq entry : Nat) (e : CatEntry) (j : FlsJob), RunsLibrary s rq
    3 entry d j ∧ e = d.catalogAt entry ∧ e.state ≠ 1) ∧ (∃ (s : State) (d : Device) (rq entry : Nat) (e : CatEntry) (j :
    FlsJob), RunsLibrary s rq 3 entry d j ∧ e = d.catalogAt entry ∧ Config.sha384 (objectBytes d e) ≠ e.digest ∧ e.state = 1)
    ∧ (∃ (s : State) (d : Device) (rq entry : Nat) (e : CatEntry) (j : FlsJob), RunsLibrary s rq 3 entry d j ∧ e = d.catalogAt
    entry ∧ Config.sha384 (objectBytes d e) = e.digest ∧ e.state = 1) :=
  ⟨⟨on live, _, 0, 4095, _, _, runsLibrary (by decide +kernel), rfl, by decide +kernel⟩, ⟨with' [putCatalog 0
    { state := 1, digest := 0 :: Config.sha384 [] }], _, 0, 0, _, _, runsLibrary (by decide +kernel), rfl, (fun h =>
    (List.cons_ne_self (0 : Byte) (Config.sha384 [])) h.symm), by decide +kernel⟩, ⟨with' [putCatalog 0
    { state := 1, digest := Config.sha384 [] }], _, 0, 0, _, _, runsLibrary (by decide +kernel), rfl, rfl, by decide +kernel⟩⟩

theorem witness_LibraryCommands_3 : (∃ (s : State) (d : Device) (rq entry : Nat) (j : FlsJob), RunsLibrary s rq 4 entry d j ∧
    (d.catalogAt entry).state ≠ 1) ∧ (∃ (s : State) (d : Device) (rq entry : Nat) (j : FlsJob), RunsLibrary s rq 4 entry d j ∧
    (d.catalogAt entry).state = 1) :=
  ⟨⟨on live, _, 0, 4095, _, runsLibrary (by decide +kernel), by decide +kernel⟩, ⟨with' [putCatalog 0 { state := 1 }], _, 0,
    0, _, runsLibrary (by decide +kernel), by decide +kernel⟩⟩

theorem witness_LibraryCommands_4 : (∃ (s : State) (d : Device) (rq entry : Nat) (e : CatEntry) (j : FlsJob), RunsLibrary s rq
    5 entry d j ∧ e = d.catalogAt entry ∧ e.state ≠ 2 ∧ e.state ≠ 4) ∧ (∃ (s : State) (d : Device) (rq entry : Nat) (e :
    CatEntry) (j : FlsJob), RunsLibrary s rq 5 entry d j ∧ e = d.catalogAt entry ∧ (e.state = 2 ∨ e.state = 4) ∧ e.refs = 0) ∧
    (∃ (s : State) (d : Device) (rq entry : Nat) (e : CatEntry) (j : FlsJob), RunsLibrary s rq 5 entry d j ∧ e = d.catalogAt
    entry ∧ (e.state = 2 ∨ e.state = 4) ∧ e.refs ≠ 0) :=
  ⟨⟨on live, _, 0, 4095, _, _, runsLibrary (by decide +kernel), rfl, by decide +kernel⟩, ⟨with' [putCatalog 0 { state := 4 }],
    _, 0, 0, _, _, runsLibrary (by decide +kernel), rfl, by decide +kernel⟩, ⟨with' [putCatalog 0 { state := 2, refs := 1 }],
    _, 0, 0, _, _, runsLibrary (by decide +kernel), rfl, by decide +kernel⟩⟩

theorem witness_LibraryCommands_5 : (∃ (s : State) (d : Device) (rq entry : Nat) (j : FlsJob), RunsLibrary s rq 6 entry d j ∧
    dramRange j.a 128 = false) ∧ (∃ (s : State) (d : Device) (rq entry : Nat) (j : FlsJob), RunsLibrary s rq 6 entry d j ∧
    dramRange j.a 128 = true) :=
  ⟨⟨on live, _, 1, 4095, _, runsLibrary (by decide +kernel), by decide +kernel⟩, ⟨with' [template], _, 1, 4095, _, runsLibrary
    (by decide +kernel), by decide +kernel⟩⟩

theorem witness_LibraryCommands_6 : (∃ (c : _) (s : State) (d : Device) (rq entry : Nat) (j : FlsJob), c ∈ [(Instr.flsOpen,
    1), (Instr.flsWrite, 2), (Instr.flsCommit, 3), (Instr.flsAbort, 4), (Instr.flsRetire, 5), (Instr.readEntry, 6)] ∧
    AsksLibrary s rq c.2 entry d j ∧ stackLost d = true) ∧ (∃ (c : _) (s : State) (d : Device) (rq entry : Nat) (j : FlsJob),
    c ∈ [(Instr.flsOpen, 1), (Instr.flsWrite, 2), (Instr.flsCommit, 3), (Instr.flsAbort, 4), (Instr.flsRetire, 5),
    (Instr.readEntry, 6)] ∧ AsksLibrary s rq c.2 entry d j ∧ stackLost d = false ∧ jobHeld d j = true) ∧ (∃ (c : _) (s :
    State) (d : Device) (rq entry : Nat), c ∈ [(Instr.flsOpen, 1), (Instr.flsWrite, 2), (Instr.flsCommit, 3), (Instr.flsAbort,
    4), (Instr.flsRetire, 5), (Instr.readEntry, 6)] ∧ Asks s rq d ∧ entry < 4096 ∧ (((isSteward rq || isPf rq) = false ∨ d.fld
    F.FLS_STATUS_busy 0 ≠ 0))) :=
  ⟨⟨(Instr.flsWrite, 2), with' [setF F.FLS_STACK_STATUS_lost 3 1], _, 0, 4095, _, by simp, asksLibrary (by decide +kernel),
    by decide +kernel⟩, ⟨(Instr.readEntry, 6), with' [template, putRoutesStale true], _, 0, 4095, _, by simp, asksLibrary
    (by decide +kernel), by decide +kernel⟩, ⟨(Instr.flsRetire, 5), with' [setF F.FLS_STATUS_busy 0 1], _, 0, 4095, by simp,
    asks (by decide +kernel), by decide +kernel⟩⟩

theorem witness_LibraryCommands_7 : (∃ (s : State) (j : FlsJob) (code : Nat), powered s.dev = true ∧ s.dev.flsPending = some j
    ∧ j.code = some code) ∧ (∃ (s : State) (j : FlsJob), powered s.dev = true ∧ s.dev.flsPending = some j ∧ j.code = none ∧
    stackLost s.dev = false ∧ jobHeld s.dev j = true) ∧ (∃ (s : State) (j : FlsJob) (code : Nat) (e : Eff), jobEffect j s.dev
    = (code, e) ∧ powered s.dev = true ∧ s.dev.flsPending = some j ∧ j.code = none ∧ ((stackLost s.dev = true ∨ jobHeld s.dev
    j = false)) ∧ ((libraryRuns j code e).run s.dev).flsPending = some { j with code := some code }) ∧ (∃ (s : State), powered
    s.dev = true ∧ s.dev.flsPending = none) :=
  ⟨⟨with' [putFlsPending (some { code := some 3 })], { code := some 3 }, 3, by decide +kernel⟩, ⟨with' [template,
    putRoutesStale true, putFlsPending (some { op := 6, a := 0x1000000000 })], { op := 6, a := 0x1000000000 },
    by decide +kernel⟩, ⟨(with' [putFlsPending (some { op := 4 })]), { op := 4 }, 1, (jobEffect { op := 4 } (with'
    [putFlsPending (some { op := 4 })]).dev).2, Prod.ext (by decide +kernel) rfl, by decide +kernel⟩, ⟨on live,
    by decide +kernel⟩⟩

theorem witness_FlashKeeping_0 : (∃ (s : State) (d : Device) (block : Nat), (Eff.each (List.range 4) rebuildWaiting).run s.dev
    = d ∧ block < 524288 ∧ up s.dev = true ∧ d.relocQueue = []) ∧ (∃ (s : State) (d : Device) (block : Nat) (y rest : _),
    (Eff.each (List.range 4) rebuildWaiting).run s.dev = d ∧ block < 524288 ∧ up s.dev = true ∧ d.relocQueue = y :: rest ∧
    unitAt d y = none) ∧ (∃ (s : State) (d : Device) (block : Nat) (y rest x : _), (Eff.each (List.range 4)
    rebuildWaiting).run s.dev = d ∧ (relocTargets d y).contains (y / 524288 * 524288 + block) = true ∧ block < 524288 ∧ up
    s.dev = true ∧ d.relocQueue = y :: rest ∧ unitAt d y = some x) ∧ (∃ (s : State) (d : Device) (block : Nat) (y rest x : _),
    (Eff.each (List.range 4) rebuildWaiting).run s.dev = d ∧ (relocTargets d y).contains (y / 524288 * 524288 + block) = false
    ∧ block < 524288 ∧ up s.dev = true ∧ d.relocQueue = y :: rest ∧ unitAt d y = some x) :=
  ⟨⟨on live, _, 524287, rfl, by decide +kernel⟩, ⟨with' [putRelocQueue [524287]], _, 524287, 524287, [], rfl,
    by decide +kernel⟩, ⟨with' [putRelocQueue [0]], _, 524272, 0, [], 0, rfl, relocTo (by decide +kernel), by decide +kernel⟩,
    ⟨with' [putRelocQueue [0]], _, 0, 0, [], 0, rfl, relocNot (by decide +kernel), by decide +kernel⟩⟩

theorem witness_FlashKeeping_1 : ∃ (s : State) (j temp b y lost : Nat), b = s.dev.fld F.FLS_SCRUB_block j ∧ y = j * 524288 + b
    ∧ j < 4 ∧ temp < 256 ∧ lost < 3 ∧ up s.dev = true :=
  ⟨on live, 3, 255, _, _, 2, rfl, rfl, by decide +kernel⟩

theorem witness_FlashKeeping_2 : ∃ (s : State) (j : Nat), j < 4 ∧ powered s.dev = true :=
  ⟨on live, 3, by decide +kernel⟩

theorem witness_WeightRing_0 : (∃ (s : State) (p : Nat) (w : Streamer) (f : Figure), p < 32 ∧ working s.dev = true ∧
    s.dev.streamersAt p = some w ∧ s.dev.active p = some f ∧ s.dev.fld F.FLS_RING_STAT_state p = 1 ∧ ringEntry s.dev p f =
    none) ∧ (∃ (s : State) (p : Nat) (w : Streamer) (f : Figure) (e off len src dst : _), (src = (List.range len).filterMap
    (fun i => tierAddr s.dev p (e.tierOffset + off + i))) ∧ dst = slotAddrs s.dev p f (ringSlot f w.q) len ∧ p < 32 ∧ working
    s.dev = true ∧ s.dev.streamersAt p = some w ∧ s.dev.active p = some f ∧ s.dev.fld F.FLS_RING_STAT_state p = 1 ∧ ringEntry
    s.dev p f = some e ∧ layerOf s.dev e (ringNum f 0xE 2 + w.q % ringLayers f) = (off, len) ∧ anyHeld s.dev src = false ∧
    anyHeld s.dev dst = false) ∧ (∃ (s : State) (p : Nat) (w : Streamer) (f : Figure) (e off len src dst : _), (src =
    (List.range len).filterMap (fun i => tierAddr s.dev p (e.tierOffset + off + i))) ∧ dst = slotAddrs s.dev p f (ringSlot f
    w.q) len ∧ p < 32 ∧ working s.dev = true ∧ s.dev.streamersAt p = some w ∧ s.dev.active p = some f ∧ s.dev.fld
    F.FLS_RING_STAT_state p = 1 ∧ ringEntry s.dev p f = some e ∧ layerOf s.dev e (ringNum f 0xE 2 + w.q % ringLayers f) =
    (off, len) ∧ (anyHeld s.dev src = true ∨ anyHeld s.dev dst = true)) :=
  ⟨⟨streams 1 [putCatalog 0 {}], 0, {}, ringFig, by decide +kernel⟩, ⟨streams 1 [], 0, {}, ringFig,
    { state := 2, share := 1, length := 65536 }, 0, 0, _, _, rfl, rfl, by decide +kernel⟩, ⟨streams 1 [putRoutesStale true],
    0, {}, ringFig, { state := 2, share := 1, length := 65536 }, 0, 0, _, _, rfl, rfl, by decide +kernel⟩⟩

theorem witness_WeightRing_1 : (∃ (s : State) (p : Nat) (w : Streamer) (f : Figure) (keys : List Nat), (keys = (ringConsumers
    s.dev p f).map (fun core => coreCue core (ringNum f 8 1))) ∧ ((∀ l ∈ leaves f (ringNum f 4 2), ∀ core, leafCore s.dev p f
    l = some core → (s.dev.coresAt core).ctx = leafContext s.dev p f l)) ∧ p < 32 ∧ working s.dev = true ∧ s.dev.streamersAt p
    = some w ∧ s.dev.active p = some f ∧ s.dev.fld F.FLS_RING_STAT_state p = 2 ∧ ((keys.any fun k => (s.dev.cuesAt
    k).overflow) = false) ∧ ((keys.all fun k => 1 ≤ (s.dev.cuesAt k).value) = true)) ∧ (∃ (s : State) (p : Nat) (w : Streamer)
    (f : Figure) (keys : List Nat), (keys = (ringConsumers s.dev p f).map (fun core => coreCue core (ringNum f 8 1))) ∧ ((∀ l
    ∈ leaves f (ringNum f 4 2), ∀ core, leafCore s.dev p f l = some core → (s.dev.coresAt core).ctx = leafContext s.dev p f
    l)) ∧ p < 32 ∧ working s.dev = true ∧ s.dev.streamersAt p = some w ∧ s.dev.active p = some f ∧ s.dev.fld
    F.FLS_RING_STAT_state p = 2 ∧ ((keys.any fun k => (s.dev.cuesAt k).overflow) = true)) ∧ (∃ (s : State) (p : Nat) (w :
    Streamer) (f : Figure) (keys : List Nat), (keys = (ringConsumers s.dev p f).map (fun core => coreCue core (ringNum f 8
    1))) ∧ ((∀ l ∈ leaves f (ringNum f 4 2), ∀ core, leafCore s.dev p f l = some core → (s.dev.coresAt core).ctx = leafContext
    s.dev p f l)) ∧ p < 32 ∧ working s.dev = true ∧ s.dev.streamersAt p = some w ∧ s.dev.active p = some f ∧ s.dev.fld
    F.FLS_RING_STAT_state p = 2 ∧ ((keys.any fun k => (s.dev.cuesAt k).overflow) = false) ∧ ((keys.all fun k => 1 ≤
    (s.dev.cuesAt k).value) = false)) ∧ (∃ (s : State) (p : Nat) (w : Streamer) (f : Figure) (keys : List Nat) (l core : _),
    (keys = (ringConsumers s.dev p f).map (fun core => coreCue core (ringNum f 8 1))) ∧ p < 32 ∧ working s.dev = true ∧
    s.dev.streamersAt p = some w ∧ s.dev.active p = some f ∧ s.dev.fld F.FLS_RING_STAT_state p = 2 ∧ l ∈ leaves f (ringNum f 4
    2) ∧ leafCore s.dev p f l = some core ∧ (s.dev.coresAt core).ctx ≠ leafContext s.dev p f l) :=
  ⟨⟨streams 2 [putCues 0 { value := 1 }], 0, {}, ringFig, _, rfl, sameContexts (by decide +kernel), by decide +kernel⟩,
    ⟨streams 2 [putCues 0 { overflow := true }], 0, {}, ringFig, _, rfl, sameContexts (by decide +kernel), by decide +kernel⟩,
    ⟨streams 2 [], 0, {}, ringFig, _, rfl, sameContexts (by decide +kernel), by decide +kernel⟩, ⟨streams 2 [putCores 0 {}],
    0, {}, ringFig, _, 0, 0, rfl, by decide +kernel⟩⟩

theorem witness_WeightRing_2 : (∃ (s : State) (p : Nat), p < 32 ∧ working s.dev = true ∧ (s.dev.streamersAt p = none ∨
    s.dev.active p = none ∨ s.dev.fld F.FLS_RING_STAT_state p ≠ 1)) ∧ (∃ (s : State) (p : Nat), p < 32 ∧ working s.dev = true
    ∧ (s.dev.streamersAt p = none ∨ s.dev.active p = none ∨ s.dev.fld F.FLS_RING_STAT_state p ≠ 2)) :=
  ⟨⟨on live, 31, by decide +kernel⟩, ⟨on live, 31, by decide +kernel⟩⟩

theorem witness_RingService_0 : (∃ (s : State) (d : Device) (c : Instr) (n head : Nat) (fixed lost : List Nat), Fetches s c n
    fixed lost d ∧ TakesMore d n ∧ head = d.fld F.DMA_RING_STAT_head n ∧ descAddrs d n head .read = none) ∧ (∃ (s : State) (d
    : Device) (c : Instr) (n head : Nat) (fixed lost : List Nat) (as : _), Fetches s c n fixed lost d ∧ TakesMore d n ∧ head =
    d.fld F.DMA_RING_STAT_head n ∧ descAddrs d n head .read = some as ∧ agentHeld d (ringPart d n) as = true) ∧ (∃ (s : State)
    (d : Device) (c : Instr) (n head : Nat) (fixed lost : List Nat) (as d' : _), Fetches s c n fixed lost d ∧ TakesMore d n ∧
    head = d.fld F.DMA_RING_STAT_head n ∧ (agentReads n as fixed lost).run d = d' ∧ descAddrs d n head .read = some as ∧
    agentHeld d (ringPart d n) as = false ∧ (d'.ringsAt n).length = (d.ringsAt n).length ∧ anyPoison d' as = true) ∧ (∃ (s :
    State) (d : Device) (c : Instr) (n head : Nat) (fixed lost : List Nat) (as d' : _) (x : Desc), Fetches s c n fixed lost d
    ∧ TakesMore d n ∧ head = d.fld F.DMA_RING_STAT_head n ∧ (agentReads n as fixed lost).run d = d' ∧ x =
    { index := head, raw := d'.bytesAt as } ∧ descAddrs d n head .read = some as ∧ agentHeld d (ringPart d n) as = false ∧
    (d'.ringsAt n).length = (d.ringsAt n).length ∧ anyPoison d' as = false ∧ bit x.ctrl 31 = 0) ∧ (∃ (s : State) (d : Device)
    (c : Instr) (n head : Nat) (fixed lost : List Nat) (as d' : _) (x : Desc), Fetches s c n fixed lost d ∧ TakesMore d n ∧
    head = d.fld F.DMA_RING_STAT_head n ∧ (agentReads n as fixed lost).run d = d' ∧ x =
    { index := head, raw := d'.bytesAt as } ∧ descAddrs d n head .read = some as ∧ agentHeld d (ringPart d n) as = false ∧
    (d'.ringsAt n).length = (d.ringsAt n).length ∧ anyPoison d' as = false ∧ bit x.ctrl 31 = 1 ∧ ringKind n ≠ .col) ∧ (∃ (s :
    State) (d : Device) (c : Instr) (n head : Nat) (fixed lost : List Nat) (as d' : _) (x : Desc), Fetches s c n fixed lost d
    ∧ TakesMore d n ∧ head = d.fld F.DMA_RING_STAT_head n ∧ (agentReads n as fixed lost).run d = d' ∧ x =
    { index := head, raw := d'.bytesAt as } ∧ d'.Ok ∧ descAddrs d n head .read = some as ∧ agentHeld d (ringPart d n) as =
    false ∧ (d'.ringsAt n).length = (d.ringsAt n).length ∧ anyPoison d' as = false ∧ bit x.ctrl 31 = 1 ∧ ringKind n = .col) :=
  ⟨⟨rings 0 1 [setF F.DMA_RING_BASE_base 0 0x800000], _, _, 0, _, [], [], ⟨by decide, .inl ⟨0, rfl, asks (by decide +kernel),
    by decide +kernel, by decide +kernel⟩⟩, takesMore (by decide +kernel), rfl, by decide +kernel⟩, ⟨rings 0 1 [owned,
    putRoutesStale true], _, _, 0, _, [], [], dram 64, polls (by decide), takesMore (by decide +kernel), rfl,
    by decide +kernel⟩, ⟨rings 0 1 [owned, putPoison 0x1000000000 true], _, _, 0, _, [], [], dram 64, _, polls (by decide),
    takesMore (by decide +kernel), rfl, rfl, by decide +kernel⟩, ⟨rings 8704 2 [], _, _, 8704, _, [], [], dram 64, _, _, polls
    (by decide), takesMore (by decide +kernel), rfl, rfl, rfl, by decide +kernel⟩, ⟨rings 10391 3 [owned, setF
    F.ING_CTRL_enable 16 1], _, _, 10391, _, [], [], dram 64, _, _, ⟨by decide, .inr (.inr ⟨0, 2 ^ 31, _, rfl, writes
    (by decide +kernel), by decide +kernel, by decide, by decide +kernel, rfl⟩)⟩, takesMore (by decide +kernel), rfl, rfl,
    rfl, by decide +kernel⟩, ⟨rings 9728 1 [owned], _, _, 9728, _, [], [], dram 64, _, _, polls (by decide), takesMore
    (by decide +kernel), rfl, rfl, rfl, (by constructor <;> decide +kernel), by decide +kernel⟩⟩

theorem witness_RingService_1 : (∃ (s : State) (d : Device) (c : Instr) (n : Nat) (fixed lost : List Nat), Fetches s c n fixed
    lost d ∧ serving d = true ∧ ((ringServed d n = false ∨ (ringState d n ≠ 1 ∧ ringState d n ≠ 2) ∨ takenLimit ≤ (d.ringsAt
    n).length))) ∧ (∃ (s : State) (d : Device) (c : Instr) (n : Nat) (fixed lost : List Nat), Fetches s c n fixed lost d ∧
    serving d = false) :=
  ⟨⟨on live, _, _, 10391, [], [], polls (by decide), by decide +kernel⟩, ⟨on (setF F.PWR_STATE_state 0 4), _, _, 10391, [],
    [], polls (by decide), by decide +kernel⟩⟩

theorem witness_RingService_2 : (∃ (s : State) (d d1 : Device) (e n o m : Nat) (x : Desc) (bs : List Byte), (putRr e n).run
    s.dev = d ∧ o = x.moved.length ∧ m = burstLength x ∧ (modSent (· ++ [.hostRead (ctxFunction (ringCtx d n)) (x.src + o)
    m])).run d = d1 ∧ e < 21 ∧ serving s.dev = true ∧ burstTurn s.dev e = some n ∧ nextDesc (s.dev.ringsAt n) = some x ∧
    x.srcSpace = 1 ∧ m ≤ bs.length) ∧ (∃ (s : State) (d d1 : Device) (e n o m : Nat) (x : Desc) (bs : List Byte), (putRr e
    n).run s.dev = d ∧ o = x.moved.length ∧ m = burstLength x ∧ (modSent (· ++ [.hostRead (ctxFunction (ringCtx d n)) (x.src +
    o) m])).run d = d1 ∧ e < 21 ∧ serving s.dev = true ∧ burstTurn s.dev e = some n ∧ nextDesc (s.dev.ringsAt n) = some x ∧
    x.srcSpace = 1 ∧ bs.length < m) ∧ (∃ (s : State) (d : Device) (e n o m : Nat) (x : Desc), (putRr e n).run s.dev = d ∧ o =
    x.moved.length ∧ m = burstLength x ∧ e < 21 ∧ serving s.dev = true ∧ burstTurn s.dev e = some n ∧ nextDesc (s.dev.ringsAt
    n) = some x ∧ x.srcSpace ≠ 1 ∧ spaceAddrs d n x.srcSpace (x.src + o) m .read = none) ∧ (∃ (s : State) (d d1 : Device) (e n
    o m : Nat) (x : Desc) (fixed lost : List Nat) (as : List (Option Nat)) (k : Nat), (putRr e n).run s.dev = d ∧ o =
    x.moved.length ∧ m = burstLength x ∧ (agentReads n (as.filterMap id) fixed lost).run d = d1 ∧ k = beforePoison d1 (x.src +
    o) as ∧ e < 21 ∧ serving s.dev = true ∧ burstTurn s.dev e = some n ∧ nextDesc (s.dev.ringsAt n) = some x ∧ x.srcSpace ≠ 1
    ∧ spaceAddrs d n x.srcSpace (x.src + o) m .read = some as) :=
  ⟨⟨rings 0 2 [putRings 0 [desc (2 ^ 29) 64]], _, _, 0, 0, _, _, desc (2 ^ 29) 64, List.replicate 64 0, rfl, rfl, rfl, rfl,
    by decide +kernel⟩, ⟨rings 0 2 [putRings 0 [desc (2 ^ 29) 64]], _, _, 0, 0, _, _, desc (2 ^ 29) 64, List.replicate 63 0,
    rfl, rfl, rfl, rfl, by decide +kernel⟩, ⟨rings 0 2 [putRings 0
    [{ raw := toLE 4 0 ++ toLE 4 64 ++ toLE 8 0x20000000 ++ List.replicate 48 0 }]], _, 0, 0, _, _,
    { raw := toLE 4 0 ++ toLE 4 64 ++ toLE 8 0x20000000 ++ List.replicate 48 0 }, rfl, rfl, rfl, by decide +kernel⟩, ⟨rings 0
    2 [putRings 0 [desc 0 64]], _, _, 0, 0, _, _, desc 0 64, [], [], (dram 64).map some, _, rfl, rfl, rfl, rfl, rfl,
    by decide +kernel⟩⟩

theorem witness_RingService_3 : ∃ (s : State) (e : Nat), e < 21 ∧ serving s.dev = true ∧ burstTurn s.dev e = none :=
  ⟨on live, 20, by decide +kernel⟩

theorem witness_RingService_4 : (∃ (s : State) (n st : Nat) (x : Desc) (rest : List Desc), ((∀ as, descAddrs s.dev n x.index
    .write = some as → agentHeld s.dev (ringPart s.dev n) as = false)) ∧ n < 9728 ∧ working s.dev = true ∧ s.dev.ringsAt n = x
    :: rest ∧ x.status = some st ∧ x.unacked = [] ∧ ringState s.dev n ≠ 4 ∧ canWriteBack s.dev n x = true) ∧ (∃ (s : State) (n
    st : Nat) (x : Desc) (rest : List Desc), ((∀ as, descAddrs s.dev n x.index .write = some as → agentHeld s.dev (ringPart
    s.dev n) as = false)) ∧ n < 9728 ∧ working s.dev = true ∧ s.dev.ringsAt n = x :: rest ∧ x.status = some st ∧ x.unacked =
    [] ∧ ringState s.dev n ≠ 4 ∧ canWriteBack s.dev n x = false) ∧ (∃ (s : State) (n st : Nat) (x : Desc) (rest : List Desc),
    (x.unacked ≠ [] ∨ ringState s.dev n = 4 ∨ (∃ as, descAddrs s.dev n x.index .write = some as ∧ agentHeld s.dev (ringPart
    s.dev n) as = true)) ∧ n < 9728 ∧ working s.dev = true ∧ s.dev.ringsAt n = x :: rest ∧ x.status = some st) :=
  ⟨⟨rings 0 2 [putRings 0 [{ status := some 0 }]], 0, 0, { status := some 0 }, [], noneHeld (by decide +kernel : _ = some
    (dram 64) ∧ _), by decide +kernel⟩, ⟨rings 0 2 [putRings 0 [{ status := some 0 }], setF F.DMA_RING_BASE_base 0 0x800000],
    0, 0, { status := some 0 }, [], noneReached (by decide +kernel), by decide +kernel⟩, ⟨rings 0 4 [putRings 0
    [{ status := some 0 }]], 0, 0, { status := some 0 }, [], .inr (.inl (by decide +kernel)), by decide +kernel⟩⟩

theorem witness_RingService_5 : ∃ (s : State) (n : Nat), ((s.dev.ringsAt n = [] ∨ ∃ x rest, s.dev.ringsAt n = x :: rest ∧
    x.status = none)) ∧ n < 9728 ∧ working s.dev = true :=
  ⟨with' [], 9727, .inl (by decide +kernel), by decide +kernel⟩

theorem witness_RingControl_0 : (∃ (s : State) (d : Device) (rq n v : Nat), Writes s rq .DMA_RING_CTRL n v 31 d ∧ n < 10392 ∧
    (isSteward rq || !siteGone ((beforeAccess rq).run s.dev) .DMA_RING_CTRL n) = true ∧ bit v 31 = 1 ∧ ringState d n = 3) ∧ (∃
    (s : State) (d : Device) (rq n v : Nat), Writes s rq .DMA_RING_CTRL n v 31 d ∧ n < 10392 ∧ (isSteward rq || !siteGone
    ((beforeAccess rq).run s.dev) .DMA_RING_CTRL n) = true ∧ (bit v 31 = 0 ∨ ringState d n ≠ 3)) :=
  ⟨⟨with' [ring 10391 3], _, 0, 10391, 2 ^ 31, writes (by decide +kernel), by decide +kernel⟩, ⟨on live, _, 0, 10391, 2 ^ 31,
    writes (by decide +kernel), by decide +kernel⟩⟩

theorem witness_RingControl_1 : (∃ (s : State) (d : Device) (rq n v : Nat), Writes s rq .DMA_RING_CTRL n v 30 d ∧ n < 10392 ∧
    (isSteward rq || !siteGone ((beforeAccess rq).run s.dev) .DMA_RING_CTRL n) = true ∧ bit v 30 = 1 ∧ d.fld
    F.DMA_RING_BASE_enable n = 1) ∧ (∃ (s : State) (d : Device) (rq n v : Nat), Writes s rq .DMA_RING_CTRL n v 30 d ∧ n <
    10392 ∧ (isSteward rq || !siteGone ((beforeAccess rq).run s.dev) .DMA_RING_CTRL n) = true ∧ (bit v 30 = 0 ∨ d.fld
    F.DMA_RING_BASE_enable n ≠ 1)) :=
  ⟨⟨with' [ring 0 1], _, 0, 0, 2 ^ 30, writes (by decide +kernel), by decide +kernel⟩, ⟨on live, _, 0, 10391, 2 ^ 30, writes
    (by decide +kernel), by decide +kernel⟩⟩

theorem witness_RingControl_2 : (∃ (s : State) (d : Device) (rq n v : Nat), Asks s rq d ∧ n < 10392 ∧ (isSteward rq ||
    !siteGone d .DMA_RING_BASE n) = true ∧ bit (mayWrite d rq .DMA_RING_BASE n) 0 = 1 ∧ d.fld F.DMA_RING_BASE_enable n ≠ 1 ∧
    bit v 0 = 1) ∧ (∃ (s : State) (d : Device) (rq n v : Nat), Asks s rq d ∧ n < 10392 ∧ (isSteward rq || !siteGone d
    .DMA_RING_BASE n) = true ∧ bit (mayWrite d rq .DMA_RING_BASE n) 0 = 1 ∧ d.fld F.DMA_RING_BASE_enable n ≠ 1 ∧ bit v 0 = 0)
    ∧ (∃ (s : State) (d : Device) (rq n v : Nat), Asks s rq d ∧ n < 10392 ∧ (isSteward rq || !siteGone d .DMA_RING_BASE n) =
    true ∧ bit (mayWrite d rq .DMA_RING_BASE n) 0 = 1 ∧ d.fld F.DMA_RING_BASE_enable n = 1 ∧ bit v 0 = 0) ∧ (∃ (s : State) (d
    : Device) (rq n v : Nat), Asks s rq d ∧ n < 10392 ∧ (isSteward rq || !siteGone d .DMA_RING_BASE n) = true ∧ bit (mayWrite
    d rq .DMA_RING_BASE n) 0 = 1 ∧ d.fld F.DMA_RING_BASE_enable n = 1 ∧ bit v 0 = 1) :=
  ⟨⟨on live, _, 0, 10391, 1, asks (by decide +kernel), by decide +kernel⟩, ⟨on live, _, 0, 10391, 0, asks (by decide +kernel),
    by decide +kernel⟩, ⟨with' [ring 0 1], _, 0, 0, 0, asks (by decide +kernel), by decide +kernel⟩, ⟨with' [ring 0 1], _, 0,
    0, 1, asks (by decide +kernel), by decide +kernel⟩⟩

theorem witness_RingControl_3 : (∃ (s : State) (n : Nat), n < 10392 ∧ powered s.dev = true ∧ ringState s.dev n = 4 ∧ n < 9728
    ∧ (s.dev.ringsAt n).all (·.unacked.isEmpty) = true) ∧ (∃ (s : State) (n : Nat), n < 10392 ∧ powered s.dev = true ∧
    ringState s.dev n = 4 ∧ n < 9728 ∧ (s.dev.ringsAt n).all (·.unacked.isEmpty) = false) ∧ (∃ (s : State) (n : Nat), n <
    10392 ∧ powered s.dev = true ∧ ringState s.dev n = 4 ∧ 9728 ≤ n ∧ n < 9984) ∧ (∃ (s : State) (n : Nat), n < 10392 ∧
    powered s.dev = true ∧ ringState s.dev n = 4 ∧ 9984 ≤ n ∧ n < 10256) ∧ (∃ (s : State) (n : Nat), n < 10392 ∧ powered s.dev
    = true ∧ ringState s.dev n = 4 ∧ 10256 ≤ n) :=
  ⟨⟨with' [ring 9727 4], 9727, by decide +kernel⟩, ⟨with' [ring 9727 4, putRings 9727 [{ unacked := [(0, 1)] }]], 9727,
    by decide +kernel⟩, ⟨with' [ring 9983 4], 9983, by decide +kernel⟩, ⟨with' [ring 10255 4], 10255, by decide +kernel⟩,
    ⟨with' [ring 10391 4], 10391, by decide +kernel⟩⟩

theorem witness_RingControl_4 : ∃ (s : State) (n : Nat), n < 10392 ∧ powered s.dev = true ∧ ringState s.dev n ≠ 4 :=
  ⟨on live, 10391, by decide +kernel⟩

theorem witness_RingControl_5 : (∃ (s : State) (d : Device) (rq n : Nat), Asks s rq d ∧ n < 10392 ∧ (isSteward rq || !siteGone
    d .DMA_RING_CTRL n) = true ∧ bit (mayWrite d rq .DMA_RING_CTRL n) 31 = 0) ∧ (∃ (s : State) (d : Device) (rq n : Nat), Asks
    s rq d ∧ n < 10392 ∧ (isSteward rq || !siteGone d .DMA_RING_CTRL n) = true ∧ bit (mayWrite d rq .DMA_RING_CTRL n) 30 = 0)
    ∧ (∃ (s : State) (d : Device) (rq n : Nat), Asks s rq d ∧ n < 10392 ∧ (isSteward rq || !siteGone d .DMA_RING_BASE n) =
    true ∧ bit (mayWrite d rq .DMA_RING_BASE n) 0 = 0) ∧ (∃ (s : State) (d : Device) (rq n : Nat), Asks s rq d ∧ n < 10392 ∧
    (isSteward rq || !siteGone d .DMA_RING_DOORBELL n) = true ∧ mayWrite d rq .DMA_RING_DOORBELL n = 0) :=
  ⟨⟨on live, _, 3, 9, asks (by decide +kernel), by decide +kernel⟩, ⟨on live, _, 3, 9, asks (by decide +kernel),
    by decide +kernel⟩, ⟨on live, _, 3, 9, asks (by decide +kernel), by decide +kernel⟩, ⟨on live, _, 3, 9, asks
    (by decide +kernel), by decide +kernel⟩⟩

theorem witness_CueCommands_0 : (∃ (s : State) (p sel : Nat) (c : Option Nat) (counts : List Nat) (q : _), p < 32 ∧ c.all (· <
    1024) = true ∧ counts.all (· < 65536) = true ∧ powered s.dev = true ∧ cueName s.dev p (bits sel 30 29) (bits sel 28 21)
    (bits sel 20 17) (bits sel 16 15) (bits sel 14 9) = some q ∧ counts.foldl (· + ·) 0 ≠ 0) ∧ (∃ (s : State) (p sel : Nat) (c
    : Option Nat) (counts : List Nat) (q : _), p < 32 ∧ c.all (· < 1024) = true ∧ counts.all (· < 65536) = true ∧ powered
    s.dev = true ∧ cueName s.dev p (bits sel 30 29) (bits sel 28 21) (bits sel 20 17) (bits sel 16 15) (bits sel 14 9) = some
    q ∧ counts.foldl (· + ·) 0 = 0) ∧ (∃ (s : State) (p sel : Nat) (c : Option Nat) (counts : List Nat), p < 32 ∧ c.all (· <
    1024) = true ∧ counts.all (· < 65536) = true ∧ powered s.dev = true ∧ cueName s.dev p (bits sel 30 29) (bits sel 28 21)
    (bits sel 20 17) (bits sel 16 15) (bits sel 14 9) = none) :=
  ⟨⟨on (part 0), 0, 0, some 1023, [1], (0, 0, 0), by decide +kernel⟩, ⟨on (part 0), 0, 0, some 1023, [], (0, 0, 0),
    by decide +kernel⟩, ⟨on live, 31, 0, some 1023, [], by decide +kernel⟩⟩

theorem witness_CueCommands_1 : (∃ (s : State) (d : Device) (rq p : Nat), AsksAon s rq d ∧ p < 32 ∧ bit (mayWrite d rq
    .EVT_CUE_SEL p) 9 = 1) ∧ (∃ (s : State) (d : Device) (rq p : Nat), AsksAon s rq d ∧ p < 32 ∧ bit (mayWrite d rq
    .EVT_CUE_SEL p) 9 = 0) :=
  ⟨⟨on live, _, 0, 31, asksAon (by decide +kernel), by decide +kernel⟩, ⟨on live, _, 3, 31, asksAon (by decide +kernel),
    by decide +kernel⟩⟩

theorem witness_CueCommands_2 : (∃ (s : State) (d : Device) (rq p v : Nat) (q : _), AsksAon s rq d ∧ p < 32 ∧ bit (mayWrite d
    rq .EVT_CUE p) 16 = 1 ∧ selectedFor d rq p = some q ∧ bit v 16 = 1) ∧ (∃ (s : State) (d : Device) (rq p v : Nat) (q : _),
    AsksAon s rq d ∧ p < 32 ∧ bit (mayWrite d rq .EVT_CUE p) 16 = 1 ∧ selectedFor d rq p = some q ∧ bit v 16 = 0) ∧ (∃ (s :
    State) (d : Device) (rq p : Nat), AsksAon s rq d ∧ p < 32 ∧ bit (mayWrite d rq .EVT_CUE p) 16 = 1 ∧ selectedFor d rq p =
    none) ∧ (∃ (s : State) (d : Device) (rq p : Nat), AsksAon s rq d ∧ p < 32 ∧ bit (mayWrite d rq .EVT_CUE p) 16 = 0) :=
  ⟨⟨on (.all [part 0, setReg .EVT_CUE_SEL 0 0]), _, 0, 0, 65536, (0, 0, 0), asksAon (by decide +kernel), by decide +kernel⟩,
    ⟨on (.all [part 0, setReg .EVT_CUE_SEL 0 0]), _, 0, 0, 0, (0, 0, 0), asksAon (by decide +kernel), by decide +kernel⟩, ⟨on
    live, _, 0, 31, asksAon (by decide +kernel), by decide +kernel⟩, ⟨on live, _, 3, 31, asksAon (by decide +kernel),
    by decide +kernel⟩⟩

theorem witness_CueCommands_3 : (∃ (s : State) (d : Device) (rq p v : Nat) (q : _), AsksAon s rq d ∧ p < 32 ∧ mayWrite d rq
    .EVT_CUE_ADD p ≠ 0 ∧ selectedFor d rq p = some q ∧ bits v 15 0 ≠ 0) ∧ (∃ (s : State) (d : Device) (rq p v : Nat) (q : _),
    AsksAon s rq d ∧ p < 32 ∧ mayWrite d rq .EVT_CUE_ADD p ≠ 0 ∧ selectedFor d rq p = some q ∧ bits v 15 0 = 0) ∧ (∃ (s :
    State) (d : Device) (rq p : Nat), AsksAon s rq d ∧ p < 32 ∧ mayWrite d rq .EVT_CUE_ADD p ≠ 0 ∧ selectedFor d rq p = none)
    ∧ (∃ (s : State) (d : Device) (rq p : Nat), AsksAon s rq d ∧ p < 32 ∧ mayWrite d rq .EVT_CUE_ADD p = 0) :=
  ⟨⟨on (part 0), _, 0, 0, 1, (0, 0, 0), asksAon (by decide +kernel), by decide +kernel⟩, ⟨on (part 0), _, 0, 0, 65536, (0, 0,
    0), asksAon (by decide +kernel), by decide +kernel⟩, ⟨on live, _, 0, 31, asksAon (by decide +kernel), by decide +kernel⟩,
    ⟨on live, _, 3, 31, asksAon (by decide +kernel), by decide +kernel⟩⟩

theorem witness_TeardownsAndResets_0 : (∃ (s : State) (c : Nat), c < 1024 ∧ powered s.dev = true ∧ s.dev.fld F.CTX_RUN_state c
    = 6 ∧ ctxRings s.dev c = []) ∧ (∃ (s : State) (c : Nat), c < 1024 ∧ powered s.dev = true ∧ (s.dev.fld F.CTX_RUN_state c ≠
    6 ∨ ctxRings s.dev c ≠ [])) :=
  ⟨⟨with' [setF F.CTX_RUN_state 1023 6], 1023, by decide +kernel⟩, ⟨on live, 1023, by decide +kernel⟩⟩

theorem witness_TeardownsAndResets_1 : (∃ (s : State) (d : Device) (rq p v : Nat), Writes s rq .PRT_CTRL p v 30 d ∧ p < 32 ∧
    bit v 30 = 1 ∧ d.fld F.PRT_CTRL_state p = 1) ∧ (∃ (s : State) (d : Device) (rq p v : Nat), Writes s rq .PRT_CTRL p v 30 d
    ∧ p < 32 ∧ (bit v 30 = 0 ∨ d.fld F.PRT_CTRL_state p ≠ 1)) :=
  ⟨⟨on (part 0), _, 0, 0, 2 ^ 30, writes (by decide +kernel), by decide +kernel⟩, ⟨on live, _, 0, 31, 2 ^ 30, writes
    (by decide +kernel), by decide +kernel⟩⟩

theorem witness_TeardownsAndResets_2 : ∃ (s : State) (d : Device) (rq p : Nat), Asks s rq d ∧ p < 32 ∧ bit (mayWrite d rq
    .PRT_CTRL p) 30 = 0 :=
  ⟨on live, _, 3, 31, asks (by decide +kernel), by decide +kernel⟩

theorem witness_LinkLayer_0 : (∃ (s : State) (i vc : Nat) (p rest : _), i < 96 ∧ vc < 8 ∧ powered s.dev = true ∧
    s.dev.egressAt (i * 8 + vc) = p :: rest ∧ linkUp s.dev i = true ∧ p.length ≤ credits (s.dev.portsAt i) vc ∧ (s.dev.portsAt
    i).sent < (s.dev.portsAt i).acked + 256) ∧ (∃ (s : State) (i vc : Nat) (p rest : _), i < 96 ∧ vc < 8 ∧ powered s.dev =
    true ∧ s.dev.egressAt (i * 8 + vc) = p :: rest ∧ (linkUp s.dev i = false ∨ credits (s.dev.portsAt i) vc < p.length ∨
    (s.dev.portsAt i).acked + 256 ≤ (s.dev.portsAt i).sent)) ∧ (∃ (s : State) (i vc : Nat), i < 96 ∧ vc < 8 ∧ powered s.dev =
    true ∧ s.dev.egressAt (i * 8 + vc) = []) :=
  ⟨⟨linked [putEgress 0 [{}]], 0, 0, {}, [], by decide +kernel⟩, ⟨linked [putEgress 767 [{}]], 95, 7, {}, [],
    by decide +kernel⟩, ⟨linked [], 95, 7, by decide +kernel⟩⟩

theorem witness_LinkLayer_1 : (∃ (s : State) (i ack n : Nat) (cr : List Nat), n = (s.dev.portsAt i).acked + (ack % 4096 + 4096
    - (s.dev.portsAt i).acked % 4096) % 4096 ∧ i < 96 ∧ ack < 65536 ∧ cr.all (· < 65536) = true ∧ powered s.dev = true ∧
    linkUp s.dev i = true ∧ cr.length = 8 ∧ n ≤ (s.dev.portsAt i).out) ∧ (∃ (s : State) (i ack n : Nat) (cr : List Nat), n =
    (s.dev.portsAt i).acked + (ack % 4096 + 4096 - (s.dev.portsAt i).acked % 4096) % 4096 ∧ i < 96 ∧ ack < 65536 ∧ cr.all (· <
    65536) = true ∧ powered s.dev = true ∧ (linkUp s.dev i = false ∨ cr.length ≠ 8 ∨ (s.dev.portsAt i).out < n)) :=
  ⟨⟨linked [], 0, 0, _, [0, 0, 0, 0, 0, 0, 0, 0], rfl, by decide +kernel⟩, ⟨linked [], 95, 0, _, [0, 0, 0, 0, 0, 0, 0, 0],
    rfl, by decide +kernel⟩⟩

theorem witness_LinkLayer_2 : (∃ (s : State) (i : Nat) (n : _), i < 96 ∧ powered s.dev = true ∧ linkUp s.dev i = true ∧
    (s.dev.portsAt i).nak = some n) ∧ (∃ (s : State) (i : Nat), i < 96 ∧ powered s.dev = true ∧ (linkUp s.dev i = false ∨
    (s.dev.portsAt i).nak = none)) :=
  ⟨⟨linked [putPorts 0 { nak := some 0 }], 0, 0, by decide +kernel⟩, ⟨linked [], 0, by decide +kernel⟩⟩

theorem witness_LinkLayer_3 : (∃ (s : State) (i k : Nat), i < 96 ∧ k < 257 ∧ powered s.dev = true ∧ linkUp s.dev i = true) ∧
    (∃ (s : State) (i k : Nat), i < 96 ∧ k < 257 ∧ powered s.dev = true ∧ linkUp s.dev i = false) :=
  ⟨⟨linked [], 0, 256, by decide +kernel⟩, ⟨on live, 95, 256, by decide +kernel⟩⟩

theorem witness_LinkLayer_4 : (∃ (s : State) (i lane : Nat) (free : Bool), free = (s.dev.fld F.LNK_PORT_STATUS_no_spare i != 1
    && s.dev.fld F.LNK_PORT_STATUS_spare_used i != 1 && !(s.dev.portsAt i).spareBad) ∧ i < 96 ∧ lane < 8 ∧ powered s.dev =
    true ∧ linkUp s.dev i = true ∧ free = true) ∧ (∃ (s : State) (i lane : Nat) (failed free : Bool), free = (s.dev.fld
    F.LNK_PORT_STATUS_no_spare i != 1 && s.dev.fld F.LNK_PORT_STATUS_spare_used i != 1 && !(s.dev.portsAt i).spareBad) ∧ i <
    96 ∧ lane < 8 ∧ powered s.dev = true ∧ linkUp s.dev i = true ∧ free = false ∧ failed = true) ∧ (∃ (s : State) (i lane :
    Nat) (failed free : Bool), free = (s.dev.fld F.LNK_PORT_STATUS_no_spare i != 1 && s.dev.fld F.LNK_PORT_STATUS_spare_used i
    != 1 && !(s.dev.portsAt i).spareBad) ∧ i < 96 ∧ lane < 8 ∧ powered s.dev = true ∧ (linkUp s.dev i = false ∨ (free = false
    ∧ failed = false))) :=
  ⟨⟨linked [], 0, 7, _, rfl, by decide +kernel⟩, ⟨linked [setF F.LNK_PORT_STATUS_spare_used 0 1], 0, 7, true, _, rfl,
    by decide +kernel⟩, ⟨linked [setF F.LNK_PORT_STATUS_spare_used 0 1], 0, 7, false, _, rfl, by decide +kernel⟩⟩

theorem witness_LinkLayer_5 : (∃ (s : State) (i : Nat), i < 96 ∧ powered s.dev = true ∧ linkUp s.dev i = true) ∧ (∃ (s :
    State) (i : Nat), i < 96 ∧ powered s.dev = true ∧ linkUp s.dev i = false) :=
  ⟨⟨linked [], 0, by decide +kernel⟩, ⟨on live, 95, by decide +kernel⟩⟩

theorem witness_LinkFailover_0 : ∃ (s : State) (d : Device) (i seq dead : Nat) (bs : List Byte) (p : Packet), Arrives s i seq
    bs p d ∧ dead = num p.body 1 1 ∧ p.kind = 8 ∧ num p.body 0 1 = 1 ∧ dead < 96 :=
  ⟨linked [], _, 0, 0, _, packet 8 [1, 95], packetOf (packet 8 [1, 95]), arrives (by decide +kernel), rfl, by decide +kernel⟩

theorem witness_LinkFailover_1 : ∃ (s : State) (d : Device) (i seq dead n : Nat) (bs : List Byte) (p : Packet), Arrives s i
    seq bs p d ∧ dead = num p.body 1 1 ∧ n = (d.portsAt dead).acked + (num p.body 2 2 + 4096 - (d.portsAt dead).acked % 4096)
    % 4096 ∧ p.kind = 8 ∧ num p.body 0 1 = 2 ∧ dead < 96 :=
  ⟨linked [], _, 0, 0, _, _, packet 8 [2, 95, 0, 0], packetOf (packet 8 [2, 95, 0, 0]), arrives (by decide +kernel), rfl, rfl,
    by decide +kernel⟩

theorem witness_LinkFailover_2 : (∃ (s : State) (site : Nat) (d i k : _), (.all [putRetired (siteKey 9 site) true, putApplied
    (siteKey 9 site) true, .when (linkUp s.dev i) (linkDown i 8), setF F.LNK_PORT_STATUS_reason i 8, putRetired (linkBind i 0)
    false, putRetired (linkBind i 1) false] : Eff).run s.dev = d ∧ site < 104 ∧ powered s.dev = true ∧ ((List.range 96).find?
    (fun i => linkSite s.dev i == site) = some i) ∧ freeLinkSite d (site / 26) = some k) ∧ (∃ (s : State) (site : Nat) (d i :
    _), (.all [putRetired (siteKey 9 site) true, putApplied (siteKey 9 site) true, .when (linkUp s.dev i) (linkDown i 8), setF
    F.LNK_PORT_STATUS_reason i 8, putRetired (linkBind i 0) false, putRetired (linkBind i 1) false] : Eff).run s.dev = d ∧
    site < 104 ∧ powered s.dev = true ∧ ((List.range 96).find? (fun i => linkSite s.dev i == site) = some i) ∧ freeLinkSite d
    (site / 26) = none) ∧ (∃ (s : State) (site : Nat), site < 104 ∧ powered s.dev = true ∧ ((List.range 96).find? (fun i =>
    linkSite s.dev i == site) = none)) :=
  ⟨⟨linked [], 23, _, 23, 0, rfl, by decide +kernel⟩, ⟨linked [putApplied (siteKey 9 24) true, putApplied (siteKey 9 25)
    true], 0, _, 0, rfl, by decide +kernel⟩, ⟨linked [], 103, by decide +kernel⟩⟩

theorem witness_LinkFailover_3 : (∃ (s : State) (i : Nat), i < 96 ∧ powered s.dev = true ∧ s.dev.fld F.LNK_PORT_STATUS_state i
    = 1 ∧ s.dev.fld F.LNK_PORT_STATUS_reason i = 8) ∧ (∃ (s : State) (i : Nat), i < 96 ∧ powered s.dev = true ∧ (s.dev.fld
    F.LNK_PORT_STATUS_state i ≠ 1 ∨ s.dev.fld F.LNK_PORT_STATUS_reason i ≠ 8)) :=
  ⟨⟨linked [setF F.LNK_PORT_STATUS_state 95 1, setF F.LNK_PORT_STATUS_reason 95 8], 95, by decide +kernel⟩, ⟨linked [], 95,
    by decide +kernel⟩⟩

theorem witness_PacketReception_0 : (∃ (s : State) (i seq : Nat) (bs : List Byte) (c : Instr), ((c ∈ [.groupFailover i seq bs,
    .packetForward i seq bs, .linkWriteReceive i seq bs, .linkCueReceive i seq bs, .endToEndAck i seq bs, .refusal i seq bs,
    .suspect i seq bs, .reform i seq bs, .reformAck i seq bs, .colCommit i seq bs, .colAbort i seq bs, .exclude i seq bs] ∧
    powered s.dev = true) ∨ (c ∈ [.colReady i seq bs, .colData i seq bs] ∧ working s.dev = true)) ∧ i < 96 ∧ seq < 4096 ∧
    bs.length < 66050 ∧ (linkUp s.dev i = false ∨ seq ≠ (s.dev.portsAt i).received % 4096)) ∧ (∃ (s : State) (i seq : Nat) (bs
    : List Byte) (c : Instr) (k : _), ((c ∈ [.groupFailover i seq bs, .packetForward i seq bs, .linkWriteReceive i seq bs,
    .linkCueReceive i seq bs, .endToEndAck i seq bs, .refusal i seq bs, .suspect i seq bs, .reform i seq bs, .reformAck i seq
    bs, .colCommit i seq bs, .colAbort i seq bs, .exclude i seq bs] ∧ powered s.dev = true) ∨ (c ∈ [.colReady i seq bs,
    .colData i seq bs] ∧ working s.dev = true)) ∧ i < 96 ∧ seq < 4096 ∧ bs.length < 66050 ∧ linkUp s.dev i = true ∧ seq =
    (s.dev.portsAt i).received % 4096 ∧ badFlit bs = some k) :=
  ⟨⟨on live, 95, 1, [], .colReady 95 1 [], .inr ⟨by simp, by decide +kernel⟩, by decide +kernel⟩, ⟨linked [], 0, 0, 2 ::
    List.replicate 256 0, .suspect 0 0 (2 :: List.replicate 256 0), 0, .inl ⟨List.mem_iff_getElem?.mpr ⟨6, rfl⟩,
    by decide +kernel⟩, by decide +kernel⟩⟩

theorem witness_PacketReception_1 : (∃ (s : State) (d : Device) (i seq : Nat) (bs : List Byte) (p : Packet), Comes s i seq bs
    p d ∧ p.kind ≤ 6 ∧ isLocal s.dev (i / 24) p.dst = false ∧ p.hops < 65534) ∧ (∃ (s : State) (d : Device) (i seq : Nat) (bs
    : List Byte) (p : Packet), Comes s i seq bs p d ∧ p.kind ≤ 6 ∧ isLocal s.dev (i / 24) p.dst = false ∧ 65534 ≤ p.hops) :=
  ⟨⟨linked [], _, 0, 0, (packet 1 []), packetOf (packet 1 []), comes (by decide +kernel), by decide +kernel⟩, ⟨linked [], _,
    0, 0, (Packet.wire { kind := 6, hops := 65534 }), packetOf (Packet.wire { kind := 6, hops := 65534 }), comes
    (by decide +kernel), by decide +kernel⟩⟩

theorem witness_PacketReception_2 : (∃ (s : State) (d d' : Device) (i seq k : Nat) (bs data : List Byte) (p : Packet) (f :
    Flow) (as : _), Arrives s i seq bs p d ∧ Admits d 2 p k f data d' ∧ forMe i 1 s.dev p = true ∧ writeHeld s.dev p = false ∧
    translateRange d p.dstCtx p.va .write p.bytes = some as ∧ writable as = true) ∧ (∃ (s : State) (d d' : Device) (i seq k :
    Nat) (bs data : List Byte) (p : Packet) (f : Flow), Arrives s i seq bs p d ∧ Admits d 2 p k f data d' ∧ (translateRange d
    p.dstCtx p.va .write p.bytes = none ∨ (∃ as, translateRange d p.dstCtx p.va .write p.bytes = some as ∧ writable as =
    false)) ∧ forMe i 1 s.dev p = true ∧ writeHeld s.dev p = false) :=
  ⟨⟨linked [flowIn], _, _, 0, 0, 0, (Packet.wire { kind := 1, vc := 1, src := 2, srcCtx := 3, dst := 1, bytes := 64 }),
    List.replicate 64 0, packetOf (Packet.wire { kind := 1, vc := 1, src := 2, srcCtx := 3, dst := 1, bytes := 64 }), inFlow,
    dram 64, arrives (by decide +kernel), admits (by decide +kernel), by decide +kernel⟩, ⟨linked [flowIn], _, _, 0, 0, 0,
    (Packet.wire { kind := 1, vc := 1, src := 2, srcCtx := 3, dst := 1, bytes := 64, va := 0x20000000 }), List.replicate 64 0,
    packetOf (Packet.wire { kind := 1, vc := 1, src := 2, srcCtx := 3, dst := 1, bytes := 64, va := 0x20000000 }), inFlow,
    arrives (by decide +kernel), admits (by decide +kernel), .inl (by decide +kernel), by decide +kernel⟩⟩

theorem witness_PacketReception_3 : ∃ (s : State) (d : Device) (i seq : Nat) (bs : List Byte) (p : Packet), Arrives s i seq bs
    p d ∧ forMe i 1 s.dev p = true ∧ writeHeld s.dev p = true :=
  ⟨linked [flowIn, putRoutesStale true], _, 0, 0, (Packet.wire
    { kind := 1, vc := 1, src := 2, srcCtx := 3, dst := 1, bytes := 64 }), packetOf (Packet.wire
    { kind := 1, vc := 1, src := 2, srcCtx := 3, dst := 1, bytes := 64 }), arrives (by decide +kernel), by decide +kernel⟩

theorem witness_PacketReception_4 : ∃ (s : State) (d d' : Device) (i seq k : Nat) (bs data : List Byte) (p : Packet) (f :
    Flow) (q : _), Arrives s i seq bs p d ∧ Admits d 3 p k f data d' ∧ forMe i 2 s.dev p = true ∧ ctxPart d p.dstCtx = some q
    :=
  ⟨linked [flowIn], _, _, 0, 0, 0, (packet 2 []), [], packetOf (packet 2 []), inFlow, 0, arrives (by decide +kernel), admits
    (by decide +kernel), by decide +kernel⟩

theorem witness_PacketReception_5 : (∃ (s : State) (d : Device) (i seq kind recv : Nat) (bs : List Byte) (p : Packet) (c :
    Instr), Arrives s i seq bs p d ∧ ((c = .linkWriteReceive i seq bs ∧ kind = 1 ∧ recv = 2 ∧ writeHeld s.dev p = false) ∨ (c
    = .linkCueReceive i seq bs ∧ kind = 2 ∧ recv = 3)) ∧ forMe i kind s.dev p = true ∧ recvFlow d p = none) ∧ (∃ (s : State)
    (d : Device) (i seq kind recv : Nat) (bs : List Byte) (p : Packet) (c : Instr) (k f : _), Arrives s i seq bs p d ∧ ((c =
    .linkWriteReceive i seq bs ∧ kind = 1 ∧ recv = 2 ∧ writeHeld s.dev p = false) ∨ (c = .linkCueReceive i seq bs ∧ kind = 2 ∧
    recv = 3)) ∧ forMe i kind s.dev p = true ∧ recvFlow d p = some (k, f) ∧ bit f.flags recv = 0) ∧ (∃ (s : State) (d :
    Device) (i seq kind recv : Nat) (bs : List Byte) (p : Packet) (c : Instr) (k f : _), Arrives s i seq bs p d ∧ ((c =
    .linkWriteReceive i seq bs ∧ kind = 1 ∧ recv = 2 ∧ writeHeld s.dev p = false) ∨ (c = .linkCueReceive i seq bs ∧ kind = 2 ∧
    recv = 3)) ∧ forMe i kind s.dev p = true ∧ recvFlow d p = some (k, f) ∧ bit f.flags recv = 1 ∧ bit f.flags 4 = 1 ∧ p.epoch
    ≠ f.epoch) ∧ (∃ (s : State) (d : Device) (i seq kind recv : Nat) (bs : List Byte) (p : Packet) (c : Instr) (k f : _),
    Arrives s i seq bs p d ∧ ((c = .linkWriteReceive i seq bs ∧ kind = 1 ∧ recv = 2 ∧ writeHeld s.dev p = false) ∨ (c =
    .linkCueReceive i seq bs ∧ kind = 2 ∧ recv = 3)) ∧ forMe i kind s.dev p = true ∧ recvFlow d p = some (k, f) ∧ bit f.flags
    recv = 1 ∧ ((bit f.flags 4 = 0 ∨ p.epoch = f.epoch)) ∧ (kind = 1 ∨ p.vc ≠ 0) ∧ flowVc f p.vc = false) ∧ (∃ (s : State) (d
    : Device) (i seq kind recv : Nat) (bs : List Byte) (p : Packet) (c : Instr) (k f : _), Arrives s i seq bs p d ∧ ((c =
    .linkWriteReceive i seq bs ∧ kind = 1 ∧ recv = 2 ∧ writeHeld s.dev p = false) ∨ (c = .linkCueReceive i seq bs ∧ kind = 2 ∧
    recv = 3)) ∧ forMe i kind s.dev p = true ∧ recvFlow d p = some (k, f) ∧ bit f.flags recv = 1 ∧ ((bit f.flags 4 = 0 ∨
    p.epoch = f.epoch)) ∧ ((kind = 2 ∧ p.vc = 0) ∨ flowVc f p.vc = true) ∧ openPacket d k f p = none) ∧ (∃ (s : State) (d :
    Device) (i seq kind recv : Nat) (bs : List Byte) (p : Packet) (c : Instr) (k f data : _), Arrives s i seq bs p d ∧ ((c =
    .linkWriteReceive i seq bs ∧ kind = 1 ∧ recv = 2 ∧ writeHeld s.dev p = false) ∨ (c = .linkCueReceive i seq bs ∧ kind = 2 ∧
    recv = 3)) ∧ forMe i kind s.dev p = true ∧ recvFlow d p = some (k, f) ∧ bit f.flags recv = 1 ∧ ((bit f.flags 4 = 0 ∨
    p.epoch = f.epoch)) ∧ ((kind = 2 ∧ p.vc = 0) ∨ flowVc f p.vc = true) ∧ openPacket d k f p = some data ∧ ctxRuns d p.dstCtx
    = false) :=
  ⟨⟨linked [local'], _, 0, 0, _, _, (packet 1 []), packetOf (packet 1 []), _, arrives (by decide +kernel), .inl ⟨rfl, rfl,
    rfl, by decide +kernel⟩, by decide +kernel⟩, ⟨linked [flowIn, putFlows 0 { inFlow with flags := 3 }], _, 0, 0, _, _,
    (packet 1 []), packetOf (packet 1 []), _, 0, { inFlow with flags := 3 }, arrives (by decide +kernel), .inl ⟨rfl, rfl, rfl,
    by decide +kernel⟩, by decide +kernel⟩, ⟨linked [flowIn, putFlows 0 { inFlow with flags := 31, epoch := 1 }], _, 0, 0, _,
    _, (packet 2 []), packetOf (packet 2 []), _, 0, { inFlow with flags := 31, epoch := 1 }, arrives (by decide +kernel), .inr
    ⟨rfl, rfl, rfl⟩, by decide +kernel⟩, ⟨linked [flowIn, putFlows 0 { inFlow with vcs := 0 }], _, 0, 0, _, _, (packet 1 []),
    packetOf (packet 1 []), _, 0, { inFlow with vcs := 0 }, arrives (by decide +kernel), .inl ⟨rfl, rfl, rfl,
    by decide +kernel⟩, by decide +kernel⟩, ⟨linked [flowIn, putFlows 0 { inFlow with flags := 47 }], _, 0, 0, _, _, (packet 1
    []), packetOf (packet 1 []), _, 0, { inFlow with flags := 47 }, arrives (by decide +kernel), .inl ⟨rfl, rfl, rfl,
    by decide +kernel⟩, by decide +kernel⟩, ⟨linked [flowIn, setF F.CTX_RUN_state 0 0], _, 0, 0, _, _, (packet 2 []), packetOf
    (packet 2 []), _, 0, inFlow, [], arrives (by decide +kernel), .inr ⟨rfl, rfl, rfl⟩, by decide +kernel⟩⟩

theorem witness_PacketReception_6 : (∃ (s : State) (d : Device) (i seq : Nat) (bs : List Byte) (p : Packet), Arrives s i seq
    bs p d ∧ forMe i 3 s.dev p = true) ∧ (∃ (s : State) (d : Device) (i seq : Nat) (bs : List Byte) (p : Packet), Arrives s i
    seq bs p d ∧ forMe i 4 s.dev p = true ∧ ringKind (tagRing p.tag) ≠ .col) ∧ (∃ (s : State) (d : Device) (i seq : Nat) (bs :
    List Byte) (p : Packet) (o : _), Arrives s i seq bs p d ∧ forMe i 4 s.dev p = true ∧ ringKind (tagRing p.tag) = .col ∧
    d.colOpsAt (tagRing p.tag) = some o ∧ o.index = tagIndex p.tag) ∧ (∃ (s : State) (d : Device) (i seq : Nat) (bs : List
    Byte) (p : Packet) (o : _), Arrives s i seq bs p d ∧ forMe i 4 s.dev p = true ∧ ringKind (tagRing p.tag) = .col ∧
    d.colOpsAt (tagRing p.tag) = some o ∧ o.index ≠ tagIndex p.tag) ∧ (∃ (s : State) (d : Device) (i seq : Nat) (bs : List
    Byte) (p : Packet), Arrives s i seq bs p d ∧ forMe i 4 s.dev p = true ∧ ringKind (tagRing p.tag) = .col ∧ d.colOpsAt
    (tagRing p.tag) = none) :=
  ⟨⟨linked [local'], _, 0, 0, (packet 3 []), packetOf (packet 3 []), arrives (by decide +kernel), by decide +kernel⟩, ⟨linked
    [local'], _, 0, 0, (packet 4 []), packetOf (packet 4 []), arrives (by decide +kernel), by decide +kernel⟩, ⟨linked
    [local', putColOps 9728 (some {})], _, 0, 0, (Packet.wire { kind := 4, dst := 1, tag := 9728 * 281474976710656 }),
    packetOf (Packet.wire { kind := 4, dst := 1, tag := 9728 * 281474976710656 }), {}, arrives (by decide +kernel),
    by decide +kernel⟩, ⟨linked [local', putColOps 9728 (some { index := 1 })], _, 0, 0, (Packet.wire
    { kind := 4, dst := 1, tag := 9728 * 281474976710656 }), packetOf (Packet.wire
    { kind := 4, dst := 1, tag := 9728 * 281474976710656 }), { index := 1 }, arrives (by decide +kernel), by decide +kernel⟩,
    ⟨linked [local'], _, 0, 0, (Packet.wire { kind := 4, dst := 1, tag := 9728 * 281474976710656 }), packetOf (Packet.wire
    { kind := 4, dst := 1, tag := 9728 * 281474976710656 }), arrives (by decide +kernel), by decide +kernel⟩⟩

theorem witness_PacketReception_7 : ∃ (s : State), powered s.dev = true :=
  ⟨on live, by decide +kernel⟩

theorem witness_FlowTable_0 : (∃ (s : State) (d : Device) (rq v : Nat), Writes s rq .LNK_FLOW_CTRL 0 v 31 d ∧ bit v 31 = 1) ∧
    (∃ (s : State) (d : Device) (rq v : Nat), Writes s rq .LNK_FLOW_CTRL 0 v 31 d ∧ bit v 31 = 0) :=
  ⟨⟨on live, _, 0, 2 ^ 31, writes (by decide +kernel), by decide +kernel⟩, ⟨on live, _, 0, 0, writes (by decide +kernel),
    by decide +kernel⟩⟩

theorem witness_FlowTable_1 : ∃ (s : State) (d : Device) (rq : Nat), Asks s rq d ∧ bit (mayWrite d rq .LNK_FLOW_CTRL 0) 31 = 0
    :=
  ⟨on live, _, 3, asks (by decide +kernel), by decide +kernel⟩

theorem witness_FlowTable_2 : ∃ (s : State) (entry : Nat → Flow), ((∀ e, entry e = if s.dev.poisoned (flowAddr s.dev e) 32
    then {} else flowOf (s.dev.bytes (flowAddr s.dev e) 32))) ∧ powered s.dev = true ∧ s.dev.fld F.LNK_FLOW_CTRL_busy 0 = 1 :=
  ⟨(with' [setF F.LNK_FLOW_CTRL_busy 0 1]), fun e => if ((with' [setF F.LNK_FLOW_CTRL_busy 0 1])).dev.poisoned (flowAddr
    ((with' [setF F.LNK_FLOW_CTRL_busy 0 1])).dev e) 32 then {} else flowOf (((with' [setF F.LNK_FLOW_CTRL_busy 0
    1])).dev.bytes (flowAddr ((with' [setF F.LNK_FLOW_CTRL_busy 0 1])).dev e) 32), fun _ => rfl, by decide +kernel⟩

theorem witness_FlowTable_3 : ∃ (s : State), powered s.dev = true ∧ s.dev.fld F.LNK_FLOW_CTRL_busy 0 ≠ 1 :=
  ⟨on live, by decide +kernel⟩

theorem witness_PortTraining_0 : (∃ (s : State) (i : Nat) (m : List Byte) (c : Instr) (start : Eff), s.Ok ∧ ((c =
    .portTraining i m ∨ (c = .portAttach i m ∧ linkUp s.dev i = false))) ∧ start = .all [putSideband (moduleKey s.dev i) m,
    setF F.LNK_PORT_STATUS_role i (boardRole s.dev i), setF F.LNK_PORT_STATUS_site i (linkSite s.dev i), setF
    F.LNK_PORT_STATUS_spare_used i 0, setF F.LNK_PORT_STATUS_no_spare i 0, putNbrs i none] ∧ i < 96 ∧ m.length < 257 ∧ powered
    s.dev = true ∧ boardRole s.dev i = 15) ∧ (∃ (s : State) (i : Nat) (m : List Byte) (c : Instr) (start : Eff), s.Ok ∧ ((c =
    .portTraining i m ∨ (c = .portAttach i m ∧ linkUp s.dev i = false))) ∧ start = .all [putSideband (moduleKey s.dev i) m,
    setF F.LNK_PORT_STATUS_role i (boardRole s.dev i), setF F.LNK_PORT_STATUS_site i (linkSite s.dev i), setF
    F.LNK_PORT_STATUS_spare_used i 0, setF F.LNK_PORT_STATUS_no_spare i 0, putNbrs i none] ∧ boardRole s.dev i ≠ 15 ∧ i < 96 ∧
    m.length < 257 ∧ powered s.dev = true ∧ m = []) ∧ (∃ (s : State) (i : Nat) (m : List Byte) (c : Instr) (start : Eff), s.Ok
    ∧ ((c = .portTraining i m ∨ (c = .portAttach i m ∧ linkUp s.dev i = false))) ∧ start = .all [putSideband (moduleKey s.dev
    i) m, setF F.LNK_PORT_STATUS_role i (boardRole s.dev i), setF F.LNK_PORT_STATUS_site i (linkSite s.dev i), setF
    F.LNK_PORT_STATUS_spare_used i 0, setF F.LNK_PORT_STATUS_no_spare i 0, putNbrs i none] ∧ boardRole s.dev i ≠ 15 ∧ i < 96 ∧
    m.length < 257 ∧ powered s.dev = true ∧ num m 0 1 = 0x41 ∧ num m 0xFC 4 ≠ crc32c (m.take 0xFC)) ∧ (∃ (s : State) (i : Nat)
    (m : List Byte) (c : Instr) (start : Eff), s.Ok ∧ ((c = .portTraining i m ∨ (c = .portAttach i m ∧ linkUp s.dev i =
    false))) ∧ start = .all [putSideband (moduleKey s.dev i) m, setF F.LNK_PORT_STATUS_role i (boardRole s.dev i), setF
    F.LNK_PORT_STATUS_site i (linkSite s.dev i), setF F.LNK_PORT_STATUS_spare_used i 0, setF F.LNK_PORT_STATUS_no_spare i 0,
    putNbrs i none] ∧ boardRole s.dev i ≠ 15 ∧ num m 0xFC 4 = crc32c (m.take 0xFC) ∧ i < 96 ∧ m.length < 257 ∧ powered s.dev =
    true ∧ num m 0 1 = 0x41 ∧ 2 < num m 0x13 1) ∧ (∃ (s : State) (i : Nat) (m : List Byte) (c : Instr) (start : Eff), s.Ok ∧
    ((c = .portTraining i m ∨ (c = .portAttach i m ∧ linkUp s.dev i = false))) ∧ start = .all [putSideband (moduleKey s.dev i)
    m, setF F.LNK_PORT_STATUS_role i (boardRole s.dev i), setF F.LNK_PORT_STATUS_site i (linkSite s.dev i), setF
    F.LNK_PORT_STATUS_spare_used i 0, setF F.LNK_PORT_STATUS_no_spare i 0, putNbrs i none] ∧ boardRole s.dev i ≠ 15 ∧ num m
    0xFC 4 = crc32c (m.take 0xFC) ∧ i < 96 ∧ m.length < 257 ∧ powered s.dev = true ∧ num m 0 1 = 0x41 ∧ num m 0x13 1 ≤ 2 ∧ num
    m 5 1 = 3) ∧ (∃ (s : State) (i : Nat) (m : List Byte) (c : Instr) (start : Eff), s.Ok ∧ ((c = .portTraining i m ∨ (c =
    .portAttach i m ∧ linkUp s.dev i = false))) ∧ start = .all [putSideband (moduleKey s.dev i) m, setF F.LNK_PORT_STATUS_role
    i (boardRole s.dev i), setF F.LNK_PORT_STATUS_site i (linkSite s.dev i), setF F.LNK_PORT_STATUS_spare_used i 0, setF
    F.LNK_PORT_STATUS_no_spare i 0, putNbrs i none] ∧ boardRole s.dev i ≠ 15 ∧ num m 0xFC 4 = crc32c (m.take 0xFC) ∧ i < 96 ∧
    m.length < 257 ∧ powered s.dev = true ∧ num m 0 1 = 0x41 ∧ num m 0x13 1 ≤ 2 ∧ num m 5 1 ≠ 3) ∧ (∃ (s : State) (i : Nat) (m
    : List Byte) (c : Instr) (start : Eff), s.Ok ∧ ((c = .portTraining i m ∨ (c = .portAttach i m ∧ linkUp s.dev i = false)))
    ∧ start = .all [putSideband (moduleKey s.dev i) m, setF F.LNK_PORT_STATUS_role i (boardRole s.dev i), setF
    F.LNK_PORT_STATUS_site i (linkSite s.dev i), setF F.LNK_PORT_STATUS_spare_used i 0, setF F.LNK_PORT_STATUS_no_spare i 0,
    putNbrs i none] ∧ boardRole s.dev i ≠ 15 ∧ i < 96 ∧ m.length < 257 ∧ powered s.dev = true ∧ m ≠ [] ∧ num m 0 1 ≠ 0x41 ∧
    num m 1 1 = 9) ∧ (∃ (s : State) (i : Nat) (m : List Byte) (c : Instr) (start : Eff), s.Ok ∧ ((c = .portTraining i m ∨ (c =
    .portAttach i m ∧ linkUp s.dev i = false))) ∧ start = .all [putSideband (moduleKey s.dev i) m, setF F.LNK_PORT_STATUS_role
    i (boardRole s.dev i), setF F.LNK_PORT_STATUS_site i (linkSite s.dev i), setF F.LNK_PORT_STATUS_spare_used i 0, setF
    F.LNK_PORT_STATUS_no_spare i 0, putNbrs i none] ∧ boardRole s.dev i ≠ 15 ∧ i < 96 ∧ m.length < 257 ∧ powered s.dev = true
    ∧ m ≠ [] ∧ num m 0 1 ≠ 0x41 ∧ num m 1 1 = 8) ∧ (∃ (s : State) (i : Nat) (m : List Byte) (c : Instr) (start : Eff), s.Ok ∧
    ((c = .portTraining i m ∨ (c = .portAttach i m ∧ linkUp s.dev i = false))) ∧ start = .all [putSideband (moduleKey s.dev i)
    m, setF F.LNK_PORT_STATUS_role i (boardRole s.dev i), setF F.LNK_PORT_STATUS_site i (linkSite s.dev i), setF
    F.LNK_PORT_STATUS_spare_used i 0, setF F.LNK_PORT_STATUS_no_spare i 0, putNbrs i none] ∧ boardRole s.dev i ≠ 15 ∧ i < 96 ∧
    m.length < 257 ∧ powered s.dev = true ∧ m ≠ [] ∧ num m 0 1 ≠ 0x41 ∧ num m 1 1 ≠ 9 ∧ num m 1 1 ≠ 8) :=
  ⟨⟨on live, 95, [], _, _, (by unfold State.Ok; constructor <;> decide +kernel), .inl rfl, rfl, by decide +kernel⟩, ⟨boarded,
    95, [], _, _, (by unfold State.Ok; constructor <;> decide +kernel), .inr ⟨rfl, by decide +kernel⟩, rfl, boarded_role,
    by decide +kernel⟩, ⟨boarded, 95, [0x41], _, _, (by unfold State.Ok; constructor <;> decide +kernel), .inl rfl, rfl,
    boarded_role, by decide +kernel⟩, ⟨boarded, 95, moduleOf 1 3, _, _, (by unfold State.Ok; constructor <;> decide +kernel),
    .inl rfl, rfl, boarded_role, crc_at (moduleHead 1 3) (by decide +kernel), by decide +kernel⟩, ⟨boarded, 95, moduleOf 3 2,
    _, _, (by unfold State.Ok; constructor <;> decide +kernel), .inl rfl, rfl, boarded_role, crc_at (moduleHead 3 2)
    (by decide +kernel), by decide +kernel⟩, ⟨boarded, 95, moduleOf 1 2, _, _,
    (by unfold State.Ok; constructor <;> decide +kernel), .inl rfl, rfl, boarded_role, crc_at (moduleHead 1 2)
    (by decide +kernel), by decide +kernel⟩, ⟨boarded, 95, [0, 9], _, _, (by unfold State.Ok; constructor <;> decide +kernel),
    .inl rfl, rfl, boarded_role, by decide +kernel⟩, ⟨boarded, 95, [0, 8], _, _,
    (by unfold State.Ok; constructor <;> decide +kernel), .inl rfl, rfl, boarded_role, by decide +kernel⟩, ⟨boarded, 95, [0,
    7], _, _, (by unfold State.Ok; constructor <;> decide +kernel), .inl rfl, rfl, boarded_role, by decide +kernel⟩⟩

theorem witness_PortTraining_1 : ∃ (s : State) (i : Nat) (m : List Byte), i < 96 ∧ m.length < 257 ∧ powered s.dev = true ∧
    linkUp s.dev i = true :=
  ⟨linked [], 0, [], by decide +kernel⟩

theorem witness_PortTraining_2 : (∃ (s : State) (i : Nat) (failed bad : List Nat), (bad = (if failed = [] ∧ s.dev.fld
    F.LNK_PORT_STATUS_no_spare i ≠ 1 then ((List.range 8).filter fun l => s.dev.laneMarksAt (i * 16 + l)).take 1 else
    failed.dedup)) ∧ i < 96 ∧ failed.all (· < 9) = true ∧ powered s.dev = true ∧ s.dev.fld F.LNK_PORT_STATUS_state i ≠ 1) ∧ (∃
    (s : State) (i : Nat) (failed bad : List Nat) (t : Bool), (bad = (if failed = [] ∧ s.dev.fld F.LNK_PORT_STATUS_no_spare i
    ≠ 1 then ((List.range 8).filter fun l => s.dev.laneMarksAt (i * 16 + l)).take 1 else failed.dedup)) ∧ i < 96 ∧ failed.all
    (· < 9) = true ∧ powered s.dev = true ∧ s.dev.fld F.LNK_PORT_STATUS_state i = 1 ∧ t = false) ∧ (∃ (s : State) (i : Nat)
    (failed bad : List Nat) (t : Bool), (bad = (if failed = [] ∧ s.dev.fld F.LNK_PORT_STATUS_no_spare i ≠ 1 then ((List.range
    8).filter fun l => s.dev.laneMarksAt (i * 16 + l)).take 1 else failed.dedup)) ∧ i < 96 ∧ failed.all (· < 9) = true ∧
    powered s.dev = true ∧ s.dev.fld F.LNK_PORT_STATUS_state i = 1 ∧ t = true ∧ (2 ≤ bad.length ∨ (s.dev.fld
    F.LNK_PORT_STATUS_no_spare i = 1 ∧ bad ≠ []))) ∧ (∃ (s : State) (i : Nat) (failed bad : List Nat) (t : Bool), (bad = (if
    failed = [] ∧ s.dev.fld F.LNK_PORT_STATUS_no_spare i ≠ 1 then ((List.range 8).filter fun l => s.dev.laneMarksAt (i * 16 +
    l)).take 1 else failed.dedup)) ∧ i < 96 ∧ failed.all (· < 9) = true ∧ powered s.dev = true ∧ s.dev.fld
    F.LNK_PORT_STATUS_state i = 1 ∧ t = true ∧ bad = []) ∧ (∃ (s : State) (i : Nat) (failed bad : List Nat) (t : Bool) (l :
    _), (bad = (if failed = [] ∧ s.dev.fld F.LNK_PORT_STATUS_no_spare i ≠ 1 then ((List.range 8).filter fun l =>
    s.dev.laneMarksAt (i * 16 + l)).take 1 else failed.dedup)) ∧ i < 96 ∧ failed.all (· < 9) = true ∧ powered s.dev = true ∧
    s.dev.fld F.LNK_PORT_STATUS_state i = 1 ∧ t = true ∧ bad = [l] ∧ s.dev.fld F.LNK_PORT_STATUS_no_spare i ≠ 1) :=
  ⟨⟨linked [], 95, [8], _, rfl, by decide +kernel⟩, ⟨with' [setF F.LNK_PORT_STATUS_state 95 1], 95, [8], _, false, rfl,
    by decide +kernel⟩, ⟨with' [setF F.LNK_PORT_STATUS_state 95 1], 95, [0, 8], _, true, rfl, by decide +kernel⟩, ⟨with' [setF
    F.LNK_PORT_STATUS_state 95 1], 95, [], _, true, rfl, by decide +kernel⟩, ⟨with' [setF F.LNK_PORT_STATUS_state 95 1], 95,
    [7], _, true, 7, rfl, by decide +kernel⟩⟩

theorem witness_PortTraining_3 : (∃ (s : State) (i : Nat), i < 96 ∧ powered s.dev = true ∧ s.dev.fld F.LNK_PORT_STATUS_state i
    = 3 ∧ s.dev.fld F.LNK_PORT_STATUS_reason i = 3) ∧ (∃ (s : State) (i : Nat), i < 96 ∧ powered s.dev = true ∧ (s.dev.fld
    F.LNK_PORT_STATUS_state i ≠ 3 ∨ s.dev.fld F.LNK_PORT_STATUS_reason i ≠ 3)) :=
  ⟨⟨with' [setF F.LNK_PORT_STATUS_state 95 3, setF F.LNK_PORT_STATUS_reason 95 3], 95, by decide +kernel⟩, ⟨on live, 95,
    by decide +kernel⟩⟩

theorem witness_Promenade_0 : (∃ (s : State) (i serial system line round size port role : Nat), i < 96 ∧ serial <
    18446744073709551616 ∧ system < 4294967296 ∧ line < 4096 ∧ round < 256 ∧ size < 256 ∧ port < 96 ∧ role < 4 ∧ powered s.dev
    = true ∧ linkUp s.dev i = false) ∧ (∃ (s : State) (i serial system line round size port role : Nat), i < 96 ∧ serial <
    18446744073709551616 ∧ system < 4294967296 ∧ line < 4096 ∧ round < 256 ∧ size < 256 ∧ port < 96 ∧ role < 4 ∧ powered s.dev
    = true ∧ linkUp s.dev i = true ∧ complementary (s.dev.fld F.LNK_PORT_STATUS_role i) role = true ∧ system = boardNum s.dev
    0xC 4 0) ∧ (∃ (s : State) (i serial system line round size port role : Nat), i < 96 ∧ serial < 18446744073709551616 ∧
    system < 4294967296 ∧ line < 4096 ∧ round < 256 ∧ size < 256 ∧ port < 96 ∧ role < 4 ∧ powered s.dev = true ∧ linkUp s.dev
    i = true ∧ complementary (s.dev.fld F.LNK_PORT_STATUS_role i) role = true ∧ system ≠ boardNum s.dev 0xC 4 0) ∧ (∃ (s :
    State) (i serial system line round size port role : Nat), i < 96 ∧ serial < 18446744073709551616 ∧ system < 4294967296 ∧
    line < 4096 ∧ round < 256 ∧ size < 256 ∧ port < 96 ∧ role < 4 ∧ powered s.dev = true ∧ linkUp s.dev i = true ∧
    complementary (s.dev.fld F.LNK_PORT_STATUS_role i) role = false) :=
  ⟨⟨on live, 95, 1, 0, 4095, 255, 255, 95, 3, by decide +kernel⟩, ⟨with' [setF F.LNK_PORT_STATUS_state 0 2, setF
    F.LNK_PORT_STATUS_role 0 0], 0, 1, 0, 4095, 255, 255, 95, 1, by decide +kernel⟩, ⟨with' [setF F.LNK_PORT_STATUS_state 0 2,
    setF F.LNK_PORT_STATUS_role 0 0], 0, 1, 4294967295, 4095, 255, 255, 95, 1, by decide +kernel⟩, ⟨with' [setF
    F.LNK_PORT_STATUS_state 0 2, setF F.LNK_PORT_STATUS_role 0 0], 0, 1, 0, 4095, 255, 255, 95, 3, by decide +kernel⟩⟩

theorem witness_Promenade_1 : (∃ (s : State) (i serial : Nat) (root : Bool), ((∀ b, s.dev.prom.best = some b → betterCandidate
    s.dev.prom.ignoreRoot (root, serial) b = true)) ∧ i < 96 ∧ powered s.dev = true ∧ linkUp s.dev i = true) ∧ (∃ (s : State)
    (i serial : Nat) (root : Bool), (linkUp s.dev i = false ∨ (∃ b, s.dev.prom.best = some b ∧ betterCandidate
    s.dev.prom.ignoreRoot (root, serial) b = false)) ∧ i < 96 ∧ powered s.dev = true) :=
  ⟨⟨with' [setF F.LNK_PORT_STATUS_state 0 2], 0, 1, true, (fun _ h => nomatch h), by decide +kernel⟩, ⟨on live, 0, 1, true,
    .inl (by decide +kernel), by decide +kernel⟩⟩

theorem witness_Promenade_2 : ∃ (s : State), powered s.dev = true :=
  ⟨on live, by decide +kernel⟩

theorem witness_Promenade_3 : (∃ (s : State) (i serial line round : Nat) (conflict mine isRoot walking : Bool), conflict =
    (s.dev.fld F.LNK_COORD_line 0 != line || s.dev.fld F.LNK_COORD_round 0 != round) ∧ mine = (s.dev.prom.best.map (·.2) ==
    some serial && s.dev.fld F.LNK_DEVICE_root 0 == 0) ∧ isRoot = (s.dev.prom.best.map (·.2) == some serial && s.dev.fld
    F.LNK_DEVICE_root 0 == 1) ∧ walking = (s.dev.fld F.LNK_PROM_STATUS_state 0 == 4 || s.dev.fld F.LNK_PROM_STATUS_state 0 ==
    5) ∧ i < 96 ∧ line < 4096 ∧ round < 256 ∧ powered s.dev = true ∧ linkUp s.dev i = true ∧ mine = true ∧ walking = false) ∧
    (∃ (s : State) (i serial line round : Nat) (conflict mine isRoot walking : Bool), conflict = (s.dev.fld F.LNK_COORD_line 0
    != line || s.dev.fld F.LNK_COORD_round 0 != round) ∧ mine = (s.dev.prom.best.map (·.2) == some serial && s.dev.fld
    F.LNK_DEVICE_root 0 == 0) ∧ isRoot = (s.dev.prom.best.map (·.2) == some serial && s.dev.fld F.LNK_DEVICE_root 0 == 1) ∧
    walking = (s.dev.fld F.LNK_PROM_STATUS_state 0 == 4 || s.dev.fld F.LNK_PROM_STATUS_state 0 == 5) ∧ i < 96 ∧ line < 4096 ∧
    round < 256 ∧ powered s.dev = true ∧ linkUp s.dev i = true ∧ ((mine = true ∧ walking = true) ∨ isRoot = true) ∧ conflict =
    false) ∧ (∃ (s : State) (i serial line round : Nat) (conflict mine isRoot walking : Bool), conflict = (s.dev.fld
    F.LNK_COORD_line 0 != line || s.dev.fld F.LNK_COORD_round 0 != round) ∧ mine = (s.dev.prom.best.map (·.2) == some serial
    && s.dev.fld F.LNK_DEVICE_root 0 == 0) ∧ isRoot = (s.dev.prom.best.map (·.2) == some serial && s.dev.fld F.LNK_DEVICE_root
    0 == 1) ∧ walking = (s.dev.fld F.LNK_PROM_STATUS_state 0 == 4 || s.dev.fld F.LNK_PROM_STATUS_state 0 == 5) ∧ i < 96 ∧ line
    < 4096 ∧ round < 256 ∧ powered s.dev = true ∧ linkUp s.dev i = true ∧ ((mine = true ∧ walking = true) ∨ isRoot = true) ∧
    conflict = true) ∧ (∃ (s : State) (i serial line round : Nat) (conflict mine isRoot walking : Bool), conflict = (s.dev.fld
    F.LNK_COORD_line 0 != line || s.dev.fld F.LNK_COORD_round 0 != round) ∧ mine = (s.dev.prom.best.map (·.2) == some serial
    && s.dev.fld F.LNK_DEVICE_root 0 == 0) ∧ isRoot = (s.dev.prom.best.map (·.2) == some serial && s.dev.fld F.LNK_DEVICE_root
    0 == 1) ∧ walking = (s.dev.fld F.LNK_PROM_STATUS_state 0 == 4 || s.dev.fld F.LNK_PROM_STATUS_state 0 == 5) ∧ i < 96 ∧ line
    < 4096 ∧ round < 256 ∧ powered s.dev = true ∧ (linkUp s.dev i = false ∨ (mine = false ∧ isRoot = false))) :=
  ⟨⟨walked [], 0, 5, 4095, 255, _, _, _, _, rfl, rfl, rfl, rfl, by decide +kernel⟩, ⟨walked [setF F.LNK_PROM_STATUS_state 0
    4], 0, 5, 0, 0, _, _, _, _, rfl, rfl, rfl, rfl, by decide +kernel⟩, ⟨walked [setF F.LNK_DEVICE_root 0 1], 0, 5, 4095, 255,
    _, _, _, _, rfl, rfl, rfl, rfl, by decide +kernel⟩, ⟨on live, 95, 5, 4095, 255, _, _, _, _, rfl, rfl, rfl, rfl,
    by decide +kernel⟩⟩

theorem witness_Promenade_4 : (∃ (s : State) (i : Nat) (g : _), i < 96 ∧ powered s.dev = true ∧ g < 96 ∧
    ((s.dev.prom.asked.find? fun j => (groupAll s.dev i).contains j) = some g)) ∧ (∃ (s : State) (i : Nat), i < 96 ∧ powered
    s.dev = true ∧ ((s.dev.prom.asked.find? fun j => (groupAll s.dev i).contains j) = none)) :=
  ⟨⟨walked [], 0, 0, by decide +kernel⟩, ⟨on live, 95, by decide +kernel⟩⟩

theorem witness_Promenade_5 : (∃ (s : State) (i : Nat) (g : _), i < 96 ∧ powered s.dev = true ∧ ((s.dev.prom.children.find?
    fun j => (groupAll s.dev i).contains j) = some g) ∧ s.dev.prom.done.contains g = false) ∧ (∃ (s : State) (i : Nat) (g :
    _), i < 96 ∧ powered s.dev = true ∧ ((s.dev.prom.children.find? fun j => (groupAll s.dev i).contains j) = some g) ∧
    s.dev.prom.done.contains g = true) ∧ (∃ (s : State) (i : Nat), i < 96 ∧ powered s.dev = true ∧ ((s.dev.prom.children.find?
    fun j => (groupAll s.dev i).contains j) = none)) :=
  ⟨⟨walked [], 0, 0, by decide +kernel⟩, ⟨walked [modProm fun m => { m with done := [0] }], 0, 0, by decide +kernel⟩, ⟨on
    live, 95, by decide +kernel⟩⟩

theorem witness_Promenade_6 : (∃ (s : State) (src : Option Nat) (root : Nat) (devs groups bs : List Byte) (us : Nat) (xs :
    List TopoDev) (ready : Bool), (ready = (match src with
    | some i => s.dev.prom.parent.any fun j => (groupAll s.dev i).contains j | none => s.dev.prom.parent.isNone && s.dev.fld
      F.LNK_DEVICE_root 0 == 1)) ∧ xs = sortDevs (if src.isSome then topoDevs devs groups else s.dev.prom.subtree) ∧ (root =
      ((xs.find? fun x => bit x.flags 0 == 1).map (·.id)).getD 0) ∧ bs = mapBytes xs root us ∧ src.all (· < 96) = true ∧
      powered s.dev = true ∧ ready = true ∧ s.dev.fld F.LNK_PROM_STATUS_state 0 = 5) ∧ (∃ (s : State) (src : Option Nat) (root
      : Nat) (devs groups bs : List Byte) (us : Nat) (xs : List TopoDev) (ready : Bool), (ready = (match src with
    | some i => s.dev.prom.parent.any fun j => (groupAll s.dev i).contains j | none => s.dev.prom.parent.isNone && s.dev.fld
      F.LNK_DEVICE_root 0 == 1)) ∧ xs = sortDevs (if src.isSome then topoDevs devs groups else s.dev.prom.subtree) ∧ (root =
      ((xs.find? fun x => bit x.flags 0 == 1).map (·.id)).getD 0) ∧ bs = mapBytes xs root us ∧ src.all (· < 96) = true ∧
      powered s.dev = true ∧ (ready = false ∨ s.dev.fld F.LNK_PROM_STATUS_state 0 ≠ 5)) :=
  ⟨⟨walked [setF F.LNK_PROM_STATUS_state 0 5], some 0, _, [], [], _, 0, _, _, rfl, rfl, rfl, rfl, by decide +kernel⟩, ⟨walked
    [], none, _, [], [], _, 0, _, _, rfl, rfl, rfl, rfl, by decide +kernel⟩⟩

theorem witness_Promenade_7 : (∃ (s : State) (d : Device) (rq v : Nat), Writes s rq .LNK_PROM_CTRL 0 v 31 d ∧ bit v 31 = 1 ∧
    d.fld F.LNK_DEVICE_root 0 = 1) ∧ (∃ (s : State) (d : Device) (rq v : Nat), Writes s rq .LNK_PROM_CTRL 0 v 31 d ∧ (bit v 31
    = 0 ∨ d.fld F.LNK_DEVICE_root 0 ≠ 1)) :=
  ⟨⟨with' [setF F.LNK_DEVICE_root 0 1], _, 0, 2 ^ 31, writes (by decide +kernel), by decide +kernel⟩, ⟨on live, _, 0, 2 ^ 31,
    writes (by decide +kernel), by decide +kernel⟩⟩

theorem witness_Promenade_8 : ∃ (s : State) (d : Device) (rq : Nat), Asks s rq d ∧ bit (mayWrite d rq .LNK_PROM_CTRL 0) 31 = 0
    :=
  ⟨on live, _, 3, asks (by decide +kernel), by decide +kernel⟩

theorem witness_Promenade_9 : (∃ (s : State), powered s.dev = true ∧ s.dev.fld F.LNK_DEVICE_root 0 = 0 ∧ s.dev.fld
    F.LNK_PROM_STATUS_state 0 ≤ 5) ∧ (∃ (s : State), powered s.dev = true ∧ (s.dev.fld F.LNK_DEVICE_root 0 ≠ 0 ∨ 5 < s.dev.fld
    F.LNK_PROM_STATUS_state 0)) :=
  ⟨⟨on live, by decide +kernel⟩, ⟨with' [setF F.LNK_PROM_STATUS_state 0 6], by decide +kernel⟩⟩

theorem witness_CollectiveStarts_0 : ∃ (s : State) (n op : Nat) (c : Instr) (o : ColOp), (c, op) ∈ [(.allReduce n, 0),
    (.reduceScatter n, 1), (.allGather n, 2), (.broadcast n, 3), (.allToAll n, 4), (.fused n, 5)] ∧ Begins s n op o :=
  ⟨starts 5, 9728, 5, .fused 9728, colOp 0 0, by simp, ⟨by decide +kernel,
    (by unfold State.Ok; constructor <;> decide +kernel), by decide +kernel, by decide +kernel, by decide +kernel, ⟨0, colDesc
    5, [{ count := 1 }], by decide +kernel, by decide +kernel, by decide +kernel, by decide +kernel, by decide +kernel, rfl,
    by decide +kernel, by decide +kernel, by decide +kernel⟩, by decide +kernel⟩⟩

theorem witness_CollectiveStarts_1 : (∃ (s : State) (n op i : Nat) (c : Instr) (x : Desc), (c, op) ∈ [(.allReduce n, 0),
    (.reduceScatter n, 1), (.allGather n, 2), (.broadcast n, 3), (.allToAll n, 4), (.fused n, 5)] ∧ s.Ok ∧ n < 9984 ∧ working
    s.dev = true ∧ ringKind n = .col ∧ ringServed s.dev n = true ∧ ((ringState s.dev n = 2 ∨ ringState s.dev n = 3)) ∧
    s.dev.colOpsAt n = none ∧ (s.dev.ringsAt n).findIdx? (·.status.isNone) = some i ∧ (s.dev.ringsAt n)[i]? = some x ∧ (bits
    x.ctrl 30 28 ≠ op ∨ (bit x.ctrl 23 = 1 ∧ i ≠ 0))) ∧ (∃ (s : State) (n op i : Nat) (c : Instr) (x : Desc), (c, op) ∈
    [(.allReduce n, 0), (.reduceScatter n, 1), (.allGather n, 2), (.broadcast n, 3), (.allToAll n, 4), (.fused n, 5)] ∧ s.Ok ∧
    n < 9984 ∧ working s.dev = true ∧ ringKind n = .col ∧ ringServed s.dev n = true ∧ ((ringState s.dev n = 2 ∨ ringState
    s.dev n = 3)) ∧ s.dev.colOpsAt n = none ∧ (s.dev.ringsAt n).findIdx? (·.status.isNone) = some i ∧ (s.dev.ringsAt n)[i]? =
    some x ∧ bits x.ctrl 30 28 = op ∧ ((bit x.ctrl 23 = 0 ∨ i = 0)) ∧ descGroup s.dev n x = none) ∧ (∃ (s : State) (n op i :
    Nat) (c : Instr) (x : Desc) (g : _), (c, op) ∈ [(.allReduce n, 0), (.reduceScatter n, 1), (.allGather n, 2), (.broadcast
    n, 3), (.allToAll n, 4), (.fused n, 5)] ∧ s.Ok ∧ n < 9984 ∧ working s.dev = true ∧ ringKind n = .col ∧ ringServed s.dev n
    = true ∧ ((ringState s.dev n = 2 ∨ ringState s.dev n = 3)) ∧ s.dev.colOpsAt n = none ∧ (s.dev.ringsAt n).findIdx?
    (·.status.isNone) = some i ∧ (s.dev.ringsAt n)[i]? = some x ∧ bits x.ctrl 30 28 = op ∧ ((bit x.ctrl 23 = 0 ∨ i = 0)) ∧
    descGroup s.dev n x = some g ∧ s.dev.fld F.COL_GROUP_broken g = 1) ∧ (∃ (s : State) (n op i : Nat) (c : Instr) (x : Desc)
    (g : _), (c, op) ∈ [(.allReduce n, 0), (.reduceScatter n, 1), (.allGather n, 2), (.broadcast n, 3), (.allToAll n, 4),
    (.fused n, 5)] ∧ s.Ok ∧ n < 9984 ∧ working s.dev = true ∧ ringKind n = .col ∧ ringServed s.dev n = true ∧ ((ringState
    s.dev n = 2 ∨ ringState s.dev n = 3)) ∧ s.dev.colOpsAt n = none ∧ (s.dev.ringsAt n).findIdx? (·.status.isNone) = some i ∧
    (s.dev.ringsAt n)[i]? = some x ∧ bits x.ctrl 30 28 = op ∧ ((bit x.ctrl 23 = 0 ∨ i = 0)) ∧ descGroup s.dev n x = some g ∧
    s.dev.fld F.COL_GROUP_broken g ≠ 1 ∧ s.dev.fld F.COL_GROUP_excluded g = 1) ∧ (∃ (s : State) (n op i : Nat) (c : Instr) (x
    : Desc) (g : _), (c, op) ∈ [(.allReduce n, 0), (.reduceScatter n, 1), (.allGather n, 2), (.broadcast n, 3), (.allToAll n,
    4), (.fused n, 5)] ∧ s.Ok ∧ n < 9984 ∧ working s.dev = true ∧ ringKind n = .col ∧ ringServed s.dev n = true ∧ ((ringState
    s.dev n = 2 ∨ ringState s.dev n = 3)) ∧ s.dev.colOpsAt n = none ∧ (s.dev.ringsAt n).findIdx? (·.status.isNone) = some i ∧
    (s.dev.ringsAt n)[i]? = some x ∧ bits x.ctrl 30 28 = op ∧ ((bit x.ctrl 23 = 0 ∨ i = 0)) ∧ descGroup s.dev n x = some g ∧
    s.dev.fld F.COL_GROUP_broken g ≠ 1 ∧ s.dev.fld F.COL_GROUP_excluded g ≠ 1 ∧ (s.dev.colGroupsAt g).forming = true) ∧ (∃ (s
    : State) (n op i : Nat) (c : Instr) (x : Desc) (g st : _), (c, op) ∈ [(.allReduce n, 0), (.reduceScatter n, 1),
    (.allGather n, 2), (.broadcast n, 3), (.allToAll n, 4), (.fused n, 5)] ∧ s.Ok ∧ (s.dev.colGroupsAt g).forming = false ∧ n
    < 9984 ∧ working s.dev = true ∧ ringKind n = .col ∧ ringServed s.dev n = true ∧ ((ringState s.dev n = 2 ∨ ringState s.dev
    n = 3)) ∧ s.dev.colOpsAt n = none ∧ (s.dev.ringsAt n).findIdx? (·.status.isNone) = some i ∧ (s.dev.ringsAt n)[i]? = some x
    ∧ bits x.ctrl 30 28 = op ∧ ((bit x.ctrl 23 = 0 ∨ i = 0)) ∧ descGroup s.dev n x = some g ∧ s.dev.fld F.COL_GROUP_broken g ≠
    1 ∧ s.dev.fld F.COL_GROUP_excluded g ≠ 1 ∧ colParts s.dev n x = .error st) ∧ (∃ (s : State) (n op i : Nat) (c : Instr) (x
    : Desc) (g ps o : _), (c, op) ∈ [(.allReduce n, 0), (.reduceScatter n, 1), (.allGather n, 2), (.broadcast n, 3),
    (.allToAll n, 4), (.fused n, 5)] ∧ s.Ok ∧ (s.dev.colGroupsAt g).forming = false ∧ o =
    ({ op := innerOp x, parts := ps, seg := x.num 0x2C 4, total := (ps.map (·.granules)).sum } : ColOp) ∧ n < 9984 ∧ working
    s.dev = true ∧ ringKind n = .col ∧ ringServed s.dev n = true ∧ ((ringState s.dev n = 2 ∨ ringState s.dev n = 3)) ∧
    s.dev.colOpsAt n = none ∧ (s.dev.ringsAt n).findIdx? (·.status.isNone) = some i ∧ (s.dev.ringsAt n)[i]? = some x ∧ bits
    x.ctrl 30 28 = op ∧ ((bit x.ctrl 23 = 0 ∨ i = 0)) ∧ descGroup s.dev n x = some g ∧ s.dev.fld F.COL_GROUP_broken g ≠ 1 ∧
    s.dev.fld F.COL_GROUP_excluded g ≠ 1 ∧ colParts s.dev n x = .ok ps ∧ (groupSize s.dev g ≤ x.num 0x1E 2 ∨ x.num 0x28 4 < 64
    * stagingNeed o.op (colAlgo o.op (s.dev.fld F.COL_GROUP_algorithm g)) (if op = 5 then o.total else o.granules) (groupSize
    s.dev g))) :=
  ⟨⟨starts 0, 9728, 2, 0, .allGather 9728, colDesc 0, by simp, (by unfold State.Ok; constructor <;> decide +kernel),
    by decide +kernel⟩, ⟨linked [ring 9728 2, putRings 9728 [colDesc 0]], 9728, 0, 0, .allReduce 9728, colDesc 0, by simp,
    (by unfold State.Ok; constructor <;> decide +kernel), by decide +kernel⟩, ⟨colRing [putRings 9728 [colDesc 1], setF
    F.COL_GROUP_broken 0 1], 9728, 1, 0, .reduceScatter 9728, colDesc 1, 0, by simp,
    (by unfold State.Ok; constructor <;> decide +kernel), by decide +kernel⟩, ⟨colRing [putRings 9728 [colDesc 3], setF
    F.COL_GROUP_excluded 0 1], 9728, 3, 0, .broadcast 9728, colDesc 3, 0, by simp,
    (by unfold State.Ok; constructor <;> decide +kernel), by decide +kernel⟩, ⟨colRing [putRings 9728 [colDesc 4],
    modColGroups 0 fun e => { e with forming := true }], 9728, 4, 0, .allToAll 9728, colDesc 4, 0, by simp,
    (by unfold State.Ok; constructor <;> decide +kernel), by decide +kernel⟩, ⟨colRing [putRings 9728
    [{ raw := toLE 4 (2 ^ 31 + 5 * 2 ^ 28) ++ toLE 4 1 ++ toLE 8 0x20000000 ++ List.replicate 48 0 }]], 9728, 5, 0, .fused
    9728, { raw := toLE 4 (2 ^ 31 + 5 * 2 ^ 28) ++ toLE 4 1 ++ toLE 8 0x20000000 ++ List.replicate 48 0 }, 0, 1, by simp,
    (by unfold State.Ok; constructor <;> decide +kernel), rfl, by decide +kernel⟩, ⟨colRing [putRings 9728
    [{ raw := toLE 4 (2 ^ 31) ++ toLE 4 1 ++ List.replicate 56 0 }]], 9728, 0, 0, .allReduce 9728,
    { raw := toLE 4 (2 ^ 31) ++ toLE 4 1 ++ List.replicate 56 0 }, 0, [{ count := 1 }], _, by simp,
    (by unfold State.Ok; constructor <;> decide +kernel), rfl, rfl, by decide +kernel⟩⟩

theorem witness_CollectiveStarts_2 : ∃ (s : State) (n op : Nat) (c : Instr), (c, op) ∈ [(.allReduce n, 0), (.reduceScatter n,
    1), (.allGather n, 2), (.broadcast n, 3), (.allToAll n, 4), (.fused n, 5)] ∧ n < 9984 ∧ working s.dev = true ∧
    s.dev.colOpsAt n = none ∧ (ringKind n ≠ .col ∨ ringServed s.dev n = false ∨ (ringState s.dev n ≠ 2 ∧ ringState s.dev n ≠
    3) ∨ (s.dev.ringsAt n).findIdx? (·.status.isNone) = none) :=
  ⟨on live, 9983, 0, .allReduce 9983, by simp, by decide +kernel⟩

theorem witness_CollectiveSteps_0 : (∃ (s : State) (n : Nat), n < 9984 ∧ working s.dev = true ∧ s.dev.colOpsAt n = none) ∧ (∃
    (s : State) (n : Nat) (o : _), n < 9984 ∧ working s.dev = true ∧ s.dev.colOpsAt n = some o ∧ o.phase ≠ 0) ∧ (∃ (s : State)
    (n : Nat) (o : ColOp) (m r c : Nat) (rs : List (Nat × Nat)) (staging : Kind → Option (List Nat)), m = groupSize s.dev
    o.entry ∧ r = ownRank s.dev o.entry ∧ c = ringCtx s.dev n ∧ rs = segmentReads o m r ∧ ((∀ k, staging k = translateRange
    s.dev c (stagingSpan s.dev n o).1 k (stagingSpan s.dev n o).2)) ∧ n < 9984 ∧ working s.dev = true ∧ s.dev.colOpsAt n =
    some o ∧ o.phase = 0 ∧ readsCritical s.dev c rs .read = true) ∧ (∃ (s : State) (n : Nat) (o : ColOp) (m r c : Nat) (rs :
    List (Nat × Nat)) (staging : Kind → Option (List Nat)), m = groupSize s.dev o.entry ∧ r = ownRank s.dev o.entry ∧ c =
    ringCtx s.dev n ∧ rs = segmentReads o m r ∧ ((∀ k, staging k = translateRange s.dev c (stagingSpan s.dev n o).1 k
    (stagingSpan s.dev n o).2)) ∧ n < 9984 ∧ working s.dev = true ∧ s.dev.colOpsAt n = some o ∧ o.phase = 0 ∧ readsCritical
    s.dev c rs .read = false ∧ (readsHeld s.dev c rs .read || readsHeld s.dev c [stagingSpan s.dev n o] .write) = true) ∧ (∃
    (s : State) (n : Nat) (o : ColOp) (m r c : Nat) (rs : List (Nat × Nat)) (staging : Kind → Option (List Nat)), m =
    groupSize s.dev o.entry ∧ r = ownRank s.dev o.entry ∧ c = ringCtx s.dev n ∧ rs = segmentReads o m r ∧ ((∀ k, staging k =
    translateRange s.dev c (stagingSpan s.dev n o).1 k (stagingSpan s.dev n o).2)) ∧ n < 9984 ∧ working s.dev = true ∧
    s.dev.colOpsAt n = some o ∧ o.phase = 0 ∧ readsCritical s.dev c rs .read = false ∧ (readsHeld s.dev c rs .read ||
    readsHeld s.dev c [stagingSpan s.dev n o] .write) = false ∧ ((rs.mapM fun e => translateRange s.dev c e.1 .read e.2) =
    none ∨ staging .read = none)) ∧ (∃ (s : State) (n : Nat) (o : ColOp) (m r c : Nat) (rs : List (Nat × Nat)) (staging : Kind
    → Option (List Nat)) (ass as : _), m = groupSize s.dev o.entry ∧ r = ownRank s.dev o.entry ∧ c = ringCtx s.dev n ∧ rs =
    segmentReads o m r ∧ ((∀ k, staging k = translateRange s.dev c (stagingSpan s.dev n o).1 k (stagingSpan s.dev n o).2)) ∧ n
    < 9984 ∧ working s.dev = true ∧ s.dev.colOpsAt n = some o ∧ o.phase = 0 ∧ readsCritical s.dev c rs .read = false ∧
    (readsHeld s.dev c rs .read || readsHeld s.dev c [stagingSpan s.dev n o] .write) = false ∧ ((rs.mapM fun e =>
    translateRange s.dev c e.1 .read e.2) = some ass) ∧ staging .read = some as ∧ staging .write = none) ∧ (∃ (s : State) (n :
    Nat) (o : ColOp) (m r c : Nat) (rs : List (Nat × Nat)) (staging : Kind → Option (List Nat)) (ass as st : _), m = groupSize
    s.dev o.entry ∧ r = ownRank s.dev o.entry ∧ c = ringCtx s.dev n ∧ rs = segmentReads o m r ∧ ((∀ k, staging k =
    translateRange s.dev c (stagingSpan s.dev n o).1 k (stagingSpan s.dev n o).2)) ∧ n < 9984 ∧ working s.dev = true ∧
    s.dev.colOpsAt n = some o ∧ o.phase = 0 ∧ readsCritical s.dev c rs .read = false ∧ (readsHeld s.dev c rs .read ||
    readsHeld s.dev c [stagingSpan s.dev n o] .write) = false ∧ ((rs.mapM fun e => translateRange s.dev c e.1 .read e.2) =
    some ass) ∧ staging .read = some as ∧ staging .write = some st ∧ st.all inFloor = false) ∧ (∃ (s : State) (n : Nat) (fixed
    lost : List Nat) (o : ColOp) (m r c : Nat) (rs : List (Nat × Nat)) (staging : Kind → Option (List Nat)) (ass as st d : _),
    m = groupSize s.dev o.entry ∧ r = ownRank s.dev o.entry ∧ c = ringCtx s.dev n ∧ rs = segmentReads o m r ∧ ((∀ k, staging k
    = translateRange s.dev c (stagingSpan s.dev n o).1 k (stagingSpan s.dev n o).2)) ∧ (agentReads n ass.flatten fixed
    lost).run s.dev = d ∧ n < 9984 ∧ working s.dev = true ∧ s.dev.colOpsAt n = some o ∧ o.phase = 0 ∧ readsCritical s.dev c rs
    .read = false ∧ (readsHeld s.dev c rs .read || readsHeld s.dev c [stagingSpan s.dev n o] .write) = false ∧ ((rs.mapM fun e
    => translateRange s.dev c e.1 .read e.2) = some ass) ∧ staging .read = some as ∧ staging .write = some st ∧ st.all inFloor
    = true ∧ anyPoison d ass.flatten = true) ∧ (∃ (s : State) (n : Nat) (fixed lost : List Nat) (o : ColOp) (m r c : Nat) (rs
    : List (Nat × Nat)) (staging : Kind → Option (List Nat)) (ass as st d o1 : _), m = groupSize s.dev o.entry ∧ r = ownRank
    s.dev o.entry ∧ c = ringCtx s.dev n ∧ rs = segmentReads o m r ∧ ((∀ k, staging k = translateRange s.dev c (stagingSpan
    s.dev n o).1 k (stagingSpan s.dev n o).2)) ∧ (agentReads n ass.flatten fixed lost).run s.dev = d ∧ (o1 =
    { o with input := (ass.flatMap fun as => padTo 64 (d.bytesAt as)) }) ∧ n < 9984 ∧ working s.dev = true ∧ s.dev.colOpsAt n
    = some o ∧ o.phase = 0 ∧ readsCritical s.dev c rs .read = false ∧ (readsHeld s.dev c rs .read || readsHeld s.dev c
    [stagingSpan s.dev n o] .write) = false ∧ ((rs.mapM fun e => translateRange s.dev c e.1 .read e.2) = some ass) ∧ staging
    .read = some as ∧ staging .write = some st ∧ st.all inFloor = true ∧ anyPoison d ass.flatten = false) :=
  ⟨⟨on live, 9983, by decide +kernel⟩, ⟨colRing [putColOps 9728 (some { phase := 1 })], 9728, { phase := 1 },
    by decide +kernel⟩, ⟨colRing [putColOps 9728 (some (colOp 0 0)), setF F.DRM_STACK_STATUS_state 0 3], 9728, colOp 0 0, _,
    _, _, _, _, rfl, rfl, rfl, rfl, (fun _ => rfl), by decide +kernel⟩, ⟨colRing [putColOps 9728 (some (colOp 0 0)),
    putRoutesStale true], 9728, colOp 0 0, _, _, _, _, _, rfl, rfl, rfl, rfl, (fun _ => rfl), by decide +kernel⟩, ⟨colRing
    [putColOps 9728 (some { colOp 0 0 with parts := [{ count := 1, src := 0x20000000 }] })], 9728,
    { colOp 0 0 with parts := [{ count := 1, src := 0x20000000 }] }, _, _, _, _, _, rfl, rfl, rfl, rfl, (fun _ => rfl),
    by decide +kernel⟩, ⟨staged 1 (colOp 0 0) [], 9728, colOp 0 0, _, _, _, _, _, [dram 4], (List.range 192).map (0x10000000 +
    ·), rfl, rfl, rfl, rfl, (fun _ => rfl), by decide +kernel⟩, ⟨colRing [putRings 9728 [colDesc 0], putColOps 9728 (some
    (colOp 0 0))], 9728, colOp 0 0, _, _, _, _, _, [dram 4], dram 192, dram 192, rfl, rfl, rfl, rfl, (fun _ => rfl),
    by decide +kernel⟩, ⟨staged 7 (colOp 0 0) [putPoison 0x1000000000 true], 9728, [], [], colOp 0 0, _, _, _, _, _, [dram 4],
    (List.range 192).map (0x10000000 + ·), (List.range 192).map (0x10000000 + ·), _, rfl, rfl, rfl, rfl, (fun _ => rfl), rfl,
    by decide +kernel⟩, ⟨staged 7 (colOp 0 0) [], 9728, [], [], colOp 0 0, _, _, _, _, _, [dram 4], (List.range 192).map
    (0x10000000 + ·), (List.range 192).map (0x10000000 + ·), _, _, rfl, rfl, rfl, rfl, (fun _ => rfl), rfl, rfl,
    by decide +kernel⟩⟩

theorem witness_CollectiveSteps_1 : (∃ (s : State) (n : Nat), n < 9984 ∧ working s.dev = true ∧ s.dev.colOpsAt n = none) ∧ (∃
    (s : State) (n : Nat) (o c ws : _), c = ringCtx s.dev n ∧ ws = segmentWrites o (groupSize s.dev o.entry) (ownRank s.dev
    o.entry) ∧ n < 9984 ∧ working s.dev = true ∧ s.dev.colOpsAt n = some o ∧ (o.phase ≠ 2 ∨ readsHeld s.dev c (ws.map fun e =>
    (e.1, e.2.length)) .write = true)) ∧ (∃ (s : State) (n : Nat) (fixed lost : List Nat) (o c ws d st : _), c = ringCtx s.dev
    n ∧ ws = segmentWrites o (groupSize s.dev o.entry) (ownRank s.dev o.entry) ∧ (agentReads n ((translateRange s.dev c
    (stagingSpan s.dev n o).1 .read (stagingSpan s.dev n o).2).getD []) fixed lost).run s.dev = d ∧ n < 9984 ∧ working s.dev =
    true ∧ s.dev.colOpsAt n = some o ∧ o.phase = 2 ∧ (readsHeld s.dev c (ws.map fun e => (e.1, e.2.length)) .write = false) ∧
    stagingFault d n o = some st) ∧ (∃ (s : State) (n : Nat) (fixed lost : List Nat) (o c ws d : _), c = ringCtx s.dev n ∧ ws
    = segmentWrites o (groupSize s.dev o.entry) (ownRank s.dev o.entry) ∧ (agentReads n ((translateRange s.dev c (stagingSpan
    s.dev n o).1 .read (stagingSpan s.dev n o).2).getD []) fixed lost).run s.dev = d ∧ (((ws.mapM fun e => translateRange d c
    e.1 .write e.2.length) = none ∨ ∃ ass, (ws.mapM fun e => translateRange d c e.1 .write e.2.length) = some ass ∧ writable
    ass.flatten = false)) ∧ n < 9984 ∧ working s.dev = true ∧ s.dev.colOpsAt n = some o ∧ o.phase = 2 ∧ (readsHeld s.dev c
    (ws.map fun e => (e.1, e.2.length)) .write = false) ∧ stagingFault d n o = none) ∧ (∃ (s : State) (n : Nat) (fixed lost :
    List Nat) (o c ws d ass o' : _), c = ringCtx s.dev n ∧ ws = segmentWrites o (groupSize s.dev o.entry) (ownRank s.dev
    o.entry) ∧ (agentReads n ((translateRange s.dev c (stagingSpan s.dev n o).1 .read (stagingSpan s.dev n o).2).getD [])
    fixed lost).run s.dev = d ∧ o' =
    { o with segment := o.segment + 1, phase := 0, step := 0, input := [], work := [], sentTo := [], got := [] } ∧ n < 9984 ∧
    working s.dev = true ∧ s.dev.colOpsAt n = some o ∧ o.phase = 2 ∧ (readsHeld s.dev c (ws.map fun e => (e.1, e.2.length))
    .write = false) ∧ stagingFault d n o = none ∧ ((ws.mapM fun e => translateRange d c e.1 .write e.2.length) = some ass) ∧
    writable ass.flatten = true) :=
  ⟨⟨on live, 9983, by decide +kernel⟩, ⟨colRing [putColOps 9728 (some (colOp 0 0))], 9728, colOp 0 0, _, _, rfl, rfl,
    by decide +kernel⟩, ⟨colRing [putColOps 9728 (some { colOp 0 0 with phase := 2, work := [List.replicate 64 1] }),
    putPoison 0x1000000080 true], 9728, [], [], { colOp 0 0 with phase := 2, work := [List.replicate 64 1] }, _, _, _, 3, rfl,
    rfl, rfl, by decide +kernel⟩, ⟨colRing [putColOps 9728 (some
    { colOp 0 0 with phase := 2, work := [List.replicate 64 1], parts := [{ count := 1, dst := 0x20000000 }] })], 9728, [],
    [], { colOp 0 0 with phase := 2, work := [List.replicate 64 1], parts := [{ count := 1, dst := 0x20000000 }] }, _, _, _,
    rfl, rfl, rfl, .inl (by decide +kernel), by decide +kernel⟩, ⟨colRing [putColOps 9728 (some
    { colOp 0 0 with phase := 2, work := [List.replicate 64 1] })], 9728, [], [],
    { colOp 0 0 with phase := 2, work := [List.replicate 64 1] }, _, _, _, [dram 4], _, rfl, rfl, rfl, rfl,
    by decide +kernel⟩⟩

theorem witness_CollectiveSteps_2 : (∃ (s : State) (n : Nat), n < 9984 ∧ working s.dev = true ∧ s.dev.ringsAt n = []) ∧ (∃ (s
    : State) (n : Nat) (x rest : _), n < 9984 ∧ working s.dev = true ∧ s.dev.ringsAt n = x :: rest ∧ x.status = none) ∧ (∃ (s
    : State) (n : Nat) (st x rest : _), n < 9984 ∧ working s.dev = true ∧ s.dev.ringsAt n = x :: rest ∧ x.status = some st ∧
    (ringKind n ≠ .col ∨ ringState s.dev n = 4 ∨ (descAddrs s.dev n x.index .write).any (agentHeld s.dev (ringPart s.dev n)) =
    true)) ∧ (∃ (s : State) (n : Nat) (st x rest : _), n < 9984 ∧ working s.dev = true ∧ s.dev.ringsAt n = x :: rest ∧
    x.status = some st ∧ ringKind n = .col ∧ ringState s.dev n ≠ 4 ∧ (descAddrs s.dev n x.index .write).any (agentHeld s.dev
    (ringPart s.dev n)) = false ∧ canWriteBack s.dev n x = true) ∧ (∃ (s : State) (n : Nat) (st x rest : _), n < 9984 ∧
    working s.dev = true ∧ s.dev.ringsAt n = x :: rest ∧ x.status = some st ∧ ringKind n = .col ∧ ringState s.dev n ≠ 4 ∧
    (descAddrs s.dev n x.index .write).any (agentHeld s.dev (ringPart s.dev n)) = false ∧ canWriteBack s.dev n x = false) :=
  ⟨⟨on live, 9983, by decide +kernel⟩, ⟨starts 0, 9728, colDesc 0, [], by decide +kernel⟩, ⟨rings 9728 4 [putRings 9728
    [{ status := some 0 }]], 9728, 0, { status := some 0 }, [], by decide +kernel⟩, ⟨rings 9728 2 [putRings 9728
    [{ status := some 0 }]], 9728, 0, { status := some 0 }, [], by decide +kernel⟩, ⟨rings 9728 2 [putRings 9728
    [{ status := some 0 }], setF F.DMA_RING_BASE_base 9728 0x800000], 9728, 0, { status := some 0 }, [], by decide +kernel⟩⟩

theorem witness_CollectiveSteps_3 : (∃ (s : State) (n : Nat), n < 9984 ∧ working s.dev = true ∧ s.dev.colOpsAt n = none) ∧ (∃
    (s : State) (n ms : Nat) (o late : _), (late = (colAwaits o (groupSize s.dev o.entry) (ownRank s.dev o.entry)).filter (fun
    e => !gotAll o e)) ∧ n < 9984 ∧ working s.dev = true ∧ s.dev.colOpsAt n = some o ∧ o.phase = 1 ∧ s.dev.fld
    F.COL_GROUP_LIST_timeout_ms o.entry * (if o.paced then 4 else 1) ≤ ms ∧ late ≠ []) ∧ (∃ (s : State) (n ms : Nat) (o late :
    _), (late = (colAwaits o (groupSize s.dev o.entry) (ownRank s.dev o.entry)).filter (fun e => !gotAll o e)) ∧ n < 9984 ∧
    working s.dev = true ∧ s.dev.colOpsAt n = some o ∧ (o.phase ≠ 1 ∨ ms < s.dev.fld F.COL_GROUP_LIST_timeout_ms o.entry * (if
    o.paced then 4 else 1) ∨ late = [])) :=
  ⟨⟨on live, 9983, by decide +kernel⟩, ⟨colRing [putColOps 9728 (some { colOp 0 0 with phase := 1 })], 9728, 50,
    { colOp 0 0 with phase := 1 }, _, rfl, by decide +kernel⟩, ⟨colRing [putColOps 9728 (some (colOp 0 0))], 9728, 0, colOp 0
    0, _, rfl, by decide +kernel⟩⟩

theorem witness_CollectiveSteps_4 : (∃ (s : State) (d : Device) (i seq g : Nat) (bs : List Byte) (p : Packet) (n : _), Reaches
    s i seq bs 1 g p d ∧ working s.dev = true ∧ opRing d g (bodySerial p) = some n) ∧ (∃ (s : State) (d : Device) (i seq g :
    Nat) (bs : List Byte) (p : Packet), Reaches s i seq bs 1 g p d ∧ working s.dev = true ∧ opRing d g (bodySerial p) = none)
    :=
  ⟨⟨colRing [putColOps 9728 (some (colOp 0 0))], _, 0, 0, 0, (message 1 0), _, 9728, reaches (q := packetOf (message 1 0))
    (data := []) (by decide +kernel), by decide +kernel⟩, ⟨linked [group {}], _, 0, 0, 0, (message 1 0), _, reaches (q :=
    packetOf (message 1 0)) (data := []) (by decide +kernel), by decide +kernel⟩⟩

theorem witness_CollectiveSteps_5 : (∃ (s : State) (d : Device) (i seq g : Nat) (bs : List Byte) (p : Packet) (n : _), Reaches
    s i seq bs 2 g p d ∧ working s.dev = true ∧ opRing d g (bodySerial p) = some n) ∧ (∃ (s : State) (d : Device) (i seq g :
    Nat) (bs : List Byte) (p : Packet), Reaches s i seq bs 2 g p d ∧ working s.dev = true ∧ opRing d g (bodySerial p) = none)
    :=
  ⟨⟨colRing [putColOps 9728 (some (colOp 0 0))], _, 0, 0, 0, (message 2 0), _, 9728, reaches (q := packetOf (message 2 0))
    (data := []) (by decide +kernel), by decide +kernel⟩, ⟨linked [group {}], _, 0, 0, 0, (message 2 0), _, reaches (q :=
    packetOf (message 2 0)) (data := []) (by decide +kernel), by decide +kernel⟩⟩

theorem witness_CollectiveSteps_6 : (∃ (s : State) (d d1 : Device) (i seq msg k : Nat) (bs data : List Byte) (f : Flow) (q :
    Packet) (c : Instr) (entry : Option Nat), (c, msg) ∈ [(.colReady i seq bs, 1), (.colData i seq bs, 2), (.suspect i seq bs,
    3), (.reform i seq bs, 4), (.reformAck i seq bs, 5), (.colCommit i seq bs, 6), (.colAbort i seq bs, 7), (.exclude i seq
    bs, 8)] ∧ ((msg ≤ 2 → working s.dev = true)) ∧ Arrives s i seq bs q d1 ∧ Admits d1 2 q k f data d ∧ (entry = (ctxPart d1
    q.dstCtx).bind (fun x => (partEntries d1 x).find? fun e => d1.fld F.COL_GROUP_valid e == 1 && d1.reg .COL_GROUP_KEY e ==
    bodyKey q)) ∧ forMe i 5 s.dev q = true ∧ bodyMsg q = msg ∧ entry = none) ∧ (∃ (s : State) (d d1 : Device) (i seq msg k :
    Nat) (bs data : List Byte) (f : Flow) (q : Packet) (c : Instr) (entry : Option Nat) (g : _), (c, msg) ∈ [(.colReady i seq
    bs, 1), (.colData i seq bs, 2), (.suspect i seq bs, 3), (.reform i seq bs, 4), (.reformAck i seq bs, 5), (.colCommit i seq
    bs, 6), (.colAbort i seq bs, 7), (.exclude i seq bs, 8)] ∧ ((msg ≤ 2 → working s.dev = true)) ∧ Arrives s i seq bs q d1 ∧
    Admits d1 2 q k f data d ∧ (entry = (ctxPart d1 q.dstCtx).bind (fun x => (partEntries d1 x).find? fun e => d1.fld
    F.COL_GROUP_valid e == 1 && d1.reg .COL_GROUP_KEY e == bodyKey q)) ∧ forMe i 5 s.dev q = true ∧ bodyMsg q = msg ∧ entry =
    some g ∧ (bodyEpoch q ≠ (if msg = 4 ∨ msg = 7 then nextEpoch (d1.fld F.COL_GROUP_epoch g) else d1.fld F.COL_GROUP_epoch g)
    ∨ (d1.colGroupsAt g).current.contains q.src = false)) :=
  ⟨⟨linked [flowIn], _, _, 0, 0, 3, 0, (message 3 0), [], inFlow, packetOf (message 3 0), .suspect 0 0 (message 3 0), _, by
    simp, (fun h => absurd h (by decide)), arrives (by decide +kernel), admits (by decide +kernel), rfl, by decide +kernel⟩,
    ⟨linked [group {}], _, _, 0, 0, 1, 0, (message 1 7), [], inFlow, packetOf (message 1 7), .colReady 0 0 (message 1 7), _,
    0, by simp, (fun _ => by decide +kernel), arrives (by decide +kernel), admits (by decide +kernel), rfl,
    by decide +kernel⟩⟩

theorem witness_Reformation_0 : ∃ (s : State) (d : Device) (i seq g : Nat) (bs : List Byte) (p : Packet), Reaches s i seq bs 3
    g p d :=
  ⟨linked [group {}], _, 0, 0, 0, message 3 0, _, reaches (q := packetOf (message 3 0)) (data := []) (by decide +kernel)⟩

theorem witness_Reformation_1 : (∃ (s : State) (g : Nat) (removed left : List Nat), removed = (removedRanks (s.dev.colGroupsAt
    g).gathered).filter (· < groupSize s.dev g) ∧ (left = (List.range (groupSize s.dev g)).filter (fun r => !removed.contains
    r)) ∧ g < 4096 ∧ powered s.dev = true ∧ s.dev.fld F.COL_GROUP_valid g = 1 ∧ s.dev.fld F.COL_GROUP_excluded g = 0 ∧ removed
    ≠ [] ∧ s.dev.fld F.COL_GROUP_on_fail g ≠ 1 ∧ removed.length ≤ 63 ∧ 2 ≤ left.length) ∧ (∃ (s : State) (g : Nat) (removed
    left : List Nat), removed = (removedRanks (s.dev.colGroupsAt g).gathered).filter (· < groupSize s.dev g) ∧ (left =
    (List.range (groupSize s.dev g)).filter (fun r => !removed.contains r)) ∧ g < 4096 ∧ powered s.dev = true ∧ s.dev.fld
    F.COL_GROUP_valid g = 1 ∧ s.dev.fld F.COL_GROUP_excluded g = 0 ∧ removed ≠ [] ∧ (s.dev.fld F.COL_GROUP_on_fail g = 1 ∨ 63
    < removed.length ∨ left.length < 2)) ∧ (∃ (s : State) (g : Nat) (removed left : List Nat), removed = (removedRanks
    (s.dev.colGroupsAt g).gathered).filter (· < groupSize s.dev g) ∧ (left = (List.range (groupSize s.dev g)).filter (fun r =>
    !removed.contains r)) ∧ g < 4096 ∧ powered s.dev = true ∧ (s.dev.fld F.COL_GROUP_valid g ≠ 1 ∨ s.dev.fld
    F.COL_GROUP_excluded g ≠ 0 ∨ removed = [])) :=
  ⟨⟨linked [group { gathered := [(0, 3, 1), (1, 3, 1)] }], 0, _, _, rfl, rfl, by decide +kernel⟩, ⟨linked [group
    { gathered := [(0, 3, 1), (1, 3, 1)] }, setF F.COL_GROUP_on_fail 0 1], 0, _, _, rfl, rfl, by decide +kernel⟩, ⟨on live,
    4095, _, _, rfl, rfl, by decide +kernel⟩⟩

theorem witness_Reformation_2 : ∃ (s : State) (d : Device) (i seq g : Nat) (bs : List Byte) (p : Packet), Reaches s i seq bs 4
    g p d :=
  ⟨linked [group {}], _, 0, 0, 0, message 4 1, _, reaches (q := packetOf (message 4 1)) (data := []) (by decide +kernel)⟩

theorem witness_Reformation_3 : (∃ (s : State) (d : Device) (i seq g : Nat) (bs : List Byte) (p : Packet), Reaches s i seq bs
    5 g p d ∧ (d.colGroupsAt g).acks.contains p.src = true ∧ (d.colGroupsAt g).acks.filter (· != p.src) = []) ∧ (∃ (s : State)
    (d : Device) (i seq g : Nat) (bs : List Byte) (p : Packet), Reaches s i seq bs 5 g p d ∧ (d.colGroupsAt g).acks.contains
    p.src = true ∧ ((d.colGroupsAt g).acks.filter (· != p.src)).isEmpty = false) ∧ (∃ (s : State) (d : Device) (i seq g : Nat)
    (bs : List Byte) (p : Packet), Reaches s i seq bs 5 g p d ∧ (d.colGroupsAt g).acks.contains p.src = false) :=
  ⟨⟨linked [group { acks := [2] }], _, 0, 0, 0, message 5 0, _, reaches (q := packetOf (message 5 0)) (data := [])
    (by decide +kernel), by decide +kernel⟩, ⟨linked [group { acks := [2, 3] }], _, 0, 0, 0, message 5 0, _, reaches (q :=
    packetOf (message 5 0)) (data := []) (by decide +kernel), by decide +kernel⟩, ⟨linked [group {}], _, 0, 0, 0, message 5 0,
    _, reaches (q := packetOf (message 5 0)) (data := []) (by decide +kernel), by decide +kernel⟩⟩

theorem witness_Reformation_4 : ∃ (s : State) (d : Device) (i seq g : Nat) (bs : List Byte) (p : Packet), Reaches s i seq bs 6
    g p d :=
  ⟨linked [group {}], _, 0, 0, 0, message 6 0, _, reaches (q := packetOf (message 6 0)) (data := []) (by decide +kernel)⟩

theorem witness_Reformation_5 : ∃ (s : State) (d : Device) (i seq g : Nat) (bs : List Byte) (p : Packet), Reaches s i seq bs 7
    g p d :=
  ⟨linked [group {}], _, 0, 0, 0, message 7 1, _, reaches (q := packetOf (message 7 1)) (data := []) (by decide +kernel)⟩

theorem witness_Reformation_6 : ∃ (s : State) (d : Device) (i seq g : Nat) (bs : List Byte) (p : Packet), Reaches s i seq bs 8
    g p d :=
  ⟨linked [group {}], _, 0, 0, 0, message 8 0, _, reaches (q := packetOf (message 8 0)) (data := []) (by decide +kernel)⟩

theorem witness_Reformation_7 : (∃ (s : State) (g : Nat), g < 4096 ∧ powered s.dev = true ∧ s.dev.fld F.COL_GROUP_valid g = 1
    ∧ (s.dev.colGroupsAt g).forming = true ∧ (s.dev.colGroupsAt g).doubted ≠ [] ∧ leaderOf s.dev g ≠ ownRank s.dev g) ∧ (∃ (s
    : State) (g : Nat), g < 4096 ∧ powered s.dev = true ∧ (s.dev.fld F.COL_GROUP_valid g ≠ 1 ∨ (s.dev.colGroupsAt g).forming =
    false ∨ (s.dev.colGroupsAt g).doubted = [] ∨ leaderOf s.dev g = ownRank s.dev g)) :=
  ⟨⟨linked [group { forming := true, doubted := [0] }], 0, by decide +kernel⟩, ⟨on live, 4095, by decide +kernel⟩⟩

theorem witness_Reformation_8 : (∃ (s : State) (d : Device) (rq p v g : Nat), Writes s rq .COL_PRT_REMOVE p v 31 d ∧ g = bits
    v 27 16 ∧ p < 32 ∧ bit v 31 = 1 ∧ d.fld F.COL_GROUP_valid g = 1 ∧ d.fld F.COL_GROUP_partition g = p ∧ bits v 15 0 <
    groupSize d g) ∧ (∃ (s : State) (d : Device) (rq p v g : Nat), Writes s rq .COL_PRT_REMOVE p v 31 d ∧ g = bits v 27 16 ∧ p
    < 32 ∧ (bit v 31 = 0 ∨ d.fld F.COL_GROUP_valid g ≠ 1 ∨ d.fld F.COL_GROUP_partition g ≠ p ∨ groupSize d g ≤ bits v 15 0))
    :=
  ⟨⟨linked [group {}], _, 0, 0, 0x80000003, _, writes (by decide +kernel), rfl, by decide +kernel⟩, ⟨on live, _, 0, 31,
    0x80000003, _, writes (by decide +kernel), rfl, by decide +kernel⟩⟩

theorem witness_Reformation_9 : ∃ (s : State) (d : Device) (rq p : Nat), Asks s rq d ∧ p < 32 ∧ bit (mayWrite d rq
    .COL_PRT_REMOVE p) 31 = 0 :=
  ⟨on live, _, 3, 31, asks (by decide +kernel), by decide +kernel⟩

theorem witness_CodecJobs_0 : ∃ (s : State) (e op us : Nat) (c : Instr) (fixed lost bad : List Nat) (coded : List CodedPic)
    (found : List DecodedPic), (c, op) ∈ [(.vceOpen e us fixed lost, 1), (.encode e coded us fixed lost, 2), (.decode e bad
    found us fixed lost, 3), (.vceFlush e coded us, 4), (.vceClose e us, 5)] ∧ ((engineServes s.dev e = false ∨ jobTurn s.dev
    e = none ∨ ∃ n x, jobTurn s.dev e = some (n, x) ∧ x.op ≠ op)) ∧ e < 34 ∧ us < 4294967296 ∧ serving s.dev = true :=
  ⟨with' [], 33, 1, 0, .vceOpen 33 0 [] [], [], [], [], [], [], by simp, .inl (by decide +kernel), by decide +kernel⟩

theorem witness_CodecJobs_1 : ∃ (s : State) (d : Device) (e op n us : Nat) (x : Desc) (c : Instr) (fixed lost bad : List Nat)
    (coded : List CodedPic) (found : List DecodedPic), TakesJob s e op n x d ∧ (c, op) ∈ [(.encode e coded us fixed lost, 2),
    (.decode e bad found us fixed lost, 3), (.vceFlush e coded us, 4), (.vceClose e us, 5)] ∧ ((d.sessionsAt (e * 16 +
    x.session) = none ∨ ∃ q, d.sessionsAt (e * 16 + x.session) = some q ∧ (q.ring ≠ n ∨ (op = 2 ∧ q.encodes = false) ∨ (op = 3
    ∧ q.encodes = true)))) ∧ us < 4294967296 :=
  ⟨codec (codecJob 5 0 0) [], _, 0, 5, 9984, 0, (codecJob 5 0 0), .vceClose 0 0, [], [], [], [], [], takes
    (by decide +kernel), by simp, .inl (by decide +kernel), by decide +kernel⟩

theorem witness_CodecJobs_2 : (∃ (s : State) (d : Device) (e n us : Nat) (x : Desc), TakesJob s e 1 n x d ∧ us < 4294967296 ∧
    translateRange d (ringCtx d n) (x.num 8 8) .read 128 = none) ∧ (∃ (s : State) (d : Device) (e n us : Nat) (x : Desc) (as :
    _), TakesJob s e 1 n x d ∧ us < 4294967296 ∧ translateRange d (ringCtx d n) (x.num 8 8) .read 128 = some as ∧ agentHeld d
    (ringPart d n) as = true) ∧ (∃ (s : State) (d : Device) (e n us : Nat) (x : Desc) (fixed lost : List Nat) (as : _) (d' :
    Device) (q : Session), TakesJob s e 1 n x d ∧ (agentReads n as fixed lost).run d = d' ∧ q =
    { ring := n, block := d'.bytesAt as, fullness := Session.firstFullness { ring := n, block := d'.bytesAt as } } ∧ us <
    4294967296 ∧ translateRange d (ringCtx d n) (x.num 8 8) .read 128 = some as ∧ agentHeld d (ringPart d n) as = false ∧
    anyPoison d' as = true) ∧ (∃ (s : State) (d : Device) (e n us : Nat) (x : Desc) (fixed lost : List Nat) (as : _) (d' :
    Device) (q : Session), TakesJob s e 1 n x d ∧ (agentReads n as fixed lost).run d = d' ∧ q =
    { ring := n, block := d'.bytesAt as, fullness := Session.firstFullness { ring := n, block := d'.bytesAt as } } ∧ us <
    4294967296 ∧ translateRange d (ringCtx d n) (x.num 8 8) .read 128 = some as ∧ agentHeld d (ringPart d n) as = false ∧
    anyPoison d' as = false ∧ q.unsupported = true) ∧ (∃ (s : State) (d : Device) (e n us : Nat) (x : Desc) (fixed lost : List
    Nat) (as : _) (d' : Device) (q : Session), TakesJob s e 1 n x d ∧ (agentReads n as fixed lost).run d = d' ∧ q =
    { ring := n, block := d'.bytesAt as, fullness := Session.firstFullness { ring := n, block := d'.bytesAt as } } ∧ us <
    4294967296 ∧ translateRange d (ringCtx d n) (x.num 8 8) .read 128 = some as ∧ agentHeld d (ringPart d n) as = false ∧
    anyPoison d' as = false ∧ q.unsupported = false ∧ (q.outOfRange = true ∨ q.refused = true ∨ ((List.range 16).filter fun k
    => !(openSessions d' e).contains k) = [])) ∧ (∃ (s : State) (d : Device) (e n us : Nat) (x : Desc) (fixed lost : List Nat)
    (as : _) (d' : Device) (q : Session), TakesJob s e 1 n x d ∧ (agentReads n as fixed lost).run d = d' ∧ q =
    { ring := n, block := d'.bytesAt as, fullness := Session.firstFullness { ring := n, block := d'.bytesAt as } } ∧ us <
    4294967296 ∧ translateRange d (ringCtx d n) (x.num 8 8) .read 128 = some as ∧ agentHeld d (ringPart d n) as = false ∧
    anyPoison d' as = false ∧ q.unsupported = false ∧ q.outOfRange = false ∧ q.refused = false ∧ (((List.range 16).filter fun
    k => !(openSessions d' e).contains k) ≠ [])) :=
  ⟨⟨codec { raw := toLE 4 (2 ^ 31 + 2 ^ 27) ++ toLE 4 0 ++ toLE 8 0x20000000 ++ List.replicate 48 0 } [], _, 0, 9984, 0,
    { raw := toLE 4 (2 ^ 31 + 2 ^ 27) ++ toLE 4 0 ++ toLE 8 0x20000000 ++ List.replicate 48 0 }, takes (by decide +kernel),
    by decide +kernel⟩, ⟨codec (codecJob 1 0 0) [putRoutesStale true], _, 0, 9984, 0, (codecJob 1 0 0), dram 128, takes
    (by decide +kernel), by decide +kernel⟩, ⟨codec (codecJob 1 0 0) [putPoison 0x1000000000 true], _, 0, 9984, 0, (codecJob 1
    0 0), [], [], dram 128, _, _, takes (by decide +kernel), rfl, rfl, by decide +kernel⟩, ⟨codec (codecJob 1 0 0) [], _, 0,
    9984, 0, (codecJob 1 0 0), [], [], dram 128, _, _, takes (by decide +kernel), rfl, rfl, by decide +kernel⟩, ⟨codec
    (codecJob 1 0 0) [wrBytes 0x1000000000 (decodeBlock.set 0x38 0)], _, 0, 9984, 0, (codecJob 1 0 0), [], [], dram 128, _, _,
    takes (by decide +kernel), rfl, rfl, by decide +kernel⟩, ⟨codec (codecJob 1 0 0) [wrBytes 0x1000000000 decodeBlock], _, 0,
    9984, 0, (codecJob 1 0 0), [], [], dram 128, _, _, takes (by decide +kernel), rfl, rfl, by decide +kernel⟩⟩

theorem witness_CodecJobs_3 : (∃ (s : State) (d : Device) (e n us k : Nat) (x : Desc) (q : Session) (key : Bool) (pics : List
    CodedPic) (coding : Coding), TakesJob s e 2 n x d ∧ k = e * 16 + x.session ∧ key = isKey q (bit x.ctrl 15 == 1) ∧ coding =
    codePics (padBytes d) ((List.replicate q.heldPics false ++ [key]).zip pics)
    { session := q, out := [], steps := [], legal := true } ∧ us < 4294967296 ∧ d.sessionsAt k = some q ∧ q.ring = n ∧
    q.encodes = true ∧ q.rcMode ≠ 0 ∧ x.num 0x1C 4 < ceilDiv q.cpb 8 + 4096) ∧ (∃ (s : State) (d : Device) (e n us k : Nat) (x
    : Desc) (q : Session) (key : Bool) (pics : List CodedPic) (coding : Coding), TakesJob s e 2 n x d ∧ k = e * 16 + x.session
    ∧ key = isKey q (bit x.ctrl 15 == 1) ∧ coding = codePics (padBytes d) ((List.replicate q.heldPics false ++ [key]).zip
    pics) { session := q, out := [], steps := [], legal := true } ∧ translateRange d (ringCtx d n) (x.num 8 8) .read (picSize
    q) = none ∧ us < 4294967296 ∧ d.sessionsAt k = some q ∧ q.ring = n ∧ q.encodes = true ∧ ((q.rcMode = 0 ∨ ceilDiv q.cpb 8 +
    4096 ≤ x.num 0x1C 4))) ∧ (∃ (s : State) (d : Device) (e n us k : Nat) (x : Desc) (q : Session) (key : Bool) (pics : List
    CodedPic) (coding : Coding) (as : _), TakesJob s e 2 n x d ∧ k = e * 16 + x.session ∧ key = isKey q (bit x.ctrl 15 == 1) ∧
    coding = codePics (padBytes d) ((List.replicate q.heldPics false ++ [key]).zip pics)
    { session := q, out := [], steps := [], legal := true } ∧ translateRange d (ringCtx d n) (x.num 8 8) .read (picSize q) =
    some as ∧ (agentHeld d (ringPart d n) as = true ∨ pics.length ≠ codesNow q key ∨ coding.legal = false) ∧ us < 4294967296 ∧
    d.sessionsAt k = some q ∧ q.ring = n ∧ q.encodes = true ∧ ((q.rcMode = 0 ∨ ceilDiv q.cpb 8 + 4096 ≤ x.num 0x1C 4))) ∧ (∃
    (s : State) (d : Device) (e n us k : Nat) (x : Desc) (q : Session) (key : Bool) (pics : List CodedPic) (coding : Coding)
    (fixed lost : List Nat) (as d' : _), TakesJob s e 2 n x d ∧ k = e * 16 + x.session ∧ key = isKey q (bit x.ctrl 15 == 1) ∧
    coding = codePics (padBytes d) ((List.replicate q.heldPics false ++ [key]).zip pics)
    { session := q, out := [], steps := [], legal := true } ∧ translateRange d (ringCtx d n) (x.num 8 8) .read (picSize q) =
    some as ∧ agentHeld d (ringPart d n) as = false ∧ (agentReads n as fixed lost).run d = d' ∧ anyPoison d' as = true ∧ us <
    4294967296 ∧ d.sessionsAt k = some q ∧ q.ring = n ∧ q.encodes = true ∧ ((q.rcMode = 0 ∨ ceilDiv q.cpb 8 + 4096 ≤ x.num
    0x1C 4)) ∧ pics.length = codesNow q key ∧ coding.legal = true) ∧ (∃ (s : State) (d : Device) (e n us k : Nat) (x : Desc)
    (q : Session) (key : Bool) (pics : List CodedPic) (coding : Coding) (fixed lost : List Nat) (as d' : _), TakesJob s e 2 n
    x d ∧ k = e * 16 + x.session ∧ key = isKey q (bit x.ctrl 15 == 1) ∧ coding = codePics (padBytes d) ((List.replicate
    q.heldPics false ++ [key]).zip pics) { session := q, out := [], steps := [], legal := true } ∧ (agentReads n as fixed
    lost).run d = d' ∧ us < 4294967296 ∧ d.sessionsAt k = some q ∧ q.ring = n ∧ q.encodes = true ∧ ((q.rcMode = 0 ∨ ceilDiv
    q.cpb 8 + 4096 ≤ x.num 0x1C 4)) ∧ translateRange d (ringCtx d n) (x.num 8 8) .read (picSize q) = some as ∧ agentHeld d
    (ringPart d n) as = false ∧ pics.length = codesNow q key ∧ coding.legal = true ∧ anyPoison d' as = false ∧ codesNow q key
    = 0) ∧ (∃ (s : State) (d : Device) (e n us k : Nat) (x : Desc) (q : Session) (key : Bool) (pics : List CodedPic) (coding :
    Coding) (fixed lost : List Nat) (as d' : _), TakesJob s e 2 n x d ∧ k = e * 16 + x.session ∧ key = isKey q (bit x.ctrl 15
    == 1) ∧ coding = codePics (padBytes d) ((List.replicate q.heldPics false ++ [key]).zip pics)
    { session := q, out := [], steps := [], legal := true } ∧ (agentReads n as fixed lost).run d = d' ∧ us < 4294967296 ∧
    d.sessionsAt k = some q ∧ q.ring = n ∧ q.encodes = true ∧ ((q.rcMode = 0 ∨ ceilDiv q.cpb 8 + 4096 ≤ x.num 0x1C 4)) ∧
    translateRange d (ringCtx d n) (x.num 8 8) .read (picSize q) = some as ∧ agentHeld d (ringPart d n) as = false ∧
    pics.length = codesNow q key ∧ coding.legal = true ∧ anyPoison d' as = false ∧ codesNow q key ≠ 0 ∧ x.num 0x1C 4 <
    coding.out.length) ∧ (∃ (s : State) (d : Device) (e n us k : Nat) (x : Desc) (q : Session) (key : Bool) (pics : List
    CodedPic) (coding : Coding) (fixed lost : List Nat) (as d' : _), TakesJob s e 2 n x d ∧ k = e * 16 + x.session ∧ key =
    isKey q (bit x.ctrl 15 == 1) ∧ coding = codePics (padBytes d) ((List.replicate q.heldPics false ++ [key]).zip pics)
    { session := q, out := [], steps := [], legal := true } ∧ (agentReads n as fixed lost).run d = d' ∧ (translateRange d'
    (ringCtx d' n) (x.num 0x10 8) .write coding.out.length = none ∨ (∃ out, translateRange d' (ringCtx d' n) (x.num 0x10 8)
    .write coding.out.length = some out ∧ writable out = false)) ∧ us < 4294967296 ∧ d.sessionsAt k = some q ∧ q.ring = n ∧
    q.encodes = true ∧ ((q.rcMode = 0 ∨ ceilDiv q.cpb 8 + 4096 ≤ x.num 0x1C 4)) ∧ translateRange d (ringCtx d n) (x.num 8 8)
    .read (picSize q) = some as ∧ agentHeld d (ringPart d n) as = false ∧ pics.length = codesNow q key ∧ coding.legal = true ∧
    anyPoison d' as = false ∧ codesNow q key ≠ 0 ∧ coding.out.length ≤ x.num 0x1C 4) ∧ (∃ (s : State) (d : Device) (e n us k :
    Nat) (x : Desc) (q : Session) (key : Bool) (pics : List CodedPic) (coding : Coding) (fixed lost : List Nat) (as d' out :
    _), TakesJob s e 2 n x d ∧ k = e * 16 + x.session ∧ key = isKey q (bit x.ctrl 15 == 1) ∧ coding = codePics (padBytes d)
    ((List.replicate q.heldPics false ++ [key]).zip pics) { session := q, out := [], steps := [], legal := true } ∧
    (agentReads n as fixed lost).run d = d' ∧ us < 4294967296 ∧ d.sessionsAt k = some q ∧ q.ring = n ∧ q.encodes = true ∧
    ((q.rcMode = 0 ∨ ceilDiv q.cpb 8 + 4096 ≤ x.num 0x1C 4)) ∧ translateRange d (ringCtx d n) (x.num 8 8) .read (picSize q) =
    some as ∧ agentHeld d (ringPart d n) as = false ∧ pics.length = codesNow q key ∧ coding.legal = true ∧ anyPoison d' as =
    false ∧ codesNow q key ≠ 0 ∧ coding.out.length ≤ x.num 0x1C 4 ∧ translateRange d' (ringCtx d' n) (x.num 0x10 8) .write
    coding.out.length = some out ∧ writable out = true ∧ agentHeld d' (ringPart d' n) out = true) ∧ (∃ (s : State) (d :
    Device) (e n us k : Nat) (x : Desc) (q : Session) (key : Bool) (pics : List CodedPic) (coding : Coding) (fixed lost : List
    Nat) (as d' out : _) (own : Option (RcState × Bool)), TakesJob s e 2 n x d ∧ k = e * 16 + x.session ∧ key = isKey q (bit
    x.ctrl 15 == 1) ∧ coding = codePics (padBytes d) ((List.replicate q.heldPics false ++ [key]).zip pics)
    { session := q, out := [], steps := [], legal := true } ∧ (agentReads n as fixed lost).run d = d' ∧ own = (if key then
    coding.steps.getLast? else coding.steps.head?) ∧ us < 4294967296 ∧ d.sessionsAt k = some q ∧ q.ring = n ∧ q.encodes = true
    ∧ ((q.rcMode = 0 ∨ ceilDiv q.cpb 8 + 4096 ≤ x.num 0x1C 4)) ∧ translateRange d (ringCtx d n) (x.num 8 8) .read (picSize q)
    = some as ∧ agentHeld d (ringPart d n) as = false ∧ pics.length = codesNow q key ∧ coding.legal = true ∧ anyPoison d' as =
    false ∧ codesNow q key ≠ 0 ∧ coding.out.length ≤ x.num 0x1C 4 ∧ translateRange d' (ringCtx d' n) (x.num 0x10 8) .write
    coding.out.length = some out ∧ writable out = true ∧ agentHeld d' (ringPart d' n) out = false) :=
  ⟨⟨codec (codecJob 2 0 0) [session (encoding 1 0 64)], _, 0, 9984, 0, _, (codecJob 2 0 0), (encoding 1 0 64), _, [], _, takes
    (by decide +kernel), rfl, rfl, rfl, by decide +kernel⟩, ⟨codec
    { raw := toLE 4 (2 ^ 31 + 2 ^ 28) ++ toLE 4 0 ++ toLE 8 0x20000000 ++ List.replicate 48 0 } [session (encoding 0 64 16)],
    _, 0, 9984, 0, _, { raw := toLE 4 (2 ^ 31 + 2 ^ 28) ++ toLE 4 0 ++ toLE 8 0x20000000 ++ List.replicate 48 0 }, (encoding 0
    64 16), _, [], _, takes (by decide +kernel), rfl, rfl, rfl, unmapped (by decide +kernel), by decide +kernel⟩, ⟨codec
    (codecJob 2 0 0) [session (encoding 0 64 16)], _, 0, 9984, 0, _, (codecJob 2 0 0), (encoding 0 64 16), _, [], _, dram
    6144, takes (by decide +kernel), rfl, rfl, rfl, plain_range (e := windowEntry
    { tier := 1, access := 7, length := 0x10000000 }) (by decide +kernel), .inr (.inl (by decide +kernel)),
    by decide +kernel⟩, ⟨codec (codecJob 2 0 0) [session { encoding 0 64 16 with sinceKey := some 1 }, putPoison 0x1000000000
    true], _, 0, 9984, 0, _, (codecJob 2 0 0), { encoding 0 64 16 with sinceKey := some 1 }, _, [slicePic], _, [], [], dram
    6144, _, takes (by decide +kernel), rfl, rfl, rfl, plain_range (e := windowEntry
    { tier := 1, access := 7, length := 0x10000000 }) (by decide +kernel), plain_held (by decide +kernel), plain_read
    (by decide +kernel), plain_poison (by decide +kernel), by decide +kernel⟩, ⟨codec (codecJob 2 0 0) [session
    { inter with block := ((encodeBlock 0 0 64).set 17 1).set 18 2 }], _, 0, 9984, 0, _, (codecJob 2 0 0),
    { inter with block := ((encodeBlock 0 0 64).set 17 1).set 18 2 }, _, [], _, [], [], [], _, takes (by decide +kernel), rfl,
    rfl, rfl, rfl, by decide +kernel⟩, ⟨codec (codecJob 2 0 0) [session inter], _, 0, 9984, 0, _, (codecJob 2 0 0), inter, _,
    [slicePic], _, [], [], [], _, takes (by decide +kernel), rfl, rfl, rfl, rfl, by decide +kernel⟩, ⟨codec {
    raw := toLE 4 (2 ^ 31 + 2 ^ 28) ++ List.replicate 12 0 ++ toLE 8 0x20000000 ++ List.replicate 4 0 ++ toLE 4 7 ++
    List.replicate 32 0 } [session inter], _, 0, 9984, 0, _, {
    raw := toLE 4 (2 ^ 31 + 2 ^ 28) ++ List.replicate 12 0 ++ toLE 8 0x20000000 ++ List.replicate 4 0 ++ toLE 4 7 ++
    List.replicate 32 0 }, inter, _, [slicePic], _, [], [], [], _, takes (by decide +kernel), rfl, rfl, rfl, rfl, .inl
    (by decide +kernel), by decide +kernel⟩, ⟨codec (codecJob 2 0 7) [session inter, setF F.DRM_STACK_STATUS_state 0 3], _, 0,
    9984, 0, _, (codecJob 2 0 7), inter, _, [slicePic], _, [], [], [], _, dram 7, takes (by decide +kernel), rfl, rfl, rfl,
    rfl, by decide +kernel⟩, ⟨codec (codecJob 2 0 7) [session inter], _, 0, 9984, 0, _, (codecJob 2 0 7), inter, _,
    [slicePic], _, [], [], [], _, dram 7, _, takes (by decide +kernel), rfl, rfl, rfl, rfl, rfl, by decide +kernel⟩⟩

theorem witness_CodecJobs_4 : (∃ (s : State) (d : Device) (e n us k : Nat) (x : Desc) (q : Session), TakesJob s e 3 n x d ∧ k
    = e * 16 + x.session ∧ us < 4294967296 ∧ d.sessionsAt k = some q ∧ q.ring = n ∧ q.encodes = false ∧ translateRange d
    (ringCtx d n) (x.num 8 8) .read x.length = none) ∧ (∃ (s : State) (d : Device) (e n us k : Nat) (x : Desc) (q : Session)
    (as : _), TakesJob s e 3 n x d ∧ k = e * 16 + x.session ∧ us < 4294967296 ∧ d.sessionsAt k = some q ∧ q.ring = n ∧
    q.encodes = false ∧ translateRange d (ringCtx d n) (x.num 8 8) .read x.length = some as ∧ agentHeld d (ringPart d n) as =
    true) ∧ (∃ (s : State) (d : Device) (e n us k : Nat) (x : Desc) (q : Session) (bad fixed lost : List Nat) (as : _) (d' :
    Device) (f : Found), TakesJob s e 3 n x d ∧ k = e * 16 + x.session ∧ (agentReads n as fixed lost).run d = d' ∧ (f =
    findPics q (d'.bytesAt as) bad (fun o m => anyPoison d' ((as.drop o).take m))) ∧ us < 4294967296 ∧ d.sessionsAt k = some q
    ∧ q.ring = n ∧ q.encodes = false ∧ translateRange d (ringCtx d n) (x.num 8 8) .read x.length = some as ∧ agentHeld d
    (ringPart d n) as = false ∧ f.refused = true) ∧ (∃ (s : State) (d : Device) (e n us k : Nat) (x : Desc) (q : Session) (bad
    fixed lost : List Nat) (as : _) (d' : Device) (f : Found), TakesJob s e 3 n x d ∧ k = e * 16 + x.session ∧ (agentReads n
    as fixed lost).run d = d' ∧ (f = findPics q (d'.bytesAt as) bad (fun o m => anyPoison d' ((as.drop o).take m))) ∧ us <
    4294967296 ∧ d.sessionsAt k = some q ∧ q.ring = n ∧ q.encodes = false ∧ translateRange d (ringCtx d n) (x.num 8 8) .read
    x.length = some as ∧ agentHeld d (ringPart d n) as = false ∧ f.refused = false ∧ ((f.pics.any fun p => q.field 0x38 2 <
    p.stream.buffers) = true)) ∧ (∃ (s : State) (d : Device) (e n us k : Nat) (x : Desc) (q : Session) (bad : List Nat) (pics
    : List DecodedPic) (fixed lost : List Nat) (as : _) (d' : Device) (f : Found), TakesJob s e 3 n x d ∧ k = e * 16 +
    x.session ∧ (agentReads n as fixed lost).run d = d' ∧ (f = findPics q (d'.bytesAt as) bad (fun o m => anyPoison d'
    ((as.drop o).take m))) ∧ us < 4294967296 ∧ d.sessionsAt k = some q ∧ q.ring = n ∧ q.encodes = false ∧ translateRange d
    (ringCtx d n) (x.num 8 8) .read x.length = some as ∧ agentHeld d (ringPart d n) as = false ∧ f.refused = false ∧
    ((f.pics.any fun p => q.field 0x38 2 < p.stream.buffers) = false) ∧ (f.pics.length ≠ pics.length ∨ ((f.pics.zip pics).all
    fun o => picMatches o.1 o.2) = false)) ∧ (∃ (s : State) (d : Device) (e n us k : Nat) (x : Desc) (q : Session) (bad : List
    Nat) (pics : List DecodedPic) (fixed lost : List Nat) (as : _) (d' : Device) (f : Found) (q' : _), TakesJob s e 3 n x d ∧
    k = e * 16 + x.session ∧ (agentReads n as fixed lost).run d = d' ∧ (f = findPics q (d'.bytesAt as) bad (fun o m =>
    anyPoison d' ((as.drop o).take m))) ∧ (q' = (f.pics.zip pics).foldl (fun s q => afterDecode s (x.num 0x28 8) q.1 q.2)
    { q with stream := f.stream }) ∧ us < 4294967296 ∧ d.sessionsAt k = some q ∧ q.ring = n ∧ q.encodes = false ∧
    translateRange d (ringCtx d n) (x.num 8 8) .read x.length = some as ∧ agentHeld d (ringPart d n) as = false ∧ f.refused =
    false ∧ ((f.pics.any fun p => q.field 0x38 2 < p.stream.buffers) = false) ∧ f.pics.length = pics.length ∧ (((f.pics.zip
    pics).all fun o => picMatches o.1 o.2) = true)) :=
  ⟨⟨codec { raw := toLE 4 (2 ^ 31 + 3 * 2 ^ 27) ++ toLE 4 6 ++ toLE 8 0x20000000 ++ List.replicate 48 0 } [session decoding],
    _, 0, 9984, 0, _, { raw := toLE 4 (2 ^ 31 + 3 * 2 ^ 27) ++ toLE 4 6 ++ toLE 8 0x20000000 ++ List.replicate 48 0 },
    decoding, takes (by decide +kernel), rfl, by decide +kernel⟩, ⟨codec (codecJob 3 6 0) [session decoding, putRoutesStale
    true], _, 0, 9984, 0, _, (codecJob 3 6 0), decoding, dram 6, takes (by decide +kernel), rfl, by decide +kernel⟩, ⟨codec
    (codecJob 3 20 0) [session decoding, wrBytes 0x1000000000 ([0, 0, 1, 0x42, 1] ++ List.replicate 13 0 ++ [255, 255])], _,
    0, 9984, 0, _, (codecJob 3 20 0), decoding, [], [], [], dram 20, _, _, takes (by decide +kernel), rfl, rfl, rfl,
    by decide +kernel⟩, ⟨codec (codecJob 3 6 0) [session { decoding with stream := some { known with buffers := 11 } },
    wrBytes 0x1000000000 [0, 0, 1, 2, 1, 0x80]], _, 0, 9984, 0, _, (codecJob 3 6 0),
    { decoding with stream := some { known with buffers := 11 } }, [], [], [], dram 6, _, _, takes (by decide +kernel), rfl,
    rfl, rfl, by decide +kernel⟩, ⟨codec (codecJob 3 6 0) [session { decoding with stream := some known }, wrBytes
    0x1000000000 [0, 0, 1, 2, 1, 0x80]], _, 0, 9984, 0, _, (codecJob 3 6 0), { decoding with stream := some known }, [],
    [{ onePic with luma := [256] }], [], [], dram 6, _, _, takes (by decide +kernel), rfl, rfl, rfl, by decide +kernel⟩,
    ⟨codec (codecJob 3 6 0) [session { decoding with stream := some known }, wrBytes 0x1000000000 [0, 0, 1, 2, 1, 0x80]], _,
    0, 9984, 0, _, (codecJob 3 6 0), { decoding with stream := some known }, [], [onePic], [], [], dram 6, _, _, _, takes
    (by decide +kernel), rfl, rfl, rfl, rfl, by decide +kernel⟩⟩

theorem witness_CodecJobs_5 : (∃ (s : State) (e k us : Nat), e < 34 ∧ k < 16 ∧ us < 4294967296 ∧ serving s.dev = true ∧
    s.dev.sessionsAt (e * 16 + k) = none) ∧ (∃ (s : State) (e k us : Nat) (q x : _), e < 34 ∧ k < 16 ∧ us < 4294967296 ∧
    serving s.dev = true ∧ s.dev.sessionsAt (e * 16 + k) = some q ∧ ((q.job.bind fun j => (s.dev.ringsAt q.ring).find? fun x
    => x.index == j) = some x) ∧ engineServes s.dev e = true ∧ freeBufs q ≠ []) ∧ (∃ (s : State) (e k us : Nat) (q x : _), e <
    34 ∧ k < 16 ∧ us < 4294967296 ∧ serving s.dev = true ∧ s.dev.sessionsAt (e * 16 + k) = some q ∧ ((q.job.bind fun j =>
    (s.dev.ringsAt q.ring).find? fun x => x.index == j) = some x) ∧ (engineServes s.dev e = false ∨ freeBufs q = [])) ∧ (∃ (s
    : State) (e k us : Nat) (q : _), e < 34 ∧ k < 16 ∧ us < 4294967296 ∧ serving s.dev = true ∧ s.dev.sessionsAt (e * 16 + k)
    = some q ∧ ((q.job.bind fun j => (s.dev.ringsAt q.ring).find? fun x => x.index == j) = none)) :=
  ⟨⟨with' [], 33, 15, 0, by decide +kernel⟩, ⟨codec (codecJob 3 64 0) [session { decoding with job := some 0 }], 0, 0, 0,
    { decoding with job := some 0 }, (codecJob 3 64 0), by decide +kernel⟩, ⟨codec (codecJob 3 64 0) [session
    { decoding with job := some 0 }, setF F.VCE_CTRL_enable 0 0], 0, 0, 0, { decoding with job := some 0 }, (codecJob 3 64 0),
    by decide +kernel⟩, ⟨codec (codecJob 3 64 0) [session decoding], 0, 0, 0, decoding, by decide +kernel⟩⟩

theorem witness_CodecJobs_6 : (∃ (s : State) (d : Device) (e n us k : Nat) (x : Desc) (q : Session), TakesJob s e 4 n x d ∧ k
    = e * 16 + x.session ∧ us < 4294967296 ∧ d.sessionsAt k = some q ∧ q.ring = n ∧ q.encodes = false) ∧ (∃ (s : State) (d :
    Device) (e n us k : Nat) (x : Desc) (q : Session) (pics : List CodedPic) (coding : Coding) (ends : Bool) (bs : List Byte),
    TakesJob s e 4 n x d ∧ k = e * 16 + x.session ∧ (coding = codePics (padBytes d) (pics.map fun p => (false, p))
    { session := q, out := [], steps := [], legal := true }) ∧ ends = (bit x.ctrl 14 == 1 && !q.isAv1) ∧ bs = coding.out ++
    (if ends then endOfSequence else []) ∧ us < 4294967296 ∧ d.sessionsAt k = some q ∧ q.ring = n ∧ q.encodes = true ∧
    (pics.length ≠ q.heldPics ∨ coding.legal = false)) ∧ (∃ (s : State) (d : Device) (e n us k : Nat) (x : Desc) (q : Session)
    (pics : List CodedPic) (coding : Coding) (ends : Bool) (bs : List Byte), TakesJob s e 4 n x d ∧ k = e * 16 + x.session ∧
    (coding = codePics (padBytes d) (pics.map fun p => (false, p)) { session := q, out := [], steps := [], legal := true }) ∧
    ends = (bit x.ctrl 14 == 1 && !q.isAv1) ∧ bs = coding.out ++ (if ends then endOfSequence else []) ∧ us < 4294967296 ∧
    d.sessionsAt k = some q ∧ q.ring = n ∧ q.encodes = true ∧ pics.length = q.heldPics ∧ coding.legal = true ∧ x.num 0x1C 4 <
    bs.length) ∧ (∃ (s : State) (d : Device) (e n us k : Nat) (x : Desc) (q : Session) (pics : List CodedPic) (coding :
    Coding) (ends : Bool) (bs : List Byte), TakesJob s e 4 n x d ∧ k = e * 16 + x.session ∧ (coding = codePics (padBytes d)
    (pics.map fun p => (false, p)) { session := q, out := [], steps := [], legal := true }) ∧ ends = (bit x.ctrl 14 == 1 &&
    !q.isAv1) ∧ bs = coding.out ++ (if ends then endOfSequence else []) ∧ (translateRange d (ringCtx d n) (x.num 0x10 8)
    .write bs.length = none ∨ (∃ out, translateRange d (ringCtx d n) (x.num 0x10 8) .write bs.length = some out ∧ writable out
    = false)) ∧ us < 4294967296 ∧ d.sessionsAt k = some q ∧ q.ring = n ∧ q.encodes = true ∧ pics.length = q.heldPics ∧
    coding.legal = true ∧ bs.length ≤ x.num 0x1C 4) ∧ (∃ (s : State) (d : Device) (e n us k : Nat) (x : Desc) (q : Session)
    (pics : List CodedPic) (coding : Coding) (ends : Bool) (bs : List Byte) (out : _), TakesJob s e 4 n x d ∧ k = e * 16 +
    x.session ∧ (coding = codePics (padBytes d) (pics.map fun p => (false, p))
    { session := q, out := [], steps := [], legal := true }) ∧ ends = (bit x.ctrl 14 == 1 && !q.isAv1) ∧ bs = coding.out ++
    (if ends then endOfSequence else []) ∧ us < 4294967296 ∧ d.sessionsAt k = some q ∧ q.ring = n ∧ q.encodes = true ∧
    pics.length = q.heldPics ∧ coding.legal = true ∧ bs.length ≤ x.num 0x1C 4 ∧ translateRange d (ringCtx d n) (x.num 0x10 8)
    .write bs.length = some out ∧ writable out = true ∧ agentHeld d (ringPart d n) out = true) ∧ (∃ (s : State) (d : Device)
    (e n us k : Nat) (x : Desc) (q : Session) (pics : List CodedPic) (coding : Coding) (ends : Bool) (bs : List Byte) (out :
    _), TakesJob s e 4 n x d ∧ k = e * 16 + x.session ∧ (coding = codePics (padBytes d) (pics.map fun p => (false, p))
    { session := q, out := [], steps := [], legal := true }) ∧ ends = (bit x.ctrl 14 == 1 && !q.isAv1) ∧ bs = coding.out ++
    (if ends then endOfSequence else []) ∧ us < 4294967296 ∧ d.sessionsAt k = some q ∧ q.ring = n ∧ q.encodes = true ∧
    pics.length = q.heldPics ∧ coding.legal = true ∧ bs.length ≤ x.num 0x1C 4 ∧ translateRange d (ringCtx d n) (x.num 0x10 8)
    .write bs.length = some out ∧ writable out = true ∧ agentHeld d (ringPart d n) out = false) :=
  ⟨⟨codec (codecJob 4 0 64) [session decoding], _, 0, 9984, 0, _, (codecJob 4 0 64), decoding, takes (by decide +kernel), rfl,
    by decide +kernel⟩, ⟨codec (codecJob 4 0 64) [session inter], _, 0, 9984, 0, _, (codecJob 4 0 64), inter, [slicePic], _,
    _, _, takes (by decide +kernel), rfl, rfl, rfl, rfl, by decide +kernel⟩, ⟨codec
    { raw := toLE 4 (2 ^ 31 + 2 ^ 29 + 2 ^ 14) ++ List.replicate 60 0 } [session inter], _, 0, 9984, 0, _,
    { raw := toLE 4 (2 ^ 31 + 2 ^ 29 + 2 ^ 14) ++ List.replicate 60 0 }, inter, [], _, _, _, takes (by decide +kernel), rfl,
    rfl, rfl, rfl, by decide +kernel⟩, ⟨codec {
    raw := toLE 4 (2 ^ 31 + 2 ^ 29 + 2 ^ 14) ++ List.replicate 12 0 ++ toLE 8 0x20000000 ++ toLE 4 0 ++ toLE 4 5 ++
    List.replicate 32 0 } [session inter], _, 0, 9984, 0, _, {
    raw := toLE 4 (2 ^ 31 + 2 ^ 29 + 2 ^ 14) ++ List.replicate 12 0 ++ toLE 8 0x20000000 ++ toLE 4 0 ++ toLE 4 5 ++
    List.replicate 32 0 }, inter, [], _, _, _, takes (by decide +kernel), rfl, rfl, rfl, rfl, .inl (by decide +kernel),
    by decide +kernel⟩, ⟨codec
    { raw := toLE 4 (2 ^ 31 + 2 ^ 29 + 2 ^ 14) ++ List.replicate 24 0 ++ toLE 4 5 ++ List.replicate 32 0 } [session inter,
    putRoutesStale true], _, 0, 9984, 0, _,
    { raw := toLE 4 (2 ^ 31 + 2 ^ 29 + 2 ^ 14) ++ List.replicate 24 0 ++ toLE 4 5 ++ List.replicate 32 0 }, inter, [], _, _,
    _, dram 5, takes (by decide +kernel), rfl, rfl, rfl, rfl, by decide +kernel⟩, ⟨codec
    { raw := toLE 4 (2 ^ 31 + 2 ^ 29 + 2 ^ 14) ++ List.replicate 24 0 ++ toLE 4 12 ++ List.replicate 32 0 } [session
    { inter with heldPics := 1 }], _, 0, 9984, 0, _,
    { raw := toLE 4 (2 ^ 31 + 2 ^ 29 + 2 ^ 14) ++ List.replicate 24 0 ++ toLE 4 12 ++ List.replicate 32 0 },
    { inter with heldPics := 1 }, [slicePic], _, _, _, dram 12, takes (by decide +kernel), rfl, rfl, rfl, rfl,
    by decide +kernel⟩⟩

theorem witness_CodecJobs_7 : ∃ (s : State) (d : Device) (e n us : Nat) (x : Desc) (q : Session), TakesJob s e 5 n x d ∧ us <
    4294967296 ∧ d.sessionsAt (e * 16 + x.session) = some q ∧ q.ring = n :=
  ⟨codec (codecJob 5 0 0) [session decoding], _, 0, 9984, 0, (codecJob 5 0 0), decoding, takes (by decide +kernel),
    by decide +kernel⟩

theorem witness_CodecControl_0 : (∃ (s : State) (n : Nat) (c : Instr) (kind : RingKind), (c, kind) ∈ [(.vceJobComplete n,
    .vce), (.ingestJobComplete n, .ing)] ∧ n < (if kind = .vce then 10256 else 10392) ∧ working s.dev = true ∧ s.dev.ringsAt n
    = []) ∧ (∃ (s : State) (n : Nat) (c : Instr) (kind : RingKind) (x rest : _), (c, kind) ∈ [(.vceJobComplete n, .vce),
    (.ingestJobComplete n, .ing)] ∧ n < (if kind = .vce then 10256 else 10392) ∧ working s.dev = true ∧ s.dev.ringsAt n = x ::
    rest ∧ x.status = none) ∧ (∃ (s : State) (n : Nat) (c : Instr) (kind : RingKind) (st x rest : _), (c, kind) ∈
    [(.vceJobComplete n, .vce), (.ingestJobComplete n, .ing)] ∧ n < (if kind = .vce then 10256 else 10392) ∧ working s.dev =
    true ∧ s.dev.ringsAt n = x :: rest ∧ x.status = some st ∧ (ringKind n ≠ kind ∨ ringState s.dev n = 4 ∨ (descAddrs s.dev n
    x.index .write).any (agentHeld s.dev (ringPart s.dev n)) = true)) ∧ (∃ (s : State) (n : Nat) (c : Instr) (kind : RingKind)
    (st x rest : _), (c, kind) ∈ [(.vceJobComplete n, .vce), (.ingestJobComplete n, .ing)] ∧ n < (if kind = .vce then 10256
    else 10392) ∧ working s.dev = true ∧ s.dev.ringsAt n = x :: rest ∧ x.status = some st ∧ ringKind n = kind ∧ ringState
    s.dev n ≠ 4 ∧ (descAddrs s.dev n x.index .write).any (agentHeld s.dev (ringPart s.dev n)) = false ∧ canWriteBack s.dev n x
    = true) ∧ (∃ (s : State) (n : Nat) (c : Instr) (kind : RingKind) (st x rest : _), (c, kind) ∈ [(.vceJobComplete n, .vce),
    (.ingestJobComplete n, .ing)] ∧ n < (if kind = .vce then 10256 else 10392) ∧ working s.dev = true ∧ s.dev.ringsAt n = x ::
    rest ∧ x.status = some st ∧ ringKind n = kind ∧ ringState s.dev n ≠ 4 ∧ (descAddrs s.dev n x.index .write).any (agentHeld
    s.dev (ringPart s.dev n)) = false ∧ canWriteBack s.dev n x = false) :=
  ⟨⟨on live, 10255, .vceJobComplete 10255, .vce, by simp, by decide +kernel⟩, ⟨rings 10256 2 [putRings 10256 [{}]], 10256,
    .ingestJobComplete 10256, .ing, {}, [], by simp, by decide +kernel⟩, ⟨codec { status := some 0 } [setF
    F.DMA_RING_STAT_state 9984 4], 9984, .vceJobComplete 9984, .vce, 0, { status := some 0 }, [], by simp, by decide +kernel⟩,
    ⟨codec { status := some 0 } [], 9984, .vceJobComplete 9984, .vce, 0, { status := some 0 }, [], by simp,
    by decide +kernel⟩, ⟨codec { status := some 0 } [setF F.DMA_RING_BASE_base 9984 0x800000], 9984, .vceJobComplete 9984,
    .vce, 0, { status := some 0 }, [], by simp, by decide +kernel⟩⟩

theorem witness_CodecControl_1 : (∃ (s : State) (d : Device) (rq e v : Nat) (q : _), Asks s rq d ∧ e < 34 ∧ (isSteward rq ||
    !siteGone d .VCE_RETURN e) = true ∧ bit (mayWrite d rq .VCE_RETURN e) 31 = 1 ∧ bit v 31 = 1 ∧ d.sessionsAt (e * 16 + bits
    v 19 16) = some q ∧ q.heldBufs.contains (bits v 15 0) = true) ∧ (∃ (s : State) (d : Device) (rq e v : Nat) (q : _), Asks s
    rq d ∧ e < 34 ∧ (isSteward rq || !siteGone d .VCE_RETURN e) = true ∧ bit (mayWrite d rq .VCE_RETURN e) 31 = 1 ∧ bit v 31 =
    1 ∧ d.sessionsAt (e * 16 + bits v 19 16) = some q ∧ q.heldBufs.contains (bits v 15 0) = false) ∧ (∃ (s : State) (d :
    Device) (rq e v : Nat), Asks s rq d ∧ e < 34 ∧ (isSteward rq || !siteGone d .VCE_RETURN e) = true ∧ bit (mayWrite d rq
    .VCE_RETURN e) 31 = 1 ∧ bit v 31 = 1 ∧ d.sessionsAt (e * 16 + bits v 19 16) = none) ∧ (∃ (s : State) (d : Device) (rq e v
    : Nat), Asks s rq d ∧ e < 34 ∧ (isSteward rq || !siteGone d .VCE_RETURN e) = true ∧ bit (mayWrite d rq .VCE_RETURN e) 31 =
    1 ∧ bit v 31 = 0) ∧ (∃ (s : State) (d : Device) (rq e : Nat), Asks s rq d ∧ e < 34 ∧ (isSteward rq || !siteGone d
    .VCE_RETURN e) = true ∧ bit (mayWrite d rq .VCE_RETURN e) 31 = 0) :=
  ⟨⟨with' [putSessions 543 (some { heldBufs := [0] })], _, 0, 33, 0x800F0000, { heldBufs := [0] }, asks (by decide +kernel),
    by decide +kernel⟩, ⟨with' [putSessions 543 (some {})], _, 0, 33, 0x800F0000, {}, asks (by decide +kernel),
    by decide +kernel⟩, ⟨on live, _, 0, 33, 0x800F0000, asks (by decide +kernel), by decide +kernel⟩, ⟨on live, _, 0, 33, 0,
    asks (by decide +kernel), by decide +kernel⟩, ⟨on live, _, 3, 31, asks (by decide +kernel), by decide +kernel⟩⟩

theorem witness_CodecControl_2 : ∃ (s : State) (e : Nat), e < 34 ∧ powered s.dev = true :=
  ⟨on live, 33, by decide +kernel⟩

theorem witness_CodecControl_3 : (∃ (s : State) (d : Device) (rq e : Nat), Asks s rq d ∧ e < 34 ∧ (isSteward rq || !siteGone d
    .VCE_CTRL e) = true ∧ mayWrite d rq .VCE_CTRL e ≠ 0) ∧ (∃ (s : State) (d : Device) (rq e : Nat), Asks s rq d ∧ e < 34 ∧
    (isSteward rq || !siteGone d .VCE_CTRL e) = true ∧ mayWrite d rq .VCE_CTRL e = 0) :=
  ⟨⟨on live, _, 0, 33, asks (by decide +kernel), by decide +kernel⟩, ⟨on live, _, 3, 31, asks (by decide +kernel),
    by decide +kernel⟩⟩

theorem witness_CodecControl_4 : (∃ (s : State) (d : Device) (rq e : Nat), Asks s rq d ∧ e < 34 ∧ (isSteward rq || !siteGone d
    .VCE_RETURN e) = false) ∧ (∃ (s : State) (d : Device) (rq e : Nat), Asks s rq d ∧ e < 34 ∧ (isSteward rq || !siteGone d
    .VCE_CTRL e) = false) :=
  ⟨⟨on live, _, 3, 33, asks (by decide +kernel), by decide +kernel⟩, ⟨on live, _, 3, 33, asks (by decide +kernel),
    by decide +kernel⟩⟩

theorem witness_IngestUnits_0 : ∃ (s : State) (site us : Nat), site < 17 ∧ us < 4294967296 ∧ serving s.dev = true ∧ (ingServes
    s.dev site = false ∨ ingTurn s.dev site = none) :=
  ⟨with' [], 15, 0, by decide +kernel⟩

theorem witness_IngestUnits_1 : ∃ (s : State) (d d' : Device) (site n us : Nat) (x : Desc) (e : Eff) (fixed lost : List Nat),
    (((translateRange s.dev (ringCtx s.dev n) x.profileAt .read 64 = none ∨ translateRange s.dev (ringCtx s.dev n) (x.num 8 8)
    .read (x.length * 32) = none) ∧ d = s.dev ∧ e = ingEnd n x 1) ∨ (∃ pa ta, translateRange s.dev (ringCtx s.dev n)
    x.profileAt .read 64 = some pa ∧ translateRange s.dev (ringCtx s.dev n) (x.num 8 8) .read (x.length * 32) = some ta ∧
    ((agentHeld s.dev (ringPart s.dev n) (pa ++ ta) = true ∧ d = s.dev ∧ e = .skip) ∨ (agentHeld s.dev (ringPart s.dev n) (pa
    ++ ta) = false ∧ (agentReads n (pa ++ ta) fixed lost).run s.dev = d ∧ ((anyPoison d (pa ++ ta) = true ∧ e = ingEnd n x 3)
    ∨ (anyPoison d (pa ++ ta) = false ∧ (Profile.bad ⟨d.bytesAt pa⟩ = true ∨ x.stride < Profile.slotBytes ⟨d.bytesAt pa⟩) ∧ e
    = ingEnd n x 7)))))) ∧ e.run d = d' ∧ site < 17 ∧ us < 4294967296 ∧ serving s.dev = true ∧ ingServes s.dev site = true ∧
    ingTurn s.dev site = some (n, x) ∧ x.begun = false ∧ ((d'.ringsAt n).find? (fun y => y.index == x.index && y.begun &&
    y.status.isNone) = none) :=
  ⟨rings 10256 2 [setF F.ING_CTRL_enable 0 1, putRings 10256 [{
    raw := toLE 4 (2 ^ 31 + 2 ^ 28) ++ toLE 4 1 ++ List.replicate 24 0 ++ toLE 8 0x20000000 ++ List.replicate 24 0 }]], _, _,
    0, 10256, 0, {
    raw := toLE 4 (2 ^ 31 + 2 ^ 28) ++ toLE 4 1 ++ List.replicate 24 0 ++ toLE 8 0x20000000 ++ List.replicate 24 0 }, _, [],
    [], .inl ⟨.inl (by decide +kernel), rfl, rfl⟩, rfl, by decide +kernel⟩

theorem witness_IngestUnits_2 : (∃ (s : State) (d : Device) (site n us i c : Nat) (x y : Desc) (p : Profile) (fixed lost :
    List Nat), ((x.begun = true ∧ d = s.dev) ∨ (x.begun = false ∧ ∃ pa ta d0, translateRange s.dev (ringCtx s.dev n)
    x.profileAt .read 64 = some pa ∧ translateRange s.dev (ringCtx s.dev n) (x.num 8 8) .read (x.length * 32) = some ta ∧
    agentHeld s.dev (ringPart s.dev n) (pa ++ ta) = false ∧ (agentReads n (pa ++ ta) fixed lost).run s.dev = d0 ∧ anyPoison d0
    (pa ++ ta) = false ∧ Profile.bad ⟨d0.bytesAt pa⟩ = false ∧ Profile.slotBytes ⟨d0.bytesAt pa⟩ ≤ x.stride ∧ (Eff.all [putRr
    (72 + ingOf n) n, setF F.ING_CTRL_busy (ingOf n) 1, modDesc n x.index fun y =>
    { y with moved := d0.bytesAt pa, results := [0, 0, 0, 0] }]).run d0 = d)) ∧ p = ⟨y.moved⟩ ∧ i = y.samplesDone ∧ c =
    ringCtx d n ∧ site < 17 ∧ us < 4294967296 ∧ serving s.dev = true ∧ ingServes s.dev site = true ∧ ingTurn s.dev site = some
    (n, x) ∧ ((d.ringsAt n).find? (fun y => y.index == x.index && y.begun && y.status.isNone) = some y) ∧ (translateRange d c
    (y.num 8 8 + 32 * i) .read 32 = none ∨ translateRange d c (y.num 8 8 + 32 * i) .write 32 = none)) ∧ (∃ (s : State) (d :
    Device) (site n us i c : Nat) (x y : Desc) (p : Profile) (fixed lost : List Nat) (ta tw : _), ((x.begun = true ∧ d =
    s.dev) ∨ (x.begun = false ∧ ∃ pa ta d0, translateRange s.dev (ringCtx s.dev n) x.profileAt .read 64 = some pa ∧
    translateRange s.dev (ringCtx s.dev n) (x.num 8 8) .read (x.length * 32) = some ta ∧ agentHeld s.dev (ringPart s.dev n)
    (pa ++ ta) = false ∧ (agentReads n (pa ++ ta) fixed lost).run s.dev = d0 ∧ anyPoison d0 (pa ++ ta) = false ∧ Profile.bad
    ⟨d0.bytesAt pa⟩ = false ∧ Profile.slotBytes ⟨d0.bytesAt pa⟩ ≤ x.stride ∧ (Eff.all [putRr (72 + ingOf n) n, setF
    F.ING_CTRL_busy (ingOf n) 1, modDesc n x.index fun y => { y with moved := d0.bytesAt pa, results := [0, 0, 0, 0] }]).run
    d0 = d)) ∧ p = ⟨y.moved⟩ ∧ i = y.samplesDone ∧ c = ringCtx d n ∧ (translateRange d c (y.dst + i * y.stride) .write
    p.slotBytes = none ∨ (anyPoison d ta = false ∧ ∃ slot, translateRange d c (y.dst + i * y.stride) .write p.slotBytes = some
    slot ∧ writable slot = false)) ∧ site < 17 ∧ us < 4294967296 ∧ serving s.dev = true ∧ ingServes s.dev site = true ∧
    ingTurn s.dev site = some (n, x) ∧ ((d.ringsAt n).find? (fun y => y.index == x.index && y.begun && y.status.isNone) = some
    y) ∧ translateRange d c (y.num 8 8 + 32 * i) .read 32 = some ta ∧ translateRange d c (y.num 8 8 + 32 * i) .write 32 = some
    tw) ∧ (∃ (s : State) (d : Device) (site n us i c : Nat) (x y : Desc) (p : Profile) (fixed lost : List Nat) (ta tw : _)
    (slot : List Nat) (e : Entry), ((x.begun = true ∧ d = s.dev) ∨ (x.begun = false ∧ ∃ pa ta d0, translateRange s.dev
    (ringCtx s.dev n) x.profileAt .read 64 = some pa ∧ translateRange s.dev (ringCtx s.dev n) (x.num 8 8) .read (x.length *
    32) = some ta ∧ agentHeld s.dev (ringPart s.dev n) (pa ++ ta) = false ∧ (agentReads n (pa ++ ta) fixed lost).run s.dev =
    d0 ∧ anyPoison d0 (pa ++ ta) = false ∧ Profile.bad ⟨d0.bytesAt pa⟩ = false ∧ Profile.slotBytes ⟨d0.bytesAt pa⟩ ≤ x.stride
    ∧ (Eff.all [putRr (72 + ingOf n) n, setF F.ING_CTRL_busy (ingOf n) 1, modDesc n x.index fun y =>
    { y with moved := d0.bytesAt pa, results := [0, 0, 0, 0] }]).run d0 = d)) ∧ p = ⟨y.moved⟩ ∧ i = y.samplesDone ∧ c =
    ringCtx d n ∧ e = ⟨tw, d.bytesAt ta⟩ ∧ site < 17 ∧ us < 4294967296 ∧ serving s.dev = true ∧ ingServes s.dev site = true ∧
    ingTurn s.dev site = some (n, x) ∧ ((d.ringsAt n).find? (fun y => y.index == x.index && y.begun && y.status.isNone) = some
    y) ∧ translateRange d c (y.num 8 8 + 32 * i) .read 32 = some ta ∧ translateRange d c (y.num 8 8 + 32 * i) .write 32 = some
    tw ∧ translateRange d c (y.dst + i * y.stride) .write p.slotBytes = some slot ∧ anyPoison d ta = true) ∧ (∃ (s : State) (d
    : Device) (site n us i c : Nat) (x y : Desc) (p : Profile) (fixed lost : List Nat) (ta tw : _) (slot : List Nat) (e :
    Entry), ((x.begun = true ∧ d = s.dev) ∨ (x.begun = false ∧ ∃ pa ta d0, translateRange s.dev (ringCtx s.dev n) x.profileAt
    .read 64 = some pa ∧ translateRange s.dev (ringCtx s.dev n) (x.num 8 8) .read (x.length * 32) = some ta ∧ agentHeld s.dev
    (ringPart s.dev n) (pa ++ ta) = false ∧ (agentReads n (pa ++ ta) fixed lost).run s.dev = d0 ∧ anyPoison d0 (pa ++ ta) =
    false ∧ Profile.bad ⟨d0.bytesAt pa⟩ = false ∧ Profile.slotBytes ⟨d0.bytesAt pa⟩ ≤ x.stride ∧ (Eff.all [putRr (72 + ingOf
    n) n, setF F.ING_CTRL_busy (ingOf n) 1, modDesc n x.index fun y =>
    { y with moved := d0.bytesAt pa, results := [0, 0, 0, 0] }]).run d0 = d)) ∧ p = ⟨y.moved⟩ ∧ i = y.samplesDone ∧ c =
    ringCtx d n ∧ e = ⟨tw, d.bytesAt ta⟩ ∧ site < 17 ∧ us < 4294967296 ∧ serving s.dev = true ∧ ingServes s.dev site = true ∧
    ingTurn s.dev site = some (n, x) ∧ ((d.ringsAt n).find? (fun y => y.index == x.index && y.begun && y.status.isNone) = some
    y) ∧ translateRange d c (y.num 8 8 + 32 * i) .read 32 = some ta ∧ translateRange d c (y.num 8 8 + 32 * i) .write 32 = some
    tw ∧ translateRange d c (y.dst + i * y.stride) .write p.slotBytes = some slot ∧ anyPoison d ta = false ∧ writable slot =
    true ∧ agentHeld d (ringPart d n) (ta ++ slot ++ (sampleSource d n p e).addrs) = true) ∧ (∃ (s : State) (d : Device) (site
    n us i c : Nat) (x y : Desc) (p : Profile) (fixed lost : List Nat) (ta tw : _) (slot : List Nat) (e : Entry) (d' : Device)
    (src : Source) (f : Finding) (hold : Option (List Byte)) (bad unclean : Bool) (sat : Nat), ((x.begun = true ∧ d = s.dev) ∨
    (x.begun = false ∧ ∃ pa ta d0, translateRange s.dev (ringCtx s.dev n) x.profileAt .read 64 = some pa ∧ translateRange
    s.dev (ringCtx s.dev n) (x.num 8 8) .read (x.length * 32) = some ta ∧ agentHeld s.dev (ringPart s.dev n) (pa ++ ta) =
    false ∧ (agentReads n (pa ++ ta) fixed lost).run s.dev = d0 ∧ anyPoison d0 (pa ++ ta) = false ∧ Profile.bad ⟨d0.bytesAt
    pa⟩ = false ∧ Profile.slotBytes ⟨d0.bytesAt pa⟩ ≤ x.stride ∧ (Eff.all [putRr (72 + ingOf n) n, setF F.ING_CTRL_busy (ingOf
    n) 1, modDesc n x.index fun y => { y with moved := d0.bytesAt pa, results := [0, 0, 0, 0] }]).run d0 = d)) ∧ p = ⟨y.moved⟩
    ∧ i = y.samplesDone ∧ c = ringCtx d n ∧ e = ⟨tw, d.bytesAt ta⟩ ∧ (agentReads n (ta ++ (sampleSource d n p e).addrs) fixed
    lost).run d = d' ∧ src = sampleSource d' n p e ∧ f = checkSample d' p e src ∧ bad = (f.cause != 0) ∧ unclean =
    (src.unclean && f.cause != 6) ∧ sat = saturatedCount p f.values ∧ hold = (if bad then (streamSlot d' (ingOf n)
    e.stream).bind (replacement d' (ingOf n) p) else none) ∧ site < 17 ∧ us < 4294967296 ∧ serving s.dev = true ∧ ingServes
    s.dev site = true ∧ ingTurn s.dev site = some (n, x) ∧ ((d.ringsAt n).find? (fun y => y.index == x.index && y.begun &&
    y.status.isNone) = some y) ∧ translateRange d c (y.num 8 8 + 32 * i) .read 32 = some ta ∧ translateRange d c (y.num 8 8 +
    32 * i) .write 32 = some tw ∧ translateRange d c (y.dst + i * y.stride) .write p.slotBytes = some slot ∧ anyPoison d ta =
    false ∧ writable slot = true ∧ agentHeld d (ringPart d n) (ta ++ slot ++ (sampleSource d n p e).addrs) = false) :=
  ⟨⟨rings 10256 2 [setF F.ING_CTRL_enable 0 1, putRings 10256 [(ingestAt 0x20000000 0)]], _, 0, 10256, 0, _, _, (ingestAt
    0x20000000 0), (ingestAt 0x20000000 0), _, [], [], .inl ⟨by decide +kernel, rfl⟩, rfl, rfl, rfl, by decide +kernel⟩,
    ⟨rings 10256 2 [setF F.ING_CTRL_enable 0 1, putRings 10256 [(ingestAt 0 0x20000000)]], _, 0, 10256, 0, _, _, (ingestAt 0
    0x20000000), (ingestAt 0 0x20000000), _, [], [], dram 32, dram 32, .inl ⟨by decide +kernel, rfl⟩, rfl, rfl, rfl, .inl
    (by decide +kernel), by decide +kernel⟩, ⟨ingesting [putPoison 0x1000000000 true], _, 0, 10256, 0, _, _, ingestJob,
    ingestJob, _, [], [], dram 32, dram 32, dram 1024, _, .inl ⟨by decide +kernel, rfl⟩, rfl, rfl, rfl, rfl,
    by decide +kernel⟩, ⟨ingesting [putRoutesStale true], _, 0, 10256, 0, _, _, ingestJob, ingestJob, _, [], [], dram 32, dram
    32, dram 1024, _, .inl ⟨by decide +kernel, rfl⟩, rfl, rfl, rfl, rfl, by decide +kernel⟩, ⟨ingesting [], _, 0, 10256, 0, _,
    _, ingestJob, ingestJob, _, [], [], dram 32, dram 32, dram 1024, _, _, _, _, _, _, _, _, .inl ⟨by decide +kernel, rfl⟩,
    rfl, rfl, rfl, rfl, rfl, rfl, rfl, rfl, rfl, rfl, rfl, by decide +kernel⟩⟩

theorem witness_IngestUnits_3 : (∃ (s : State) (d : Device) (rq site v : Nat) (k : _), Writes s rq .ING_STREAM_CTRL site v 31
    d ∧ site < 17 ∧ (isSteward rq || !siteGone ((beforeAccess rq).run s.dev) .ING_STREAM_CTRL site) = true ∧ bit v 31 = 1 ∧
    streamSlot d site (bits v 7 0) = some k) ∧ (∃ (s : State) (d : Device) (rq site v : Nat), Writes s rq .ING_STREAM_CTRL
    site v 31 d ∧ site < 17 ∧ (isSteward rq || !siteGone ((beforeAccess rq).run s.dev) .ING_STREAM_CTRL site) = true ∧ (bit v
    31 = 0 ∨ streamSlot d site (bits v 7 0) = none)) :=
  ⟨⟨runs 0 [setF F.ING_STREAM_BASE_enable 0 1], _, 0, 0, 0x80000000, { at_ := dram 64, bytes := List.replicate 64 0 }, writes
    (by decide +kernel), by decide +kernel⟩, ⟨on live, _, 0, 15, 0, writes (by decide +kernel), by decide +kernel⟩⟩

theorem witness_IngestUnits_4 : (∃ (s : State) (d : Device) (rq site : Nat), Asks s rq d ∧ site < 17 ∧ (isSteward rq ||
    !siteGone d .ING_STREAM_CTRL site) = true ∧ bit (mayWrite d rq .ING_STREAM_CTRL site) 31 = 0) ∧ (∃ (s : State) (d :
    Device) (rq site : Nat), Asks s rq d ∧ site < 17 ∧ (isSteward rq || !siteGone d .ING_STREAM_CTRL site) = false) :=
  ⟨⟨on live, _, 3, 15, asks (by decide +kernel), by decide +kernel⟩, ⟨on live, _, 3, 16, asks (by decide +kernel),
    by decide +kernel⟩⟩

theorem witness_IngestUnits_5 : (∃ (s : State) (failed : List Nat), failed.all (· < 16) = true ∧ serving s.dev = true ∧
    s.dev.fld F.ING_PAGE_enable 0 = 1) ∧ (∃ (s : State) (failed : List Nat), failed.all (· < 16) = true ∧ serving s.dev = true
    ∧ s.dev.fld F.ING_PAGE_enable 0 ≠ 1) :=
  ⟨⟨with' [setF F.ING_PAGE_enable 0 1], [15], by decide +kernel⟩, ⟨on live, [15], by decide +kernel⟩⟩

theorem witness_KeyCommands_0 : (∃ (s : State) (d : Device) (rq w op index : Nat) (c : Instr), (c, op) ∈ [(.keyLoad rq w
    index, 1), (.keyErase rq w index, 2), (.keySeal rq w index, 3), (.keyUnseal rq w index, 4), (.linkKeyLoad rq w index, 5),
    (.attest rq w index, 6), (.idRead rq w index, 7), (.rootMsg rq w index, 8)] ∧ AsksAon s rq d ∧ w < 33 ∧ index < 65536 ∧
    bit (mayWrite d rq .SEC_CMD w) 31 = 0) ∧ (∃ (s : State) (d : Device) (rq w op index : Nat) (c : Instr), (c, op) ∈
    [(.keyLoad rq w index, 1), (.keyErase rq w index, 2), (.keySeal rq w index, 3), (.keyUnseal rq w index, 4), (.linkKeyLoad
    rq w index, 5), (.attest rq w index, 6), (.idRead rq w index, 7), (.rootMsg rq w index, 8)] ∧ WritesAon s rq .SEC_CMD w
    (secValue op index) 31 d ∧ w < 33 ∧ index < 65536 ∧ d.fld F.SEC_CMD_busy w ≠ 0) ∧ (∃ (s : State) (d : Device) (rq w op
    index : Nat) (c : Instr), (c, op) ∈ [(.keyLoad rq w index, 1), (.keyErase rq w index, 2), (.keySeal rq w index, 3),
    (.keyUnseal rq w index, 4), (.linkKeyLoad rq w index, 5), (.attest rq w index, 6), (.idRead rq w index, 7), (.rootMsg rq w
    index, 8)] ∧ WritesAon s rq .SEC_CMD w (secValue op index) 31 d ∧ w < 33 ∧ index < 65536 ∧ d.fld F.SEC_CMD_busy w = 0 ∧
    secQuarantined d op = true) ∧ (∃ (s : State) (d : Device) (rq w op index : Nat) (c : Instr), (c, op) ∈ [(.keyLoad rq w
    index, 1), (.keyErase rq w index, 2), (.keySeal rq w index, 3), (.keyUnseal rq w index, 4), (.linkKeyLoad rq w index, 5),
    (.attest rq w index, 6), (.idRead rq w index, 7), (.rootMsg rq w index, 8)] ∧ WritesAon s rq .SEC_CMD w (secValue op
    index) 31 d ∧ w < 33 ∧ index < 65536 ∧ d.fld F.SEC_CMD_busy w = 0 ∧ secQuarantined d op = false ∧ secInRange w op index
    (secArg d w) = false) :=
  ⟨⟨on live, _, 2, 0, 7, 0, .idRead 2 0 0, by simp, asksAon (by decide +kernel), by decide +kernel⟩, ⟨keyed [] [setF
    F.SEC_CMD_busy 0 1], _, 0, 0, 7, 0, .idRead 0 0 0, by simp, writesAon (by decide +kernel), by decide +kernel⟩, ⟨keyed []
    [setF F.SEC_KEYSTATE_quarantine 0 1], _, 0, 0, 6, 0, .attest 0 0 0, by simp, writesAon (by decide +kernel),
    by decide +kernel⟩, ⟨keyed [] [], _, 0, 32, 8, 65535, .rootMsg 0 32 65535, by simp, writesAon (by decide +kernel),
    by decide +kernel⟩⟩

theorem witness_KeyCommands_1 : (∃ (s : State) (d : Device) (rq w index : Nat) (b : List Byte) (fails : Option Nat) (code :
    _), AsksKeys s rq w 1 index d ∧ b = d.bytes (secArg d w) 256 ∧ fails = firstFail ([(secReach d w (secArg d w) 256, 5),
    (!d.poisoned (secArg d w) 256, 10), (blobOk b 1 index, 1), (num b 8 8 == d.reg .LNK_SERIAL 0, 2)] ++ slotChecks d w index)
    ∧ fails = some code ∧ code ≠ 0) ∧ (∃ (s : State) (d : Device) (rq w index : Nat) (b : List Byte) (fails : Option Nat),
    AsksKeys s rq w 1 index d ∧ b = d.bytes (secArg d w) 256 ∧ fails = firstFail ([(secReach d w (secArg d w) 256, 5),
    (!d.poisoned (secArg d w) 256, 10), (blobOk b 1 index, 1), (num b 8 8 == d.reg .LNK_SERIAL 0, 2)] ++ slotChecks d w index)
    ∧ fails = none) :=
  ⟨⟨keyed [0x41, 0x58, 0x4B, 0x42, 1, 2, 0xFF, 3] [], _, 0, 0, 1023, _, _, 1, keys (by decide +kernel), rfl, rfl,
    by decide +kernel⟩, ⟨keyed [0x41, 0x58, 0x4B, 0x42, 1, 1, 0xFF, 3] [tenant], _, 0, 0, 1023, _, _, keys
    (by decide +kernel), rfl, rfl, by decide +kernel⟩⟩

theorem witness_KeyCommands_2 : (∃ (s : State) (d : Device) (rq w index : Nat), AsksKeys s rq w 2 index d ∧ holdsSlot d w
    index = false) ∧ (∃ (s : State) (d : Device) (rq w index : Nat), AsksKeys s rq w 2 index d ∧ holdsSlot d w index = true ∧
    slotInUse d index = true) ∧ (∃ (s : State) (d : Device) (rq w index : Nat), AsksKeys s rq w 2 index d ∧ holdsSlot d w
    index = true ∧ slotInUse d index = false) :=
  ⟨⟨keyed [] [setF F.SEC_ARG_addr 0 0], _, 0, 0, 1023, keys (by decide +kernel), by decide +kernel⟩, ⟨keyed [] [tenant, setF
    F.SEC_ARG_addr 0 0, setReg .SEC_CTX_KEY 0 0x800003FF], _, 0, 0, 1023, keys (by decide +kernel), by decide +kernel⟩, ⟨keyed
    [] [tenant, setF F.SEC_ARG_addr 0 0], _, 0, 0, 1023, keys (by decide +kernel), by decide +kernel⟩⟩

theorem witness_KeyCommands_3 : (∃ (s : State) (d : Device) (rq w index : Nat), AsksKeys s rq w 3 index d ∧ secReach d w
    (secArg d w) 128 = false) ∧ (∃ (s : State) (d : Device) (rq w index : Nat), AsksKeys s rq w 3 index d ∧ secReach d w
    (secArg d w) 128 = true ∧ holdsSlot d w index = false) ∧ (∃ (s : State) (d : Device) (rq w index : Nat), AsksKeys s rq w 3
    index d ∧ secReach d w (secArg d w) 128 = true ∧ holdsSlot d w index = true) :=
  ⟨⟨keyed [] [tenant, setF F.SEC_ARG_addr 0 0], _, 0, 0, 1023, keys (by decide +kernel), by decide +kernel⟩, ⟨keyed [] [], _,
    0, 0, 1023, keys (by decide +kernel), by decide +kernel⟩, ⟨keyed [] [tenant], _, 0, 0, 1023, keys (by decide +kernel),
    by decide +kernel⟩⟩

theorem witness_KeyCommands_4 : (∃ (s : State) (d : Device) (rq w index : Nat) (b : List Byte) (fails : Option Nat) (code :
    _), AsksKeys s rq w 4 index d ∧ b = d.bytes (secArg d w) 128 ∧ fails = firstFail ([(secReach d w (secArg d w) 128, 5),
    (!d.poisoned (secArg d w) 128, 10), (b.take 4 == [0x41, 0x58, 0x53, 0x4C] && num b 4 1 == 1 && zeroAt b 5 1 && num b 6 2
    == index && num b 8 1 == w && zeroAt b 9 7 && zeroAt b 0x1C 4 && zeroAt b 0x70 16, 1)] ++ slotChecks d w index) ∧ fails =
    some code ∧ code ≠ 0) ∧ (∃ (s : State) (d : Device) (rq w index : Nat) (b : List Byte) (fails : Option Nat), AsksKeys s rq
    w 4 index d ∧ b = d.bytes (secArg d w) 128 ∧ fails = firstFail ([(secReach d w (secArg d w) 128, 5), (!d.poisoned (secArg
    d w) 128, 10), (b.take 4 == [0x41, 0x58, 0x53, 0x4C] && num b 4 1 == 1 && zeroAt b 5 1 && num b 6 2 == index && num b 8 1
    == w && zeroAt b 9 7 && zeroAt b 0x1C 4 && zeroAt b 0x70 16, 1)] ++ slotChecks d w index) ∧ fails = none) :=
  ⟨⟨keyed [0x41, 0x58, 0x53, 0x4C, 1, 0, 0xFF, 3] [putTenantKeys 1023 (some ⟨1, []⟩)], _, 0, 0, 1023, _, _, 4, keys
    (by decide +kernel), rfl, rfl, by decide +kernel⟩, ⟨keyed [0x41, 0x58, 0x53, 0x4C, 1, 0, 0xFF, 3] [], _, 0, 0, 1023, _, _,
    keys (by decide +kernel), rfl, rfl, by decide +kernel⟩⟩

theorem witness_KeyCommands_5 : (∃ (s : State) (d : Device) (rq w index : Nat) (b : List Byte) (fails : Option Nat) (code :
    _), AsksKeys s rq w 5 index d ∧ b = d.bytes (secArg d w) 256 ∧ fails = firstFail [(secReach d w (secArg d w) 256, 5),
    (!d.poisoned (secArg d w) 256, 10), (blobOk b 2 index && (d.linkKeysAt index).gen < num b 0x10 4, 1), (num b 8 8 == d.reg
    .LNK_SERIAL 0, 2)] ∧ fails = some code ∧ code ≠ 0) ∧ (∃ (s : State) (d : Device) (rq w index : Nat) (b : List Byte) (fails
    : Option Nat), AsksKeys s rq w 5 index d ∧ b = d.bytes (secArg d w) 256 ∧ fails = firstFail [(secReach d w (secArg d w)
    256, 5), (!d.poisoned (secArg d w) 256, 10), (blobOk b 2 index && (d.linkKeysAt index).gen < num b 0x10 4, 1), (num b 8 8
    == d.reg .LNK_SERIAL 0, 2)] ∧ fails = none) :=
  ⟨⟨keyed [0x41, 0x58, 0x4B, 0x42, 1, 2, 255, 0, 0, 0, 0, 0, 0, 0, 0, 0, 0] [], _, 0, 32, 255, _, _, 1, keys
    (by decide +kernel), rfl, rfl, by decide +kernel⟩, ⟨keyed [0x41, 0x58, 0x4B, 0x42, 1, 2, 255, 0, 0, 0, 0, 0, 0, 0, 0, 0,
    1] [], _, 0, 32, 255, _, _, keys (by decide +kernel), rfl, rfl, by decide +kernel⟩⟩

theorem witness_KeyCommands_6 : (∃ (s : State) (d : Device) (rq w index : Nat), AsksKeys s rq w 6 index d ∧ secReach d w
    (secArg d w) 512 = false) ∧ (∃ (s : State) (d : Device) (rq w index : Nat), AsksKeys s rq w 6 index d ∧ secReach d w
    (secArg d w) 512 = true ∧ d.poisoned (secArg d w) 48 = true) ∧ (∃ (s : State) (d : Device) (rq w index : Nat), AsksKeys s
    rq w 6 index d ∧ secReach d w (secArg d w) 512 = true ∧ d.poisoned (secArg d w) 48 = false) :=
  ⟨⟨keyed [] [setF F.SEC_ARG_addr 32 0], _, 0, 32, 31, keys (by decide +kernel), by decide +kernel⟩, ⟨keyed [] [putPoison
    0x1000000000 true], _, 0, 32, 31, keys (by decide +kernel), by decide +kernel⟩, ⟨keyed [] [], _, 0, 32, 31, keys
    (by decide +kernel), by decide +kernel⟩⟩

theorem witness_KeyCommands_7 : (∃ (s : State) (d : Device) (rq w index : Nat), AsksKeys s rq w 7 index d ∧ secReach d w
    (secArg d w) 256 = false) ∧ (∃ (s : State) (d : Device) (rq w index : Nat), AsksKeys s rq w 7 index d ∧ secReach d w
    (secArg d w) 256 = true) :=
  ⟨⟨keyed [] [setF F.SEC_ARG_addr 32 0], _, 0, 32, 0, keys (by decide +kernel), by decide +kernel⟩, ⟨keyed [] [], _, 0, 32, 0,
    keys (by decide +kernel), by decide +kernel⟩⟩

theorem witness_KeyCommands_8 : (∃ (s : State) (d : Device) (rq w index : Nat) (b : List Byte) (fails : Option Nat) (code :
    _), AsksKeys s rq w 8 index d ∧ b = d.bytes (secArg d w) 144 ∧ fails = firstFail [(secReach d w (secArg d w) 144, 5),
    (!d.poisoned (secArg d w) 144, 10), (rootMsgOk b, 1), (num b 8 8 == 0 || num b 8 8 == d.reg .LNK_SERIAL 0, 2),
    (!rootRefused d b, 9)] ∧ fails = some code ∧ code ≠ 0) ∧ (∃ (s : State) (d : Device) (rq w index : Nat) (b : List Byte)
    (fails : Option Nat), AsksKeys s rq w 8 index d ∧ b = d.bytes (secArg d w) 144 ∧ fails = firstFail [(secReach d w (secArg
    d w) 144, 5), (!d.poisoned (secArg d w) 144, 10), (rootMsgOk b, 1), (num b 8 8 == 0 || num b 8 8 == d.reg .LNK_SERIAL 0,
    2), (!rootRefused d b, 9)] ∧ fails = none) :=
  ⟨⟨keyed [0x41, 0x58, 0x52, 0x56, 1, 2] [], _, 0, 32, 0, _, _, 9, keys (by decide +kernel), rfl, rfl, by decide +kernel⟩,
    ⟨keyed [0x41, 0x58, 0x52, 0x56, 1, 2] [setF F.SEC_ROOT_programmed 0 1, setF F.SEC_ROOT_key_ok 0 1], _, 0, 32, 0, _, _,
    keys (by decide +kernel), rfl, rfl, by decide +kernel⟩⟩

theorem witness_KeyCommands_9 : (∃ (s : State) (w : Nat) (op index code : _), w < 33 ∧ up s.dev = true ∧ s.dev.secPendingAt w
    = some (op, index, code)) ∧ (∃ (s : State) (w : Nat), w < 33 ∧ up s.dev = true ∧ s.dev.secPendingAt w = none) :=
  ⟨⟨with' [putSecPending 32 (some (8, 0, 3))], 32, 8, 0, 3, by decide +kernel⟩, ⟨on live, 32, by decide +kernel⟩⟩

theorem witness_SecurityControl_0 : (∃ (s : State) (d : Device) (rq c : Nat), AsksAon s rq d ∧ c < 1024 ∧ bit (mayWrite d rq
    .SEC_CTX_KEY c) 31 = 0) ∧ (∃ (s : State) (d : Device) (rq c v : Nat), AsksAon s rq d ∧ c < 1024 ∧ bit (mayWrite d rq
    .SEC_CTX_KEY c) 31 ≠ 0 ∧ bit v 31 ≠ 1) ∧ (∃ (s : State) (d : Device) (rq c v : Nat) (p : _), AsksAon s rq d ∧ c < 1024 ∧
    bit (mayWrite d rq .SEC_CTX_KEY c) 31 ≠ 0 ∧ bit v 31 = 1 ∧ ctxPart d c = some p ∧ holdsSlot d p (bits v 9 0) = true) ∧ (∃
    (s : State) (d : Device) (rq c v : Nat) (p : _), AsksAon s rq d ∧ c < 1024 ∧ bit (mayWrite d rq .SEC_CTX_KEY c) 31 ≠ 0 ∧
    bit v 31 = 1 ∧ ctxPart d c = some p ∧ holdsSlot d p (bits v 9 0) = false) ∧ (∃ (s : State) (d : Device) (rq c v : Nat),
    AsksAon s rq d ∧ c < 1024 ∧ bit (mayWrite d rq .SEC_CTX_KEY c) 31 ≠ 0 ∧ bit v 31 = 1 ∧ ctxPart d c = none) :=
  ⟨⟨on (part 0), _, 3, 0, asksAon (by decide +kernel), by decide +kernel⟩, ⟨on (part 0), _, 1, 0, 0, asksAon
    (by decide +kernel), by decide +kernel⟩, ⟨on (.seq (part 0) tenant), _, 1, 0, 0x800003FF, 0, asksAon (by decide +kernel),
    by decide +kernel⟩, ⟨on (part 0), _, 1, 0, 0x800003FF, 0, asksAon (by decide +kernel), by decide +kernel⟩, ⟨on live, _, 0,
    0, 0x800003FF, asksAon (by decide +kernel), by decide +kernel⟩⟩

theorem witness_SecurityControl_1 : (∃ (s : State) (d : Device) (rq : Nat), AsksAon s rq d ∧ mayWrite d rq .SEC_ALARM_POLICY 0
    = 0) ∧ (∃ (s : State) (d : Device) (rq : Nat), AsksAon s rq d ∧ mayWrite d rq .SEC_ALARM_POLICY 0 ≠ 0) :=
  ⟨⟨on live, _, 2, asksAon (by decide +kernel), by decide +kernel⟩, ⟨on live, _, 0, asksAon (by decide +kernel),
    by decide +kernel⟩⟩

theorem witness_SecurityControl_2 : (∃ (s : State) (k latch : Nat), latch = s.dev.fld F.SEC_TAMPER_latched 0 ||| 2 ^ k ∧ k < 5
    ∧ s.dev.off = 0 ∧ tamperResponse s.dev k = 0) ∧ (∃ (s : State) (k latch : Nat), latch = s.dev.fld F.SEC_TAMPER_latched 0
    ||| 2 ^ k ∧ k < 5 ∧ s.dev.off = 0 ∧ 1 ≤ tamperResponse s.dev k) ∧ (∃ (s : State) (k latch : Nat), latch = s.dev.fld
    F.SEC_TAMPER_latched 0 ||| 2 ^ k ∧ k < 5 ∧ s.dev.off = 1 ∧ 2 ≤ k) ∧ (∃ (s : State) (k latch : Nat), latch = s.dev.fld
    F.SEC_TAMPER_latched 0 ||| 2 ^ k ∧ k < 5 ∧ s.dev.off = 1 ∧ k < 2) ∧ (∃ (s : State) (k latch : Nat), latch = s.dev.fld
    F.SEC_TAMPER_latched 0 ||| 2 ^ k ∧ k < 5 ∧ s.dev.off = 2) ∧ (∃ (s : State) (k latch : Nat), latch = s.dev.fld
    F.SEC_TAMPER_latched 0 ||| 2 ^ k ∧ k < 5 ∧ s.dev.off = 3) :=
  ⟨⟨on (setF F.PWR_STATE_state 0 0), 4, _, rfl, by decide +kernel⟩, ⟨on (setF F.SEC_ALARM_POLICY_mesh 0 1), 4, _, rfl,
    by decide +kernel⟩, ⟨on (putOff 1), 2, _, rfl, by decide +kernel⟩, ⟨on (putOff 1), 1, _, rfl, by decide +kernel⟩, ⟨on
    (putOff 2), 1, _, rfl, by decide +kernel⟩, ⟨on (putOff 3), 1, _, rfl, by decide +kernel⟩⟩

theorem witness_SecurityControl_3 : (∃ (s : State), s.dev.vin.valid = true) ∧ (∃ (s : State) (vin : Nat), s.dev.vin.valid =
    false ∧ 38000 ≤ vin ∧ s.dev.vin.count + 1 ≠ 65) ∧ (∃ (s : State) (vin : Nat), s.dev.vin.valid = false ∧ 38000 ≤ vin ∧
    s.dev.vin.count + 1 = 65) ∧ (∃ (s : State) (vin : Nat), s.dev.vin.valid = false ∧ vin < 38000) :=
  ⟨⟨with' [putVin ⟨true, 0⟩], by decide +kernel⟩, ⟨on (putVin ⟨false, 63⟩), 38000, by decide +kernel⟩, ⟨on (putVin ⟨false,
    64⟩), 38000, by decide +kernel⟩, ⟨on (putVin ⟨false, 64⟩), 37999, by decide +kernel⟩⟩

theorem witness_SecurityControl_4 : (∃ (s : State), up s.dev = true) ∧ (∃ (s : State), up s.dev = false) :=
  ⟨⟨on live, by decide +kernel⟩, ⟨on (putOff 1), by decide +kernel⟩⟩

theorem witness_SecurityControl_5 : (∃ (s : State), up s.dev = true) ∧ (∃ (s : State), up s.dev = false) :=
  ⟨⟨on live, by decide +kernel⟩, ⟨on (putOff 1), by decide +kernel⟩⟩

theorem witness_Health_0 : (∃ (s : State) (drift eyes : List Nat), drift.all (· < 1456) = true ∧ eyes.all (· < 1536) = true ∧
    powered s.dev = true ∧ ((powerState s.dev = 2 ∨ powerState s.dev = 3))) ∧ (∃ (s : State) (drift eyes : List Nat),
    drift.all (· < 1456) = true ∧ eyes.all (· < 1536) = true ∧ ((powered s.dev = false ∨ powerState s.dev ≠ 2 ∧ powerState
    s.dev ≠ 3))) :=
  ⟨⟨on live, [1455], [1535], by decide +kernel⟩, ⟨on (setF F.PWR_STATE_state 0 4), [1455], [1535], by decide +kernel⟩⟩

theorem witness_Health_1 : (∃ (s : State) (i : _), powered s.dev = true ∧ i < 153 ∧ clusterState s.dev i = 0 ∧ 65 ≤ s.dev.fld
    F.CLK_CLU_STAT_step i) ∧ (∃ (s : State), ((powered s.dev = false ∨ ∀ i, i < 153 → clusterState s.dev i ≠ 0 ∨ s.dev.fld
    F.CLK_CLU_STAT_step i < 65))) :=
  ⟨⟨with' [setF F.CLK_CLU_STAT_step 152 65], 152, by decide +kernel⟩, ⟨on (putOff 1), by decide +kernel⟩⟩

theorem witness_Health_2 : (∃ (s : State) (d : Device) (rq v die cl : Nat) (left : List Nat), AsksAon s rq d ∧ die = bits v 29
    26 ∧ cl = bits v 25 23 ∧ left = testCores die cl (bits v 15 0) ∧ bit (mayWrite d rq .TST_CMD 0) 31 = 0) ∧ (∃ (s : State)
    (d : Device) (rq v die cl : Nat) (left : List Nat), AsksAon s rq d ∧ die = bits v 29 26 ∧ cl = bits v 25 23 ∧ left =
    testCores die cl (bits v 15 0) ∧ bit (mayWrite d rq .TST_CMD 0) 31 ≠ 0 ∧ d.selfTest ≠ none) ∧ (∃ (s : State) (d : Device)
    (rq v die cl : Nat) (left : List Nat), AsksAon s rq d ∧ die = bits v 29 26 ∧ cl = bits v 25 23 ∧ left = testCores die cl
    (bits v 15 0) ∧ bit (mayWrite d rq .TST_CMD 0) 31 ≠ 0 ∧ ((d.off ≠ 0 ∨ powerState d ≠ 2 ∧ powerState d ≠ 3))) ∧ (∃ (s :
    State) (d : Device) (rq v die cl : Nat) (left : List Nat), AsksAon s rq d ∧ die = bits v 29 26 ∧ cl = bits v 25 23 ∧ left
    = testCores die cl (bits v 15 0) ∧ bit (mayWrite d rq .TST_CMD 0) 31 ≠ 0 ∧ d.selfTest = none ∧ d.off = 0 ∧ ((powerState d
    = 2 ∨ powerState d = 3)) ∧ (clusterSite d die cl).isSome = true ∧ ((left ≠ [] ∨ bit v 22 ≠ 0))) ∧ (∃ (s : State) (d :
    Device) (rq v die cl : Nat) (left : List Nat), AsksAon s rq d ∧ die = bits v 29 26 ∧ cl = bits v 25 23 ∧ left = testCores
    die cl (bits v 15 0) ∧ bit (mayWrite d rq .TST_CMD 0) 31 ≠ 0 ∧ d.selfTest = none ∧ d.off = 0 ∧ ((powerState d = 2 ∨
    powerState d = 3)) ∧ ((clusterSite d die cl = none ∨ left = [] ∧ bit v 22 = 0))) :=
  ⟨⟨on (part 0), _, 2, 0x8000FFFF, _, _, _, asksAon (by decide +kernel), rfl, rfl, rfl, by decide +kernel⟩, ⟨with' [testing
    [0] false], _, 0, 0x8000FFFF, _, _, _, asksAon (by decide +kernel), rfl, rfl, rfl, by decide +kernel⟩, ⟨on (setF
    F.PWR_STATE_state 0 4), _, 0, 0x8000FFFF, _, _, _, asksAon (by decide +kernel), rfl, rfl, rfl, by decide +kernel⟩, ⟨on
    live, _, 0, 0x8000FFFF, _, _, _, asksAon (by decide +kernel), rfl, rfl, rfl, by decide +kernel⟩, ⟨on live, _, 0,
    0x80000000, _, _, _, asksAon (by decide +kernel), rfl, rfl, rfl, by decide +kernel⟩⟩

theorem witness_Health_3 : ∃ (s : State) (d : Device) (rq : Nat), AsksAon s rq d ∧ bit (mayWrite d rq .TST_CMD 0) 30 = 0 :=
  ⟨on (part 0), _, 2, asksAon (by decide +kernel), by decide +kernel⟩

theorem witness_Health_4 : (∃ (s : State) (d : Device) (rq v : Nat) (t : _), WritesAon s rq .TST_CMD 0 v 30 d ∧ bit v 30 = 1 ∧
    d.selfTest = some t ∧ t.started = false) ∧ (∃ (s : State) (d : Device) (rq v : Nat) (t : _), WritesAon s rq .TST_CMD 0 v
    30 d ∧ bit v 30 = 1 ∧ d.selfTest = some t ∧ t.started = true) ∧ (∃ (s : State) (d : Device) (rq v : Nat), WritesAon s rq
    .TST_CMD 0 v 30 d ∧ ((bit v 30 ≠ 1 ∨ d.selfTest = none))) :=
  ⟨⟨with' [testing [0] false], _, 0, 0x40000000, { left := [0] }, writesAon (by decide +kernel), by decide +kernel⟩, ⟨with'
    [putSelfTest (some { left := [0, 1], started := true })], _, 0, 0x40000000, { left := [0, 1], started := true }, writesAon
    (by decide +kernel), by decide +kernel⟩, ⟨on live, _, 0, 0x40000000, writesAon (by decide +kernel), by decide +kernel⟩⟩

theorem witness_Health_5 : ∃ (s : State), ((powered s.dev = false ∨ s.dev.selfTest = none)) :=
  ⟨on live, by decide +kernel⟩

theorem witness_Health_6 : (∃ (s : State) (t : SelfTest), powered s.dev = true ∧ s.dev.selfTest = some t ∧ clusterSite s.dev
    t.die t.cluster = none) ∧ (∃ (s : State) (expired : Bool) (t : SelfTest) (q : _), powered s.dev = true ∧ s.dev.selfTest =
    some t ∧ clusterSite s.dev t.die t.cluster = some q ∧ expired = true ∧ t.started = false) ∧ (∃ (s : State) (passed expired
    : Bool) (t : SelfTest) (q : _), powered s.dev = true ∧ s.dev.selfTest = some t ∧ clusterSite s.dev t.die t.cluster = some
    q ∧ ((expired = false ∨ t.started = true)) ∧ t.left = [] ∧ t.spare = true ∧ spareCoreFree s.dev q = true ∧ passed = true)
    ∧ (∃ (s : State) (passed expired : Bool) (t : SelfTest) (q : _), powered s.dev = true ∧ s.dev.selfTest = some t ∧
    clusterSite s.dev t.die t.cluster = some q ∧ ((expired = false ∨ t.started = true)) ∧ t.left = [] ∧ t.spare = true ∧
    spareCoreFree s.dev q = true ∧ passed = false) ∧ (∃ (s : State) (expired : Bool) (t : SelfTest) (q : _), powered s.dev =
    true ∧ s.dev.selfTest = some t ∧ clusterSite s.dev t.die t.cluster = some q ∧ ((expired = false ∨ t.started = true)) ∧
    t.left = [] ∧ ((t.spare = false ∨ spareCoreFree s.dev q = false))) ∧ (∃ (s : State) (expired : Bool) (t : SelfTest) (q
    core rest k site : _), k = s.dev.coresAt core ∧ site = (coreSite s.dev core).getD 0 ∧ powered s.dev = true ∧
    s.dev.selfTest = some t ∧ clusterSite s.dev t.die t.cluster = some q ∧ ((expired = false ∨ t.started = true)) ∧ t.left =
    core :: rest ∧ clusterSite s.dev (core / 128) (core / 16 % 8) = some q ∧ inPreempt s.dev core = true) ∧ (∃ (s : State)
    (expired : Bool) (t : SelfTest) (q core rest k site : _), k = s.dev.coresAt core ∧ site = (coreSite s.dev core).getD 0 ∧
    powered s.dev = true ∧ s.dev.selfTest = some t ∧ clusterSite s.dev t.die t.cluster = some q ∧ ((expired = false ∨
    t.started = true)) ∧ t.left = core :: rest ∧ clusterSite s.dev (core / 128) (core / 16 % 8) = some q ∧ inPreempt s.dev
    core = false ∧ k.fenced = true ∧ t.started = false) ∧ (∃ (s : State) (expired : Bool) (t : SelfTest) (q core rest k site :
    _), k = s.dev.coresAt core ∧ site = (coreSite s.dev core).getD 0 ∧ powered s.dev = true ∧ s.dev.selfTest = some t ∧
    clusterSite s.dev t.die t.cluster = some q ∧ ((expired = false ∨ t.started = true)) ∧ t.left = core :: rest ∧ clusterSite
    s.dev (core / 128) (core / 16 % 8) = some q ∧ inPreempt s.dev core = false ∧ k.fenced = false ∧ t.started = false ∧
    spareCoreFree s.dev q = true ∧ k.loaded ≠ none) ∧ (∃ (s : State) (expired : Bool) (t : SelfTest) (q core rest k site : _),
    k = s.dev.coresAt core ∧ site = (coreSite s.dev core).getD 0 ∧ powered s.dev = true ∧ s.dev.selfTest = some t ∧
    clusterSite s.dev t.die t.cluster = some q ∧ ((expired = false ∨ t.started = true)) ∧ t.left = core :: rest ∧ clusterSite
    s.dev (core / 128) (core / 16 % 8) = some q ∧ inPreempt s.dev core = false ∧ t.started = true ∧ k.loaded ≠ none ∧
    ((k.fenced = false ∨ k.state ≠ 0 ∧ k.state ≠ 3 ∧ k.state ≠ 4))) ∧ (∃ (s : State) (expired : Bool) (t : SelfTest) (q core
    rest k site : _), k = s.dev.coresAt core ∧ site = (coreSite s.dev core).getD 0 ∧ powered s.dev = true ∧ s.dev.selfTest =
    some t ∧ clusterSite s.dev t.die t.cluster = some q ∧ ((expired = false ∨ t.started = true)) ∧ t.left = core :: rest ∧
    clusterSite s.dev (core / 128) (core / 16 % 8) = some q ∧ inPreempt s.dev core = false ∧ t.started = true ∧ ((k.loaded =
    none ∨ k.fenced = true ∧ (k.state = 0 ∨ k.state = 3 ∨ k.state = 4))) ∧ spareCoreFree s.dev q = false) ∧ (∃ (s : State)
    (passed expired : Bool) (t : SelfTest) (q core rest k site : _), k = s.dev.coresAt core ∧ site = (coreSite s.dev
    core).getD 0 ∧ powered s.dev = true ∧ s.dev.selfTest = some t ∧ clusterSite s.dev t.die t.cluster = some q ∧ ((expired =
    false ∨ t.started = true)) ∧ t.left = core :: rest ∧ clusterSite s.dev (core / 128) (core / 16 % 8) = some q ∧ inPreempt
    s.dev core = false ∧ spareCoreFree s.dev q = true ∧ ((k.fenced = false ∨ t.started = true)) ∧ ((k.loaded = none ∨ k.fenced
    = true ∧ (k.state = 0 ∨ k.state = 3 ∨ k.state = 4))) ∧ passed = true) ∧ (∃ (s : State) (passed expired : Bool) (t :
    SelfTest) (q core rest k site : _), k = s.dev.coresAt core ∧ site = (coreSite s.dev core).getD 0 ∧ powered s.dev = true ∧
    s.dev.selfTest = some t ∧ clusterSite s.dev t.die t.cluster = some q ∧ ((expired = false ∨ t.started = true)) ∧ t.left =
    core :: rest ∧ clusterSite s.dev (core / 128) (core / 16 % 8) = some q ∧ inPreempt s.dev core = false ∧ spareCoreFree
    s.dev q = true ∧ ((k.fenced = false ∨ t.started = true)) ∧ ((k.loaded = none ∨ k.fenced = true ∧ (k.state = 0 ∨ k.state =
    3 ∨ k.state = 4))) ∧ passed = false) ∧ (∃ (s : State) (passed expired : Bool) (t : SelfTest) (q core rest k site c : _)
    (save : Eff), k = s.dev.coresAt core ∧ site = (coreSite s.dev core).getD 0 ∧ (save = match k.loaded with
    | some (_, leaf, prog) => saveRecord c core leaf prog | none => .skip) ∧ powered s.dev = true ∧ s.dev.selfTest = some t ∧
      clusterSite s.dev t.die t.cluster = some q ∧ ((expired = false ∨ t.started = true)) ∧ t.left = core :: rest ∧
      clusterSite s.dev (core / 128) (core / 16 % 8) = some q ∧ inPreempt s.dev core = false ∧ k.fenced = false ∧ t.started =
      false ∧ spareCoreFree s.dev q = false ∧ k.ctx = some c ∧ s.dev.fld F.CTX_RUN_state c = 2 ∧ ((k.state = 2 ∨ k.state = 0))
      ∧ saveFits s.dev c = true ∧ passed = true) ∧ (∃ (s : State) (passed expired : Bool) (t : SelfTest) (q core rest k site c
      : _) (save : Eff), k = s.dev.coresAt core ∧ site = (coreSite s.dev core).getD 0 ∧ (save = match k.loaded with
    | some (_, leaf, prog) => saveRecord c core leaf prog | none => .skip) ∧ powered s.dev = true ∧ s.dev.selfTest = some t ∧
      clusterSite s.dev t.die t.cluster = some q ∧ ((expired = false ∨ t.started = true)) ∧ t.left = core :: rest ∧
      clusterSite s.dev (core / 128) (core / 16 % 8) = some q ∧ inPreempt s.dev core = false ∧ k.fenced = false ∧ t.started =
      false ∧ spareCoreFree s.dev q = false ∧ k.ctx = some c ∧ s.dev.fld F.CTX_RUN_state c = 2 ∧ ((k.state = 2 ∨ k.state = 0))
      ∧ saveFits s.dev c = true ∧ passed = false) ∧ (∃ (s : State) (expired : Bool) (t : SelfTest) (q core rest k site c : _)
      (save : Eff), k = s.dev.coresAt core ∧ site = (coreSite s.dev core).getD 0 ∧ (save = match k.loaded with
    | some (_, leaf, prog) => saveRecord c core leaf prog | none => .skip) ∧ powered s.dev = true ∧ s.dev.selfTest = some t ∧
      clusterSite s.dev t.die t.cluster = some q ∧ ((expired = false ∨ t.started = true)) ∧ t.left = core :: rest ∧
      clusterSite s.dev (core / 128) (core / 16 % 8) = some q ∧ inPreempt s.dev core = false ∧ k.fenced = false ∧ t.started =
      false ∧ spareCoreFree s.dev q = false ∧ k.ctx = some c ∧ s.dev.fld F.CTX_RUN_state c = 2 ∧ ((k.state ≠ 2 ∧ k.state ≠ 0 ∨
      saveFits s.dev c = false))) ∧ (∃ (s : State) (passed expired : Bool) (t : SelfTest) (q core rest k site : _), k =
      s.dev.coresAt core ∧ site = (coreSite s.dev core).getD 0 ∧ powered s.dev = true ∧ s.dev.selfTest = some t ∧ clusterSite
      s.dev t.die t.cluster = some q ∧ ((expired = false ∨ t.started = true)) ∧ t.left = core :: rest ∧ clusterSite s.dev
      (core / 128) (core / 16 % 8) = some q ∧ inPreempt s.dev core = false ∧ k.fenced = false ∧ t.started = false ∧
      spareCoreFree s.dev q = false ∧ ((k.ctx.filter fun c => s.dev.fld F.CTX_RUN_state c == 2) = none) ∧ k.state ≤ 4 ∧
      k.state ≠ 1 ∧ passed = true) ∧ (∃ (s : State) (passed expired : Bool) (t : SelfTest) (q core rest k site : _), k =
      s.dev.coresAt core ∧ site = (coreSite s.dev core).getD 0 ∧ powered s.dev = true ∧ s.dev.selfTest = some t ∧ clusterSite
      s.dev t.die t.cluster = some q ∧ ((expired = false ∨ t.started = true)) ∧ t.left = core :: rest ∧ clusterSite s.dev
      (core / 128) (core / 16 % 8) = some q ∧ inPreempt s.dev core = false ∧ k.fenced = false ∧ t.started = false ∧
      spareCoreFree s.dev q = false ∧ ((k.ctx.filter fun c => s.dev.fld F.CTX_RUN_state c == 2) = none) ∧ k.state ≤ 4 ∧
      k.state ≠ 1 ∧ passed = false) ∧ (∃ (s : State) (expired : Bool) (t : SelfTest) (q core rest k site : _), k =
      s.dev.coresAt core ∧ site = (coreSite s.dev core).getD 0 ∧ powered s.dev = true ∧ s.dev.selfTest = some t ∧ clusterSite
      s.dev t.die t.cluster = some q ∧ ((expired = false ∨ t.started = true)) ∧ t.left = core :: rest ∧ clusterSite s.dev
      (core / 128) (core / 16 % 8) = some q ∧ inPreempt s.dev core = false ∧ k.fenced = false ∧ t.started = false ∧
      spareCoreFree s.dev q = false ∧ ((k.ctx.filter fun c => s.dev.fld F.CTX_RUN_state c == 2) = none) ∧ ((k.state = 1 ∨ 5 ≤
      k.state))) :=
  ⟨⟨with' [testing [0] false, .each (List.range 17) (fun k => putApplied (siteKey 3 k) true)], { left := [0] },
    by decide +kernel⟩, ⟨with' [testing [0] false], true, { left := [0] }, 0, by decide +kernel⟩, ⟨with' [testing [] true],
    true, false, { spare := true }, 0, by decide +kernel⟩, ⟨with' [testing [] true], false, false, { spare := true }, 0,
    by decide +kernel⟩, ⟨with' [testing [] true, putApplied (siteKey 1 16) true], false, { spare := true }, 0,
    by decide +kernel⟩, ⟨runs 0 [testing [0] false, putPreempts [giveWay]], false, { left := [0] }, 0, 0, [], _, _, rfl, rfl,
    by decide +kernel⟩, ⟨runs 0 [testing [0] false, putCores 0 { fenced := true }], false, { left := [0] }, 0, 0, [], _, _,
    rfl, rfl, by decide +kernel⟩, ⟨runs 0 [testing [0] false], false, { left := [0] }, 0, 0, [], _, _, rfl, rfl,
    by decide +kernel⟩, ⟨runs 0 [putSelfTest (some { left := [0], started := true })], false,
    { left := [0], started := true }, 0, 0, [], _, _, rfl, rfl, by decide +kernel⟩, ⟨runs 0 [putSelfTest (some
    { left := [0], started := true }), putCores 0 { state := 3, fenced := true }, putApplied (siteKey 1 16) true], false,
    { left := [0], started := true }, 0, 0, [], _, _, rfl, rfl, by decide +kernel⟩, ⟨runs 0 [putSelfTest (some
    { left := [0], started := true }), putCores 0 { state := 3, loaded := some (0, 0, 0), fenced := true }], true, false,
    { left := [0], started := true }, 0, 0, [], _, _, rfl, rfl, by decide +kernel⟩, ⟨runs 0 [putSelfTest (some
    { left := [0], started := true }), putCores 0 { state := 3, loaded := some (0, 0, 0), fenced := true }], false, false,
    { left := [0], started := true }, 0, 0, [], _, _, rfl, rfl, by decide +kernel⟩, ⟨runs 0 [testing [0] false, putApplied
    (siteKey 1 16) true, setF F.CTX_SAVE_tier 0 1, setF F.CTX_SAVE_slots 0 1, putCores 0
    { state := 2, loaded := some (0, 0, 0), ctx := some 0 }], true, false, { left := [0] }, 0, 0, [], _, _, 0, _, rfl, rfl,
    rfl, by decide +kernel⟩, ⟨runs 0 [testing [0] false, putApplied (siteKey 1 16) true, setF F.CTX_SAVE_tier 0 1, setF
    F.CTX_SAVE_slots 0 1, putCores 0 { state := 2, loaded := some (0, 0, 0), ctx := some 0 }], false, false, { left := [0] },
    0, 0, [], _, _, 0, _, rfl, rfl, rfl, by decide +kernel⟩, ⟨runs 0 [testing [0] false, putApplied (siteKey 1 16) true],
    false, { left := [0] }, 0, 0, [], _, _, 0, _, rfl, rfl, rfl, by decide +kernel⟩, ⟨runs 0 [testing [0] false, putApplied
    (siteKey 1 16) true, putCores 0 { state := 2 }], true, false, { left := [0] }, 0, 0, [], _, _, rfl, rfl,
    by decide +kernel⟩, ⟨runs 0 [testing [0] false, putApplied (siteKey 1 16) true, putCores 0 { state := 2 }], false, false,
    { left := [0] }, 0, 0, [], _, _, rfl, rfl, by decide +kernel⟩, ⟨runs 0 [testing [0] false, putApplied (siteKey 1 16) true,
    putCores 0 { state := 1 }], false, { left := [0] }, 0, 0, [], _, _, rfl, rfl, by decide +kernel⟩⟩

theorem witness_Health_7 : (∃ (s : State), up s.dev = true ∧ s.dev.flogSaved < s.dev.flogHead) ∧ (∃ (s : State), (up s.dev =
    false ∨ s.dev.flogHead ≤ s.dev.flogSaved)) :=
  ⟨⟨with' [putFlogHead 1], by decide +kernel⟩, ⟨on live, by decide +kernel⟩⟩

theorem witness_Health_8 : (∃ (s : State) (r : Option Nat), r.all (· < 3) = true ∧ up s.dev = true ∧ s.dev.fld
    F.STW_STEWARD_active 0 ≠ 1) ∧ (∃ (s : State) (r : Option Nat), r.all (· < 3) = true ∧ up s.dev = true ∧ s.dev.fld
    F.STW_STEWARD_active 0 = 1) ∧ (∃ (s : State) (r : Option Nat), r.all (· < 3) = true ∧ up s.dev = false) :=
  ⟨⟨on live, some 2, by decide +kernel⟩, ⟨with' [setF F.STW_STEWARD_active 0 1], some 2, by decide +kernel⟩, ⟨on (putOff 1),
    some 2, by decide +kernel⟩⟩

theorem witness_Health_9 : (∃ (s : State), up s.dev = true) ∧ (∃ (s : State), up s.dev = false) :=
  ⟨⟨on live, by decide +kernel⟩, ⟨on (putOff 1), by decide +kernel⟩⟩

theorem witness_PowerStages_0 : (∃ (s : State) (torn : Option Nat) (tear : Eff), ((torn = none ∧ tear = .skip ∨ (∃ k < 3, torn
    = some k ∧ tear = putNvMargin (tornCopies (fun c => { c with intact := false }) s.dev.oldMargin k s.dev.nvMargin)) ∨ (∃ k
    < 3, torn = some (3 + k) ∧ tear = putNvSpare (tornCopies (fun c => { c with intact := false }) s.dev.oldSpare k
    s.dev.nvSpare)) ∨ (∃ k < 3, torn = some (6 + k) ∧ tear = putNvLog (tornCopies (fun c => { c with intact := false })
    s.dev.oldLog k s.dev.nvLog)))) ∧ ((∀ x, s.dev.fwPending = some x → x.1 ≠ 1)) ∧ s.dev.off = 0) ∧ (∃ (s : State) (torn :
    Option Nat) (tear : Eff) (slot code : _), ((torn = none ∧ tear = .skip ∨ (∃ k < 3, torn = some k ∧ tear = putNvMargin
    (tornCopies (fun c => { c with intact := false }) s.dev.oldMargin k s.dev.nvMargin)) ∨ (∃ k < 3, torn = some (3 + k) ∧
    tear = putNvSpare (tornCopies (fun c => { c with intact := false }) s.dev.oldSpare k s.dev.nvSpare)) ∨ (∃ k < 3, torn =
    some (6 + k) ∧ tear = putNvLog (tornCopies (fun c => { c with intact := false }) s.dev.oldLog k s.dev.nvLog)))) ∧
    s.dev.off = 0 ∧ s.dev.fwPending = some (1, slot, code)) ∧ (∃ (s : State) (torn : Option Nat) (tear : Eff), ((torn = none ∧
    tear = .skip ∨ (∃ k < 3, torn = some k ∧ tear = putNvMargin (tornCopies (fun c => { c with intact := false })
    s.dev.oldMargin k s.dev.nvMargin)) ∨ (∃ k < 3, torn = some (3 + k) ∧ tear = putNvSpare (tornCopies (fun c =>
    { c with intact := false }) s.dev.oldSpare k s.dev.nvSpare)) ∨ (∃ k < 3, torn = some (6 + k) ∧ tear = putNvLog (tornCopies
    (fun c => { c with intact := false }) s.dev.oldLog k s.dev.nvLog)))) ∧ s.dev.off = 2) ∧ (∃ (s : State) (torn : Option Nat)
    (tear : Eff), ((torn = none ∧ tear = .skip ∨ (∃ k < 3, torn = some k ∧ tear = putNvMargin (tornCopies (fun c =>
    { c with intact := false }) s.dev.oldMargin k s.dev.nvMargin)) ∨ (∃ k < 3, torn = some (3 + k) ∧ tear = putNvSpare
    (tornCopies (fun c => { c with intact := false }) s.dev.oldSpare k s.dev.nvSpare)) ∨ (∃ k < 3, torn = some (6 + k) ∧ tear
    = putNvLog (tornCopies (fun c => { c with intact := false }) s.dev.oldLog k s.dev.nvLog)))) ∧ s.dev.off ≠ 0 ∧ s.dev.off ≠
    2) :=
  ⟨⟨on live, none, _, .inl ⟨rfl, rfl⟩, (fun _ h => nomatch h), by decide +kernel⟩, ⟨with' [putFwPending (some (1, 0, 0))],
    some 8, _, 0, 0, .inr (.inr (.inr ⟨2, by decide, rfl, rfl⟩)), by decide +kernel⟩, ⟨on (putOff 2), some 0, _, .inr (.inl
    ⟨0, by decide, rfl, rfl⟩), by decide +kernel⟩, ⟨on (putOff 3), some 4, _, .inr (.inr (.inl ⟨1, by decide, rfl, rfl⟩)),
    by decide +kernel⟩⟩

theorem witness_PowerStages_1 : (∃ (s : State) (r phase : Nat), r < 182 ∧ phase < 8 ∧ ((powered s.dev = false ∨ s.dev.fld
    F.PWR_PHASE_off r ≠ 0))) ∧ (∃ (s : State) (r phase : Nat), r < 182 ∧ phase < 8 ∧ powered s.dev = true ∧ s.dev.fld
    F.PWR_PHASE_off r = 0 ∧ bit (s.dev.fld F.PWR_PHASE_failed r) phase = 1 ∧ s.dev.fld F.PWR_PHASE_spare_used r = 0 ∧
    failedPhases s.dev r = 1 ∧ phase ≠ 7) ∧ (∃ (s : State) (r phase : Nat), r < 182 ∧ phase < 8 ∧ powered s.dev = true ∧
    s.dev.fld F.PWR_PHASE_off r = 0 ∧ bit (s.dev.fld F.PWR_PHASE_failed r) phase = 1 ∧ s.dev.fld F.PWR_PHASE_spare_used r = 0
    ∧ failedPhases s.dev r = 1 ∧ phase = 7) ∧ (∃ (s : State) (r phase : Nat), r < 182 ∧ phase < 8 ∧ powered s.dev = true ∧
    s.dev.fld F.PWR_PHASE_off r = 0 ∧ bit (s.dev.fld F.PWR_PHASE_failed r) phase = 1 ∧ ((s.dev.fld F.PWR_PHASE_spare_used r ≠
    0 ∨ failedPhases s.dev r ≠ 1))) ∧ (∃ (s : State) (r phase : Nat) (fail : Eff), fail = .all [setF F.PWR_PHASE_failed r
    (s.dev.fld F.PWR_PHASE_failed r ||| 2 ^ phase), putRetired (siteKey 7 (r * 8 + phase)) true, saveSpare] ∧ r < 182 ∧ phase
    < 8 ∧ powered s.dev = true ∧ s.dev.fld F.PWR_PHASE_off r = 0 ∧ bit (s.dev.fld F.PWR_PHASE_failed r) phase ≠ 1 ∧
    failedPhases s.dev r = 0 ∧ phase ≠ 7) ∧ (∃ (s : State) (r phase : Nat) (fail : Eff), fail = .all [setF F.PWR_PHASE_failed
    r (s.dev.fld F.PWR_PHASE_failed r ||| 2 ^ phase), putRetired (siteKey 7 (r * 8 + phase)) true, saveSpare] ∧ r < 182 ∧
    phase < 8 ∧ powered s.dev = true ∧ s.dev.fld F.PWR_PHASE_off r = 0 ∧ bit (s.dev.fld F.PWR_PHASE_failed r) phase ≠ 1 ∧
    failedPhases s.dev r = 0 ∧ phase = 7) ∧ (∃ (s : State) (r phase : Nat) (fail : Eff), fail = .all [setF F.PWR_PHASE_failed
    r (s.dev.fld F.PWR_PHASE_failed r ||| 2 ^ phase), putRetired (siteKey 7 (r * 8 + phase)) true, saveSpare] ∧ r < 182 ∧
    phase < 8 ∧ powered s.dev = true ∧ s.dev.fld F.PWR_PHASE_off r = 0 ∧ bit (s.dev.fld F.PWR_PHASE_failed r) phase ≠ 1 ∧
    failedPhases s.dev r = 1 ∧ 8 ≤ r ∧ r < 161) ∧ (∃ (s : State) (r phase : Nat) (fail : Eff), fail = .all [setF
    F.PWR_PHASE_failed r (s.dev.fld F.PWR_PHASE_failed r ||| 2 ^ phase), putRetired (siteKey 7 (r * 8 + phase)) true,
    saveSpare] ∧ r < 182 ∧ phase < 8 ∧ powered s.dev = true ∧ s.dev.fld F.PWR_PHASE_off r = 0 ∧ bit (s.dev.fld
    F.PWR_PHASE_failed r) phase ≠ 1 ∧ failedPhases s.dev r = 1 ∧ ((r < 8 ∨ 161 ≤ r))) ∧ (∃ (s : State) (r phase : Nat) (fail :
    Eff), fail = .all [setF F.PWR_PHASE_failed r (s.dev.fld F.PWR_PHASE_failed r ||| 2 ^ phase), putRetired (siteKey 7 (r * 8
    + phase)) true, saveSpare] ∧ r < 182 ∧ phase < 8 ∧ powered s.dev = true ∧ s.dev.fld F.PWR_PHASE_off r = 0 ∧ bit (s.dev.fld
    F.PWR_PHASE_failed r) phase ≠ 1 ∧ 2 ≤ failedPhases s.dev r) :=
  ⟨⟨with' [setF F.PWR_PHASE_off 181 1], 181, 7, by decide +kernel⟩, ⟨with' [setF F.PWR_PHASE_failed 181 1], 181, 0,
    by decide +kernel⟩, ⟨with' [setF F.PWR_PHASE_failed 181 128], 181, 7, by decide +kernel⟩, ⟨with' [setF F.PWR_PHASE_failed
    181 129], 181, 7, by decide +kernel⟩, ⟨on live, 181, 6, _, rfl, by decide +kernel⟩, ⟨on live, 181, 7, _, rfl,
    by decide +kernel⟩, ⟨with' [setF F.PWR_PHASE_failed 160 1], 160, 7, _, rfl, by decide +kernel⟩, ⟨with' [setF
    F.PWR_PHASE_failed 7 1], 7, 7, _, rfl, by decide +kernel⟩, ⟨with' [setF F.PWR_PHASE_failed 181 3], 181, 7, _, rfl,
    by decide +kernel⟩⟩

theorem witness_PowerStages_2 : (∃ (s : State) (q : Nat) (cl : _), q < 153 ∧ clusterOfSite s.dev q = some cl ∧ working s.dev =
    true ∧ clusterState s.dev q = 0 ∧ ((∀ k < 16, (s.dev.coresAt (cl * 16 + k)).state = 0 ∨ (s.dev.coresAt (cl * 16 +
    k)).state = 2))) ∧ (∃ (s : State) (q : Nat), q < 153 ∧ ((clusterOfSite s.dev q = none ∨ working s.dev = false ∨
    clusterState s.dev q ≠ 0))) ∧ (∃ (s : State) (q : Nat) (cl k : _), q < 153 ∧ clusterOfSite s.dev q = some cl ∧ k < 16 ∧
    (s.dev.coresAt (cl * 16 + k)).state ≠ 0 ∧ (s.dev.coresAt (cl * 16 + k)).state ≠ 2) :=
  ⟨⟨on live, 142, 127, by decide +kernel⟩, ⟨on live, 152, by decide +kernel⟩, ⟨runs 0 [], 0, 0, 0, by decide +kernel⟩⟩

theorem witness_PowerStages_3 : (∃ (s : State) (q : Nat), q < 153 ∧ powered s.dev = true ∧ clusterState s.dev q = 1 ∧
    s.dev.fld F.CLK_CLU_CTRL_gate_ms q ≠ 0) ∧ (∃ (s : State) (q : Nat), q < 153 ∧ ((powered s.dev = false ∨ clusterState s.dev
    q ≠ 1 ∨ s.dev.fld F.CLK_CLU_CTRL_gate_ms q = 0))) :=
  ⟨⟨with' [setF F.CLK_CLU_STAT_state 152 1, setF F.CLK_CLU_CTRL_gate_ms 152 1], 152, by decide +kernel⟩, ⟨on live, 152,
    by decide +kernel⟩⟩

theorem witness_PowerStages_4 : (∃ (s : State) (q : Nat) (cl : _), q < 153 ∧ working s.dev = true ∧ s.dev.tripped = false ∧
    clusterOfSite s.dev q = some cl ∧ clusterSite s.dev (cl / 8) (cl % 8) = some q ∧ ((clusterState s.dev q = 1 ∨ clusterState
    s.dev q = 2 ∨ clusterState s.dev q = 3))) ∧ (∃ (s : State) (q : Nat), q < 153 ∧ ((clusterOfSite s.dev q = none ∨ working
    s.dev = false ∨ s.dev.tripped = true))) ∧ (∃ (s : State) (q : Nat) (cl : _), q < 153 ∧ clusterOfSite s.dev q = some cl ∧
    clusterSite s.dev (cl / 8) (cl % 8) = some q ∧ ((clusterState s.dev q = 0 ∨ 4 ≤ clusterState s.dev q))) :=
  ⟨⟨with' [setF F.CLK_CLU_STAT_state 0 2], 0, 0, by decide +kernel⟩, ⟨with' [putTripped true], 0, by decide +kernel⟩, ⟨on
    live, 0, 0, by decide +kernel⟩⟩

theorem witness_GovernorAndSleep_0 : (∃ (s : State) (vin iin power tj : Nat) (loads pct : List Nat) (d top sust most n : _),
    (Eff.seq (takeReadings vin iin power tj pct) (countWindow power)).run s.dev = d ∧ top = (if d.fld
    F.PWR_GOV_STAT_wear_spent 0 = 1 then 64 else 72) ∧ sust = ceilingFor d power loads top (d.fld F.PWR_LIMIT_sustained 0 *
    10) ∧ most = ceilingFor d power loads top (min (d.fld F.PWR_LIMIT_supply 0 * 10) (min (vin * 2) (firstStage d))) ∧ n =
    boostLimiter d iin power tj ∧ powered s.dev = true ∧ d.fld F.PWR_GOV_STAT_boost 0 ≠ 1 ∧ boostMay d tj = false) ∧ (∃ (s :
    State) (vin iin power tj : Nat) (loads pct : List Nat) (d top sust most n : _), (Eff.seq (takeReadings vin iin power tj
    pct) (countWindow power)).run s.dev = d ∧ top = (if d.fld F.PWR_GOV_STAT_wear_spent 0 = 1 then 64 else 72) ∧ sust =
    ceilingFor d power loads top (d.fld F.PWR_LIMIT_sustained 0 * 10) ∧ most = ceilingFor d power loads top (min (d.fld
    F.PWR_LIMIT_supply 0 * 10) (min (vin * 2) (firstStage d))) ∧ n = boostLimiter d iin power tj ∧ powered s.dev = true ∧
    d.fld F.PWR_GOV_STAT_boost 0 ≠ 1 ∧ boostMay d tj = true) ∧ (∃ (s : State) (vin iin power tj : Nat) (loads pct : List Nat)
    (d top sust most n : _), (Eff.seq (takeReadings vin iin power tj pct) (countWindow power)).run s.dev = d ∧ top = (if d.fld
    F.PWR_GOV_STAT_wear_spent 0 = 1 then 64 else 72) ∧ sust = ceilingFor d power loads top (d.fld F.PWR_LIMIT_sustained 0 *
    10) ∧ most = ceilingFor d power loads top (min (d.fld F.PWR_LIMIT_supply 0 * 10) (min (vin * 2) (firstStage d))) ∧ n =
    boostLimiter d iin power tj ∧ powered s.dev = true ∧ d.fld F.PWR_GOV_STAT_boost 0 = 1 ∧ n ≠ 0) ∧ (∃ (s : State) (vin iin
    power tj : Nat) (loads pct : List Nat) (d top sust most n : _), (Eff.seq (takeReadings vin iin power tj pct) (countWindow
    power)).run s.dev = d ∧ top = (if d.fld F.PWR_GOV_STAT_wear_spent 0 = 1 then 64 else 72) ∧ sust = ceilingFor d power loads
    top (d.fld F.PWR_LIMIT_sustained 0 * 10) ∧ most = ceilingFor d power loads top (min (d.fld F.PWR_LIMIT_supply 0 * 10) (min
    (vin * 2) (firstStage d))) ∧ n = boostLimiter d iin power tj ∧ powered s.dev = true ∧ d.fld F.PWR_GOV_STAT_boost 0 = 1 ∧ n
    = 0) ∧ (∃ (s : State), powered s.dev = false) :=
  ⟨⟨on live, 48000, 0, 5000, 90, [], [], _, _, _, _, _, rfl, rfl, rfl, rfl, rfl, by decide +kernel⟩, ⟨with' [setF
    F.PWR_LIMIT_boost_en 0 1, setF F.PWR_LIMIT_boost_ok 0 1], 48000, 0, 5000, 90, [], [], _, _, _, _, _, rfl, rfl, rfl, rfl,
    rfl, by decide +kernel⟩, ⟨with' [setF F.PWR_GOV_STAT_boost 0 1], 48000, 0, 20000, 120, [], [], _, _, _, _, _, rfl, rfl,
    rfl, rfl, rfl, by decide +kernel⟩, ⟨with' [setF F.PWR_GOV_STAT_boost 0 1, setF F.PWR_LIMIT_boost_en 0 1, setF
    F.PWR_LIMIT_supply 0 1000], 48000, 0, 5000, 60, [], [], _, _, _, _, _, rfl, rfl, rfl, rfl, rfl, by decide +kernel⟩, ⟨on
    (putOff 1), by decide +kernel⟩⟩

theorem witness_GovernorAndSleep_1 : (∃ (s : State), powered s.dev = true ∧ s.dev.tripped = false) ∧ (∃ (s : State), ((powered
    s.dev = false ∨ s.dev.tripped = true))) ∧ (∃ (s : State), s.dev.tripped = true) :=
  ⟨⟨on live, by decide +kernel⟩, ⟨with' [putTripped true], by decide +kernel⟩, ⟨with' [putTripped true], by decide +kernel⟩⟩

theorem witness_GovernorAndSleep_2 : (∃ (s : State) (drift eyes : List Nat), drift.all (· < 1456) = true ∧ eyes.all (· < 1536)
    = true ∧ s.dev.off = 0 ∧ powerState s.dev = 4 ∧ ((mapKeys s.dev.colOps fun _ o => o.isSome) = []) ∧ s.dev.tripped = false
    ∧ ((halted s.dev = true ∨ coresBusy s.dev = false))) ∧ (∃ (s : State) (drift eyes : List Nat), drift.all (· < 1456) = true
    ∧ eyes.all (· < 1536) = true ∧ s.dev.off = 0 ∧ powerState s.dev = 4 ∧ ((mapKeys s.dev.colOps fun _ o => o.isSome) = []) ∧
    s.dev.tripped = false ∧ halted s.dev = false ∧ coresBusy s.dev = true) ∧ (∃ (s : State) (drift eyes : List Nat), drift.all
    (· < 1456) = true ∧ eyes.all (· < 1536) = true ∧ ((s.dev.off ≠ 0 ∨ powerState s.dev ≠ 4 ∨ (mapKeys s.dev.colOps fun _ o =>
    o.isSome) ≠ [] ∨ s.dev.tripped = true))) :=
  ⟨⟨on (setF F.PWR_STATE_state 0 4), [1455], [1535], by decide +kernel⟩, ⟨runs 0 [setF F.PWR_STATE_state 0 4], [1455], [1535],
    by decide +kernel⟩, ⟨on live, [1455], [1535], by decide +kernel⟩⟩

theorem witness_GovernorAndSleep_3 : (∃ (s : State) (entries : List Nat), (entries = (s.dev.colOps.filterMap fun e => e.2.map
    (·.entry)).dedup) ∧ s.dev.off = 0 ∧ ((powerState s.dev = 4 ∨ powerState s.dev = 6)) ∧ entries ≠ []) ∧ (∃ (s : State)
    (entries : List Nat), (entries = (s.dev.colOps.filterMap fun e => e.2.map (·.entry)).dedup) ∧ ((s.dev.off ≠ 0 ∨ powerState
    s.dev ≠ 4 ∧ powerState s.dev ≠ 6 ∨ entries = []))) :=
  ⟨⟨on (.all [setF F.PWR_STATE_state 0 4, putColOps 9728 (some { entry := 3 })]), _, rfl, by decide +kernel⟩, ⟨on live, _,
    rfl, by decide +kernel⟩⟩

theorem witness_GovernorAndSleep_4 : (∃ (s : State) (source : Nat) (ports dq ca : List Nat), source < 4 ∧ ports.all (· < 96) =
    true ∧ dq.all (· < 512) = true ∧ ca.all (· < 512) = true ∧ s.dev.off = 0 ∧ powerState s.dev = 1 ∧ wakeEnabled s.dev source
    = true) ∧ (∃ (s : State) (source : Nat) (ports dq ca : List Nat), source < 4 ∧ ports.all (· < 96) = true ∧ dq.all (· <
    512) = true ∧ ca.all (· < 512) = true ∧ s.dev.off = 0 ∧ powerState s.dev = 4 ∧ wakeEnabled s.dev source = true) ∧ (∃ (s :
    State) (source : Nat) (ports dq ca : List Nat), source < 4 ∧ ports.all (· < 96) = true ∧ dq.all (· < 512) = true ∧ ca.all
    (· < 512) = true ∧ ((s.dev.off ≠ 0 ∨ wakeEnabled s.dev source = false ∨ powerState s.dev ≠ 1 ∧ powerState s.dev ≠ 4))) :=
  ⟨⟨on (.all [setF F.PWR_STATE_state 0 1, setF F.PWR_WAKE_enable 0 1]), 0, [95], [511], [511], by decide +kernel⟩, ⟨on (.all
    [setF F.PWR_STATE_state 0 4, setF F.PWR_WAKE_enable 0 1]), 0, [95], [511], [511], by decide +kernel⟩, ⟨on live, 0, [95],
    [511], [511], by decide +kernel⟩⟩

theorem witness_GovernorAndSleep_5 : (∃ (s : State), s.dev.off = 0 ∧ powerState s.dev = 1 ∧ s.dev.fld F.PWR_WAKE_TIMER_seconds
    0 ≠ 0) ∧ (∃ (s : State), ((s.dev.off ≠ 0 ∨ powerState s.dev ≠ 1 ∨ s.dev.fld F.PWR_WAKE_TIMER_seconds 0 = 0))) :=
  ⟨⟨on (.all [setF F.PWR_STATE_state 0 1, setF F.PWR_WAKE_TIMER_seconds 0 1]), by decide +kernel⟩, ⟨on live,
    by decide +kernel⟩⟩

theorem witness_GovernorAndSleep_6 : (∃ (s : State) (failed cores bad : List Nat), failed.all (· < 13005) = true ∧ cores.all
    (· < 2601) = true ∧ bad.all (· < 2601) = true ∧ s.dev.off = 0 ∧ powerState s.dev = 6 ∧ ((mapKeys s.dev.colOps fun _ o =>
    o.isSome) = []) ∧ s.dev.tripped = false ∧ ((halted s.dev = true ∨ coresBusy s.dev = false)) ∧ s.dev.fld
    F.TST_SHUTDOWN_BUDGET_budget_ms 0 = 0) ∧ (∃ (s : State) (failed cores bad : List Nat), failed.all (· < 13005) = true ∧
    cores.all (· < 2601) = true ∧ bad.all (· < 2601) = true ∧ s.dev.off = 0 ∧ powerState s.dev = 6 ∧ ((mapKeys s.dev.colOps
    fun _ o => o.isSome) = []) ∧ s.dev.tripped = false ∧ ((halted s.dev = true ∨ coresBusy s.dev = false)) ∧ s.dev.fld
    F.TST_SHUTDOWN_BUDGET_budget_ms 0 ≠ 0) ∧ (∃ (s : State) (failed cores bad : List Nat), failed.all (· < 13005) = true ∧
    cores.all (· < 2601) = true ∧ bad.all (· < 2601) = true ∧ s.dev.off = 0 ∧ powerState s.dev = 6 ∧ ((mapKeys s.dev.colOps
    fun _ o => o.isSome) = []) ∧ s.dev.tripped = false ∧ halted s.dev = false ∧ coresBusy s.dev = true) ∧ (∃ (s : State)
    (failed cores bad : List Nat), failed.all (· < 13005) = true ∧ cores.all (· < 2601) = true ∧ bad.all (· < 2601) = true ∧
    ((s.dev.off ≠ 0 ∨ powerState s.dev ≠ 6 ∨ (mapKeys s.dev.colOps fun _ o => o.isSome) ≠ [] ∨ s.dev.tripped = true))) :=
  ⟨⟨on (.all [setF F.PWR_STATE_state 0 6, setF F.TST_SHUTDOWN_BUDGET_budget_ms 0 0]), [13004], [2600], [2600],
    by decide +kernel⟩, ⟨on (.all [setF F.PWR_STATE_state 0 6, setF F.TST_SHUTDOWN_BUDGET_budget_ms 0 1]), [13004], [2600],
    [2600], by decide +kernel⟩, ⟨runs 0 [setF F.PWR_STATE_state 0 6], [13004], [2600], [2600], by decide +kernel⟩, ⟨on live,
    [13004], [2600], [2600], by decide +kernel⟩⟩

theorem witness_GovernorAndSleep_7 : (∃ (s : State), up s.dev = true ∧ s.dev.fld F.CLK_AON_ext_ref 0 = 1) ∧ (∃ (s : State),
    ((up s.dev = false ∨ s.dev.fld F.CLK_AON_ext_ref 0 ≠ 1))) :=
  ⟨⟨with' [setF F.CLK_AON_ext_ref 0 1], by decide +kernel⟩, ⟨on live, by decide +kernel⟩⟩

theorem witness_HaltInput_0 : (∃ (s : State) (d : Device) (a b : Bool) (cycles : Nat), (Eff.when (cycles != 0) (setF
    F.HALT_STATUS_last_disagree 0 cycles)).run s.dev = d ∧ cycles < 250001 ∧ s.dev.off = 0 ∧ (a || b) = true ∧ halted d =
    false) ∧ (∃ (s : State) (d : Device) (a b : Bool) (cycles : Nat), (Eff.when (cycles != 0) (setF
    F.HALT_STATUS_last_disagree 0 cycles)).run s.dev = d ∧ cycles < 250001 ∧ s.dev.off = 0 ∧ (a || b) = true ∧ halted d =
    true) ∧ (∃ (s : State) (d : Device) (a b : Bool) (cycles : Nat), (Eff.when (cycles != 0) (setF F.HALT_STATUS_last_disagree
    0 cycles)).run s.dev = d ∧ cycles < 250001 ∧ ((s.dev.off ≠ 0 ∨ (a || b) = false))) :=
  ⟨⟨on live, _, true, false, 250000, rfl, by decide +kernel⟩, ⟨with' [setF F.HALT_STATUS_halted 0 1], _, true, false, 250000,
    rfl, by decide +kernel⟩, ⟨on live, _, false, false, 250000, rfl, by decide +kernel⟩⟩

theorem witness_HaltInput_1 : (∃ (s : State) (d : Device) (cycles : Nat), (Eff.when (cycles != 0) (setF
    F.HALT_STATUS_last_disagree 0 cycles)).run s.dev = d ∧ cycles < 250001 ∧ s.dev.off = 0 ∧ halted d = true ∧ d.fld
    F.HALT_STATUS_fault 0 ≠ 1) ∧ (∃ (s : State) (d : Device) (cycles : Nat), (Eff.when (cycles != 0) (setF
    F.HALT_STATUS_last_disagree 0 cycles)).run s.dev = d ∧ cycles < 250001 ∧ s.dev.off = 0 ∧ halted d = true ∧ d.fld
    F.HALT_STATUS_fault 0 = 1) ∧ (∃ (s : State) (d : Device) (cycles : Nat), (Eff.when (cycles != 0) (setF
    F.HALT_STATUS_last_disagree 0 cycles)).run s.dev = d ∧ cycles < 250001 ∧ s.dev.off = 0 ∧ halted d = false ∧ d.fld
    F.HALT_STATUS_fault 0 ≠ 1) ∧ (∃ (s : State) (d : Device) (cycles : Nat), (Eff.when (cycles != 0) (setF
    F.HALT_STATUS_last_disagree 0 cycles)).run s.dev = d ∧ cycles < 250001 ∧ s.dev.off ≠ 0) :=
  ⟨⟨with' [setF F.HALT_STATUS_halted 0 1], _, 250000, rfl, by decide +kernel⟩, ⟨with' [setF F.HALT_STATUS_halted 0 1, setF
    F.HALT_STATUS_fault 0 1], _, 0, rfl, by decide +kernel⟩, ⟨on live, _, 0, rfl, by decide +kernel⟩, ⟨on (putOff 1), _, 0,
    rfl, by decide +kernel⟩⟩

theorem witness_HaltInput_2 : (∃ (s : State), s.dev.off = 0 ∧ s.dev.fld F.HALT_STATUS_fault 0 = 0 ∧ halted s.dev = true) ∧ (∃
    (s : State), s.dev.off = 0 ∧ s.dev.fld F.HALT_STATUS_fault 0 = 0 ∧ halted s.dev = false) ∧ (∃ (s : State), ((s.dev.off ≠ 0
    ∨ s.dev.fld F.HALT_STATUS_fault 0 ≠ 0))) :=
  ⟨⟨with' [setF F.HALT_STATUS_halted 0 1], by decide +kernel⟩, ⟨on live, by decide +kernel⟩, ⟨with' [setF F.HALT_STATUS_fault
    0 1], by decide +kernel⟩⟩

theorem witness_HaltInput_3 : ∃ (s : State) (d : Device) (rq : Nat), AsksAon s rq d ∧ bit (mayWrite d rq .HALT_CTRL 0) 31 ≠ 1
    :=
  ⟨on (part 0), _, 2, asksAon (by decide +kernel), by decide +kernel⟩

theorem witness_HaltInput_4 : (∃ (s : State) (d : Device) (rq v : Nat), WritesAon s rq .HALT_CTRL 0 v 31 d ∧ ((bit v 31 ≠ 1 ∨
    d.fld F.HALT_STATUS_fault 0 ≠ 1))) ∧ (∃ (s : State) (d : Device) (rq v : Nat), WritesAon s rq .HALT_CTRL 0 v 31 d ∧ bit v
    31 = 1 ∧ d.fld F.HALT_STATUS_fault 0 = 1 ∧ ((d.fld F.HALT_STATUS_a 0 = 1 ∨ d.fld F.HALT_STATUS_b 0 = 1))) ∧ (∃ (s : State)
    (d : Device) (rq v : Nat), WritesAon s rq .HALT_CTRL 0 v 31 d ∧ bit v 31 = 1 ∧ d.fld F.HALT_STATUS_fault 0 = 1 ∧ d.fld
    F.HALT_STATUS_a 0 ≠ 1 ∧ d.fld F.HALT_STATUS_b 0 ≠ 1) :=
  ⟨⟨on live, _, 0, 2 ^ 31, writesAon (by decide +kernel), by decide +kernel⟩, ⟨with' [setF F.HALT_STATUS_fault 0 1, setF
    F.HALT_STATUS_b 0 1], _, 0, 2 ^ 31, writesAon (by decide +kernel), by decide +kernel⟩, ⟨with' [setF F.HALT_STATUS_fault 0
    1], _, 0, 2 ^ 31, writesAon (by decide +kernel), by decide +kernel⟩⟩

theorem witness_StartsAndFirmware_0 : (∃ (s : State) (e : Env) (start : Eff), (start = .all [ haltInputs e.haltA e.haltB,
    stepThree, trainHeld, readBoard e.board e.plate, stepFive e, .obs fun d => if d.fld F.STW_BOOT_recovery 0 == 1 then .seq
    enterRecovery (setF F.STW_PCIE_state 0 3) else .all [ stepSix e, stepSeven e, stepEight e, stepNine e, setF
    F.PWR_WAKE_last 0 0xF, setF F.STW_BOOT_step 0 10, refreshIdle]]) ∧ e.ok = true ∧ e.aonClock ≠ 0 ∧ s.dev.off = 1 ∧
    s.dev.vin.valid = true) ∧ (∃ (s : State) (e : Env) (start : Eff), (start = .all [ haltInputs e.haltA e.haltB, stepThree,
    trainHeld, readBoard e.board e.plate, stepFive e, .obs fun d => if d.fld F.STW_BOOT_recovery 0 == 1 then .seq
    enterRecovery (setF F.STW_PCIE_state 0 3) else .all [ stepSix e, stepSeven e, stepEight e, stepNine e, setF
    F.PWR_WAKE_last 0 0xF, setF F.STW_BOOT_step 0 10, refreshIdle]]) ∧ e.ok = true ∧ e.aonClock ≠ 0 ∧ s.dev.off = 0 ∧
    s.dev.fld F.STW_BOOT_step 0 = 0 ∧ s.dev.fld F.STW_BOOT_recovery 0 = 0) ∧ (∃ (s : State) (e : Env) (start : Eff), (start =
    .all [ haltInputs e.haltA e.haltB, stepThree, trainHeld, readBoard e.board e.plate, stepFive e, .obs fun d => if d.fld
    F.STW_BOOT_recovery 0 == 1 then .seq enterRecovery (setF F.STW_PCIE_state 0 3) else .all [ stepSix e, stepSeven e,
    stepEight e, stepNine e, setF F.PWR_WAKE_last 0 0xF, setF F.STW_BOOT_step 0 10, refreshIdle]]) ∧ e.ok = true ∧
    ((e.aonClock = 0 ∨ s.dev.off = 0 ∧ (s.dev.fld F.STW_BOOT_step 0 ≠ 0 ∨ s.dev.fld F.STW_BOOT_recovery 0 ≠ 0) ∨ s.dev.off = 1
    ∧ s.dev.vin.valid = false ∨ 2 ≤ s.dev.off))) ∧ (∃ (s : State) (e : Env) (start : Eff) (d rq : _), (start = .all [
    haltInputs e.haltA e.haltB, stepThree, trainHeld, readBoard e.board e.plate, stepFive e, .obs fun d => if d.fld
    F.STW_BOOT_recovery 0 == 1 then .seq enterRecovery (setF F.STW_PCIE_state 0 3) else .all [ stepSix e, stepSeven e,
    stepEight e, stepNine e, setF F.PWR_WAKE_last 0 0xF, setF F.STW_BOOT_step 0 10, refreshIdle]]) ∧ AsksAon s rq d ∧ e.ok =
    true ∧ mayWrite d rq .STW_DEVRESET 0 = 0) ∧ (∃ (s : State) (e : Env) (start : Eff) (d rq v : _), (start = .all [
    haltInputs e.haltA e.haltB, stepThree, trainHeld, readBoard e.board e.plate, stepFive e, .obs fun d => if d.fld
    F.STW_BOOT_recovery 0 == 1 then .seq enterRecovery (setF F.STW_PCIE_state 0 3) else .all [ stepSix e, stepSeven e,
    stepEight e, stepNine e, setF F.PWR_WAKE_last 0 0xF, setF F.STW_BOOT_step 0 10, refreshIdle]]) ∧ AsksAon s rq d ∧ e.ok =
    true ∧ mayWrite d rq .STW_DEVRESET 0 ≠ 0 ∧ bit v 31 = 1 ∧ bits v 7 0 = 0xA7) ∧ (∃ (s : State) (e : Env) (start : Eff) (d
    rq v : _), (start = .all [ haltInputs e.haltA e.haltB, stepThree, trainHeld, readBoard e.board e.plate, stepFive e, .obs
    fun d => if d.fld F.STW_BOOT_recovery 0 == 1 then .seq enterRecovery (setF F.STW_PCIE_state 0 3) else .all [ stepSix e,
    stepSeven e, stepEight e, stepNine e, setF F.PWR_WAKE_last 0 0xF, setF F.STW_BOOT_step 0 10, refreshIdle]]) ∧ AsksAon s rq
    d ∧ e.ok = true ∧ mayWrite d rq .STW_DEVRESET 0 ≠ 0 ∧ ((bit v 31 ≠ 1 ∨ bits v 7 0 ≠ 0xA7))) :=
  ⟨⟨on (.all [putOff 1, putVin ⟨true, 0⟩]), env, _, rfl, by decide +kernel⟩, ⟨on .skip, env, _, rfl, by decide +kernel⟩, ⟨on
    (putOff 2), env, _, rfl, by decide +kernel⟩, ⟨on (part 0), env, _, _, 2, rfl, asksAon (by decide +kernel),
    by decide +kernel⟩, ⟨on live, env, _, _, 0, 0x800000A7, rfl, asksAon (by decide +kernel), by decide +kernel⟩, ⟨on live,
    env, _, _, 0, 0x80000000, rfl, asksAon (by decide +kernel), by decide +kernel⟩⟩

theorem witness_StartsAndFirmware_1 : (∃ (s : State) (d : Device) (rq slot op : Nat) (flashOk : Bool) (c : Instr), (c, op) ∈
    [(.fwWriteSlot rq slot flashOk, 1), (.fwPreferSlot rq slot flashOk, 2), (.fwCommitMinver rq slot, 3)] ∧ AsksAon s rq d ∧
    slot < 2 ∧ mayWrite d rq .STW_FW_CTRL 0 = 0) ∧ (∃ (s : State) (d : Device) (rq slot op : Nat) (flashOk : Bool) (c :
    Instr), (c, op) ∈ [(.fwWriteSlot rq slot flashOk, 1), (.fwPreferSlot rq slot flashOk, 2), (.fwCommitMinver rq slot, 3)] ∧
    AsksAon s rq d ∧ slot < 2 ∧ mayWrite d rq .STW_FW_CTRL 0 ≠ 0 ∧ d.fld F.STW_FW_CTRL_busy 0 = 1) :=
  ⟨⟨on (part 0), _, 2, 1, 1, true, .fwWriteSlot 2 1 true, by simp, asksAon (by decide +kernel), by decide +kernel⟩, ⟨with'
    [setF F.STW_FW_CTRL_busy 0 1], _, 0, 1, 3, true, .fwCommitMinver 0 1, by simp, asksAon (by decide +kernel),
    by decide +kernel⟩⟩

theorem witness_StartsAndFirmware_2 : ∃ (s : State) (d : Device) (rq slot a len n code : Nat) (img : List Byte) (flashOk :
    Bool), AsksAon s rq d ∧ a = d.fld F.STW_FW_SRC_addr 0 * 4096 ∧ len = num (d.bytes a 256) 8 4 ∧ n = (if len % 4096 == 0 &&
    256 ≤ len && len ≤ 0x1000000 then len else 256) ∧ img = d.bytes a n ∧ code = (firstFail [(d.fld
    F.STW_FW_STATUS_running_slot 0 != slot, 8), (dramRange a n && !d.poisoned a n, 9), (fwCheck d img == 0, fwCheck d img),
    (flashOk, 6)]).getD 0 ∧ slot < 2 ∧ mayWrite d rq .STW_FW_CTRL 0 ≠ 0 ∧ d.fld F.STW_FW_CTRL_busy 0 ≠ 1 :=
  ⟨on live, _, 0, 1, _, _, _, _, _, true, asksAon (by decide +kernel), rfl, rfl, rfl, rfl, rfl, by decide +kernel⟩

theorem witness_StartsAndFirmware_3 : ∃ (s : State) (d : Device) (rq slot : Nat) (flashOk : Bool) (code : _), AsksAon s rq d ∧
    code = (if slotCheck d slot ≠ 0 then 1 else if flashOk then 0 else 6) ∧ slot < 2 ∧ mayWrite d rq .STW_FW_CTRL 0 ≠ 0 ∧
    d.fld F.STW_FW_CTRL_busy 0 ≠ 1 :=
  ⟨on live, _, 0, 1, true, _, asksAon (by decide +kernel), rfl, by decide +kernel⟩

theorem witness_StartsAndFirmware_4 : (∃ (s : State) (op slot code : _), up s.dev = true ∧ s.dev.fwPending = some (op, slot,
    code)) ∧ (∃ (s : State), ((up s.dev = false ∨ s.dev.fwPending = none))) :=
  ⟨⟨with' [putFwPending (some (1, 0, 0))], 1, 0, 0, by decide +kernel⟩, ⟨on live, by decide +kernel⟩⟩

theorem witness_StartsAndFirmware_5 : (∃ (s : State) (offset : Nat) (data : List Byte) (last : Bool) (e : Env), data.length <
    32769 ∧ e.ok = true ∧ s.dev.off = 0 ∧ s.dev.fld F.STW_BOOT_recovery 0 = 1 ∧ offset + data.length ≤ 0x1000000 ∧ last =
    false) ∧ (∃ (s : State) (offset : Nat) (data : List Byte) (last : Bool) (e : Env) (d : _), (Eff.all [putRecBuf data,
    putRecCmd (offset, data.length), writeFlash offset data]).run s.dev = d ∧ data.length < 32769 ∧ e.ok = true ∧ s.dev.off =
    0 ∧ s.dev.fld F.STW_BOOT_recovery 0 = 1 ∧ offset + data.length ≤ 0x1000000 ∧ last = true) ∧ (∃ (s : State) (offset : Nat)
    (data : List Byte) (e : Env), data.length < 32769 ∧ e.ok = true ∧ ((s.dev.off ≠ 0 ∨ s.dev.fld F.STW_BOOT_recovery 0 ≠ 1 ∨
    0x1000000 < offset + data.length))) :=
  ⟨⟨with' [setF F.STW_BOOT_recovery 0 1], 0xFFFFFF, [1], false, env, by decide +kernel⟩, ⟨with' [setF F.STW_BOOT_recovery 0
    1], 0xFFFFFF, [1], true, env, _, rfl, by decide +kernel⟩, ⟨on live, 0xFFFFFF, [1], env, by decide +kernel⟩⟩

theorem witness_HostPorts_0 : (∃ (s : State) (q rate width : Nat), q < 2 ∧ rate < 6 ∧ width < 5 ∧ s.dev.off = 0) ∧ (∃ (s :
    State) (q rate width : Nat), q < 2 ∧ rate < 6 ∧ width < 5 ∧ ((s.dev.off = 1 ∨ s.dev.off = 2))) ∧ (∃ (s : State) (q rate
    width : Nat), q < 2 ∧ rate < 6 ∧ width < 5 ∧ 3 ≤ s.dev.off) :=
  ⟨⟨on live, 1, 5, 4, by decide +kernel⟩, ⟨on (putOff 2), 1, 5, 4, by decide +kernel⟩, ⟨on (putOff 3), 1, 5, 4,
    by decide +kernel⟩⟩

theorem witness_HostPorts_1 : (∃ (s : State) (q fn st : Nat) (seen : Eff), st = s.dev.fld F.STW_PCIE_state q ∧ seen = .when
    (st == 1) (setF F.STW_PCIE_state q 2) ∧ q < 2 ∧ fn < 1024 ∧ ((s.dev.off ≠ 0 ∨ st = 0))) ∧ (∃ (s : State) (q fn st : Nat)
    (seen : Eff), st = s.dev.fld F.STW_PCIE_state q ∧ seen = .when (st == 1) (setF F.STW_PCIE_state q 2) ∧ q < 2 ∧ fn < 1024 ∧
    s.dev.off = 0 ∧ st ≠ 0 ∧ st ≠ 3 ∧ s.dev.fld F.STW_BOOT_step 0 < 9) ∧ (∃ (s : State) (q fn st : Nat) (seen : Eff), st =
    s.dev.fld F.STW_PCIE_state q ∧ seen = .when (st == 1) (setF F.STW_PCIE_state q 2) ∧ q < 2 ∧ fn < 1024 ∧ s.dev.off = 0 ∧ st
    ≠ 0 ∧ ((st = 3 ∨ 9 ≤ s.dev.fld F.STW_BOOT_step 0)) ∧ fn ≠ 0 ∧ ((s.dev.fld F.STW_PCIE_vfs q < fn ∨ st = 3))) ∧ (∃ (s :
    State) (q fn st : Nat) (write : Bool) (seen : Eff), st = s.dev.fld F.STW_PCIE_state q ∧ seen = .when (st == 1) (setF
    F.STW_PCIE_state q 2) ∧ q < 2 ∧ fn < 1024 ∧ s.dev.off = 0 ∧ st ≠ 0 ∧ ((st = 3 ∨ 9 ≤ s.dev.fld F.STW_BOOT_step 0)) ∧ ((fn =
    0 ∨ fn ≤ s.dev.fld F.STW_PCIE_vfs q ∧ st ≠ 3)) ∧ write = true) ∧ (∃ (s : State) (q fn st : Nat) (write : Bool) (seen :
    Eff), st = s.dev.fld F.STW_PCIE_state q ∧ seen = .when (st == 1) (setF F.STW_PCIE_state q 2) ∧ q < 2 ∧ fn < 1024 ∧
    s.dev.off = 0 ∧ st ≠ 0 ∧ ((st = 3 ∨ 9 ≤ s.dev.fld F.STW_BOOT_step 0)) ∧ ((fn = 0 ∨ fn ≤ s.dev.fld F.STW_PCIE_vfs q ∧ st ≠
    3)) ∧ write = false) :=
  ⟨⟨on live, 1, 1023, _, _, rfl, rfl, by decide +kernel⟩, ⟨with' [setF F.STW_PCIE_state 1 1], 1, 1023, _, _, rfl, rfl,
    by decide +kernel⟩, ⟨with' [setF F.STW_PCIE_state 1 3], 1, 1023, _, _, rfl, rfl, by decide +kernel⟩, ⟨with' [setF
    F.STW_PCIE_state 1 2, setF F.STW_BOOT_step 0 9, setF F.STW_PCIE_vfs 1 512], 1, 512, _, true, _, rfl, rfl,
    by decide +kernel⟩, ⟨with' [setF F.STW_PCIE_state 1 2, setF F.STW_BOOT_step 0 9, setF F.STW_PCIE_vfs 1 512], 1, 512, _,
    false, _, rfl, rfl, by decide +kernel⟩⟩

theorem witness_HostPorts_2 : (∃ (s : State) (q n : Nat), q < 2 ∧ n < 513 ∧ s.dev.off = 0 ∧ 9 ≤ s.dev.fld F.STW_BOOT_step 0 ∧
    s.dev.fld F.STW_PCIE_state q = 2) ∧ (∃ (s : State) (q n : Nat), q < 2 ∧ n < 513 ∧ ((s.dev.off ≠ 0 ∨ s.dev.fld
    F.STW_BOOT_step 0 < 9 ∨ s.dev.fld F.STW_PCIE_state q ≠ 2))) :=
  ⟨⟨with' [setF F.STW_BOOT_step 0 9, setF F.STW_PCIE_state 1 2], 1, 512, by decide +kernel⟩, ⟨on live, 1, 512,
    by decide +kernel⟩⟩

theorem witness_HostPorts_3 : (∃ (s : State) (q : Nat) (ends : Eff) (kind st : _), (ends = .all [tearOwned ((List.range
    512).map (q * 512 + ·)), .obs fun d => .each (ownedParts d fun fn => fn / 1024 == q) resetPartition, setF F.STW_PCIE_vfs q
    0, setReg .STW_PCIE_BAR4 q 0, .upd (.msixDrop fun k => k / 4 == q)]) ∧ st = (if kind == 1 && s.dev.fld F.STW_PCIE_state q
    != 0 then 1 else 0) ∧ q < 2 ∧ kind < 3 ∧ s.dev.off = 0 ∧ s.dev.fld F.STW_BOOT_recovery 0 = 0) ∧ (∃ (s : State) (q : Nat)
    (ends : Eff) (kind st : _), (ends = .all [tearOwned ((List.range 512).map (q * 512 + ·)), .obs fun d => .each (ownedParts
    d fun fn => fn / 1024 == q) resetPartition, setF F.STW_PCIE_vfs q 0, setReg .STW_PCIE_BAR4 q 0, .upd (.msixDrop fun k => k
    / 4 == q)]) ∧ st = (if kind == 1 && s.dev.fld F.STW_PCIE_state q != 0 then 1 else 0) ∧ q < 2 ∧ kind < 3 ∧ s.dev.off = 0 ∧
    s.dev.fld F.STW_BOOT_recovery 0 ≠ 0) ∧ (∃ (s : State) (q : Nat) (ends : Eff) (kind st : _), (ends = .all [tearOwned
    ((List.range 512).map (q * 512 + ·)), .obs fun d => .each (ownedParts d fun fn => fn / 1024 == q) resetPartition, setF
    F.STW_PCIE_vfs q 0, setReg .STW_PCIE_BAR4 q 0, .upd (.msixDrop fun k => k / 4 == q)]) ∧ st = (if kind == 1 && s.dev.fld
    F.STW_PCIE_state q != 0 then 1 else 0) ∧ q < 2 ∧ kind < 3 ∧ s.dev.off ≠ 0) ∧ (∃ (s : State) (q : Nat) (ends : Eff) (v c :
    _), (ends = .all [tearOwned ((List.range 512).map (q * 512 + ·)), .obs fun d => .each (ownedParts d fun fn => fn / 1024 ==
    q) resetPartition, setF F.STW_PCIE_vfs q 0, setReg .STW_PCIE_BAR4 q 0, .upd (.msixDrop fun k => k / 4 == q)]) ∧ c = q *
    512 + v ∧ q < 2 ∧ v < 512 ∧ s.dev.off = 0 ∧ s.dev.fld F.STW_BOOT_recovery 0 = 0) ∧ (∃ (s : State) (q : Nat) (ends : Eff)
    (v c : _), (ends = .all [tearOwned ((List.range 512).map (q * 512 + ·)), .obs fun d => .each (ownedParts d fun fn => fn /
    1024 == q) resetPartition, setF F.STW_PCIE_vfs q 0, setReg .STW_PCIE_BAR4 q 0, .upd (.msixDrop fun k => k / 4 == q)]) ∧ c
    = q * 512 + v ∧ q < 2 ∧ v < 512 ∧ ((s.dev.off ≠ 0 ∨ s.dev.fld F.STW_BOOT_recovery 0 ≠ 0))) :=
  ⟨⟨on live, 1, _, 2, _, rfl, rfl, by decide +kernel⟩, ⟨with' [setF F.STW_BOOT_recovery 0 1], 1, _, 1, _, rfl, rfl,
    by decide +kernel⟩, ⟨on (putOff 1), 1, _, 1, _, rfl, rfl, by decide +kernel⟩, ⟨on live, 1, _, 511, _, rfl, rfl,
    by decide +kernel⟩, ⟨on (putOff 1), 1, _, 511, _, rfl, rfl, by decide +kernel⟩⟩

theorem witness_HostPorts_4 : (∃ (s : State) (q : Nat) (wakes : Bool), wakes = (wakeEnabled s.dev 0 && s.dev.fld
    F.PWR_WAKE_auto 0 == 1) ∧ q < 2 ∧ answering s.dev (rqOf (q * 1024)) = false) ∧ (∃ (s : State) (q : Nat) (data : Option
    (List Byte)) (wakes : Bool), wakes = (wakeEnabled s.dev 0 && s.dev.fld F.PWR_WAKE_auto 0 == 1) ∧ q < 2 ∧ answering s.dev
    (rqOf (q * 1024)) = true ∧ powered s.dev = false ∧ ((powerState s.dev ≠ 1 ∨ wakes = false)) ∧ data = none) ∧ (∃ (s :
    State) (q : Nat) (data : Option (List Byte)) (wakes : Bool), wakes = (wakeEnabled s.dev 0 && s.dev.fld F.PWR_WAKE_auto 0
    == 1) ∧ q < 2 ∧ answering s.dev (rqOf (q * 1024)) = true ∧ powered s.dev = false ∧ ((powerState s.dev ≠ 1 ∨ wakes =
    false)) ∧ data ≠ none) ∧ (∃ (s : State) (q offset len : Nat) (data : Option (List Byte)) (wakes : Bool) (d as : _), wakes
    = (wakeEnabled s.dev 0 && s.dev.fld F.PWR_WAKE_auto 0 == 1) ∧ (if powered s.dev then Eff.when (wakes && powerState s.dev
    == 4) abandonRest else wakeWhole 0).run s.dev = d ∧ as = (List.range ((data.map (·.length)).getD len)).map (d.fld
    F.STW_PCIE_BAR4_base q * 1073741824 + offset + ·) ∧ q < 2 ∧ answering s.dev (rqOf (q * 1024)) = true ∧ ((powered s.dev =
    true ∨ powerState s.dev = 1 ∧ wakes = true)) ∧ as.all (dramServed d) = false) ∧ (∃ (s : State) (q offset len : Nat) (data
    : Option (List Byte)) (wakes : Bool) (d as : _), wakes = (wakeEnabled s.dev 0 && s.dev.fld F.PWR_WAKE_auto 0 == 1) ∧ (if
    powered s.dev then Eff.when (wakes && powerState s.dev == 4) abandonRest else wakeWhole 0).run s.dev = d ∧ as =
    (List.range ((data.map (·.length)).getD len)).map (d.fld F.STW_PCIE_BAR4_base q * 1073741824 + offset + ·) ∧ q < 2 ∧
    answering s.dev (rqOf (q * 1024)) = true ∧ ((powered s.dev = true ∨ powerState s.dev = 1 ∧ wakes = true)) ∧ as.all
    (dramServed d) = true ∧ anyHeld d as = true) ∧ (∃ (s : State) (q offset len : Nat) (data : Option (List Byte)) (wakes :
    Bool) (d as bs : _), wakes = (wakeEnabled s.dev 0 && s.dev.fld F.PWR_WAKE_auto 0 == 1) ∧ (if powered s.dev then Eff.when
    (wakes && powerState s.dev == 4) abandonRest else wakeWhole 0).run s.dev = d ∧ as = (List.range ((data.map
    (·.length)).getD len)).map (d.fld F.STW_PCIE_BAR4_base q * 1073741824 + offset + ·) ∧ q < 2 ∧ answering s.dev (rqOf (q *
    1024)) = true ∧ ((powered s.dev = true ∨ powerState s.dev = 1 ∧ wakes = true)) ∧ as.all (dramServed d) = true ∧ anyHeld d
    as = false ∧ data = some bs) ∧ (∃ (s : State) (q offset len : Nat) (data : Option (List Byte)) (wakes : Bool) (d as : _),
    wakes = (wakeEnabled s.dev 0 && s.dev.fld F.PWR_WAKE_auto 0 == 1) ∧ (if powered s.dev then Eff.when (wakes && powerState
    s.dev == 4) abandonRest else wakeWhole 0).run s.dev = d ∧ as = (List.range ((data.map (·.length)).getD len)).map (d.fld
    F.STW_PCIE_BAR4_base q * 1073741824 + offset + ·) ∧ q < 2 ∧ answering s.dev (rqOf (q * 1024)) = true ∧ ((powered s.dev =
    true ∨ powerState s.dev = 1 ∧ wakes = true)) ∧ as.all (dramServed d) = true ∧ anyHeld d as = false ∧ data = none ∧
    anyPoison d as = true) ∧ (∃ (s : State) (q offset len : Nat) (data : Option (List Byte)) (wakes : Bool) (d as : _), wakes
    = (wakeEnabled s.dev 0 && s.dev.fld F.PWR_WAKE_auto 0 == 1) ∧ (if powered s.dev then Eff.when (wakes && powerState s.dev
    == 4) abandonRest else wakeWhole 0).run s.dev = d ∧ as = (List.range ((data.map (·.length)).getD len)).map (d.fld
    F.STW_PCIE_BAR4_base q * 1073741824 + offset + ·) ∧ q < 2 ∧ answering s.dev (rqOf (q * 1024)) = true ∧ ((powered s.dev =
    true ∨ powerState s.dev = 1 ∧ wakes = true)) ∧ as.all (dramServed d) = true ∧ anyHeld d as = false ∧ data = none ∧
    anyPoison d as = false) :=
  ⟨⟨on (putOff 1), 1, _, rfl, by decide +kernel⟩, ⟨on (.all [setF F.PWR_STATE_state 0 1, setF F.PWR_WAKE_auto 0 0]), 1, none,
    _, rfl, by decide +kernel⟩, ⟨on (.all [setF F.PWR_STATE_state 0 1, setF F.PWR_WAKE_auto 0 0]), 1, some [1, 2], _, rfl,
    by decide +kernel⟩, ⟨on live, 1, 0, 4, some [1, 2], _, _, _, rfl, rfl, rfl, by decide +kernel⟩, ⟨with' [setF
    F.STW_PCIE_BAR4_base 1 64, putRoutesStale true], 1, 0, 4, some [1, 2], _, _, _, rfl, rfl, rfl, by decide +kernel⟩, ⟨with'
    [setF F.STW_PCIE_BAR4_base 1 64], 1, 0, 4, some [1, 2], _, _, _, [1, 2], rfl, rfl, rfl, by decide +kernel⟩, ⟨with' [setF
    F.STW_PCIE_BAR4_base 1 64, putPoison 0x1000000000 true], 1, 0, 4, none, _, _, _, rfl, rfl, rfl, by decide +kernel⟩, ⟨with'
    [setF F.STW_PCIE_BAR4_base 1 64], 1, 0, 4, none, _, _, _, rfl, rfl, rfl, by decide +kernel⟩⟩

theorem witness_DoorbellPages_0 : (∃ (s : State) (d : Device) (q v slot c : Nat), Asks s (rqOf (q * 1024 + v + 1)) d ∧ c = q *
    512 + v ∧ q < 2 ∧ v < 512 ∧ slot < 256 ∧ ctxPart d c = none) ∧ (∃ (s : State) (d : Device) (q v slot c : Nat) (p : _),
    Asks s (rqOf (q * 1024 + v + 1)) d ∧ c = q * 512 + v ∧ q < 2 ∧ v < 512 ∧ slot < 256 ∧ ctxPart d c = some p ∧ slotRing d c
    slot = none) ∧ (∃ (s : State) (d : Device) (q v slot c : Nat) (p n r : _), Asks s (rqOf (q * 1024 + v + 1)) d ∧ c = q *
    512 + v ∧ q < 2 ∧ v < 512 ∧ slot < 256 ∧ ctxPart d c = some p ∧ slotRing d c slot = some (some n, r)) ∧ (∃ (s : State) (d
    : Device) (q v slot c : Nat) (p r : _), Asks s (rqOf (q * 1024 + v + 1)) d ∧ c = q * 512 + v ∧ q < 2 ∧ v < 512 ∧ slot <
    256 ∧ ctxPart d c = some p ∧ slotRing d c slot = some (none, r)) :=
  ⟨⟨on live, _, 1, 511, 255, _, asks (by decide +kernel), rfl, by decide +kernel⟩, ⟨runs 0 [], _, 0, 0, 0, _, 0, asks
    (by decide +kernel), rfl, by decide +kernel⟩, ⟨rings 0 1 [putDbBind 0 (some 0)], _, 0, 0, 0, _, 0, 0, 0, asks
    (by decide +kernel), rfl, by decide +kernel⟩, ⟨runs 0 [seqRing, putDbBind 0 (some 163840)], _, 0, 0, 0, _, 0, 0, asks
    (by decide +kernel), rfl, by decide +kernel⟩⟩

theorem witness_DoorbellPages_1 : (∃ (s : State) (d : Device) (rq v b : Nat) (c : Instr), (c, b) ∈ [(.dbBind rq v, 63),
    (.dbUnbind rq v, 62)] ∧ AsksAon s rq d ∧ bit (mayWrite d rq .STW_DB_BIND 0) b ≠ 1) ∧ (∃ (s : State) (d : Device) (rq v b :
    Nat) (c : Instr), (c, b) ∈ [(.dbBind rq v, 63), (.dbUnbind rq v, 62)] ∧ WritesAon s rq .STW_DB_BIND 0 v b d ∧ bit v b ≠ 1)
    ∧ (∃ (s : State) (d : Device) (rq v b : Nat) (c : Instr), (c, b) ∈ [(.dbBind rq v, 63), (.dbUnbind rq v, 62)] ∧ WritesAon
    s rq .STW_DB_BIND 0 v b d ∧ bit v b = 1 ∧ mayBind d rq (bits v 58 49) = false) :=
  ⟨⟨on (part 0), _, 2, 0, 62, .dbUnbind 2 0, by simp, asksAon (by decide +kernel), by decide +kernel⟩, ⟨on live, _, 0, 0, 62,
    .dbUnbind 0 0, by simp, writesAon (by decide +kernel), by decide +kernel⟩, ⟨on (part 0), _, 1, 2 ^ 63 + 2 ^ 58, 63,
    .dbBind 1 (2 ^ 63 + 2 ^ 58), by simp, writesAon (by decide +kernel), by decide +kernel⟩⟩

theorem witness_DoorbellPages_2 : (∃ (s : State) (d : Device) (rq v c key : Nat) (mine : Bool), WritesAon s rq .STW_DB_BIND 0
    v 63 d ∧ c = bits v 58 49 ∧ key = c * 256 + bits v 48 41 ∧ mine = (boundRing d (bits v 61 59) (bits v 40 36) (bits v 35
    26)).any (ringOfCtx d c (bits v 35 26)) ∧ bit v 63 = 1 ∧ mayBind d rq c = true ∧ mine = false) ∧ (∃ (s : State) (d :
    Device) (rq v c key : Nat) (mine : Bool) (x : _), WritesAon s rq .STW_DB_BIND 0 v 63 d ∧ c = bits v 58 49 ∧ key = c * 256
    + bits v 48 41 ∧ mine = (boundRing d (bits v 61 59) (bits v 40 36) (bits v 35 26)).any (ringOfCtx d c (bits v 35 26)) ∧
    bit v 63 = 1 ∧ mayBind d rq c = true ∧ mine = true ∧ d.dbBindAt key = some x) ∧ (∃ (s : State) (d : Device) (rq v c key :
    Nat) (mine : Bool), WritesAon s rq .STW_DB_BIND 0 v 63 d ∧ c = bits v 58 49 ∧ key = c * 256 + bits v 48 41 ∧ mine =
    (boundRing d (bits v 61 59) (bits v 40 36) (bits v 35 26)).any (ringOfCtx d c (bits v 35 26)) ∧ bit v 63 = 1 ∧ mayBind d
    rq c = true ∧ mine = true ∧ d.dbBindAt key = none) :=
  ⟨⟨on live, _, 0, 2 ^ 63, _, _, _, writesAon (by decide +kernel), rfl, rfl, rfl, by decide +kernel⟩, ⟨rings 0 1 [putDbBind 0
    (some 0)], _, 0, 2 ^ 63, _, _, _, 0, writesAon (by decide +kernel), rfl, rfl, rfl, by decide +kernel⟩, ⟨rings 0 1 [], _,
    0, 2 ^ 63, _, _, _, writesAon (by decide +kernel), rfl, rfl, rfl, by decide +kernel⟩⟩

theorem witness_DoorbellPages_3 : (∃ (s : State) (d : Device) (rq v c key : Nat) (x : _), WritesAon s rq .STW_DB_BIND 0 v 62 d
    ∧ c = bits v 58 49 ∧ key = c * 256 + bits v 48 41 ∧ bit v 62 = 1 ∧ mayBind d rq c = true ∧ d.dbBindAt key = some x) ∧ (∃
    (s : State) (d : Device) (rq v c key : Nat), WritesAon s rq .STW_DB_BIND 0 v 62 d ∧ c = bits v 58 49 ∧ key = c * 256 +
    bits v 48 41 ∧ bit v 62 = 1 ∧ mayBind d rq c = true ∧ d.dbBindAt key = none) :=
  ⟨⟨rings 0 1 [putDbBind 0 (some 0)], _, 0, 2 ^ 62, _, _, 0, writesAon (by decide +kernel), rfl, rfl, by decide +kernel⟩,
    ⟨rings 0 1 [], _, 0, 2 ^ 62, _, _, writesAon (by decide +kernel), rfl, rfl, by decide +kernel⟩⟩

theorem witness_Management_0 : (∃ (s : State) (after : Eff) (t : Nat) (kind eid : _), (after = .seq deliverEvents (.when
    (s.dev.off == 0) (.obs fun d => .when (wakeEnabled d 1) (if powerState d == 4 then abandonRest else wakeWhole 1)))) ∧ t <
    3 ∧ ((s.dev.off = 0 ∨ s.dev.off = 2)) ∧ eid < 256 ∧ 2 ≤ kind) ∧ (∃ (s : State) (after : Eff) (t : Nat) (kind command eid :
    _), (after = .seq deliverEvents (.when (s.dev.off == 0) (.obs fun d => .when (wakeEnabled d 1) (if powerState d == 4 then
    abandonRest else wakeWhole 1)))) ∧ t < 3 ∧ ((s.dev.off = 0 ∨ s.dev.off = 2)) ∧ eid < 256 ∧ kind = 0 ∧ command = 1) ∧ (∃ (s
    : State) (after : Eff) (t : Nat) (kind command eid : _), (after = .seq deliverEvents (.when (s.dev.off == 0) (.obs fun d
    => .when (wakeEnabled d 1) (if powerState d == 4 then abandonRest else wakeWhole 1)))) ∧ t < 3 ∧ ((s.dev.off = 0 ∨
    s.dev.off = 2)) ∧ eid < 256 ∧ kind < 2 ∧ ((kind ≠ 0 ∨ command ≠ 1))) ∧ (∃ (s : State) (after : Eff) (t : Nat) (id v : _),
    (after = .seq deliverEvents (.when (s.dev.off == 0) (.obs fun d => .when (wakeEnabled d 1) (if powerState d == 4 then
    abandonRest else wakeWhole 1)))) ∧ t < 3 ∧ ((s.dev.off = 0 ∨ s.dev.off = 2)) ∧ (id, v) ∈ [(1, s.dev.fld F.PWR_MEAS_power
    0), (2, s.dev.fld F.PWR_MEAS_vin 0 / 100), (3, s.dev.fld F.PWR_MEAS_iin 0 / 100), (4, s.dev.fld F.PWR_MEAS_tj 0), (30, if
    s.dev.off = 2 then 0 else powerState s.dev), (31, if s.dev.fld F.HALT_STATUS_fault 0 = 1 then 2 else s.dev.fld
    F.HALT_STATUS_halted 0)]) ∧ (∃ (s : State) (after : Eff) (t : Nat) (id : _), (after = .seq deliverEvents (.when (s.dev.off
    == 0) (.obs fun d => .when (wakeEnabled d 1) (if powerState d == 4 then abandonRest else wakeWhole 1)))) ∧ t < 3 ∧
    ((s.dev.off = 0 ∨ s.dev.off = 2)) ∧ 5 ≤ id ∧ id ≤ 20) ∧ (∃ (s : State) (after : Eff) (t : Nat) (id : _), (after = .seq
    deliverEvents (.when (s.dev.off == 0) (.obs fun d => .when (wakeEnabled d 1) (if powerState d == 4 then abandonRest else
    wakeWhole 1)))) ∧ t < 3 ∧ ((s.dev.off = 0 ∨ s.dev.off = 2)) ∧ 21 ≤ id ∧ id ≤ 24) ∧ (∃ (s : State) (after : Eff) (t : Nat)
    (id : _), (after = .seq deliverEvents (.when (s.dev.off == 0) (.obs fun d => .when (wakeEnabled d 1) (if powerState d == 4
    then abandonRest else wakeWhole 1)))) ∧ t < 3 ∧ ((s.dev.off = 0 ∨ s.dev.off = 2)) ∧ ((id = 0 ∨ 24 < id ∧ id < 30 ∨ 31 <
    id))) ∧ (∃ (s : State) (after : Eff) (t : Nat) (eid : _), (after = .seq deliverEvents (.when (s.dev.off == 0) (.obs fun d
    => .when (wakeEnabled d 1) (if powerState d == 4 then abandonRest else wakeWhole 1)))) ∧ t < 3 ∧ ((s.dev.off = 0 ∨
    s.dev.off = 2)) ∧ eid < 256) ∧ (∃ (s : State) (after : Eff) (t : Nat), (after = .seq deliverEvents (.when (s.dev.off == 0)
    (.obs fun d => .when (wakeEnabled d 1) (if powerState d == 4 then abandonRest else wakeWhole 1)))) ∧ t < 3 ∧ ((s.dev.off =
    0 ∨ s.dev.off = 2)) ∧ s.dev.off = 0) ∧ (∃ (s : State) (after : Eff) (t : Nat), (after = .seq deliverEvents (.when
    (s.dev.off == 0) (.obs fun d => .when (wakeEnabled d 1) (if powerState d == 4 then abandonRest else wakeWhole 1)))) ∧ t <
    3 ∧ ((s.dev.off = 0 ∨ s.dev.off = 2)) ∧ s.dev.off = 2) :=
  ⟨⟨on (putOff 2), _, 2, 2, 255, rfl, by decide +kernel⟩, ⟨on (putOff 2), _, 2, 0, 1, 255, rfl, by decide +kernel⟩, ⟨on
    (putOff 2), _, 2, 1, 1, 255, rfl, by decide +kernel⟩, ⟨on live, _, 2, 31, 0, rfl, by decide +kernel⟩, ⟨on live, _, 2, 20,
    rfl, by decide +kernel⟩, ⟨on live, _, 2, 24, rfl, by decide +kernel⟩, ⟨on live, _, 2, 32, rfl, by decide +kernel⟩, ⟨on
    live, _, 2, 255, rfl, by decide +kernel⟩, ⟨on live, _, 2, rfl, by decide +kernel⟩, ⟨on (putOff 2), _, 2, rfl,
    by decide +kernel⟩⟩

theorem witness_Management_1 : (∃ (s : State) (t target : Nat), t < 3 ∧ target < 4 ∧ s.dev.off = 2 ∧ target = 2) ∧ (∃ (s :
    State) (t target : Nat), t < 3 ∧ target < 4 ∧ s.dev.off = 2 ∧ target ≠ 2) ∧ (∃ (s : State) (t target : Nat), t < 3 ∧
    target < 4 ∧ s.dev.off = 0 ∧ ((powerState s.dev = 4 ∨ powerState s.dev = 5 ∨ powerState s.dev = 6))) ∧ (∃ (s : State) (t
    target : Nat), t < 3 ∧ target < 4 ∧ s.dev.off = 0 ∧ powerState s.dev ≠ 4 ∧ powerState s.dev ≠ 5 ∧ powerState s.dev ≠ 6) :=
  ⟨⟨on (putOff 2), 2, 2, by decide +kernel⟩, ⟨on (putOff 2), 2, 3, by decide +kernel⟩, ⟨on (setF F.PWR_STATE_state 0 4), 2, 3,
    by decide +kernel⟩, ⟨on live, 2, 3, by decide +kernel⟩⟩

theorem witness_Management_2 : ∃ (s : State) (t kind command eid id target : Nat) (c : _), c ∈ [Instr.mctpControl t kind
    command eid, .pldmSensorRead t id, .pldmSetEventReceiver t eid, .pldmPowerState t target, .pldmClearHalt t] ∧ t < 3 ∧ eid
    < 256 ∧ target < 4 ∧ s.dev.off ≠ 0 ∧ s.dev.off ≠ 2 :=
  ⟨on (putOff 1), 2, 0, 0, 255, 0, 3, .pldmClearHalt 2, by simp, by decide +kernel⟩

theorem witness_BindingRule_0 : ∃ (d : Device) (lvl q i : Nat), siteBad d lvl (q * (lvlCount lvl + 1) + i) = false :=
  ⟨spared, 1, 0, 2, by decide +kernel⟩

theorem witness_BindingRule_1 : ∃ (d : Device) (lvl q i : Nat), i < lvlCount lvl ∧ ((∀ j, j ≤ lvlCount lvl → (siteBad d lvl (q
    * (lvlCount lvl + 1) + j) = true ↔ j = i))) :=
  ⟨spared, 1, 0, 3, by decide +kernel⟩

theorem witness_BindingRule_2 : ∃ (d : Device) (lvl q i j : Nat), i < lvlCount lvl ∧ j < lvlCount lvl ∧ boundAt d lvl q i =
    some (lvlCount lvl) ∧ boundAt d lvl q j = some (lvlCount lvl) :=
  ⟨spared, 1, 0, 3, 3, by decide +kernel⟩

theorem witness_RequestScope_0 : ∃ (d : Device) (q : SeqReq), (¬ (bit q.flags 1 = 1 ∧ d.fld F.PRT_SEQ_RING_CFG_share_en
    (q.part * 64 + q.ring) = 1)) :=
  ⟨Device.reset, req 1 0, by decide +kernel⟩

theorem witness_RequestScope_1 : ∃ (d : Device) (q : SeqReq), bit q.flags 1 = 1 ∧ d.fld F.PRT_SEQ_RING_CFG_share_en (q.part *
    64 + q.ring) = 1 :=
  ⟨(on (setF F.PRT_SEQ_RING_CFG_share_en 0 1)).dev, { req 1 0 with flags := 2 }, by decide +kernel⟩

theorem witness_RequestScope_2 : ∃ (d : Device) (p ring : Nat) (q : SeqReq), seqRequest d p ring = some q :=
  ⟨(request (req 1 0) []).dev, 0, 0, req 1 0, by decide +kernel⟩

theorem witness_StepTakesFront_2 : ∃ (d : Device), d.off ≠ 0 :=
  ⟨(on (putOff 1)).dev, by decide +kernel⟩

theorem witness_StepTakesFront_3 : ∃ (d : Device), d.Ok ∧ d.off = 0 :=
  ⟨Device.reset, (by constructor <;> decide +kernel), by decide +kernel⟩

theorem witness_ResetInOrder_1 : ∃ (r : Reg) (i : Nat) (f : FieldInfo), f ∈ r.info.fields ∧ i < 1048576 :=
  ⟨.PRT_CTRL, 1048575, _, List.mem_cons_self, by decide +kernel⟩

theorem witness_StepKeepsOrder_0 : ∃ (s t : State), s.Ok ∧ step s = .next t :=
  ⟨State.reset, _, (by unfold State.Ok; constructor <;> decide +kernel), rfl⟩

theorem witness_EveryCommandCompletes_0 : ∃ (c : Instr), c.wellFormed = true :=
  ⟨.vfEnable 1 512, by decide +kernel⟩

theorem witness_EveryCommandCompletes_1 : ∃ (c : Instr), c.wellFormed = false :=
  ⟨.vfEnable 2 512, by decide +kernel⟩

theorem witness_EveryCommandCompletes_2 : ∃ (s : State), s.Safe :=
  ⟨⟨[.vfEnable 1 512], Device.reset⟩, (by unfold State.Safe; decide +kernel)⟩

theorem witness_Frames_0 : ∃ (c : Instr) (s t : State), exec c s = .next t ∧ keepsWork c = true :=
  ⟨.debugNonceRead, on live, _, rfl, by decide +kernel⟩

theorem witness_Frames_1 : ∃ (c : Instr) (s t : State), exec c s = .next t ∧ keepsRegs c = true :=
  ⟨.debugNonceRead, on live, _, rfl, by decide +kernel⟩

theorem witness_Frames_2 : ∃ (d : Device) (as : List Nat) (a : Nat), ((∀ x ∈ as, place x ≠ a ∧ (inDram x = true → d.memKeyAt
    (place x / 64 * 64) ≠ keyOf d x → place x / 64 ≠ a / 64))) :=
  ⟨Device.reset, dram 2, 0, by decide +kernel⟩

theorem witness_Frames_3 : ∃ (d : Device) (as : List Nat) (bs : List Byte) (k a : Nat) (b : Byte), d.Ok ∧ ((∀ x ∈ as, inDram x
    = true → d.memKeyAt (place x / 64 * 64) = keyOf d x)) ∧ (as.map place).Nodup ∧ as[k]? = some a ∧ bs[k]? = some b ∧ inDram
    a = true :=
  ⟨Device.reset, dram 2, [1, 2], 1, 0x1000000001, 2, (by constructor <;> decide +kernel), by decide +kernel⟩
end Sys2Proof.Tests
end

section
/-! PROOFS. What every step keeps: the canonical form of the tables, and the queue of well-formed commands. -/

namespace Sys2Proof.Machine

/-! ### One command -/

/-- Every command is an effect under the check of its operands; the effect does not depend on the queue. -/
theorem exec_eq_perform (c : Instr) : ∃ e, ∀ s, exec c s = perform c.wellFormed e s := by
  cases c <;> exact ⟨_, fun _ => rfl⟩

theorem eq_of_perform_next {ok : Bool} {e : Eff} {s t : State} (h : perform ok e s = .next t) :
    ok = true ∧ t = { s with dev := e.run s.dev } := by
  cases ok with
  | true => exact ⟨rfl, (Host.Outcome.next.inj h).symm⟩
  | false => cases h

/-- A command that answers a next state ran some effect on the block. -/
theorem exec_next {c : Instr} {s t : State} (h : exec c s = .next t) : ∃ e : Eff, t = { s with dev := e.run s.dev } := by
  obtain ⟨e, he⟩ := exec_eq_perform c
  exact ⟨e, (eq_of_perform_next (he s ▸ h)).2⟩

theorem exec_of_wellFormed {c : Instr} (h : c.wellFormed = true) (s : State) : ∃ d, exec c s = .next ⟨s.pending, d⟩ := by
  obtain ⟨e, he⟩ := exec_eq_perform c
  exact ⟨e.run s.dev, by rw [he s, h, perform_true]⟩

theorem exec_of_not_wellFormed {c : Instr} (h : c.wellFormed = false) (s : State) : exec c s = .fault .illFormed := by
  obtain ⟨e, he⟩ := exec_eq_perform c
  rw [he s, h, perform_false]

/-! ### The canonical form -/

theorem Memory.wf_eq (m : List Host.Cell) : Memory.wf m = mapOk dfltMem m := rfl

/-- A single change leaves each table as it was, writes one key of it, or drops keys: the three operations that keep the
canonical form. -/
theorem Device.Ok.apply {d : Device} (h : d.Ok) (u : Upd) : (u.apply d).Ok := by
  obtain ⟨⟩ := h
  simp only [Memory.wf_eq] at *
  constructor
  all_goals
    simp only [Memory.wf_eq,
      Upd.apply_regs, Upd.apply_replies, Upd.apply_mem, Upd.apply_poison, Upd.apply_tmem, Upd.apply_tpoison,
      Upd.apply_acc, Upd.apply_shadow, Upd.apply_cores, Upd.apply_cues, Upd.apply_slots, Upd.apply_switches,
      Upd.apply_patches, Upd.apply_ctxs, Upd.apply_held, Upd.apply_sems, Upd.apply_strBuf, Upd.apply_epochs,
      Upd.apply_heldTiles, Upd.apply_halos, Upd.apply_buckets, Upd.apply_retired, Upd.apply_applied,
      Upd.apply_noTransit, Upd.apply_msix, Upd.apply_ages, Upd.apply_flagged, Upd.apply_drvMap, Upd.apply_lines,
      Upd.apply_xlats, Upd.apply_promo, Upd.apply_promoJob, Upd.apply_promoReads, Upd.apply_frameBusy,
      Upd.apply_dqFailed, Upd.apply_backInval, Upd.apply_groupLost, Upd.apply_training, Upd.apply_groupPoison,
      Upd.apply_rowErrs, Upd.apply_rowRepair, Upd.apply_bankRepairs, Upd.apply_bankCopy, Upd.apply_spareBanks,
      Upd.apply_rings, Upd.apply_rr, Upd.apply_keptMaps, Upd.apply_lookups, Upd.apply_catalog, Upd.apply_slotRefs,
      Upd.apply_lostExt, Upd.apply_disturb, Upd.apply_blockMap, Upd.apply_erases, Upd.apply_badBlocks,
      Upd.apply_streamers, Upd.apply_rootKeys, Upd.apply_colGroups, Upd.apply_moved, Upd.apply_pfxNodes,
      Upd.apply_pfxRefs, Upd.apply_pfxKeys, Upd.apply_pfxLost, Upd.apply_seqTails, Upd.apply_seqService,
      Upd.apply_ports, Upd.apply_egress, Upd.apply_nbrs, Upd.apply_flows, Upd.apply_routes, Upd.apply_linkKeys,
      Upd.apply_linkSeen, Upd.apply_tenantKeys, Upd.apply_colOps, Upd.apply_sessions, Upd.apply_ingPubs,
      Upd.apply_ingReplaced, Upd.apply_ingClear, Upd.apply_clkHeld, Upd.apply_memKey, Upd.apply_secPending,
      Upd.apply_bootFlash, Upd.apply_pciHeld, Upd.apply_dbBind, Upd.apply_halfRead, Upd.apply_halfWrite,
      Upd.apply_sensors, Upd.apply_laneMarks, Upd.apply_marked, Upd.apply_sideband, Upd.apply_flashDead,
      Upd.apply_scrubPos]
    split
    · refine mapOk_mapSet ?_ _ _
      with_reducible assumption
    · refine mapOk_mapDrop ?_ _
      with_reducible assumption
    · with_reducible assumption

theorem Device.Ok.run {d : Device} (h : d.Ok) (e : Eff) : (e.run d).Ok :=
  Eff.run_keeps (fun u _ hd => hd.apply u) e d h

/-- Settles O58: a step runs one effect on the block, and every effect keeps the canonical form. -/
theorem stepKeepsOrder : Obligations.StepKeepsOrder := by
  rintro ⟨q, d⟩ t (hs : d.Ok) h
  cases q with
  | nil =>
    obtain rfl : _ = t := Host.Outcome.next.inj h
    exact hs.run idle
  | cons c rest =>
    obtain ⟨e, rfl⟩ := exec_next (c := c) (s := ⟨rest, d⟩) h
    exact hs.run e

/-! ### The queue -/

/-- A machine none of whose waiting commands is ill-formed takes a step, after which the queue's rest waits. -/
theorem State.Safe.step {s : State} (h : s.Safe) : ∃ t, step s = .next t ∧ t.Safe ∧ t.pending = s.pending.tail := by
  obtain ⟨q, d⟩ := s
  cases q with
  | nil => exact ⟨⟨[], idle.run d⟩, rfl, h, rfl⟩
  | cons c rest =>
    obtain ⟨hc, hrest⟩ := List.forall_mem_cons.1 h
    obtain ⟨d', hd'⟩ := exec_of_wellFormed hc ⟨rest, d⟩
    exact ⟨⟨rest, d'⟩, hd', hrest, rfl⟩

/-- Settles O59: every command is an effect under the check of its operands, so the check alone decides whether it completes. -/
theorem everyCommandCompletes : Obligations.EveryCommandCompletes :=
  ⟨fun _ s h => exec_of_wellFormed h s, fun _ s h => exec_of_not_wellFormed h s, fun _ h => h.step⟩

end Sys2Proof.Machine
end

section
/-! PROOFS. The state after reset. -/

namespace Sys2Proof.Machine

theorem Device.reset_ok : Device.reset.Ok := by
  constructor <;> exact mapOk_nil

/-- A register of the block after reset holds its reset value at every index. -/
theorem reg_reset (r : Reg) {i : Nat} (hi : i < 1048576) : Device.reset.reg r i = (regResetCode r.code).toNat := by
  have hk : regKey r i / 1048576 = r.code := by unfold regKey; omega
  exact congrArg (fun c => (regResetCode c).toNat) hk

/-- The reset value of a register holds in each field the reset value that the tables give it. -/
theorem bits_regResetCode (r : Reg) : ∀ f ∈ r.info.fields, bits (regResetCode r.code).toNat f.hi f.lo = f.reset := by
  cases r <;> decide

/-- Settles O57: all tables of the block are empty, and an unlisted register reads the value its fields give. -/
theorem resetInOrder : Obligations.ResetInOrder := by
  refine ⟨⟨Device.reset_ok, List.forall_mem_nil _, rfl⟩, fun r i f hi hf => ?_⟩
  have hreg : State.reset.dev.reg r i = (regResetCode r.code).toNat := reg_reset r hi
  rw [hreg]
  exact bits_regResetCode r f hf

end Sys2Proof.Machine
end

section
/-! PROOFS. The end of a teardown, and partition resets. -/

namespace Sys2Proof.Machine

/-- A write that acts through a bit to which its requester has no right is denied. -/
theorem run_hostDo_denied {s : State} {rq : Nat} {d : Device} (h : Asks s rq d) {r : Reg} {i b : Nat}
    (hb : bit (mayWrite d rq r i) b = 0) (v : Nat) (act : Eff) :
    (hostDo rq (writeAct rq r i v b act)).run s.dev = denied.run d := by
  simp [run_hostDo h, writeAct, hb]

theorem exec_teardownFinish {s : State} {c : Nat} (hc : c < 1024) (hp : powered s.dev = true) :
    exec (.teardownFinish c) s = .next { s with dev := (teardownFinish c).run s.dev } := by
  simp only [exec, execTeardownFinish, hc, decide_true, perform_true, run_whileIt hp]

theorem run_teardownFinish {d : Device} {c : Nat} (hs : d.fld F.CTX_RUN_state c = 6) (hr : ctxRings d c = []) :
    (teardownFinish c).run d = (finishSteps c).run d := by
  simp [teardownFinish, hs, hr]

theorem run_teardownFinish_waits {d : Device} {c : Nat} (h : d.fld F.CTX_RUN_state c ≠ 6 ∨ ctxRings d c ≠ []) :
    (teardownFinish c).run d = d := by
  have hg : (d.fld F.CTX_RUN_state c == 6 && (ctxRings d c).isEmpty) = false := by
    rcases h with h | h <;> simp [h]
  simp only [teardownFinish, Eff.run_obs, hg, Eff.when_false, Eff.run_skip]

/-- What the reset of an active partition does, on the block it finds as `d` (R412). -/
def partitionResets (d : Device) (p : Nat) : Eff := .all [setF F.PRT_CTRL_state p 2,
  .each ((List.range 1024).filter fun c => ctxPart d c == some p) fun c => .obs fun d =>
    .when (d.fld F.CTX_RUN_state c != 5) (tearWhole c codeOwner),
  resetPartState p, resetPartRegs p, setF F.PRT_CTRL_state p 1]

theorem run_resetPartition {d : Device} {p : Nat} (h : d.fld F.PRT_CTRL_state p = 1) :
    (resetPartition p).run d = (partitionResets d p).run d := by
  simp only [resetPartition, Eff.run_obs, h, beq_self_eq_true, Eff.when_true, partitionResets]

theorem run_resetPartition_inactive {d : Device} {p : Nat} (h : d.fld F.PRT_CTRL_state p ≠ 1) :
    (resetPartition p).run d = d := by
  simp only [resetPartition, Eff.run_obs, beq_eq_false_iff_ne.2 h, Eff.when_false, Eff.run_skip]

theorem exec_partitionReset {s : State} {rq p v : Nat} {d : Device} (hp : p < 32) (h : Writes s rq .PRT_CTRL p v 30 d) :
    exec (.partitionReset rq p v) s = .next { s with dev := (Eff.when (bit v 30 == 1) (resetPartition p)).run d } := by
  simp only [exec, execPartitionReset, h.asks.lt, hp, decide_true, Bool.and_self, perform_true, partitionReset, run_writes h]

theorem exec_partitionReset_denied {s : State} {rq p v : Nat} {d : Device} (hp : p < 32) (h : Asks s rq d)
    (hb : bit (mayWrite d rq .PRT_CTRL p) 30 = 0) :
    exec (.partitionReset rq p v) s = .next { s with dev := denied.run d } := by
  simp only [exec, execPartitionReset, h.lt, hp, decide_true, Bool.and_self, perform_true, partitionReset,
    run_hostDo_denied h hb]

/-- Settles O31: the guard of TEARDOWN_FINISH, and the bit and the state that a PARTITION_RESET goes by. -/
theorem teardownsAndResets : Obligations.TeardownsAndResets := by
  refine ⟨fun s c hc hp => ⟨fun hs hr => ?_, fun h => ?_⟩, fun s d rq p v hp h => ⟨fun hb ha => ?_, fun hn => ?_⟩,
    fun s d rq p v hp h hb => exec_partitionReset_denied hp h hb⟩
  · rw [Does, Gives, exec_teardownFinish hc hp, run_teardownFinish hs hr, finishSteps]
  · rw [Does, Gives, exec_teardownFinish hc hp, run_teardownFinish_waits h, Eff.run_skip]
  · rw [Gives, exec_partitionReset hp h, hb, beq_self_eq_true, Eff.when_true, run_resetPartition ha]
    rfl
  · rw [Gives, exec_partitionReset hp h, Eff.run_skip]
    rcases hn with hb | ha
    · rw [hb, show ((0 : Nat) == 1) = false from rfl, Eff.when_false, Eff.run_skip]
    · rw [Eff.run_when, run_resetPartition_inactive ha, ite_self]

end Sys2Proof.Machine
end

section
/-! PROOFS. Writes of registers (R10, R505, R506). -/

namespace Sys2Proof.Machine

/-! ### Accesses that the device does not answer -/

theorem run_aonDo_silent {d : Device} {rq : Nat} (h : answering d rq = false) (e : Eff) : (aonDo rq e).run d = d := by
  simp only [aonDo, Eff.run_obs, h, Eff.when_false, Eff.run_skip]

theorem run_hostElse_silent {d : Device} {rq : Nat} (h : answering d rq = false) (lost e : Eff) :
    (hostElse rq lost e).run d = d := by
  simp only [hostElse, whileIt, wakeElse, Eff.run_seq, Eff.run_obs, h, Eff.when_false, Eff.run_skip]

theorem run_accessDo_silent {d : Device} {rq : Nat} (h : answering d rq = false) (r : Reg) (lost e : Eff) :
    (accessDo rq r lost e).run d = d := by
  unfold accessDo
  split
  · exact run_aonDo_silent h e
  · exact run_hostElse_silent h lost e

/-! ### Stores by a requester with and without the right -/

theorem run_plainWrite {d : Device} {rq i : Nat} {r : Reg} (h : mayWrite d rq r i ≠ 0) (v : Nat) :
    (plainWrite rq r i v).run d = (setReg r i (regAfter r (mayWrite d rq r i) (d.reg r i) v)).run d := by
  simp only [plainWrite, storeWrite, Eff.run_obs, beq_eq_false_iff_ne.2 h, Bool.false_eq_true, if_false]

theorem run_plainWrite_denied {d : Device} {rq i : Nat} {r : Reg} (h : mayWrite d rq r i = 0) (v : Nat) :
    (plainWrite rq r i v).run d = denied.run d := by
  simp only [plainWrite, Eff.run_obs, h, beq_self_eq_true, if_true]

/-! ### The commands, by what their address names -/

section
variable {s : State} {rq : Nat} (h : rq < 2049)
include h

theorem exec_registerWrite (area : Bool) (a v : Nat) :
    exec (.registerWrite rq area a v) s = .next { s with dev := (registerWrite rq area a v).run s.dev } :=
  perform_ok (decide_eq_true h) _ s

theorem exec_halfWriteLow (area : Bool) (a v : Nat) :
    exec (.halfWriteLow rq area a v) s = .next { s with dev := (halfWriteLow rq area a v).run s.dev } :=
  perform_ok (decide_eq_true h) _ s

theorem exec_halfWriteHigh (area : Bool) (a v : Nat) :
    exec (.halfWriteHigh rq area a v) s = .next { s with dev := (halfWriteHigh rq area a v).run s.dev } :=
  perform_ok (decide_eq_true h) _ s

theorem exec_badSizeAccess (write : Bool) :
    exec (.badSizeAccess rq write) s = .next { s with dev := (badSizeAccess rq write).run s.dev } :=
  perform_ok (decide_eq_true h) _ s

end

section
variable {d : Device} {rq a i : Nat} {area : Bool} {r : Reg}

theorem run_registerWrite (h : writeSpot d rq area a = some (r, i)) (v : Nat) : (registerWrite rq area a v).run d =
    (accessDo rq r .skip (writeReg rq r i (if r.info.wide then v % 2 ^ 64 else v % 2 ^ 32))).run d := by
  simp only [registerWrite, Eff.run_obs, h]

theorem run_registerWrite_hole (h : writeSpot d rq area a = none) (v : Nat) :
    (registerWrite rq area a v).run d = (aonDo rq .skip).run d := by
  simp only [registerWrite, Eff.run_obs, h]

theorem run_halfWriteLow (h : writeSpot d rq area a = some (r, i)) (hw : r.info.wide = true) (v : Nat) :
    (halfWriteLow rq area a v).run d =
      (accessDo rq r .skip (putHalfWrite rq (some (halfKey area a, v % 2 ^ 32)))).run d := by
  simp only [halfWriteLow, Eff.run_obs, h, Option.filter_some, hw, if_true, halfKey]

theorem run_halfWriteLow_hole (h : ((writeSpot d rq area a).filter fun x => x.1.info.wide) = none) (v : Nat) :
    (halfWriteLow rq area a v).run d = (aonDo rq .skip).run d := by
  simp only [halfWriteLow, Eff.run_obs, h]

/-- What is held of a half access to the address commits with the high half; with nothing held, the low half as it stands. -/
theorem run_halfWriteHigh (h : writeSpot d rq area a = some (r, i)) (hw : r.info.wide = true) (v : Nat) :
    (halfWriteHigh rq area a v).run d = (accessDo rq r .skip <| .obs fun d' => writeReg rq r i (v % 2 ^ 32 * 2 ^ 32 +
      (((d.halfWriteAt rq).filter fun x => x.1 == halfKey area a).map (·.2)).getD (d'.reg r i % 2 ^ 32))).run d := by
  simp only [halfWriteHigh, Eff.run_obs, h, Option.filter_some, hw, if_true, halfKey]

theorem run_halfWriteHigh_hole (h : ((writeSpot d rq area a).filter fun x => x.1.info.wide) = none) (v : Nat) :
    (halfWriteHigh rq area a v).run d = (aonDo rq .skip).run d := by
  simp only [halfWriteHigh, Eff.run_obs, h]

end

/-! ### Where the device does not answer -/

section
variable {d : Device} {rq : Nat} (h : answering d rq = false)
include h

theorem run_registerWrite_silent (area : Bool) (a v : Nat) : (registerWrite rq area a v).run d = d := by
  rw [registerWrite, Eff.run_obs]
  split
  · exact run_accessDo_silent h _ _ _
  · exact run_aonDo_silent h _

theorem run_halfWriteLow_silent (area : Bool) (a v : Nat) : (halfWriteLow rq area a v).run d = d := by
  rw [halfWriteLow, Eff.run_obs]
  split
  · exact run_accessDo_silent h _ _ _
  · exact run_aonDo_silent h _

theorem run_halfWriteHigh_silent (area : Bool) (a v : Nat) : (halfWriteHigh rq area a v).run d = d := by
  rw [halfWriteHigh, Eff.run_obs]
  dsimp only
  split
  · exact run_accessDo_silent h _ _ _
  · exact run_aonDo_silent h _

end

/-! ### The commands, served -/

section
variable {s : State} {d : Device} {rq a i : Nat} {area : Bool} {r : Reg}

theorem gives_registerWrite (h : AsksFor s rq r d) (hs : writeSpot s.dev rq area a = some (r, i)) (v : Nat) :
    Gives (.registerWrite rq area a v) s d (writeReg rq r i (if r.info.wide then v % 2 ^ 64 else v % 2 ^ 32)) := by
  rw [Gives, exec_registerWrite h.lt, run_registerWrite hs, run_accessDo h]

theorem gives_halfWriteHigh_held {low : Nat} (h : AsksFor s rq r d) (hs : writeSpot s.dev rq area a = some (r, i))
    (hw : r.info.wide = true) (hl : s.dev.halfWriteAt rq = some (halfKey area a, low)) (v : Nat) :
    Gives (.halfWriteHigh rq area a v) s d (writeReg rq r i (v % 2 ^ 32 * 2 ^ 32 + low)) := by
  rw [Gives, exec_halfWriteHigh h.lt, run_halfWriteHigh hs hw, run_accessDo h, Eff.run_obs, hl]
  simp only [Option.filter_some, beq_self_eq_true, if_true, Option.map_some, Option.getD_some]

theorem gives_halfWriteHigh_alone (h : AsksFor s rq r d) (hs : writeSpot s.dev rq area a = some (r, i))
    (hw : r.info.wide = true) (hl : ((s.dev.halfWriteAt rq).filter fun h => h.1 == halfKey area a) = none) (v : Nat) :
    Gives (.halfWriteHigh rq area a v) s d (writeReg rq r i (v % 2 ^ 32 * 2 ^ 32 + d.reg r i % 2 ^ 32)) := by
  rw [Gives, exec_halfWriteHigh h.lt, run_halfWriteHigh hs hw, run_accessDo h, Eff.run_obs, hl, Option.map_none,
    Option.getD_none]

/-- A register without a rule of its own takes what R10 says of each field. -/
theorem Gives.plain {c : Instr} {v : Nat} (h : Gives c s d (writeReg rq r i v)) (hp : plainReg r = true)
    (hm : mayWrite d rq r i ≠ 0) : Gives c s d (setReg r i (regAfter r (mayWrite d rq r i) (d.reg r i) v)) := by
  rwa [Gives, writeReg_plain hp, run_plainWrite hm] at h

theorem Gives.plain_denied {c : Instr} {v : Nat} (h : Gives c s d (writeReg rq r i v)) (hp : plainReg r = true)
    (hm : mayWrite d rq r i = 0) : Gives c s d denied := by
  rwa [Gives, writeReg_plain hp, run_plainWrite_denied hm] at h

end

/-- Settles O1: the register that the address names decides who serves the access, and `writeReg` what it does. -/
theorem registerWrites : Obligations.RegisterWrites := by
  refine ⟨fun s d rq a v i area r hp h hs hm => (gives_registerWrite h hs v).plain hp hm,
    fun s d rq a v i area r hp h hs hm => (gives_registerWrite h hs v).plain_denied hp hm,
    fun s d rq a v i area r h hs => gives_registerWrite h hs v, fun s d rq a v area h hs => ?_,
    fun s d rq a v i area r h hs hw => ?_, fun s d rq a v area h hs => ⟨?_, ?_⟩,
    fun s d rq a v low i area r h hs hw hl => gives_halfWriteHigh_held h hs hw hl v,
    fun s d rq a v low i area r hp h hs hw hl hm => (gives_halfWriteHigh_held h hs hw hl v).plain hp hm,
    fun s d rq a v i area r h hs hw hl => gives_halfWriteHigh_alone h hs hw hl v, fun s d rq write h => ?_,
    fun s rq a v area write hr hn => ⟨?_, ?_, ?_, ?_⟩⟩
  · rw [Gives, exec_registerWrite h.lt, run_registerWrite_hole hs, run_aonDo h]
  · rw [Gives, exec_halfWriteLow h.lt, run_halfWriteLow hs hw, run_accessDo h]
  · rw [Gives, exec_halfWriteLow h.lt, run_halfWriteLow_hole hs, run_aonDo h]
  · rw [Gives, exec_halfWriteHigh h.lt, run_halfWriteHigh_hole hs, run_aonDo h]
  · rw [Gives, exec_badSizeAccess h.lt, badSizeAccess, run_aonDo h, denied]
  · rw [Does, Gives, exec_registerWrite hr, run_registerWrite_silent hn, Eff.run_skip]
  · rw [Does, Gives, exec_halfWriteLow hr, run_halfWriteLow_silent hn, Eff.run_skip]
  · rw [Does, Gives, exec_halfWriteHigh hr, run_halfWriteHigh_silent hn, Eff.run_skip]
  · rw [Does, Gives, exec_badSizeAccess hr, badSizeAccess, run_aonDo_silent hn, Eff.run_skip]

end Sys2Proof.Machine
end

section
/-! PROOFS. Reads of registers (R10, R485, R493, R505, R506). -/

namespace Sys2Proof.Machine

/-- In recovery mode the steward's port shows the recovery interface, and not the registers (R485). -/
def showsRecovery (d : Device) (rq : Nat) : Bool := d.off == 0 && rq == 1 && d.fld F.STW_BOOT_recovery 0 == 1

/-! ### The register a read reaches -/

section
variable {d : Device} {rq i : Nat} {r : Reg} {ok : Bool}

/-- A requester with the right reads the register, and the read-clear fields among the bits read clear. -/
theorem run_readReg (h : (ok || mayRead d rq r i) = true) (hi lo : Nat) (k : Nat → Eff) : (readReg rq r i ok hi lo k).run d =
    (Eff.all [putFree (d.free + 1), k (readValue d rq r i (Config.freeWord d.free).toNat), clearRc r i hi lo]).run d := by
  simp only [readReg, withFree, Eff.run_obs, h, if_true, Eff.run_seq, Eff.run_all_cons, Eff.run_all_nil]

theorem run_readReg_denied (h : (ok || mayRead d rq r i) = false) (hi lo : Nat) (k : Nat → Eff) :
    (readReg rq r i ok hi lo k).run d = (Eff.seq denied (k 0)).run d := by
  simp only [readReg, Eff.run_obs, h, Bool.false_eq_true, if_false]

end

/-! ### The commands, by what their address names -/

section
variable {s : State} {rq : Nat} (h : rq < 2049)
include h

theorem exec_registerReadClear (area : Bool) (a : Nat) {size : Nat} (hs : size < 3) :
    exec (.registerReadClear rq area a size) s = .next { s with dev := (registerReadClear rq area a size).run s.dev } :=
  perform_ok (Bool.and_eq_true_iff.2 ⟨decide_eq_true h, decide_eq_true hs⟩) _ s

theorem exec_halfReadLow (area : Bool) (a : Nat) :
    exec (.halfReadLow rq area a) s = .next { s with dev := (halfReadLow rq area a).run s.dev } :=
  perform_ok (decide_eq_true h) _ s

theorem exec_halfReadHigh (area : Bool) (a : Nat) :
    exec (.halfReadHigh rq area a) s = .next { s with dev := (halfReadHigh rq area a).run s.dev } :=
  perform_ok (decide_eq_true h) _ s

end

/-- A read of the recovery interface. -/
theorem run_read_recovery {d : Device} {rq : Nat} (h : showsRecovery d rq = true) (area : Bool) (a size : Nat) :
    (registerReadClear rq area a size).run d =
      (Eff.seq (putFree (d.free + 1)) (reply rq (recoveryRead d a (Config.freeWord d.free).toNat))).run d := by
  rw [showsRecovery] at h
  simp only [registerReadClear, withFree, Eff.run_obs, h, if_true]

section
variable {d : Device} {rq a i : Nat} {area ok : Bool} {r : Reg} (hr : showsRecovery d rq = false)
include hr

/-- A slot of the doorbell page (R493, R494). -/
theorem run_read_page {c : Nat} (ha : a < 0x1000) (hc : ctxOfRq rq = some c) (size : Nat) :
    (registerReadClear rq true a size).run d = (hostElse rq (lostRead rq) <| .obs fun d => withFree fun f => reply rq
      (if a % 16 == 0 && (ctxPart d c).isSome then slotValue d c (a / 16) f else 0)).run d := by
  rw [showsRecovery] at hr
  simp only [registerReadClear, Eff.run_obs, hr, ha, hc, decide_true, Bool.and_self, Bool.false_eq_true, if_true, if_false]

theorem run_read_route {k : Nat} (hs : readSpot d rq false a = none) (hk : routeSpot a = some k) :
    (registerReadClear rq false a 0).run d = (hostElse rq (lostRead rq) <| .obs fun d =>
      if isSteward rq || pfOrOwner d rq then reply rq (d.routesAt k).toNat else .seq denied (reply rq 0)).run d := by
  rw [showsRecovery] at hr
  simp only [registerReadClear, Eff.run_obs, hr, hs, hk, beq_self_eq_true, Bool.false_and, Bool.false_eq_true, if_true, if_false]

variable (ha : (area && a < 0x1000) = false)
include ha

theorem run_read_whole (hs : readSpot d rq area a = some ((r, i), ok)) : (registerReadClear rq area a 0).run d =
    (accessDo rq r (lostRead rq) (readReg rq r i ok 63 0 (reply rq))).run d := by
  rw [showsRecovery] at hr
  simp only [registerReadClear, Eff.run_obs, hr, ha, hs, beq_self_eq_true, Bool.false_eq_true, if_true, if_false]

theorem run_read_whole_hole (hs : readSpot d rq area a = none) (hk : area = true ∨ routeSpot a = none) :
    (registerReadClear rq area a 0).run d = (aonDo rq (reply rq 0)).run d := by
  have hn : (if area = true then none else routeSpot a) = none := by
    rcases hk with rfl | hk
    · rw [if_pos rfl]
    · rw [hk, ite_self]
  rw [showsRecovery] at hr
  simp only [registerReadClear, Eff.run_obs, hr, ha, hs, hn, beq_self_eq_true, Bool.false_eq_true, if_true, if_false]

theorem run_read_narrow {size : Nat} (hz : size = 1 ∨ size = 2) {high : Bool}
    (hs : wordSpot d rq area (a / 4 * 4) = some (((r, i), ok), high)) : (registerReadClear rq area a size).run d =
    (accessDo rq r (lostRead rq) <| readReg rq r i ok (if high then 63 else 31) (if high then 32 else 0) fun v =>
      reply rq (v / 2 ^ ((if high then 32 else 0) + 8 * (a % 4)) % 2 ^ (8 * size))).run d := by
  have h0 : (size == 0) = false := beq_eq_false_iff_ne.2 (by omega)
  rw [showsRecovery] at hr
  simp only [registerReadClear, Eff.run_obs, hr, ha, hs, h0, Bool.false_eq_true, if_false]

theorem run_read_narrow_hole {size : Nat} (hz : size = 1 ∨ size = 2) (hs : wordSpot d rq area (a / 4 * 4) = none) :
    (registerReadClear rq area a size).run d = (aonDo rq (reply rq 0)).run d := by
  have h0 : (size == 0) = false := beq_eq_false_iff_ne.2 (by omega)
  rw [showsRecovery] at hr
  simp only [registerReadClear, Eff.run_obs, hr, ha, hs, h0, Bool.false_eq_true, if_false]

end

section
variable {d : Device} {rq a i : Nat} {area ok : Bool} {r : Reg}

theorem run_halfReadLow (h : readSpot d rq area a = some ((r, i), ok)) (hw : r.info.wide = true) :
    (halfReadLow rq area a).run d = (accessDo rq r (lostRead rq) <| readReg rq r i ok 63 0 fun v => .seq
      (reply rq (v % 2 ^ 32)) (putHalfRead rq (some (halfKey area a, v / 2 ^ 32)))).run d := by
  simp only [halfReadLow, Eff.run_obs, h, Option.filter_some, hw, if_true, halfKey]

theorem run_halfReadLow_hole (h : ((readSpot d rq area a).filter fun x => x.1.1.info.wide) = none) :
    (halfReadLow rq area a).run d = (aonDo rq (reply rq 0)).run d := by
  simp only [halfReadLow, Eff.run_obs, h]

theorem run_halfReadHigh_held {high : Nat} (h : readSpot d rq area a = some ((r, i), ok)) (hw : r.info.wide = true)
    (hh : d.halfReadAt rq = some (halfKey area a, high)) :
    (halfReadHigh rq area a).run d = (accessDo rq r (lostRead rq) (reply rq high)).run d := by
  rw [halfKey] at hh
  simp only [halfReadHigh, Eff.run_obs, h, hh, Option.filter_some, hw, beq_self_eq_true, if_true]

theorem run_halfReadHigh_alone (h : readSpot d rq area a = some ((r, i), ok)) (hw : r.info.wide = true)
    (hh : ((d.halfReadAt rq).filter fun x => x.1 == halfKey area a) = none) : (halfReadHigh rq area a).run d =
    (accessDo rq r (lostRead rq) <| readReg rq r i ok 63 32 fun v => reply rq (v / 2 ^ 32)).run d := by
  simp only [halfKey] at hh
  simp only [halfReadHigh, Eff.run_obs, h, hh, Option.filter_some, hw, if_true]

theorem run_halfReadHigh_hole (h : ((readSpot d rq area a).filter fun x => x.1.1.info.wide) = none) :
    (halfReadHigh rq area a).run d = (aonDo rq (reply rq 0)).run d := by
  simp only [halfReadHigh, Eff.run_obs, h]

end

/-! ### Where the device does not answer -/

section
variable {d : Device} {rq : Nat} (h : answering d rq = false)
include h

theorem run_registerReadClear_silent (hr : showsRecovery d rq = false) (area : Bool) (a size : Nat) :
    (registerReadClear rq area a size).run d = d := by
  rw [showsRecovery] at hr
  simp only [registerReadClear, Eff.run_obs, hr, Bool.false_eq_true, if_false]
  split
  · split
    · exact run_hostElse_silent h _ _
    · exact run_aonDo_silent h _
  · split
    · split
      · exact run_accessDo_silent h _ _ _
      · exact run_hostElse_silent h _ _
      · exact run_aonDo_silent h _
    · split
      · exact run_accessDo_silent h _ _ _
      · exact run_aonDo_silent h _

theorem run_halfReadLow_silent (area : Bool) (a : Nat) : (halfReadLow rq area a).run d = d := by
  rw [halfReadLow, Eff.run_obs]
  split
  · exact run_accessDo_silent h _ _ _
  · exact run_aonDo_silent h _

theorem run_halfReadHigh_silent (area : Bool) (a : Nat) : (halfReadHigh rq area a).run d = d := by
  rw [halfReadHigh, Eff.run_obs]
  dsimp only
  split
  · exact run_accessDo_silent h _ _ _
  · exact run_accessDo_silent h _ _ _
  · exact run_aonDo_silent h _

end

/-! ### The commands, served -/

section
variable {s : State} {d : Device} {rq a i : Nat} {area ok : Bool} {r : Reg}

theorem gives_read_whole (h : AsksFor s rq r d) (ha : (area && a < 0x1000) = false) (hr : showsRecovery s.dev rq = false)
    (hs : readSpot s.dev rq area a = some ((r, i), ok)) :
    Gives (.registerReadClear rq area a 0) s d (readReg rq r i ok 63 0 (reply rq)) := by
  rw [Gives, exec_registerReadClear h.lt area a (by omega), run_read_whole hr ha hs, run_accessDo h]

theorem gives_read_narrow (h : AsksFor s rq r d) (ha : (area && a < 0x1000) = false) (hr : showsRecovery s.dev rq = false)
    {size : Nat} (hz : size = 1 ∨ size = 2) {high : Bool} (hs : wordSpot s.dev rq area (a / 4 * 4) = some (((r, i), ok), high)) :
    Gives (.registerReadClear rq area a size) s d (readReg rq r i ok (if high then 63 else 31) (if high then 32 else 0) fun v =>
      reply rq (v / 2 ^ ((if high then 32 else 0) + 8 * (a % 4)) % 2 ^ (8 * size))) := by
  rw [Gives, exec_registerReadClear h.lt area a (by omega), run_read_narrow hr ha hz hs, run_accessDo h]

theorem gives_read_hole (h : AsksAon s rq d) (ha : (area && a < 0x1000) = false) (hr : showsRecovery s.dev rq = false)
    {size : Nat} (hs : (size = 0 ∧ readSpot s.dev rq area a = none ∧ (area = true ∨ routeSpot a = none)) ∨
      ((size = 1 ∨ size = 2) ∧ wordSpot s.dev rq area (a / 4 * 4) = none)) :
    Gives (.registerReadClear rq area a size) s d (reply rq 0) := by
  rcases hs with ⟨rfl, hs, hk⟩ | ⟨hz, hs⟩
  · rw [Gives, exec_registerReadClear h.lt area a (by omega), run_read_whole_hole hr ha hs hk, run_aonDo h]
  · rw [Gives, exec_registerReadClear h.lt area a (by omega), run_read_narrow_hole hr ha hz hs, run_aonDo h]

theorem gives_halfReadLow (h : AsksFor s rq r d) (hs : readSpot s.dev rq area a = some ((r, i), ok))
    (hw : r.info.wide = true) : Gives (.halfReadLow rq area a) s d (readReg rq r i ok 63 0 fun v => .seq
      (reply rq (v % 2 ^ 32)) (putHalfRead rq (some (halfKey area a, v / 2 ^ 32)))) := by
  rw [Gives, exec_halfReadLow h.lt, run_halfReadLow hs hw, run_accessDo h]

theorem gives_halfReadHigh_alone (h : AsksFor s rq r d) (hs : readSpot s.dev rq area a = some ((r, i), ok))
    (hw : r.info.wide = true) (hh : ((s.dev.halfReadAt rq).filter fun x => x.1 == halfKey area a) = none) :
    Gives (.halfReadHigh rq area a) s d (readReg rq r i ok 63 32 fun v => reply rq (v / 2 ^ 32)) := by
  rw [Gives, exec_halfReadHigh h.lt, run_halfReadHigh_alone hs hw hh, run_accessDo h]

/-- A read without the right to the register is denied, and returns what `k` makes of 0. -/
theorem Gives.read_denied {c : Instr} {hi lo : Nat} {k : Nat → Eff} (h : Gives c s d (readReg rq r i ok hi lo k))
    (hm : (ok || mayRead d rq r i) = false) : Gives c s d (.seq denied (k 0)) := by
  rwa [Gives, run_readReg_denied hm] at h

theorem Gives.read {c : Instr} {hi lo : Nat} {k : Nat → Eff} (h : Gives c s d (readReg rq r i ok hi lo k))
    (hm : (ok || mayRead d rq r i) = true) : Gives c s d (.all [putFree (d.free + 1),
      k (readValue d rq r i (Config.freeWord d.free).toNat), clearRc r i hi lo]) := by
  rwa [Gives, run_readReg hm] at h

end

/-- Settles O2: what the address names decides who serves the read, and the right to the register what it returns. -/
theorem registerReads : Obligations.RegisterReads := by
  refine ⟨fun s d rq a i area ok r h ha hr hs hm => (gives_read_whole h ha hr hs).read hm,
    fun s d rq a size i area ok high r h ha hr hz hs hm => ?_, fun s d rq a size i area high r h ha hr hs hm => ?_,
    fun s d rq a size area h ha hr hs => gives_read_hole h ha hr hs,
    fun s d rq a k h hr hs hk => ⟨fun hm => ?_, fun hm => ?_⟩, fun s d rq a size c h hz ha hc hr => ?_,
    fun s d rq a i area ok r h hs hw => ⟨fun hm => (gives_halfReadLow h hs hw).read hm, fun hm => ?_⟩,
    fun s d rq a i high area ok r h hs hw hh => ?_,
    fun s d rq a i area ok r h hs hw hh => ⟨fun hm => (gives_halfReadHigh_alone h hs hw hh).read hm, fun hm => ?_⟩,
    fun s d rq a area h hs => ⟨?_, ?_⟩, fun s a size area hz h0 hb => ?_,
    fun s rq a size area hq hz hn hr => ⟨?_, ?_, ?_⟩⟩
  · have hg := (gives_read_narrow h ha hr hz hs).read hm
    cases high <;> exact hg
  · have hm' : (false || mayRead d rq r i) = false := hm
    rcases hs with ⟨rfl, hs⟩ | ⟨hz, hs⟩
    · exact (gives_read_whole h ha hr hs).read_denied hm'
    · have hg := (gives_read_narrow h ha hr hz hs).read_denied hm'
      rwa [Nat.zero_div, Nat.zero_mod] at hg
  · rw [Gives, exec_registerReadClear h.lt _ _ (by omega), run_read_route hr hs hk, run_hostElse h, Eff.run_obs, hm, if_pos rfl]
  · rw [Gives, exec_registerReadClear h.lt _ _ (by omega), run_read_route hr hs hk, run_hostElse h, Eff.run_obs, hm]
    rfl
  · rw [Gives, exec_registerReadClear h.lt _ _ hz, run_read_page hr ha hc, run_hostElse h, Eff.run_obs, withFree, Eff.run_obs]
  · exact (gives_halfReadLow h hs hw).read_denied hm
  · rw [Gives, exec_halfReadHigh h.lt, run_halfReadHigh_held hs hw hh, run_accessDo h]
  · have hg := (gives_halfReadHigh_alone h hs hw hh).read_denied hm
    rwa [Nat.zero_div] at hg
  · rw [Gives, exec_halfReadLow h.lt, run_halfReadLow_hole hs, run_aonDo h]
  · rw [Gives, exec_halfReadHigh h.lt, run_halfReadHigh_hole hs, run_aonDo h]
  · have hr : showsRecovery s.dev 1 = true := by rw [showsRecovery, h0, hb]; rfl
    rw [Gives, exec_registerReadClear (by omega) _ _ hz, run_read_recovery hr]
  · rw [Does, Gives, exec_registerReadClear hq _ _ hz, run_registerReadClear_silent hn hr, Eff.run_skip]
  · rw [Does, Gives, exec_halfReadLow hq, run_halfReadLow_silent hn, Eff.run_skip]
  · rw [Does, Gives, exec_halfReadHigh hq, run_halfReadHigh_silent hn, Eff.run_skip]

end Sys2Proof.Machine
end

section
/-! PROOFS. The changes that effects make, by kind. -/

namespace Sys2Proof.Machine

@[simp] theorem Eff.makes_skip {P : Upd → Prop} : Eff.skip.Makes P := trivial
@[simp] theorem Eff.makes_upd {P : Upd → Prop} (u : Upd) : (Eff.upd u).Makes P ↔ P u := Iff.rfl
@[simp] theorem Eff.makes_seq {P : Upd → Prop} (a b : Eff) : (Eff.seq a b).Makes P ↔ a.Makes P ∧ b.Makes P := Iff.rfl
@[simp] theorem Eff.makes_obs {P : Upd → Prop} (k : Device → Eff) : (Eff.obs k).Makes P ↔ ∀ d, (k d).Makes P := Iff.rfl
@[simp] theorem Eff.makes_all_nil {P : Upd → Prop} : (Eff.all []).Makes P := trivial
@[simp] theorem Eff.makes_all_cons {P : Upd → Prop} (e : Eff) (es : List Eff) :
    (Eff.all (e :: es)).Makes P ↔ e.Makes P ∧ (Eff.all es).Makes P := Iff.rfl
@[simp] theorem Eff.makes_each_iff {α : Type} {P : Upd → Prop} (xs : List α) (f : α → Eff) :
    (Eff.each xs f).Makes P ↔ ∀ x ∈ xs, (f x).Makes P := Eff.makes_each
@[simp] theorem Eff.makes_when_iff {P : Upd → Prop} (c : Bool) (e : Eff) :
    (Eff.when c e).Makes P ↔ (c = true → e.Makes P) := Eff.makes_when
@[simp] theorem Eff.makes_ite {P : Upd → Prop} (c : Prop) [Decidable c] (a b : Eff) :
    (if c then a else b).Makes P ↔ (c → a.Makes P) ∧ (¬c → b.Makes P) := by
  by_cases h : c <;> simp [h]

end Sys2Proof.Machine
end

section
/-! PROOFS. What a store of bytes changes and leaves alone (R6, R223, R240, R467). -/

namespace Sys2Proof.Machine

/-! ### Kinds of changes -/

/-- The changes that a store makes beside bytes and the keys they are held under: lines of floors, and poison. -/
def Upd.BesideBytes : Upd → Prop
  | .lines _ _ | .poison _ _ => True
  | _ => False

/-- The changes that a store of bytes makes. -/
def Upd.OfStore : Upd → Prop
  | .mem _ _ | .memKey _ _ => True
  | u => u.BesideBytes

theorem Upd.BesideBytes.mem {u : Upd} (h : u.BesideBytes) (d : Device) : (u.apply d).mem = d.mem := by
  cases u with
  | lines | poison => rfl
  | _ => cases h

theorem Upd.BesideBytes.memKey {u : Upd} (h : u.BesideBytes) (d : Device) : (u.apply d).memKey = d.memKey := by
  cases u with
  | lines | poison => rfl
  | _ => cases h

theorem Upd.OfStore.tmem {u : Upd} (h : u.OfStore) (d : Device) : (u.apply d).tmem = d.tmem := by
  cases u with
  | mem | memKey | lines | poison => rfl
  | _ => cases h

theorem Upd.OfStore.tenantKeys {u : Upd} (h : u.OfStore) (d : Device) : (u.apply d).tenantKeys = d.tenantKeys := by
  cases u with
  | mem | memKey | lines | poison => rfl
  | _ => cases h

theorem Upd.BesideBytes.ofStore {u : Upd} (h : u.BesideBytes) : u.OfStore := by
  cases u with
  | lines | poison => trivial
  | _ => cases h

theorem dropCopies_makes (as : List Nat) : (dropCopies as).Makes Upd.BesideBytes := by
  simp [dropCopies, putLines, Upd.BesideBytes]

theorem clearPoison_makes (as : List Nat) : (clearPoison as).Makes Upd.BesideBytes := by
  simp [clearPoison, setPoison, putPoison, Upd.BesideBytes]

theorem putByte_makes (a : Nat) (b : Byte) : (putByte a b).Makes Upd.OfStore := by
  simp [putByte, putMem, putMemKey, Upd.OfStore]

theorem wrAt_makes (as : List Nat) (bs : List Byte) : (wrAt as bs).Makes Upd.OfStore := by
  induction as generalizing bs with
  | nil => trivial
  | cons a as ih =>
    cases bs with
    | nil => trivial
    | cons b bs => exact ⟨putByte_makes a b, ih bs⟩

theorem store_makes (as : List Nat) (bs : List Byte) : (store as bs).Makes Upd.OfStore :=
  ⟨⟨wrAt_makes as bs, Eff.Makes.mono (fun _ => Upd.BesideBytes.ofStore) _ (dropCopies_makes as)⟩,
    Eff.Makes.mono (fun _ => Upd.BesideBytes.ofStore) _ (clearPoison_makes as)⟩

/-- The keys of accesses come from the tenant slots, which a store leaves alone. -/
theorem keyOf_run {e : Eff} (he : e.Makes Upd.OfStore) (d : Device) (a : Nat) : keyOf (e.run d) a = keyOf d a := by
  have ht : (e.run d).tenantKeys = d.tenantKeys := Eff.run_frame (fun _ d hu => hu.tenantKeys d) e he d
  simp only [keyOf, slotKey, Device.tenantKeysAt, ht]

theorem mem_run_store (as : List Nat) (bs : List Byte) (d : Device) : ((store as bs).run d).mem = ((wrAt as bs).run d).mem := by
  simp only [store, write, Eff.run_seq]
  rw [Eff.run_frame (f := (·.mem)) (fun _ d hu => Upd.BesideBytes.mem hu d) _ (clearPoison_makes as),
    Eff.run_frame (f := (·.mem)) (fun _ d hu => Upd.BesideBytes.mem hu d) _ (dropCopies_makes as)]

theorem memKey_run_store (as : List Nat) (bs : List Byte) (d : Device) :
    ((store as bs).run d).memKey = ((wrAt as bs).run d).memKey := by
  simp only [store, write, Eff.run_seq]
  rw [Eff.run_frame (f := (·.memKey)) (fun _ d hu => Upd.BesideBytes.memKey hu d) _ (clearPoison_makes as),
    Eff.run_frame (f := (·.memKey)) (fun _ d hu => Upd.BesideBytes.memKey hu d) _ (dropCopies_makes as)]

/-! ### One byte -/

/-- A write of the byte at `x` encrypts its unit again: the unit is held under another key than the access's (R467). -/
def rekeys (d : Device) (x : Nat) : Bool := inDram x && d.memKeyAt (place x / 64 * 64) != keyOf d x

theorem rekeys_eq_true {d : Device} {x : Nat} :
    rekeys d x = true ↔ inDram x = true ∧ d.memKeyAt (place x / 64 * 64) ≠ keyOf d x := by
  simp [rekeys]

theorem run_putByte_plain {d : Device} {x : Nat} (h : rekeys d x = false) (b : Byte) :
    (putByte x b).run d = (putMem (place x) b).run d := by
  rw [rekeys] at h
  simp only [putByte, Eff.run_obs, h, Bool.false_eq_true, if_false]

theorem run_putByte_rekeys {d : Device} {x : Nat} (h : rekeys d x = true) (b : Byte) : (putByte x b).run d =
    (Eff.all [.each (List.range 64) (fun i => putMem (place x / 64 * 64 + i)
        ((unitView d (place x / 64 * 64) (keyOf d x)).getD i 0)),
      putMemKey (place x / 64 * 64) (keyOf d x), putMem (place x) b]).run d := by
  rw [rekeys] at h
  simp only [putByte, Eff.run_obs, h, if_true]

theorem memAt_putMem_ne (d : Device) {x a : Nat} (b : Byte) (h : a ≠ x) : ((putMem x b).run d).memAt a = d.memAt a :=
  mapGet_mapSet_ne _ _ h

theorem memAt_putMem_self {d : Device} (h : d.Ok) (x : Nat) (b : Byte) : ((putMem x b).run d).memAt x = b :=
  mapGet_mapSet_self h.mem _ _

theorem memAt_putMemKey (d : Device) (u : Nat) (k : List Byte) (a : Nat) : ((putMemKey u k).run d).memAt a = d.memAt a := rfl

/-- Writes of the bytes of a unit leave the bytes of other units alone. -/
theorem memAt_putUnit (is : List Nat) (hi : ∀ i ∈ is, i < 64) (u a : Nat) (hu : u ≠ a / 64) (v : Nat → Byte) (d : Device) :
    ((Eff.each is fun i => putMem (u * 64 + i) (v i)).run d).memAt a = d.memAt a := by
  induction is generalizing d with
  | nil => rfl
  | cons i is ih =>
    have hlt : i < 64 := hi i List.mem_cons_self
    rw [Eff.run_each_cons, ih (fun j hj => hi j (List.mem_cons_of_mem _ hj)), memAt_putMem_ne _ _ (by omega)]

theorem memAt_putByte {d : Device} {x a : Nat} (b : Byte) (hx : place x ≠ a) (hk : rekeys d x = true → place x / 64 ≠ a / 64) :
    ((putByte x b).run d).memAt a = d.memAt a := by
  cases hr : rekeys d x with
  | false => rw [run_putByte_plain hr, memAt_putMem_ne _ _ hx.symm]
  | true =>
    rw [run_putByte_rekeys hr]
    simp only [Eff.run_all_cons, Eff.run_all_nil]
    rw [memAt_putMem_ne _ _ hx.symm, memAt_putMemKey]
    exact memAt_putUnit _ (fun i hi => List.mem_range.1 hi) _ a (hk hr) _ d

theorem memKeyAt_putByte {d : Device} {x u : Nat} (b : Byte) (hk : rekeys d x = true → place x / 64 ≠ u) :
    ((putByte x b).run d).memKeyAt (u * 64) = d.memKeyAt (u * 64) := by
  cases hr : rekeys d x with
  | false => rw [run_putByte_plain hr]; rfl
  | true =>
    have hne : u * 64 ≠ place x / 64 * 64 := fun e => hk hr (Nat.eq_of_mul_eq_mul_right (by decide) e.symm)
    have hunit (is : List Nat) (v : Nat → Byte) (d : Device) :
        ((Eff.each is fun i => putMem (place x / 64 * 64 + i) (v i)).run d).memKey = d.memKey := by
      induction is generalizing d with
      | nil => rfl
      | cons i is ih => rw [Eff.run_each_cons, ih]; rfl
    rw [run_putByte_rekeys hr]
    simp only [Eff.run_all_cons, Eff.run_all_nil]
    calc (mapGet dfltMemKey (mapSet dfltMemKey _ _ _) (u * 64))
        = mapGet dfltMemKey _ (u * 64) := mapGet_mapSet_ne _ _ hne
      _ = d.memKeyAt (u * 64) := by rw [hunit]; rfl

/-! ### A run of bytes -/

/-- A write at `x` reaches neither the byte at `a` nor, by encrypting its unit again, the unit of `a`. -/
def Misses (d : Device) (a x : Nat) : Prop := place x ≠ a ∧ (rekeys d x = true → place x / 64 ≠ a / 64)

/-- Whether a write misses a byte is not changed by a write that misses it. -/
theorem Misses.after_putByte {d : Device} {a x y : Nat} (hy : Misses d a y) (hx : Misses d a x) (b : Byte) :
    Misses ((putByte x b).run d) a y := by
  refine ⟨hy.1, fun hr hu => ?_⟩
  have hkey : ((putByte x b).run d).memKeyAt (place y / 64 * 64) = d.memKeyAt (place y / 64 * 64) :=
    memKeyAt_putByte b fun h => hu ▸ hx.2 h
  rw [rekeys, hkey, keyOf_run (putByte_makes x b)] at hr
  exact hy.2 hr hu

theorem memAt_wrAt {as : List Nat} {a : Nat} (bs : List Byte) {d : Device} (h : ∀ x ∈ as, Misses d a x) :
    ((wrAt as bs).run d).memAt a = d.memAt a := by
  induction as generalizing bs d with
  | nil => rfl
  | cons x as ih =>
    obtain ⟨hx, has⟩ := List.forall_mem_cons.1 h
    cases bs with
    | nil => rfl
    | cons b bs =>
      rw [wrAt, Eff.run_seq, ih bs fun y hy => (has y hy).after_putByte hx b, memAt_putByte b hx.1 hx.2]

/-- Where every unit is held under the key of the access, a run of writes encrypts none again. -/
theorem memKey_wrAt {as : List Nat} (bs : List Byte) {d : Device} (h : ∀ x ∈ as, rekeys d x = false) :
    ((wrAt as bs).run d).memKey = d.memKey := by
  induction as generalizing bs d with
  | nil => rfl
  | cons x as ih =>
    obtain ⟨hx, has⟩ := List.forall_mem_cons.1 h
    cases bs with
    | nil => rfl
    | cons b bs =>
      rw [wrAt, Eff.run_seq, run_putByte_plain hx]
      exact ih (d := (putMem (place x) b).run d) bs has

theorem memAt_wrAt_self {as : List Nat} {bs : List Byte} {k a : Nat} {b : Byte} {d : Device} (hd : d.Ok)
    (h : ∀ x ∈ as, rekeys d x = false) (hn : (as.map place).Nodup) (ha : as[k]? = some a) (hb : bs[k]? = some b) :
    ((wrAt as bs).run d).memAt (place a) = b := by
  induction as generalizing bs k d with
  | nil => cases ha
  | cons x as ih =>
    obtain ⟨hx, has⟩ := List.forall_mem_cons.1 h
    obtain ⟨hnx, hnas⟩ := List.nodup_cons.1 hn
    cases bs with
    | nil => cases hb
    | cons c bs =>
      rw [wrAt, Eff.run_seq, run_putByte_plain hx]
      cases k with
      | succ k => exact ih (hd.run _) has hnas ha hb
      | zero =>
        obtain rfl : x = a := Option.some.inj ha
        obtain rfl : c = b := Option.some.inj hb
        have hmiss : ∀ y ∈ as, Misses ((putMem (place x) c).run d) (place x) y := fun y hy =>
          ⟨fun e => hnx (e ▸ List.mem_map_of_mem hy), fun hr => absurd ((has y hy).symm.trans hr) Bool.false_ne_true⟩
        rw [memAt_wrAt bs hmiss, memAt_putMem_self hd]

/-! ### A store -/

theorem memAt_store_other {d : Device} {as : List Nat} {a : Nat} (bs : List Byte) (h : ∀ x ∈ as, Misses d a x) :
    ((store as bs).run d).memAt a = d.memAt a := by
  rw [Device.memAt, mem_run_store]
  exact memAt_wrAt bs h

theorem memAt_store_self {as : List Nat} {bs : List Byte} {k a : Nat} {b : Byte} {d : Device} (hd : d.Ok)
    (h : ∀ x ∈ as, rekeys d x = false) (hn : (as.map place).Nodup) (ha : as[k]? = some a) (hb : bs[k]? = some b) :
    ((store as bs).run d).memAt (place a) = b := by
  rw [Device.memAt, mem_run_store]
  exact memAt_wrAt_self hd h hn ha hb

/-- A byte of DRAM is read as it is held where its unit is held under the key of the access. -/
theorem byte_of_key {d : Device} {a : Nat} (hi : inDram a = true) (h : rekeys d a = false) : d.byte a = d.memAt (place a) := by
  have hk : (d.memKeyAt (place a / 64 * 64) == keyOf d a) = true := by simpa [rekeys, hi] using h
  simp only [Device.byte, hi, hk, if_true]

theorem rekeys_store {as : List Nat} (bs : List Byte) {d : Device} (h : ∀ x ∈ as, rekeys d x = false) (a : Nat) :
    rekeys ((store as bs).run d) a = rekeys d a := by
  rw [rekeys, rekeys, keyOf_run (store_makes as bs), Device.memKeyAt, memKey_run_store, memKey_wrAt bs h, Device.memKeyAt]

theorem tmemAt_store (d : Device) (as : List Nat) (bs : List Byte) (a : Nat) : ((store as bs).run d).tmemAt a = d.tmemAt a :=
  Eff.run_frame (f := (·.tmemAt a)) (fun u d (h : u.OfStore) => congrArg (mapGet dfltTmem · a) (h.tmem d)) _
    (store_makes as bs) d

end Sys2Proof.Machine
end

section
/-! PROOFS. Effects that leave alone what programs compute with: one lemma for each definition that the commands of `keepsWork`
are made of, in the order of the model. Each says that no change its effect makes, in any state and on any branch, touches device
memory, tile memory, the accumulators, cores, cues, semaphores or contexts. -/

namespace Sys2Proof.Machine

/-- A change touches none of the tables that `SameWork` compares. -/
def Upd.KeepsWork : Upd → Prop
  | .mem _ _ | .memDrop _ | .tmem _ _ | .tmemDrop _ | .acc _ _ | .accDrop _ | .cores _ _ | .coresDrop _ | .cues _ _ | .cuesDrop _
  | .sems _ _ | .semsDrop _ | .ctxs _ _ | .ctxsDrop _ => False
  | _ => True

theorem sameWork_apply {u : Upd} (h : u.KeepsWork) (d : Device) : SameWork d (u.apply d) := by
  cases u with
  | mem | memDrop | tmem | tmemDrop | acc | accDrop | cores | coresDrop | cues | cuesDrop | sems | semsDrop | ctxs | ctxsDrop =>
    cases h
  | _ => exact ⟨fun _ => rfl, fun _ => rfl, fun _ => rfl, fun _ => rfl, fun _ => rfl, fun _ => rfl, fun _ => rfl⟩

theorem sameWork_run {e : Eff} (he : e.Makes Upd.KeepsWork) (d : Device) : SameWork d (e.run d) where
  mem a := Eff.run_frame (f := (·.memAt a)) (fun _ d h => (sameWork_apply h d).mem a) e he d
  tile a := Eff.run_frame (f := (·.tmemAt a)) (fun _ d h => (sameWork_apply h d).tile a) e he d
  acc a := Eff.run_frame (f := (·.accAt a)) (fun _ d h => (sameWork_apply h d).acc a) e he d
  cores k := Eff.run_frame (f := (·.coresAt k)) (fun _ d h => (sameWork_apply h d).cores k) e he d
  cues k := Eff.run_frame (f := (·.cuesAt k)) (fun _ d h => (sameWork_apply h d).cues k) e he d
  sems k := Eff.run_frame (f := (·.semsAt k)) (fun _ d h => (sameWork_apply h d).sems k) e he d
  ctxs k := Eff.run_frame (f := (·.ctxsAt k)) (fun _ d h => (sameWork_apply h d).ctxs k) e he d

/-! ### Registers, records and guards -/

@[simp] theorem setReg_keepsWork (r : Reg) (i v : Nat) : (setReg r i v).Makes Upd.KeepsWork := by
  simp [setReg, putRegs, Upd.KeepsWork]

@[simp] theorem setF_keepsWork (f : Fld) (i v : Nat) : (setF f i v).Makes Upd.KeepsWork := by simp [setF]
@[simp] theorem addSat_keepsWork (f : Fld) (i n : Nat) : (addSat f i n).Makes Upd.KeepsWork := by simp [addSat]
@[simp] theorem addWrap_keepsWork (f : Fld) (i n : Nat) : (addWrap f i n).Makes Upd.KeepsWork := by simp [addWrap]

@[simp] theorem resetRegs_keepsWork (p : Nat → Nat → Bool) : (resetRegs p).Makes Upd.KeepsWork := by
  simp [resetRegs, Upd.KeepsWork]

@[simp] theorem reply_keepsWork (rq v : Nat) : (reply rq v).Makes Upd.KeepsWork := by simp [reply, putReplies, Upd.KeepsWork]

@[simp] theorem withFree_keepsWork (k : Nat → Eff) (h : ∀ v, (k v).Makes Upd.KeepsWork) : (withFree k).Makes Upd.KeepsWork := by
  simp [withFree, putFree, Upd.KeepsWork, h]

@[simp] theorem raiseMsix_keepsWork (v : Nat) : (raiseMsix v).Makes Upd.KeepsWork := by simp [raiseMsix, modMsix, Upd.KeepsWork]

@[simp] theorem queueEvent_keepsWork (e : Nat) : (queueEvent e).Makes Upd.KeepsWork := by
  simp [queueEvent, modPldmEvents, Upd.KeepsWork]

@[simp] theorem sensorAt_keepsWork (id level : Nat) : (sensorAt id level).Makes Upd.KeepsWork := by
  simp [sensorAt, putSensors, Upd.KeepsWork]

@[simp] theorem saveLog_keepsWork : saveLog.Makes Upd.KeepsWork := by
  simp [saveLog, putFlogSaved, putNvLog, putOldLog, Upd.KeepsWork]

@[simp] theorem dropPages_keepsWork (q : CachedPage → Bool) : (dropPages q).Makes Upd.KeepsWork := by
  simp [dropPages, modXlats, Upd.KeepsWork]

@[simp] theorem refreshCatalog_keepsWork : refreshCatalog.Makes Upd.KeepsWork := by simp [refreshCatalog]
@[simp] theorem bumpCatalog_keepsWork : bumpCatalog.Makes Upd.KeepsWork := by simp [bumpCatalog, modCatGen, Upd.KeepsWork]
@[simp] theorem saveCatalog_keepsWork : saveCatalog.Makes Upd.KeepsWork := by simp [saveCatalog, putCatCopies, Upd.KeepsWork]

@[simp] theorem whileIt_keepsWork (c : Device → Bool) (e : Eff) (h : e.Makes Upd.KeepsWork) :
    (whileIt c e).Makes Upd.KeepsWork := by
  simp [whileIt, h]

@[simp] theorem setPower_keepsWork (st : Nat) : (setPower st).Makes Upd.KeepsWork := by simp [setPower]
@[simp] theorem refreshIdle_keepsWork : refreshIdle.Makes Upd.KeepsWork := by simp [refreshIdle]

@[simp] theorem saveSpare_keepsWork : saveSpare.Makes Upd.KeepsWork := by
  simp [saveSpare, putNvSpare, putOldSpare, Upd.KeepsWork]

@[simp] theorem siteResultValid_keepsWork (rq : Nat) : (siteResultValid rq).Makes Upd.KeepsWork := by
  simp [siteResultValid, putLookups, Upd.KeepsWork]

@[simp] theorem denied_keepsWork : denied.Makes Upd.KeepsWork := by simp [denied]

@[simp] theorem storeWrite_keepsWork (rq : Nat) (r : Reg) (i v : Nat) : (storeWrite rq r i v).Makes Upd.KeepsWork := by
  simp [storeWrite]

@[simp] theorem writeAct_keepsWork (rq : Nat) (r : Reg) (i v b : Nat) (act : Eff) (h : act.Makes Upd.KeepsWork) :
    (writeAct rq r i v b act).Makes Upd.KeepsWork := by
  simp [writeAct, h]

/-! ### Promotion and the weight library -/

@[simp] theorem dqLaneFail_keepsWork (chan : Nat) : (dqLaneFail chan).Makes Upd.KeepsWork := by
  simp [dqLaneFail, modDqFailed, Upd.KeepsWork]

@[simp] theorem countFrames_keepsWork (p : Nat) : (countFrames p).Makes Upd.KeepsWork := by simp [countFrames]
@[simp] theorem dropExtent_keepsWork (p x : Nat) : (dropExtent p x).Makes Upd.KeepsWork := by simp [dropExtent]

@[simp] theorem demoteExtent_keepsWork (p x : Nat) : (demoteExtent p x).Makes Upd.KeepsWork := by
  simp only [demoteExtent, Eff.makes_obs]
  intro d
  split <;> simp [putFrameBusy, putPromo, Upd.KeepsWork]

@[simp] theorem startPromotion_keepsWork (p x : Nat) (pin : Bool) : (startPromotion p x pin).Makes Upd.KeepsWork := by
  simp only [startPromotion, Eff.makes_obs]
  intro d
  split
  · simp [putPromoJob, Upd.KeepsWork]
  · split <;> simp [putPromoJob, Upd.KeepsWork]

@[simp] theorem autoPromote_keepsWork (p x : Nat) : (autoPromote p x).Makes Upd.KeepsWork := by
  simp [autoPromote, putPromoReads, Upd.KeepsWork]

@[simp] theorem frameFree_keepsWork (p frame : Nat) : (frameFree p frame).Makes Upd.KeepsWork := by
  simp [frameFree, putFrameBusy, Upd.KeepsWork]

@[simp] theorem freeEntry_keepsWork (e : Nat) : (freeEntry e).Makes Upd.KeepsWork := by
  simp [freeEntry, putCatalog, Upd.KeepsWork]

@[simp] theorem unrefEntry_keepsWork (e : Nat) : (unrefEntry e).Makes Upd.KeepsWork := by
  simp [unrefEntry, putCatalog, Upd.KeepsWork]

@[simp] theorem unrefSlot_keepsWork (slot : Nat) : (unrefSlot slot).Makes Upd.KeepsWork := by
  simp [unrefSlot, putSlotRefs, Upd.KeepsWork]

/-! ### Packets and links -/

@[simp] theorem enqueue_keepsWork (name : Nat) (ls : List Nat) (p : Packet) : (enqueue name ls p).Makes Upd.KeepsWork := by
  simp only [enqueue, Eff.makes_obs]
  intro d
  split <;> simp [modEgress, putRr, Upd.KeepsWork]

@[simp] theorem routePacket_keepsWork (die : Nat) (p : Packet) : (routePacket die p).Makes Upd.KeepsWork := by
  simp only [routePacket, Eff.makes_obs]
  intro d
  split <;> simp

@[simp] theorem sealCount_keepsWork (f : Flow) : (sealCount f).Makes Upd.KeepsWork := by
  simp [sealCount, modLinkKeys, Upd.KeepsWork]

@[simp] theorem acceptCounter_keepsWork (k : Nat) (f : Flow) (p : Packet) : (acceptCounter k f p).Makes Upd.KeepsWork := by
  simp [acceptCounter, modLinkSeen, Upd.KeepsWork]

@[simp] theorem modDesc_keepsWork (n index : Nat) (f : Desc → Desc) : (modDesc n index f).Makes Upd.KeepsWork := by
  simp [modDesc, modRings, Upd.KeepsWork]

@[simp] theorem cueSelect_keepsWork (rq p v : Nat) : (cueSelect rq p v).Makes Upd.KeepsWork := by simp [cueSelect]

@[simp] theorem transmit_keepsWork (i : Nat) : (transmit i).Makes Upd.KeepsWork := by
  simp [transmit, modSent, putPorts, Upd.KeepsWork]

@[simp] theorem sendControl_keepsWork (i : Nat) (nak : Bool) : (sendControl i nak).Makes Upd.KeepsWork := by
  simp [sendControl, modSent, Upd.KeepsWork]

@[simp] theorem freeFlits_keepsWork (i : Nat) (p : Packet) : (freeFlits i p).Makes Upd.KeepsWork := by
  simp [freeFlits, modPorts, Upd.KeepsWork]

@[simp] theorem freeVia_keepsWork (p : Packet) : (freeVia p).Makes Upd.KeepsWork := by simp [freeVia]

@[simp] theorem packetAdmit_keepsWork (i vc : Nat) : (packetAdmit i vc).Makes Upd.KeepsWork := by
  simp only [packetAdmit, Eff.makes_obs]
  intro d
  split <;> simp [putEgress, putPorts, Upd.KeepsWork]

@[simp] theorem controlFlit_keepsWork (i ack : Nat) (credit : List Nat) (corrected : Nat) :
    (controlFlit i ack credit corrected).Makes Upd.KeepsWork := by
  simp [controlFlit, putPorts, Upd.KeepsWork]

@[simp] theorem retryReplay_keepsWork (i : Nat) : (retryReplay i).Makes Upd.KeepsWork := by
  simp only [retryReplay, Eff.makes_obs]
  intro d
  split <;> simp [modSent, putPorts, Upd.KeepsWork]

@[simp] theorem uncorrectableCodeword_keepsWork (i partialFlits : Nat) :
    (uncorrectableCodeword i partialFlits).Makes Upd.KeepsWork := by
  simp [uncorrectableCodeword, modPorts, Upd.KeepsWork]

@[simp] theorem dropEgress_keepsWork (i : Nat) : (dropEgress i).Makes Upd.KeepsWork := by
  simp [dropEgress, putEgress, Upd.KeepsWork]

@[simp] theorem linkDown_keepsWork (i reason : Nat) : (linkDown i reason).Makes Upd.KeepsWork := by
  simp [linkDown, modPorts, Upd.KeepsWork]

@[simp] theorem laneSwitch_keepsWork (i lane : Nat) (failed : Bool) : (laneSwitch i lane failed).Makes Upd.KeepsWork := by
  simp [laneSwitch]

@[simp] theorem linkDownTimeout_keepsWork (i : Nat) : (linkDownTimeout i).Makes Upd.KeepsWork := by simp [linkDownTimeout]

@[simp] theorem linkSiteFail_keepsWork (site : Nat) : (linkSiteFail site).Makes Upd.KeepsWork := by
  simp only [linkSiteFail, putApplied, putRetired, Eff.makes_obs, Eff.makes_all_cons, Eff.makes_all_nil, Eff.makes_upd,
    saveSpare_keepsWork, and_true]
  intro d
  refine ⟨trivial, trivial, ?_⟩
  split
  · simp
  · simp only [Eff.makes_all_cons, Eff.makes_all_nil, Eff.makes_obs, and_true]
    refine ⟨by simp, by simp, by simp [Upd.KeepsWork], fun d' => ?_⟩
    split <;> simp [Upd.KeepsWork]

@[simp] theorem portUp_keepsWork (i : Nat) : (portUp i).Makes Upd.KeepsWork := by simp [portUp, modPorts, Upd.KeepsWork]
@[simp] theorem siteRetrainDone_keepsWork (i : Nat) : (siteRetrainDone i).Makes Upd.KeepsWork := by simp [siteRetrainDone]
@[simp] theorem portRetrainRetry_keepsWork (i : Nat) : (portRetrainRetry i).Makes Upd.KeepsWork := by simp [portRetrainRetry]

@[simp] theorem packetFrom_keepsWork (i seq : Nat) (bs : List Byte) (mine : Device → Packet → Bool) (act : Packet → Eff)
    (h : ∀ p, (act p).Makes Upd.KeepsWork) : (packetFrom i seq bs mine act).Makes Upd.KeepsWork := by
  simp only [packetFrom, Eff.makes_obs]
  intro d
  split <;> simp [modPorts, Upd.KeepsWork, h]

@[simp] theorem packetIn_keepsWork (i seq : Nat) (bs : List Byte) (mine : Device → Packet → Bool) (act : Packet → Eff)
    (h : ∀ p, (act p).Makes Upd.KeepsWork) : (packetIn i seq bs mine act).Makes Upd.KeepsWork := by
  simp [packetIn, h]

@[simp] theorem failoverPacket_keepsWork (i seq : Nat) (bs : List Byte) : (failoverPacket i seq bs).Makes Upd.KeepsWork := by
  simp [failoverPacket, modPorts, Upd.KeepsWork]

@[simp] theorem groupFailover_keepsWork (i seq : Nat) (bs : List Byte) : (groupFailover i seq bs).Makes Upd.KeepsWork := by
  simp [groupFailover, putEgress, putPorts, Upd.KeepsWork]

@[simp] theorem forwardPacket_keepsWork (i : Nat) (p : Packet) : (forwardPacket i p).Makes Upd.KeepsWork := by
  simp [forwardPacket]

@[simp] theorem packetForward_keepsWork (i seq : Nat) (bs : List Byte) : (packetForward i seq bs).Makes Upd.KeepsWork := by
  simp [packetForward]

@[simp] theorem answer_keepsWork (i : Nat) (p : Packet) (reason : Nat) : (answer i p reason).Makes Upd.KeepsWork := by
  simp [answer]

@[simp] theorem countAuth_keepsWork (d : Device) (k : Nat) (f : Flow) (p : Packet) :
    (countAuth d k f p).Makes Upd.KeepsWork := by
  simp [countAuth]

@[simp] theorem checkFlow_keepsWork (i recv : Nat) (ack : Bool) (p : Packet) (act : Device → List Byte → Sum Nat Eff)
    (h : ∀ d data e, act d data = .inr e → e.Makes Upd.KeepsWork) : (checkFlow i recv ack p act).Makes Upd.KeepsWork := by
  simp only [checkFlow, Eff.makes_obs]
  intro d
  split
  · simp
  · simp only [Eff.makes_ite, answer_keepsWork, addSat_keepsWork, implies_true, true_and]
    intro _ _ _
    split
    · simp
    · simp only [Eff.makes_seq, Eff.makes_ite, acceptCounter_keepsWork, answer_keepsWork, implies_true, true_and]
      intro _
      split
      · simp
      · next e he => simp [h _ _ _ he]

@[simp] theorem onTag_keepsWork (t : Nat) (f : Device → Desc → Desc) : (onTag t f).Makes Upd.KeepsWork := by
  simp [onTag, modRings, Upd.KeepsWork]

@[simp] theorem ackTag_keepsWork (t : Nat) : (ackTag t).Makes Upd.KeepsWork := by simp [ackTag]
@[simp] theorem failTag_keepsWork (t status : Nat) : (failTag t status).Makes Upd.KeepsWork := by simp [failTag]

@[simp] theorem endToEndAck_keepsWork (i seq : Nat) (bs : List Byte) : (endToEndAck i seq bs).Makes Upd.KeepsWork := by
  simp [endToEndAck]

@[simp] theorem e2eTimeout_keepsWork (tag : Nat) : (e2eTimeout tag).Makes Upd.KeepsWork := by simp [e2eTimeout]
@[simp] theorem loadFlows_keepsWork : loadFlows.Makes Upd.KeepsWork := by simp [loadFlows, putFlows, Upd.KeepsWork]
@[simp] theorem flowTableLoadDone_keepsWork : flowTableLoadDone.Makes Upd.KeepsWork := by simp [flowTableLoadDone]

/-! ### Collectives and the promenade -/

@[simp] theorem colSendTo_keepsWork (g : Nat) (c : Option Nat) (die peer tag : Nat) (body data : List Byte) :
    (colSendTo g c die peer tag body data).Makes Upd.KeepsWork := by
  simp only [colSendTo, Eff.makes_obs]
  intro d
  split <;> simp

@[simp] theorem colControl_keepsWork (g msg epoch peer dstRank : Nat) (args : List Byte) :
    (colControl g msg epoch peer dstRank args).Makes Upd.KeepsWork := by
  simp [colControl]

@[simp] theorem colSendData_keepsWork (n : Nat) (o : ColOp) (rank : Nat) (bs : List Byte) :
    (colSendData n o rank bs).Makes Upd.KeepsWork := by
  simp [colSendData]

@[simp] theorem colSendReady_keepsWork (n : Nat) (o : ColOp) : (colSendReady n o).Makes Upd.KeepsWork := by simp [colSendReady]

@[simp] theorem colEnd_keepsWork (n index status : Nat) : (colEnd n index status).Makes Upd.KeepsWork := by
  simp [colEnd, putColOps, Upd.KeepsWork]

@[simp] theorem endGroup_keepsWork (g status : Nat) : (endGroup g status).Makes Upd.KeepsWork := by simp [endGroup]

@[simp] theorem suspectRank_keepsWork (g rank cause : Nat) : (suspectRank g rank cause).Makes Upd.KeepsWork := by
  simp [suspectRank, modColGroups, Upd.KeepsWork]

@[simp] theorem withdraw_keepsWork (g cause : Nat) : (withdraw g cause).Makes Upd.KeepsWork := by simp [withdraw]

@[simp] theorem colFail_keepsWork (n : Nat) (o : ColOp) (status : Nat) : (colFail n o status).Makes Upd.KeepsWork := by
  simp [colFail]

@[simp] theorem suspectUnreached_keepsWork : suspectUnreached.Makes Upd.KeepsWork := by simp [suspectUnreached]

@[simp] theorem sendDue_keepsWork (n : Nat) : (sendDue n).Makes Upd.KeepsWork := by
  simp only [sendDue, Eff.makes_obs]
  intro d
  split <;> simp [putColOps, Upd.KeepsWork]

@[simp] theorem enterStep_keepsWork (n fuel : Nat) : (enterStep n fuel).Makes Upd.KeepsWork := by
  induction fuel with
  | zero => trivial
  | succ fuel ih =>
    simp only [enterStep, Eff.makes_obs]
    intro d
    split
    · simp
    · simp only [Eff.makes_when_iff, Eff.makes_ite, Eff.makes_all_cons, Eff.makes_all_nil, Eff.makes_obs, colFail_keepsWork,
        colSendReady_keepsWork, sendDue_keepsWork, true_and, and_true]
      intro _
      refine ⟨fun _ => trivial, fun _ d' => ?_⟩
      split
      · simp
      · simp only [Eff.makes_when_iff]
        intro _
        split <;> simp [putColOps, Upd.KeepsWork, ih]

@[simp] theorem progress_keepsWork (n : Nat) : (progress n).Makes Upd.KeepsWork := by
  simp only [progress, Eff.makes_seq, Eff.makes_obs, sendDue_keepsWork, true_and]
  intro d
  split
  · simp
  · simp only [Eff.makes_when_iff]
    intro _
    split <;> simp [putColOps, Upd.KeepsWork]

@[simp] theorem trainPort_keepsWork (i : Nat) (module : List Byte) : (trainPort i module).Makes Upd.KeepsWork := by
  simp [trainPort, putNbrs, Upd.KeepsWork]

@[simp] theorem readModule_keepsWork (i : Nat) (module : List Byte) : (readModule i module).Makes Upd.KeepsWork := by
  simp [readModule, putSideband, Upd.KeepsWork]

@[simp] theorem portTraining_keepsWork (i : Nat) (module : List Byte) : (portTraining i module).Makes Upd.KeepsWork := by
  simp [portTraining]

@[simp] theorem portAttach_keepsWork (i : Nat) (module : List Byte) : (portAttach i module).Makes Upd.KeepsWork := by
  simp [portAttach]

@[simp] theorem promMessage_keepsWork (i : Nat) (args : List Nat) : (promMessage i args).Makes Upd.KeepsWork := by
  simp [promMessage, modSent, Upd.KeepsWork]

@[simp] theorem sendIdentity_keepsWork (i : Nat) : (sendIdentity i).Makes Upd.KeepsWork := by simp [sendIdentity]
@[simp] theorem portDown_keepsWork (i reason : Nat) : (portDown i reason).Makes Upd.KeepsWork := by simp [portDown]

@[simp] theorem portTrainDone_keepsWork (i : Nat) (failed : List Nat) (inTime : Bool) :
    (portTrainDone i failed inTime).Makes Upd.KeepsWork := by
  simp [portTrainDone, modPorts, Upd.KeepsWork]

@[simp] theorem oneDie_keepsWork (serial : Nat) : (oneDie serial).Makes Upd.KeepsWork := by simp [oneDie]

@[simp] theorem groupMessage_keepsWork (i : Nat) (args : List Nat) : (groupMessage i args).Makes Upd.KeepsWork := by
  simp [groupMessage]

@[simp] theorem flood_keepsWork (except : List Nat) (c : Bool × Nat) : (flood except c).Makes Upd.KeepsWork := by simp [flood]
@[simp] theorem sendAssigns_keepsWork : sendAssigns.Makes Upd.KeepsWork := by simp [sendAssigns, modProm, Upd.KeepsWork]
@[simp] theorem takeCoords_keepsWork (line round : Nat) : (takeCoords line round).Makes Upd.KeepsWork := by simp [takeCoords]

@[simp] theorem checkDone_keepsWork : checkDone.Makes Upd.KeepsWork := by
  simp only [checkDone, Eff.makes_obs]
  intro d
  split <;> simp [modProm, Upd.KeepsWork]

@[simp] theorem readmit_keepsWork : readmit.Makes Upd.KeepsWork := by simp [readmit]
@[simp] theorem beginWalk_keepsWork : beginWalk.Makes Upd.KeepsWork := by simp [beginWalk, modProm, Upd.KeepsWork]
@[simp] theorem startElection_keepsWork : startElection.Makes Upd.KeepsWork := by simp [startElection, modProm, Upd.KeepsWork]

@[simp] theorem candidateFlood_keepsWork (i : Option Nat) (root : Bool) (serial : Nat) :
    (candidateFlood i root serial).Makes Upd.KeepsWork := by
  simp only [candidateFlood, Eff.makes_obs]
  intro d
  split <;> simp [modProm, Upd.KeepsWork]

@[simp] theorem walkAgain_keepsWork : walkAgain.Makes Upd.KeepsWork := by simp [walkAgain]

@[simp] theorem identityExchange_keepsWork (i serial system line round size port role : Nat) (coords root : Bool) :
    (identityExchange i serial system line round size port role coords root).Makes Upd.KeepsWork := by
  simp [identityExchange, modPorts, putNbrs, Upd.KeepsWork]

@[simp] theorem excludeGroup_keepsWork (i : Nat) : (excludeGroup i).Makes Upd.KeepsWork := by simp [excludeGroup]

@[simp] theorem assign_keepsWork (i serial line round hops : Nat) : (assign i serial line round hops).Makes Upd.KeepsWork := by
  simp [assign, modProm, Upd.KeepsWork]

@[simp] theorem assignAnswer_keepsWork (i : Nat) (accepted conflict : Bool) :
    (assignAnswer i accepted conflict).Makes Upd.KeepsWork := by
  simp [assignAnswer, modProm, Upd.KeepsWork]

@[simp] theorem promenadeDone_keepsWork (i : Nat) (devs groups : List Byte) :
    (promenadeDone i devs groups).Makes Upd.KeepsWork := by
  simp only [promenadeDone, Eff.makes_obs]
  intro d
  split <;> simp [modProm, Upd.KeepsWork]

@[simp] theorem rootLostTimeout_keepsWork : rootLostTimeout.Makes Upd.KeepsWork := by
  simp [rootLostTimeout, modProm, Upd.KeepsWork]

@[simp] theorem colStart_keepsWork (n op : Nat) : (colStart n op).Makes Upd.KeepsWork := by
  simp only [colStart, Eff.makes_obs]
  intro d
  split
  · simp only [Eff.makes_when_iff]
    intro _
    split
    · simp
    · simp only [Eff.makes_ite, colEnd_keepsWork, Eff.makes_skip, implies_true, true_and]
      intro _ _ _
      split <;> simp [modColGroups, putColOps, Upd.KeepsWork]
  · simp

@[simp] theorem linksChanged_keepsWork : linksChanged.Makes Upd.KeepsWork := by simp [linksChanged]

@[simp] theorem colPacket_keepsWork (i seq msg : Nat) (bs : List Byte) (act : Nat → Packet → Eff)
    (h : ∀ g p, (act g p).Makes Upd.KeepsWork) : (colPacket i seq msg bs act).Makes Upd.KeepsWork := by
  refine packetIn_keepsWork _ _ _ _ _ fun p => checkFlow_keepsWork _ _ _ _ _ fun d data e he => ?_
  cases he
  dsimp only
  split
  · simp
  · simp [h]

@[simp] theorem notePace_keepsWork (n : Nat) (p : Packet) : (notePace n p).Makes Upd.KeepsWork := by
  simp [notePace, modColOps, Upd.KeepsWork]

@[simp] theorem checkReady_keepsWork (n : Nat) : (checkReady n).Makes Upd.KeepsWork := by
  simp only [checkReady, Eff.makes_obs]
  intro d
  split <;> simp

@[simp] theorem colReady_keepsWork (i seq : Nat) (bs : List Byte) : (colReady i seq bs).Makes Upd.KeepsWork := by
  refine colPacket_keepsWork _ _ _ _ _ fun g p => ?_
  simp only [modColGroups, Eff.makes_seq, Eff.makes_obs, Eff.makes_upd]
  refine ⟨fun _ => trivial, fun d => ?_⟩
  split <;> simp

@[simp] theorem colData_keepsWork (i seq : Nat) (bs : List Byte) : (colData i seq bs).Makes Upd.KeepsWork := by
  refine colPacket_keepsWork _ _ _ _ _ fun g p => ?_
  simp only [Eff.makes_obs]
  intro d
  split <;> simp [modColOps, Upd.KeepsWork]

@[simp] theorem colBegin_keepsWork (n op : Nat) : (colBegin n op).Makes Upd.KeepsWork := by
  simp only [colBegin, Eff.makes_seq, Eff.makes_obs, colStart_keepsWork, true_and]
  intro d
  split <;> simp

@[simp] theorem allReduce_keepsWork (n : Nat) : (allReduce n).Makes Upd.KeepsWork := by simp [allReduce]
@[simp] theorem reduceScatter_keepsWork (n : Nat) : (reduceScatter n).Makes Upd.KeepsWork := by simp [reduceScatter]
@[simp] theorem allGather_keepsWork (n : Nat) : (allGather n).Makes Upd.KeepsWork := by simp [allGather]
@[simp] theorem broadcast_keepsWork (n : Nat) : (broadcast n).Makes Upd.KeepsWork := by simp [broadcast]
@[simp] theorem allToAll_keepsWork (n : Nat) : (allToAll n).Makes Upd.KeepsWork := by simp [allToAll]
@[simp] theorem fused_keepsWork (n : Nat) : (fused n).Makes Upd.KeepsWork := by simp [fused]

@[simp] theorem stepTimeout_keepsWork (n ms : Nat) : (stepTimeout n ms).Makes Upd.KeepsWork := by
  simp only [stepTimeout, Eff.makes_obs]
  intro d
  split <;> simp

@[simp] theorem suspectIn_keepsWork (i seq : Nat) (bs : List Byte) : (suspectIn i seq bs).Makes Upd.KeepsWork := by
  simp [suspectIn, modColGroups, Upd.KeepsWork]

@[simp] theorem reformAck_keepsWork (i seq : Nat) (bs : List Byte) : (reformAck i seq bs).Makes Upd.KeepsWork := by
  simp [reformAck, modColGroups, Upd.KeepsWork]

@[simp] theorem colCommit_keepsWork (i seq : Nat) (bs : List Byte) : (colCommit i seq bs).Makes Upd.KeepsWork := by
  simp [colCommit, modColGroups, Upd.KeepsWork]

@[simp] theorem excludeIn_keepsWork (i seq : Nat) (bs : List Byte) : (excludeIn i seq bs).Makes Upd.KeepsWork := by
  simp [excludeIn, modColGroups, Upd.KeepsWork]

@[simp] theorem leaderTimeout_keepsWork (g : Nat) : (leaderTimeout g).Makes Upd.KeepsWork := by
  simp [leaderTimeout, modColGroups, Upd.KeepsWork]

@[simp] theorem refusalReceive_keepsWork (i seq : Nat) (bs : List Byte) : (refusalReceive i seq bs).Makes Upd.KeepsWork := by
  refine packetIn_keepsWork _ _ _ _ _ fun p => ?_
  split_ifs
  · simp only [Eff.makes_obs]
    intro d
    split <;> simp
  · simp

/-! ### Regulators, slots and codecs -/

@[simp] theorem regulatorAdmit_keepsWork (p k n filled : Nat) : (regulatorAdmit p k n filled).Makes Upd.KeepsWork := by
  simp [regulatorAdmit, putBuckets, Upd.KeepsWork]

@[simp] theorem dropSlot_keepsWork (p slot : Nat) : (dropSlot p slot).Makes Upd.KeepsWork := by
  simp only [dropSlot, Eff.makes_obs]
  intro d
  split <;> simp [putSlots, Upd.KeepsWork]

@[simp] theorem dropOld_keepsWork (p slot : Nat) : (dropOld p slot).Makes Upd.KeepsWork := by simp [dropOld]

@[simp] theorem jobEnd_keepsWork (n : Nat) (x : Desc) (status r0 r1 us : Nat) :
    (jobEnd n x status r0 r1 us).Makes Upd.KeepsWork := by
  simp [jobEnd]

@[simp] theorem countSessions_keepsWork (e : Nat) : (countSessions e).Makes Upd.KeepsWork := by simp [countSessions]

@[simp] theorem closeSession_keepsWork (e k : Nat) : (closeSession e k).Makes Upd.KeepsWork := by
  simp [closeSession, putSessions, Upd.KeepsWork]

@[simp] theorem onJob_keepsWork (e op : Nat) (run : Nat → Desc → Eff) (h : ∀ n x, (run n x).Makes Upd.KeepsWork) :
    (onJob e op run).Makes Upd.KeepsWork := by
  simp only [onJob, Eff.makes_obs]
  intro d
  split <;> simp [putRr, Upd.KeepsWork, h]

@[simp] theorem onSession_keepsWork (e op us : Nat) (dir : Session → Bool) (run : Nat → Desc → Nat → Session → Eff)
    (h : ∀ n x k s, (run n x k s).Makes Upd.KeepsWork) : (onSession e op us dir run).Makes Upd.KeepsWork := by
  refine onJob_keepsWork _ _ _ fun n x => ?_
  simp only [Eff.makes_obs]
  intro d
  split <;> simp [h]

@[simp] theorem freeBytes_keepsWork (n : Nat) (k : List Byte → Eff) (h : ∀ bs, (k bs).Makes Upd.KeepsWork) :
    (freeBytes n k).Makes Upd.KeepsWork := by
  simp [freeBytes, putFree, Upd.KeepsWork, h]

@[simp] theorem vceClose_keepsWork (e us : Nat) : (vceClose e us).Makes Upd.KeepsWork := by simp [vceClose]

@[simp] theorem countKeys_keepsWork : countKeys.Makes Upd.KeepsWork := by simp [countKeys]

/-! ### Health and power -/

@[simp] theorem saveMargin_keepsWork : saveMargin.Makes Upd.KeepsWork := by
  simp [saveMargin, putNvMargin, putOldMargin, Upd.KeepsWork]

@[simp] theorem showPoint_keepsWork (i top p g : Nat) : (showPoint i top p g).Makes Upd.KeepsWork := by simp [showPoint]
@[simp] theorem setPeak_keepsWork (ms : Nat) : (setPeak ms).Makes Upd.KeepsWork := by simp [setPeak, putPeakMs, Upd.KeepsWork]

@[simp] theorem replanSite_keepsWork (i vmin : Nat) (slack : Nat → Nat) : (replanSite i vmin slack).Makes Upd.KeepsWork := by
  simp [replanSite, putMarked, Upd.KeepsWork]

@[simp] theorem replanNow_keepsWork (trigger : Nat) (slack vmin drift eyes : List Nat) :
    (replanNow trigger slack vmin drift eyes).Makes Upd.KeepsWork := by
  simp [replanNow, putLaneMarks, putRetired, Upd.KeepsWork]

@[simp] theorem replan_keepsWork (slack vmin drift eyes : List Nat) : (replan slack vmin drift eyes).Makes Upd.KeepsWork := by
  simp [replan]

@[simp] theorem peakCharge_keepsWork : peakCharge.Makes Upd.KeepsWork := by simp [peakCharge]

@[simp] theorem testEnds_keepsWork (state : Nat) (left : List Nat) : (testEnds state left).Makes Upd.KeepsWork := by
  simp [testEnds, putSelfTest, Upd.KeepsWork]

@[simp] theorem selfTestCmd_keepsWork (rq v : Nat) : (selfTestCmd rq v).Makes Upd.KeepsWork := by
  simp [selfTestCmd, putSelfTest, Upd.KeepsWork]

@[simp] theorem selfTestAbort_keepsWork (rq v : Nat) : (selfTestAbort rq v).Makes Upd.KeepsWork := by
  refine writeAct_keepsWork _ _ _ _ _ _ ?_
  simp only [Eff.makes_obs, Eff.makes_when_iff]
  intro d _
  split <;> simp [putSelfTest, Upd.KeepsWork]

@[simp] theorem faultLogFlush_keepsWork : faultLogFlush.Makes Upd.KeepsWork := by simp [faultLogFlush]
@[simp] theorem stewardLost_keepsWork : stewardLost.Makes Upd.KeepsWork := by simp [stewardLost, putOff, Upd.KeepsWork]

@[simp] theorem stewardTakeover_keepsWork (mismatch : Bool) (rec_ : Option Nat) :
    (stewardTakeover mismatch rec_).Makes Upd.KeepsWork := by
  simp only [stewardTakeover, Eff.makes_obs]
  intro d
  split
  · simp
  · simp only [Eff.makes_all_cons, Eff.makes_all_nil, Eff.makes_when_iff, setF_keepsWork, addWrap_keepsWork, addSat_keepsWork,
      implies_true, true_and, and_true]
    split <;> simp

@[simp] theorem stewardDieLoss_keepsWork : stewardDieLoss.Makes Upd.KeepsWork := by simp [stewardDieLoss]

@[simp] theorem clusterClockStop_keepsWork (q : Nat) : (clusterClockStop q).Makes Upd.KeepsWork := by
  simp only [clusterClockStop, Eff.makes_obs]
  intro d
  split <;> simp

@[simp] theorem clusterGate_keepsWork (q : Nat) : (clusterGate q).Makes Upd.KeepsWork := by
  simp [clusterGate, putXlats, Upd.KeepsWork]

@[simp] theorem countLimiter_keepsWork (n : Nat) : (countLimiter n).Makes Upd.KeepsWork := by
  simp only [countLimiter, Eff.makes_seq, setF_keepsWork, true_and]
  split <;> simp

@[simp] theorem countWindow_keepsWork (power : Nat) : (countWindow power).Makes Upd.KeepsWork := by
  simp [countWindow, putElectric, putGov, Upd.KeepsWork]

@[simp] theorem governOutside_keepsWork (tj sust : Nat) : (governOutside tj sust).Makes Upd.KeepsWork := by
  simp [governOutside, modGov, Upd.KeepsWork]

@[simp] theorem stepChange_keepsWork (q : Nat) : (stepChange q).Makes Upd.KeepsWork := by simp [stepChange]
@[simp] theorem applyCeiling_keepsWork : applyCeiling.Makes Upd.KeepsWork := by simp [applyCeiling]

@[simp] theorem takeReadings_keepsWork (vin iin power tj : Nat) (pct : List Nat) :
    (takeReadings vin iin power tj pct).Makes Upd.KeepsWork := by
  simp [takeReadings]

@[simp] theorem governorTick_keepsWork (vin iin power tj : Nat) (loads pct : List Nat) :
    (governorTick vin iin power tj loads pct).Makes Upd.KeepsWork := by
  simp [governorTick, modGov, Upd.KeepsWork]

@[simp] theorem restCollectiveTimeout_keepsWork : restCollectiveTimeout.Makes Upd.KeepsWork := by simp [restCollectiveTimeout]
@[simp] theorem aonRefLoss_keepsWork : aonRefLoss.Makes Upd.KeepsWork := by simp [aonRefLoss]

/-! ### Keys and security -/

@[simp] theorem drawSealKey_keepsWork : drawSealKey.Makes Upd.KeepsWork := by
  exact freeBytes_keepsWork _ _ fun _ => trivial

@[simp] theorem zeroiseKeys_keepsWork : zeroiseKeys.Makes Upd.KeepsWork := by simp [zeroiseKeys, putDebugNonce, Upd.KeepsWork]

@[simp] theorem secCommand_keepsWork (rq w v : Nat) (run : Device → Nat × Eff) (h : ∀ d, (run d).2.Makes Upd.KeepsWork) :
    (secCommand rq w v run).Makes Upd.KeepsWork := by
  refine writeAct_keepsWork _ _ _ _ _ _ fun d => ?_
  have hp : (if secQuarantined d (bits v 29 26) then (7, .skip)
      else if !secInRange w (bits v 29 26) (bits v 15 0) (secArg d w) then (5, .skip) else run d : Nat × Eff).2.Makes
      Upd.KeepsWork := by
    split_ifs
    · trivial
    · trivial
    · exact h d
  simp only [putSecPending, Eff.makes_when_iff, Eff.makes_all_cons, Eff.makes_upd, setF_keepsWork, true_and]
  exact fun _ => ⟨trivial, fun _ => hp, trivial⟩

@[simp] theorem secCmdComplete_keepsWork (w : Nat) : (secCmdComplete w).Makes Upd.KeepsWork := by
  simp only [secCmdComplete, Eff.makes_obs]
  intro d
  split <;> simp [putSecPending, Upd.KeepsWork]

@[simp] theorem loadTenant_keepsWork (s p : Nat) (key : List Byte) : (loadTenant s p key).Makes Upd.KeepsWork := by
  simp [loadTenant, putTenantKeys, Upd.KeepsWork]

@[simp] theorem keyLoad_keepsWork (rq w index : Nat) : (keyLoad rq w index).Makes Upd.KeepsWork := by
  refine secCommand_keepsWork _ _ _ _ fun d => ?_
  dsimp only
  split
  · trivial
  · split
    · trivial
    · split_ifs <;> simp

@[simp] theorem keyErase_keepsWork (rq w index : Nat) : (keyErase rq w index).Makes Upd.KeepsWork := by
  refine secCommand_keepsWork _ _ _ _ fun d => ?_
  split
  · trivial
  · simp [putTenantKeys, Upd.KeepsWork]

@[simp] theorem keyUnseal_keepsWork (rq w index : Nat) : (keyUnseal rq w index).Makes Upd.KeepsWork := by
  refine secCommand_keepsWork _ _ _ _ fun d => ?_
  dsimp only
  split
  · trivial
  · split
    · trivial
    · split_ifs <;> simp

@[simp] theorem linkKeyLoad_keepsWork (rq w index : Nat) : (linkKeyLoad rq w index).Makes Upd.KeepsWork := by
  refine secCommand_keepsWork _ _ _ _ fun d => ?_
  dsimp only
  split
  · trivial
  · split
    · trivial
    · split_ifs <;> simp [putLinkKeys, Upd.KeepsWork]

@[simp] theorem revokeRoot_keepsWork (j : Nat) : (revokeRoot j).Makes Upd.KeepsWork := by simp [revokeRoot]

@[simp] theorem rootMsg_keepsWork (rq w index : Nat) : (rootMsg rq w index).Makes Upd.KeepsWork := by
  refine secCommand_keepsWork _ _ _ _ fun d => ?_
  dsimp only
  split <;> simp

@[simp] theorem ctxKeyWrite_keepsWork (rq c v : Nat) : (ctxKeyWrite rq c v).Makes Upd.KeepsWork := by simp [ctxKeyWrite]

@[simp] theorem alarmPolicyWrite_keepsWork (rq v : Nat) : (alarmPolicyWrite rq v).Makes Upd.KeepsWork := by
  simp [alarmPolicyWrite]

@[simp] theorem loseKeys_keepsWork (aon : Bool) : (loseKeys aon).Makes Upd.KeepsWork := by
  simp [loseKeys, putKeysLost, Upd.KeepsWork]

@[simp] theorem vinSample_keepsWork (vin vbat : Nat) : (vinSample vin vbat).Makes Upd.KeepsWork := by
  simp [vinSample, putVin, Upd.KeepsWork]

@[simp] theorem drawNonce_keepsWork (k : List Byte → Eff) (h : ∀ bs, (k bs).Makes Upd.KeepsWork) :
    (drawNonce k).Makes Upd.KeepsWork := by
  simp [drawNonce, putDebugNonce, Upd.KeepsWork, h]

@[simp] theorem debugNonceRead_keepsWork : debugNonceRead.Makes Upd.KeepsWork := by
  simp [debugNonceRead, modSent, Upd.KeepsWork]

/-! ### Firmware, host ports and register accesses -/

@[simp] theorem writeFlash_keepsWork (a : Nat) (bs : List Byte) : (writeFlash a bs).Makes Upd.KeepsWork := by
  induction bs generalizing a with
  | nil => trivial
  | cons b bs ih => exact ⟨trivial, ih (a + 1)⟩

@[simp] theorem preferSlot_keepsWork (s : Nat) : (preferSlot s).Makes Upd.KeepsWork := by simp [preferSlot]

@[simp] theorem fwCommand_keepsWork (rq v : Nat) (run : Device → Eff) (h : ∀ d, (run d).Makes Upd.KeepsWork) :
    (fwCommand rq v run).Makes Upd.KeepsWork := by
  simp [fwCommand, h]

@[simp] theorem fwBusy_keepsWork (op slot code : Nat) : (fwBusy op slot code).Makes Upd.KeepsWork := by
  simp [fwBusy, putFwPending, Upd.KeepsWork]

@[simp] theorem fwWriteSlot_keepsWork (rq slot : Nat) (flashOk : Bool) : (fwWriteSlot rq slot flashOk).Makes Upd.KeepsWork := by
  exact fwCommand_keepsWork _ _ _ fun d => by simp [Upd.KeepsWork]

@[simp] theorem fwPreferSlot_keepsWork (rq slot : Nat) (flashOk : Bool) :
    (fwPreferSlot rq slot flashOk).Makes Upd.KeepsWork := by
  simp [fwPreferSlot]

@[simp] theorem fwCommitMinver_keepsWork (rq slot : Nat) : (fwCommitMinver rq slot).Makes Upd.KeepsWork := by
  simp [fwCommitMinver]

@[simp] theorem fwCtrlComplete_keepsWork : fwCtrlComplete.Makes Upd.KeepsWork := by
  simp only [fwCtrlComplete, Eff.makes_obs]
  intro d
  split <;> simp [putFwPending, Upd.KeepsWork]

@[simp] theorem perstRelease_keepsWork (q : Nat) (ref : Bool) (rate width : Nat) (flit : Bool) :
    (perstRelease q ref rate width flit).Makes Upd.KeepsWork := by
  simp [perstRelease, putPciHeld, Upd.KeepsWork]

@[simp] theorem complete_keepsWork (q fn status value : Nat) : (complete q fn status value).Makes Upd.KeepsWork := by
  simp [complete, modSent, Upd.KeepsWork]

@[simp] theorem configRequest_keepsWork (q fn : Nat) (write : Bool) : (configRequest q fn write).Makes Upd.KeepsWork := by
  simp [configRequest]

@[simp] theorem vfEnable_keepsWork (q n : Nat) : (vfEnable q n).Makes Upd.KeepsWork := by simp [vfEnable]

@[simp] theorem dbCommand_keepsWork (rq v b : Nat) (run : Device → Nat × Eff) (h : ∀ d, (run d).2.Makes Upd.KeepsWork) :
    (dbCommand rq v b run).Makes Upd.KeepsWork := by
  refine writeAct_keepsWork _ _ _ _ _ _ fun d => ?_
  have hp : (if mayBind d rq (bits v 58 49) then run d else (4, .skip) : Nat × Eff).2.Makes Upd.KeepsWork := by
    split_ifs
    · exact h d
    · trivial
  simp only [Eff.makes_when_iff, Eff.makes_seq, setF_keepsWork, and_true]
  exact fun _ => hp

@[simp] theorem dbBindWrite_keepsWork (rq v : Nat) : (dbBindWrite rq v).Makes Upd.KeepsWork := by
  refine dbCommand_keepsWork _ _ _ _ fun d => ?_
  dsimp only
  split_ifs <;> simp [putDbBind, Upd.KeepsWork]

@[simp] theorem dbUnbindWrite_keepsWork (rq v : Nat) : (dbUnbindWrite rq v).Makes Upd.KeepsWork := by
  refine dbCommand_keepsWork _ _ _ _ fun d => ?_
  dsimp only
  split_ifs <;> simp [putDbBind, Upd.KeepsWork]

@[simp] theorem dropHalves_keepsWork (rq : Nat) : (dropHalves rq).Makes Upd.KeepsWork := by
  simp [dropHalves, putHalfRead, putHalfWrite, Upd.KeepsWork]

@[simp] theorem aonDo_keepsWork (rq : Nat) (e : Eff) (h : e.Makes Upd.KeepsWork) : (aonDo rq e).Makes Upd.KeepsWork := by
  simp [aonDo, h]

@[simp] theorem badSizeAccess_keepsWork (rq : Nat) (write : Bool) : (badSizeAccess rq write).Makes Upd.KeepsWork := by
  simp [badSizeAccess]

/-! ### The commands -/

/-- The effect of each command listed in `keepsWork` makes no change of what programs compute with. -/
theorem exec_makes_keepsWork {c : Instr} (h : Machine.keepsWork c = true) :
    ∃ e : Eff, e.Makes Upd.KeepsWork ∧ ∀ s, exec c s = perform c.wellFormed e s := by
  cases c with
  | badSizeAccess | siteResultValid | dqLaneFail | autoPromote | frameFree | cueSelect | laneSwitch | controlFlit |
  retryReplay | linkDownTimeout | groupFailover | failoverPacket | linkSiteFail | siteRetrainDone | packetAdmit |
  packetForward | endToEndAck | refusal | e2eTimeout | portTraining | portTrainDone | identityExchange | candidateFlood |
  assign | assignAnswer | promenadeDone | rootLostTimeout | portAttach | portRetrainRetry | allReduce | reduceScatter |
  allGather | broadcast | allToAll | fused | colReady | colData | stepTimeout | suspect | reformAck | colCommit | exclude |
  leaderTimeout | vceClose | regulatorAdmit | vinSample | clusterClockStop | clusterGate | governorTick |
  restCollectiveTimeout | aonRefLoss | replan | peakCharge | selfTestCmd | selfTestAbort | faultLogFlush | stewardTakeover |
  keyLoad | keyErase | keyUnseal | linkKeyLoad | rootMsg | ctxKeyWrite | alarmPolicyWrite | debugNonceRead | perstRelease |
  configRequest | vfEnable | fwWriteSlot | fwPreferSlot | fwCommitMinver | dbBind | dbUnbind | uncorrectableCodeword |
  stewardDieLoss | secCmdComplete | fwCtrlComplete | flowTableLoadDone =>
    exact ⟨_, by simp, fun _ => rfl⟩
  | _ => cases h

theorem sameWork_exec {c : Instr} {s t : State} (h : Machine.keepsWork c = true) (ht : exec c s = .next t) :
    SameWork s.dev t.dev := by
  obtain ⟨e, he, hc⟩ := exec_makes_keepsWork h
  obtain ⟨-, rfl⟩ := eq_of_perform_next (hc s ▸ ht)
  exact sameWork_run he s.dev

end Sys2Proof.Machine
end

section
/-! PROOFS. Effects that leave the registers alone: one lemma for each definition that the commands of `keepsRegs` are made of. -/

namespace Sys2Proof.Machine

/-- A change writes no register. -/
def Upd.KeepsRegs : Upd → Prop
  | .regs _ _ | .regsDrop _ => False
  | _ => True

theorem regs_apply_of_keepsRegs {u : Upd} (h : u.KeepsRegs) (d : Device) : (u.apply d).regs = d.regs := by
  cases u with
  | regs | regsDrop => cases h
  | _ => rfl

theorem reg_run_of_keepsRegs {e : Eff} (he : e.Makes Upd.KeepsRegs) (d : Device) (r : Reg) (i : Nat) :
    (e.run d).reg r i = d.reg r i :=
  Eff.run_frame (f := (·.reg r i))
    (fun _ d h => congrArg (fun m => (mapGet dfltRegs m (regKey r i)).toNat) (regs_apply_of_keepsRegs h d)) e he d

theorem Upd.OfStore.keepsRegs {u : Upd} (h : u.OfStore) : u.KeepsRegs := by
  cases u with
  | regs | regsDrop => cases h
  | _ => trivial

@[simp] theorem store_keepsRegs (as : List Nat) (bs : List Byte) : (store as bs).Makes Upd.KeepsRegs :=
  Eff.Makes.mono (fun _ => Upd.OfStore.keepsRegs) _ (store_makes as bs)

@[simp] theorem whileIt_keepsRegs (c : Device → Bool) (e : Eff) (h : e.Makes Upd.KeepsRegs) :
    (whileIt c e).Makes Upd.KeepsRegs := by
  simp [whileIt, h]

/-! ### Memory -/

@[simp] theorem releaseWrites_keepsRegs : releaseWrites.Makes Upd.KeepsRegs := by
  simp [releaseWrites, putHeldWrites, Upd.KeepsRegs]

@[simp] theorem routeInstall_keepsRegs : routeInstall.Makes Upd.KeepsRegs := by
  simp [routeInstall, putNoTransit, putRoutesStale, Upd.KeepsRegs]

@[simp] theorem groupPoisonDone_keepsRegs (g : Nat) : (groupPoisonDone g).Makes Upd.KeepsRegs := by
  simp [groupPoisonDone, putGroupLost, putLines, putGroupPoison, Upd.KeepsRegs]

@[simp] theorem frameFree_keepsRegs (p frame : Nat) : (frameFree p frame).Makes Upd.KeepsRegs := by
  simp [frameFree, putFrameBusy, Upd.KeepsRegs]

/-! ### Packets -/

@[simp] theorem transmit_keepsRegs (i : Nat) : (transmit i).Makes Upd.KeepsRegs := by
  simp [transmit, modSent, putPorts, Upd.KeepsRegs]

@[simp] theorem freeVia_keepsRegs (p : Packet) : (freeVia p).Makes Upd.KeepsRegs := by
  simp [freeVia, freeFlits, modPorts, sendControl, modSent, Upd.KeepsRegs]

@[simp] theorem packetAdmit_keepsRegs (i vc : Nat) : (packetAdmit i vc).Makes Upd.KeepsRegs := by
  simp only [packetAdmit, Eff.makes_obs]
  intro d
  split <;> simp [putEgress, putPorts, Upd.KeepsRegs]

@[simp] theorem e2eTimeout_keepsRegs (tag : Nat) : (e2eTimeout tag).Makes Upd.KeepsRegs := by
  simp [e2eTimeout, failTag, onTag, modRings, Upd.KeepsRegs]

/-! ### Isolation, the fault log and debug -/

@[simp] theorem regulatorAdmit_keepsRegs (p k n filled : Nat) : (regulatorAdmit p k n filled).Makes Upd.KeepsRegs := by
  simp [regulatorAdmit, putBuckets, Upd.KeepsRegs]

@[simp] theorem faultLogFlush_keepsRegs : faultLogFlush.Makes Upd.KeepsRegs := by
  simp [faultLogFlush, saveLog, putFlogSaved, putNvLog, putOldLog, Upd.KeepsRegs]

@[simp] theorem debugNonceRead_keepsRegs : debugNonceRead.Makes Upd.KeepsRegs := by
  simp [debugNonceRead, drawNonce, freeBytes, putFree, putDebugNonce, modSent, Upd.KeepsRegs]

@[simp] theorem stewardDieLoss_keepsRegs : stewardDieLoss.Makes Upd.KeepsRegs := by
  simp [stewardDieLoss, stewardLost, putOff, Upd.KeepsRegs]

/-! ### The commands -/

/-- The effect of each command listed in `keepsRegs` writes no register. -/
theorem exec_makes_keepsRegs {c : Instr} (h : Machine.keepsRegs c = true) :
    ∃ e : Eff, e.Makes Upd.KeepsRegs ∧ ∀ s, exec c s = perform c.wellFormed e s := by
  cases c with
  | routeInstall | groupPoisonDone | frameFree | packetAdmit | e2eTimeout | regulatorAdmit | faultLogFlush | debugNonceRead |
  stewardDieLoss =>
    exact ⟨_, by simp, fun _ => rfl⟩
  | _ => cases h

theorem reg_exec {c : Instr} {s t : State} (r : Reg) (i : Nat) (h : Machine.keepsRegs c = true) (ht : exec c s = .next t) :
    t.dev.reg r i = s.dev.reg r i := by
  obtain ⟨e, he, hc⟩ := exec_makes_keepsRegs h
  obtain ⟨-, rfl⟩ := eq_of_perform_next (hc s ▸ ht)
  exact reg_run_of_keepsRegs he s.dev r i

end Sys2Proof.Machine
end

section
/-! PROOFS. What commands and stores leave alone. -/

namespace Sys2Proof.Machine

theorem rekeys_eq_false {d : Device} {x : Nat} :
    rekeys d x = false ↔ (inDram x = true → d.memKeyAt (place x / 64 * 64) = keyOf d x) := by
  simp [rekeys]

/-- Settles O60: by the kinds of the changes that effects make, and for the bytes of a store by induction on its writes. -/
theorem frames : Obligations.Frames := by
  refine ⟨fun _ _ _ h ht => sameWork_exec h ht, fun _ _ _ r i h ht => reg_exec r i h ht,
    fun d as bs a h => ?_, fun d as bs k a b hd h hn ha hb => ?_,
    fun d as bs a r i => ⟨tmemAt_store d as bs a, reg_run_of_keepsRegs (store_keepsRegs as bs) d r i⟩⟩
  · refine memAt_store_other bs fun x hx => ⟨(h x hx).1, fun hr => ?_⟩
    obtain ⟨hi, hk⟩ := rekeys_eq_true.1 hr
    exact (h x hx).2 hi hk
  · have hkeys : ∀ x ∈ as, rekeys d x = false := fun x hx => rekeys_eq_false.2 (h x hx)
    have hmem : ((store as bs).run d).memAt (place a) = b := memAt_store_self hd hkeys hn ha hb
    have hsame : rekeys ((store as bs).run d) a = false :=
      (rekeys_store bs hkeys a).trans (hkeys a (List.mem_of_getElem? ha))
    exact ⟨hmem, fun hi => (byte_of_key hi hsame).trans hmem⟩

end Sys2Proof.Machine
end

section
/-! PROOFS. The package and its hierarchy (R21 to R31): the binding rule, site lookups, retirements and substitutions. -/

namespace Sys2Proof.Machine

/- As in the tests, one theorem after another: each one elaborated beside others holds a thread's stack. -/
set_option Elab.async false

/-! ### The binding rule (R22) -/

section
variable {bad : Nat → Bool} {kept : Option Nat} {n i j : Nat}

theorem bindChild_home (h : bad i = false) : bindChild bad kept n i = some i := by
  simp [bindChild, h]

/-- The record of the spare site counts for a child whose home site is retired. -/
theorem retired_of_kept {k : Nat} (h : (kept.filter fun k => k < n && bad k) = some k) : k < n ∧ bad k = true := by
  simpa using (Option.filter_eq_some_iff.1 h).2

/-- With one retired site, which is the home site of a child, that child has the spare site, whatever is recorded. -/
theorem bindChild_spare (hi : i < n) (h : ∀ j ≤ n, bad j = true ↔ j = i) : bindChild bad kept n i = some n := by
  have hbad : bad i = true := (h i hi.le).2 rfl
  have hspare : bad n = false := by simpa [hi.ne'] using h n le_rfl
  simp only [bindChild, hbad, hspare, Bool.not_true, Bool.false_eq_true, if_false]
  split
  next k hk =>
    obtain ⟨hkn, hkb⟩ := retired_of_kept hk
    simp [(h k hkn.le).1 hkb]
  next =>
    have hbelow : ∀ j < i, bad j = false := fun j hj => by simpa [hj.ne] using h j (by omega)
    simpa using hbelow

/-- A child that has the spare site is the one recorded, or, with none recorded, the lowest whose home site is retired. -/
theorem spareHolder_of_bindChild (hi : i < n) (h : bindChild bad kept n i = some n) :
    (kept.filter fun k => k < n && bad k) = some i ∨
    (kept.filter fun k => k < n && bad k) = none ∧ bad i = true ∧ ∀ j < i, bad j = false := by
  unfold bindChild at h
  split at h
  next => exact absurd (Option.some.inj h) hi.ne
  next hbad =>
    split at h
    next => cases h
    next =>
      split at h
      next k hk =>
        split at h
        next hki => exact .inl (beq_iff_eq.1 hki ▸ hk)
        next => cases h
      next hk =>
        split at h
        next hall => exact .inr ⟨hk, by simpa using hbad, by simpa using hall⟩
        next => cases h

/-- Two children that have the spare site are one. -/
theorem bindChild_spare_inj (hi : i < n) (hj : j < n) (h : bindChild bad kept n i = some n)
    (h' : bindChild bad kept n j = some n) : i = j := by
  rcases spareHolder_of_bindChild hi h with hk | ⟨hk, hbi, hlow⟩ <;>
    rcases spareHolder_of_bindChild hj h' with hk' | ⟨hk', hbj, hlow'⟩
  · exact Option.some.inj (hk.symm.trans hk')
  · exact absurd (hk.symm.trans hk') (by simp)
  · exact absurd (hk.symm.trans hk') (by simp)
  · rcases Nat.lt_trichotomy i j with hij | rfl | hji
    · exact absurd hbi (by simp [hlow' i hij])
    · rfl
    · exact absurd hbj (by simp [hlow j hji])

end

theorem dieSite_eq_boundAt (d : Device) (die : Nat) : dieSite d die = boundAt d 3 0 die := by
  have hbad : dieRetired d = fun j => siteBad d 3 (0 * (lvlCount 3 + 1) + j) := by
    funext j
    simp [dieRetired, siteBad, siteKey]
  rw [dieSite, boundAt, hbad]
  rfl

/-- Settles O54: by what `bindChild` makes of a good home site, of one retired site, and of a child on the spare site. -/
theorem bindingRule : Obligations.BindingRule :=
  ⟨fun _ _ _ _ h => bindChild_home h, fun _ _ _ _ hi h => bindChild_spare hi h,
    fun _ _ _ _ _ hi hj h h' => bindChild_spare_inj hi hj h h', dieSite_eq_boundAt⟩

/-! ### Site lookups (R31, R489) -/

section
variable {s : State} {rq : Nat} {d : Device}

theorem exec_siteQuery (h : AsksAon s rq d) (v : Nat) :
    exec (.siteQuery rq v) s = .next { s with dev := (writeReg rq .STW_SITE_QUERY rq v).run d } := by
  simp only [exec, execSiteQuery, h.lt, decide_true, perform_true, run_aonDo h]

theorem exec_siteResultValid (hr : rq < 2049) (hu : up s.dev = true) :
    exec (.siteResultValid rq) s = .next { s with dev := (siteResultValid rq).run s.dev } := by
  simp only [exec, execSiteResultValid, hr, decide_true, perform_true, run_whileIt hu]

theorem mayWrite_own_siteQuery (d : Device) (rq : Nat) :
    mayWrite d rq .STW_SITE_QUERY rq = if isSteward rq || pfOrOwner d rq then allBits else 0 := by
  rw [mayWrite_siteQuery]
  cases isSteward rq <;> simp

theorem writeReg_siteQuery (rq i v : Nat) : writeReg rq .STW_SITE_QUERY i v =
    .obs fun d => if mayWrite d rq .STW_SITE_QUERY i == 0 then denied else siteQuery rq v := rfl

/-- A requester with the right to its own copy of the query stores it and starts a lookup. -/
theorem run_writeReg_siteQuery (h : (isSteward rq || pfOrOwner d rq) = true) (v : Nat) :
    (writeReg rq .STW_SITE_QUERY rq v).run d = (Eff.all [
      setReg .STW_SITE_QUERY rq (bits v 17 16 * 65536 + bits v 13 8 * 256 + bits v 6 0),
      setF F.STW_SITE_RESULT_valid rq 0, putLookups rq true]).run d := by
  have hright : (mayWrite d rq .STW_SITE_QUERY rq == 0) = false := by rw [mayWrite_own_siteQuery, h]; decide
  have hserved : (isSteward rq || isPf rq || ownsAny d rq) = true := by rw [Bool.or_assoc]; exact h
  simp only [writeReg_siteQuery, Eff.run_obs, hright, Bool.false_eq_true, if_false, siteQuery, hserved, Eff.when_true]

theorem run_writeReg_siteQuery_denied (h : (isSteward rq || pfOrOwner d rq) = false) (v : Nat) :
    (writeReg rq .STW_SITE_QUERY rq v).run d = denied.run d := by
  have hright : (mayWrite d rq .STW_SITE_QUERY rq == 0) = true := by rw [mayWrite_own_siteQuery, h]; decide
  simp only [writeReg_siteQuery, Eff.run_obs, hright, if_true]

end

/-- Settles O3: the right to the own copy of the query decides a SITE_QUERY, and a lookup in progress a SITE_RESULT_VALID. -/
theorem siteLookups : Obligations.SiteLookups := by
  refine ⟨fun s d rq v h hr => ?_, fun s d rq v h hs hp => ?_, fun s rq hr hu hl => ?_, fun s rq hr hu hl => ?_⟩
  · rw [Gives, exec_siteQuery h, run_writeReg_siteQuery hr]
  · rw [Gives, exec_siteQuery h, run_writeReg_siteQuery_denied (by rw [hs, hp]; rfl), denied]
  · rw [Does, Gives, exec_siteResultValid hr hu, siteResultValid, Eff.run_obs, hl, Eff.when_true]
  · rw [Does, Gives, exec_siteResultValid hr hu, siteResultValid, Eff.run_obs, hl, Eff.when_false]

/-! ### Retired codec engines, ingest units and shells, and the installing of routes (R25, R26) -/

section
variable {s : State} (hp : powered s.dev = true)
include hp

theorem does_codecEngineRetire {e : Nat} (he : e < 34) : Does (.codecEngineRetire e) s (codecEngineRetire e) := by
  simp only [Does, Gives, exec, execCodecEngineRetire, he, decide_true, perform_true, run_whileIt hp]

theorem does_ingestUnitRetire {site : Nat} (hs : site < 17) : Does (.ingestUnitRetire site) s (ingestUnitRetire site) := by
  simp only [Does, Gives, exec, execIngestUnitRetire, hs, decide_true, perform_true, run_whileIt hp]

theorem does_shellRetire {site : Nat} (hs : site < 16) (routerDead : Bool) :
    Does (.shellRetire site routerDead) s (shellRetire site routerDead) := by
  simp only [Does, Gives, exec, execShellRetire, hs, decide_true, perform_true, run_whileIt hp]

theorem exec_routeInstall : exec .routeInstall s = .next { s with dev := routeInstall.run s.dev } := by
  simp only [exec, execRouteInstall, perform_true, run_whileIt hp]

end

/-- Settles O5: each command has its effect where the blocks are up; that of ROUTE_INSTALL goes by whether a change of routes
waits. -/
theorem retirements : Obligations.Retirements := by
  refine ⟨fun s e he hp => does_codecEngineRetire hp he, fun s site hs hp => does_ingestUnitRetire hp hs,
    fun s site routerDead hs hp => does_shellRetire hp hs routerDead, fun s hp hr => ?_, fun s hp hr => ?_⟩
  · rw [Does, Gives, exec_routeInstall hp, routeInstall, Eff.run_obs, hr, Eff.when_true]
  · rw [Does, Gives, exec_routeInstall hp, routeInstall, Eff.run_obs, hr, Eff.when_false]

/-! ### Substitutions: what a failed engine, core, cluster or die costs (R23, R24, R29, R30, R410) -/

/-! ### A failed site -/

/-- The logical core that an engine or core site serves, or the first logical core of a cluster or die site's. -/
def failedCore (d : Device) (lvl site : Nat) : Nat :=
  match lvl with
  | 0 => (coreOfSite d (site / 5)).getD 0
  | 1 => (coreOfSite d site).getD 0
  | 2 => (clusterOfSite d site).getD 0 * 16
  | _ => (dieOfSite d site).getD 0 * 128

/-- The log entry of a substitution. -/
def substitutionLog (lvl site : Nat) : Eff :=
  logError { severity := 0, flags := 2, source := if lvl ≤ 1 then 6 else if lvl == 2 then 7 else 0,
             site := failSite.siteDie lvl site }

/-- The context of a core, where it has one, ends with SUBSTITUTION: what a core whose spare was not free loses (R410). -/
def endContext (d : Device) (core : Nat) : Eff :=
  match (d.coresAt core).ctx with
  | some c => teardown c codeSubstitution
  | none => .skip

/-- Site 16 of a cluster is retired: a core that a migration has there is on its home site again (R409). -/
def returnMoved (d : Device) (site : Nat) : Eff :=
  .when (site % 17 == 16) (.each (clusterOfSite d (site / 17)).toList fun cl => .upd (.movedDrop fun k => k / 16 == cl))

/-- What the retiring of a site changes where no parent goes with it: the record and the binding; for an engine or core the mesh map
of its cluster, for a cluster or die what is powered. -/
def retireAlone (d : Device) (lvl site : Nat) : Eff := .all [
  putRetired (siteKey lvl site) true, putApplied (siteKey lvl site) true,
  .when (lvl == 1) (returnMoved d site),
  keepDieSpare, saveSpare, refreshGen (siteServes d lvl site) (absentDies d),
  .when (lvl ≤ 1) (refreshMesh (if lvl == 0 then site / 85 else site / 17)),
  .when (2 ≤ lvl) (.seq refreshPower (refreshCodecs (boundDies d)))]

section
variable {d : Device} {lvl site top topSite : Nat}

/-- A failed site is retired, then costs what the highest level retired with it costs, and is logged. -/
theorem run_failSite (h : (retireChain d 3 lvl site).getLast? = some (top, topSite)) (readable : Bool) :
    (failSite lvl site readable).run d = (Eff.all [retireNow lvl site,
      .when (lvl ≤ 1 && 2 ≤ top && siteServes d lvl site) (endContext d (failedCore d lvl site)),
      .when (siteServes d lvl site) (substituteAt d top topSite (failedCore d lvl site) readable),
      substitutionLog lvl site]).run d := by
  have hl : (retireChain d 3 lvl site).getLastD (lvl, site) = (top, topSite) := by
    rw [List.getLastD_eq_getLast?, h]; rfl
  rw [failSite, Eff.run_obs]
  dsimp only
  rw [hl]
  rfl

/-- Where the loss of an engine or a core takes its cluster with it, the core's own context ends with SUBSTITUTION. -/
theorem run_failSite_lost {k c : Nat} (h : (retireChain d 3 lvl site).getLast? = some (top, topSite))
    (hl : lvl ≤ 1) (ht : 2 ≤ top) (hs : siteServes d lvl site = true) (hk : failedCore d lvl site = k)
    (hc : (d.coresAt k).ctx = some c) (readable : Bool) :
    (failSite lvl site readable).run d = (Eff.all [retireNow lvl site, teardown c codeSubstitution,
      substituteAt d top topSite k readable, substitutionLog lvl site]).run d := by
  simp only [run_failSite h, hl, ht, hs, hk, endContext, hc, decide_true, Bool.and_self, Eff.when_true]

/-- A serving cluster or die that fails ends the work on the highest level retired with it, and no context for want of a spare
core. -/
theorem run_failSite_high (h : (retireChain d 3 lvl site).getLast? = some (top, topSite)) (hl : 2 ≤ lvl)
    (hs : siteServes d lvl site = true) (readable : Bool) :
    (failSite lvl site readable).run d = (Eff.all [retireNow lvl site,
      substituteAt d top topSite (failedCore d lvl site) readable, substitutionLog lvl site]).run d := by
  have hn : decide (lvl ≤ 1) = false := decide_eq_false (by omega)
  simp only [run_failSite h, hs, hn, Bool.false_and, Eff.when_false, Eff.when_true, Eff.run_all_cons, Eff.run_skip]

theorem run_retireNow_alone (h : retireChain d 3 lvl site = [(lvl, site)]) :
    (retireNow lvl site).run d = (retireAlone d lvl site).run d := by
  have hm (e : Eff) : Eff.when (lvl == 1) (.when (site % 17 == 16) e) = .when (lvl == 1 && site % 17 == 16) e := by
    cases lvl == 1 <;> rfl
  simp only [retireNow, retireAlone, returnMoved, hm, Eff.run_obs, h, Eff.run_all_cons, Eff.run_all_nil, Eff.run_each_cons,
    Eff.run_each_nil, Eff.run_seq, List.any_cons, List.any_nil, Bool.or_false]

/-- A failed site that takes no parent with it ends no context for want of a spare core. -/
theorem run_failSite_alone (h : retireChain d 3 lvl site = [(lvl, site)]) (readable : Bool) :
    (failSite lvl site readable).run d = (Eff.all [retireAlone d lvl site,
      .when (siteServes d lvl site) (substituteAt d lvl site (failedCore d lvl site) readable),
      substitutionLog lvl site]).run d := by
  have hl : (retireChain d 3 lvl site).getLast? = some (lvl, site) := by rw [h]; rfl
  have hn : (decide (lvl ≤ 1) && decide (2 ≤ lvl)) = false := by simp
  simp only [run_failSite hl, hn, Bool.false_and, Eff.when_false, Eff.run_all_cons, Eff.run_all_nil, Eff.run_skip,
    run_retireNow_alone h]

end

/-! ### The levels -/

theorem substitutionLog_engine {e : Nat} (core : Nat) (he : e < 5) : substitutionLog 0 (core * 5 + e) =
    logError { severity := 0, flags := 2, source := 6, site := core / 153 } := by
  have hd : (core * 5 + e) / 765 = core / 153 := by omega
  rw [← hd]
  rfl

theorem failedCore_engine {d : Device} {core e k : Nat} (he : e < 5) (h : coreOfSite d core = some k) :
    failedCore d 0 (core * 5 + e) = k := by
  have hq : (core * 5 + e) / 5 = core := by omega
  rw [failedCore, hq, h, Option.getD_some]

theorem retireChain_die (d : Device) (site : Nat) : retireChain d 3 3 site = [(3, site)] := rfl

theorem substituteAt_cluster (d : Device) (site cl : Nat) (readable : Bool) : substituteAt d 2 site (cl * 16) readable =
    .seq (.each (ctxsOn d ((List.range 16).map (cl * 16 + ·))) (teardown · codeDataLost)) (chargeAvail 5000) := by
  rw [substituteAt, Nat.mul_div_cancel cl (by decide)]

theorem substituteAt_die (d : Device) (site core : Nat) (readable : Bool) : substituteAt d 3 site core readable =
    .seq (.each (dieContexts d site) (teardown · codeDataLost))
      (.seq (chargeAvail 20000) (.when (site != 16 && (dieOfSite d 16).isNone) emptySpareFloor)) := rfl

theorem substitutionLog_core (site : Nat) : substitutionLog 1 site =
    logError { severity := 0, flags := 2, source := 6, site := site / 153 } := rfl

theorem substitutionLog_cluster (site : Nat) : substitutionLog 2 site =
    logError { severity := 0, flags := 2, source := 7, site := site / 9 } := rfl

theorem substitutionLog_die (site : Nat) : substitutionLog 3 site =
    logError { severity := 0, flags := 2, source := 0, site := site } := rfl

section
variable {d : Device} {site : Nat}

theorem failedCore_core {k : Nat} (h : coreOfSite d site = some k) : failedCore d 1 site = k := by
  rw [failedCore, h, Option.getD_some]

theorem failedCore_cluster {cl : Nat} (h : clusterOfSite d site = some cl) : failedCore d 2 site = cl * 16 := by
  rw [failedCore, h, Option.getD_some]

theorem siteServes_core : siteServes d 1 site = (coreOfSite d site).isSome := rfl

theorem siteServes_cluster : siteServes d 2 site = (clusterOfSite d site).isSome := rfl

theorem siteServes_die : siteServes d 3 site = (dieOfSite d site).isSome := rfl

/-- An engine that fails alone costs its core a beat, where it served. -/
theorem run_failSite_engine {core e : Nat} (he : e < 5) (h : retireChain d 3 0 (core * 5 + e) = [(0, core * 5 + e)])
    (readable : Bool) : (failSite 0 (core * 5 + e) readable).run d = (Eff.all [
      putRetired (siteKey 0 (core * 5 + e)) true, putApplied (siteKey 0 (core * 5 + e)) true, keepDieSpare, saveSpare,
      refreshGen (siteServes d 0 (core * 5 + e)) (absentDies d), refreshMesh (core / 17),
      .when (siteServes d 0 (core * 5 + e)) (replayOrTear (failedCore d 0 (core * 5 + e)) readable),
      logError { severity := 0, flags := 2, source := 6, site := core / 153 }]).run d := by
  have hq : (core * 5 + e) / 85 = core / 17 := by omega
  rw [run_failSite_alone h, substitutionLog_engine core he]
  simp [retireAlone, hq, substituteAt]

/-- A core that fails alone costs a beat, where it served. -/
theorem run_failSite_core (h : retireChain d 3 1 site = [(1, site)]) (readable : Bool) :
    (failSite 1 site readable).run d = (Eff.all [
      putRetired (siteKey 1 site) true, putApplied (siteKey 1 site) true, returnMoved d site, keepDieSpare, saveSpare,
      refreshGen (coreOfSite d site).isSome (absentDies d), refreshMesh (site / 17),
      .when (coreOfSite d site).isSome (replayOrTear (failedCore d 1 site) readable),
      logError { severity := 0, flags := 2, source := 6, site := site / 153 }]).run d := by
  rw [run_failSite_alone h]
  simp [retireAlone, siteServes_core, substituteAt, substitutionLog_core]

/-- A cluster that fails alone costs the contexts on it, where it served. -/
theorem run_failSite_cluster (h : retireChain d 3 2 site = [(2, site)]) (readable : Bool) :
    (failSite 2 site readable).run d = (Eff.all [
      putRetired (siteKey 2 site) true, putApplied (siteKey 2 site) true, keepDieSpare, saveSpare,
      refreshGen (clusterOfSite d site).isSome (absentDies d), refreshPower, refreshCodecs (boundDies d),
      .when (clusterOfSite d site).isSome (substituteAt d 2 site (failedCore d 2 site) readable),
      logError { severity := 0, flags := 2, source := 7, site := site / 9 }]).run d := by
  rw [run_failSite_alone h]
  simp [retireAlone, siteServes_cluster, substitutionLog_cluster]

/-- A die costs the contexts on it, where it served. -/
theorem run_failSite_die (readable : Bool) :
    (failSite 3 site readable).run d = (Eff.all [
      putRetired (siteKey 3 site) true, putApplied (siteKey 3 site) true, keepDieSpare, saveSpare,
      refreshGen (dieOfSite d site).isSome (absentDies d), refreshPower, refreshCodecs (boundDies d),
      .when (dieOfSite d site).isSome (substituteAt d 3 site (failedCore d 3 site) readable),
      logError { severity := 0, flags := 2, source := 0, site := site }]).run d := by
  rw [run_failSite_alone (retireChain_die d site)]
  simp [retireAlone, siteServes_die, substitutionLog_die]

end

/-! ### The commands -/

section
variable {s : State} {d : Device} (hp : powered s.dev = true)
include hp

theorem exec_engineSubstitution {core e : Nat} (hc : core < 2601) (he : e < 5) {second : Option Nat}
    (h2 : second.all (· < 5) = true) (hd : (dropSlice (coresServed · 1 core)).run s.dev = d) (readable : Bool) :
    exec (.engineSubstitution core e second readable) s =
      .next { s with dev := (engineSubstitution core e second readable).run d } := by
  simp only [exec, execEngineSubstitution, hc, he, h2, decide_true, Bool.and_self, perform_true, run_whileIt hp, Eff.run_seq, hd]

variable {site : Nat}

theorem exec_coreSubstitution (hs : site < 2601) (hd : (dropSlice (coresServed · 1 site)).run s.dev = d) (readable : Bool) :
    exec (.coreSubstitution site readable) s = .next { s with dev := (failSite 1 site readable).run d } := by
  simp only [exec, execCoreSubstitution, hs, decide_true, perform_true, run_whileIt hp, Eff.run_seq, hd, coreSubstitution]

theorem exec_clusterSubstitution (hs : site < 153) (hd : (dropSlice (coresServed · 2 site)).run s.dev = d) :
    exec (.clusterSubstitution site) s = .next { s with dev := (failSite 2 site false).run d } := by
  simp only [exec, execClusterSubstitution, hs, decide_true, perform_true, run_whileIt hp, Eff.run_seq, hd, clusterSubstitution]

theorem exec_dieSubstitution (hs : site < 17) (hd : (dropSlice (coresServed · 3 site)).run s.dev = d) :
    exec (.dieSubstitution site) s = .next { s with dev := (failSite 3 site false).run d } := by
  simp only [exec, execDieSubstitution, hs, decide_true, perform_true, run_whileIt hp, Eff.run_seq, hd, dieSubstitution]

end

/-- Settles O4: by what the loss of a site alone costs at each level, and what it costs where a parent goes with it. -/
theorem substitutions : Obligations.Substitutions := by
  refine ⟨fun s d core e k readable hc he hp hd h hs hk => ?_, fun s d core e readable hc he hp hd h hs => ?_,
    fun s d core e e2 readable hc he he2 hp hd => ?_, fun s d core e c k top topSite readable hc he hp hd h ht hs hk hx => ?_,
    fun s d site k readable hr hp hd h hk => ?_, fun s d site readable hr hp hd h hk => ?_,
    fun s d site c k top topSite readable hr hp hd h ht hk hx => ?_, fun s d site cl hr hp hd h hk => ?_,
    fun s d site hr hp hd h hk => ?_, fun s d site cl hr hp hd h hk => ?_, fun s d site die hr hp hd hk => ?_,
    fun s d site hr hp hd hk => ?_⟩
  · rw [Gives, exec_engineSubstitution hp hc he rfl hd, engineSubstitution, run_failSite_engine he h, hs, failedCore_engine he hk,
      Eff.when_true]
  · rw [Gives, exec_engineSubstitution hp hc he rfl hd, engineSubstitution, run_failSite_engine he h, hs, Eff.when_false]
    simp only [Eff.run_all_cons, Eff.run_skip]
  · rw [Gives, exec_engineSubstitution hp hc he (by simpa using he2) hd, engineSubstitution]
  · rw [Gives, exec_engineSubstitution hp hc he rfl hd, engineSubstitution,
      run_failSite_lost h (Nat.zero_le 1) ht hs (failedCore_engine he hk) hx, substitutionLog_engine core he]
  · rw [Gives, exec_coreSubstitution hp hr hd, run_failSite_core h, failedCore_core hk, hk, Option.isSome_some, Eff.when_true,
      returnMoved]
  · rw [Gives, exec_coreSubstitution hp hr hd, run_failSite_core h, hk, Option.isSome_none, Eff.when_false, returnMoved]
    simp only [Eff.run_all_cons, Eff.run_skip]
  · rw [Gives, exec_coreSubstitution hp hr hd,
      run_failSite_lost h le_rfl ht (by rw [siteServes_core, hk, Option.isSome_some]) (failedCore_core hk) hx,
      substitutionLog_core]
  · rw [Gives, exec_clusterSubstitution hp hr hd, run_failSite_cluster h, failedCore_cluster hk, hk, Option.isSome_some,
      Eff.when_true, substituteAt_cluster]
    simp only [Eff.run_all_cons, Eff.run_seq]
  · rw [Gives, exec_clusterSubstitution hp hr hd, run_failSite_cluster h, hk, Option.isSome_none, Eff.when_false]
    simp only [Eff.run_all_cons, Eff.run_skip]
  · have hl : (retireChain d 3 2 site).getLast? = some (3, site / 9) := by rw [h]; rfl
    have hs : siteServes d 2 site = true := by rw [siteServes_cluster, hk, Option.isSome_some]
    rw [Gives, exec_clusterSubstitution hp hr hd, run_failSite_high hl le_rfl hs, failedCore_cluster hk, substitutionLog_cluster]
  · rw [Gives, exec_dieSubstitution hp hr hd, run_failSite_die, hk, Option.isSome_some, Eff.when_true, substituteAt_die]
    simp only [Eff.run_all_cons, Eff.run_seq]
  · rw [Gives, exec_dieSubstitution hp hr hd, run_failSite_die, hk, Option.isSome_none, Eff.when_false]
    simp only [Eff.run_all_cons, Eff.run_skip]

end Sys2Proof.Machine
end

section
/-! PROOFS. Figures (R57 to R68): loads, switches, staged slots and patches. -/

namespace Sys2Proof.Machine

/- As in the tests, one theorem after another: each one elaborated beside others holds a thread's stack. -/
set_option Elab.async false

/-! ### Asking for a load and starting one (R57, R61) -/

theorem exec_figLoadGo {s : State} {d : Device} {rq p v : Nat} (hp : p < 32) (h : Writes s rq .FIG_LOAD p v 31 d) :
    exec (.figLoadGo rq p v) s = .next { s with dev := (queueLoad p).run d } := by
  simp only [exec, execFigLoadGo, h.asks.lt, hp, decide_true, Bool.and_self, perform_true, figLoadGo, run_writes h]

theorem exec_loadStart {s : State} (hw : working s.dev = true) :
    exec .loadStart s = .next { s with dev := loadStart.run s.dev } := by
  simp only [exec, execLoadStart, perform_true, run_whileIt hw]

theorem run_queueLoad_busy {d : Device} {p : Nat} (h : loadBusy d p = true) :
    (queueLoad p).run d = (setF F.FIG_STATUS_refused p 1).run d := by
  simp only [queueLoad, Eff.run_obs, h, if_true]

/-- With no load of the partition under way, the registers of the request give the load that is queued. -/
theorem run_queueLoad_free {d : Device} {p : Nat} (h : loadBusy d p = false) : (queueLoad p).run d =
    (Eff.all [setF F.FIG_STATUS_refused p 0, figStatus p 1 0 (d.fld F.FIG_LOAD_slot p),
      modLoadQueue (· ++ [{ part := p, slot := d.fld F.FIG_LOAD_slot p, src := d.fld F.FIG_SRC_addr p,
                            switchWhenDone := d.fld F.FIG_LOAD_switch_when_done p == 1 }])]).run d := by
  simp only [queueLoad, Eff.run_obs, h, Bool.false_eq_true, if_false]

/-- With no load queued, or four running, none starts. -/
theorem run_loadStart_waits {d : Device} (h : d.loadQueue = [] ∨ 4 ≤ d.loading.length) : loadStart.run d = d := by
  cases hq : d.loadQueue with
  | nil => simp only [loadStart, Eff.run_obs, hq, Eff.run_skip]
  | cons r rest =>
    have hl : ¬ d.loading.length < 4 := by
      rcases h with h | h
      · rw [hq] at h
        cases h
      · omega
    simp only [loadStart, Eff.run_obs, hq, hl, decide_false, Eff.when_false, Eff.run_skip]

/-! ### The end of a load (R58, R59) -/

/-- The checks that a full and a partial image have in common: of the header, and of the signature. -/
def commonChecks (d : Device) (r : LoadReq) : Chk Unit := do
  checkHeader r.image (srcAllowed d r.part r.src) (srcRoom d r.part r.src)
  checkSignature d r.part r.image

/-- The end of the load of a partial image that passes the common checks. -/
def endsPartial (d : Device) (r : LoadReq) : Eff :=
  if (d.switchesAt r.part).isSome || !(d.patchesAt r.part).isEmpty then
    .seq (figFail r.part 0x55 r.slot) (setReg .FIG_DETAIL r.part noIndex)
  else match checkPatch d r.part r.image with
    | .error (code, idx) => loadFails r.part code idx r.slot
    | .ok (slot, g, ps) => match d.slotsAt (r.part * 8 + slot) with
      | none => loadFails r.part 0x53 noIndex r.slot
      | some f => .all [stagePatch r.part slot f g ps, setReg .FIG_DETAIL r.part noIndex,
          decodeToStaging r.part slot r.image, .when r.switchWhenDone (requestSwitch r.part r.slot)]

/-- The end of the load of a full image that passes the common checks. -/
def endsFull (d : Device) (r : LoadReq) : Eff :=
  match checkFull d r.part r.slot r.image with
  | .error (code, idx) => loadFails r.part code idx r.slot
  | .ok f => .all [dropSlot r.part r.slot, fillSlot r.part r.slot r.src f, decodeToStaging r.part r.slot r.image,
      figStatus r.part 4 0 r.slot, setReg .FIG_DETAIL r.part noIndex, .when r.switchWhenDone (requestSwitch r.part r.slot)]

/-- The end of a load whose source could be read. -/
def endsChecked (d : Device) (r : LoadReq) : Eff :=
  match commonChecks d r with
  | .error (code, idx) => loadFails r.part code idx r.slot
  | .ok _ => if imgPartial r.image then endsPartial d r else endsFull d r

theorem endsChecked_bad {d : Device} {r : LoadReq} {code idx : Nat} (h : commonChecks d r = .error (code, idx)) :
    endsChecked d r = loadFails r.part code idx r.slot := by
  rw [endsChecked, h]

theorem exec_loadComplete {s : State} {i : Nat} (hi : i < 4) (hw : working s.dev = true) :
    exec (.loadComplete i) s = .next { s with dev := (loadComplete i).run s.dev } := by
  simp only [exec, execLoadComplete, hi, decide_true, perform_true, run_whileIt hw]

theorem run_loadComplete_none {d : Device} {i : Nat} (h : d.loading[i]? = none) : (loadComplete i).run d = d := by
  simp only [loadComplete, Eff.run_obs, h, Eff.run_skip]

section
variable {d : Device} {i : Nat} {r : LoadReq} (hr : d.loading[i]? = some r)
include hr

/-- An error in an allowed source ends the load before any check. -/
theorem run_loadComplete_unreadable (h : (r.poisoned && srcAllowed d r.part r.src) = true) :
    (loadComplete i).run d =
      (Eff.seq (putLoading (d.loading.eraseIdx i)) (loadFails r.part 0x5F noIndex r.slot)).run d := by
  simp only [loadComplete, Eff.run_obs, hr, h, if_true]

variable (h : (r.poisoned && srcAllowed d r.part r.src) = false)
include h

/-- A load whose source could be read ends by its checks. -/
theorem run_loadComplete_checked : (loadComplete i).run d =
    (Eff.seq (putLoading (d.loading.eraseIdx i)) (endsChecked d r)).run d := by
  simp only [loadComplete, Eff.run_obs, hr, h, Bool.false_eq_true, if_false, endsChecked, endsPartial, endsFull, commonChecks]
  congr 2
  rcases checkPatch d r.part r.image with ⟨code, idx⟩ | ⟨slot, g, ps⟩
  · rfl
  · -- `loadComplete` has the two cases of the slot that a patch names in the other order.
    dsimp only
    cases d.slotsAt (r.part * 8 + slot) <;> rfl

end

/-- Settles O6: a load is queued where none of the partition is under way, the oldest starts where fewer than four run, and its end
goes by the first check that fails. -/
theorem figureLoads : Obligations.FigureLoads := by
  refine ⟨fun s d rq p v hp h hb => ?_, fun s d rq p v hp h hb => ?_, fun s r rest hw hq hl => ?_, fun s hw h => ?_,
    fun s i hi hw h => ?_, fun s i r hi hw hr h => ?_, fun s i code idx r hi hw hr h hc => ?_,
    fun s i r fails hi hw hr h hf => ?_⟩
  · rw [Gives, exec_figLoadGo hp h, run_queueLoad_free hb]
  · rw [Gives, exec_figLoadGo hp h, run_queueLoad_busy hb]
  · simp only [Does, Gives, exec_loadStart hw, loadStart, Eff.run_obs, hq, hl, decide_true, Eff.when_true]
  · rw [Does, Gives, exec_loadStart hw, run_loadStart_waits h, Eff.run_skip]
  · rw [Does, Gives, exec_loadComplete hi hw, run_loadComplete_none h, Eff.run_skip]
  · rw [Does, Gives, exec_loadComplete hi hw, run_loadComplete_unreadable hr h]
    rfl
  · rw [Does, Gives, exec_loadComplete hi hw, run_loadComplete_checked hr h, endsChecked_bad hc]
    rfl
  · subst hf
    rw [Does, Gives, exec_loadComplete hi hw, run_loadComplete_checked hr h]
    rfl

/-! ### Asking for a switch and withdrawing it (R63, R68) -/

section
variable {s : State} {d : Device} {rq p v : Nat} (hp : p < 32)
include hp

theorem exec_figSwitchGo (h : Writes s rq .FIG_SWITCH p v 31 d) :
    exec (.figSwitchGo rq p v) s = .next { s with dev := (requestSwitch p (bits v 2 0)).run d } := by
  simp only [exec, execFigSwitchGo, h.asks.lt, hp, decide_true, Bool.and_self, perform_true, figSwitchGo, run_writes h]

theorem exec_figSwitchCancel (h : Writes s rq .FIG_SWITCH p v 30 d) :
    exec (.figSwitchCancel rq p v) s = .next { s with dev := (cancelSwitch p).run d } := by
  simp only [exec, execFigSwitchCancel, h.asks.lt, hp, decide_true, Bool.and_self, perform_true, figSwitchCancel, run_writes h]

end

/-- The switch of a partition still waits for cores to stop. -/
def switchWaits (d : Device) (p : Nat) : Bool := (d.switchesAt p).isSome && !allStopped d p

/-- A switch that waits no more, since every core has stopped, or a patch that is pending keeps a new request out (R63, R68). -/
def switchKeptOut (d : Device) (p : Nat) : Prop := d.patchesAt p ≠ [] ∨ ((d.switchesAt p).isSome = true ∧ allStopped d p = true)

section
variable {d : Device} {p slot : Nat}

theorem run_requestSwitch_invalid (h : ((d.slotsAt (p * 8 + slot)).isNone || slotOld d p slot) = true) :
    (requestSwitch p slot).run d = (figFail p 0x54 slot).run d := by
  simp only [requestSwitch, Eff.run_obs, h, if_true]

variable (hf : (d.slotsAt (p * 8 + slot)).isSome = true) (ho : slotOld d p slot = false)
include hf ho

theorem slot_accepted : ((d.slotsAt (p * 8 + slot)).isNone || slotOld d p slot) = false := by
  rw [ho, Bool.or_false, Option.isNone_eq_false_iff, hf]

theorem run_requestSwitch_keptOut (h : switchKeptOut d p) : (requestSwitch p slot).run d = (figFail p 0x55 slot).run d := by
  simp only [requestSwitch, Eff.run_obs, slot_accepted hf ho, Bool.false_eq_true, if_false]
  rcases h with h | ⟨h, ha⟩
  · simp [h]
  · obtain ⟨q, hq⟩ := Option.isSome_iff_exists.1 h
    simp [hq, ha]

variable (hn : d.patchesAt p = [])
include hn

theorem run_requestSwitch_first (h : d.switchesAt p = none) : (requestSwitch p slot).run d = (askSwitch p slot).run d := by
  simp only [requestSwitch, Eff.run_obs, slot_accepted hf ho, hn, h, List.isEmpty_nil, Bool.not_true, Bool.false_eq_true, if_false]

/-- A request takes the place of one that still waits. -/
theorem run_requestSwitch_again {q : SwitchReq} (h : d.switchesAt p = some q) (ha : allStopped d p = false) :
    (requestSwitch p slot).run d =
      (Eff.seq (putSwitches p (some { q with slot := slot })) (figStatus p 6 0 slot)).run d := by
  simp only [requestSwitch, Eff.run_obs, slot_accepted hf ho, hn, h, ha, List.isEmpty_nil, Bool.not_true, Bool.false_eq_true,
    if_false]

end

/-- A switch that waits is withdrawn, and the cores of running contexts go on. -/
theorem run_cancelSwitch {d : Device} {p : Nat} (h : switchWaits d p = true) : (cancelSwitch p).run d =
    (Eff.all [putSwitches p none, figStatus p 0 0 (d.fld F.FIG_STATUS_slot p),
      .each (partCores d p) (fun core => modCores core fun k =>
        if k.ctx.any fun c => d.fld F.CTX_RUN_state c == 2 then
          { k with stopReq := false, state := if k.state == 3 && !k.fenced then (if k.waiting then 2 else 1) else k.state }
        else k),
      .each (partCores d p) takeHeld]).run d := by
  rw [switchWaits] at h
  simp only [cancelSwitch, Eff.run_obs, h, Eff.when_true]

theorem run_cancelSwitch_none {d : Device} {p : Nat} (h : switchWaits d p = false) : (cancelSwitch p).run d = d := by
  rw [switchWaits] at h
  simp only [cancelSwitch, Eff.run_obs, h, Eff.when_false, Eff.run_skip]

/-! ### The switch itself (R63, R68) -/

theorem exec_switchProceed {s : State} {p : Nat} (hp : p < 32) (hw : working s.dev = true) (time : Nat)
    (taken : List (Nat × Nat)) :
    exec (.switchProceed p time taken) s = .next { s with dev := (switchProceed p time taken).run s.dev } := by
  simp only [exec, execSwitchProceed, hp, decide_true, perform_true, run_whileIt hw]

/-- No switch is asked for, or a core has not stopped yet. -/
theorem run_switchProceed_waits {d : Device} {p : Nat} (h : d.switchesAt p = none ∨ allStopped d p = false) (time : Nat)
    (taken : List (Nat × Nat)) : (switchProceed p time taken).run d = d := by
  cases hq : d.switchesAt p with
  | none => simp only [switchProceed, Eff.run_obs, hq, Eff.run_skip]
  | some q =>
    have ha : allStopped d p = false := h.resolve_left (by simp [hq])
    simp only [switchProceed, Eff.run_obs, hq, ha, Eff.when_false, Eff.run_skip]

/-- The slot that was active before a switch to `slot` is dropped where its figure is no longer accepted. -/
def leaveActive (d : Device) (p slot : Nat) : Eff :=
  match activeSlot d p with
  | some o => .when (o != slot) (dropOld p o)
  | none => .skip

section
variable {d : Device} {p : Nat} {q : SwitchReq} {f g : Figure} (hq : d.switchesAt p = some q) (ha : allStopped d p = true)
include hq ha

theorem run_switchProceed_noFigure (hf : d.slotsAt (p * 8 + q.slot) = none) (hg : d.active p = some g) (time : Nat)
    (taken : List (Nat × Nat)) : (switchProceed p time taken).run d =
    (Eff.all [putSwitches p none, dropPages fun x => ctxPart d x.ctx == some p, figStatus p 5 0x54 q.slot,
      installFigure p g (some g)]).run d := by
  simp only [switchProceed, Eff.run_obs, Eff.run_seq, Eff.run_all_cons, Eff.run_all_nil, hq, ha, hf, hg, Eff.when_true]

variable (hf : d.slotsAt (p * 8 + q.slot) = some f)
include hf

/-- The staging area cannot be read: the work of the partition is lost. -/
theorem run_switchProceed_unreadable (hs : stagingBad d p q.slot = true) (time : Nat) (taken : List (Nat × Nat)) :
    (switchProceed p time taken).run d = (Eff.all [putSwitches p none, dropPages fun x => ctxPart d x.ctx == some p,
      dropTiles p taken, dropSems p, figStatus p 5 0x5F q.slot,
      .each (busyContexts d p) fun c => teardown c codeDataLost]).run d := by
  simp only [switchProceed, Eff.run_obs, Eff.run_seq, Eff.run_all_cons, Eff.run_all_nil, hq, ha, hf, hs, Eff.when_true, if_true]

variable (hs : stagingBad d p q.slot = false)
include hs

/-- An element that the figure needs is absent: the old figure starts again. -/
theorem run_switchProceed_absent (he : elementsPresent d p f = false) (hg : d.active p = some g) (time : Nat)
    (taken : List (Nat × Nat)) : (switchProceed p time taken).run d =
    (Eff.all [putSwitches p none, dropPages fun x => ctxPart d x.ctx == some p, dropTiles p taken, dropSems p,
      figStatus p 5 0x25 q.slot, installFigure p g (some g)]).run d := by
  simp only [switchProceed, Eff.run_obs, Eff.run_seq, Eff.run_all_cons, Eff.run_all_nil, hq, ha, hf, hs, he, hg, Eff.when_true,
    Bool.not_false, Bool.false_eq_true, if_true, if_false]

/-- The new figure is installed, and the staging area keeps the old one only while it is accepted. -/
theorem run_switchProceed_done (he : elementsPresent d p f = true) (time : Nat) (taken : List (Nat × Nat)) :
    (switchProceed p time taken).run d = (Eff.all [putSwitches p none, dropPages fun x => ctxPart d x.ctx == some p,
      dropTiles p taken, dropSems p, finishPatches p, activate p q.slot time f, installFigure p f (d.active p),
      figStatus p 0 0 q.slot, leaveActive d p q.slot]).run d := by
  simp only [switchProceed, Eff.run_obs, Eff.run_seq, Eff.run_all_cons, Eff.run_all_nil, hq, ha, hf, hs, he, Eff.when_true,
    Bool.not_true, Bool.false_eq_true, if_false]
  rfl

end

/-! ### Staged slots and the least version (R62, R68) -/

theorem exec_figStageDiscard {s : State} {d : Device} {rq p slot v : Nat} (hp : p < 32) (hs : slot < 8)
    (h : Writes s rq .FIG_STAGE (p * 8 + slot) v 28 d) :
    exec (.figStageDiscard rq p slot v) s = .next { s with dev := (discardSlot p slot).run d } := by
  simp only [exec, execFigStageDiscard, h.asks.lt, hp, hs, decide_true, Bool.and_self, perform_true, figStageDiscard, run_writes h]

section
variable {d : Device} {p slot : Nat}

theorem run_dropSlot_valid (h : (d.slotsAt (p * 8 + slot)).isSome = true) : (dropSlot p slot).run d =
    (Eff.all [putSlots (p * 8 + slot) none, setReg .FIG_STAGE (p * 8 + slot) 0, unrefSlot (p * 8 + slot)]).run d := by
  obtain ⟨f, hf⟩ := Option.isSome_iff_exists.1 h
  simp only [dropSlot, Eff.run_obs, hf]

theorem run_dropSlot_invalid (h : d.slotsAt (p * 8 + slot) = none) : (dropSlot p slot).run d = d := by
  simp only [dropSlot, Eff.run_obs, h, Eff.run_skip]

theorem run_discardSlot_active (h : activeSlot d p = some slot) :
    (discardSlot p slot).run d = (figFail p 0x51 slot).run d := by
  simp only [discardSlot, Eff.run_obs, h, beq_self_eq_true, if_true]

theorem run_discardSlot (h : activeSlot d p ≠ some slot) : (discardSlot p slot).run d = (dropSlot p slot).run d := by
  simp only [discardSlot, Eff.run_obs, beq_eq_false_iff_ne.2 h, Bool.false_eq_true, if_false]

end

section
variable {s : State} {d : Device} {rq p : Nat} (hp : p < 32) (h : Asks s rq d)
include hp h

theorem exec_figMinverWrite (hm : mayWrite d rq .FIG_MINVER p ≠ 0) (v : Nat) :
    exec (.figMinverWrite rq p v) s = .next { s with dev := (raiseMinver p v).run d } := by
  have hb : (mayWrite d rq .FIG_MINVER p != 0) = true := bne_iff_ne.2 hm
  simp only [exec, execFigMinverWrite, h.lt, hp, decide_true, Bool.and_self, perform_true, figMinverWrite, run_hostDo h,
    Eff.run_obs, hb, if_true]

theorem exec_figMinverWrite_denied (hm : mayWrite d rq .FIG_MINVER p = 0) (v : Nat) :
    exec (.figMinverWrite rq p v) s = .next { s with dev := denied.run d } := by
  simp only [exec, execFigMinverWrite, h.lt, hp, decide_true, Bool.and_self, perform_true, figMinverWrite, run_hostDo h,
    Eff.run_obs, hm, bne_self_eq_false, Bool.false_eq_true, if_false]

end

section
variable {d : Device} {p v : Nat}

theorem run_raiseMinver (h : d.fld F.FIG_MINVER_minver p < v % 4294967296) : (raiseMinver p v).run d =
    (Eff.seq (setF F.FIG_MINVER_minver p v)
      (.each (List.range 8) fun slot => .when (activeSlot d p != some slot) (dropOld p slot))).run d := by
  simp only [raiseMinver, Eff.run_obs, h, decide_true, Eff.when_true]

theorem run_raiseMinver_lower (h : v % 4294967296 ≤ d.fld F.FIG_MINVER_minver p) : (raiseMinver p v).run d = d := by
  simp only [raiseMinver, Eff.run_obs, h.not_gt, decide_false, Eff.when_false, Eff.run_skip]

end

/-! ### Patches (R66) -/

theorem exec_patchApply {s : State} {core : Nat} (hc : core < 2048) (hk : clocked s.dev (core / 16) = true) :
    exec (.patchApply core) s = .next { s with dev := (patchApply core).run s.dev } := by
  simp only [exec, execPatchApply, hc, decide_true, perform_true, run_whileIt (c := coreClocked core) hk]

section
variable {d : Device} {core : Nat}

theorem run_patchApply (h : ((d.coresAt core).atBeat && (d.coresAt core).loaded.isSome) = true) : (patchApply core).run d =
    (applyPatches core ((d.coresAt core).seq.ptr == 0 && (d.coresAt core).seq.depth == 0)).run d := by
  simp only [patchApply, Eff.run_obs, h, Eff.when_true]

theorem run_patchApply_none (h : ((d.coresAt core).atBeat && (d.coresAt core).loaded.isSome) = false) :
    (patchApply core).run d = d := by
  simp only [patchApply, Eff.run_obs, h, Eff.when_false, Eff.run_skip]

end

/-- Settles O7: a request goes by the slot, the patches and the switch it finds; the switch by the cores, the staging area and the
elements; and the other commands each by one guard. -/
theorem figureSwitches : Obligations.FigureSwitches := by
  refine ⟨fun s d rq p v hp h hf ho hn hq => ?_, fun s d rq p v q hp h hf ho hn hq ha => ?_, fun s d rq p v hp h hi => ?_,
    fun s d rq p v hp h hf ho hk => ?_, fun s d rq p v hp h hq ha => ?_, fun s d rq p v hp h hn => ?_,
    fun s p time taken q f hp hw hq ha hf hs he => ?_, fun s p time taken q f hp hw hq ha hf hs => ?_,
    fun s p time taken q f g hp hw hq ha hf hs he hg => ?_, fun s p time taken q g hp hw hq ha hf hg => ?_,
    fun s p time taken hp hw h => ?_, fun s d rq p slot v hp hs h ha hf => ?_, fun s d rq p slot v hp hs h ha hf => ?_,
    fun s d rq p slot v hp hs h ha => ?_, fun s d rq p v hp h hm hv => ?_, fun s d rq p v hp h hm hv => ?_,
    fun s d rq p v hp h hm => exec_figMinverWrite_denied hp h hm v, fun s core hc hk hb hl => ?_, fun s core hc hk hb => ?_⟩
  · rw [Gives, exec_figSwitchGo hp h, run_requestSwitch_first hf ho hn hq]
    rfl
  · rw [Gives, exec_figSwitchGo hp h, run_requestSwitch_again hf ho hn hq ha]
  · rw [Gives, exec_figSwitchGo hp h, run_requestSwitch_invalid hi]
    rfl
  · rw [Gives, exec_figSwitchGo hp h, run_requestSwitch_keptOut hf ho hk]
    rfl
  · rw [Gives, exec_figSwitchCancel hp h, run_cancelSwitch (by rw [switchWaits, hq, ha]; rfl)]
  · rw [Gives, exec_figSwitchCancel hp h, run_cancelSwitch_none hn, Eff.run_skip]
  · rw [Does, Gives, exec_switchProceed hp hw, run_switchProceed_done hq ha hf hs he]
    rfl
  · rw [Does, Gives, exec_switchProceed hp hw, run_switchProceed_unreadable hq ha hf hs]
  · rw [Does, Gives, exec_switchProceed hp hw, run_switchProceed_absent hq ha hf hs he hg]
  · rw [Does, Gives, exec_switchProceed hp hw, run_switchProceed_noFigure hq ha hf hg]
  · rw [Does, Gives, exec_switchProceed hp hw, run_switchProceed_waits h, Eff.run_skip]
  · rw [Gives, exec_figStageDiscard hp hs h, run_discardSlot ha, run_dropSlot_valid hf]
  · rw [Gives, exec_figStageDiscard hp hs h, run_discardSlot ha, run_dropSlot_invalid hf, Eff.run_skip]
  · rw [Gives, exec_figStageDiscard hp hs h, run_discardSlot_active ha]
  · rw [Gives, exec_figMinverWrite hp h hm, run_raiseMinver hv]
  · rw [Gives, exec_figMinverWrite hp h hm, run_raiseMinver_lower hv, Eff.run_skip]
  · rw [Does, Gives, exec_patchApply hc hk, run_patchApply (by rw [hb, hl]; rfl)]
  · rw [Does, Gives, exec_patchApply hc hk, run_patchApply_none hb, Eff.run_skip]

end Sys2Proof.Machine
end

section
/-! PROOFS. A step that its core may issue (R69), and what stops a step's access to a window (R80, R247, R248). -/

namespace Sys2Proof.Machine

/- As in the tests, one theorem after another: each one elaborated beside others holds a thread's stack. -/
set_option Elab.async false

/-- A command that leaves what `e` makes of `d` leaves what any effect with the same outcome makes of its device. -/
theorem Gives.of_run {c : Instr} {s : State} {d d' : Device} {e e' : Eff} (h : Gives c s d e) (he : e.run d = e'.run d') :
    Gives c s d' e' := by
  rw [Gives, ← he]
  exact h

theorem Runs.ok {s : State} {core kind : Nat} {x : StepCtx} {d : Device} (h : Runs s core kind x d) :
    decide (core < 2048) = true := decide_eq_true h.inRange

section
variable {s : State} {core kind : Nat} {x : StepCtx} {d : Device} {ok : Bool} (hok : ok = true) (h : Runs s core kind x d)
  {p : BitVec 128 → Bool} (hp : p x.w = true)
include hok h hp

theorem perform_issueWith (run : StepCtx → Eff) :
    perform ok (whileIt (coreClocked core) (issueWith core kind p x.fixed x.lost run)) s =
      .next { s with dev := (run x).run d } := by
  rw [hok, perform_true, run_issueWith h hp]

theorem perform_issue (run : StepCtx → Eff) :
    perform ok (whileIt (coreClocked core) (issue core kind p run)) s =
      .next { s with dev := (run { x with fixed := [], lost := [] }).run d } := by
  rw [hok, perform_true, run_issue h hp]

end

section
variable {x : StepCtx} {d d' : Device} {win : WindowRec} {os : List Int}

theorem run_withWalk_held (h : agentHeld d (some x.part) (walkAddrs d x.part (stepPages d x win os)) = true)
    (fixed lost : List Nat) (fault : Nat → Eff) (k : Eff) : (withWalk x win os fixed lost fault k).run d = d := by
  simp only [withWalk, Eff.run_obs, h, Bool.not_true, Eff.when_false, Eff.run_skip]

/-- A walk that meets an error that cannot be corrected faults at the first page whose maps hold it (R252). -/
theorem run_withWalk_poison (hf : agentHeld d (some x.part) (walkAddrs d x.part (stepPages d x win os)) = false)
    {fixed lost : List Nat} (hm : (memErrors (walkAddrs d x.part (stepPages d x win os)) fixed lost).run d = d')
    (hp : anyPoison d' (walkAddrs d x.part (stepPages d x win os)) = true) (fault : Nat → Eff) (k : Eff) :
    (withWalk x win os fixed lost fault k).run d =
      (Eff.seq (logError { severity := 1, source := 9, code := 3, context := x.ctx })
        (fault (((stepPages d x win os).find? fun p =>
          anyPoison d' (walkAddrs d' x.part [p])).map (·.va) |>.getD 0))).run d' := by
  subst hm
  simp only [withWalk, Eff.run_obs, hf, Bool.not_false, Eff.when_true, Eff.run_seq, hp, if_true]

end

/-- A command of steps that read tile memory, with the operation its steps are of. -/
abbrev OpCommand : Type := (Nat → List Nat → List Nat → Instr) × Nat

/-- A command runs the step that `step` gives for its operation. -/
def OpCommand.RunsStep (step : Nat → Nat → List Nat → List Nat → Eff) (c : OpCommand) : Prop := ∀ core fixed lost s,
  exec (c.1 core fixed lost) s = perform (decide (core < 2048)) (whileIt (coreClocked core) (step core c.2 fixed lost)) s

/-- A step goes on from what its access to a window came to. -/
def accessThen (x : StepCtx) (o : ExtOut) (k : List Nat → Eff) : Eff :=
  match o with
  | .fault code a => stepFault x code a
  | .held => .skip
  | .served as => k as

/-- A step that goes by its access is served, faults or is held, as the access is. -/
theorem Gives.accessed {c : Instr} {s : State} {d : Device} {x : StepCtx} {o : ExtOut} {k : List Nat → Eff}
    (h : Gives c s d (accessThen x o k)) :
    (∀ as, o = .served as → Gives c s d (k as)) ∧ (∀ code a, o = .fault code a → Gives c s d (stepFault x code a)) ∧
      (o = .held → Gives c s d .skip) := by
  refine ⟨fun as ho => ?_, fun code a ho => ?_, fun ho => ?_⟩ <;> rwa [ho] at h

end Sys2Proof.Machine
end

section
/-! PROOFS. LOAD, STORE and HALO (R81, R88, R203 to R208). -/

namespace Sys2Proof.Machine

/- As in the tests, one theorem after another: each one elaborated beside others holds a thread's stack. -/
set_option Elab.async false

/-! ### LOAD and STORE (R81) -/

/-- A LOAD to granule `g` once its walks are done. -/
def loadFrom (core : Nat) (x : StepCtx) (win : WindowRec) (os : List Int) (g : Nat) : Eff := .obs fun d =>
  .seq (readErrors x (extAddrs d x win os .read) x.fixed x.lost) <| .obs fun d =>
    accessThen x (extAccess d x win os .read true (floorCopy d x)) fun as =>
      .all [wrTile core (g * 64) (d.bytesAt as), countReads x.part as, cacheReads x (sb x.w 10 10 == 1) as, stepDone x none,
        rangeErrors x.ctx as]

/-- A STORE of `n` granules from `g` once its walks are done. -/
def storeTo (core : Nat) (x : StepCtx) (win : WindowRec) (os : List Int) (n g : Nat) : Eff := .obs fun d =>
  accessThen x (extAccess d x win os .write false noCopy) fun as =>
    .all [store as (tileBytes d core (g * 64) (n * 64)), stepDone x none]

section
variable {s : State} {core : Nat} {x : StepCtx} {d d1 : Device}

theorem gives_load (h : Runs s core 1 x d) : Gives (.load core x.fixed x.lost) s d
    (withDest x (tileGranule d x (sb x.w 42 19)) (moveGranules d x) fun g =>
      withWalk x (stepWindow x (sb x.w 95 84)) (moveOffsets d x) x.fixed x.lost (stepFault x 0x03)
        (loadFrom core x (stepWindow x (sb x.w 95 84)) (moveOffsets d x) g)) :=
  perform_issueWith h.ok h rfl _

theorem gives_store (h : Runs s core 2 x d) : Gives (.store core x.fixed x.lost) s d
    (withTile x (tileGranule d x (sb x.w 42 19)) (moveGranules d x) fun g =>
      withWalk x (stepWindow x (sb x.w 95 84)) (moveOffsets d x) x.fixed x.lost (stepFault x 0x03)
        (storeTo core x (stepWindow x (sb x.w 95 84)) (moveOffsets d x) (moveGranules d x) g)) :=
  perform_issueWith h.ok h rfl _

/-- With its tile operand in order, a LOAD or a STORE comes to its walks. -/
theorem move_walks {c : Instr}
    (h : (c = .load core x.fixed x.lost ∧ Runs s core 1 x d ∧
        TakesDest x d (tileGranule d x (sb x.w 42 19)) (moveGranules d x) d1) ∨
      (c = .store core x.fixed x.lost ∧ Runs s core 2 x d ∧
        ReadsTile x d (tileGranule d x (sb x.w 42 19)) (moveGranules d x) d1)) :
    ∃ k, Gives c s d1
      (withWalk x (stepWindow x (sb x.w 95 84)) (moveOffsets d x) x.fixed x.lost (stepFault x 0x03) k) := by
  rcases h with ⟨rfl, hr, ht⟩ | ⟨rfl, hr, ht⟩
  · exact ⟨_, (gives_load hr).of_run (run_withDest ht _)⟩
  · exact ⟨_, (gives_store hr).of_run (run_withTile ht _)⟩

/-- With its walks done, a LOAD goes by what its access comes to. -/
theorem load_accesses {d2 d3 : Device} (h : Runs s core 1 x d)
    (ht : TakesDest x d (tileGranule d x (sb x.w 42 19)) (moveGranules d x) d1)
    (hw : Walks x d1 (stepWindow x (sb x.w 95 84)) (moveOffsets d x) d2)
    (he : (readErrors x (extAddrs d2 x (stepWindow x (sb x.w 95 84)) (moveOffsets d x) .read) x.fixed x.lost).run d2 = d3) :
    Gives (.load core x.fixed x.lost) s d3
      (accessThen x (extAccess d3 x (stepWindow x (sb x.w 95 84)) (moveOffsets d x) .read true (floorCopy d3 x)) fun as =>
        .all [wrTile core ((tileGranule d x (sb x.w 42 19)).toNat * 64) (d3.bytesAt as), countReads x.part as,
          cacheReads x (sb x.w 10 10 == 1) as, stepDone x none, rangeErrors x.ctx as]) :=
  (gives_load h).of_run <| by
    rw [run_withDest ht, run_withWalk hw, loadFrom, Eff.run_obs, Eff.run_seq, he, Eff.run_obs]

/-- With its walks done, a STORE goes by what its access comes to. -/
theorem store_accesses {d2 : Device} (h : Runs s core 2 x d)
    (ht : ReadsTile x d (tileGranule d x (sb x.w 42 19)) (moveGranules d x) d1)
    (hw : Walks x d1 (stepWindow x (sb x.w 95 84)) (moveOffsets d x) d2) :
    Gives (.store core x.fixed x.lost) s d2
      (accessThen x (extAccess d2 x (stepWindow x (sb x.w 95 84)) (moveOffsets d x) .write false noCopy) fun as =>
        .all [store as (tileBytes d2 core ((tileGranule d x (sb x.w 42 19)).toNat * 64) (moveGranules d x * 64)),
          stepDone x none]) :=
  (gives_store h).of_run <| by rw [run_withTile ht, run_withWalk hw, storeTo, Eff.run_obs]

theorem store_bad {code bad : Nat} (h : Runs s core 2 x d)
    (hb : BadWords x d (tileGranule d x (sb x.w 42 19)) (moveGranules d x) wholeWords code bad d1) :
    Gives (.store core x.fixed x.lost) s d1 (stepFault x code bad) :=
  (gives_store h).of_run (run_withWords_bad hb _)

end

/-! ### HALO (R88) -/

/-- The granule at the receiver that a HALO's first granule is sent to. -/
def haloRecv (d : Device) (x : StepCtx) : Int :=
  (sb x.w 69 55 : Int) + (tileGranule d x (sb x.w 93 70) - (bits (sb x.w 93 70) 23 9 : Int))

/-- The granules that a HALO sends. -/
def haloSize (x : StepCtx) : Nat := (sb x.w 54 47 + 1) * (sb x.w 46 37 + 1)

/-- The block of `n` granules from `g` that a HALO sends to granule `recv` of its neighbour. -/
def haloBlock (d : Device) (core : Nat) (x : StepCtx) (n recv g : Nat) (bad : List Nat) : HeldHalo :=
  { src := core, ctx := x.ctx, part := x.part, first := g, granule := recv, bytes := tileBytes d core (g * 64) (n * 64),
    bad := bad, cue := sb x.w 36 32 }

/-- A HALO from `core` to `dst` is held there: the neighbour is stopped, or an earlier HALO of the core is held (R204, R206). -/
def haloWaits (d : Device) (core dst : Nat) (x : StepCtx) : Bool :=
  haloHeld d dst x.ctx || !(d.halosAt dst).all (·.src != core)

/-- A HALO sends its block from granule `g` to core `dst`. -/
def haloSend (core dst : Nat) (x : StepCtx) (bad : List Nat) (corrected epoch n recv g : Nat) : Eff := .obs fun d =>
  .all [notReplayable core, meshErrors core dst (sb x.w 95 94) corrected (bad.filter (· < n)),
    .when (epoch != d.epochsAt dst) (addSat F.CTX_STAT_late_drops x.ctx 1),
    if haloWaits d core dst x then .all [
      addSat F.CLU_HALO_STAT_held ((clusterSite d (core / 128) (core / 16 % 8)).getD 0) 1,
      modHalos dst (· ++ [haloBlock d core x n recv g (bad.filter (· < n))]), stepDone x none]
    else .seq (landHalo dst (haloBlock d core x n recv g (bad.filter (· < n)))) (stepDone x none)]

/-- A HALO in the direction of the neighbouring position given, if there is one. -/
def haloTo (d : Device) (core : Nat) (x : StepCtx) (bad : List Nat) (corrected epoch : Nat) : Option Nat → Eff
  | none => stepDone x none
  | some nb => withTile x (tileGranule d x (sb x.w 93 70)) (haloSize x) fun g =>
    if !granulesOk (haloRecv d x) (haloSize x) then stepFault x 0x01 (haloRecv d x % 2 ^ 56).toNat
    else haloSend core (core / 16 * 16 + nb) x bad corrected epoch (haloSize x) (haloRecv d x).toNat g

section
variable {s : State} {core corrected epoch nb : Nat} {bad : List Nat} {x : StepCtx} {d d1 : Device} (h : Runs s core 8 x d)
  (hb : bad.all (· < 24576) = true)
include h hb

theorem gives_halo : Gives (.halo core x.fixed x.lost bad corrected epoch) s d
    (haloTo d core x bad corrected epoch (meshNeighbour (core % 16) (sb x.w 95 94))) :=
  perform_issueWith (Bool.and_eq_true_iff.2 ⟨h.ok, hb⟩) h rfl _

theorem halo_alone (hm : meshNeighbour (core % 16) (sb x.w 95 94) = none) :
    Gives (.halo core x.fixed x.lost bad corrected epoch) s d (stepDone x none) :=
  (gives_halo h hb).of_run <| by rw [hm, haloTo]

variable (hm : meshNeighbour (core % 16) (sb x.w 95 94) = some nb)
include hm

theorem halo_bad {code first : Nat} (ht : BadWords x d (tileGranule d x (sb x.w 93 70)) (haloSize x) wholeWords code first d1) :
    Gives (.halo core x.fixed x.lost bad corrected epoch) s d1 (stepFault x code first) :=
  (gives_halo h hb).of_run <| by rw [hm, haloTo, withTile, run_withWords_bad ht]

variable (ht : ReadsTile x d (tileGranule d x (sb x.w 93 70)) (haloSize x) d1)
include ht

/-- The receiver's granules leave tile memory. -/
theorem halo_past (hg : granulesOk (haloRecv d x) (haloSize x) = false) :
    Gives (.halo core x.fixed x.lost bad corrected epoch) s d1 (stepFault x 0x01 (haloRecv d x % 2 ^ 56).toNat) :=
  (gives_halo h hb).of_run <| by rw [hm, haloTo, run_withTile ht, hg, Bool.not_false, if_pos rfl]

theorem halo_sends (hg : granulesOk (haloRecv d x) (haloSize x) = true) :
    Gives (.halo core x.fixed x.lost bad corrected epoch) s d1 (haloSend core (core / 16 * 16 + nb) x bad corrected epoch
      (haloSize x) (haloRecv d x).toNat (tileGranule d x (sb x.w 93 70)).toNat) :=
  (gives_halo h hb).of_run <| by rw [hm, haloTo, run_withTile ht, hg, Bool.not_true, if_neg Bool.false_ne_true]

end

section
variable {core dst corrected epoch n recv g : Nat} {bad : List Nat} {x : StepCtx} {d : Device}

theorem run_haloSend_lands (h : haloWaits d core dst x = false) : (haloSend core dst x bad corrected epoch n recv g).run d =
    (Eff.all [notReplayable core, meshErrors core dst (sb x.w 95 94) corrected (bad.filter (· < n)),
      .when (epoch != d.epochsAt dst) (addSat F.CTX_STAT_late_drops x.ctx 1),
      landHalo dst (haloBlock d core x n recv g (bad.filter (· < n))), stepDone x none]).run d := by
  rw [haloSend, Eff.run_obs, h, if_neg Bool.false_ne_true]
  rfl

theorem run_haloSend_waits (h : haloWaits d core dst x = true) : (haloSend core dst x bad corrected epoch n recv g).run d =
    (Eff.all [notReplayable core, meshErrors core dst (sb x.w 95 94) corrected (bad.filter (· < n)),
      .when (epoch != d.epochsAt dst) (addSat F.CTX_STAT_late_drops x.ctx 1),
      addSat F.CLU_HALO_STAT_held ((clusterSite d (core / 128) (core / 16 % 8)).getD 0) 1,
      modHalos dst (· ++ [haloBlock d core x n recv g (bad.filter (· < n))]), stepDone x none]).run d := by
  rw [haloSend, Eff.run_obs, h, if_pos rfl]
  rfl

end

/-- Settles O13: a LOAD and a STORE go by their tile operand, their walks and then their access; a HALO by its neighbour, the two
ends of its block and whether it is held. -/
theorem moveSteps : Obligations.MoveSteps := by
  refine ⟨fun s d d1 d2 d3 core x h ht hw he => (load_accesses h ht hw he).accessed,
    fun s d core x h hg => (gives_load h).of_run (run_withDest_bad hg _),
    fun s d d1 d2 core x h ht hw => (store_accesses h ht hw).accessed,
    fun s d d1 core bad x h hg he hp => store_bad h (.inr ⟨hg, rfl, he, h.core_eq ▸ hp⟩),
    fun s d d1 core corrected epoch nb bad x n recv b h hm hb hn ht hg hr hh => ?_,
    fun s d core corrected epoch bad x h hb hm => halo_alone h hb hm,
    fun s d core x h hg => store_bad h (.inl ⟨hg, rfl, rfl, rfl⟩), fun s d d1 core corrected epoch nb n bad x h hb hm hn => ?_,
    fun s d d1 d2 c core x as ps h hps has => ?_⟩
  · subst hn hr hh
    have hx := halo_sends (corrected := corrected) (epoch := epoch) h hb hm ht hg
    exact ⟨fun hf => hx.of_run (run_haloSend_lands hf), fun hf => hx.of_run (run_haloSend_waits hf)⟩
  · subst hn
    exact ⟨fun hg => halo_bad h hb hm (.inl ⟨hg, rfl, rfl, rfl⟩), fun ht hg => halo_past h hb hm ht hg,
      fun first hg he hp => halo_bad h hb hm (.inr ⟨hg, rfl, he, h.core_eq ▸ hp⟩)⟩
  · subst hps has
    obtain ⟨k, hx⟩ := move_walks h
    exact ⟨fun hf => hx.of_run (run_withWalk_held hf _ _ _ _), fun hf he hp => hx.of_run (run_withWalk_poison hf he hp _ _)⟩

end Sys2Proof.Machine
end

section
/-! PROOFS. Floor semaphores (R233, R234, R403, R404). -/

namespace Sys2Proof.Machine

/- As in the tests, one theorem after another: each one elaborated beside others holds a thread's stack. -/
set_option Elab.async false

/-- A step takes a cell that is free, and goes on. -/
def takeFree (x : StepCtx) (cell : Nat) : Eff :=
  .all [takeCell x cell, stepDone x none, extendAgain x.ctx, revokeIfLate x cell]

section
variable {s : State} {core cell : Nat} {x : StepCtx} {d : Device} (h : Runs s core 12 x d)
  (hc : semCell d x.part (sb x.w 93 81) = some cell)
include h hc

theorem gives_semAcquire (hk : sb x.w 95 94 = 0) : Gives (.semAcquire core) s d (.seq (notReplayable core)
    (if (d.semsAt cell).holder.isNone && (d.semsAt cell).waiters.isEmpty && !mustWait d x.ctx then takeFree x cell
    else .all [putSems cell { d.semsAt cell with waiters := (d.semsAt cell).waiters ++ [⟨x.ctx, core⟩] },
      modCores core fun k => { k with waiting := true, acquiring := true }])) := by
  rw [Gives, exec, execSemAcquire, semAcquire, perform_issue h.ok h (by rw [hk]; rfl)]
  simp only [Eff.run_obs, hc]
  rfl

theorem gives_semTry (hk : sb x.w 95 94 = 1) : Gives (.semTry core) s d (.seq (notReplayable core)
    (if (d.semsAt cell).holder.isNone && !mustWait d x.ctx then takeFree x cell
    else tryBusy x)) := by
  rw [Gives, exec, execSemTry, semTry, perform_issue h.ok h (by rw [hk]; rfl)]
  simp only [Eff.run_obs, hc]
  rfl

theorem gives_semRelease (hk : sb x.w 95 94 = 2) : Gives (.semRelease core) s d
    (if (d.semsAt cell).holder == some ⟨x.ctx, core⟩ then .all [notReplayable core,
      modCores core (fun k => { k with seq := { k.seq with semStatus := 0 } }), stepDone x none,
      releaseCell cell 0, endExtension x.ctx]
    else stepFault x 0x0C 0) := by
  rw [Gives, exec, execSemRelease, semRelease, perform_issue h.ok h (by rw [hk]; rfl)]
  simp only [Eff.run_obs, hc]
  rfl

end

theorem does_semGrant {s : State} {cell : Nat} (hc : cell < 8192) (hw : working s.dev = true) :
    Does (.semGrant cell) s (semGrants cell (s.dev.semsAt cell).waiters.length) := by
  rw [Does, Gives, exec, execSemGrant, decide_eq_true hc, perform_true, run_whileIt hw, semGrant, Eff.run_obs]

section
variable {d : Device} {cell : Nat}

theorem run_semGrants_none (h : (d.semsAt cell).holder.isSome = true ∨ nextWaiter d (d.semsAt cell).waiters = none) (n : Nat) :
    (semGrants cell n).run d = d := by
  cases n with
  | zero => rfl
  | succ n =>
    rw [semGrants, Eff.run_obs]
    dsimp only
    split
    · next hh hw => simp [hh, hw] at h
    · rfl

theorem run_semGrants_succ {w : Waiter} (hf : (d.semsAt cell).holder = none)
    (hw : nextWaiter d (d.semsAt cell).waiters = some w) (n : Nat) : (semGrants cell (n + 1)).run d = (Eff.all [
      putSems cell { holder := some w, mark := 0, waiters := (d.semsAt cell).waiters.erase w },
      countGrant cell (d.semsAt cell).mark, semDone w.core (grantStatus (d.semsAt cell).mark), extendAgain w.ctx,
      .when ((extending d w.ctx).any (·.holdPassed))
        (.seq (revokeCell ((ctxPart d w.ctx).getD 0) w.ctx cell) (semGrants cell n))]).run d := by
  rw [semGrants, Eff.run_obs]
  simp only [hf, hw]

end

/-- Settles O14: the three steps go by whether their cell is free, whether they may take it, and who holds it; SEM_GRANT by the
waiter that is next. -/
theorem semaphoreSteps : Obligations.SemaphoreSteps := by
  refine ⟨fun s d core cell x h hk hc => ?_, fun s d core cell x h hk hc => ?_, fun s d core cell x h hk hc => ?_,
    fun s cell fuel w hc hw hf hn hl => ?_, fun s cell hc hw h => ?_⟩
  · refine ⟨fun hf hw hm => (gives_semAcquire h hc hk).of_run ?_, fun hw => (gives_semAcquire h hc hk).of_run ?_⟩
    · rw [if_pos (by simp [hf, hw, hm])]
      rfl
    · rw [if_neg (by
        rw [Option.isSome_iff_ne_none] at hw
        rcases hw with hw | hw | hw <;> simp [hw])]
      rfl
  · refine ⟨fun hf hm => (gives_semTry h hc hk).of_run ?_, fun hw => (gives_semTry h hc hk).of_run ?_⟩
    · rw [if_pos (by simp [hf, hm])]
      rfl
    · rw [if_neg (by
        rw [Option.isSome_iff_ne_none] at hw
        rcases hw with hw | hw <;> simp [hw])]
      rw [tryBusy, h.core_eq]
      rfl
  · refine ⟨fun hf => (gives_semRelease h hc hk).of_run ?_, fun hf => (gives_semRelease h hc hk).of_run ?_⟩
    · rw [if_pos (beq_iff_eq.2 hf)]
      simp only [releaseCell, freeCell, Eff.run_all_cons, Eff.run_seq]
    · rw [if_neg (by rwa [beq_iff_eq])]
  · exact (does_semGrant hc hw).of_run (by rw [hl, run_semGrants_succ hf hn])
  · exact (does_semGrant hc hw).of_run (run_semGrants_none h _)

end Sys2Proof.Machine
end

section
/-! PROOFS. PRODUCT, ROTATE, QUANT and EPI (R82, R84, R85, R87). -/

namespace Sys2Proof.Machine

/- As in the tests, one theorem after another: each one elaborated beside others holds a thread's stack. -/
set_option Elab.async false

/-! ### PRODUCT (R82) -/

section
variable {s : State} {core : Nat} {x : StepCtx} {d : Device} (h : Runs s core 3 x d)
include h

theorem product_clashes (ha : (x.q.bank (sb x.w 47 47)).acc = true)
    (hm : (x.q.bank (sb x.w 47 47)).m ≠ sb x.w 46 45 ∨ (x.q.bank (sb x.w 47 47)).n ≠ sb x.w 44 43) :
    Gives (.product core x.fixed x.lost) s d (stepFault x 0x08 0) := by
  rw [Gives, exec, execProduct, productStep, perform_issueWith h.ok h rfl, Eff.run_obs, if_pos]
  simpa [ha] using hm

/-- With a bank that is empty or accumulates the same shape, a PRODUCT reads its two operands. -/
theorem gives_product (hb : (x.q.bank (sb x.w 47 47)).acc = true →
      (x.q.bank (sb x.w 47 47)).m = sb x.w 46 45 ∧ (x.q.bank (sb x.w 47 47)).n = sb x.w 44 43) :
    Gives (.product core x.fixed x.lost) s d
      (withWords x (tileGranule d x (sb x.w 95 72))
        (operandGranules (sb x.w 37 35) (64 * (sb x.w 46 45 + 1)) (sb x.w 42 38 + 1)) (operandWords (sb x.w 37 35)) fun ga =>
      withWords x (tileGranule d x (sb x.w 71 48))
        (operandGranules (sb x.w 34 32) (64 * (sb x.w 44 43 + 1)) (sb x.w 42 38 + 1)) (operandWords (sb x.w 34 32)) fun gb =>
      productRun x ⟨core, ga, sb x.w 37 35, 64 * (sb x.w 46 45 + 1), sb x.w 42 38 + 1⟩
        ⟨core, gb, sb x.w 34 32, 64 * (sb x.w 44 43 + 1), sb x.w 42 38 + 1⟩) := by
  rw [Gives, exec, execProduct, productStep, perform_issueWith h.ok h rfl, Eff.run_obs, if_neg]
  simp only [Bool.and_eq_true, Bool.or_eq_true, bne_iff_ne]
  rintro ⟨ha, hm | hn⟩
  · exact hm (hb ha).1
  · exact hn (hb ha).2

end

/-! ### ROTATE, QUANT and EPI (R84, R85, R87) -/

/-- The granules that a ROTATE reads, and as many that it writes. -/
def rotateSize (x : StepCtx) : Nat :=
  (sb x.w 45 34 + 1) * (sb x.w 33 25 + 1) * 2 ^ (6 + sb x.w 47 46) * (if sb x.w 6 4 == 5 then 4 else 2) / 64

/-- A ROTATE of the blocks at granule `g` with a seed, to granule `dg`. -/
def rotateRun (core : Nat) (x : StepCtx) (seed g dg : Nat) : Eff := .obs fun d =>
  let n := 6 + sb x.w 47 46
  let blocks := sb x.w 33 25 + 1
  let wide := sb x.w 6 4 == 5
  let e := if wide then 4 else 2
  .seq
    (.each ((List.range ((sb x.w 45 34 + 1) * blocks)).map (fun t =>
        transformBlock n seed (64 * sb x.w 16 7 + t % blocks * 2 ^ n) ((List.range (2 ^ n)).map fun i =>
          if wide then r32 (val (tileNum d core (g * 64 + (t * 2 ^ n + i) * e) 4))
          else ofBf16 (tileNum d core (g * 64 + (t * 2 ^ n + i) * e) 2)))).zipIdx
      fun o => wrTile core (dg * 64 + o.2 * 2 ^ n * e) (rowBytes wide o.1))
    (stepDone x none)

/-- The rows of the matrix that a QUANT writes, and the blocks in each. -/
def quantOutRows (x : StepCtx) : Nat := if sb x.w 18 18 == 1 then (sb x.w 35 27 + 1) * 32 else sb x.w 47 36 + 1
def quantOutBlocks (x : StepCtx) : Nat :=
  if sb x.w 18 18 == 1 then ceilDiv (sb x.w 47 36 + 1) 32 else (sb x.w 35 27 + 1) * 32 / 32

/-- A QUANT of the matrix at granule `g`, to granule `dg`. -/
def quantRun (core : Nat) (x : StepCtx) (g dg : Nat) : Eff := .obs fun d =>
  let rows := sb x.w 47 36 + 1
  let cols := (sb x.w 35 27 + 1) * 32
  let rnd := if sb x.w 20 20 == 1 then some (genKey d x, x.q.gen) else none
  let out := (List.range (quantOutRows x)).map fun r => (List.range (quantOutBlocks x)).map fun b =>
    codeBlock (sb x.w 23 21) (sb x.w 19 19 == 1)
      (quantBlockElems d core g (sb x.w 26 24) rows cols (sb x.w 18 18 == 1) rnd r b)
  .all [writeHeader core dg (sb x.w 23 21),
    .each out.zipIdx (fun o => writeRow core dg (sb x.w 23 21) (quantOutRows x) (quantOutBlocks x) o.2 o.1),
    countBlocks core out.flatten, .when (sb x.w 20 20 == 1) (advanceGen core (rows * cols)), stepDone x none]

/-- The rows and columns of the bank that an EPI finishes. -/
def epiRows (x : StepCtx) : Nat := 64 * ((x.q.bank (sb x.w 95 95)).m + 1)
def epiCols (x : StepCtx) : Nat := 64 * ((x.q.bank (sb x.w 95 95)).n + 1)

/-- An EPI takes its destination, with its bias at granule `bg`. -/
def epiWrite (d : Device) (x : StepCtx) (bg : Nat) : Eff :=
  withDest x (tileGranule d x (sb x.w 94 71)) (operandGranules (sb x.w 25 23) (epiRows x) (epiCols x / 32)) fun dg =>
    epiRun x (epiRows x) (epiCols x) dg bg

section
variable {s : State} {core : Nat} {x : StepCtx} {d : Device}

theorem gives_rotate (h : Runs s core 4 x d) : Gives (.rotate core x.fixed x.lost) s d
    (withTile x (tileGranule d x (sb x.w 95 72)) (rotateSize x) fun g =>
      withDest x (tileGranule d x (sb x.w 71 48)) (rotateSize x) fun dg =>
        rotateRun core x (constReg d core (sb x.w 24 17)) g dg) :=
  perform_issueWith h.ok h rfl _

theorem gives_quant (h : Runs s core 5 x d) : Gives (.quant core x.fixed x.lost) s d
    (withTile x (tileGranule d x (sb x.w 95 72))
        (operandGranules (sb x.w 26 24) (sb x.w 47 36 + 1) ((sb x.w 35 27 + 1) * 32 / 32)) fun g =>
      withDest x (tileGranule d x (sb x.w 71 48)) (operandGranules (sb x.w 23 21) (quantOutRows x) (quantOutBlocks x))
        fun dg => quantRun core x g dg) :=
  perform_issueWith h.ok h rfl _

section
variable (h : Runs s core 7 x d)
include h

theorem gives_epi : Gives (.epi core x.fixed x.lost) s d
    (if !(x.q.bank (sb x.w 95 95)).acc then stepFault x 0x08 0
    else if sb x.w 46 46 == 1 then withTile x (tileGranule d x (sb x.w 70 47)) (epiCols x / 32) (epiWrite d x)
    else epiWrite d x 0) :=
  perform_issueWith h.ok h rfl _

theorem epi_empty (ha : (x.q.bank (sb x.w 95 95)).acc = false) :
    Gives (.epi core x.fixed x.lost) s d (stepFault x 0x08 0) :=
  (gives_epi h).of_run <| by rw [ha, Bool.not_false, if_pos rfl]

variable (ha : (x.q.bank (sb x.w 95 95)).acc = true)
include ha

theorem epi_plain (hb : sb x.w 46 46 = 0) : Gives (.epi core x.fixed x.lost) s d (epiWrite d x 0) :=
  (gives_epi h).of_run <| by rw [ha, hb, Bool.not_true, if_neg Bool.false_ne_true, if_neg (by decide)]

theorem epi_bias (hb : sb x.w 46 46 = 1) : Gives (.epi core x.fixed x.lost) s d
    (withTile x (tileGranule d x (sb x.w 70 47)) (epiCols x / 32) (epiWrite d x)) :=
  (gives_epi h).of_run <| by rw [ha, hb, Bool.not_true, if_neg Bool.false_ne_true, if_pos (beq_self_eq_true _)]

end

/-- The numeric steps with one source: each reads it whole, then takes its destination. -/
theorem numeric_reads {c : Instr} {src dst : Int} {size n : Nat}
    (h : (c = .rotate core x.fixed x.lost ∧ Runs s core 4 x d ∧ src = tileGranule d x (sb x.w 95 72) ∧
        dst = tileGranule d x (sb x.w 71 48) ∧ n = size ∧ size = rotateSize x) ∨
      (c = .quant core x.fixed x.lost ∧ Runs s core 5 x d ∧ src = tileGranule d x (sb x.w 95 72) ∧
        dst = tileGranule d x (sb x.w 71 48) ∧
        size = operandGranules (sb x.w 26 24) (sb x.w 47 36 + 1) ((sb x.w 35 27 + 1) * 32 / 32) ∧
        n = operandGranules (sb x.w 23 21) (quantOutRows x) (quantOutBlocks x)) ∨
      (c = .epi core x.fixed x.lost ∧ Runs s core 7 x d ∧ (x.q.bank (sb x.w 95 95)).acc = true ∧ sb x.w 46 46 = 1 ∧
        src = tileGranule d x (sb x.w 70 47) ∧ dst = tileGranule d x (sb x.w 94 71) ∧ size = epiCols x / 32 ∧
        n = operandGranules (sb x.w 25 23) (epiRows x) (epiCols x / 32))) :
    ∃ k : Nat → Nat → Eff, Gives c s d (withTile x src size fun g => withDest x dst n (k g)) := by
  rcases h with ⟨rfl, h, rfl, rfl, rfl, rfl⟩ | ⟨rfl, h, rfl, rfl, rfl, rfl⟩ | ⟨rfl, h, ha, hb, rfl, rfl, rfl, rfl⟩
  · exact ⟨_, gives_rotate h⟩
  · exact ⟨_, gives_quant h⟩
  · exact ⟨_, epi_bias h ha hb⟩

end

/-- Settles O15: each step goes by its bank, then by the operands that it reads, then by its destination. -/
theorem numericSteps : Obligations.NumericSteps := by
  refine ⟨fun s d d1 d2 core x h hb ha hc => (gives_product h hb).of_run ?_, fun s d core x h ha hm => product_clashes h ha hm,
    fun s d d1 d2 core size x h hn hs hd => ?_, fun s d d1 d2 core rows cols k outRows x h hr hc ho hk hs hd => ?_,
    fun s d d1 core ro co x h ha hb hr hc hd => ?_, fun s d d1 d2 core ro co x h ha hb hr hc hs hd => ?_,
    fun s d core x h ha => epi_empty h ha, fun s d d1 d2 core code bad x h hb hw => (gives_product h hb).of_run ?_,
    fun s d d1 d2 core size n code bad c src dst x h => ?_,
    fun s d core x h ha hb hg => (epi_plain h ha hb).of_run (run_withDest_bad hg _)⟩
  · rw [run_withWords ha, run_withWords hc]
  · subst hn
    exact (gives_rotate h).of_run ((run_withTile hs _).trans (run_withDest hd _))
  · subst hr hc ho hk
    exact (gives_quant h).of_run ((run_withTile hs _).trans (run_withDest hd _))
  · subst hr hc
    exact (epi_plain h ha hb).of_run (run_withDest hd _)
  · subst hr hc
    exact (epi_bias h ha hb).of_run ((run_withTile hs _).trans (run_withDest hd _))
  · rcases hw with hw | ⟨hr, hw⟩
    · rw [run_withWords_bad hw]
    · rw [run_withWords hr, run_withWords_bad hw]
  · obtain ⟨k, hx⟩ := numeric_reads h
    exact ⟨fun hw => hx.of_run (run_withWords_bad hw _),
      fun hr hg => hx.of_run ((run_withTile hr _).trans (run_withDest_bad hg _))⟩

end Sys2Proof.Machine
end

section
/-! PROOFS. The row operations (R86, R136 to R151). -/

namespace Sys2Proof.Machine

/- As in the tests, one theorem after another: each one elaborated beside others holds a thread's stack. -/
set_option Elab.async false

/-- The commands of operations on elements alone. -/
def elementRows : List OpCommand :=
  [(Instr.rowExp2, 0), (Instr.rowLog2, 1), (Instr.rowReciprocal, 2), (Instr.rowRsqrt, 3), (Instr.rowExp, 5),
    (Instr.rowTanh, 6), (Instr.rowSigmoid, 7), (Instr.rowSilu, 8), (Instr.rowGelu, 9), (Instr.rowSoftplus, 10)]

/-- All commands of ROW steps. -/
def rowCommands : List OpCommand :=
  [(Instr.rowExp2, 0), (Instr.rowLog2, 1), (Instr.rowReciprocal, 2), (Instr.rowRsqrt, 3), (Instr.rowDivideByAux, 4),
    (Instr.rowExp, 5), (Instr.rowTanh, 6), (Instr.rowSigmoid, 7), (Instr.rowSilu, 8), (Instr.rowGelu, 9),
    (Instr.rowSoftplus, 10), (Instr.rowMaximumToAux, 11), (Instr.rowExp2ScaledDifference, 12),
    (Instr.rowScaleByReciprocal, 13), (Instr.rowMeanAndSquares, 14), (Instr.rowNormalise, 15)]

theorem runsStep_of_mem_rowCommands {c : OpCommand} (h : c ∈ rowCommands) : c.RunsStep rowStep := by
  simp only [rowCommands, List.mem_cons, List.not_mem_nil, or_false] at h
  rcases h with rfl | rfl | rfl | rfl | rfl | rfl | rfl | rfl | rfl | rfl | rfl | rfl | rfl | rfl | rfl | rfl <;>
    exact fun _ _ _ _ => rfl

theorem mem_rowCommands_of_elementRows {c : OpCommand} (h : c ∈ elementRows) :
    c ∈ rowCommands ∧ c.2 ≠ 4 ∧ c.2 ≤ 10 := by
  simp only [elementRows, List.mem_cons, List.not_mem_nil, or_false] at h
  rcases h with rfl | rfl | rfl | rfl | rfl | rfl | rfl | rfl | rfl | rfl <;> simp [rowCommands]

/-! ### The parts of a ROW step (R86) -/

/-- The rows of a ROW step, their source, their destination and their aux entries. -/
def rowCount (x : StepCtx) : Nat := sb x.w 27 20 + 1
def rowSrc (d : Device) (x : StepCtx) : Int := tileGranule d x (sb x.w 91 68)
def rowDst (d : Device) (x : StepCtx) : Int := rowSrc d x + signed (sb x.w 67 52) 16
def rowAux (d : Device) (x : StepCtx) : Int := tileGranule d x (sb x.w 51 28)
def rowEntries (x : StepCtx) : Nat := ceilDiv (rowCount x * 16) 64

/-- Operations that write no rows take no destination. -/
def rowTakes (x : StepCtx) (op : Nat) (dst : Int) (k : Nat → Eff) : Eff :=
  if op == 11 || op == 14 then k 0 else withDest x dst (rowCount x * rowPitch x) k

/-- The operation with all operands at hand: the operations that write their aux entries first wait until none is being read. -/
def rowWrites (core : Nat) (x : StepCtx) (op g dg ag : Nat) : Eff :=
  if op == 4 || op == 13 || op == 15 then rowRun x op g dg ag
  else unlessRead core ag (rowEntries x) (.seq (noteWrite core ag (rowEntries x)) (rowRun x op g dg ag))

/-- The operation with its rows read and its destination taken: it reads what it uses of its aux entries. -/
def rowReads (core : Nat) (x : StepCtx) (op : Nat) (aux : Int) (g dg : Nat) : Eff :=
  if op == 4 || op == 11 || op == 13 then
    withWords x aux (rowEntries x) (entryHeads (rowCount x)) (rowWrites core x op g dg)
  else if op == 12 then withWords x aux (rowEntries x) (entryHeads (rowCount x)) fun ag => .obs fun d =>
    withWords x aux (rowEntries x) (replayTails d x g ag) (rowWrites core x op g dg)
  else if 14 ≤ op then withRows x aux 1 (rowEntries x) (rowCount x * 16) (rowWrites core x op g dg)
  else rowRun x op g dg 0

/-- The words of its aux entries that an operation reads first. -/
def auxWords (x : StepCtx) (op : Nat) : Nat → Bool :=
  if 14 ≤ op then rowWords (rowEntries x) (rowCount x * 16) else entryHeads (rowCount x)

section
variable {core op g dg ag : Nat} {x : StepCtx} {d : Device}

theorem rowTakes_none (h : op = 11 ∨ op = 14) (dst : Int) (k : Nat → Eff) : rowTakes x op dst k = k 0 :=
  if_pos (by simpa using h)

theorem rowTakes_withDest (h : ¬ (op = 11 ∨ op = 14)) (dst : Int) (k : Nat → Eff) :
    rowTakes x op dst k = withDest x dst (rowCount x * rowPitch x) k :=
  if_neg (by simpa using h)

/-- Operations on elements alone read no aux entries. -/
theorem rowReads_plain (h4 : op ≠ 4) (h : op ≤ 10) (aux : Int) : rowReads core x op aux g dg = rowRun x op g dg 0 := by
  rw [rowReads, if_neg (by simp only [Bool.or_eq_true, beq_iff_eq]; omega),
    if_neg (by simp only [beq_iff_eq]; omega), if_neg (by omega)]

theorem rowReads_replay (aux : Int) : rowReads core x 12 aux g dg =
    withWords x aux (rowEntries x) (entryHeads (rowCount x)) fun ag => .obs fun d =>
      withWords x aux (rowEntries x) (replayTails d x g ag) (rowWrites core x 12 g dg) := rfl

/-- Operations on aux entries begin by reading them. -/
theorem rowReads_aux (h : op = 4 ∨ 11 ≤ op) (aux : Int) (g dg : Nat) :
    ∃ k, rowReads core x op aux g dg = withWords x aux (rowEntries x) (auxWords x op) k := by
  by_cases h1 : (op == 4 || op == 11 || op == 13) = true
  · have : ¬ 14 ≤ op := by simp only [Bool.or_eq_true, beq_iff_eq] at h1; omega
    exact ⟨_, by rw [rowReads, if_pos h1, auxWords, if_neg this]⟩
  · rw [rowReads, if_neg h1]
    by_cases h2 : op = 12
    · rw [if_pos (beq_iff_eq.2 h2), auxWords, if_neg (by omega)]
      exact ⟨_, rfl⟩
    · have h3 : 14 ≤ op := by simp only [Bool.or_eq_true, beq_iff_eq] at h1; omega
      rw [if_neg (by simpa using h2), if_pos h3, withRows, Nat.one_mul, auxWords, if_pos h3]
      exact ⟨_, rfl⟩

theorem run_rowWrites (h4 : op ≠ 4) (h13 : op ≠ 13) (h15 : op ≠ 15) (h : unread d core ag (rowEntries x) = true) :
    (rowWrites core x op g dg ag).run d = (Eff.seq (noteWrite core ag (rowEntries x)) (rowRun x op g dg ag)).run d := by
  rw [rowWrites, if_neg (by simp [h4, h13, h15]), run_unlessRead h]

end

/-! ### The steps -/

section
variable {c : OpCommand} {s : State} {core code bad : Nat} {x : StepCtx} {d d1 d2 d3 : Device}
  (hc : c.RunsStep rowStep) (h : Runs s core 6 x d) (ho : sb x.w 95 92 = c.2)
include hc h ho

theorem gives_row : Gives (c.1 core x.fixed x.lost) s d
    (withRows x (rowSrc d x) (rowCount x) (rowPitch x) (rowSize x) fun g =>
      rowTakes x c.2 (rowDst d x) fun dg => rowReads core x c.2 (rowAux d x) g dg) :=
  (hc _ _ _ _).trans (perform_issueWith h.ok h (p := (sb · 95 92 == c.2)) (beq_iff_eq.2 ho) _)

theorem row_badRows (hb : BadWords x d (rowSrc d x) (rowCount x * rowPitch x) (rowWords (rowPitch x) (rowSize x)) code bad d1) :
    Gives (c.1 core x.fixed x.lost) s d1 (stepFault x code bad) :=
  (gives_row hc h ho).of_run (run_withWords_bad hb _)

variable (hs : ReadsRows x d (rowSrc d x) (rowCount x) (rowPitch x) (rowSize x) d1)
include hs

theorem row_badDest (hn : ¬ (c.2 = 11 ∨ c.2 = 14)) (hg : granulesOk (rowDst d x) (rowCount x * rowPitch x) = false) :
    Gives (c.1 core x.fixed x.lost) s d1 (stepFault x 0x01 (rowDst d x % 2 ^ 56).toNat) :=
  (gives_row hc h ho).of_run <| by rw [run_withRows hs, rowTakes_withDest hn, run_withDest_bad hg]

/-- With its rows read and its destination taken, where it has one, a ROW step comes to its aux entries. -/
theorem row_reads (ht : if c.2 = 11 ∨ c.2 = 14 then d2 = d1 else
      TakesDest x d1 (rowDst d x) (rowCount x * rowPitch x) d2) : Gives (c.1 core x.fixed x.lost) s d2
    (rowReads core x c.2 (rowAux d x) (rowSrc d x).toNat (if c.2 = 11 ∨ c.2 = 14 then 0 else (rowDst d x).toNat)) := by
  refine (gives_row hc h ho).of_run ?_
  rw [run_withRows hs]
  split at ht <;> rename_i hn
  · rw [rowTakes_none hn, if_pos hn, ht]
  · rw [rowTakes_withDest hn, if_neg hn, run_withDest ht]

theorem row_badAux (ht : if c.2 = 11 ∨ c.2 = 14 then d2 = d1 else
      TakesDest x d1 (rowDst d x) (rowCount x * rowPitch x) d2)
    (ha : c.2 = 4 ∨ 11 ≤ c.2) (hb : BadWords x d2 (rowAux d x) (rowEntries x) (auxWords x c.2) code bad d3) :
    Gives (c.1 core x.fixed x.lost) s d3 (stepFault x code bad) := by
  obtain ⟨k, hk⟩ := rowReads_aux (core := core) (x := x) ha (rowAux d x) (rowSrc d x).toNat
    (if c.2 = 11 ∨ c.2 = 14 then 0 else (rowDst d x).toNat)
  exact (row_reads hc h ho hs ht).of_run (by rw [hk, run_withWords_bad hb])

end

/-- The soft maximum's step, with m and l of its entries read, comes to the rest of the entries whose rows it replays. -/
theorem row_replays {s : State} {core : Nat} {x : StepCtx} {d d1 d2 d3 : Device} (h : Runs s core 6 x d) (ho : sb x.w 95 92 = 12)
    (hs : ReadsRows x d (rowSrc d x) (rowCount x) (rowPitch x) (rowSize x) d1)
    (ht : TakesDest x d1 (rowDst d x) (rowCount x * rowPitch x) d2)
    (ha : ReadsWords x d2 (rowAux d x) (rowEntries x) (entryHeads (rowCount x)) d3) :
    Gives (.rowExp2ScaledDifference core x.fixed x.lost) s d3
      (withWords x (rowAux d x) (rowEntries x) (replayTails d3 x (rowSrc d x).toNat (rowAux d x).toNat)
        (rowWrites core x 12 (rowSrc d x).toNat (rowDst d x).toNat)) := by
  have hx := row_reads (c := (Instr.rowExp2ScaledDifference, 12)) (fun _ _ _ _ => rfl) h ho hs ht
  refine hx.of_run ?_
  rw [rowReads_replay, run_withWords ha, Eff.run_obs]
  rfl

/-- Settles O16: each step reads its rows, takes its destination and goes by what its operation reads of the aux entries. -/
theorem rowSteps : Obligations.RowSteps := by
  refine ⟨fun c hc s d d1 d2 core x h ho hs ht => ?_, fun c hc s d d1 d2 d3 core x h ho hs ht ha => ?_,
    fun s d d1 d2 core x h ho hs ha hu => ?_, fun s d d1 d2 d3 d4 core x h ho hs ht ha hr hu => ?_,
    fun s d d1 d2 core x h ho hs ha hu => ?_, fun s d d1 d2 d3 core x h ho hs ht ha => ?_,
    fun c hc s d d1 d2 d3 core code bad x h ho => ?_,
    fun s d d1 d2 d3 d4 core code bad x h ho hs ht ha hb => ?_⟩
  · obtain ⟨hm, h4, h10⟩ := mem_rowCommands_of_elementRows hc
    have hn : ¬ (c.2 = 11 ∨ c.2 = 14) := by omega
    have hx := row_reads (runsStep_of_mem_rowCommands hm) h ho hs (by rwa [if_neg hn])
    exact hx.of_run (by rw [rowReads_plain h4 h10, if_neg hn]; rfl)
  · simp only [List.mem_cons, List.not_mem_nil, or_false] at hc
    rcases hc with rfl | rfl <;>
      exact (row_reads (fun _ _ _ _ => rfl) h ho hs ht).of_run (run_withWords ha _)
  · have hx := row_reads (c := (Instr.rowMaximumToAux, 11)) (fun _ _ _ _ => rfl) h ho hs rfl
    exact hx.of_run ((run_withWords ha _).trans (run_rowWrites (by decide) (by decide) (by decide) hu))
  · exact (row_replays h ho hs ht ha).of_run ((run_withWords hr _).trans
      (run_rowWrites (by decide) (by decide) (by decide) hu))
  · have hx := row_reads (c := (Instr.rowMeanAndSquares, 14)) (fun _ _ _ _ => rfl) h ho hs rfl
    exact hx.of_run ((run_withRows ha _).trans (run_rowWrites (by decide) (by decide) (by decide) hu))
  · have hx := row_reads (c := (Instr.rowNormalise, 15)) (fun _ _ _ _ => rfl) h ho hs ht
    exact hx.of_run (run_withRows ha _)
  · have hi := runsStep_of_mem_rowCommands hc
    exact ⟨row_badRows hi h ho, fun hs h11 h14 hg => row_badDest hi h ho hs (by omega) hg,
      fun hs ht ha hb => row_badAux hi h ho hs ht ha hb⟩
  · exact (row_replays h ho hs ht ha).of_run (run_withWords_bad hb _)

end Sys2Proof.Machine
end

section
/-! PROOFS. The atomic steps (R91, R231, R232). -/

namespace Sys2Proof.Machine

/- As in the tests, one theorem after another: each one elaborated beside others holds a thread's stack. -/
set_option Elab.async false

/-- The commands of ATOM steps. -/
def atomCommands : List OpCommand :=
  [(Instr.atomAddInt32, 0), (Instr.atomAddFp32, 1), (Instr.atomAddBf16, 2), (Instr.atomMinInt32, 3), (Instr.atomMaxInt32, 4),
    (Instr.atomMinFp32, 5), (Instr.atomMaxFp32, 6), (Instr.atomMinBf16, 7), (Instr.atomMaxBf16, 8),
    (Instr.atomVectorReduceAddFp32, 9), (Instr.atomVectorReduceAddBf16, 10)]

theorem runsStep_of_mem_atomCommands {c : OpCommand} (h : c ∈ atomCommands) : c.RunsStep atomStep := by
  simp only [atomCommands, List.mem_cons, List.not_mem_nil, or_false] at h
  rcases h with rfl | rfl | rfl | rfl | rfl | rfl | rfl | rfl | rfl | rfl | rfl <;> exact fun _ _ _ _ => rfl

/-! ### The parts of an ATOM (R91) -/

/-- The bytes of an element of an operation, and of all elements of a step. -/
def atomBytes (op : Nat) : Nat := if atomNarrow op then 2 else 4
def atomSize (x : StepCtx) (op : Nat) : Nat := (sb x.w 18 7 + 1) * atomBytes op

/-- The offsets of its window that an ATOM reaches. -/
def atomOffsets (d : Device) (x : StepCtx) (op : Nat) : List Int := (List.range (atomSize x op)).map fun (i : Nat) =>
  extOffset d x (sb x.w 79 52) (sb x.w 51 51) (sb x.w 50 43) 0 * (atomBytes op : Int) + (i : Int)

/-- The operands of an ATOM: their granules of tile memory, and how many they are. -/
def atomTile (d : Device) (x : StepCtx) : Int := tileGranule d x (sb x.w 42 19)
def atomGranules (x : StepCtx) (op : Nat) : Nat := ceilDiv (atomSize x op) 64

/-- An ATOM leaves the old values in the place of its operands. -/
def atomFetches (x : StepCtx) (op : Nat) : Bool := sb x.w 6 6 == 1 && op ≤ 8

/-- An ATOM with operands at granule `g` on the bytes at addresses `as`. -/
def atomWrites (core : Nat) (x : StepCtx) (op g : Nat) (d : Device) (as : List Nat) : Eff :=
  .all [notReplayable core,
    wrAt as ((List.zipWith (atomResult op) (numbers (atomBytes op) (sb x.w 18 7 + 1) (d.bytesAt as))
      (numbers (atomBytes op) (sb x.w 18 7 + 1) (tileBytes d core (g * 64) (atomSize x op)))).flatMap (toLE (atomBytes op))),
    .when (atomFetches x op) (.seq (noteWrite core g (atomGranules x op)) (wrTile core (g * 64) (d.bytesAt as))),
    stepDone x none]

/-- An ATOM with operands at granule `g` once its walks are done. -/
def atomOn (core : Nat) (x : StepCtx) (op : Nat) (win : WindowRec) (os : List Int) (g : Nat) : Eff := .obs fun d =>
  .seq (memErrors (extTouched d x win os .atomic) x.fixed x.lost) <| .obs fun d =>
    accessThen x (extAccess d x win os .atomic true noCopy) (atomWrites core x op g d)

/-- An ATOM that fetches waits until no HALO reads its operands. -/
def atomWaits (core : Nat) (x : StepCtx) (op g : Nat) (e : Eff) : Eff :=
  (if atomFetches x op then unlessRead core g (atomGranules x op) else id) e

theorem run_atomWaits {core op g : Nat} {x : StepCtx} {d : Device}
    (h : sb x.w 6 6 = 1 → op ≤ 8 → unread d core g (atomGranules x op) = true) (e : Eff) :
    (atomWaits core x op g e).run d = e.run d := by
  rw [atomWaits]
  split <;> rename_i hf
  · obtain ⟨h1, h2⟩ := Bool.and_eq_true_iff.1 hf
    exact run_unlessRead (h (beq_iff_eq.1 h1) (of_decide_eq_true h2)) e
  · rfl

/-! ### The steps -/

section
variable {c : OpCommand} {s : State} {core : Nat} {x : StepCtx} {d d1 : Device}
  (hc : c.RunsStep atomStep) (h : Runs s core 11 x d) (ho : sb x.w 95 92 = c.2)
include hc h ho

theorem gives_atom : Gives (c.1 core x.fixed x.lost) s d
    (withRows x (atomTile d x) 1 (atomGranules x c.2) (atomSize x c.2) fun g => atomWaits core x c.2 g <|
      withWalk x (stepWindow x (sb x.w 91 80)) (atomOffsets d x c.2) x.fixed x.lost (stepFault x 0x03)
        (atomOn core x c.2 (stepWindow x (sb x.w 91 80)) (atomOffsets d x c.2) g)) :=
  (hc _ _ _ _).trans (perform_issueWith h.ok h (p := (sb · 95 92 == c.2)) (beq_iff_eq.2 ho) _)

theorem atom_bad {code bad : Nat} (hb : BadWords x d (atomTile d x) (1 * atomGranules x c.2)
      (rowWords (atomGranules x c.2) (atomSize x c.2)) code bad d1) :
    Gives (c.1 core x.fixed x.lost) s d1 (stepFault x code bad) :=
  (gives_atom hc h ho).of_run (run_withWords_bad hb _)

/-- With its operands read, and where it fetches read by no HALO, an ATOM comes to its walks. -/
theorem atom_walks (hs : ReadsRows x d (atomTile d x) 1 (atomGranules x c.2) (atomSize x c.2) d1)
    (hu : sb x.w 6 6 = 1 → c.2 ≤ 8 → unread d1 core (atomTile d x).toNat (atomGranules x c.2) = true) :
    Gives (c.1 core x.fixed x.lost) s d1
      (withWalk x (stepWindow x (sb x.w 91 80)) (atomOffsets d x c.2) x.fixed x.lost (stepFault x 0x03)
        (atomOn core x c.2 (stepWindow x (sb x.w 91 80)) (atomOffsets d x c.2) (atomTile d x).toNat)) :=
  (gives_atom hc h ho).of_run ((run_withRows hs _).trans (run_atomWaits hu _))

end

theorem run_atomOn {core op g : Nat} {x : StepCtx} {win : WindowRec} {os : List Int} {d d' : Device}
    (hm : (memErrors (extTouched d x win os .atomic) x.fixed x.lost).run d = d') : (atomOn core x op win os g).run d =
    (accessThen x (extAccess d' x win os .atomic true noCopy) (atomWrites core x op g d')).run d' := by
  rw [atomOn, Eff.run_obs, Eff.run_seq, hm, Eff.run_obs]

/-- Settles O17: each step goes by its operands, then its walks, then what its access comes to. -/
theorem atomSteps : Obligations.AtomSteps := by
  intro c hc s d d1 core n e x os win h ho he hn hos hwin
  subst he hn hos hwin
  have hi := runsStep_of_mem_atomCommands hc
  refine ⟨fun hs hu => ?_, fun code bad hb => atom_bad hi h ho hb⟩
  have hx := atom_walks hi h ho hs hu
  refine ⟨fun d2 d3 hw hm => ?_, fun hf => hx.of_run (run_withWalk_held hf _ _ _ _),
    fun d2 hf hm hp => hx.of_run (run_withWalk_poison hf hm hp _ _)⟩
  exact (hx.of_run ((run_withWalk hw _ _).trans (run_atomOn hm))).accessed

end Sys2Proof.Machine
end

section
/-! PROOFS. The rings of the sequence unit, and whose request it serves (R162, R169 to R171). -/

namespace Sys2Proof.Machine

/- As in the tests, one theorem after another: each one elaborated beside others holds a thread's stack. -/
set_option Elab.async false

/-! ### The scope of a request (R162) -/

theorem seqScope_shared {d : Device} {q : SeqReq} (hf : bit q.flags 1 = 1)
    (he : d.fld F.PRT_SEQ_RING_CFG_share_en (q.part * 64 + q.ring) = 1) :
    seqScope d q = 0x400 + d.fld F.PRT_SEQ_RING_CFG_share_group (q.part * 64 + q.ring) := by
  simp only [seqScope, hf, he, beq_self_eq_true, Bool.and_self, if_true]

theorem seqScope_own {d : Device} {q : SeqReq}
    (h : ¬ (bit q.flags 1 = 1 ∧ d.fld F.PRT_SEQ_RING_CFG_share_en (q.part * 64 + q.ring) = 1)) : seqScope d q = q.ctx := by
  rw [seqScope]
  exact if_neg (by simpa using h)

theorem seqCtx_lt (d : Device) (p ring : Nat) : seqCtx d p ring < 1024 := bits_lt _ 9 0

theorem ctx_of_seqRequest {d : Device} {p ring : Nat} {q : SeqReq} (h : seqRequest d p ring = some q) :
    q.ctx = seqCtx d p ring := by
  unfold seqRequest at h
  dsimp only at h
  split at h
  · cases h
  · obtain ⟨as, -, rfl⟩ := Option.map_eq_some_iff.1 h
    rfl

/-- Settles O55: `seqScope` goes by the shared flag and share_en, and a record is read as one of the context that the 10 bits of
the ring's configuration name. -/
theorem requestScope : Obligations.RequestScope :=
  ⟨fun _ _ h => seqScope_own h, fun _ _ hf he => seqScope_shared hf he,
    fun d p ring _ h => ⟨ctx_of_seqRequest h, ctx_of_seqRequest h ▸ seqCtx_lt d p ring⟩⟩

/-! ### Reading a tail, and taking the next record (R169, R170) -/

section
variable {d : Device} {p ring : Nat}

theorem run_seqReadTail (h : seqServed d p ring = true) : (seqReadTail p ring).run d =
    (putSeqTails (p * 64 + ring) (readVirtual d (seqCtx d p ring) (seqBase d p ring) 4)).run d := by
  simp only [seqReadTail, Eff.run_obs, h, Eff.when_true]

theorem run_seqReadTail_unserved (h : seqServed d p ring = false) : (seqReadTail p ring).run d = d := by
  simp only [seqReadTail, Eff.run_obs, h, Eff.when_false, Eff.run_skip]

theorem run_seqTailPoll (hs : serving d = true) (h : seqServed d p ring = true) : (seqTailPoll p ring).run d =
    (Eff.seq (putSeqTails (p * 64 + ring) (readVirtual d (seqCtx d p ring) (seqBase d p ring) 4))
      (.obs fun d => .each (seqDie d p).toList seqTake)).run d := by
  rw [seqTailPoll, run_whileIt hs, Eff.run_seq, run_seqReadTail h, Eff.run_seq]

theorem run_seqTailPoll_unserved (hs : serving d = true) (h : seqServed d p ring = false) :
    (seqTailPoll p ring).run d = (Eff.each (seqDie d p).toList seqTake).run d := by
  rw [seqTailPoll, run_whileIt hs, Eff.run_seq, run_seqReadTail_unserved h, Eff.run_obs]

theorem run_seqTailPoll_stopped (hs : serving d = false) : (seqTailPoll p ring).run d = d := by
  simp only [seqTailPoll, whileIt, Eff.run_obs, hs, Eff.when_false, Eff.run_skip]

end

section
variable {d : Device} {die : Nat} (hf : d.seqServiceAt die = none)
include hf

theorem run_seqTake_idle (ht : seqTurn d die (d.rrAt (512 + die)) = []) : (seqTake die).run d = d := by
  simp only [seqTake, Eff.run_obs, hf, Option.isNone_none, Eff.when_true, ht, Eff.run_skip]

variable {k : Nat} {ks : List Nat} {q : SeqReq} (ht : seqTurn d die (d.rrAt (512 + die)) = k :: ks)
  (hq : seqRequest d (k / 64) (k % 64) = some q)
include ht hq

theorem run_seqTake_malformed (hm : seqMalformed d q = true) : (seqTake die).run d =
    (Eff.seq (putRr (512 + die) k) (seqFail q 8)).run d := by
  simp only [seqTake, Eff.run_obs, hf, Option.isNone_none, Eff.when_true, ht, hq, hm, if_true, Eff.run_all_cons,
    Eff.run_all_nil, Eff.run_seq]

theorem run_seqTake (hm : seqMalformed d q = false) : (seqTake die).run d =
    (Eff.all [putRr (512 + die) k, putSeqService die (some k), setF F.PRT_SEQ_STAT_busy (k / 64) 1]).run d := by
  simp only [seqTake, Eff.run_obs, hf, Option.isNone_none, Eff.when_true, ht, hq, hm, Bool.false_eq_true, if_false,
    Eff.run_all_cons, Eff.run_all_nil, Eff.run_seq]

end

/-! ### The commands -/

section
variable {s : State} {d : Device} {rq p : Nat} (hp : p < 32)
include hp

theorem does_seqTailPoll {ring : Nat} (hr : ring < 64) : Does (.seqTailPoll p ring) s (seqTailPoll p ring) :=
  perform_ok (by simp [hp, hr]) _ s

theorem gives_seqDoorbell {v : Nat} (h : Writes s rq .PRT_SEQ_DOORBELL p v 0 d) :
    Gives (.seqDoorbell rq p v) s d (seqTailPoll p (v % 64)) := by
  rw [Gives, exec, execSeqDoorbell, perform_ok (by simp [h.asks.lt, hp]), seqDoorbell, run_writes h]

theorem gives_seqRingEnable {ring v : Nat} (hr : ring < 64) (h : Writes s rq .PRT_SEQ_RING_BASE (p * 64 + ring) v 0 d) :
    Gives (.seqRingEnable rq p ring v) s d (.when (bit v 0 == 0) (putSeqTails (p * 64 + ring) none)) := by
  rw [Gives, exec, execSeqRingEnable, perform_ok (by simp [h.asks.lt, hp, hr]), seqRingEnable, run_writes h]

end

/-- Settles O18: a doorbell and a poll go by whether the device serves and the ring is served, then by the record that is next at
the die's unit. -/
theorem sequenceRings : Obligations.SequenceRings := by
  refine ⟨fun s d rq p v hp h hs => ⟨fun hv => (gives_seqDoorbell hp h).of_run (run_seqTailPoll hs hv),
      fun hv => (gives_seqDoorbell hp h).of_run (run_seqTailPoll_unserved hs hv)⟩,
    fun s d rq p v hp h hs => (gives_seqDoorbell hp h).of_run (run_seqTailPoll_stopped hs),
    fun s p ring hp hr hs => ⟨fun hv => (does_seqTailPoll hp hr).of_run (run_seqTailPoll hs hv),
      fun hv => (does_seqTailPoll hp hr).of_run (run_seqTailPoll_unserved hs hv)⟩,
    fun s p ring die k ks hp hr hs hv hd hf => ?_, fun s d rq p ring v hp hr h => gives_seqRingEnable hp hr h⟩
  have takes : (seqTailPoll p ring).run s.dev = (seqTake die).run s.dev := by
    rw [run_seqTailPoll_unserved hs hv, hd, Option.toList_some, Eff.run_each_cons, Eff.run_each_nil]
  have hx : Does (.seqTailPoll p ring) s (seqTake die) := (does_seqTailPoll hp hr).of_run takes
  exact ⟨fun ht => hx.of_run (run_seqTake_idle hf ht), fun q ht hq =>
    ⟨fun hm => hx.of_run (run_seqTake_malformed hf ht hq hm), fun hm => hx.of_run (run_seqTake hf ht hq hm)⟩⟩

end Sys2Proof.Machine
end

section
/-! PROOFS. The registers of a partition's tree (R167, R168, R172, R180). -/

namespace Sys2Proof.Machine

/- As in the tests, one theorem after another: each one elaborated beside others holds a thread's stack. -/
set_option Elab.async false

/-- A command that is a write of a register is denied where its requester has no right to the bit it acts through. -/
theorem gives_denied {c : Instr} {s : State} {d : Device} {rq i v b : Nat} {r : Reg} {act : Eff} {ok : Bool} (h : Asks s rq d)
    (hc : exec c s = perform ok (hostDo rq (writeAct rq r i v b act)) s) (hok : ok = true)
    (hb : bit (mayWrite d rq r i) b = 0) : Gives c s d denied := by
  rw [Gives, hc, perform_ok hok, run_hostDo_denied h hb]

/-- What a write of PRT_PFX_BASE does beside its fields, with the enable and the base that it found (R168). -/
def enablesTree (p v on base : Nat) : Eff := .all [.when (on == 1) (setF F.PRT_PFX_BASE_base p base),
  .when (on == 0 && bit v 0 == 1) (emptyTree p), setF F.PRT_PFX_CTRL_ready p (bit v 0)]

section
variable {s : State} {d : Device} {rq p : Nat} (hp : p < 32)
include hp

theorem gives_writeAct_pfxEnable (h : Asks s rq d) (v : Nat) : Gives (.pfxEnable rq p v) s d
    (writeAct rq .PRT_PFX_BASE p v 0
      (enablesTree p v (d.fld F.PRT_PFX_BASE_enable p) (d.fld F.PRT_PFX_BASE_base p))) := by
  rw [Gives, exec, execPfxEnable, perform_ok (by simp [h.lt, hp]), run_hostDo h, pfxEnable, Eff.run_obs]
  rfl

theorem gives_pfxEnable {v : Nat} (h : Writes s rq .PRT_PFX_BASE p v 0 d) : Gives (.pfxEnable rq p v) s d
    (enablesTree p v (((beforeAccess rq).run s.dev).fld F.PRT_PFX_BASE_enable p)
      (((beforeAccess rq).run s.dev).fld F.PRT_PFX_BASE_base p)) := by
  refine (gives_writeAct_pfxEnable hp h.asks v).of_run ?_
  rw [← run_hostDo h.asks, run_writes h]

theorem gives_pfxRekey (h : Writes s rq .PRT_PFX_CTRL p (2 ^ 31) 31 d) : Gives (.pfxRekey rq p) s d
    (.all [.each (treeNodes d p) (logRekeyed p), emptyTree p, drawKey p]) := by
  rw [Gives, exec, execPfxRekey, perform_ok (by simp [h.asks.lt, hp]), pfxRekey, run_writes h, Eff.run_obs]

theorem gives_pfxFlush (h : Writes s rq .PRT_PFX_CTRL p (2 ^ 30) 30 d) : Gives (.pfxFlush rq p) s d
    (.seq (evictAll p (fun _ => true) (treeNodes d p).length) (countNodes p)) := by
  rw [Gives, exec, execPfxFlush, perform_ok (by simp [h.asks.lt, hp]), pfxFlush, run_writes h, Eff.run_obs]

end

/-- A removal ends at once where the eviction log takes no record (log entry 131). -/
theorem run_evictAll_noRoom {d : Device} {p : Nat} (h : logRoom d p = false) (sel : PfxNode → Bool) (n : Nat) :
    (evictAll p sel n).run d = d := by
  cases n with
  | zero => rfl
  | succ n =>
    rw [evictAll, Eff.run_obs]
    split
    · rw [h, Eff.when_false, Eff.run_skip]
    · rfl

/-- Settles O20: each write that has its right acts on the tree as it finds it, and each that has not is denied. -/
theorem prefixTreeControl : Obligations.PrefixTreeControl := by
  refine ⟨fun s d rq p v on base hp h hon hbase => ?_, fun s d rq p hp h => gives_pfxRekey hp h,
    fun s d rq p hp h => ⟨gives_pfxFlush hp h, fun hl => ?_⟩, fun s d rq p ring v hp hr h =>
    ⟨fun hb => ?_, gives_denied h rfl (by simp [h.lt, hp]), gives_denied h rfl (by simp [h.lt, hp]),
      gives_denied h rfl (by simp [h.lt, hp]), gives_denied h rfl (by simp [h.lt, hp, hr])⟩⟩
  · subst hon hbase
    exact gives_pfxEnable hp h
  · exact (gives_pfxFlush hp h).of_run (by rw [Eff.run_seq, run_evictAll_noRoom hl])
  · exact (gives_writeAct_pfxEnable hp h v).of_run (by rw [← run_hostDo h, run_hostDo_denied h hb])

end Sys2Proof.Machine
end

section
/-! PROOFS. The requests of the sequence unit (R163 to R167, R172 to R177, R180). -/

namespace Sys2Proof.Machine

/- As in the tests, one theorem after another: each one elaborated beside others holds a thread's stack. -/
set_option Elab.async false

/-! ### The request in service (R169, R173, R180) -/

/-- The command that a die's unit serves the requests of an operation by, with the operation. -/
abbrev SeqCommand := (Nat → Instr) × Nat

/-- The command does `run` with a request of its operation in service. -/
def SeqCommand.Runs (c : SeqCommand) (run : SeqReq → Eff) : Prop :=
  ∀ (die : Nat) (s : State), exec (c.1 die) s = perform (decide (die < 16)) (whileIt working (seqServe die c.2 run)) s

/-- The commands of all six operations. -/
def seqCommands : List SeqCommand :=
  [(Instr.lookup, 1), (Instr.insert, 2), (Instr.release, 3), (Instr.verify, 4), (Instr.nodeRead, 5), (Instr.flushScope, 6)]

theorem runs_of_mem_seqCommands {c : SeqCommand} (h : c ∈ seqCommands) : ∃ run, c.Runs run := by
  simp only [seqCommands, List.mem_cons, List.not_mem_nil, or_false] at h
  rcases h with rfl | rfl | rfl | rfl | rfl | rfl <;> exact ⟨_, fun _ _ => rfl⟩

theorem Serves.does {c : SeqCommand} {run : SeqReq → Eff} {s : State} {die : Nat} {q : SeqReq} (h : Serves s die c.2 q)
    (hc : c.Runs run) : Does (c.1 die) s (run q) := by
  rw [Does, Gives, hc, perform_ok (decide_eq_true h.inRange), run_seqServe h]

theorem does_seqServe {c : SeqCommand} {run : SeqReq → Eff} {s : State} {die : Nat} (hc : c.Runs run) (hd : die < 16)
    (hw : working s.dev = true) : Does (c.1 die) s (seqServe die c.2 run) := by
  rw [Does, Gives, hc, perform_ok (decide_eq_true hd), run_whileIt hw]

section
variable {d : Device} {die : Nat} (op : Nat) (run : SeqReq → Eff)

theorem run_seqServe_none (h : (d.seqServiceAt die).bind (fun k => seqRequest d (k / 64) (k % 64)) = none) :
    (seqServe die op run).run d = d := by
  rw [seqServe, Eff.run_obs]
  cases hk : d.seqServiceAt die with
  | none => rfl
  | some k =>
    rw [hk, Option.bind_some] at h
    simp only [h, Eff.run_skip]

variable {q : SeqReq} (h : (d.seqServiceAt die).bind (fun k => seqRequest d (k / 64) (k % 64)) = some q)
include h

theorem run_seqServe_some : (seqServe die op run).run d = (if seqMalformed d q then seqFail q 8 else
    .when (q.op == op) <| if treeLost d q.part then .seq (loseTree q.part q.ctx) (seqFail q 6) else run q : Eff).run d := by
  obtain ⟨k, hk, hq⟩ := Option.bind_eq_some_iff.1 h
  simp only [seqServe, Eff.run_obs, hk, hq]

theorem run_seqServe_malformed (hm : seqMalformed d q = true) : (seqServe die op run).run d = (seqFail q 8).run d := by
  rw [run_seqServe_some op run h, if_pos hm]

theorem run_seqServe_otherOp (hm : seqMalformed d q = false) (ho : q.op ≠ op) : (seqServe die op run).run d = d := by
  rw [run_seqServe_some op run h, if_neg (by simp [hm]), beq_eq_false_iff_ne.2 ho, Eff.when_false, Eff.run_skip]

theorem run_seqServe_lost (hm : seqMalformed d q = false) (ho : q.op = op) (hl : treeLost d q.part = true) :
    (seqServe die op run).run d = (Eff.seq (loseTree q.part q.ctx) (seqFail q 6)).run d := by
  rw [run_seqServe_some op run h, if_neg (by simp [hm]), beq_iff_eq.2 ho, Eff.when_true, if_pos hl]

end

/-! ### LOOKUP (R164) -/

/-- The completion of a LOOKUP of `blocks` blocks that matches the nodes `is`. -/
def lookupFinds (d : Device) (q : SeqReq) (blocks : Nat) (is : List Nat) (clash : Bool) : Eff := .all [
  writeVirtual q.ctx q.a1 (is.flatMap (lookupEntry d q.part)),
  .each is (fun i => .seq (modNode q.part i fun n => { n with lastUse := q.serial })
    (.when (bit q.flags 0 == 1) (takeRef q.part q.ring i))),
  countNodes q.part, addSat F.PRT_PFX_HITS_hits q.part is.length,
  .when (is.length < blocks) (addSat F.PRT_PFX_MISSES_misses q.part 1),
  .when clash (addSat F.PRT_PFX_EVENTS_collisions q.part 1), seqComplete q 0 is.length]

/-- A request asks for references that its ring cannot take (R166). -/
def refsMissing (d : Device) (q : SeqReq) (is : List Nat) : Bool := bit q.flags 0 == 1 && !refsFit d q.part q.ring is

theorem refsMissing_eq_true {d : Device} {q : SeqReq} {is : List Nat} (hf : bit q.flags 0 = 1)
    (hr : refsFit d q.part q.ring is = false) : refsMissing d q is = true := by
  simp [refsMissing, hf, hr]

theorem refsMissing_eq_false {d : Device} {q : SeqReq} {is : List Nat}
    (h : bit q.flags 0 = 1 → refsFit d q.part q.ring is = true) : refsMissing d q is = false := by
  simpa [refsMissing] using h

section
variable {s : State} {die : Nat} {q : SeqReq} (h : Serves s die 1 q)
include h

theorem lookup_unread (ht : tokensAt s.dev q.ctx q.a0 (bits q.imm 12 0) = none) : Does (.lookup die) s (seqFail q 9) :=
  (h.does (c := (.lookup, 1)) fun _ _ => rfl).of_run (by simp only [Eff.run_obs, ht])

theorem lookup_walks {ts is : List Nat} {clash : Bool} (ht : tokensAt s.dev q.ctx q.a0 (bits q.imm 12 0) = some ts)
    (hw : walk s.dev q.part (seqScope s.dev q) none (tokenBlocks 64 ts) = (is, clash)) : Does (.lookup die) s
    (if (translateRange s.dev q.ctx q.a1 .write (16 * is.length)).isNone then seqFail q 9
    else if refsMissing s.dev q is then seqFail q 5 else lookupFinds s.dev q (tokenBlocks 64 ts).length is clash) :=
  (h.does (c := (.lookup, 1)) fun _ _ => rfl).of_run (by simp only [Eff.run_obs, ht, hw]; rfl)

variable {ts is : List Nat} {clash : Bool} (ht : tokensAt s.dev q.ctx q.a0 (bits q.imm 12 0) = some ts)
  (hw : walk s.dev q.part (seqScope s.dev q) none (tokenBlocks 64 ts) = (is, clash))
include ht hw

theorem lookup_unwritten (ha : translateRange s.dev q.ctx q.a1 .write (16 * is.length) = none) :
    Does (.lookup die) s (seqFail q 9) :=
  (lookup_walks h ht hw).of_run (by rw [ha, Option.isNone_none, if_pos rfl])

variable (ha : (translateRange s.dev q.ctx q.a1 .write (16 * is.length)).isSome = true)
include ha

theorem lookup_refsMissing (hm : refsMissing s.dev q is = true) : Does (.lookup die) s (seqFail q 5) :=
  (lookup_walks h ht hw).of_run (by rw [Option.isNone_eq_false_iff.2 ha, if_neg Bool.false_ne_true, if_pos hm])

theorem lookup_finds (hm : refsMissing s.dev q is = false) :
    Does (.lookup die) s (lookupFinds s.dev q (tokenBlocks 64 ts).length is clash) :=
  (lookup_walks h ht hw).of_run (by
    rw [Option.isNone_eq_false_iff.2 ha, if_neg Bool.false_ne_true, hm, if_neg Bool.false_ne_true])

end

/-! ### INSERT (R165, R167) -/

/-- The parent that an INSERT names. -/
def insertParent (q : SeqReq) : Option Nat := if bit q.imm 23 = 1 then none else some (bits q.imm 15 0)

/-- The node that an INSERT makes of its block. -/
def insertedNode (d : Device) (q : SeqReq) (ts : List Nat) : PfxNode where
  hash := blockHash (d.pfxKeysAt q.part) (seqScope d q) (((insertParent q).bind (treeNode d q.part)).map (·.hash) |>.getD 0) ts
  parent := insertParent q
  scope := seqScope d q
  tokens := ts
  kvAddr := q.a1
  kvBytes := q.a2
  lastUse := q.serial

/-- The completion of an INSERT of a block that node `i` holds already. -/
def insertFinds (q : SeqReq) (i : Nat) : Eff := .all [modNode q.part i (fun n => { n with lastUse := q.serial }),
  .when (bit q.flags 0 == 1) (takeRef q.part q.ring i), countNodes q.part, seqComplete q 1 i]

/-- An INSERT of a block that no node holds. -/
def insertMissing (d : Device) (q : SeqReq) (ts : List Nat) : Eff :=
  if collides d q.part (seqScope d q) (insertParent q) ts then .seq (addSat F.PRT_PFX_EVENTS_collisions q.part 1) (seqFail q 2)
  else if bit q.flags 0 == 1 && 4096 ≤ (ringRefs d q.part q.ring).length then seqFail q 5
  else insertNew q (insertedNode d q ts)

/-- An INSERT below a parent it may have: it finds its block or makes a node of it. -/
def insertBlock (d : Device) (q : SeqReq) (ts : List Nat) : Eff :=
  match matching d q.part (seqScope d q) (insertParent q) ts with
  | some i => if refsMissing d q [i] then seqFail q 5 else insertFinds q i
  | none => insertMissing d q ts

section
variable {d : Device} {q : SeqReq} {ts : List Nat}

section
variable {i : Nat} (hm : matching d q.part (seqScope d q) (insertParent q) ts = some i)
include hm

theorem insertBlock_refsMissing (hr : refsMissing d q [i] = true) : insertBlock d q ts = seqFail q 5 := by
  simp only [insertBlock, hm, hr, if_true]

theorem insertBlock_finds (hr : refsMissing d q [i] = false) : insertBlock d q ts = insertFinds q i := by
  simp only [insertBlock, hm, hr, Bool.false_eq_true, if_false]

end

variable (hm : matching d q.part (seqScope d q) (insertParent q) ts = none)
include hm

theorem insertBlock_collides (hc : collides d q.part (seqScope d q) (insertParent q) ts = true) : insertBlock d q ts =
    .seq (addSat F.PRT_PFX_EVENTS_collisions q.part 1) (seqFail q 2) := by
  simp only [insertBlock, hm, insertMissing, hc, if_true]

variable (hc : collides d q.part (seqScope d q) (insertParent q) ts = false)
include hc

theorem insertBlock_refsFull (hf : bit q.flags 0 = 1) (hl : 4096 ≤ (ringRefs d q.part q.ring).length) :
    insertBlock d q ts = seqFail q 5 := by
  simp only [insertBlock, hm, insertMissing, hc, Bool.false_eq_true, if_false]
  exact if_pos (by simp [hf, hl])

theorem insertBlock_new (hl : bit q.flags 0 = 1 → (ringRefs d q.part q.ring).length < 4096) :
    insertBlock d q ts = insertNew q (insertedNode d q ts) := by
  simp only [insertBlock, hm, insertMissing, hc, Bool.false_eq_true, if_false]
  exact if_neg (by simpa using hl)

end

/-- The ring of a request may not insert below node `i`: it holds no reference on it, or the node is of another scope. -/
def barredParent (d : Device) (q : SeqReq) (i : Nat) : Bool :=
  d.pfxRefsAt (refKey q.part q.ring i) == 0 || (treeNode d q.part i).map (·.scope) != some (seqScope d q)

theorem barredParent_eq_true {d : Device} {q : SeqReq} {i : Nat} : barredParent d q i = true ↔
    d.pfxRefsAt (refKey q.part q.ring i) = 0 ∨ (treeNode d q.part i).map (·.scope) ≠ some (seqScope d q) := by
  simp [barredParent]

theorem barredParent_eq_false {d : Device} {q : SeqReq} {i : Nat} : barredParent d q i = false ↔
    d.pfxRefsAt (refKey q.part q.ring i) ≠ 0 ∧ (treeNode d q.part i).map (·.scope) = some (seqScope d q) := by
  simp [barredParent]

section
variable {s : State} {die : Nat} {q : SeqReq} (h : Serves s die 2 q)
include h

theorem insert_unread (ht : tokensAt s.dev q.ctx q.a0 (bits q.imm 22 16) = none) : Does (.insert die) s (seqFail q 9) :=
  (h.does (c := (.insert, 2)) fun _ _ => rfl).of_run (by simp only [Eff.run_obs, ht])

variable {ts : List Nat} (ht : tokensAt s.dev q.ctx q.a0 (bits q.imm 22 16) = some ts)
include ht

theorem insert_read : Does (.insert die) s (if !treeReady s.dev q.part then seqFail q 3
    else if (insertParent q).any (barredParent s.dev q) then seqFail q 6 else insertBlock s.dev q ts) :=
  (h.does (c := (.insert, 2)) fun _ _ => rfl).of_run (by
    simp only [Eff.run_obs, ht, beq_iff_eq]
    rfl)

theorem insert_notReady (hr : treeReady s.dev q.part = false) : Does (.insert die) s (seqFail q 3) :=
  (insert_read h ht).of_run (by rw [if_pos (by simp [hr])])

variable (hr : treeReady s.dev q.part = true)
include hr

theorem insert_barred {i : Nat} (hp : insertParent q = some i) (hb : barredParent s.dev q i = true) :
    Does (.insert die) s (seqFail q 6) :=
  (insert_read h ht).of_run (by rw [if_neg (by simp [hr]), if_pos (by rw [hp, Option.any_some, hb])])

theorem insert_below (hp : ∀ i, insertParent q = some i → barredParent s.dev q i = false) :
    Does (.insert die) s (insertBlock s.dev q ts) := by
  have hn : ¬ (insertParent q).any (barredParent s.dev q) = true := by
    rw [Option.any_eq_true]
    rintro ⟨i, hi, hb⟩
    exact Bool.false_ne_true ((hp i hi).symm.trans hb)
  exact (insert_read h ht).of_run (by rw [if_neg (by simp [hr]), if_neg hn])

end

section
variable {d : Device} {q : SeqReq} {n : PfxNode}

section
variable {room bucket : Bool}
  (hb : bucket = decide (8 ≤ ((treeNodes d q.part).filter fun m => bucketIndex m.2.hash == bucketIndex n.hash).length))
  (hr : room = (!bucket && decide ((treeNodes d q.part).length < 65536)))
include hb hr

/-- An INSERT makes its node at once where its bucket and the tree have room. -/
theorem run_insertNew_room (h : room = true) : (insertNew q n).run d = (allocate q n).run d := by
  subst hb hr
  simp only [Bool.and_eq_true, Bool.not_eq_true', decide_eq_false_iff_not, decide_eq_true_eq, not_le] at h
  rw [insertNew, Eff.run_obs, if_neg (by simpa using h.1), if_neg (by simpa using h.2)]

/-- It makes room in its bucket or, where that has some, in the tree. -/
theorem run_insertNew_full (h : room = false) : (insertNew q n).run d =
    (evictFor q (if bucket then fun m => bucketIndex m.hash == bucketIndex n.hash else fun _ => true)
      (if bucket then 4 else 3) (allocate q n)).run d := by
  subst hr
  rw [insertNew, Eff.run_obs]
  cases bucket with
  | true => rw [if_pos (of_decide_eq_true hb.symm)]; rfl
  | false => rw [if_neg (of_decide_eq_false hb.symm), if_pos (by simpa using h)]; rfl

end

section
variable {sel : PfxNode → Bool} {full : Nat} {k : Eff}

theorem run_evictFor_none (ho : oldest d q.part sel = []) : (evictFor q sel full k).run d =
    (Eff.seq (addSat F.PRT_PFX_EVENTS_full q.part 1) (seqFail q full)).run d := by
  simp only [evictFor, Eff.run_obs, ho]

variable (ho : oldest d q.part sel ≠ [])
include ho

theorem run_evictFor (hl : logRoom d q.part = true) : (evictFor q sel full k).run d =
    (pickOne (oldest d q.part sel) fun i => .seq (evictNode q.part i) k).run d := by
  rw [evictFor, Eff.run_obs]
  split
  · next he => exact absurd he ho
  · rw [if_pos hl]

theorem run_evictFor_noRoom (hl : logRoom d q.part = false) : (evictFor q sel full k).run d =
    (Eff.seq (addSat F.PRT_PFX_EVENTS_full q.part 1) (seqFail q 3)).run d := by
  rw [evictFor, Eff.run_obs]
  split
  · next he => exact absurd he ho
  · rw [if_neg (by simp [hl])]

end

end

/-! ### RELEASE (R166) -/

section
variable {s : State} {die : Nat} {q : SeqReq} (h : Serves s die 3 q)
include h

theorem release_unread (ht : translateRange s.dev q.ctx q.a0 .read (2 * q.count) = none) :
    Does (.release die) s (seqFail q 9) :=
  (h.does (c := (.release, 3)) fun _ _ => rfl).of_run (by simp only [Eff.run_obs, ht])

variable {as is : List Nat} (ht : translateRange s.dev q.ctx q.a0 .read (2 * q.count) = some as)
  (hi : is = (List.range q.count).map fun i => fromLE (((s.dev.bytesAt as).drop (2 * i)).take 2))
include ht hi

theorem release_read : Does (.release die) s
    (if is.any fun i => s.dev.pfxRefsAt (refKey q.part q.ring i) < (is.filter (· == i)).length then seqFail q 7
    else if is.any fun i => (treeNode s.dev q.part i).map (·.scope) != some (seqScope s.dev q) then seqFail q 6
    else .all [.each is (giveRef q.part q.ring), countNodes q.part, seqComplete q 0 q.count]) :=
  (h.does (c := (.release, 3)) fun _ _ => rfl).of_run (by simp only [Eff.run_obs, ht, hi])

theorem release_unheld {i : Nat} (hm : i ∈ is)
    (hc : s.dev.pfxRefsAt (refKey q.part q.ring i) < (is.filter (· == i)).length) : Does (.release die) s (seqFail q 7) :=
  (release_read h ht hi).of_run (by rw [if_pos (List.any_eq_true.2 ⟨i, hm, decide_eq_true hc⟩)])

variable (hc : ∀ i ∈ is, (is.filter (· == i)).length ≤ s.dev.pfxRefsAt (refKey q.part q.ring i))
include hc

theorem release_otherScope {i : Nat} (hm : i ∈ is)
    (hn : (treeNode s.dev q.part i).map (·.scope) ≠ some (seqScope s.dev q)) : Does (.release die) s (seqFail q 6) :=
  (release_read h ht hi).of_run (by
    rw [if_neg (by simpa using hc), if_pos (List.any_eq_true.2 ⟨i, hm, by simpa using hn⟩)])

theorem release_held (hn : ∀ i ∈ is, (treeNode s.dev q.part i).map (·.scope) = some (seqScope s.dev q)) :
    Does (.release die) s (.all [.each is (giveRef q.part q.ring), countNodes q.part, seqComplete q 0 q.count]) :=
  (release_read h ht hi).of_run (by rw [if_neg (by simpa using hc), if_neg (by simpa using hn)])

end

/-! ### NODE_READ and FLUSH_SCOPE (R163, R172) -/

section
variable {s : State} {die : Nat} {q : SeqReq}

theorem nodeRead_some (h : Serves s die 5 q) {n : PfxNode} (hn : treeNode s.dev q.part (bits q.imm 15 0) = some n) :
    Does (.nodeRead die) s (if n.scope != seqScope s.dev q then seqFail q 6
      else if (translateRange s.dev q.ctx q.a0 .write 64).isNone then seqFail q 9
      else .seq (writeVirtual q.ctx q.a0 (nodeForm n)) (seqComplete q 0 0)) :=
  (h.does (c := (.nodeRead, 5)) fun _ _ => rfl).of_run (by simp only [Eff.run_obs, hn])

theorem nodeRead_noNode (h : Serves s die 5 q)
    (hn : ∀ n, treeNode s.dev q.part (bits q.imm 15 0) = some n → n.scope ≠ seqScope s.dev q) :
    Does (.nodeRead die) s (seqFail q 6) := by
  cases ho : treeNode s.dev q.part (bits q.imm 15 0) with
  | none => exact (h.does (c := (.nodeRead, 5)) fun _ _ => rfl).of_run (by simp only [Eff.run_obs, ho])
  | some n => exact (nodeRead_some h ho).of_run (by rw [if_pos (bne_iff_ne.2 (hn n ho))])

section
variable (h : Serves s die 5 q) {n : PfxNode} (hn : treeNode s.dev q.part (bits q.imm 15 0) = some n)
  (hs : n.scope = seqScope s.dev q)
include h hn hs

theorem nodeRead_unwritten (ha : translateRange s.dev q.ctx q.a0 .write 64 = none) : Does (.nodeRead die) s (seqFail q 9) :=
  (nodeRead_some h hn).of_run (by rw [if_neg (by simp [hs]), ha, Option.isNone_none, if_pos rfl])

theorem nodeRead_writes (ha : (translateRange s.dev q.ctx q.a0 .write 64).isSome = true) :
    Does (.nodeRead die) s (.seq (writeVirtual q.ctx q.a0 (nodeForm n)) (seqComplete q 0 0)) :=
  (nodeRead_some h hn).of_run (by
    rw [if_neg (by simp [hs]), Option.isNone_eq_false_iff.2 ha, if_neg Bool.false_ne_true])

end

theorem does_flushScope (h : Serves s die 6 q) : Does (.flushScope die) s (.seq
    (evictAll q.part (fun n => n.scope == seqScope s.dev q) (treeNodes s.dev q.part).length)
    (.obs fun d => .seq (countNodes q.part)
      (seqComplete q 0 ((treeNodes s.dev q.part).length - (treeNodes d q.part).length)))) :=
  (h.does (c := (.flushScope, 6)) fun _ _ => rfl).of_run (by rw [Eff.run_obs])

end

/-! ### VERIFY (R173, R176, R177) -/

/-- A probability of the rows that a VERIFY reads is one that it cannot use (R173). -/
def badRows (d : Device) (q : SeqReq) (pas qas : List Nat) : Bool :=
  ((List.range (q.count + 1)).any fun i => (probRow d pas q.vocab i).any badProb) ||
    (bit q.imm 63 == 1 && (List.range q.count).any fun i => (probRow d qas q.vocab i).any badProb)

theorem badRows_eq_true {d : Device} {q : SeqReq} {pas qas : List Nat} : badRows d q pas qas = true ↔
    ∃ i, (i < q.count + 1 ∧ (probRow d pas q.vocab i).any badProb = true) ∨
      (bit q.imm 63 = 1 ∧ i < q.count ∧ (probRow d qas q.vocab i).any badProb = true) := by
  simp only [badRows, Bool.or_eq_true, Bool.and_eq_true, beq_iff_eq, List.any_eq_true, List.mem_range, exists_or,
    exists_and_left]

theorem badRows_eq_false {d : Device} {q : SeqReq} {pas qas : List Nat}
    (hp : ∀ i < q.count + 1, (probRow d pas q.vocab i).any badProb = false)
    (hq : bit q.imm 63 = 1 → ∀ i < q.count, (probRow d qas q.vocab i).any badProb = false) : badRows d q pas qas = false := by
  rw [← Bool.not_eq_true, badRows_eq_true]
  rintro ⟨i, ⟨hi, hb⟩ | ⟨hr, hi, hb⟩⟩
  · exact Bool.false_ne_true ((hp i hi).symm.trans hb)
  · exact Bool.false_ne_true ((hq hr i hi).symm.trans hb)

/-- The completion of a VERIFY that accepts `a` candidates: the context's row of counts is advanced, and a token emitted (R177). -/
def verifyAccepts (d : Device) (q : SeqReq) (pas qas ras : List Nat) (a : Nat) : Eff := .all [
  writeVirtual q.ctx (bits q.imm 55 0 + 4) (toLE 4 (fromLE (((d.bytesAt ras).drop 4).take 4) + 1 + a)),
  writeVirtual q.ctx (bits q.imm 55 0 + 8) (toLE 4 (fromLE (((d.bytesAt ras).drop 8).take 4) ||| 4)),
  seqComplete q 0 (a + emittedToken (bit q.imm 63) (d.reg .CTX_SEED q.ctx ^^^ 1) q.a3 q.count a
    (probRow d pas q.vocab) (probRow d qas q.vocab) * 256)]

section
variable {s : State} {die : Nat} {q : SeqReq} (h : Serves s die 4 q)
include h

/-- The drafter's rows are read where the rule uses them. -/
theorem verify_read {cand pas qas ras was : List Nat} (hc : tokensAt s.dev q.ctx q.a0 q.count = some cand)
    (hp : translateRange s.dev q.ctx q.a1 .read ((q.count + 1) * q.vocab * 4) = some pas)
    (hq : if bit q.imm 63 = 1 then translateRange s.dev q.ctx q.a2 .read (q.count * q.vocab * 4) = some qas else qas = [])
    (hr : translateRange s.dev q.ctx (bits q.imm 55 0) .read 16 = some ras)
    (hw : translateRange s.dev q.ctx (bits q.imm 55 0) .write 16 = some was) : Does (.verify die) s
    (if cand.any fun c => q.vocab ≤ c then seqFail q 8 else if badRows s.dev q pas qas then seqFail q 10
    else verifyAccepts s.dev q pas qas ras (acceptedCount (bit q.imm 63) (s.dev.reg .CTX_SEED q.ctx ^^^ 1) q.a3 cand
      (probRow s.dev pas q.vocab) (probRow s.dev qas q.vocab))) := by
  have hq' : (if bit q.imm 63 == 1 then translateRange s.dev q.ctx q.a2 .read (q.count * q.vocab * 4) else some []) =
      some qas := by
    simp only [beq_iff_eq]
    split_ifs at hq ⊢
    · exact hq
    · rw [hq]
  exact (h.does (c := (.verify, 4)) fun _ _ => rfl).of_run (by
    simp only [Eff.run_obs, hc, hp, hq', hr, hw]
    rfl)

theorem verify_unread (hn : tokensAt s.dev q.ctx q.a0 q.count = none ∨
    translateRange s.dev q.ctx q.a1 .read ((q.count + 1) * q.vocab * 4) = none ∨
    (bit q.imm 63 = 1 ∧ translateRange s.dev q.ctx q.a2 .read (q.count * q.vocab * 4) = none) ∨
    translateRange s.dev q.ctx (bits q.imm 55 0) .read 16 = none ∨
    translateRange s.dev q.ctx (bits q.imm 55 0) .write 16 = none) : Does (.verify die) s (seqFail q 9) := by
  refine (h.does (c := (.verify, 4)) fun _ _ => rfl).of_run ?_
  rw [Eff.run_obs]
  dsimp only
  split
  · next hc hp hq hr hw =>
    rcases hn with hn | hn | ⟨h1, hn⟩ | hn | hn
    · cases hn.symm.trans hc
    · cases hn.symm.trans hp
    · rw [h1, beq_self_eq_true, if_pos rfl, hn] at hq
      cases hq
    · cases hn.symm.trans hr
    · cases hn.symm.trans hw
  · rfl

end

/-- Settles O19: a command does nothing without a request of its operation, and fails one that is out of range or of a lost tree;
each operation then goes by what it reads, and by what the tree holds of the blocks or nodes that it names. -/
theorem sequenceRequests : Obligations.SequenceRequests := by
  refine ⟨fun s die q h => ⟨fun ts is clash ht hw => ⟨fun ha hf => lookup_finds h ht hw ha (refsMissing_eq_false hf),
      lookup_unwritten h ht hw, fun ha hf hm => lookup_refsMissing h ht hw ha (refsMissing_eq_true hf hm)⟩, lookup_unread h⟩,
    fun s die scope q parent h hs hp => ⟨insert_unread h, fun ts ht => ⟨insert_notReady h ht, ?_, fun hr hb => ?_⟩⟩,
    fun s die q h => ⟨release_unread h, fun as is ht hi => ⟨release_held h ht hi, fun i hm => release_unheld h ht hi hm,
      fun hc i hm => release_otherScope h ht hi hc hm⟩⟩,
    fun s die q h => ⟨fun n hn hs => ⟨nodeRead_writes h hn hs, nodeRead_unwritten h hn hs⟩, nodeRead_noNode h⟩,
    fun s die q h => does_flushScope h,
    fun s die row rule q h hrule hrow => ?_, fun c hc s die hd hw => ?_⟩
  · subst hs hp
    exact fun i hr hp hb => insert_barred h ht hr hp (barredParent_eq_true.2 hb)
  · obtain rfl : parent = insertParent q := hp
    subst hs
    have hx := insert_below h ht hr fun i hi => barredParent_eq_false.2 (hb i hi)
    refine ⟨fun i hm => ⟨fun hf => ?_, fun hf hn => ?_⟩, fun hm => ⟨fun hc => ?_, fun hc hf hl => ?_,
      fun n room bucket sel full hc hf hn hbk hrm hsel hfull => ?_⟩⟩
    · rwa [insertBlock_finds hm (refsMissing_eq_false hf)] at hx
    · rwa [insertBlock_refsMissing hm (refsMissing_eq_true hf hn)] at hx
    · rwa [insertBlock_collides hm hc] at hx
    · rwa [insertBlock_refsFull hm hc hf hl] at hx
    · rw [insertBlock_new hm hc hf] at hx
      subst hn hsel hfull
      exact ⟨fun hr => hx.of_run (run_insertNew_room hbk hrm hr),
        fun hr ho => hx.of_run ((run_insertNew_full hbk hrm hr).trans (run_evictFor_none ho)),
        fun hr ho hl => hx.of_run ((run_insertNew_full hbk hrm hr).trans (run_evictFor ho hl)),
        fun hr ho hl => hx.of_run ((run_insertNew_full hbk hrm hr).trans (run_evictFor_noRoom ho hl))⟩
  · subst hrule hrow
    refine ⟨fun cand pas qas ras was hc hp hq hr hw => ?_, verify_unread h⟩
    have hx := verify_read h hc hp hq hr hw
    refine ⟨fun a hv hgp hgq ha => ?_, fun c hm hv => ?_, fun i hv hb => ?_⟩
    · subst ha
      rwa [if_neg (by simpa using hv), if_neg (by simp [badRows_eq_false hgp hgq])] at hx
    · rwa [if_pos (List.any_eq_true.2 ⟨c, hm, decide_eq_true hv⟩)] at hx
    · rwa [if_neg (by simpa using hv), if_pos (badRows_eq_true.2 ⟨i, hb⟩)] at hx
  · obtain ⟨run, hrun⟩ := runs_of_mem_seqCommands hc
    have hx := does_seqServe hrun hd hw
    exact ⟨fun q hq => ⟨fun hm => hx.of_run (run_seqServe_malformed _ _ hq hm),
        fun hm ho => hx.of_run (run_seqServe_otherOp _ _ hq hm ho),
        fun hm ho hl => hx.of_run (run_seqServe_lost _ _ hq hm ho hl)⟩,
      fun hn => hx.of_run (run_seqServe_none _ _ hn)⟩

end Sys2Proof.Machine
end

section
/-! PROOFS. Planned migration, and the tiles of streams (R45, R206, R408 to R410). -/

namespace Sys2Proof.Machine

/- As in the tests, one theorem after another: each one elaborated beside others holds a thread's stack. -/
set_option Elab.async false

/-! ### Planned migration (R409, R410) -/

section
variable {s : State} {core : Nat} (hc : core < 2048) (hw : working s.dev = true)
include hc hw

theorem gives_migrationStart {d : Device} (hd : (dropSlice fun _ => [core]).run s.dev = d) :
    Gives (.migrationStart core) s d (migrationStart core) := by
  rw [Gives, exec, execMigrationStart, perform_ok (decide_eq_true hc), run_whileIt hw, Eff.run_seq, hd]

theorem does_migrationResume (toSpare : Bool) :
    Does (.migrationResume core toSpare) s (migrationResume core toSpare) := by
  rw [Does, Gives, exec, execMigrationResume, perform_ok (decide_eq_true hc), run_whileIt hw]

end

section
variable {d : Device} {core site : Nat} {toSpare : Bool} (hq : (clusterSite d (core / 128) (core / 16 % 8)).getD 0 = site)
include hq

theorem run_migrationResume (hf : (d.coresAt core).fenced = true)
    (hs : (d.coresAt core).state = 0 ∨ (d.coresAt core).state = 3 ∨ (d.coresAt core).state = 4)
    (hm : mayMove d core site toSpare = true) : (migrationResume core toSpare).run d =
    (Eff.all [advanceEpoch core, putMoved core toSpare, refreshMesh site, releaseCore core]).run d := by
  have hr : ((d.coresAt core).state == 0 || (d.coresAt core).state == 3 || (d.coresAt core).state == 4) = true := by
    simpa [or_assoc] using hs
  simp only [migrationResume, Eff.run_obs, hf, hr, hq, hm, Bool.and_self, Eff.when_true]

/-- A MIGRATION_RESUME waits where the core is not fenced, has not stopped, or may not move (R409 steps 2 to 4). -/
theorem run_migrationResume_waits (h : (d.coresAt core).fenced = false ∨
      ((d.coresAt core).state ≠ 0 ∧ (d.coresAt core).state ≠ 3 ∧ (d.coresAt core).state ≠ 4) ∨
      mayMove d core site toSpare = false) : (migrationResume core toSpare).run d = d := by
  rw [migrationResume, Eff.run_obs]
  dsimp only
  rw [hq]
  rcases h with hf | ⟨h0, h3, h4⟩ | hm
  · rw [hf, Bool.false_and, Bool.false_and, Eff.when_false, Eff.run_skip]
  · rw [beq_eq_false_iff_ne.2 h0, beq_eq_false_iff_ne.2 h3, beq_eq_false_iff_ne.2 h4, Bool.or_self, Bool.or_self,
      Bool.and_false, Bool.false_and, Eff.when_false, Eff.run_skip]
  · rw [hm, Bool.and_false, Eff.when_false, Eff.run_skip]

end

/-! ### Tiles of streams (R45, R206, R408) -/

theorem does_streamTileDelivery {s : State} {e : Nat} (he : e < 16384) (hp : powered s.dev = true) (data : List Byte)
    (epoch taken : Nat) : Does (.streamTileDelivery e data epoch taken) s (streamTile e data epoch taken) := by
  rw [Does, Gives, exec, execStreamTileDelivery, perform_ok (decide_eq_true he), run_whileIt hp]

/-- The tile is of a placement epoch that its receiver no longer uses: epochs count on the streams of medium 0, the cluster mesh
(R37, R408). -/
def lateTile (d : Device) (e core epoch : Nat) : Bool := d.fld F.STR_ENTRY_medium e == 0 && epoch != d.epochsAt core

theorem lateTile_eq_true {d : Device} {e core epoch : Nat} :
    lateTile d e core epoch = true ↔ d.fld F.STR_ENTRY_medium e = 0 ∧ epoch ≠ d.epochsAt core := by
  simp [lateTile]

theorem lateTile_eq_false {d : Device} {e core epoch : Nat} :
    lateTile d e core epoch = false ↔ d.fld F.STR_ENTRY_medium e ≠ 0 ∨ epoch = d.epochsAt core := by
  simp [lateTile, imp_iff_not_or]

/-- The tile is held at its source: its receiver is fenced, or its buffer is full once the tiles taken are out (R206). -/
def tileHeld (d : Device) (e core taken : Nat) : Bool :=
  (d.coresAt core).fenced || d.fld F.STR_ENTRY_depth e + 1 ≤ ((d.strBufAt e).drop taken).length

theorem tileHeld_eq_true {d : Device} {e core taken : Nat} : tileHeld d e core taken = true ↔
    (d.coresAt core).fenced = true ∨ d.fld F.STR_ENTRY_depth e + 1 ≤ ((d.strBufAt e).drop taken).length := by
  simp only [tileHeld, Bool.or_eq_true, decide_eq_true_eq]

theorem tileHeld_eq_false {d : Device} {e core taken : Nat} : tileHeld d e core taken = false ↔
    (d.coresAt core).fenced = false ∧ ((d.strBufAt e).drop taken).length ≤ d.fld F.STR_ENTRY_depth e := by
  simp only [tileHeld, Bool.or_eq_false_iff, decide_eq_false_iff_not, Nat.not_le, Nat.lt_succ_iff]

/-- A late tile counts at its stream, and at the context that its event would have been for (R408, log entry 13). -/
def countLate (e : Nat) (ctx : Option Nat) : Eff := .all [addSat F.STR_STAT_dropped e 1,
  .each ctx.toList fun c => addSat F.CTX_STAT_late_drops c 1]

section
variable {d : Device} {e : Nat} (data : List Byte) (epoch taken : Nat)

theorem run_streamTile_noStream
    (h : strCore d e F.STR_ENTRY_dst_cluster F.STR_ENTRY_dst_core = none ∨ d.fld F.STR_ENTRY_valid e ≠ 1) :
    (streamTile e data epoch taken).run d = d := by
  rw [streamTile, Eff.run_obs]
  cases hk : strCore d e F.STR_ENTRY_dst_cluster F.STR_ENTRY_dst_core with
  | none => rfl
  | some core =>
    have hv : d.fld F.STR_ENTRY_valid e ≠ 1 := h.resolve_left (by simp [hk])
    simp only [beq_eq_false_iff_ne.2 hv, Eff.when_false, Eff.run_skip]

/-- The tiles taken leave the buffer; the tile is then dropped, held or delivered. -/
theorem run_streamTile {core : Nat} (hk : strCore d e F.STR_ENTRY_dst_cluster F.STR_ENTRY_dst_core = some core)
    (hv : d.fld F.STR_ENTRY_valid e = 1) : (streamTile e data epoch taken).run d = (Eff.seq (modStrBuf e (·.drop taken))
      (if lateTile d e core epoch then countLate e (streamCtx d e core)
      else if tileHeld d e core taken then .all [modHeldTiles e (· ++ [data]), addSat F.STR_STAT_held e 1]
      else deliverTile e core data)).run d := by
  simp only [streamTile, Eff.run_obs, hk, hv, beq_self_eq_true, Eff.when_true, Eff.run_seq]
  rw [← lateTile, ← tileHeld]
  cases lateTile d e core epoch with
  | true => cases streamCtx d e core <;> rfl
  | false => cases tileHeld d e core taken <;> rfl

end

/-- Settles O11: a migration starts and resumes by the core it finds, one under test first leaving its slice (R457, log entries 99
and 144); a tile goes by whether it is late, which only one of medium 0, the cluster mesh (R37), can be, then by whether it is
held. -/
theorem migrationAndTiles : Obligations.MigrationAndTiles := by
  refine ⟨fun s d core hc hw hd => gives_migrationStart hc hw hd,
    fun s core site toSpare hc hw hf hs hq hm => (does_migrationResume hc hw toSpare).of_run (run_migrationResume hq hf hs hm),
    fun s core site toSpare hc hw hq h => (does_migrationResume hc hw toSpare).of_run (run_migrationResume_waits hq h),
    fun s e core epoch taken data he hp hk hv hl hf hn => (does_streamTileDelivery he hp data epoch taken).of_run ?_,
    fun s e core epoch taken data he hp hk hv hl hn => (does_streamTileDelivery he hp data epoch taken).of_run ?_,
    fun s e core epoch taken data he hp hk hv hm hl => (does_streamTileDelivery he hp data epoch taken).of_run ?_,
    fun s e epoch taken data he hp h =>
      (does_streamTileDelivery he hp data epoch taken).of_run (run_streamTile_noStream data epoch taken h)⟩
  · rw [run_streamTile data epoch taken hk hv, lateTile_eq_false.2 hl, tileHeld_eq_false.2 ⟨hf, hn⟩]
    rfl
  · rw [run_streamTile data epoch taken hk hv, lateTile_eq_false.2 hl, tileHeld_eq_true.2 hn]
    rfl
  · rw [run_streamTile data epoch taken hk hv, lateTile_eq_true.2 ⟨hm, hl⟩]
    rfl

end Sys2Proof.Machine
end

section
/-! PROOFS. Commands that the block carries out under a guard, and writes of registers that act. -/

namespace Sys2Proof.Machine

/- As in the tests, one theorem after another: each one elaborated beside others holds a thread's stack. -/
set_option Elab.async false

section
variable {c : Instr} {s : State} {ok : Bool} (hok : ok = true) {e : Eff}
include hok

theorem does_perform (hc : exec c s = perform ok e s) : Does c s e := by
  rw [Does, Gives, hc, perform_ok hok]

theorem does_whileIt {guard : Device → Bool} (hg : guard s.dev = true) (hc : exec c s = perform ok (whileIt guard e) s) :
    Does c s e := by
  rw [Does, Gives, hc, perform_ok hok, run_whileIt hg]

variable {d : Device} {rq : Nat}

theorem gives_hostDo (h : Asks s rq d) (hc : exec c s = perform ok (hostDo rq e) s) : Gives c s d e := by
  rw [Gives, hc, perform_ok hok, run_hostDo h]

theorem gives_writes {r : Reg} {i v b : Nat} (h : Writes s rq r i v b d)
    (hc : exec c s = perform ok (hostDo rq (writeAct rq r i v b e)) s) : Gives c s d e := by
  rw [Gives, hc, perform_ok hok, run_writes h]

variable {r : Reg} {i : Nat} (h : Asks s rq d) (hc : exec c s = perform ok (atSite rq r i e) s)
include h hc

theorem gives_atSite (hb : (isSteward rq || !siteGone d r i) = true) : Gives c s d e := by
  rw [Gives, hc, perform_ok hok, run_atSite h hb]

/-- Nothing reaches a site that is unbound or retired, but from the steward (R505). -/
theorem gives_atSite_gone (hb : (isSteward rq || !siteGone d r i) = false) : Gives c s d .skip := by
  rw [Gives, hc, perform_ok hok, atSite, run_hostDo h, Eff.run_obs, hb, Eff.when_false]

end

theorem run_writeAct {s : State} {d : Device} {rq i v b : Nat} {r : Reg} (h : Writes s rq r i v b d) (act : Eff) :
    (writeAct rq r i v b act).run ((beforeAccess rq).run s.dev) = act.run d := by
  simp only [writeAct, Eff.run_obs, h.right, beq_self_eq_true, if_true, Eff.run_seq, h.found]

theorem run_writeAct_denied {d : Device} {rq i b : Nat} {r : Reg} (hb : bit (mayWrite d rq r i) b = 0) (v : Nat) (act : Eff) :
    (writeAct rq r i v b act).run d = denied.run d := by
  rw [writeAct, Eff.run_obs, hb, if_neg (by decide)]

end Sys2Proof.Machine
end

section
/-! PROOFS. The ways of a floor (R225, R229). -/

namespace Sys2Proof.Machine

/- As in the tests, one theorem after another: each one elaborated beside others holds a thread's stack. -/
set_option Elab.async false

section
variable {d : Device} {rq site : Nat}

theorem run_waymapWrite {changed : List Nat} {v : Nat} (hm : mayWrite d rq .FLR_WAYMAP site ≠ 0)
    (hc : changed = (waysOf d rq site).filter fun w => bit (d.fld F.FLR_WAYMAP_mode site) w != bit v w) :
    (waymapWrite rq site v).run d = (Eff.seq
      (setF F.FLR_WAYMAP_mode site (changed.foldl (fun a w => a ^^^ 2 ^ w) (d.fld F.FLR_WAYMAP_mode site)))
      (clearWays site changed)).run d := by
  subst hc
  rw [waymapWrite, Eff.run_obs, beq_eq_false_iff_ne.2 hm, if_neg Bool.false_ne_true]

theorem run_waymapWrite_denied (hm : mayWrite d rq .FLR_WAYMAP site = 0) (v : Nat) :
    (waymapWrite rq site v).run d = denied.run d := by
  rw [waymapWrite, Eff.run_obs, hm, if_pos (beq_self_eq_true 0)]

/-- The ways of word `i` of the owners that a write of `v` gives another owner. -/
def ownerChanges (d : Device) (site i v : Nat) : List Nat :=
  ((List.range 4).filter fun j => bits (v &&& 0x9F9F9F9F) (8 * j + 7) (8 * j) != wayOwnByte d site (4 * i + j)).map (4 * i + ·)

theorem run_wayownWrite (i v : Nat) : (wayownWrite rq site i v).run d =
    (writeAct rq .FLR_WAYOWN (site * 4 + i) (v &&& 0x9F9F9F9F) 0 (clearWays site (ownerChanges d site i v))).run d := by
  rw [wayownWrite, Eff.run_obs]
  rfl

theorem run_wayClearDone {w : Nat} (h : wayBusy d site w = true) : (wayClearDone site w).run d = (Eff.all [
      .upd (.memDrop fun a => wayBase site w ≤ a && a < wayBase site w + wayBytes),
      .upd (.poisonDrop fun a => wayBase site w ≤ a && a < wayBase site w + wayBytes),
      setF F.FLR_WAYMAP_busy site (d.fld F.FLR_WAYMAP_busy site - 2 ^ w), releaseWrites]).run d := by
  simp only [wayClearDone, Eff.run_obs, h, Eff.when_true]

theorem run_wayClearDone_idle {w : Nat} (h : wayBusy d site w = false) : (wayClearDone site w).run d = d := by
  simp only [wayClearDone, Eff.run_obs, h, Eff.when_false, Eff.run_skip]

end

section
variable {s : State} {d : Device} {rq site : Nat} (hs : site < 17)
include hs

theorem does_wayClearDone {way : Nat} (hw : way < 16) (hp : powered s.dev = true) :
    Does (.wayClearDone site way) s (wayClearDone site way) :=
  does_whileIt (by simp [hs, hw]) hp rfl

variable (h : Asks s rq d)
include h

theorem gives_waymapWrite (hb : (isSteward rq || !siteGone d .FLR_WAYMAP site) = true) (v : Nat) :
    Gives (.waymapWrite rq site v) s d (waymapWrite rq site v) :=
  gives_atSite (by simp [h.lt, hs]) h rfl hb

theorem gives_waymapWrite_gone (hb : (isSteward rq || !siteGone d .FLR_WAYMAP site) = false) (v : Nat) :
    Gives (.waymapWrite rq site v) s d .skip :=
  gives_atSite_gone (by simp [h.lt, hs]) h rfl hb

variable {i : Nat} (hi : i < 4)
include hi

theorem gives_wayownWrite (hb : (isSteward rq || !siteGone d .FLR_WAYMAP site) = true) (v : Nat) :
    Gives (.wayownWrite rq site i v) s d
      (writeAct rq .FLR_WAYOWN (site * 4 + i) (v &&& 0x9F9F9F9F) 0 (clearWays site (ownerChanges d site i v))) :=
  (gives_atSite (by simp [h.lt, hs, hi]) h rfl hb).of_run (run_wayownWrite i v)

theorem gives_wayownWrite_gone (hb : (isSteward rq || !siteGone d .FLR_WAYMAP site) = false) (v : Nat) :
    Gives (.wayownWrite rq site i v) s d .skip :=
  gives_atSite_gone (by simp [h.lt, hs, hi]) h rfl hb

end

/-- Settles O21: a write goes by whether the floor's site is there and by the requester's right, and then clears the ways that it
changes; WAY_CLEAR_DONE goes by whether the way is being cleared. (`Machine.floorWays` is the model's number of ways.) -/
theorem Settled.floorWays : Obligations.FloorWays := by
  refine ⟨fun s d rq site v changed hs h hb hm hc => (gives_waymapWrite hs h hb v).of_run (run_waymapWrite hm hc),
    fun s d rq site i v hs hi hb h => (gives_wayownWrite hs h.asks hi hb v).of_run (run_writeAct h _),
    fun s site way hs hw hp => ⟨fun hy => (does_wayClearDone hs hw hp).of_run (run_wayClearDone hy),
      fun hn => (does_wayClearDone hs hw hp).of_run (run_wayClearDone_idle hn)⟩,
    fun s d rq site i v hs hi h => ⟨fun hb => ⟨fun hm => (gives_waymapWrite hs h hb v).of_run (run_waymapWrite_denied hm v),
      fun hm => (gives_wayownWrite hs h hi hb v).of_run (run_writeAct_denied hm _ _)⟩,
      fun hb => ⟨gives_waymapWrite_gone hs h hb v, gives_wayownWrite_gone hs h hi hb v⟩⟩⟩

end Sys2Proof.Machine
end

section
/-! PROOFS. The training of a stack's channels, failed lanes, and channels that are retired (R238, R239, R244). -/

namespace Sys2Proof.Machine

/- As in the tests, one theorem after another: each one elaborated beside others holds a thread's stack. -/
set_option Elab.async false

/-! ### Training (R238) -/

/-- The channels of a stack that DRM_TRAIN_MASK names. -/
def namedChans (d : Device) (stack : Nat) : List Nat :=
  (List.range 32).filter fun c => bit (d.fld F.DRM_TRAIN_MASK_mask stack) c == 1

/-- The channels named are marked to be trained, but those retired and those of an active partition's groups; that there are some of
the latter is marked at bit 32. -/
def marksTraining (d : Device) (stack : Nat) (named : List Nat) : Eff :=
  .seq (setF F.DRM_TRAIN_busy stack 1) (putTraining stack
    ((named.filter fun c => (groupPart d (stack * 8 + c / 4)).isNone && !chanRetired d stack c).foldl
      (fun a c => a + 2 ^ c) 0 + (if named.any fun c => (groupPart d (stack * 8 + c / 4)).isSome then 2 ^ 32 else 0)))

theorem gives_dramTrain {s : State} {d : Device} {rq stack v : Nat} (hs : stack < 16) (h : Writes s rq .DRM_TRAIN stack v 31 d) :
    Gives (.dramTrain rq stack v) s d
      (.when (bit v 31 == 1 && d.fld F.DRM_TRAIN_busy stack == 0) (marksTraining d stack (namedChans d stack))) :=
  (gives_writes (by simp [h.asks.lt, hs]) h rfl).of_run (Eff.run_obs _ _)

theorem does_dramTrainDone {s : State} {stack : Nat} {dq ca : List Nat} (hs : stack < 16) (hq : dq.all (· < 32) = true)
    (ha : ca.all (· < 32) = true) (hp : powered s.dev = true) :
    Does (.dramTrainDone stack dq ca) s (dramTrainDone stack dq ca) :=
  does_whileIt (by rw [decide_eq_true hs, hq, ha]; rfl) hp rfl

theorem trainChannel_eq (chan dq ca : Nat) : trainChannel chan dq ca = .obs fun d =>
    .all [putDqFailed chan 0, setF F.DRM_CHAN_STATUS_lane_pending chan 0,
      if 2 < d.fld F.DRM_CHAN_STATUS_dq_spares chan + (dq + d.dqFailedAt chan) ∨
        1 < d.fld F.DRM_CHAN_STATUS_ca_spare chan + ca then channelRetire chan
      else .seq (setF F.DRM_CHAN_STATUS_dq_spares chan (d.fld F.DRM_CHAN_STATUS_dq_spares chan + (dq + d.dqFailedAt chan)))
        (setF F.DRM_CHAN_STATUS_ca_spare chan (d.fld F.DRM_CHAN_STATUS_ca_spare chan + ca))] := by
  simp only [trainChannel, Bool.or_eq_true, decide_eq_true_eq]

/-- A field of one of the channels differs between two blocks. -/
def chansDiffer (d d' : Device) (stack : Nat) (chans : List Nat) (f : Fld) : Bool :=
  chans.any fun c => d.fld f (stack * 32 + c) != d'.fld f (stack * 32 + c)

/-- The result of a training that found the block as `d` and left its channels as in `d'`: the highest code that applies (R238). -/
def trainingResult (d d' : Device) (stack : Nat) (chans : List Nat) : Nat :=
  if bit (d.trainingAt stack) 32 == 1 then 3
  else if chansDiffer d d' stack chans F.DRM_CHAN_STATUS_retired then 2
  else if chansDiffer d d' stack chans F.DRM_CHAN_STATUS_dq_spares || chansDiffer d d' stack chans F.DRM_CHAN_STATUS_ca_spare then 1
  else 0

section
variable {d : Device} {stack : Nat}

theorem run_dramTrainDone {chans : List Nat} (hb : d.fld F.DRM_TRAIN_busy stack = 1)
    (hc : chans = (List.range 32).filter fun c => bit (d.trainingAt stack) c == 1) (dq ca : List Nat) :
    (dramTrainDone stack dq ca).run d = (Eff.all [
      .each chans (fun c => trainChannel (stack * 32 + c) (dq.count c) (ca.count c)),
      .obs (fun d' => setF F.DRM_TRAIN_result stack (trainingResult d d' stack chans)),
      setF F.DRM_TRAIN_busy stack 0, putTraining stack 0]).run d := by
  subst hc
  rw [dramTrainDone, Eff.run_obs, hb, beq_self_eq_true, Eff.when_true]
  rfl

theorem run_dramTrainDone_idle (hb : d.fld F.DRM_TRAIN_busy stack ≠ 1) (dq ca : List Nat) :
    (dramTrainDone stack dq ca).run d = d := by
  rw [dramTrainDone, Eff.run_obs, beq_eq_false_iff_ne.2 hb, Eff.when_false, Eff.run_skip]

end

/-! ### Failed lanes and retired channels (R239, R244) -/

/-- A channel that is not yet retired is, with the group `g` that it is of. -/
def retiresChannel (d : Device) (chan g : Nat) : Eff := .all [.each (contextsReaching d g) (teardown · codeDataLost),
  setF F.DRM_CHAN_STATUS_retired chan 1, addWrap F.DRM_STACK_STATUS_channels_retired (chan / 32) 1,
  .obs (fun d => putGroupPoison g (!groupRetired d g)), logService 9 (chan / 32) (chan % 32 * 256 + 255) 0,
  putRetired (siteKey 8 chan) true, saveSpare]

section
variable {d : Device} {chan : Nat}

theorem run_channelRetire (h : d.fld F.DRM_CHAN_STATUS_retired chan = 0) : (channelRetire chan).run d =
    (retiresChannel d chan (chan / 32 * 8 + chan % 32 / 4)).run d := by
  rw [channelRetire, Eff.run_obs, h, beq_self_eq_true, Eff.when_true]
  rfl

theorem run_channelRetire_again (h : d.fld F.DRM_CHAN_STATUS_retired chan ≠ 0) : (channelRetire chan).run d = d := by
  rw [channelRetire, Eff.run_obs, beq_eq_false_iff_ne.2 h, Eff.when_false, Eff.run_skip]

variable {s : State} (hc : chan < 512) (hp : powered s.dev = true)
include hc hp

theorem does_dqLaneFail : Does (.dqLaneFail chan) s (dqLaneFail chan) := does_whileIt (decide_eq_true hc) hp rfl

theorem does_channelRetire {c : Nat → Instr} (hm : c ∈ [Instr.caLaneFail, Instr.channelRetire]) :
    Does (c chan) s (channelRetire chan) := by
  simp only [List.mem_cons, List.not_mem_nil, or_false] at hm
  rcases hm with rfl | rfl
  · exact does_whileIt (decide_eq_true hc) hp rfl
  · exact does_whileIt (decide_eq_true hc) hp rfl

end

/-- Settles O22: DRAM_TRAIN and DRAM_TRAIN_DONE go by whether the stack is being trained, and the commands that retire a channel by
whether it is retired (log entries 33 and 57). -/
theorem dramTraining : Obligations.DramTraining := by
  refine ⟨fun s d rq stack v hs h => ⟨fun named hv hb hn => ?_, fun hn => ?_⟩,
    fun s stack dq ca chans hs hq ha hp hc => ⟨fun hb => ?_, fun hb => ?_⟩, fun s chan hc hp => does_dqLaneFail hc hp,
    fun c hm s chan g hc hp hg => ⟨fun hr => ?_, fun hr => ?_⟩⟩
  · subst hn
    have hx := gives_dramTrain hs h
    rwa [hv, hb, beq_self_eq_true, beq_self_eq_true, Bool.and_self, Eff.when_true] at hx
  · have hx := gives_dramTrain hs h
    have hg : (bit v 31 == 1 && d.fld F.DRM_TRAIN_busy stack == 0) = false := by
      rcases hn with hv | hb
      · rw [hv]
        rfl
      · rw [beq_eq_false_iff_ne.2 hb, Bool.and_false]
    rwa [hg, Eff.when_false] at hx
  · refine (does_dramTrainDone hs hq ha hp).of_run ((run_dramTrainDone hb hc dq ca).trans ?_)
    simp only [trainChannel_eq]
    rfl
  · exact (does_dramTrainDone hs hq ha hp).of_run (run_dramTrainDone_idle hb dq ca)
  · subst hg
    exact (does_channelRetire hc hp hm).of_run (run_channelRetire hr)
  · exact (does_channelRetire hc hp hm).of_run (run_channelRetire_again hr)

end Sys2Proof.Machine
end

section
/-! PROOFS. Groups that are poisoned, patrol scrubs, repairs and stack temperatures (R240 to R245, R262). -/

namespace Sys2Proof.Machine

/- As in the tests, one theorem after another: each one elaborated beside others holds a thread's stack. -/
set_option Elab.async false

/-! ### Poisoned groups and scrubs (R241, R244) -/

section
variable {d : Device}

theorem run_groupPoisonDone {g : Nat} (h : d.groupPoisonAt g = true) : (groupPoisonDone g).run d = (Eff.all [
    .upd (.poisonDrop fun u => inDram u && groupOf u == g), putGroupLost g true,
    .obs (fun d => .each (mapKeys d.lines fun _ l => l.any fun l => inDram (l.tag * 256) && groupOf (l.tag * 256) == g)
      fun k => putLines k none),
    putGroupPoison g false, releaseWrites]).run d := by
  rw [groupPoisonDone, Eff.run_obs, h, Eff.when_true]

theorem run_groupPoisonDone_idle {g : Nat} (h : d.groupPoisonAt g = false) : (groupPoisonDone g).run d = d := by
  rw [groupPoisonDone, Eff.run_obs, h, Eff.when_false, Eff.run_skip]

variable {stack : Nat} {fixed lost mine : List Nat}
  (hm : mine = (fixed ++ lost).filter fun a => inDram a && groupOf a / 8 == stack)
include hm

theorem run_patrolScrub (hr : d.fld F.PWR_STATE_state 0 = 3) (hs : d.fld F.DRM_STACK_STATUS_state stack ≠ 3)
    (hh : mine.any (dramHeld d) = false) : (patrolScrub stack fixed lost).run d = (memErrors mine fixed lost).run d := by
  subst hm
  simp only [patrolScrub, Eff.run_obs, hr, bne_iff_ne.2 hs, hh, beq_self_eq_true, Bool.not_false, Bool.and_self, Eff.when_true]

theorem run_patrolScrub_waits (h : d.fld F.PWR_STATE_state 0 ≠ 3 ∨ d.fld F.DRM_STACK_STATUS_state stack = 3 ∨
    mine.any (dramHeld d) = true) : (patrolScrub stack fixed lost).run d = d := by
  subst hm
  rw [patrolScrub, Eff.run_obs]
  dsimp only
  rcases h with hr | hs | hh
  · rw [beq_eq_false_iff_ne.2 hr, Bool.false_and, Bool.false_and, Eff.when_false, Eff.run_skip]
  · rw [hs, bne_self_eq_false, Bool.and_false, Bool.false_and, Eff.when_false, Eff.run_skip]
  · rw [hh, Bool.not_true, Bool.and_false, Eff.when_false, Eff.run_skip]

end

/-! ### Repairs (R242) -/

/-- The repairs of a bank's rows within the last 24 hours. -/
def recentRepairs (d : Device) (key : Nat) : Nat :=
  ((d.bankRepairsAt key).filter fun t => d.reg .CLK_AON_CNT 0 < t + dayCycles).length

/-- A bank is copied to a spare bank of its stack; the last one is reported (R242). -/
def copiesBank (d : Device) (chan bank : Nat) : Eff := .all [modSpareBanks (chan / 32) (· + 1),
  putBankCopy (chan * 64 + bank) true, putBankRepairs (chan * 64 + bank) [], putRetired (bankKey chan bank) true, saveSpare,
  .when (d.spareBanksAt (chan / 32) == 7)
    (.seq (setF F.DRM_STACK_STATUS_banks_out (chan / 32) 1) (logService 9 (chan / 32) 0xFFFF 0))]

section
variable {d : Device} {chan bank row : Nat}

section
variable (hr : 8 ≤ recentRepairs d (chan * 64 + bank)) (hc : d.bankCopyAt (chan * 64 + bank) = false)
include hr hc

theorem run_bankRepair_due : (bankRepair chan bank).run d =
    (if 8 ≤ d.spareBanksAt (chan / 32) then channelRetire chan else copiesBank d chan bank).run d := by
  rw [bankRepair, Eff.run_obs]
  dsimp only
  rw [← recentRepairs, decide_eq_true hr, hc, Bool.not_false, Bool.and_self, Eff.when_true]
  rfl

theorem run_bankRepair (hs : d.spareBanksAt (chan / 32) < 8) : (bankRepair chan bank).run d = (copiesBank d chan bank).run d := by
  rw [run_bankRepair_due hr hc, if_neg hs.not_ge]

theorem run_bankRepair_noSpare (hs : 8 ≤ d.spareBanksAt (chan / 32)) :
    (bankRepair chan bank).run d = (channelRetire chan).run d := by
  rw [run_bankRepair_due hr hc, if_pos hs]

end

theorem run_bankRepair_notDue (h : recentRepairs d (chan * 64 + bank) < 8 ∨ d.bankCopyAt (chan * 64 + bank) = true) :
    (bankRepair chan bank).run d = d := by
  rw [bankRepair, Eff.run_obs]
  dsimp only
  rw [← recentRepairs]
  rcases h with hr | hc
  · rw [decide_eq_false hr.not_ge, Bool.false_and, Eff.when_false, Eff.run_skip]
  · rw [hc, Bool.not_true, Bool.and_false, Eff.when_false, Eff.run_skip]

theorem run_bankCopyDone (h : d.bankCopyAt (chan * 64 + bank) = true) : (bankCopyDone chan bank).run d =
    (Eff.seq (putBankCopy (chan * 64 + bank) false) (logRepair chan bank)).run d := by
  rw [bankCopyDone, Eff.run_obs, h, Eff.when_true]

theorem run_bankCopyDone_idle (h : d.bankCopyAt (chan * 64 + bank) = false) : (bankCopyDone chan bank).run d = d := by
  rw [bankCopyDone, Eff.run_obs, h, Eff.when_false, Eff.run_skip]

theorem run_rowRepairDone (h : d.rowRepairAt (chan * 1048576 + row) = true) : (rowRepairDone chan row).run d =
    (Eff.all [putRowRepair (chan * 1048576 + row) false, logRepair chan row, releaseWrites]).run d := by
  rw [rowRepairDone, Eff.run_obs, h, Eff.when_true]

theorem run_rowRepairDone_idle (h : d.rowRepairAt (chan * 1048576 + row) = false) : (rowRepairDone chan row).run d = d := by
  rw [rowRepairDone, Eff.run_obs, h, Eff.when_false, Eff.run_skip]

end

/-! ### Temperatures (R245, R262) -/

theorem run_stackTempSample_dram {d : Device} {stack new : Nat} (hs : stack < 16) {temp : Nat}
    (hn : new = tempState (d.fld F.DRM_STACK_STATUS_state stack) temp) : (stackTempSample stack temp).run d = (Eff.all [
      setF F.DRM_STACK_STATUS_temp stack temp, setF F.DRM_STACK_STATUS_state stack new, sensorAt (5 + stack) new,
      .when (new == 3 && d.fld F.DRM_STACK_STATUS_state stack != 3)
        (logError { severity := 2, source := 9, site := stack }), releaseWrites]).run d := by
  subst hn
  rw [stackTempSample, if_pos hs, dramTemp, Eff.run_obs]

theorem run_stackTempSample_flash {temp : Nat} (ht : temp < 256) (j : Nat) (d : Device) :
    (stackTempSample (16 + j) temp).run d = (Eff.all [setF F.FLS_STACK_STATUS_temp j temp,
      sensorAt (21 + j) (if 90 ≤ temp then 1 else 0), .when (90 < temp) (setF F.FLS_STACK_STATUS_write_paused j 1),
      .when (temp < 87) (setF F.FLS_STACK_STATUS_write_paused j 0)]).run d := by
  rw [stackTempSample, if_neg (by omega), Nat.add_sub_cancel_left, flashTemp, Nat.min_eq_right (Nat.le_of_lt_succ ht)]

/-! ### The commands -/

section
variable {s : State} (hp : powered s.dev = true)
include hp

theorem does_groupPoisonDone {g : Nat} (hg : g < 128) : Does (.groupPoisonDone g) s (groupPoisonDone g) :=
  does_whileIt (decide_eq_true hg) hp rfl

theorem does_patrolScrub {stack : Nat} (hs : stack < 16) (fixed lost : List Nat) :
    Does (.patrolScrub stack fixed lost) s (patrolScrub stack fixed lost) :=
  does_whileIt (decide_eq_true hs) hp rfl

theorem does_stackTempSample {stack temp : Nat} (hs : stack < 20) (ht : temp < 256) :
    Does (.stackTempSample stack temp) s (stackTempSample stack temp) :=
  does_whileIt (by simp [hs, ht]) hp rfl

variable {chan : Nat} (hc : chan < 512)
include hc

theorem does_bankRepair {bank : Nat} (hb : bank < 64) : Does (.bankRepair chan bank) s (bankRepair chan bank) :=
  does_whileIt (by simp [hc, hb]) hp rfl

theorem does_bankCopyDone {bank : Nat} (hb : bank < 64) : Does (.bankCopyDone chan bank) s (bankCopyDone chan bank) :=
  does_whileIt (by simp [hc, hb]) hp rfl

theorem does_rowRepairDone {row : Nat} (hr : row < 1048576) : Does (.rowRepairDone chan row) s (rowRepairDone chan row) :=
  does_whileIt (by simp [hc, hr]) hp rfl

end

/-- Settles O23: each command goes by whether what it ends is under way, a scrub by what holds its stack, and a bank's repair by the
repairs of 24 hours and the spare banks left; a sample goes by the kind of its stack (log entries 61 and 110). -/
theorem dramRepairs : Obligations.DramRepairs := by
  refine ⟨fun s g hg hp => ⟨fun h => (does_groupPoisonDone hp hg).of_run (run_groupPoisonDone h),
      fun h => (does_groupPoisonDone hp hg).of_run (run_groupPoisonDone_idle h)⟩,
    fun s stack fixed lost mine hs hp hm => ⟨fun hr ht hh =>
        (does_patrolScrub hp hs fixed lost).of_run (run_patrolScrub hm hr ht hh),
      fun h => (does_patrolScrub hp hs fixed lost).of_run (run_patrolScrub_waits hm h)⟩,
    fun s chan bank key hc hb hp hk => ?_,
    fun s chan bank row hc hb hr hp => ⟨fun h => (does_bankCopyDone hp hc hb).of_run (run_bankCopyDone h),
      fun h => (does_bankCopyDone hp hc hb).of_run (run_bankCopyDone_idle h),
      fun h => (does_rowRepairDone hp hc hr).of_run (run_rowRepairDone h),
      fun h => (does_rowRepairDone hp hc hr).of_run (run_rowRepairDone_idle h)⟩,
    fun s stack temp new hs ht hp hn =>
      (does_stackTempSample hp (hs.trans (by decide)) ht).of_run (run_stackTempSample_dram hs hn),
    fun s j temp hj ht hp =>
      (does_stackTempSample hp (Nat.add_lt_add_left hj 16) ht).of_run (run_stackTempSample_flash ht j s.dev)⟩
  subst hk
  have hx := does_bankRepair hp hc hb
  exact ⟨fun hr hn => ⟨fun hs => hx.of_run (run_bankRepair hr hn hs), fun hs => hx.of_run (run_bankRepair_noSpare hr hn hs)⟩,
    fun h => hx.of_run (run_bankRepair_notDue h)⟩

end Sys2Proof.Machine
end

section
/-! PROOFS. Driver maps, and the promotion of flash extents (R246, R248, R249). -/

namespace Sys2Proof.Machine

/- As in the tests, one theorem after another: each one elaborated beside others holds a thread's stack. -/
set_option Elab.async false

/-! ### Driver maps (R248) -/

section
variable {d : Device} {rq c : Nat}

theorem run_driverMapInval (hm : mayWrite d rq .DRM_CTX_MAP c ≠ 0) (v : Nat) : (driverMapInval rq c v).run d =
    (Eff.all [storeWrite rq .DRM_CTX_MAP c v,
      .obs (fun d => setF F.DRM_CTX_MAP_count c (min 4096 (d.fld F.DRM_CTX_MAP_count c))),
      .when (bit v 63 == 1) (.seq (.obs fun d => putDrvMap c (readDriverMap d c))
        (dropPages fun p => p.ctx == c && p.entry.place.isSome))]).run d := by
  rw [driverMapInval, Eff.run_obs, beq_eq_false_iff_ne.2 hm, if_neg Bool.false_ne_true, storeCtxMap]
  simp only [Eff.run_seq, Eff.run_all_cons, Eff.run_all_nil]

theorem run_driverMapInval_denied (hm : mayWrite d rq .DRM_CTX_MAP c = 0) (v : Nat) :
    (driverMapInval rq c v).run d = denied.run d := by
  rw [driverMapInval, Eff.run_obs, hm, if_pos (beq_self_eq_true 0)]

end

/-! ### The start of a promotion and a demotion (R249) -/

/-- A copy of extent `x` into frame `f` begins. -/
def beginsCopy (p x f : Nat) (pin : Bool) : Eff := .seq (putPromoJob p (some ⟨x, f, pin⟩)) (setF F.DRM_PROMOTE_busy p 1)

section
variable {d : Device} {p x : Nat}

theorem run_demoteExtent {r : Promo} (h : d.promoAt (p * 2097152 + x) = some r) : (demoteExtent p x).run d =
    (Eff.all [putPromo (p * 2097152 + x) none, dropExtent p x, putFrameBusy (frameKey p r.frame) true,
      addSat F.DRM_PROMO_STAT_demotions p 1, countFrames p]).run d := by
  rw [demoteExtent, Eff.run_obs, h]

theorem run_demoteExtent_none (h : d.promoAt (p * 2097152 + x) = none) : (demoteExtent p x).run d = d := by
  rw [demoteExtent, Eff.run_obs, h, Eff.run_skip]

theorem run_startPromotion_free {f : Nat} (hf : freeFrame d p = some f) (pin : Bool) :
    (startPromotion p x pin).run d = (beginsCopy p x f pin).run d := by
  rw [startPromotion, Eff.run_obs]
  simp only [hf, beginsCopy]

theorem run_startPromotion_victim (hf : freeFrame d p = none) {y : Nat} {r : Promo} (hv : victim d p = some (y, r)) (pin : Bool) :
    (startPromotion p x pin).run d = (Eff.seq (demoteExtent p y) (beginsCopy p x r.frame pin)).run d := by
  rw [startPromotion, Eff.run_obs]
  simp only [hf, hv, beginsCopy]

theorem run_startPromotion_none (hf : freeFrame d p = none) (hv : victim d p = none) (pin : Bool) :
    (startPromotion p x pin).run d = (Eff.when pin (setF F.DRM_PROMOTE_result p 1)).run d := by
  rw [startPromotion, Eff.run_obs]
  simp only [hf, hv]

end

/-! ### PROMOTE and DEMOTE (R249) -/

/-- What a PROMOTE of extent `x` does, beside a write of its register. -/
def promotes (d : Device) (p x : Nat) : Eff := .when (d.promoJobAt p).isNone <|
  if flashExtents ≤ x then setF F.DRM_PROMOTE_result p 2
  else if (d.promoAt (p * 2097152 + x)).isSome then
    .seq (modPromo (p * 2097152 + x) (Option.map fun r => { r with pinned := true })) (setF F.DRM_PROMOTE_result p 0)
  else startPromotion p x true

/-- What a DEMOTE of extent `x` does, beside a write of its register. -/
def demotes (d : Device) (p x : Nat) : Eff := .when (d.promoJobAt p).isNone <|
  if flashExtents ≤ x then setF F.DRM_PROMOTE_result p 2
  else .seq (demoteExtent p x) (setF F.DRM_PROMOTE_result p 0)

section
variable {d : Device} {p x : Nat}

theorem promotes_busy (h : d.promoJobAt p ≠ none) : promotes d p x = .skip := by
  rw [promotes, Option.isNone_eq_false_iff.2 (Option.isSome_iff_ne_none.2 h), Eff.when_false]

theorem demotes_busy (h : d.promoJobAt p ≠ none) : demotes d p x = .skip := by
  rw [demotes, Option.isNone_eq_false_iff.2 (Option.isSome_iff_ne_none.2 h), Eff.when_false]

variable (hj : d.promoJobAt p = none)
include hj

theorem promotes_beyond (hx : flashExtents ≤ x) : promotes d p x = setF F.DRM_PROMOTE_result p 2 := by
  rw [promotes, hj, Option.isNone_none, Eff.when_true, if_pos hx]

theorem demotes_beyond (hx : flashExtents ≤ x) : demotes d p x = setF F.DRM_PROMOTE_result p 2 := by
  rw [demotes, hj, Option.isNone_none, Eff.when_true, if_pos hx]

variable (hx : x < flashExtents)
include hx

theorem promotes_promoted {r : Promo} (hr : d.promoAt (p * 2097152 + x) = some r) : promotes d p x =
    .seq (modPromo (p * 2097152 + x) (Option.map fun r => { r with pinned := true })) (setF F.DRM_PROMOTE_result p 0) := by
  rw [promotes, hj, Option.isNone_none, Eff.when_true, if_neg hx.not_ge, hr, Option.isSome_some, if_pos rfl]

theorem promotes_new (hr : d.promoAt (p * 2097152 + x) = none) : promotes d p x = startPromotion p x true := by
  rw [promotes, hj, Option.isNone_none, Eff.when_true, if_neg hx.not_ge, hr, Option.isSome_none, if_neg Bool.false_ne_true]

theorem demotes_within : demotes d p x = .seq (demoteExtent p x) (setF F.DRM_PROMOTE_result p 0) := by
  rw [demotes, hj, Option.isNone_none, Eff.when_true, if_neg hx.not_ge]

end

/-! ### AUTO_PROMOTE (R249) -/

theorem freeFrame_putPromoReads (k : Nat) (v : Nat × Nat) (d : Device) (p : Nat) :
    freeFrame ((putPromoReads k v).run d) p = freeFrame d p := rfl

section
variable {d : Device} {p x n since : Nat} (hn : d.promoReadsAt (p * 2097152 + x) = (n, since))
include hn

theorem run_autoPromote (hx : x < flashExtents) (h0 : d.fld F.DRM_PROMO_POOL_threshold p ≠ 0)
    (ht : d.fld F.DRM_PROMO_POOL_threshold p ≤ n) (hc : d.reg .CLK_AON_CNT 0 ≤ since + 250000) (hj : d.promoJobAt p = none)
    (hr : d.promoAt (p * 2097152 + x) = none) : (autoPromote p x).run d =
      (Eff.seq (putPromoReads (p * 2097152 + x) (0, 0)) (startPromotion p x false)).run d := by
  rw [autoPromote, Eff.run_obs, hn]
  dsimp only
  rw [bne_iff_ne.2 h0, decide_eq_true ht, decide_eq_true hc, decide_eq_true hx, hj, hr]
  rfl

theorem run_autoPromote_not (h : d.fld F.DRM_PROMO_POOL_threshold p = 0 ∨ n < d.fld F.DRM_PROMO_POOL_threshold p ∨
    since + 250000 < d.reg .CLK_AON_CNT 0 ∨ d.promoJobAt p ≠ none ∨ d.promoAt (p * 2097152 + x) ≠ none) :
    (autoPromote p x).run d = d := by
  rw [autoPromote, Eff.run_obs, hn]
  dsimp only
  rw [Eff.run_when, if_neg]
  intro hg
  simp only [Bool.and_eq_true, bne_iff_ne, decide_eq_true_eq, Option.isNone_iff_eq_none] at hg
  obtain ⟨⟨⟨⟨⟨h0, ht⟩, hc⟩, hj⟩, -⟩, hr⟩ := hg
  rcases h with h | h | h | h | h
  · exact h0 h
  · exact h.not_ge ht
  · exact h.not_ge hc
  · exact h hj
  · exact h hr

end

/-! ### PROMOTE_DONE (R249) -/

/-- The bytes of an extent of flash. -/
def extentBytes (x : Nat) : List Nat := (List.range 2097152).map fun i => flashBase + x * 2097152 + i

/-- The bytes of a frame of a partition. -/
def frameBytes (d : Device) (p frame : Nat) : List Nat :=
  (List.range 2097152).filterMap fun i => partAddr d p (frame * 2097152 + i)

/-- The bytes of a copied extent, and what of it is lost, are put in its frame. -/
def fillsFrame (d : Device) (p : Nat) (j : PromoJob) (src dst : List Nat) : Eff := .all [store dst (d.bytesAt src),
  .each ((dst.zip src).filter fun x => d.badByte x.2) (fun x => setPoison (poisonUnit x.1) true), disturbReads src,
  putPromo (p * 2097152 + j.extent) (some ⟨j.frame, j.pin, d.promoTick⟩), dropExtent p j.extent,
  putPromoTick (d.promoTick + 1), putPromoJob p none, setF F.DRM_PROMOTE_busy p 0,
  .when j.pin (setF F.DRM_PROMOTE_result p 0), countFrames p]

section
variable {d : Device} {p : Nat}

theorem run_promoteDone_none (h : d.promoJobAt p = none) : (promoteDone p).run d = d := by
  rw [promoteDone, Eff.run_obs, h, Eff.run_skip]

variable {j : PromoJob} (hj : d.promoJobAt p = some j)
include hj

theorem run_promoteDone_some : (promoteDone p).run d =
    (Eff.when (!d.frameBusyAt (frameKey p j.frame) && !agentHeld d (some p) (frameBytes d p j.frame))
      (fillsFrame d p j (extentBytes j.extent) (frameBytes d p j.frame))).run d := by
  rw [promoteDone, Eff.run_obs, hj]
  rfl

theorem run_promoteDone (hb : d.frameBusyAt (frameKey p j.frame) = false)
    (hh : agentHeld d (some p) (frameBytes d p j.frame) = false) : (promoteDone p).run d =
    (fillsFrame d p j (extentBytes j.extent) (frameBytes d p j.frame)).run d := by
  rw [run_promoteDone_some hj, hb, hh, Bool.not_false, Bool.and_self, Eff.when_true]

theorem run_promoteDone_waits (h : d.frameBusyAt (frameKey p j.frame) = true ∨
    agentHeld d (some p) (frameBytes d p j.frame) = true) : (promoteDone p).run d = d := by
  rw [run_promoteDone_some hj]
  rcases h with hb | hh
  · rw [hb, Bool.not_true, Bool.false_and, Eff.when_false, Eff.run_skip]
  · rw [hh, Bool.not_true, Bool.and_false, Eff.when_false, Eff.run_skip]

end

/-! ### The commands -/

theorem gives_driverMapInval {s : State} {d : Device} {rq c : Nat} (hc : c < 1024) (h : Asks s rq d) (v : Nat) :
    Gives (.driverMapInval rq c v) s d (driverMapInval rq c v) :=
  gives_hostDo (by simp [h.lt, hc]) h rfl

section
variable {s : State} {p : Nat} (hp : p < 32)
include hp

theorem gives_promote {d : Device} {rq v : Nat} (h : Writes s rq .DRM_PROMOTE p v 30 d) :
    Gives (.promote rq p v) s d (promotes d p (bits v 20 0)) :=
  (gives_writes (by simp [h.asks.lt, hp]) h rfl).of_run (Eff.run_obs _ _)

theorem gives_demote {d : Device} {rq v : Nat} (h : Writes s rq .DRM_PROMOTE p v 31 d) :
    Gives (.demote rq p v) s d (demotes d p (bits v 20 0)) :=
  (gives_writes (by simp [h.asks.lt, hp]) h rfl).of_run (Eff.run_obs _ _)

theorem does_autoPromote {x : Nat} (hx : x < 1572864) (hw : working s.dev = true) :
    Does (.autoPromote p x) s (autoPromote p x) :=
  does_whileIt (by simp [hp, hx]) hw rfl

theorem does_promoteDone (hw : working s.dev = true) : Does (.promoteDone p) s (promoteDone p) :=
  does_whileIt (decide_eq_true hp) hw rfl

theorem does_frameFree {frame : Nat} (hf : frame < 268435456) (hw : powered s.dev = true) :
    Does (.frameFree p frame) s (putFrameBusy (frameKey p frame) false) :=
  does_whileIt (by simp [hp, hf]) hw rfl

end

/-- Settles O24: a PROMOTE and a DEMOTE go by whether a copy is under way, by the extent and by its promotion; a promotion that
starts goes by the frame it finds, and its end by what holds the frame (log entries 8 and 58). -/
theorem driverMapsAndPromotion : Obligations.DriverMapsAndPromotion := by
  refine ⟨fun s d rq c v hc h => ⟨fun hm => (gives_driverMapInval hc h v).of_run (run_driverMapInval hm v),
      fun hm => (gives_driverMapInval hc h v).of_run (run_driverMapInval_denied hm v)⟩,
    fun s d rq p v x hp h hx => ?_, fun s d rq p v x hp h hx => ?_, fun s p x n since hp hx hw hn => ?_,
    fun s p hp hw => ⟨fun j src dst hj hs hd => ?_, fun hj => (does_promoteDone hp hw).of_run (run_promoteDone_none hj)⟩,
    fun s p frame hp hf hw => does_frameFree hp hf hw,
    fun s d rq p v hp h => ⟨gives_denied h rfl (by simp [h.lt, hp]), gives_denied h rfl (by simp [h.lt, hp])⟩⟩
  · have hg := gives_promote hp h
    rw [← hx] at hg
    refine ⟨fun hj hb => ?_, fun r hj hb hr => ?_, fun hj hb hr => ?_, fun hj => ?_⟩
    · rwa [promotes_beyond hj hb] at hg
    · rwa [promotes_promoted hj hb hr] at hg
    · rw [promotes_new hj hb hr] at hg
      exact ⟨fun f hf => hg.of_run (run_startPromotion_free hf true),
        fun y r hf hv => hg.of_run (run_startPromotion_victim hf hv true),
        fun hf hv => hg.of_run (run_startPromotion_none hf hv true)⟩
    · rwa [promotes_busy hj] at hg
  · have hg := gives_demote hp h
    rw [← hx] at hg
    refine ⟨fun hj hb => ?_, fun r hj hb hr => ?_, fun hj hb hr => ?_, fun hj => ?_⟩
    · rwa [demotes_beyond hj hb] at hg
    · rw [demotes_within hj hb] at hg
      exact hg.of_run (by simp only [Eff.run_seq, run_demoteExtent hr, Eff.run_all_cons, Eff.run_all_nil])
    · rw [demotes_within hj hb] at hg
      exact hg.of_run (by rw [Eff.run_seq, run_demoteExtent_none hr])
    · rwa [demotes_busy hj] at hg
  · refine ⟨fun h0 ht hc hj hr => ?_, fun h => (does_autoPromote hp hx hw).of_run (run_autoPromote_not hn h)⟩
    have hg := (does_autoPromote hp hx hw).of_run (run_autoPromote hn hx h0 ht hc hj hr)
    refine ⟨hg, fun f hf => hg.of_run ?_⟩
    rw [Eff.run_seq, run_startPromotion_free ((freeFrame_putPromoReads _ _ _ _).trans hf), beginsCopy]
    simp only [Eff.run_seq, Eff.run_all_cons, Eff.run_all_nil]
  · rw [show src = extentBytes j.extent from hs, show dst = frameBytes s.dev p j.frame from hd]
    exact ⟨fun hb hh => (does_promoteDone hp hw).of_run (run_promoteDone hj hb hh),
      fun h => (does_promoteDone hp hw).of_run (run_promoteDone_waits hj h)⟩

end Sys2Proof.Machine
end

section
/-! PROOFS. The PCI Express ports, resets from the host, and BAR4 (R424, R479, R488, R490, R491). -/

namespace Sys2Proof.Machine

/- As in the tests, one theorem after another: each one elaborated beside others holds a thread's stack. -/
set_option Elab.async false

/-! ### The power that a port finds (R485, R501) -/

theorem hosted_eq_true {d : Device} : hosted d = true ↔ d.off = 0 ∧ d.fld F.STW_BOOT_recovery 0 = 0 := by
  simp only [hosted, Bool.and_eq_true, beq_iff_eq]

theorem hosted_eq_false {d : Device} : hosted d = false ↔ d.off ≠ 0 ∨ d.fld F.STW_BOOT_recovery 0 ≠ 0 := by
  simp only [hosted, Bool.and_eq_false_iff, beq_eq_false_iff_ne]

theorem run_whileIt_not {c : Device → Bool} {d : Device} (h : c d = false) (e : Eff) : (whileIt c e).run d = d := by
  rw [whileIt, Eff.run_obs, h, Eff.when_false, Eff.run_skip]

/-! ### Training of a port (R479) -/

section
variable {d : Device} {q rate width : Nat} {flit : Bool}

theorem run_perstRelease (h : d.off = 0) : (perstRelease q true rate width flit).run d = (Eff.all [setF F.STW_PCIE_state q 1,
    setF F.STW_PCIE_rate q rate, setF F.STW_PCIE_width q (2 ^ width), setF F.STW_PCIE_flit q (if flit then 1 else 0)]).run d := by
  rw [perstRelease, Eff.run_obs, h]
  rfl

theorem run_perstRelease_waits (h : d.off = 1 ∨ d.off = 2) :
    (perstRelease q true rate width flit).run d = (putPciHeld q true).run d := by
  rw [perstRelease, Eff.run_obs, if_pos (by simpa using h), Eff.when_true]

theorem run_perstRelease_off (h : 3 ≤ d.off) (ref : Bool) : (perstRelease q ref rate width flit).run d = d := by
  have hn : (d.off == 1 || d.off == 2) ≠ true := by
    simp only [ne_eq, Bool.or_eq_true, beq_iff_eq]
    omega
  have h0 : (d.off == 0) = false := beq_eq_false_iff_ne.2 (by omega)
  rw [perstRelease, Eff.run_obs, if_neg hn, h0, Bool.false_and, Eff.when_false, Eff.run_skip]

theorem run_perstRelease_noRef : (perstRelease q false rate width flit).run d = d := by
  rw [perstRelease, Eff.run_obs]
  split
  · rw [Eff.when_false, Eff.run_skip]
  · rw [Bool.and_false, Eff.when_false, Eff.run_skip]

end

/-! ### Configuration requests and virtual functions (R490) -/

/-- A port's first configuration request ends its training. -/
def seesRequest (q st : Nat) : Eff := .when (st == 1) (setF F.STW_PCIE_state q 2)

section
variable {d : Device} {q fn st : Nat} {write : Bool} (hst : st = d.fld F.STW_PCIE_state q)
include hst

theorem run_configRequest_none (h : d.off ≠ 0 ∨ st = 0) : (configRequest q fn write).run d = d := by
  subst hst
  rw [configRequest, Eff.run_obs]
  dsimp only
  rcases h with h | h
  · rw [beq_eq_false_iff_ne.2 h, Bool.false_and, Eff.when_false, Eff.run_skip]
  · rw [h, bne_self_eq_false, Bool.and_false, Eff.when_false, Eff.run_skip]

variable (h0 : d.off = 0) (hs : st ≠ 0)
include h0 hs

theorem run_configRequest : (configRequest q fn write).run d = (Eff.seq (seesRequest q st)
    (if d.fld F.STW_BOOT_step 0 < 9 ∧ st ≠ 3 then complete q fn 2 0
    else if fn ≠ 0 ∧ (d.fld F.STW_PCIE_vfs q < fn ∨ st = 3) then complete q fn 1 0
    else if write then complete q fn 0 0 else withFree fun v => complete q fn 0 v)).run d := by
  subst hst
  rw [configRequest, Eff.run_obs]
  dsimp only
  rw [beq_iff_eq.2 h0, bne_iff_ne.2 hs, Bool.and_self, Eff.when_true, ← seesRequest]
  simp only [Bool.and_eq_true, Bool.or_eq_true, decide_eq_true_eq, bne_iff_ne, beq_iff_eq]

theorem run_configRequest_retry (h3 : st ≠ 3) (hb : d.fld F.STW_BOOT_step 0 < 9) :
    (configRequest q fn write).run d = (Eff.seq (seesRequest q st) (complete q fn 2 0)).run d := by
  rw [run_configRequest hst h0 hs, if_pos ⟨hb, h3⟩]

variable (hb : st = 3 ∨ 9 ≤ d.fld F.STW_BOOT_step 0)
include hb

theorem run_configRequest_ready : (configRequest q fn write).run d = (Eff.seq (seesRequest q st)
    (if fn ≠ 0 ∧ (d.fld F.STW_PCIE_vfs q < fn ∨ st = 3) then complete q fn 1 0
    else if write then complete q fn 0 0 else withFree fun v => complete q fn 0 v)).run d := by
  rw [run_configRequest hst h0 hs, if_neg (by omega)]

theorem run_configRequest_unsupported (hf : fn ≠ 0) (hv : d.fld F.STW_PCIE_vfs q < fn ∨ st = 3) :
    (configRequest q fn write).run d = (Eff.seq (seesRequest q st) (complete q fn 1 0)).run d := by
  rw [run_configRequest_ready hst h0 hs hb, if_pos ⟨hf, hv⟩]

variable (hf : fn = 0 ∨ fn ≤ d.fld F.STW_PCIE_vfs q ∧ st ≠ 3)
include hf

theorem run_configRequest_write :
    (configRequest q fn true).run d = (Eff.seq (seesRequest q st) (complete q fn 0 0)).run d := by
  rw [run_configRequest_ready hst h0 hs hb, if_neg (by omega), if_pos rfl]

theorem run_configRequest_read :
    (configRequest q fn false).run d = (Eff.seq (seesRequest q st) (withFree fun v => complete q fn 0 v)).run d := by
  rw [run_configRequest_ready hst h0 hs hb, if_neg (by omega), if_neg Bool.false_ne_true]

end

section
variable {d : Device} {q : Nat}

theorem run_vfEnable (h0 : d.off = 0) (hb : 9 ≤ d.fld F.STW_BOOT_step 0) (hs : d.fld F.STW_PCIE_state q = 2) (n : Nat) :
    (vfEnable q n).run d = (setF F.STW_PCIE_vfs q n).run d := by
  rw [vfEnable, Eff.run_obs, beq_iff_eq.2 h0, decide_eq_true hb, beq_iff_eq.2 hs, Bool.and_self, Bool.and_self, Eff.when_true]

theorem run_vfEnable_not (h : d.off ≠ 0 ∨ d.fld F.STW_BOOT_step 0 < 9 ∨ d.fld F.STW_PCIE_state q ≠ 2) (n : Nat) :
    (vfEnable q n).run d = d := by
  rw [vfEnable, Eff.run_obs]
  rcases h with h | h | h
  · rw [beq_eq_false_iff_ne.2 h, Bool.false_and, Bool.false_and, Eff.when_false, Eff.run_skip]
  · rw [decide_eq_false h.not_ge, Bool.and_false, Bool.false_and, Eff.when_false, Eff.run_skip]
  · rw [beq_eq_false_iff_ne.2 h, Bool.and_false, Eff.when_false, Eff.run_skip]

/-! ### Resets of ports and functions (R491) -/

theorem run_portReset_hosted {kind st : Nat} (hst : st = if kind == 1 && d.fld F.STW_PCIE_state q != 0 then 1 else 0)
    (hh : hosted d = true) : (portReset q kind).run d = (Eff.seq (portResets q) (setF F.STW_PCIE_state q st)).run d := by
  rw [run_portReset q kind hh, ← hst, Eff.run_seq]

/-- In recovery mode a port has no function that owns anything, and its link alone is reset (R485). -/
theorem run_portReset_recovery {kind st : Nat} (hst : st = if kind == 1 && d.fld F.STW_PCIE_state q != 0 then 1 else 0)
    (h0 : d.off = 0) (hr : d.fld F.STW_BOOT_recovery 0 ≠ 0) :
    (portReset q kind).run d = (setF F.STW_PCIE_state q st).run d := by
  rw [portReset, Eff.run_obs, beq_iff_eq.2 h0, Eff.when_true, hosted_eq_false.2 (.inr hr), ← hst, Eff.run_seq, Eff.when_false,
    Eff.run_skip]

theorem run_portReset_off (h : d.off ≠ 0) (kind : Nat) : (portReset q kind).run d = d := by
  rw [portReset, Eff.run_obs, beq_eq_false_iff_ne.2 h, Eff.when_false, Eff.run_skip]

/-- What a function level reset of virtual function `v` + 1 of port `q` ends: the context `c` that it exposes, which is torn down
where it is bound, and what it owns. -/
def endsFunction (d : Device) (q v c : Nat) : Eff := .all [
  .when ((ctxPart d c).isSome && d.fld F.CTX_RUN_state c != 5) (.seq (failHost c) (tearWhole c codeOwner)),
  resetCtxRegs c, resetRegs (fun r i => (r == Reg.CTX_RUN.code || r == Reg.CTX_FAULT.code) && i == c), putCtxs c {},
  .upd (.dbBindDrop fun k => k / 256 == c),
  .obs fun d => .each (ownedParts d fun fn => fn == q * 1024 + v + 1) resetPartition]

theorem run_tearOwned_one (c : Nat) : (tearOwned [c]).run d = (Eff.when ((ctxPart d c).isSome && d.fld F.CTX_RUN_state c != 5)
    (.seq (failHost c) (tearWhole c codeOwner))).run d := by
  rw [tearOwned, Eff.run_each_cons, Eff.run_each_nil, Eff.run_obs]

theorem run_vfFlr (hh : hosted d = true) (v : Nat) : (vfFlr q v).run d = (endsFunction d q v (q * 512 + v)).run d := by
  simp only [vfFlr, endsFunction, Eff.run_obs, hh, Eff.when_true, Eff.run_all_cons, run_tearOwned_one]

theorem run_vfFlr_not (hh : hosted d = false) (v : Nat) : (vfFlr q v).run d = d := by
  simp only [vfFlr, Eff.run_obs, hh, Eff.when_false, Eff.run_skip]

end

/-! ### BAR4 (R424, R488) -/

theorem run_wakeElse_silent {d : Device} {rq : Nat} (h : answering d rq = false) (lost e : Eff) :
    (wakeElse rq lost e).run d = d := by
  rw [wakeElse, Eff.run_obs, h, Eff.when_false, Eff.run_skip]

section
variable {d : Device} {rq : Nat} (ha : answering d rq = true) {wakes : Bool}
  (hw : wakes = (!isSteward rq && wakeEnabled d 0 && d.fld F.PWR_WAKE_auto 0 == 1))
include ha hw

theorem run_wakeElse (lost e : Eff) : (wakeElse rq lost e).run d = (if powered d then
      .seq (.when (wakes && powerState d == 4) abandonRest) e
    else if powerState d == 1 && wakes then .seq (wakeWhole 0) e else lost : Eff).run d := by
  subst hw
  rw [wakeElse, Eff.run_obs, ha, Eff.when_true]

/-- An access to a device that is down and that it does not wake is lost (R424). -/
theorem run_wakeElse_lost (hp : powered d = false) (hn : powerState d ≠ 1 ∨ wakes = false) (lost e : Eff) :
    (wakeElse rq lost e).run d = lost.run d := by
  have hg : (powerState d == 1 && wakes) ≠ true := by
    rw [ne_eq, Bool.and_eq_true, beq_iff_eq, not_and_or, Bool.not_eq_true]
    exact hn
  rw [run_wakeElse ha hw, hp, if_neg Bool.false_ne_true, if_neg hg]

theorem run_wakeElse_served {d' : Device} (hp : powered d = true ∨ powerState d = 1 ∧ wakes = true)
    (hd : (if powered d then Eff.when (wakes && powerState d == 4) abandonRest else wakeWhole 0).run d = d') (lost e : Eff) :
    (wakeElse rq lost e).run d = e.run d' := by
  rw [run_wakeElse ha hw]
  subst hd
  cases hq : powered d with
  | true => rw [if_pos rfl, if_pos rfl, Eff.run_seq]
  | false =>
    obtain ⟨h1, h2⟩ := hp.resolve_left (by simp [hq])
    rw [if_neg Bool.false_ne_true, if_neg Bool.false_ne_true, h1, h2, beq_self_eq_true, Bool.and_self, if_pos rfl,
      Eff.run_seq]

end

/-- The bytes of an access of a port's BAR4: as many as are written, or as `len` says. -/
def bar4Bytes (d : Device) (q offset len : Nat) (data : Option (List Byte)) : List Nat :=
  (List.range ((data.map (·.length)).getD len)).map (d.fld F.STW_PCIE_BAR4_base q * 1073741824 + offset + ·)

/-- A completion to the physical function of a port. -/
theorem complete_physical (q status value : Nat) :
    complete q 0 status value = modSent (· ++ [.completion (q * 1024) status value]) := by
  rw [complete, Nat.add_zero]

/-- An access of BAR4 to bytes of DRAM that nothing holds: a write of some bytes, or a read (R488). -/
def bar4Serves (d : Device) (q : Nat) (as : List Nat) : Option (List Byte) → Eff
  | some bs => store as bs
  | none => if anyPoison d as then modSent (· ++ [.completion (q * 1024) 3 0])
      else modSent (· ++ [.completion (q * 1024) 0 (fromLE (d.bytesAt as))])

theorem bar4Serves_poison {d : Device} {as : List Nat} (h : anyPoison d as = true) (q : Nat) :
    bar4Serves d q as none = modSent (· ++ [.completion (q * 1024) 3 0]) := if_pos h

theorem bar4Serves_read {d : Device} {as : List Nat} (h : anyPoison d as = false) (q : Nat) :
    bar4Serves d q as none = modSent (· ++ [.completion (q * 1024) 0 (fromLE (d.bytesAt as))]) :=
  if_neg (Bool.eq_false_iff.1 h)

section
variable {d : Device} {q offset len : Nat} {data : Option (List Byte)}

theorem run_bar4Access_outside (hs : (bar4Bytes d q offset len data).all (dramServed d) = false) :
    (bar4Access q offset len data).run d = (modSent (· ++ [.completion (q * 1024) 1 0])).run d := by
  rw [bar4Access, Eff.run_obs]
  dsimp only
  rw [← bar4Bytes, hs, Bool.not_false, if_pos rfl, complete_physical]

variable (hs : (bar4Bytes d q offset len data).all (dramServed d) = true)
include hs

theorem run_bar4Access_held (hh : anyHeld d (bar4Bytes d q offset len data) = true) : (bar4Access q offset len data).run d = d := by
  rw [bar4Access, Eff.run_obs]
  dsimp only
  rw [← bar4Bytes, hs, hh, Bool.not_true, if_neg Bool.false_ne_true, if_pos rfl, Eff.run_skip]

variable (hh : anyHeld d (bar4Bytes d q offset len data) = false)
include hh

theorem run_bar4Access :
    (bar4Access q offset len data).run d = (bar4Serves d q (bar4Bytes d q offset len data) data).run d := by
  rw [bar4Access, Eff.run_obs]
  dsimp only
  rw [← bar4Bytes, hs, hh, Bool.not_true, if_neg Bool.false_ne_true, if_neg Bool.false_ne_true, complete_physical,
    complete_physical]
  cases data <;> rfl

end

/-! ### The commands -/

section
variable {s : State} {q : Nat} (hq : q < 2)
include hq

theorem does_perstRelease {rate width : Nat} (hr : rate < 6) (hw : width < 5) (ref flit : Bool) :
    Does (.perstRelease q ref rate width flit) s (perstRelease q ref rate width flit) :=
  does_perform (by simp [hq, hr, hw]) rfl

theorem does_configRequest {fn : Nat} (hf : fn < 1024) (write : Bool) :
    Does (.configRequest q fn write) s (configRequest q fn write) :=
  does_perform (by simp [hq, hf]) rfl

theorem does_vfEnable {n : Nat} (hn : n < 513) : Does (.vfEnable q n) s (vfEnable q n) :=
  does_perform (by simp [hq, hn]) rfl

theorem does_portReset {kind : Nat} (hk : kind < 3) : Does (.portReset q kind) s (portReset q kind) :=
  does_perform (by simp [hq, hk]) rfl

theorem does_pfFlr : Does (.pfFlr q) s (whileIt hosted (portResets q)) :=
  does_perform (decide_eq_true hq) rfl

theorem does_vfFlr {v : Nat} (hv : v < 512) : Does (.vfFlr q v) s (vfFlr q v) :=
  does_perform (by simp [hq, hv]) rfl

theorem does_bar4Access (offset len : Nat) (data : Option (List Byte)) : Does (.bar4Access q offset len data) s
    (wakeElse (rqOf (q * 1024)) (.when data.isNone (.seq (modSent (· ++ [.completion (q * 1024) 0 0]))
      (logError { severity := 0, source := 1 }))) (bar4Access q offset len data)) := by
  rw [← complete_physical]
  exact does_perform (decide_eq_true hq) rfl

end

theorem isSteward_rqOf (fn : Nat) : isSteward (rqOf fn) = false := rfl

/-- Settles O51: each command goes by whether the device is off and in recovery mode and by the state of the port; an access of BAR4
goes by whether it wakes the device, then by the bytes that it reaches (log entries 94, 110 and 111). -/
theorem hostPorts : Obligations.HostPorts := by
  refine ⟨fun s q rate width flit hq hr hw => ?_, fun s q fn st write seen hq hf hst hseen => ?_,
    fun s q n hq hn => ⟨fun h0 hb hs => (does_vfEnable hq hn).of_run (run_vfEnable h0 hb hs n),
      fun h => (does_vfEnable hq hn).of_run (run_vfEnable_not h n)⟩,
    fun s q ends hq hends => ⟨fun kind st hk hst => ?_, ?_, ?_, fun v c hv hc => ?_⟩,
    fun s q offset len data wakes hq hw => ?_⟩
  · have hx := does_perstRelease (s := s) hq hr hw
    exact ⟨fun h => (hx true flit).of_run (run_perstRelease h), fun h => (hx true flit).of_run (run_perstRelease_waits h),
      fun h => (hx true flit).of_run (run_perstRelease_off h true), (hx false flit).of_run run_perstRelease_noRef⟩
  · subst hseen
    have hx := does_configRequest (s := s) hq hf write
    refine ⟨fun h => hx.of_run (run_configRequest_none hst h),
      fun h0 hs h3 hb => hx.of_run (run_configRequest_retry hst h0 hs h3 hb),
      fun h0 hs hb => ⟨fun hf hv => hx.of_run (run_configRequest_unsupported hst h0 hs hb hf hv), fun hf hwr => ?_,
        fun hf hwr => ?_⟩⟩
    · subst hwr
      exact hx.of_run (run_configRequest_write hst h0 hs hb hf)
    · subst hwr
      exact hx.of_run (run_configRequest_read hst h0 hs hb hf)
  · subst hends
    have hx := does_portReset (s := s) hq hk
    exact ⟨fun h0 hr => hx.of_run (run_portReset_hosted hst (hosted_eq_true.2 ⟨h0, hr⟩)),
      fun h0 hr => hx.of_run (run_portReset_recovery hst h0 hr), fun h => hx.of_run (run_portReset_off h kind)⟩
  · subst hends
    exact fun h0 hr => (does_pfFlr hq).of_run (run_whileIt (hosted_eq_true.2 ⟨h0, hr⟩) _)
  · exact fun h => (does_pfFlr hq).of_run (run_whileIt_not (hosted_eq_false.2 h) _)
  · subst hc
    exact ⟨fun h0 hr => (does_vfFlr hq hv).of_run (run_vfFlr (hosted_eq_true.2 ⟨h0, hr⟩) v),
      fun h => (does_vfFlr hq hv).of_run (run_vfFlr_not (hosted_eq_false.2 h) v)⟩
  · have hx := does_bar4Access (s := s) hq offset len data
    have hw' : wakes = (!isSteward (rqOf (q * 1024)) && wakeEnabled s.dev 0 && s.dev.fld F.PWR_WAKE_auto 0 == 1) := by
      rw [isSteward_rqOf, Bool.not_false, Bool.true_and]
      exact hw
    refine ⟨fun ha => hx.of_run (run_wakeElse_silent ha _ _), fun ha hp hn => ?_, fun d as ha hp hd has => ?_⟩
    · have hl := hx.of_run (run_wakeElse_lost ha hw' hp hn _ _)
      exact ⟨fun hdata => by rwa [Option.isNone_iff_eq_none.2 hdata, Eff.when_true] at hl,
        fun hdata => by rwa [Option.isNone_eq_false_iff.2 (Option.isSome_iff_ne_none.2 hdata), Eff.when_false] at hl⟩
    · rw [show as = bar4Bytes d q offset len data from has]
      have hg := hx.of_run (run_wakeElse_served ha hw' hp hd _ _)
      refine ⟨fun hs => hg.of_run (run_bar4Access_outside hs), fun hs hh => hg.of_run (run_bar4Access_held hs hh),
        fun bs hs hh hdata => ?_, fun hs hh hdata hp => ?_, fun hs hh hdata hp => ?_⟩
      · subst hdata
        exact hg.of_run (run_bar4Access hs hh)
      · subst hdata
        exact hg.of_run (by rw [run_bar4Access hs hh, bar4Serves_poison hp])
      · subst hdata
        exact hg.of_run (by rw [run_bar4Access hs hh, bar4Serves_read hp])

end Sys2Proof.Machine
end

section
/-! PROOFS. Keeping the data of the flash tier (R263 to R266). -/

namespace Sys2Proof.Machine

/- As in the tests, one theorem after another: each one elaborated beside others holds a thread's stack. -/
set_option Elab.async false

/-! ### RELOCATION (R264, R266) -/

section
variable {d d' : Device} {block : Nat} (hd : (Eff.each (List.range 4) rebuildWaiting).run d = d')
include hd

theorem run_relocation_idle (hq : d'.relocQueue = []) : (relocation block).run d = d' := by
  rw [relocation, Eff.run_seq, hd, Eff.run_obs, hq, Eff.run_skip]

variable {y : Nat} {rest : List Nat} (hq : d'.relocQueue = y :: rest)
include hq

theorem run_relocation_empty (hu : unitAt d' y = none) : (relocation block).run d = (putRelocQueue rest).run d' := by
  rw [relocation, Eff.run_seq, hd, Eff.run_obs, hq]
  dsimp only
  rw [hu]

variable {x : Nat} (hu : unitAt d' y = some x)
include hu

/-- A block that holds unit `x` moves, where the block named is one that it may go to. -/
theorem run_relocation_some : (relocation block).run d =
    (Eff.when ((relocTargets d' y).contains (y / 524288 * 524288 + block)) (.all [putRelocQueue rest, disturbBlock y blockReads,
      putBlockMap x block, eraseBlock y, rebuildWaiting (y / 524288),
      addSat F.FLS_STACK_WEAR_relocations (y / 524288) 1])).run d' := by
  rw [relocation, Eff.run_seq, hd, Eff.run_obs, hq]
  dsimp only
  rw [hu]

theorem run_relocation_moves (ht : (relocTargets d' y).contains (y / 524288 * 524288 + block) = true) :
    (relocation block).run d = (Eff.all [putRelocQueue rest, disturbBlock y blockReads, putBlockMap x block, eraseBlock y,
      rebuildWaiting (y / 524288), addSat F.FLS_STACK_WEAR_relocations (y / 524288) 1]).run d' := by
  rw [run_relocation_some hd hq hu, ht, Eff.when_true]

theorem run_relocation_noTarget (ht : (relocTargets d' y).contains (y / 524288 * 524288 + block) = false) :
    (relocation block).run d = d' := by
  rw [run_relocation_some hd hq hu, ht, Eff.when_false, Eff.run_skip]

end

/-! ### The commands -/

section
variable {s : State}

theorem does_relocation {block : Nat} (hb : block < 524288) (hp : up s.dev = true) :
    Does (.relocation block) s (relocation block) :=
  does_whileIt (decide_eq_true hb) hp rfl

theorem does_flashScrub {j temp lost : Nat} (hj : j < 4) (ht : temp < 256) (hl : lost < 3) (hp : up s.dev = true) (near : Bool) :
    Does (.flashScrub j temp near lost) s (flashScrub j temp near lost) :=
  does_whileIt (by simp [hj, ht, hl]) hp rfl

theorem does_flashStackLoss {j : Nat} (hj : j < 4) (hp : powered s.dev = true) : Does (.flashStackLoss j) s (flashStackLoss j) :=
  does_whileIt (decide_eq_true hj) hp rfl

end

/-- Settles O26: a RELOCATION goes by the queue that the waiting rebuilds leave, by what its first block holds and by the block
named; FLASH_SCRUB and FLASH_STACK_LOSS have one course each, over the block as they find it (log entries 61 to 63 and 135). -/
theorem flashKeeping : Obligations.FlashKeeping := by
  refine ⟨fun s d block hb hp hd => ?_, fun s j temp b y lost near hj ht hl hp hb hy => ?_, fun s j hj hp => ?_⟩
  · have hx := does_relocation hb hp
    exact ⟨fun hq => hx.of_run (run_relocation_idle hd hq), fun y rest hq hu => hx.of_run (run_relocation_empty hd hq hu),
      fun y rest x hq hu ht => hx.of_run (run_relocation_moves hd hq hu ht),
      fun y rest x hq hu ht => hx.of_run (run_relocation_noTarget hd hq hu ht)⟩
  · subst hy hb
    exact (does_flashScrub hj ht hl hp near).of_run (Eff.run_obs _ _)
  · exact (does_flashStackLoss hj hp).of_run (Eff.run_obs _ _)

end Sys2Proof.Machine
end

section
/-! PROOFS. The weight ring of a partition (R268 to R274). -/

namespace Sys2Proof.Machine

/- As in the tests, one theorem after another: each one elaborated beside others holds a thread's stack. -/
set_option Elab.async false

/-! ### The copy of a layer (R270) -/

/-- The addresses that a layer at offset `off` of an object is read from, in promotion frames where promoted. -/
def layerSource (d : Device) (p : Nat) (e : CatEntry) (off len : Nat) : List Nat :=
  (List.range len).filterMap fun i => tierAddr d p (e.tierOffset + off + i)

/-- The bytes of a layer are put in its slot, with what of them is poison. -/
def fillsSlot (d : Device) (src dst : List Nat) : List Eff := [store dst (d.bytesAt src),
  .each ((dst.zip src).filter fun x => d.badByte x.2) (fun x => setPoison (poisonUnit x.1) true), disturbReads src]

/-- Copy `w.q` of a ring completes after `cycles` cycles: the bytes stand in the slot, the times and the status show it, and the
fill cues move. -/
def completesCopy (d : Device) (p cycles : Nat) (w : Streamer) (f : Figure) (src dst : List Nat) : Eff :=
  .all (fillsSlot d src dst ++ [.when w.first (setF F.FLS_RING_TIME_first p (min 65535 cycles)),
    setF F.FLS_RING_TIME_longest p (max (d.fld F.FLS_RING_TIME_longest p) (min 65535 cycles)),
    fillCues p f, setF F.FLS_RING_STAT_seq p w.q, streamNext p f (w.q + 1)])

theorem run_storeHeld {d : Device} {as : List Nat} (h : anyHeld d as = false) (bs : List Byte) :
    (storeHeld as bs).run d = (store as bs).run d := by
  rw [storeHeld, Eff.run_obs, h, if_neg Bool.false_ne_true]

section
variable {d : Device} {p : Nat} {f : Figure} {e : CatEntry} {q off len : Nat}
  (hl : layerOf d e (ringNum f 0xE 2 + q % ringLayers f) = (off, len))
include hl

theorem layerAddrs_whole : layerAddrs d p f e q (layerBytes d f e q) =
    (layerSource d p e off len, slotAddrs d p f (ringSlot f q) len) := by
  rw [layerBytes, layerAddrs, hl]
  dsimp only
  rw [Nat.min_self, layerSource]

theorem run_copyLayer_whole (hd : anyHeld d (slotAddrs d p f (ringSlot f q) len) = false) :
    (copyLayer p f e q (layerBytes d f e q)).run d =
      (Eff.all (fillsSlot d (layerSource d p e off len) (slotAddrs d p f (ringSlot f q) len))).run d := by
  rw [copyLayer, Eff.run_obs, layerAddrs_whole hl, fillsSlot]
  simp only [Eff.run_all_cons, run_storeHeld hd]

end

/-! ### LAYER_COPY_DONE (R270, R274) -/

/-- No ring of partition `p` stands in state `st`: it has no streamer, no active figure, or another state. -/
def NotStreaming (d : Device) (p st : Nat) : Prop :=
  d.streamersAt p = none ∨ d.active p = none ∨ d.fld F.FLS_RING_STAT_state p ≠ st

section
variable {d : Device} {p : Nat}

theorem run_layerCopyDone_idle (h : NotStreaming d p 1) (cycles : Nat) : (layerCopyDone p cycles).run d = d := by
  rw [layerCopyDone, Eff.run_obs]
  split
  · next w f hw hf =>
    rcases h with h | h | h
    · exact absurd (hw.symm.trans h) nofun
    · exact absurd (hf.symm.trans h) nofun
    · rw [beq_false_of_ne h, Eff.when_false, Eff.run_skip]
  · rfl

variable {w : Streamer} {f : Figure} (hw : d.streamersAt p = some w) (hf : d.active p = some f)
include hw hf

section
variable (hs : d.fld F.FLS_RING_STAT_state p = 1)
include hs

theorem run_layerCopyDone_gone (he : ringEntry d p f = none) (cycles : Nat) :
    (layerCopyDone p cycles).run d = (streamerStop p).run d := by
  rw [layerCopyDone, Eff.run_obs, hw, hf]
  dsimp only
  rw [hs, beq_self_eq_true, Eff.when_true, he]

variable {e : CatEntry} {off len : Nat} (he : ringEntry d p f = some e)
  (hl : layerOf d e (ringNum f 0xE 2 + w.q % ringLayers f) = (off, len))
include he hl

theorem run_layerCopyDone_some (cycles : Nat) : (layerCopyDone p cycles).run d =
    (Eff.when (!anyHeld d (layerSource d p e off len) && !anyHeld d (slotAddrs d p f (ringSlot f w.q) len)) (.all [
      copyLayer p f e w.q (layerBytes d f e w.q),
      .when w.first (setF F.FLS_RING_TIME_first p (min 65535 cycles)),
      setF F.FLS_RING_TIME_longest p (max (d.fld F.FLS_RING_TIME_longest p) (min 65535 cycles)), fillDone p f w.q])).run d := by
  rw [layerCopyDone, Eff.run_obs, hw, hf]
  dsimp only
  rw [hs, beq_self_eq_true, Eff.when_true, he]
  dsimp only
  rw [layerAddrs_whole hl]

theorem run_layerCopyDone (hsrc : anyHeld d (layerSource d p e off len) = false)
    (hdst : anyHeld d (slotAddrs d p f (ringSlot f w.q) len) = false) (cycles : Nat) : (layerCopyDone p cycles).run d =
      (completesCopy d p cycles w f (layerSource d p e off len) (slotAddrs d p f (ringSlot f w.q) len)).run d := by
  rw [run_layerCopyDone_some hw hf hs he hl, hsrc, hdst, Bool.not_false, Bool.and_self, Eff.when_true, completesCopy]
  simp only [Eff.run_all_cons, Eff.run_all_nil, run_copyLayer_whole hl hdst, fillsSlot, fillDone, List.cons_append, List.nil_append]

theorem run_layerCopyDone_waits (h : anyHeld d (layerSource d p e off len) = true ∨
    anyHeld d (slotAddrs d p f (ringSlot f w.q) len) = true) (cycles : Nat) : (layerCopyDone p cycles).run d = d := by
  rw [run_layerCopyDone_some hw hf hs he hl]
  rcases h with h | h
  · rw [h, Bool.not_true, Bool.false_and, Eff.when_false, Eff.run_skip]
  · rw [h, Bool.not_true, Bool.and_false, Eff.when_false, Eff.run_skip]

end
end

/-! ### RING_RELEASE_SEEN (R270, R274) -/

/-- The release cues of a ring's consumers. -/
def releaseCues (d : Device) (p : Nat) (f : Figure) : List Nat :=
  (ringConsumers d p f).map fun core => coreCue core (ringNum f 8 1)

/-- Every consumer of a ring has its beat state in its core: none is saved (R99, R274). -/
def consumersResident (d : Device) (p : Nat) (f : Figure) : Bool := (leaves f (ringNum f 4 2)).all fun l =>
  (leafCore d p f l).all fun core => (d.coresAt core).ctx == leafContext d p f l

theorem consumersResident_eq_true {d : Device} {p : Nat} {f : Figure} : consumersResident d p f = true ↔
    ∀ l ∈ leaves f (ringNum f 4 2), ∀ core, leafCore d p f l = some core → (d.coresAt core).ctx = leafContext d p f l := by
  simp only [consumersResident, List.all_eq_true, Option.all_eq_true, beq_iff_eq]

/-- One is taken from every release cue, and the next copy starts, or the fill cues move where every layer is resident. -/
def takesReleases (p : Nat) (w : Streamer) (f : Figure) (keys : List Nat) : Eff :=
  .seq (.each keys fun k => modCues k fun q => { q with value := q.value - 1 })
    (if ringLayers f ≤ ringSlots f then fillDone p f w.q else setF F.FLS_RING_STAT_state p 1)

section
variable {d : Device} {p : Nat}

theorem run_ringReleaseSeen_idle (h : NotStreaming d p 2) : (ringReleaseSeen p).run d = d := by
  rw [ringReleaseSeen, Eff.run_obs]
  split
  · next w f hw hf =>
    rcases h with h | h | h
    · exact absurd (hw.symm.trans h) nofun
    · exact absurd (hf.symm.trans h) nofun
    · dsimp only
      rw [beq_false_of_ne h, Bool.false_and, Eff.when_false, Eff.run_skip]
  · rfl

variable {w : Streamer} {f : Figure} (hw : d.streamersAt p = some w) (hf : d.active p = some f)
  (hs : d.fld F.FLS_RING_STAT_state p = 2)
include hw hf hs

theorem run_ringReleaseSeen_some : (ringReleaseSeen p).run d = (Eff.when (consumersResident d p f)
    (if (releaseCues d p f).any fun k => (d.cuesAt k).overflow then streamerStop p
      else .when ((releaseCues d p f).all fun k => 1 ≤ (d.cuesAt k).value) (takesReleases p w f (releaseCues d p f)))).run d := by
  rw [ringReleaseSeen, Eff.run_obs, hw, hf]
  dsimp only
  rw [hs, beq_self_eq_true, Bool.true_and]
  rfl

theorem run_ringReleaseSeen_saved (hr : consumersResident d p f = false) : (ringReleaseSeen p).run d = d := by
  rw [run_ringReleaseSeen_some hw hf hs, hr, Eff.when_false, Eff.run_skip]

variable (hr : consumersResident d p f = true)
include hr

theorem run_ringReleaseSeen_overflow (ho : ((releaseCues d p f).any fun k => (d.cuesAt k).overflow) = true) :
    (ringReleaseSeen p).run d = (streamerStop p).run d := by
  rw [run_ringReleaseSeen_some hw hf hs, hr, Eff.when_true, if_pos ho]

variable (ho : ((releaseCues d p f).any fun k => (d.cuesAt k).overflow) = false)
include ho

theorem run_ringReleaseSeen (hv : ((releaseCues d p f).all fun k => 1 ≤ (d.cuesAt k).value) = true) :
    (ringReleaseSeen p).run d = (takesReleases p w f (releaseCues d p f)).run d := by
  rw [run_ringReleaseSeen_some hw hf hs, hr, Eff.when_true, ho, if_neg Bool.false_ne_true, hv, Eff.when_true]

theorem run_ringReleaseSeen_waits (hv : ((releaseCues d p f).all fun k => 1 ≤ (d.cuesAt k).value) = false) :
    (ringReleaseSeen p).run d = d := by
  rw [run_ringReleaseSeen_some hw hf hs, hr, Eff.when_true, ho, if_neg Bool.false_ne_true, hv, Eff.when_false, Eff.run_skip]

end

/-! ### The commands -/

section
variable {s : State} {p : Nat} (hp : p < 32) (hw : working s.dev = true)
include hp hw

theorem does_layerCopyDone (cycles : Nat) : Does (.layerCopyDone p cycles) s (layerCopyDone p cycles) :=
  does_whileIt (decide_eq_true hp) hw rfl

theorem does_ringReleaseSeen : Does (.ringReleaseSeen p) s (ringReleaseSeen p) :=
  does_whileIt (decide_eq_true hp) hw rfl

end

/-- Settles O27: the end of a copy goes by the ring's entry and by what holds the slot and the source; a release goes by whether a
consumer's beat state is saved, then by the release cues. That a ring whose entry is gone stops, and what of a copy a shell has then
accepted (log entry 62), are the model's choice. -/
theorem weightRing : Obligations.WeightRing := by
  refine ⟨fun s p cycles w f hp hg hw hf hs => ?_, fun s p w f keys hp hg hw hf hs hk => ?_, fun s p cycles hp hg =>
    ⟨fun h => (does_layerCopyDone hp hg cycles).of_run (run_layerCopyDone_idle h cycles),
      fun h => (does_ringReleaseSeen hp hg).of_run (run_ringReleaseSeen_idle h)⟩⟩
  · have hx := does_layerCopyDone hp hg cycles
    refine ⟨fun he => hx.of_run (run_layerCopyDone_gone hw hf hs he cycles), fun e off len src dst he hl hsrc hdst => ?_⟩
    rw [show src = layerSource s.dev p e off len from hsrc, hdst]
    exact ⟨fun h h' => hx.of_run (run_layerCopyDone hw hf hs he hl h h' cycles),
      fun h => hx.of_run (run_layerCopyDone_waits hw hf hs he hl h cycles)⟩
  · have hx := does_ringReleaseSeen hp hg
    rw [show keys = releaseCues s.dev p f from hk]
    refine ⟨fun hr => ?_, fun l core hl hc hne => hx.of_run (run_ringReleaseSeen_saved hw hf hs ?_)⟩
    · have hr := consumersResident_eq_true.2 hr
      exact ⟨fun ho hv => hx.of_run (run_ringReleaseSeen hw hf hs hr ho hv),
        fun ho => hx.of_run (run_ringReleaseSeen_overflow hw hf hs hr ho),
        fun ho hv => hx.of_run (run_ringReleaseSeen_waits hw hf hs hr ho hv)⟩
    · exact Bool.eq_false_iff.2 fun hr => hne (consumersResident_eq_true.1 hr l hl core hc)

end Sys2Proof.Machine
end

section
/-! PROOFS. Writes of registers that act: at a site, and in the always-on domain (R10, R424, R485, R505). -/

namespace Sys2Proof.Machine

/- As in the tests, one theorem after another: each one elaborated beside others holds a thread's stack. -/
set_option Elab.async false

section
variable {c : Instr} {s : State} {ok : Bool} (hok : ok = true) {e : Eff} {d : Device} {rq : Nat}
include hok

theorem gives_aonDo (h : AsksAon s rq d) (hc : exec c s = perform ok (aonDo rq e) s) : Gives c s d e := by
  rw [Gives, hc, perform_ok hok, run_aonDo h]

theorem gives_writesAon {r : Reg} {i v b : Nat} (h : WritesAon s rq r i v b d)
    (hc : exec c s = perform ok (aonDo rq (writeAct rq r i v b e)) s) : Gives c s d e := by
  rw [Gives, hc, perform_ok hok, run_writesAon h]

theorem gives_writesAt {r q : Reg} {i j v b : Nat} (h : Writes s rq r i v b d)
    (hb : (isSteward rq || !siteGone ((beforeAccess rq).run s.dev) q j) = true)
    (hc : exec c s = perform ok (atSite rq q j (writeAct rq r i v b e)) s) : Gives c s d e := by
  rw [Gives, hc, perform_ok hok, run_writesAt h hb]

end

/-- An action that a write starts where its bit is 1. -/
theorem run_whenBit {v b : Nat} (h : bit v b = 1) (e : Eff) (d : Device) : (Eff.when (bit v b == 1) e).run d = e.run d := by
  rw [beq_iff_eq.2 h, Eff.when_true]

theorem run_whenBit_not {v b : Nat} (h : bit v b ≠ 1) (e : Eff) (d : Device) : (Eff.when (bit v b == 1) e).run d = d := by
  rw [beq_false_of_ne h, Eff.when_false, Eff.run_skip]

end Sys2Proof.Machine
end

section
/-! PROOFS. The descriptors of rings of every kind: read at head, completed and cancelled (R275 to R284, R526). -/

namespace Sys2Proof.Machine

/- As in the tests, one theorem after another: each one elaborated beside others holds a thread's stack. -/
set_option Elab.async false

/-! ### The kinds of rings (R275) -/

theorem ringKind_dma_or_link {n : Nat} (h : n < 9728) : ringKind n = .dma ∨ ringKind n = .link := by
  rw [ringKind, if_pos h]
  exact (ite_eq_or_eq _ _ _)

theorem ringKind_eq_col {n : Nat} (h : 9728 ≤ n) (h' : n < 9984) : ringKind n = .col := by
  rw [ringKind, if_neg (by omega), if_neg (by omega), if_pos h']

theorem ringKind_eq_vce {n : Nat} (h : 9984 ≤ n) (h' : n < 10256) : ringKind n = .vce := by
  rw [ringKind, if_neg (by omega), if_neg (by omega), if_neg (by omega), if_pos h']

theorem ringKind_eq_ing {n : Nat} (h : 10256 ≤ n) : ringKind n = .ing := by
  rw [ringKind, if_neg (by omega), if_neg (by omega), if_neg (by omega), if_neg (by omega)]

/-! ### What leaves the descriptors taken as they are -/

/-- A change takes no descriptor of any ring, and gives none up. -/
def Upd.KeepsRings : Upd → Prop
  | .rings _ _ | .ringsDrop _ => False
  | _ => True

theorem Upd.KeepsRings.rings {u : Upd} (h : u.KeepsRings) (d : Device) : (u.apply d).rings = d.rings := by
  cases u with
  | rings | ringsDrop => cases h
  | _ => rfl

theorem Upd.OfStore.keepsRings {u : Upd} (h : u.OfStore) : u.KeepsRings := by
  cases u with
  | rings | ringsDrop => cases h
  | _ => trivial

theorem ringsAt_run {e : Eff} (he : e.Makes Upd.KeepsRings) (d : Device) (n : Nat) : (e.run d).ringsAt n = d.ringsAt n :=
  congrArg (fun m => mapGet dfltRings m n) (Eff.run_frame (f := (·.rings)) (fun _ d hu => hu.rings d) e he d)

@[simp] theorem setF_keepsRings (f : Fld) (i v : Nat) : (setF f i v).Makes Upd.KeepsRings := by
  simp [setF, setReg, putRegs, Upd.KeepsRings]

@[simp] theorem wrBytes_keepsRings (a : Nat) (bs : List Byte) : (wrBytes a bs).Makes Upd.KeepsRings := by
  induction bs generalizing a with
  | nil => trivial
  | cons b bs ih => exact ⟨Eff.Makes.mono (fun _ => Upd.OfStore.keepsRings) _ (putByte_makes a b), ih (a + 1)⟩

@[simp] theorem dropCopies_keepsRings (as : List Nat) : (dropCopies as).Makes Upd.KeepsRings :=
  Eff.Makes.mono (fun _ hu => hu.ofStore.keepsRings) _ (dropCopies_makes as)

@[simp] theorem logError_keepsRings (e : LogEntry) : (logError e).Makes Upd.KeepsRings := by
  simp [logError, putFlog, putFlogHead, saveLog, putOldLog, putNvLog, putFlogSaved, raiseMsix, modMsix, queueEvent,
    modPldmEvents, Upd.KeepsRings]

theorem descriptorFault_keepsRings (n : Nat) : (descriptorFault n).Makes Upd.KeepsRings := by
  simp [descriptorFault, descriptorLost, logRing]

/-! ### The descriptor at head (R277, R526) -/

/-- A descriptor is taken: it stands last of the ring's, head is the next, and the ring is active. -/
def takesDesc (n head : Nat) (x : Desc) : Eff := .all [modRings n (· ++ [x]), setF F.DMA_RING_STAT_head n (head + 1),
  setF F.DMA_RING_STAT_state n 2]

theorem ringsAt_takesDesc {d : Device} (h : d.Ok) (n head : Nat) (x : Desc) :
    ((takesDesc n head x).run d).ringsAt n = d.ringsAt n ++ [x] := by
  rw [takesDesc, Eff.run_all_cons, ringsAt_run (by simp)]
  exact mapGet_mapSet_self h.rings n _

section
variable {d : Device} {n : Nat} {check : Device → Desc → Option Nat} {fixed lost : List Nat}

theorem run_fetchDesc_not (h : ringServed d n = false ∨ (ringState d n ≠ 1 ∧ ringState d n ≠ 2) ∨
    takenLimit ≤ (d.ringsAt n).length) : (fetchDesc n check fixed lost).run d = d := by
  have hl : (ringServed d n && (ringState d n == 1 || ringState d n == 2) && decide ((d.ringsAt n).length < takenLimit)) =
      false := by
    rcases h with h | ⟨h1, h2⟩ | h
    · rw [h, Bool.false_and, Bool.false_and]
    · rw [beq_false_of_ne h1, beq_false_of_ne h2, Bool.or_false, Bool.and_false, Bool.false_and]
    · rw [decide_eq_false h.not_gt, Bool.and_false]
  rw [fetchDesc, Eff.run_obs]
  dsimp only
  rw [hl, Eff.when_false, Eff.run_skip]

variable (ht : TakesMore d n)
include ht

theorem TakesMore.live :
    (ringServed d n && (ringState d n == 1 || ringState d n == 2) && decide ((d.ringsAt n).length < takenLimit)) = true := by
  rw [ht.served, decide_eq_true ht.room, Bool.true_and, Bool.and_true, Bool.or_eq_true, beq_iff_eq, beq_iff_eq]
  exact ht.state

theorem run_fetchDesc_lost (ha : descAddrs d n (d.fld F.DMA_RING_STAT_head n) .read = none) :
    (fetchDesc n check fixed lost).run d = (descriptorFault n).run d := by
  rw [fetchDesc, Eff.run_obs]
  dsimp only
  rw [ht.live, Eff.when_true, ha]

variable {as : List Nat} (ha : descAddrs d n (d.fld F.DMA_RING_STAT_head n) .read = some as)
include ha

theorem run_fetchDesc_held (hh : agentHeld d (ringPart d n) as = true) : (fetchDesc n check fixed lost).run d = d := by
  rw [fetchDesc, Eff.run_obs]
  dsimp only
  rw [ht.live, Eff.when_true, ha]
  dsimp only
  rw [hh, Bool.not_true, Eff.when_false, Eff.run_skip]

variable {d' : Device} (hh : agentHeld d (ringPart d n) as = false) (hd : (agentReads n as fixed lost).run d = d')
include hh hd

theorem run_fetchDesc_read {x : Desc} (hx : x = { index := d.fld F.DMA_RING_STAT_head n, raw := d'.bytesAt as }) :
    (fetchDesc n check fixed lost).run d = (if anyPoison d' as then descriptorFault n
      else .when (bit x.ctrl 31 == 1) (takesDesc n (d.fld F.DMA_RING_STAT_head n) { x with status := check d' x }) : Eff).run d' := by
  subst hx
  rw [fetchDesc, Eff.run_obs]
  dsimp only
  rw [ht.live, Eff.when_true, ha]
  dsimp only
  rw [hh, Bool.not_false, Eff.when_true, Eff.run_seq, hd, Eff.run_obs]
  rfl

theorem run_fetchDesc_poison (hp : anyPoison d' as = true) :
    (fetchDesc n check fixed lost).run d = (descriptorFault n).run d' := by
  rw [run_fetchDesc_read ht ha hh hd rfl, if_pos hp]

variable (hp : anyPoison d' as = false) {x : Desc} (hx : x = { index := d.fld F.DMA_RING_STAT_head n, raw := d'.bytesAt as })
include hp hx

theorem run_fetchDesc_unowned (ho : bit x.ctrl 31 = 0) : (fetchDesc n check fixed lost).run d = d' := by
  rw [run_fetchDesc_read ht ha hh hd hx, hp, if_neg Bool.false_ne_true, run_whenBit_not (by omega)]

theorem run_fetchDesc_taken (ho : bit x.ctrl 31 = 1) : (fetchDesc n check fixed lost).run d =
    (takesDesc n (d.fld F.DMA_RING_STAT_head n) { x with status := check d' x }).run d' := by
  rw [run_fetchDesc_read ht ha hh hd hx, hp, if_neg Bool.false_ne_true, run_whenBit ho]

end

/-! ### What an engine makes of what it has read (R277, R334, R421) -/

section
variable {d d1 : Device} {n : Nat} {fixed lost : List Nat}

theorem run_ringFetch_stopped (hs : serving d = false) : (ringFetch n fixed lost).run d = d := by
  rw [ringFetch, Eff.run_obs]
  dsimp only
  rw [hs, Eff.when_false, Eff.run_skip]

variable (hs : serving d = true) (hd : (fetchDesc n (kindCheck n) fixed lost).run d = d1)
include hs hd

theorem run_ringFetch : (ringFetch n fixed lost).run d = (Eff.seq
    (.when (ringKind n == .col && decide ((d.ringsAt n).length < (d1.ringsAt n).length)) (colTaken n)) refreshIdle).run d1 := by
  rw [ringFetch, Eff.run_obs]
  dsimp only
  rw [hs, Eff.when_true, Eff.run_seq, hd, Eff.run_obs]

/-- But for a collective ring that has taken a descriptor, IDLE or RUN alone is reported. -/
theorem run_ringFetch_reports (h : ringKind n = .col → (d1.ringsAt n).length = (d.ringsAt n).length) :
    (ringFetch n fixed lost).run d = refreshIdle.run d1 := by
  have hg : (ringKind n == .col && decide ((d.ringsAt n).length < (d1.ringsAt n).length)) = false := by
    by_cases hk : ringKind n = .col
    · rw [h hk, decide_eq_false (Nat.lt_irrefl _), Bool.and_false]
    · rw [beq_false_of_ne hk, Bool.false_and]
  rw [run_ringFetch hs hd, hg, Eff.when_false, Eff.run_seq, Eff.run_skip]

theorem run_ringFetch_col (hk : ringKind n = .col) (h : (d.ringsAt n).length < (d1.ringsAt n).length) :
    (ringFetch n fixed lost).run d = (Eff.seq (colTaken n) refreshIdle).run d1 := by
  rw [run_ringFetch hs hd, decide_eq_true h, hk, Bool.and_true, beq_self_eq_true, Eff.when_true]

end

/-- A ring that halts because its descriptor cannot be read, on the block `d'` that the read leaves. -/
theorem run_ringFetch_fault {d d' : Device} {n : Nat} {fixed lost : List Nat} (hs : serving d = true)
    (hl : (d'.ringsAt n).length = (d.ringsAt n).length)
    (hd : (fetchDesc n (kindCheck n) fixed lost).run d = (descriptorFault n).run d') :
    (ringFetch n fixed lost).run d = (Eff.all [setF F.DMA_RING_STAT_state n 3, setF F.DMA_RING_STAT_last_status n 15,
      logRing n 15, refreshIdle]).run d' := by
  have hk : ((descriptorFault n).run d').ringsAt n = d'.ringsAt n := ringsAt_run (descriptorFault_keepsRings n) d' n
  rw [run_ringFetch_reports hs hd fun _ => by rw [hk, hl]]
  simp only [descriptorFault, descriptorLost, Eff.run_seq, Eff.run_all_cons, Eff.run_all_nil]

/-! ### The completion of the oldest descriptor (R281 to R283, R526) -/

section
variable {d : Device} {n st : Nat} {x : Desc} {tail : List Byte} {signal : Eff}

theorem run_completeDesc (hw : canWriteBack d n x = true) (hs : ringState d n ≠ 4) :
    (completeDesc n x st tail signal).run d = (Eff.all [modRings n (·.drop 1), writeBack n x tail,
      .when (!faultHalted d n) (setF F.DMA_RING_STAT_last_status n st), .when (bit x.cue 31 == 1) signal,
      .when (halts n st) (.seq (setF F.DMA_RING_STAT_state n 3) (logRing n st)), settleRing n]).run d := by
  rw [completeDesc, Eff.run_obs, hw, if_pos rfl, bne_iff_ne.2 hs, Bool.and_true]
  simp only [Eff.run_all_cons, Eff.run_all_nil]

theorem run_completeDesc_lost (hw : canWriteBack d n x = false) :
    (completeDesc n x st tail signal).run d = (Eff.all [modRings n (·.drop 1), setF F.DMA_RING_STAT_state n 3,
      setF F.DMA_RING_STAT_last_status n 15, logRing n 15, settleRing n]).run d := by
  rw [completeDesc, Eff.run_obs, hw, if_neg Bool.false_ne_true]
  simp only [descriptorFault, descriptorLost, Eff.run_all_cons, Eff.run_all_nil, Eff.run_seq]

end

/-! ### The end of a cancellation (R284) -/

/-- A descriptor taken, where a cancellation ends: it completes where its data was complete, and is written back as cancelled else. -/
def endsTaken (n code : Nat) (tails : Desc → Nat → List Byte) (signals : Desc → Eff) (x : Desc) : Eff :=
  match x.status with
  | some st => completeDesc n x st (tails x st) (signals x)
  | none => .seq (modRings n (·.drop 1)) (cancelDesc n x code (tails x code))

section
variable {d : Device} {n code : Nat} {tails : Desc → Nat → List Byte} {signals : Desc → Eff}

theorem run_finishCancel (hs : ringState d n = 4) (ha : (d.ringsAt n).all (·.unacked.isEmpty) = true) :
    (finishCancel n code tails signals).run d = (Eff.all [.each (d.ringsAt n) (endsTaken n code tails signals),
      .obs (fun d => cancelLater n code (fun x => tails x code) (ringSize d n) (d.fld F.DMA_RING_STAT_head n)),
      setF F.DMA_RING_BASE_enable n 0, setF F.DMA_RING_STAT_state n 0, putKeptMaps n none]).run d := by
  rw [finishCancel, Eff.run_obs, hs, ha, beq_self_eq_true, Bool.and_self, Eff.when_true]
  rfl

theorem run_finishCancel_waits (ha : (d.ringsAt n).all (·.unacked.isEmpty) = false) :
    (finishCancel n code tails signals).run d = d := by
  rw [finishCancel, Eff.run_obs, ha, Bool.and_false, Eff.when_false, Eff.run_skip]

end

end Sys2Proof.Machine
end

section
/-! PROOFS. Service of rings: descriptors taken, bursts, and completions of DMA rings (R277 to R286, R526). -/

namespace Sys2Proof.Machine

/- As in the tests, one theorem after another: each one elaborated beside others holds a thread's stack. -/
set_option Elab.async false

/-! ### Taking the descriptor at head (R277) -/

theorem gives_ringFetch {s : State} {c : Instr} {n : Nat} {fixed lost : List Nat} {d : Device} (h : Fetches s c n fixed lost d) :
    Gives c s d (ringFetch n fixed lost) := exec_fetches h

section
variable {d d' : Device} {n : Nat} {as fixed lost : List Nat} (ht : TakesMore d n)
  (ha : descAddrs d n (d.fld F.DMA_RING_STAT_head n) .read = some as) (hh : agentHeld d (ringPart d n) as = false)
  (hd : (agentReads n as fixed lost).run d = d') (hl : (d'.ringsAt n).length = (d.ringsAt n).length)
  (hp : anyPoison d' as = false) {x : Desc} (hx : x = { index := d.fld F.DMA_RING_STAT_head n, raw := d'.bytesAt as })
  (ho : bit x.ctrl 31 = 1)
include ht ha hh hd hp hx ho

theorem run_ringFetch_taken (hk : ringKind n ≠ .col) : (ringFetch n fixed lost).run d =
    (Eff.all [modRings n (· ++ [{ x with status := kindCheck n d' x }]),
      setF F.DMA_RING_STAT_head n (d.fld F.DMA_RING_STAT_head n + 1), setF F.DMA_RING_STAT_state n 2, refreshIdle]).run d' := by
  rw [run_ringFetch_reports ht.serving (run_fetchDesc_taken ht ha hh hd hp hx ho) fun h => absurd h hk]
  simp only [takesDesc, Eff.run_all_cons, Eff.run_all_nil]

include hl

/-- A collective ring checks nothing as it takes a descriptor, but its group once it has (R334). -/
theorem run_ringFetch_takenCol (hk : ringKind n = .col) (hok : d'.Ok) : (ringFetch n fixed lost).run d =
    (Eff.all [modRings n (· ++ [x]), setF F.DMA_RING_STAT_head n (d.fld F.DMA_RING_STAT_head n + 1),
      setF F.DMA_RING_STAT_state n 2, colTaken n, refreshIdle]).run d' := by
  have hc : kindCheck n d' x = none := by rw [kindCheck, hk]
  have hf := run_fetchDesc_taken (check := kindCheck n) ht ha hh hd hp hx ho
  rw [hc, show { x with status := none } = x by rw [hx]] at hf
  have hlt : (d.ringsAt n).length < (((takesDesc n (d.fld F.DMA_RING_STAT_head n) x).run d').ringsAt n).length := by
    rw [ringsAt_takesDesc hok, List.length_append, hl]
    exact Nat.lt_succ_self _
  rw [run_ringFetch_col ht.serving hf hk hlt]
  simp only [takesDesc, Eff.run_all_cons, Eff.run_all_nil, Eff.run_seq]

end

/-! ### DMA_BURST (R280, R286) -/

/-- What a burst makes of what the host answered: nothing where the request failed, else the bytes it returned (R282). -/
def hostBurst (n : Nat) (x : Desc) : Option (List Byte) → Eff
  | none => burstEnd n x [] (some 4)
  | some bs => .when (decide (burstLength x ≤ bs.length)) (burstWrite n x (bs.take (burstLength x)) none)

theorem hostBurst_whole {n : Nat} {x : Desc} {bs : List Byte} (h : burstLength x ≤ bs.length) :
    hostBurst n x (some bs) = burstWrite n x (bs.take (burstLength x)) none := by
  rw [hostBurst, decide_eq_true h, Eff.when_true]

theorem hostBurst_short {n : Nat} {x : Desc} {bs : List Byte} (h : bs.length < burstLength x) :
    hostBurst n x (some bs) = .skip := by
  rw [hostBurst, decide_eq_false h.not_ge, Eff.when_false]

section
variable {d d1 : Device} {n : Nat} {x : Desc} {host : Option (List Byte)} {fixed lost : List Nat}

theorem run_burstOf_host (hs : x.srcSpace = 1)
    (hd : (modSent (· ++ [.hostRead (ctxFunction (ringCtx d n)) (x.src + x.moved.length) (burstLength x)])).run d = d1) :
    (burstOf n x host fixed lost).run d = (hostBurst n x host).run d1 := by
  rw [burstOf, Eff.run_obs]
  dsimp only
  rw [if_pos (beq_iff_eq.2 hs), Eff.run_seq, hd]
  cases host <;> rfl

section
variable (hs : x.srcSpace ≠ 1)
include hs

theorem run_burstOf_fault (ha : spaceAddrs d n x.srcSpace (x.src + x.moved.length) (burstLength x) .read = none) :
    (burstOf n x host fixed lost).run d = (burstEnd n x [] (some 1)).run d := by
  rw [burstOf, Eff.run_obs]
  dsimp only
  rw [if_neg (mt beq_iff_eq.1 hs), ha]

theorem run_burstOf {as : List (Option Nat)} {k : Nat}
    (ha : spaceAddrs d n x.srcSpace (x.src + x.moved.length) (burstLength x) .read = some as)
    (hd : (agentReads n (as.filterMap id) fixed lost).run d = d1) (hk : k = beforePoison d1 (x.src + x.moved.length) as) :
    (burstOf n x host fixed lost).run d = (Eff.seq
      (burstWrite n x ((as.take k).map fun a => (a.map d1.byte).getD 0) (if k < burstLength x then some 3 else none))
      (.when (as.any (·.isNone)) (teardown (ringCtx d1 n) codeRange))).run d1 := by
  subst hk
  rw [burstOf, Eff.run_obs]
  dsimp only
  rw [if_neg (mt beq_iff_eq.1 hs), ha]
  dsimp only
  rw [Eff.run_seq, hd, Eff.run_obs]

end

variable {e : Nat}

theorem run_dmaBurst_idle (ht : burstTurn d e = none) : (dmaBurst e host fixed lost).run d = d := by
  rw [dmaBurst, Eff.run_obs, ht, Eff.run_skip]

theorem run_dmaBurst (ht : burstTurn d e = some n) (hn : nextDesc (d.ringsAt n) = some x) (hd : (putRr e n).run d = d1) :
    (dmaBurst e host fixed lost).run d = (burstOf n x host fixed lost).run d1 := by
  rw [dmaBurst, Eff.run_obs, ht]
  dsimp only
  rw [hn, Eff.run_seq, hd]

end

/-! ### DMA_COMPLETE (R281 to R283) -/

/-- A ring has no descriptor whose data is complete at its front. -/
def NoneDone (d : Device) (n : Nat) : Prop := d.ringsAt n = [] ∨ ∃ x rest, d.ringsAt n = x :: rest ∧ x.status = none

section
variable {d : Device} {n : Nat}

theorem run_dmaComplete_none (h : NoneDone d n) : (dmaComplete n).run d = d := by
  rcases h with h | ⟨x, rest, h, hx⟩
  · simp only [dmaComplete, Eff.run_obs, h, Eff.run_skip]
  · simp only [dmaComplete, Eff.run_obs, h, hx, Eff.run_skip]

variable (hn : n < 9728) {x : Desc} {rest : List Desc} {st : Nat} (hr : d.ringsAt n = x :: rest) (hx : x.status = some st)
include hr hx

theorem run_dmaComplete_some : (dmaComplete n).run d =
    (Eff.when (x.unacked.isEmpty && ringState d n != 4 && (ringKind n == .dma || ringKind n == .link) &&
      !(descAddrs d n x.index .write).any (agentHeld d (ringPart d n)))
        (completeDesc n x st (dmaTail x st) (dmaSignal n x))).run d := by
  rw [dmaComplete, Eff.run_obs, hr]
  dsimp only
  rw [hx]

theorem run_dmaComplete_waits (h : x.unacked ≠ [] ∨ ringState d n = 4 ∨ ∃ as, descAddrs d n x.index .write = some as ∧
    agentHeld d (ringPart d n) as = true) : (dmaComplete n).run d = d := by
  rw [run_dmaComplete_some hr hx]
  rcases h with h | h | ⟨as, ha, hh⟩
  · rw [List.isEmpty_eq_false_iff.2 h, Bool.false_and, Bool.false_and, Bool.false_and, Eff.when_false, Eff.run_skip]
  · rw [h, bne_self_eq_false, Bool.and_false, Bool.false_and, Bool.false_and, Eff.when_false, Eff.run_skip]
  · rw [ha, Option.any_some, hh, Bool.not_true, Bool.and_false, Eff.when_false, Eff.run_skip]

include hn

theorem run_dmaComplete (hu : x.unacked = []) (hs : ringState d n ≠ 4)
    (hh : ∀ as, descAddrs d n x.index .write = some as → agentHeld d (ringPart d n) as = false) :
    (dmaComplete n).run d = (completeDesc n x st (dmaTail x st) (dmaSignal n x)).run d := by
  have hk : (ringKind n == .dma || ringKind n == .link) = true := by
    rw [Bool.or_eq_true, beq_iff_eq, beq_iff_eq]
    exact ringKind_dma_or_link hn
  have hf : (descAddrs d n x.index .write).any (agentHeld d (ringPart d n)) = false := by
    rw [Option.any_eq_false]
    exact fun as ha => by rw [hh as ha]
  rw [run_dmaComplete_some hr hx, hu, List.isEmpty_nil, bne_iff_ne.2 hs, hk, hf, Bool.not_false, Bool.and_self, Bool.and_self,
    Bool.and_self, Eff.when_true]

end

/-! ### The commands -/

theorem does_dmaBurst {s : State} {e : Nat} (he : e < 21) (hs : serving s.dev = true) (host : Option (List Byte))
    (fixed lost : List Nat) : Does (.dmaBurst e host fixed lost) s (dmaBurst e host fixed lost) :=
  does_whileIt (decide_eq_true he) hs rfl

theorem does_dmaComplete {s : State} {n : Nat} (hn : n < 9728) (hw : working s.dev = true) :
    Does (.dmaComplete n) s (dmaComplete n) :=
  does_whileIt (decide_eq_true hn) hw rfl

/-- Settles O28: a fetch goes by whether the ring's engine takes more of it, by the descriptor's bytes and by its own bit; a burst
by the space of its source; a completion by what its descriptor waits for, and by whether it can be written back (log entries 22, 60,
66 and 68). -/
theorem ringService : Obligations.RingService := by
  refine ⟨fun s d c n head fixed lost hc ht hhead => ?_, fun s d c n fixed lost hc => ⟨fun hs h => ?_, fun hs => ?_⟩,
    fun s d d1 e n o m x host fixed lost he hs ht hn hd ho hm => ?_, fun s e host fixed lost he hs ht => ?_,
    fun s n st x rest hn hw hr hx => ?_, fun s n hn hw h => (does_dmaComplete hn hw).of_run (run_dmaComplete_none h)⟩
  · subst hhead
    have hg := gives_ringFetch hc
    refine ⟨fun ha => hg.of_run (run_ringFetch_fault ht.serving rfl (run_fetchDesc_lost ht ha)), fun as ha =>
      ⟨fun hh => hg.of_run (run_ringFetch_reports ht.serving (run_fetchDesc_held ht ha hh) fun _ => rfl),
        fun d' hh hd hl => ⟨fun hp => hg.of_run (run_ringFetch_fault ht.serving hl (run_fetchDesc_poison ht ha hh hd hp)),
          fun x hp hx => ⟨fun ho => ?_, fun ho hk => ?_, fun ho hk hok => ?_⟩⟩⟩⟩
    · exact hg.of_run (run_ringFetch_reports ht.serving (run_fetchDesc_unowned ht ha hh hd hp hx ho) fun _ => hl)
    · exact hg.of_run (run_ringFetch_taken ht ha hh hd hp hx ho hk)
    · exact hg.of_run (run_ringFetch_takenCol ht ha hh hd hl hp hx ho hk hok)
  · exact (gives_ringFetch hc).of_run (run_ringFetch_reports hs (run_fetchDesc_not h) fun _ => rfl)
  · exact (gives_ringFetch hc).of_run (run_ringFetch_stopped hs)
  · subst ho hm
    have hg (h : Option (List Byte)) : Gives (.dmaBurst e h fixed lost) s d (burstOf n x h fixed lost) :=
      (does_dmaBurst he hs h fixed lost).of_run (run_dmaBurst ht hn hd)
    refine ⟨fun hsrc hd1 => ?_,
      fun hsrc ha => (hg host).of_run (run_burstOf_fault hsrc ha),
      fun as k hsrc ha hd1 hk => (hg host).of_run (run_burstOf hsrc ha hd1 hk)⟩
    have hx (h : Option (List Byte)) : Gives (.dmaBurst e h fixed lost) s d1 (hostBurst n x h) :=
      (hg h).of_run (run_burstOf_host hsrc hd1)
    exact ⟨hx none, fun bs hb => hostBurst_whole hb ▸ hx (some bs), fun bs hb => hostBurst_short hb ▸ hx (some bs)⟩
  · exact (does_dmaBurst he hs host fixed lost).of_run (run_dmaBurst_idle ht)
  · have hg := does_dmaComplete hn hw
    refine ⟨fun hu hs hh => ?_, fun h => hg.of_run (run_dmaComplete_waits hr hx h)⟩
    have hd := hg.of_run (run_dmaComplete hn hr hx hu hs hh)
    exact ⟨fun hb => hd.of_run (run_completeDesc hb hs), fun hb => hd.of_run (run_completeDesc_lost hb)⟩

end Sys2Proof.Machine
end

section
/-! PROOFS. Control of rings: resuming, cancelling, enabling, and the ends of cancellations (R283, R284, R350, R373, R389). -/

namespace Sys2Proof.Machine

/- As in the tests, one theorem after another: each one elaborated beside others holds a thread's stack. -/
set_option Elab.async false

/-! ### Writes of DMA_RING_CTRL and DMA_RING_BASE (R283, R284) -/

/-- What a resume with `v` does: a halted ring continues at head. -/
def resumes (n v : Nat) (fixed lost : List Nat) (d : Device) : Eff := .when (bit v 31 == 1 && ringState d n == 3) <|
  .seq (setF F.DMA_RING_STAT_state n (if (d.ringsAt n).isEmpty then 1 else 2)) (ringFetch n fixed lost)

theorem resumes_halted {d : Device} {n v : Nat} (hv : bit v 31 = 1) (hs : ringState d n = 3) (fixed lost : List Nat) :
    resumes n v fixed lost d =
      .seq (setF F.DMA_RING_STAT_state n (if (d.ringsAt n).isEmpty then 1 else 2)) (ringFetch n fixed lost) := by
  rw [resumes, hv, hs, beq_self_eq_true, beq_self_eq_true, Bool.and_self, Eff.when_true]

theorem resumes_not {d : Device} {n v : Nat} (h : bit v 31 = 0 ∨ ringState d n ≠ 3) (fixed lost : List Nat) :
    resumes n v fixed lost d = .skip := by
  rcases h with h | h
  · rw [resumes, h, show ((0 : Nat) == 1) = false from rfl, Bool.false_and, Eff.when_false]
  · rw [resumes, beq_false_of_ne h, Bool.and_false, Eff.when_false]

section
variable {d : Device} {n v : Nat}

theorem run_cancelStart (he : d.fld F.DMA_RING_BASE_enable n = 1) : (cancelStart n).run d =
    (Eff.seq (setF F.DMA_RING_STAT_state n 4) (modRings n fun xs => xs.map fun x => { x with
      moved := x.moved.take (x.moved.length - x.packing.length), packing := [], packs := 0,
      status := if x.unacked.isEmpty && x.packing.isEmpty then x.status else none })).run d := by
  rw [cancelStart, Eff.run_obs, he, beq_self_eq_true, Eff.when_true]

theorem run_cancelStart_not (he : d.fld F.DMA_RING_BASE_enable n ≠ 1) : (cancelStart n).run d = d := by
  rw [cancelStart, Eff.run_obs, beq_false_of_ne he, Eff.when_false, Eff.run_skip]

variable {rq : Nat}

theorem run_ringEnable_denied (hm : bit (mayWrite d rq .DMA_RING_BASE n) 0 = 0) :
    (ringEnable rq n v).run d = denied.run d := by
  rw [ringEnable, Eff.run_obs, hm, if_pos (beq_self_eq_true 0)]

variable (hm : bit (mayWrite d rq .DMA_RING_BASE n) 0 = 1)
include hm

theorem run_ringEnable : (ringEnable rq n v).run d = (if d.fld F.DMA_RING_BASE_enable n = 1 then
      .when (bit v 0 == 0) (cancelStart n)
    else .seq (setF F.DMA_RING_BASE_base n (bits v 55 6)) (.when (bit v 0 == 1) (.all [setF F.DMA_RING_BASE_enable n 1,
      setF F.DMA_RING_STAT_head n 0, setF F.DMA_RING_STAT_state n 1, putRings n []])) : Eff).run d := by
  rw [ringEnable, Eff.run_obs, hm, if_neg (by decide)]
  simp only [beq_iff_eq]

section
variable (he : d.fld F.DMA_RING_BASE_enable n ≠ 1)
include he

theorem run_ringEnable_enables (hv : bit v 0 = 1) : (ringEnable rq n v).run d =
    (Eff.all [setF F.DMA_RING_BASE_base n (bits v 55 6), setF F.DMA_RING_BASE_enable n 1, setF F.DMA_RING_STAT_head n 0,
      setF F.DMA_RING_STAT_state n 1, putRings n []]).run d := by
  rw [run_ringEnable hm, if_neg he, Eff.run_seq, run_whenBit hv, Eff.run_all_cons (setF F.DMA_RING_BASE_base n _)]

theorem run_ringEnable_stores (hv : bit v 0 = 0) :
    (ringEnable rq n v).run d = (setF F.DMA_RING_BASE_base n (bits v 55 6)).run d := by
  rw [run_ringEnable hm, if_neg he, Eff.run_seq, run_whenBit_not (by omega)]

end

variable (he : d.fld F.DMA_RING_BASE_enable n = 1)
include he

theorem run_ringEnable_cancels (hv : bit v 0 = 0) : (ringEnable rq n v).run d = (cancelStart n).run d := by
  rw [run_ringEnable hm, if_pos he, hv, beq_self_eq_true, Eff.when_true]

theorem run_ringEnable_ignored (hv : bit v 0 = 1) : (ringEnable rq n v).run d = d := by
  rw [run_ringEnable hm, if_pos he, hv, show ((1 : Nat) == 0) = false from rfl, Eff.when_false, Eff.run_skip]

end

theorem run_ringDoorbell_denied {d : Device} {rq n : Nat} (hm : mayWrite d rq .DMA_RING_DOORBELL n = 0)
    (fixed lost : List Nat) : (ringDoorbell rq n fixed lost).run d = denied.run d := by
  rw [ringDoorbell, Eff.run_obs, hm, if_pos (beq_self_eq_true 0)]

/-! ### RING_CANCEL_DONE (R284, R341, R350, R373, R389) -/

section
variable {d : Device} {n : Nat}

theorem run_ringCancelDone_not (hs : ringState d n ≠ 4) : (ringCancelDone n).run d = d := by
  rw [ringCancelDone, Eff.run_obs, beq_false_of_ne hs, Eff.when_false, Eff.run_skip]

theorem run_ringCancelDone_dma (hs : ringState d n = 4) (hn : n < 9728) :
    (ringCancelDone n).run d = (finishCancel n 6 dmaTail (dmaSignal n)).run d := by
  rw [ringCancelDone, Eff.run_obs, hs, beq_self_eq_true, Eff.when_true]
  rcases ringKind_dma_or_link hn with hk | hk <;> rw [hk]

end

/-! ### The commands -/

section
variable {s : State} {n : Nat} (hn : n < 10392)
include hn

theorem does_ringCancelDone (hp : powered s.dev = true) : Does (.ringCancelDone n) s (ringCancelDone n) :=
  does_whileIt (decide_eq_true hn) hp rfl

variable {d : Device} {rq v : Nat}

theorem gives_ringResume (h : Writes s rq .DMA_RING_CTRL n v 31 d)
    (hb : (isSteward rq || !siteGone ((beforeAccess rq).run s.dev) .DMA_RING_CTRL n) = true) (fixed lost : List Nat) :
    Gives (.ringResume rq n v fixed lost) s d (resumes n v fixed lost d) :=
  (gives_writesAt (by simp [h.asks.lt, hn]) h hb rfl).of_run (Eff.run_obs _ _)

theorem gives_ringCancel (h : Writes s rq .DMA_RING_CTRL n v 30 d)
    (hb : (isSteward rq || !siteGone ((beforeAccess rq).run s.dev) .DMA_RING_CTRL n) = true) :
    Gives (.ringCancel rq n v) s d (.when (bit v 30 == 1) (cancelStart n)) :=
  gives_writesAt (by simp [h.asks.lt, hn]) h hb rfl

variable (h : Asks s rq d)
include h

theorem gives_ringResume_denied (hb : (isSteward rq || !siteGone d .DMA_RING_CTRL n) = true)
    (hm : bit (mayWrite d rq .DMA_RING_CTRL n) 31 = 0) (fixed lost : List Nat) :
    Gives (.ringResume rq n v fixed lost) s d denied :=
  (gives_atSite (by simp [h.lt, hn]) h rfl hb).of_run (run_writeAct_denied hm v _)

theorem gives_ringCancel_denied (hb : (isSteward rq || !siteGone d .DMA_RING_CTRL n) = true)
    (hm : bit (mayWrite d rq .DMA_RING_CTRL n) 30 = 0) : Gives (.ringCancel rq n v) s d denied :=
  (gives_atSite (by simp [h.lt, hn]) h rfl hb).of_run (run_writeAct_denied hm v _)

theorem gives_ringEnable (hb : (isSteward rq || !siteGone d .DMA_RING_BASE n) = true) :
    Gives (.ringEnable rq n v) s d (ringEnable rq n v) :=
  gives_atSite (by simp [h.lt, hn]) h rfl hb

theorem gives_ringDoorbell (hb : (isSteward rq || !siteGone d .DMA_RING_DOORBELL n) = true) (fixed lost : List Nat) :
    Gives (.ringDoorbell rq n fixed lost) s d (ringDoorbell rq n fixed lost) :=
  gives_atSite (by simp [h.lt, hn]) h rfl hb

end

/-- Settles O29: each write goes by the requester's right, by its bit and by the ring's state or enable; the end of a cancellation
goes by the state, and by the kind of the ring (log entries 65, 66 and 88). -/
theorem ringControl : Obligations.RingControl := by
  refine ⟨fun s d rq n v fixed lost hn h hb => ?_, fun s d rq n v hn h hb => ⟨fun hv he => ?_, fun hv => ?_⟩,
    fun s d rq n v hn h hb hm => ?_, fun s n hn hp hs => ⟨fun hk ha => ?_, fun hk ha => ?_, fun hk hk' => ?_,
      fun hk hk' => ?_, fun hk => ?_⟩,
    fun s n hn hp hs => (does_ringCancelDone hn hp).of_run (run_ringCancelDone_not hs),
    fun s d rq n v fixed lost hn h => ⟨fun hb => ⟨fun hm => gives_ringResume_denied hn h hb hm fixed lost,
      gives_ringCancel_denied hn h hb⟩, fun hb hm => (gives_ringEnable hn h hb).of_run (run_ringEnable_denied hm),
      fun hb hm => (gives_ringDoorbell hn h hb fixed lost).of_run (run_ringDoorbell_denied hm fixed lost)⟩⟩
  · have hg := gives_ringResume hn h hb fixed lost
    exact ⟨fun hv hs => resumes_halted hv hs fixed lost ▸ hg, fun hv => resumes_not hv fixed lost ▸ hg⟩
  · exact (gives_ringCancel hn h hb).of_run (by rw [run_whenBit hv, run_cancelStart he])
  · refine (gives_ringCancel hn h hb).of_run ?_
    rcases hv with hv | he
    · exact run_whenBit_not (by omega) _ _
    · rw [Eff.run_when, run_cancelStart_not he, ite_self, Eff.run_skip]
  · have hg := gives_ringEnable (v := v) hn h hb
    exact ⟨fun he hv => hg.of_run (run_ringEnable_enables hm he hv), fun he hv => hg.of_run (run_ringEnable_stores hm he hv),
      fun he hv => hg.of_run (run_ringEnable_cancels hm he hv), fun he hv => hg.of_run (run_ringEnable_ignored hm he hv)⟩
  · refine (does_ringCancelDone hn hp).of_run ?_
    rw [run_ringCancelDone_dma hs hk, run_finishCancel hs ha]
    rfl
  · exact (does_ringCancelDone hn hp).of_run (by rw [run_ringCancelDone_dma hs hk, run_finishCancel_waits ha, Eff.run_skip])
  · exact (does_ringCancelDone hn hp).of_run (by
      rw [ringCancelDone, Eff.run_obs, hs, beq_self_eq_true, Eff.when_true, ringKind_eq_col hk hk'])
  · exact (does_ringCancelDone hn hp).of_run (by
      rw [ringCancelDone, Eff.run_obs, hs, beq_self_eq_true, Eff.when_true, ringKind_eq_vce hk hk'])
  · exact (does_ringCancelDone hn hp).of_run (by
      rw [ringCancelDone, Eff.run_obs, hs, beq_self_eq_true, Eff.when_true, ringKind_eq_ing hk])

end Sys2Proof.Machine
end

section
/-! PROOFS. Cues: events, and the registers that select, clear and add (R287 to R289, R296). -/

namespace Sys2Proof.Machine

/- As in the tests, one theorem after another: each one elaborated beside others holds a thread's stack. -/
set_option Elab.async false

/-! ### CUE_EVENT (R288) -/

/-- The cue that a selection names within partition `p`. -/
def namedCue (d : Device) (p sel : Nat) : Option (Nat × Nat × Nat) :=
  cueName d p (bits sel 30 29) (bits sel 28 21) (bits sel 20 17) (bits sel 16 15) (bits sel 14 9)

section
variable {d : Device} {p sel : Nat} {counts : List Nat} (c : Option Nat)

theorem run_cueEvents {q : Nat × Nat × Nat} (hq : namedCue d p sel = some q) (hn : counts.foldl (· + ·) 0 ≠ 0) :
    (cueEvents p c sel counts).run d = (cueEvent p c q (counts.foldl (· + ·) 0)).run d := by
  rw [namedCue] at hq
  rw [cueEvents, Eff.run_obs, hq]
  dsimp only
  rw [bne_iff_ne.2 hn, Eff.when_true]

theorem run_cueEvents_none (h : namedCue d p sel = none ∨ counts.foldl (· + ·) 0 = 0) :
    (cueEvents p c sel counts).run d = d := by
  rw [cueEvents, Eff.run_obs, ← namedCue]
  rcases h with h | h
  · rw [h, Eff.run_skip]
  · rw [h, bne_self_eq_false]
    cases namedCue d p sel <;> rfl

end

/-! ### EVT_CUE_SEL, EVT_CUE and EVT_CUE_ADD (R287, R289, R296) -/

section
variable {d : Device} {rq p v : Nat}

theorem run_cueSelect (hm : bit (mayWrite d rq .EVT_CUE_SEL p) 9 = 1) :
    (cueSelect rq p v).run d = (storeWrite rq .EVT_CUE_SEL p v).run d := by
  rw [cueSelect, writeAct, Eff.run_obs, hm, if_pos (beq_self_eq_true 1), Eff.run_seq, Eff.run_skip]

theorem run_cueOverflowClear_denied (hm : bit (mayWrite d rq .EVT_CUE p) 16 = 0) :
    (cueOverflowClear rq p v).run d = denied.run d := by
  rw [cueOverflowClear, Eff.run_obs, hm, if_pos (beq_self_eq_true 0)]

theorem run_cueAddWrite_denied (hm : mayWrite d rq .EVT_CUE_ADD p = 0) : (cueAddWrite rq p v).run d = denied.run d := by
  rw [cueAddWrite, Eff.run_obs, hm, if_pos (beq_self_eq_true 0)]

section
variable (hm : bit (mayWrite d rq .EVT_CUE p) 16 = 1)
include hm

theorem run_cueOverflowClear_none (hs : selectedFor d rq p = none) : (cueOverflowClear rq p v).run d = d := by
  rw [cueOverflowClear, Eff.run_obs, hm, if_neg (by decide), hs, Eff.run_skip]

theorem run_cueOverflowClear {q : Nat × Nat × Nat} (hs : selectedFor d rq p = some q) : (cueOverflowClear rq p v).run d =
    (Eff.when (bit v 16 == 1) (modCues (cueKey q) fun c => { c with overflow := false })).run d := by
  rw [cueOverflowClear, Eff.run_obs, hm, if_neg (by decide), hs]

end

variable (hm : mayWrite d rq .EVT_CUE_ADD p ≠ 0)
include hm

theorem run_cueAddWrite_none (h : selectedFor d rq p = none ∨ bits v 15 0 = 0) : (cueAddWrite rq p v).run d = d := by
  rw [cueAddWrite, Eff.run_obs, if_neg (mt beq_iff_eq.1 hm)]
  rcases h with h | h
  · rw [h, Eff.run_skip]
  · rw [h, bne_self_eq_false]
    cases selectedFor d rq p <;> rfl

theorem run_cueAddWrite {q : Nat × Nat × Nat} (hs : selectedFor d rq p = some q) (hn : bits v 15 0 ≠ 0) :
    (cueAddWrite rq p v).run d =
      (cueEvent p (if q.1 = 0 then ctxOnCore d q.2.1 else none) q (bits v 15 0)).run d := by
  rw [cueAddWrite, Eff.run_obs, if_neg (mt beq_iff_eq.1 hm), hs]
  dsimp only
  rw [bne_iff_ne.2 hn, Eff.when_true]
  simp only [beq_iff_eq]

end

/-! ### The commands -/

section
variable {s : State} {p : Nat} (hp : p < 32)
include hp

theorem does_cueEvent {c : Option Nat} {counts : List Nat} (hc : c.all (· < 1024) = true) (hn : counts.all (· < 65536) = true)
    (hw : powered s.dev = true) (sel : Nat) : Does (.cueEvent p c sel counts) s (cueEvents p c sel counts) :=
  does_whileIt (by rw [decide_eq_true hp, hc, hn]; rfl) hw rfl

variable {d : Device} {rq : Nat} (h : AsksAon s rq d) (v : Nat)
include h

theorem gives_cueSelect : Gives (.cueSelect rq p v) s d (cueSelect rq p v) :=
  gives_aonDo (by simp [h.lt, hp]) h rfl

theorem gives_cueOverflowClear : Gives (.cueOverflowClear rq p v) s d (cueOverflowClear rq p v) :=
  gives_aonDo (by simp [h.lt, hp]) h rfl

theorem gives_cueAdd : Gives (.cueAdd rq p v) s d (cueAddWrite rq p v) :=
  gives_aonDo (by simp [h.lt, hp]) h rfl

end

/-- Settles O30: an event goes by the cue that its selection names and by the sum of its counts; a write by the requester's right,
by the cue it has selected, and by what the write asks for. -/
theorem cueCommands : Obligations.CueCommands := by
  refine ⟨fun s p sel c counts hp hc hn hw => ?_, fun s d rq p v hp h => ?_, fun s d rq p v hp h => ?_,
    fun s d rq p v hp h => ?_⟩
  · have hx := does_cueEvent hp hc hn hw sel
    exact ⟨fun q hq => ⟨fun h => hx.of_run (run_cueEvents c hq h), fun h => hx.of_run (run_cueEvents_none c (.inr h))⟩,
      fun hq => hx.of_run (run_cueEvents_none c (.inl hq))⟩
  · have hg := gives_cueSelect hp h v
    exact ⟨fun hm => hg.of_run (run_cueSelect hm), fun hm => hg.of_run (run_writeAct_denied hm v _)⟩
  · have hg := gives_cueOverflowClear hp h v
    refine ⟨fun q hm hs => ?_, fun hm hs => hg.of_run (run_cueOverflowClear_none hm hs),
      fun hm => hg.of_run (run_cueOverflowClear_denied hm)⟩
    have hx := hg.of_run (run_cueOverflowClear hm hs)
    exact ⟨fun hv => hx.of_run (run_whenBit hv _ _), fun hv => hx.of_run (run_whenBit_not (by omega) _ _)⟩
  · have hg := gives_cueAdd hp h v
    exact ⟨fun q hm hs => ⟨fun hn => hg.of_run (run_cueAddWrite hm hs hn), fun hn => hg.of_run (run_cueAddWrite_none hm (.inr hn))⟩,
      fun hm hs => hg.of_run (run_cueAddWrite_none hm (.inl hs)), fun hm => hg.of_run (run_cueAddWrite_denied hm)⟩

end Sys2Proof.Machine
end

section
/-! PROOFS. The control of codec engines, and the completion of codec and ingest jobs (R281, R356 to R375). -/

namespace Sys2Proof.Machine

/- As in the tests, one theorem after another: each one elaborated beside others holds a thread's stack. -/
set_option Elab.async false

/-! ### VCE_JOB_COMPLETE and INGEST_JOB_COMPLETE (R359, R375) -/

section
variable {d : Device} {n : Nat} {kind : RingKind}

theorem run_jobComplete_none (h : NoneDone d n) : (jobComplete n kind).run d = d := by
  rcases h with h | ⟨x, rest, h, hx⟩
  · simp only [jobComplete, Eff.run_obs, h, Eff.run_skip]
  · simp only [jobComplete, Eff.run_obs, h, hx, Eff.run_skip]

variable {x : Desc} {rest : List Desc} {st : Nat} (hr : d.ringsAt n = x :: rest) (hx : x.status = some st)
include hr hx

theorem run_jobComplete_some : (jobComplete n kind).run d =
    (Eff.when (ringKind n == kind && ringState d n != 4 && !(descAddrs d n x.index .write).any (agentHeld d (ringPart d n)))
      (completeDesc n x st (jobTail x st) (signalDesc n x))).run d := by
  rw [jobComplete, Eff.run_obs, hr]
  dsimp only
  rw [hx]

theorem run_jobComplete_waits (h : ringKind n ≠ kind ∨ ringState d n = 4 ∨
    (descAddrs d n x.index .write).any (agentHeld d (ringPart d n)) = true) : (jobComplete n kind).run d = d := by
  rw [run_jobComplete_some hr hx]
  rcases h with h | h | h
  · rw [beq_false_of_ne h, Bool.false_and, Bool.false_and, Eff.when_false, Eff.run_skip]
  · rw [h, bne_self_eq_false, Bool.and_false, Bool.false_and, Eff.when_false, Eff.run_skip]
  · rw [h, Bool.not_true, Bool.and_false, Eff.when_false, Eff.run_skip]

theorem run_jobComplete (hk : ringKind n = kind) (hs : ringState d n ≠ 4)
    (hh : (descAddrs d n x.index .write).any (agentHeld d (ringPart d n)) = false) :
    (jobComplete n kind).run d = (completeDesc n x st (jobTail x st) (signalDesc n x)).run d := by
  rw [run_jobComplete_some hr hx, beq_iff_eq.2 hk, bne_iff_ne.2 hs, hh, Bool.not_false, Bool.and_self, Bool.and_self,
    Eff.when_true]

end

theorem run_thenIdle {d d' : Device} {e : Eff} (h : e.run d = d') : (thenIdle e).run d = refreshIdle.run d' := by
  rw [thenIdle, Eff.run_seq, h]

/-! ### VCE_RETURN (R363, R373) -/

section
variable {d : Device} {e v : Nat}

theorem run_returnBuffer_none (h : d.sessionsAt (e * 16 + bits v 19 16) = none) :
    (returnBuffer e v).run d = (addSat F.VCE_ERR_bad_return e 1).run d := by
  simp only [returnBuffer, Eff.run_obs, h]

section
variable {q : Session} (h : d.sessionsAt (e * 16 + bits v 19 16) = some q)
include h

theorem run_returnBuffer (hb : q.heldBufs.contains (bits v 15 0) = true) : (returnBuffer e v).run d =
    (putSessions (e * 16 + bits v 19 16) (some { q with heldBufs := q.heldBufs.filter (· != bits v 15 0) })).run d := by
  simp only [returnBuffer, Eff.run_obs, h, hb, if_true]

theorem run_returnBuffer_notHeld (hb : q.heldBufs.contains (bits v 15 0) = false) :
    (returnBuffer e v).run d = (addSat F.VCE_ERR_bad_return e 1).run d := by
  simp only [returnBuffer, Eff.run_obs, h, hb, Bool.false_eq_true, if_false]

end

variable {rq : Nat}

theorem run_vceReturn_denied (hm : bit (mayWrite d rq .VCE_RETURN e) 31 = 0) : (vceReturn rq e v).run d = denied.run d := by
  rw [vceReturn, Eff.run_obs, hm, if_pos (beq_self_eq_true 0)]

theorem run_vceReturn (hm : bit (mayWrite d rq .VCE_RETURN e) 31 = 1) :
    (vceReturn rq e v).run d = (Eff.when (bit v 31 == 1) (returnBuffer e v)).run d := by
  rw [vceReturn, Eff.run_obs, hm, if_neg (by decide)]

/-! ### ENGINE_RESET and VCE_ENABLE (R373) -/

theorem run_vceEnable_denied (hm : mayWrite d rq .VCE_CTRL e = 0) : (vceEnable rq e v).run d = denied.run d := by
  rw [vceEnable, Eff.run_obs, hm, if_pos (beq_self_eq_true 0)]

theorem run_vceEnable (hm : mayWrite d rq .VCE_CTRL e ≠ 0) : (vceEnable rq e v).run d = (Eff.seq
    (.when (d.fld F.VCE_CTRL_enable e == 1 && (bit v 31 == 0 || bits v 24 20 != d.fld F.VCE_CTRL_partition e)) (cancelEngine e))
    (storeWrite rq .VCE_CTRL e v)).run d := by
  rw [vceEnable, Eff.run_obs, if_neg (mt beq_iff_eq.1 hm)]

/-- What a guarded effect that looks at the block does, as the guard finds it. -/
theorem run_when_obs (c : Bool) (k : Device → Eff) (d : Device) : (Eff.when c (.obs k)).run d = (Eff.when c (k d)).run d := by
  rw [Eff.run_when, Eff.run_when, Eff.run_obs]

end

/-! ### The commands -/

section
variable {s : State}

/-- A job of a ring of a kind is completed, and then IDLE or RUN is reported (R421). -/
theorem does_jobComplete {n : Nat} {c : Instr} {kind : RingKind}
    (hc : (c, kind) ∈ [(.vceJobComplete n, .vce), (.ingestJobComplete n, RingKind.ing)])
    (hn : n < if kind = .vce then 10256 else 10392) (hw : working s.dev = true) : Does c s (thenIdle (jobComplete n kind)) := by
  rcases List.mem_pair.1 hc with h | h <;> cases h <;> exact does_whileIt (decide_eq_true hn) hw rfl

variable {e : Nat} (he : e < 34)
include he

theorem does_engineReset (hp : powered s.dev = true) : Does (.engineReset e) s (thenIdle (engineReset e)) :=
  does_whileIt (decide_eq_true he) hp rfl

variable {d : Device} {rq : Nat} (h : Asks s rq d) (v : Nat)
include h

theorem gives_vceReturn (hb : (isSteward rq || !siteGone d .VCE_RETURN e) = true) :
    Gives (.vceReturn rq e v) s d (vceReturn rq e v) :=
  gives_atSite (by simp [h.lt, he]) h rfl hb

theorem gives_vceReturn_gone (hb : (isSteward rq || !siteGone d .VCE_RETURN e) = false) : Gives (.vceReturn rq e v) s d .skip :=
  gives_atSite_gone (by simp [h.lt, he]) h rfl hb

theorem gives_vceEnable (hb : (isSteward rq || !siteGone d .VCE_CTRL e) = true) :
    Gives (.vceEnable rq e v) s d (vceEnable rq e v) :=
  gives_atSite (by simp [h.lt, he]) h rfl hb

theorem gives_vceEnable_gone (hb : (isSteward rq || !siteGone d .VCE_CTRL e) = false) : Gives (.vceEnable rq e v) s d .skip :=
  gives_atSite_gone (by simp [h.lt, he]) h rfl hb

end

/-- Settles O42: a completion goes by the oldest job and by whether it can be written back; a return by the session and the buffer it
names; ENGINE_RESET has one course, which ends with the firmware reloaded (log entry 83); VCE_ENABLE goes by the requester's right. -/
theorem codecControl : Obligations.CodecControl := by
  refine ⟨fun s n c kind hc hn hw => ?_, fun s d rq e v he h hb => ?_, fun s e he hp => ?_, fun s d rq e v he h hb => ?_,
    fun s d rq e v he h => ⟨gives_vceReturn_gone he h v, gives_vceEnable_gone he h v⟩⟩
  · have hx := does_jobComplete hc hn hw
    refine ⟨fun hr => hx.of_run (run_thenIdle (run_jobComplete_none (.inl hr))),
      fun x rest hr ht => hx.of_run (run_thenIdle (run_jobComplete_none (.inr ⟨x, rest, hr, ht⟩))),
      fun st x rest hr ht => ⟨fun h => hx.of_run (run_thenIdle (run_jobComplete_waits hr ht h)), fun hk hs hh =>
        ⟨fun hb => hx.of_run ?_, fun hb => hx.of_run ?_⟩⟩⟩
    · rw [run_thenIdle (run_jobComplete hr ht hk hs hh), run_completeDesc hb hs]
      simp only [jobTail, Eff.run_all_cons, Eff.run_all_nil]
    · rw [run_thenIdle (run_jobComplete hr ht hk hs hh), run_completeDesc_lost hb]
      simp only [Eff.run_all_cons, Eff.run_all_nil]
  · have hg := gives_vceReturn he h v hb
    have returns (hm : bit (mayWrite d rq .VCE_RETURN e) 31 = 1) (hv : bit v 31 = 1) :
        Gives (.vceReturn rq e v) s d (returnBuffer e v) := hg.of_run (by rw [run_vceReturn hm, run_whenBit hv])
    exact ⟨fun q hm hv hq => ⟨fun hc => (returns hm hv).of_run (run_returnBuffer hq hc),
        fun hc => (returns hm hv).of_run (run_returnBuffer_notHeld hq hc)⟩,
      fun hm hv hq => (returns hm hv).of_run (run_returnBuffer_none hq),
      fun hm hv => hg.of_run (by rw [run_vceReturn hm, run_whenBit_not (by omega), Eff.run_skip]),
      fun hm => hg.of_run (run_vceReturn_denied hm)⟩
  · refine (does_engineReset he hp).of_run ?_
    rw [run_thenIdle rfl, engineReset, Eff.run_obs]
    simp only [Eff.run_all_cons, Eff.run_all_nil]
  · have hg := gives_vceEnable he h v hb
    refine ⟨fun hm => hg.of_run ?_, fun hm => hg.of_run (run_vceEnable_denied hm)⟩
    rw [run_vceEnable hm, cancelEngine, Eff.run_seq, Eff.run_seq, run_when_obs]

end Sys2Proof.Machine
end

section
/-! PROOFS. Doorbell pages and the binding of their slots (R487, R493, R494). -/

namespace Sys2Proof.Machine

/- As in the tests, one theorem after another: each one elaborated beside others holds a thread's stack. -/
set_option Elab.async false

/-! ### DOORBELL_PAGE_WRITE (R487, R493) -/

section
variable {d : Device} {q v slot : Nat} {fixed lost : List Nat}

theorem run_doorbellPageWrite_unbound (hp : ctxPart d (q * 512 + v) = none) :
    (doorbellPageWrite q v slot fixed lost).run d = d := by
  simp only [doorbellPageWrite, Eff.run_obs, hp, Eff.run_skip]

variable {p : Nat} (hp : ctxPart d (q * 512 + v) = some p)
include hp

theorem run_doorbellPageWrite_counts (hs : slotRing d (q * 512 + v) slot = none) :
    (doorbellPageWrite q v slot fixed lost).run d = (addSat F.STW_HIF_DENY_doorbells 0 1).run d := by
  simp only [doorbellPageWrite, Eff.run_obs, hp, hs]

theorem run_doorbellPageWrite_ring {n r : Nat} (hs : slotRing d (q * 512 + v) slot = some (some n, r)) :
    (doorbellPageWrite q v slot fixed lost).run d = (ringFetch n fixed lost).run d := by
  simp only [doorbellPageWrite, Eff.run_obs, hp, hs]

theorem run_doorbellPageWrite_seq {r : Nat} (hs : slotRing d (q * 512 + v) slot = some (none, r)) :
    (doorbellPageWrite q v slot fixed lost).run d = (seqTailPoll p r).run d := by
  simp only [doorbellPageWrite, Eff.run_obs, hp, hs]

end

/-! ### DB_BIND and DB_UNBIND (R494) -/

/-- The result of a binding write of `v`, and its effect, by the slot and the ring that it names. -/
def bindsSlot (v : Nat) (d : Device) : Nat × Eff :=
  if !(boundRing d (bits v 61 59) (bits v 40 36) (bits v 35 26)).any (ringOfCtx d (bits v 58 49) (bits v 35 26)) then (1, .skip)
  else if (d.dbBindAt (bits v 58 49 * 256 + bits v 48 41)).isSome then (2, .skip)
  else (0, putDbBind (bits v 58 49 * 256 + bits v 48 41)
    (some (bits v 61 59 * 32768 + bits v 40 36 * 1024 + bits v 35 26)))

/-- The same of a write that frees a slot. -/
def freesSlot (v : Nat) (d : Device) : Nat × Eff :=
  if (d.dbBindAt (bits v 58 49 * 256 + bits v 48 41)).isSome then (0, putDbBind (bits v 58 49 * 256 + bits v 48 41) none)
  else (3, .skip)

/-- What a write of STW_DB_BIND that acts through bit `b` does: its effect and its result, where the requester may bind. -/
def bindResult (rq v b : Nat) (run : Device → Nat × Eff) (d : Device) : Eff := .when (bit v b == 1)
  (.seq (if mayBind d rq (bits v 58 49) then run d else (4, .skip)).2
    (setF F.STW_DB_RESULT_result 0 (if mayBind d rq (bits v 58 49) then run d else (4, .skip)).1))

section
variable {d : Device} {rq v b : Nat} {run : Device → Nat × Eff}

theorem run_bindResult_noBit (hv : bit v b ≠ 1) : (bindResult rq v b run d).run d = d := run_whenBit_not hv _ _

variable (hv : bit v b = 1)
include hv

theorem run_bindResult_mayNot (hm : mayBind d rq (bits v 58 49) = false) :
    (bindResult rq v b run d).run d = (setF F.STW_DB_RESULT_result 0 4).run d := by
  rw [bindResult, run_whenBit hv, hm, if_neg Bool.false_ne_true, Eff.run_seq, Eff.run_skip]

theorem run_bindResult (hm : mayBind d rq (bits v 58 49) = true) {code : Nat} {e : Eff} (hr : run d = (code, e)) :
    (bindResult rq v b run d).run d = (Eff.seq e (setF F.STW_DB_RESULT_result 0 code)).run d := by
  rw [bindResult, run_whenBit hv, hm, if_pos rfl, hr]

end

section
variable {d : Device} {v c key : Nat} (hc : c = bits v 58 49) (hk : key = c * 256 + bits v 48 41)
include hc hk

theorem freesSlot_bound {x : Nat} (hx : d.dbBindAt key = some x) : freesSlot v d = (0, putDbBind key none) := by
  subst hk hc
  rw [freesSlot, hx, Option.isSome_some, if_pos rfl]

theorem freesSlot_free (hx : d.dbBindAt key = none) : freesSlot v d = (3, .skip) := by
  subst hk hc
  rw [freesSlot, hx, Option.isSome_none, if_neg Bool.false_ne_true]

variable {mine : Bool} (hm : mine = (boundRing d (bits v 61 59) (bits v 40 36) (bits v 35 26)).any
  (ringOfCtx d c (bits v 35 26)))
include hm

theorem bindsSlot_eq : bindsSlot v d = if !mine then (1, .skip) else if (d.dbBindAt key).isSome then (2, .skip)
    else (0, putDbBind key (some (bits v 61 59 * 32768 + bits v 40 36 * 1024 + bits v 35 26))) := by
  subst hm hk hc
  rfl

theorem bindsSlot_notMine (hf : mine = false) : bindsSlot v d = (1, .skip) := by
  rw [bindsSlot_eq hc hk hm, hf, Bool.not_false, if_pos rfl]

theorem bindsSlot_taken (ht : mine = true) {x : Nat} (hx : d.dbBindAt key = some x) : bindsSlot v d = (2, .skip) := by
  rw [bindsSlot_eq hc hk hm, ht, hx, Bool.not_true, if_neg Bool.false_ne_true, Option.isSome_some, if_pos rfl]

theorem bindsSlot_free (ht : mine = true) (hx : d.dbBindAt key = none) : bindsSlot v d =
    (0, putDbBind key (some (bits v 61 59 * 32768 + bits v 40 36 * 1024 + bits v 35 26))) := by
  rw [bindsSlot_eq hc hk hm, ht, hx, Bool.not_true, if_neg Bool.false_ne_true, Option.isSome_none, if_neg Bool.false_ne_true]

end

/-! ### The commands -/

/-- A command is a write of `v` to STW_DB_BIND that acts through bit `b` and makes `run` of the slots. -/
def BindsBy (c : Instr) (rq v b : Nat) (run : Device → Nat × Eff) : Prop := ∀ s, exec c s = perform (decide (rq < 2049))
  (aonDo rq (writeAct rq .STW_DB_BIND 0 v b (.obs (bindResult rq v b run)))) s

theorem dbBind_bindsBy (rq v : Nat) : BindsBy (.dbBind rq v) rq v 63 (bindsSlot v) := fun _ => rfl

theorem dbUnbind_bindsBy (rq v : Nat) : BindsBy (.dbUnbind rq v) rq v 62 (freesSlot v) := fun _ => rfl

/-- Each of the two commands binds by its own bit. -/
theorem exists_bindsBy {rq v b : Nat} {c : Instr} (h : (c, b) ∈ [(.dbBind rq v, 63), (Instr.dbUnbind rq v, 62)]) :
    ∃ run, BindsBy c rq v b run := by
  rcases List.mem_pair.1 h with h | h <;> cases h
  · exact ⟨_, dbBind_bindsBy rq v⟩
  · exact ⟨_, dbUnbind_bindsBy rq v⟩

section
variable {s : State} {d : Device}

theorem Gives.of_skip_seq {c : Instr} {e : Eff} (h : Gives c s d (.seq .skip e)) : Gives c s d e :=
  h.of_run (by rw [Eff.run_seq, Eff.run_skip])

theorem gives_doorbellPageWrite {q v slot : Nat} (hq : q < 2) (hv : v < 512) (hs : slot < 256)
    (h : Asks s (rqOf (q * 1024 + v + 1)) d) (fixed lost : List Nat) :
    Gives (.doorbellPageWrite q v slot fixed lost) s d (doorbellPageWrite q v slot fixed lost) :=
  gives_hostDo (by simp [hq, hv, hs]) h rfl

variable {rq v b : Nat} {c : Instr} {run : Device → Nat × Eff} (hc : BindsBy c rq v b run)
include hc

theorem BindsBy.gives (h : WritesAon s rq .STW_DB_BIND 0 v b d) : Gives c s d (bindResult rq v b run d) :=
  (gives_writesAon (decide_eq_true h.asks.lt) h (hc s)).of_run (Eff.run_obs _ _)

theorem BindsBy.gives_denied (h : AsksAon s rq d) (hb : bit (mayWrite d rq .STW_DB_BIND 0) b ≠ 1) : Gives c s d denied :=
  (gives_aonDo (decide_eq_true h.lt) h (hc s)).of_run (by rw [writeAct, Eff.run_obs, if_neg (mt beq_iff_eq.1 hb)])

end

/-- Settles O52: a page write goes by the context's partition and by the ring its slot is bound to; a binding write by the right to
the register and to the context's slots, then by the ring and the slot it names, with result 1 for the kinds that R494 does not list
(log entries 109 and 121). -/
theorem doorbellPages : Obligations.DoorbellPages := by
  refine ⟨fun s d q v slot c fixed lost hq hv hs h hc => ?_, fun s d rq v b c hc => ?_,
    fun s d rq v c key mine h hv hc hm hk hmine => ?_, fun s d rq v c key h hv hc hm hk => ?_⟩
  · subst hc
    have hg := gives_doorbellPageWrite hq hv hs h fixed lost
    exact ⟨fun hp => hg.of_run (run_doorbellPageWrite_unbound hp), fun p hp hr => hg.of_run (run_doorbellPageWrite_counts hp hr),
      fun p n r hp hr => hg.of_run (run_doorbellPageWrite_ring hp hr),
      fun p r hp hr => hg.of_run (run_doorbellPageWrite_seq hp hr)⟩
  · obtain ⟨run, hr⟩ := exists_bindsBy hc
    exact ⟨hr.gives_denied, fun h => ⟨fun hv => (hr.gives h).of_run (run_bindResult_noBit hv),
      fun hv hm => (hr.gives h).of_run (run_bindResult_mayNot hv hm)⟩⟩
  · have hg {code : Nat} {e : Eff} (hr : bindsSlot v d = (code, e)) :
        Gives (.dbBind rq v) s d (.seq e (setF F.STW_DB_RESULT_result 0 code)) :=
      ((dbBind_bindsBy rq v).gives h).of_run (run_bindResult hv (hc ▸ hm) hr)
    exact ⟨fun hf => (hg (bindsSlot_notMine hc hk hmine hf)).of_skip_seq,
      fun x ht hx => (hg (bindsSlot_taken hc hk hmine ht hx)).of_skip_seq, fun ht hx => hg (bindsSlot_free hc hk hmine ht hx)⟩
  · have hg {code : Nat} {e : Eff} (hr : freesSlot v d = (code, e)) :
        Gives (.dbUnbind rq v) s d (.seq e (setF F.STW_DB_RESULT_result 0 code)) :=
      ((dbUnbind_bindsBy rq v).gives h).of_run (run_bindResult hv (hc ▸ hm) hr)
    exact ⟨fun x hx => hg (freesSlot_bound hc hk hx), fun hx => (hg (freesSlot_free hc hk hx)).of_skip_seq⟩

end Sys2Proof.Machine
end

section
/-! PROOFS. The link layer of a port: admission, acknowledgements, replays, lanes and time-outs (R300 to R305). -/

namespace Sys2Proof.Machine

/- As in the tests, one theorem after another: each one elaborated beside others holds a thread's stack. -/
set_option Elab.async false

section
variable {d : Device} {i : Nat}

/-! ### PACKET_ADMIT (R303) -/

section
variable {vc : Nat}

theorem run_packetAdmit_empty (hq : d.egressAt (i * 8 + vc) = []) : (packetAdmit i vc).run d = d := by
  simp only [packetAdmit, Eff.run_obs, hq, Eff.run_skip]

variable {p : Packet} {rest : List Packet} (hq : d.egressAt (i * 8 + vc) = p :: rest)
include hq

theorem run_packetAdmit (hu : linkUp d i = true) (hc : p.length ≤ credits (d.portsAt i) vc)
    (hr : (d.portsAt i).sent < (d.portsAt i).acked + 256) : (packetAdmit i vc).run d = (Eff.all [
      putEgress (i * 8 + vc) rest,
      putPorts i { d.portsAt i with
        sent := (d.portsAt i).sent + p.length
        inFlight := (d.portsAt i).inFlight ++ [((d.portsAt i).sent, { p with via := none })]
        used := addAt (d.portsAt i).used vc p.length },
      transmit i, freeVia p]).run d := by
  have hr' : decide ((d.portsAt i).sent < (d.portsAt i).acked + retryBuffer) = true := decide_eq_true hr
  simp only [packetAdmit, Eff.run_obs, hq, hu, decide_eq_true hc, hr', Bool.and_self, Eff.when_true]

theorem run_packetAdmit_waits (h : linkUp d i = false ∨ credits (d.portsAt i) vc < p.length ∨
    (d.portsAt i).acked + 256 ≤ (d.portsAt i).sent) : (packetAdmit i vc).run d = d := by
  have hc : (linkUp d i && decide (p.length ≤ credits (d.portsAt i) vc) &&
      decide ((d.portsAt i).sent < (d.portsAt i).acked + retryBuffer)) = false := by
    rcases h with h | h | h
    · rw [h, Bool.false_and, Bool.false_and]
    · rw [decide_eq_false (Nat.not_le.2 h), Bool.and_false, Bool.false_and]
    · rw [decide_eq_false (p := _ < _ + retryBuffer) (Nat.not_lt.2 h), Bool.and_false]
  simp only [packetAdmit, Eff.run_obs, hq, hc, Eff.when_false, Eff.run_skip]

end

/-! ### CONTROL_FLIT (R304) -/

section
variable {ack corrected n : Nat} {cr : List Nat}
  (hn : n = (d.portsAt i).acked + (ack % 4096 + 4096 - (d.portsAt i).acked % 4096) % 4096)
include hn

theorem run_controlFlit (hu : linkUp d i = true) (hl : cr.length = 8) (ho : n ≤ (d.portsAt i).out) :
    (controlFlit i ack cr corrected).run d = (Eff.all [
      putPorts i { d.portsAt i with
        acked := n
        inFlight := (d.portsAt i).inFlight.filter fun e => n < e.1 + e.2.length
        returned := cr
        nak := if bit ack 15 == 1 then some n else (d.portsAt i).nak
        corrected := ((d.portsAt i).corrected + corrected) % 1024 },
      addSat F.LNK_PORT_ERR_corrected i (((d.portsAt i).corrected + corrected) / 1024), transmit i]).run d := by
  simp only [controlFlit, Eff.run_obs, ackedCount, ← hn, hu, beq_iff_eq.2 hl, decide_eq_true ho, Bool.and_self, Eff.when_true]

theorem run_controlFlit_ignored (h : linkUp d i = false ∨ cr.length ≠ 8 ∨ (d.portsAt i).out < n) :
    (controlFlit i ack cr corrected).run d = d := by
  have hc : (linkUp d i && cr.length == 8 && decide (n ≤ (d.portsAt i).out)) = false := by
    rcases h with h | h | h
    · rw [h, Bool.false_and, Bool.false_and]
    · rw [beq_false_of_ne h, Bool.and_false, Bool.false_and]
    · rw [decide_eq_false (Nat.not_le.2 h), Bool.and_false]
  simp only [controlFlit, Eff.run_obs, ackedCount, ← hn, hc, Eff.when_false, Eff.run_skip]

end

/-! ### RETRY_REPLAY and UNCORRECTABLE_CODEWORD (R305) -/

theorem run_retryReplay {n : Nat} (hu : linkUp d i = true) (hn : (d.portsAt i).nak = some n) :
    (retryReplay i).run d = (Eff.all [
      modSent (· ++ (flitRun (d.portsAt i) n (d.portsAt i).out).map fun e => .packet i e.1 e.2),
      putPorts i { d.portsAt i with nak := none }, addSat F.LNK_PORT_RETRY_replays i 1]).run d := by
  simp only [retryReplay, Eff.run_obs, hn, hu, Eff.when_true]

theorem run_retryReplay_none (h : linkUp d i = false ∨ (d.portsAt i).nak = none) : (retryReplay i).run d = d := by
  rcases hn : (d.portsAt i).nak with _ | n
  · simp only [retryReplay, Eff.run_obs, hn, Eff.run_skip]
  · have hu : linkUp d i = false := h.resolve_right (by simp [hn])
    simp only [retryReplay, Eff.run_obs, hn, hu, Eff.when_false, Eff.run_skip]

theorem run_uncorrectableCodeword (hu : linkUp d i = true) (k : Nat) : (uncorrectableCodeword i k).run d = (Eff.all [
    addSat F.LNK_PORT_ERR_uncorrected i 1, modPorts i (fun q => { q with partialFlits := k }), sendControl i true]).run d := by
  rw [uncorrectableCodeword, Eff.run_obs, hu, Eff.when_true]

theorem run_uncorrectableCodeword_down (hu : linkUp d i = false) (k : Nat) : (uncorrectableCodeword i k).run d = d := by
  rw [uncorrectableCodeword, Eff.run_obs, hu, Eff.when_false, Eff.run_skip]

/-! ### LANE_SWITCH (R300, R328) and LINK_DOWN_TIMEOUT (R304) -/

/-- The spare lane can take the place of another: the module has one, and it is neither in use nor bad. -/
def spareFree (d : Device) (i : Nat) : Bool :=
  d.fld F.LNK_PORT_STATUS_no_spare i != 1 && d.fld F.LNK_PORT_STATUS_spare_used i != 1 && !(d.portsAt i).spareBad

theorem run_laneSwitch (lane : Nat) (failed : Bool) : (laneSwitch i lane failed).run d = (Eff.when (linkUp d i) <|
    if spareFree d i then .all [setF F.LNK_PORT_STATUS_spare_used i 1, setF F.LNK_PORT_STATUS_spare_for i lane,
      addSat F.LNK_PORT_RETRY_lane_switches i 1]
    else .when failed (linkDown i 3)).run d := by
  have hs : (d.fld F.LNK_PORT_STATUS_no_spare i == 1 || d.fld F.LNK_PORT_STATUS_spare_used i == 1 || (d.portsAt i).spareBad) =
      !spareFree d i := by
    simp only [spareFree, Bool.not_and, Bool.not_not, bne]
  rw [laneSwitch, Eff.run_obs]
  dsimp only
  rw [hs]
  cases spareFree d i <;> rfl

section
variable {lane : Nat} {failed : Bool}

theorem run_laneSwitch_spare (hu : linkUp d i = true) (hf : spareFree d i = true) : (laneSwitch i lane failed).run d = (Eff.all [
    setF F.LNK_PORT_STATUS_spare_used i 1, setF F.LNK_PORT_STATUS_spare_for i lane,
    addSat F.LNK_PORT_RETRY_lane_switches i 1]).run d := by
  rw [run_laneSwitch, hu, hf, if_pos rfl, Eff.when_true]

theorem run_laneSwitch_failed (hu : linkUp d i = true) (hf : spareFree d i = false) :
    (laneSwitch i lane true).run d = (linkDown i 3).run d := by
  rw [run_laneSwitch, hu, hf, if_neg Bool.false_ne_true, Eff.when_true, Eff.when_true]

theorem run_laneSwitch_none (h : linkUp d i = false ∨ (spareFree d i = false ∧ failed = false)) :
    (laneSwitch i lane failed).run d = d := by
  rw [run_laneSwitch]
  rcases h with h | ⟨hs, hf⟩
  · rw [h, Eff.when_false, Eff.run_skip]
  · rw [hs, hf, if_neg Bool.false_ne_true, Eff.when_false, Eff.run_when, Eff.run_skip, ite_self]

end

theorem run_linkDownTimeout (hu : linkUp d i = true) : (linkDownTimeout i).run d = (linkDown i 7).run d := by
  rw [linkDownTimeout, Eff.run_obs, hu, Eff.when_true]

theorem run_linkDownTimeout_down (hu : linkUp d i = false) : (linkDownTimeout i).run d = d := by
  rw [linkDownTimeout, Eff.run_obs, hu, Eff.when_false, Eff.run_skip]

end

/-! ### The commands -/

/-- An effect followed by another, by what the first comes to. -/
theorem run_seq_of_run {a a' : Eff} {d : Device} (h : a.run d = a'.run d) (b : Eff) :
    (Eff.seq a b).run d = (Eff.seq a' b).run d := by
  rw [Eff.run_seq, Eff.run_seq, h]

theorem run_seq_of_unchanged {a : Eff} {d : Device} (h : a.run d = d) (b : Eff) : (Eff.seq a b).run d = b.run d := by
  rw [Eff.run_seq, h]

section
variable {s : State} {i : Nat} (hi : i < 96) (hp : powered s.dev = true)
include hi hp

theorem does_packetAdmit {vc : Nat} (hv : vc < 8) : Does (.packetAdmit i vc) s (packetAdmit i vc) :=
  does_whileIt (by simp [hi, hv]) hp rfl

theorem does_controlFlit {ack : Nat} {cr : List Nat} (ha : ack < 65536) (hc : cr.all (· < 65536) = true) (corrected : Nat) :
    Does (.controlFlit i ack cr corrected) s (controlFlit i ack cr corrected) :=
  does_whileIt (by rw [decide_eq_true hi, decide_eq_true ha, hc, Bool.and_self, Bool.and_self]) hp rfl

theorem does_retryReplay : Does (.retryReplay i) s (retryReplay i) := does_whileIt (decide_eq_true hi) hp rfl

theorem does_uncorrectableCodeword {k : Nat} (hk : k < 257) : Does (.uncorrectableCodeword i k) s (uncorrectableCodeword i k) :=
  does_whileIt (by simp [hi, hk]) hp rfl

theorem does_laneSwitch {lane : Nat} (hl : lane < 8) (failed : Bool) :
    Does (.laneSwitch i lane failed) s (.seq (laneSwitch i lane failed) linksChanged) :=
  does_whileIt (by simp [hi, hl]) hp rfl

theorem does_linkDownTimeout : Does (.linkDownTimeout i) s (.seq (linkDownTimeout i) linksChanged) :=
  does_whileIt (decide_eq_true hi) hp rfl

end

/-- Settles O32: each command goes by whether the link is up, then by what its queue, its buffer or its spare lane leaves room for. A
link that times out goes down with reason 7 (log entry 73), and the flits freed go into a control flit, in which the corrected
codewords come as an operand (log entry 137). -/
theorem linkLayer : Obligations.LinkLayer := by
  refine ⟨fun s i vc hi hv hp => ?_, fun s i ack corrected n cr hi ha hc hp hn => ?_, fun s i hi hp => ?_,
    fun s i k hi hk hp => ?_, fun s i lane failed free hi hl hp hf => ?_, fun s i hi hp => ?_⟩
  · have hx := does_packetAdmit hi hp hv
    exact ⟨fun p rest hq => ⟨fun hu hc hr => hx.of_run (run_packetAdmit hq hu hc hr),
      fun h => hx.of_run (run_packetAdmit_waits hq h)⟩, fun hq => hx.of_run (run_packetAdmit_empty hq)⟩
  · have hx := does_controlFlit hi hp ha hc corrected
    exact ⟨fun hu hl ho => hx.of_run (run_controlFlit hn hu hl ho), fun h => hx.of_run (run_controlFlit_ignored hn h)⟩
  · have hx := does_retryReplay hi hp
    exact ⟨fun n hu hn => hx.of_run (run_retryReplay hu hn), fun h => hx.of_run (run_retryReplay_none h)⟩
  · have hx := does_uncorrectableCodeword hi hp hk
    exact ⟨fun hu => hx.of_run (run_uncorrectableCodeword hu k), fun hu => hx.of_run (run_uncorrectableCodeword_down hu k)⟩
  · subst hf
    have hx := does_laneSwitch hi hp hl failed
    refine ⟨fun hu hf => hx.of_run ?_, fun hu hf hfail => hx.of_run ?_,
      fun h => hx.of_run (run_seq_of_unchanged (run_laneSwitch_none h) _)⟩
    · rw [Eff.run_seq, run_laneSwitch_spare hu hf]
      simp only [Eff.run_all_cons, Eff.run_all_nil]
    · subst hfail
      exact run_seq_of_run (run_laneSwitch_failed hu hf) _
  · have hx := does_linkDownTimeout hi hp
    exact ⟨fun hu => hx.of_run (run_seq_of_run (run_linkDownTimeout hu) _),
      fun hu => hx.of_run (run_seq_of_unchanged (run_linkDownTimeout_down hu) _)⟩

end Sys2Proof.Machine
end

section
/-! PROOFS. Packets that arrive over a link (R299, R305, R312). -/

namespace Sys2Proof.Machine

/- As in the tests, one theorem after another: each one elaborated beside others holds a thread's stack. -/
set_option Elab.async false

section
variable {s : State} {d : Device} {i seq : Nat} {bs : List Byte} {c : Instr} {p : Packet} {mine : Device → Packet → Bool}
  {act : Packet → Eff} {ok : Bool}

/-! ### A packet is in order and whole, or is discarded (R305) -/

theorem run_packetFrom_discarded (h : linkUp d i = false ∨ seq ≠ (d.portsAt i).received % 4096) :
    (packetFrom i seq bs mine act).run d = d := by
  have hc : (linkUp d i && seq == (d.portsAt i).received % 4096) = false := by
    rcases h with h | h
    · rw [h, Bool.false_and]
    · rw [beq_false_of_ne h, Bool.and_false]
  simp only [packetFrom, Eff.run_obs, hc, Eff.when_false, Eff.run_skip]

theorem run_packetFrom_badFlit {k : Nat} (hu : linkUp d i = true) (hs : seq = (d.portsAt i).received % 4096)
    (hb : badFlit bs = some k) : (packetFrom i seq bs mine act).run d = (uncorrectableCodeword i k).run d := by
  simp only [packetFrom, Eff.run_obs, hu, beq_iff_eq.2 hs, hb, Bool.and_self, Eff.when_true]

/-- A packet that comes in order, but that the command does not handle, is left alone. -/
theorem run_packetFrom_notMine (h : Comes s i seq bs p d) (hm : mine s.dev p = false) :
    (packetFrom i seq bs mine act).run s.dev = s.dev := by
  simp only [packetFrom, Eff.run_obs, h.up, h.packet_eq, h.order, h.sound, hm, beq_self_eq_true, Bool.and_self, Bool.and_false,
    Eff.when_true, Eff.when_false, Eff.run_skip]

/-! ### What a command makes of a packet that it handles -/

variable (hok : ok = true)
include hok

theorem gives_packetFrom (h : Comes s i seq bs p d) (hm : mine s.dev p = true)
    (hc : exec c s = perform ok (whileIt powered (packetFrom i seq bs mine act)) s) : Gives c s d (act p) := by
  rw [Gives, hc, perform_ok hok, run_packetFrom h hm]

variable (h : Arrives s i seq bs p d)
include h

theorem gives_packetIn (hm : mine s.dev p = true)
    (hc : exec c s = perform ok (whileIt powered (packetIn i seq bs mine act)) s) : Gives c s d (act p) := by
  rw [Gives, hc, perform_ok hok, run_packetIn h hm]

theorem does_packetIn_notMine (hm : mine s.dev p = false)
    (hc : exec c s = perform ok (whileIt powered (packetIn i seq bs mine act)) s) : Does c s .skip := by
  obtain ⟨d0, h0, -⟩ := h
  exact (does_whileIt hok h0.powered hc).of_run (run_packetFrom_notMine h0 hm)

end

end Sys2Proof.Machine
end

section
/-! PROOFS. Failover of links, and link sites (R306, R307). -/

namespace Sys2Proof.Machine

/- As in the tests, one theorem after another: each one elaborated beside others holds a thread's stack. -/
set_option Elab.async false

/-! ### FAILOVER_PACKET and GROUP_FAILOVER (R306) -/

/-- A kind 8 packet of a message that names a port of the device is one that the message's command handles (log entry 23). -/
def failoverFor (msg : Nat) (p : Packet) : Bool := p.kind == 8 && num p.body 0 1 == msg && num p.body 1 1 < 96

theorem failoverFor_eq_true {msg dead : Nat} {p : Packet} (hk : p.kind = 8) (hm : num p.body 0 1 = msg)
    (hd : dead = num p.body 1 1) (hl : dead < 96) : failoverFor msg p = true := by
  subst hd
  simp [failoverFor, hk, hm, hl]

/-- What FAILOVER_PACKET makes of a request for the count of port `dead`. -/
def returnCount (i dead : Nat) (p : Packet) (d : Device) : Eff := .all [
  modPorts dead (fun q => { q with partialFlits := 0 }),
  .when (linkUp d dead) (linkDown dead 7),
  enqueue (groupName d i) (groupUp d i) {
    kind := 8, dst := p.src, src := d.fld F.LNK_DEVICE_id 0,
    body := toLE 1 2 ++ toLE 1 (d.fld F.LNK_PORT_NBR_far_port dead) ++ toLE 2 ((d.portsAt dead).received % 4096) }]

/-- What GROUP_FAILOVER makes of a reply that port `dead` received the flits up to count `n` in order. -/
def moveOver (dead n : Nat) (d : Device) : Eff := .all [
  .each (List.range 8) (fun v => putEgress (dead * 8 + v) []),
  putPorts dead { d.portsAt dead with inFlight := [], nak := none },
  .each (((d.portsAt dead).inFlight.filter fun e => n < e.1 + e.2.length).map (·.2) ++
      (List.range 8).flatMap fun v => d.egressAt (dead * 8 + v))
    (fun p => .obs fun d' => enqueue (groupName d' dead) (groupUp d' dead) p),
  addSat F.LNK_PORT_RETRY_failovers dead 1]

section
variable {s : State} {d : Device} {i seq : Nat} {bs : List Byte} {p : Packet} (h : Arrives s i seq bs p d)
include h

theorem gives_failoverPacket (hm : failoverFor 1 p = true) :
    Gives (.failoverPacket i seq bs) s d (.seq (returnCount i (num p.body 1 1) p d) linksChanged) := by
  have hx : Does (.failoverPacket i seq bs) s (.seq (packetIn i seq bs (fun _ => failoverFor 1) fun p =>
      .obs (returnCount i (num p.body 1 1) p)) linksChanged) := does_whileIt h.ok h.powered rfl
  refine hx.of_run ?_
  rw [Eff.run_seq, ← run_whileIt h.powered (packetIn ..), run_packetIn h hm, Eff.run_obs, Eff.run_seq]

theorem gives_groupFailover (hm : failoverFor 2 p = true) :
    Gives (.groupFailover i seq bs) s d (moveOver (num p.body 1 1) (ackedCount (d.portsAt (num p.body 1 1)) (num p.body 2 2)) d) :=
  (gives_packetIn (mine := fun _ => failoverFor 2)
    (act := fun p => .obs fun d => moveOver (num p.body 1 1) (ackedCount (d.portsAt (num p.body 1 1)) (num p.body 2 2)) d)
    h.ok h hm rfl).of_run (Eff.run_obs _ _)

end

/-! ### LINK_SITE_FAIL and SITE_RETRAIN_DONE (R307) -/

section
variable {d : Device} {site : Nat}

/-- The site of a link fails: it is retired, its link goes down, and its binding to a spare site ends. -/
def siteLost (d : Device) (site i : Nat) : Eff := .all [putRetired (siteKey 9 site) true, putApplied (siteKey 9 site) true,
  .when (linkUp d i) (linkDown i 8), setF F.LNK_PORT_STATUS_reason i 8,
  putRetired (linkBind i 0) false, putRetired (linkBind i 1) false]

theorem run_linkSiteFail_unused (h : (List.range 96).find? (fun i => linkSite d i == site) = none) :
    (linkSiteFail site).run d =
      (Eff.all [putRetired (siteKey 9 site) true, putApplied (siteKey 9 site) true, saveSpare]).run d := by
  simp only [linkSiteFail, Eff.run_obs, h, Eff.run_all_cons, Eff.run_all_nil, Eff.run_skip]

variable {d' : Device} {i : Nat} (h : (List.range 96).find? (fun i => linkSite d i == site) = some i)
  (hd : (siteLost d site i).run d = d')
include h hd

theorem run_linkSiteFail_spare {k : Nat} (hk : freeLinkSite d' (site / 26) = some k) : (linkSiteFail site).run d =
    (Eff.all [putRetired (linkBind i k) true, setF F.LNK_PORT_STATUS_site i (site / 26 * 26 + 24 + k),
      setF F.LNK_PORT_STATUS_state i 1, saveSpare]).run d' := by
  subst hd
  simp only [siteLost, Eff.run_all_cons, Eff.run_all_nil] at hk ⊢
  simp only [linkSiteFail, Eff.run_obs, h, Eff.run_all_cons, Eff.run_all_nil, Eff.run_each_cons, Eff.run_each_nil, hk]

theorem run_linkSiteFail_noSpare (hk : freeLinkSite d' (site / 26) = none) : (linkSiteFail site).run d =
    (Eff.all [setF F.LNK_PORT_STATUS_state i 3, saveSpare]).run d' := by
  subst hd
  simp only [siteLost, Eff.run_all_cons, Eff.run_all_nil] at hk ⊢
  simp only [linkSiteFail, Eff.run_obs, h, Eff.run_all_cons, Eff.run_all_nil, Eff.run_each_cons, Eff.run_each_nil, hk]

end

/-- The state and the reason of a port are not both those that a command waits for. -/
theorem beq_and_beq_eq_false {a b x y : Nat} (h : a ≠ x ∨ b ≠ y) : (a == x && b == y) = false := by
  rcases h with h | h
  · rw [beq_false_of_ne h, Bool.false_and]
  · rw [beq_false_of_ne h, Bool.and_false]

section
variable {d : Device} {i : Nat}

theorem run_siteRetrainDone (hs : d.fld F.LNK_PORT_STATUS_state i = 1) (hr : d.fld F.LNK_PORT_STATUS_reason i = 8) :
    (siteRetrainDone i).run d = (portUp i).run d := by
  rw [siteRetrainDone, Eff.run_obs, hs, hr, beq_self_eq_true, beq_self_eq_true, Bool.and_self, Eff.when_true]

theorem run_siteRetrainDone_none (h : d.fld F.LNK_PORT_STATUS_state i ≠ 1 ∨ d.fld F.LNK_PORT_STATUS_reason i ≠ 8) :
    (siteRetrainDone i).run d = d := by
  rw [siteRetrainDone, Eff.run_obs, beq_and_beq_eq_false h, Eff.when_false, Eff.run_skip]

end

section
variable {s : State} (hp : powered s.dev = true)
include hp

theorem does_linkSiteFail {site : Nat} (hs : site < 104) :
    Does (.linkSiteFail site) s (.seq (linkSiteFail site) linksChanged) :=
  does_whileIt (decide_eq_true hs) hp rfl

theorem does_siteRetrainDone {i : Nat} (hi : i < 96) : Does (.siteRetrainDone i) s (siteRetrainDone i) :=
  does_whileIt (decide_eq_true hi) hp rfl

end

/-- Settles O33: a packet goes by the message in its body and the port that it names, the failure of a site by the link it serves and
the spare sites of its die. The body of a failover packet and reason 7 are log entry 23. -/
theorem linkFailover : Obligations.LinkFailover := by
  refine ⟨fun s d i seq dead bs p h hk hm hd hl => ?_, fun s d i seq dead n bs p h hk hm hd hl hn => ?_,
    fun s site hs hp => ⟨fun d i hi hd => ⟨fun k hk => ?_, fun hk => ?_⟩, fun hi => ?_⟩, fun s i hi hp => ?_⟩
  · have hg := gives_failoverPacket h (failoverFor_eq_true hk hm hd hl)
    rw [← hd] at hg
    refine hg.of_run ?_
    simp only [returnCount, Eff.run_seq, Eff.run_all_cons, Eff.run_all_nil]
  · have hg := gives_groupFailover h (failoverFor_eq_true hk hm hd hl)
    rw [← hd, ackedCount, ← hn] at hg
    exact hg
  · refine (does_linkSiteFail hp hs).of_run ?_
    rw [Eff.run_seq, run_linkSiteFail_spare hi hd hk]
    simp only [Eff.run_all_cons, Eff.run_all_nil]
  · refine (does_linkSiteFail hp hs).of_run ?_
    rw [Eff.run_seq, run_linkSiteFail_noSpare hi hd hk]
    simp only [Eff.run_all_cons, Eff.run_all_nil]
  · refine (does_linkSiteFail hp hs).of_run ?_
    rw [Eff.run_seq, run_linkSiteFail_unused hi]
    simp only [Eff.run_all_cons, Eff.run_all_nil]
  · have hx := does_siteRetrainDone hp hi
    exact ⟨fun hs hr => hx.of_run (run_siteRetrainDone hs hr), fun h => hx.of_run (run_siteRetrainDone_none h)⟩

end Sys2Proof.Machine
end

section
/-! PROOFS. What packets that arrive in order do (R309 to R312, R470). -/

namespace Sys2Proof.Machine

/- As in the tests, one theorem after another: each one elaborated beside others holds a thread's stack. -/
set_option Elab.async false

/-! ### The commands of arriving packets (R305) -/

/-- The commands of arriving packets that a powered device handles. -/
def poweredReceptions (i seq : Nat) (bs : List Byte) : List Instr :=
  [.groupFailover i seq bs, .packetForward i seq bs, .linkWriteReceive i seq bs, .linkCueReceive i seq bs, .endToEndAck i seq bs,
    .refusal i seq bs, .suspect i seq bs, .reform i seq bs, .reformAck i seq bs, .colCommit i seq bs, .colAbort i seq bs,
    .exclude i seq bs]

section
variable {i seq : Nat} {bs : List Byte} {c : Instr}

/-- A command hands the packets that arrive over the link in order to some action, where it handles them, while `guard` holds. -/
def Receives (c : Instr) (i seq : Nat) (bs : List Byte) (guard : Device → Bool) : Prop :=
  ∃ mine act, ∀ s, exec c s = perform (decide (i < 96) && decide (seq < 4096) && decide (bs.length < 66050))
    (whileIt guard (packetFrom i seq bs mine act)) s

/-- A command receives packets where its effect is that of an arriving packet. -/
theorem receives_of_exec {guard : Device → Bool} {e : Eff}
    (hc : ∀ s, exec c s = perform (decide (i < 96) && decide (seq < 4096) && decide (bs.length < 66050)) (whileIt guard e) s)
    (he : ∃ mine act, e = packetFrom i seq bs mine act) : Receives c i seq bs guard := by
  obtain ⟨mine, act, rfl⟩ := he
  exact ⟨mine, act, hc⟩

theorem exists_packetIn (mine : Device → Packet → Bool) (act : Packet → Eff) :
    ∃ m a, packetIn i seq bs mine act = packetFrom i seq bs m a := ⟨_, _, rfl⟩

theorem exists_colPacket (msg : Nat) (act : Nat → Packet → Eff) :
    ∃ m a, colPacket i seq msg bs act = packetFrom i seq bs m a := exists_packetIn _ _

theorem receives_powered (h : c ∈ poweredReceptions i seq bs) : Receives c i seq bs powered := by
  simp only [poweredReceptions, List.mem_cons, List.not_mem_nil, or_false] at h
  rcases h with rfl | rfl | rfl | rfl | rfl | rfl | rfl | rfl | rfl | rfl | rfl | rfl
  · exact receives_of_exec (e := groupFailover i seq bs) (fun _ => rfl) (exists_packetIn _ _)
  · exact receives_of_exec (e := packetForward i seq bs) (fun _ => rfl) ⟨_, _, rfl⟩
  · exact receives_of_exec (e := linkWriteReceive i seq bs) (fun _ => rfl) (exists_packetIn _ _)
  · exact receives_of_exec (e := linkCueReceive i seq bs) (fun _ => rfl) (exists_packetIn _ _)
  · exact receives_of_exec (e := endToEndAck i seq bs) (fun _ => rfl) (exists_packetIn _ _)
  · exact receives_of_exec (e := refusalReceive i seq bs) (fun _ => rfl) (exists_packetIn _ _)
  · exact receives_of_exec (e := suspectIn i seq bs) (fun _ => rfl) (exists_colPacket _ _)
  · exact receives_of_exec (e := reformIn i seq bs) (fun _ => rfl) (exists_colPacket _ _)
  · exact receives_of_exec (e := reformAck i seq bs) (fun _ => rfl) (exists_colPacket _ _)
  · exact receives_of_exec (e := colCommit i seq bs) (fun _ => rfl) (exists_colPacket _ _)
  · exact receives_of_exec (e := colAbort i seq bs) (fun _ => rfl) (exists_colPacket _ _)
  · exact receives_of_exec (e := excludeIn i seq bs) (fun _ => rfl) (exists_colPacket _ _)

theorem receives_working (h : c ∈ [.colReady i seq bs, Instr.colData i seq bs]) : Receives c i seq bs working := by
  rcases List.mem_pair.1 h with rfl | rfl
  · exact receives_of_exec (e := colReady i seq bs) (fun _ => rfl) (exists_colPacket _ _)
  · exact receives_of_exec (e := colData i seq bs) (fun _ => rfl) (exists_colPacket _ _)

theorem does_packetFrom {s : State} (hi : i < 96) (hs : seq < 4096) (hb : bs.length < 66050)
    (hc : (c ∈ poweredReceptions i seq bs ∧ powered s.dev = true) ∨
      (c ∈ [.colReady i seq bs, .colData i seq bs] ∧ working s.dev = true)) :
    ∃ mine act, Does c s (packetFrom i seq bs mine act) := by
  have hok : (decide (i < 96) && decide (seq < 4096) && decide (bs.length < 66050)) = true := by simp [hi, hs, hb]
  rcases hc with ⟨hm, hp⟩ | ⟨hm, hw⟩
  · obtain ⟨mine, act, hr⟩ := receives_powered hm
    exact ⟨mine, act, does_whileIt hok hp (hr s)⟩
  · obtain ⟨mine, act, hr⟩ := receives_working hm
    exact ⟨mine, act, does_whileIt hok hw (hr s)⟩

end

/-! ### PACKET_FORWARD (R303, R312) -/

section
variable {s : State} {d : Device} {i seq : Nat} {bs : List Byte} {p : Packet} (h : Comes s i seq bs p d) (hk : p.kind ≤ 6)
  (hl : isLocal s.dev (i / 24) p.dst = false)
include h hk hl

theorem gives_packetForward : Gives (.packetForward i seq bs) s d (.seq
    (if 65535 ≤ p.hops + 1 then .seq (freeFlits i p) (addSat F.LNK_DROPS_hop_limit 0 1)
     else forwardPacket i { p with hops := p.hops + 1 }) (sendControl i false)) :=
  gives_packetFrom (mine := fun d p => p.kind ≤ 6 && !isLocal d (i / 24) p.dst)
    (act := fun p => .seq (if 65535 ≤ p.hops + 1 then .seq (freeFlits i p) (addSat F.LNK_DROPS_hop_limit 0 1)
      else forwardPacket i { p with hops := p.hops + 1 }) (sendControl i false)) h.ok h (by simp [hk, hl]) rfl

theorem gives_packetForward_routed (hh : p.hops < 65534) : Gives (.packetForward i seq bs) s d (.all [
    .when (!hasEgress d (i / 24) p.dst) (freeFlits i p),
    routePacket (i / 24) { p with hops := p.hops + 1, via := some i }, sendControl i false]) := by
  refine (gives_packetForward h hk hl).of_run ?_
  rw [if_neg (by omega), Eff.run_seq, forwardPacket, Eff.run_obs, Eff.run_seq]
  rfl

theorem gives_packetForward_dropped (hh : 65534 ≤ p.hops) : Gives (.packetForward i seq bs) s d (.all [
    freeFlits i p, addSat F.LNK_DROPS_hop_limit 0 1, sendControl i false]) := by
  refine (gives_packetForward h hk hl).of_run ?_
  rw [if_pos (by omega), Eff.run_seq, Eff.run_seq]
  simp only [Eff.run_all_cons, Eff.run_all_nil]

end

/-! ### The checks of a packet's flow entry, in order (R310, R311, R470; log entry 72) -/

section
variable {d d' : Device} {i recv : Nat} {ack : Bool} {p : Packet} {act : Device → List Byte → Sum Nat Eff}

theorem run_checkFlow_noFlow (hf : recvFlow d p = none) : (checkFlow i recv ack p act).run d = (answer i p 1).run d := by
  simp only [checkFlow, Eff.run_obs, hf]

section
variable {k : Nat} {f : Flow} (hf : recvFlow d p = some (k, f))
include hf

theorem run_checkFlow_noRight (hr : bit f.flags recv = 0) : (checkFlow i recv ack p act).run d = (answer i p 1).run d := by
  simp only [checkFlow, Eff.run_obs, hf, hr, beq_self_eq_true, if_true]

variable (hr : bit f.flags recv = 1)
include hr

theorem run_checkFlow_oldEpoch (he : bit f.flags 4 = 1) (hp : p.epoch ≠ f.epoch) :
    (checkFlow i recv ack p act).run d = (addSat F.LNK_DROPS_epoch 0 1).run d := by
  simp only [checkFlow, Eff.run_obs, hf, hr, he, bne_iff_ne.2 hp, Nat.reduceBEq, Bool.false_eq_true, if_false, Bool.and_self,
    if_true]

variable (he : (bit f.flags 4 == 1 && p.epoch != f.epoch) = false)
include he

theorem run_checkFlow_noChannel (hc : ((p.kind != 2 || p.vc != 0) && !flowVc f p.vc) = true) :
    (checkFlow i recv ack p act).run d = (answer i p 2).run d := by
  simp only [checkFlow, Eff.run_obs, hf, hr, he, hc, Nat.reduceBEq, Bool.false_eq_true, if_false, if_true]

variable (hc : ((p.kind != 2 || p.vc != 0) && !flowVc f p.vc) = false)
include hc

theorem run_checkFlow_closed (ho : openPacket d k f p = none) :
    (checkFlow i recv ack p act).run d = (Eff.seq (countAuth d k f p) (answer i p 5)).run d := by
  simp only [checkFlow, Eff.run_obs, hf, hr, he, hc, ho, Nat.reduceBEq, Bool.false_eq_true, if_false]

theorem run_checkFlow_notRunning {data : List Byte} (ho : openPacket d k f p = some data) (hx : ctxRuns d p.dstCtx = false) :
    (checkFlow i recv ack p act).run d = (Eff.seq (acceptCounter k f p) (answer i p 4)).run d := by
  simp only [checkFlow, Eff.run_obs, hf, hr, he, hc, ho, hx, Nat.reduceBEq, Bool.false_eq_true, if_false, Bool.not_false, if_true]

end

section
variable {k : Nat} {f : Flow} {data : List Byte} (h : Admits d recv p k f data d')
include h

theorem run_checkFlow_carriedOut {e : Eff} (ha : act d data = .inr e) :
    (checkFlow i recv true p act).run d = (Eff.seq e (answer i p 0)).run d' := by
  rw [run_checkFlow h, ha]
  rfl

theorem run_checkFlow_refused {reason : Nat} (ha : act d data = .inl reason) :
    (checkFlow i recv ack p act).run d = (answer i p reason).run d' := by
  rw [run_checkFlow h, ha]

end

end

/-! ### LINK_WRITE_RECEIVE and LINK_CUE_RECEIVE (R310) -/

/-- What an admitted write does with its data, or reason 3 where not every byte may be written. -/
def landWrite (p : Packet) (d : Device) (data : List Byte) : Sum Nat Eff :=
  match translateRange d p.dstCtx p.va .write p.bytes with
  | some as => if writable as then .inr (store as data) else .inl 3
  | none => .inl 3

/-- What an admitted cue event does, or reason 4 where its context is bound to no partition. -/
def landCue (p : Packet) (d : Device) (_ : List Byte) : Sum Nat Eff :=
  match ctxPart d p.dstCtx with
  | some q => .inr (signalField q p.dstCtx p.cue)
  | none => .inl 4

section
variable {d : Device} {p : Packet}

theorem landWrite_stores {as : List Nat} (h : translateRange d p.dstCtx p.va .write p.bytes = some as)
    (hw : writable as = true) (data : List Byte) : landWrite p d data = .inr (store as data) := by
  simp only [landWrite, h, hw, if_true]

theorem landWrite_refuses (h : translateRange d p.dstCtx p.va .write p.bytes = none ∨
    ∃ as, translateRange d p.dstCtx p.va .write p.bytes = some as ∧ writable as = false) (data : List Byte) :
    landWrite p d data = .inl 3 := by
  rcases h with h | ⟨as, h, hw⟩
  · simp only [landWrite, h]
  · simp only [landWrite, h, hw, Bool.false_eq_true, if_false]

theorem landCue_signals {q : Nat} (h : ctxPart d p.dstCtx = some q) (data : List Byte) :
    landCue p d data = .inr (signalField q p.dstCtx p.cue) := by
  simp only [landCue, h]

end

section
variable {s : State} {d : Device} {i seq : Nat} {bs : List Byte} {p : Packet} (h : Arrives s i seq bs p d)
include h

theorem gives_linkWriteReceive (hm : forMe i 1 s.dev p = true) (hh : writeHeld s.dev p = false) :
    Gives (.linkWriteReceive i seq bs) s d (checkFlow i 2 true p (landWrite p)) :=
  gives_packetIn (mine := fun d p => forMe i 1 d p && !writeHeld d p) (act := fun p => checkFlow i 2 true p (landWrite p)) h.ok h
    (by rw [hm, hh, Bool.not_false, Bool.and_self]) rfl

theorem does_linkWriteReceive_held (hh : writeHeld s.dev p = true) : Does (.linkWriteReceive i seq bs) s .skip :=
  does_packetIn_notMine (mine := fun d p => forMe i 1 d p && !writeHeld d p) (act := fun p => checkFlow i 2 true p (landWrite p))
    h.ok h (by rw [hh, Bool.not_true, Bool.and_false]) rfl

theorem gives_linkCueReceive (hm : forMe i 2 s.dev p = true) :
    Gives (.linkCueReceive i seq bs) s d (checkFlow i 3 true p (landCue p)) :=
  gives_packetIn (mine := forMe i 2) (act := fun p => checkFlow i 3 true p (landCue p)) h.ok h hm rfl

/-- A write and a cue event for this device are checked against their flow entry alike. -/
theorem gives_checkFlow {kind recv : Nat} {c : Instr} (hm : forMe i kind s.dev p = true)
    (hc : (c = .linkWriteReceive i seq bs ∧ kind = 1 ∧ recv = 2 ∧ writeHeld s.dev p = false) ∨
      (c = .linkCueReceive i seq bs ∧ kind = 2 ∧ recv = 3)) : ∃ act, Gives c s d (checkFlow i recv true p act) := by
  rcases hc with ⟨rfl, rfl, rfl, hh⟩ | ⟨rfl, rfl, rfl⟩
  · exact ⟨_, gives_linkWriteReceive h hm hh⟩
  · exact ⟨_, gives_linkCueReceive h hm⟩

/-! ### END_TO_END_ACK and REFUSAL (R311) -/

theorem gives_endToEndAck (hm : forMe i 3 s.dev p = true) : Gives (.endToEndAck i seq bs) s d (ackTag p.tag) :=
  gives_packetIn (mine := forMe i 3) (act := fun p => ackTag p.tag) h.ok h hm rfl

end

/-- What a refusal does to a collective's operation on the ring its tag names: the operation it answers fails. -/
def refuseCol (tag : Nat) (d : Device) : Eff :=
  match d.colOpsAt (tagRing tag) with
  | some o => .when (o.index == tagIndex tag) (colFail (tagRing tag) o 5)
  | none => .skip

/-- What a refusal does: to a collective's operation, or to the descriptor of a transfer (R310, R311). -/
def refusalActs (p : Packet) : Eff :=
  if ringKind (tagRing p.tag) == .col then .obs (refuseCol p.tag) else failTag p.tag (refusalStatus p.reason)

section
variable {d : Device} {p : Packet}

theorem run_refusalActs_transfer (h : ringKind (tagRing p.tag) ≠ .col) :
    (refusalActs p).run d = (failTag p.tag (refusalStatus p.reason)).run d := by
  rw [refusalActs, if_neg (mt beq_iff_eq.1 h)]

variable (h : ringKind (tagRing p.tag) = .col)
include h

theorem run_refusalActs_col : (refusalActs p).run d = (refuseCol p.tag d).run d := by
  rw [refusalActs, if_pos (beq_iff_eq.2 h), Eff.run_obs]

theorem run_refusalActs_none (ho : d.colOpsAt (tagRing p.tag) = none) : (refusalActs p).run d = d := by
  simp only [run_refusalActs_col h, refuseCol, ho, Eff.run_skip]

variable {o : ColOp} (ho : d.colOpsAt (tagRing p.tag) = some o)
include ho

theorem run_refusalActs_answered (hi : o.index = tagIndex p.tag) :
    (refusalActs p).run d = (colFail (tagRing p.tag) o 5).run d := by
  simp only [run_refusalActs_col h, refuseCol, ho, beq_iff_eq.2 hi, Eff.when_true]

theorem run_refusalActs_other (hi : o.index ≠ tagIndex p.tag) : (refusalActs p).run d = d := by
  simp only [run_refusalActs_col h, refuseCol, ho, beq_false_of_ne hi, Eff.when_false, Eff.run_skip]

end

theorem gives_refusal {s : State} {d : Device} {i seq : Nat} {bs : List Byte} {p : Packet} (h : Arrives s i seq bs p d)
    (hm : forMe i 4 s.dev p = true) : Gives (.refusal i seq bs) s d (refusalActs p) :=
  gives_packetIn (mine := forMe i 4) (act := refusalActs) h.ok h hm rfl

/-- Settles O34: an arrival goes by the packet's order and parity, then by its destination and its kind; a write and a cue event by the
checks of their flow entry in the order of log entry 72, a cue event on VC0 by no channel of the entry (log entry 71); a refusal by
the kind of the ring its tag names (log entry 22). A context that runs is that of log entry 24; the flits freed go into a control flit
(log entry 137). -/
theorem packetReception : Obligations.PacketReception := by
  refine ⟨fun s i seq bs c hi hs hb hc => ?_,
    fun s d i seq bs p h hk hl => ⟨gives_packetForward_routed h hk hl, gives_packetForward_dropped h hk hl⟩,
    fun s d d' i seq k bs data p f h hm hh ha => ?_, fun s d i seq bs p h _ hh => does_linkWriteReceive_held h hh,
    fun s d d' i seq k bs data p f h hm ha q hq =>
      (gives_linkCueReceive h hm).of_run (run_checkFlow_carriedOut ha (landCue_signals hq data)),
    fun s d i seq kind recv bs p c h hm hc => ?_, fun s d i seq bs p h => ⟨gives_endToEndAck h, fun hm hr => ?_, fun hm hr => ?_⟩,
    fun s tag hp => does_whileIt rfl hp rfl⟩
  · obtain ⟨mine, act, hx⟩ := does_packetFrom hi hs hb hc
    exact ⟨fun h => hx.of_run (run_packetFrom_discarded h), fun k hu ho hk => hx.of_run (run_packetFrom_badFlit hu ho hk)⟩
  · have hg := gives_linkWriteReceive h hm hh
    exact ⟨fun as ht hw => hg.of_run (run_checkFlow_carriedOut ha (landWrite_stores ht hw data)),
      fun ht => hg.of_run (run_checkFlow_refused ha (landWrite_refuses ht data))⟩
  · have hkind : p.kind = kind := by
      rw [forMe, Bool.and_eq_true, beq_iff_eq] at hm
      exact hm.left
    obtain ⟨act, hg⟩ := gives_checkFlow h hm hc
    refine ⟨fun hf => hg.of_run (run_checkFlow_noFlow hf), fun k f hf => ⟨fun hr => hg.of_run (run_checkFlow_noRight hf hr),
      fun hr he hp => hg.of_run (run_checkFlow_oldEpoch hf hr he hp), fun hr he => ?_⟩⟩
    have he' : (bit f.flags 4 == 1 && p.epoch != f.epoch) = false := by
      rcases he with he | he
      · rw [he]
        exact Bool.false_and _
      · rw [he, bne_self_eq_false, Bool.and_false]
    refine ⟨fun hv hc => hg.of_run (run_checkFlow_noChannel hf hr he' ?_), fun hv => ?_⟩
    · rcases hv with hv | hv <;> simp [hkind, hv, hc]
    · have hc' : ((p.kind != 2 || p.vc != 0) && !flowVc f p.vc) = false := by
        rcases hv with ⟨hk, hv⟩ | hv <;> simp [*]
      exact ⟨fun ho => hg.of_run (run_checkFlow_closed hf hr he' hc' ho),
        fun data ho hx => hg.of_run (run_checkFlow_notRunning hf hr he' hc' ho hx)⟩
  · exact (gives_refusal h hm).of_run (run_refusalActs_transfer hr)
  · have hg := gives_refusal h hm
    exact ⟨fun o ho hi => hg.of_run (run_refusalActs_answered hr ho hi), fun o ho hi => hg.of_run (run_refusalActs_other hr ho hi),
      fun ho => hg.of_run (run_refusalActs_none hr ho)⟩

end Sys2Proof.Machine
end

section
/-! PROOFS. Loading the flow table (R308). -/

namespace Sys2Proof.Machine

/- As in the tests, one theorem after another: each one elaborated beside others holds a thread's stack. -/
set_option Elab.async false

section
variable {d : Device}

theorem run_flowTableLoadDone {entry : Nat → Flow} (hb : d.fld F.LNK_FLOW_CTRL_busy 0 = 1)
    (he : ∀ e, entry e = if d.poisoned (flowAddr d e) 32 then {} else flowOf (d.bytes (flowAddr d e) 32)) :
    flowTableLoadDone.run d = (Eff.all [.each (List.range 4096) (fun e => putFlows e (entry e)),
      setF F.LNK_FLOW_CTRL_valid 0 ((List.range 4096).filter fun e => bit (entry e).flags 0 == 1).length,
      setF F.LNK_FLOW_CTRL_busy 0 0]).run d := by
  obtain rfl : entry = fun e => if d.poisoned (flowAddr d e) 32 then {} else flowOf (d.bytes (flowAddr d e) 32) := funext he
  simp only [flowTableLoadDone, loadFlows, Eff.run_obs, beq_iff_eq.2 hb, Eff.when_true, Eff.run_seq, Eff.run_all_cons,
    Eff.run_all_nil]

theorem run_flowTableLoadDone_idle (hb : d.fld F.LNK_FLOW_CTRL_busy 0 ≠ 1) : flowTableLoadDone.run d = d := by
  rw [flowTableLoadDone, Eff.run_obs, beq_false_of_ne hb, Eff.when_false, Eff.run_skip]

end

section
variable {s : State} {d : Device} {rq v : Nat}

theorem does_flowTableLoadDone (hp : powered s.dev = true) : Does .flowTableLoadDone s flowTableLoadDone :=
  does_whileIt rfl hp rfl

theorem gives_flowTableSync (h : Writes s rq .LNK_FLOW_CTRL 0 v 31 d) :
    Gives (.flowTableSync rq v) s d (.when (bit v 31 == 1) (setF F.LNK_FLOW_CTRL_busy 0 1)) :=
  gives_writes (decide_eq_true h.asks.lt) h rfl

theorem gives_flowTableSync_denied (h : Asks s rq d) (hb : bit (mayWrite d rq .LNK_FLOW_CTRL 0) 31 = 0) :
    Gives (.flowTableSync rq v) s d denied :=
  (gives_hostDo (decide_eq_true h.lt) h rfl).of_run (run_writeAct_denied hb v _)

end

/-- Settles O35: a write goes by its bit and by the right to it, and the end of a load by whether one is under way; an entry that reads
poisoned is not valid (log entry 76). -/
theorem flowTable : Obligations.FlowTable :=
  ⟨fun _ _ _ _ h => ⟨fun hv => (gives_flowTableSync h).of_run (run_whenBit hv _ _),
      fun hv => (gives_flowTableSync h).of_run (run_whenBit_not (by omega) _ _)⟩,
    fun _ _ _ _ h hb => gives_flowTableSync_denied h hb,
    fun _ _ hp hb he => (does_flowTableLoadDone hp).of_run (run_flowTableLoadDone hb he),
    fun _ hp hb => (does_flowTableLoadDone hp).of_run (run_flowTableLoadDone_idle hb)⟩

end Sys2Proof.Machine
end

section
/-! PROOFS. Training of link ports (R318 to R320, R328). -/

namespace Sys2Proof.Machine

/- As in the tests, one theorem after another: each one elaborated beside others holds a thread's stack. -/
set_option Elab.async false

/-! ### What a module answers (R318, R319) -/

/-- What the board and the spare map give port `i` is stored as its training begins. -/
def trainingBegins (d : Device) (i : Nat) : Eff := .all [setF F.LNK_PORT_STATUS_role i (boardRole d i),
  setF F.LNK_PORT_STATUS_site i (linkSite d i), setF F.LNK_PORT_STATUS_spare_used i 0, setF F.LNK_PORT_STATUS_no_spare i 0,
  putNbrs i none]

/-- The port goes down with a module of a kind, for a reason. -/
def moduleFails (i kind reason : Nat) : Eff := .all [setF F.LNK_PORT_STATUS_module i kind, setF F.LNK_PORT_STATUS_state i 3,
  setF F.LNK_PORT_STATUS_reason i reason]

/-- The port trains with a module of a kind. -/
def moduleTrains (i kind : Nat) : Eff := .all [setF F.LNK_PORT_STATUS_module i kind, setF F.LNK_PORT_STATUS_state i 1,
  setF F.LNK_PORT_STATUS_reason i 0]

/-- What the record `m` of a passive assembly makes of port `i`: its check, its loss class, and whether it is a loopback plug. -/
def passiveAnswer (i : Nat) (m : List Byte) : Eff :=
  if num m 0xFC 4 != crc32c (m.take 0xFC) then moduleFails i 2 6
  else if 2 < num m 0x13 1 then moduleFails i 2 2
  else .seq (setF F.LNK_PORT_STATUS_loss_class i (num m 0x13 1))
    (if num m 5 1 == 3 then .seq (setF F.LNK_PORT_STATUS_module i 3) (setF F.LNK_PORT_STATUS_state i 4) else moduleTrains i 2)

/-- What the lanes that an active module advertises make of port `i`. -/
def activeAnswer (i : Nat) (m : List Byte) : Eff :=
  if num m 1 1 == 9 then moduleTrains i 1
  else if num m 1 1 == 8 then .seq (setF F.LNK_PORT_STATUS_no_spare i 1) (moduleTrains i 1)
  else moduleFails i 1 2

/-- What the answer `m` of its module makes of port `i`, whose role on the board is `role`. -/
def moduleAnswer (role i : Nat) (m : List Byte) : Eff :=
  if role == 15 then setF F.LNK_PORT_STATUS_state i 0
  else if m.isEmpty then moduleFails i 0 1
  else if num m 0 1 == 0x41 then passiveAnswer i m
  else activeAnswer i m

section
variable {i : Nat} {m : List Byte}

theorem passiveAnswer_checkFails (hc : num m 0xFC 4 ≠ crc32c (m.take 0xFC)) : passiveAnswer i m = moduleFails i 2 6 :=
  if_pos (bne_iff_ne.2 hc)

section
variable (hc : num m 0xFC 4 = crc32c (m.take 0xFC))
include hc

theorem passiveAnswer_lossUnknown (hl : 2 < num m 0x13 1) : passiveAnswer i m = moduleFails i 2 2 := by
  rw [passiveAnswer, if_neg (by simp [hc]), if_pos hl]

variable (hl : num m 0x13 1 ≤ 2)
include hl

theorem passiveAnswer_loopback (hk : num m 5 1 = 3) : passiveAnswer i m = .seq
    (setF F.LNK_PORT_STATUS_loss_class i (num m 0x13 1))
    (.seq (setF F.LNK_PORT_STATUS_module i 3) (setF F.LNK_PORT_STATUS_state i 4)) := by
  rw [passiveAnswer, if_neg (by simp [hc]), if_neg (Nat.not_lt.2 hl), if_pos (beq_iff_eq.2 hk)]

theorem passiveAnswer_trains (hk : num m 5 1 ≠ 3) : passiveAnswer i m = .seq
    (setF F.LNK_PORT_STATUS_loss_class i (num m 0x13 1)) (moduleTrains i 2) := by
  rw [passiveAnswer, if_neg (by simp [hc]), if_neg (Nat.not_lt.2 hl), if_neg (mt beq_iff_eq.1 hk)]

end

theorem activeAnswer_nine (h : num m 1 1 = 9) : activeAnswer i m = moduleTrains i 1 := if_pos (beq_iff_eq.2 h)

theorem activeAnswer_eight (h : num m 1 1 = 8) :
    activeAnswer i m = .seq (setF F.LNK_PORT_STATUS_no_spare i 1) (moduleTrains i 1) := by
  rw [activeAnswer, h, if_neg (by decide), if_pos (beq_self_eq_true 8)]

theorem activeAnswer_fails (h9 : num m 1 1 ≠ 9) (h8 : num m 1 1 ≠ 8) : activeAnswer i m = moduleFails i 1 2 := by
  rw [activeAnswer, if_neg (mt beq_iff_eq.1 h9), if_neg (mt beq_iff_eq.1 h8)]

variable {role : Nat}

theorem moduleAnswer_unwired (hr : role = 15) : moduleAnswer role i m = setF F.LNK_PORT_STATUS_state i 0 :=
  if_pos (beq_iff_eq.2 hr)

variable (hr : role ≠ 15)
include hr

theorem moduleAnswer_none (hm : m = []) : moduleAnswer role i m = moduleFails i 0 1 := by
  rw [moduleAnswer, if_neg (mt beq_iff_eq.1 hr), if_pos (List.isEmpty_iff.2 hm)]

theorem moduleAnswer_passive (hp : num m 0 1 = 0x41) : moduleAnswer role i m = passiveAnswer i m := by
  have hm : m ≠ [] := by
    rintro rfl
    cases hp
  rw [moduleAnswer, if_neg (mt beq_iff_eq.1 hr), if_neg (mt List.isEmpty_iff.1 hm), if_pos (beq_iff_eq.2 hp)]

theorem moduleAnswer_active (hm : m ≠ []) (ha : num m 0 1 ≠ 0x41) : moduleAnswer role i m = activeAnswer i m := by
  rw [moduleAnswer, if_neg (mt beq_iff_eq.1 hr), if_neg (mt List.isEmpty_iff.1 hm), if_neg (mt beq_iff_eq.1 ha)]

end

/-! ### PORT_TRAINING and PORT_ATTACH (R320, R328) -/

section
variable {d : Device} {i : Nat} {m : List Byte}

theorem run_trainPort : (trainPort i m).run d = (moduleAnswer (boardRole d i) i m).run ((trainingBegins d i).run d) := rfl

theorem sidebandAt_putSideband (hd : d.Ok) (k : Nat) (v : List Byte) : ((putSideband k v).run d).sidebandAt k = v :=
  mapGet_mapSet_self hd.sideband k v

/-- The module's bytes are kept in the sideband (log entry 137), which neither the board nor the spare map depends on. -/
theorem run_readModule (hd : d.Ok) : (readModule i m).run d = (moduleAnswer (boardRole d i) i m).run
    ((trainingBegins d i).run ((putSideband (moduleKey d i) m).run d)) := by
  have hm : ((putSideband (moduleKey d i) m).run d).sidebandAt (moduleKey ((putSideband (moduleKey d i) m).run d) i) = m :=
    sidebandAt_putSideband hd (moduleKey d i) m
  rw [readModule, Eff.run_obs, Eff.run_seq, Eff.run_obs, hm, run_trainPort]
  rfl

theorem run_portAttach (hu : linkUp d i = false) : (portAttach i m).run d = (readModule i m).run d := by
  rw [portAttach, Eff.run_obs, hu, Bool.not_false, Eff.when_true]

theorem run_portAttach_up (hu : linkUp d i = true) : (portAttach i m).run d = d := by
  rw [portAttach, Eff.run_obs, hu, Bool.not_true, Eff.when_false, Eff.run_skip]

variable {s : State} (hi : i < 96) (hm : m.length < 257) (hp : powered s.dev = true)
include hi hm hp

theorem does_portTraining : Does (.portTraining i m) s (readModule i m) := does_whileIt (by simp [hi, hm]) hp rfl

theorem does_portAttach : Does (.portAttach i m) s (portAttach i m) := does_whileIt (by simp [hi, hm]) hp rfl

/-- A port that trains, or is attached while it is not up, is treated as its module answers. -/
theorem does_moduleAnswer {c : Instr} (hs : s.Ok)
    (hc : c = .portTraining i m ∨ (c = .portAttach i m ∧ linkUp s.dev i = false)) :
    Does c s (.all [putSideband (moduleKey s.dev i) m, trainingBegins s.dev i, moduleAnswer (boardRole s.dev i) i m]) := by
  have hr : Does c s (readModule i m) := by
    rcases hc with rfl | ⟨rfl, hu⟩
    · exact does_portTraining hi hm hp
    · exact (does_portAttach hi hm hp).of_run (run_portAttach hu)
  exact hr.of_run ((run_readModule hs).trans (by simp only [Eff.run_all_cons, Eff.run_all_nil]))

end

/-! ### PORT_TRAIN_DONE and PORT_RETRAIN_RETRY (R320, R328) -/

/-- The lanes that a port cannot use: those that failed, or, where none did and there is a spare lane, the first that is marked for
its eye height (R442 rule 6). -/
def badLanes (d : Device) (i : Nat) (failed : List Nat) : List Nat :=
  if failed.isEmpty && !(d.fld F.LNK_PORT_STATUS_no_spare i == 1) then
    ((List.range 8).filter fun l => d.laneMarksAt (i * 16 + l)).take 1
  else failed.dedup

/-- A port comes up with the spare lane, 8, in the place of the lane that `bad` names. -/
def lanesUp (i : Nat) (bad : List Nat) : Eff := .all [
  portUp i,
  modPorts i (fun q => { q with spareBad := bad == [8] }),
  setF F.LNK_PORT_STATUS_spare_used i (if bad != [] && bad != [8] then 1 else 0),
  setF F.LNK_PORT_STATUS_spare_for i (if bad == [8] then 0 else bad.headD 0),
  sendIdentity i]

theorem badLanes_eq (d : Device) (i : Nat) (failed : List Nat) : badLanes d i failed =
    if failed = [] ∧ d.fld F.LNK_PORT_STATUS_no_spare i ≠ 1 then
      ((List.range 8).filter fun l => d.laneMarksAt (i * 16 + l)).take 1
    else failed.dedup := by
  simp only [badLanes, Bool.and_eq_true, List.isEmpty_iff, Bool.not_eq_true', beq_eq_false_iff_ne]

section
variable {d : Device} {i : Nat} {failed : List Nat}

theorem run_portTrainDone_notTraining (h : d.fld F.LNK_PORT_STATUS_state i ≠ 1) (t : Bool) :
    (portTrainDone i failed t).run d = d := by
  rw [portTrainDone, Eff.run_obs]
  dsimp only
  rw [beq_false_of_ne h, Eff.when_false, Eff.run_skip]

variable (h : d.fld F.LNK_PORT_STATUS_state i = 1)
include h

theorem run_portTrainDone (t : Bool) : (portTrainDone i failed t).run d =
    (if !t then portDown i 7
    else if 2 ≤ (badLanes d i failed).length || (d.fld F.LNK_PORT_STATUS_no_spare i == 1 && badLanes d i failed != []) then
      portDown i 3
    else lanesUp i (badLanes d i failed) : Eff).run d := by
  rw [portTrainDone, Eff.run_obs]
  dsimp only
  rw [beq_iff_eq.2 h, Eff.when_true]
  rfl

theorem run_portTrainDone_late : (portTrainDone i failed false).run d = (portDown i 7).run d := by
  rw [run_portTrainDone h, if_pos Bool.not_false]

variable {bad : List Nat} (hb : bad = badLanes d i failed)
include hb

theorem run_portTrainDone_lanes (hl : 2 ≤ bad.length ∨ (d.fld F.LNK_PORT_STATUS_no_spare i = 1 ∧ bad ≠ [])) :
    (portTrainDone i failed true).run d = (portDown i 3).run d := by
  rw [run_portTrainDone h, ← hb, if_neg (by decide), if_pos (by simpa using hl)]

theorem run_portTrainDone_up (hl : bad.length < 2) (hn : d.fld F.LNK_PORT_STATUS_no_spare i ≠ 1 ∨ bad = []) :
    (portTrainDone i failed true).run d = (lanesUp i bad).run d := by
  have hd : ¬ (2 ≤ bad.length ∨ (d.fld F.LNK_PORT_STATUS_no_spare i = 1 ∧ bad ≠ [])) := by
    rintro (hd | ⟨hd, hb⟩)
    · omega
    · exact hn.elim (· hd) hb
  rw [run_portTrainDone h, ← hb, if_neg (by decide), if_neg (by simpa using hd)]

end

theorem lanesUp_nil (i : Nat) : lanesUp i [] = .all [portUp i, modPorts i (fun q => { q with spareBad := false }),
    setF F.LNK_PORT_STATUS_spare_used i 0, setF F.LNK_PORT_STATUS_spare_for i 0, sendIdentity i] := rfl

theorem lanesUp_singleton (i l : Nat) : lanesUp i [l] = .all [portUp i, modPorts i (fun q => { q with spareBad := l == 8 }),
    setF F.LNK_PORT_STATUS_spare_used i (if l = 8 then 0 else 1),
    setF F.LNK_PORT_STATUS_spare_for i (if l = 8 then 0 else l), sendIdentity i] := by
  by_cases hl : l = 8 <;> simp [lanesUp, hl]

section
variable {d : Device} {i : Nat}

theorem run_portRetrainRetry (hs : d.fld F.LNK_PORT_STATUS_state i = 3) (hr : d.fld F.LNK_PORT_STATUS_reason i = 3) :
    (portRetrainRetry i).run d = (setF F.LNK_PORT_STATUS_state i 1).run d := by
  rw [portRetrainRetry, Eff.run_obs, hs, hr, beq_self_eq_true, Bool.and_self, Eff.when_true]

theorem run_portRetrainRetry_none (h : d.fld F.LNK_PORT_STATUS_state i ≠ 3 ∨ d.fld F.LNK_PORT_STATUS_reason i ≠ 3) :
    (portRetrainRetry i).run d = d := by
  rw [portRetrainRetry, Eff.run_obs, beq_and_beq_eq_false h, Eff.when_false, Eff.run_skip]

variable {s : State} (hi : i < 96) (hp : powered s.dev = true)
include hi hp

theorem does_portTrainDone {failed : List Nat} (hf : failed.all (· < 9) = true) (t : Bool) :
    Does (.portTrainDone i failed t) s (portTrainDone i failed t) :=
  does_whileIt (by rw [decide_eq_true hi, hf, Bool.and_self]) hp rfl

theorem does_portRetrainRetry : Does (.portRetrainRetry i) s (portRetrainRetry i) := does_whileIt (decide_eq_true hi) hp rfl

end

/-- Settles O36: training goes by the port's role and by what its module answers, its end by the port's state, the time and the lanes
that it cannot use. The module's bytes are kept in the sideband (log entry 137), and the lanes of an active one are read at byte 1, as
the model encodes them. -/
theorem Settled.portTraining : Obligations.PortTraining := by
  refine ⟨fun s i m c start hs hi hm hp hc hstart => ?_, fun s i m hi hm hp hu => ?_, fun s i failed bad t hi hf hp hb => ?_,
    fun s i hi hp => ?_⟩
  · subst hstart
    have answers {e : Eff} (he : moduleAnswer (boardRole s.dev i) i m = e) : Does c s (.seq
        (.all [putSideband (moduleKey s.dev i) m, setF F.LNK_PORT_STATUS_role i (boardRole s.dev i),
          setF F.LNK_PORT_STATUS_site i (linkSite s.dev i), setF F.LNK_PORT_STATUS_spare_used i 0,
          setF F.LNK_PORT_STATUS_no_spare i 0, putNbrs i none]) e) := by
      refine (does_moduleAnswer hi hm hp hs hc).of_run ?_
      simp only [trainingBegins, he, Eff.run_seq, Eff.run_all_cons, Eff.run_all_nil]
    refine ⟨fun hr => answers (moduleAnswer_unwired hr), fun hr hm => answers (moduleAnswer_none hr hm), fun hr ha => ?_,
      fun hr hm ha => ?_⟩
    · have passive {e : Eff} (he : passiveAnswer i m = e) := answers ((moduleAnswer_passive hr ha).trans he)
      exact ⟨fun h => passive (passiveAnswer_checkFails h), fun h hl => passive (passiveAnswer_lossUnknown h hl),
        fun h hl hk => (passive (passiveAnswer_loopback h hl hk)).of_run
          (by simp only [Eff.run_seq, Eff.run_all_cons, Eff.run_all_nil]),
        fun h hl hk => (passive (passiveAnswer_trains h hl hk)).of_run
          (by simp only [moduleTrains, Eff.run_seq, Eff.run_all_cons, Eff.run_all_nil])⟩
    · have active {e : Eff} (he : activeAnswer i m = e) := answers ((moduleAnswer_active hr hm ha).trans he)
      exact ⟨fun h => active (activeAnswer_nine h), fun h => (active (activeAnswer_eight h)).of_run
          (by simp only [moduleTrains, Eff.run_seq, Eff.run_all_cons, Eff.run_all_nil]),
        fun h9 h8 => active (activeAnswer_fails h9 h8)⟩
  · exact (does_portAttach hi hm hp).of_run (run_portAttach_up hu)
  · have hx := does_portTrainDone hi hp hf t
    rw [← badLanes_eq] at hb
    refine ⟨fun h => hx.of_run (run_portTrainDone_notTraining h t), fun h => ⟨?_, ?_, ?_, ?_⟩⟩
    · rintro rfl
      exact hx.of_run (run_portTrainDone_late h)
    · rintro rfl hl
      exact hx.of_run (run_portTrainDone_lanes h hb hl)
    · rintro rfl rfl
      exact hx.of_run ((run_portTrainDone_up h hb (by simp) (.inr rfl)).trans (by rw [lanesUp_nil]))
    · rintro l rfl rfl hn
      exact hx.of_run ((run_portTrainDone_up h hb (by simp) (.inl hn)).trans (by rw [lanesUp_singleton]))
  · have hx := does_portRetrainRetry hi hp
    exact ⟨fun hs hr => hx.of_run (run_portRetrainRetry hs hr), fun h => hx.of_run (run_portRetrainRetry_none h)⟩

end Sys2Proof.Machine
end

section
/-! PROOFS. The exchange and the election of the promenade (R321, R322, R326). -/

namespace Sys2Proof.Machine

/- As in the tests, one theorem after another: each one elaborated beside others holds a thread's stack. -/
set_option Elab.async false

/-! ### IDENTITY_EXCHANGE (R321) -/

/-- Port `i` is down for a reason, with the neighbour's port known. -/
def refuseNeighbour (i port reason : Nat) : Eff := .all [setF F.LNK_PORT_NBR_far_port i port,
  setF F.LNK_PORT_STATUS_state i 3, setF F.LNK_PORT_STATUS_reason i reason]

section
variable {d : Device} {i serial system line round size port role : Nat} {co ro : Bool}

theorem run_identityExchange_down (hu : linkUp d i = false) :
    (identityExchange i serial system line round size port role co ro).run d = d := by
  rw [identityExchange, Eff.run_obs, hu, Eff.when_false, Eff.run_skip]

variable (hu : linkUp d i = true)
include hu

theorem run_identityExchange_sameWay (hc : complementary (d.fld F.LNK_PORT_STATUS_role i) role = false) :
    (identityExchange i serial system line round size port role co ro).run d = (refuseNeighbour i port 4).run d := by
  rw [identityExchange, Eff.run_obs, hu, Eff.when_true, hc, if_pos Bool.not_false]
  rfl

variable (hc : complementary (d.fld F.LNK_PORT_STATUS_role i) role = true)
include hc

theorem run_identityExchange_foreign (hs : system ≠ boardNum d 0xC 4 0) :
    (identityExchange i serial system line round size port role co ro).run d = (refuseNeighbour i port 5).run d := by
  rw [identityExchange, Eff.run_obs, hu, Eff.when_true, hc, if_neg (by decide), if_pos (bne_iff_ne.2 hs)]
  rfl

/-- A complementary neighbour of the same system is recorded; a port back from REST with another one has the promenade run again (R326;
log entry 138). -/
theorem run_identityExchange (hs : system = boardNum d 0xC 4 0) :
    (identityExchange i serial system line round size port role co ro).run d = (Eff.all [setF F.LNK_PORT_NBR_far_port i port,
      modPorts i (fun q => { q with woke := false }),
      putNbrs i (some {
        serial := serial, system := system, line := line, round := round, roundSize := size,
        coords := co, root := ro, port := port, role := role }),
      oneDie serial, .obs fun d => setF F.LNK_PORT_NBR_nbr_id i ((nbrId d i).getD 0),
      .when ((d.portsAt i).woke && (d.nbrsAt i).any fun n => n.serial != serial) walkAgain]).run d := by
  rw [identityExchange, Eff.run_obs, hu, Eff.when_true, hc, if_neg (by decide), if_neg (by simp [hs])]
  simp only [Eff.run_seq, Eff.run_all_cons, Eff.run_all_nil]

end

/-! ### CANDIDATE_FLOOD (R322) and ROOT_LOST_TIMEOUT (R326) -/

section
variable {d : Device} {i serial : Nat} {root : Bool}

/-- A candidate is better than the best that the device has seen. -/
def betterThanBest (d : Device) (c : Bool × Nat) : Bool :=
  match d.prom.best with
  | none => true
  | some b => betterCandidate d.prom.ignoreRoot c b

/-- A better candidate that comes over link `i` becomes the best and is flooded over the other groups; what the device held of another
walk ends. -/
def adoptCandidate (d : Device) (i : Nat) (c : Bool × Nat) : Eff := .all [
  modProm (fun p => { p with best := some c, parent := none, asked := [], children := [], done := [], subtree := [] }),
  setF F.LNK_DEVICE_root 0 0,
  .when (d.fld F.LNK_PROM_STATUS_state 0 != 7) (setF F.LNK_PROM_STATUS_state 0 3),
  flood [((groupUp d i).head?).getD i] c]

theorem betterThanBest_of_forall {c : Bool × Nat}
    (h : ∀ b, d.prom.best = some b → betterCandidate d.prom.ignoreRoot c b = true) : betterThanBest d c = true := by
  rw [betterThanBest]
  split
  · rfl
  next b hb => exact h b hb

theorem not_betterThanBest {c b : Bool × Nat} (hb : d.prom.best = some b)
    (h : betterCandidate d.prom.ignoreRoot c b = false) : betterThanBest d c = false := by
  simp only [betterThanBest, hb, h]

theorem run_candidateFlood : (candidateFlood (some i) root serial).run d =
    (Eff.when (linkUp d i && betterThanBest d (root, serial)) (adoptCandidate d i (root, serial))).run d := rfl

theorem run_candidateFlood_better (hu : linkUp d i = true) (hb : betterThanBest d (root, serial) = true) :
    (candidateFlood (some i) root serial).run d = (adoptCandidate d i (root, serial)).run d := by
  rw [run_candidateFlood, hu, hb, Bool.and_self, Eff.when_true]

theorem run_candidateFlood_ignored (h : linkUp d i = false ∨ betterThanBest d (root, serial) = false) :
    (candidateFlood (some i) root serial).run d = d := by
  rw [run_candidateFlood]
  rcases h with h | h
  · rw [h, Bool.false_and, Eff.when_false, Eff.run_skip]
  · rw [h, Bool.and_false, Eff.when_false, Eff.run_skip]

theorem run_rootLostTimeout (hr : d.fld F.LNK_DEVICE_root 0 = 0) (hs : d.fld F.LNK_PROM_STATUS_state 0 ≤ 5) :
    rootLostTimeout.run d = (Eff.all [setF F.LNK_PROM_STATUS_state 0 7,
      modProm (fun p => { p with
        ignoreRoot := true, best := some (ownCandidate d), parent := none, asked := [], children := [], done := [], subtree := [] }),
      flood [] (ownCandidate d)]).run d := by
  rw [rootLostTimeout, Eff.run_obs, beq_iff_eq.2 hr, decide_eq_true hs, Bool.and_self, Eff.when_true]

theorem run_rootLostTimeout_none (h : d.fld F.LNK_DEVICE_root 0 ≠ 0 ∨ 5 < d.fld F.LNK_PROM_STATUS_state 0) :
    rootLostTimeout.run d = d := by
  have hc : (d.fld F.LNK_DEVICE_root 0 == 0 && decide (d.fld F.LNK_PROM_STATUS_state 0 ≤ 5)) = false := by
    rcases h with h | h
    · rw [beq_false_of_ne h, Bool.false_and]
    · rw [decide_eq_false (Nat.not_le.2 h), Bool.and_false]
  rw [rootLostTimeout, Eff.run_obs, hc, Eff.when_false, Eff.run_skip]

end

end Sys2Proof.Machine
end

section
/-! PROOFS. The walk of the promenade and the map (R323, R324, R326). -/

namespace Sys2Proof.Machine

/- As in the tests, one theorem after another: each one elaborated beside others holds a thread's stack. -/
set_option Elab.async false

/-! ### ASSIGN (R323) -/

/-- ASSIGN comes from the walk of the root that the device follows. -/
def walkOf (d : Device) (serial : Nat) : Bool := d.prom.best.map (·.2) == some serial && d.fld F.LNK_DEVICE_root 0 == 0

/-- ASSIGN comes back to the root whose walk it is. -/
def ownWalk (d : Device) (serial : Nat) : Bool := d.prom.best.map (·.2) == some serial && d.fld F.LNK_DEVICE_root 0 == 1

/-- The device has its coordinates in a walk. -/
def walked (d : Device) : Bool := d.fld F.LNK_PROM_STATUS_state 0 == 4 || d.fld F.LNK_PROM_STATUS_state 0 == 5

/-- Coordinates are not those that the device holds. -/
def conflicts (d : Device) (line round : Nat) : Bool :=
  d.fld F.LNK_COORD_line 0 != line || d.fld F.LNK_COORD_round 0 != round

/-- The first ASSIGN of a walk is accepted: the device takes its coordinates, and the walk goes on. -/
def acceptAssign (d : Device) (i line round hops : Nat) : Eff := .all [promMessage i [3, 1, 0], readmit, takeCoords line round,
  setF F.LNK_COORD_conflict 0 0, setF F.LNK_PROM_STATUS_state 0 4, setF F.LNK_PROM_STATUS_hops 0 hops,
  setF F.LNK_PROM_STATUS_devices 0 0,
  modProm fun p => { p with parent := some (groupName d i), children := [], done := [], subtree := [] },
  sendAssigns, checkDone]

/-- A later ASSIGN is answered KNOWN; a conflict leaves its group out of routes. -/
def knownAssign (i : Nat) (conflict : Bool) : Eff := .seq (promMessage i [3, 0, if conflict then 1 else 0]) <|
  .when conflict (.all [setF F.LNK_COORD_conflict 0 1, excludeGroup i, checkDone])

theorem not_walkOf_of_ownWalk {d : Device} {serial : Nat} (h : ownWalk d serial = true) : walkOf d serial = false := by
  rw [ownWalk, Bool.and_eq_true, beq_iff_eq, beq_iff_eq] at h
  obtain ⟨-, hr⟩ := h
  rw [walkOf, hr]
  exact Bool.and_false _

section
variable {d : Device} {i serial line round hops : Nat}

theorem run_assign : (assign i serial line round hops).run d = (Eff.when (linkUp d i) <|
    if walkOf d serial && !walked d then acceptAssign d i line round hops
    else .when (walkOf d serial || ownWalk d serial) (knownAssign i (conflicts d line round))).run d := rfl

theorem run_assign_ignored (h : linkUp d i = false ∨ (walkOf d serial = false ∧ ownWalk d serial = false)) :
    (assign i serial line round hops).run d = d := by
  rw [run_assign]
  rcases h with hu | ⟨hm, ho⟩
  · rw [hu, Eff.when_false, Eff.run_skip]
  · rw [hm, ho, Bool.false_and, if_neg Bool.false_ne_true, Bool.or_self, Eff.when_false, Eff.run_when, Eff.run_skip, ite_self]

variable (hu : linkUp d i = true)
include hu

theorem run_assign_first (hm : walkOf d serial = true) (hw : walked d = false) :
    (assign i serial line round hops).run d = (acceptAssign d i line round hops).run d := by
  rw [run_assign, hu, hm, hw, Bool.not_false, Bool.and_self, if_pos rfl, Eff.when_true]

theorem run_assign_known (h : (walkOf d serial = true ∧ walked d = true) ∨ ownWalk d serial = true) :
    (assign i serial line round hops).run d = (knownAssign i (conflicts d line round)).run d := by
  have hf : (walkOf d serial && !walked d) = false := by
    rcases h with ⟨-, hw⟩ | ho
    · rw [hw, Bool.not_true, Bool.and_false]
    · rw [not_walkOf_of_ownWalk ho, Bool.false_and]
  have hk : (walkOf d serial || ownWalk d serial) = true := by
    rcases h with ⟨hm, -⟩ | ho
    · rw [hm, Bool.true_or]
    · rw [ho, Bool.or_true]
  rw [run_assign, hu, hf, hk, if_neg Bool.false_ne_true, Eff.when_true, Eff.when_true]

end

theorem run_knownAssign_agrees (i : Nat) (d : Device) : (knownAssign i false).run d = (promMessage i [3, 0, 0]).run d := by
  rw [knownAssign, Eff.run_seq, Eff.when_false, Eff.run_skip, if_neg Bool.false_ne_true]

theorem run_knownAssign_conflict (i : Nat) (d : Device) : (knownAssign i true).run d =
    (Eff.all [promMessage i [3, 0, 1], setF F.LNK_COORD_conflict 0 1, excludeGroup i, checkDone]).run d := by
  rw [knownAssign, Eff.run_seq, Eff.when_true, if_pos rfl]
  simp only [Eff.run_all_cons, Eff.run_all_nil]

/-! ### ASSIGN_ANSWER and PROMENADE_DONE (R323, R324) -/

section
variable {d : Device} {i : Nat}

theorem run_assignAnswer {g : Nat} (hg : g < 96)
    (hf : (d.prom.asked.find? fun j => (groupAll d i).contains j) = some g) (acc conflict : Bool) :
    (assignAnswer i acc conflict).run d = (Eff.all [modProm fun p => { p with
      asked := p.asked.filter (· != g), children := if acc then p.children ++ [g] else p.children },
      .when conflict (excludeGroup g), checkDone]).run d := by
  simp only [assignAnswer, Eff.run_obs, hf, Option.getD_some, decide_eq_true hg, Eff.when_true]

theorem run_assignAnswer_none (hf : (d.prom.asked.find? fun j => (groupAll d i).contains j) = none) (acc conflict : Bool) :
    (assignAnswer i acc conflict).run d = d := by
  simp only [assignAnswer, Eff.run_obs, hf, Option.getD_none, Nat.lt_irrefl, decide_false, Eff.when_false, Eff.run_skip]

theorem run_promenadeDone_none (hf : (d.prom.children.find? fun j => (groupAll d i).contains j) = none)
    (devs groups : List Byte) : (promenadeDone i devs groups).run d = d := by
  simp only [promenadeDone, Eff.run_obs, hf, Eff.run_skip]

section
variable {g : Nat} (hf : (d.prom.children.find? fun j => (groupAll d i).contains j) = some g) (devs groups : List Byte)
include hf

theorem run_promenadeDone (hd : d.prom.done.contains g = false) : (promenadeDone i devs groups).run d =
    (Eff.seq (modProm fun p => { p with done := p.done ++ [g], subtree := p.subtree ++ topoDevs devs groups }) checkDone).run d := by
  simp only [promenadeDone, Eff.run_obs, hf, hd, Bool.not_false, Eff.when_true]

theorem run_promenadeDone_again (hd : d.prom.done.contains g = true) : (promenadeDone i devs groups).run d = d := by
  simp only [promenadeDone, Eff.run_obs, hf, hd, Bool.not_true, Eff.when_false, Eff.run_skip]

end

end

/-! ### MAP_BROADCAST (R324) -/

/-- The map comes from the parent, or the device is the root. -/
def mapReady (d : Device) (src : Option Nat) : Bool :=
  match src with
  | some i => d.prom.parent.any fun j => (groupAll d i).contains j
  | none => d.prom.parent.isNone && d.fld F.LNK_DEVICE_root 0 == 1

/-- The device records of the map, in ID order: those that came, or at the root those of its subtree. -/
def mapDevs (d : Device) (src : Option Nat) (devs groups : List Byte) : List TopoDev :=
  sortDevs (if src.isSome then topoDevs devs groups else d.prom.subtree)

/-- The ID of the map's root. -/
def mapRoot (xs : List TopoDev) : Nat := ((xs.find? fun x => bit x.flags 0 == 1).map (·.id)).getD 0

/-- The map is stored, as records and as bytes, goes on to the children, and makes the routes; the walk's times are reported. -/
def takeMap (d : Device) (src : Option Nat) (xs : List TopoDev) (bs : List Byte) (walk : Nat) : Eff := .all [
  putTopo xs, checkLeft,
  .each d.prom.children (fun j => groupMessage j (5 :: bs.map (·.toNat))),
  .when (d.fld F.LNK_TOPO_BASE_base 0 * 4096 != 0) (.seq (wrBytes (d.fld F.LNK_TOPO_BASE_base 0 * 4096) bs)
    (setF F.LNK_TOPO_BASE_size_kib 0 (ceilDiv bs.length 1024))),
  .obs fun d => .each (List.range 96) fun j => .when (d.nbrsAt j).isSome (setF F.LNK_PORT_NBR_nbr_id j ((nbrId d j).getD 0)),
  buildRoutes, setF F.LNK_PROM_STATUS_state 0 6,
  .when src.isNone (.seq (setF F.LNK_PROM_STATUS_devices 0 xs.length)
    (setF F.LNK_PROM_STATUS_hops 0 ((xs.map (·.hops)).foldl max 0))),
  setF F.LNK_PROM_TIME_walk 0 (min 65535 (walk / 4)),
  setF F.LNK_PROM_TIME_done_ms 0 (min 65535 ((d.reg .CLK_AON_CNT 0 - d.prom.since) / 25000))]

section
variable {d : Device} {src : Option Nat} {devs groups : List Byte} {us walk : Nat}

theorem run_mapBroadcast : (mapBroadcast src devs groups us walk).run d =
    (Eff.when (mapReady d src && d.fld F.LNK_PROM_STATUS_state 0 == 5) (takeMap d src (mapDevs d src devs groups)
      (mapBytes (mapDevs d src devs groups) (mapRoot (mapDevs d src devs groups)) us) walk)).run d := (rfl)

theorem run_mapBroadcast_stores (hr : mapReady d src = true) (hs : d.fld F.LNK_PROM_STATUS_state 0 = 5) :
    (mapBroadcast src devs groups us walk).run d = (takeMap d src (mapDevs d src devs groups)
      (mapBytes (mapDevs d src devs groups) (mapRoot (mapDevs d src devs groups)) us) walk).run d := by
  rw [run_mapBroadcast, hr, beq_iff_eq.2 hs, Bool.and_self, Eff.when_true]

theorem run_mapBroadcast_ignored (h : mapReady d src = false ∨ d.fld F.LNK_PROM_STATUS_state 0 ≠ 5) :
    (mapBroadcast src devs groups us walk).run d = d := by
  rw [run_mapBroadcast]
  rcases h with h | h
  · rw [h, Bool.false_and, Eff.when_false, Eff.run_skip]
  · rw [beq_false_of_ne h, Bool.and_false, Eff.when_false, Eff.run_skip]

end

/-! ### REWALK (R326) -/

section
variable {d : Device} {v : Nat}

/-- What the bit of REWALK does on the device as its write leaves it. -/
def rewalkActs (v : Nat) (d : Device) : Eff := .when (bit v 31 == 1 && d.fld F.LNK_DEVICE_root 0 == 1) beginWalk

theorem run_rewalkActs (hv : bit v 31 = 1) (hr : d.fld F.LNK_DEVICE_root 0 = 1) :
    (rewalkActs v d).run d = beginWalk.run d := by
  rw [rewalkActs, hv, hr, beq_self_eq_true, Bool.and_self, Eff.when_true]

theorem run_rewalkActs_none (h : bit v 31 = 0 ∨ d.fld F.LNK_DEVICE_root 0 ≠ 1) : (rewalkActs v d).run d = d := by
  rw [rewalkActs]
  rcases h with h | h
  · rw [h, beq_false_of_ne (by decide), Bool.false_and, Eff.when_false, Eff.run_skip]
  · rw [beq_false_of_ne h, Bool.and_false, Eff.when_false, Eff.run_skip]

end

/-! ### The commands -/

section
variable {s : State} {d : Device} {rq v : Nat}

theorem gives_rewalk (h : Writes s rq .LNK_PROM_CTRL 0 v 31 d) : Gives (.rewalk rq v) s d (rewalkActs v d) :=
  (gives_writes (e := .obs (rewalkActs v)) (decide_eq_true h.asks.lt) h rfl).of_run (Eff.run_obs _ _)

theorem gives_rewalk_denied (h : Asks s rq d) (hb : bit (mayWrite d rq .LNK_PROM_CTRL 0) 31 = 0) :
    Gives (.rewalk rq v) s d denied :=
  (gives_hostDo (decide_eq_true h.lt) h rfl).of_run (run_writeAct_denied hb v _)

variable (hp : powered s.dev = true)
include hp

theorem does_candidateFlood {src : Option Nat} (hs : src.all (· < 96) = true) (root : Bool) (serial : Nat) :
    Does (.candidateFlood src root serial) s (candidateFlood src root serial) := does_whileIt hs hp rfl

theorem does_mapBroadcast {src : Option Nat} (hs : src.all (· < 96) = true) (devs groups : List Byte) (us walk : Nat) :
    Does (.mapBroadcast src devs groups us walk) s (mapBroadcast src devs groups us walk) := does_whileIt hs hp rfl

theorem does_rootLostTimeout : Does .rootLostTimeout s rootLostTimeout := does_whileIt rfl hp rfl

variable {i : Nat} (hi : i < 96)
include hi

theorem does_identityExchange {serial system line round size port role : Nat} (hn : serial < 18446744073709551616)
    (hs : system < 4294967296) (hl : line < 4096) (hr : round < 256) (hz : size < 256) (hf : port < 96) (ho : role < 4)
    (co ro : Bool) : Does (.identityExchange i serial system line round size port role co ro) s
      (identityExchange i serial system line round size port role co ro) :=
  does_whileIt (by simp [hi, hn, hs, hl, hr, hz, hf, ho]) hp rfl

theorem does_assign {line round : Nat} (hl : line < 4096) (hr : round < 256) (serial hops : Nat) :
    Does (.assign i serial line round hops) s (assign i serial line round hops) :=
  does_whileIt (by simp [hi, hl, hr]) hp rfl

theorem does_assignAnswer (acc conflict : Bool) : Does (.assignAnswer i acc conflict) s (assignAnswer i acc conflict) :=
  does_whileIt (decide_eq_true hi) hp rfl

theorem does_promenadeDone (devs groups : List Byte) : Does (.promenadeDone i devs groups) s (promenadeDone i devs groups) :=
  does_whileIt (decide_eq_true hi) hp rfl

end

/-- Settles O37: an exchange goes by the roles and the system, a candidate by the best seen, an ASSIGN by the walk it is of and where the
device stands in it, an answer and a DONE by the group that they come from, the map by its source and the state. The messages carry
their fields as operands (log entry 74), a new walk takes in again the groups left out with reason 9 (log entry 75), and a root lost
keeps state 7 while a candidate is flooded (log entries 75 and 138). -/
theorem promenade : Obligations.Promenade := by
  refine ⟨fun s i serial system line round size port role co ro hi hn hs hl hr hz hf ho hp => ?_, fun s i serial root hi hp => ?_,
    fun s root serial hp => does_candidateFlood hp rfl root serial,
    fun s i serial line round hops conflict mine isRoot walking hi hl hr hp hconf hmine hroot hwalk => ?_,
    fun s i acc conflict hi hp => ?_, fun s i devs groups hi hp => ?_,
    fun s src root devs groups bs us walk xs ready hsrc hp hready hxs hroot hbs => ?_,
    fun s d rq v h => ⟨fun hv hr => (gives_rewalk h).of_run (run_rewalkActs hv hr),
      fun hn => (gives_rewalk h).of_run (run_rewalkActs_none hn)⟩,
    fun s d rq v h hb => gives_rewalk_denied h hb,
    fun s hp => ⟨fun hr hs => (does_rootLostTimeout hp).of_run (run_rootLostTimeout hr hs),
      fun h => (does_rootLostTimeout hp).of_run (run_rootLostTimeout_none h)⟩⟩
  · have hx := does_identityExchange hp hi hn hs hl hr hz hf ho co ro
    exact ⟨fun hu => hx.of_run (run_identityExchange_down hu), fun hu =>
      ⟨fun hc hb => hx.of_run (run_identityExchange hu hc hb), fun hc hb => hx.of_run (run_identityExchange_foreign hu hc hb),
        fun hc => hx.of_run (run_identityExchange_sameWay hu hc)⟩⟩
  · have hx := does_candidateFlood (src := some i) hp (decide_eq_true hi) root serial
    refine ⟨fun hu hb => hx.of_run (run_candidateFlood_better hu (betterThanBest_of_forall hb)), fun h => ?_⟩
    exact hx.of_run (run_candidateFlood_ignored (h.imp_right fun ⟨b, hb, hn⟩ => not_betterThanBest hb hn))
  · have hx := does_assign hp hi hl hr serial hops
    subst hmine hroot hwalk hconf
    refine ⟨fun hu hm hw => hx.of_run (run_assign_first hu hm hw), fun hu h => ⟨fun hc => ?_, fun hc => ?_⟩,
      fun h => hx.of_run (run_assign_ignored h)⟩
    · have hk := hx.of_run (run_assign_known hu h)
      rw [conflicts, hc] at hk
      exact hk.of_run (run_knownAssign_agrees i s.dev)
    · have hk := hx.of_run (run_assign_known hu h)
      rw [conflicts, hc] at hk
      exact hk.of_run (run_knownAssign_conflict i s.dev)
  · have hx := does_assignAnswer hp hi acc conflict
    exact ⟨fun g hg hf => hx.of_run (run_assignAnswer hg hf acc conflict),
      fun hf => hx.of_run (run_assignAnswer_none hf acc conflict)⟩
  · have hx := does_promenadeDone hp hi devs groups
    exact ⟨fun g hf => ⟨fun hd => hx.of_run (run_promenadeDone hf devs groups hd),
        fun hd => hx.of_run (run_promenadeDone_again hf devs groups hd)⟩,
      fun hf => hx.of_run (run_promenadeDone_none hf devs groups)⟩
  · have hx := does_mapBroadcast hp hsrc devs groups us walk
    subst hxs hroot hbs
    have hm : mapReady s.dev src = ready := by
      rw [hready]
      rfl
    exact ⟨fun hr hs => hx.of_run (run_mapBroadcast_stores (hm.trans hr) hs),
      fun h => hx.of_run (run_mapBroadcast_ignored (h.imp_left hm.trans))⟩

end Sys2Proof.Machine
end

section
/-! PROOFS. The start of collective descriptors (R333, R334, R336, R343). -/

namespace Sys2Proof.Machine

/- As in the tests, one theorem after another: each one elaborated beside others holds a thread's stack. -/
set_option Elab.async false

/-! ### What puts no operation on a ring -/

/-- A change puts no operation on any ring. -/
def Upd.StartsNoOp : Upd → Prop
  | .colOps _ v => v = none
  | _ => True

theorem Upd.StartsNoOp.colOpsAt {u : Upd} (h : u.StartsNoOp) {d : Device} (hd : d.Ok) {n : Nat} (hn : d.colOpsAt n = none) :
    (u.apply d).colOpsAt n = none := by
  cases u with
  | colOps k v =>
    obtain rfl : v = none := h
    by_cases hk : n = k
    · rw [hk]
      exact mapGet_mapSet_self hd.colOps k none
    · exact (mapGet_mapSet_ne d.colOps none hk).trans hn
  | colOpsDrop p => exact (mapGet_mapDrop d.colOps p n).trans (by split <;> [rfl; exact hn])
  | _ => exact hn

/-- A ring with no operation under way has none after an effect that puts none on any ring. -/
theorem colOpsAt_run_none {e : Eff} (he : e.Makes Upd.StartsNoOp) {d : Device} (hd : d.Ok) {n : Nat}
    (hn : d.colOpsAt n = none) : (e.run d).colOpsAt n = none := by
  induction e generalizing d with
  | skip => exact hn
  | upd u => exact Upd.StartsNoOp.colOpsAt he hd hn
  | seq a b iha ihb => exact ihb he.2 (hd.run a) (iha he.1 hd hn)
  | obs k ih => exact ih d (he d) hd hn

@[simp] theorem setF_startsNoOp (f : Fld) (i v : Nat) : (setF f i v).Makes Upd.StartsNoOp := by
  simp [setF, setReg, putRegs, Upd.StartsNoOp]

@[simp] theorem modColGroups_startsNoOp (g : Nat) (f : ColEntry → ColEntry) : (modColGroups g f).Makes Upd.StartsNoOp := by
  simp [modColGroups, Upd.StartsNoOp]

@[simp] theorem colEnd_startsNoOp (n index status : Nat) : (colEnd n index status).Makes Upd.StartsNoOp := by
  simp [colEnd, modDesc, modRings, putColOps, Upd.StartsNoOp]

@[simp] theorem endGroup_startsNoOp (g status : Nat) : (endGroup g status).Makes Upd.StartsNoOp := by simp [endGroup]

@[simp] theorem enqueue_startsNoOp (name : Nat) (ls : List Nat) (p : Packet) : (enqueue name ls p).Makes Upd.StartsNoOp := by
  simp only [enqueue, Eff.makes_obs]
  intro d
  split <;> simp [putRr, modEgress, Upd.StartsNoOp]

@[simp] theorem routePacket_startsNoOp (die : Nat) (p : Packet) : (routePacket die p).Makes Upd.StartsNoOp := by
  simp only [routePacket, Eff.makes_obs]
  intro d
  split <;> simp [addSat]

@[simp] theorem colControl_startsNoOp (g msg epoch peer dstRank : Nat) (args : List Byte) :
    (colControl g msg epoch peer dstRank args).Makes Upd.StartsNoOp := by
  simp only [colControl, colSendTo, Eff.makes_obs]
  intro _ _
  split <;> simp [sealCount, modLinkKeys, Upd.StartsNoOp]

@[simp] theorem suspectRank_startsNoOp (g rank cause : Nat) : (suspectRank g rank cause).Makes Upd.StartsNoOp := by
  simp [suspectRank]

@[simp] theorem withdraw_startsNoOp (g cause : Nat) : (withdraw g cause).Makes Upd.StartsNoOp := by simp [withdraw]

/-! ### What the oldest unfinished descriptor comes to (R334, R336) -/

/-- Descriptor `x`, at place `i` of a served collective ring with no operation under way, is the oldest that has no status. -/
structure NextCol (d : Device) (n i : Nat) (x : Desc) : Prop where
  kind : ringKind n = .col
  served : ringServed d n = true
  state : ringState d n = 2 ∨ ringState d n = 3
  free : d.colOpsAt n = none
  found : (d.ringsAt n).findIdx? (·.status.isNone) = some i
  desc : (d.ringsAt n)[i]? = some x

/-- The operation that a descriptor of group `g` with operands `ps` makes. -/
def opOf (d : Device) (x : Desc) (g : Nat) (ps : List ColPart) : ColOp where
  index := x.index
  entry := g
  serial := (d.colGroupsAt g).serial
  op := innerOp x
  algo := colAlgo (innerOp x) (d.fld F.COL_GROUP_algorithm g)
  root := x.num 0x1E 2
  parts := ps
  seg := x.num 0x2C 4
  total := (ps.map (·.granules)).sum

/-- The root is no rank of the group, or the staging area is too small. -/
def unfit (d : Device) (op : Nat) (x : Desc) (o : ColOp) : Bool :=
  groupSize d o.entry ≤ o.root ||
    x.num 0x28 4 < 64 * stagingNeed o.op o.algo (if op == 5 then o.total else o.granules) (groupSize d o.entry)

theorem unfit_iff {d : Device} {op : Nat} {x : Desc} {o : ColOp} : unfit d op x o = true ↔ groupSize d o.entry ≤ o.root ∨
    x.num 0x28 4 < 64 * stagingNeed o.op o.algo (if op = 5 then o.total else o.granules) (groupSize d o.entry) := by
  simp only [unfit, Bool.or_eq_true, decide_eq_true_eq, beq_iff_eq]

/-- A descriptor of a group that can serve it begins, or ends at once where its operands or its places are not right. -/
def startIn (d : Device) (n op : Nat) (x : Desc) (g : Nat) : Eff :=
  match colParts d n x with
  | .error st => .seq (colEnd n x.index st) (withdraw g 5)
  | .ok ps =>
    if unfit d op x (opOf d x g ps) then .seq (colEnd n x.index 7) (withdraw g 5)
    else .seq (modColGroups g fun e => { e with serial := e.serial + 1 }) (putColOps n (some (opOf d x g ps)))

/-- A descriptor goes by its group, and by what the group is in. -/
def startDesc (d : Device) (n op : Nat) (x : Desc) : Eff :=
  match descGroup d n x with
  | none => colEnd n x.index 7
  | some g =>
    if d.fld F.COL_GROUP_broken g == 1 then colEnd n x.index 9
    else if d.fld F.COL_GROUP_excluded g == 1 then colEnd n x.index 10
    else if (d.colGroupsAt g).forming then .skip
    else startIn d n op x g

section
variable {d : Device} {n op : Nat}

theorem run_colStart_none (h : ringKind n ≠ .col ∨ ringServed d n = false ∨ (ringState d n ≠ 2 ∧ ringState d n ≠ 3) ∨
    (d.ringsAt n).findIdx? (·.status.isNone) = none) : (colStart n op).run d = d := by
  rw [colStart, Eff.run_obs]
  split
  next i hi _ =>
    have hl : (ringKind n == .col && ringServed d n && (ringState d n == 2 || ringState d n == 3)) = false := by
      rcases h with h | h | ⟨h2, h3⟩ | h
      · rw [beq_false_of_ne h, Bool.false_and, Bool.false_and]
      · rw [h, Bool.and_false, Bool.false_and]
      · rw [beq_false_of_ne h2, beq_false_of_ne h3, Bool.or_false, Bool.and_false]
      · cases h.symm.trans hi
    dsimp only
    rw [hl, Bool.false_and, Bool.false_and, Eff.when_false, Eff.run_skip]
  · rfl

variable {i : Nat} {x : Desc} (h : NextCol d n i x)
include h

theorem run_colStart : (colStart n op).run d =
    (Eff.when (bits x.ctrl 30 28 == op && (bit x.ctrl 23 == 0 || i == 0)) (startDesc d n op x)).run d := by
  have hl : (ringKind n == .col && ringServed d n && (ringState d n == 2 || ringState d n == 3)) = true := by
    rw [h.kind, h.served, beq_self_eq_true, Bool.and_self, Bool.true_and, Bool.or_eq_true, beq_iff_eq, beq_iff_eq]
    exact h.state
  have hx : (d.ringsAt n).getD i {} = x := by rw [List.getD_eq_getElem?_getD, h.desc, Option.getD_some]
  rw [colStart, Eff.run_obs, h.found, h.free]
  dsimp only
  rw [hx, hl, Bool.true_and]
  rfl

/-- A descriptor of another op, or one that waits for those before it, is left. -/
theorem run_colStart_not (hx : bits x.ctrl 30 28 ≠ op ∨ (bit x.ctrl 23 = 1 ∧ i ≠ 0)) : (colStart n op).run d = d := by
  rw [run_colStart h]
  rcases hx with hx | ⟨hf, hi⟩
  · rw [beq_false_of_ne hx, Bool.false_and, Eff.when_false, Eff.run_skip]
  · rw [hf, beq_false_of_ne hi, Bool.or_false, beq_false_of_ne Nat.one_ne_zero, Bool.and_false, Eff.when_false, Eff.run_skip]

theorem run_colStart_due (hop : bits x.ctrl 30 28 = op) (hf : bit x.ctrl 23 = 0 ∨ i = 0) :
    (colStart n op).run d = (startDesc d n op x).run d := by
  have hc : (bit x.ctrl 23 == 0 || i == 0) = true := by
    rw [Bool.or_eq_true, beq_iff_eq, beq_iff_eq]
    exact hf
  rw [run_colStart h, hop, beq_self_eq_true, hc, Bool.and_self, Eff.when_true]

end

section
variable {d : Device} {n op : Nat} {x : Desc}

theorem startDesc_noGroup (h : descGroup d n x = none) : startDesc d n op x = colEnd n x.index 7 := by
  simp only [startDesc, h]

variable {g : Nat} (h : descGroup d n x = some g)
include h

theorem startDesc_broken (hb : d.fld F.COL_GROUP_broken g = 1) : startDesc d n op x = colEnd n x.index 9 := by
  simp only [startDesc, h, hb, beq_self_eq_true, if_true]

variable (hb : d.fld F.COL_GROUP_broken g ≠ 1)
include hb

theorem startDesc_excluded (he : d.fld F.COL_GROUP_excluded g = 1) : startDesc d n op x = colEnd n x.index 10 := by
  simp only [startDesc, h, beq_false_of_ne hb, he, beq_self_eq_true, Bool.false_eq_true, if_false, if_true]

variable (he : d.fld F.COL_GROUP_excluded g ≠ 1)
include he

theorem startDesc_forming (hf : (d.colGroupsAt g).forming = true) : startDesc d n op x = .skip := by
  simp only [startDesc, h, beq_false_of_ne hb, beq_false_of_ne he, hf, Bool.false_eq_true, if_false, if_true]

theorem startDesc_served (hf : (d.colGroupsAt g).forming = false) : startDesc d n op x = startIn d n op x g := by
  simp only [startDesc, h, beq_false_of_ne hb, beq_false_of_ne he, hf, Bool.false_eq_true, if_false]

end

section
variable {d : Device} {n op g : Nat} {x : Desc}

theorem startIn_error {st : Nat} (h : colParts d n x = .error st) :
    startIn d n op x g = .seq (colEnd n x.index st) (withdraw g 5) := by
  simp only [startIn, h]

theorem startIn_unfit {ps : List ColPart} (h : colParts d n x = .ok ps) (hu : unfit d op x (opOf d x g ps) = true) :
    startIn d n op x g = .seq (colEnd n x.index 7) (withdraw g 5) := by
  simp only [startIn, h, hu, if_true]

end

/-! ### The commands -/

section
variable {s : State} {n op : Nat} {c : Instr} (hc : (c, op) ∈ [(.allReduce n, 0), (.reduceScatter n, 1), (.allGather n, 2),
  (.broadcast n, 3), (.allToAll n, 4), (.fused n, 5)]) (hn : n < 9984) (hw : working s.dev = true)
include hc hn hw

theorem does_colBegin : Does c s (colBegin n op) := by
  simp only [List.mem_cons, List.not_mem_nil, or_false, Prod.mk.injEq] at hc
  rcases hc with ⟨rfl, rfl⟩ | ⟨rfl, rfl⟩ | ⟨rfl, rfl⟩ | ⟨rfl, rfl⟩ | ⟨rfl, rfl⟩ | ⟨rfl, rfl⟩ <;>
    exact does_whileIt (decide_eq_true hn) hw rfl

/-- A start that puts no operation on the ring is all that the command does. -/
theorem does_colBegin_of_start (hok : s.Ok) (hf : s.dev.colOpsAt n = none) {e : Eff} (he : e.Makes Upd.StartsNoOp)
    (hs : (colStart n op).run s.dev = e.run s.dev) : Does c s e := by
  refine (does_colBegin hc hn hw).of_run ?_
  rw [colBegin, Eff.run_seq, hs, Eff.run_obs, colOpsAt_run_none he hok hf, Eff.run_skip]

end

theorem run_colBegin_begins {s : State} {n op : Nat} {o : ColOp} (h : Begins s n op o) : (colBegin n op).run s.dev =
    (Eff.all [modColGroups o.entry fun e => { e with serial := e.serial + 1 }, putColOps n (some o),
      .obs fun d => .when (mismatched d n o) (colFail n o 11)]).run s.dev := by
  have hp : o.phase = 0 := by
    obtain ⟨i, x, ps, -, -, -, -, -, -, ho, -⟩ := h.next
    rw [ho]
  rw [← run_whileIt h.working, run_colBegin h, hp]
  rfl

/-- Settles O38: a start goes by the oldest unfinished descriptor, by its group and what that is in, then by its operands and the places
they need (log entries 66 and 77); a start that leaves the ring without an operation meets no READY. That a root which is no rank of the group
ends BAD_DESCRIPTOR is the model's own choice. -/
theorem collectiveStarts : Obligations.CollectiveStarts := by
  refine ⟨fun s n op c o hc h => (does_colBegin hc h.inRange h.working).of_run (run_colBegin_begins h),
    fun s n op i c x hc hok hn hw hk hv ht hf hi hx => ?_, fun s n op c hc hn hw hf h => ?_⟩
  · have hnext : NextCol s.dev n i x := ⟨hk, hv, ht, hf, hi, hx⟩
    refine ⟨fun h => does_colBegin_of_start hc hn hw hok hf Eff.makes_skip (run_colStart_not hnext h), fun hop hfence => ?_⟩
    have ends {e : Eff} (he : e.Makes Upd.StartsNoOp) (h : startDesc s.dev n op x = e) : Does c s e :=
      does_colBegin_of_start hc hn hw hok hf he ((run_colStart_due hnext hop hfence).trans (by rw [h]))
    refine ⟨fun hg => ends (by simp) (startDesc_noGroup hg), fun g hg => ⟨fun hb => ends (by simp) (startDesc_broken hg hb),
      fun hb he => ends (by simp) (startDesc_excluded hg hb he), fun hb he => ⟨fun hm =>
        ends (by simp) (startDesc_forming hg hb he hm), fun hm => ?_⟩⟩⟩
    have hs := startDesc_served (op := op) hg hb he hm
    refine ⟨fun st hp => ends (by simp) (hs.trans (startIn_error hp)), fun ps o hp ho hu =>
      ends (by simp) (hs.trans (startIn_unfit hp ?_))⟩
    subst ho
    exact unfit_iff.2 hu
  · refine (does_colBegin hc hn hw).of_run ?_
    rw [colBegin, Eff.run_seq, run_colStart_none h, Eff.run_obs, hf, Eff.run_skip]

end Sys2Proof.Machine
end

section
/-! PROOFS. The packets of groups, and which of them a group takes (R310, R331, R348). -/

namespace Sys2Proof.Machine

/- As in the tests, one theorem after another: each one elaborated beside others holds a thread's stack. -/
set_option Elab.async false

theorem Reaches.powered {s : State} {i seq msg g : Nat} {bs : List Byte} {p : Packet} {d : Device}
    (h : Reaches s i seq bs msg g p d) : Sys2Proof.Machine.powered s.dev = true := by
  obtain ⟨q, d1, k, f, data, ha, -⟩ := h.comes
  exact ha.powered

section
variable {s : State} {d : Device} {i seq msg : Nat} {bs : List Byte} {c : Instr} {guard : Device → Bool}
  {act : Nat → Packet → Eff}

/-- A message that reaches a group does there what its command says. -/
theorem gives_colPacket {g : Nat} {p : Packet} (h : Reaches s i seq bs msg g p d) (hg : guard s.dev = true)
    (hc : exec c s = perform (decide (i < 96) && decide (seq < 4096) && decide (bs.length < 66050))
      (whileIt guard (colPacket i seq msg bs act)) s) : Gives c s d (act g p) :=
  (does_whileIt h.ok hg hc).of_run ((run_whileIt h.powered _).symm.trans (run_colPacket h act))

/-- Each message of a group has its command, which hands it to the group's part; READY and DATA while the device works. -/
theorem does_colPacket (hc : (c, msg) ∈ [(.colReady i seq bs, 1), (.colData i seq bs, 2), (.suspect i seq bs, 3),
      (.reform i seq bs, 4), (.reformAck i seq bs, 5), (.colCommit i seq bs, 6), (.colAbort i seq bs, 7), (.exclude i seq bs, 8)])
    (hok : (decide (i < 96) && decide (seq < 4096) && decide (bs.length < 66050)) = true) (hp : powered s.dev = true)
    (hw : msg ≤ 2 → working s.dev = true) : ∃ act, Does c s (colPacket i seq msg bs act) := by
  simp only [List.mem_cons, List.not_mem_nil, or_false, Prod.mk.injEq] at hc
  rcases hc with ⟨rfl, rfl⟩ | ⟨rfl, rfl⟩ | ⟨rfl, rfl⟩ | ⟨rfl, rfl⟩ | ⟨rfl, rfl⟩ | ⟨rfl, rfl⟩ | ⟨rfl, rfl⟩ | ⟨rfl, rfl⟩
  · exact ⟨_, does_whileIt hok (hw (by decide)) rfl⟩
  · exact ⟨_, does_whileIt hok (hw (by decide)) rfl⟩
  · exact ⟨_, does_whileIt hok hp rfl⟩
  · exact ⟨_, does_whileIt hok hp rfl⟩
  · exact ⟨_, does_whileIt hok hp rfl⟩
  · exact ⟨_, does_whileIt hok hp rfl⟩
  · exact ⟨_, does_whileIt hok hp rfl⟩
  · exact ⟨_, does_whileIt hok hp rfl⟩

end

/-- The group entry whose key a packet for a context carries. -/
def keyedEntry (d : Device) (p : Packet) : Option Nat :=
  (ctxPart d p.dstCtx).bind fun x => (partEntries d x).find? fun e =>
    d.fld F.COL_GROUP_valid e == 1 && d.reg .COL_GROUP_KEY e == bodyKey p

/-- The epoch that a message of a group must carry: REFORM and ABORT the next one (R331, R345, R346). -/
def wantedEpoch (d : Device) (msg g : Nat) : Nat :=
  if msg == 4 || msg == 7 then nextEpoch (d.fld F.COL_GROUP_epoch g) else d.fld F.COL_GROUP_epoch g

theorem wantedEpoch_eq (d : Device) (msg g : Nat) : wantedEpoch d msg g =
    if msg = 4 ∨ msg = 7 then nextEpoch (d.fld F.COL_GROUP_epoch g) else d.fld F.COL_GROUP_epoch g := by
  simp only [wantedEpoch, Bool.or_eq_true, beq_iff_eq]

section
variable {s : State} {d d1 : Device} {i seq msg k : Nat} {bs data : List Byte} {f : Flow} {q : Packet}
  {act : Nat → Packet → Eff} (ha : Arrives s i seq bs q d1) (hm : forMe i 5 s.dev q = true) (hb : bodyMsg q = msg)
  (hd : Admits d1 2 q k f data d)
include ha hm hb hd

/-- An admitted message goes by the entry that its key names. -/
theorem run_colPacket_admitted : (colPacket i seq msg bs act).run s.dev = (match keyedEntry d1 q with
    | none => addSat F.LNK_DROPS_epoch 0 1
    | some g =>
      if bodyEpoch q == wantedEpoch d1 msg g && (d1.colGroupsAt g).current.contains q.src then act g { q with data := data }
      else addSat F.COL_GROUP_STAT_stale g 1 : Eff).run d := by
  rw [← run_whileIt ha.powered, colPacket, run_packetIn ha (by simp [hm, hb]), run_checkFlow hd]
  dsimp only
  rw [Eff.run_seq, Eff.when_false, Eff.run_skip]
  rfl

theorem run_colPacket_noGroup (hg : keyedEntry d1 q = none) :
    (colPacket i seq msg bs act).run s.dev = (addSat F.LNK_DROPS_epoch 0 1).run d := by
  rw [run_colPacket_admitted ha hm hb hd, hg]

theorem run_colPacket_stale {g : Nat} (hg : keyedEntry d1 q = some g)
    (he : bodyEpoch q ≠ wantedEpoch d1 msg g ∨ (d1.colGroupsAt g).current.contains q.src = false) :
    (colPacket i seq msg bs act).run s.dev = (addSat F.COL_GROUP_STAT_stale g 1).run d := by
  have hs : (bodyEpoch q == wantedEpoch d1 msg g && (d1.colGroupsAt g).current.contains q.src) = false := by
    rcases he with he | he
    · rw [beq_false_of_ne he, Bool.false_and]
    · rw [he, Bool.and_false]
  rw [run_colPacket_admitted ha hm hb hd, hg]
  dsimp only
  rw [hs, if_neg Bool.false_ne_true]

end

end Sys2Proof.Machine
end

section
/-! PROOFS. The segments of a collective operation, its steps and its completion (R331, R333, R339 to R341, R347, R348). -/

namespace Sys2Proof.Machine

/- As in the tests, one theorem after another: each one elaborated beside others holds a thread's stack. -/
set_option Elab.async false

/-! ### STAGE_IN_DONE (R339 step 1, R347) -/

/-- The virtual ranges that the segment of an operation reads. -/
def stageReads (d : Device) (o : ColOp) : List (Nat × Nat) := segmentReads o (groupSize d o.entry) (ownRank d o.entry)

/-- The addresses of the staging of a ring's operation, for an access of a kind. -/
def stagingAddrs (d : Device) (n : Nat) (o : ColOp) (k : Kind) : Option (List Nat) :=
  translateRange d (ringCtx d n) (stagingSpan d n o).1 k (stagingSpan d n o).2

/-- A segment's source has been read for a member of rank `r` of `m`: it enters its first step. -/
def enterSegment (n m r : Nat) (o : ColOp) (st : List Nat) : Eff := .all [fillStaging st,
  putColOps n (some { o with
    work := colInitial o m r
    phase := if colSteps o.op o.algo m == 0 then 2 else 1
    step := 0
    sentTo := []
    got := [] }),
  enterStep n (2 * m + 2)]

/-- The operation with its segment's source, as the engine has read it. -/
def withInput (d : Device) (o : ColOp) (ass : List (List Nat)) : ColOp :=
  { o with input := (ass.flatMap fun as => padTo 64 (d.bytesAt as)) }

section
variable {d : Device} {n : Nat} {fixed lost : List Nat}

theorem run_stageInDone_none (ho : d.colOpsAt n = none) : (stageInDone n fixed lost).run d = d := by
  simp only [stageInDone, Eff.run_obs, ho, Eff.run_skip]

variable {o : ColOp} (ho : d.colOpsAt n = some o)
include ho

theorem run_stageInDone_phase (hp : o.phase ≠ 0) : (stageInDone n fixed lost).run d = d := by
  simp only [stageInDone, Eff.run_obs, ho, beq_false_of_ne hp, Eff.when_false, Eff.run_skip]

variable (hp : o.phase = 0)
include hp

theorem run_stageInDone_critical (hc : readsCritical d (ringCtx d n) (stageReads d o) .read = true) :
    (stageInDone n fixed lost).run d = (Eff.seq (colEnd n o.index 10) (withdraw o.entry 2)).run d := by
  rw [stageReads] at hc
  simp only [stageInDone, Eff.run_obs, ho, hp, hc, beq_self_eq_true, Eff.when_true, if_true]

variable (hc : readsCritical d (ringCtx d n) (stageReads d o) .read = false)
include hc

theorem run_stageInDone_held (hh : (readsHeld d (ringCtx d n) (stageReads d o) .read ||
    readsHeld d (ringCtx d n) [stagingSpan d n o] .write) = true) : (stageInDone n fixed lost).run d = d := by
  rw [stageReads] at hc hh
  simp only [stageInDone, Eff.run_obs, ho, hp, hc, hh, beq_self_eq_true, Eff.when_true, Bool.false_eq_true, if_false, if_true,
    Eff.run_skip]

variable (hh : (readsHeld d (ringCtx d n) (stageReads d o) .read ||
  readsHeld d (ringCtx d n) [stagingSpan d n o] .write) = false)
include hh

/-- A segment that nothing holds goes by what its ranges come to. -/
theorem run_stageInDone_free : (stageInDone n fixed lost).run d =
    (match (stageReads d o).mapM fun e => translateRange d (ringCtx d n) e.1 .read e.2, stagingAddrs d n o .read,
        stagingAddrs d n o .write with
      | none, _, _ => colFail n o 1
      | some _, none, _ => colFail n o 1
      | some _, some _, none => colFail n o 2
      | some ass, some _, some st => if !st.all inFloor then colFail n o 7 else .seq (agentReads n ass.flatten fixed lost) <|
          .obs fun d' => if anyPoison d' ass.flatten then colFail n o 3
            else enterSegment n (groupSize d o.entry) (ownRank d o.entry) (withInput d' o ass) st : Eff).run d := by
  rw [stageReads] at hc hh
  simp only [stageInDone, Eff.run_obs, ho, hp, hc, hh, beq_self_eq_true, Eff.when_true, Bool.false_eq_true, if_false]
  rfl

theorem run_stageInDone_unreadable (ht : ((stageReads d o).mapM fun e => translateRange d (ringCtx d n) e.1 .read e.2) = none ∨
    stagingAddrs d n o .read = none) : (stageInDone n fixed lost).run d = (colFail n o 1).run d := by
  rw [run_stageInDone_free ho hp hc hh]
  rcases ht with ht | ht
  · rw [ht]
  · rw [ht]
    cases (stageReads d o).mapM fun e => translateRange d (ringCtx d n) e.1 .read e.2 with
    | none => rfl
    | some ass => rfl

variable {ass : List (List Nat)} {as : List Nat}
  (ht : ((stageReads d o).mapM fun e => translateRange d (ringCtx d n) e.1 .read e.2) = some ass)
  (hr : stagingAddrs d n o .read = some as)
include ht hr

theorem run_stageInDone_unwritable (hw : stagingAddrs d n o .write = none) :
    (stageInDone n fixed lost).run d = (colFail n o 2).run d := by
  rw [run_stageInDone_free ho hp hc hh, ht, hr, hw]

variable {st : List Nat} (hw : stagingAddrs d n o .write = some st)
include hw

theorem run_stageInDone_outside (hf : st.all inFloor = false) : (stageInDone n fixed lost).run d = (colFail n o 7).run d := by
  rw [run_stageInDone_free ho hp hc hh, ht, hr, hw]
  dsimp only
  rw [hf, Bool.not_false, if_pos rfl]

variable (hf : st.all inFloor = true) {d' : Device} (hd : (agentReads n ass.flatten fixed lost).run d = d')
include hf hd

theorem run_stageInDone_read : (stageInDone n fixed lost).run d = (if anyPoison d' ass.flatten then colFail n o 3
    else enterSegment n (groupSize d o.entry) (ownRank d o.entry) (withInput d' o ass) st : Eff).run d' := by
  rw [run_stageInDone_free ho hp hc hh, ht, hr, hw]
  dsimp only
  rw [hf, Bool.not_true, if_neg Bool.false_ne_true, Eff.run_seq, hd, Eff.run_obs]

theorem run_stageInDone_poison (ha : anyPoison d' ass.flatten = true) :
    (stageInDone n fixed lost).run d = (colFail n o 3).run d' := by
  rw [run_stageInDone_read ho hp hc hh ht hr hw hf hd, if_pos ha]

theorem run_stageInDone_enters (ha : anyPoison d' ass.flatten = false) : (stageInDone n fixed lost).run d =
    (enterSegment n (groupSize d o.entry) (ownRank d o.entry) (withInput d' o ass) st).run d' := by
  rw [run_stageInDone_read ho hp hc hh ht hr hw hf hd, ha, if_neg Bool.false_ne_true]

end

/-! ### COL_WRITE_OUT (R339 step 3, R347) -/

/-- The virtual addresses and bytes that the segment of an operation writes. -/
def outWrites (d : Device) (o : ColOp) : List (Nat × List Byte) :=
  segmentWrites o (groupSize d o.entry) (ownRank d o.entry)

/-- The operation after its segment is written out. -/
def nextSegment (o : ColOp) : ColOp :=
  { o with segment := o.segment + 1, phase := 0, step := 0, input := [], work := [], sentTo := [], got := [] }

/-- A segment's bytes go to their places, and the next segment begins, or the descriptor is done. -/
def storeSegment (n : Nat) (o : ColOp) (ws : List (Nat × List Byte)) (ass : List (List Nat)) : Eff :=
  .seq (.each (ass.zip (ws.map (·.2))) fun e => store e.1 e.2) <|
    if (nextSegment o).segment < (nextSegment o).segments then putColOps n (some (nextSegment o))
    else .all [putColOps n (some (nextSegment o)), colEnd n o.index 0, addWrap F.COL_GROUP_STAT_completed o.entry 1]

section
variable {d : Device} {n : Nat} {fixed lost : List Nat}

theorem run_colWriteOut_none (ho : d.colOpsAt n = none) : (colWriteOut n fixed lost).run d = d := by
  simp only [colWriteOut, Eff.run_obs, ho, Eff.run_skip]

variable {o : ColOp} (ho : d.colOpsAt n = some o)
include ho

theorem run_colWriteOut_waits (h : o.phase ≠ 2 ∨
    readsHeld d (ringCtx d n) ((outWrites d o).map fun e => (e.1, e.2.length)) .write = true) :
    (colWriteOut n fixed lost).run d = d := by
  have hg : (o.phase == 2 && !readsHeld d (ringCtx d n) ((outWrites d o).map fun e => (e.1, e.2.length)) .write) = false := by
    rcases h with h | h
    · rw [beq_false_of_ne h, Bool.false_and]
    · rw [h, Bool.not_true, Bool.and_false]
  rw [outWrites] at hg
  simp only [colWriteOut, Eff.run_obs, ho, hg, Eff.when_false, Eff.run_skip]

variable (hp : o.phase = 2) (hh : readsHeld d (ringCtx d n) ((outWrites d o).map fun e => (e.1, e.2.length)) .write = false)
  {d' : Device} (hd : (agentReads n ((stagingAddrs d n o .read).getD []) fixed lost).run d = d')
include hp hh hd

/-- A segment whose results are read back goes by the fault met there and by the places that it writes. -/
theorem run_colWriteOut_read : (colWriteOut n fixed lost).run d =
    (match stagingFault d' n o, (outWrites d o).mapM fun e => translateRange d' (ringCtx d n) e.1 .write e.2.length with
      | some st, _ => colFail n o st
      | none, none => colFail n o 2
      | none, some ass =>
        if !writable ass.flatten then colFail n o 2 else storeSegment n o (outWrites d o) ass : Eff).run d' := by
  rw [stagingAddrs] at hd
  rw [outWrites] at hh
  rw [colWriteOut, Eff.run_obs, ho]
  dsimp only
  rw [hp, hh, beq_self_eq_true, Bool.not_false, Bool.and_self, Eff.when_true, Eff.run_seq, hd, Eff.run_obs]
  rfl

theorem run_colWriteOut_fault {st : Nat} (hs : stagingFault d' n o = some st) :
    (colWriteOut n fixed lost).run d = (colFail n o st).run d' := by
  rw [run_colWriteOut_read ho hp hh hd, hs]

variable (hs : stagingFault d' n o = none)
include hs

theorem run_colWriteOut_unwritable
    (ht : ((outWrites d o).mapM fun e => translateRange d' (ringCtx d n) e.1 .write e.2.length) = none ∨
      ∃ ass, ((outWrites d o).mapM fun e => translateRange d' (ringCtx d n) e.1 .write e.2.length) = some ass ∧
        writable ass.flatten = false) : (colWriteOut n fixed lost).run d = (colFail n o 2).run d' := by
  rw [run_colWriteOut_read ho hp hh hd, hs]
  rcases ht with ht | ⟨ass, ht, hw⟩
  · rw [ht]
  · rw [ht]
    dsimp only
    rw [hw, Bool.not_false, if_pos rfl]

theorem run_colWriteOut_stores {ass : List (List Nat)}
    (ht : ((outWrites d o).mapM fun e => translateRange d' (ringCtx d n) e.1 .write e.2.length) = some ass)
    (hw : writable ass.flatten = true) :
    (colWriteOut n fixed lost).run d = (storeSegment n o (outWrites d o) ass).run d' := by
  rw [run_colWriteOut_read ho hp hh hd, hs, ht]
  dsimp only
  rw [hw, Bool.not_true, if_neg Bool.false_ne_true]

end

/-! ### COL_COMPLETE (R333, R341) -/

section
variable {d : Device} {n : Nat}

theorem run_colComplete_none (h : NoneDone d n) : (colComplete n).run d = d := by
  rcases h with h | ⟨x, rest, h, hx⟩
  · simp only [colComplete, Eff.run_obs, h, Eff.run_skip]
  · simp only [colComplete, Eff.run_obs, h, hx, Eff.run_skip]

theorem halts_col (hk : ringKind n = .col) (st : Nat) : halts n st = (st != 0) := by
  rw [halts, hk]

variable {x : Desc} {rest : List Desc} {st : Nat} (hr : d.ringsAt n = x :: rest) (hx : x.status = some st)
include hr hx

theorem run_colComplete_some : (colComplete n).run d =
    (Eff.when (ringKind n == .col && ringState d n != 4 && !(descAddrs d n x.index .write).any (agentHeld d (ringPart d n)))
      (completeDesc n x st (colTail d n x st) (signalDesc n x))).run d := by
  rw [colComplete, Eff.run_obs, hr]
  dsimp only
  rw [hx]

theorem run_colComplete_waits (h : ringKind n ≠ .col ∨ ringState d n = 4 ∨
    (descAddrs d n x.index .write).any (agentHeld d (ringPart d n)) = true) : (colComplete n).run d = d := by
  rw [run_colComplete_some hr hx]
  rcases h with h | h | h
  · rw [beq_false_of_ne h, Bool.false_and, Bool.false_and, Eff.when_false, Eff.run_skip]
  · rw [h, bne_self_eq_false, Bool.and_false, Bool.false_and, Eff.when_false, Eff.run_skip]
  · rw [h, Bool.not_true, Bool.and_false, Eff.when_false, Eff.run_skip]

theorem run_colComplete (hk : ringKind n = .col) (hs : ringState d n ≠ 4)
    (hh : (descAddrs d n x.index .write).any (agentHeld d (ringPart d n)) = false) :
    (colComplete n).run d = (completeDesc n x st (colTail d n x st) (signalDesc n x)).run d := by
  rw [run_colComplete_some hr hx, beq_iff_eq.2 hk, bne_iff_ne.2 hs, hh, Bool.not_false, Bool.and_self, Bool.and_self,
    Eff.when_true]

end

/-! ### STEP_TIMEOUT (R340) -/

/-- The ranks that the step of an operation still awaits, with the bytes that each sends. -/
def lateRanks (d : Device) (o : ColOp) : List (Nat × Nat) :=
  (colAwaits o (groupSize d o.entry) (ownRank d o.entry)).filter fun e => !gotAll o e

/-- The time of a step of an operation, four times as long where a rank awaited set the pace flag. -/
def stepTime (d : Device) (o : ColOp) : Nat := d.fld F.COL_GROUP_LIST_timeout_ms o.entry * (if o.paced then 4 else 1)

section
variable {d : Device} {n ms : Nat}

theorem run_stepTimeout_none (ho : d.colOpsAt n = none) : (stepTimeout n ms).run d = d := by
  simp only [stepTimeout, Eff.run_obs, ho, Eff.run_skip]

variable {o : ColOp} (ho : d.colOpsAt n = some o)
include ho

theorem run_stepTimeout_some : (stepTimeout n ms).run d = (Eff.when (o.phase == 1 && stepTime d o ≤ ms && lateRanks d o != [])
    (suspectRank o.entry (((lateRanks d o).map (·.1)).foldl min 65535) 1)).run d := by
  rw [stepTimeout, Eff.run_obs, ho]
  rfl

theorem run_stepTimeout (hp : o.phase = 1) (ht : stepTime d o ≤ ms) (hl : lateRanks d o ≠ []) : (stepTimeout n ms).run d =
    (suspectRank o.entry (((lateRanks d o).map (·.1)).foldl min 65535) 1).run d := by
  rw [run_stepTimeout_some ho, hp, decide_eq_true ht, bne_iff_ne.2 hl, beq_self_eq_true, Bool.and_self, Bool.and_self,
    Eff.when_true]

theorem run_stepTimeout_early (h : o.phase ≠ 1 ∨ ms < stepTime d o ∨ lateRanks d o = []) : (stepTimeout n ms).run d = d := by
  rw [run_stepTimeout_some ho]
  rcases h with h | h | h
  · rw [beq_false_of_ne h, Bool.false_and, Bool.false_and, Eff.when_false, Eff.run_skip]
  · rw [decide_eq_false (Nat.not_le.2 h), Bool.and_false, Bool.false_and, Eff.when_false, Eff.run_skip]
  · rw [h, bne_self_eq_false, Bool.and_false, Eff.when_false, Eff.run_skip]

end

/-! ### COL_READY and COL_DATA (R339) -/

/-- A READY that comes is held. -/
def holdReady (g : Nat) (p : Packet) : Eff := modColGroups g fun e => { e with
  readies := e.readies ++ [⟨bodySerial p, bodySegment p, bodyStep p, bodySrcRank p, (bodyArgs p).take 14⟩] }

/-- The ring whose operation on a group has a packet's serial goes on by `e`. -/
def onOpRing (g : Nat) (p : Packet) (e : Nat → Eff) (d : Device) : Eff :=
  match opRing d g (bodySerial p) with
  | some n => e n
  | none => .skip

/-- A READY is noted for its pace and checked. -/
def noteReady (p : Packet) (n : Nat) : Eff := .seq (notePace n p) (checkReady n)

/-- Data is noted for its pace and taken in where it is of the current step, and the operation goes on. -/
def takeData (p : Packet) (n : Nat) : Eff := .seq (notePace n p) <| .seq
  (modColOps n (Option.map fun o =>
    if o.phase == 1 && o.segment == bodySegment p && o.step == bodyStep p then
      { o with got := o.got ++ [(bodySrcRank p, bodyOffset p, p.data, bit (bodyFlags p) 1 == 1)] } else o))
  (progress n)

section
variable {d : Device} {g n : Nat} {p : Packet} {e : Nat → Eff}

theorem onOpRing_some (h : opRing d g (bodySerial p) = some n) : onOpRing g p e d = e n := by
  simp only [onOpRing, h]

theorem onOpRing_none (h : opRing d g (bodySerial p) = none) : onOpRing g p e d = .skip := by
  simp only [onOpRing, h]

/-- A READY that is held changes no operation, nor which ring runs it. -/
theorem opRing_holdReady (d : Device) (g serial : Nat) (p : Packet) : opRing ((holdReady g p).run d) g serial = opRing d g serial := rfl

end

/-! ### The commands -/

section
variable {s : State} {n : Nat} (hn : n < 9984) (hw : working s.dev = true)
include hn hw

theorem does_stageInDone (fixed lost : List Nat) : Does (.stageInDone n fixed lost) s (stageInDone n fixed lost) :=
  does_whileIt (decide_eq_true hn) hw rfl

theorem does_colWriteOut (fixed lost : List Nat) : Does (.colWriteOut n fixed lost) s (colWriteOut n fixed lost) :=
  does_whileIt (decide_eq_true hn) hw rfl

theorem does_colComplete : Does (.colComplete n) s (colComplete n) := does_whileIt (decide_eq_true hn) hw rfl

theorem does_stepTimeout (ms : Nat) : Does (.stepTimeout n ms) s (stepTimeout n ms) := does_whileIt (decide_eq_true hn) hw rfl

end

section
variable {s : State} {d : Device} {i seq g : Nat} {bs : List Byte} {p : Packet} (hw : working s.dev = true)
include hw

theorem gives_colReady (h : Reaches s i seq bs 1 g p d) :
    Gives (.colReady i seq bs) s d (.seq (holdReady g p) (onOpRing g p (noteReady p) d)) :=
  (gives_colPacket (act := fun g p => .seq (holdReady g p) (.obs (onOpRing g p (noteReady p)))) h hw rfl).of_run (by
    rw [Eff.run_seq, Eff.run_seq, Eff.run_obs, onOpRing, opRing_holdReady, onOpRing])

theorem gives_colData (h : Reaches s i seq bs 2 g p d) : Gives (.colData i seq bs) s d (onOpRing g p (takeData p) d) := by
  refine (gives_colPacket (c := .colData i seq bs) (guard := working) h hw rfl).of_run ?_
  rw [Eff.run_obs, onOpRing]
  cases opRing d g (bodySerial p) with
  | none => rfl
  | some n => rfl

end

/-- Settles O39: a stage-in goes by the operation's phase, by what holds its ranges and by what they come to; a write-out by its phase,
by the staging that is read back and by the places that it writes; a completion by the oldest descriptor and by whether it can be
written back; a time-out by the ranks still awaited; a message by the ring that runs its serial, or by what of its key and its epoch is
not right. The bytes of staging are free values (log entry 25), staging in no tier 0 window and staging that cannot be read back end
the descriptor (log entry 139), and a packet of no group counts in LNK_DROPS.epoch (log entry 78). -/
theorem collectiveSteps : Obligations.CollectiveSteps := by
  refine ⟨fun s n fixed lost hn hw => ?_, fun s n fixed lost hn hw => ?_, fun s n hn hw => ?_, fun s n ms hn hw => ?_,
    fun s d i seq g bs p h hw => ?_, fun s d i seq g bs p h hw => ?_,
    fun s d d1 i seq msg k bs data f q c entry hc hw ha hm hb hd he => ?_⟩
  · have hx := does_stageInDone hn hw fixed lost
    refine ⟨fun ho => hx.of_run (run_stageInDone_none ho), fun o ho hp => hx.of_run (run_stageInDone_phase ho hp),
      fun o m r c rs staging ho hp hm hr hc hrs hst => ?_⟩
    subst hm hr hc
    obtain rfl : rs = stageReads s.dev o := hrs
    obtain rfl : staging = stagingAddrs s.dev n o := funext hst
    refine ⟨fun hc => hx.of_run (run_stageInDone_critical ho hp hc), fun hc hh => hx.of_run (run_stageInDone_held ho hp hc hh),
      fun hc hh => ⟨fun ht => hx.of_run (run_stageInDone_unreadable ho hp hc hh ht), fun ass as ht hr =>
        ⟨fun hw => hx.of_run (run_stageInDone_unwritable ho hp hc hh ht hr hw), fun st hw =>
          ⟨fun hf => hx.of_run (run_stageInDone_outside ho hp hc hh ht hr hw hf), fun d hf hd =>
            ⟨fun ha => hx.of_run (run_stageInDone_poison ho hp hc hh ht hr hw hf hd ha), fun o1 ha ho1 => ?_⟩⟩⟩⟩⟩
    subst ho1
    exact hx.of_run (run_stageInDone_enters ho hp hc hh ht hr hw hf hd ha)
  · have hx := does_colWriteOut hn hw fixed lost
    refine ⟨fun ho => hx.of_run (run_colWriteOut_none ho), fun o c ws ho hc hws => ?_⟩
    subst hc
    obtain rfl : ws = outWrites s.dev o := hws
    refine ⟨fun h => hx.of_run (run_colWriteOut_waits ho h), fun d hp hh hd =>
      ⟨fun st hs => hx.of_run (run_colWriteOut_fault ho hp hh hd hs),
        fun hs ht => hx.of_run (run_colWriteOut_unwritable ho hp hh hd hs ht), fun ass o' hs ht hw ho' => ?_⟩⟩
    obtain rfl : o' = nextSegment o := ho'
    exact hx.of_run (run_colWriteOut_stores ho hp hh hd hs ht hw)
  · have hx := does_colComplete hn hw
    refine ⟨fun hr => hx.of_run (run_colComplete_none (.inl hr)),
      fun x rest hr ht => hx.of_run (run_colComplete_none (.inr ⟨x, rest, hr, ht⟩)),
      fun st x rest hr ht => ⟨fun h => hx.of_run (run_colComplete_waits hr ht h), fun hk hs hh => ?_⟩⟩
    have hd := hx.of_run (run_colComplete hr ht hk hs hh)
    refine ⟨fun hb => hd.of_run ?_, fun hb => hd.of_run (run_completeDesc_lost hb)⟩
    rw [run_completeDesc hb hs, halts_col hk]
  · have hx := does_stepTimeout hn hw ms
    refine ⟨fun ho => hx.of_run (run_stepTimeout_none ho), fun o late ho hl => ?_⟩
    obtain rfl : late = lateRanks s.dev o := hl
    exact ⟨fun hp ht hl => hx.of_run (run_stepTimeout ho hp ht hl), fun h => hx.of_run (run_stepTimeout_early ho h)⟩
  · have hx := gives_colReady hw h
    refine ⟨fun n hr => ?_, fun hr => ?_⟩
    · rw [onOpRing_some hr] at hx
      exact hx
    · rw [onOpRing_none hr] at hx
      exact hx
  · have hx := gives_colData hw h
    refine ⟨fun n hr => ?_, fun hr => ?_⟩
    · rw [onOpRing_some hr] at hx
      exact hx
    · rw [onOpRing_none hr] at hx
      exact hx
  · obtain ⟨act, hx⟩ := does_colPacket hc ha.ok ha.powered hw
    obtain rfl : entry = keyedEntry d1 q := he
    refine ⟨fun hg => hx.of_run (run_colPacket_noGroup ha hm hb hd hg), fun g hg h => ?_⟩
    rw [← wantedEpoch_eq] at h
    exact hx.of_run (run_colPacket_stale ha hm hb hd hg h)

end Sys2Proof.Machine
end

section
/-! PROOFS. Re-formation, abort and exclusion (R331, R341, R344 to R346, R350). -/

namespace Sys2Proof.Machine

/- As in the tests, one theorem after another: each one elaborated beside others holds a thread's stack. -/
set_option Elab.async false

/-- An action on each element that does nothing on any of them does nothing. -/
theorem run_each_skip {α : Type} (xs : List α) (d : Device) : (Eff.each xs fun _ => .skip).run d = d := by
  induction xs with
  | nil => rfl
  | cons x xs ih => rw [Eff.run_each_cons, Eff.run_skip, ih]

/-! ### SUSPECT_WINDOW_END (R345 step 3, R346) -/

/-- The ranks of a group that the leader removes, and those that stay. -/
def removedOf (d : Device) (g : Nat) : List Nat := (removedRanks (d.colGroupsAt g).gathered).filter (· < groupSize d g)
def leftOf (d : Device) (g : Nat) : List Nat := (List.range (groupSize d g)).filter fun r => !(removedOf d g).contains r

/-- The group aborts where ranks fail: it is to, or too many are removed, or too few stay. -/
def aborts (d : Device) (g : Nat) : Bool :=
  d.fld F.COL_GROUP_on_fail g == 1 || 63 < (removedOf d g).length || (leftOf d g).length < 2

/-- The leader tells those that stay of the ranks removed, and these that they are out, and re-forms the group. -/
def leadReform (d : Device) (g : Nat) : Eff := .all [
  .each ((leftOf d g).filter (· != ownRank d g)) (fun r =>
    colControl g 4 (nextEpoch (d.fld F.COL_GROUP_epoch g)) (rankId d g r) r
      (toLE 2 (removedOf d g).length ++ (removedOf d g).flatMap (toLE 2))),
  .each (removedOf d g) (fun r => .when (r != ownRank d g) (colControl g 8 (d.fld F.COL_GROUP_epoch g) (rankId d g r) r [])),
  reformLocal g (removedOf d g),
  modColGroups g fun x => { x with acks := ((leftOf d g).filter (· != ownRank d g)).map (rankId d g) }]

/-- The leader tells every member that the group aborts, and aborts it. -/
def leadAbort (d : Device) (g : Nat) : Eff := .seq
  (.each ((List.range (groupSize d g)).filter (· != ownRank d g)) fun r =>
    colControl g 7 (nextEpoch (d.fld F.COL_GROUP_epoch g)) (rankId d g r) r [])
  (abortLocal g)

section
variable {d : Device} {g : Nat}

theorem aborts_iff : aborts d g = true ↔
    d.fld F.COL_GROUP_on_fail g = 1 ∨ 63 < (removedOf d g).length ∨ (leftOf d g).length < 2 := by
  simp only [aborts, Bool.or_eq_true, beq_iff_eq, decide_eq_true_eq, or_assoc]

theorem not_aborts (hf : d.fld F.COL_GROUP_on_fail g ≠ 1) (hr : (removedOf d g).length ≤ 63) (hl : 2 ≤ (leftOf d g).length) :
    aborts d g = false := by
  rw [Bool.eq_false_iff, ne_eq, aborts_iff]
  omega

theorem run_suspectWindowEnd_none
    (h : d.fld F.COL_GROUP_valid g ≠ 1 ∨ d.fld F.COL_GROUP_excluded g ≠ 0 ∨ removedOf d g = []) :
    (suspectWindowEnd g).run d = d := by
  have hc : (d.fld F.COL_GROUP_valid g == 1 && d.fld F.COL_GROUP_excluded g == 0 && removedOf d g != []) = false := by
    rcases h with h | h | h
    · rw [beq_false_of_ne h, Bool.false_and, Bool.false_and]
    · rw [beq_false_of_ne h, Bool.and_false, Bool.false_and]
    · rw [h, bne_self_eq_false, Bool.and_false]
  rw [removedOf] at hc
  rw [suspectWindowEnd, Eff.run_obs]
  dsimp only
  rw [hc, Eff.when_false, Eff.run_skip]

variable (hv : d.fld F.COL_GROUP_valid g = 1) (he : d.fld F.COL_GROUP_excluded g = 0) (hr : removedOf d g ≠ [])
include hv he hr

theorem run_suspectWindowEnd : (suspectWindowEnd g).run d = (Eff.all [
    .each ((if aborts d g then List.range (groupSize d g) else leftOf d g).filter (· != ownRank d g)) (fun r =>
      colControl g (if aborts d g then 7 else 4) (nextEpoch (d.fld F.COL_GROUP_epoch g)) (rankId d g r) r
        (if aborts d g then [] else toLE 2 (removedOf d g).length ++ (removedOf d g).flatMap (toLE 2))),
    .each (removedOf d g) (fun r =>
      .when (!aborts d g && r != ownRank d g) (colControl g 8 (d.fld F.COL_GROUP_epoch g) (rankId d g r) r [])),
    if aborts d g then abortLocal g
    else .seq (reformLocal g (removedOf d g)) (modColGroups g fun x => { x with
      acks := ((if aborts d g then List.range (groupSize d g) else leftOf d g).filter (· != ownRank d g)).map
        (rankId d g) })]).run d := by
  have hc : (d.fld F.COL_GROUP_valid g == 1 && d.fld F.COL_GROUP_excluded g == 0 && removedOf d g != []) = true := by
    rw [hv, he, beq_self_eq_true, beq_self_eq_true, bne_iff_ne.2 hr, Bool.and_self, Bool.and_self]
  rw [removedOf] at hc
  rw [suspectWindowEnd, Eff.run_obs]
  dsimp only
  rw [hc, Eff.when_true]
  rfl

theorem run_suspectWindowEnd_reforms (ha : aborts d g = false) : (suspectWindowEnd g).run d = (leadReform d g).run d := by
  rw [run_suspectWindowEnd hv he hr, ha]
  simp only [leadReform, Bool.false_eq_true, if_false, Bool.not_false, Bool.true_and, Eff.run_all_cons, Eff.run_all_nil, Eff.run_seq]

theorem run_suspectWindowEnd_aborts (ha : aborts d g = true) : (suspectWindowEnd g).run d = (leadAbort d g).run d := by
  rw [run_suspectWindowEnd hv he hr, ha]
  simp only [leadAbort, if_true, Bool.not_true, Bool.false_and, Eff.when_false, Eff.run_all_cons, Eff.run_all_nil, Eff.run_seq,
    run_each_skip]

end

/-! ### REFORM_ACK (R345 step 6) -/

/-- What an acknowledgement of the new epoch from a member does at the leader. -/
def ackReform (g : Nat) (p : Packet) (d : Device) : Eff :=
  .when ((d.colGroupsAt g).acks.contains p.src) <|
    .seq (modColGroups g fun e => { e with acks := (d.colGroupsAt g).acks.filter (· != p.src) }) <|
    .when ((d.colGroupsAt g).acks.filter (· != p.src)).isEmpty <| .seq
      (.each ((List.range (groupSize d g)).filter (· != ownRank d g)) fun r =>
        colControl g 6 (d.fld F.COL_GROUP_epoch g) (rankId d g r) r [])
      (modColGroups g fun e => { e with forming := false })

section
variable {d : Device} {g : Nat} {p : Packet}

theorem run_ackReform_unawaited (h : (d.colGroupsAt g).acks.contains p.src = false) : (ackReform g p d).run d = d := by
  rw [ackReform, h, Eff.when_false, Eff.run_skip]

variable (h : (d.colGroupsAt g).acks.contains p.src = true)
include h

theorem run_ackReform_last (hl : (d.colGroupsAt g).acks.filter (· != p.src) = []) : (ackReform g p d).run d =
    (Eff.all [modColGroups g (fun e => { e with acks := [] }),
      .each ((List.range (groupSize d g)).filter (· != ownRank d g)) (fun r =>
        colControl g 6 (d.fld F.COL_GROUP_epoch g) (rankId d g r) r []),
      modColGroups g fun e => { e with forming := false }]).run d := by
  rw [ackReform, h, Eff.when_true, hl, List.isEmpty_nil, Eff.when_true]
  simp only [Eff.run_all_cons, Eff.run_all_nil, Eff.run_seq]

theorem run_ackReform_more (hl : ((d.colGroupsAt g).acks.filter (· != p.src)).isEmpty = false) : (ackReform g p d).run d =
    (modColGroups g fun e => { e with acks := (d.colGroupsAt g).acks.filter (· != p.src) }).run d := by
  rw [ackReform, h, Eff.when_true, hl, Eff.when_false, Eff.run_seq, Eff.run_skip]

end

/-! ### What the other messages of a re-formation do (R345, R346) -/

/-- SUSPECT at the leader: it is gathered. -/
def gatherSuspect (g : Nat) (p : Packet) : Eff := modColGroups g fun e => { e with
  gathered := e.gathered ++ [(bodySrcRank p, num (bodyArgs p) 0 2, num (bodyArgs p) 2 1)], forming := true }

/-- REFORM at a member that stays: it takes the new epoch and acknowledges it. -/
def takeReform (g : Nat) (p : Packet) : Eff := .all [
  reformLocal g ((List.range (min 63 (num (bodyArgs p) 0 2))).map fun j => num (bodyArgs p) (2 + 2 * j) 2),
  modColGroups g (fun e => { e with forming := true }),
  .obs fun d => colControl g 5 (d.fld F.COL_GROUP_epoch g) p.src ((d.colGroupsAt g).current.idxOf p.src) []]

/-- COMMIT at a member: the group is served again. -/
def endForming (g : Nat) : Eff := modColGroups g fun e => { e with forming := false }

/-- EXCLUDE at its member: the group's descriptors end, and the device is out of it. -/
def leaveGroup (g : Nat) : Eff := .all [endGroup g 10, setF F.COL_GROUP_excluded g 1,
  modColGroups g fun e => { e with forming := false, gathered := [], doubted := [] }]

/-! ### LEADER_TIMEOUT (R350) and COL_REMOVE (R344) -/

section
variable {d : Device} {g : Nat}

theorem run_leaderTimeout (hv : d.fld F.COL_GROUP_valid g = 1) (hf : (d.colGroupsAt g).forming = true)
    (hd : (d.colGroupsAt g).doubted ≠ []) (hl : leaderOf d g ≠ ownRank d g) : (leaderTimeout g).run d =
    (Eff.each ((d.colGroupsAt g).doubted ++ [leaderOf d g]) fun r => .seq
      (modColGroups g fun e => { e with
        doubted := if e.doubted.contains (leaderOf d g) then e.doubted else e.doubted ++ [leaderOf d g] })
      (suspectRank g r 1)).run d := by
  rw [leaderTimeout, Eff.run_obs]
  dsimp only
  rw [hv, hf, bne_iff_ne.2 hd, bne_iff_ne.2 hl, beq_self_eq_true, Bool.and_self, Bool.and_self,
    Bool.and_self, Eff.when_true]

theorem run_leaderTimeout_none (h : d.fld F.COL_GROUP_valid g ≠ 1 ∨ (d.colGroupsAt g).forming = false ∨
    (d.colGroupsAt g).doubted = [] ∨ leaderOf d g = ownRank d g) : (leaderTimeout g).run d = d := by
  have hc : (d.fld F.COL_GROUP_valid g == 1 && (d.colGroupsAt g).forming && (d.colGroupsAt g).doubted != [] &&
      leaderOf d g != ownRank d g) = false := by
    rcases h with h | h | h | h
    · rw [beq_false_of_ne h, Bool.false_and, Bool.false_and, Bool.false_and]
    · rw [h, Bool.and_false, Bool.false_and, Bool.false_and]
    · rw [h, bne_self_eq_false, Bool.and_false, Bool.false_and]
    · rw [h, bne_self_eq_false, Bool.and_false]
  rw [leaderTimeout, Eff.run_obs]
  dsimp only
  rw [hc, Eff.when_false, Eff.run_skip]

variable {p v : Nat}

/-- What a write of COL_PRT_REMOVE that its writer may make does: it names a rank of an entry that the partition owns. -/
def removeActs (p v : Nat) (d : Device) : Eff :=
  .when (bit v 31 == 1 && d.fld F.COL_GROUP_valid (bits v 27 16) == 1 && d.fld F.COL_GROUP_partition (bits v 27 16) == p &&
    bits v 15 0 < groupSize d (bits v 27 16)) (suspectRank (bits v 27 16) (bits v 15 0) 4)

theorem run_removeActs (hv : bit v 31 = 1) (ho : d.fld F.COL_GROUP_valid (bits v 27 16) = 1)
    (hp : d.fld F.COL_GROUP_partition (bits v 27 16) = p) (hr : bits v 15 0 < groupSize d (bits v 27 16)) :
    (removeActs p v d).run d = (suspectRank (bits v 27 16) (bits v 15 0) 4).run d := by
  rw [removeActs, hv, ho, hp, decide_eq_true hr, beq_self_eq_true, beq_self_eq_true]
  rfl

theorem run_removeActs_none (h : bit v 31 = 0 ∨ d.fld F.COL_GROUP_valid (bits v 27 16) ≠ 1 ∨
    d.fld F.COL_GROUP_partition (bits v 27 16) ≠ p ∨ groupSize d (bits v 27 16) ≤ bits v 15 0) :
    (removeActs p v d).run d = d := by
  rw [removeActs, Eff.run_when, if_neg]
  simp only [Bool.and_eq_true, beq_iff_eq, decide_eq_true_eq]
  omega

end

/-! ### The commands -/

section
variable {s : State} {g : Nat} (hg : g < 4096) (hp : powered s.dev = true)
include hg hp

theorem does_suspectWindowEnd : Does (.suspectWindowEnd g) s (suspectWindowEnd g) :=
  does_whileIt (decide_eq_true hg) hp rfl

theorem does_leaderTimeout : Does (.leaderTimeout g) s (leaderTimeout g) := does_whileIt (decide_eq_true hg) hp rfl

end

section
variable {s : State} {d : Device} {i seq g : Nat} {bs : List Byte} {p : Packet}

theorem gives_suspect (h : Reaches s i seq bs 3 g p d) : Gives (.suspect i seq bs) s d (gatherSuspect g p) :=
  gives_colPacket (act := gatherSuspect) h h.powered rfl

theorem gives_reform (h : Reaches s i seq bs 4 g p d) : Gives (.reform i seq bs) s d (takeReform g p) :=
  gives_colPacket (act := takeReform) h h.powered rfl

theorem gives_colCommit (h : Reaches s i seq bs 6 g p d) : Gives (.colCommit i seq bs) s d (endForming g) :=
  gives_colPacket (act := fun g _ => endForming g) h h.powered rfl

theorem gives_colAbort (h : Reaches s i seq bs 7 g p d) : Gives (.colAbort i seq bs) s d (abortLocal g) :=
  gives_colPacket (act := fun g _ => abortLocal g) h h.powered rfl

theorem gives_exclude (h : Reaches s i seq bs 8 g p d) : Gives (.exclude i seq bs) s d (leaveGroup g) :=
  gives_colPacket (act := fun g _ => leaveGroup g) h h.powered rfl

theorem gives_reformAck (h : Reaches s i seq bs 5 g p d) : Gives (.reformAck i seq bs) s d (ackReform g p d) :=
  (gives_colPacket (act := fun g p => .obs (ackReform g p)) h h.powered rfl).of_run (Eff.run_obs _ _)

end

section
variable {s : State} {d : Device} {rq p v : Nat} (hp : p < 32)
include hp

theorem gives_colRemove (h : Writes s rq .COL_PRT_REMOVE p v 31 d) : Gives (.colRemove rq p v) s d (removeActs p v d) :=
  (gives_writes (e := .obs (removeActs p v)) (by simp [h.asks.lt, hp]) h rfl).of_run (Eff.run_obs _ _)

theorem gives_colRemove_denied (h : Asks s rq d) (hb : bit (mayWrite d rq .COL_PRT_REMOVE p) 31 = 0) :
    Gives (.colRemove rq p v) s d denied :=
  (gives_hostDo (by simp [h.lt, hp]) h rfl).of_run (run_writeAct_denied hb v _)

end

/-- Settles O40: a message that reaches its group does what its command says there; the end of the window goes by the ranks gathered and
by whether the group aborts, an acknowledgement by those still awaited, a time-out by the leader, a removal by the right and the entry.
A member that is excluded does not lead (log entry 79). -/
theorem reformation : Obligations.Reformation := by
  refine ⟨fun s d i seq g bs p h => gives_suspect h, fun s g removed left hg hp hr hl => ?_,
    fun s d i seq g bs p h => gives_reform h, fun s d i seq g bs p h => ?_, fun s d i seq g bs p h => gives_colCommit h,
    fun s d i seq g bs p h => gives_colAbort h, fun s d i seq g bs p h => gives_exclude h, fun s g hg hp => ?_,
    fun s d rq p v g hp h hg => ?_, fun s d rq p v hp h hb => gives_colRemove_denied hp h hb⟩
  · have hx := does_suspectWindowEnd hg hp
    obtain rfl : removed = removedOf s.dev g := hr
    obtain rfl : left = leftOf s.dev g := hl
    exact ⟨fun hv he hn => ⟨fun hf hm hk => hx.of_run (run_suspectWindowEnd_reforms hv he hn (not_aborts hf hm hk)),
        fun ha => hx.of_run (run_suspectWindowEnd_aborts hv he hn (aborts_iff.2 ha))⟩,
      fun h => hx.of_run (run_suspectWindowEnd_none h)⟩
  · have hx := gives_reformAck h
    exact ⟨fun hc hl => hx.of_run (run_ackReform_last hc hl), fun hc hl => hx.of_run (run_ackReform_more hc hl),
      fun hc => hx.of_run (run_ackReform_unawaited hc)⟩
  · have hx := does_leaderTimeout hg hp
    exact ⟨fun hv hf hd hl => hx.of_run (run_leaderTimeout hv hf hd hl), fun h => hx.of_run (run_leaderTimeout_none h)⟩
  · have hx := gives_colRemove hp h
    subst hg
    exact ⟨fun hv ho hq hr => hx.of_run (run_removeActs hv ho hq hr), fun hn => hx.of_run (run_removeActs_none hn)⟩

end Sys2Proof.Machine
end

section
/-! PROOFS. Guards of effects that hold or fail, and effects that a condition decides between. -/

namespace Sys2Proof.Machine

theorem Eff.run_when_pos {c : Bool} (h : c = true) (e : Eff) (d : Device) : (Eff.when c e).run d = e.run d := by
  rw [h, Eff.when_true]

theorem Eff.run_when_neg {c : Bool} (h : c = false) (e : Eff) (d : Device) : (Eff.when c e).run d = d := by
  rw [h, Eff.when_false, Eff.run_skip]

/-- What a command does where a condition of the block decides between two effects. -/
theorem Gives.pos {c : Instr} {s : State} {d : Device} {e e' : Eff} {p : Prop} [Decidable p]
    (h : Gives c s d (if p then e else e')) (hp : p) : Gives c s d e := by
  rwa [if_pos hp] at h

theorem Gives.neg {c : Instr} {s : State} {d : Device} {e e' : Eff} {p : Prop} [Decidable p]
    (h : Gives c s d (if p then e else e')) (hp : ¬ p) : Gives c s d e' := by
  rwa [if_neg hp] at h

theorem bit_eq_zero {x i : Nat} (h : bit x i ≠ 1) : bit x i = 0 := by
  unfold bit at h ⊢
  omega

end Sys2Proof.Machine
end

section
/-! PROOFS. Creating a partition, the service mode, and the regulators (R390, R391, R393). -/

namespace Sys2Proof.Machine

/- As in the tests, one theorem after another: each one elaborated beside others holds a thread's stack. -/
set_option Elab.async false

/-! ### Creating a partition (R390, R391) -/

section
variable {d : Device} {p : Nat}

theorem run_createPartition_taken (hs : d.fld F.PRT_CTRL_state p ≠ 0) : (createPartition p).run d = d := by
  rw [createPartition, Eff.run_obs, Eff.run_when_neg (beq_false_of_ne hs)]

theorem run_createPartition_refused (hs : d.fld F.PRT_CTRL_state p = 0) (hr : createRefused d p = true) :
    (createPartition p).run d = (setF F.PRT_CTRL_conflict p 1).run d := by
  rw [createPartition, Eff.run_obs, Eff.run_when_pos (beq_iff_eq.2 hs), if_pos hr]

theorem run_createPartition (hs : d.fld F.PRT_CTRL_state p = 0) (hr : createRefused d p = false) :
    (createPartition p).run d = (Eff.all [setF F.PRT_CTRL_state p 1, setF F.PRT_CTRL_conflict p 0,
      setF F.PRT_SHAPE_clusters p (partClusters d p).length, setF F.PRT_SHAPE_groups p (partGroups d p).length,
      setF F.PRT_SHAPE_codecs p (partCodecs d p).length, setF F.PRT_SHAPE_vcs p (d.fld F.PRT_SHAPE_LNK_vcs p),
      setF F.PRT_SHAPE_link_dies p (d.fld F.PRT_SHAPE_LNK_link_dies p)]).run d := by
  rw [createPartition, Eff.run_obs, Eff.run_when_pos (beq_iff_eq.2 hs), if_neg (by simp [hr])]

end

/-! ### The regulators (R393) -/

section
variable {d : Device} {p k bytes filled : Nat}

theorem run_regulatorAdmit_open (hm : d.fld F.PRT_SVC_MODE_mode 0 = 0) : (regulatorAdmit p k bytes filled).run d = d := by
  rw [regulatorAdmit, Eff.run_obs, if_pos (beq_iff_eq.2 hm), Eff.run_skip]

/-- With a mode other than 0 what the bucket lacks is what it lacked less what has come in, and a request that passes adds its
bytes. -/
theorem run_regulatorAdmit (hm : d.fld F.PRT_SVC_MODE_mode 0 ≠ 0) : (regulatorAdmit p k bytes filled).run d =
    (putBuckets (p * 16 + k) (bucketTaken d p k filled + if admits d p k bytes filled then bytes else 0)).run d := by
  rw [regulatorAdmit, Eff.run_obs, if_neg (mt beq_iff_eq.1 hm)]
  cases admits d p k bytes filled <;> rfl

theorem admits_iff (hm : d.fld F.PRT_SVC_MODE_mode 0 ≠ 0) : admits d p k bytes filled = true ↔
    d.fld F.PRT_REG_rate (p * 16 + k) ≠ 0 ∧
      d.bucketsAt (p * 16 + k) - filled + bytes ≤ d.fld F.PRT_REG_depth (p * 16 + k) * 4096 := by
  rw [admits, beq_false_of_ne hm, Bool.false_or, Bool.and_eq_true, bne_iff_ne, decide_eq_true_eq, bucketTaken, bucketSize]

theorem does_regulatorAdmit {s : State} (hp : p < 32) (hk : k < 16) (hw : working s.dev = true) :
    Does (.regulatorAdmit p k bytes filled) s (regulatorAdmit p k bytes filled) :=
  does_whileIt (by simp [hp, hk]) hw rfl

end

/-- Settles O8: a create goes by whether the partition is free and its shape may be had, and REGULATOR_ADMIT by the mode and by
whether the bucket holds the bytes of the request. -/
theorem partitions : Obligations.Partitions := by
  have creates {s : State} {d : Device} {rq p v : Nat} (hp : p < 32) (h : Writes s rq .PRT_CTRL p v 31 d) :
      Gives (.partitionCreate rq p v) s d (createPartition p) := gives_writes (by simp [h.asks.lt, hp]) h rfl
  refine ⟨fun s d rq p v hp h hs hr => (creates hp h).of_run (run_createPartition hs hr),
    fun s d rq p v hp h hs hr => (creates hp h).of_run (run_createPartition_refused hs hr),
    fun s d rq p v hp h hs => (creates hp h).of_run (run_createPartition_taken hs),
    fun s d rq v h => gives_writes (decide_eq_true h.asks.lt) h rfl,
    fun s p k bytes filled hp hk hw hm hr hb => (does_regulatorAdmit hp hk hw).of_run ?_,
    fun s p k bytes filled hp hk hw hm h => (does_regulatorAdmit hp hk hw).of_run ?_,
    fun s p k bytes filled hp hk hw hm => (does_regulatorAdmit hp hk hw).of_run (run_regulatorAdmit_open hm)⟩
  · rw [run_regulatorAdmit hm, (admits_iff hm).2 ⟨hr, hb⟩]
    rfl
  · have ha : admits s.dev p k bytes filled = false := by
      rw [← Bool.not_eq_true, admits_iff hm]
      omega
    rw [run_regulatorAdmit hm, ha]
    rfl

end Sys2Proof.Machine
end

section
/-! PROOFS. What the registers of a context ask for (R394, R395, R399, R400, R406). -/

namespace Sys2Proof.Machine

/- As in the tests, one theorem after another: each one elaborated beside others holds a thread's stack. -/
set_option Elab.async false

/-! ### CTX_SET_WRITE and CTX_CLEAR (R394, R395) -/

section
variable {d : Device} {c : Nat}

theorem run_setCtxSet (h : d.fld F.CTX_RUN_state c = 0) (v : Nat) : (setCtxSet c v).run d =
    (Eff.seq (setF F.CTX_BIND_set c (bits v 15 0)) (setF F.CTX_BIND_refused c 0)).run d := by
  rw [setCtxSet, Eff.run_obs, Eff.run_when_pos (beq_iff_eq.2 h)]

theorem run_setCtxSet_busy (h : d.fld F.CTX_RUN_state c ≠ 0) (v : Nat) : (setCtxSet c v).run d = d := by
  rw [setCtxSet, Eff.run_obs, Eff.run_when_neg (beq_false_of_ne h)]

theorem run_clearCtx (h : d.fld F.CTX_RUN_state c = 5) : (clearCtx c).run d = (setF F.CTX_RUN_state c 0).run d := by
  rw [clearCtx, Eff.run_obs, Eff.run_when_pos (beq_iff_eq.2 h)]

theorem run_clearCtx_notFaulted (h : d.fld F.CTX_RUN_state c ≠ 5) : (clearCtx c).run d = d := by
  rw [clearCtx, Eff.run_obs, Eff.run_when_neg (beq_false_of_ne h)]

end

/-! ### CTX_GO (R394, R472) -/

section
variable {d : Device} {c p : Nat}

/-- The context is bound, idle and not barred by a quarantine: it asks for its set. -/
theorem run_goCtx (hp : ctxPart d c = some p) (h0 : d.fld F.CTX_RUN_state c = 0)
    (hq : d.fld F.SEC_KEYSTATE_quarantine 0 = 0) : (goCtx c).run d = (match d.active p with
      | none => setF F.CTX_BIND_refused c 1
      | some f =>
        if f.sets.length ≤ d.fld F.CTX_BIND_set c || setConflict d p f c (d.fld F.CTX_BIND_set c) then
          setF F.CTX_BIND_refused c 1
        else .all [setF F.CTX_RUN_state c 1, modCtxs c (fun x => { x with mapped := true }),
          requestPreempt p (d.fld F.CTX_BIND_set c)] : Eff).run d := by
  rw [goCtx, Eff.run_obs, hp]
  exact Eff.run_when_pos (by rw [beq_iff_eq.2 h0, beq_iff_eq.2 hq, Bool.and_self]) _ _

theorem run_goCtx_ready {f : Figure} (hp : ctxPart d c = some p) (h0 : d.fld F.CTX_RUN_state c = 0)
    (hq : d.fld F.SEC_KEYSTATE_quarantine 0 = 0) (hf : d.active p = some f) (hl : d.fld F.CTX_BIND_set c < f.sets.length)
    (hs : setConflict d p f c (d.fld F.CTX_BIND_set c) = false) : (goCtx c).run d =
    (Eff.all [setF F.CTX_RUN_state c 1, modCtxs c (fun x => { x with mapped := true }),
      requestPreempt p (d.fld F.CTX_BIND_set c)]).run d := by
  rw [run_goCtx hp h0 hq, hf]
  dsimp only
  rw [hs, decide_eq_false (by omega), Bool.or_self, if_neg Bool.false_ne_true]

theorem run_goCtx_refused (hp : ctxPart d c = some p) (h0 : d.fld F.CTX_RUN_state c = 0)
    (hq : d.fld F.SEC_KEYSTATE_quarantine 0 = 0) (h : d.active p = none ∨ ∃ f, d.active p = some f ∧
      (f.sets.length ≤ d.fld F.CTX_BIND_set c ∨ setConflict d p f c (d.fld F.CTX_BIND_set c) = true)) :
    (goCtx c).run d = (setF F.CTX_BIND_refused c 1).run d := by
  rw [run_goCtx hp h0 hq]
  obtain hn | ⟨f, hf, hr⟩ := h
  · rw [hn]
  · rw [hf]
    dsimp only
    rw [if_pos (by simpa using hr)]

theorem run_goCtx_none (h : ctxPart d c = none ∨ d.fld F.CTX_RUN_state c ≠ 0 ∨ d.fld F.SEC_KEYSTATE_quarantine 0 ≠ 0) :
    (goCtx c).run d = d := by
  rw [goCtx, Eff.run_obs]
  cases hp : ctxPart d c with
  | none => rfl
  | some p =>
    refine Eff.run_when_neg (Bool.and_eq_false_iff.2 ?_) _ _
    rw [beq_eq_false_iff_ne, beq_eq_false_iff_ne]
    exact h.resolve_left (by simp [hp])

/-! ### CTX_STOP (R395) -/

section
variable (hp : ctxPart d c = some p)
include hp

theorem run_stopCtx_waiting (h : d.fld F.CTX_RUN_state c = 1 ∨ d.fld F.CTX_RUN_state c = 3) :
    (stopCtx c).run d = (Eff.seq (discardSaved p c) (setF F.CTX_RUN_state c 0)).run d := by
  rw [stopCtx, Eff.run_obs, hp]
  rcases h with h | h <;> simp only [h]

theorem run_stopCtx_running (h : d.fld F.CTX_RUN_state c = 2) : (stopCtx c).run d =
    (Eff.all [discardSaved p c, setF F.CTX_RUN_state c 4, modCtxs c (fun x => { x with halting := true }),
      stopCores c, .each ((ctxCores d c).take 1) settleStop]).run d := by
  rw [stopCtx, Eff.run_obs, hp]
  simp only [h]

theorem run_stopCtx_stopping (h : d.fld F.CTX_RUN_state c = 4) : (stopCtx c).run d =
    (Eff.seq (discardSaved p c) (modCtxs c fun x => { x with halting := true })).run d := by
  rw [stopCtx, Eff.run_obs, hp]
  simp only [h]

theorem run_stopCtx_none (h : d.fld F.CTX_RUN_state c = 0 ∨ 5 ≤ d.fld F.CTX_RUN_state c) : (stopCtx c).run d = d := by
  rw [stopCtx, Eff.run_obs, hp]
  dsimp only
  split
  any_goals omega
  exact Eff.run_skip d

end

/-! ### CTX_KILL (R406) -/

theorem run_teardownWith {code set step info : Nat} (h5 : d.fld F.CTX_RUN_state c ≠ 5) (h6 : d.fld F.CTX_RUN_state c ≠ 6) :
    (teardownWith c code set step info).run d = (Eff.all [setF F.CTX_RUN_state c 6,
      modCtxs c (fun x => { x with teardown := some (code, set, step, info), mapped := false }), dropPages (·.ctx == c),
      .each (ctxCores d c) (haltCoreOf c),
      .each (ctxRings d c) (fun n => .seq (putKeptMaps n ((ctxPart d c).map fun p => (p, figureMap d c, d.drvMapAt c)))
        (cancelStart n)), withdrawPreempts c]).run d := by
  rw [teardownWith, Eff.run_obs]
  exact Eff.run_when_pos (by rw [bne_iff_ne.2 h5, bne_iff_ne.2 h6, Bool.and_self]) _ _

theorem run_teardownWith_done {code set step info : Nat} (h : d.fld F.CTX_RUN_state c = 5 ∨ d.fld F.CTX_RUN_state c = 6) :
    (teardownWith c code set step info).run d = d := by
  rw [teardownWith, Eff.run_obs]
  exact Eff.run_when_neg (by rcases h with h | h <;> rw [h] <;> rfl) _ _

end

/-! ### The commands -/

section
variable {s : State} {d : Device} {rq c : Nat} (hc : c < 1024) (h : Asks s rq d)
include hc h

theorem gives_ctxSetWrite (v : Nat) : Gives (.ctxSetWrite rq c v) s d
    (if bits (mayWrite d rq .CTX_BIND c) 15 0 != 0 then setCtxSet c v else denied) :=
  (gives_hostDo (by simp [h.lt, hc]) h rfl).of_run (Eff.run_obs _ _)

theorem gives_ctxGo : Gives (.ctxGo rq c) s d (if bit (mayWrite d rq .CTX_RUN c) 31 == 1 then goCtx c else denied) :=
  (gives_hostDo (by simp [h.lt, hc]) h rfl).of_run (Eff.run_obs _ _)

theorem gives_ctxStop : Gives (.ctxStop rq c) s d
    (if bit (mayWrite d rq .CTX_RUN c) 30 == 1 then stopCtx c else denied) :=
  (gives_hostDo (by simp [h.lt, hc]) h rfl).of_run (Eff.run_obs _ _)

theorem gives_ctxClear : Gives (.ctxClear rq c) s d
    (if bit (mayWrite d rq .CTX_RUN c) 28 == 1 then clearCtx c else denied) :=
  (gives_hostDo (by simp [h.lt, hc]) h rfl).of_run (Eff.run_obs _ _)

theorem gives_ctxKill : Gives (.ctxKill rq c) s d
    (if bit (mayWrite d rq .CTX_RUN c) 29 == 1 then .when (ctxPart d c).isSome (teardown c codeOwner) else denied) :=
  (gives_hostDo (by simp [h.lt, hc]) h rfl).of_run (Eff.run_obs _ _)

end

theorem gives_ctxPrioWrite {s : State} {d : Device} {rq c p v : Nat} (hc : c < 1024) (h : Writes s rq .CTX_PRIO c v 0 d)
    (hp : ctxPart d c = some p) : Gives (.ctxPrioWrite rq c v) s d (requestPreempt p (d.fld F.CTX_BIND_set c)) :=
  (gives_writes (by simp [h.asks.lt, hc]) h rfl).of_run (by rw [rearbitrate, Eff.run_obs, hp])

/-- Settles O9: each command goes by the right to its bit of CTX_RUN, CTX_BIND or CTX_PRIO, and then by the state of the context. An
idle context that is killed is torn down like any other (log entry 87). -/
theorem contextCommands : Obligations.ContextCommands := by
  refine ⟨fun s d rq c v hc h hm => ?_, fun s d rq c p f hc h hm hp h0 hq hf hl hs => ?_,
    fun s d rq c p hc h hm hp h0 hq hr => ?_, fun s d rq c hc h hm hn => ?_, fun s d rq c p hc h hm hp => ?_,
    fun s d rq c hc h hm => ?_, fun s d rq c hc h hm hp => ?_, fun s d rq c p v hc h hp => gives_ctxPrioWrite hc h hp,
    fun s d rq c v hc h => ?_⟩
  · have hx := (gives_ctxSetWrite hc h v).pos (bne_iff_ne.2 hm)
    exact ⟨fun h0 => hx.of_run (run_setCtxSet h0 v), fun h0 => hx.of_run (run_setCtxSet_busy h0 v)⟩
  · have hx := (gives_ctxGo hc h).pos (beq_iff_eq.2 hm)
    exact hx.of_run (run_goCtx_ready hp h0 hq hf hl hs)
  · have hx := (gives_ctxGo hc h).pos (beq_iff_eq.2 hm)
    exact hx.of_run (run_goCtx_refused hp h0 hq hr)
  · have hx := (gives_ctxGo hc h).pos (beq_iff_eq.2 hm)
    exact hx.of_run (run_goCtx_none hn)
  · have hx := (gives_ctxStop hc h).pos (beq_iff_eq.2 hm)
    exact ⟨fun hs => hx.of_run (run_stopCtx_waiting hp hs), fun hs => hx.of_run (run_stopCtx_running hp hs),
      fun hs => hx.of_run (run_stopCtx_stopping hp hs), fun hs => hx.of_run (run_stopCtx_none hp hs)⟩
  · have hx := (gives_ctxClear hc h).pos (beq_iff_eq.2 hm)
    exact ⟨fun hs => hx.of_run (run_clearCtx hs), fun hs => hx.of_run (run_clearCtx_notFaulted hs)⟩
  · have hx := (gives_ctxKill hc h).pos (beq_iff_eq.2 hm)
    rw [hp, Eff.when_true] at hx
    exact ⟨fun h5 h6 => hx.of_run (run_teardownWith h5 h6), fun hs => hx.of_run (run_teardownWith_done hs)⟩
  · exact ⟨fun hm => (gives_ctxSetWrite hc h v).neg (by simp [hm]), fun hm => (gives_ctxGo hc h).neg (mt beq_iff_eq.1 hm),
      fun hm => (gives_ctxStop hc h).neg (mt beq_iff_eq.1 hm), fun hm => (gives_ctxClear hc h).neg (mt beq_iff_eq.1 hm),
      fun hm => (gives_ctxKill hc h).neg (mt beq_iff_eq.1 hm),
      fun hm => gives_denied h rfl (by simp [h.lt, hc]) (bit_eq_zero hm)⟩

end Sys2Proof.Machine
end

section
/-! PROOFS. How a context takes a set of cores (R395, R397, R400, R401, R404, R405, R412). -/

namespace Sys2Proof.Machine

/- As in the tests, one theorem after another: each one elaborated beside others holds a thread's stack. -/
set_option Elab.async false

/-! ### CONTEXT_START (R395) -/

section
variable {d : Device} {c p : Nat} {f : Figure}

theorem run_contextStart (hp : ctxPart d c = some p) (hf : d.active p = some f)
    (hb : bestWaiting d p (d.fld F.CTX_BIND_set c) = some c)
    (hs : setContexts d p (d.fld F.CTX_BIND_set c) [2, 4, 6] = []) (hw : d.switchesAt p = none) :
    (contextStart c).run d = (takeSet p c f).run d := by
  rw [contextStart, Eff.run_obs, hp]
  dsimp only
  rw [hf]
  exact Eff.run_when_pos (by rw [hb, hs, hw, beq_self_eq_true]; rfl) _ _

theorem run_contextStart_none (hp : ctxPart d c = some p) (h : bestWaiting d p (d.fld F.CTX_BIND_set c) ≠ some c ∨
      setContexts d p (d.fld F.CTX_BIND_set c) [2, 4, 6] ≠ [] ∨ (d.switchesAt p).isSome = true) :
    (contextStart c).run d = d := by
  rw [contextStart, Eff.run_obs, hp]
  dsimp only
  cases d.active p with
  | none => rfl
  | some f =>
    refine Eff.run_when_neg ?_ _ _
    rw [Bool.and_eq_false_iff, Bool.and_eq_false_iff, beq_eq_false_iff_ne, List.isEmpty_eq_false_iff, Option.isNone_eq_false_iff]
    exact or_assoc.2 h

/-- Every record that the set's cores need can be restored. -/
theorem run_takeSet (h : ∀ x ∈ leafCores d p f (d.fld F.CTX_BIND_set c), canBringIn d c x.2 x.1 f = true) :
    (takeSet p c f).run d = (if intolerant d p f c then revocationFails p c f
      else .seq (.each (leafCores d p f (d.fld F.CTX_BIND_set c)) fun x => bringIn p c x.2 x.1 f) (gangStart p c f)).run d := by
  have hn : (leafCores d p f (d.fld F.CTX_BIND_set c)).find? (fun x => !canBringIn d c x.2 x.1 f) = none :=
    List.find?_eq_none.2 fun x hx => by rw [h x hx]; decide
  rw [takeSet, Eff.run_obs]
  dsimp only
  rw [hn]

theorem run_takeSet_fails {x : Nat × Nat}
    (h : (leafCores d p f (d.fld F.CTX_BIND_set c)).find? (fun x => !canBringIn d c x.2 x.1 f) = some x) :
    (takeSet p c f).run d = (restoreFails c x.2 x.1).run d := by
  rw [takeSet, Eff.run_obs]
  dsimp only
  rw [h]

/-! ### YIELD (R400, R404) -/

theorem run_beginPreempt {d : Device} (p set h w : Nat) : (beginPreempt p set h w).run d = (Eff.all [setF F.CTX_RUN_state h 4,
      modPreempts (· ++ [{ part := p, set := set, outgoing := h, incoming := w, extended := !(heldSems d h).isEmpty }]),
      .when (heldSems d h).isEmpty (stopCores h)]).run d := by
  rw [beginPreempt, Eff.run_obs]
  dsimp only
  rw [Bool.not_not]

/-- Every core of a context's set is parked or empty. -/
def allParked (d : Device) (c : Nat) : Bool :=
  (ctxCores d c).all fun core => (d.coresAt core).state == 2 || (d.coresAt core).state == 0

theorem run_yieldSet {w : Nat} (hp : ctxPart d c = some p) (hb : bestWaiting d p (d.fld F.CTX_BIND_set c) = some w)
    (h2 : d.fld F.CTX_RUN_state c = 2) (hf : saveFits d c = true) (hs : d.switchesAt p = none) (ha : allParked d c = true) :
    (yieldSet c).run d = (beginPreempt p (d.fld F.CTX_BIND_set c) c w).run d := by
  rw [yieldSet, Eff.run_obs, hp]
  dsimp only
  rw [hb]
  refine Eff.run_when_pos ?_ _ _
  rw [← allParked, h2, hf, hs, ha]
  rfl

theorem run_yieldSet_none (hp : ctxPart d c = some p) (h : bestWaiting d p (d.fld F.CTX_BIND_set c) = none ∨
      d.fld F.CTX_RUN_state c ≠ 2 ∨ saveFits d c = false ∨ (d.switchesAt p).isSome = true ∨ allParked d c = false) :
    (yieldSet c).run d = d := by
  rw [yieldSet, Eff.run_obs, hp]
  dsimp only
  cases hb : bestWaiting d p (d.fld F.CTX_BIND_set c) with
  | none => rfl
  | some w =>
    refine Eff.run_when_neg ?_ _ _
    rw [← allParked]
    rw [hb] at h
    rcases h with h | h | h | h | h
    · cases h
    · rw [beq_false_of_ne h, Bool.false_and, Bool.false_and, Bool.false_and]
    · rw [h, Bool.and_false, Bool.false_and, Bool.false_and]
    · rw [Option.isNone_eq_false_iff.2 h, Bool.and_false, Bool.false_and]
    · rw [h, Bool.and_false]

end

/-! ### PREEMPT_SAVE (R401 steps 3 and 4) -/

/-- The pre-emption that a core has yet to finish. -/
def preemptOf (d : Device) (core : Nat) : Option Preempt :=
  d.preempts.find? fun q => (ctxCores d q.outgoing).contains core && !q.done.contains core

/-- A core that is free of the outgoing context is loaded for the incoming one. -/
def loadsIncoming (q : Preempt) (f : Figure) (core leaf : Nat) : Eff := .obs fun d =>
  match chooseIncoming d q with
  | none => setPreempt { q with done := core :: q.done }
  | some w =>
    if canBringIn d w core leaf f then .all [bringIn q.part w core leaf f, modCores core (fun k => { k with state := 6 }),
      setPreempt { q with incoming := w, done := core :: q.done }]
    else restoreFails w core leaf

section
variable {d : Device} {core : Nat} {q : Preempt} {f : Figure} {fixed lost : List Nat}

section
variable (hq : preemptOf d core = some q)
include hq

theorem run_preemptSave_when (hf : d.active q.part = some f) : (preemptSave core fixed lost).run d =
    (Eff.when ((d.coresAt core).state == 3 && ((d.coresAt core).ctx == some q.outgoing || (d.coresAt core).ctx.isNone)) <| .all [
      .when ((d.coresAt core).ctx == some q.outgoing) <| .all [
        .when (!(d.ctxsAt q.outgoing).halting) (.seq (tileErrors core 0 24576 fixed lost)
          (saveRecord q.outgoing core ((leafOfCore d q.part f core).getD 0)
            (f.set ((leafOfCore d q.part f core).getD 0)).program)),
        clearTile core, emptyBanks core, modCores core fun k => { k with ctx := none, heldFor := none }],
      loadsIncoming q f core ((leafOfCore d q.part f core).getD 0)]).run d := by
  rw [preemptOf] at hq
  rw [preemptSave, Eff.run_obs, hq]
  dsimp only
  rw [hf]
  rfl

variable (h3 : (d.coresAt core).state = 3)
include h3

/-- A core that has stopped and runs no context is loaded. -/
theorem run_preemptSave_empty (hf : d.active q.part = some f) (hc : (d.coresAt core).ctx = none) :
    (preemptSave core fixed lost).run d = (loadsIncoming q f core ((leafOfCore d q.part f core).getD 0)).run d := by
  rw [run_preemptSave_when hq hf, h3, hc]
  rfl

/-- A core that has stopped with the outgoing context saves it, unless it is to become idle, and is cleared and loaded. -/
theorem run_preemptSave_fresh {leaf : Nat} (hf : d.active q.part = some f) (hl : leafOfCore d q.part f core = some leaf)
    (hc : (d.coresAt core).ctx = some q.outgoing) : (preemptSave core fixed lost).run d = (Eff.all [
      .when (!(d.ctxsAt q.outgoing).halting)
        (.seq (tileErrors core 0 24576 fixed lost) (saveRecord q.outgoing core leaf (f.set leaf).program)),
      clearTile core, emptyBanks core, modCores core (fun k => { k with ctx := none, heldFor := none }),
      loadsIncoming q f core leaf]).run d := by
  rw [run_preemptSave_when hq hf, h3, hc, hl, beq_self_eq_true, beq_self_eq_true, Bool.true_or, Bool.and_self, Eff.when_true,
    Eff.when_true]
  simp only [Eff.run_all_cons, Eff.run_all_nil, Option.getD_some]

end

theorem run_preemptSave_none (h : (d.coresAt core).state ≠ 3 ∨ preemptOf d core = none ∨
      ∃ q, preemptOf d core = some q ∧ (d.coresAt core).ctx ≠ some q.outgoing ∧ (d.coresAt core).ctx ≠ none) :
    (preemptSave core fixed lost).run d = d := by
  cases hq : preemptOf d core with
  | none =>
    rw [preemptOf] at hq
    rw [preemptSave, Eff.run_obs, hq, Eff.run_skip]
  | some q =>
    cases hf : d.active q.part with
    | none =>
      rw [preemptOf] at hq
      rw [preemptSave, Eff.run_obs, hq]
      dsimp only
      rw [hf, Eff.run_skip]
    | some f =>
      rw [run_preemptSave_when hq hf]
      refine Eff.run_when_neg ?_ _ _
      rcases h with h3 | hn | ⟨q', hq', ho, hc⟩
      · rw [beq_false_of_ne h3, Bool.false_and]
      · rw [hn] at hq
        cases hq
      · obtain rfl : q = q' := Option.some.inj (hq.symm.trans hq')
        rw [beq_false_of_ne ho, Bool.false_or, Option.isNone_eq_false_iff.2 (Option.isSome_iff_ne_none.2 hc), Bool.and_false]

theorem run_loadsIncoming {leaf w : Nat} (hw : chooseIncoming d q = some w) :
    (loadsIncoming q f core leaf).run d = (if canBringIn d w core leaf f then
      .all [bringIn q.part w core leaf f, modCores core (fun k => { k with state := 6 }),
        setPreempt { q with incoming := w, done := core :: q.done }]
      else restoreFails w core leaf : Eff).run d := by
  rw [loadsIncoming, Eff.run_obs, hw]

theorem run_loadsIncoming_none {leaf : Nat} (hw : chooseIncoming d q = none) :
    (loadsIncoming q f core leaf).run d = (setPreempt { q with done := core :: q.done }).run d := by
  rw [loadsIncoming, Eff.run_obs, hw]

end

/-! ### PREEMPT_GANG_START (R401 step 5) -/

/-- What becomes of the outgoing context once its cores are taken, as its record is then. -/
def leavesSet (q : Preempt) (p : Nat) (halting : Bool) : Eff :=
  if q.incoming == q.outgoing then .skip else if halting then .all [
      modCtxs q.outgoing (fun x => { x with halting := false }), discardSaved p q.outgoing, setF F.CTX_RUN_state q.outgoing 0]
    else .all [setF F.CTX_RUN_state q.outgoing 3, addSat F.CTX_STAT_preempted q.outgoing 1,
      addSat F.PRT_SCHED_STAT_preemptions p 1]

/-- The incoming context, where there is one, starts on the set's cores. -/
def entersSet (q : Preempt) (p : Nat) (f : Figure) (cores : List Nat) : Eff := .obs fun d =>
  if (chooseIncoming d q).isNone then .each cores fun core => modCores core fun k => { k with ctx := none, state := 0 }
  else if intolerant d p f q.incoming then revocationFails p q.incoming f
  else gangStart p q.incoming f

section
variable {d : Device} {p leafSet : Nat} {q : Preempt} {f : Figure} (hf : d.active p = some f)
include hf

theorem run_preemptGangStart (hq : (d.preempts.find? fun q => q.part == p && q.set == leafSet) = some q)
    (hd : (setCores d p f leafSet).all q.done.contains = true) : (preemptGangStart p leafSet).run d = (Eff.all [
      modPreempts (fun ps => ps.filter fun x => !(x.part == p && x.set == leafSet)),
      leavesSet q p (d.ctxsAt q.outgoing).halting, entersSet q p f (setCores d p f leafSet)]).run d := by
  rw [preemptGangStart, Eff.run_obs, hq, hf]
  exact Eff.run_when_pos hd _ _

theorem run_preemptGangStart_none (h : (d.preempts.find? fun q => q.part == p && q.set == leafSet) = none ∨
      (d.preempts.find? fun q => q.part == p && q.set == leafSet) = some q ∧
        (setCores d p f leafSet).all q.done.contains = false) : (preemptGangStart p leafSet).run d = d := by
  rw [preemptGangStart, Eff.run_obs, hf]
  rcases h with hq | ⟨hq, hd⟩
  · rw [hq, Eff.run_skip]
  · rw [hq]
    exact Eff.run_when_neg hd _ _

end

/-! ### HOLD_LIMIT_EXPIRY (R404) -/

section
variable {d : Device} {c : Nat}

theorem run_holdLimitExpiry {p : Nat} {q : Preempt} (hq : extending d c = some q) (hp : ctxPart d c = some p)
    (hh : q.holdPassed = false) : (holdLimitExpiry c).run d = (Eff.all [setPreempt { q with holdPassed := true },
      .each (heldSems d c) (revokeCell p c), .each (heldSems d c) semGrant, stopCores c]).run d := by
  rw [holdLimitExpiry, Eff.run_obs, hq, hp]
  exact Eff.run_when_pos (by rw [hh, Bool.not_false]) _ _

theorem run_holdLimitExpiry_none (h : extending d c = none ∨ ∃ q, extending d c = some q ∧ q.holdPassed = true) :
    (holdLimitExpiry c).run d = d := by
  rw [holdLimitExpiry, Eff.run_obs]
  rcases h with hq | ⟨q, hq, hh⟩
  · rw [hq, Eff.run_skip]
  · rw [hq]
    cases ctxPart d c with
    | none => rfl
    | some p => exact Eff.run_when_neg (by rw [hh, Bool.not_true]) _ _

end

/-! ### The commands -/

section
variable {s : State} {c : Nat} (hc : c < 1024)
include hc

theorem does_contextStart (hs : serving s.dev = true) : Does (.contextStart c) s (contextStart c) :=
  does_whileIt (decide_eq_true hc) hs rfl

variable (hw : working s.dev = true)
include hw

theorem does_yield : Does (.yield c) s (yieldSet c) := does_whileIt (decide_eq_true hc) hw rfl

theorem does_holdLimitExpiry : Does (.holdLimitExpiry c) s (holdLimitExpiry c) := does_whileIt (decide_eq_true hc) hw rfl

end

theorem does_preemptSave {s : State} {core : Nat} (hc : core < 2048) (hk : clocked s.dev (core / 16) = true)
    (fixed lost : List Nat) : Does (.preemptSave core fixed lost) s (preemptSave core fixed lost) :=
  does_whileIt (guard := coreClocked core) (decide_eq_true hc) hk rfl

theorem does_preemptGangStart {s : State} {p leafSet : Nat} (hp : p < 32) (hl : leafSet < 65536)
    (hw : working s.dev = true) : Does (.preemptGangStart p leafSet) s (preemptGangStart p leafSet) :=
  does_whileIt (by simp [hp, hl]) hw rfl

/-- Settles O10: each command goes by what it finds of the set and of the pre-emption that is on: whether a context waits for it,
what the cores have done, and whether what is saved can be restored. -/
theorem setTaking : Obligations.SetTaking := by
  refine ⟨fun s c p f hc hs hp hf hb hn hw => ?_, fun s c p hc hs hp h => ?_,
    fun s c p w hc hw hp hb h2 hf hs ha => ?_, fun s c p hc hw hp h => ?_,
    fun s core fixed lost q f leaf w hc hk hq hf hl h3 hn hw => ?_, fun s core fixed lost q f hc hk hq hf h3 hn hw => ?_,
    fun s core fixed lost q f leaf hc hk hq hf hl h3 ho => ?_, fun s core fixed lost hc hk h => ?_,
    fun s p leafSet q f hp hl hw hq hf hd => ?_, fun s p leafSet q f hp hl hw hf h => ?_,
    fun s c p q hc hw hq hp hh => ?_, fun s c hc hw h => ?_⟩
  · have hx := (does_contextStart hc hs).of_run (run_contextStart hp hf hb hn hw)
    exact ⟨fun ha hi => hx.of_run ((run_takeSet ha).trans (by rw [hi, if_neg Bool.false_ne_true])),
      fun ha hi => hx.of_run ((run_takeSet ha).trans (by rw [if_pos hi])), fun x hx' => hx.of_run (run_takeSet_fails hx')⟩
  · exact (does_contextStart hc hs).of_run (run_contextStart_none hp h)
  · exact (does_yield hc hw).of_run ((run_yieldSet hp hb h2 hf hs ha).trans (run_beginPreempt _ _ _ _))
  · exact (does_yield hc hw).of_run (run_yieldSet_none hp h)
  · have hx := (does_preemptSave hc hk fixed lost).of_run
      ((run_preemptSave_empty hq h3 hf hn).trans (run_loadsIncoming hw))
    rw [hl, Option.getD_some] at hx
    exact ⟨fun hb => hx.pos hb, fun hb => hx.neg (by simp [hb])⟩
  · exact (does_preemptSave hc hk fixed lost).of_run ((run_preemptSave_empty hq h3 hf hn).trans (run_loadsIncoming_none hw))
  · exact (does_preemptSave hc hk fixed lost).of_run (run_preemptSave_fresh hq h3 hf hl ho)
  · exact (does_preemptSave hc hk fixed lost).of_run (run_preemptSave_none h)
  · exact (does_preemptGangStart hp hl hw).of_run (run_preemptGangStart hf hq hd)
  · exact (does_preemptGangStart hp hl hw).of_run (run_preemptGangStart_none hf h)
  · exact (does_holdLimitExpiry hc hw).of_run (run_holdLimitExpiry hq hp hh)
  · exact (does_holdLimitExpiry hc hw).of_run (run_holdLimitExpiry_none h)

end Sys2Proof.Machine
end

section
/-! PROOFS. Loading, erasing, sealing and attesting keys (R459, R461 to R466). -/

namespace Sys2Proof.Machine

/- As in the tests, one theorem after another: each one elaborated beside others holds a thread's stack. -/
set_option Elab.async false

/-! ### A write of SEC_CMD (R463, R466) -/

/-- The code and the effect of a write of SEC_CMD: those of the bar, of the range, or of the command's own part. -/
def secOutcome (d : Device) (w op index : Nat) (run : Device → Nat × Eff) : Nat × Eff :=
  if secQuarantined d op then (7, .skip) else if !secInRange w op index (secArg d w) then (5, .skip) else run d

section
variable {s : State} {d : Device} {rq w v : Nat} (h : WritesAon s rq .SEC_CMD w v 31 d) (run : Device → Nat × Eff)
include h

theorem run_secCommand_busy (hb : d.fld F.SEC_CMD_busy w ≠ 0) : (aonDo rq (secCommand rq w v run)).run s.dev = d := by
  simp only [secCommand, run_writesAon h, Eff.run_obs, beq_false_of_ne hb, Eff.when_false, Eff.run_skip]

theorem run_secCommand_idle {op index : Nat} (ho : bits v 29 26 = op) (hi : bits v 15 0 = index)
    (hb : d.fld F.SEC_CMD_busy w = 0) : (aonDo rq (secCommand rq w v run)).run s.dev =
    (keyRuns w op index (secOutcome d w op index run).1
      (.when ((secOutcome d w op index run).1 == 0) (secOutcome d w op index run).2)).run d := by
  subst ho hi
  simp only [secCommand, run_writesAon h, Eff.run_obs, beq_iff_eq.2 hb, Eff.when_true, secOutcome, keyRuns]

end

section
variable {d : Device} {w op index : Nat} (run : Device → Nat × Eff)

/-- A barred command ends QUARANTINE, whatever else holds of it. -/
theorem secOutcome_barred (hq : secQuarantined d op = true) : secOutcome d w op index run = (7, .skip) := if_pos hq

/-- A command out of range ends RANGE, where it is not barred. -/
theorem secOutcome_outOfRange (hq : secQuarantined d op = false) (hr : secInRange w op index (secArg d w) = false) :
    secOutcome d w op index run = (5, .skip) := by
  rw [secOutcome, hq, hr, if_neg Bool.false_ne_true, Bool.not_false, if_pos rfl]

end

/-- Each of the key and attestation commands is a write of SEC_CMD that acts as its own part says. -/
theorem exec_secCommand {c : Instr} {rq w op index : Nat} (hc : (c, op) ∈ [(.keyLoad rq w index, 1), (.keyErase rq w index, 2),
      (.keySeal rq w index, 3), (.keyUnseal rq w index, 4), (.linkKeyLoad rq w index, 5), (.attest rq w index, 6),
      (.idRead rq w index, 7), (Instr.rootMsg rq w index, 8)]) (s : State) : op < 16 ∧ ∃ run, exec c s =
    perform (decide (rq < 2049) && decide (w < 33)) (aonDo rq (secCommand rq w (secValue op index) run)) s := by
  simp only [List.mem_cons, List.not_mem_nil, or_false, Prod.mk.injEq] at hc
  rcases hc with ⟨rfl, rfl⟩ | ⟨rfl, rfl⟩ | ⟨rfl, rfl⟩ | ⟨rfl, rfl⟩ | ⟨rfl, rfl⟩ | ⟨rfl, rfl⟩ | ⟨rfl, rfl⟩ | ⟨rfl, rfl⟩
  all_goals exact ⟨by decide, _, rfl⟩

section
variable {c : Instr} {s : State} {d : Device} {rq w op index code : Nat} {run : Device → Nat × Eff}
  (h : AsksKeys s rq w op index d)
  (hc : exec c s = perform (decide (rq < 2049) && decide (w < 33)) (aonDo rq (secCommand rq w (secValue op index) run)) s)
include h hc

/-- A command that is served and whose part finds nothing wrong acts, and reports 0. -/
theorem gives_secActs {e : Eff} (hr : run d = (0, e)) : Gives c s d (keyRuns w op index 0 e) := by
  rw [Gives, hc, perform_ok (by simp [h.asks.asks.lt, h.window]), run_secCommand h hr, beq_self_eq_true, Eff.when_true]

/-- A command that is served and whose part finds something wrong reports it and changes nothing else. -/
theorem gives_secFails (hr : run d = (code, .skip)) : Gives c s d (keyRuns w op index code .skip) := by
  have hs : Eff.when (code == 0) .skip = .skip := by cases code == 0 <;> rfl
  rw [Gives, hc, perform_ok (by simp [h.asks.asks.lt, h.window]), run_secCommand h hr, hs]

end

/-! ### The checks of a command, in order (R466) -/

theorem firstFail_nil : firstFail [] = none := rfl

theorem firstFail_cons_true (code : Nat) (cs : List (Bool × Nat)) : firstFail ((true, code) :: cs) = firstFail cs := rfl

theorem firstFail_cons_false (code : Nat) (cs : List (Bool × Nat)) : firstFail ((false, code) :: cs) = some code := rfl

/-- A check after those of a list: it counts where none of the list fails. -/
theorem firstFail_snoc (cs : List (Bool × Nat)) (x : Bool × Nat) :
    firstFail (cs ++ [x]) = (firstFail cs).or (firstFail [x]) := by
  induction cs with
  | nil => rfl
  | cons c cs ih =>
    obtain ⟨b, code⟩ := c
    cases b with
    | false => rfl
    | true => exact ih

/-! ### The commands -/

section
variable {s : State} {d : Device} {rq w index : Nat}

/-- The checks of KEY_LOAD. -/
def keyLoadChecks (d : Device) (w index : Nat) (b : List Byte) : List (Bool × Nat) :=
  [(secReach d w (secArg d w) 256, 5), (!d.poisoned (secArg d w) 256, 10), (blobOk b 1 index, 1),
    (num b 8 8 == d.reg .LNK_SERIAL 0, 2)] ++ slotChecks d w index

/-- The checks of KEY_UNSEAL. -/
def keyUnsealChecks (d : Device) (w index : Nat) (b : List Byte) : List (Bool × Nat) :=
  [(secReach d w (secArg d w) 128, 5), (!d.poisoned (secArg d w) 128, 10),
    (b.take 4 == [0x41, 0x58, 0x53, 0x4C] && num b 4 1 == 1 && zeroAt b 5 1 && num b 6 2 == index && num b 8 1 == w &&
      zeroAt b 9 7 && zeroAt b 0x1C 4 && zeroAt b 0x70 16, 1)] ++ slotChecks d w index

/-- The checks of LINK_KEY_LOAD. -/
def linkKeyChecks (d : Device) (w index : Nat) (b : List Byte) : List (Bool × Nat) :=
  [(secReach d w (secArg d w) 256, 5), (!d.poisoned (secArg d w) 256, 10),
    (blobOk b 2 index && (d.linkKeysAt index).gen < num b 0x10 4, 1), (num b 8 8 == d.reg .LNK_SERIAL 0, 2)]

/-- The checks of ROOT_MSG before that of its signature. -/
def rootMsgChecks (d : Device) (w : Nat) (b : List Byte) : List (Bool × Nat) :=
  [(secReach d w (secArg d w) 144, 5), (!d.poisoned (secArg d w) 144, 10), (rootMsgOk b, 1),
    (num b 8 8 == 0 || num b 8 8 == d.reg .LNK_SERIAL 0, 2), (!rootRefused d b, 9)]

/-- The key that a sealed blob unseals to (R465). -/
def unsealed (d : Device) (b : List Byte) : Option (List Byte) :=
  Config.gcmOpen d.sealKey ((b.drop 0x10).take 12) (b.take 0x20) ((b.drop 0x20).take 64) ((b.drop 0x60).take 16)

/-- A root message's signature is good (R461). -/
def rootSigned (d : Device) (b : List Byte) : Bool :=
  Config.ecdsaVerify (d.rootKeysAt (num b 7 1)) (Config.sha384 (b.take 0x30)) ((b.drop 0x30).take 96)

section
variable (h : AsksKeys s rq w 1 index d)
include h

theorem gives_keyLoad_fails {code : Nat} (hf : firstFail (keyLoadChecks d w index (d.bytes (secArg d w) 256)) = some code) :
    Gives (.keyLoad rq w index) s d (keyRuns w 1 index code .skip) := by
  rw [keyLoadChecks] at hf
  refine gives_secFails h rfl ?_
  dsimp only
  rw [hf]

variable (hf : firstFail (keyLoadChecks d w index (d.bytes (secArg d w) 256)) = none)
include hf

theorem gives_keyLoad_sealed (hu : unwrapBlob d (d.bytes (secArg d w) 256) = none) :
    Gives (.keyLoad rq w index) s d (keyRuns w 1 index 3 .skip) := by
  rw [keyLoadChecks] at hf
  refine gives_secFails h rfl ?_
  dsimp only
  rw [hf, hu]

theorem gives_keyLoad {key : List Byte} (hu : unwrapBlob d (d.bytes (secArg d w) 256) = some key) :
    Gives (.keyLoad rq w index) s d
      (if keyWeak key then keyRuns w 1 index 6 .skip else keyRuns w 1 index 0 (loadTenant index w key)) := by
  rw [keyLoadChecks] at hf
  cases hk : keyWeak key
  · refine gives_secActs h rfl ?_
    dsimp only
    rw [hf, hu]
    exact if_neg (by simp [hk])
  · refine gives_secFails h rfl ?_
    dsimp only
    rw [hf, hu]
    exact if_pos hk

end

section
variable (h : AsksKeys s rq w 2 index d)
include h

theorem gives_keyErase_notHeld (hh : holdsSlot d w index = false) :
    Gives (.keyErase rq w index) s d (keyRuns w 2 index 11 .skip) := by
  refine gives_secFails h rfl ?_
  rw [hh, firstFail_cons_false]

theorem gives_keyErase_inUse (hh : holdsSlot d w index = true) (hu : slotInUse d index = true) :
    Gives (.keyErase rq w index) s d (keyRuns w 2 index 8 .skip) := by
  refine gives_secFails h rfl ?_
  rw [hh, hu, firstFail_cons_true, Bool.not_true, firstFail_cons_false]

theorem gives_keyErase (hh : holdsSlot d w index = true) (hu : slotInUse d index = false) :
    Gives (.keyErase rq w index) s d (keyRuns w 2 index 0 (.seq (putTenantKeys index none) countKeys)) := by
  refine gives_secActs h rfl ?_
  rw [hh, hu, firstFail_cons_true, Bool.not_false, firstFail_cons_true, firstFail_nil]

end

section
variable (h : AsksKeys s rq w 3 index d)
include h

theorem gives_keySeal_reach (hr : secReach d w (secArg d w) 128 = false) :
    Gives (.keySeal rq w index) s d (keyRuns w 3 index 5 .skip) := by
  refine gives_secFails h rfl ?_
  dsimp only
  rw [hr, firstFail_cons_false]

theorem gives_keySeal_notHeld (hr : secReach d w (secArg d w) 128 = true) (hh : holdsSlot d w index = false) :
    Gives (.keySeal rq w index) s d (keyRuns w 3 index 11 .skip) := by
  refine gives_secFails h rfl ?_
  dsimp only
  rw [hr, hh, firstFail_cons_true, firstFail_cons_false]

theorem gives_keySeal (hr : secReach d w (secArg d w) 128 = true) (hh : holdsSlot d w index = true) :
    Gives (.keySeal rq w index) s d (keyRuns w 3 index 0 (freeBytes 12 fun iv =>
      store ((List.range 128).map (secArg d w + ·)) (sealedBlob d w index iv (slotKey d index)))) := by
  refine gives_secActs h rfl ?_
  dsimp only
  rw [hr, hh, firstFail_cons_true, firstFail_cons_true, firstFail_nil]

end

section
variable (h : AsksKeys s rq w 4 index d)
include h

theorem gives_keyUnseal_fails {code : Nat}
    (hf : firstFail (keyUnsealChecks d w index (d.bytes (secArg d w) 128)) = some code) :
    Gives (.keyUnseal rq w index) s d (keyRuns w 4 index code .skip) := by
  rw [keyUnsealChecks] at hf
  refine gives_secFails h rfl ?_
  dsimp only
  rw [hf]

variable (hf : firstFail (keyUnsealChecks d w index (d.bytes (secArg d w) 128)) = none)
include hf

theorem gives_keyUnseal_sealed (hu : unsealed d (d.bytes (secArg d w) 128) = none) :
    Gives (.keyUnseal rq w index) s d (keyRuns w 4 index 3 .skip) := by
  rw [keyUnsealChecks] at hf
  rw [unsealed] at hu
  refine gives_secFails h rfl ?_
  dsimp only
  rw [hf, hu]

theorem gives_keyUnseal {key : List Byte} (hu : unsealed d (d.bytes (secArg d w) 128) = some key) :
    Gives (.keyUnseal rq w index) s d
      (if keyWeak key then keyRuns w 4 index 6 .skip else keyRuns w 4 index 0 (loadTenant index w key)) := by
  rw [keyUnsealChecks] at hf
  rw [unsealed] at hu
  cases hk : keyWeak key
  · refine gives_secActs h rfl ?_
    dsimp only
    rw [hf, hu]
    exact if_neg (by simp [hk])
  · refine gives_secFails h rfl ?_
    dsimp only
    rw [hf, hu]
    exact if_pos hk

end

/-- A new generation of a link slot's key enters it, and the one it held becomes the previous (R464). -/
def entersLinkSlot (d : Device) (index : Nat) (b key : List Byte) : Eff := .all [
  putLinkKeys index { key := key.take 32, gen := num b 0x10 4, prevKey := (d.linkKeysAt index).key,
                      prevGen := (d.linkKeysAt index).gen, counter := 0 },
  countKeys, setF F.SEC_KEYSTATE_state 0 0]

section
variable (h : AsksKeys s rq w 5 index d)
include h

theorem gives_linkKeyLoad_fails {code : Nat}
    (hf : firstFail (linkKeyChecks d w index (d.bytes (secArg d w) 256)) = some code) :
    Gives (.linkKeyLoad rq w index) s d (keyRuns w 5 index code .skip) := by
  rw [linkKeyChecks] at hf
  refine gives_secFails h rfl ?_
  dsimp only
  rw [hf]

variable (hf : firstFail (linkKeyChecks d w index (d.bytes (secArg d w) 256)) = none)
include hf

theorem gives_linkKeyLoad_sealed (hu : unwrapBlob d (d.bytes (secArg d w) 256) = none) :
    Gives (.linkKeyLoad rq w index) s d (keyRuns w 5 index 3 .skip) := by
  rw [linkKeyChecks] at hf
  refine gives_secFails h rfl ?_
  dsimp only
  rw [hf, hu]

theorem gives_linkKeyLoad {key : List Byte} (hu : unwrapBlob d (d.bytes (secArg d w) 256) = some key) :
    Gives (.linkKeyLoad rq w index) s d (if zeroAt key 32 32 then
      keyRuns w 5 index 0 (entersLinkSlot d index (d.bytes (secArg d w) 256) key) else keyRuns w 5 index 1 .skip) := by
  rw [linkKeyChecks] at hf
  cases hk : zeroAt key 32 32
  · refine gives_secFails h rfl ?_
    dsimp only
    rw [hf, hu]
    exact if_pos (by rw [hk, Bool.not_false])
  · refine gives_secActs h rfl ?_
    dsimp only
    rw [hf, hu]
    exact if_neg (by simp [hk])

end

section
variable (h : AsksKeys s rq w 6 index d)
include h

theorem gives_attest_reach (hr : secReach d w (secArg d w) 512 = false) :
    Gives (.attest rq w index) s d (keyRuns w 6 index 5 .skip) := by
  refine gives_secFails h rfl ?_
  dsimp only
  rw [hr, firstFail_cons_false]

theorem gives_attest_poisoned (hr : secReach d w (secArg d w) 512 = true) (hp : d.poisoned (secArg d w) 48 = true) :
    Gives (.attest rq w index) s d (keyRuns w 6 index 10 .skip) := by
  refine gives_secFails h rfl ?_
  dsimp only
  rw [hr, hp, firstFail_cons_true, Bool.not_true, firstFail_cons_false]

theorem gives_attest (hr : secReach d w (secArg d w) 512 = true) (hp : d.poisoned (secArg d w) 48 = false) :
    Gives (.attest rq w index) s d (keyRuns w 6 index 0 (withFree fun k =>
      store ((List.range 512).map (secArg d w + ·)) (reportBytes d (d.idKey.getD 0) index (d.bytes (secArg d w) 48) k))) := by
  refine gives_secActs h rfl ?_
  dsimp only
  rw [hr, hp, firstFail_cons_true, Bool.not_false, firstFail_cons_true, firstFail_nil]

end

theorem gives_idRead_reach (h : AsksKeys s rq w 7 index d) (hr : secReach d w (secArg d w) 256 = false) :
    Gives (.idRead rq w index) s d (keyRuns w 7 index 5 .skip) :=
  gives_secFails h rfl (if_neg (by simp [hr]))

theorem gives_idRead (h : AsksKeys s rq w 7 index d) (hr : secReach d w (secArg d w) 256 = true) :
    Gives (.idRead rq w index) s d
      (keyRuns w 7 index 0 (store ((List.range 256).map (secArg d w + ·)) (identityRecord d))) :=
  gives_secActs h rfl (if_pos hr)

/-- What a root message does that passes every check (R461). -/
def rootActs (b : List Byte) : Eff :=
  if num b 5 1 = 1 then revokeRoot (num b 6 1) else setF F.SEC_ENDORSE_MIN_min (num b 6 1) (num b 0x10 4)

/-- The part of ROOT_MSG: its checks, and last that of the signature. -/
def rootMsgRun (w : Nat) (d : Device) : Nat × Eff :=
  match firstFail (rootMsgChecks d w (d.bytes (secArg d w) 144) ++ [(rootSigned d (d.bytes (secArg d w) 144), 3)]) with
  | some c => (c, .skip)
  | none => (0, rootActs (d.bytes (secArg d w) 144))

theorem exec_rootMsg : exec (.rootMsg rq w index) s = perform (decide (rq < 2049) && decide (w < 33))
    (aonDo rq (secCommand rq w (secValue 8 index) (rootMsgRun w))) s := by
  simp only [exec, execRootMsg, rootMsg, beq_iff_eq]
  rfl

section
variable (h : AsksKeys s rq w 8 index d)
include h

theorem gives_rootMsg_fails {code : Nat} (hf : firstFail (rootMsgChecks d w (d.bytes (secArg d w) 144)) = some code) :
    Gives (.rootMsg rq w index) s d (keyRuns w 8 index code .skip) :=
  gives_secFails h exec_rootMsg (by rw [rootMsgRun, firstFail_snoc, hf, Option.some_or])

variable (hf : firstFail (rootMsgChecks d w (d.bytes (secArg d w) 144)) = none)
include hf

theorem gives_rootMsg_unsigned (hs : rootSigned d (d.bytes (secArg d w) 144) = false) :
    Gives (.rootMsg rq w index) s d (keyRuns w 8 index 3 .skip) :=
  gives_secFails h exec_rootMsg (by rw [rootMsgRun, firstFail_snoc, hf, hs, Option.none_or, firstFail_cons_false])

theorem gives_rootMsg (hs : rootSigned d (d.bytes (secArg d w) 144) = true) :
    Gives (.rootMsg rq w index) s d (keyRuns w 8 index 0 (rootActs (d.bytes (secArg d w) 144))) :=
  gives_secActs h exec_rootMsg
    (by rw [rootMsgRun, firstFail_snoc, hf, hs, Option.none_or, firstFail_cons_true, firstFail_nil])

end

end

/-! ### SEC_CMD_COMPLETE (R466) -/

section
variable {s : State} {w : Nat}

theorem does_secCmdComplete (hw : w < 33) (hu : up s.dev = true) : Does (.secCmdComplete w) s (secCmdComplete w) :=
  does_whileIt (decide_eq_true hw) hu rfl

theorem run_secCmdComplete {d : Device} {op index code : Nat} (hp : d.secPendingAt w = some (op, index, code)) :
    (secCmdComplete w).run d = (Eff.all [putSecPending w none, setF F.SEC_CMD_busy w 0, setF F.SEC_STATUS_code w code,
      setF F.SEC_STATUS_op w op, setF F.SEC_STATUS_index w index]).run d := by
  rw [secCmdComplete, Eff.run_obs, hp]

theorem run_secCmdComplete_none {d : Device} (hp : d.secPendingAt w = none) : (secCmdComplete w).run d = d := by
  rw [secCmdComplete, Eff.run_obs, hp, Eff.run_skip]

end

/-- Settles O44: a write of SEC_CMD goes by the right, by whether the window is busy, and by the bar and the range of the op; a
command that passes these goes by the first of its own checks that fails, in the model's order (log entry 102). It acts at go, and
its code waits for SEC_CMD_COMPLETE (log entry 101). -/
theorem keyCommands : Obligations.KeyCommands := by
  refine ⟨fun s d rq w op index c hc hw hi => ?_, fun s d rq w index b fails h hb hf => ?_, fun s d rq w index h =>
      ⟨gives_keyErase_notHeld h, gives_keyErase_inUse h, gives_keyErase h⟩, fun s d rq w index h =>
      ⟨gives_keySeal_reach h, gives_keySeal_notHeld h, gives_keySeal h⟩, fun s d rq w index b fails h hb hf => ?_,
    fun s d rq w index b fails h hb hf => ?_, fun s d rq w index h =>
      ⟨gives_attest_reach h, gives_attest_poisoned h, gives_attest h⟩, fun s d rq w index h =>
      ⟨gives_idRead_reach h, gives_idRead h⟩, fun s d rq w index b fails h hb hf => ?_, fun s w hw hu =>
      ⟨fun op index code hp => (does_secCmdComplete hw hu).of_run (run_secCmdComplete hp),
        fun hp => (does_secCmdComplete hw hu).of_run (run_secCmdComplete_none hp)⟩⟩
  · obtain ⟨ho, run, hx⟩ := exec_secCommand hc s
    refine ⟨fun h hb => ?_, fun h => ⟨fun hb => ?_, fun hb hq => ?_, fun hb hq hr => ?_⟩⟩
    · exact (gives_aonDo (by simp [h.lt, hw]) h hx).of_run (run_writeAct_denied hb _ _)
    · rw [Gives, hx, perform_ok (by simp [h.asks.lt, hw]), run_secCommand_busy h run hb, Eff.run_skip]
    · rw [Gives, hx, perform_ok (by simp [h.asks.lt, hw]), run_secCommand_idle h run (bits_secValue_op ho index)
        (bits_secValue_index op hi) hb, secOutcome_barred run hq]
      rfl
    · rw [Gives, hx, perform_ok (by simp [h.asks.lt, hw]), run_secCommand_idle h run (bits_secValue_op ho index)
        (bits_secValue_index op hi) hb, secOutcome_outOfRange run hq hr]
      rfl
  · subst hb hf
    refine ⟨fun code hf _ => gives_keyLoad_fails h hf, fun hf => ?_⟩
    cases hu : unwrapBlob d (d.bytes (secArg d w) 256) with
    | none => exact gives_keyLoad_sealed h hf hu
    | some key => exact gives_keyLoad h hf hu
  · subst hb hf
    refine ⟨fun code hf _ => gives_keyUnseal_fails h hf, fun hf => ?_⟩
    rw [← unsealed]
    cases hu : unsealed d (d.bytes (secArg d w) 128) with
    | none => exact gives_keyUnseal_sealed h hf hu
    | some key => exact gives_keyUnseal h hf hu
  · subst hb hf
    refine ⟨fun code hf _ => gives_linkKeyLoad_fails h hf, fun hf => ?_⟩
    cases hu : unwrapBlob d (d.bytes (secArg d w) 256) with
    | none => exact gives_linkKeyLoad_sealed h hf hu
    | some key => exact gives_linkKeyLoad h hf hu
  · subst hb hf
    refine ⟨fun code hf _ => gives_rootMsg_fails h hf, fun hf => ?_⟩
    rw [← rootSigned]
    cases hs : rootSigned d (d.bytes (secArg d w) 144) with
    | false => exact gives_rootMsg_unsigned h hf hs
    | true => exact gives_rootMsg h hf hs

end Sys2Proof.Machine
end

section
/-! PROOFS. Context keys, the tamper policy and response, key retention and debug access (R413, R445, R471 to R476). -/

namespace Sys2Proof.Machine

/- As in the tests, one theorem after another: each one elaborated beside others holds a thread's stack. -/
set_option Elab.async false

/-! ### CTX_KEY_WRITE and ALARM_POLICY_WRITE (R471, R476) -/

section
variable {d : Device} {rq c v : Nat}

theorem run_ctxKeyWrite_denied (hm : bit (mayWrite d rq .SEC_CTX_KEY c) 31 = 0) : (ctxKeyWrite rq c v).run d = denied.run d := by
  rw [ctxKeyWrite, Eff.run_obs, if_pos (beq_iff_eq.2 hm)]

section
variable (hm : bit (mayWrite d rq .SEC_CTX_KEY c) 31 ≠ 0)
include hm

theorem run_ctxKeyWrite : (ctxKeyWrite rq c v).run d =
    (if bit v 31 == 1 && !(ctxPart d c).any fun p => holdsSlot d p (bits v 9 0) then
      .each (ctxPart d c).toList fun p => setF F.SEC_STATUS_code p 11
    else storeWrite rq .SEC_CTX_KEY c v : Eff).run d := by
  rw [ctxKeyWrite, Eff.run_obs, if_neg (mt beq_iff_eq.1 hm)]

theorem run_ctxKeyWrite_disables (hv : bit v 31 ≠ 1) : (ctxKeyWrite rq c v).run d = (storeWrite rq .SEC_CTX_KEY c v).run d := by
  rw [run_ctxKeyWrite hm, beq_false_of_ne hv, Bool.false_and, if_neg Bool.false_ne_true]

theorem run_ctxKeyWrite_held {p : Nat} (hp : ctxPart d c = some p) (hh : holdsSlot d p (bits v 9 0) = true) :
    (ctxKeyWrite rq c v).run d = (storeWrite rq .SEC_CTX_KEY c v).run d := by
  rw [run_ctxKeyWrite hm, hp, Option.any_some, hh, Bool.not_true, Bool.and_false, if_neg Bool.false_ne_true]

variable (hv : bit v 31 = 1)
include hv

theorem run_ctxKeyWrite_notHeld {p : Nat} (hp : ctxPart d c = some p) (hh : holdsSlot d p (bits v 9 0) = false) :
    (ctxKeyWrite rq c v).run d = (setF F.SEC_STATUS_code p 11).run d := by
  rw [run_ctxKeyWrite hm, hp, Option.any_some, hh, hv, if_pos (by decide), Option.toList_some, Eff.run_each_cons,
    Eff.run_each_nil]

theorem run_ctxKeyWrite_unbound (hp : ctxPart d c = none) : (ctxKeyWrite rq c v).run d = d := by
  rw [run_ctxKeyWrite hm, hp, Option.any_none, hv, if_pos (by decide), Option.toList_none, Eff.run_each_nil]

end

theorem run_alarmPolicyWrite_denied (hm : mayWrite d rq .SEC_ALARM_POLICY 0 = 0) :
    (alarmPolicyWrite rq v).run d = denied.run d := by
  rw [alarmPolicyWrite, Eff.run_obs, if_pos (beq_iff_eq.2 hm)]

theorem run_alarmPolicyWrite (hm : mayWrite d rq .SEC_ALARM_POLICY 0 ≠ 0) : (alarmPolicyWrite rq v).run d =
    (Eff.each (List.range 5) fun k =>
      .when (bits v (2 * k + 1) (2 * k) != 3 && tamperResponse d k < bits v (2 * k + 1) (2 * k))
        (setF (policyField k) 0 (bits v (2 * k + 1) (2 * k)))).run d := by
  rw [alarmPolicyWrite, Eff.run_obs, if_neg (mt beq_iff_eq.1 hm)]

end

/-! ### TAMPER_TRIP (R471, R472) -/

section
variable {d : Device} {k : Nat}

/-- A trip of a device that runs is logged, and a quarantine then acts at once. -/
theorem run_tamperTrip_on (h : d.off = 0) : (tamperTrip k).run d = (Eff.all [
    setF F.SEC_TAMPER_latched 0 (d.fld F.SEC_TAMPER_latched 0 ||| 2 ^ k), setF F.SEC_TAMPER_vbat_only 0 0,
    logError { severity := 2, source := 3, info := k }, .when (tamperResponse d k == 2) (zeroiseStore 2),
    .when (1 ≤ tamperResponse d k) quarantine]).run d := by
  simp [tamperTrip, h, Eff.run_when]

/-- A trip of a device that is off is not logged, and its quarantine is latched for the next start. -/
theorem run_tamperTrip_off (h0 : d.off ≠ 0) (h3 : d.off ≠ 3) (hk : d.off = 1 → 2 ≤ k) : (tamperTrip k).run d = (Eff.all [
    setF F.SEC_TAMPER_latched 0 (d.fld F.SEC_TAMPER_latched 0 ||| 2 ^ k),
    setF F.SEC_TAMPER_vbat_only 0 (if d.off = 1 then 1 else 0),
    .when (tamperResponse d k == 2) (.seq (zeroiseStore 2) (putKeysLost true)),
    .when (1 ≤ tamperResponse d k) (putQuarLatch true)]).run d := by
  have hs : (d.off != 3 && (!(d.off == 1) || decide (2 ≤ k))) = true := by
    by_cases h1 : d.off = 1 <;> simp [h1, h3, hk]
  simp only [tamperTrip, Eff.run_obs, hs, Eff.when_true, beq_false_of_ne h0, bne_iff_ne.2 h0, Eff.when_false, beq_iff_eq,
    if_neg h0, Eff.run_all_cons, Eff.run_all_nil, Eff.run_skip]

/-- Nothing is sensed without VBAT, and classes 0 and 1 are not sensed on VBAT alone. -/
theorem run_tamperTrip_unsensed (h : d.off = 3 ∨ d.off = 1 ∧ k < 2) : (tamperTrip k).run d = d := by
  rw [tamperTrip, Eff.run_obs]
  refine Eff.run_when_neg ?_ _ _
  rcases h with h | ⟨h, hk⟩
  · rw [h]
    rfl
  · rw [h, decide_eq_false (by omega)]
    rfl

end

/-! ### VIN_SAMPLE (R413, R473) -/

section
variable {d : Device} {vin vbat : Nat}

theorem run_vinSample_valid (h : d.vin.valid = true) :
    (vinSample vin vbat).run d = (setF F.SEC_KEYSTATE_vbat_low 0 (if vbat < 1900 then 1 else 0)).run d := by
  rw [vinSample, Eff.run_obs, if_pos h]

theorem run_vinSample_low (h : d.vin.valid = false) (hv : vin < 38000) : (vinSample vin vbat).run d =
    (Eff.seq (.when (vbat < 1900) (loseKeys true)) (putVin ⟨false, 0⟩)).run d := by
  simp [vinSample, h, hv, Nat.not_le.2 hv]

/-- A sample of 38 V or more counts, and the 65th in a row declares VIN valid. -/
theorem run_vinSample_high (h : d.vin.valid = false) (hv : 38000 ≤ vin) : (vinSample vin vbat).run d =
    (Eff.seq (.when (vbat < 1900) (loseKeys false))
      (putVin (if d.vin.count + 1 = 65 then ⟨true, 0⟩ else ⟨false, d.vin.count + 1⟩))).run d := by
  simp [vinSample, h, hv, Nat.not_lt.2 hv]

end

/-! ### DEBUG_CERTIFICATE (R474) -/

theorem run_debugCertificate (d : Device) (c : List Byte) : (debugCertificate c).run d =
    (Eff.seq (freeBytes 32 fun n => .seq (putDebugNonce n) .skip) (if certificateOk d c then .all [
        .when (num c 5 1 == 2) clearForTest,
        setF F.SEC_KEYSTATE_debug_level 0 (max (d.fld F.SEC_KEYSTATE_debug_level 0) (num c 5 1)),
        setF F.SEC_DEBUG_level 0 (max (d.fld F.SEC_DEBUG_level 0) (num c 5 1))]
      else addSat F.SEC_DEBUG_refused 0 1)).run d := by
  rw [debugCertificate, Eff.run_obs, drawNonce]

/-! ### The commands -/

section
variable {s : State}

theorem gives_ctxKeyWrite {d : Device} {rq c : Nat} (hc : c < 1024) (h : AsksAon s rq d) (v : Nat) :
    Gives (.ctxKeyWrite rq c v) s d (ctxKeyWrite rq c v) :=
  gives_aonDo (by simp [h.lt, hc]) h rfl

theorem gives_alarmPolicyWrite {d : Device} {rq : Nat} (h : AsksAon s rq d) (v : Nat) :
    Gives (.alarmPolicyWrite rq v) s d (alarmPolicyWrite rq v) :=
  gives_aonDo (decide_eq_true h.lt) h rfl

theorem does_tamperTrip {k : Nat} (hk : k < 5) : Does (.tamperTrip k) s (tamperTrip k) :=
  does_perform (decide_eq_true hk) rfl

theorem does_vinSample (vin vbat : Nat) : Does (.vinSample vin vbat) s (vinSample vin vbat) := does_perform rfl rfl

/-- A command of a block that is up, on one that is off: nothing happens. -/
theorem does_whileIt_not {c : Instr} {ok : Bool} {e : Eff} {guard : Device → Bool} (hok : ok = true)
    (hg : guard s.dev = false) (hc : exec c s = perform ok (whileIt guard e) s) : Does c s .skip := by
  rw [Does, Gives, hc, perform_ok hok, whileIt, Eff.run_obs, hg, Eff.when_false]

end

/-- Settles O45: each write goes by its right and by what it asks for, TAMPER_TRIP by how the device is supplied and by the response
in force (log entry 104), VIN_SAMPLE by whether VIN is valid and by the sample, and the debug commands by whether the device is up.
A key command in service keeps the code it has unless a quarantine gives it another (log entry 101). -/
theorem securityControl : Obligations.SecurityControl := by
  refine ⟨fun s d rq c v hc h => ?_, fun s d rq v h => ?_, fun s k latch hk hl => ?_, fun s vin vbat => ?_,
    fun s => ⟨fun hu => does_whileIt rfl hu rfl, fun hu => does_whileIt_not rfl hu rfl⟩,
    fun s c => ⟨fun hu => (does_whileIt rfl hu rfl).of_run (run_debugCertificate _ c), fun hu => does_whileIt_not rfl hu rfl⟩⟩
  · have hx := gives_ctxKeyWrite hc h v
    exact ⟨fun hm => hx.of_run (run_ctxKeyWrite_denied hm), fun hm hv => hx.of_run (run_ctxKeyWrite_disables hm hv),
      fun p hm hv hp => ⟨fun hh => hx.of_run (run_ctxKeyWrite_held hm hp hh),
        fun hh => hx.of_run (run_ctxKeyWrite_notHeld hm hv hp hh)⟩,
      fun hm hv hp => hx.of_run (run_ctxKeyWrite_unbound hm hv hp)⟩
  · have hx := gives_alarmPolicyWrite h v
    exact ⟨fun hm => hx.of_run (run_alarmPolicyWrite_denied hm), fun hm => hx.of_run (run_alarmPolicyWrite hm)⟩
  · subst hl
    have hx := does_tamperTrip (s := s) hk
    refine ⟨fun h0 hr => hx.of_run ?_, fun h0 hr => hx.of_run ?_, fun h1 h2 => hx.of_run ?_,
      fun h1 h2 => hx.of_run (run_tamperTrip_unsensed (.inr ⟨h1, h2⟩)), fun h2 => hx.of_run ?_,
      fun h3 => hx.of_run (run_tamperTrip_unsensed (.inl h3))⟩
    · rw [run_tamperTrip_on h0, hr]
      simp only [Eff.run_all_cons, Eff.run_all_nil]
      rfl
    · rw [run_tamperTrip_on h0, decide_eq_true hr, Eff.when_true, quarantine]
    · rw [run_tamperTrip_off (by omega) (by omega) (fun _ => h2), if_pos h1]
    · rw [run_tamperTrip_off (by omega) (by omega) (by omega), if_neg (by omega)]
  · have hx := does_vinSample (s := s) vin vbat
    exact ⟨fun h => hx.of_run (run_vinSample_valid h),
      fun h hv hn => hx.of_run ((run_vinSample_high h hv).trans (by rw [if_neg hn])),
      fun h hv hn => hx.of_run ((run_vinSample_high h hv).trans (by rw [if_pos hn])),
      fun h hv => hx.of_run (run_vinSample_low h hv)⟩

end Sys2Proof.Machine
end

section
/-! PROOFS. The halt input (R424, R492, R496 to R499). -/

namespace Sys2Proof.Machine

/- As in the tests, one theorem after another: each one elaborated beside others holds a thread's stack. -/
set_option Elab.async false

/-! ### What the channels do (R497, R499) -/

/-- The channels are shown as they read. -/
def showsChannels (a b : Bool) : Eff :=
  .seq (setF F.HALT_STATUS_a 0 (if a then 1 else 0)) (setF F.HALT_STATUS_b 0 (if b then 1 else 0))

section
variable {d : Device} {a b : Bool}

/-- A channel that asserts halts a device that is not halted. -/
theorem run_haltInputs_halts (h : (a || b) = true) (hh : halted d = false) : (haltInputs a b).run d = (Eff.all [
    setF F.HALT_STATUS_a 0 (if a then 1 else 0), setF F.HALT_STATUS_b 0 (if b then 1 else 0),
    setF F.HALT_STATUS_halted 0 1, setF F.HALT_STATUS_in_rest 0 (if d.off == 0 && powerState d == 1 then 1 else 0),
    setF F.HALT_STATUS_first 0 (if a && b then 3 else if a then 1 else 2), addSat F.HALT_CTRL_halts 0 1, haltEvent]).run d := by
  have hf : (if a && b then 3 else if a then 1 else if b then 2 else 0) = if a && b then 3 else if a then 1 else 2 := by
    cases a
    · rw [show b = true from h]
      rfl
    · rfl
  simp only [haltInputs, Eff.run_obs, hf, h, hh, Bool.true_or, Bool.not_false, Bool.not_true, Bool.and_self,
    Eff.when_true, Eff.when_false, Eff.run_all_cons, Eff.run_all_nil, Eff.run_skip]

/-- With no channel asserted and no fault a device is halted no more. -/
theorem run_haltInputs_releases (hh : halted d = true) (hf : d.fld F.HALT_STATUS_fault 0 ≠ 1) :
    (haltInputs false false).run d = (Eff.all [setF F.HALT_STATUS_a 0 0, setF F.HALT_STATUS_b 0 0,
      setF F.HALT_STATUS_halted 0 0, haltEvent, .each (List.range 128) releaseHeld,
      .when (d.fld F.HALT_STATUS_in_rest 0 == 1 && wakeEnabled d 3) (wakeWhole 3)]).run d := by
  simp only [haltInputs, Eff.run_obs, beq_false_of_ne hf, hh, Bool.or_self, Bool.not_false, Bool.not_true,
    Bool.and_self, Eff.when_true, Eff.when_false, Eff.run_all_cons, Eff.run_all_nil, Eff.run_skip, Bool.false_eq_true, if_false]

/-- A device that is halted as its channels and its fault have it stays as it is, and so does one that is not. -/
theorem run_haltInputs_shows (h : (a || b || d.fld F.HALT_STATUS_fault 0 == 1) = halted d) :
    (haltInputs a b).run d = (showsChannels a b).run d := by
  simp only [haltInputs, Eff.run_obs, h, showsChannels, Bool.and_not_self, Bool.not_and_self, Eff.when_false, Eff.run_seq,
    Eff.run_all_cons, Eff.run_all_nil, Eff.run_skip]

end

/-! ### HALT_ASSERT, HALT_RELEASE and HALT_DISCREPANCY (R497, R498) -/

section
variable {d : Device} {a b : Bool} {cycles : Nat}

theorem run_haltAssert (h0 : d.off = 0) (h : (a || b) = true) :
    (haltAssert a b cycles).run d = (haltInputs a b).run ((disagreed cycles).run d) := by
  rw [haltAssert, Eff.run_obs, Eff.run_when_pos (by rw [h, h0]; rfl), Eff.run_seq]

theorem run_haltAssert_none (h : d.off ≠ 0 ∨ (a || b) = false) : (haltAssert a b cycles).run d = d := by
  rw [haltAssert, Eff.run_obs]
  exact Eff.run_when_neg (Bool.and_eq_false_iff.2 (h.imp_left beq_false_of_ne)) _ _

theorem run_haltRelease (h0 : d.off = 0) :
    (haltRelease cycles).run d = (haltInputs false false).run ((disagreed cycles).run d) := by
  rw [haltRelease, Eff.run_obs, Eff.run_when_pos (beq_iff_eq.2 h0), Eff.run_seq]

theorem run_haltRelease_off (h0 : d.off ≠ 0) : (haltRelease cycles).run d = d := by
  rw [haltRelease, Eff.run_obs, Eff.run_when_neg (beq_false_of_ne h0)]

variable {aOnly : Bool}

theorem run_haltDiscrepancy (h0 : d.off = 0) (hf : d.fld F.HALT_STATUS_fault 0 = 0) : (haltDiscrepancy aOnly).run d =
    (Eff.all [setF F.HALT_STATUS_fault 0 1, setF F.HALT_STATUS_last_disagree 0 250001, logError { severity := 2 },
      haltEvent]).run ((haltInputs aOnly !aOnly).run d) := by
  rw [haltDiscrepancy, Eff.run_obs, Eff.run_when_pos (by rw [h0, hf]; rfl), Eff.run_all_cons]

theorem run_haltDiscrepancy_none (h : d.off ≠ 0 ∨ d.fld F.HALT_STATUS_fault 0 ≠ 0) : (haltDiscrepancy aOnly).run d = d := by
  rw [haltDiscrepancy, Eff.run_obs]
  exact Eff.run_when_neg (Bool.and_eq_false_iff.2 (h.imp beq_false_of_ne beq_false_of_ne)) _ _

end

/-! ### HALT_CLEAR (R498) -/

section
variable {d : Device}

theorem run_clearHalt_noFault (h : d.fld F.HALT_STATUS_fault 0 ≠ 1) : clearHalt.run d = d := by
  rw [clearHalt, Eff.run_obs, Eff.run_when_neg (beq_false_of_ne h)]

variable (h : d.fld F.HALT_STATUS_fault 0 = 1)
include h

theorem run_clearHalt_refused (hc : d.fld F.HALT_STATUS_a 0 = 1 ∨ d.fld F.HALT_STATUS_b 0 = 1) :
    clearHalt.run d = (setF F.HALT_CTRL_clear_refused 0 1).run d := by
  rw [clearHalt, Eff.run_obs, Eff.run_when_pos (beq_iff_eq.2 h), if_pos (by simpa using hc)]

theorem run_clearHalt (ha : d.fld F.HALT_STATUS_a 0 ≠ 1) (hb : d.fld F.HALT_STATUS_b 0 ≠ 1) : clearHalt.run d =
    (Eff.all [setF F.HALT_CTRL_clear_refused 0 0, setF F.HALT_STATUS_fault 0 0, haltInputs false false]).run d := by
  rw [clearHalt, Eff.run_obs, Eff.run_when_pos (beq_iff_eq.2 h), if_neg (by simp [ha, hb])]

end

/-! ### The commands -/

section
variable {s : State}

theorem does_haltAssert {a b : Bool} {cycles : Nat} (hc : cycles < 250001) :
    Does (.haltAssert a b cycles) s (haltAssert a b cycles) := does_perform (decide_eq_true hc) rfl

theorem does_haltRelease {cycles : Nat} (hc : cycles < 250001) : Does (.haltRelease cycles) s (haltRelease cycles) :=
  does_perform (decide_eq_true hc) rfl

theorem does_haltDiscrepancy (aOnly : Bool) : Does (.haltDiscrepancy aOnly) s (haltDiscrepancy aOnly) := does_perform rfl rfl

theorem gives_haltClear {d : Device} {rq v : Nat} (h : WritesAon s rq .HALT_CTRL 0 v 31 d) :
    Gives (.haltClear rq v) s d (.when (bit v 31 == 1) clearHalt) := gives_writesAon (decide_eq_true h.asks.lt) h rfl

end

/-- Settles O49: what the channels read goes by whether the device is halted and by whether a fault is latched; a discrepancy, of
the length that stands for the cycle it is declared at (log entry 117), acts once; a clear goes by the fault and by the channels. -/
theorem haltInput : Obligations.HaltInput := by
  refine ⟨fun s d a b cycles hc hd => ?_, fun s d cycles hc hd => ?_, fun s aOnly => ?_, fun s d rq v h hb => ?_,
    fun s d rq v h => ?_⟩
  · subst hd
    have hx := does_haltAssert (s := s) (a := a) (b := b) hc
    refine ⟨fun h0 h hh => hx.of_run ((run_haltAssert h0 h).trans (run_haltInputs_halts h hh)),
      fun h0 h hh => hx.of_run ((run_haltAssert h0 h).trans (run_haltInputs_shows ?_)),
      fun h => hx.of_run (run_haltAssert_none h)⟩
    rw [h, Bool.true_or]
    exact hh.symm
  · subst hd
    have hx := does_haltRelease (s := s) hc
    refine ⟨fun h0 hh hf => hx.of_run ((run_haltRelease h0).trans (run_haltInputs_releases hh hf)),
      fun h0 hh hf => hx.of_run ((run_haltRelease h0).trans (run_haltInputs_shows ?_)),
      fun h0 hh hf => hx.of_run ((run_haltRelease h0).trans (run_haltInputs_shows ?_)),
      fun h0 => hx.of_run (run_haltRelease h0), fun h0 => hx.of_run (run_haltRelease_off h0)⟩
    · exact (beq_iff_eq.2 hf).trans hh.symm
    · exact (beq_false_of_ne hf).trans hh.symm
  · have hx := does_haltDiscrepancy (s := s) aOnly
    have ho : (aOnly || !aOnly) = true := Bool.or_not_self aOnly
    have hb : (if !aOnly then 1 else 0) = if aOnly then 0 else 1 := by cases aOnly <;> rfl
    refine ⟨fun h0 hf hh => hx.of_run ((run_haltDiscrepancy h0 hf).trans ?_),
      fun h0 hf hh => hx.of_run ((run_haltDiscrepancy h0 hf).trans ?_), fun h => hx.of_run (run_haltDiscrepancy_none h)⟩
    · rw [run_haltInputs_shows (by rw [ho, hh, Bool.true_or])]
      simp only [showsChannels, hb, Eff.run_seq, Eff.run_all_cons]
    · rw [run_haltInputs_halts ho hh]
      simp only [h0, hb, beq_self_eq_true, Bool.true_and, beq_iff_eq, Bool.and_not_self, Bool.false_eq_true, if_false,
        Eff.run_all_cons, Eff.run_all_nil]
  · exact (gives_aonDo (decide_eq_true h.lt) h rfl).of_run (run_writeAct_denied (bit_eq_zero hb) _ _)
  · have hx := gives_haltClear h
    refine ⟨fun hn => ?_, fun hb hf hc => hx.of_run ((run_whenBit hb _ _).trans (run_clearHalt_refused hf hc)),
      fun hb hf ha hc => hx.of_run ((run_whenBit hb _ _).trans (run_clearHalt hf ha hc))⟩
    by_cases hb : bit v 31 = 1
    · exact hx.of_run ((run_whenBit hb _ _).trans (run_clearHalt_noFault (hn.resolve_left (not_not_intro hb))))
    · exact hx.of_run (run_whenBit_not hb _ _)

end Sys2Proof.Machine
end

section
/-! PROOFS. The queue, and the cycle that passes with no command waiting (R417, R420, R424, R441, R443). -/

namespace Sys2Proof.Machine

/- As in the tests, one theorem after another: each one elaborated beside others holds a thread's stack. -/
set_option Elab.async false

theorem run_idle_off {d : Device} (h : d.off ≠ 0) : idle.run d = d := by
  rw [idle, Eff.run_obs, Eff.run_when_neg (beq_false_of_ne h)]

/-- The count is the last thing that a cycle changes. -/
theorem run_idle {d : Device} (h : d.off = 0) :
    ∃ e : Eff, idle.run d = (setReg .CLK_AON_CNT 0 (d.reg .CLK_AON_CNT 0 + 1)).run (e.run d) :=
  ⟨.all [.when (powerState d == 1 && everySeconds d 1 && 1 < d.fld F.PWR_WAKE_TIMER_seconds 0)
      (setF F.PWR_WAKE_TIMER_seconds 0 (d.fld F.PWR_WAKE_TIMER_seconds 0 - 1)),
    .when ((powerState d == 2 || powerState d == 3) && everySeconds d 3600) (addSat F.AGE_STATUS_hours 0 1),
    .when (powerState d == 3 && everySeconds d 600) saveMargin], by
    rw [idle, Eff.run_obs, Eff.run_when_pos (beq_iff_eq.2 h)]
    simp only [Eff.run_all_cons, Eff.run_all_nil]⟩

theorem reg_aonCnt_idle {d : Device} (hk : d.Ok) (h : d.off = 0) :
    (idle.run d).reg .CLK_AON_CNT 0 = (d.reg .CLK_AON_CNT 0 + 1) % 2 ^ 64 := by
  obtain ⟨e, he⟩ := run_idle h
  rw [he, reg_setReg (e.run_regsOk hk.regs)]

/-- Settles O56: `step` says it of the queue, and the tick counts last (log entry 16). -/
theorem stepTakesFront : Obligations.StepTakesFront :=
  ⟨fun _ _ _ => rfl, fun _ => rfl, fun _ h => run_idle_off h, fun _ hk h => reg_aonCnt_idle hk h⟩

end Sys2Proof.Machine
end

section
/-! PROOFS. Management messages (R420, R422, R424, R426, R495, R496, R498, R501). -/

namespace Sys2Proof.Machine

/- As in the tests, one theorem after another: each one elaborated beside others holds a thread's stack. -/
set_option Elab.async false

/-! ### What every message does (R420, R424, R496) -/

/-- What follows a request: the waiting events are delivered, and a device that `on` says is up wakes or gives up its entry to REST
where source 1 is enabled. -/
def afterRequest (on : Bool) : Eff := .seq deliverEvents (.when on
  (.obs fun d => .when (wakeEnabled d 1) (if powerState d == 4 then abandonRest else wakeWhole 1)))

theorem managed_iff {d : Device} : managed d = true ↔ d.off = 0 ∨ d.off = 2 := by simp [managed]

section
variable {d : Device}

theorem run_managementRequest (h : d.off = 0 ∨ d.off = 2) (act : Eff) :
    (managementRequest act).run d = (Eff.seq act (afterRequest (d.off == 0))).run d := by
  rw [managementRequest, Eff.run_obs, Eff.run_when_pos (managed_iff.2 h)]
  simp only [afterRequest, wakeOrAbandon, Eff.run_seq, Eff.run_all_cons, Eff.run_all_nil]

theorem run_managementRequest_none (h0 : d.off ≠ 0) (h2 : d.off ≠ 2) (act : Eff) : (managementRequest act).run d = d := by
  rw [managementRequest, Eff.run_obs, Eff.run_when_neg (by simp [managed, h0, h2])]

end

/-- A request whose act does on the block what `act'` does. -/
theorem run_managementRequest_of {d : Device} {act act' : Eff} (h : d.off = 0 ∨ d.off = 2) (ha : act.run d = act'.run d) :
    (managementRequest act).run d = (Eff.seq act' (afterRequest (d.off == 0))).run d := by
  rw [run_managementRequest h, Eff.run_seq, ha, Eff.run_seq]

/-! ### MCTP_CONTROL (R495) -/

/-- What MCTP_CONTROL answers. -/
def mctpAnswers (d : Device) (t kind command eid : Nat) : Eff :=
  if 2 ≤ kind then mgmtAnswer t 1 kind
  else if kind == 0 && command == 1 then .seq (setF (eidField t) 0 eid) (mgmtAnswer t 0 eid)
  else mgmtAnswer t 0 (d.fld (eidField t) 0)

theorem mctpControl_eq (t kind command eid : Nat) :
    mctpControl t kind command eid = managementRequest (.obs fun d => mctpAnswers d t kind command eid) := rfl

section
variable {d : Device} {t kind command : Nat} (eid : Nat)

theorem mctpAnswers_unsupported (h : 2 ≤ kind) : mctpAnswers d t kind command eid = mgmtAnswer t 1 kind := if_pos h

theorem mctpAnswers_setId : mctpAnswers d t 0 1 eid = .seq (setF (eidField t) 0 eid) (mgmtAnswer t 0 eid) := rfl

theorem mctpAnswers_other (hk : kind < 2) (h : kind ≠ 0 ∨ command ≠ 1) :
    mctpAnswers d t kind command eid = mgmtAnswer t 0 (d.fld (eidField t) 0) := by
  rw [mctpAnswers, if_neg (by omega), if_neg (by rw [Bool.and_eq_true, beq_iff_eq, beq_iff_eq]; omega)]

end

/-! ### PLDM_SENSOR_READ (R496) -/

/-- The answer to a read of a sensor. -/
theorem run_sensorRead {d : Device} (h : d.off = 0 ∨ d.off = 2) (t id : Nat) : (pldmSensorRead t id).run d =
    (Eff.seq (match sensorReading d id with
      | some v => mgmtAnswer t 0 v
      | none => mgmtAnswer t 1 id) (afterRequest (d.off == 0))).run d :=
  run_managementRequest_of h (Eff.run_obs _ _)

section
variable {d : Device} {id : Nat}

theorem sensorReading_device {v : Nat} (h : (id, v) ∈ [(1, d.fld F.PWR_MEAS_power 0), (2, d.fld F.PWR_MEAS_vin 0 / 100),
      (3, d.fld F.PWR_MEAS_iin 0 / 100), (4, d.fld F.PWR_MEAS_tj 0), (30, if d.off = 2 then 0 else powerState d),
      (31, if d.fld F.HALT_STATUS_fault 0 = 1 then 2 else d.fld F.HALT_STATUS_halted 0)]) :
    sensorReading d id = some v := by
  simp only [List.mem_cons, List.not_mem_nil, or_false, Prod.mk.injEq] at h
  rcases h with ⟨rfl, rfl⟩ | ⟨rfl, rfl⟩ | ⟨rfl, rfl⟩ | ⟨rfl, rfl⟩ | ⟨rfl, rfl⟩ | ⟨rfl, rfl⟩
  all_goals simp only [sensorReading, beq_iff_eq]

/-- The sensors of the stacks have the IDs that no sensor of the device has. -/
theorem sensorReading_stacks (h : 5 ≤ id) (h30 : id ≠ 30) (h31 : id ≠ 31) : sensorReading d id =
    if 5 ≤ id && id ≤ 20 then some (d.fld F.DRM_STACK_STATUS_temp (id - 5))
    else if 21 ≤ id && id ≤ 24 then some (d.fld F.FLS_STACK_STATUS_temp (id - 21)) else none := by
  rw [sensorReading]
  all_goals omega

theorem sensorReading_dram (h : 5 ≤ id) (h' : id ≤ 20) :
    sensorReading d id = some (d.fld F.DRM_STACK_STATUS_temp (id - 5)) := by
  rw [sensorReading_stacks h (by omega) (by omega), if_pos (by simp [h, h'])]

theorem sensorReading_flash (h : 21 ≤ id) (h' : id ≤ 24) :
    sensorReading d id = some (d.fld F.FLS_STACK_STATUS_temp (id - 21)) := by
  rw [sensorReading_stacks (by omega) (by omega) (by omega), if_neg (by simp; omega), if_pos (by simp [h, h'])]

theorem sensorReading_none (h : id = 0 ∨ 24 < id ∧ id < 30 ∨ 31 < id) : sensorReading d id = none := by
  by_cases h0 : id = 0
  · rw [h0]
    rfl
  · rw [sensorReading_stacks (by omega) (by omega) (by omega), if_neg (by simp; omega), if_neg (by simp; omega)]

end

/-! ### PLDM_CLEAR_HALT and PLDM_POWER_STATE (R426, R496, R501) -/

section
variable {d : Device} {t target : Nat}

theorem run_pldmClearHalt (h : d.off = 0) : (pldmClearHalt t).run d =
    (Eff.all [clearHalt, mgmtAnswer t 0 0, afterRequest (d.off == 0)]).run d := by
  rw [pldmClearHalt, run_managementRequest (.inl h), Eff.run_seq, Eff.run_obs, Eff.run_when_pos (beq_iff_eq.2 h)]
  simp only [Eff.run_seq, Eff.run_all_cons, Eff.run_all_nil]

theorem run_pldmClearHalt_off (h : d.off = 2) : (pldmClearHalt t).run d = (afterRequest (d.off == 0)).run d := by
  rw [pldmClearHalt, run_managementRequest (.inr h), Eff.run_seq, Eff.run_obs,
    Eff.run_when_neg (beq_false_of_ne (by omega))]

/-- The device is in the middle of a change that a request for a power state must wait for. -/
def changing (d : Device) : Bool := powerState d == 4 || powerState d == 5 || powerState d == 6

theorem run_pldmPowerState (h : d.off = 0 ∨ d.off = 2) : (pldmPowerState t target).run d = (Eff.seq
    (if d.off = 2 then .seq (.when (target == 2) (.seq (putOff 1) (putVin ⟨true, 0⟩))) (mgmtAnswer t 0 target)
      else if changing d then mgmtAnswer t 2 target else .seq (powerRequest target 1) (mgmtAnswer t 0 target))
    deliverEvents).run d := by
  rw [pldmPowerState, Eff.run_obs, Eff.run_when_pos (managed_iff.2 h)]
  simp only [beq_iff_eq, changing, Eff.run_seq, Eff.run_all_cons, Eff.run_all_nil]
  rfl

theorem run_pldmPowerState_none (h0 : d.off ≠ 0) (h2 : d.off ≠ 2) : (pldmPowerState t target).run d = d := by
  rw [pldmPowerState, Eff.run_obs, Eff.run_when_neg (by simp [managed, h0, h2])]

theorem run_pldmPowerState_starts (h : d.off = 2) : (pldmPowerState t 2).run d =
    (Eff.all [putOff 1, putVin ⟨true, 0⟩, mgmtAnswer t 0 2, deliverEvents]).run d := by
  rw [run_pldmPowerState (.inr h), if_pos h, beq_self_eq_true, Eff.when_true]
  simp only [Eff.run_seq, Eff.run_all_cons, Eff.run_all_nil]

theorem run_pldmPowerState_off (h : d.off = 2) (ht : target ≠ 2) :
    (pldmPowerState t target).run d = (Eff.seq (mgmtAnswer t 0 target) deliverEvents).run d := by
  rw [run_pldmPowerState (.inr h), if_pos h, beq_false_of_ne ht, Eff.when_false, Eff.run_seq, Eff.run_seq, Eff.run_skip,
    Eff.run_seq]

theorem run_pldmPowerState_notReady (h : d.off = 0) (hs : powerState d = 4 ∨ powerState d = 5 ∨ powerState d = 6) :
    (pldmPowerState t target).run d = (Eff.seq (mgmtAnswer t 2 target) deliverEvents).run d := by
  have hc : changing d = true := by simpa [changing, or_assoc] using hs
  rw [run_pldmPowerState (.inl h), if_neg (by omega), if_pos hc]

theorem run_pldmPowerState_asks (h : d.off = 0) (h4 : powerState d ≠ 4) (h5 : powerState d ≠ 5) (h6 : powerState d ≠ 6) :
    (pldmPowerState t target).run d =
      (Eff.all [powerRequest target 1, mgmtAnswer t 0 target, deliverEvents]).run d := by
  have hc : changing d = false := by simp [changing, h4, h5, h6]
  rw [run_pldmPowerState (.inl h), if_neg (by omega), hc, if_neg Bool.false_ne_true]
  simp only [Eff.run_seq, Eff.run_all_cons, Eff.run_all_nil]

end

/-! ### The commands -/

section
variable {s : State} {t : Nat} (ht : t < 3)
include ht

theorem does_mctpControl {eid : Nat} (he : eid < 256) (kind command : Nat) :
    Does (.mctpControl t kind command eid) s (mctpControl t kind command eid) := does_perform (by simp [ht, he]) rfl

theorem does_pldmSensorRead (id : Nat) : Does (.pldmSensorRead t id) s (pldmSensorRead t id) :=
  does_perform (decide_eq_true ht) rfl

theorem does_pldmSetEventReceiver {eid : Nat} (he : eid < 256) :
    Does (.pldmSetEventReceiver t eid) s (pldmSetEventReceiver t eid) := does_perform (by simp [ht, he]) rfl

theorem does_pldmPowerState {target : Nat} (hg : target < 4) :
    Does (.pldmPowerState t target) s (pldmPowerState t target) := does_perform (by simp [ht, hg]) rfl

theorem does_pldmClearHalt : Does (.pldmClearHalt t) s (pldmClearHalt t) := does_perform (decide_eq_true ht) rfl

theorem does_sensorRead {id v : Nat} (h : s.dev.off = 0 ∨ s.dev.off = 2) (hr : sensorReading s.dev id = some v) :
    Does (.pldmSensorRead t id) s (.seq (mgmtAnswer t 0 v) (afterRequest (s.dev.off == 0))) :=
  (does_pldmSensorRead ht id).of_run (by rw [run_sensorRead h, hr])

theorem does_sensorRead_none {id : Nat} (h : s.dev.off = 0 ∨ s.dev.off = 2) (hr : sensorReading s.dev id = none) :
    Does (.pldmSensorRead t id) s (.seq (mgmtAnswer t 1 id) (afterRequest (s.dev.off == 0))) :=
  (does_pldmSensorRead ht id).of_run (by rw [run_sensorRead h, hr])

/-- Without VIN nothing answers. -/
theorem does_message_none {kind command eid id target : Nat} (he : eid < 256) (hg : target < 4) (h0 : s.dev.off ≠ 0)
    (h2 : s.dev.off ≠ 2) {c : Instr} (hc : c ∈ [Instr.mctpControl t kind command eid, .pldmSensorRead t id,
      .pldmSetEventReceiver t eid, .pldmPowerState t target, .pldmClearHalt t]) : Does c s .skip := by
  simp only [List.mem_cons, List.not_mem_nil, or_false] at hc
  rcases hc with rfl | rfl | rfl | rfl | rfl
  · exact (does_mctpControl ht he _ _).of_run (run_managementRequest_none h0 h2 _)
  · exact (does_pldmSensorRead ht _).of_run (run_managementRequest_none h0 h2 _)
  · exact (does_pldmSetEventReceiver ht he).of_run (run_managementRequest_none h0 h2 _)
  · exact (does_pldmPowerState ht hg).of_run (run_pldmPowerState_none h0 h2)
  · exact (does_pldmClearHalt ht).of_run (run_managementRequest_none h0 h2 _)

end

/-- Settles O53: each message goes by how the device is supplied, and then by what it asks; the events that wait are delivered after
it (log entry 110). -/
theorem management : Obligations.Management := by
  refine ⟨fun s after t ht hm ha => ?_, fun s t target ht hg => ?_,
    fun s t kind command eid id target ht he hg h0 h2 c hc => does_message_none ht he hg h0 h2 hc⟩
  · obtain rfl : after = afterRequest (s.dev.off == 0) := ha
    have mctp {eid : Nat} (he : eid < 256) (kind command : Nat) : Does (.mctpControl t kind command eid) s
        (.seq (mctpAnswers s.dev t kind command eid) (afterRequest (s.dev.off == 0))) :=
      (does_mctpControl ht he kind command).of_run (run_managementRequest_of hm (Eff.run_obs _ _))
    refine ⟨fun kind command eid he => ⟨fun hk => ?_, fun hk hc => ?_, fun hk hc => ?_⟩,
      fun id v hv => does_sensorRead ht hm (sensorReading_device hv),
      fun id h h' => does_sensorRead ht hm (sensorReading_dram h h'),
      fun id h h' => does_sensorRead ht hm (sensorReading_flash h h'),
      fun id h => does_sensorRead_none ht hm (sensorReading_none h),
      fun eid he => (does_pldmSetEventReceiver ht he).of_run ?_,
      fun h => (does_pldmClearHalt ht).of_run (run_pldmClearHalt h),
      fun h => (does_pldmClearHalt ht).of_run (run_pldmClearHalt_off h)⟩
    · have hx := mctp he kind command
      rwa [mctpAnswers_unsupported eid hk] at hx
    · subst hk hc
      exact (mctp he 0 1).of_run (by
        rw [mctpAnswers_setId]
        simp only [mgmtAnswer, Eff.run_seq, Eff.run_all_cons, Eff.run_all_nil])
    · have hx := mctp he kind command
      rwa [mctpAnswers_other eid hk hc] at hx
    · rw [pldmSetEventReceiver, run_managementRequest hm]
      simp only [mgmtAnswer, Eff.run_seq, Eff.run_all_cons, Eff.run_all_nil]
  · have hx := does_pldmPowerState (s := s) ht hg
    refine ⟨fun h h2 => ?_, fun h h2 => hx.of_run (run_pldmPowerState_off h h2),
      fun h hs => hx.of_run (run_pldmPowerState_notReady h hs),
      fun h h4 h5 h6 => hx.of_run (run_pldmPowerState_asks h h4 h5 h6)⟩
    subst h2
    exact hx.of_run (run_pldmPowerState_starts h)

end Sys2Proof.Machine
end

section
/-! PROOFS. Loss of VIN, regulator phases and cluster states (R413 to R415, R419, R436). -/

namespace Sys2Proof.Machine

/- As in the tests, one theorem after another: each one elaborated beside others holds a thread's stack. -/
set_option Elab.async false

/-! ### VIN_LOSS (R413, R436, R501) -/

/-- What a loss of VIN tears of the record that was being written. -/
def tears (d : Device) : Option Nat → Eff
  | none => .skip
  | some t =>
    if t / 3 == 0 then putNvMargin (tornCopies (fun c => { c with intact := false }) d.oldMargin (t % 3) d.nvMargin)
    else if t / 3 == 1 then putNvSpare (tornCopies (fun c => { c with intact := false }) d.oldSpare (t % 3) d.nvSpare)
    else putNvLog (tornCopies (fun c => { c with intact := false }) d.oldLog (t % 3) d.nvLog)

section
variable {d : Device} {k : Nat} (hk : k < 3)
include hk

theorem tears_margin : tears d (some k) =
    putNvMargin (tornCopies (fun c => { c with intact := false }) d.oldMargin k d.nvMargin) := by
  rw [tears, show k / 3 = 0 by omega, show k % 3 = k by omega]
  rfl

theorem tears_spare : tears d (some (3 + k)) =
    putNvSpare (tornCopies (fun c => { c with intact := false }) d.oldSpare k d.nvSpare) := by
  rw [tears, show (3 + k) / 3 = 1 by omega, show (3 + k) % 3 = k by omega]
  rfl

theorem tears_log : tears d (some (6 + k)) =
    putNvLog (tornCopies (fun c => { c with intact := false }) d.oldLog k d.nvLog) := by
  rw [tears, show (6 + k) / 3 = 2 by omega, show (6 + k) % 3 = k by omega]
  rfl

end

/-- The record and the copy that a loss tears are named in range, and what is torn is what they name. -/
theorem tears_cases {d : Device} {torn : Option Nat} {tear : Eff} (h : torn = none ∧ tear = .skip ∨
      (∃ k < 3, torn = some k ∧
        tear = putNvMargin (tornCopies (fun c => { c with intact := false }) d.oldMargin k d.nvMargin)) ∨
      (∃ k < 3, torn = some (3 + k) ∧
        tear = putNvSpare (tornCopies (fun c => { c with intact := false }) d.oldSpare k d.nvSpare)) ∨
      (∃ k < 3, torn = some (6 + k) ∧
        tear = putNvLog (tornCopies (fun c => { c with intact := false }) d.oldLog k d.nvLog))) :
    torn.all (· < 9) = true ∧ tear = tears d torn := by
  rcases h with ⟨rfl, rfl⟩ | ⟨k, hk, rfl, rfl⟩ | ⟨k, hk, rfl, rfl⟩ | ⟨k, hk, rfl, rfl⟩
  · exact ⟨rfl, rfl⟩
  · exact ⟨decide_eq_true (show k < 9 by omega), (tears_margin hk).symm⟩
  · exact ⟨decide_eq_true (show 3 + k < 9 by omega), (tears_spare hk).symm⟩
  · exact ⟨decide_eq_true (show 6 + k < 9 by omega), (tears_log hk).symm⟩

/-- The slot of the boot flash that is being programmed can no longer be verified. -/
def spoilsSlot (d : Device) : Eff := .when (d.fwPending.any fun x => x.1 == 1)
  (.each (List.range 256) fun i => putBootFlash (((d.fwPending.map (·.2.1)).getD 0) * 0x1000000 + i) 255)

section
variable {d : Device} {torn : Option Nat}

theorem run_vinLoss_on (h : d.off = 0) : (vinLoss torn).run d = (Eff.all [tears d torn, tearCatalog, spoilsSlot d,
    putUnclean true, modPowerFails (· + 1), clearVolatile, putOff 1, putVin ⟨false, 0⟩]).run d := by
  rw [vinLoss, Eff.run_obs]
  simp only [h, beq_self_eq_true, Bool.true_and, Eff.when_true, Eff.run_all_cons, Eff.run_seq, Nat.reduceBNe]
  cases torn <;> rfl

theorem run_vinLoss_off (h : d.off = 2) : (vinLoss torn).run d = (Eff.seq (putOff 1) (putVin ⟨false, 0⟩)).run d := by
  rw [vinLoss, Eff.run_obs]
  simp only [h, Nat.reduceBEq, Bool.false_and, bne_self_eq_false, Eff.when_false, Eff.run_all_cons, Eff.run_all_nil,
    Eff.run_skip, Eff.run_seq]

theorem run_vinLoss_down (h0 : d.off ≠ 0) (h2 : d.off ≠ 2) : (vinLoss torn).run d =
    (Eff.all [clearVolatile, putOff 1, putVin ⟨false, 0⟩]).run d := by
  rw [vinLoss, Eff.run_obs]
  simp only [beq_false_of_ne h0, bne_iff_ne.2 h2, Bool.false_and, Eff.when_false, Eff.when_true, Eff.run_all_cons,
    Eff.run_skip]

theorem spoilsSlot_none (h : ∀ x, d.fwPending = some x → x.1 ≠ 1) : spoilsSlot d = .skip := by
  rw [spoilsSlot]
  cases hp : d.fwPending with
  | none => rfl
  | some x => rw [Option.any_some, beq_false_of_ne (h x hp), Eff.when_false]

theorem spoilsSlot_some {slot code : Nat} (h : d.fwPending = some (1, slot, code)) :
    spoilsSlot d = .each (List.range 256) fun i => putBootFlash (slot * 0x1000000 + i) 255 := by
  rw [spoilsSlot, h]
  rfl

end

/-! ### PHASE_FAIL (R415, R442) -/

/-- The entry of a phase whose failure the spare phase corrects, and of the spare phase itself. -/
def logsPhase (r phase : Nat) : Eff :=
  logError { severity := 0, flags := if phase == 7 then 0 else 2, source := 1, site := r, subsite := phase }

section
variable {r phase : Nat}

theorem run_spendPhase (h : phase ≠ 7) (d : Device) : (Eff.seq (spendPhase r phase) (logsPhase r phase)).run d =
    (Eff.all [setF F.PWR_PHASE_spare_used r 1, setF F.PWR_PHASE_spare_for r phase,
      logError { severity := 0, flags := 2, source := 1, site := r, subsite := phase }]).run d := by
  rw [spendPhase, bne_iff_ne.2 h, Eff.when_true, logsPhase, beq_false_of_ne h, if_neg Bool.false_ne_true]
  simp only [Eff.run_seq, Eff.run_all_cons, Eff.run_all_nil]

theorem run_spendPhase_spare (d : Device) : (Eff.seq (spendPhase r 7) (logsPhase r 7)).run d =
    (logError { severity := 0, source := 1, site := r, subsite := 7 }).run d := by
  rw [spendPhase, bne_self_eq_false, Eff.when_false, Eff.run_seq, Eff.run_skip]
  rfl

variable {d : Device}

theorem run_phaseFail_none (h : powered d = false ∨ d.fld F.PWR_PHASE_off r ≠ 0) : (phaseFail r phase).run d = d := by
  rw [phaseFail, Eff.run_obs]
  exact Eff.run_when_neg (Bool.and_eq_false_iff.2 (h.imp_right beq_false_of_ne)) _ _

section
variable (hp : powered d = true) (ho : d.fld F.PWR_PHASE_off r = 0)
include hp ho

/-- A phase that a re-plan has marked is replaced at once, where the spare phase is free. -/
theorem run_phaseFail_marked (hb : bit (d.fld F.PWR_PHASE_failed r) phase = 1) : (phaseFail r phase).run d =
    (Eff.when (d.fld F.PWR_PHASE_spare_used r == 0 && failedPhases d r == 1)
      (.seq (spendPhase r phase) (logsPhase r phase))).run d := by
  rw [phaseFail, Eff.run_obs, Eff.run_when_pos (by rw [hp, ho]; rfl), if_pos (beq_iff_eq.2 hb), logsPhase]

/-- What the failure of a further phase costs, by the number that had failed before. -/
def phaseCosts (r phase : Nat) : Nat → Eff
  | 0 => .seq (spendPhase r phase) (logsPhase r phase)
  | 1 => derate r
  | _ => .all [setF F.PWR_PHASE_off r 1, logError { severity := 2, source := 1, site := r, subsite := phase }, retireLoad r]

theorem run_phaseFail (hb : bit (d.fld F.PWR_PHASE_failed r) phase ≠ 1) : (phaseFail r phase).run d =
    (phaseCosts r phase (failedPhases d r)).run ((Eff.all [
      setF F.PWR_PHASE_failed r (d.fld F.PWR_PHASE_failed r ||| 2 ^ phase),
      putRetired (siteKey 7 (r * 8 + phase)) true, saveSpare]).run d) := by
  rw [phaseFail, Eff.run_obs, Eff.run_when_pos (by rw [hp, ho]; rfl), if_neg (mt beq_iff_eq.1 hb)]
  simp only [Eff.run_all_cons, Eff.run_all_nil]
  rw [phaseCosts.eq_def]
  rfl

end

theorem run_derate_cluster (h : 8 ≤ r) (h' : r < 161) (d : Device) : (derate r).run d = (Eff.all [
    setF F.PWR_PHASE_derated r 1, refreshBoostOk, logService 1 r 0xFFFF 0, setF F.CLK_CLU_STAT_capped (r - 8) 1,
    setF F.CLK_CLU_STAT_step (r - 8) (min 56 (d.fld F.CLK_CLU_STAT_step (r - 8)))]).run d := by
  rw [derate, Eff.run_obs, if_pos (by simp [h, h'])]
  simp only [Eff.run_all_cons, Eff.run_all_nil]

theorem run_derate_other (h : r < 8 ∨ 161 ≤ r) (d : Device) : (derate r).run d = (Eff.all [
    setF F.PWR_PHASE_derated r 1, refreshBoostOk, logService 1 r 0xFFFF 0, setF F.PWR_GOV_STAT_boost 0 0]).run d := by
  rw [derate, Eff.run_obs, if_neg (by simp; omega)]

theorem phaseCosts_off {n : Nat} (h : 2 ≤ n) : phaseCosts r phase n = .all [setF F.PWR_PHASE_off r 1,
    logError { severity := 2, source := 1, site := r, subsite := phase }, retireLoad r] := by
  obtain ⟨m, rfl⟩ := Nat.exists_eq_add_of_le' h
  rfl

end

/-! ### Cluster states (R419) -/

section
variable {d : Device} {q : Nat}

/-- Every core of a cluster is empty or parked. -/
def clusterQuiet (d : Device) (cl : Nat) : Bool := (List.range 16).all fun k =>
  (d.coresAt (cl * 16 + k)).state == 0 || (d.coresAt (cl * 16 + k)).state == 2

theorem clusterQuiet_iff {cl : Nat} : clusterQuiet d cl = true ↔
    ∀ k < 16, (d.coresAt (cl * 16 + k)).state = 0 ∨ (d.coresAt (cl * 16 + k)).state = 2 := by
  simp [clusterQuiet, List.all_eq_true]

theorem run_clusterClockStop {cl : Nat} (hc : clusterOfSite d q = some cl) : (clusterClockStop q).run d =
    (Eff.when (working d && clusterState d q == 0 && clusterQuiet d cl)
      (.seq (setF F.CLK_CLU_STAT_state q 1) refreshIdle)).run d := by
  rw [clusterClockStop, Eff.run_obs, hc]
  rfl

theorem run_clusterClockStop_none
    (h : clusterOfSite d q = none ∨ working d = false ∨ clusterState d q ≠ 0) : (clusterClockStop q).run d = d := by
  cases hc : clusterOfSite d q with
  | none => rw [clusterClockStop, Eff.run_obs, hc, Eff.run_skip]
  | some cl =>
    rw [run_clusterClockStop hc]
    refine Eff.run_when_neg (Bool.and_eq_false_iff.2 (.inl (Bool.and_eq_false_iff.2 ?_))) _ _
    exact (h.resolve_left (by simp [hc])).imp_right beq_false_of_ne

theorem run_clusterGate (hp : powered d = true) (hs : clusterState d q = 1) (hg : d.fld F.CLK_CLU_CTRL_gate_ms q ≠ 0) :
    (clusterGate q).run d = (Eff.all [setF F.CLK_CLU_STAT_state q 2, putXlats q [], refreshIdle]).run d := by
  rw [clusterGate, Eff.run_obs, Eff.run_when_pos (by rw [hp, hs, bne_iff_ne.2 hg]; rfl)]

theorem run_clusterGate_none (h : powered d = false ∨ clusterState d q ≠ 1 ∨ d.fld F.CLK_CLU_CTRL_gate_ms q = 0) :
    (clusterGate q).run d = d := by
  rw [clusterGate, Eff.run_obs]
  refine Eff.run_when_neg ?_ _ _
  rcases h with h | h | h
  · rw [h, Bool.false_and, Bool.false_and]
  · rw [beq_false_of_ne h, Bool.and_false, Bool.false_and]
  · rw [h, bne_self_eq_false, Bool.and_false]

theorem run_clusterWake {cl : Nat} (hc : clusterOfSite d q = some cl) :
    (clusterWake q).run d = (startCluster cl).run d := by
  rw [clusterWake, Eff.run_obs, hc, Option.toList_some, Eff.run_each_cons, Eff.run_each_nil]

theorem run_clusterWake_none (hc : clusterOfSite d q = none) : (clusterWake q).run d = d := by
  rw [clusterWake, Eff.run_obs, hc, Option.toList_none, Eff.run_each_nil]

theorem run_startCluster_held {cl : Nat} (h : working d = false ∨ d.tripped = true) : (startCluster cl).run d = d := by
  rw [startCluster, Eff.run_obs]
  cases clusterSite d (cl / 8) (cl % 8) with
  | none => rfl
  | some q => exact Eff.run_when_neg (by rcases h with h | h <;> simp [h]) _ _

section
variable {cl : Nat} (hq : clusterSite d (cl / 8) (cl % 8) = some q)
include hq

theorem run_startCluster (hw : working d = true) (ht : d.tripped = false)
    (hs : clusterState d q = 1 ∨ clusterState d q = 2 ∨ clusterState d q = 3) : (startCluster cl).run d =
    (Eff.all [setF F.CLK_CLU_STAT_state q 0, addSat F.CLK_CLU_STAT_wakes q 1, releaseHeld cl, refreshIdle]).run d := by
  rw [startCluster, Eff.run_obs, hq]
  exact Eff.run_when_pos (by simp [hw, ht, hs, or_assoc]) _ _

theorem run_startCluster_running (hs : clusterState d q = 0 ∨ 4 ≤ clusterState d q) : (startCluster cl).run d = d := by
  rw [startCluster, Eff.run_obs, hq]
  refine Eff.run_when_neg ?_ _ _
  rw [beq_false_of_ne (by omega), beq_false_of_ne (by omega), beq_false_of_ne (by omega), Bool.or_self, Bool.or_self,
    Bool.and_false]

end

end

/-! ### The commands -/

section
variable {s : State}

theorem does_vinLoss {torn : Option Nat} (h : torn.all (· < 9) = true) : Does (.vinLoss torn) s (vinLoss torn) :=
  does_perform h rfl

theorem does_phaseFail {r phase : Nat} (hr : r < 182) (hp : phase < 8) : Does (.phaseFail r phase) s (phaseFail r phase) :=
  does_perform (by simp [hr, hp]) rfl

variable {q : Nat} (hq : q < 153)
include hq

theorem does_clusterClockStop : Does (.clusterClockStop q) s (clusterClockStop q) := does_perform (decide_eq_true hq) rfl

theorem does_clusterGate : Does (.clusterGate q) s (clusterGate q) := does_perform (decide_eq_true hq) rfl

theorem does_clusterWake : Does (.clusterWake q) s (clusterWake q) := does_perform (decide_eq_true hq) rfl

end

/-- Settles O47: VIN_LOSS goes by how the device was supplied, and its torn record by its operand (log entry 135); PHASE_FAIL by the
phases that have failed and by what the regulator feeds (log entry 93); the cluster commands by the state of the cluster. -/
theorem powerStages : Obligations.PowerStages := by
  refine ⟨fun s torn tear ht => ?_, fun s r phase hr hp => ⟨fun h => (does_phaseFail hr hp).of_run (run_phaseFail_none h),
      fun hw ho hb => ?_, fun fail hw ho hb hf => ?_⟩, fun s q hq => ?_, fun s q hq => ?_, fun s q hq => ?_⟩
  · obtain ⟨hn, rfl⟩ := tears_cases ht
    have hx := does_vinLoss (s := s) hn
    refine ⟨fun h hp => hx.of_run ((run_vinLoss_on h).trans ?_), fun slot code h hp => hx.of_run ((run_vinLoss_on h).trans ?_),
      fun h => hx.of_run (run_vinLoss_off h), fun h0 h2 => hx.of_run (run_vinLoss_down h0 h2)⟩
    · rw [spoilsSlot_none hp]
      simp only [Eff.run_all_cons, Eff.run_all_nil, Eff.run_skip]
    · rw [spoilsSlot_some hp]
  · have hx := (does_phaseFail hr hp).of_run (run_phaseFail_marked hw ho hb)
    have spends (hu : s.dev.fld F.PWR_PHASE_spare_used r = 0) (hn : failedPhases s.dev r = 1) :
        Does (.phaseFail r phase) s (.seq (spendPhase r phase) (logsPhase r phase)) :=
      hx.of_run (Eff.run_when_pos (by rw [hu, hn]; rfl) _ _)
    refine ⟨fun hu hn h7 => (spends hu hn).of_run (run_spendPhase h7 _), fun hu hn h7 => ?_,
      fun h => hx.of_run (Eff.run_when_neg ?_ _ _)⟩
    · subst h7
      exact (spends hu hn).of_run (run_spendPhase_spare _)
    · exact Bool.and_eq_false_iff.2 (h.imp beq_false_of_ne beq_false_of_ne)
  · subst hf
    have hx := does_phaseFail (s := s) hr hp
    have costs {n : Nat} (hn : failedPhases s.dev r = n) := hn ▸ run_phaseFail hw ho hb
    refine ⟨fun h0 h7 => hx.of_run ((costs h0).trans ?_), fun h0 h7 => hx.of_run ((costs h0).trans ?_),
      fun h1 h8 h161 => hx.of_run ((costs h1).trans ?_), fun h1 h8 => hx.of_run ((costs h1).trans ?_),
      fun h2 => hx.of_run ((run_phaseFail hw ho hb).trans ?_)⟩
    · rw [phaseCosts, run_spendPhase h7, ← Eff.run_all_cons]
    · subst h7
      rw [phaseCosts, run_spendPhase_spare, Eff.run_seq]
    · rw [phaseCosts, run_derate_cluster h8 h161, Eff.run_seq, Eff.run_obs]
    · rw [phaseCosts, run_derate_other h8, Eff.run_seq, Eff.run_obs]
    · rw [phaseCosts_off h2, ← Eff.run_all_cons]
  · have hx := does_clusterClockStop (s := s) hq
    refine ⟨fun cl hc hw hs hk => hx.of_run
        ((run_clusterClockStop hc).trans (Eff.run_when_pos ?_ _ _)),
      fun h => hx.of_run (run_clusterClockStop_none h),
      fun cl k hc hk h0 h2 => hx.of_run ((run_clusterClockStop hc).trans (Eff.run_when_neg ?_ _ _))⟩
    · rw [hw, hs, clusterQuiet_iff.2 hk]
      rfl
    · have hn : clusterQuiet s.dev cl = false := by
        rw [← Bool.not_eq_true, clusterQuiet_iff]
        exact fun h => (h k hk).elim h0 h2
      rw [hn, Bool.and_false]
  · have hx := does_clusterGate (s := s) hq
    exact ⟨fun hp hs hg => hx.of_run (run_clusterGate hp hs hg), fun h => hx.of_run (run_clusterGate_none h)⟩
  · have hx := does_clusterWake (s := s) hq
    refine ⟨fun cl hw ht hc hl hs => hx.of_run ((run_clusterWake hc).trans (run_startCluster hl hw ht hs)),
      fun h => hx.of_run ?_, fun cl hc hl hs => hx.of_run ((run_clusterWake hc).trans (run_startCluster_running hl hs))⟩
    cases hc : clusterOfSite s.dev q with
    | none => exact run_clusterWake_none hc
    | some cl => exact (run_clusterWake hc).trans (run_startCluster_held (h.resolve_left (by simp [hc])))

end Sys2Proof.Machine
end

section
/-! PROOFS. The governor, REST, OFF and wake (R418, R422 to R434, R446). -/

namespace Sys2Proof.Machine

/- As in the tests, one theorem after another: each one elaborated beside others holds a thread's stack. -/
set_option Elab.async false

/-! ### GOVERNOR_TICK (R427 to R432) -/

/-- The top step of the ceiling. -/
def topStep (d : Device) : Nat := if d.fld F.PWR_GOV_STAT_wear_spent 0 = 1 then 64 else 72

/-- The ceilings of R427: that of the sustained cap, and the most that supply, input and regulators allow. -/
def sustCeiling (d : Device) (power : Nat) (loads : List Nat) : Nat :=
  ceilingFor d power loads (topStep d) (d.fld F.PWR_LIMIT_sustained 0 * 10)
def mostCeiling (d : Device) (vin power : Nat) (loads : List Nat) : Nat :=
  ceilingFor d power loads (topStep d) (min (d.fld F.PWR_LIMIT_supply 0 * 10) (min (vin * 2) (firstStage d)))

/-- How the governor sets the ceiling, with the two ceilings and the limiter of the period. -/
def setsCeiling (d : Device) (tj sust most n : Nat) : Eff :=
  if d.fld F.PWR_GOV_STAT_boost 0 == 1 && n != 0 then
    .all [setF F.PWR_GOV_STAT_boost 0 0, setF F.PWR_GOV_STAT_ceiling 0 sust, countLimiter n]
  else if d.fld F.PWR_GOV_STAT_boost 0 == 1 || boostMay d tj then
    .seq (setF F.PWR_GOV_STAT_boost 0 1) (setF F.PWR_GOV_STAT_ceiling 0 most)
  else governOutside tj sust

section
variable {d : Device} {vin iin power tj : Nat} {loads pct : List Nat}

theorem run_governorTick_down (hp : powered d = false) : (governorTick vin iin power tj loads pct).run d = d := by
  rw [governorTick, Eff.run_obs, Eff.run_when_neg hp]

theorem run_governorTick {d' : Device} (hp : powered d = true)
    (hd : (Eff.seq (takeReadings vin iin power tj pct) (countWindow power)).run d = d') :
    (governorTick vin iin power tj loads pct).run d = (Eff.all [
      modGov fun g => { g with sust := sustCeiling d' power loads },
      setsCeiling d' tj (sustCeiling d' power loads) (mostCeiling d' vin power loads) (boostLimiter d' iin power tj),
      applyCeiling]).run d' := by
  subst hd
  rw [governorTick, Eff.run_obs, Eff.run_when_pos hp]
  simp only [Eff.run_all_cons, Eff.run_all_nil, Eff.run_seq, Eff.run_obs, setsCeiling, sustCeiling, mostCeiling, topStep,
    beq_iff_eq]

variable {sust most n : Nat}

theorem setsCeiling_outside (hb : d.fld F.PWR_GOV_STAT_boost 0 ≠ 1) (hm : boostMay d tj = false) :
    setsCeiling d tj sust most n = governOutside tj sust := by
  rw [setsCeiling, beq_false_of_ne hb, hm]
  rfl

theorem setsCeiling_begins (hb : d.fld F.PWR_GOV_STAT_boost 0 ≠ 1) (hm : boostMay d tj = true) :
    setsCeiling d tj sust most n = .seq (setF F.PWR_GOV_STAT_boost 0 1) (setF F.PWR_GOV_STAT_ceiling 0 most) := by
  rw [setsCeiling, beq_false_of_ne hb, hm]
  rfl

theorem setsCeiling_ends (hb : d.fld F.PWR_GOV_STAT_boost 0 = 1) (hn : n ≠ 0) : setsCeiling d tj sust most n =
    .all [setF F.PWR_GOV_STAT_boost 0 0, setF F.PWR_GOV_STAT_ceiling 0 sust, countLimiter n] := by
  rw [setsCeiling, hb, bne_iff_ne.2 hn]
  rfl

theorem setsCeiling_boosts (hb : d.fld F.PWR_GOV_STAT_boost 0 = 1) (hn : n = 0) : setsCeiling d tj sust most n =
    .seq (setF F.PWR_GOV_STAT_boost 0 1) (setF F.PWR_GOV_STAT_ceiling 0 most) := by
  rw [setsCeiling, hb, hn]
  rfl

end

/-! ### JUNCTION_TRIP, TRIP_RELEASE and AON_REF_LOSS (R431, R434) -/

section
variable {d : Device}

theorem run_junctionTrip (hp : powered d = true) (ht : d.tripped = false) : junctionTrip.run d = (Eff.all [putTripped true,
    addSat F.PWR_GOV_CNT_trips 0 1, logError { severity := 2, source := 2 }]).run d := by
  rw [junctionTrip, Eff.run_obs, Eff.run_when_pos (by rw [hp, ht]; rfl)]

theorem run_junctionTrip_none (h : powered d = false ∨ d.tripped = true) : junctionTrip.run d = d := by
  rw [junctionTrip, Eff.run_obs]
  exact Eff.run_when_neg (by rcases h with h | h <;> simp [h]) _ _

theorem run_tripRelease (ht : d.tripped = true) : tripRelease.run d = (Eff.all [putTripped false,
    setF F.PWR_GOV_STAT_ceiling 0 0, setF F.PWR_GOV_STAT_boost 0 0, .each (List.range 153) (fun q => setF F.CLK_CLU_STAT_step q 0),
    .each (List.range 128) releaseHeld]).run d := by
  rw [tripRelease, Eff.run_obs, Eff.run_when_pos ht]

theorem run_tripRelease_none (ht : d.tripped = false) : tripRelease.run d = d := by
  rw [tripRelease, Eff.run_obs, Eff.run_when_neg ht]

theorem run_aonRefLoss (h : d.fld F.CLK_AON_ext_ref 0 = 1) :
    aonRefLoss.run d = (Eff.seq (setF F.CLK_AON_ext_ref 0 0) (setF F.CLK_AON_ref_lost 0 1)).run d := by
  rw [aonRefLoss, Eff.run_obs, Eff.run_when_pos (beq_iff_eq.2 h)]

theorem run_aonRefLoss_none (h : d.fld F.CLK_AON_ext_ref 0 ≠ 1) : aonRefLoss.run d = d := by
  rw [aonRefLoss, Eff.run_obs, Eff.run_when_neg (beq_false_of_ne h)]

end

/-! ### REST_ENTRY and OFF_ENTRY (R422, R426, R446) -/

/-- The cores that run or are parked are asked to stop at their next beat boundary (R422 step 4). -/
def stopsCores (d : Device) : Eff := .seq (modRestCores (· ++ coresToStop d))
  (.each (coresToStop d) fun core => modCores core fun k =>
    { k with stopReq := true, state := if k.state == 2 then 3 else k.state })

/-- What follows the shut-down test, or its omission. -/
def goesOff : Eff := .all [saveSpare, saveMargin, saveLog, clearVolatile, putOff 2, putUnclean false]

/-- The end of an entry to OFF, as the entry found the block. -/
def entersOff (d : Device) (n : Nat) (failed cores bad : List Nat) : Eff := .all [
  .when (d.fld F.TST_SHUTDOWN_BUDGET_budget_ms 0 != 0) (shutdownTest (min n 13005) failed cores bad),
  .when (d.fld F.TST_SHUTDOWN_BUDGET_budget_ms 0 != 0) (.obs fun d' => putLastPass (min n 13005,
    min 1023 ((failed.filter ((testOrder d).take n).contains).length + (bad.filter (testedCores d n cores).contains).length),
    min 255 ((d'.ages.map (·.2)).foldl max 0))),
  saveSpare, saveMargin, saveLog, clearVolatile, putOff 2, putUnclean false]

section
variable {d : Device}

section
variable (hc : (mapKeys d.colOps fun _ o => o.isSome) = []) (ht : d.tripped = false) (rest : Eff)
include hc ht

theorem run_afterCores : (afterCores rest).run d = (if halted d || !coresBusy d then rest else stopsCores d).run d := by
  rw [afterCores, Eff.run_obs, Eff.run_when_pos (by rw [hc, ht]; rfl)]
  rfl

theorem run_afterCores_stopped (h : halted d = true ∨ coresBusy d = false) : (afterCores rest).run d = rest.run d := by
  rw [run_afterCores hc ht, if_pos (by rcases h with h | h <;> simp [h])]

theorem run_afterCores_busy (hh : halted d = false) (hb : coresBusy d = true) :
    (afterCores rest).run d = (stopsCores d).run d := by
  rw [run_afterCores hc ht, hh, hb, Bool.not_true, Bool.or_self, if_neg Bool.false_ne_true]

end

/-- An entry waits for the collectives in flight and for a junction trip. -/
theorem run_afterCores_waits (h : (mapKeys d.colOps fun _ o => o.isSome) ≠ [] ∨ d.tripped = true) (rest : Eff) :
    (afterCores rest).run d = d := by
  rw [afterCores, Eff.run_obs]
  refine Eff.run_when_neg (Bool.and_eq_false_iff.2 (h.imp ?_ ?_)) _ _
  · exact List.isEmpty_eq_false_iff.2
  · exact fun ht => by rw [ht, Bool.not_true]

theorem run_restEntry {slack vmin drift eyes : List Nat} (h0 : d.off = 0) (h4 : powerState d = 4) :
    (restEntry slack vmin drift eyes).run d = (afterCores (enterRest slack vmin drift eyes)).run d := by
  rw [restEntry, Eff.run_obs, Eff.run_when_pos (by rw [h0, h4]; rfl)]

theorem run_restEntry_none {slack vmin drift eyes : List Nat} (h : d.off ≠ 0 ∨ powerState d ≠ 4 ∨
    (mapKeys d.colOps fun _ o => o.isSome) ≠ [] ∨ d.tripped = true) : (restEntry slack vmin drift eyes).run d = d := by
  by_cases hs : d.off = 0 ∧ powerState d = 4
  · rw [run_restEntry hs.1 hs.2, run_afterCores_waits (by tauto)]
  · rw [restEntry, Eff.run_obs, Eff.run_when_neg (by simpa using hs)]

theorem run_offEntry {n : Nat} {failed cores bad : List Nat} (h0 : d.off = 0) (h6 : powerState d = 6) :
    (offEntry n failed cores bad).run d = (afterCores (entersOff d n failed cores bad)).run d := by
  rw [offEntry, Eff.run_obs, Eff.run_when_pos (by rw [h0, h6]; rfl)]
  rfl

theorem run_offEntry_none {n : Nat} {failed cores bad : List Nat} (h : d.off ≠ 0 ∨ powerState d ≠ 6 ∨
    (mapKeys d.colOps fun _ o => o.isSome) ≠ [] ∨ d.tripped = true) : (offEntry n failed cores bad).run d = d := by
  by_cases hs : d.off = 0 ∧ powerState d = 6
  · rw [run_offEntry hs.1 hs.2, run_afterCores_waits (by tauto)]
  · rw [offEntry, Eff.run_obs, Eff.run_when_neg (by simpa using hs)]

/-- A budget of 0 skips the shut-down test. -/
theorem run_entersOff_untested {n : Nat} {failed cores bad : List Nat} (hb : d.fld F.TST_SHUTDOWN_BUDGET_budget_ms 0 = 0) :
    (entersOff d n failed cores bad).run d = goesOff.run d := by
  simp only [entersOff, goesOff, hb, bne_self_eq_false, Eff.when_false, Eff.run_all_cons, Eff.run_skip]

theorem entersOff_tested {n : Nat} {failed cores bad : List Nat} (hb : d.fld F.TST_SHUTDOWN_BUDGET_budget_ms 0 ≠ 0) :
    entersOff d n failed cores bad = .all [shutdownTest (min n 13005) failed cores bad,
      .obs fun d' => putLastPass (min n 13005,
        min 1023 ((failed.filter ((testOrder d).take n).contains).length + (bad.filter (testedCores d n cores).contains).length),
        min 255 ((d'.ages.map (·.2)).foldl max 0)),
      saveSpare, saveMargin, saveLog, clearVolatile, putOff 2, putUnclean false] := by
  rw [entersOff, bne_iff_ne.2 hb, Eff.when_true, Eff.when_true]

end

/-! ### REST_COLLECTIVE_TIMEOUT (R422 step 2) -/

section
variable {d : Device} {entries : List Nat} (he : entries = (d.colOps.filterMap fun e => e.2.map (·.entry)).dedup)
include he

theorem run_restCollectiveTimeout (h0 : d.off = 0) (hs : powerState d = 4 ∨ powerState d = 6) (hn : entries ≠ []) :
    restCollectiveTimeout.run d =
      (Eff.seq (.each entries fun g => withdraw g 2) (setF F.PWR_STATE_last_result 0 2)).run d := by
  subst he
  rw [restCollectiveTimeout, Eff.run_obs]
  exact Eff.run_when_pos (by simp only [h0, bne_iff_ne.2 hn, beq_self_eq_true, Bool.true_and, Bool.and_true]; simpa using hs) _ _

theorem run_restCollectiveTimeout_none (h : d.off ≠ 0 ∨ powerState d ≠ 4 ∧ powerState d ≠ 6 ∨ entries = []) :
    restCollectiveTimeout.run d = d := by
  subst he
  rw [restCollectiveTimeout, Eff.run_obs]
  refine Eff.run_when_neg ?_ _ _
  rcases h with h | ⟨h4, h6⟩ | h
  · rw [beq_false_of_ne h, Bool.false_and, Bool.false_and]
  · rw [beq_false_of_ne h4, beq_false_of_ne h6, Bool.or_self, Bool.and_false, Bool.false_and]
  · rw [h, bne_self_eq_false, Bool.and_false]

end

/-! ### WAKE and WAKE_TIMER_EXPIRY (R424, R425, R434) -/

section
variable {d : Device} {source : Nat} {ports dq ca : List Nat}

theorem run_wakeUp (h0 : d.off = 0) (h1 : powerState d = 1) : (wakeUp source ports dq ca).run d = (Eff.all [
    setF F.PWR_WAKE_last 0 source, setPower 5, trainAll dq ca, restorePorts ports, setPower 3, resumeCores,
    withFree fun t => setF F.PWR_TIMES_wake 0 (t % 65536), refreshIdle]).run d := by
  rw [wakeUp, Eff.run_obs, Eff.run_when_pos (by rw [h0, h1]; rfl)]

theorem run_wakeUp_none (h1 : powerState d ≠ 1) : (wakeUp source ports dq ca).run d = d := by
  rw [wakeUp, Eff.run_obs, Eff.run_when_neg (by rw [beq_false_of_ne h1, Bool.and_false])]

section
variable (h0 : d.off = 0) (hw : wakeEnabled d source = true)
include h0 hw

theorem run_wake : (wake source ports dq ca).run d =
    (if powerState d = 4 then abandonRest else wakeUp source ports dq ca).run d := by
  rw [wake, run_whileIt (c := (·.off == 0)) (beq_iff_eq.2 h0), wakeOrAbandon, Eff.run_obs, Eff.run_when_pos hw]
  simp only [beq_iff_eq]

theorem run_wake_rest (h1 : powerState d = 1) : (wake source ports dq ca).run d = (Eff.all [
    setF F.PWR_WAKE_last 0 source, setPower 5, trainAll dq ca, restorePorts ports, setPower 3, resumeCores,
    withFree fun t => setF F.PWR_TIMES_wake 0 (t % 65536), refreshIdle]).run d := by
  rw [run_wake h0 hw, if_neg (by omega), run_wakeUp h0 h1]

theorem run_wake_entry (h4 : powerState d = 4) : (wake source ports dq ca).run d = abandonRest.run d := by
  rw [run_wake h0 hw, if_pos h4]

theorem run_wake_awake (h1 : powerState d ≠ 1) (h4 : powerState d ≠ 4) : (wake source ports dq ca).run d = d := by
  rw [run_wake h0 hw, if_neg h4, run_wakeUp_none h1]

end

theorem run_wake_none (h : d.off ≠ 0 ∨ wakeEnabled d source = false ∨ powerState d ≠ 1 ∧ powerState d ≠ 4) :
    (wake source ports dq ca).run d = d := by
  by_cases h0 : d.off = 0
  · cases hw : wakeEnabled d source with
    | false => rw [wake, run_whileIt (c := (·.off == 0)) (beq_iff_eq.2 h0), wakeOrAbandon, Eff.run_obs, Eff.run_when_neg hw]
    | true =>
      obtain ⟨h1, h4⟩ := (h.resolve_left (not_not_intro h0)).resolve_left (by simp [hw])
      exact run_wake_awake h0 hw h1 h4
  · rw [wake, whileIt, Eff.run_obs, Eff.run_when_neg (beq_false_of_ne h0)]

theorem run_wakeTimerExpiry (h0 : d.off = 0) (h1 : powerState d = 1) (ht : d.fld F.PWR_WAKE_TIMER_seconds 0 ≠ 0) :
    wakeTimerExpiry.run d = (Eff.seq (setF F.PWR_WAKE_TIMER_seconds 0 0) (.obs fun d =>
      .when (wakeEnabled d 2) (withLanes (wakeUp 2 d.restLinks)))).run d := by
  rw [wakeTimerExpiry, Eff.run_obs, Eff.run_when_pos (by rw [h0, h1, bne_iff_ne.2 ht]; rfl), Eff.run_seq, Eff.run_seq, whileIt,
    wakeWhole, Eff.run_obs, Eff.run_obs, run_when_obs]

theorem run_wakeTimerExpiry_none (h : d.off ≠ 0 ∨ powerState d ≠ 1 ∨ d.fld F.PWR_WAKE_TIMER_seconds 0 = 0) :
    wakeTimerExpiry.run d = d := by
  rw [wakeTimerExpiry, Eff.run_obs]
  refine Eff.run_when_neg ?_ _ _
  rcases h with h | h | h
  · rw [beq_false_of_ne h, Bool.false_and, Bool.false_and]
  · rw [beq_false_of_ne h, Bool.and_false, Bool.false_and]
  · rw [h, bne_self_eq_false, Bool.and_false]

end

/-! ### The commands -/

section
variable {s : State}

theorem does_governorTick (vin iin power tj : Nat) (loads pct : List Nat) :
    Does (.governorTick vin iin power tj loads pct) s (governorTick vin iin power tj loads pct) := does_perform rfl rfl

theorem does_junctionTrip : Does .junctionTrip s junctionTrip := does_perform rfl rfl

theorem does_tripRelease : Does .tripRelease s tripRelease := does_perform rfl rfl

theorem does_restEntry {slack vmin drift eyes : List Nat} (hd : drift.all (· < 1456) = true) (he : eyes.all (· < 1536) = true) :
    Does (.restEntry slack vmin drift eyes) s (restEntry slack vmin drift eyes) := does_perform (by rw [hd, he]; rfl) rfl

theorem does_restCollectiveTimeout : Does .restCollectiveTimeout s restCollectiveTimeout := does_perform rfl rfl

theorem does_wake {source : Nat} {ports dq ca : List Nat} (hs : source < 4) (hp : ports.all (· < 96) = true)
    (hd : dq.all (· < 512) = true) (hc : ca.all (· < 512) = true) :
    Does (.wake source ports dq ca) s (wake source ports dq ca) :=
  does_perform (by rw [decide_eq_true hs, hp, hd, hc]; rfl) rfl

theorem does_wakeTimerExpiry : Does .wakeTimerExpiry s wakeTimerExpiry := does_perform rfl rfl

theorem does_offEntry {n : Nat} {failed cores bad : List Nat} (hf : failed.all (· < 13005) = true)
    (hc : cores.all (· < 2601) = true) (hb : bad.all (· < 2601) = true) :
    Does (.offEntry n failed cores bad) s (offEntry n failed cores bad) := does_perform (by rw [hf, hc, hb]; rfl) rfl

theorem does_aonRefLoss (hu : up s.dev = true) : Does .aonRefLoss s aonRefLoss := does_whileIt rfl hu rfl

end

/-- Settles O48: the governor goes by boost and by the limiter of the period (log entries 90 and 91); an entry to REST or OFF by the
collectives in flight, a trip, and the cores (log entries 92 and 144); a wake by its source and the state it finds. -/
theorem governorAndSleep : Obligations.GovernorAndSleep := by
  refine ⟨fun s vin iin power tj loads pct => ⟨fun d top sust most n hp hd ht hs hm hn => ?_, fun hp => ?_⟩,
    fun s => ⟨fun hp ht => does_junctionTrip.of_run (run_junctionTrip hp ht),
      fun h => does_junctionTrip.of_run (run_junctionTrip_none h), fun ht => does_tripRelease.of_run (run_tripRelease ht),
      fun ht => does_tripRelease.of_run (run_tripRelease_none ht)⟩,
    fun s slack vmin drift eyes hd he => ?_,
    fun s entries he => ⟨fun h0 hs hn => does_restCollectiveTimeout.of_run (run_restCollectiveTimeout he h0 hs hn),
      fun h => does_restCollectiveTimeout.of_run (run_restCollectiveTimeout_none he h)⟩,
    fun s source ports dq ca hs hp hd hc => ?_,
    fun s => ⟨fun h0 h1 ht => does_wakeTimerExpiry.of_run (run_wakeTimerExpiry h0 h1 ht),
      fun h => does_wakeTimerExpiry.of_run (run_wakeTimerExpiry_none h)⟩,
    fun s n failed cores bad hf hc hb => ?_, fun s => ⟨fun hu h => (does_aonRefLoss hu).of_run (run_aonRefLoss h), fun h => ?_⟩⟩
  · subst ht hn
    obtain rfl : sust = sustCeiling d power loads := hs
    obtain rfl : most = mostCeiling d vin power loads := hm
    have hx := (does_governorTick vin iin power tj loads pct).of_run (run_governorTick hp hd)
    refine ⟨fun hb hm => ?_, fun hb hm => ?_, fun hb hn => ?_, fun hb hn => ?_⟩
    · rwa [setsCeiling_outside hb hm] at hx
    · rw [setsCeiling_begins hb hm] at hx
      exact hx.of_run (by simp only [Eff.run_all_cons, Eff.run_seq])
    · rw [setsCeiling_ends hb hn] at hx
      exact hx.of_run (by simp only [Eff.run_all_cons, Eff.run_all_nil])
    · rw [setsCeiling_boosts hb hn] at hx
      exact hx.of_run (by simp only [Eff.run_all_cons, Eff.run_seq])
  · exact (does_governorTick vin iin power tj loads pct).of_run (run_governorTick_down hp)
  · have hx := does_restEntry (s := s) (slack := slack) (vmin := vmin) hd he
    exact ⟨fun h0 h4 hc ht => ⟨fun h => hx.of_run ((run_restEntry h0 h4).trans (run_afterCores_stopped hc ht _ h)),
        fun hh hb => hx.of_run ((run_restEntry h0 h4).trans (run_afterCores_busy hc ht _ hh hb))⟩,
      fun h => hx.of_run (run_restEntry_none h)⟩
  · have hx := does_wake (s := s) hs hp hd hc
    exact ⟨fun h0 h1 hw => hx.of_run (run_wake_rest h0 hw h1), fun h0 h4 hw => hx.of_run (run_wake_entry h0 hw h4),
      fun h => hx.of_run (run_wake_none h)⟩
  · have hx := does_offEntry (s := s) (n := n) hf hc hb
    refine ⟨fun h0 h6 hc ht => ⟨fun h hb => ?_, fun h hb => ?_, fun hh hb =>
        hx.of_run ((run_offEntry h0 h6).trans (run_afterCores_busy hc ht _ hh hb))⟩, fun h => hx.of_run (run_offEntry_none h)⟩
    · exact hx.of_run (((run_offEntry h0 h6).trans (run_afterCores_stopped hc ht _ h)).trans (run_entersOff_untested hb))
    · have hy := hx.of_run ((run_offEntry h0 h6).trans (run_afterCores_stopped hc ht _ h))
      rwa [entersOff_tested hb] at hy
  · by_cases hu : up s.dev = true
    · exact (does_aonRefLoss hu).of_run (run_aonRefLoss_none (h.resolve_left (by simp [hu])))
    · exact does_whileIt_not rfl (Bool.eq_false_iff.2 hu) rfl

end Sys2Proof.Machine
end

section
/-! PROOFS. Margins, self-test, the fault log and the steward (R430, R441 to R457). -/

namespace Sys2Proof.Machine

/- As in the tests, one theorem after another: each one elaborated beside others holds a thread's stack. -/
set_option Elab.async false

/-! ### REPLAN and PEAK_CHARGE (R430, R441 to R443) -/

section
variable {d : Device}

/-- The device is in IDLE or RUN. -/
def idleOrRun (d : Device) : Bool := d.off == 0 && (powerState d == 2 || powerState d == 3)

theorem idleOrRun_iff : idleOrRun d = true ↔ d.off = 0 ∧ (powerState d = 2 ∨ powerState d = 3) := by
  simp [idleOrRun]

theorem run_replan {slack vmin drift eyes : List Nat} (h : idleOrRun d = true) :
    (replan slack vmin drift eyes).run d = (replanNow 1 slack vmin drift eyes).run d := by
  rw [replan, Eff.run_obs, ← idleOrRun, Eff.run_when_pos h]

theorem run_replan_none {slack vmin drift eyes : List Nat} (h2 : powerState d ≠ 2) (h3 : powerState d ≠ 3) :
    (replan slack vmin drift eyes).run d = d := by
  rw [replan, Eff.run_obs, beq_false_of_ne h2, beq_false_of_ne h3, Bool.or_self, Bool.and_false, Eff.when_false, Eff.run_skip]

/-- Some cluster runs at a peak step. -/
def atPeak (d : Device) : Bool :=
  (List.range 153).any fun i => d.off == 0 && clusterState d i == 0 && 65 ≤ d.fld F.CLK_CLU_STAT_step i

theorem atPeak_iff (h0 : d.off = 0) :
    atPeak d = true ↔ ∃ i < 153, clusterState d i = 0 ∧ 65 ≤ d.fld F.CLK_CLU_STAT_step i := by
  simp [atPeak, h0]

theorem run_peakCharge (h : atPeak d = true) : peakCharge.run d = (Eff.all [putPeakMs (d.peakMs + 1),
    setF F.AGE_PEAK_seconds 0 (min ((d.peakMs + 1) / 1000) 4294967295),
    setF F.PWR_GOV_STAT_wear_spent 0 (if 1440000000 ≤ d.peakMs + 1 then 1 else 0)]).run d := by
  rw [peakCharge, Eff.run_obs, ← atPeak, Eff.run_when_pos h, setPeak, peakBudgetMs]

theorem run_peakCharge_none (h : atPeak d = false) : peakCharge.run d = d := by
  rw [peakCharge, Eff.run_obs, ← atPeak, Eff.run_when_neg h]

end

/-! ### SELF_TEST_CMD and SELF_TEST_ABORT (R448, R457) -/

section
variable {d : Device} {rq v : Nat}

theorem run_selfTestCmd_denied (hm : bit (mayWrite d rq .TST_CMD 0) 31 = 0) : (selfTestCmd rq v).run d = denied.run d := by
  rw [selfTestCmd, Eff.run_obs, if_pos (beq_iff_eq.2 hm)]

section
variable (hm : bit (mayWrite d rq .TST_CMD 0) 31 ≠ 0)
include hm

/-- A command is refused while one runs, and outside IDLE and RUN. -/
theorem run_selfTestCmd_refused (h : d.selfTest ≠ none ∨ idleOrRun d = false) :
    (selfTestCmd rq v).run d = (setF F.TST_STATUS_state 0 4).run d := by
  rw [selfTestCmd, Eff.run_obs, if_neg (mt beq_iff_eq.1 hm), ← idleOrRun]
  refine congrArg (Eff.run · d) (if_pos ?_)
  rcases h with h | h
  · rw [Option.isSome_iff_ne_none.2 h, Bool.true_or]
  · rw [h, Bool.not_false, Bool.or_true]

/-- A write of TST_CMD names no core, or a cluster that has no site. -/
def nothingToTest (d : Device) (v : Nat) : Bool := (clusterSite d (bits v 29 26) (bits v 25 23)).isNone ||
  ((testCores (bits v 29 26) (bits v 25 23) (bits v 15 0)).isEmpty && bit v 22 == 0)

omit hm in
theorem nothingToTest_iff : nothingToTest d v = true ↔ clusterSite d (bits v 29 26) (bits v 25 23) = none ∨
    testCores (bits v 29 26) (bits v 25 23) (bits v 15 0) = [] ∧ bit v 22 = 0 := by
  simp [nothingToTest]

/-- A command that starts has its operands stored and its results cleared, and ends at once where there is nothing to test. -/
theorem run_selfTestCmd (hn : d.selfTest = none) (hi : idleOrRun d = true) :
    (selfTestCmd rq v).run d = (Eff.all [storeWrite rq .TST_CMD 0 v, setReg .TST_RESULT 0 0, setReg .TST_STATUS 0 0,
      setF F.TST_STATUS_state 0 1,
      putSelfTest (some { die := bits v 29 26, cluster := bits v 25 23,
                          left := testCores (bits v 29 26) (bits v 25 23) (bits v 15 0), spare := bit v 22 == 1 }),
      .when (nothingToTest d v) (testEnds 2 (testCores (bits v 29 26) (bits v 25 23) (bits v 15 0)))]).run d := by
  rw [selfTestCmd, Eff.run_obs, if_neg (mt beq_iff_eq.1 hm), ← idleOrRun]
  exact congrArg (Eff.run · d) (if_neg (by simp [hn, hi]))

end

/-- What a write of TST_CMD with abort does once its fields are stored. -/
def abortsTest (v : Nat) : Eff := .obs fun d => .when (bit v 30 == 1) <|
  match d.selfTest with
  | some t => if t.started then .seq
      (setF F.TST_STATUS_not_run 0 (d.fld F.TST_STATUS_not_run 0 ||| coreMask (t.left.drop 1)))
      (putSelfTest (some { t with left := t.left.take 1, spare := false, aborted := true }))
    else testEnds 3 t.left
  | none => .skip

theorem run_testEnds (state : Nat) (left : List Nat) : (testEnds state left).run d = (Eff.all [putSelfTest none,
    setF F.TST_STATUS_state 0 state, setF F.TST_STATUS_not_run 0 (d.fld F.TST_STATUS_not_run 0 ||| coreMask left)]).run d := by
  rw [testEnds, Eff.run_obs]

section
variable {t : SelfTest} (hv : bit v 30 = 1) (ht : d.selfTest = some t)
include hv ht

theorem run_abortsTest_waiting (hs : t.started = false) : (abortsTest v).run d = (testEnds 3 t.left).run d := by
  rw [abortsTest, Eff.run_obs, Eff.run_when_pos (beq_iff_eq.2 hv), ht]
  dsimp only
  rw [hs, if_neg Bool.false_ne_true]

/-- A slice in progress completes. -/
theorem run_abortsTest_started (hs : t.started = true) : (abortsTest v).run d = (Eff.seq
    (setF F.TST_STATUS_not_run 0 (d.fld F.TST_STATUS_not_run 0 ||| coreMask (t.left.drop 1)))
    (putSelfTest (some { t with left := t.left.take 1, spare := false, aborted := true }))).run d := by
  rw [abortsTest, Eff.run_obs, Eff.run_when_pos (beq_iff_eq.2 hv), ht]
  dsimp only
  rw [if_pos hs]

end

theorem run_abortsTest_none (h : bit v 30 ≠ 1 ∨ d.selfTest = none) : (abortsTest v).run d = d := by
  rw [abortsTest, Eff.run_obs]
  rcases h with h | h
  · rw [Eff.run_when_neg (beq_false_of_ne h)]
  · rw [h, Eff.run_when]
    exact ite_self _

end

/-! ### CORE_TEST_SLICE (R448, R449, R457) -/

/-- A core rests at a beat boundary, or is empty. -/
def Core.resting (k : Core) : Bool := k.state == 0 || k.state == 3 || k.state == 4

/-- A core that a slice is to migrate may move: it is empty, or fenced and at rest. -/
def Core.movable (k : Core) : Bool := !(k.loaded.isSome && !(k.fenced && k.resting))

theorem Core.resting_iff {k : Core} : k.resting = true ↔ k.state = 0 ∨ k.state = 3 ∨ k.state = 4 := by
  simp [Core.resting, or_assoc]

theorem Core.movable_iff {k : Core} :
    k.movable = true ↔ k.loaded = none ∨ k.fenced = true ∧ (k.state = 0 ∨ k.state = 3 ∨ k.state = 4) := by
  rw [Core.movable, ← Core.resting_iff]
  cases k.loaded <;> simp

/-- The slice of a core for which core site 16 stands in. -/
def movedSlice (core site : Nat) (passed free : Bool) (t : SelfTest) (k : Core) : Eff :=
  if k.loaded.isSome && !(k.fenced && k.resting) then
    .when (!t.started) (.seq (migrationStart core) (putSelfTest (some { t with started := true })))
  else if !free then .seq (releaseCore core) (putSelfTest (some { t with started := false }))
  else .all [
    modCores core (fun x => { x with fenced := true, state := k.state }), migrationResume core true,
    (if passed then .seq (modCores core fun x => { x with fenced := true, state := k.state }) (migrationResume core false)
      else homeFails core site),
    sliceOver core passed t]

/-- The slice of a core whose state is saved and restored around it, for the running context `held` or for none. -/
def savedSlice (core site : Nat) (passed : Bool) (t : SelfTest) (k : Core) (held : Option Nat) : Eff := .all [
  (match held, k.loaded with
   | some c, some (_, leaf, prog) => saveRecord c core leaf prog
   | _, _ => .skip),
  (if passed then (match held with
    | some c => modCtxs c fun x => { x with saved := x.saved.filter (· != core) }
    | none => clearTile core) else clusterFails core site),
  sliceOver core passed t]

/-- The core may be tested where it is. -/
def mayTestHere (d : Device) (k : Core) : Option Nat → Bool
  | none => k.resting || k.state == 2
  | some c => (k.state == 2 || k.state == 0) && saveFits d c

section
variable {d : Device} {core q : Nat} {passed : Bool} {t : SelfTest}

theorem run_coreSlice_preempted (h : inPreempt d core = true) : (coreSlice core passed t).run d = d := by
  rw [coreSlice, Eff.run_obs]
  dsimp only
  rw [if_pos h, Eff.run_skip]

section
variable (hp : inPreempt d core = false)
include hp

/-- A core that a planned migration has fenced is passed over. -/
theorem run_coreSlice_fenced (hf : (d.coresAt core).fenced = true) (hs : t.started = false) :
    (coreSlice core passed t).run d = (skipSlice core t).run d := by
  rw [coreSlice, Eff.run_obs]
  dsimp only
  rw [if_neg (by rw [hp]; decide), if_pos (by rw [hf, hs]; rfl)]

variable (hq : clusterSite d (core / 128) (core / 16 % 8) = some q)
include hq

theorem run_coreSlice_moved (hf : (d.coresAt core).fenced = false ∨ t.started = true)
    (hs : t.started = true ∨ spareCoreFree d q = true) : (coreSlice core passed t).run d =
    (movedSlice core ((coreSite d core).getD 0) passed (spareCoreFree d q) t (d.coresAt core)).run d := by
  rw [coreSlice, Eff.run_obs]
  dsimp only
  rw [hq, Option.getD_some, if_neg (by rw [hp]; decide), if_neg (by rcases hf with h | h <;> simp [h]), if_pos (by simpa using hs)]
  rfl

theorem run_coreSlice_saved (hf : (d.coresAt core).fenced = false) (hs : t.started = false) (hn : spareCoreFree d q = false) :
    (coreSlice core passed t).run d =
    (Eff.when (mayTestHere d (d.coresAt core) ((d.coresAt core).ctx.filter fun c => d.fld F.CTX_RUN_state c == 2))
      (savedSlice core ((coreSite d core).getD 0) passed t (d.coresAt core)
        ((d.coresAt core).ctx.filter fun c => d.fld F.CTX_RUN_state c == 2))).run d := by
  rw [coreSlice, Eff.run_obs]
  dsimp only
  rw [hq, Option.getD_some, if_neg (by rw [hp]; decide), if_neg (by simp [hf]), if_neg (by simp [hs, hn])]
  rfl

end

end

section
variable {d : Device} {core site : Nat} {passed free : Bool} {t : SelfTest} {k : Core}

/-- A running core is fenced first. -/
theorem run_movedSlice_fences (hl : k.loaded ≠ none) (hf : k.fenced = false) (hs : t.started = false) :
    (movedSlice core site passed free t k).run d =
      (Eff.seq (migrationStart core) (putSelfTest (some { t with started := true }))).run d := by
  rw [movedSlice, if_pos (by rw [Option.isSome_iff_ne_none.2 hl, hf]; rfl), hs]
  rfl

/-- A core that has been fenced is waited for. -/
theorem run_movedSlice_waits (hs : t.started = true) (hl : k.loaded ≠ none)
    (hf : k.fenced = false ∨ k.state ≠ 0 ∧ k.state ≠ 3 ∧ k.state ≠ 4) :
    (movedSlice core site passed free t k).run d = d := by
  have hm : (k.loaded.isSome && !(k.fenced && k.resting)) = true := by
    rw [Option.isSome_iff_ne_none.2 hl, Bool.true_and, Bool.not_eq_true', Bool.and_eq_false_iff]
    refine hf.imp_right fun h => ?_
    rw [← Bool.not_eq_true, Core.resting_iff]
    omega
  rw [movedSlice, if_pos hm, hs]
  rfl

/-- Where core site 16 is no longer free the core is let go, and its slice begins again. -/
theorem movedSlice_lost (hm : k.movable = true) :
    movedSlice core site passed false t k = .seq (releaseCore core) (putSelfTest (some { t with started := false })) := by
  rw [Core.movable, Bool.not_eq_true'] at hm
  rw [movedSlice, hm, if_neg Bool.false_ne_true, Bool.not_false, if_pos rfl]

theorem movedSlice_tests (hm : k.movable = true) : movedSlice core site passed true t k = .all [
    modCores core (fun x => { x with fenced := true, state := k.state }), migrationResume core true,
    (if passed then .seq (modCores core fun x => { x with fenced := true, state := k.state }) (migrationResume core false)
      else homeFails core site),
    sliceOver core passed t] := by
  rw [Core.movable, Bool.not_eq_true'] at hm
  rw [movedSlice, hm, if_neg Bool.false_ne_true, Bool.not_true, if_neg Bool.false_ne_true]

/-- The state of a core that the context it runs has saved for the test. -/
def savesFor (c core : Nat) (k : Core) : Eff :=
  match k.loaded with
  | some (_, leaf, prog) => saveRecord c core leaf prog
  | none => .skip

theorem savedSlice_running (c : Nat) : savedSlice core site passed t k (some c) = .all [savesFor c core k,
    (if passed then modCtxs c fun x => { x with saved := x.saved.filter (· != core) } else clusterFails core site),
    sliceOver core passed t] := by
  unfold savedSlice savesFor
  cases k.loaded <;> rfl

theorem run_savedSlice_none : (savedSlice core site passed t k none).run d =
    (Eff.seq (if passed then clearTile core else clusterFails core site) (sliceOver core passed t)).run d := by
  simp only [savedSlice, Eff.run_all_cons, Eff.run_all_nil, Eff.run_skip, Eff.run_seq]

theorem mayTestHere_running {c : Nat} :
    mayTestHere d k (some c) = true ↔ (k.state = 2 ∨ k.state = 0) ∧ saveFits d c = true := by
  simp [mayTestHere]

theorem mayTestHere_none : mayTestHere d k none = true ↔ k.state ≤ 4 ∧ k.state ≠ 1 := by
  simp only [mayTestHere, Bool.or_eq_true, Core.resting_iff, beq_iff_eq]
  omega

end

section
variable {d : Device} {core q : Nat} {passed : Bool} {t : SelfTest} (hp : inPreempt d core = false)
  (hq : clusterSite d (core / 128) (core / 16 % 8) = some q)
include hp hq

theorem run_coreSlice_tests (hn : spareCoreFree d q = true) (hs : (d.coresAt core).fenced = false ∨ t.started = true)
    (hm : (d.coresAt core).movable = true) : (coreSlice core passed t).run d = (Eff.all [
      modCores core (fun x => { x with fenced := true, state := (d.coresAt core).state }), migrationResume core true,
      (if passed then .seq (modCores core fun x => { x with fenced := true, state := (d.coresAt core).state })
          (migrationResume core false)
        else homeFails core ((coreSite d core).getD 0)),
      sliceOver core passed t]).run d := by
  rw [run_coreSlice_moved hp hq hs (.inr hn), hn, movedSlice_tests hm]

section
variable (hf : (d.coresAt core).fenced = false) (hs : t.started = false) (hn : spareCoreFree d q = false)
include hf hs hn

section
variable {c : Nat} (hk : (d.coresAt core).ctx = some c) (hr : d.fld F.CTX_RUN_state c = 2)
include hk hr

/-- A core of the running context is tested where it is parked or empty and its state can be saved; else its slice waits. -/
theorem run_coreSlice_running : (coreSlice core passed t).run d = (Eff.when (mayTestHere d (d.coresAt core) (some c)) <| .all [
    savesFor c core (d.coresAt core),
    (if passed then modCtxs c fun x => { x with saved := x.saved.filter (· != core) }
      else clusterFails core ((coreSite d core).getD 0)),
    sliceOver core passed t]).run d := by
  rw [run_coreSlice_saved hp hq hf hs hn, hk, Option.filter_some, beq_iff_eq.2 hr, if_pos rfl, savedSlice_running]

theorem run_coreSlice_running_waits
    (h : (d.coresAt core).state ≠ 2 ∧ (d.coresAt core).state ≠ 0 ∨ saveFits d c = false) :
    (coreSlice core passed t).run d = d := by
  rw [run_coreSlice_running hp hq hf hs hn hk hr]
  refine Eff.run_when_neg ?_ _ _
  rw [← Bool.not_eq_true, mayTestHere_running]
  rintro ⟨hq, hv⟩
  rcases h with ⟨h2, h0⟩ | h
  · exact hq.elim h2 h0
  · exact absurd hv (by simp [h])

end

section
variable (hk : ((d.coresAt core).ctx.filter fun c => d.fld F.CTX_RUN_state c == 2) = none)
include hk

/-- A core of no running context is tested where it does not run. -/
theorem run_coreSlice_idle (h4 : (d.coresAt core).state ≤ 4) (h1 : (d.coresAt core).state ≠ 1) :
    (coreSlice core passed t).run d = (Eff.seq (if passed then clearTile core
      else clusterFails core ((coreSite d core).getD 0)) (sliceOver core passed t)).run d := by
  rw [run_coreSlice_saved hp hq hf hs hn, hk, Eff.run_when_pos (mayTestHere_none.2 ⟨h4, h1⟩), run_savedSlice_none]

theorem run_coreSlice_idle_waits (h : (d.coresAt core).state = 1 ∨ 5 ≤ (d.coresAt core).state) :
    (coreSlice core passed t).run d = d := by
  rw [run_coreSlice_saved hp hq hf hs hn, hk]
  refine Eff.run_when_neg ?_ _ _
  rw [← Bool.not_eq_true, mayTestHere_none]
  omega

end

end

end

/-! ### A slice of the command in progress (R448) -/

section
variable {d : Device} {passed expired : Bool} {t : SelfTest} {q : Nat}

theorem run_coreTestSlice_none (ht : d.selfTest = none) : (coreTestSlice passed expired).run d = d := by
  rw [coreTestSlice, Eff.run_obs, ht, Eff.run_skip]

section
variable (ht : d.selfTest = some t)
include ht

theorem run_coreTestSlice_noSite (hq : clusterSite d t.die t.cluster = none) :
    (coreTestSlice passed expired).run d = (testEnds 2 t.left).run d := by
  rw [coreTestSlice, Eff.run_obs, ht]
  dsimp only
  rw [hq]

variable (hq : clusterSite d t.die t.cluster = some q)
include hq

theorem run_coreTestSlice_expired (he : expired = true) (hs : t.started = false) :
    (coreTestSlice passed expired).run d = (testEnds 2 t.left).run d := by
  rw [coreTestSlice, Eff.run_obs, ht]
  dsimp only
  rw [hq]
  dsimp only
  rw [if_pos (by rw [he, hs]; rfl)]

variable (he : expired = false ∨ t.started = true)
include he

theorem run_coreTestSlice_core {core : Nat} {rest : List Nat} (hl : t.left = core :: rest) :
    (coreTestSlice passed expired).run d = (coreSlice core passed t).run d := by
  rw [coreTestSlice, Eff.run_obs, ht]
  dsimp only
  rw [hq]
  dsimp only
  rw [if_neg (by rcases he with h | h <;> simp [h]), hl]

/-- After the named cores, core site 16. -/
theorem run_coreTestSlice_spare (hl : t.left = []) : (coreTestSlice passed expired).run d =
    (Eff.seq (.when (t.spare && spareCoreFree d q) (if passed then setF F.TST_STATUS_spare_passed 0 1
      else .seq (setF F.TST_STATUS_spare_failed 0 1) (retireNow 1 (q * 17 + 16)))) (testEnds 2 [])).run d := by
  rw [coreTestSlice, Eff.run_obs, ht]
  dsimp only
  rw [hq]
  dsimp only
  rw [if_neg (by rcases he with h | h <;> simp [h]), hl]

end

end

/-! ### The fault log and the steward (R451, R453, R454) -/

section
variable {d : Device}

theorem run_faultLogFlush (h : d.flogSaved < d.flogHead) : faultLogFlush.run d = saveLog.run d := by
  rw [faultLogFlush, Eff.run_obs, Eff.run_when_pos (decide_eq_true h)]

theorem run_faultLogFlush_none (h : d.flogHead ≤ d.flogSaved) : faultLogFlush.run d = d := by
  rw [faultLogFlush, Eff.run_obs, Eff.run_when_neg (decide_eq_false (Nat.not_lt.2 h))]

variable {mismatch : Bool} {r : Option Nat}

theorem run_stewardTakeover_second (h : d.fld F.STW_STEWARD_active 0 = 1) :
    (stewardTakeover mismatch r).run d = (putOff 3).run d := by
  rw [stewardTakeover.eq_def, Eff.run_obs, if_pos (beq_iff_eq.2 h), stewardLost]

theorem run_stewardTakeover (h : d.fld F.STW_STEWARD_active 0 ≠ 1) : (stewardTakeover mismatch r).run d =
    (Eff.all [setF F.STW_STEWARD_active 0 1, addWrap F.STW_STEWARD_takeovers 0 1,
      .when mismatch (addSat F.STW_STEWARD_mismatches 0 1),
      if r = none then .skip else if r = some 0 then saveMargin else if r = some 1 then saveSpare else saveLog]).run d := by
  have hr : (match r with
      | some 0 => saveMargin
      | some 1 => saveSpare
      | some _ => saveLog
      | none => .skip) =
      if r = none then .skip else if r = some 0 then saveMargin else if r = some 1 then saveSpare else saveLog := by
    rcases r with _ | _ | _ | n <;> simp
  rw [stewardTakeover.eq_def, Eff.run_obs, if_neg (mt beq_iff_eq.1 h), ← hr] <;> rfl

end

/-! ### The commands -/

section
variable {s : State}

theorem does_replan {slack vmin drift eyes : List Nat} (hd : drift.all (· < 1456) = true) (he : eyes.all (· < 1536) = true)
    (hp : powered s.dev = true) : Does (.replan slack vmin drift eyes) s (replan slack vmin drift eyes) :=
  does_whileIt (by rw [hd, he]; rfl) hp rfl

theorem does_peakCharge (hp : powered s.dev = true) : Does .peakCharge s peakCharge := does_whileIt rfl hp rfl

theorem gives_selfTestCmd {d : Device} {rq : Nat} (h : AsksAon s rq d) (v : Nat) :
    Gives (.selfTestCmd rq v) s d (selfTestCmd rq v) := gives_aonDo (decide_eq_true h.lt) h rfl

theorem gives_selfTestAbort {d : Device} {rq v : Nat} (h : WritesAon s rq .TST_CMD 0 v 30 d) :
    Gives (.selfTestAbort rq v) s d (abortsTest v) := gives_writesAon (decide_eq_true h.asks.lt) h rfl

theorem does_coreTestSlice (hp : powered s.dev = true) (passed expired : Bool) :
    Does (.coreTestSlice passed expired) s (coreTestSlice passed expired) := does_whileIt rfl hp rfl

theorem does_faultLogFlush (hu : up s.dev = true) : Does .faultLogFlush s faultLogFlush := does_whileIt rfl hu rfl

theorem does_stewardTakeover {mismatch : Bool} {r : Option Nat} (hr : r.all (· < 3) = true) (hu : up s.dev = true) :
    Does (.stewardTakeover mismatch r) s (stewardTakeover mismatch r) := does_whileIt hr hu rfl

end

/-- Settles O46: a re-plan and a peak charge go by the power state and the clusters; a self-test command and its abort by the right,
the state and what is left to test, and each slice by the core it is for (log entries 97, 99 and 144); the steward by whether its
standby is in already (log entries 96 and 100). -/
theorem health : Obligations.Health := by
  refine ⟨fun s slack vmin drift eyes hd he => ⟨fun hp hs => ?_, fun h => ?_⟩, fun s => ⟨fun i hp hi hc hk => ?_, fun h => ?_⟩,
    fun s d rq v die cl left h hd hc hl => ?_, fun s d rq v h hb => ?_, fun s d rq v h => ?_, fun s passed expired h => ?_,
    fun s passed expired t hp ht => ⟨fun hq => ?_, fun q hq he hs => ?_, fun q hq he hl => ?_,
      fun q core rest k site hq he hl hc hk hs => ?_⟩,
    fun s => ⟨fun hu h => (does_faultLogFlush hu).of_run (run_faultLogFlush h), fun h => ?_⟩,
    fun s mismatch r hr => ⟨fun hu h => (does_stewardTakeover hr hu).of_run (run_stewardTakeover h),
      fun hu h => (does_stewardTakeover hr hu).of_run (run_stewardTakeover_second h), fun hu => does_whileIt_not hr hu rfl⟩,
    fun s => ⟨fun hu => does_whileIt rfl hu rfl, fun hu => does_whileIt_not rfl hu rfl⟩⟩
  · have hi := idleOrRun_iff.2 ⟨off_of_powered hp, hs⟩
    exact (does_replan hd he hp).of_run ((run_replan hi).trans (Eff.run_obs _ _))
  · by_cases hp : powered s.dev = true
    · obtain ⟨h2, h3⟩ := h.resolve_left (by simp [hp])
      exact (does_replan hd he hp).of_run (run_replan_none h2 h3)
    · exact does_whileIt_not (by rw [hd, he]; rfl) (Bool.eq_false_iff.2 hp) rfl
  · exact (does_peakCharge hp).of_run (run_peakCharge ((atPeak_iff (off_of_powered hp)).2 ⟨i, hi, hc, hk⟩))
  · by_cases hp : powered s.dev = true
    · have ha : atPeak s.dev = false := by
        rw [← Bool.not_eq_true, atPeak_iff (off_of_powered hp)]
        rintro ⟨i, hi, hc, hk⟩
        exact ((h.resolve_left (by simp [hp])) i hi).elim (· hc) (by omega)
      exact (does_peakCharge hp).of_run (run_peakCharge_none ha)
    · exact does_whileIt_not rfl (Bool.eq_false_iff.2 hp) rfl
  · subst hd hc hl
    have hx := gives_selfTestCmd h v
    refine ⟨fun hm => hx.of_run (run_selfTestCmd_denied hm), fun hm hn => hx.of_run (run_selfTestCmd_refused hm (.inl hn)),
      fun hm hn => hx.of_run (run_selfTestCmd_refused hm (.inr ?_)), fun hm hn h0 hs => ?_⟩
    · rw [← Bool.not_eq_true, idleOrRun_iff]
      omega
    · have hy := hx.of_run (run_selfTestCmd hm hn (idleOrRun_iff.2 ⟨h0, hs⟩))
      refine ⟨fun hc hl => hy.of_run ?_, fun hc => ?_⟩
      · have ht : nothingToTest d v = false := by
          rw [← Bool.not_eq_true, nothingToTest_iff, Option.eq_none_iff_forall_ne_some]
          obtain ⟨q, hq⟩ := Option.isSome_iff_exists.1 hc
          rintro (hn | ⟨hn, hb⟩)
          · exact hn q hq
          · exact hl.elim (· hn) (· hb)
        simp only [ht, Eff.when_false, Eff.run_all_cons, Eff.run_all_nil, Eff.run_skip]
      · rwa [nothingToTest_iff.2 hc, Eff.when_true] at hy
  · exact (gives_aonDo (decide_eq_true h.lt) h rfl).of_run (run_writeAct_denied hb _ _)
  · have hx := gives_selfTestAbort h
    exact ⟨fun t hv ht hs => hx.of_run ((run_abortsTest_waiting hv ht hs).trans (run_testEnds _ _)),
      fun t hv ht hs => hx.of_run (run_abortsTest_started hv ht hs), fun h => hx.of_run (run_abortsTest_none h)⟩
  · by_cases hp : powered s.dev = true
    · exact (does_coreTestSlice hp passed expired).of_run (run_coreTestSlice_none (h.resolve_left (by simp [hp])))
    · exact does_whileIt_not rfl (Bool.eq_false_iff.2 hp) rfl
  · exact (does_coreTestSlice hp passed expired).of_run (run_coreTestSlice_noSite ht hq)
  · exact (does_coreTestSlice hp passed expired).of_run (run_coreTestSlice_expired ht hq he hs)
  · have hx := (does_coreTestSlice hp passed expired).of_run (run_coreTestSlice_spare ht hq he hl)
    refine ⟨fun hs hf hv => ?_, fun hs hf hv => ?_, fun h => hx.of_run ?_⟩
    · subst hv
      rwa [hs, hf, Bool.and_self, Eff.when_true, if_pos rfl] at hx
    · subst hv
      rw [hs, hf, Bool.and_self, Eff.when_true, if_neg Bool.false_ne_true] at hx
      exact hx.of_run (by simp only [Eff.run_seq, Eff.run_all_cons, Eff.run_all_nil])
    · rw [Eff.run_seq, Eff.run_when_neg (Bool.and_eq_false_iff.2 h)]
  · subst hk hs
    have hx := (does_coreTestSlice hp passed expired).of_run (run_coreTestSlice_core ht hq he hl)
    refine ⟨fun hi => hx.of_run (run_coreSlice_preempted hi), fun hi hf hs => hx.of_run ?_, fun hi hf hs hn hd =>
        hx.of_run ((run_coreSlice_moved hi hc (.inl hf) (.inr hn)).trans (run_movedSlice_fences hd hf hs)),
      fun hi hs hd hf => hx.of_run ((run_coreSlice_moved hi hc (.inr hs) (.inl hs)).trans (run_movedSlice_waits hs hd hf)),
      fun hi hs hm hn => hx.of_run ((run_coreSlice_moved hi hc (.inr hs) (.inl hs)).trans ?_),
      fun hi hn hs hm => ?_, fun hi hf hs hn => ⟨fun c save hk hr hv => ?_, fun hk => ?_⟩⟩
    · rw [run_coreSlice_fenced hi hf hs, skipSlice, Eff.run_obs]
      simp only [Eff.run_seq, Eff.run_all_cons, Eff.run_all_nil]
    · rw [hn, movedSlice_lost (Core.movable_iff.2 hm)]
    · have hy := hx.of_run (run_coreSlice_tests hi hc hn hs (Core.movable_iff.2 hm))
      refine ⟨fun hv => hy.of_run ?_, fun hv => hy.of_run ?_⟩
      · simp only [hv, if_true, Eff.run_seq, Eff.run_all_cons, Eff.run_all_nil]
      · rw [hv, if_neg Bool.false_ne_true]
    · obtain rfl : save = savesFor c core (s.dev.coresAt core) := hv
      have hy := hx.of_run (run_coreSlice_running hi hc hf hs hn hk hr)
      refine ⟨fun hq hv hp => ?_, fun hq hv hp => ?_,
        fun h => hx.of_run (run_coreSlice_running_waits hi hc hf hs hn hk hr h)⟩
      · subst hp
        rwa [mayTestHere_running.2 ⟨hq, hv⟩, Eff.when_true, if_pos rfl] at hy
      · subst hp
        rwa [mayTestHere_running.2 ⟨hq, hv⟩, Eff.when_true, if_neg Bool.false_ne_true] at hy
    · exact ⟨fun h4 h1 hp => hx.of_run ((run_coreSlice_idle hi hc hf hs hn hk h4 h1).trans (by rw [if_pos hp, hp])),
        fun h4 h1 hp => hx.of_run ((run_coreSlice_idle hi hc hf hs hn hk h4 h1).trans (by rw [hp, if_neg Bool.false_ne_true])),
        fun h => hx.of_run (run_coreSlice_idle_waits hi hc hf hs hn hk h)⟩
  · by_cases hu : up s.dev = true
    · exact (does_faultLogFlush hu).of_run (run_faultLogFlush_none (h.resolve_left (by simp [hu])))
    · exact does_whileIt_not rfl (Bool.eq_false_iff.2 hu) rfl

end Sys2Proof.Machine
end

section
/-! PROOFS. The start, device reset, firmware and recovery (R477, R480, R482 to R485, R491). -/

namespace Sys2Proof.Machine

/- As in the tests, one theorem after another: each one elaborated beside others holds a thread's stack. -/
set_option Elab.async false

/-! ### POWER_ON_SEQUENCE and DEV_RESET (R477, R491) -/

/-- The device is as its reset leaves it: no step of a start has run. -/
def freshDevice (d : Device) : Bool := d.off == 0 && d.fld F.STW_BOOT_step 0 == 0 && d.fld F.STW_BOOT_recovery 0 == 0

/-- The device may start: from VIN valid, or from reset. -/
def mayStart (d : Device) : Bool := d.off == 1 && d.vin.valid || freshDevice d

section
variable {d : Device} {e : Env}

theorem freshDevice_iff : freshDevice d = true ↔
    d.off = 0 ∧ d.fld F.STW_BOOT_step 0 = 0 ∧ d.fld F.STW_BOOT_recovery 0 = 0 := by
  simp [freshDevice, and_assoc]

theorem mayStart_iff : mayStart d = true ↔ d.off = 1 ∧ d.vin.valid = true ∨
    d.off = 0 ∧ d.fld F.STW_BOOT_step 0 = 0 ∧ d.fld F.STW_BOOT_recovery 0 = 0 := by
  simp [mayStart, freshDevice_iff]

theorem run_powerOn (hc : e.aonClock ≠ 0) (h : mayStart d = true) : (powerOn e).run d =
    (Eff.all [.when (freshDevice d) clearVolatile, stepTwo e, startSteps e]).run d := by
  rw [powerOn, Eff.run_obs]
  exact Eff.run_when_pos (by rw [bne_iff_ne.2 hc, Bool.true_and]; exact h) _ _

theorem run_powerOn_valid (hc : e.aonClock ≠ 0) (h1 : d.off = 1) (hv : d.vin.valid = true) :
    (powerOn e).run d = (Eff.seq (stepTwo e) (startSteps e)).run d := by
  have hn : freshDevice d = false := by simp [freshDevice, h1]
  rw [run_powerOn hc (mayStart_iff.2 (.inl ⟨h1, hv⟩)), hn, Eff.run_all_cons, Eff.when_false, Eff.run_skip, Eff.run_all_cons,
    Eff.run_all_cons, Eff.run_all_nil, Eff.run_seq]

theorem run_powerOn_fresh (hc : e.aonClock ≠ 0) (h0 : d.off = 0) (hs : d.fld F.STW_BOOT_step 0 = 0)
    (hr : d.fld F.STW_BOOT_recovery 0 = 0) : (powerOn e).run d = (Eff.all [clearVolatile, stepTwo e, startSteps e]).run d := by
  rw [run_powerOn hc (mayStart_iff.2 (.inr ⟨h0, hs, hr⟩)), freshDevice_iff.2 ⟨h0, hs, hr⟩, Eff.when_true]

theorem run_powerOn_none (h : e.aonClock = 0 ∨ mayStart d = false) : (powerOn e).run d = d := by
  rw [powerOn, Eff.run_obs]
  refine Eff.run_when_neg (Bool.and_eq_false_iff.2 (h.imp_left fun h => ?_)) _ _
  rw [h, bne_self_eq_false]

variable {rq v : Nat}

theorem run_devReset_denied (hm : mayWrite d rq .STW_DEVRESET 0 = 0) : (devReset rq v e).run d = denied.run d := by
  rw [devReset, Eff.run_obs, if_pos (beq_iff_eq.2 hm)]

section
variable (hm : mayWrite d rq .STW_DEVRESET 0 ≠ 0)
include hm

theorem run_devReset (hb : bit v 31 = 1) (hk : bits v 7 0 = 0xA7) : (devReset rq v e).run d = (devResetNow e).run d := by
  rw [devReset, Eff.run_obs, if_neg (mt beq_iff_eq.1 hm), Eff.run_when_pos (by rw [hb, hk]; rfl)]

theorem run_devReset_otherKey (h : bit v 31 ≠ 1 ∨ bits v 7 0 ≠ 0xA7) : (devReset rq v e).run d = d := by
  rw [devReset, Eff.run_obs, if_neg (mt beq_iff_eq.1 hm),
    Eff.run_when_neg (Bool.and_eq_false_iff.2 (h.imp beq_false_of_ne beq_false_of_ne))]

end

end

/-! ### Firmware commands (R483, R484) -/

section
variable {d : Device} {rq v : Nat} (run : Device → Eff)

theorem run_fwCommand_denied (hm : mayWrite d rq .STW_FW_CTRL 0 = 0) : (fwCommand rq v run).run d = denied.run d := by
  rw [fwCommand, Eff.run_obs, if_pos (beq_iff_eq.2 hm)]

section
variable (hm : mayWrite d rq .STW_FW_CTRL 0 ≠ 0)
include hm

theorem run_fwCommand_busy (hb : d.fld F.STW_FW_CTRL_busy 0 = 1) : (fwCommand rq v run).run d =
    (Eff.seq (storeWrite rq .STW_FW_CTRL 0 v) (setF F.STW_FW_CTRL_result 0 7)).run d := by
  rw [fwCommand, Eff.run_obs, if_neg (mt beq_iff_eq.1 hm), if_pos (beq_iff_eq.2 hb)]

theorem run_fwCommand (hb : d.fld F.STW_FW_CTRL_busy 0 ≠ 1) :
    (fwCommand rq v run).run d = (Eff.seq (storeWrite rq .STW_FW_CTRL 0 v) (run d)).run d := by
  rw [fwCommand, Eff.run_obs, if_neg (mt beq_iff_eq.1 hm), if_neg (mt beq_iff_eq.1 hb)]

end

end

/-- Each of the firmware commands is a write of STW_FW_CTRL that acts as its own part says. -/
theorem exec_fwCommand {c : Instr} {rq slot op : Nat} {flashOk : Bool} (hc : (c, op) ∈ [(.fwWriteSlot rq slot flashOk, 1),
      (.fwPreferSlot rq slot flashOk, 2), (Instr.fwCommitMinver rq slot, 3)]) (s : State) : ∃ run, exec c s =
    perform (decide (rq < 2049) && decide (slot < 2)) (aonDo rq (fwCommand rq (fwValue op slot) run)) s := by
  simp only [List.mem_cons, List.not_mem_nil, or_false, Prod.mk.injEq] at hc
  rcases hc with ⟨rfl, rfl⟩ | ⟨rfl, rfl⟩ | ⟨rfl, rfl⟩
  all_goals exact ⟨_, rfl⟩

/-- The code of a preference for a slot: the slot does not pass, or boot control is not written. -/
theorem preferCode (ok flashOk : Bool) : (firstFail [(ok, 1), (flashOk, 6)]).getD 0 =
    if ok = false then 1 else if flashOk then 0 else 6 := by
  cases ok <;> cases flashOk <;> rfl

section
variable {d : Device}

theorem run_fwCtrlComplete {op slot code : Nat} (h : d.fwPending = some (op, slot, code)) : fwCtrlComplete.run d =
    (Eff.all [putFwPending none, setF F.STW_FW_CTRL_busy 0 0, setF F.STW_FW_CTRL_result 0 code]).run d := by
  rw [fwCtrlComplete, Eff.run_obs, h]

theorem run_fwCtrlComplete_none (h : d.fwPending = none) : fwCtrlComplete.run d = d := by
  rw [fwCtrlComplete, Eff.run_obs, h, Eff.run_skip]

/-! ### RECOVERY_CHUNK (R485) -/

variable {offset : Nat} {data : List Byte} {last : Bool} {e : Env}

/-- A chunk is shown and written into slot A. -/
def takesChunk (offset : Nat) (data : List Byte) : Eff :=
  .all [putRecBuf data, putRecCmd (offset, data.length), writeFlash offset data]

/-- After the last chunk slot A is checked, and a good one starts. -/
theorem run_recoveryChunk (h0 : d.off = 0) (hr : d.fld F.STW_BOOT_recovery 0 = 1) (hl : offset + data.length ≤ 0x1000000) :
    (recoveryChunk offset data last e).run d = (Eff.when last (.obs fun d =>
      .when (slotCheck d 0 == 0) (.seq (preferSlot 0) (devResetNow e)))).run ((takesChunk offset data).run d) := by
  rw [recoveryChunk, Eff.run_obs, Eff.run_when_pos (by rw [h0, hr, decide_eq_true hl]; rfl), takesChunk]
  simp only [Eff.run_all_cons, Eff.run_all_nil]

theorem run_recoveryChunk_none (h : d.off ≠ 0 ∨ d.fld F.STW_BOOT_recovery 0 ≠ 1 ∨ 0x1000000 < offset + data.length) :
    (recoveryChunk offset data last e).run d = d := by
  rw [recoveryChunk, Eff.run_obs]
  refine Eff.run_when_neg ?_ _ _
  rcases h with h | h | h
  · rw [beq_false_of_ne h, Bool.false_and, Bool.false_and]
  · rw [beq_false_of_ne h, Bool.and_false, Bool.false_and]
  · rw [decide_eq_false (Nat.not_le.2 h), Bool.and_false]

end

/-! ### The commands -/

section
variable {s : State} {e : Env} (he : e.ok = true)
include he

theorem does_powerOnSequence : Does (.powerOnSequence e) s (powerOn e) := does_perform he rfl

theorem gives_devReset {d : Device} {rq : Nat} (h : AsksAon s rq d) (v : Nat) :
    Gives (.devReset rq v e) s d (devReset rq v e) := gives_aonDo (by simp [h.lt, he]) h rfl

theorem does_recoveryChunk {data : List Byte} (hd : data.length < 32769) (offset : Nat) (last : Bool) :
    Does (.recoveryChunk offset data last e) s (recoveryChunk offset data last e) := does_perform (by simp [hd, he]) rfl

end

section
variable {s : State} {d : Device} {rq slot : Nat} {flashOk : Bool} (hs : slot < 2) (h : AsksAon s rq d)
  (hm : mayWrite d rq .STW_FW_CTRL 0 ≠ 0) (hb : d.fld F.STW_FW_CTRL_busy 0 ≠ 1)
include hs h hm hb

theorem gives_fwWriteSlot {a len n code : Nat} {img : List Byte} (ha : a = d.fld F.STW_FW_SRC_addr 0 * 4096)
    (hl : len = num (d.bytes a 256) 8 4)
    (hn : n = if len % 4096 == 0 && 256 ≤ len && len ≤ 0x1000000 then len else 256) (hi : img = d.bytes a n)
    (hc : code = (firstFail [(d.fld F.STW_FW_STATUS_running_slot 0 != slot, 8), (dramRange a n && !d.poisoned a n, 9),
      (fwCheck d img == 0, fwCheck d img), (flashOk, 6)]).getD 0) :
    Gives (.fwWriteSlot rq slot flashOk) s d (.all [storeWrite rq .STW_FW_CTRL 0 (fwValue 1 slot),
      .when (code == 0) (.seq (.upd (.bootFlashDrop fun k => k / 0x1000000 == slot)) (writeFlash (slotBase slot) img)),
      setF F.STW_FW_CTRL_busy 0 1, putFwPending (some (1, slot, code))]) := by
  subst hc hi hn hl ha
  have hx : Gives (.fwWriteSlot rq slot flashOk) s d _ := gives_aonDo (by simp [h.lt, hs]) h rfl
  refine hx.of_run ?_
  rw [fwWriteSlot, run_fwCommand _ hm hb]
  simp only [fwBusy, Eff.run_seq, Eff.run_all_cons, Eff.run_all_nil]

theorem gives_fwPreferSlot : Gives (.fwPreferSlot rq slot flashOk) s d (.all [storeWrite rq .STW_FW_CTRL 0 (fwValue 2 slot),
    .when ((if slotCheck d slot ≠ 0 then 1 else if flashOk then 0 else 6) == 0) (preferSlot slot), setF F.STW_FW_CTRL_busy 0 1,
    putFwPending (some (2, slot, if slotCheck d slot ≠ 0 then 1 else if flashOk then 0 else 6))]) := by
  have hx : Gives (.fwPreferSlot rq slot flashOk) s d _ := gives_aonDo (by simp [h.lt, hs]) h rfl
  refine hx.of_run ?_
  rw [fwPreferSlot, run_fwCommand _ hm hb]
  simp only [preferCode, beq_eq_false_iff_ne, fwBusy, Eff.run_seq, Eff.run_all_cons, Eff.run_all_nil]

theorem gives_fwCommitMinver : Gives (.fwCommitMinver rq slot) s d (.all [storeWrite rq .STW_FW_CTRL 0 (fwValue 3 slot),
    setF F.STW_FW_MINVER_minver 0 (max (d.fld F.STW_FW_MINVER_minver 0) d.fwVersion), setF F.STW_FW_CTRL_result 0 0]) := by
  have hx : Gives (.fwCommitMinver rq slot) s d _ := gives_aonDo (by simp [h.lt, hs]) h rfl
  refine hx.of_run ?_
  rw [fwCommitMinver, run_fwCommand _ hm hb]
  simp only [Eff.run_seq, Eff.run_all_cons, Eff.run_all_nil]

end

/-- Settles O50: a start goes by its clock and by how the device is supplied (log entries 105 and 136), a device reset by its right
and its key; a firmware command by its right, by whether one is in progress, and by its checks, the result of which while busy is
log entry 107; a chunk by recovery mode and by where it ends (log entries 108 and 111). -/
theorem startsAndFirmware : Obligations.StartsAndFirmware := by
  refine ⟨fun s e start he hst => ⟨fun hc h1 hv => ?_, fun hc h0 hs hr => ?_, fun h => ?_, fun d rq v h => ?_⟩,
    fun s d rq slot op flashOk c hc hs h => ?_,
    fun s d rq slot a len n code img flashOk hs h hm hb ha hl hn hi hc => gives_fwWriteSlot hs h hm hb ha hl hn hi hc,
    fun s d rq slot flashOk hs h hm hb => ⟨fun code hc => ?_, gives_fwCommitMinver hs h hm hb⟩,
    fun s => ⟨fun op slot code hu hp => ?_, fun h => ?_⟩,
    fun s offset data last e hd he => ⟨fun h0 hr hl hn => ?_, fun d h0 hr hl hn hd' => ?_, fun h => ?_⟩⟩
  · obtain rfl : start = startSteps e := hst
    exact (does_powerOnSequence he).of_run (run_powerOn_valid hc h1 hv)
  · obtain rfl : start = startSteps e := hst
    exact (does_powerOnSequence he).of_run (run_powerOn_fresh hc h0 hs hr)
  · refine (does_powerOnSequence he).of_run (run_powerOn_none ?_)
    rw [← Bool.not_eq_true, mayStart_iff]
    rcases h with h | ⟨h0, h⟩ | ⟨h1, h⟩ | h
    · exact .inl h
    · exact .inr (by omega)
    · exact .inr (by simp [h1, h])
    · exact .inr (by omega)
  · obtain rfl : start = startSteps e := hst
    have hx := gives_devReset he h v
    exact ⟨fun hm => hx.of_run (run_devReset_denied hm),
      fun hm hb hk => hx.of_run ((run_devReset hm hb hk).trans (by rw [devResetNow, Eff.run_obs])),
      fun hm hn => hx.of_run (run_devReset_otherKey hm hn)⟩
  · obtain ⟨run, hc⟩ := exec_fwCommand hc s
    have hx := gives_aonDo (by simp [h.lt, hs]) h hc
    exact ⟨fun hm => hx.of_run (run_fwCommand_denied run hm), fun hm hb => hx.of_run (run_fwCommand_busy run hm hb)⟩
  · subst hc
    exact gives_fwPreferSlot hs h hm hb
  · have hx : Does .fwCtrlComplete s fwCtrlComplete := does_whileIt rfl hu rfl
    exact hx.of_run (run_fwCtrlComplete hp)
  · by_cases hu : up s.dev = true
    · have hx : Does .fwCtrlComplete s fwCtrlComplete := does_whileIt rfl hu rfl
      exact hx.of_run (run_fwCtrlComplete_none (h.resolve_left (by simp [hu])))
    · exact does_whileIt_not rfl (Bool.eq_false_iff.2 hu) rfl
  · refine (does_recoveryChunk he hd offset last).of_run ((run_recoveryChunk h0 hr hl).trans ?_)
    rw [hn, Eff.when_false, Eff.run_skip, takesChunk]
  · subst hd'
    refine (does_recoveryChunk he hd offset last).of_run ((run_recoveryChunk h0 hr hl).trans ?_)
    rw [hn, Eff.when_true, Eff.run_obs, takesChunk]
    split
    next hk => exact Eff.run_when_pos (beq_iff_eq.2 hk) _ _
    next hk => exact (Eff.run_when_neg (beq_false_of_ne hk) _ _).trans (Eff.run_skip _).symm
  · exact (does_recoveryChunk he hd offset last).of_run (run_recoveryChunk_none h)

end Sys2Proof.Machine
end

section
/-! PROOFS. The jobs of the codec engines (R356 to R358, R361, R363, R366, R367). -/

namespace Sys2Proof.Machine

/- As in the tests, one theorem after another: each one elaborated beside others holds a thread's stack. -/
set_option Elab.async false

/-! ### What a command does, effect by effect -/

section
variable {c : Instr} {s : State} {d : Device} {e e' : Eff} {b : Bool}

theorem Gives.obs {f : Device → Eff} (h : Gives c s d (.obs f)) : Gives c s d (f d) := h

theorem Gives.seq (h : Gives c s d (.seq e e')) : Gives c s (e.run d) e' := h

theorem Gives.when_pos (h : Gives c s d (.when b e)) (hb : b = true) : Gives c s d e := by
  rwa [hb, Eff.when_true] at h

theorem Gives.when_neg (h : Gives c s d (.when b e)) (hb : b = false) : Gives c s d .skip := by
  rwa [hb, Eff.when_false] at h

end

/-! ### Jobs and sessions (R356) -/

section
variable {d : Device} {e op : Nat} {run : Nat → Desc → Eff}

/-- An engine that does not serve, or has no such job in turn, takes none. -/
theorem run_onJob_none (h : engineServes d e = false ∨ jobTurn d e = none ∨ ∃ n x, jobTurn d e = some (n, x) ∧ x.op ≠ op) :
    (onJob e op run).run d = d := by
  rw [onJob, Eff.run_obs]
  rcases h with h | h | ⟨n, x, h, ho⟩
  · exact Eff.run_when_neg h _ _
  · rw [h, Eff.run_when, Eff.run_skip, ite_self]
  · rw [h]
    dsimp only
    rw [Eff.run_when, Eff.run_when_neg (beq_false_of_ne ho), ite_self]

end

section
variable {c : Instr} {s : State} {ok : Bool} (hok : ok = true) {e op n : Nat} {x : Desc} {d : Device} (h : TakesJob s e op n x d)
include hok h

theorem gives_onJob {run : Nat → Desc → Eff}
    (hc : exec c s = perform ok (whileIt Sys2Proof.Machine.serving (onJob e op run)) s) : Gives c s d (run n x) := by
  rw [Gives, hc, perform_ok hok, run_onJob h]

variable {us : Nat} {dir : Session → Bool} {run : Nat → Desc → Nat → Session → Eff}
  (hc : exec c s = perform ok (whileIt Sys2Proof.Machine.serving (onSession e op us dir run)) s)
include hc

theorem gives_onSession {q : Session} {k : Nat} (hk : k = e * 16 + x.session) (hq : d.sessionsAt k = some q) (hr : q.ring = n)
    (hd : dir q = true) : Gives c s d (run n x k q) := by
  subst hk
  rw [Gives, hc, perform_ok hok, run_onSession h hq (by rw [hr, hd, beq_self_eq_true]; rfl)]

/-- A job on a session that is not open for it ends NO_SESSION. -/
theorem gives_onSession_none (hq : d.sessionsAt (e * 16 + x.session) = none ∨
      ∃ q, d.sessionsAt (e * 16 + x.session) = some q ∧ (q.ring ≠ n ∨ dir q = false)) :
    Gives c s d (jobEnd n x 9 0 0 us) := by
  have hx := (gives_onJob hok h hc).obs
  rcases hq with hq | ⟨q, hq, hr⟩
  · rwa [hq] at hx
  · rw [hq] at hx
    exact hx.neg (by rw [Bool.and_eq_true, beq_iff_eq]; rcases hr with hr | hr <;> simp [hr])

end

/-- The commands of the jobs on a session, each with the direction of session it needs. -/
theorem exec_sessionJob {c : Instr} {e op us : Nat} {fixed lost bad : List Nat} {coded : List CodedPic} {found : List DecodedPic}
    (hc : (c, op) ∈ [(.encode e coded us fixed lost, 2), (.decode e bad found us fixed lost, 3), (.vceFlush e coded us, 4),
      (Instr.vceClose e us, 5)]) (s : State) : ∃ dir run,
    exec c s = perform (decide (e < 34) && decide (us < 4294967296)) (whileIt serving (onSession e op us dir run)) s ∧
    ∀ q : Session, (op = 2 ∧ q.encodes = false) ∨ (op = 3 ∧ q.encodes = true) → dir q = false := by
  simp only [List.mem_cons, List.not_mem_nil, or_false, Prod.mk.injEq] at hc
  rcases hc with ⟨rfl, rfl⟩ | ⟨rfl, rfl⟩ | ⟨rfl, rfl⟩ | ⟨rfl, rfl⟩
  · exact ⟨_, _, rfl, fun q hq => by simpa using hq⟩
  · exact ⟨_, _, rfl, fun q hq => by simpa using hq⟩
  · exact ⟨_, _, rfl, fun q hq => absurd hq (by simp)⟩
  · exact ⟨_, _, rfl, fun q hq => absurd hq (by simp)⟩

theorem exec_job {c : Instr} {e op us : Nat} {fixed lost bad : List Nat} {coded : List CodedPic} {found : List DecodedPic}
    (hc : (c, op) ∈ [(.vceOpen e us fixed lost, 1), (.encode e coded us fixed lost, 2), (.decode e bad found us fixed lost, 3),
      (.vceFlush e coded us, 4), (Instr.vceClose e us, 5)]) (s : State) : ∃ run,
    exec c s = perform (decide (e < 34) && decide (us < 4294967296)) (whileIt serving (onJob e op run)) s := by
  rcases List.mem_cons.1 hc with hc | hc
  · obtain ⟨rfl, rfl⟩ := Prod.mk.inj hc
    exact ⟨_, rfl⟩
  · obtain ⟨dir, run, hx, -⟩ := exec_sessionJob hc s
    exact ⟨_, hx⟩

/-! ### VCE_OPEN (R361) -/

/-- The sessions of an engine that are not open. -/
def spareSessions (d : Device) (e : Nat) : List Nat := (List.range 16).filter fun k => !(openSessions d e).contains k

/-- Open a session as one of those that are free. -/
def openSession (e n us : Nat) (x : Desc) (q : Session) (spare : List Nat) : Eff :=
  withFree fun v =>
    let k := spare.getD (v % spare.length) 0
    .all [putSessions (e * 16 + k) (some q), countSessions e, jobEnd n x 0 k 0 us]

theorem TakesJob.ok {s : State} {e op n us : Nat} {x : Desc} {d : Device} (h : TakesJob s e op n x d) (hu : us < 4294967296) :
    (decide (e < 34) && decide (us < 4294967296)) = true := by simp [h.inRange, hu]

section
variable {s : State} {d : Device} {e n us : Nat} {x : Desc} {fixed lost : List Nat} (h : TakesJob s e 1 n x d)
  (hu : us < 4294967296)
include h hu

theorem gives_vceOpen_unreadable (ht : translateRange d (ringCtx d n) (x.num 8 8) .read 128 = none) :
    Gives (.vceOpen e us fixed lost) s d (jobEnd n x 1 0 0 us) := by
  have hx : Gives (.vceOpen e us fixed lost) s d _ := gives_onJob (h.ok hu) h rfl
  have hx := hx.obs
  rwa [ht] at hx

section
variable {as : List Nat} (ht : translateRange d (ringCtx d n) (x.num 8 8) .read 128 = some as)
include ht

theorem gives_vceOpen_held (ha : agentHeld d (ringPart d n) as = true) : Gives (.vceOpen e us fixed lost) s d .skip := by
  have hx : Gives (.vceOpen e us fixed lost) s d _ := gives_onJob (h.ok hu) h rfl
  have hx := hx.obs
  rw [ht] at hx
  exact hx.when_neg (by rw [ha]; rfl)

/-- A job whose session block is read, as `q`, goes by what it holds. -/
theorem gives_vceOpen {d' : Device} {q : Session} (ha : agentHeld d (ringPart d n) as = false)
    (hd : (agentReads n as fixed lost).run d = d')
    (hq : q = { ring := n, block := d'.bytesAt as, fullness := Session.firstFullness { ring := n, block := d'.bytesAt as } }) :
    Gives (.vceOpen e us fixed lost) s d' (
      if anyPoison d' as then jobEnd n x 3 0 0 us
      else if q.unsupported then .seq (jobEnd n x 10 0 0 us) (addSat F.VCE_ERR_unsupported e 1)
      else if q.outOfRange || q.refused || spareSessions d' e == [] then jobEnd n x 8 0 0 us
      else openSession e n us x q (spareSessions d' e)) := by
  subst hd hq
  have hx : Gives (.vceOpen e us fixed lost) s d _ := gives_onJob (h.ok hu) h rfl
  have hx := hx.obs
  rw [ht] at hx
  exact (hx.when_pos (by rw [ha]; rfl)).seq.obs

end

end

/-! ### Writing what pictures code to (R357 to R359) -/

section
variable {d : Device} {n k us r1 : Nat} {x : Desc} {q : Session} {c : Coding} {tail bs : List Byte} {done : Session → Session}
  (hb : bs = c.out ++ tail)
include hb

theorem run_writeCoded_long (hl : x.num 0x1C 4 < bs.length) :
    (writeCoded n x k us q c tail done r1).run d = (jobEnd n x 12 0 0 us).run d := by
  subst hb
  rw [writeCoded, Eff.run_obs]
  dsimp only
  rw [if_pos hl]

variable (hl : bs.length ≤ x.num 0x1C 4)
include hl

theorem run_writeCoded_unwritable (ht : translateRange d (ringCtx d n) (x.num 0x10 8) .write bs.length = none ∨
      (∃ out, translateRange d (ringCtx d n) (x.num 0x10 8) .write bs.length = some out ∧ writable out = false)) :
    (writeCoded n x k us q c tail done r1).run d = (jobEnd n x 2 0 0 us).run d := by
  subst hb
  rw [writeCoded, Eff.run_obs]
  dsimp only
  rw [if_neg (Nat.not_lt.2 hl)]
  rcases ht with ht | ⟨out, ht, hw⟩
  · rw [ht]
  · rw [ht]
    dsimp only
    rw [hw, if_pos Bool.not_false]

variable {out : List Nat} (ht : translateRange d (ringCtx d n) (x.num 0x10 8) .write bs.length = some out)
  (hw : writable out = true)
include ht hw

theorem run_writeCoded_held (ha : agentHeld d (ringPart d n) out = true) : (writeCoded n x k us q c tail done r1).run d = d := by
  subst hb
  rw [writeCoded, Eff.run_obs]
  dsimp only
  rw [if_neg (Nat.not_lt.2 hl), ht]
  dsimp only
  rw [hw, if_neg (by simp), Eff.run_when_neg (by rw [ha]; rfl)]

theorem run_writeCoded (ha : agentHeld d (ringPart d n) out = false) : (writeCoded n x k us q c tail done r1).run d =
    (Eff.all [putFree (d.free + bs.length), store out bs, countStages (k / 16) q c.steps, putSessions k (some (done c.session)),
      jobEnd n x 0 bs.length r1 us]).run d := by
  subst hb
  rw [writeCoded, Eff.run_obs]
  dsimp only
  rw [if_neg (Nat.not_lt.2 hl), ht]
  dsimp only
  rw [hw, if_neg (by simp), Eff.run_when_pos (by rw [ha]; rfl)]

end

/-! ### ENCODE (R358, R366) -/

/-- What an ENCODE does once its input is read: the pictures code to `coding`, `own` is rate control's state for its picture. -/
def codes (n us k : Nat) (x : Desc) (q : Session) (key : Bool) (pics : List CodedPic) (coding : Coding)
    (own : Option (RcState × Bool)) : Eff :=
  if codesNow q key == 0 then
    .seq (putSessions k (some { afterInput q false with heldPics := q.heldPics + 1 })) (jobEnd n x 0 0 0 us)
  else writeCoded n x k us q coding [] (fun s => { afterInput s key with heldPics := 0 })
    (encodeResult q key
      (if q.rcMode = 0 then ((if key then pics.getLast? else pics.head?).map (·.qp)).getD 0 else (own.map (·.1.qp)).getD 0)
      (if q.rcMode = 0 then 0 else (own.map fun o => if o.2 then 4 else o.1.stages.foldl max 0).getD 0))

section
variable {s : State} {d : Device} {e n us k : Nat} {x : Desc} {q : Session} {key : Bool} {pics : List CodedPic} {coding : Coding}
  {fixed lost : List Nat} (h : TakesJob s e 2 n x d) (hu : us < 4294967296) (hk : k = e * 16 + x.session)
  (hq : d.sessionsAt k = some q) (hr : q.ring = n) (hd : q.encodes = true)
include h hu hk hq hr hd

theorem gives_encode_short (hm : q.rcMode ≠ 0) (hl : x.num 0x1C 4 < ceilDiv q.cpb 8 + 4096) :
    Gives (.encode e pics us fixed lost) s d (jobEnd n x 7 0 0 us) := by
  have hx : Gives (.encode e pics us fixed lost) s d _ := gives_onSession (h.ok hu) h rfl hk hq hr hd
  exact hx.obs.pos (by simp [hm, hl])

variable (hl : q.rcMode = 0 ∨ ceilDiv q.cpb 8 + 4096 ≤ x.num 0x1C 4)
include hl

theorem gives_encode_unreadable (ht : translateRange d (ringCtx d n) (x.num 8 8) .read (picSize q) = none) :
    Gives (.encode e pics us fixed lost) s d (jobEnd n x 1 0 0 us) := by
  have hx : Gives (.encode e pics us fixed lost) s d _ := gives_onSession (h.ok hu) h rfl hk hq hr hd
  have hx := hx.obs.neg (by simpa [Classical.or_iff_not_imp_left] using hl)
  rwa [ht] at hx

variable {as : List Nat} (ht : translateRange d (ringCtx d n) (x.num 8 8) .read (picSize q) = some as)
  (hkey : key = isKey q (bit x.ctrl 15 == 1))
  (hc : coding = codePics (padBytes d) ((List.replicate q.heldPics false ++ [key]).zip pics)
    { session := q, out := [], steps := [], legal := true })
include ht hkey hc

/-- A job whose input can be read waits while its memory is held, and no pictures but legal ones of the number due are coded. -/
theorem gives_encode_waits (ha : agentHeld d (ringPart d n) as = true ∨ pics.length ≠ codesNow q key ∨ coding.legal = false) :
    Gives (.encode e pics us fixed lost) s d .skip := by
  subst hc hkey
  have hx : Gives (.encode e pics us fixed lost) s d _ := gives_onSession (h.ok hu) h rfl hk hq hr hd
  have hx := hx.obs.neg (by simpa [Classical.or_iff_not_imp_left] using hl)
  rw [ht] at hx
  refine hx.when_neg ?_
  rcases ha with ha | ha | ha
  · rw [ha]; rfl
  · rw [beq_false_of_ne ha, Bool.and_false, Bool.false_and]
  · rw [ha, Bool.and_false]

theorem gives_encode {d' : Device} {own : Option (RcState × Bool)} (ha : agentHeld d (ringPart d n) as = false)
    (hp : pics.length = codesNow q key) (hg : coding.legal = true) (hd' : (agentReads n as fixed lost).run d = d')
    (ho : own = if key then coding.steps.getLast? else coding.steps.head?) :
    Gives (.encode e pics us fixed lost) s d'
      (if anyPoison d' as then jobEnd n x 3 0 0 us else codes n us k x q key pics coding own) := by
  subst hc hkey hd' ho
  have hx : Gives (.encode e pics us fixed lost) s d _ := gives_onSession (h.ok hu) h rfl hk hq hr hd
  have hx := hx.obs.neg (by simpa [Classical.or_iff_not_imp_left] using hl)
  rw [ht] at hx
  have hx := (hx.when_pos (by rw [ha, hp, hg, beq_self_eq_true]; rfl)).seq.obs
  simp only [beq_iff_eq] at hx
  rw [codes]
  simp only [beq_iff_eq]
  exact hx

end

/-! ### DECODE and DECODE_RESUME (R363) -/

/-- What a DECODE does once its input is read: what is found in it, and the pictures it decodes to. -/
def decodes (e n us k : Nat) (x : Desc) (q : Session) (f : Found) (poisoned : Bool) (pics : List DecodedPic) : Eff :=
  if f.refused then .all [jobEnd n x 10 0 0 us, addSat F.VCE_ERR_unsupported e 1, closeSession e x.session]
  else if f.pics.any fun p => q.field 0x38 2 < p.stream.buffers then jobEnd n x 13 0 0 us
  else .when (f.pics.length == pics.length && (f.pics.zip pics).all fun o => picMatches o.1 o.2) <|
    let q' := (f.pics.zip pics).foldl (fun s o => afterDecode s (x.num 0x28 8) o.1 o.2) { q with stream := f.stream }
    startPics n x k us (decodeOutcome f poisoned q' pics) q'

section
variable {s : State} {d : Device} {e n us k : Nat} {x : Desc} {q : Session} {bad : List Nat} {pics : List DecodedPic}
  {fixed lost : List Nat} (h : TakesJob s e 3 n x d) (hu : us < 4294967296) (hk : k = e * 16 + x.session)
  (hq : d.sessionsAt k = some q) (hr : q.ring = n) (hd : q.encodes = false)
include h hu hk hq hr hd

theorem gives_decode_unreadable (ht : translateRange d (ringCtx d n) (x.num 8 8) .read x.length = none) :
    Gives (.decode e bad pics us fixed lost) s d (jobEnd n x 1 0 0 us) := by
  have hx : Gives (.decode e bad pics us fixed lost) s d _ := gives_onSession (h.ok hu) h rfl hk hq hr (by rw [hd]; rfl)
  have hx := hx.obs
  rwa [ht] at hx

variable {as : List Nat} (ht : translateRange d (ringCtx d n) (x.num 8 8) .read x.length = some as)
include ht

theorem gives_decode_held (ha : agentHeld d (ringPart d n) as = true) : Gives (.decode e bad pics us fixed lost) s d .skip := by
  have hx : Gives (.decode e bad pics us fixed lost) s d _ := gives_onSession (h.ok hu) h rfl hk hq hr (by rw [hd]; rfl)
  have hx := hx.obs
  rw [ht] at hx
  exact hx.when_neg (by rw [ha]; rfl)

theorem gives_decode {d' : Device} {f : Found} (ha : agentHeld d (ringPart d n) as = false)
    (hd' : (agentReads n as fixed lost).run d = d')
    (hf : f = findPics q (d'.bytesAt as) bad (fun o m => anyPoison d' ((as.drop o).take m))) :
    Gives (.decode e bad pics us fixed lost) s d' (decodes e n us k x q f (anyPoison d' as) pics) := by
  subst hd' hf
  have hx : Gives (.decode e bad pics us fixed lost) s d _ := gives_onSession (h.ok hu) h rfl hk hq hr (by rw [hd]; rfl)
  have hx := hx.obs
  rw [ht] at hx
  exact (hx.when_pos (by rw [ha]; rfl)).seq.obs

end

section
variable {d : Device} {e k us : Nat}

theorem run_decodeResume_closed (hq : d.sessionsAt (e * 16 + k) = none) : (decodeResume e k us).run d = d := by
  rw [decodeResume, Eff.run_obs, hq, Eff.run_skip]

variable {q : Session} (hq : d.sessionsAt (e * 16 + k) = some q)
include hq

theorem run_decodeResume_noJob (hj : (q.job.bind fun j => (d.ringsAt q.ring).find? fun x => x.index == j) = none) :
    (decodeResume e k us).run d = d := by
  rw [decodeResume, Eff.run_obs, hq]
  dsimp only
  rw [hj, Eff.run_skip]

theorem run_decodeResume {x : Desc} (hj : (q.job.bind fun j => (d.ringsAt q.ring).find? fun x => x.index == j) = some x) :
    (decodeResume e k us).run d =
      (Eff.when (engineServes d e && freeBufs q != []) (decodePics q.ring x (e * 16 + k) us (q.pics.length + 1))).run d := by
  rw [decodeResume, Eff.run_obs, hq]
  dsimp only
  rw [hj]

end

/-! ### VCE_FLUSH and VCE_CLOSE (R358) -/

section
variable {s : State} {d : Device} {e n us k : Nat} {x : Desc} {q : Session} {pics : List CodedPic} (h : TakesJob s e 4 n x d)
  (hu : us < 4294967296) (hk : k = e * 16 + x.session) (hq : d.sessionsAt k = some q) (hr : q.ring = n)
include h hu hk hq hr

theorem gives_vceFlush_decoding (hd : q.encodes = false) : Gives (.vceFlush e pics us) s d
    (startPics n x k us 0 { q with pics := q.pics ++ q.waiting, waiting := [] }) := by
  have hx : Gives (.vceFlush e pics us) s d _ := gives_onSession (h.ok hu) h rfl hk hq hr rfl
  exact hx.obs.pos (by rw [hd]; rfl)

/-- The pictures of an open mini-GOP are coded where they are legal and as many as are held. -/
theorem gives_vceFlush {coding : Coding} {ends : Bool} (hd : q.encodes = true)
    (hc : coding = codePics (padBytes d) (pics.map fun p => (false, p)) { session := q, out := [], steps := [], legal := true })
    (he : ends = (bit x.ctrl 14 == 1 && !q.isAv1)) : Gives (.vceFlush e pics us) s d
      (.when (pics.length == q.heldPics && coding.legal) (writeCoded n x k us q coding (if ends then endOfSequence else [])
        (fun s => { s with heldPics := 0, sinceKey := if ends then none else s.sinceKey }) 0)) := by
  subst hc he
  have hx : Gives (.vceFlush e pics us) s d _ := gives_onSession (h.ok hu) h rfl hk hq hr rfl
  exact hx.obs.neg (by rw [hd]; simp)

end

theorem gives_vceClose {s : State} {d : Device} {e n us : Nat} {x : Desc} {q : Session} (h : TakesJob s e 5 n x d)
    (hu : us < 4294967296) (hq : d.sessionsAt (e * 16 + x.session) = some q) (hr : q.ring = n) : Gives (.vceClose e us) s d
      (.all [putSessions (e * 16 + x.session) none, countSessions e, jobEnd n x 0 0 0 us]) := by
  have hx : Gives (.vceClose e us) s d _ := gives_onSession (h.ok hu) h rfl rfl hq hr rfl
  refine hx.of_run ?_
  simp only [closeSession, Eff.run_seq, Eff.run_all_cons, Eff.run_all_nil]

/-- Settles O41: a job goes by its session, by whether its memory can be read and is held, and by its checks, the values rate
control and the decoder leave open being log entries 27, 81, 82, 140 and 141. -/
theorem codecJobs : Obligations.CodecJobs := by
  refine ⟨fun s e op us c fixed lost bad coded found hc he hu hv hn => ?_,
    fun s d e op n us x c fixed lost bad coded found h hu hc hq => ?_,
    fun s d e n us x fixed lost h hu => ⟨gives_vceOpen_unreadable h hu, fun as ht => ⟨gives_vceOpen_held h hu ht,
      fun d' q ha hd hq => ?_⟩⟩,
    fun s d e n us k x q key pics coding fixed lost h hu hk hq hr hd hkey hc => ⟨gives_encode_short h hu hk hq hr hd,
      fun hl => ⟨gives_encode_unreadable h hu hk hq hr hd hl, fun as ht => ⟨gives_encode_waits h hu hk hq hr hd hl ht hkey hc,
        fun d' ha hp hg hd' => ?_⟩⟩⟩,
    fun s d e n us k x q bad pics fixed lost h hu hk hq hr hd => ⟨gives_decode_unreadable h hu hk hq hr hd,
      fun as ht => ⟨gives_decode_held h hu hk hq hr hd ht, fun d' f ha hd' hf => ?_⟩⟩,
    fun s e k us he hk hu hv => ?_,
    fun s d e n us k x q pics h hu hk hq hr => ⟨gives_vceFlush_decoding h hu hk hq hr, fun coding ends bs hd hc he hb => ?_⟩,
    fun s d e n us x q h hu hq hr => gives_vceClose h hu hq hr⟩
  · obtain ⟨run, hx⟩ := exec_job hc s
    exact (does_whileIt (by simp [he, hu]) hv hx).of_run (run_onJob_none hn)
  · obtain ⟨dir, run, hx, hdir⟩ := exec_sessionJob hc s
    refine gives_onSession_none (h.ok hu) h hx (hq.imp_right ?_)
    rintro ⟨q, hq, hr⟩
    exact ⟨q, hq, hr.imp_right (hdir q)⟩
  · have hx := gives_vceOpen h hu ht ha hd hq
    refine ⟨fun hp => hx.pos hp, fun hp hn => (hx.neg (by simp [hp])).pos hn, fun hp hn => ?_⟩
    have hx := (hx.neg (by simp [hp])).neg (by simp [hn])
    refine ⟨fun hr => hx.pos ?_, fun ho hr hs => hx.neg ?_⟩
    · simpa [spareSessions, or_assoc] using hr
    · simpa [spareSessions, ho, hr] using hs
  · have hx := fun own ho => gives_encode (own := own) h hu hk hq hr hd hl ht hkey hc ha hp hg hd' ho
    refine ⟨fun hb => (hx _ rfl).pos hb, fun hb h0 => ?_, fun hb h0 => ?_⟩
    · have hx := (hx _ rfl).neg (by simp [hb])
      rw [codes] at hx
      exact hx.pos (beq_iff_eq.2 h0)
    · have hy : ∀ own, own = _ → Gives (.encode e pics us fixed lost) s d' _ := fun own ho => by
        have hx := (hx own ho).neg (by simp [hb])
        rw [codes] at hx
        exact hx.neg (mt beq_iff_eq.1 h0)
      have ho : coding.out = coding.out ++ [] := (List.append_nil _).symm
      exact ⟨fun hl => (hy _ rfl).of_run (run_writeCoded_long ho hl), fun hl =>
        ⟨fun ht => (hy _ rfl).of_run (run_writeCoded_unwritable ho hl ht), fun out ht hw =>
        ⟨fun ha => (hy _ rfl).of_run (run_writeCoded_held ho hl ht hw ha), fun own ha hown =>
          (hy own hown).of_run (run_writeCoded ho hl ht hw ha)⟩⟩⟩
  · have hx := gives_decode (pics := pics) h hu hk hq hr hd ht ha hd' hf
    rw [decodes] at hx
    refine ⟨fun hf => hx.pos hf, fun hf hb => (hx.neg (by simp [hf])).pos hb, fun hf hb => ?_⟩
    have hx := (hx.neg (by simp [hf])).neg (ne_true_of_eq_false hb)
    refine ⟨fun hn => hx.when_neg ?_, fun q' hl hm hq' => ?_⟩
    · rcases hn with hn | hn
      · rw [beq_false_of_ne hn, Bool.false_and]
      · rw [hn, Bool.and_false]
    · subst hq'
      have hx := hx.when_pos (by rw [hl, hm, beq_self_eq_true]; rfl)
      exact hx
  · have hx : Does (.decodeResume e k us) s (decodeResume e k us) := does_whileIt (by simp [he, hk, hu]) hv rfl
    refine ⟨fun hq => hx.of_run (run_decodeResume_closed hq), fun q hq => ⟨fun x hj => ⟨fun hs hf => ?_, fun hn => ?_⟩,
      fun hj => hx.of_run (run_decodeResume_noJob hq hj)⟩⟩
    · exact hx.of_run ((run_decodeResume hq hj).trans (Eff.run_when_pos (by simp [hs, hf]) _ _))
    · refine hx.of_run ((run_decodeResume hq hj).trans (Eff.run_when_neg ?_ _ _))
      rcases hn with hn | hn <;> simp [hn]
  · have hx := gives_vceFlush h hu hk hq hr hd hc he
    refine ⟨fun hn => hx.when_neg ?_, fun hn hg => ?_⟩
    · rcases hn with hn | hn
      · rw [beq_false_of_ne hn, Bool.false_and]
      · rw [hn, Bool.and_false]
    · have hx := hx.when_pos (by rw [hn, hg, beq_self_eq_true]; rfl)
      exact ⟨fun hl => hx.of_run (run_writeCoded_long hb hl), fun hl =>
        ⟨fun ht => hx.of_run (run_writeCoded_unwritable hb hl ht), fun out ht hw =>
        ⟨fun ha => hx.of_run (run_writeCoded_held hb hl ht hw ha), fun ha => hx.of_run (run_writeCoded hb hl ht hw ha)⟩⟩⟩

end Sys2Proof.Machine
end

section
/-! PROOFS. The ingest units: jobs and samples, stream slots and published figures (R374, R375, R380, R383, R386, R389). -/

namespace Sys2Proof.Machine

/- As in the tests, one theorem after another: each one elaborated beside others holds a thread's stack. -/
set_option Elab.async false

/-! ### Beginning a job (R375, R376) -/

section
variable {d : Device} {n : Nat} {x : Desc} {fixed lost : List Nat}

theorem run_beginJob_unreadable (ht : translateRange d (ringCtx d n) x.profileAt .read 64 = none ∨
      translateRange d (ringCtx d n) (x.num 8 8) .read (x.length * 32) = none) :
    (beginJob n x fixed lost).run d = (ingEnd n x 1).run d := by
  rw [beginJob, Eff.run_obs]
  dsimp only
  rcases ht with ht | ht
  · rw [ht]
  · rw [ht]
    cases translateRange d (ringCtx d n) x.profileAt .read 64 <;> rfl

variable {pa ta : List Nat} (hp : translateRange d (ringCtx d n) x.profileAt .read 64 = some pa)
  (ht : translateRange d (ringCtx d n) (x.num 8 8) .read (x.length * 32) = some ta)
include hp ht

theorem run_beginJob_held (ha : agentHeld d (ringPart d n) (pa ++ ta) = true) : (beginJob n x fixed lost).run d = d := by
  rw [beginJob, Eff.run_obs]
  dsimp only
  rw [hp, ht]
  exact Eff.run_when_neg (by rw [ha]; rfl) _ _

/-- A job whose profile and table are read goes by what the profile holds. -/
theorem run_beginJob {d' : Device} (ha : agentHeld d (ringPart d n) (pa ++ ta) = false)
    (hd : (agentReads n (pa ++ ta) fixed lost).run d = d') : (beginJob n x fixed lost).run d =
      (if anyPoison d' (pa ++ ta) then ingEnd n x 3
      else if Profile.bad ⟨d'.bytesAt pa⟩ || x.stride < Profile.slotBytes ⟨d'.bytesAt pa⟩ then ingEnd n x 7
      else .all [putRr (72 + ingOf n) n, setF F.ING_CTRL_busy (ingOf n) 1,
        modDesc n x.index fun y => { y with moved := d'.bytesAt pa, results := [0, 0, 0, 0] }]).run d' := by
  subst hd
  rw [beginJob, Eff.run_obs]
  dsimp only
  rw [hp, ht]
  exact Eff.run_when_pos (by rw [ha]; rfl) _ _

end

/-! ### CONVERT (R383) -/

/-- The next sample of the job of a unit that is in progress. -/
def nextSample (n us : Nat) (x : Desc) (fixed lost : List Nat) : Eff := .obs fun d =>
  match (d.ringsAt n).find? fun y => y.index == x.index && y.begun && y.status.isNone with
  | some y => runSample n y us fixed lost
  | none => .skip

section
variable {d : Device} {site n us : Nat} {x : Desc} {fixed lost : List Nat}

theorem run_convert_none (h : ingServes d site = false ∨ ingTurn d site = none) : (convert site us fixed lost).run d = d := by
  rw [convert, Eff.run_obs]
  rcases h with h | h
  · exact Eff.run_when_neg h _ _
  · rw [h, Eff.run_when, Eff.run_skip, ite_self]

/-- A unit with a job in turn begins it where it is not begun, and goes on with its next sample. -/
theorem run_convert (hs : ingServes d site = true) (ht : ingTurn d site = some (n, x)) : (convert site us fixed lost).run d =
    (nextSample n us x fixed lost).run ((Eff.when (!x.begun) (beginJob n x fixed lost)).run d) := by
  rw [convert, Eff.run_obs, ht]
  exact Eff.run_when_pos hs _ _

theorem run_nextSample_none (h : (d.ringsAt n).find? (fun y => y.index == x.index && y.begun && y.status.isNone) = none) :
    (nextSample n us x fixed lost).run d = d := by
  rw [nextSample, Eff.run_obs, h, Eff.run_skip]

theorem run_nextSample {y : Desc}
    (h : (d.ringsAt n).find? (fun y => y.index == x.index && y.begun && y.status.isNone) = some y) :
    (nextSample n us x fixed lost).run d = (runSample n y us fixed lost).run d := by
  rw [nextSample, Eff.run_obs, h]

end

section
variable {s : State} {site n us : Nat} {x : Desc} {fixed lost : List Nat} (hsite : site < 17) (hu : us < 4294967296)
  (hv : serving s.dev = true)
include hsite hu hv

theorem does_convert : Does (.convert site us fixed lost) s (convert site us fixed lost) :=
  does_whileIt (by simp [hsite, hu]) hv rfl

variable (hs : ingServes s.dev site = true) (ht : ingTurn s.dev site = some (n, x))
include hs ht

/-- A job that does not begin, `e` being what its beginning does instead, leaves nothing to convert. -/
theorem gives_convert_unbegun {d : Device} {e : Eff} (hb : x.begun = false) (he : (beginJob n x fixed lost).run s.dev = e.run d)
    (hn : ((e.run d).ringsAt n).find? (fun y => y.index == x.index && y.begun && y.status.isNone) = none) :
    Gives (.convert site us fixed lost) s d e := by
  refine (does_convert hsite hu hv).of_run ?_
  rw [run_convert hs ht, Eff.run_when_pos (by rw [hb]; rfl), he, run_nextSample_none hn]

/-- A job in progress, or one that has begun, is converted on the device as it then is. -/
theorem gives_convert_sample {d : Device} {y : Desc}
    (hd : (x.begun = true ∧ d = s.dev) ∨ (x.begun = false ∧ (beginJob n x fixed lost).run s.dev = d))
    (hy : (d.ringsAt n).find? (fun y => y.index == x.index && y.begun && y.status.isNone) = some y) :
    Gives (.convert site us fixed lost) s d (runSample n y us fixed lost) := by
  refine (does_convert hsite hu hv).of_run ?_
  rw [run_convert hs ht, ← run_nextSample hy]
  rcases hd with ⟨hb, rfl⟩ | ⟨hb, hd⟩
  · rw [Eff.run_when_neg (by rw [hb]; rfl)]
  · rw [Eff.run_when_pos (by rw [hb]; rfl), hd]

end

/-! ### One sample (R383) -/

section
variable {c : Instr} {s : State} {d : Device} {n us : Nat} {y : Desc} {p : Profile} {fixed lost : List Nat}
  (hx : Gives c s d (runSample n y us fixed lost))
include hx

theorem Gives.sample_unreadable (ht : translateRange d (ringCtx d n) (y.num 8 8 + 32 * y.samplesDone) .read 32 = none ∨
      translateRange d (ringCtx d n) (y.num 8 8 + 32 * y.samplesDone) .write 32 = none) : Gives c s d (ingEnd n y 1) := by
  have hx := hx.obs
  rcases ht with ht | ht
  · simp only [ht] at hx
    exact hx
  · simp only [ht] at hx
    cases hr : translateRange d (ringCtx d n) (y.num 8 8 + 32 * y.samplesDone) .read 32 <;> (rw [hr] at hx; exact hx)

variable {ta tw : List Nat} (hp : p = ⟨y.moved⟩)
  (ht : translateRange d (ringCtx d n) (y.num 8 8 + 32 * y.samplesDone) .read 32 = some ta)
  (hw : translateRange d (ringCtx d n) (y.num 8 8 + 32 * y.samplesDone) .write 32 = some tw)
include hp ht hw

theorem Gives.sample_noSlot (hs : translateRange d (ringCtx d n) (y.dst + y.samplesDone * y.stride) .write p.slotBytes = none) :
    Gives c s d (ingEnd n y 2) := by
  subst hp
  have hx := hx.obs
  dsimp only at hx
  rw [ht, hw] at hx
  dsimp only at hx
  rwa [hs] at hx

/-- A sample whose entry and slot translate goes by whether they can be read and written, and waits while they are held. -/
theorem Gives.sample {slot : List Nat} {e : Entry}
    (hs : translateRange d (ringCtx d n) (y.dst + y.samplesDone * y.stride) .write p.slotBytes = some slot)
    (he : e = ⟨tw, d.bytesAt ta⟩) : Gives c s d (
      if anyPoison d ta then ingEnd n y 3
      else if !writable slot then ingEnd n y 2
      else .when (!agentHeld d (ringPart d n) (ta ++ slot ++ (sampleSource d n p e).addrs)) <|
        .seq (agentReads n (ta ++ (sampleSource d n p e).addrs) fixed lost) <| .obs fun d =>
        writeSample n y p e (sampleSource d n p e) (checkSample d p e (sampleSource d n p e)) slot us) := by
  subst hp he
  have hx := hx.obs
  dsimp only at hx
  rw [ht, hw] at hx
  dsimp only at hx
  rw [hs] at hx
  exact hx

end

/-- Only a good sample is kept, and its data is the sample's own. -/
theorem when_keepHold (bad : Bool) (site slot pts : Nat) (p : Profile) (held own : List Byte) :
    Eff.when (!bad) (onSlot site slot fun t => keepHold site p t (if bad then held else own) pts) =
      Eff.when (!bad) (onSlot site slot fun t => keepHold site p t own pts) := by
  cases bad with
  | false => rfl
  | true => rw [Bool.not_true, Eff.when_false, Eff.when_false]

/-! ### STREAM_SLOT_RESET (R389) -/

section
variable {d : Device} {site slot : Nat}

theorem run_clearSlot {k : Slot} (hk : streamSlot d site slot = some k) : (clearSlot site slot).run d =
    (Eff.seq (k.setValid false) (store ((k.at_.drop 0x18).take 0x20) (toLE 0x20 0))).run d := by
  rw [clearSlot, Eff.run_obs, hk]
  simp only [Eff.run_seq, Eff.run_all_cons, Eff.run_all_nil]

theorem run_clearSlot_none (hk : streamSlot d site slot = none) : (clearSlot site slot).run d = d := by
  rw [clearSlot, Eff.run_obs, hk, Eff.run_skip]

end

section
variable {s : State} {d : Device} {rq site v : Nat} (hs : site < 17)
include hs

theorem gives_streamSlotReset_at (h : Asks s rq d) (hb : (isSteward rq || !siteGone d .ING_STREAM_CTRL site) = true) :
    Gives (.streamSlotReset rq site v) s d (streamSlotReset rq site v) := gives_atSite (by simp [h.lt, hs]) h rfl hb

theorem gives_streamSlotReset (h : Writes s rq .ING_STREAM_CTRL site v 31 d)
    (hb : (isSteward rq || !siteGone ((beforeAccess rq).run s.dev) .ING_STREAM_CTRL site) = true) :
    Gives (.streamSlotReset rq site v) s d (.when (bit v 31 == 1) (clearSlot site (bits v 7 0))) :=
  (gives_streamSlotReset_at hs h.asks hb).of_run (by rw [streamSlotReset, run_writeAct h])

end

/-! ### INGEST_PUBLISH (R386) -/

theorem serving_state {d : Device} (h : serving d = true) :
    (d.fld F.PWR_STATE_state 0 == 2 || d.fld F.PWR_STATE_state 0 == 3) = true := (Bool.and_eq_true_iff.1 h).2

theorem run_ingestPublish {d : Device} {failed : List Nat} (hv : serving d = true) : (ingestPublish failed).run d =
    (Eff.when (d.fld F.ING_PAGE_enable 0 == 1) (.seq (.when (pageThere d) (pageWrite 0 pageHeader))
      (.each (List.range 16) fun i => publish i (failed.contains i)))).run d := by
  rw [ingestPublish, Eff.run_obs, serving_state hv, Bool.and_true]

/-- Settles O43: CONVERT goes by the job in turn, by whether its memory can be read and is held, and by its checks, the choices
being log entries 84, 85 and 86; a slot reset goes by its right and its slot, and a publication by the page (log entry 30). -/
theorem ingestUnits : Obligations.IngestUnits := by
  refine ⟨fun s site us fixed lost hs hu hv hn => (does_convert hs hu hv).of_run (run_convert_none hn),
    fun s d d' site n us x e fixed lost hsite hu hv hs ht hb hc he hn => ?_,
    fun s d site n us i c x y p fixed lost hsite hu hv hs ht hd hy hp hi hc => ?_,
    fun s d rq site v hs h hb => ⟨fun k hv hk => ?_, fun hn => ?_⟩,
    fun s d rq site v hs h => ⟨fun hb hm => ?_, fun hb => gives_atSite_gone (by simp [h.lt, hs]) h rfl hb⟩,
    fun s failed hf hv => ?_⟩
  · subst he
    refine gives_convert_unbegun hsite hu hv hs ht hb ?_ hn
    rcases hc with ⟨hc, rfl, rfl⟩ | ⟨pa, ta, hpa, hta, ⟨ha, rfl, rfl⟩ | ⟨ha, hd, ⟨hp, rfl⟩ | ⟨hp, hbad, rfl⟩⟩⟩
    · exact run_beginJob_unreadable hc
    · exact run_beginJob_held hpa hta ha
    · rw [run_beginJob hpa hta ha hd, if_pos hp]
    · rw [run_beginJob hpa hta ha hd, if_neg (by simp [hp]), if_pos (by simpa using hbad)]
  · subst hi hc
    have hx : Gives (.convert site us fixed lost) s d _ := gives_convert_sample hsite hu hv hs ht (hd.imp_right ?_) hy
    · refine ⟨hx.sample_unreadable, fun ta tw hta htw => ⟨fun hn => ?_, fun slot e hslot he => ?_⟩⟩
      · rcases hn with hn | ⟨hpo, slot, hslot, hw⟩
        · exact hx.sample_noSlot hp hta htw hn
        · exact ((hx.sample hp hta htw hslot rfl).neg (by simp [hpo])).pos (by rw [hw]; rfl)
      · have hx := hx.sample hp hta htw hslot he
        refine ⟨hx.pos, fun hpo hw ha => ?_, fun d' src f hold bad unclean sat hpo hw ha hd' hsrc hf hbad hun hsat hhold => ?_⟩
        · exact ((hx.neg (by simp [hpo])).neg (by simp [hw])).when_neg (by rw [ha]; rfl)
        · have hx := (((hx.neg (by simp [hpo])).neg (by simp [hw])).when_pos (by rw [ha]; rfl)).seq.obs
          subst hd' hsrc hf hbad hun hsat hhold
          have hx := hx.obs
          dsimp only at hx
          rw [when_keepHold] at hx
          exact hx
    · rintro ⟨hb, pa, ta, d0, hpa, hta, ha, hd0, hpo, hbad, hfit, hd⟩
      refine ⟨hb, ?_⟩
      rw [run_beginJob hpa hta ha hd0, if_neg (by simp [hpo]), if_neg (by simpa [hbad] using hfit), hd]
  · exact (gives_streamSlotReset hs h hb).of_run ((Eff.run_when_pos (beq_iff_eq.2 hv) _ _).trans (run_clearSlot hk))
  · refine (gives_streamSlotReset hs h hb).of_run ?_
    rw [Eff.run_when]
    rcases hn with hv | hk
    · rw [hv, if_neg (by decide), Eff.run_skip]
    · rw [run_clearSlot_none hk, ite_self, Eff.run_skip]
  · exact (gives_streamSlotReset_at hs h hb).of_run (run_writeAct_denied hm _ _)
  · have hx : Does (.ingestPublish failed) s (ingestPublish failed) := does_whileIt hf hv rfl
    exact ⟨fun h1 => hx.of_run ((run_ingestPublish hv).trans (Eff.run_when_pos (beq_iff_eq.2 h1) _ _)),
      fun h1 => hx.of_run ((run_ingestPublish hv).trans (Eff.run_when_neg (beq_false_of_ne h1) _ _))⟩

end Sys2Proof.Machine
end
